-- ==== Sys2Proof/Word.lean ====
section
/-!
DEFINITION. Word.lean: the word types of the LC9640 and the shape of a sparse table. The configuration space
is a space of 32-bit registers (spec 00, "Configuration space at a glance"); device memory and every message
are octets (spec 01 R15, spec 03 R45).
-/

namespace Sys2Proof

/-- One octet of device memory or of a message. -/
abbrev Byte := BitVec 8

/-- One register of the configuration space (00_scope.md, "Configuration space at a glance"). -/
abbrev Word := BitVec 32

/-- A sparse table by number, in ascending order of its keys; what an absent key stands for is the reader's
default. -/
abbrev Tab (α : Type) := List (Nat × α)

end Sys2Proof
end

