-- ==== Sys2Proof/Syntax.lean ====
section
/-!
DEFINITION. Syntax.lean: the commands and events of the block, one constructor for each row of
spec/opcode_table.json, with its operands. The first operand `t` of every command is the local elapsed time in
nanoseconds (02 R25) at which it happens. What another agent decides or an analog part measures (a correlator
metric, a crossing instant, a fault) is an operand too.
-/

namespace Sys2Proof

/-- Where a mailbox message came from and goes back to (03 R43, R44): the MAC address, for UDP the IP address and
port, and the 802.1Q tag if there was one. -/
structure Addr where
  mac : Nat
  udp : Bool
  v6 : Bool
  ip : Nat
  uport : Nat
  tag : Option Nat
  deriving DecidableEq, Repr

/-- The UDP checksum of an arriving datagram (18 R410). -/
inductive UdpSum
  | right | wrong | zero
  deriving DecidableEq, Repr

/-- What 18 R410 tests of an arriving UDP datagram: its destination address, whether it is a fragment, whether it has an IPv6 extension
header, and its checksum. -/
structure IpHead where
  dst : Nat := 0
  fragment : Bool := false
  extension : Bool := false
  sum : UdpSum := .right
  deriving DecidableEq, Repr

/-- An arriving mailbox message (03 R43, R45): the Ethernet port, the source, the EtherType of its raw frame or the
destination port of its UDP datagram, whether the frame has the Ethernet minimum length, the octets it carries after the
carrier headers, the header's fields (`tag`: bits [12:0] of octets 2 and 3, of which bit 12 is reserved), the operand
octets, and what the IP header of a UDP datagram says. -/
structure Inbound where
  port : Nat
  src : Addr
  proto : Nat
  minFrame : Bool
  payLen : Nat
  version : Nat
  mb : Nat
  tag : Nat
  seq : Nat
  slot : Nat
  gen : Nat
  len : Nat
  operand : List Byte
  ip : IpHead := {}
  deriving DecidableEq, Repr

/-- What an arriving Ethernet frame carries, for the classification of 18 R413. `carrier` gives a raw frame or a UDP datagram: its
EtherType or destination port, how many octets follow the carrier headers, bits [7:4] of the first of them, the CLASS a mailbox
message has, and for UDP the IP header; `datagram` is an IP datagram other than UDP, an ICMP message for one. -/
inductive FrameClass
  | arp
  | neighbour
  | carrier (udp v6 : Bool) (proto payLen mark cls : Nat) (ip : IpHead := {})
  | datagram
  | pfc
  | other
  deriving DecidableEq, Repr

/-- An arriving Ethernet frame: its port, its length in octets with the FCS, its destination MAC address, its VLAN
identifier if it is tagged, and what it carries. -/
structure EthFrame where
  port : Nat
  len : Nat
  dst : Nat
  vid : Option Nat
  what : FrameClass
  deriving DecidableEq, Repr

/-- One output of a line port's channelizer (06 R121): its instant, I and Q of the bins it gives, and
for link slots that receive, the tone the engine has decided for the current slot (07 R143). -/
structure ChanOut where
  time : Nat
  bins : List (Nat × Int × Int)
  decided : List (Nat × Nat)
  deriving DecidableEq, Repr

/-- The weights that a link engine gives the four tones of one received slot, in the order of their tone indexes (06 R127). -/
abbrev SlotSoft := List Int

/-- The energies at the four tones HOME to HOME + 3 in the 8 preamble slots that end at one output (06 R138). -/
abbrev PreambleEnergy := List (List Nat)

/-- One output of an air channel (09 R191): its instant, I and Q. -/
structure AirOut where
  time : Nat
  i : Int
  q : Int
  deriving DecidableEq, Repr

/-- A correlator's energies at the output that is a peak, and at the outputs before and after it (06 R138). -/
structure LinePeak where
  before : PreambleEnergy
  peak : PreambleEnergy
  after : PreambleEnergy
  deriving DecidableEq, Repr

/-- What a link engine has of a header: the channelizer's outputs since those given before, and the weights received under each layout
it tries, in order, slot by slot (06 R121, R127; 07 R150). -/
structure HeadSoft where
  outs : List ChanOut
  soft : List (List SlotSoft)
  deriving DecidableEq, Repr

/-- A channel's outputs since those given before, and the discriminator's values at the pattern's symbol centres at three outputs in a
row (09 R191, R199). -/
structure AirPeak where
  outs : List AirOut
  before : List Int
  peak : List Int
  after : List Int
  deriving DecidableEq, Repr

/-- An excitation's current in 10 uA, and the instant since which it has been inside its window (16 R375). -/
structure InWindow where
  cur : Nat
  since : Nat
  deriving DecidableEq, Repr

/-- A supply's voltage in microvolts, and for how many ns without a break it has been on that side of its window's limits (19 R422). -/
structure SupplyReading where
  uv : Nat
  ns : Nat
  deriving DecidableEq, Repr

/-- What the pins show as the start sequence is to begin: whether the tamper mesh is open, and for how many ns every supply has been
inside its window and REFCLK has run (19 R427, R428). -/
structure StartPins where
  mesh : Bool
  supplyNs : Nat
  refclkNs : Nat
  deriving DecidableEq, Repr

/-- The PHR decided of a candidate, and that of the channel's other candidate if its PHR check completes on the same output (09 R201;
06 R140). -/
structure AirHead where
  phr : Nat
  rival : Option Nat
  deriving DecidableEq, Repr

/-- One multiframe of an initial lane alignment sequence (09 R186, R187): DID, BID, LID, the values of L, M, F, S, N,
N', K, CS, CF and HD, SCR, JESDV, SUBCLASSV, and whether its FCHK is correct. -/
structure Ilas where
  did : Nat
  bid : Nat
  lid : Nat
  params : List Nat
  scr : Bool
  jesdv : Nat
  subclassv : Nat
  fchk : Bool
  deriving DecidableEq, Repr

/-- An arriving seam message of the row's type (11 R234): the Ethernet port, the source address, the EtherType of its raw frame or the
destination port of its UDP datagram, the header's version, CLUSTER, SRC, DST and SEQ, the body, and for UDP the IP header. -/
structure SeamMsg where
  port : Nat
  src : Addr
  proto : Nat
  version : Nat
  cluster : Nat
  station : Nat
  dst : Nat
  seq : Nat
  body : List Byte
  ip : IpHead := {}
  deriving DecidableEq, Repr

/-- The commands of the block, one for each row of spec/opcode_table.json; the rule after each is its row's. -/
inductive Instr
  /-- PORST_ASSERT R23: PORST_N goes low: all processing stops at once and only a lining record being written is completed or discarded whole. -/
  | porstAssert (t : Nat)
  /-- START_SEQUENCE R24: PORST_N rises with supplies and REFCLK settled (R427), or a restart begins after its wait: the start sequence runs steps 1 to 8. -/
  | startSequence (t : Nat) (pins : StartPins) (sealBad : Bool)
  /-- REFCLK_LOSS R428: REFCLK shows no edge for 1 us while PORST_N is high, and the device acts as though PORST_N had gone low. -/
  | refclkLoss (t : Nat)
  /-- RESTART R31: A write of 1 to LIN_CTL.RESTART waits until PENDING_WRITES is 0 and then begins a start as PORST_N does. -/
  | restart (t : Nat)
  /-- LINING_WRITE_DONE R30: A lining record, such as a retained change, duty account or nonce reservation, becomes durable and waiting work resumes. -/
  | liningWriteDone (t wear : Nat)
  /-- FACTORY_ARM R37: A write of 0xFAC7 to LIN_FACTORY.CODE arms a factory restore, recorded in the identity record. -/
  | factoryArm (t : Nat)
  /-- FACTORY_DISARM R37: A write of 0x0000 to LIN_FACTORY.CODE disarms the factory restore. -/
  | factoryDisarm (t : Nat)
  /-- BANK_WRITE R35: A write of GO to LIN_BANK_WR starts copying a firmware image into a bank, unless it is refused with LOCKED_RUNNING. -/
  | bankWrite (t bank : Nat)
  /-- BANK_WRITE_DONE R35: A bank copy ends and sets DONE on a CRC match, or ERR on a mismatch or read error. -/
  | bankWriteDone (t : Nat)
  /-- ELAPSED_LATCH_READ R27: A read of TMB_ELAPSED_LO returns the low bits and latches the high bits for the session. -/
  | elapsedLatchRead (t : Nat) (slot : Nat)
  /-- CLUSTER_TIME_LATCH_READ R253: A read of SEA_CTIME_LO returns cluster time and latches its high bits for the session. -/
  | clusterTimeLatchRead (t : Nat) (slot : Nat)
  /-- RX_TIMESTAMP_READ R419: A CFG READ that covers ETH_RXTS_LO returns the arrival instant of its own frame. -/
  | rxTimestampRead (t : Nat) (slot arrived : Nat)
  /-- REGISTER_WRITE R6: A write to a register that has no row of its own: each field is treated by its access class. -/
  | registerWrite (t : Nat) (slot addr : Nat) (value : Word)
  /-- ETH_FRAME_DISCARD R413: An arriving Ethernet frame that fails classification or mailbox check 1 is discarded and counted. -/
  | ethFrameDiscard (t : Nat) (f : EthFrame)
  /-- ARP_REQUEST R410: An ARP request for the port's IPv4 address is answered. -/
  | arpRequest (t : Nat) (port mac ip target : Nat)
  /-- NEIGHBOUR_SOLICITATION R410: An IPv6 neighbour solicitation for the port's address is answered. -/
  | neighbourSolicitation (t : Nat) (port mac ip target : Nat)
  /-- SESSION_OPEN R48: A SESSION OPEN takes a slot, a generation, credits and rights, or is answered with BUSY or NOT_PERMITTED. -/
  | sessionOpen (t : Nat) (m : Inbound)
  /-- SESSION_CLOSE R48: A SESSION CLOSE ends the session and its commands run on without replies. -/
  | sessionClose (t : Nat) (m : Inbound)
  /-- SESSION_KEEPALIVE R48: A SESSION KEEPALIVE marks the session active. -/
  | sessionKeepalive (t : Nat) (m : Inbound)
  /-- ACK_MESSAGE R68: An ACK message acknowledges a session's events or records up to UPTO. -/
  | ackMessage (t : Nat) (m : Inbound)
  /-- SESSION_IDLE_EXPIRY R51: A session that has been silent for IDLE_S seconds is closed. -/
  | sessionIdleExpiry (t : Nat) (slot : Nat)
  /-- PENDING_TIMEOUT R61: A firmware command with no final response 5 ms after arrival is sent PENDING by the mailbox engine. -/
  | pendingTimeout (t : Nat) (slot tag : Nat)
  /-- EVENT_RESEND R64: An unacknowledged event is resent after 100 ms, or released and counted as dropped after its eighth resend. -/
  | eventResend (t : Nat) (slot seq : Nat)
  /-- RECORD_RESEND R67: A record that has not been acknowledged 20 ms after it was sent is resent. -/
  | recordResend (t : Nat) (slot seq : Nat)
  /-- STEWARD_DISPATCH R59: The active steward pair takes the next firmware command from the lowest non-empty mailbox queue. -/
  | stewardDispatch (t : Nat) (took : Nat)
  /-- CFG_READ R74: CFG READ returns COUNT registers from ADDR. -/
  | cfgRead (t : Nat) (m : Inbound)
  /-- CFG_WRITE R75: CFG WRITE checks every named register and then writes them in ascending address order. -/
  | cfgWrite (t : Nat) (m : Inbound)
  /-- CFG_MODIFY R434: CFG MODIFY reads a register and writes it once under MASK, each field by its class. -/
  | cfgModify (t : Nat) (m : Inbound)
  /-- CFG_WAIT R77: CFG WAIT starts polling a register for a masked match. -/
  | cfgWait (t : Nat) (m : Inbound)
  /-- CFG_WAIT_COMPLETE R77: A WAIT completes when its condition holds or TIMEOUT_US passes, and reports MET. -/
  | cfgWaitComplete (t ref : Nat) (fixed : List Nat)
  /-- MEM_READ R79: MEM READ returns LEN bytes of device memory under the access rules of R15. -/
  | memRead (t : Nat) (m : Inbound) (fixed : List Nat)
  /-- MEM_WRITE R81: MEM WRITE writes device memory, either posted or answered once the data is visible. -/
  | memWrite (t : Nat) (m : Inbound)
  /-- MEM_FENCE R81: MEM FENCE is answered once all earlier posted writes of the session are visible. -/
  | memFence (t : Nat) (m : Inbound)
  /-- LINK_NODE_LIST R85: LINK NODE_LIST returns line-node entries from START upward. -/
  | linkNodeList (t : Nat) (m : Inbound)
  /-- LINK_NODE_GET R85: LINK NODE_GET returns one line-node entry. -/
  | linkNodeGet (t : Nat) (m : Inbound)
  /-- LINK_NODE_REMOVE R176: LINK NODE_REMOVE frees a line-node entry without raising an event. -/
  | linkNodeRemove (t : Nat) (m : Inbound)
  /-- LINK_DOWNLINK R169: LINK DOWNLINK queues a line frame to a node, to be tried under the access and retry rules. -/
  | linkDownlink (t : Nat) (m : Inbound)
  /-- LINK_MAP_READ R148: LINK MAP_READ returns a link's map version, state and entries. -/
  | linkMapRead (t : Nat) (m : Inbound)
  /-- LINK_PORT_STATS R85: LINK PORT_STATS returns a port's counters. -/
  | linkPortStats (t : Nat) (m : Inbound)
  /-- AIR_SENSOR_GET R218: AIR SENSOR_GET returns one association entry. -/
  | airSensorGet (t : Nat) (m : Inbound)
  /-- AIR_DOWNLINK R227: AIR DOWNLINK chooses a method and schedules a downlink to a sensor. -/
  | airDownlink (t : Nat) (m : Inbound)
  /-- AIR_DISASSOCIATE R217: AIR DISASSOCIATE frees the entry and sends DISASSOC to the sensor. -/
  | airDisassociate (t : Nat) (m : Inbound)
  /-- AIR_PENDING_SET R213: AIR PENDING_SET sets or clears the HOST pending bit of a short address. -/
  | airPendingSet (t : Nat) (m : Inbound)
  /-- AIR_DUTY_READ R231: AIR DUTY_READ returns a duty account's limit, window, spent airtime and reserve. -/
  | airDutyRead (t : Nat) (m : Inbound)
  /-- AIR_DIGEST_SET R85: AIR DIGEST_SET sets or clears a sensor's DIGEST flag. -/
  | airDigestSet (t : Nat) (m : Inbound)
  /-- SENS_RESULTS R381: SENS RESULTS returns the results of the sequencer entries. -/
  | sensResults (t : Nat) (m : Inbound)
  /-- SENS_LOOP_SET R384: SENS LOOP_SET writes a loop's MODE and its fixed current. -/
  | sensLoopSet (t : Nat) (m : Inbound)
  /-- SENS_CURVE_INFO R382: SENS CURVE_INFO returns a curve's unit, requirements and limits. -/
  | sensCurveInfo (t : Nat) (m : Inbound)
  /-- KEY_LOAD R303: KEY LOAD unwraps, checks and stores a key in its slot and sets its counter. -/
  | keyLoad (t : Nat) (m : Inbound)
  /-- KEY_DELETE R304: KEY DELETE removes a key from the cache, DRAM and lining. -/
  | keyDelete (t : Nat) (m : Inbound)
  /-- KEY_STATUS R305: KEY STATUS returns a key's counter, reservation and state. -/
  | keyStatus (t : Nat) (m : Inbound)
  /-- KEY_ROOT_PROVISION R308: KEY ROOT_PROVISION unwraps a blob and writes the root key to the secure cells. -/
  | keyRootProvision (t : Nat) (m : Inbound)
  /-- KEY_ALARM R309: KEY ALARM with the right CONFIRM raises a host-command alarm and runs the erasure. -/
  | keyAlarm (t : Nat) (m : Inbound)
  /-- CLU_STATUS R85: CLU STATUS returns the device's role, station, manager, deputy and epoch. -/
  | cluStatus (t : Nat) (m : Inbound)
  /-- CLU_REG_GET R252: CLU REG_GET returns a registry entry. -/
  | cluRegGet (t : Nat) (m : Inbound)
  /-- CLU_REG_PUT R252: CLU REG_PUT writes an entry's KIND, DIGEST and KEY, and completes after mirroring. -/
  | cluRegPut (t : Nat) (m : Inbound)
  /-- CLU_STATIONS R85: CLU STATIONS returns station entries from START upward. -/
  | cluStations (t : Nat) (m : Inbound)
  /-- CLU_LEAVE R242: CLU LEAVE sends LEAVE to the manager and enters DETACHED. -/
  | cluLeave (t : Nat) (m : Inbound)
  /-- CAP_START R87: CAP START begins a capture stream of a port. -/
  | capStart (t : Nat) (m : Inbound)
  /-- CAP_STOP R87: CAP STOP ends a capture stream. -/
  | capStop (t : Nat) (m : Inbound)
  /-- CAPTURE_DURATION_END R87: A capture ends when its DURATION_MS has passed. -/
  | captureDurationEnd (t slot stream : Nat)
  /-- CAPTURE_BLOCK R88: A full capture block is queued as a CAPTURE message, or dropped and counted when its queue is full. -/
  | captureBlock (t slot stream ns : Nat) (samples : List Byte)
  /-- DIAG_MEMDESC R89: DIAG MEMDESC returns the memory descriptor. -/
  | diagMemdesc (t : Nat) (m : Inbound)
  /-- DIAG_FAULT_LOG R298: DIAG FAULT_LOG returns fault log entries from FIRST. -/
  | diagFaultLog (t : Nat) (m : Inbound)
  /-- DIAG_ENGINE R300: DIAG ENGINE returns an engine's state, contexts and patch history. -/
  | diagEngine (t : Nat) (m : Inbound)
  /-- COMMIT_GO R91: A write of GO checks agreement rules, snapshots the shadows and sets COMMIT_PENDING. -/
  | commitGo (t addr : Nat)
  /-- COMMIT_DISCARD R90: A write of DISCARD sets every shadow back to its active value. -/
  | commitDiscard (t addr : Nat)
  /-- COMMIT_APPLY R91: A block applies a pending snapshot at its safe boundary, clears COMMIT_PENDING and advances COUNT. -/
  | commitApply (t addr : Nat)
  /-- PLX_ENABLE R116: Setting PLX_CTL.EN starts a line port's converter, slice correction and channelizer. -/
  | plxEnable (t port : Nat)
  /-- PLX_DISABLE R116: Clearing PLX_CTL.EN ends receptions, cuts transmissions, frees contexts and ends queued frames. -/
  | plxDisable (t port : Nat)
  /-- CAL_RESTART R118: A write to PLX_CAL.RESTART clears CAL_CONV and restarts slice convergence. -/
  | calRestart (t port : Nat)
  /-- CAL_FREEZE R118: A write of 1 to PLX_CAL.FREEZE holds the slice estimates. -/
  | calFreeze (t port : Nat)
  /-- CAL_RESUME R118: A write of 0 to PLX_CAL.FREEZE resumes slice tracking. -/
  | calResume (t port : Nat)
  /-- CAL_CONVERGED R118: Slice correction first reaches -90 dBFS and CAL_CONV is set. -/
  | calConverged (t port spur : Nat)
  /-- LINE_READY R115: A line port's conditions are all met, so it enters service and LINE_READY is raised. -/
  | lineReady (t port : Nat)
  /-- TXLIM_DISABLE R171: Clearing PLX_TXLIM.EN returns SCALE to 0 at once with a ramp. -/
  | txlimDisable (t port : Nat)
  /-- MNS_ENABLE R114: Setting MNS_CTL.EN lets each phase lock again. -/
  | mnsEnable (t : Nat)
  /-- MNS_DISABLE R114: Clearing MNS_CTL.EN moves LOCKED and DERIVED phases to FREE and raises MAINS_LOST. -/
  | mnsDisable (t : Nat)
  /-- MNS_SRC_CHANGE R110: A write of MNS_PORTn_CFG.SRC re-anchors a port on its new source. -/
  | mnsSrcChange (t port src : Nat)
  /-- MAINS_CROSSING R106: A measured or missing crossing is accepted, rejected or confirmed as a jump, and the phase state is updated. -/
  | mainsCrossing (t phase : Nat) (seen : Option Nat) (ampl : Nat)
  /-- PLEAT_START R112: At each pleat start the pleat event goes to engines, census and triggers, and at an anchor the next anchor is fixed. -/
  | pleatStart (t port : Nat) (outs : List ChanOut)
  /-- MAP_REBUILD_DONE R154: A rebuild completes and the new map is compared with the map in force and offered if it differs. -/
  | mapRebuildDone (t port slot : Nat)
  /-- LINE_PREAMBLE_PEAK R140: A correlator peak becomes a candidate, preempts, or is ignored, or is dropped for want of a context slot. -/
  | linePreamblePeak (t port slot : Nat) (peak : LinePeak) (start : Nat)
  /-- LINE_DELIMITER_CHECK R131: A candidate's start delimiter is decoded and its mode decided, or the candidate fails. -/
  | lineDelimiterCheck (t port slot place : Nat) (soft : List Int)
  /-- LINE_HEADER_CHECK R140: A candidate's header check completes, so it becomes the reception or is dropped, and an acknowledgement is accepted or armed. -/
  | lineHeaderCheck (t port slot place : Nat) (head : HeadSoft) (rival : Option (List (List SlotSoft))) (energy : Nat) (snr : Int)
  /-- LINE_PAYLOAD_CHECK R435: A reception's payload check completes, and the frame is delivered, acted on as CONTROL or relay, or counted as failed. -/
  | linePayloadCheck (t port slot : Nat) (outs : List ChanOut) (soft : List SlotSoft) (energy : Nat) (snr : Int)
  /-- LINE_ACK_START R167: At F + 2.56 ms the armed acknowledgement's preamble starts. -/
  | lineAckStart (t port slot : Nat)
  /-- LINE_ACK_DECISION R167: At F + 12.80 ms the acknowledgement continues with its delimiter, or aborts after the preamble. -/
  | lineAckDecision (t port slot : Nat)
  /-- LINE_CONTENTION_END R163: The drawn contention slot ends while the slot is idle, and the frame's transmission starts. -/
  | lineContentionEnd (t port slot : Nat)
  /-- LINE_DEFER R163: The link slot turns busy during contention, so the attempt is abandoned and counted. -/
  | lineDefer (t port slot : Nat) (level : Option Int)
  /-- LINE_TX_END R168: A line transmission ends at F, which opens its acknowledgement window. -/
  | lineTxEnd (t port slot : Nat)
  /-- LINE_ACK_TIMEOUT R168: No candidate exists in the acknowledgement window by F + 16 ms, so the try has failed. -/
  | lineAckTimeout (t port slot : Nat)
  /-- LINE_RETRY_DELAY_END R169: The random retry delay ends and the next try contends in its chosen mode. -/
  | lineRetryDelayEnd (t port slot : Nat)
  /-- TXLIM_STEP R171: LPn_ILIM_N has been low for 10 us while the port transmits, so SCALE rises by one step. -/
  | txlimStep (t port : Nat)
  /-- TXLIM_RECOVER R171: HOLD_S seconds of transmission pass without the limit, so SCALE falls by 1. -/
  | txlimRecover (t port : Nat)
  /-- DISCOVER_DUE R174: A slot's DISCOVER frame falls due and is queued. -/
  | discoverDue (t port slot : Nat)
  /-- JOIN_LAPSE R175: A PENDING line entry is freed 600 s after its latest JOIN_REQ. -/
  | joinLapse (t short : Nat)
  /-- NODE_LOST R176: A JOINED node has been silent for LOST_S, becomes LOST, and NODE_LOST is raised. -/
  | nodeLost (t short : Nat)
  /-- AIR_ENABLE R183: Setting AIR_CTL.EN starts bring-up of the air port. -/
  | airEnable (t port : Nat)
  /-- AIR_DISABLE R183: Clearing AIR_CTL.EN ends receptions, cuts transmissions, frees contexts and stops DCLK. -/
  | airDisable (t port : Nat)
  /-- JESD_ATTEMPT R186: A bring-up attempt starts with K28.5 characters and SYSREF pulses. -/
  | jesdAttempt (t port : Nat)
  /-- JESD_CODE_GROUP_SYNC R186: The receive lane reaches code-group sync and RXSYNC_N is released. -/
  | jesdCodeGroupSync (t port : Nat)
  /-- JESD_ILAS R187: The head's ILAS arrives and is checked, or the attempt fails with reason 2. -/
  | jesdIlas (t port : Nat) (ilas : List Ilas)
  /-- JESD_TXSYNC_RELEASE R186: The head releases TXSYNC_N and the device sends its own ILAS. -/
  | jesdTxsyncRelease (t port : Nat)
  /-- JESD_SYNC_TIMEOUT R186: Sync is not reached by 1 ms or 2 ms, and the attempt fails with reason 4. -/
  | jesdSyncTimeout (t port : Nat)
  /-- JESD_LINK_UP R186: The first sample after both ILAS arrives, the link is up, and the port enters service. -/
  | jesdLinkUp (t port : Nat)
  /-- JESD_LINK_DOWN R187: The link goes down on sync loss or a resync request, and its work is ended. -/
  | jesdLinkDown (t port reason : Nat)
  /-- PACE_OVERRUN R19: An elastic FIFO overflows, and the samples are discarded and counted. -/
  | paceOverrun (t : Nat) (air : Bool) (port lost : Nat)
  /-- AIR_PREAMBLE_PEAK R201: An air correlator peak becomes a candidate, preempts, or is ignored, or is dropped. -/
  | airPreamblePeak (t port chan : Nat) (peak : AirPeak) (inst : Nat)
  /-- AIR_PHR_CHECK R195: A candidate's PHR check completes, so it becomes the reception or ends. -/
  | airPhrCheck (t port chan place : Nat) (head : AirHead)
  /-- AIR_FCS_CHECK R202: An air reception ends, and the FCS, address match, record, wake phase, association or acknowledgement acceptance are decided. -/
  | airFcsCheck (t port chan : Nat) (outs : List AirOut) (soft : List Int) (snr : Int)
  /-- AIR_ACK_SEND R211: At E + 320 us the air MAC hardware sends the acknowledgement, or skips it for duty or for want of a slot. -/
  | airAckSend (t port chan : Nat)
  /-- AIR_TX_START R203: An air transmission starts at its intended antenna instant. -/
  | airTxStart (t port : Nat)
  /-- AIR_TX_END R228: An air transmission or train copy ends, and its acknowledgement window opens. -/
  | airTxEnd (t port chan : Nat)
  /-- AIR_ACK_WINDOW_END R228: An acknowledgement window closes without an accepted ACK, so the try has failed and the next is chosen. -/
  | airAckWindowEnd (t id : Nat)
  /-- AIR_BEACON_DUE R220: An air port's beacon falls due and is sent, or skipped. -/
  | airBeaconDue (t port : Nat)
  /-- DUTY_BIN_ADVANCE R230: At each whole second every duty account advances one bin and clears it. -/
  | dutyBinAdvance (t : Nat)
  /-- PHASE_TARGET_CHECK R230: 12 ms before a phase-targeted try's listen period, its duty check is made. -/
  | phaseTargetCheck (t id : Nat)
  /-- LBT_LISTEN_END R232: A listen-before-talk period ends with the channel idle or busy. -/
  | lbtListenEnd (t id : Nat) (outs : List AirOut)
  /-- LBT_BACKOFF_END R232: A listen-before-talk backoff ends and the port listens again. -/
  | lbtBackoffEnd (t id : Nat)
  /-- PENDING_WINDOW_SEND R226: PEND_DELAY after an acknowledgement with PENDING 1, a downlink or DIGEST is sent in the pending window. -/
  | pendingWindowSend (t ext : Nat)
  /-- PENDING_WINDOW_END R226: A pending window closes. -/
  | pendingWindowEnd (t ext : Nat)
  /-- ASSOC_LAPSE R217: A PENDING association entry is freed 600 s after its latest ASSOC_REQ. -/
  | assocLapse (t short : Nat)
  /-- DOWNLINK_EXPIRY R86: A downlink unfinished 30 s after arrival ends with RESULT 3. -/
  | downlinkExpiry (t slot tag : Nat)
  /-- SEA_ENABLE R242: Writing SEA_CTL.EN from 0 to 1 starts LISTENING. -/
  | seaEnable (t : Nat)
  /-- SEA_DISABLE R242: Writing 0 to SEA_CTL.EN sends LEAVE and enters DETACHED. -/
  | seaDisable (t : Nat)
  /-- HELLO_DUE R239: Every 1 ms a device that is not DETACHED multicasts HELLO. -/
  | helloDue (t : Nat)
  /-- HELLO_RX R239: A HELLO from a member is received and noted. -/
  | helloRx (t : Nat) (m : SeamMsg)
  /-- MEMBER_SILENT R239: The manager hears no HELLO from a member for 10 ms and raises STATION_LEFT. -/
  | memberSilent (t station : Nat)
  /-- LISTEN_TIMEOUT R238: 3 ms pass in LISTENING with no BEACON heard, and the device enters ELECTING. -/
  | listenTimeout (t : Nat)
  /-- SEAM_JOIN_REQ_DUE R240: A JOINING device resends JOIN_REQ every 1 ms, or every 100 ms after STATUS 1. -/
  | seamJoinReqDue (t : Nat)
  /-- SEAM_JOIN_REQ R240: The manager receives a JOIN_REQ and answers with JOIN_ACK, adding the member. -/
  | seamJoinReq (t : Nat) (m : SeamMsg)
  /-- JOIN_ACK R241: A JOIN_ACK arrives: STATUS 0 makes the device a WORKER, and STATUS 1 keeps it JOINING. -/
  | joinAck (t : Nat) (m : SeamMsg)
  /-- SEAM_LEAVE R242: A LEAVE arrives: the manager removes the member, or a deputy takes over. -/
  | seamLeave (t : Nat) (m : SeamMsg)
  /-- DEPUTY_APPOINT R248: A device receives DEPUTY_APPOINT and enters DEPUTY_SYNC. -/
  | deputyAppoint (t : Nat) (m : SeamMsg)
  /-- DEPUTY_SYNC_DONE R248: The bulk registry copy completes and the appointee enters DEPUTY. -/
  | deputySyncDone (t last : Nat) (copy : List Byte)
  /-- MIRROR R249: The deputy applies a MIRROR message's entries and returns MIRROR_ACK. -/
  | mirror (t : Nat) (m : SeamMsg)
  /-- MIRROR_ACK R249: The manager receives MIRROR_ACK and releases the acknowledgements that waited on it. -/
  | mirrorAck (t : Nat) (m : SeamMsg)
  /-- MIRROR_RESEND R249: A MIRROR not acknowledged after 10 us is resent. -/
  | mirrorResend (t : Nat)
  /-- MIRROR_TIMEOUT R249: No MIRROR_ACK for 200 us: the deputy is declared gone and another appointed. -/
  | mirrorTimeout (t : Nat)
  /-- CLUSTER_BEACON_DUE R243: The manager's seam hardware sends BEACON every PERIOD_US. -/
  | clusterBeaconDue (t : Nat)
  /-- CLUSTER_BEACON_RX R244: A BEACON arrives: validity, following, yielding, time steering and manager comparison are decided. -/
  | clusterBeaconRx (t : Nat) (m : SeamMsg)
  /-- BEACON_MISS R245: A beacon deadline passes, and at the third miss the deputy takes over or a worker widens what it follows. -/
  | beaconMiss (t : Nat)
  /-- TAKEOVER_TIMEOUT R245: No BEACON from the deputy within 3P + 24 us of the third miss, so the device enters ELECTING. -/
  | takeoverTimeout (t : Nat)
  /-- HOME_CLAIM R251: The manager applies a home claim or release to the registry and returns CLAIM_ACK after mirroring. -/
  | homeClaim (t : Nat) (m : SeamMsg)
  /-- CLAIM_ACK R251: A device receives CLAIM_ACK for a claim it holds. -/
  | claimAck (t : Nat) (m : SeamMsg)
  /-- CLAIM_RESEND R251: An unacknowledged claim is resent every 1 ms. -/
  | claimResend (t ext : Nat)
  /-- ELECT_DUE R256: An eligible ELECTING device sends ELECT every 100 us. -/
  | electDue (t : Nat)
  /-- ELECT_RX R256: An ELECT from another device is received and its key noted. -/
  | electRx (t : Nat) (m : SeamMsg)
  /-- ELECTION_CLOSE R256: 1,500 us after entry the election closes, and the highest key becomes manager. -/
  | electionClose (t : Nat)
  /-- DELAY_REQ_DUE R254: A follower sends DELAY_REQ within 1 ms of following and every 100 ms. -/
  | delayReqDue (t : Nat)
  /-- DELAY_REQ R254: The manager answers a DELAY_REQ with DELAY_RESP. -/
  | delayReq (t : Nat) (m : SeamMsg)
  /-- DELAY_RESP R254: A follower receives DELAY_RESP and computes its path delay. -/
  | delayResp (t : Nat) (m : SeamMsg)
  /-- CLUSTER_TIME_LAPSE R255: No valid BEACON for 1 s, so cluster time becomes not valid. -/
  | clusterTimeLapse (t : Nat)
  /-- SC_METRICS R267: The manager receives a fragment, places the copy in a group, and makes a decoding attempt if one is due. -/
  | scMetrics (t : Nat) (m : SeamMsg)
  /-- GROUP_CLOSE R268: A combining group closes at E_ref + 2.25 ms after a last attempt. -/
  | groupClose (t num : Nat)
  /-- SC_RESULT R273: The home receives SC_RESULT, delivers a combined record and answers SC_RESULT_ACK. -/
  | scResult (t : Nat) (m : SeamMsg)
  /-- SC_RESULT_ACK R272: The manager receives SC_RESULT_ACK, and delivers the frame itself after STATUS 2. -/
  | scResultAck (t : Nat) (m : SeamMsg)
  /-- SC_RESULT_RESEND R272: SC_RESULT is resent every 1 ms, and after four resends the manager delivers it itself. -/
  | scResultResend (t num : Nat)
  /-- DIGEST_EXPIRY R277: A digest entry is released after HOLD_S seconds. -/
  | digestExpiry (t short seq : Nat)
  /-- CHECKPOINT R285: Each ms, at its staggered instant, an engine writes a checkpoint of its context state. -/
  | checkpoint (t n : Nat)
  /-- ENGINE_FAULT R288: A link engine fault is detected and a ready spare is patched in to replay from the checkpoint, or the fault is not masked. -/
  | engineFault (t n detect fault : Nat) (bad : Bool)
  /-- PATCH_CAUGHT_UP R288: The spare's replay catches up with real time and effects resume at normal times. -/
  | patchCaughtUp (t n load : Nat)
  /-- ENGINE_SELF_TEST_DONE R290: An engine self-test ends, and the engine becomes a ready spare or is retired; at power-up, ports may then enter service. -/
  | engineSelfTestDone (t n : Nat) (failed : List Nat)
  /-- SPARES_TARGET_WRITE R291: A write to FAU_SPARES raises or lowers the target by draining or activating engines. -/
  | sparesTargetWrite (t n : Nat)
  /-- CONTEXT_END R291: A context ends and frees its slot, and a draining engine with none left becomes a spare. -/
  | contextEnd (t kind port slot place : Nat)
  /-- PAIR_FAULT R293: The active steward pair faults and the standby pair becomes active. -/
  | pairFault (t detect interrupt : Nat)
  /-- STANDBY_FAULT R293: The standby pair faults, STANDBY_READY clears and its self-test starts. -/
  | standbyFault (t detect : Nat)
  /-- PAIR_SELF_TEST_DONE R293: A pair's 1 s self-test ends, and the pair becomes standby or active, or is retired. -/
  | pairSelfTestDone (t pair : Nat) (pass : Bool)
  /-- UNIT_FAULT R292: A cipher core or check unit faults, is retired, and its jobs are reissued. -/
  | unitFault (t : Nat) (check : Bool) (unit detect jobs interrupt : Nat)
  /-- VOTE R292: A fixed-function block outvotes or corrects a single fault and logs it. -/
  | vote (t block inst : Nat) (ecc : Bool)
  /-- MEMORY_PATROL R296: The patrol reads and corrects all DRAM every 24 h and all SRAM every hour. -/
  | memoryPatrol (t lo n : Nat) (fixed bad : List Nat)
  /-- FAULT_LOG_WRITE R298: The active steward pair writes a queued fault log entry to the lining. -/
  | faultLogWrite (t : Nat)
  /-- INJECT_ENGINE_FAULT R281: FAU_INJECT with KIND 0 injects an engine handshake timeout. -/
  | injectEngineFault (t target : Nat)
  /-- INJECT_PAIR_FAULT R281: FAU_INJECT with KIND 1 injects a pair comparator mismatch. -/
  | injectPairFault (t target : Nat)
  /-- INJECT_PORT_FAULT R281: FAU_INJECT with KIND 2 injects an Ethernet port datapath fault. -/
  | injectPortFault (t target : Nat)
  /-- TAMPER_MESH_OPEN R309: The tamper mesh pattern fails to return for 2 us, an alarm is raised and the erasure runs. -/
  | tamperMeshOpen (t : Nat)
  /-- SUPPLY_ALARM R22: A supply leaves its window while PORST_N is high, or rises above it, and the erasure runs. -/
  | supplyAlarm (t supply : Nat) (reading : SupplyReading)
  /-- TEMPERATURE_ALARM R309: The die temperature passes -50 C or +135 C and the erasure runs. -/
  | temperatureAlarm (t : Nat) (celsius : Int)
  /-- LINING_TAMPER_CHECK R309: The hourly seal check of the secure cells runs and raises an alarm on failure. -/
  | liningTamperCheck (t : Nat) (sealOk : Bool)
  /-- ALARM_WRAPPED_KEY_CLEAR R310: By Z + 2 s the wrapped-key area and the DRAM copies are cleared. -/
  | alarmWrappedKeyClear (t : Nat)
  /-- CIPHER_JOB_SUBMIT R324: A cipher job is accepted into its queue, taking a nonce when NONCE_HW is set. -/
  | cipherJobSubmit (t : Nat) (desc : List Byte)
  /-- CIPHER_JOB_START R324: A free core takes the oldest job of the lowest queue, with aging. -/
  | cipherJobStart (t : Nat)
  /-- CIPHER_JOB_COMPLETE R326: A cipher job writes its output and then its completion. -/
  | cipherJobComplete (t core : Nat)
  /-- HOST_RING_ENABLE R329: Setting CIP_HR_CTL.EN resets TAIL to HEAD and starts reading the host ring. -/
  | hostRingEnable (t : Nat)
  /-- HOST_RING_DISABLE R329: Clearing CIP_HR_CTL.EN stops new reads of the host ring. -/
  | hostRingDisable (t : Nat)
  /-- HOST_RING_DOORBELL R329: A write of CIP_HR_TAIL hands host jobs to the scheduler, or is refused. -/
  | hostRingDoorbell (t tail : Nat)
  /-- CHECK_JOB R332: A check-unit job computes a CRC with its fold prefix. -/
  | checkJob (t poly : Nat) (fold data : List Byte) (want : Option Nat)
  /-- SPOOL_ENABLE R354: Setting SPL_CHn_CTL.EN checks the ring and starts the engine at START. -/
  | spoolEnable (t spool : Nat)
  /-- SPOOL_STOP_REQUEST R355: A write with EN 1 and STOPREQ 1 requests a stop at the next descriptor boundary. -/
  | spoolStopRequest (t spool : Nat)
  /-- SPOOL_DISABLE R356: Writing EN 0 stops the spool at once and drops bursts in flight. -/
  | spoolDisable (t spool : Nat)
  /-- SPOOL_DOORBELL R340: A write of RING re-reads the stop descriptor or sets RING. -/
  | spoolDoorbell (t spool : Nat)
  /-- DESCRIPTOR_START R338: The engine reads a control word and starts a runnable descriptor, or stops at a stop descriptor. -/
  | descriptorStart (t spool : Nat)
  /-- SPOOL_BURST R352: A free mover takes a ready burst by priority and carries it. -/
  | spoolBurst (t : Nat) (write : Bool)
  /-- DESCRIPTOR_COMPLETE R343: A descriptor's last write is issued and its check has finished, so it is written back, signalled, or error-stopped. -/
  | descriptorComplete (t spool : Nat)
  /-- BAR_WRITEBACK R344: A BAR descriptor's control word becomes visible once all earlier data is visible. -/
  | barWriteback (t spool : Nat)
  /-- SPOOL_DONE R346: The firmware services a host spool's interrupt and raises SPOOL_DONE. -/
  | spoolDone (t spool : Nat)
  /-- REF_ENABLE R359: Setting SEN_REF.EN turns on the reference buffer. -/
  | refEnable (t : Nat)
  /-- REF_READY R359: 2 ms after EN the reference is ready, and in continuous mode the first sequence starts. -/
  | refReady (t : Nat)
  /-- CNV_ENABLE R372: Setting CNV_CTL.EN enters STATE 1 or starts continuous sequences. -/
  | cnvEnable (t : Nat)
  /-- CNV_DISABLE R372: Clearing CNV_CTL.EN abandons the visit in progress and stops the sequencer. -/
  | cnvDisable (t : Nat)
  /-- CNV_CAL_CONVERGED R365: The site converter's mismatch correction converges and CAL_CONV is set. -/
  | cnvCalConverged (t : Nat)
  /-- SWTRIG R367: A write of 1 to CNV_CTL.SWTRIG triggers a sequence, or is counted as missed. -/
  | swtrig (t : Nat)
  /-- SEQUENCE_TRIGGER R368: A selected trigger arrives and starts the delay, or is counted as missed. -/
  | sequenceTrigger (t : Nat)
  /-- SEQUENCE_START R369: The trigger delay ends and entry 0 switches. -/
  | sequenceStart (t : Nat)
  /-- RAW_SAMPLE R370: A chop period ends and its raw sample, with its flags, passes to the filter channel. -/
  | rawSample (t : Nat) (codes : List Int)
  /-- DWELL_END R366: An entry's dwell ends, its visit sample forms, and the next entry switches or the sequence ends. -/
  | dwellEnd (t : Nat)
  /-- WIRE_BREAK R373: An excitation current stays outside its window for 4 comparisons, so a break is detected and raised. -/
  | wireBreak (t n : Nat) (curs : List Nat)
  /-- WIRE_RESTORE R375: The current stays in its window for RECOVER_MS, so BROKEN clears and WIRE_BREAK is raised with STATE 0. -/
  | wireRestore (t n : Nat) (cur : InWindow)
  /-- FILTER_OUTPUT R398: A filter output forms for a grid instant and updates the result, the mapped loop and the stream. -/
  | filterOutput (t e : Nat)
  /-- STREAM_ENABLE R404: Setting FLT_STRM_CTL.EN checks the ring and resets WIDX. -/
  | streamEnable (t : Nat)
  /-- LOOP_STALE R385: No source output for STALE_MS, so the loop goes to its fault level. -/
  | loopStale (t n : Nat)
  /-- LOOP_REGULATION_FAULT R385: The duty has been at its limit for 1 ms off target, so cause 5 is reported. -/
  | loopRegulationFault (t n : Nat) (on : Bool)
  /-- LOOP_PWM_EVENT R387: The PWM event of a loop fires every 64th PWM period. -/
  | loopPwmEvent (t n : Nat)
  /-- ETH_PORT_ENABLE R406: Setting ETH_EPn_CTL.EN starts bring-up of the port. -/
  | ethPortEnable (t port : Nat)
  /-- ETH_PORT_DISABLE R407: Clearing ETH_EPn_CTL.EN takes the port down with REASON 5. -/
  | ethPortDisable (t port : Nat)
  /-- ETH_PORT_RECONFIGURE R408: A change of TYPE, FEC or AN takes the port down after the OK and restarts bring-up. -/
  | ethPortReconfigure (t port : Nat)
  /-- ETH_LINK_UP R406: The port conditions hold for 10 ms, the port is up and ETH_LINK_UP is raised. -/
  | ethLinkUp (t port : Nat)
  /-- ETH_LINK_DOWN R406: A port goes down, ETH_LINK_DOWN is raised, and sessions fail over under R295. -/
  | ethLinkDown (t port reason detect interrupt : Nat)
  /-- PFC_PAUSE_RX R416: A received PFC pause holds back the queues of its priority. -/
  | pfcPauseRx (t port : Nat) (quanta : List (Nat × Nat))
  /-- PFC_PAUSE_EXPIRY R416: The quanta of a received pause run out and the queue resumes. -/
  | pfcPauseExpiry (t port prio : Nat)
  /-- PFC_PAUSE_REFRESH R416: Every 2,600 ns the port refreshes a pause it sends while its buffer is over threshold. -/
  | pfcPauseRefresh (t port prio level : Nat)
  /-- LINK_SLOT_IDLE R163: A busy line link slot falls idle, fixing a new idle start I from which a deferred or waiting frame contends again. -/
  | linkSlotIdle (t port slot : Nat)
  /-- UNDEFINED_COMMAND R57: A COMMAND or SESSION message whose version, family, command or session operation is not defined is answered with BAD_OPCODE by the mailbox engine. -/
  | undefinedCommand (t : Nat) (m : Inbound) (session : Bool) (opcode : Nat)
  /-- ALARM_CAUSE_REMOVED R312: The last present alarm condition ends, so CIP_STATUS.ALARM_ACTIVE falls to 0 and ALARM_N is released unless the keys are erased. -/
  | alarmCauseRemoved (t source : Nat)
  /-- CHECKPOINT_COMPLETE R285: An engine's checkpoint write ends by C + 20 us, and it becomes the valid checkpoint in place of the previous one. -/
  | checkpointComplete (t n : Nat)
  deriving DecidableEq, Repr

end Sys2Proof
end

