-- ==== Sys2Proof/Machine/Tables.lean ====
section
/-!
DEFINITION. Machine/Tables.lean: sparse tables, octet strings and the small arithmetic the meanings share.
-/

namespace Sys2Proof.Machine

open Sys2Proof

/-! ## Sparse tables, in ascending order of their keys -/

/-- The entry of key `k`, if it is listed. -/
def tget? {α : Type} : Tab α → Nat → Option α
  | [], _ => none
  | (a, v) :: r, k => if a = k then some v else tget? r k

/-- The entry of key `k`, or the default. -/
def tget {α : Type} (d : α) (l : Tab α) (k : Nat) : α := (tget? l k).getD d

/-- The table with key `k` at `v`. -/
def tset {α : Type} : Tab α → Nat → α → Tab α
  | [], k, v => [(k, v)]
  | (a, w) :: r, k, v =>
    if k < a then (k, v) :: (a, w) :: r
    else if k = a then (k, v) :: r
    else (a, w) :: tset r k v

/-- The table without key `k`. -/
def tdel {α : Type} : Tab α → Nat → Tab α
  | [], _ => []
  | (a, w) :: r, k => if a = k then tdel r k else (a, w) :: tdel r k

/-- The table with key `k` at `v`, or without it when `v` is what an absent key stands for. -/
def tput {α : Type} [DecidableEq α] (d : α) (l : Tab α) (k : Nat) (v : α) : Tab α :=
  if v = d then tdel l k else tset l k v

/-- The table with key `k` changed by `f`. -/
def tmod {α : Type} (d : α) (l : Tab α) (k : Nat) (f : α → α) : Tab α := tset l k (f (tget d l k))

/-- The keys of a table. -/
def tkeys {α : Type} (l : Tab α) : List Nat := l.map (·.1)

/-- Strictly ascending keys. -/
def ascending {α : Type} : Tab α → Bool
  | [] => true
  | [_] => true
  | (a, _) :: (b, w) :: r => decide (a < b) && ascending ((b, w) :: r)

/-! ## Octets -/

/-- `n` octets of `v`, most significant first (03 R44: "All multi-byte header and operand fields are big-endian"). -/
def be (n v : Nat) : List Byte := (List.range n).map fun i => BitVec.ofNat 8 (v >>> (8 * (n - 1 - i)))

/-- `n` octets of `v`, least significant first. -/
def le (n v : Nat) : List Byte := (List.range n).map fun i => BitVec.ofNat 8 (v >>> (8 * i))

/-- The number that octets spell, most significant first. -/
def ofBe (l : List Byte) : Nat := l.foldl (fun a b => a * 256 + b.toNat) 0

/-- The number that octets spell, least significant first. -/
def ofLe (l : List Byte) : Nat := l.foldr (fun b a => a * 256 + b.toNat) 0

/-- Octets `i` to `i + n - 1`. -/
def cut (l : List Byte) (i n : Nat) : List Byte := (l.drop i).take n

/-- The big-endian field of `n` octets at `i`. -/
def beAt (l : List Byte) (i n : Nat) : Nat := ofBe (cut l i n)

/-- The octet at `i`. -/
def octet (l : List Byte) (i : Nat) : Nat := beAt l i 1

/-- `n` octets of zero. -/
def zeros (n : Nat) : List Byte := List.replicate n 0

/-- Exclusive or of two octet strings, to the shorter's length. -/
def xorBytes (a b : List Byte) : List Byte := List.zipWith (· ^^^ ·) a b

/-- `l` padded with zero octets to a multiple of `n` (03 R66). -/
def padTo (n : Nat) (l : List Byte) : List Byte := l ++ zeros ((n - l.length % n) % n)

/-! ## Bits and bounds -/

/-- Bits [hi:lo] of a number. -/
def bits (v hi lo : Nat) : Nat := (v >>> lo) % 2 ^ (hi + 1 - lo)

/-- Bit `i` of a number. -/
def bit (v i : Nat) : Bool := Nat.testBit v i

/-- A Bool as 0 or 1. -/
def b2n (b : Bool) : Nat := if b then 1 else 0

/-- `v` held between two limits ("values outside the range are taken as the nearer limit"). -/
def clamp (lo hi v : Nat) : Nat := max lo (min hi v)

/-- The same for signed numbers. -/
def clampI (lo hi v : Int) : Int := max lo (min hi v)

/-- Division rounded up. -/
def cdiv (a b : Nat) : Nat := (a + b - 1) / b

/-- A `w`-bit field read as two's complement. -/
def signed (w v : Nat) : Int := if v % 2 ^ w < 2 ^ (w - 1) then (v % 2 ^ w : Int) else (v % 2 ^ w : Int) - 2 ^ w

/-- A signed number as a `w`-bit two's complement field. -/
def twos (w : Nat) (v : Int) : Nat := (v % (2 ^ w : Int)).toNat

/-- The distance from `a` to `b` in a counter of `w` bits. -/
def ahead (w a b : Nat) : Nat := (b + 2 ^ w - a % 2 ^ w) % 2 ^ w

/-- The least number below `n` that satisfies `p`. -/
def firstBelow (n : Nat) (p : Nat → Bool) : Option Nat := (List.range n).find? p

/-- Nanoseconds in a microsecond, a millisecond and a second. -/
abbrev us : Nat := 1000
abbrev ms : Nat := 1000000
abbrev sec : Nat := 1000000000

end Sys2Proof.Machine
end

