-- ==== Sys2Proof/Machine/Aes.lean ====
section
/-!
DEFINITION. Machine/Aes.lean: the block function and the modes that 14_cipher_and_checks.md names by their standards
(AES of FIPS 197; CTR; CCM of SP 800-38C and CCM* of IEEE 802.15.4; GCM of SP 800-38D; KW of SP 800-38F). The
standards' own text is outside the spec (log entry 30, PRESUMED).
-/

namespace Sys2Proof.Machine

open Sys2Proof

/-! ## The field GF(2^8) and the substitution -/

/-- Multiplication by x. -/
def gfDouble (a : Nat) : Nat := if a < 128 then 2 * a else (2 * a ^^^ 0x11B) % 256

/-- Multiplication in GF(2^8), by the low `n` bits of the second factor. -/
def gfMulGo : Nat → Nat → Nat → Nat
  | 0, _, _ => 0
  | n + 1, a, b => (if b % 2 = 1 then a else 0) ^^^ gfMulGo n (gfDouble a) (b / 2)

def gfMul (a b : Nat) : Nat := gfMulGo 8 a b

/-- The inverse, a^254, with 0 for 0. -/
def gfInv (a : Nat) : Nat :=
  let a2 := gfMul a a
  let a4 := gfMul a2 a2
  let a8 := gfMul a4 a4
  let a16 := gfMul a8 a8
  let a32 := gfMul a16 a16
  let a64 := gfMul a32 a32
  let a128 := gfMul a64 a64
  gfMul a128 (gfMul a64 (gfMul a32 (gfMul a16 (gfMul a8 (gfMul a4 a2)))))

/-- An octet turned left by `n` bits. -/
def rotl8 (n a : Nat) : Nat := (a * 2 ^ n) % 256 ||| a / 2 ^ (8 - n)

def subByte (a : Nat) : Nat :=
  let b := gfInv a
  b ^^^ rotl8 1 b ^^^ rotl8 2 b ^^^ rotl8 3 b ^^^ rotl8 4 b ^^^ 0x63

def unsubByte (a : Nat) : Nat := gfInv (rotl8 1 a ^^^ rotl8 3 a ^^^ rotl8 6 a ^^^ 0x05)

/-! ## The block function on 16 octets, column by column -/

/-- Exclusive or of two lists of numbers. -/
def xorList (a b : List Nat) : List Nat := List.zipWith (· ^^^ ·) a b

/-- An element, 0 beyond the end. -/
def nth (l : List Nat) (i : Nat) : Nat := l.getD i 0

def shiftRows (s : List Nat) : List Nat :=
  (List.range 16).map fun k => nth s (4 * ((k / 4 + k % 4) % 4) + k % 4)

def unshiftRows (s : List Nat) : List Nat :=
  (List.range 16).map fun k => nth s (4 * ((k / 4 + 4 - k % 4) % 4) + k % 4)

/-- One output octet of a column mix with the given first row. -/
def mixAt (m s : List Nat) (k : Nat) : Nat :=
  let c := k / 4 * 4
  let r := k % 4
  (List.range 4).foldl (fun a i => a ^^^ gfMul (nth m ((i + 4 - r) % 4)) (nth s (c + i))) 0

def mixColumns (s : List Nat) : List Nat := (List.range 16).map (mixAt [2, 3, 1, 1] s)

def unmixColumns (s : List Nat) : List Nat := (List.range 16).map (mixAt [14, 11, 13, 9] s)

/-- The next key schedule word from the words so far, newest first. -/
def nextWord (nk i : Nat) (ws : List (List Nat)) (rcon : Nat) : List Nat :=
  let last := ws.getD 0 []
  let t :=
    if i % nk = 0 then
      match (last.drop 1 ++ last.take 1).map subByte with
      | a :: r => (a ^^^ rcon) :: r
      | [] => []
    else if 6 < nk ∧ i % nk = 4 then last.map subByte else last
  xorList (ws.getD (nk - 1) []) t

/-- The key schedule's words from word `i` on, newest first, `n` more. -/
def scheduleGo (nk : Nat) : Nat → Nat → List (List Nat) → Nat → List (List Nat)
  | 0, _, ws, _ => ws
  | n + 1, i, ws, rcon =>
    scheduleGo nk n (i + 1) (nextWord nk i ws rcon :: ws) (if i % nk = 0 then gfDouble rcon else rcon)

/-- A key cut into words of four octets. -/
def wordsOf : Nat → List Nat → List (List Nat)
  | 0, _ => []
  | n + 1, l => l.take 4 :: wordsOf n (l.drop 4)

/-- The round keys, 16 octets each, first to last. -/
def roundKeys (key : List Nat) : List (List Nat) :=
  let nk := key.length / 4
  let ws := (scheduleGo nk (4 * (nk + 7) - nk) nk (wordsOf nk key).reverse 1).reverse
  (List.range (nk + 7)).map fun r => (List.range 4).flatMap fun c => ws.getD (4 * r + c) []

/-- The middle rounds of encryption. -/
def encRounds : List (List Nat) → List Nat → List Nat
  | [], s => s
  | [k], s => xorList (shiftRows (s.map subByte)) k
  | k :: r, s => encRounds r (xorList (mixColumns (shiftRows (s.map subByte))) k)

/-- The rounds of decryption, round keys last to first. -/
def decRounds : List (List Nat) → List Nat → List Nat
  | [], s => s
  | [k], s => xorList ((unshiftRows s).map unsubByte) k
  | k :: r, s => decRounds r (unmixColumns (xorList ((unshiftRows s).map unsubByte) k))

/-- Octets as numbers and back. -/
def nums (l : List Byte) : List Nat := l.map (·.toNat)
def octets (l : List Nat) : List Byte := l.map (BitVec.ofNat 8)

/-- One block encrypted under round keys. -/
def encBlock (rk : List (List Nat)) (b : List Byte) : List Byte :=
  match rk with
  | k :: r => octets (encRounds r (xorList (nums b) k))
  | [] => b

/-- One block decrypted under round keys. -/
def decBlock (rk : List (List Nat)) (b : List Byte) : List Byte :=
  match rk.reverse with
  | k :: r => octets (decRounds r (xorList (nums b) k))
  | [] => b

/-! ## Modes -/

/-- Data cut into blocks of 16 octets, the last one as long as it is. -/
def blocks16 : Nat → List Byte → List (List Byte)
  | 0, _ => []
  | n + 1, l => if l.isEmpty then [] else l.take 16 :: blocks16 n (l.drop 16)

def blocksOf (l : List Byte) : List (List Byte) := blocks16 (l.length / 16 + 1) l

/-- A block padded with zero octets to 16. -/
def pad16 (b : List Byte) : List Byte := padTo 16 b

/-- Data under a keystream whose block `i` is the encryption of `ctr i`. -/
def streamWith (rk : List (List Nat)) (ctr : Nat → List Byte) (d : List Byte) : List Byte :=
  ((blocksOf d).zipIdx.map fun (b, i) => xorBytes b (encBlock rk (ctr i))).flatten

/-- CTR: the counter block counts on as one 128-bit number. -/
def ctrMode (rk : List (List Nat)) (iv d : List Byte) : List Byte :=
  streamWith rk (fun i => be 16 ((ofBe iv + i) % 2 ^ 128)) d

/-- The CBC-MAC chain over padded blocks. -/
def cbcMac (rk : List (List Nat)) (bs : List (List Byte)) : List Byte :=
  bs.foldl (fun x b => encBlock rk (xorBytes x (pad16 b))) (zeros 16)

/-- The length octets in front of the authenticated data. -/
def ccmALen (n : Nat) : List Byte := if n < 0xFF00 then be 2 n else be 2 0xFFFE ++ be 4 n

/-- The CCM authentication value before encryption: a 13-octet nonce, `m` tag octets, L = 2. -/
def ccmMac (rk : List (List Nat)) (nonce a msg : List Byte) (m : Nat) : List Byte :=
  let flags := (if a.isEmpty then 0 else 64) + 8 * ((m - 2) / 2) + 1
  let b0 := be 1 flags ++ nonce ++ be 2 msg.length
  let as := if a.isEmpty then [] else blocksOf (pad16 (ccmALen a.length ++ a))
  (cbcMac rk (b0 :: as ++ blocksOf msg)).take m

/-- The CCM counter blocks. -/
def ccmCtr (nonce : List Byte) (i : Nat) : List Byte := be 1 1 ++ nonce ++ be 2 i

/-- CCM and CCM* encryption: ciphertext and tag. -/
def ccmSeal (key nonce a msg : List Byte) (m : Nat) : List Byte × List Byte :=
  let rk := roundKeys (nums key)
  (streamWith rk (fun i => ccmCtr nonce (i + 1)) msg,
   xorBytes (ccmMac rk nonce a msg m) (encBlock rk (ccmCtr nonce 0)))

/-- CCM and CCM* decryption: plaintext, and whether the tag matches. -/
def ccmOpen (key nonce a ct tag : List Byte) : List Byte × Bool :=
  let rk := roundKeys (nums key)
  let pt := streamWith rk (fun i => ccmCtr nonce (i + 1)) ct
  (pt, decide (xorBytes (ccmMac rk nonce a pt tag.length) (encBlock rk (ccmCtr nonce 0)) = tag))

/-- Multiplication in GF(2^128) as GHASH orders its bits. -/
def ghashMulGo : Nat → Nat → Nat → Nat → Nat
  | 0, _, _, z => z
  | n + 1, x, v, z =>
    ghashMulGo n x (if v % 2 = 1 then (v / 2) ^^^ (0xE1 * 2 ^ 120) else v / 2)
      (if x / 2 ^ n % 2 = 1 then z ^^^ v else z)

def ghashMul (x h : Nat) : Nat := ghashMulGo 128 x h 0

def ghash (h : Nat) (bs : List (List Byte)) : Nat := bs.foldl (fun y b => ghashMul (y ^^^ ofBe (pad16 b)) h) 0

/-- The GCM tag under a 96-bit IV. -/
def gcmTag (rk : List (List Nat)) (iv a ct : List Byte) (m : Nat) : List Byte :=
  let h := ofBe (encBlock rk (zeros 16))
  let s := ghash h (blocksOf a ++ blocksOf ct ++ [be 8 (8 * a.length) ++ be 8 (8 * ct.length)])
  (xorBytes (be 16 s) (encBlock rk (iv ++ be 4 1))).take m

def gcmStream (rk : List (List Nat)) (iv d : List Byte) : List Byte :=
  streamWith rk (fun i => iv ++ be 4 ((i + 2) % 2 ^ 32)) d

def gcmSeal (key iv a msg : List Byte) (m : Nat) : List Byte × List Byte :=
  let rk := roundKeys (nums key)
  let ct := gcmStream rk iv msg
  (ct, gcmTag rk iv a ct m)

def gcmOpen (key iv a ct tag : List Byte) : List Byte × Bool :=
  let rk := roundKeys (nums key)
  (gcmStream rk iv ct, decide (gcmTag rk iv a ct tag.length = tag))

/-- Data cut into semiblocks of 8 octets. -/
def semis : Nat → List Byte → List (List Byte)
  | 0, _ => []
  | n + 1, l => l.take 8 :: semis n (l.drop 8)

/-- One pass of the wrap over the semiblocks, with the step number before it. -/
def wrapPass (rk : List (List Nat)) : Nat → List Byte → List (List Byte) → List Byte × List (List Byte)
  | _, a, [] => (a, [])
  | t, a, r :: rs =>
    let b := encBlock rk (a ++ r)
    let a' := xorBytes (b.take 8) (be 8 (t + 1))
    let x := wrapPass rk (t + 1) a' rs
    (x.1, b.drop 8 :: x.2)

/-- One pass of the unwrap over the semiblocks, last first, with the step number of the last. -/
def unwrapPass (rk : List (List Nat)) : Nat → List Byte → List (List Byte) → List Byte × List (List Byte)
  | _, a, [] => (a, [])
  | t, a, r :: rs =>
    let b := decBlock rk (xorBytes a (be 8 t) ++ r)
    let x := unwrapPass rk (t - 1) (b.take 8) rs
    (x.1, b.drop 8 :: x.2)

/-- The default integrity check value. -/
def kwIcv : List Byte := List.replicate 8 0xA6

/-- KW wrap: eight octets more than the plaintext. -/
def kwWrap (key pt : List Byte) : List Byte :=
  let rk := roundKeys (nums key)
  let rs := semis (pt.length / 8) pt
  let x := (List.range 6).foldl (fun (x : List Byte × List (List Byte)) j => wrapPass rk (j * rs.length) x.1 x.2)
    (kwIcv, rs)
  x.1 ++ x.2.flatten

/-- KW unwrap: the plaintext, or none when the integrity check fails. -/
def kwUnwrap (key ct : List Byte) : Option (List Byte) :=
  let rk := roundKeys (nums key)
  let rs := (semis (ct.length / 8 - 1) (ct.drop 8)).reverse
  let n := rs.length
  let x := (List.range 6).foldl (fun (x : List Byte × List (List Byte)) j => unwrapPass rk ((6 - j) * n) x.1 x.2)
    (ct.take 8, rs)
  if x.1 = kwIcv then some x.2.reverse.flatten else none

end Sys2Proof.Machine
end

