-- ==== Sys2Proof/Machine/Crc.lean ====
section
/-!
DEFINITION. Machine/Crc.lean: the five check polynomials (14 R330) with fold prefixes (14 R331).
-/

namespace Sys2Proof.Machine

open Sys2Proof

/-- One check polynomial: its width, polynomial, initial value, whether input and output are reflected, final XOR. -/
structure CheckPoly where
  width : Nat
  poly : Nat
  start : Nat
  refl : Bool
  fin : Nat
  deriving DecidableEq, Repr

/-- The table of 14 R330; a number above 4 names none. -/
def checkPoly : Nat → Option CheckPoly
  | 0 => some ⟨8, 0x07, 0, false, 0⟩
  | 1 => some ⟨16, 0x1021, 0, true, 0⟩
  | 2 => some ⟨24, 0x864CFB, 0xB704CE, false, 0⟩
  | 3 => some ⟨32, 0x04C11DB7, 0xFFFFFFFF, true, 0xFFFFFFFF⟩
  | 4 => some ⟨32, 0x1EDC6F41, 0xFFFFFFFF, true, 0xFFFFFFFF⟩
  | _ => none

/-- The lowest `n` bits of a number in reverse order. -/
def revBits : Nat → Nat → Nat
  | 0, _ => 0
  | n + 1, v => (v % 2) * 2 ^ n + revBits n (v / 2)

/-- One bit of the division: the register moves up by one and takes the polynomial when a 1 leaves it. -/
def crcBit (p : CheckPoly) (r : Nat) : Nat :=
  let u := (r * 2) % 2 ^ p.width
  if r / 2 ^ (p.width - 1) % 2 = 1 then u ^^^ p.poly else u

/-- One octet fed to the register. -/
def crcOctet (p : CheckPoly) (r : Nat) (b : Byte) : Nat :=
  let v := if p.refl then revBits 8 b.toNat else b.toNat
  Nat.repeat (crcBit p) 8 (r ^^^ (v * 2 ^ (p.width - 8)))

/-- The check value of octets under a polynomial. -/
def crcWith (p : CheckPoly) (d : List Byte) : Nat :=
  let r := d.foldl (crcOctet p) p.start
  (if p.refl then revBits p.width r else r) ^^^ p.fin

/-- The check value of `data` behind a fold prefix (14 R331: the prefix is fed first, from the initial value). -/
def crc (n : Nat) (fold data : List Byte) : Nat :=
  match checkPoly n with
  | some p => crcWith p (fold ++ data)
  | none => 0

end Sys2Proof.Machine
end

