-- ==== Sys2Proof/Config.lean ====
section
/-!
DEFINITION. Config.lean: the values the spec leaves open. Each is an opaque constant with no body, applied to a
counter in State (`State.free`, which every command advances) or to the operands, so no proof can use a
value of it (log entries 5 and 20 to 29).
-/

namespace Sys2Proof.Config

/-- A free octet: the number of the command that needs it, and which of its open octets it is. Used for reserved
octets of responses (00 R7, "reads undefined") and for memory contents the spec does not give. -/
opaque freeByte : Nat → Nat → Byte

/-- A free register word: reserved bits of a register "read undefined" (00 R7). -/
opaque freeWord : Nat → Nat → Word

/-- A free natural number: a random draw, reduced by its reader to the range its rule states. -/
opaque freeNat : Nat → Nat → Nat

/-- A free signed number: a value of the signal path that the spec does not state. -/
opaque freeInt : Nat → Nat → Int

/-- A tap of the resampler's filter, by phase and place, in 2^-40 (17 R393): its taps are not stated. -/
opaque resampleTap : Nat → Nat → Int

/-- A tap of a half-band stage, by the number of the odd offset, in 2^-40 (17 R394): its taps are not stated. -/
opaque halfBandTap : Nat → Int

/-- A tap of the notch, by its design and its offset from the centre, in 2^-40 (17 R395): its taps are not stated. -/
opaque notchTap : Nat → Nat → Int

/-- The EMF of thermocouple curve 3 to 9 at a temperature in 0.01 °C, in 2^-31 µV (16 R378): the standard's reference function,
which the spec does not state. -/
opaque thermoEmf : Nat → Int → Int

/-- The temperature in 0.01 °C of thermocouple curve 3 to 9 at an EMF in 2^-31 µV: the standard's inverse function. -/
opaque thermoTemp : Nat → Int → Int

end Sys2Proof.Config
end

