-- ==== Sys2Proof/Machine/RegTable.lean ====
section
/-!
DEFINITION. Machine/RegTable.lean: the registers of the configuration space, one family a register description of
the spec (00 R2, 02 R26 to R37, 03 R70, 04 R90, 05 to 18 "registers" sections): where each lies, how often it
repeats, and for each field its bits, its access class (00 R6), whether it is retained (00 R8) and its first-start
value. Bits that no field covers are reserved (00 R7).
-/

namespace Sys2Proof.Machine

/-- The access classes of 00 R6. -/
inductive Acc
  | rw | ro | w1c | wo | rs | rl | lv
  deriving DecidableEq, Repr

/-- One field: bits [hi:lo], class, retained, first-start value. -/
structure Fld where
  hi : Nat
  lo : Nat
  acc : Acc
  keep : Bool
  init : Nat
  deriving DecidableEq, Repr

/-- One register description: the address of its first copy, the two repeat counts with their strides, and its
fields. -/
structure FamInfo where
  base : Nat
  n1 : Nat
  s1 : Nat
  n2 : Nat
  s2 : Nat
  flds : List Fld
  deriving DecidableEq, Repr

/-- The register descriptions, by name. -/
inductive Fam
  | stwXport | stwUdp | stwCredit | stwSession | stwDiscard | stwAclCtl | stwAclAddr0 | stwAclAddr1 
  | stwAclAddr2 | stwAclAddr3 | tmbElapsedLo | tmbElapsedHi | tmbEpoch | linStatus | linCtl | linFactory 
  | linBoot | linBankWr | linBankSrcLo | linBankSrcHi | linBankLen | linBankCrc | fauSpares | fauStatus | fauLog 
  | fauEngstate | fauCntPatch | fauCntSwitch | fauCntFailover | fauCntCorr | fauCntUnmasked | fauCntLoglost 
  | fauInject | plxCtl | plxStatus | plxCfg | plxCor | plxCal | plxCntCand | plxCntPreempt | plxCntHdrFail 
  | plxCntPayFail | plxCntCdrop | plxCntLate | plxCntRxOk | plxCntTx | plxNotch | plxLsRegion | plxLsTx 
  | plxMapcfg | plxMaphold | plxCenCtl | plxCenAddrLo | plxCenAddrHi | plxCntErase | plxCntRebuild | plxCntOffer 
  | plxAcc | plxDisc | plxNode | plxTxlim | plxCntDefer | plxCntRetry | plxCntAckAbort | plxCntAckStray 
  | plxCntRelayDrop | plxCommit | airCtl | airStatus | airJesd | airCenter | airLat | airCor | airTx 
  | airCntCand | airCntPreempt | airCntPhrFail | airCntFcsFail | airCntCdrop | airCntLate | airCntRxOk 
  | airCntTx | airCntTxcut | airCntLinkdown | airChCfg | airChLim | airBcn | airAccmap | airCntAck 
  | airCntAckSkip | airCntAddrMiss | airCntBcnSkip | airCntLbtBusy | airCntDuty | airCommit | airMacCtl 
  | airMacTiming | airMacWake | airMacExtHi | airMacExtLo | airMacCount | airDutyCfg | airDutyLbt | airDutySpent 
  | airDutyStat | cipStatus | cipKeys | cipFloor | cipRoot | cipRootId | cipAlarmCfg | cipOutstanding | cipHrCtl 
  | cipHrJobsLo | cipHrJobsHi | cipHrDoneLo | cipHrDoneHi | cipHrTail | cipHrHead | cipCntJobs | cipCntAuthfail 
  | cipCntUntrusted | cipCntAlarm | chkStatus | chkCntJobs | chkCntMismatch | splChCtl | splChStatus 
  | splChRingLo | splChRingHi | splChRcfg | splChPace | splChDoorbell | splChIdx | splChCntDesc | splChCntBytes 
  | splChLink | splChCommit | senRef | senBrk | senExCfg | senExStat | senCntBreak | cnvCtl | cnvSeqCtl 
  | cnvTrigDly | cnvStatus | cnvCntTrigmiss | cnvCntOver | cnvEntCfg | cnvEntLin | cnvEntPa | cnvEntPb | cnvRes 
  | cnvCommit | fltChCfg | fltChRate | fltChPhase | fltChStat | fltStrmCtl | fltStrmMask | fltStrmAddrLo 
  | fltStrmAddrHi | fltStrmWidx | fltCntRestart | fltCommit | lopLoCtl | lopLoFixed | lopLoV4 | lopLoV20 
  | lopLoStat | lopCntFault | mnsCtl | mnsCfg | mnsPhStatus | mnsPhPeriod | mnsPhLevel | mnsPhCycles 
  | mnsPortCfg | mnsTrgCfg | mnsCommit | seaCtl | seaStatus | seaCfg | seaId | seaBcn | seaXport | seaUdp 
  | seaMcastHi | seaMcastLo | seaMcastV4 | seaCepoch | seaCtimeLo | seaCtimeHi | seaPeers | seaMiss | seaMembers 
  | seaScCtl | seaScCntFwd | seaScCntGroup | seaScCntOk | seaScCntFail | seaScCntLate | seaScCntDrop | ethEpCtl 
  | ethEpStatus | ethEpMacHi | ethEpMacLo | ethEpIpv4 | ethEpIpv60 | ethEpIpv61 | ethEpIpv62 | ethEpIpv63 
  | ethEpCntRxdrop | ethEpCntCapdrop | ethEpCntFecCorr | ethEpCntFecUncorr | ethPrio | ethVlan | ethPfc | ethCap 
  | ethRxtsLo | ethRxtsHi | ethRxctsLo | ethRxctsHi | idPart | idRev 
  deriving DecidableEq, Repr

/-- A field by the register that holds it and its bits. -/
structure FRef where
  fam : Fam
  hi : Nat
  lo : Nat
  deriving DecidableEq, Repr

/-- Where a register lies and what it holds, as its table in the spec gives it. -/
def famInfo : Fam → FamInfo
  | .stwXport => ⟨0x0, 1, 0, 1, 0, [⟨31, 16, .rl, true, 0x88b5⟩, ⟨1, 1, .rl, true, 1⟩, ⟨0, 0, .rl, true, 1⟩]⟩
  | .stwUdp => ⟨0x4, 1, 0, 1, 0, [⟨15, 0, .rl, true, 0xc1e8⟩]⟩
  | .stwCredit => ⟨0x8, 1, 0, 1, 0, [⟨28, 16, .ro, false, 0⟩, ⟨12, 0, .ro, false, 0x1000⟩]⟩
  | .stwSession => ⟨0xc, 1, 0, 1, 0, [⟨31, 16, .ro, false, 0⟩, ⟨7, 0, .rw, true, 10⟩]⟩
  | .stwDiscard => ⟨0x10, 1, 0, 1, 0, [⟨31, 0, .w1c, false, 0⟩]⟩
  | .stwAclCtl => ⟨0x100, 16, 0x20, 1, 0, [⟨31, 24, .rw, true, 0⟩, ⟨17, 16, .rw, true, 0⟩, ⟨15, 8, .rw, true, 0⟩]⟩
  | .stwAclAddr0 => ⟨0x104, 16, 0x20, 1, 0, [⟨31, 0, .rw, true, 0⟩]⟩
  | .stwAclAddr1 => ⟨0x108, 16, 0x20, 1, 0, [⟨31, 0, .rw, true, 0⟩]⟩
  | .stwAclAddr2 => ⟨0x10c, 16, 0x20, 1, 0, [⟨31, 0, .rw, true, 0⟩]⟩
  | .stwAclAddr3 => ⟨0x110, 16, 0x20, 1, 0, [⟨31, 0, .rw, true, 0⟩]⟩
  | .tmbElapsedLo => ⟨0x10000, 1, 0, 1, 0, [⟨31, 0, .ro, false, 0⟩]⟩
  | .tmbElapsedHi => ⟨0x10004, 1, 0, 1, 0, [⟨31, 0, .ro, false, 0⟩]⟩
  | .tmbEpoch => ⟨0x10008, 1, 0, 1, 0, [⟨31, 0, .ro, false, 0⟩]⟩
  | .linStatus => ⟨0x20000, 1, 0, 1, 0, [
      ⟨21, 12, .ro, false, 0⟩, ⟨9, 9, .ro, false, 0⟩, ⟨8, 8, .ro, false, 0⟩, ⟨7, 7, .ro, false, 0⟩,
      ⟨5, 5, .ro, false, 0⟩, ⟨4, 4, .ro, false, 0⟩, ⟨3, 0, .ro, false, 0⟩]⟩
  | .linCtl => ⟨0x20004, 1, 0, 1, 0, [⟨0, 0, .wo, false, 0⟩]⟩
  | .linFactory => ⟨0x20008, 1, 0, 1, 0, [⟨15, 0, .wo, false, 0⟩]⟩
  | .linBoot => ⟨0x2000c, 1, 0, 1, 0, [
      ⟨9, 9, .ro, false, 0⟩, ⟨8, 8, .ro, false, 0⟩, ⟨4, 4, .ro, false, 0⟩, ⟨0, 0, .rw, true, 0⟩]⟩
  | .linBankWr => ⟨0x20010, 1, 0, 1, 0, [
      ⟨3, 3, .w1c, false, 0⟩, ⟨2, 2, .w1c, false, 0⟩, ⟨1, 1, .rw, false, 0⟩, ⟨0, 0, .lv, false, 0⟩]⟩
  | .linBankSrcLo => ⟨0x20014, 1, 0, 1, 0, [⟨31, 0, .rw, false, 0⟩]⟩
  | .linBankSrcHi => ⟨0x20018, 1, 0, 1, 0, [⟨31, 0, .rw, false, 0⟩]⟩
  | .linBankLen => ⟨0x2001c, 1, 0, 1, 0, [⟨31, 0, .rw, false, 0⟩]⟩
  | .linBankCrc => ⟨0x20020, 1, 0, 1, 0, [⟨31, 0, .rw, false, 0⟩]⟩
  | .fauSpares => ⟨0x40000, 1, 0, 1, 0, [⟨3, 0, .rw, true, 4⟩]⟩
  | .fauStatus => ⟨0x40004, 1, 0, 1, 0, [
      ⟨23, 16, .ro, false, 0⟩, ⟨15, 12, .ro, false, 0⟩, ⟨8, 8, .ro, false, 0⟩, ⟨0, 0, .ro, false, 0⟩]⟩
  | .fauLog => ⟨0x40008, 1, 0, 1, 0, [⟨31, 0, .ro, false, 0⟩]⟩
  | .fauEngstate => ⟨0x40010, 4, 4, 1, 0, [
      ⟨1, 0, .ro, false, 0⟩, ⟨3, 2, .ro, false, 0⟩, ⟨5, 4, .ro, false, 0⟩, ⟨7, 6, .ro, false, 0⟩,
      ⟨9, 8, .ro, false, 0⟩, ⟨11, 10, .ro, false, 0⟩, ⟨13, 12, .ro, false, 0⟩, ⟨15, 14, .ro, false, 0⟩,
      ⟨17, 16, .ro, false, 0⟩, ⟨19, 18, .ro, false, 0⟩, ⟨21, 20, .ro, false, 0⟩, ⟨23, 22, .ro, false, 0⟩,
      ⟨25, 24, .ro, false, 0⟩, ⟨27, 26, .ro, false, 0⟩, ⟨29, 28, .ro, false, 0⟩, ⟨31, 30, .ro, false, 0⟩]⟩
  | .fauCntPatch => ⟨0x40020, 1, 0, 1, 0, [⟨31, 0, .w1c, false, 0⟩]⟩
  | .fauCntSwitch => ⟨0x40024, 1, 0, 1, 0, [⟨31, 0, .w1c, false, 0⟩]⟩
  | .fauCntFailover => ⟨0x40028, 1, 0, 1, 0, [⟨31, 0, .w1c, false, 0⟩]⟩
  | .fauCntCorr => ⟨0x4002c, 1, 0, 1, 0, [⟨31, 0, .w1c, false, 0⟩]⟩
  | .fauCntUnmasked => ⟨0x40030, 1, 0, 1, 0, [⟨31, 0, .w1c, false, 0⟩]⟩
  | .fauCntLoglost => ⟨0x40034, 1, 0, 1, 0, [⟨31, 0, .w1c, false, 0⟩]⟩
  | .fauInject => ⟨0x40040, 1, 0, 1, 0, [⟨31, 31, .wo, false, 0⟩, ⟨9, 8, .wo, false, 0⟩, ⟨5, 0, .wo, false, 0⟩]⟩
  | .plxCtl => ⟨0x100000, 24, 0x1000, 1, 0, [⟨0, 0, .rw, true, 0⟩]⟩
  | .plxStatus => ⟨0x100004, 24, 0x1000, 1, 0, [
      ⟨23, 16, .ro, false, 0⟩, ⟨3, 3, .ro, false, 0⟩, ⟨2, 2, .ro, false, 0⟩, ⟨1, 1, .ro, false, 0⟩,
      ⟨0, 0, .ro, false, 0⟩]⟩
  | .plxCfg => ⟨0x100008, 24, 0x1000, 1, 0, [⟨31, 24, .rl, true, 0⟩, ⟨18, 16, .rl, true, 0⟩, ⟨9, 8, .rl, true, 0⟩]⟩
  | .plxCor => ⟨0x10000c, 24, 0x1000, 1, 0, [⟨7, 0, .rw, true, 24⟩]⟩
  | .plxCal => ⟨0x100010, 24, 0x1000, 1, 0, [⟨1, 1, .wo, false, 0⟩, ⟨0, 0, .lv, false, 0⟩]⟩
  | .plxCntCand => ⟨0x100020, 24, 0x1000, 1, 0, [⟨31, 0, .w1c, false, 0⟩]⟩
  | .plxCntPreempt => ⟨0x100024, 24, 0x1000, 1, 0, [⟨31, 0, .w1c, false, 0⟩]⟩
  | .plxCntHdrFail => ⟨0x100028, 24, 0x1000, 1, 0, [⟨31, 0, .w1c, false, 0⟩]⟩
  | .plxCntPayFail => ⟨0x10002c, 24, 0x1000, 1, 0, [⟨31, 0, .w1c, false, 0⟩]⟩
  | .plxCntCdrop => ⟨0x100030, 24, 0x1000, 1, 0, [⟨31, 0, .w1c, false, 0⟩]⟩
  | .plxCntLate => ⟨0x100034, 24, 0x1000, 1, 0, [⟨31, 0, .w1c, false, 0⟩]⟩
  | .plxCntRxOk => ⟨0x100038, 24, 0x1000, 1, 0, [⟨31, 0, .w1c, false, 0⟩]⟩
  | .plxCntTx => ⟨0x10003c, 24, 0x1000, 1, 0, [⟨31, 0, .w1c, false, 0⟩]⟩
  | .plxNotch => ⟨0x100040, 24, 0x1000, 20, 4, [⟨31, 0, .rs, true, 0⟩]⟩
  | .plxLsRegion => ⟨0x100100, 24, 0x1000, 64, 8, [
      ⟨31, 31, .rs, true, 0⟩, ⟨25, 16, .rs, true, 0⟩, ⟨9, 0, .rs, true, 0⟩]⟩
  | .plxLsTx => ⟨0x100104, 24, 0x1000, 64, 8, [⟨25, 16, .rs, true, 0⟩, ⟨12, 0, .rs, true, 127⟩]⟩
  | .plxMapcfg => ⟨0x100300, 24, 0x1000, 1, 0, [
      ⟨31, 31, .rw, true, 0⟩, ⟨23, 16, .rw, true, 10⟩, ⟨15, 8, .rw, true, 12⟩, ⟨7, 0, .rw, true, 8⟩]⟩
  | .plxMaphold => ⟨0x100304, 24, 0x1000, 1, 0, [⟨15, 0, .rw, true, 60⟩]⟩
  | .plxCenCtl => ⟨0x100308, 24, 0x1000, 1, 0, [
      ⟨31, 16, .ro, false, 0⟩, ⟨2, 2, .w1c, false, 0⟩, ⟨1, 1, .ro, false, 0⟩, ⟨0, 0, .rw, true, 0⟩]⟩
  | .plxCenAddrLo => ⟨0x10030c, 24, 0x1000, 1, 0, [⟨31, 0, .lv, true, 0⟩]⟩
  | .plxCenAddrHi => ⟨0x100310, 24, 0x1000, 1, 0, [⟨31, 0, .lv, true, 0⟩]⟩
  | .plxCntErase => ⟨0x100314, 24, 0x1000, 1, 0, [⟨31, 0, .w1c, false, 0⟩]⟩
  | .plxCntRebuild => ⟨0x100318, 24, 0x1000, 1, 0, [⟨31, 0, .w1c, false, 0⟩]⟩
  | .plxCntOffer => ⟨0x10031c, 24, 0x1000, 1, 0, [⟨31, 0, .w1c, false, 0⟩]⟩
  | .plxAcc => ⟨0x100400, 24, 0x1000, 1, 0, [⟨11, 8, .rw, true, 4⟩, ⟨7, 0, .rw, true, 24⟩]⟩
  | .plxDisc => ⟨0x100404, 24, 0x1000, 1, 0, [⟨31, 31, .rw, true, 1⟩, ⟨30, 30, .rw, true, 1⟩, ⟨15, 0, .rw, true, 60⟩]⟩
  | .plxNode => ⟨0x100408, 24, 0x1000, 1, 0, [⟨29, 16, .ro, false, 0⟩, ⟨15, 0, .rw, true, 0xe10⟩]⟩
  | .plxTxlim => ⟨0x10040c, 24, 0x1000, 1, 0, [
      ⟨31, 31, .rw, true, 1⟩, ⟨23, 20, .ro, false, 0⟩, ⟨19, 16, .rw, true, 4⟩, ⟨15, 0, .rw, true, 10⟩]⟩
  | .plxCntDefer => ⟨0x100410, 24, 0x1000, 1, 0, [⟨31, 0, .w1c, false, 0⟩]⟩
  | .plxCntRetry => ⟨0x100414, 24, 0x1000, 1, 0, [⟨31, 0, .w1c, false, 0⟩]⟩
  | .plxCntAckAbort => ⟨0x100418, 24, 0x1000, 1, 0, [⟨31, 0, .w1c, false, 0⟩]⟩
  | .plxCntAckStray => ⟨0x10041c, 24, 0x1000, 1, 0, [⟨31, 0, .w1c, false, 0⟩]⟩
  | .plxCntRelayDrop => ⟨0x100420, 24, 0x1000, 1, 0, [⟨31, 0, .w1c, false, 0⟩]⟩
  | .plxCommit => ⟨0x100ff0, 24, 0x1000, 1, 0, [
      ⟨31, 16, .ro, false, 0⟩, ⟨9, 9, .ro, false, 0⟩, ⟨8, 8, .ro, false, 0⟩, ⟨1, 1, .wo, false, 0⟩,
      ⟨0, 0, .wo, false, 0⟩]⟩
  | .airCtl => ⟨0x300000, 16, 0x1000, 1, 0, [⟨0, 0, .rw, true, 0⟩]⟩
  | .airStatus => ⟨0x300004, 16, 0x1000, 1, 0, [
      ⟨31, 24, .ro, false, 0⟩, ⟨23, 20, .ro, false, 0⟩, ⟨15, 12, .ro, false, 0⟩, ⟨1, 1, .ro, false, 0⟩,
      ⟨0, 0, .ro, false, 0⟩]⟩
  | .airJesd => ⟨0x300008, 16, 0x1000, 1, 0, [⟨8, 8, .rl, true, 1⟩, ⟨4, 4, .rl, true, 0⟩, ⟨1, 0, .rl, true, 0⟩]⟩
  | .airCenter => ⟨0x30000c, 16, 0x1000, 1, 0, [⟨20, 0, .rl, true, 0xd3f00⟩]⟩
  | .airLat => ⟨0x300010, 16, 0x1000, 1, 0, [⟨31, 16, .rl, true, 0⟩, ⟨15, 0, .rl, true, 0⟩]⟩
  | .airCor => ⟨0x300014, 16, 0x1000, 1, 0, [⟨7, 0, .rw, true, 32⟩]⟩
  | .airTx => ⟨0x300018, 16, 0x1000, 1, 0, [⟨18, 16, .rs, true, 4⟩, ⟨14, 0, .rs, true, 0x1fff⟩]⟩
  | .airCntCand => ⟨0x300020, 16, 0x1000, 1, 0, [⟨31, 0, .w1c, false, 0⟩]⟩
  | .airCntPreempt => ⟨0x300024, 16, 0x1000, 1, 0, [⟨31, 0, .w1c, false, 0⟩]⟩
  | .airCntPhrFail => ⟨0x300028, 16, 0x1000, 1, 0, [⟨31, 0, .w1c, false, 0⟩]⟩
  | .airCntFcsFail => ⟨0x30002c, 16, 0x1000, 1, 0, [⟨31, 0, .w1c, false, 0⟩]⟩
  | .airCntCdrop => ⟨0x300030, 16, 0x1000, 1, 0, [⟨31, 0, .w1c, false, 0⟩]⟩
  | .airCntLate => ⟨0x300034, 16, 0x1000, 1, 0, [⟨31, 0, .w1c, false, 0⟩]⟩
  | .airCntRxOk => ⟨0x300038, 16, 0x1000, 1, 0, [⟨31, 0, .w1c, false, 0⟩]⟩
  | .airCntTx => ⟨0x30003c, 16, 0x1000, 1, 0, [⟨31, 0, .w1c, false, 0⟩]⟩
  | .airCntTxcut => ⟨0x300040, 16, 0x1000, 1, 0, [⟨31, 0, .w1c, false, 0⟩]⟩
  | .airCntLinkdown => ⟨0x300044, 16, 0x1000, 1, 0, [⟨31, 0, .w1c, false, 0⟩]⟩
  | .airChCfg => ⟨0x300100, 16, 0x1000, 64, 8, [
      ⟨31, 31, .rs, true, 0⟩, ⟨30, 24, .rs, true, 0⟩, ⟨21, 20, .rs, true, 0⟩, ⟨17, 16, .rs, true, 0⟩,
      ⟨15, 14, .rs, true, 0⟩, ⟨13, 13, .rs, true, 0⟩, ⟨12, 11, .rs, true, 0⟩, ⟨10, 10, .rs, true, 0⟩,
      ⟨9, 9, .rs, true, 0⟩]⟩
  | .airChLim => ⟨0x300104, 16, 0x1000, 64, 8, [⟨26, 16, .rs, true, 255⟩, ⟨9, 0, .rs, true, 8⟩]⟩
  | .airBcn => ⟨0x300400, 16, 0x1000, 1, 0, [⟨31, 31, .rw, true, 1⟩, ⟨29, 24, .rw, true, 0⟩, ⟨15, 0, .rw, true, 10⟩]⟩
  | .airAccmap => ⟨0x300410, 16, 0x1000, 8, 4, [
      ⟨3, 0, .rw, true, 0⟩, ⟨7, 4, .rw, true, 0⟩, ⟨11, 8, .rw, true, 0⟩, ⟨15, 12, .rw, true, 0⟩,
      ⟨19, 16, .rw, true, 0⟩, ⟨23, 20, .rw, true, 0⟩, ⟨27, 24, .rw, true, 0⟩, ⟨31, 28, .rw, true, 0⟩]⟩
  | .airCntAck => ⟨0x300440, 16, 0x1000, 1, 0, [⟨31, 0, .w1c, false, 0⟩]⟩
  | .airCntAckSkip => ⟨0x300444, 16, 0x1000, 1, 0, [⟨31, 0, .w1c, false, 0⟩]⟩
  | .airCntAddrMiss => ⟨0x300448, 16, 0x1000, 1, 0, [⟨31, 0, .w1c, false, 0⟩]⟩
  | .airCntBcnSkip => ⟨0x30044c, 16, 0x1000, 1, 0, [⟨31, 0, .w1c, false, 0⟩]⟩
  | .airCntLbtBusy => ⟨0x300450, 16, 0x1000, 1, 0, [⟨31, 0, .w1c, false, 0⟩]⟩
  | .airCntDuty => ⟨0x300454, 16, 0x1000, 1, 0, [⟨31, 0, .w1c, false, 0⟩]⟩
  | .airCommit => ⟨0x300ff0, 16, 0x1000, 1, 0, [
      ⟨31, 16, .ro, false, 0⟩, ⟨9, 9, .ro, false, 0⟩, ⟨8, 8, .ro, false, 0⟩, ⟨1, 1, .wo, false, 0⟩,
      ⟨0, 0, .wo, false, 0⟩]⟩
  | .airMacCtl => ⟨0x310000, 1, 0, 1, 0, [⟨31, 31, .rw, true, 1⟩, ⟨27, 24, .rw, true, 3⟩, ⟨15, 0, .rl, true, 1⟩]⟩
  | .airMacTiming => ⟨0x310004, 1, 0, 1, 0, [⟨31, 24, .rw, true, 4⟩, ⟨23, 16, .rw, true, 20⟩, ⟨15, 0, .rw, true, 20⟩]⟩
  | .airMacWake => ⟨0x310008, 1, 0, 1, 0, [⟨31, 16, .rw, true, 0x7d0⟩, ⟨15, 8, .rw, true, 5⟩, ⟨7, 0, .rw, true, 20⟩]⟩
  | .airMacExtHi => ⟨0x31000c, 1, 0, 1, 0, [⟨31, 0, .ro, false, 0⟩]⟩
  | .airMacExtLo => ⟨0x310010, 1, 0, 1, 0, [⟨31, 0, .ro, false, 0⟩]⟩
  | .airMacCount => ⟨0x310014, 1, 0, 1, 0, [⟨15, 0, .ro, false, 0⟩]⟩
  | .airDutyCfg => ⟨0x310100, 16, 0x10, 1, 0, [
      ⟨31, 31, .rw, true, 0⟩, ⟨30, 30, .rw, true, 0⟩, ⟨27, 16, .rw, true, 0xe10⟩, ⟨9, 0, .rw, true, 10⟩]⟩
  | .airDutyLbt => ⟨0x310104, 16, 0x10, 1, 0, [
      ⟨31, 16, .rw, true, 0x1388⟩, ⟨15, 8, .rw, true, 10⟩, ⟨7, 0, .rw, true, 90⟩]⟩
  | .airDutySpent => ⟨0x310108, 16, 0x10, 1, 0, [⟨31, 0, .ro, false, 0⟩]⟩
  | .airDutyStat => ⟨0x31010c, 16, 0x10, 1, 0, [⟨31, 31, .ro, false, 0⟩, ⟨11, 0, .ro, false, 0⟩]⟩
  | .cipStatus => ⟨0x400000, 1, 0, 1, 0, [
      ⟨27, 24, .ro, false, 0⟩, ⟨18, 16, .ro, false, 0⟩, ⟨2, 2, .ro, false, 0⟩, ⟨1, 1, .ro, false, 0⟩,
      ⟨0, 0, .ro, false, 0⟩]⟩
  | .cipKeys => ⟨0x400004, 1, 0, 1, 0, [⟨16, 0, .ro, false, 0⟩]⟩
  | .cipFloor => ⟨0x400008, 1, 0, 1, 0, [⟨31, 0, .ro, false, 0⟩]⟩
  | .cipRoot => ⟨0x40000c, 1, 0, 1, 0, [⟨15, 0, .ro, false, 0⟩]⟩
  | .cipRootId => ⟨0x400010, 1, 0, 1, 0, [⟨31, 0, .ro, false, 0⟩]⟩
  | .cipAlarmCfg => ⟨0x400014, 1, 0, 1, 0, [⟨0, 0, .rl, true, 1⟩]⟩
  | .cipOutstanding => ⟨0x400018, 1, 0, 1, 0, [⟨12, 0, .ro, false, 0⟩]⟩
  | .cipHrCtl => ⟨0x400020, 1, 0, 1, 0, [⟨31, 31, .rw, false, 0⟩, ⟨3, 0, .rl, true, 4⟩]⟩
  | .cipHrJobsLo => ⟨0x400024, 1, 0, 1, 0, [⟨31, 0, .rl, true, 0⟩]⟩
  | .cipHrJobsHi => ⟨0x400028, 1, 0, 1, 0, [⟨31, 0, .rl, true, 0⟩]⟩
  | .cipHrDoneLo => ⟨0x40002c, 1, 0, 1, 0, [⟨31, 0, .rl, true, 0⟩]⟩
  | .cipHrDoneHi => ⟨0x400030, 1, 0, 1, 0, [⟨31, 0, .rl, true, 0⟩]⟩
  | .cipHrTail => ⟨0x400034, 1, 0, 1, 0, [⟨11, 0, .lv, false, 0⟩]⟩
  | .cipHrHead => ⟨0x400038, 1, 0, 1, 0, [⟨11, 0, .ro, false, 0⟩]⟩
  | .cipCntJobs => ⟨0x400040, 1, 0, 1, 0, [⟨31, 0, .w1c, false, 0⟩]⟩
  | .cipCntAuthfail => ⟨0x400044, 1, 0, 1, 0, [⟨31, 0, .w1c, false, 0⟩]⟩
  | .cipCntUntrusted => ⟨0x400048, 1, 0, 1, 0, [⟨31, 0, .w1c, false, 0⟩]⟩
  | .cipCntAlarm => ⟨0x40004c, 1, 0, 1, 0, [⟨31, 0, .w1c, false, 0⟩]⟩
  | .chkStatus => ⟨0x410000, 1, 0, 1, 0, [⟨7, 0, .ro, false, 0⟩]⟩
  | .chkCntJobs => ⟨0x410004, 1, 0, 1, 0, [⟨31, 0, .w1c, false, 0⟩]⟩
  | .chkCntMismatch => ⟨0x410008, 1, 0, 1, 0, [⟨31, 0, .w1c, false, 0⟩]⟩
  | .splChCtl => ⟨0x500000, 384, 0x40, 1, 0, [⟨1, 1, .lv, false, 0⟩, ⟨0, 0, .rw, false, 0⟩]⟩
  | .splChStatus => ⟨0x500004, 384, 0x40, 1, 0, [
      ⟨31, 16, .ro, false, 0⟩, ⟨15, 8, .ro, false, 0⟩, ⟨4, 4, .w1c, false, 0⟩, ⟨1, 0, .ro, false, 0⟩]⟩
  | .splChRingLo => ⟨0x500008, 384, 0x40, 1, 0, [⟨31, 0, .rl, true, 0⟩]⟩
  | .splChRingHi => ⟨0x50000c, 384, 0x40, 1, 0, [⟨31, 0, .rl, true, 0⟩]⟩
  | .splChRcfg => ⟨0x500010, 384, 0x40, 1, 0, [⟨20, 16, .rl, true, 4⟩, ⟨15, 0, .rl, true, 0⟩]⟩
  | .splChPace => ⟨0x500014, 384, 0x40, 1, 0, [
      ⟨31, 30, .rs, true, 2⟩, ⟨27, 25, .rs, true, 6⟩, ⟨24, 16, .rs, true, 256⟩, ⟨8, 0, .rs, true, 128⟩]⟩
  | .splChDoorbell => ⟨0x500018, 384, 0x40, 1, 0, [⟨0, 0, .wo, false, 0⟩]⟩
  | .splChIdx => ⟨0x50001c, 384, 0x40, 1, 0, [⟨15, 0, .ro, false, 0⟩]⟩
  | .splChCntDesc => ⟨0x500020, 384, 0x40, 1, 0, [⟨31, 0, .w1c, false, 0⟩]⟩
  | .splChCntBytes => ⟨0x500024, 384, 0x40, 1, 0, [⟨31, 0, .w1c, false, 0⟩]⟩
  | .splChLink => ⟨0x500028, 384, 0x40, 1, 0, [⟨15, 8, .ro, false, 0⟩, ⟨7, 0, .ro, false, 0⟩]⟩
  | .splChCommit => ⟨0x50003c, 384, 0x40, 1, 0, [
      ⟨31, 16, .ro, false, 0⟩, ⟨9, 9, .ro, false, 0⟩, ⟨8, 8, .ro, false, 0⟩, ⟨1, 1, .wo, false, 0⟩,
      ⟨0, 0, .wo, false, 0⟩]⟩
  | .senRef => ⟨0x600000, 1, 0, 1, 0, [⟨31, 31, .ro, false, 0⟩, ⟨0, 0, .rl, true, 0⟩]⟩
  | .senBrk => ⟨0x600004, 1, 0, 1, 0, [⟨15, 0, .rw, true, 10⟩]⟩
  | .senExCfg => ⟨0x600010, 4, 8, 1, 0, [
      ⟨31, 31, .rl, true, 0⟩, ⟨28, 16, .rl, true, 0x1388⟩, ⟨15, 8, .rw, true, 0⟩, ⟨7, 0, .rw, true, 0⟩]⟩
  | .senExStat => ⟨0x600014, 4, 8, 1, 0, [⟨25, 25, .w1c, false, 0⟩, ⟨24, 24, .ro, false, 0⟩, ⟨15, 0, .ro, false, 0⟩]⟩
  | .senCntBreak => ⟨0x600030, 1, 0, 1, 0, [⟨31, 0, .w1c, false, 0⟩]⟩
  | .cnvCtl => ⟨0x610000, 1, 0, 1, 0, [⟨1, 1, .wo, false, 0⟩, ⟨0, 0, .rw, true, 0⟩]⟩
  | .cnvSeqCtl => ⟨0x610004, 1, 0, 1, 0, [⟨31, 31, .rs, true, 0⟩, ⟨27, 24, .rs, true, 0⟩, ⟨5, 0, .rs, true, 1⟩]⟩
  | .cnvTrigDly => ⟨0x610008, 1, 0, 1, 0, [⟨15, 0, .rs, true, 0⟩]⟩
  | .cnvStatus => ⟨0x61000c, 1, 0, 1, 0, [
      ⟨31, 16, .ro, false, 0⟩, ⟨12, 8, .ro, false, 0⟩, ⟨4, 4, .ro, false, 0⟩, ⟨3, 3, .ro, false, 0⟩,
      ⟨1, 0, .ro, false, 0⟩]⟩
  | .cnvCntTrigmiss => ⟨0x610010, 1, 0, 1, 0, [⟨31, 0, .w1c, false, 0⟩]⟩
  | .cnvCntOver => ⟨0x610014, 1, 0, 1, 0, [⟨31, 0, .w1c, false, 0⟩]⟩
  | .cnvEntCfg => ⟨0x610100, 32, 0x10, 1, 0, [
      ⟨31, 27, .rs, true, 0⟩, ⟨26, 24, .rs, true, 0⟩, ⟨23, 23, .rs, true, 0⟩, ⟨22, 20, .rs, true, 4⟩,
      ⟨19, 19, .rs, true, 0⟩, ⟨18, 11, .rs, true, 0⟩, ⟨10, 0, .rs, true, 0⟩]⟩
  | .cnvEntLin => ⟨0x610104, 32, 0x10, 1, 0, [⟨31, 28, .rs, true, 0⟩, ⟨21, 16, .rs, true, 32⟩]⟩
  | .cnvEntPa => ⟨0x610108, 32, 0x10, 1, 0, [⟨31, 0, .rs, true, 0⟩]⟩
  | .cnvEntPb => ⟨0x61010c, 32, 0x10, 1, 0, [⟨31, 0, .rs, true, 0⟩]⟩
  | .cnvRes => ⟨0x610300, 32, 4, 1, 0, [⟨31, 8, .ro, false, 0⟩, ⟨7, 0, .ro, false, 0⟩]⟩
  | .cnvCommit => ⟨0x61fff0, 1, 0, 1, 0, [
      ⟨31, 16, .ro, false, 0⟩, ⟨9, 9, .ro, false, 0⟩, ⟨8, 8, .ro, false, 0⟩, ⟨1, 1, .wo, false, 0⟩,
      ⟨0, 0, .wo, false, 0⟩]⟩
  | .fltChCfg => ⟨0x620000, 32, 0x10, 1, 0, [
      ⟨31, 31, .rs, true, 0⟩, ⟨27, 24, .rs, true, 4⟩, ⟨21, 20, .lv, true, 0⟩, ⟨17, 16, .rs, true, 0⟩,
      ⟨2, 0, .rs, true, 0⟩]⟩
  | .fltChRate => ⟨0x620004, 32, 0x10, 1, 0, [
      ⟨31, 31, .rs, true, 0⟩, ⟨28, 24, .rs, true, 0⟩, ⟨23, 0, .rs, true, 0x3e8⟩]⟩
  | .fltChPhase => ⟨0x620008, 32, 0x10, 1, 0, [⟨31, 0, .rs, true, 0⟩]⟩
  | .fltChStat => ⟨0x62000c, 32, 0x10, 1, 0, [
      ⟨31, 31, .ro, false, 0⟩, ⟨30, 30, .ro, false, 0⟩, ⟨23, 0, .ro, false, 0⟩]⟩
  | .fltStrmCtl => ⟨0x620400, 1, 0, 1, 0, [⟨31, 31, .rw, true, 0⟩, ⟨3, 0, .rl, true, 10⟩]⟩
  | .fltStrmMask => ⟨0x620404, 1, 0, 1, 0, [⟨31, 0, .rw, true, 0⟩]⟩
  | .fltStrmAddrLo => ⟨0x620408, 1, 0, 1, 0, [⟨31, 0, .rl, true, 0⟩]⟩
  | .fltStrmAddrHi => ⟨0x62040c, 1, 0, 1, 0, [⟨31, 0, .rl, true, 0⟩]⟩
  | .fltStrmWidx => ⟨0x620410, 1, 0, 1, 0, [⟨31, 0, .ro, false, 0⟩]⟩
  | .fltCntRestart => ⟨0x620420, 1, 0, 1, 0, [⟨31, 0, .w1c, false, 0⟩]⟩
  | .fltCommit => ⟨0x62fff0, 1, 0, 1, 0, [
      ⟨31, 16, .ro, false, 0⟩, ⟨9, 9, .ro, false, 0⟩, ⟨8, 8, .ro, false, 0⟩, ⟨1, 1, .wo, false, 0⟩,
      ⟨0, 0, .wo, false, 0⟩]⟩
  | .lopLoCtl => ⟨0x630000, 4, 0x10, 1, 0, [
      ⟨31, 31, .rw, true, 1⟩, ⟨30, 30, .rw, true, 0⟩, ⟨29, 28, .rw, true, 0⟩, ⟨20, 16, .rw, true, 0⟩,
      ⟨15, 0, .rw, true, 0x3e8⟩]⟩
  | .lopLoFixed => ⟨0x630004, 4, 0x10, 1, 0, [⟨14, 0, .rw, true, 0xfa0⟩]⟩
  | .lopLoV4 => ⟨0x630008, 4, 0x10, 1, 0, [⟨23, 0, .lv, true, 0⟩]⟩
  | .lopLoV20 => ⟨0x63000c, 4, 0x10, 1, 0, [⟨23, 0, .lv, true, 0x7fffff⟩]⟩
  | .lopLoStat => ⟨0x630040, 4, 4, 1, 0, [⟨31, 16, .ro, false, 0⟩, ⟨15, 8, .ro, false, 0⟩, ⟨1, 0, .ro, false, 0⟩]⟩
  | .lopCntFault => ⟨0x630050, 1, 0, 1, 0, [⟨31, 0, .w1c, false, 0⟩]⟩
  | .mnsCtl => ⟨0x640000, 1, 0, 1, 0, [⟨8, 8, .rl, true, 0⟩, ⟨0, 0, .rw, true, 1⟩]⟩
  | .mnsCfg => ⟨0x640004, 1, 0, 1, 0, [⟨23, 16, .rw, true, 128⟩, ⟨7, 0, .rw, true, 20⟩]⟩
  | .mnsPhStatus => ⟨0x640010, 3, 0x10, 1, 0, [
      ⟨31, 16, .ro, false, 0⟩, ⟨8, 8, .w1c, false, 0⟩, ⟨1, 0, .ro, false, 0⟩]⟩
  | .mnsPhPeriod => ⟨0x640014, 3, 0x10, 1, 0, [⟨31, 0, .ro, false, 0⟩]⟩
  | .mnsPhLevel => ⟨0x640018, 3, 0x10, 1, 0, [⟨27, 16, .ro, false, 0⟩, ⟨15, 0, .ro, false, 0⟩]⟩
  | .mnsPhCycles => ⟨0x64001c, 3, 0x10, 1, 0, [⟨31, 0, .ro, false, 0⟩]⟩
  | .mnsPortCfg => ⟨0x640100, 24, 4, 1, 0, [⟨17, 16, .rl, true, 0⟩, ⟨11, 0, .rs, true, 0⟩]⟩
  | .mnsTrgCfg => ⟨0x640200, 4, 4, 1, 0, [⟨31, 31, .rw, true, 0⟩, ⟨20, 16, .rw, true, 0⟩, ⟨15, 0, .rw, true, 1⟩]⟩
  | .mnsCommit => ⟨0x64fff0, 1, 0, 1, 0, [
      ⟨31, 16, .ro, false, 0⟩, ⟨9, 9, .ro, false, 0⟩, ⟨8, 8, .ro, false, 0⟩, ⟨1, 1, .wo, false, 0⟩,
      ⟨0, 0, .wo, false, 0⟩]⟩
  | .seaCtl => ⟨0x700000, 1, 0, 1, 0, [⟨0, 0, .rw, true, 0⟩]⟩
  | .seaStatus => ⟨0x700004, 1, 0, 1, 0, [
      ⟨9, 8, .ro, false, 0⟩, ⟨7, 7, .ro, false, 0⟩, ⟨6, 6, .ro, false, 0⟩, ⟨3, 0, .ro, false, 0⟩]⟩
  | .seaCfg => ⟨0x700008, 1, 0, 1, 0, [⟨31, 24, .rw, true, 1⟩, ⟨11, 0, .rl, true, 0⟩]⟩
  | .seaId => ⟨0x70000c, 1, 0, 1, 0, [⟨15, 0, .rl, true, 1⟩]⟩
  | .seaBcn => ⟨0x700010, 1, 0, 1, 0, [⟨10, 0, .rw, true, 8⟩]⟩
  | .seaXport => ⟨0x700014, 1, 0, 1, 0, [⟨31, 16, .rl, true, 0x88b5⟩, ⟨1, 1, .rl, true, 0⟩, ⟨0, 0, .rl, true, 1⟩]⟩
  | .seaUdp => ⟨0x700018, 1, 0, 1, 0, [⟨15, 0, .rl, true, 0xc1e9⟩]⟩
  | .seaMcastHi => ⟨0x70001c, 1, 0, 1, 0, [⟨15, 0, .rl, true, 844⟩]⟩
  | .seaMcastLo => ⟨0x700020, 1, 0, 1, 0, [⟨31, 0, .rl, true, 0x96400001⟩]⟩
  | .seaMcastV4 => ⟨0x700024, 1, 0, 1, 0, [⟨31, 0, .rl, true, 0xefff6028⟩]⟩
  | .seaCepoch => ⟨0x700028, 1, 0, 1, 0, [⟨31, 0, .ro, false, 0⟩]⟩
  | .seaCtimeLo => ⟨0x70002c, 1, 0, 1, 0, [⟨31, 0, .ro, false, 0⟩]⟩
  | .seaCtimeHi => ⟨0x700030, 1, 0, 1, 0, [⟨31, 0, .ro, false, 0⟩]⟩
  | .seaPeers => ⟨0x700034, 1, 0, 1, 0, [
      ⟨31, 31, .ro, false, 0⟩, ⟨27, 16, .ro, false, 0⟩, ⟨15, 15, .ro, false, 0⟩, ⟨11, 0, .ro, false, 0⟩]⟩
  | .seaMiss => ⟨0x700038, 1, 0, 1, 0, [⟨31, 0, .w1c, false, 0⟩]⟩
  | .seaMembers => ⟨0x70003c, 1, 0, 1, 0, [⟨12, 0, .ro, false, 0⟩]⟩
  | .seaScCtl => ⟨0x700040, 1, 0, 1, 0, [⟨31, 31, .rw, true, 0⟩, ⟨23, 16, .rw, true, 3⟩, ⟨11, 0, .rw, true, 60⟩]⟩
  | .seaScCntFwd => ⟨0x700044, 1, 0, 1, 0, [⟨31, 0, .w1c, false, 0⟩]⟩
  | .seaScCntGroup => ⟨0x700048, 1, 0, 1, 0, [⟨31, 0, .w1c, false, 0⟩]⟩
  | .seaScCntOk => ⟨0x70004c, 1, 0, 1, 0, [⟨31, 0, .w1c, false, 0⟩]⟩
  | .seaScCntFail => ⟨0x700050, 1, 0, 1, 0, [⟨31, 0, .w1c, false, 0⟩]⟩
  | .seaScCntLate => ⟨0x700054, 1, 0, 1, 0, [⟨31, 0, .w1c, false, 0⟩]⟩
  | .seaScCntDrop => ⟨0x700058, 1, 0, 1, 0, [⟨31, 0, .w1c, false, 0⟩]⟩
  | .ethEpCtl => ⟨0x800000, 2, 0x100, 1, 0, [
      ⟨6, 6, .lv, true, 1⟩, ⟨5, 5, .lv, true, 1⟩, ⟨4, 2, .lv, true, 0⟩, ⟨0, 0, .rw, true, 1⟩]⟩
  | .ethEpStatus => ⟨0x800004, 2, 0x100, 1, 0, [⟨15, 8, .ro, false, 0⟩, ⟨1, 1, .ro, false, 0⟩, ⟨0, 0, .ro, false, 0⟩]⟩
  | .ethEpMacHi => ⟨0x800008, 2, 0x100, 1, 0, [⟨15, 0, .ro, false, 0⟩]⟩
  | .ethEpMacLo => ⟨0x80000c, 2, 0x100, 1, 0, [⟨31, 0, .ro, false, 0⟩]⟩
  | .ethEpIpv4 => ⟨0x800010, 2, 0x100, 1, 0, [⟨31, 0, .rw, true, 0⟩]⟩
  | .ethEpIpv60 => ⟨0x800014, 2, 0x100, 1, 0, [⟨31, 0, .rw, true, 0⟩]⟩
  | .ethEpIpv61 => ⟨0x800018, 2, 0x100, 1, 0, [⟨31, 0, .rw, true, 0⟩]⟩
  | .ethEpIpv62 => ⟨0x80001c, 2, 0x100, 1, 0, [⟨31, 0, .rw, true, 0⟩]⟩
  | .ethEpIpv63 => ⟨0x800020, 2, 0x100, 1, 0, [⟨31, 0, .rw, true, 0⟩]⟩
  | .ethEpCntRxdrop => ⟨0x800030, 2, 0x100, 1, 0, [⟨31, 0, .w1c, false, 0⟩]⟩
  | .ethEpCntCapdrop => ⟨0x800034, 2, 0x100, 1, 0, [⟨31, 0, .w1c, false, 0⟩]⟩
  | .ethEpCntFecCorr => ⟨0x800038, 2, 0x100, 1, 0, [⟨31, 0, .w1c, false, 0⟩]⟩
  | .ethEpCntFecUncorr => ⟨0x80003c, 2, 0x100, 1, 0, [⟨31, 0, .w1c, false, 0⟩]⟩
  | .ethPrio => ⟨0x801000, 1, 0, 1, 0, [
      ⟨14, 12, .rw, true, 7⟩, ⟨11, 9, .rw, true, 6⟩, ⟨8, 6, .rw, true, 5⟩, ⟨5, 3, .rw, true, 4⟩,
      ⟨2, 0, .rw, true, 1⟩]⟩
  | .ethVlan => ⟨0x801004, 1, 0, 1, 0, [⟨31, 31, .rw, true, 0⟩, ⟨27, 16, .rw, true, 0⟩, ⟨11, 0, .rw, true, 0⟩]⟩
  | .ethPfc => ⟨0x801008, 1, 0, 1, 0, [⟨15, 8, .rw, true, 0⟩, ⟨7, 0, .rw, true, 0⟩]⟩
  | .ethCap => ⟨0x80100c, 1, 0, 1, 0, [⟨6, 0, .rw, true, 20⟩]⟩
  | .ethRxtsLo => ⟨0x801100, 1, 0, 1, 0, [⟨31, 0, .ro, false, 0⟩]⟩
  | .ethRxtsHi => ⟨0x801104, 1, 0, 1, 0, [⟨31, 0, .ro, false, 0⟩]⟩
  | .ethRxctsLo => ⟨0x801108, 1, 0, 1, 0, [⟨31, 0, .ro, false, 0⟩]⟩
  | .ethRxctsHi => ⟨0x80110c, 1, 0, 1, 0, [⟨31, 0, .ro, false, 0⟩]⟩
  | .idPart => ⟨0xf00000, 1, 0, 1, 0, [⟨31, 16, .ro, false, 0x9640⟩, ⟨15, 8, .ro, false, 1⟩, ⟨7, 0, .ro, false, 73⟩]⟩
  | .idRev => ⟨0xf00004, 1, 0, 1, 0, [⟨15, 8, .ro, false, 66⟩, ⟨7, 0, .ro, false, 1⟩]⟩

/-- The registers of block STW. -/
def famsStw : List Fam :=
  [.stwXport, .stwUdp, .stwCredit, .stwSession, .stwDiscard, .stwAclCtl, .stwAclAddr0, .stwAclAddr1,
   .stwAclAddr2, .stwAclAddr3]

/-- The registers of block TMB. -/
def famsTmb : List Fam :=
  [.tmbElapsedLo, .tmbElapsedHi, .tmbEpoch]

/-- The registers of block LIN. -/
def famsLin : List Fam :=
  [.linStatus, .linCtl, .linFactory, .linBoot, .linBankWr, .linBankSrcLo, .linBankSrcHi, .linBankLen,
   .linBankCrc]

/-- The registers of block FAU. -/
def famsFau : List Fam :=
  [.fauSpares, .fauStatus, .fauLog, .fauEngstate, .fauCntPatch, .fauCntSwitch, .fauCntFailover, .fauCntCorr,
   .fauCntUnmasked, .fauCntLoglost, .fauInject]

/-- The registers of block PLX. -/
def famsPlx : List Fam :=
  [.plxCtl, .plxStatus, .plxCfg, .plxCor, .plxCal, .plxCntCand, .plxCntPreempt, .plxCntHdrFail, .plxCntPayFail,
   .plxCntCdrop, .plxCntLate, .plxCntRxOk, .plxCntTx, .plxNotch, .plxLsRegion, .plxLsTx, .plxMapcfg,
   .plxMaphold, .plxCenCtl, .plxCenAddrLo, .plxCenAddrHi, .plxCntErase, .plxCntRebuild, .plxCntOffer, .plxAcc,
   .plxDisc, .plxNode, .plxTxlim, .plxCntDefer, .plxCntRetry, .plxCntAckAbort, .plxCntAckStray,
   .plxCntRelayDrop, .plxCommit]

/-- The registers of block AIR. -/
def famsAir : List Fam :=
  [.airCtl, .airStatus, .airJesd, .airCenter, .airLat, .airCor, .airTx, .airCntCand, .airCntPreempt,
   .airCntPhrFail, .airCntFcsFail, .airCntCdrop, .airCntLate, .airCntRxOk, .airCntTx, .airCntTxcut,
   .airCntLinkdown, .airChCfg, .airChLim, .airBcn, .airAccmap, .airCntAck, .airCntAckSkip, .airCntAddrMiss,
   .airCntBcnSkip, .airCntLbtBusy, .airCntDuty, .airCommit, .airMacCtl, .airMacTiming, .airMacWake,
   .airMacExtHi, .airMacExtLo, .airMacCount, .airDutyCfg, .airDutyLbt, .airDutySpent, .airDutyStat]

/-- The registers of block CIP. -/
def famsCip : List Fam :=
  [.cipStatus, .cipKeys, .cipFloor, .cipRoot, .cipRootId, .cipAlarmCfg, .cipOutstanding, .cipHrCtl,
   .cipHrJobsLo, .cipHrJobsHi, .cipHrDoneLo, .cipHrDoneHi, .cipHrTail, .cipHrHead, .cipCntJobs,
   .cipCntAuthfail, .cipCntUntrusted, .cipCntAlarm]

/-- The registers of block CHK. -/
def famsChk : List Fam :=
  [.chkStatus, .chkCntJobs, .chkCntMismatch]

/-- The registers of block SPL. -/
def famsSpl : List Fam :=
  [.splChCtl, .splChStatus, .splChRingLo, .splChRingHi, .splChRcfg, .splChPace, .splChDoorbell, .splChIdx,
   .splChCntDesc, .splChCntBytes, .splChLink, .splChCommit]

/-- The registers of block SEN. -/
def famsSen : List Fam :=
  [.senRef, .senBrk, .senExCfg, .senExStat, .senCntBreak]

/-- The registers of block CNV. -/
def famsCnv : List Fam :=
  [.cnvCtl, .cnvSeqCtl, .cnvTrigDly, .cnvStatus, .cnvCntTrigmiss, .cnvCntOver, .cnvEntCfg, .cnvEntLin,
   .cnvEntPa, .cnvEntPb, .cnvRes, .cnvCommit]

/-- The registers of block FLT. -/
def famsFlt : List Fam :=
  [.fltChCfg, .fltChRate, .fltChPhase, .fltChStat, .fltStrmCtl, .fltStrmMask, .fltStrmAddrLo, .fltStrmAddrHi,
   .fltStrmWidx, .fltCntRestart, .fltCommit]

/-- The registers of block LOP. -/
def famsLop : List Fam :=
  [.lopLoCtl, .lopLoFixed, .lopLoV4, .lopLoV20, .lopLoStat, .lopCntFault]

/-- The registers of block MNS. -/
def famsMns : List Fam :=
  [.mnsCtl, .mnsCfg, .mnsPhStatus, .mnsPhPeriod, .mnsPhLevel, .mnsPhCycles, .mnsPortCfg, .mnsTrgCfg, .mnsCommit]

/-- The registers of block SEA. -/
def famsSea : List Fam :=
  [.seaCtl, .seaStatus, .seaCfg, .seaId, .seaBcn, .seaXport, .seaUdp, .seaMcastHi, .seaMcastLo, .seaMcastV4,
   .seaCepoch, .seaCtimeLo, .seaCtimeHi, .seaPeers, .seaMiss, .seaMembers, .seaScCtl, .seaScCntFwd,
   .seaScCntGroup, .seaScCntOk, .seaScCntFail, .seaScCntLate, .seaScCntDrop]

/-- The registers of block ETH. -/
def famsEth : List Fam :=
  [.ethEpCtl, .ethEpStatus, .ethEpMacHi, .ethEpMacLo, .ethEpIpv4, .ethEpIpv60, .ethEpIpv61, .ethEpIpv62,
   .ethEpIpv63, .ethEpCntRxdrop, .ethEpCntCapdrop, .ethEpCntFecCorr, .ethEpCntFecUncorr, .ethPrio, .ethVlan,
   .ethPfc, .ethCap, .ethRxtsLo, .ethRxtsHi, .ethRxctsLo, .ethRxctsHi]

/-- The registers of block ID. -/
def famsId : List Fam :=
  [.idPart, .idRev]

/-- The blocks of the configuration space (00_scope.md), each with its last address and its registers. -/
def blockTable : List (Nat × List Fam) :=
  [(0xffff, famsStw),
   (0x1ffff, famsTmb),
   (0x2ffff, famsLin),
   (0x4ffff, famsFau),
   (0x117fff, famsPlx),
   (0x31ffff, famsAir),
   (0x40ffff, famsCip),
   (0x41ffff, famsChk),
   (0x505fff, famsSpl),
   (0x60ffff, famsSen),
   (0x61ffff, famsCnv),
   (0x62ffff, famsFlt),
   (0x63ffff, famsLop),
   (0x64ffff, famsMns),
   (0x70ffff, famsSea),
   (0x80ffff, famsEth),
   (0xf0ffff, famsId)]

/-! The fields by name: register then field, as the spec writes REGISTER.FIELD. -/

namespace F

def stwXportEthertype : FRef := ⟨.stwXport, 31, 16⟩
def stwXportUdpEn : FRef := ⟨.stwXport, 1, 1⟩
def stwXportRawEn : FRef := ⟨.stwXport, 0, 0⟩
def stwUdpPort : FRef := ⟨.stwUdp, 15, 0⟩
def stwCreditInflight : FRef := ⟨.stwCredit, 28, 16⟩
def stwCreditFree : FRef := ⟨.stwCredit, 12, 0⟩
def stwSessionOpen : FRef := ⟨.stwSession, 31, 16⟩
def stwSessionIdleS : FRef := ⟨.stwSession, 7, 0⟩
def stwDiscard : FRef := ⟨.stwDiscard, 31, 0⟩
def stwAclCtlRights : FRef := ⟨.stwAclCtl, 31, 24⟩
def stwAclCtlMatch : FRef := ⟨.stwAclCtl, 17, 16⟩
def stwAclCtlPrefix : FRef := ⟨.stwAclCtl, 15, 8⟩
def stwAclAddr0 : FRef := ⟨.stwAclAddr0, 31, 0⟩
def stwAclAddr1 : FRef := ⟨.stwAclAddr1, 31, 0⟩
def stwAclAddr2 : FRef := ⟨.stwAclAddr2, 31, 0⟩
def stwAclAddr3 : FRef := ⟨.stwAclAddr3, 31, 0⟩
def tmbElapsedLoNsLo : FRef := ⟨.tmbElapsedLo, 31, 0⟩
def tmbElapsedHiNsHi : FRef := ⟨.tmbElapsedHi, 31, 0⟩
def tmbEpochEpoch : FRef := ⟨.tmbEpoch, 31, 0⟩
def linStatusWear : FRef := ⟨.linStatus, 21, 12⟩
def linStatusPendingWrites : FRef := ⟨.linStatus, 9, 9⟩
def linStatusFactoryArmed : FRef := ⟨.linStatus, 8, 8⟩
def linStatusBankFallback : FRef := ⟨.linStatus, 7, 7⟩
def linStatusFactoryDone : FRef := ⟨.linStatus, 5, 5⟩
def linStatusFirstStart : FRef := ⟨.linStatus, 4, 4⟩
def linStatusPhase : FRef := ⟨.linStatus, 3, 0⟩
def linCtlRestart : FRef := ⟨.linCtl, 0, 0⟩
def linFactoryCode : FRef := ⟨.linFactory, 15, 0⟩
def linBootValidB : FRef := ⟨.linBoot, 9, 9⟩
def linBootValidA : FRef := ⟨.linBoot, 8, 8⟩
def linBootActive : FRef := ⟨.linBoot, 4, 4⟩
def linBootNext : FRef := ⟨.linBoot, 0, 0⟩
def linBankWrErr : FRef := ⟨.linBankWr, 3, 3⟩
def linBankWrDone : FRef := ⟨.linBankWr, 2, 2⟩
def linBankWrBank : FRef := ⟨.linBankWr, 1, 1⟩
def linBankWrGo : FRef := ⟨.linBankWr, 0, 0⟩
def linBankSrcLo : FRef := ⟨.linBankSrcLo, 31, 0⟩
def linBankSrcHi : FRef := ⟨.linBankSrcHi, 31, 0⟩
def linBankLen : FRef := ⟨.linBankLen, 31, 0⟩
def linBankCrc : FRef := ⟨.linBankCrc, 31, 0⟩
def fauSparesSpares : FRef := ⟨.fauSpares, 3, 0⟩
def fauStatusActive : FRef := ⟨.fauStatus, 23, 16⟩
def fauStatusSparesReady : FRef := ⟨.fauStatus, 15, 12⟩
def fauStatusStandbyReady : FRef := ⟨.fauStatus, 8, 8⟩
def fauStatusActivePair : FRef := ⟨.fauStatus, 0, 0⟩
def fauLogNext : FRef := ⟨.fauLog, 31, 0⟩
def fauCntPatch : FRef := ⟨.fauCntPatch, 31, 0⟩
def fauCntSwitch : FRef := ⟨.fauCntSwitch, 31, 0⟩
def fauCntFailover : FRef := ⟨.fauCntFailover, 31, 0⟩
def fauCntCorr : FRef := ⟨.fauCntCorr, 31, 0⟩
def fauCntUnmasked : FRef := ⟨.fauCntUnmasked, 31, 0⟩
def fauCntLoglost : FRef := ⟨.fauCntLoglost, 31, 0⟩
def fauInjectGo : FRef := ⟨.fauInject, 31, 31⟩
def fauInjectKind : FRef := ⟨.fauInject, 9, 8⟩
def fauInjectTarget : FRef := ⟨.fauInject, 5, 0⟩
def plxCtlEn : FRef := ⟨.plxCtl, 0, 0⟩
def plxStatusSpur : FRef := ⟨.plxStatus, 23, 16⟩
def plxStatusTxlim : FRef := ⟨.plxStatus, 3, 3⟩
def plxStatusCalFrozen : FRef := ⟨.plxStatus, 2, 2⟩
def plxStatusCalConv : FRef := ⟨.plxStatus, 1, 1⟩
def plxStatusInservice : FRef := ⟨.plxStatus, 0, 0⟩
def plxCfgFold : FRef := ⟨.plxCfg, 31, 24⟩
def plxCfgPlan : FRef := ⟨.plxCfg, 18, 16⟩
def plxCfgPga : FRef := ⟨.plxCfg, 9, 8⟩
def plxCorThresh : FRef := ⟨.plxCor, 7, 0⟩
def plxCalRestart : FRef := ⟨.plxCal, 1, 1⟩
def plxCalFreeze : FRef := ⟨.plxCal, 0, 0⟩
def plxCntCand : FRef := ⟨.plxCntCand, 31, 0⟩
def plxCntPreempt : FRef := ⟨.plxCntPreempt, 31, 0⟩
def plxCntHdrFail : FRef := ⟨.plxCntHdrFail, 31, 0⟩
def plxCntPayFail : FRef := ⟨.plxCntPayFail, 31, 0⟩
def plxCntCdrop : FRef := ⟨.plxCntCdrop, 31, 0⟩
def plxCntLate : FRef := ⟨.plxCntLate, 31, 0⟩
def plxCntRxOk : FRef := ⟨.plxCntRxOk, 31, 0⟩
def plxCntTx : FRef := ⟨.plxCntTx, 31, 0⟩
def plxNotchMask : FRef := ⟨.plxNotch, 31, 0⟩
def plxLsRegionEn : FRef := ⟨.plxLsRegion, 31, 31⟩
def plxLsRegionHi : FRef := ⟨.plxLsRegion, 25, 16⟩
def plxLsRegionLo : FRef := ⟨.plxLsRegion, 9, 0⟩
def plxLsTxHome : FRef := ⟨.plxLsTx, 25, 16⟩
def plxLsTxTxamp : FRef := ⟨.plxLsTx, 12, 0⟩
def plxMapcfgFreeze : FRef := ⟨.plxMapcfg, 31, 31⟩
def plxMapcfgErase : FRef := ⟨.plxMapcfg, 23, 16⟩
def plxMapcfgMargin : FRef := ⟨.plxMapcfg, 15, 8⟩
def plxMapcfgHyst : FRef := ⟨.plxMapcfg, 7, 0⟩
def plxMapholdHoldS : FRef := ⟨.plxMaphold, 15, 0⟩
def plxCenCtlCopies : FRef := ⟨.plxCenCtl, 31, 16⟩
def plxCenCtlErr : FRef := ⟨.plxCenCtl, 2, 2⟩
def plxCenCtlLast : FRef := ⟨.plxCenCtl, 1, 1⟩
def plxCenCtlCopy : FRef := ⟨.plxCenCtl, 0, 0⟩
def plxCenAddrLo : FRef := ⟨.plxCenAddrLo, 31, 0⟩
def plxCenAddrHi : FRef := ⟨.plxCenAddrHi, 31, 0⟩
def plxCntErase : FRef := ⟨.plxCntErase, 31, 0⟩
def plxCntRebuild : FRef := ⟨.plxCntRebuild, 31, 0⟩
def plxCntOffer : FRef := ⟨.plxCntOffer, 31, 0⟩
def plxAccTries : FRef := ⟨.plxAcc, 11, 8⟩
def plxAccSense : FRef := ⟨.plxAcc, 7, 0⟩
def plxDiscEn : FRef := ⟨.plxDisc, 31, 31⟩
def plxDiscJoin : FRef := ⟨.plxDisc, 30, 30⟩
def plxDiscPeriodS : FRef := ⟨.plxDisc, 15, 0⟩
def plxNodeNodes : FRef := ⟨.plxNode, 29, 16⟩
def plxNodeLostS : FRef := ⟨.plxNode, 15, 0⟩
def plxTxlimEn : FRef := ⟨.plxTxlim, 31, 31⟩
def plxTxlimScale : FRef := ⟨.plxTxlim, 23, 20⟩
def plxTxlimFloor : FRef := ⟨.plxTxlim, 19, 16⟩
def plxTxlimHoldS : FRef := ⟨.plxTxlim, 15, 0⟩
def plxCntDefer : FRef := ⟨.plxCntDefer, 31, 0⟩
def plxCntRetry : FRef := ⟨.plxCntRetry, 31, 0⟩
def plxCntAckAbort : FRef := ⟨.plxCntAckAbort, 31, 0⟩
def plxCntAckStray : FRef := ⟨.plxCntAckStray, 31, 0⟩
def plxCntRelayDrop : FRef := ⟨.plxCntRelayDrop, 31, 0⟩
def plxCommitCount : FRef := ⟨.plxCommit, 31, 16⟩
def plxCommitShadowDirty : FRef := ⟨.plxCommit, 9, 9⟩
def plxCommitCommitPending : FRef := ⟨.plxCommit, 8, 8⟩
def plxCommitDiscard : FRef := ⟨.plxCommit, 1, 1⟩
def plxCommitGo : FRef := ⟨.plxCommit, 0, 0⟩
def airCtlEn : FRef := ⟨.airCtl, 0, 0⟩
def airStatusDid : FRef := ⟨.airStatus, 31, 24⟩
def airStatusBid : FRef := ⟨.airStatus, 23, 20⟩
def airStatusDownReason : FRef := ⟨.airStatus, 15, 12⟩
def airStatusLinkUp : FRef := ⟨.airStatus, 1, 1⟩
def airStatusInservice : FRef := ⟨.airStatus, 0, 0⟩
def airJesdDuplex : FRef := ⟨.airJesd, 8, 8⟩
def airJesdScr : FRef := ⟨.airJesd, 4, 4⟩
def airJesdRate : FRef := ⟨.airJesd, 1, 0⟩
def airCenterKhz : FRef := ⟨.airCenter, 20, 0⟩
def airLatRxNs : FRef := ⟨.airLat, 31, 16⟩
def airLatTxNs : FRef := ⟨.airLat, 15, 0⟩
def airCorThresh : FRef := ⟨.airCor, 7, 0⟩
def airTxMaxtx : FRef := ⟨.airTx, 18, 16⟩
def airTxTxamp : FRef := ⟨.airTx, 14, 0⟩
def airCntCand : FRef := ⟨.airCntCand, 31, 0⟩
def airCntPreempt : FRef := ⟨.airCntPreempt, 31, 0⟩
def airCntPhrFail : FRef := ⟨.airCntPhrFail, 31, 0⟩
def airCntFcsFail : FRef := ⟨.airCntFcsFail, 31, 0⟩
def airCntCdrop : FRef := ⟨.airCntCdrop, 31, 0⟩
def airCntLate : FRef := ⟨.airCntLate, 31, 0⟩
def airCntRxOk : FRef := ⟨.airCntRxOk, 31, 0⟩
def airCntTx : FRef := ⟨.airCntTx, 31, 0⟩
def airCntTxcut : FRef := ⟨.airCntTxcut, 31, 0⟩
def airCntLinkdown : FRef := ⟨.airCntLinkdown, 31, 0⟩
def airChCfgEn : FRef := ⟨.airChCfg, 31, 31⟩
def airChCfgRaster : FRef := ⟨.airChCfg, 30, 24⟩
def airChCfgWidth : FRef := ⟨.airChCfg, 21, 20⟩
def airChCfgRate : FRef := ⟨.airChCfg, 17, 16⟩
def airChCfgMod : FRef := ⟨.airChCfg, 15, 14⟩
def airChCfgSfd : FRef := ⟨.airChCfg, 13, 13⟩
def airChCfgBt : FRef := ⟨.airChCfg, 12, 11⟩
def airChCfgDw : FRef := ⟨.airChCfg, 10, 10⟩
def airChCfgFcs4 : FRef := ⟨.airChCfg, 9, 9⟩
def airChLimMaxlen : FRef := ⟨.airChLim, 26, 16⟩
def airChLimPreamble : FRef := ⟨.airChLim, 9, 0⟩
def airBcnEn : FRef := ⟨.airBcn, 31, 31⟩
def airBcnChannel : FRef := ⟨.airBcn, 29, 24⟩
def airBcnPeriodDs : FRef := ⟨.airBcn, 15, 0⟩
def airCntAck : FRef := ⟨.airCntAck, 31, 0⟩
def airCntAckSkip : FRef := ⟨.airCntAckSkip, 31, 0⟩
def airCntAddrMiss : FRef := ⟨.airCntAddrMiss, 31, 0⟩
def airCntBcnSkip : FRef := ⟨.airCntBcnSkip, 31, 0⟩
def airCntLbtBusy : FRef := ⟨.airCntLbtBusy, 31, 0⟩
def airCntDuty : FRef := ⟨.airCntDuty, 31, 0⟩
def airCommitCount : FRef := ⟨.airCommit, 31, 16⟩
def airCommitShadowDirty : FRef := ⟨.airCommit, 9, 9⟩
def airCommitCommitPending : FRef := ⟨.airCommit, 8, 8⟩
def airCommitDiscard : FRef := ⟨.airCommit, 1, 1⟩
def airCommitGo : FRef := ⟨.airCommit, 0, 0⟩
def airMacCtlAssocOpen : FRef := ⟨.airMacCtl, 31, 31⟩
def airMacCtlTries : FRef := ⟨.airMacCtl, 27, 24⟩
def airMacCtlPan : FRef := ⟨.airMacCtl, 15, 0⟩
def airMacTimingAckPre : FRef := ⟨.airMacTiming, 31, 24⟩
def airMacTimingPendDelay : FRef := ⟨.airMacTiming, 23, 16⟩
def airMacTimingPendWinMs : FRef := ⟨.airMacTiming, 15, 0⟩
def airMacWakeMarginUs : FRef := ⟨.airMacWake, 31, 16⟩
def airMacWakeJitter : FRef := ⟨.airMacWake, 15, 8⟩
def airMacWakeEmin : FRef := ⟨.airMacWake, 7, 0⟩
def airMacExtHiExt : FRef := ⟨.airMacExtHi, 31, 0⟩
def airMacExtLoExt : FRef := ⟨.airMacExtLo, 31, 0⟩
def airMacCountAssociated : FRef := ⟨.airMacCount, 15, 0⟩
def airDutyCfgEn : FRef := ⟨.airDutyCfg, 31, 31⟩
def airDutyCfgLbt : FRef := ⟨.airDutyCfg, 30, 30⟩
def airDutyCfgWindowS : FRef := ⟨.airDutyCfg, 27, 16⟩
def airDutyCfgLimit : FRef := ⟨.airDutyCfg, 9, 0⟩
def airDutyLbtListenUs : FRef := ⟨.airDutyLbt, 31, 16⟩
def airDutyLbtBackoffMs : FRef := ⟨.airDutyLbt, 15, 8⟩
def airDutyLbtThresh : FRef := ⟨.airDutyLbt, 7, 0⟩
def airDutySpentSpentUs : FRef := ⟨.airDutySpent, 31, 0⟩
def airDutyStatWriting : FRef := ⟨.airDutyStat, 31, 31⟩
def airDutyStatPos : FRef := ⟨.airDutyStat, 11, 0⟩
def cipStatusRetired : FRef := ⟨.cipStatus, 27, 24⟩
def cipStatusLastSource : FRef := ⟨.cipStatus, 18, 16⟩
def cipStatusAlarmActive : FRef := ⟨.cipStatus, 2, 2⟩
def cipStatusErased : FRef := ⟨.cipStatus, 1, 1⟩
def cipStatusRoot : FRef := ⟨.cipStatus, 0, 0⟩
def cipKeysLoaded : FRef := ⟨.cipKeys, 16, 0⟩
def cipFloorFloor : FRef := ⟨.cipFloor, 31, 0⟩
def cipRootStation : FRef := ⟨.cipRoot, 15, 0⟩
def cipRootIdRootId : FRef := ⟨.cipRootId, 31, 0⟩
def cipAlarmCfgMeshEn : FRef := ⟨.cipAlarmCfg, 0, 0⟩
def cipOutstandingJobs : FRef := ⟨.cipOutstanding, 12, 0⟩
def cipHrCtlEn : FRef := ⟨.cipHrCtl, 31, 31⟩
def cipHrCtlSize : FRef := ⟨.cipHrCtl, 3, 0⟩
def cipHrJobsLo : FRef := ⟨.cipHrJobsLo, 31, 0⟩
def cipHrJobsHi : FRef := ⟨.cipHrJobsHi, 31, 0⟩
def cipHrDoneLo : FRef := ⟨.cipHrDoneLo, 31, 0⟩
def cipHrDoneHi : FRef := ⟨.cipHrDoneHi, 31, 0⟩
def cipHrTailTail : FRef := ⟨.cipHrTail, 11, 0⟩
def cipHrHeadHead : FRef := ⟨.cipHrHead, 11, 0⟩
def cipCntJobs : FRef := ⟨.cipCntJobs, 31, 0⟩
def cipCntAuthfail : FRef := ⟨.cipCntAuthfail, 31, 0⟩
def cipCntUntrusted : FRef := ⟨.cipCntUntrusted, 31, 0⟩
def cipCntAlarm : FRef := ⟨.cipCntAlarm, 31, 0⟩
def chkStatusInservice : FRef := ⟨.chkStatus, 7, 0⟩
def chkCntJobs : FRef := ⟨.chkCntJobs, 31, 0⟩
def chkCntMismatch : FRef := ⟨.chkCntMismatch, 31, 0⟩
def splChCtlStopreq : FRef := ⟨.splChCtl, 1, 1⟩
def splChCtlEn : FRef := ⟨.splChCtl, 0, 0⟩
def splChStatusStopIdx : FRef := ⟨.splChStatus, 31, 16⟩
def splChStatusLastStatus : FRef := ⟨.splChStatus, 15, 8⟩
def splChStatusErr : FRef := ⟨.splChStatus, 4, 4⟩
def splChStatusState : FRef := ⟨.splChStatus, 1, 0⟩
def splChRingLo : FRef := ⟨.splChRingLo, 31, 0⟩
def splChRingHi : FRef := ⟨.splChRingHi, 31, 0⟩
def splChRcfgLog2size : FRef := ⟨.splChRcfg, 20, 16⟩
def splChRcfgStart : FRef := ⟨.splChRcfg, 15, 0⟩
def splChPacePrio : FRef := ⟨.splChPace, 31, 30⟩
def splChPaceBurst : FRef := ⟨.splChPace, 27, 25⟩
def splChPaceHigh : FRef := ⟨.splChPace, 24, 16⟩
def splChPaceLow : FRef := ⟨.splChPace, 8, 0⟩
def splChDoorbellRing : FRef := ⟨.splChDoorbell, 0, 0⟩
def splChIdxNextDone : FRef := ⟨.splChIdx, 15, 0⟩
def splChCntDesc : FRef := ⟨.splChCntDesc, 31, 0⟩
def splChCntBytes : FRef := ⟨.splChCntBytes, 31, 0⟩
def splChLinkUnit : FRef := ⟨.splChLink, 15, 8⟩
def splChLinkInstance : FRef := ⟨.splChLink, 7, 0⟩
def splChCommitCount : FRef := ⟨.splChCommit, 31, 16⟩
def splChCommitShadowDirty : FRef := ⟨.splChCommit, 9, 9⟩
def splChCommitCommitPending : FRef := ⟨.splChCommit, 8, 8⟩
def splChCommitDiscard : FRef := ⟨.splChCommit, 1, 1⟩
def splChCommitGo : FRef := ⟨.splChCommit, 0, 0⟩
def senRefReady : FRef := ⟨.senRef, 31, 31⟩
def senRefEn : FRef := ⟨.senRef, 0, 0⟩
def senBrkRecoverMs : FRef := ⟨.senBrk, 15, 0⟩
def senExCfgEn : FRef := ⟨.senExCfg, 31, 31⟩
def senExCfgMv : FRef := ⟨.senExCfg, 28, 16⟩
def senExCfgImax : FRef := ⟨.senExCfg, 15, 8⟩
def senExCfgImin : FRef := ⟨.senExCfg, 7, 0⟩
def senExStatSeen : FRef := ⟨.senExStat, 25, 25⟩
def senExStatBroken : FRef := ⟨.senExStat, 24, 24⟩
def senExStatCurrent : FRef := ⟨.senExStat, 15, 0⟩
def senCntBreak : FRef := ⟨.senCntBreak, 31, 0⟩
def cnvCtlSwtrig : FRef := ⟨.cnvCtl, 1, 1⟩
def cnvCtlEn : FRef := ⟨.cnvCtl, 0, 0⟩
def cnvSeqCtlCont : FRef := ⟨.cnvSeqCtl, 31, 31⟩
def cnvSeqCtlTsrc : FRef := ⟨.cnvSeqCtl, 27, 24⟩
def cnvSeqCtlLen : FRef := ⟨.cnvSeqCtl, 5, 0⟩
def cnvTrigDlyDelay : FRef := ⟨.cnvTrigDly, 15, 0⟩
def cnvStatusSeqs : FRef := ⟨.cnvStatus, 31, 16⟩
def cnvStatusEntry : FRef := ⟨.cnvStatus, 12, 8⟩
def cnvStatusCalConv : FRef := ⟨.cnvStatus, 4, 4⟩
def cnvStatusRefWait : FRef := ⟨.cnvStatus, 3, 3⟩
def cnvStatusState : FRef := ⟨.cnvStatus, 1, 0⟩
def cnvCntTrigmiss : FRef := ⟨.cnvCntTrigmiss, 31, 0⟩
def cnvCntOver : FRef := ⟨.cnvCntOver, 31, 0⟩
def cnvEntCfgChan : FRef := ⟨.cnvEntCfg, 31, 27⟩
def cnvEntCfgGain : FRef := ⟨.cnvEntCfg, 26, 24⟩
def cnvEntCfgAuto : FRef := ⟨.cnvEntCfg, 23, 23⟩
def cnvEntCfgExc : FRef := ⟨.cnvEntCfg, 22, 20⟩
def cnvEntCfgRatio : FRef := ⟨.cnvEntCfg, 19, 19⟩
def cnvEntCfgDwell : FRef := ⟨.cnvEntCfg, 18, 11⟩
def cnvEntCfgSettle : FRef := ⟨.cnvEntCfg, 10, 0⟩
def cnvEntLinCurve : FRef := ⟨.cnvEntLin, 31, 28⟩
def cnvEntLinCj : FRef := ⟨.cnvEntLin, 21, 16⟩
def cnvEntPaParam : FRef := ⟨.cnvEntPa, 31, 0⟩
def cnvEntPbParam : FRef := ⟨.cnvEntPb, 31, 0⟩
def cnvResValue : FRef := ⟨.cnvRes, 31, 8⟩
def cnvResQuality : FRef := ⟨.cnvRes, 7, 0⟩
def cnvCommitCount : FRef := ⟨.cnvCommit, 31, 16⟩
def cnvCommitShadowDirty : FRef := ⟨.cnvCommit, 9, 9⟩
def cnvCommitCommitPending : FRef := ⟨.cnvCommit, 8, 8⟩
def cnvCommitDiscard : FRef := ⟨.cnvCommit, 1, 1⟩
def cnvCommitGo : FRef := ⟨.cnvCommit, 0, 0⟩
def fltChCfgFast : FRef := ⟨.fltChCfg, 31, 31⟩
def fltChCfgDcw : FRef := ⟨.fltChCfg, 27, 24⟩
def fltChCfgDcb : FRef := ⟨.fltChCfg, 21, 20⟩
def fltChCfgNotch : FRef := ⟨.fltChCfg, 17, 16⟩
def fltChCfgHb : FRef := ⟨.fltChCfg, 2, 0⟩
def fltChRateMode : FRef := ⟨.fltChRate, 31, 31⟩
def fltChRateSrc : FRef := ⟨.fltChRate, 28, 24⟩
def fltChRateCount : FRef := ⟨.fltChRate, 23, 0⟩
def fltChPhasePhaseNs : FRef := ⟨.fltChPhase, 31, 0⟩
def fltChStatSettling : FRef := ⟨.fltChStat, 31, 31⟩
def fltChStatFrozen : FRef := ⟨.fltChStat, 30, 30⟩
def fltChStatGdelayUs : FRef := ⟨.fltChStat, 23, 0⟩
def fltStrmCtlEn : FRef := ⟨.fltStrmCtl, 31, 31⟩
def fltStrmCtlLog2size : FRef := ⟨.fltStrmCtl, 3, 0⟩
def fltStrmMaskMask : FRef := ⟨.fltStrmMask, 31, 0⟩
def fltStrmAddrLo : FRef := ⟨.fltStrmAddrLo, 31, 0⟩
def fltStrmAddrHi : FRef := ⟨.fltStrmAddrHi, 31, 0⟩
def fltStrmWidxWidx : FRef := ⟨.fltStrmWidx, 31, 0⟩
def fltCntRestart : FRef := ⟨.fltCntRestart, 31, 0⟩
def fltCommitCount : FRef := ⟨.fltCommit, 31, 16⟩
def fltCommitShadowDirty : FRef := ⟨.fltCommit, 9, 9⟩
def fltCommitCommitPending : FRef := ⟨.fltCommit, 8, 8⟩
def fltCommitDiscard : FRef := ⟨.fltCommit, 1, 1⟩
def fltCommitGo : FRef := ⟨.fltCommit, 0, 0⟩
def lopLoCtlEn : FRef := ⟨.lopLoCtl, 31, 31⟩
def lopLoCtlFaultDir : FRef := ⟨.lopLoCtl, 30, 30⟩
def lopLoCtlMode : FRef := ⟨.lopLoCtl, 29, 28⟩
def lopLoCtlSrc : FRef := ⟨.lopLoCtl, 20, 16⟩
def lopLoCtlStaleMs : FRef := ⟨.lopLoCtl, 15, 0⟩
def lopLoFixedUa : FRef := ⟨.lopLoFixed, 14, 0⟩
def lopLoV4 : FRef := ⟨.lopLoV4, 23, 0⟩
def lopLoV20 : FRef := ⟨.lopLoV20, 23, 0⟩
def lopLoStatUaMeas : FRef := ⟨.lopLoStat, 31, 16⟩
def lopLoStatCause : FRef := ⟨.lopLoStat, 15, 8⟩
def lopLoStatState : FRef := ⟨.lopLoStat, 1, 0⟩
def lopCntFault : FRef := ⟨.lopCntFault, 31, 0⟩
def mnsCtlNominal : FRef := ⟨.mnsCtl, 8, 8⟩
def mnsCtlEn : FRef := ⟨.mnsCtl, 0, 0⟩
def mnsCfgJump : FRef := ⟨.mnsCfg, 23, 16⟩
def mnsCfgLevel : FRef := ⟨.mnsCfg, 7, 0⟩
def mnsPhStatusJumps : FRef := ⟨.mnsPhStatus, 31, 16⟩
def mnsPhStatusJump : FRef := ⟨.mnsPhStatus, 8, 8⟩
def mnsPhStatusState : FRef := ⟨.mnsPhStatus, 1, 0⟩
def mnsPhPeriodPeriod : FRef := ⟨.mnsPhPeriod, 31, 0⟩
def mnsPhLevelAngle : FRef := ⟨.mnsPhLevel, 27, 16⟩
def mnsPhLevelAmpl : FRef := ⟨.mnsPhLevel, 15, 0⟩
def mnsPhCyclesCycles : FRef := ⟨.mnsPhCycles, 31, 0⟩
def mnsPortCfgSrc : FRef := ⟨.mnsPortCfg, 17, 16⟩
def mnsPortCfgOffset : FRef := ⟨.mnsPortCfg, 11, 0⟩
def mnsTrgCfgEn : FRef := ⟨.mnsTrgCfg, 31, 31⟩
def mnsTrgCfgSrc : FRef := ⟨.mnsTrgCfg, 20, 16⟩
def mnsTrgCfgMask : FRef := ⟨.mnsTrgCfg, 15, 0⟩
def mnsCommitCount : FRef := ⟨.mnsCommit, 31, 16⟩
def mnsCommitShadowDirty : FRef := ⟨.mnsCommit, 9, 9⟩
def mnsCommitCommitPending : FRef := ⟨.mnsCommit, 8, 8⟩
def mnsCommitDiscard : FRef := ⟨.mnsCommit, 1, 1⟩
def mnsCommitGo : FRef := ⟨.mnsCommit, 0, 0⟩
def seaCtlEn : FRef := ⟨.seaCtl, 0, 0⟩
def seaStatusMisses : FRef := ⟨.seaStatus, 9, 8⟩
def seaStatusCtimeValid : FRef := ⟨.seaStatus, 7, 7⟩
def seaStatusSynced : FRef := ⟨.seaStatus, 6, 6⟩
def seaStatusRole : FRef := ⟨.seaStatus, 3, 0⟩
def seaCfgPriority : FRef := ⟨.seaCfg, 31, 24⟩
def seaCfgStation : FRef := ⟨.seaCfg, 11, 0⟩
def seaIdCluster : FRef := ⟨.seaId, 15, 0⟩
def seaBcnPeriodUs : FRef := ⟨.seaBcn, 10, 0⟩
def seaXportEthertype : FRef := ⟨.seaXport, 31, 16⟩
def seaXportUdpEn : FRef := ⟨.seaXport, 1, 1⟩
def seaXportRawEn : FRef := ⟨.seaXport, 0, 0⟩
def seaUdpPort : FRef := ⟨.seaUdp, 15, 0⟩
def seaMcastHi : FRef := ⟨.seaMcastHi, 15, 0⟩
def seaMcastLo : FRef := ⟨.seaMcastLo, 31, 0⟩
def seaMcastV4 : FRef := ⟨.seaMcastV4, 31, 0⟩
def seaCepochCepoch : FRef := ⟨.seaCepoch, 31, 0⟩
def seaCtimeLoCns : FRef := ⟨.seaCtimeLo, 31, 0⟩
def seaCtimeHiCns : FRef := ⟨.seaCtimeHi, 31, 0⟩
def seaPeersMgrValid : FRef := ⟨.seaPeers, 31, 31⟩
def seaPeersManager : FRef := ⟨.seaPeers, 27, 16⟩
def seaPeersDepValid : FRef := ⟨.seaPeers, 15, 15⟩
def seaPeersDeputy : FRef := ⟨.seaPeers, 11, 0⟩
def seaMiss : FRef := ⟨.seaMiss, 31, 0⟩
def seaMembers : FRef := ⟨.seaMembers, 12, 0⟩
def seaScCtlEn : FRef := ⟨.seaScCtl, 31, 31⟩
def seaScCtlMinSnr : FRef := ⟨.seaScCtl, 23, 16⟩
def seaScCtlHoldS : FRef := ⟨.seaScCtl, 11, 0⟩
def seaScCntFwd : FRef := ⟨.seaScCntFwd, 31, 0⟩
def seaScCntGroup : FRef := ⟨.seaScCntGroup, 31, 0⟩
def seaScCntOk : FRef := ⟨.seaScCntOk, 31, 0⟩
def seaScCntFail : FRef := ⟨.seaScCntFail, 31, 0⟩
def seaScCntLate : FRef := ⟨.seaScCntLate, 31, 0⟩
def seaScCntDrop : FRef := ⟨.seaScCntDrop, 31, 0⟩
def ethEpCtlFec : FRef := ⟨.ethEpCtl, 6, 6⟩
def ethEpCtlAn : FRef := ⟨.ethEpCtl, 5, 5⟩
def ethEpCtlType : FRef := ⟨.ethEpCtl, 4, 2⟩
def ethEpCtlEn : FRef := ⟨.ethEpCtl, 0, 0⟩
def ethEpStatusReason : FRef := ⟨.ethEpStatus, 15, 8⟩
def ethEpStatusSessions : FRef := ⟨.ethEpStatus, 1, 1⟩
def ethEpStatusUp : FRef := ⟨.ethEpStatus, 0, 0⟩
def ethEpMacHi : FRef := ⟨.ethEpMacHi, 15, 0⟩
def ethEpMacLo : FRef := ⟨.ethEpMacLo, 31, 0⟩
def ethEpIpv4 : FRef := ⟨.ethEpIpv4, 31, 0⟩
def ethEpIpv60 : FRef := ⟨.ethEpIpv60, 31, 0⟩
def ethEpIpv61 : FRef := ⟨.ethEpIpv61, 31, 0⟩
def ethEpIpv62 : FRef := ⟨.ethEpIpv62, 31, 0⟩
def ethEpIpv63 : FRef := ⟨.ethEpIpv63, 31, 0⟩
def ethEpCntRxdrop : FRef := ⟨.ethEpCntRxdrop, 31, 0⟩
def ethEpCntCapdrop : FRef := ⟨.ethEpCntCapdrop, 31, 0⟩
def ethEpCntFecCorr : FRef := ⟨.ethEpCntFecCorr, 31, 0⟩
def ethEpCntFecUncorr : FRef := ⟨.ethEpCntFecUncorr, 31, 0⟩
def ethPrioBeaconPcp : FRef := ⟨.ethPrio, 14, 12⟩
def ethPrioSeamPcp : FRef := ⟨.ethPrio, 11, 9⟩
def ethPrioMbPcp : FRef := ⟨.ethPrio, 8, 6⟩
def ethPrioRecPcp : FRef := ⟨.ethPrio, 5, 3⟩
def ethPrioCapPcp : FRef := ⟨.ethPrio, 2, 0⟩
def ethVlanSeamTag : FRef := ⟨.ethVlan, 31, 31⟩
def ethVlanSeamVid : FRef := ⟨.ethVlan, 27, 16⟩
def ethVlanMbVid : FRef := ⟨.ethVlan, 11, 0⟩
def ethPfcRxEn : FRef := ⟨.ethPfc, 15, 8⟩
def ethPfcTxEn : FRef := ⟨.ethPfc, 7, 0⟩
def ethCapRateGbps : FRef := ⟨.ethCap, 6, 0⟩
def ethRxtsLoNs : FRef := ⟨.ethRxtsLo, 31, 0⟩
def ethRxtsHiNs : FRef := ⟨.ethRxtsHi, 31, 0⟩
def ethRxctsLoNs : FRef := ⟨.ethRxctsLo, 31, 0⟩
def ethRxctsHiNs : FRef := ⟨.ethRxctsHi, 31, 0⟩
def idPartPart : FRef := ⟨.idPart, 31, 16⟩
def idPartFamily : FRef := ⟨.idPart, 15, 8⟩
def idPartGrade : FRef := ⟨.idPart, 7, 0⟩
def idRevLetter : FRef := ⟨.idRev, 15, 8⟩
def idRevDigit : FRef := ⟨.idRev, 7, 0⟩

end F

end Sys2Proof.Machine
end

