-- ==== Sys2Proof/Machine/State.lean ====
section
/-!
DEFINITION. Machine/State.lean: the state of the LC9640 as plain data, block by block, and the state after reset.
-/

namespace Sys2Proof.Machine

open Sys2Proof

/-! ## Configuration space (04 R74, R90 to R97) -/

/-- One COMMIT scope (04 R90 to R93): hand-overs counted, SHADOW_DIRTY, COMMIT_PENDING, the snapshot as register
address and value, for a port scope the links that have not applied it yet (R96), and whether a part of the snapshot
has taken effect. -/
structure Commit where
  count : Nat
  dirty : Bool
  pend : Bool
  snap : List (Nat × Word)
  waiting : List Nat
  part : Bool
  deriving DecidableEq, Repr

/-- What a count has recorded at the present instant (00 R436): the register's address and the bits of the count, the
count before the instant's first event, how many events the instant has brought, and whether the count wraps. -/
structure Hit where
  addr : Nat
  hi : Nat
  lo : Nat
  base : Nat
  n : Nat
  wraps : Bool
  deriving DecidableEq, Repr

/-- The registers. `vals` holds the current (for RS fields the active) value of each register that differs from its
first-start value, `shad` the shadow of each register whose shadow differs from its active value, `coms` the
COMMIT scopes by the address of their COMMIT register. `hits` lists the counts that have recorded events at the instant
`hitAt` (00 R436). `last` is the value the last single-register read returned. -/
structure Regs where
  vals : List (Nat × Word)
  shad : List (Nat × Word)
  coms : List (Nat × Commit)
  hitAt : Nat
  hits : List Hit
  last : Word
  deriving DecidableEq, Repr

/-! ## Power, clock, lining (02) -/

/-- What has become of the supplies and the start sequence. `porstHigh`: PORST_N is high. `on`: the start sequence
has run and processing goes on. `phase`: LIN_STATUS.PHASE. `booted`: a firmware bank passed (R34). `restart`: a
restart waits for PENDING_WRITES to be 0 (R31). `bootNext`: the bank that LIN_BOOT.NEXT named at the start (R39). `volts`: the latest
voltage of each supply in microvolts, nominal where none is listed (19 R422). -/
structure Power where
  porstHigh : Bool
  on : Bool
  phase : Nat
  booted : Bool
  restart : Bool
  firstStart : Bool
  factoryDone : Bool
  bankFallback : Bool
  bootNext : Nat
  volts : Tab Nat
  deriving DecidableEq, Repr

/-- A firmware bank (02 R34): its image, the CRC-32C stored with it, whether it passed its last check. -/
structure Bank where
  image : List Byte
  crc : Nat
  valid : Bool
  deriving DecidableEq, Repr

/-- A bank write in progress (02 R35). -/
structure BankWrite where
  bank : Nat
  src : Nat
  len : Nat
  crc : Nat
  deriving DecidableEq, Repr

/-- One fault log entry (13 R298): 32 octets, as the entry is written. -/
abbrev LogEntry := List Byte

/-! ## Mailboxes (03) -/

/-- An event held until it is acknowledged (03 R64): its sequence, when it was last sent, how often it was resent,
and its operand. `sent` is false while it waits for a port to come up. -/
structure StoredEvent where
  seq : Nat
  time : Nat
  sent : Bool
  resends : Nat
  body : List Byte
  deriving DecidableEq, Repr

/-- A record a session has not acknowledged (03 R67): its sequence, its place in the delivery area, when it was
last sent. -/
structure StoredRec where
  seq : Nat
  id : Nat
  time : Nat
  deriving DecidableEq, Repr

/-- What the device keeps of the last command accepted with a tag (03 R55). -/
structure TagRec where
  seq : Nat
  status : Nat
  busy : Bool
  deriving DecidableEq, Repr

/-- An open session (03 R48 to R68). The four latches are those of 02 R27, 11 R253 and 18 R419. -/
structure Session where
  gen : Nat
  maxmsg : Nat
  grant : Nat
  rights : Nat
  groups : Nat
  kinds : Nat
  src : Addr
  port : Nat
  last : Nat
  evSeq : Nat
  events : List StoredEvent
  evLost : Nat
  recSeq : Nat
  recs : List StoredRec
  recLost : Nat
  recWhy : Nat
  tags : Tab TagRec
  latElapsed : Word
  latCluster : Word
  latRx : Word
  latRxc : Word
  deriving DecidableEq, Repr

/-- How far an accepted command has come. `queued`: in its mailbox queue. `held`: a direct-window command behind a
WAIT of its session (04 R77). `waiting`: taken, its final response depends on a later event. -/
inductive Stage
  | queued | held | waiting | answered (status : Nat) (operand : List Byte)
  deriving DecidableEq, Repr

/-- A command in flight (03 R54, R55): where its response goes, its header, its operand and the instant its last
octet arrived; `ref` is the model's number for it. -/
structure Flight where
  ref : Nat
  slot : Nat
  gen : Nat
  tag : Nat
  seq : Nat
  mb : Nat
  opcode : Nat
  time : Nat
  src : Addr
  port : Nat
  operand : List Byte
  pend : Bool
  stage : Stage
  deriving DecidableEq, Repr

/-- A closed session whose grant its commands in flight still hold (03 R51, R53). -/
structure Closing where
  slot : Nat
  gen : Nat
  grant : Nat
  deriving DecidableEq, Repr

/-- A CFG WAIT in progress (04 R77), by the model's number of its command. -/
structure Wait where
  ref : Nat
  slot : Nat
  addr : Nat
  mask : Word
  want : Word
  due : Nat
  deriving DecidableEq, Repr

/-- A record in the delivery area (03 R67), held while any session's list names it. -/
structure AreaRec where
  id : Nat
  body : List Byte
  deriving DecidableEq, Repr

/-- A posted MEM WRITE not yet visible (04 R81). -/
structure Posted where
  slot : Nat
  gen : Nat
  addr : Nat
  data : List Byte
  deriving DecidableEq, Repr

/-- The mailbox engine and the steward's queues. `carrier` holds what an accepted write has given STW_XPORT and STW_UDP, in
that order, until its OK response has been sent (03 R70). -/
structure Stw where
  sess : Tab Session
  closing : List Closing
  genCtr : Nat
  flights : List Flight
  nextRef : Nat
  waits : List Wait
  svc : Tab (List Nat)
  area : List AreaRec
  nextArea : Nat
  areaDrops : Nat
  carrier : Option (Word × Word)
  deriving DecidableEq, Repr

/-! ## Device memory (01 R14 to R17, 04 R89) -/

/-- One range of the memory descriptor (04 R89): base, size in octets, KIND. -/
structure MemRange where
  base : Nat
  size : Nat
  kind : Nat
  deriving DecidableEq, Repr

/-- Device memory: the octets that differ from 0, in ascending address order; by their first addresses the poisoned
codewords, and those that have become uncorrectable and that no read has found yet (01 R17); the posted writes not yet
visible; the memory descriptor's ranges; and by their addresses the spool descriptors that were written while the engine owned
them, whose outcome is undefined (15 R337). -/
structure Mem where
  cells : List Host.Cell
  poison : List Nat
  rot : List Nat
  posted : List Posted
  ranges : List MemRange
  spoilt : List Nat
  deriving DecidableEq, Repr

/-! ## Ethernet ports (18) -/

/-- What a frame in a transmit queue is, for the rules that name its kind. -/
inductive FrameKind
  | response | event | session | records | capture | seam | arp | neighbour | pause
  deriving DecidableEq, Repr

/-- A frame waiting in a transmit queue: its kind, where it goes, the octets after the carrier headers; the EtherType of a
raw frame or the source port of a UDP datagram; in a RECORDS message the records it packs (03 R67); and whether STW_XPORT and
STW_UDP written by its command take effect once it has been sent (03 R70). -/
structure Frame where
  kind : FrameKind
  dst : Addr
  body : List Byte
  proto : Nat := 0
  recs : Nat := 0
  settles : Bool := false
  deriving DecidableEq, Repr

/-- One Ethernet port (18 R405 to R417). `queues` holds the five transmit queues of R414. `paused` gives, for a
priority, the instant at which a received pause runs out. `pausing` gives, for each priority for which the port
sends pause, when it last did. `type`, `an` and `fec` are the settings in effect (R408). Key 5 of `queues` holds the pause
frames. `capAt`: the next capture block leaves no earlier (R417). `freeAt`: the wire is busy until then, in hundredths of a nanosecond. `since` is the instant from which the conditions of R406 can have
held, and `out` the octets of the frame that last left its lane pins (R410 to R412). -/
structure EthPort where
  up : Bool
  reason : Nat
  queues : Tab (List Frame)
  paused : Tab Nat
  pausing : Tab Nat
  type : Nat
  an : Nat
  fec : Nat
  capAt : Nat
  freeAt : Nat
  since : Nat
  out : List Byte
  deriving DecidableEq, Repr

/-! ## Contexts (01 R11) -/

/-- A context (01, "The link engine pool"): a line candidate or reception, a line link with traffic outstanding, or an
air candidate or reception, by port, link slot or channel, and place (0 or 1). -/
inductive Ctx
  | lineRx (port slot place : Nat)
  | lineTx (port slot : Nat)
  | airRx (port chan place : Nat)
  deriving DecidableEq, Repr

/-- The engine states of FAU_ENGSTATEi. -/
inductive EngState
  | active | spare | selfTest | retired
  deriving DecidableEq, Repr

/-! ## Cipher and check units (14) -/

/-- An unwrapped key (14 R302). -/
structure KeyRec where
  handle : Nat
  size : Nat
  usage : Nat
  bind : Nat
  key : List Byte
  deriving DecidableEq, Repr

/-- The secure cells of the lining (14 R307 to R313): the root key with its ROOT_ID and STATION, and the erase
mark. -/
structure Cells where
  root : Option (List Byte)
  rootId : Nat
  station : Nat
  mark : Bool
  deriving DecidableEq, Repr

/-- How far a cipher job has come: waiting for its nonce reservation to be durable (02 R42), waiting in its queue,
or running on a core. -/
inductive JobStage
  | reserve | queued | running (core : Nat)
  deriving DecidableEq, Repr

/-- A record formed but for what its decryption decides (14 R322; 03 R66): its fields, with the FLAGS that do not depend on it, and
`head` the octets of its payload before the auxiliary header. -/
structure RecvRec where
  kind : Nat
  port : Nat
  chan : Nat
  flags : Nat
  short : Nat
  seq : Nat
  ext : Nat
  epoch : Nat
  ns : Nat
  margin : Nat
  hops : Nat
  head : List Byte
  deriving DecidableEq, Repr

/-- What a cipher job is for: memory that its submitter reads; a line downlink, by its command; an air downlink, by its number; a
received frame's record; a sensor's DISASSOC, by its entry. The last two have `skip` octets of authenticated data before the auxiliary
header. -/
inductive JobUse
  | memory
  | line (ref : Nat)
  | air (id : Nat)
  | record (skip : Nat) (r : RecvRec)
  | command (skip : Nat) (short : Nat)
  | unwrap (ref : Nat) (handle : Nat)
  | fill (slot : Nat)
  deriving DecidableEq, Repr

/-- A cipher job that waits for a place (14 R324): its descriptor, its source octets where they are a frame's (log entry 215), and its
use. -/
structure JobWait where
  desc : List Byte
  own : Option (List Byte)
  use : JobUse
  deriving DecidableEq, Repr

/-- A job of the check units that waits for a unit (14 R332). -/
structure CheckWait where
  poly : Nat
  fold : List Byte
  data : List Byte
  want : Option Nat
  deriving DecidableEq, Repr

/-- An outstanding cipher job (14 R324, R325): its descriptor, the host ring index if it is a host job, a frame's source octets and
what it is for, when it was accepted, the key it was accepted under, the status already decided if any, and its nonce. -/
structure Job where
  id : Nat
  desc : List Byte
  ring : Option Nat
  own : Option (List Byte)
  use : JobUse
  time : Nat
  key : Option KeyRec
  bad : Nat
  nonce : List Byte
  iv : List Byte
  stage : JobStage
  deriving DecidableEq, Repr

/-- The cipher block. `otp` is the transport key (14 R307), `root` the root key register. `erasing` holds from step 1 of an erasure until the root key is provisioned again. `clearDue`:
step 4 of R310 is still to come. `present` lists the alarm conditions present now, by SOURCE, and `supplies` the supplies whose alarm has been raised and that have not been inside their windows since, of source 2 (14 R314 numbers
them). -/
structure Cip where
  otp : List Byte
  root : Option (List Byte)
  cache : Tab KeyRec
  dram : Tab (List Byte)
  ctr : Tab Nat
  gone : List Nat
  erasing : Bool
  clearDue : Bool
  lastSource : Nat
  present : List Nat
  supplies : List Nat
  jobs : List Job
  waits : List JobWait
  nextJob : Nat
  ringTaken : Nat
  ringDone : Tab (List Byte)
  lastDone : List Byte
  coresOut : List Nat
  unitsOut : List Nat
  lastCrc : Nat
  checks : List CheckWait
  deriving DecidableEq, Repr

/-! ## Mains tracker and pleat timer (05) -/

/-- One phase of the mains tracker (05 R100 to R107): STATE, the latest crossing C, the period estimate P, the accepted
periods in its mean, how many in a row differed from P, whether the last crossing was accepted, the deviation of the
last rejected one, crossings rejected or missing in a row, periods out of range in a row, cycles below half the lock
level and at or above it in a row, the crossings measured in a row, at most 9 (R102), the reference of DERIVED (255: none), ANGLE, by
how much it was above that of each other phase when the two were last measured while both were LOCKED (R107), and AMPL. -/
structure Phase where
  state : Nat
  crossing : Nat
  period : Nat
  periods : List Nat
  odd : Nat
  accepted : Bool
  dev : Option Int
  rejected : Nat
  outside : Nat
  low : Nat
  high : Nat
  run : List Nat
  ref : Nat
  angle : Nat
  apart : Tab Int
  ampl : Nat
  deriving DecidableEq, Repr

/-- The pleat timer of a line port (0 to 23) or of a phase at OFFSET 0 (24 to 26) (05 R104, R105, R112). `anchor` is A,
`next` A_next; `period` and `off` are those fixed at A; `pleat` is how many pleats of the cycle have started;
`start` is the START of the pleat in progress; `fresh` holds until the first anchor since the tracker started, `noA` while the
next anchor is fixed as a first one, also after a change of SRC (R110). `grid` lists the
pleats started, newest first, as START and pleat number, as far back as a frame in progress needs; `prev` is A and P of the cycle
before. -/
structure PleatTimer where
  anchor : Nat
  next : Nat
  period : Nat
  off : Nat
  cycle : Nat
  pleat : Nat
  start : Nat
  irregular : Bool
  fresh : Bool
  noA : Bool
  grid : List (Nat × Nat)
  prev : Option (Nat × Nat)
  deriving DecidableEq, Repr

/-- The MNS block. `fired` gives for each trigger line the START at which it fired last (R113). -/
structure Mns where
  phases : Tab Phase
  timers : Tab PleatTimer
  fired : Tab Nat
  deriving DecidableEq, Repr

/-! ## The cluster (11) -/

/-- A station as its HELLO shows it (11 R239, R252): role, priority, MAC addresses, when it was last heard, and for
each own Ethernet port the source address of its last HELLO there (18 R411). -/
structure Station where
  role : Nat
  prio : Nat
  mac0 : Nat
  mac1 : Nat
  heard : Nat
  addrs : Tab Addr
  deriving DecidableEq, Repr

/-- A registry entry (11 R250); the EXT is its key in the registry. -/
structure RegEntry where
  home : Nat
  kind : Nat
  flags : Nat
  short : Nat
  port : Nat
  key : Nat
  cepoch : Nat
  cns : Nat
  deriving DecidableEq, Repr

/-- A home claim or release the device holds (11 R251): the node, the entry it carries, the local instant of the
association or join, whether its cluster time has been set, when it was last sent, and whether it is acknowledged. -/
structure Claim where
  ext : Nat
  entry : RegEntry
  born : Nat
  timed : Bool
  sent : Option Nat
  acked : Bool
  deriving DecidableEq, Repr

/-- A registry change not yet acknowledged by the deputy (11 R249): its number, the entry by EXT, and when it was last
sent. -/
structure MirrorItem where
  num : Nat
  ext : Nat
  entry : RegEntry
  sent : Nat
  deriving DecidableEq, Repr

/-- What waits for a change to be mirrored (11 R251, R252): a CLAIM_ACK, or the final response of a REG_PUT. -/
inductive MirrorFor
  | claim (station ext : Nat)
  | put (ref : Nat)
  deriving DecidableEq, Repr

/-- A waiting acknowledgement, by its change number. -/
structure MirrorWait where
  num : Nat
  what : MirrorFor
  deriving DecidableEq, Repr

/-- The SEA block. `prio` is SEA_CFG.PRIORITY in effect. `waits`: a retained EN of 1 waits for an Ethernet link since power-up (R242). `follow` is the station followed, `also` the deputy accepted besides after three misses (R245) and
`limit` the instant that ends; `deputy` the deputy named, or the manager's own; `bulk` the copy of the registry that the manager
sends an appointee, up to a change (R248); `copied` the part of that copy an appointee has received, `since` the changes it has applied beside the copy, newest first. `arrival`, `lastCns`, `period` and
`count` come from the last valid BEACON, `lastCns` from the last one of the station followed. Cluster time is `cbase` at the local instant `cat`, under `cepoch`; `known`
once it has ever been valid, `valid` while it is (R255). `path` is the path delay to the station followed. `list` is
the manager's own member list, `peers` every station heard. -/
structure Sea where
  role : Nat
  prio : Nat
  waits : Bool
  entered : Nat
  follow : Option Nat
  also : Option Nat
  limit : Nat
  deputy : Option Nat
  arrival : Option Nat
  lastCns : Option Nat
  period : Nat
  misses : Nat
  count : Nat
  cepoch : Nat
  cbase : Nat
  cat : Nat
  known : Bool
  valid : Bool
  path : Option Nat
  delayNext : Nat
  list : Tab Station
  peers : Tab Station
  recent : List (Nat × Nat)
  seq : Nat
  hello : Nat
  beacon : Nat
  takeover : Nat
  elected : Nat
  yield : Option (Nat × Nat)
  synced : Bool
  registry : Tab RegEntry
  keepReg : Bool
  bulk : Option (Nat × Tab RegEntry)
  copied : Tab RegEntry
  since : List (Nat × Nat × RegEntry)
  change : Nat
  mirrors : List MirrorItem
  mwaits : List MirrorWait
  mirrorHeard : Nat
  applied : Option Nat
  claims : List Claim
  joinNext : Nat
  refused : Bool
  electNext : Nat
  heard : Tab Nat
  deriving DecidableEq, Repr

/-! ## Captures (04 R87, R88; 18 R417) -/

/-- A capture stream: 1 line or 2 air and the port, the session, the host's identifier, the instant of its first
sample and its duration in nanoseconds (0: until STOP), the blocks sent, and whether samples have been lost since
the last block sent. -/
structure Capture where
  source : Nat
  port : Nat
  slot : Nat
  gen : Nat
  stream : Nat
  start : Nat
  dur : Nat
  sent : Nat
  gap : Bool
  deriving DecidableEq, Repr

/-! ## Line ports, links and line nodes (06, 07, 08) -/

/-- A line-node entry (08 R177), keyed by its SHORT. `since` is the instant its silence or its lapse is counted from
(R175, R176; 02 R40). Not retained: `mapver`, `spent` (it used up the tries of its last MAP_OFFER, 07 R159), `energies` (the last 8 energies behind S_n, as powers in 2^-64 of full
scale) and `report` (its last NOISE_REPORT: arrival, G0, R and the values). -/
structure Node where
  port : Nat
  slot : Nat
  state : Nat
  flags : Nat
  hops : Nat
  ext : Nat
  route : List Nat
  lastEpoch : Nat
  lastNs : Nat
  sn : Option Int
  margin : Nat
  rxOk : Nat
  tx : Nat
  txFail : Nat
  mapver : Nat
  since : Nat
  spent : Bool
  energies : List Nat
  report : Option (Nat × Nat × Nat × List Nat)
  deriving DecidableEq, Repr

/-- A line header (06 R132). -/
structure LineHead where
  len : Nat
  typ : Nat
  ackReq : Bool
  crc32 : Bool
  sec : Bool
  mode : Nat
  dst : Nat
  src : Nat
  seq : Nat
  deriving DecidableEq, Repr

/-- A candidate (06 R138 to R140): its context place, its metric as the ratio of the two energies, the timestamp of its preamble
start, its mode once its delimiter is decided, and whether samples were lost while it ran (01 R19). -/
structure LineCand where
  place : Nat
  metric : Nat × Nat
  start : Nat
  mode : Option Nat
  broken : Bool
  deriving DecidableEq, Repr

/-- A pleat map (07 R147, R148): VERSION, the 16 entries and the basis of each in 0.25 dB. -/
structure PMap where
  version : Nat
  entries : List Nat
  basis : List Int
  deriving DecidableEq, Repr

/-- A reception: its candidate, its header, the map of a MAP frame and the shift of the grid, in ns, of the layout it was decoded
under (07 R150, R159). -/
structure LineRx where
  cand : LineCand
  head : LineHead
  map : Option PMap
  delta : Int
  deriving DecidableEq, Repr

/-- An acknowledgement armed or being sent (08 R167): the reception it answers, that reception's preamble start, map and layout,
whether its preamble has started, and the payload check's outcome once the front end has been given it. -/
structure LineAck where
  head : LineHead
  start : Nat
  map : Option PMap
  delta : Int
  begun : Bool
  ok : Option Bool
  deriving DecidableEq, Repr

/-- What a queued frame is for: a host downlink (by its command), a MAP_OFFER, a JOIN_ACCEPT or a JOIN_REJECT (by
node), or a DISCOVER. -/
inductive LineJob
  | downlink (ref : Nat)
  | offer (node : Nat)
  | accept (node : Nat)
  | reject
  | discover
  deriving DecidableEq, Repr

/-- A frame queued on a link slot (08 R163, R164, R169). `node` is the entry it is for (0: none). `mode` is the mode of
its next try; `tries` the transmissions made; `airtime` their sum in ns; `first` the start of the last; `delayed` the
end of the retry delay it waits out; `expires` the instant after which no try starts; `done` once it ended early; `limited`: TXLIM was 1 during its last
try (R169). -/
structure LineFrame where
  job : LineJob
  prio : Nat
  typ : Nat
  node : Nat
  dst : Nat
  ackReq : Bool
  crc32 : Bool
  sec : Bool
  seq : Nat
  payload : List Byte
  nonce : List Byte
  mode : Nat
  tries : Nat
  airtime : Nat
  first : Nat
  delayed : Option Nat
  expires : Option Nat
  done : Bool
  limited : Bool
  deriving DecidableEq, Repr

/-- One slot of a transmission (06 R119, R126): its start and length, its tone (none while the link sends nothing), and the
phase at which it starts, in 1/1,280,000 of a turn from that of the preamble. -/
structure ToneSlot where
  start : Nat
  len : Nat
  tone : Option Nat
  phase : Nat
  deriving DecidableEq, Repr

/-- The down-ramp of a transmission that was cut (06 R119): its 64 samples on the tone of that instant, and the amplitude from which
it falls, in 64ths of a code. -/
structure LineTail where
  slot : ToneSlot
  level : Nat
  deriving DecidableEq, Repr

/-- A transmission in progress on a link slot: its start and mode, the map a MAP frame goes by, the octets from
header to payload check as sent, whitened (06 R136), its peak amplitude, its slots, and whether TXLIM was 1 during it. -/
structure LineTx where
  start : Nat
  mode : Nat
  map : Option PMap
  octets : List Byte
  amp : Nat
  slots : List ToneSlot
  limited : Bool
  deriving DecidableEq, Repr

/-- An offer in progress (07 R159): the offered map, and the nodes not yet on it. -/
structure Offer where
  map : PMap
  left : List Nat
  deriving DecidableEq, Repr

/-- One link slot. `draw` is the contention slot drawn for the head of the queue; `ready` when that frame became ready
and `idle` when the slot last fell idle (08 R163); `hot` while the sense detector holds it busy; `reserved` the end of
the reservation of R162; `sent` the start of the last transmission, `quiet` the end of its down-ramp, and `tail` that ramp where
the transmission was cut (06 R119, R120); `await` the end F of the try whose
acknowledgement is due. `stepAt` is the ordinal at which a step's rebuild is due (07 R155), `rebuild` the instant of a
rebuild in progress, `want` a map that waits for the offer in progress, `choices` the builder's last choice for each
pleat with the last rebuild that did not make it (R154 case 5). `disc` is when DISCOVER was queued last, `openAt` when
the slot was enabled. -/
structure LineSlot where
  cands : List LineCand
  rx : Option LineRx
  ack : Option LineAck
  tx : Option LineTx
  queue : List LineFrame
  draw : Option Nat
  ready : Nat
  idle : Nat
  hot : Bool
  reserved : Nat
  sent : Nat
  quiet : Nat
  tail : Option LineTail
  await : Option Nat
  map : Option PMap
  version : Nat
  offer : Option Offer
  want : Option PMap
  rebuild : Option Nat
  lastRebuild : Nat
  stepAt : Option Nat
  choices : Tab (Nat × Nat)
  disc : Option Nat
  openAt : Nat
  lastSeq : Tab Nat
  deriving DecidableEq, Repr

/-- One cell of the noise census (07 R145): its cycle values from included cycles by ordinal, newest last, each as the power it
sums and the number it is the mean of; and its average in 0.25 dB. -/
structure Cell where
  vals : List (Nat × Nat × Nat)
  avg : Option Int
  deriving DecidableEq, Repr

/-- The live values of the census after one output (07 R145): the output's centre, its pleat and that pleat's START, and for each
group the power summed since START and the number it is the mean of. -/
structure Live where
  centre : Nat
  pleat : Nat
  start : Nat
  groups : Tab (Nat × Nat)
  deriving DecidableEq, Repr

/-- One line port. `enabledAt`: when EN was set; `conv`, `frozen` and `spur` are slice correction (06 R118), `spurAt` when `spur` was
the current estimate;
`met`: the phase condition has been met since EN was set; `service` and `serviceAt` (R115). TXLIM (08 R171): `scale`,
when it last stepped, from which factor, in millionths, and since which instant the output ramps to that of `scale`, the
transmitting time since the limit was last seen, and since when the port transmits. The channelizer: its outputs of the last 4 ms,
newest first (R121). The census: the ordinal of the last included cycle, the cells by 80 p + g, what the cycle in progress has
contributed to each, and what outputs of the next one have; the live values, newest first, as far back as a frame in progress needs;
and the averages as they stood until each instant at which they were formed anew, newest first, as far back. `discAt`: when PERIOD_S
of PLX_DISC changed last (08 R174). `overrun`: samples discarded (01 R19). -/
structure LinePort where
  enabledAt : Nat
  conv : Bool
  frozen : Bool
  spur : Nat
  spurAt : Nat
  met : Bool
  service : Bool
  serviceAt : Nat
  scale : Nat
  stepped : Option Nat
  gainWas : Nat
  gainFrom : Nat
  clean : Nat
  sending : Option Nat
  hist : List ChanOut
  ordinal : Nat
  cells : Tab Cell
  cycle : Tab (Nat × Nat)
  ahead : Tab (Nat × Nat)
  lives : List Live
  olds : List (Nat × Tab Int)
  discAt : Nat
  slots : Tab LineSlot
  overrun : Nat
  deriving DecidableEq, Repr

/-- A line downlink whose payload is being secured (14 R318): its command, its link, and its frame with what precedes the secured part
of its payload. -/
structure Sealing where
  ref : Nat
  port : Nat
  slot : Nat
  frame : LineFrame
  deriving DecidableEq, Repr

/-- The PLX block and the line-node table, with the downlinks being secured. -/
structure Plx where
  ports : Tab LinePort
  nodes : Tab Node
  seqs : Tab Nat
  sealing : List Sealing
  deriving DecidableEq, Repr

/-! ## Air ports and air access (09, 10) -/

/-- An association entry (10 R218), keyed by its SHORT. `unc` is E_PPB; `since` the instant its lapse is counted from
(R217; 02 R40). -/
structure Sensor where
  state : Nat
  sleepy : Bool
  digest : Bool
  valid : Bool
  stale : Bool
  port : Nat
  chan : Nat
  wakeMs : Nat
  ext : Nat
  phaseEpoch : Nat
  phaseNs : Nat
  drift : Int
  unc : Nat
  ofs : Nat
  clk : Nat
  lastEpoch : Nat
  lastNs : Nat
  margin : Nat
  nph : Nat
  rxOk : Nat
  txFail : Nat
  since : Nat
  deriving DecidableEq, Repr

/-- An air candidate (09 R199 to R201): its context place, its metric as the ratio of the two energies, its timestamp, and whether
samples were lost while it ran (01 R19). -/
structure AirCand where
  place : Nat
  metric : Nat × Nat
  ts : Nat
  broken : Bool
  deriving DecidableEq, Repr

/-- An air reception: its candidate and its PHR. -/
structure AirRx where
  cand : AirCand
  phr : Nat
  deriving DecidableEq, Repr

/-- An acknowledgement due on a channel (10 R211 to R214): the end E of the frame it answers, its 4 octets, the frame's
FCS size and whitening, the extended address of a sensor whose pending window it opens, whether its
duty check let it go, and the SHORT of the sender if it is known. -/
structure AirAck where
  fin : Nat
  mac : List Byte
  fcs4 : Bool
  dw : Bool
  opens : Option Nat
  go : Bool
  short : Option Nat
  deriving DecidableEq, Repr

/-- An air channel: its correlator is ignored until `quiet` (09 R204); `held` is when it held a candidate or a reception last, and
`loudAt` the end of the latest 100 us whose mean power exceeded the threshold of listen-before-talk (10 R232); `hist` its outputs of
the last 4 ms, newest first (09 R191). -/
structure AirChan where
  cands : List AirCand
  rx : Option AirRx
  ack : Option AirAck
  quiet : Nat
  held : Nat
  loudAt : Nat
  hist : List AirOut
  deriving DecidableEq, Repr

/-- What an air transmission is: an acknowledgement that may open the pending window of an extended address, or the try
of a downlink or beacon by its number. -/
inductive AirWhat
  | ack (opens : Option Nat)
  | frame (id : Nat)
  deriving DecidableEq, Repr

/-- An air transmission in progress (09 R189, R193, R194, R203): its channel, its first and last instant at the antenna, its preamble
octets and PSDU as sent; the instant at which its first symbol leaves on the lane, its centre in kHz, its peak amplitude, its shaping
(AIR_CHm_CFG.BT), its symbols a second, and the frequency offset of each symbol in Hz. -/
structure AirSend where
  chan : Nat
  what : AirWhat
  start : Nat
  fin : Nat
  pre : Nat
  psdu : List Byte
  lane : Nat
  khz : Nat
  amp : Nat
  bt : Nat
  rate : Nat
  offsets : List Int
  deriving DecidableEq, Repr

/-- The down-ramp of a transmission cut by clearing EN (09 R203): its channel, its start, and the amplitude it falls from. -/
structure AirTail where
  chan : Nat
  start : Nat
  amp : Nat
  deriving DecidableEq, Repr

/-- A JESD204B bring-up attempt (09 R186): its start, code-group sync, the head's ILAS checked, TXSYNC_N released, and when the
device's own ILAS starts. -/
structure Bring where
  start : Nat
  cgs : Bool
  ilas : Bool
  sent : Bool
  own : Nat
  deriving DecidableEq, Repr

/-- One air port. `next`: the next bring-up attempt starts no earlier. `hadLink`: its link has been up since power-up. `dclk`: the
rate in kHz at which APn_DCLK runs (09 R185); `rxsync`: since when APn_RXSYNC_N has been released, none while it is held low;
`sysref`: the SYSREF pulses of the latest burst (R186). `tails`: the down-ramps of what was cut. `quiet`: in half duplex its
correlators are ignored until then. `bcnAt`: when its next beacon is due. `served`: it has been in service since power-up.
`overrun`: samples discarded (01 R19). -/
structure AirPort where
  attempt : Option Bring
  next : Nat
  up : Bool
  hadLink : Bool
  dclk : Option Nat
  rxsync : Option Nat
  sysref : List Nat
  tails : List AirTail
  did : Nat
  bid : Nat
  reason : Nat
  chans : Tab AirChan
  sends : List AirSend
  quiet : Nat
  bcnAt : Option Nat
  bcnSeq : Nat
  served : Bool
  overrun : Nat
  deriving DecidableEq, Repr

/-- What an air transmission of the device is for: an AIR DOWNLINK by its command, an ASSOC_RESP, a DISASSOC, a DIGEST
with its entries as SHORT, SEQ, MARGIN, or a beacon. -/
inductive AirJob
  | host (ref : Nat)
  | assoc
  | disassoc
  | digest (entries : List (Nat × Nat × Nat))
  | beacon
  deriving DecidableEq, Repr

/-- How the next transmission of a downlink goes (10 R225, R227): `way` 0 normal preamble, 1 long preamble, 2 frame
train, 3 phase-targeted, 4 pending window; its start, preamble octets and copies still to follow; whether its duty
check has passed and whether it waits for a duty record; when it listens from, and whether it has heard the channel
idle; the end of a backoff. -/
structure AirPlan where
  way : Nat
  start : Nat
  pre : Nat
  left : Nat
  checked : Bool
  writing : Bool
  listen : Option Nat
  heard : Bool
  backoff : Option Nat
  deriving DecidableEq, Repr

/-- How far a downlink has come: it waits for a nonce reservation, or behind another of its sensor, it is planned, in
the air, or its acknowledgement window is open. -/
inductive AirStage
  | sealing
  | queued
  | planned (p : AirPlan)
  | sending (p : AirPlan)
  | await
  deriving DecidableEq, Repr

/-- An air transmission of the device's, with its tries (10 R217, R220, R227, R228). `copy` is the entry kept for a
DISASSOC. `mac` is the MAC frame with PENDING 0; `pend` whether it was last sent with PENDING 1; `lastEnd` the end E of
the last try or train copy; `airtime` in ns; `done` once it has been reported. -/
structure AirDown where
  id : Nat
  job : AirJob
  short : Nat
  ext : Nat
  port : Nat
  chan : Nat
  copy : Option Sensor
  method : Nat
  ackReq : Bool
  mac : List Byte
  seq : Nat
  tries : Nat
  airtime : Nat
  first : Nat
  lastEnd : Nat
  nonce : List Byte
  expires : Option Nat
  pend : Bool
  done : Bool
  stage : AirStage
  deriving DecidableEq, Repr

/-- An open pending window (10 R226), of the sensor with an extended address. -/
structure AirWindow where
  ext : Nat
  short : Nat
  port : Nat
  chan : Nat
  start : Nat
  fin : Nat
  used : Bool
  deriving DecidableEq, Repr

/-- A duty account (10 R230): its bins in microseconds, its position, and the airtime since its last durable record. -/
structure Duty where
  bins : Tab Nat
  pos : Nat
  unsaved : Nat
  deriving DecidableEq, Repr

/-- The AIR block. `host` lists the short addresses whose HOST bit is set (10 R213). `secs`: whole seconds the bins have
advanced. -/
structure Air where
  ports : Tab AirPort
  sensors : Tab Sensor
  host : List Nat
  duty : Tab Duty
  secs : Nat
  downs : List AirDown
  nextId : Nat
  seq : Nat
  windows : List AirWindow
  deriving DecidableEq, Repr

/-! ## Link engines, steward pairs, fault log (13) -/

/-- What a context holds (13 R285): a candidate or the reception in its place; or what of a link's traffic contends. -/
inductive CtxData
  | lineRx (cand : Option LineCand) (rx : Option LineRx)
  | lineTx (queue : List LineFrame) (draw : Option Nat) (ready : Nat) (hot : Bool) (await : Option Nat)
  | airRx (cand : Option AirCand) (rx : Option AirRx)
  deriving DecidableEq, Repr

/-- A checkpoint of an engine (13 R285): its instant, its contexts with their effect numbers (13 R287), and what each holds. -/
structure Ckpt where
  time : Nat
  fx : List (Ctx × Nat)
  data : List (Ctx × CtxData)
  deriving DecidableEq, Repr

/-- An input that a context takes (13 R286): a peak of its correlator; a delimiter, header, payload, PHR or FCS check that falls due,
with the soft values it decides on; what the sense detector or the time tells a link that contends; the end of a map's rebuild. -/
inductive Input
  | linePeak (port slot : Nat) (metric : Nat × Nat) (start : Nat)
  | lineDelim (port slot place : Nat) (soft : List Int)
  | lineHead (port slot place : Nat) (soft : List (List SlotSoft)) (rival : Option (List (List SlotSoft))) (energy : Nat) (snr : Int)
  | linePayload (port slot : Nat) (soft : List SlotSoft) (energy : Nat) (snr : Int)
  | lineContend (port slot : Nat)
  | lineDefer (port slot : Nat) (level : Option Int)
  | lineIdle (port slot : Nat)
  | lineAckLate (port slot : Nat)
  | lineRetry (port slot : Nat)
  | lineRebuilt (port slot : Nat)
  | airPeak (port chan : Nat) (metric : Nat × Nat) (ts : Nat)
  | airPhr (port chan place phr : Nat) (rival : Option Nat)
  | airFcs (port chan : Nat) (soft : List Int) (snr : Int)
  deriving DecidableEq, Repr

/-- An input its source holds for a replay (13 R286, R287): when and by which context it was taken; the number of the effect it had,
none while a spare catches up; and what the contexts of its link or channel held after it, the answers they were given among it. -/
structure HeldInput where
  time : Nat
  ctx : Ctx
  num : Option Nat
  input : Input
  after : List (Ctx × CtxData)
  deriving DecidableEq, Repr

/-- A patch in progress on a spare (13 R288): the engine that failed, how and when that was detected, the instant of the
fault, and that of the checkpoint it replays from. -/
structure Patch where
  failed : Nat
  detect : Nat
  detected : Nat
  fault : Nat
  ckpt : Nat
  deriving DecidableEq, Repr

/-- One link engine (13 R285 to R291): its state, whether it drains toward spare, its contexts with the effect number of each, the
inputs of the last 4 ms, its valid checkpoint, the older one while its area holds it, and one being written, the patch it is catching
up from, when its self-test began, and what DIAG ENGINE reports. -/
structure Engine where
  st : EngState
  drain : Bool
  ctxs : List Ctx
  fx : List (Ctx × Nat)
  inputs : List HeldInput
  ckpt : Ckpt
  ckptOld : Option Ckpt
  ckptNew : Option Ckpt
  patch : Option Patch
  testAt : Nat
  faults : Nat
  replacedBy : Nat
  lastIndex : Nat
  deriving DecidableEq, Repr

/-- The states of a steward pair (13 R293). -/
inductive PairState
  | active | standby | selfTest | retired | stopped
  deriving DecidableEq, Repr

/-- A fault log entry waiting in the hardware queue (13 R298): its first 28 octets, and the engine it concerns. -/
structure LogWait where
  body : List Byte
  engine : Option Nat
  deriving DecidableEq, Repr

/-- The corrections of one memory instance (13 R296): when the event was last raised, corrections since, and the
merged fault log entries by codeword address: when each was last written and its count since. -/
structure CorrState where
  lastEvent : Option Nat
  since : Nat
  merged : Tab (Nat × Nat)
  deriving DecidableEq, Repr

/-- The FAU block. `testing`: the power-up self-test of the engines has not ended (13 R290). `pairTest`: when a pair's self-test
began. `accepted`: the number of the last effect the consumers accepted from each context (13 R287). `unmaskedPort` and `unmaskedPair` hold an UNMASKED_FAULT that waits for a link, or for a pair: INSTANCE, DETECT and INDEX. -/
structure Fau where
  engines : Tab Engine
  testing : Bool
  pairs : Tab PairState
  pairTest : Tab Nat
  actPair : Nat
  queue : List LogWait
  corr : Tab CorrState
  accepted : List (Ctx × Nat)
  unmaskedPort : Option (Nat × Nat × Nat)
  unmaskedPair : Option (Nat × Nat × Nat)
  deriving DecidableEq, Repr

/-! ## Soft combining (12) -/

/-- A copy in a combining group (12 R267): its station and RXID, its PORT, its SNR in 0.5 dB, its CNS, and the octets
of each plane received so far. -/
structure Copy where
  station : Nat
  rxid : Nat
  port : Nat
  snr : Int
  cns : Nat
  planes : Tab (Tab Byte)
  deriving DecidableEq, Repr

/-- A combining group (12 R267 to R270): what its copies agree in, CNS_ref, its copies, oldest first; `won` once an
attempt has succeeded; `shut` the copies, by station and RXID, whose first fragment came after that; which copies, by station and RXID, took part in the last attempt and the level it was made at;
when it closed. -/
structure Group where
  num : Nat
  cepoch : Nat
  ref : Nat
  freq : Nat
  phy : Nat
  phr : Nat
  copies : List Copy
  won : Bool
  shut : List (Nat × Nat)
  tried : List (Nat × Nat)
  level : Int
  closed : Option Nat
  deriving DecidableEq, Repr

/-- An SC_RESULT that waits for its SC_RESULT_ACK (12 R272). -/
structure ScSend where
  home : Nat
  body : List Byte
  sent : Nat
  resends : Nat
  deriving DecidableEq, Repr

/-- A digest entry (12 R276), with the hold time in force when it was made, in ns. -/
structure DigestEntry where
  short : Nat
  seq : Nat
  margin : Nat
  born : Nat
  hold : Nat
  deriving DecidableEq, Repr

/-- Soft combining: the groups and results as manager, with the copies discarded or replaced by station, RXID and instant;
the reception number, and the digest entries as home. -/
structure Sc where
  groups : List Group
  gone : List (Nat × Nat × Nat)
  nextGroup : Nat
  rxid : Nat
  results : List ScSend
  digests : List DigestEntry
  deriving DecidableEq, Repr

/-! ## Spools (15) -/

/-- What a descriptor goes by (15 R351, R352): BURST, HIGH and LOW in octets, and PRIO. -/
structure Pace where
  burst : Nat
  high : Nat
  low : Nat
  prio : Nat
  deriving DecidableEq, Repr

/-- A descriptor in progress (15 R338): its index, its control word and its other 24 octets as read, the status decided so
far, whether it could not be read (R347); the octets read from SRC, how many of them have been drained; its pace
from its first read burst on (R357); and, once it waits for visibility (R344), the status and CHECK it takes. -/
structure SpoolDesc where
  idx : Nat
  ctrl : List Byte
  body : List Byte
  status : Nat
  broken : Bool
  data : List Byte
  drained : Nat
  pace : Option Pace
  held : Option (Nat × List Byte)
  deriving DecidableEq, Repr

/-- A spool: STATE, ERR, LAST_STATUS, STOP_IDX and NEXT_DONE of its registers, the RING flag (15 R339), the current index,
the descriptors in progress, oldest first, whether the read side is open (R351), the data writes issued and not yet
visible, since when its read and its write burst are ready (R352), and its interrupt with the last descriptor that
signalled and how many did (R345, R346); a local spool's last pulse to its unit, with the descriptor's index and STATUS. -/
structure Spool where
  state : Nat
  err : Bool
  last : Nat
  stopIdx : Nat
  idx : Nat
  ring : Bool
  cur : Nat
  busy : List SpoolDesc
  opened : Bool
  posts : List (Nat × List Byte)
  readAt : Nat
  writeAt : Nat
  irq : Bool
  sigIdx : Nat
  sigStatus : Nat
  signals : Nat
  pulse : Option (Nat × Nat)
  deriving DecidableEq, Repr

/-- The SPL block: the spools, the one a mover served last, and the last pulse that each unit has received from a local spool (15
R345), by UNIT * 256 + INSTANCE: the spool, the descriptor's index and its STATUS. -/
structure Spl where
  spools : Tab Spool
  served : Nat
  pulses : Tab (Nat × Nat × Nat)
  deriving DecidableEq, Repr

/-! ## Site measurement (16, 17) -/

/-- An excitation output (16 R373 to R375): BROKEN, the instant of the latest break, and the intervals during which
raw samples of its entries carry OPEN, newest first; the newest has no end while BROKEN is set. -/
structure Exc where
  broken : Bool
  lastBreak : Nat
  opens : List (Nat × Option Nat)
  deriving DecidableEq, Repr

/-- A raw sample (16 R370, 17 R389): x in 2^-40 of the reference, OPEN, OVER, RANGE_CHG, the centre and the end of its
chop period. -/
structure Raw where
  value : Int
  opened : Bool
  beyond : Bool
  chg : Bool
  centre : Nat
  fin : Nat
  deriving DecidableEq, Repr

/-- A visit sample (17 R389): its instant, the end of its dwell, v in 2^-40, OPEN, OVER, and the instants of the raw
samples that carried RANGE_CHG. -/
structure Visit where
  inst : Nat
  fin : Nat
  value : Int
  opened : Bool
  beyond : Bool
  chg : List Nat
  deriving DecidableEq, Repr

/-- The sequencer and the amplifier (16 R359 to R375). `refAt`: when SEN_REF.EN was set; `ready`: SEN_REF.READY. `state`,
`seqs`, `entry` and `cal` are CNV_STATUS; `enAt` when CNV_CTL.EN was set; `due` the end of the trigger delay; `visit` the start of the visit in
progress, `raws` its raw samples so far, `gain` its gain code, `peak` the greatest converter sample of the visit, times
128 / G. `gains` gives for each entry the gain and peak with which its latest visit ended, `falls` the instant of its
latest fall in gain, `used` for each trigger source the latest firing that has been taken. -/
structure Cnv where
  refAt : Nat
  ready : Bool
  state : Nat
  seqs : Nat
  entry : Nat
  cal : Bool
  enAt : Nat
  due : Nat
  visit : Nat
  raws : List Raw
  gain : Nat
  peak : Nat
  gains : Tab (Nat × Nat)
  falls : Tab Nat
  used : Tab Nat
  excs : Tab Exc
  deriving DecidableEq, Repr

/-- A filter channel (17). `seen`: it has had a visit sample. `first` is the instant of the first visit sample since its
restart, `visits` those it still needs, oldest first, `count` how many since the restart, `steady` their value while all
are equal, `interval` the latest input interval and `longest` the longest since the restart. `lastG` is the grid
instant of its last output, `cycles` the anchors and periods of a mains-locked grid, oldest first. `dcb` is DCB in
effect since the last output, `settling` the flag of the last output, and `epoch`, `ns` its instant. `mean` is the running mean of the DC blocker at
the last output, or the one held while DCB is 2, in 2^-40 (R396); `good` the last VALUE without OPEN, OVER or CLAMP since the
entry started (16 R379). -/
structure Chan where
  seen : Bool
  first : Option Nat
  visits : List Visit
  steady : Option Int
  interval : Option Nat
  longest : Nat
  lastG : Option Nat
  cycles : List (Nat × Nat)
  dcb : Nat
  settling : Bool
  epoch : Nat
  ns : Nat
  mean : Int
  good : Option Int
  deriving DecidableEq, Repr

/-- A loop output (16 R383 to R388). `ua` is the current it drives, in microamperes; `fault` STATE 2 and `cause` its
CAUSE; `opened`, `range`, `stale` and `reg` are causes 1, 2, 3 and 5; `value` the VALUE of the source's last output, none
before the first with VALID; `lastOut` the instant STALE_MS is counted from; `fired` its latest PWM event. -/
structure Loop where
  ua : Nat
  fault : Bool
  cause : Nat
  opened : Bool
  range : Bool
  stale : Bool
  reg : Bool
  value : Option Int
  lastOut : Nat
  fired : Option Nat
  deriving DecidableEq, Repr

/-! ## The lining (02 R28 to R42) -/

/-- A lining record (02 R29, R30): what it makes durable. -/
inductive LinRec
  | cfg (vals : List (Nat × Word))
  | arm (on : Bool)
  | nonce (slot val : Nat)
  | key (slot : Nat) (wrapped : Option (List Byte)) (fresh : Bool)
  | cells (c : Cells)
  | node (short : Nat) (n : Option Node)
  | sensor (short : Nat) (x : Option Sensor)
  | duty (acct : Nat) (bins : Tab Nat) (pos taken : Nat) (waiter : Option Nat)
  deriving DecidableEq, Repr

/-- A lining write in progress: the record, and the command in flight that waits for it. -/
structure LinWrite where
  what : LinRec
  ref : Option Nat
  deriving DecidableEq, Repr

/-- The lining: what is durable, and the writes in progress, oldest first. `image` holds the durable value of each
register whose retained fields differ from their first-start values. `noRes` lists the key slots whose key has sent
no frame since its KEY LOAD (02 R40). -/
structure Lining where
  blank : Bool
  epoch : Nat
  floor : Nat
  armed : Bool
  macs : Tab Nat
  image : List (Nat × Word)
  writes : List LinWrite
  wear : Nat
  wearNext : Nat
  banks : Tab Bank
  activeBank : Nat
  bankWrite : Option BankWrite
  keys : Tab (List Byte)
  nonces : Tab Nat
  noRes : List Nat
  cells : Cells
  nodes : Tab Node
  sensors : Tab Sensor
  duty : Tab (Tab Nat × Nat)
  log : Tab LogEntry
  logNext : Nat
  deriving DecidableEq, Repr

/-! ## The whole machine -/

/-- Why a step stops with a fault: the spec gives the block no fault that stops it, so nothing raises one. -/
inductive Fault
  deriving DecidableEq, Repr

/-- Why a step is refused. -/
inductive Refusal
  /-- Raised by `exec` alone, for a command that has no meaning yet. Safe: nothing is claimed of it. -/
  | notModelled (mnemonic : String)
  deriving DecidableEq, Repr

/-- The state of the LC9640. `pending`: the commands that wait, first in first out. `free`: the model's own counter
that free values are applied to. `now`: TMB_ELAPSED in nanoseconds (02 R25). -/
structure State where
  pending : List Instr
  free : Nat
  now : Nat
  regs : Regs
  pow : Power
  lin : Lining
  stw : Stw
  mem : Mem
  eth : Tab EthPort
  fau : Fau
  cip : Cip
  caps : List Capture
  mns : Mns
  sea : Sea
  plx : Plx
  air : Air
  sc : Sc
  spl : Spl
  cnv : Cnv
  chans : Tab Chan
  loops : Tab Loop
  deriving DecidableEq, Repr

/-! ## Right after reset

The machine at step 8 of the first start of a blank device (02 R24, R36), with the engines' self-test passed (13 R290):
epoch 1, every register at its first-start value, no session open, both Ethernet ports down. The values no rule
states are those of log entries 6, 110 and 111. -/

/-- The registers: every one at its first-start value (00 R8), every shadow equal to its active value. -/
def Regs.reset : Regs := { vals := [], shad := [], coms := [], hitAt := 0, hits := [], last := 0 }

/-- The lining after a first start: epoch 1, nothing stored (02 R36). -/
def Lining.reset : Lining :=
  { blank := false, epoch := 1, floor := 0, armed := false, macs := [], image := [], writes := [], wear := 0, wearNext := 800,
    banks := [(0, { image := [], crc := 0, valid := true })], activeBank := 0, bankWrite := none, keys := [], nonces := [],
    noRes := [], cells := { root := none, rootId := 0, station := 0xFFFF, mark := false }, nodes := [], sensors := [], duty := [],
    log := [], logNext := 0 }

/-- The mailbox engine: no session, every credit free. -/
def Stw.reset : Stw :=
  { sess := [], closing := [], genCtr := 0, flights := [], nextRef := 0, waits := [], svc := [], area := [], nextArea := 0,
    areaDrops := 0, carrier := none }

/-- Memory with nothing listed, and the ranges of its descriptor. -/
def Mem.reset : Mem :=
  { cells := [], poison := [], rot := [], posted := [],
    ranges := [{ base := 0x1005300000, size := 0xD00000, kind := 1 }, { base := 0x16FD00000, size := 0x300000, kind := 2 },
      { base := 0x170000000, size := 0x210000000, kind := 3 }, { base := 0x380000000, size := 0x80000000, kind := 4 }],
    spoilt := [] }

/-- An Ethernet port: down, with the settings of its registers taken (18 R405, R407). -/
def EthPort.reset : EthPort :=
  { up := false, reason := 0, queues := [], paused := [], pausing := [], type := 0, an := 1, fec := 1, capAt := 0, freeAt := 0, since := 0, out := [] }

/-- A link engine: LE0 to LE59 active, LE60 to LE63 spare (13 R291). -/
def Engine.reset (n : Nat) : Engine :=
  { st := if n < 60 then .active else .spare, drain := false, ctxs := [], fx := [], inputs := [],
    ckpt := { time := 100000000, fx := [], data := [] }, ckptOld := none, ckptNew := none, patch := none, testAt := 0, faults := 0, replacedBy := 255, lastIndex := 0xFFFFFFFF }

/-- The engines, and the pairs: pair 0 active, pair 1 standby. -/
def Fau.reset : Fau :=
  { engines := (List.range 64).map fun n => (n, Engine.reset n), testing := false, pairs := [(0, .active), (1, .standby)],
    pairTest := [], actPair := 0, queue := [], corr := [], accepted := [], unmaskedPort := none, unmaskedPair := none }

/-- The cipher block: unprovisioned (14 R313). -/
def Cip.reset : Cip :=
  { otp := List.replicate 32 0, root := none, cache := [], dram := [], ctr := [], gone := [], erasing := false, clearDue := false,
    lastSource := 0, present := [], supplies := [], jobs := [], waits := [], nextJob := 0, ringTaken := 0, ringDone := [], lastDone := [],
    coresOut := [], unitsOut := [], lastCrc := 0, checks := [] }

/-- A phase in NONE (05 R101), the tracker having started at step 6. -/
def Phase.reset : Phase :=
  { state := 0, crossing := 70000000, period := 20000000, periods := [], odd := 0, accepted := false, dev := none, rejected := 0,
    outside := 0, low := 0, high := 0, run := [], ref := 255, angle := 0, apart := [], ampl := 0 }

/-- A pleat timer that has not reached its first anchor. -/
def PleatTimer.reset : PleatTimer :=
  { anchor := 70000000, next := 90000000, period := 20000000, off := 0, cycle := 0, pleat := 0, start := 70000000,
    irregular := false, fresh := true, noA := true, grid := [], prev := none }

/-- The tracker and the pleat timers. -/
def Mns.reset : Mns :=
  { phases := (List.range 3).map fun x => (x, Phase.reset), timers := (List.range 27).map fun n => (n, PleatTimer.reset),
    fired := [] }

/-- The seam: DETACHED, cluster time not valid (11 R238, R255). -/
def Sea.reset : Sea :=
  { role := 0, prio := 1, waits := false, entered := 0, follow := none, also := none, limit := 0, deputy := none, arrival := none,
    lastCns := none, period := 0, misses := 0, count := 0, cepoch := 0, cbase := 0, cat := 0, known := false,
    valid := false, path := none, delayNext := 0, list := [], peers := [], recent := [], seq := 0, hello := 0, beacon := 0,
    takeover := 0, elected := 0, yield := none, synced := false, registry := [], keepReg := false, bulk := none, copied := [], since := [], change := 0, mirrors := [],
    mwaits := [], mirrorHeard := 0, applied := none, claims := [], joinNext := 0, refused := false, electNext := 0,
    heard := [] }

/-- The sequencer: stopped. -/
def Cnv.reset : Cnv :=
  { refAt := 0, ready := false, state := 0, seqs := 0, entry := 0, cal := false, enAt := 0, due := 0, visit := 0, raws := [],
    gain := 0, peak := 0, gains := [], falls := [], used := [], excs := [] }

/-- A loop output in MODE 0: 3.6 mA until its source's first valid output (02 R33, 16 R383). -/
def Loop.reset : Loop :=
  { ua := 3600, fault := false, cause := 0, opened := false, range := false, stale := false, reg := false, value := none,
    lastOut := 70000000, fired := none }

/-- The machine right after reset. -/
def State.reset : State :=
  { pending := []
    free := 0
    now := 100000000
    regs := Regs.reset
    pow :=
      { porstHigh := true, on := true, phase := 4, booted := true, restart := false, firstStart := true,
        factoryDone := false, bankFallback := false, bootNext := 0, volts := [] }
    lin := Lining.reset
    stw := Stw.reset
    mem := Mem.reset
    eth := [(0, EthPort.reset), (1, EthPort.reset)]
    fau := Fau.reset
    cip := Cip.reset
    caps := []
    mns := Mns.reset
    sea := Sea.reset
    plx := { ports := [], nodes := [], seqs := [], sealing := [] }
    air :=
      { ports := [], sensors := [], host := [], duty := [], secs := 0, downs := [], nextId := 0, seq := 0, windows := [] }
    sc := { groups := [], gone := [], nextGroup := 0, rxid := 0, results := [], digests := [] }
    spl := { spools := [], served := 0, pulses := [] }
    cnv := Cnv.reset
    chans := []
    loops := (List.range 4).map fun n => (n, Loop.reset) }

end Sys2Proof.Machine
end

