-- ==== Sys2Proof/Machine/Registers.lean ====
section
/-!
DEFINITION. Machine/Registers.lean: where a register lies, what it holds, and the access classes of 00 R6, R7, R434
and R436 on one register. What a write sets off besides (WO and LV fields, run fields) is Machine/Cfg.lean's.
-/

namespace Sys2Proof.Machine

open Sys2Proof

/-! ## Addresses -/

/-- The address of copy (i, j) of a register. -/
def famAddr (f : Fam) (i j : Nat) : Nat := (famInfo f).base + i * (famInfo f).s1 + j * (famInfo f).s2

/-- Which copy of a register lies at an address, if one does. -/
def locate (x : FamInfo) (a : Nat) : Option (Nat × Nat) :=
  if a < x.base then none
  else
    let o := a - x.base
    let i := if x.s1 = 0 then 0 else o / x.s1
    let o1 := if x.s1 = 0 then o else o % x.s1
    let j := if x.s2 = 0 then 0 else o1 / x.s2
    let o2 := if x.s2 = 0 then o1 else o1 % x.s2
    if i < x.n1 ∧ j < x.n2 ∧ o2 = 0 then some (i, j) else none

/-- The register at an address among those listed. -/
def findFam : List Fam → Nat → Option (Fam × Nat × Nat)
  | [], _ => none
  | f :: r, a =>
    match locate (famInfo f) a with
    | some (i, j) => some (f, i, j)
    | none => findFam r a

/-- The register of a configuration-space address (04 R73: an address that is not a multiple of 4, or lies outside
every register, names none). -/
def regOf (a : Nat) : Option (Fam × Nat × Nat) :=
  if a % 4 ≠ 0 then none
  else
    match blockTable.find? (fun b => decide (a ≤ b.1)) with
    | some (_, fs) => findFam fs a
    | none => none

/-- The blocks STW and LIN, whose writes need ADMIN (03 R62). -/
def adminAddr (a : Nat) : Bool := decide (a < 0x10000) || (decide (0x20000 ≤ a) && decide (a < 0x30000))

/-! ## Values -/

/-- The first-start value of a register (00 R8). Three registers take theirs from their own number: the source of a
line port's pleats (05 R110), its fold (06 PLX_CFG.FOLD) and a loop's source (16 LOP_LOn_CTL.SRC). -/
def famInit (f : Fam) (i : Nat) : Word :=
  BitVec.ofNat 32 (((famInfo f).flds.foldl (fun a x => a + x.init <<< x.lo) 0) +
    match f with
    | .mnsPortCfg => (i % 3) <<< 16
    | .plxCfg => i <<< 24
    | .lopLoCtl => i <<< 16
    | _ => 0)

/-- The current (for RS fields the active) value of a register. -/
def regWord (r : Regs) (f : Fam) (i j : Nat) : Word := tget (famInit f i) r.vals (famAddr f i j)

/-- A register with its current value set. -/
def setWord (r : Regs) (f : Fam) (i j : Nat) (v : Word) : Regs :=
  { r with vals := tput (famInit f i) r.vals (famAddr f i j) v }

/-- Bits [hi:lo] of a word. -/
def wordBits (v : Word) (hi lo : Nat) : Nat := bits v.toNat hi lo

/-- A word with bits [hi:lo] set to `x`. -/
def withBits (v : Word) (hi lo x : Nat) : Word :=
  let m := BitVec.ofNat 32 ((2 ^ (hi + 1 - lo) - 1) <<< lo)
  (v &&& ~~~m) ||| (BitVec.ofNat 32 (x <<< lo) &&& m)

/-- A field of the registers (active value). -/
def Regs.get (r : Regs) (x : FRef) (i : Nat := 0) (j : Nat := 0) : Nat := wordBits (regWord r x.fam i j) x.hi x.lo

/-- The registers with a field set. -/
def Regs.put (r : Regs) (x : FRef) (i j v : Nat) : Regs :=
  setWord r x.fam i j (withBits (regWord r x.fam i j) x.hi x.lo v)

/-- A field of the registers of a state. -/
def State.reg (s : State) (x : FRef) (i : Nat := 0) (j : Nat := 0) : Nat := s.regs.get x i j

/-- A one-bit field. -/
def State.flag (s : State) (x : FRef) (i : Nat := 0) (j : Nat := 0) : Bool := decide (s.reg x i j = 1)

/-- A state with a field set. -/
def State.setReg (s : State) (x : FRef) (i j v : Nat) : State := { s with regs := s.regs.put x i j v }

/-- The events recorded at an instant: those of an earlier one are behind it. -/
def Regs.hitsAt (r : Regs) (now : Nat) : List Hit := if r.hitAt = now then r.hits else []

/-- A count, by its register and bits. -/
def Hit.of (h : Hit) (addr hi lo : Nat) : Bool := decide (h.addr = addr) && decide (h.hi = hi) && decide (h.lo = lo)

/-- What a count holds after the instant's events: it wraps, or saturates at its field's greatest value. -/
def Hit.count (h : Hit) : Nat :=
  let top := 2 ^ (h.hi + 1 - h.lo)
  if h.wraps then (h.base + h.n) % top else min (h.base + h.n) (top - 1)

/-- The registers with `n` events of an instant noted for a count (00 R436). -/
def Regs.note (r : Regs) (now : Nat) (x : FRef) (i n : Nat) (wraps : Bool) : Regs :=
  let a := famAddr x.fam i 0
  let old := r.hitsAt now
  let h : Hit := match old.find? (·.of a x.hi x.lo) with
    | some h => { h with n := h.n + n }
    | none => { addr := a, hi := x.hi, lo := x.lo, base := r.get x i, n := n, wraps := wraps }
  { r with hitAt := now, hits := h :: old.filter fun g => !g.of a x.hi x.lo }

/-- A counter that saturates at its field's greatest value, advanced by `n` events of now. -/
def State.bumpBy (s : State) (x : FRef) (i : Nat) (n : Nat) : State :=
  let c := min (s.reg x i + n) (2 ^ (x.hi + 1 - x.lo) - 1)
  ({ s with regs := s.regs.note s.now x i n false } : State).setReg x i 0 c

/-- A saturating counter advanced by 1. -/
def State.bump (s : State) (x : FRef) (i : Nat := 0) : State := s.bumpBy x i 1

/-- A wrapping counter advanced by `n` of now. -/
def State.wrapBy (s : State) (x : FRef) (i : Nat) (n : Nat) : State :=
  let c := (s.reg x i + n) % 2 ^ (x.hi + 1 - x.lo)
  ({ s with regs := s.regs.note s.now x i n true } : State).setReg x i 0 c

/-- A count set to a value that is no event's: what it has recorded before is behind it. -/
def State.setCount (s : State) (x : FRef) (i v : Nat) : State :=
  ({ s with regs := { s.regs with hits := s.regs.hits.filter fun h => !h.of (famAddr x.fam i 0) x.hi x.lo } } : State).setReg x i 0 v

/-! ## Masks by access class -/

/-- The bits of one field. -/
def fldMask (x : Fld) : Word := BitVec.ofNat 32 ((2 ^ (x.hi + 1 - x.lo) - 1) <<< x.lo)

/-- The bits of a register whose fields satisfy `p`. -/
def maskOf (f : Fam) (p : Fld → Bool) : Word :=
  (famInfo f).flds.foldl (fun a x => if p x then a ||| fldMask x else a) 0

/-- The bits of the fields of one class. -/
def classMask (f : Fam) (c : Acc) : Word := maskOf f fun x => decide (x.acc = c)

/-- The bits that any field covers; the rest are reserved (00 R7). -/
def definedMask (f : Fam) : Word := maskOf f fun _ => true

/-- The retained bits (00 R8). -/
def keepMask (f : Fam) : Word := maskOf f (·.keep)

/-- The bits that a write changes at once with no hook: RW, RL and LV. -/
def plainMask (f : Fam) : Word := maskOf f fun x => decide (x.acc = .rw) || decide (x.acc = .rl) || decide (x.acc = .lv)

/-! ## Shadows and COMMIT scopes (04 R90 to R96) -/

/-- The COMMIT register of the scope an address lies in, as register and instance (04 R90). -/
def scopeOf (f : Fam) (i : Nat) : Option (Fam × Nat) :=
  if classMask f .rs = 0 then none
  else match f with
    | .mnsPortCfg => some (.mnsCommit, 0)
    | .plxNotch | .plxLsRegion | .plxLsTx => some (.plxCommit, i)
    | .airTx | .airChCfg | .airChLim => some (.airCommit, i)
    | .splChPace => some (.splChCommit, i)
    | .cnvSeqCtl | .cnvTrigDly | .cnvEntCfg | .cnvEntLin | .cnvEntPa | .cnvEntPb => some (.cnvCommit, 0)
    | .fltChCfg | .fltChRate | .fltChPhase => some (.fltCommit, 0)
    | _ => none

/-- The registers of a COMMIT scope that hold RS fields: register and how many second copies, in ascending address
order at a given instance; for MNS, CNV and FLT the copies are counted by the first index. -/
def scopeFams (c : Fam) : List Fam :=
  match c with
  | .mnsCommit => [.mnsPortCfg]
  | .plxCommit => [.plxNotch, .plxLsRegion, .plxLsTx]
  | .airCommit => [.airTx, .airChCfg, .airChLim]
  | .splChCommit => [.splChPace]
  | .cnvCommit => [.cnvSeqCtl, .cnvTrigDly, .cnvEntCfg, .cnvEntLin, .cnvEntPa, .cnvEntPb]
  | .fltCommit => [.fltChCfg, .fltChRate, .fltChPhase]
  | _ => []

/-- Whether a COMMIT register stands once for each port or spool. -/
def scopePerInstance (c : Fam) : Bool :=
  match c with
  | .plxCommit | .airCommit | .splChCommit => true
  | _ => false

/-- Every register of a scope, as register and indices. -/
def scopeRegs (c : Fam) (i : Nat) : List (Fam × Nat × Nat) :=
  (scopeFams c).flatMap fun f =>
    if scopePerInstance c then (List.range (famInfo f).n2).map fun j => (f, i, j)
    else (List.range (famInfo f).n1).map fun k => (f, k, 0)

/-- The shadow of a register: where no shadow is held apart, the active value (02 R33). -/
def shadowWord (r : Regs) (f : Fam) (i j : Nat) : Word := tget (regWord r f i j) r.shad (famAddr f i j)

/-- A field of the shadows. -/
def Regs.shadow (r : Regs) (x : FRef) (i : Nat := 0) (j : Nat := 0) : Nat :=
  wordBits (shadowWord r x.fam i j) x.hi x.lo

/-- A register's shadow set. -/
def setShadow (r : Regs) (f : Fam) (i j : Nat) (v : Word) : Regs :=
  { r with shad := tput (regWord r f i j) r.shad (famAddr f i j) v }

/-- A COMMIT scope right after reset. -/
def Commit.init : Commit := { count := 0, dirty := false, pend := false, snap := [], waiting := [], part := false }

/-- A COMMIT scope. -/
def Regs.com (r : Regs) (c : Fam) (i : Nat) : Commit := tget Commit.init r.coms (famAddr c i 0)

/-- A COMMIT scope set. -/
def Regs.setCom (r : Regs) (c : Fam) (i : Nat) (v : Commit) : Regs :=
  { r with coms := tput Commit.init r.coms (famAddr c i 0) v }

end Sys2Proof.Machine
end

