-- ==== Sys2Proof/Machine/Ops.lean ====
section
/-!
DEFINITION. Machine/Ops.lean: the operations the meanings share: time, free values, device memory, the transmit
queues, responses, events (03 R63, R64), uplink records (03 R66, R67), the fault log (13 R298), lining records
(02 R29, R30) and contexts (01 R12).
-/

namespace Sys2Proof.Machine

open Sys2Proof

/-! ## Time and free values -/

/-- The state at local elapsed time `t` (02 R25: TMB_ELAPSED never runs back), with the free-value counter moved
on. -/
def State.tick (s : State) (t : Nat) : State := { s with now := max s.now t, free := s.free + 1 }

/-- A command's effect while the device runs; an unpowered or reset device does nothing (02 R23). -/
def whenOn (t : Nat) (f : State → State) (s : State) : Host.Outcome State Fault Refusal :=
  .next (if s.pow.on then f (s.tick t) else s)

/-- A free octet of this command. -/
def State.open8 (s : State) (k : Nat) : Byte := Config.freeByte s.free k

/-- `n` free octets of this command, numbered from `k`. -/
def State.open8s (s : State) (k n : Nat) : List Byte := (List.range n).map fun i => s.open8 (k + i)

/-- A random draw from 0 to n - 1 (n > 0), or from 0 to any number (n = 0). -/
def State.draw (s : State) (k n : Nat) : Nat := Config.freeNat s.free k % n

/-! ## Device memory (01 R15 to R17) -/

/-- The regions of the device memory map (01 R15). -/
inductive Region
  | dram | sram | engine (n : Nat) | none
  deriving DecidableEq, Repr

/-- The region an address lies in. -/
def regionOf (a : Nat) : Region :=
  if a < 0x400000000 then .dram
  else if 0x1000000000 ≤ a ∧ a < 0x1006000000 then .sram
  else if 0x2000000000 ≤ a ∧ a < 0x2002000000 then .engine ((a - 0x2000000000) / 0x80000)
  else .none

/-- The partitions of the SRAM (01 R14). -/
inductive SramPart
  | history | checkpoints | frames | steward | census | spools | airMac | general
  deriving DecidableEq, Repr

/-- The size of a partition in octets: 19, 16, 16, 12, 8, 8, 4 and 13 MiB, together 96 MiB. -/
def sramSize (p : SramPart) : Nat :=
  2 ^ 20 * match p with
    | .history => 19
    | .checkpoints => 16
    | .frames => 16
    | .steward => 12
    | .census => 8
    | .spools => 8
    | .airMac => 4
    | .general => 13

/-- The partitions in the order of 01 R14, in which they lie (log entry 111). -/
def sramParts : List SramPart := [.history, .checkpoints, .frames, .steward, .census, .spools, .airMac, .general]

/-- The first address of a partition. -/
def sramBase (p : SramPart) : Nat :=
  (sramParts.takeWhile fun q => decide (q ≠ p)).foldl (fun a q => a + sramSize q) 0x1000000000

/-- The partition an SRAM address lies in. -/
def sramPart (a : Nat) : Option SramPart :=
  sramParts.find? fun p => decide (sramBase p ≤ a) && decide (a < sramBase p + sramSize p)

/-- The channelizer history of one port, 4 ms: 128 KiB a line port, then 1 MiB an air port. -/
def lineHistory (port : Nat) : Nat := sramBase .history + port * 2 ^ 17
def airHistory (port : Nat) : Nat := sramBase .history + 24 * 2 ^ 17 + port * 2 ^ 20

/-- One of an engine's two checkpoints, 128 KiB each. -/
def checkpointArea (engine half : Nat) : Nat := sramBase .checkpoints + (2 * engine + half) * 2 ^ 17

/-- The KIND of the memory descriptor range an address lies in, 0 for none (04 R89). -/
def kindOf (m : Mem) (a : Nat) : Nat :=
  match m.ranges.find? (fun r => decide (r.base ≤ a) && decide (a < r.base + r.size)) with
  | some r => r.kind
  | none => 0

/-- Whether a MEM command may read an octet (01 R15). -/
def mayRead (m : Mem) (a : Nat) : Bool :=
  match regionOf a with
  | .dram => decide (kindOf m a ≠ 2)
  | .sram => decide (kindOf m a = 1)
  | .engine _ => true
  | .none => false

/-- Whether a MEM command may write an octet (01 R15). -/
def mayWrite (m : Mem) (a : Nat) : Bool :=
  match regionOf a with
  | .dram => decide (kindOf m a = 0)
  | .sram => decide (kindOf m a = 1)
  | .engine _ => false
  | .none => false

/-- The first octet of a range that fails a check. -/
def firstBad (p : Nat → Bool) (a n : Nat) : Option Nat :=
  ((List.range n).find? fun i => !p (a + i)).map (a + ·)

/-- What an octet of memory that nothing has written reads as (log entry 8). -/
def Mem.blankByte : Byte := 0

/-- One octet of memory. -/
def Mem.read (m : Mem) (a : Nat) : Byte := tget Mem.blankByte m.cells a

/-- `n` octets of memory. -/
def Mem.reads (m : Mem) (a n : Nat) : List Byte := (List.range n).map fun i => m.read (a + i)

/-- An octet as MEM READ and a bank write read it: engine memory and the protected ranges hold what the spec does not give. -/
def State.memOctet (s : State) (m : Mem) (a : Nat) : Byte :=
  match regionOf a with
  | .engine _ => Config.freeByte s.free (a + 4096)
  | _ => if 3 ≤ kindOf m a then Config.freeByte s.free (a + 4096) else m.read a

/-- One octet of memory written. -/
def Mem.write (m : Mem) (a : Nat) (v : Byte) : Mem := { m with cells := tput Mem.blankByte m.cells a v }

/-- Octets written upward from `a`. -/
def Mem.writes (m : Mem) : Nat → List Byte → Mem
  | _, [] => m
  | a, v :: r => (m.write a v).writes (a + 1) r

/-- The canonical form of memory: addresses strictly rising, and no entry equal to what an unlisted address reads
as. -/
def Mem.wf (m : Mem) : Bool := ascending m.cells && m.cells.all fun c => decide (c.2 ≠ Mem.blankByte)

/-- The codeword an address lies in: an aligned 64-octet block of DRAM, an aligned 8-octet word of SRAM (01 R17). -/
def codeword (a : Nat) : Nat :=
  match regionOf a with
  | .dram => a / 64 * 64
  | _ => a / 8 * 8

/-- The length of the codeword at an address. -/
def codewordLen (a : Nat) : Nat :=
  match regionOf a with
  | .dram => 64
  | _ => 8

/-- A range touches a codeword. -/
def touches (a n c : Nat) : Bool := decide (c < a + n) && decide (a < c + codewordLen c) && decide (0 < n)

/-- A range covers a codeword whole. -/
def covers (a n c : Nat) : Bool := decide (a ≤ c) && decide (c + codewordLen c ≤ a + n)

/-- The poisoned codewords that a range touches. -/
def Mem.poisonIn (m : Mem) (a n : Nat) : List Nat := m.poison.filter (touches a n)

/-- The poisoned codewords that a range covers only in part. -/
def Mem.poisonPart (m : Mem) (a n : Nat) : List Nat := (m.poisonIn a n).filter fun c => !covers a n c

/-- A range written: a codeword that it covers whole is good again, a poisoned one covered in part stays poisoned
(01 R17). -/
def Mem.store (m : Mem) (a : Nat) (d : List Byte) : Mem :=
  { m.writes a d with
    poison := m.poison.filter fun c => !(touches a d.length c && covers a d.length c)
    rot := m.rot.filter fun c => !(touches a d.length c && covers a d.length c) }

/-! ## Ethernet transmit queues (18 R414) -/

/-- An Ethernet port before its link first comes up. -/
def EthPort.init : EthPort :=
  { up := false, reason := 0, queues := [], paused := [], pausing := [], type := 0, an := 1, fec := 1,
    capAt := 0, freeAt := 0, since := 0, out := [] }

/-- An Ethernet port. -/
def State.ep (s : State) (p : Nat) : EthPort := tget EthPort.init s.eth p

/-- An Ethernet port changed. -/
def State.setEp (s : State) (p : Nat) (e : EthPort) : State := { s with eth := tset s.eth p e }

/-- The port a frame meant for port `p` leaves from: the other port while only that one is up (13 R295). -/
def State.txPort (s : State) (p : Nat) : Nat :=
  if (s.ep p).up then p else if (s.ep (1 - p)).up then 1 - p else p

/-- The EtherType of a raw frame, or the source port of a UDP datagram (03 R43; 11 R233; 18 R410; log entry 192). -/
def State.protoOf (s : State) (f : Frame) : Nat :=
  match f.kind with
  | .seam => if f.dst.udp then s.reg F.seaUdpPort else s.reg F.seaXportEthertype
  | .arp => 0x0806
  | .neighbour => 0x86DD
  | .pause => 0x8808
  | _ => if f.dst.udp then s.reg F.stwUdpPort else s.reg F.stwXportEthertype

/-- A frame put in a transmit queue, at its head or its tail. -/
def State.queueFrame (s : State) (p q : Nat) (head : Bool) (f : Frame) : State :=
  let p := s.txPort p
  let f := { f with proto := s.protoOf f }
  let e := s.ep p
  let old := tget [] e.queues q
  s.setEp p { e with queues := tset e.queues q (if head then f :: old else old ++ [f]) }

/-! ## Mailbox messages (03 R45) -/

/-- The status codes of 03 R69. -/
def Status.ok : Nat := 0
def Status.pending : Nat := 1
def Status.busy : Nat := 2
def Status.badOpcode : Nat := 0x10
def Status.badLength : Nat := 0x11
def Status.badAddress : Nat := 0x12
def Status.lockedRunning : Nat := 0x13
def Status.commitConflict : Nat := 0x14
def Status.tagInUse : Nat := 0x15
def Status.noCredit : Nat := 0x16
def Status.badSession : Nat := 0x17
def Status.notPermitted : Nat := 0x18
def Status.memError : Nat := 0x19
def Status.keyErased : Nat := 0x20
def Status.authFail : Nat := 0x21
def Status.dutyExhausted : Nat := 0x30
def Status.notManager : Nat := 0x40
def Status.noRoute : Nat := 0x50

/-- A message: the 16-octet header of 03 R45 and the operand. `flags` are bits 7 to 5 of octet 1: 4 DIRECT, 2 FINAL,
1 REPLAY. The reserved bits of a header the device sends are 0, as in the examples of R57 and R61 (log
entry 9). -/
def message (cls flags mb tag opcode seq slot gen status : Nat) (operand : List Byte) : List Byte :=
  be 1 (0x10 + cls) ++ be 1 (flags * 32) ++ be 2 (mb * 8192 + tag) ++ be 2 opcode ++ be 2 operand.length ++ be 4 seq ++
    be 2 (slot * 4096 + gen) ++ be 2 status ++ operand

/-! ## Sessions and events (03 R63, R64) -/

/-- The instant now, as octets of (epoch, ns) (00 R5). -/
def State.stamp (s : State) : List Byte := be 4 s.lin.epoch ++ be 8 s.now

/-- A steward pair is active. -/
def State.pairActive (s : State) : Bool := s.fau.pairs.any fun p => decide (p.2 = .active)

/-- The firmware runs: the start sequence has reached step 8 and a pair is active (03 R59). -/
def State.fwRuns (s : State) : Bool := decide (s.pow.phase = 4) && s.pairActive

/-- Either Ethernet port is up. -/
def State.anyUp (s : State) : Bool := (s.ep 0).up || (s.ep 1).up

/-- An open session changed. -/
def State.setSess (s : State) (k : Nat) (x : Session) : State :=
  { s with stw := { s.stw with sess := tset s.stw.sess k x } }

/-- Where a message that answers no command goes (03 R44, 18 R414): the session's addresses, and the VID of its last message
under the PCP of its traffic. -/
def Session.addr (x : Session) (pcp : Nat) : Addr := { x.src with tag := x.src.tag.map fun t => pcp * 8192 + t % 4096 }

/-- The EVENT message of a stored event, queued on its session's port (03 R63, R44). -/
def State.sendEvent (s : State) (k : Nat) (x : Session) (e : StoredEvent) : State :=
  s.queueFrame x.port 2 false
    { kind := .event, dst := x.addr (s.reg F.ethPrioMbPcp), body := message 2 0 0 0 0 e.seq k x.gen 0 e.body }

/-- An event put to one session (03 R64): it takes a sequence; a full store drops it; while both ports are down it
waits unsent. -/
def State.postEvent (s : State) (k : Nat) (x : Session) (body : List Byte) : State :=
  let seq := x.evSeq
  let x := { x with evSeq := (x.evSeq + 1) % 2 ^ 32 }
  if 1024 ≤ x.events.length then s.setSess k { x with evLost := x.evLost + 1 }
  else
    let e : StoredEvent := { seq := seq, time := s.now, sent := s.anyUp, resends := 0, body := body }
    let s := s.setSess k { x with events := x.events ++ [e] }
    if s.anyUp then s.sendEvent k x e else s

/-- The operand of an event (03 R63) of an instant. -/
def State.eventBodyAt (s : State) (at_ code block inst : Nat) (data : List Byte) : List Byte :=
  be 2 code ++ be 1 block ++ be 1 inst ++ be 4 s.lin.epoch ++ be 8 at_ ++ data

/-- The operand of an event of now. -/
def State.eventBody (s : State) (code block inst : Nat) (data : List Byte) : List Byte :=
  s.eventBodyAt s.now code block inst data

/-- An event raised for an instant (03 R64): to every open session subscribed to its group. While no steward pair runs none is
raised (02 R39, log entry 10). -/
def State.raiseAt (s : State) (at_ code block inst : Nat) (data : List Byte) : State :=
  if !s.fwRuns then s
  else
    s.stw.sess.foldl (fun s e =>
      match tget? s.stw.sess e.1 with
      | some x => if bit x.groups (code / 256) then s.postEvent e.1 x (s.eventBodyAt at_ code block inst data) else s
      | none => s) s

/-- An event raised for now. -/
def State.raise (s : State) (code block inst : Nat) (data : List Byte) : State := s.raiseAt s.now code block inst data

/-- EVENTS_LOST (03 R64): sent once the session's store has room after a drop or a release, whatever the session subscribes to and
whether or not a pair runs the firmware (log entry 226). -/
def State.eventsLost (s : State) (k : Nat) : State :=
  match tget? s.stw.sess k with
  | some x =>
    if 0 < x.evLost ∧ x.events.length < 1024 then
      let n := x.evLost
      s.postEvent k { x with evLost := 0 } (s.eventBody 2 0 0 (be 4 n))
    else s
  | none => s

/-! ## Uplink records (03 R66, R67) -/

/-- The octets the delivery area holds. -/
def areaUsed (a : List AreaRec) : Nat := a.foldl (fun n r => n + r.body.length) 0

/-- A RECORDS message that still waits takes a record as its next: it is of the same session, goes where this one's would (R44), its
records end just before this one's sequence, and it stays within MAXMSG (03 R67). -/
def Frame.packs (f : Frame) (k : Nat) (x : Session) (dest : Addr) (r : StoredRec) (body : List Byte) : Bool :=
  decide (f.kind = .records) && decide (f.dst = dest) && decide (beAt f.body 12 2 = k * 4096 + x.gen) &&
    decide ((beAt f.body 8 4 + f.recs) % 2 ^ 32 = r.seq) && decide (f.body.length + body.length ≤ x.maxmsg)

/-- A RECORDS message with one more record. -/
def Frame.pack (f : Frame) (k : Nat) (x : Session) (body : List Byte) : Frame :=
  { f with body := message 4 0 0 0 0 (beAt f.body 8 4) k x.gen 0 (f.body.drop 16 ++ body), recs := f.recs + 1 }

/-- A record sent to its session (03 R67): packed in the RECORDS message queued last on its port if that message still waits and
takes it, else in a message of its own. -/
def State.sendRecord (s : State) (k : Nat) (x : Session) (r : StoredRec) (body : List Byte) : State :=
  let p := s.txPort x.port
  let e := s.ep p
  let old := tget [] e.queues 3
  match old.getLast? with
  | some f =>
    if f.packs k x (x.addr (s.reg F.ethPrioRecPcp)) r body then s.setEp p { e with queues := tset e.queues 3 (old.dropLast ++ [f.pack k x body]) }
    else s.queueFrame x.port 3 false
      { kind := .records, dst := x.addr (s.reg F.ethPrioRecPcp), body := message 4 0 0 0 0 r.seq k x.gen 0 body, recs := 1 }
  | none => s.queueFrame x.port 3 false
      { kind := .records, dst := x.addr (s.reg F.ethPrioRecPcp), body := message 4 0 0 0 0 r.seq k x.gen 0 body, recs := 1 }

/-- The records of the delivery area that some open session still holds (03 R67). -/
def Stw.sweep (w : Stw) : Stw :=
  { w with area := w.area.filter fun a => w.sess.any fun e => e.2.recs.any fun r => decide (r.id = a.id) }

/-- RECORDS_LOST to a session that has lost records, under the subscription rule of R64. While its event store is full none is
raised, and the counts stay for the next (log entry 242). -/
def State.recordsLost (s : State) (k : Nat) : State :=
  match tget? s.stw.sess k with
  | some x =>
    if 0 < x.recLost ∧ s.fwRuns = true ∧ bit x.groups 0 = true ∧ x.events.length < 1024 then
      let body := s.eventBody 3 0 0 (be 4 x.recLost ++ be 1 x.recWhy ++ s.open8s 900 3)
      s.postEvent k { x with recLost := 0, recWhy := 0 } body
    else s
  | none => s

/-- One session's part of a record (03 R67): too long for it, dropped for want of area, or held and sent. The length is tested first,
and a record dropped for want of area takes no sequence (log entry 227). -/
def State.deliverTo (s : State) (k : Nat) (x : Session) (id : Nat) (full : Bool) (body : List Byte) : State :=
  if x.maxmsg < 16 + body.length then
    s.setSess k { x with recSeq := (x.recSeq + 1) % 2 ^ 32, recLost := x.recLost + 1, recWhy := x.recWhy ||| 2 }
  else if full then
    s.setSess k { x with recLost := x.recLost + 1, recWhy := x.recWhy ||| 1 }
  else
    let r : StoredRec := { seq := x.recSeq, id := id, time := s.now }
    let s := s.setSess k { x with recSeq := (x.recSeq + 1) % 2 ^ 32, recs := x.recs ++ [r] }
    s.sendRecord k x r body

/-- An uplink record delivered (03 R66, R67): `kind` 1 line, 2 air, 3 combined; `body` the whole record, padded. -/
def State.deliver (s : State) (kind : Nat) (body : List Byte) : State :=
  let full := decide (2147483648 < areaUsed s.stw.area + body.length)
  let takers := s.stw.sess.filter fun e => bit e.2.kinds (kind - 1)
  let fits := takers.any fun e => decide (16 + body.length ≤ e.2.maxmsg)
  let id := s.stw.nextArea
  let s := if fits && !full then
      { s with stw := { s.stw with area := s.stw.area ++ [{ id := id, body := body }], nextArea := id + 1 } }
    else if fits then { s with stw := { s.stw with areaDrops := s.stw.areaDrops + 1 } } else s
  let s := takers.foldl (fun s e =>
    match tget? s.stw.sess e.1 with
    | some x => s.deliverTo e.1 x id full body
    | none => s) s
  takers.foldl (fun s e => s.recordsLost e.1) s

/-- The 32-octet record header of 03 R66, the payload, and the padding. -/
def recordBody (kind port chan flags short seq ext epoch ns margin hops : Nat) (payload : List Byte) : List Byte :=
  padTo 8 (be 1 kind ++ be 1 port ++ be 1 chan ++ be 1 flags ++ be 2 short ++ be 2 seq ++ be 8 ext ++ be 4 epoch ++
    be 8 ns ++ be 2 payload.length ++ be 1 margin ++ be 1 hops ++ payload)

/-! ## Responses (03 R54 to R57) -/

/-- The open session a command in flight belongs to, unless it has closed. -/
def State.sessOf (s : State) (slot gen : Nat) : Option Session :=
  match tget? s.stw.sess slot with
  | some x => if x.gen = gen then some x else none
  | none => none

/-- The grant of a closed session returns to the pool once it has no command in flight (03 R53). -/
def Stw.reap (w : Stw) : Stw :=
  { w with closing := w.closing.filter fun c => w.flights.any fun f => decide (f.slot = c.slot) && decide (f.gen = c.gen) }

/-- A command in flight changed. -/
def State.setFlight (s : State) (f : Flight) : State :=
  { s with stw := { s.stw with flights := s.stw.flights.map fun g => if g.ref = f.ref then f else g } }

/-- A final response (03 R54, R55): the credit is released, SEQUENCE and STATUS are kept for the tag, and the
response is queued, unless the session has closed (R48). One longer than MAXMSG is BAD_LENGTH instead (R52): a CFG or MEM read
that would be so long is not executed (`State.tooLong`), and the firmware reads that can be change nothing. A response behind
which STW_XPORT or STW_UDP take effect is marked (R70). -/
def State.answer (s : State) (f : Flight) (direct : Bool) (status : Nat) (operand : List Byte) (settles : Bool := false) : State :=
  let w := { s.stw with flights := s.stw.flights.filter fun g => decide (g.ref ≠ f.ref) }
  let s := { s with stw := w.reap }
  match s.sessOf f.slot f.gen with
  | none => s
  | some x =>
    let long := decide (x.maxmsg < 16 + operand.length)
    let status := if long then Status.badLength else status
    let operand := if long then [] else operand
    let s := s.setSess f.slot { x with tags := tset x.tags f.tag { seq := f.seq, status := status, busy := false } }
    s.queueFrame f.port 2 false
      { kind := .response, dst := f.src,
        body := message 1 (if direct then 6 else 2) f.mb f.tag f.opcode f.seq f.slot f.gen status operand
        settles := settles }

/-- A command's first final response is recorded in its commit entry (13 R294). -/
def State.recordFinal (s : State) (f : Flight) (status : Nat) (operand : List Byte) : State :=
  s.setFlight { f with stage := match f.stage with
    | .answered a b => .answered a b
    | _ => .answered status operand }

/-- A command ends with a final response. That of a firmware command, which the steward gives, is recorded while no pair runs, and
sent once one does (13 R294). -/
def State.finish (s : State) (f : Flight) (direct : Bool) (status : Nat) (operand : List Byte) (settles : Bool := false) : State :=
  if 0x300 ≤ f.opcode ∧ s.pairActive = false then s.recordFinal f status operand
  else s.answer f direct status operand settles

/-- A response of `n` octets would be longer than its session's MAXMSG: the command is not executed (03 R52). -/
def State.tooLong (s : State) (f : Flight) (n : Nat) : Bool :=
  match s.sessOf f.slot f.gen with
  | some x => decide (x.maxmsg < 16 + n)
  | none => false

/-- A PENDING response, at the head of the mailbox queue (03 R61). -/
def State.sendPending (s : State) (f : Flight) (flags : Nat) : State :=
  match s.sessOf f.slot f.gen with
  | none => s
  | some _ =>
    s.queueFrame f.port 2 true
      { kind := .response, dst := f.src,
        body := message 1 flags f.mb f.tag f.opcode f.seq f.slot f.gen Status.pending [] }

/-- A command in flight by the model's number for it. -/
def State.flight? (s : State) (ref : Nat) : Option Flight := s.stw.flights.find? fun f => decide (f.ref = ref)

/-- A firmware command's final response, by its number; nothing when it has none to give. -/
def State.finishRef (s : State) (ref : Nat) (status : Nat) (operand : List Byte) : State :=
  match s.flight? ref with
  | some f => s.finish f false status operand
  | none => s

/-! ## The fault log (13 R298) -/

/-- The INDEX the next entry put in the queue will take, all ones when the queue is full. -/
def State.logIndex (s : State) : Nat :=
  if 64 ≤ s.fau.queue.length then 0xFFFFFFFF else s.lin.logNext + s.fau.queue.length

/-- A fault log entry of an instant put in the hardware queue, or counted as lost (13 R298). -/
def State.logFaultAt (s : State) (at_ kind block inst outcome detect target ctxs interrupt detail : Nat)
    (engine : Option Nat) : State :=
  if 64 ≤ s.fau.queue.length then s.bump F.fauCntLoglost
  else
    let body := be 1 kind ++ be 1 block ++ be 1 inst ++ be 1 outcome ++ be 4 s.lin.epoch ++ be 8 at_ ++ be 1 detect ++
      be 1 target ++ be 2 ctxs ++ be 4 interrupt ++ be 4 detail
    { s with fau := { s.fau with queue := s.fau.queue ++ [{ body := body, engine := engine }] } }

/-- A fault log entry of now. -/
def State.logFault (s : State) (kind block inst outcome detect target ctxs interrupt detail : Nat)
    (engine : Option Nat := none) : State :=
  s.logFaultAt s.now kind block inst outcome detect target ctxs interrupt detail engine

/-! ## Uncorrectable memory (01 R17, 13 R296) -/

/-- The memory instance of an address: the DRAM stacks interleave by address bit 12 (01), 2 is the SRAM. -/
def memInstance (a : Nat) : Nat :=
  match regionOf a with
  | .dram => b2n (bit a 12)
  | _ => 2

/-- A codeword found uncorrectable by its first read: it is marked poisoned, logged and reported, with the BLOCK of the
consumer. -/
def State.foundRotten (s : State) (block c : Nat) : State :=
  let s : State := { s with mem := { s.mem with
                                     rot := s.mem.rot.filter (fun x => decide (x ≠ c))
                                     poison := c :: s.mem.poison.filter fun x => decide (x ≠ c) } }
  let s := (s.logFault 0x31 0x04 (memInstance c) 1 4 255 0 0 (c % 2 ^ 32)).bump F.fauCntUnmasked
  s.raise 0x205 0x04 (memInstance c) (be 8 c ++ be 1 block ++ s.open8s 910 7)

/-- A range read: what it finds uncorrectable for the first time. -/
def State.consume (s : State) (block a n : Nat) : State := (s.mem.rot.filter (touches a n)).foldl (fun s c => s.foundRotten block c) s

/-- A range about to be written: a codeword it covers only in part is read first. -/
def State.consumePart (s : State) (block a n : Nat) : State :=
  (s.mem.rot.filter fun c => touches a n c && !covers a n c).foldl (fun s c => s.foundRotten block c) s

/-! ## Writes and the rings (15 R335, R337) -/

/-- SIZE of a spool's ring. -/
def State.ringLen (s : State) (n : Nat) : Nat := 2 ^ clamp 4 16 (s.reg F.splChRcfgLog2size n)

/-- The ring base. -/
def State.ringBase (s : State) (n : Nat) : Nat := s.reg F.splChRingHi n * 2 ^ 32 + s.reg F.splChRingLo n

/-- The descriptors of running spools that a range touches and whose control word shows OWN 1 and HEM 0, by address. -/
def State.ownedIn (s : State) (a n : Nat) : List Nat :=
  s.spl.spools.flatMap fun e =>
    if s.flag F.splChCtlEn e.1 then
      let b := s.ringBase e.1
      let i := (a - b) / 32
      ((List.range (min (cdiv (a + n - b) 32) (s.ringLen e.1) - i)).map fun k => b + 32 * (i + k)).filter fun x =>
        decide (a < x + 32) && (s.mem.read x).getLsbD 7 && !(s.mem.read x).getLsbD 6
    else []

/-- A range of memory takes octets. A descriptor it touches has an undefined outcome if the engine owns it, and a defined one again
otherwise (15 R337; log entry 237). -/
def State.put (s : State) (a : Nat) (d : List Byte) : State :=
  { s with mem := { s.mem.store a d with
                    spoilt := s.ownedIn a d.length ++ s.mem.spoilt.filter fun x => !(decide (x < a + d.length) && decide (a < x + 32)) } }

/-- A range of memory written; whether a poisoned codeword was covered only in part. -/
def State.writeMem (s : State) (block a : Nat) (d : List Byte) : State × Bool :=
  let s := s.consumePart block a d.length
  let part := !(s.mem.poisonPart a d.length).isEmpty
  (s.put a d, part)

/-! ## Lining records (02 R29, R30) -/

/-- A lining write begun. -/
def State.linWrite (s : State) (r : LinRec) (ref : Option Nat := none) : State :=
  { s with lin := { s.lin with writes := s.lin.writes ++ [{ what := r, ref := ref }] } }

/-- A register's retained fields, if they differ from what they were in `old`, go to the lining as one record
(02 R30). -/
def State.kept (s old : State) (f : Fam) (i : Nat) (j : Nat := 0) : State :=
  if regWord s.regs f i j &&& keepMask f = regWord old.regs f i j &&& keepMask f then s
  else s.linWrite (.cfg [(famAddr f i j, regWord s.regs f i j &&& keepMask f)])

/-- The RS fields of one register take a snapshot's value (04 R91, R92); the shadow stays as it is. A retained field that
changes makes its hand-over's record outstanding from then on (02 R30, log entry 190). -/
def Regs.applyReg (r : Regs) (addr : Nat) (v : Word) : Regs :=
  match regOf addr with
  | some (f, i, j) =>
    let m := classMask f .rs
    let old := regWord r f i j
    let r' := setShadow (setWord r f i j ((old &&& ~~~m) ||| (v &&& m))) f i j (shadowWord r f i j)
    match scopeOf f i with
    | some (c, k) => if (v ^^^ old) &&& m &&& keepMask f = 0 then r' else r'.setCom c k { r'.com c k with part := true }
    | none => r'
  | none => r

/-- A snapshot's value of one register applied. -/
def State.applyReg (s : State) (addr : Nat) (v : Word) : State := { s with regs := s.regs.applyReg addr v }

/-- The lining record of a completed hand-over (02 R30): the retained fields of its registers. -/
def State.keepSnap (s : State) (snap : List (Nat × Word)) : State :=
  s.linWrite (.cfg (snap.filterMap fun e =>
    match regOf e.1 with
    | some (f, i, j) => some (e.1, regWord s.regs f i j &&& keepMask f)
    | none => none))

/-- A hand-over completed (04 R91): COMMIT_PENDING clears, COUNT advances, and its record is written. -/
def State.handedOver (s : State) (f : Fam) (i : Nat) : State :=
  let c := s.regs.com f i
  let done : Commit := { c with pend := false, snap := [], waiting := [], part := false, count := (c.count + 1) % 65536 }
  ({ s with regs := s.regs.setCom f i done }).keepSnap c.snap

/-- A hand-over goes on with the links, ports or channels that have yet to apply it. -/
def State.stillWait (s : State) (f : Fam) (i : Nat) (w : List Nat) : State :=
  { s with regs := s.regs.setCom f i { s.regs.com f i with waiting := w } }

/-- A record of retained fields of the configuration image is being written; others do not count (log entry 220). -/
def Lining.pendingCfg (l : Lining) : Bool :=
  l.writes.any fun w => match w.what with
    | .cfg _ => true
    | _ => false

/-- A retained change is not yet durable (LIN_STATUS.PENDING_WRITES, 02 R30): its record is being written, or belongs to a
hand-over that has taken effect in part. Records outside the configuration image do not count (log entry 220). -/
def State.pendingWrites (s : State) : Bool := s.lin.pendingCfg || s.regs.coms.any fun c => c.2.part

/-- STW_XPORT and STW_UDP as written take effect once no response they wait for is left to send (03 R70). -/
def State.settleCarrier (s : State) : State :=
  match s.stw.carrier with
  | none => s
  | some (x, u) =>
    if [0, 1].any fun p => (tget [] (s.ep p).queues 2).any (·.settles) then s
    else
      let old := s
      let s : State := { s with
        stw := { s.stw with carrier := none }
        regs := setWord (setWord s.regs .stwXport 0 0 x) .stwUdp 0 0 u }
      (s.kept old .stwXport 0).kept old .stwUdp 0

/-- The device's extended address: EP0's factory MAC address with FF FE in its middle (10 R209, 14 example). -/
def State.extAddr (s : State) : Nat :=
  let m := tget 0 s.lin.macs 0
  (m / 2 ^ 24 * 2 ^ 16 + 0xFFFE) * 2 ^ 24 + m % 2 ^ 24

/-! ## Captures (04 R88) -/

/-- Samples of the captures that satisfy `p` are lost: their next block has GAP set. -/
def State.gapCaptures (s : State) (p : Capture → Bool) : State :=
  { s with caps := s.caps.map fun c => if p c then { c with gap := true } else c }

/-- Captures of a line port (`source` 1) or an air port (2). -/
def capturesOf (source port : Nat) (c : Capture) : Bool := decide (c.source = source) && decide (c.port = port)

/-! ## Contexts (01 R11, R12) -/

/-- A link engine in its state right after the power-up self-test. -/
def Engine.init : Engine :=
  { st := .active, drain := false, ctxs := [], fx := [], inputs := [], ckpt := { time := 0, fx := [], data := [] }, ckptOld := none, ckptNew := none,
    patch := none, testAt := 0, faults := 0, replacedBy := 255, lastIndex := 0xFFFFFFFF }

/-- A link engine. -/
def Fau.eng (f : Fau) (n : Nat) : Engine := tget Engine.init f.engines n

/-- The link of a line context. -/
def Ctx.link : Ctx → Option (Nat × Nat)
  | .lineRx n m _ => some (n, m)
  | .lineTx n m => some (n, m)
  | .airRx _ _ _ => none

/-- How many context slots some contexts take (01 R11): the traffic of a link that holds a candidate or a reception takes no slot
beside it, so that one slot serves a link's reception, transmissions and acknowledgements (log entry 205). -/
def slotsOf (cs : List Ctx) : Nat :=
  (cs.filter fun c => match c with
    | .lineTx n m => !cs.any fun d => match d with
      | .lineRx n' m' _ => decide (n' = n) && decide (m' = m)
      | _ => false
    | _ => true).length

/-- The context slots an engine has in use. -/
def Engine.load (e : Engine) : Nat := slotsOf e.ctxs

/-- An engine may take a new context: it is active, does not drain and has fewer than 48 slots in use. -/
def Engine.room (e : Engine) : Bool := decide (e.st = .active) && !e.drain && decide (e.load < 48)

/-- The engine a new context is placed on: the one with the fewest contexts, among equals the lowest number. -/
def Fau.pick (f : Fau) : Option Nat :=
  if f.testing then none
  else
    (f.engines.filter fun e => e.2.room).foldl (fun best e =>
      match best with
      | none => some e.1
      | some b => if e.2.load < (f.eng b).load then some e.1 else some b) none

/-- The engine whose slot a context shares: a link's traffic goes where its reception is held, which sends its acknowledgement (08
R167), and its first candidate where its traffic is. -/
def Fau.shares (f : Fau) (c : Ctx) : Option Nat :=
  match c.link with
  | none => none
  | some l =>
    (f.engines.find? fun e => decide (e.2.st = .active) &&
      (e.2.ctxs.any fun d => decide (d.link = some l)) && decide (slotsOf (e.2.ctxs ++ [c]) = e.2.load)).map (·.1)

/-- The engine that holds a context. -/
def Fau.holder (f : Fau) (c : Ctx) : Option Nat := (f.engines.find? fun e => e.2.ctxs.contains c).map (·.1)

/-- A context placed; none when no slot is free (01 R12). -/
def State.place (s : State) (c : Ctx) : Option State :=
  match s.fau.holder c with
  | some _ => some s
  | none =>
    match (s.fau.shares c).orElse fun _ => s.fau.pick with
    | none => none
    | some n =>
      let e := s.fau.eng n
      some { s with fau := { s.fau with engines := tset s.fau.engines n { e with ctxs := e.ctxs ++ [c] } } }

/-- An engine whose last context has ended while it drains becomes a spare (13 R291). -/
def Engine.settle (e : Engine) : Engine :=
  if e.drain && decide (e.st = .active) && e.ctxs.isEmpty then { e with st := .spare, drain := false } else e

/-- A checkpoint without a context. -/
def Ckpt.drop (k : Ckpt) (c : Ctx) : Ckpt :=
  { k with fx := k.fx.filter fun x => decide (x.1 ≠ c), data := k.data.filter fun x => decide (x.1 ≠ c) }

/-- An engine without a context; nothing is replayed of one that has ended. -/
def Engine.drop (e : Engine) (c : Ctx) : Engine :=
  if e.ctxs.contains c then
    ({ e with
       ctxs := e.ctxs.filter fun x => decide (x ≠ c)
       fx := e.fx.filter fun x => decide (x.1 ≠ c)
       inputs := e.inputs.filter fun h => decide (h.ctx ≠ c)
       ckpt := e.ckpt.drop c
       ckptOld := e.ckptOld.map fun k => k.drop c
       ckptNew := e.ckptNew.map fun k => k.drop c } : Engine).settle
  else e

/-- A context ended: its slot is free. -/
def State.unplace (s : State) (c : Ctx) : State :=
  { s with fau := { s.fau with engines := s.fau.engines.map fun e => (e.1, e.2.drop c) } }

/-! ## Spools (15 R333, R343) -/

/-- A spool that is stopped. -/
def Spool.init : Spool :=
  { state := 0, err := false, last := 0, stopIdx := 0, idx := 0, ring := false, cur := 0, busy := [], opened := false,
    posts := [], readAt := 0, writeAt := 0, irq := false, sigIdx := 0, sigStatus := 0, signals := 0, pulse := none }

/-- A spool. -/
def State.sp (s : State) (n : Nat) : Spool := tget Spool.init s.spl.spools n

/-- A spool set. -/
def State.setSp (s : State) (n : Nat) (x : Spool) : State :=
  { s with spl := { s.spl with spools := tset s.spl.spools n x } }

/-- A device spool has moved `bytes` octets, as one descriptor; its firmware or unit has started it, and it waits at the end of its
chain again (15 R334, R339, R343; log entry 178). -/
def State.spoolMoved (s : State) (n bytes : Nat) : State :=
  let x := s.sp n
  let i := (x.idx + 1) % s.ringLen n
  let s := (s.setSp n { x with idx := i, cur := i, stopIdx := i, state := 2 }).setReg F.splChCtlEn n 0 1
  (s.wrapBy F.splChCntDesc n 1).wrapBy F.splChCntBytes n bytes

/-! ## Inputs and effects (13 R286, R287) -/

/-- The effect number of a context in a record of them. -/
def numOf (l : List (Ctx × Nat)) (c : Ctx) : Option Nat := (l.find? fun x => decide (x.1 = c)).map (·.2)

/-- A context's effect number set. -/
def numSet (l : List (Ctx × Nat)) (c : Ctx) (n : Nat) : List (Ctx × Nat) := (c, n) :: l.filter fun x => decide (x.1 ≠ c)

/-- The last effect number that the consumers accepted from a context. -/
def Fau.taken (f : Fau) (c : Ctx) : Nat := (numOf f.accepted c).getD 0

/-- The effect number of a context of an engine; a new context of one place numbers on from the one before. -/
def Fau.numberOf (f : Fau) (e : Engine) (c : Ctx) : Nat := (numOf e.fx c).getD (f.taken c)

/-- An effect of a context accepted under its number. -/
def State.accepts (s : State) (c : Ctx) (n : Nat) : State :=
  { s with fau := { s.fau with accepted := numSet s.fau.accepted c n } }

/-- What a context holds (13 R285). -/
def State.ctxData (s : State) (c : Ctx) : CtxData :=
  match c with
  | .lineRx n m p =>
    match (tget? s.plx.ports n).bind fun x => tget? x.slots m with
    | some x => .lineRx (x.cands.find? fun d => decide (d.place = p)) (x.rx.filter fun r => decide (r.cand.place = p))
    | none => .lineRx none none
  | .lineTx n m =>
    match (tget? s.plx.ports n).bind fun x => tget? x.slots m with
    | some x => .lineTx x.queue x.draw x.ready x.hot x.await
    | none => .lineTx [] none 0 false none
  | .airRx n m p =>
    match (tget? s.air.ports n).bind fun x => tget? x.chans m with
    | some x => .airRx (x.cands.find? fun d => decide (d.place = p)) (x.rx.filter fun r => decide (r.cand.place = p))
    | none => .airRx none none

/-- The contexts of a context's link or channel. -/
def Ctx.mates : Ctx → List Ctx
  | .lineRx n m _ | .lineTx n m => [.lineRx n m 0, .lineRx n m 1, .lineTx n m]
  | .airRx n m _ => [.airRx n m 0, .airRx n m 1]

/-- What the contexts of a context's link or channel hold. -/
def State.matesData (s : State) (c : Ctx) : List (Ctx × CtxData) := c.mates.map fun d => (d, s.ctxData d)

/-- The candidates of a link slot with one in a place set or gone, the older first. -/
def putCand (l : List LineCand) (p : Nat) (c : Option LineCand) : List LineCand :=
  ((l.filter fun d => decide (d.place ≠ p)) ++ c.toList).mergeSort fun a b => decide (a.start ≤ b.start)

/-- The candidates of a channel, as those of a link slot. -/
def putAirCand (l : List AirCand) (p : Nat) (c : Option AirCand) : List AirCand :=
  ((l.filter fun d => decide (d.place ≠ p)) ++ c.toList).mergeSort fun a b => decide (a.ts ≤ b.ts)

/-- A context holds what a checkpoint or a replayed input gives it (13 R288). A link's traffic stands as the front end and the steward
hold it (log entry 212). -/
def State.putCtx (s : State) (e : Ctx × CtxData) : State :=
  match e with
  | (.lineRx n m p, .lineRx cand rx) =>
    let slot (x : LineSlot) : LineSlot :=
      { x with cands := putCand x.cands p cand, rx := rx.orElse fun _ => x.rx.filter fun r => decide (r.cand.place ≠ p) }
    let port (x : LinePort) : LinePort := { x with slots := x.slots.map fun y => if y.1 = m then (m, slot y.2) else y }
    { s with plx := { s.plx with ports := s.plx.ports.map fun x => if x.1 = n then (n, port x.2) else x } }
  | (.airRx n m p, .airRx cand rx) =>
    let chan (x : AirChan) : AirChan :=
      { x with cands := putAirCand x.cands p cand, rx := rx.orElse fun _ => x.rx.filter fun r => decide (r.cand.place ≠ p) }
    let port (x : AirPort) : AirPort := { x with chans := x.chans.map fun y => if y.1 = m then (m, chan y.2) else y }
    { s with air := { s.air with ports := s.air.ports.map fun x => if x.1 = n then (n, port x.2) else x } }
  | _ => s

/-- Contexts of an engine hold what is given of them. -/
def State.putCtxs (s : State) (n : Nat) (l : List (Ctx × CtxData)) : State :=
  (l.filter fun e => (s.fau.eng n).ctxs.contains e.1).foldl State.putCtx s

/-- An engine set. -/
def State.setEngine (s : State) (n : Nat) (e : Engine) : State :=
  { s with fau := { s.fau with engines := tset s.fau.engines n e } }

/-- An input held for 4 ms by its source, at the engine that has its context. -/
def State.holdInput (s : State) (h : HeldInput) : State :=
  match s.fau.holder h.ctx with
  | none => s
  | some n =>
    let e := s.fau.eng n
    let fx := match h.num with
      | some k => numSet e.fx h.ctx k
      | none => e.fx
    s.setEngine n { e with fx := fx, inputs := (e.inputs.filter fun x => decide (s.now ≤ x.time + 4 * ms)) ++ [h] }

/-- A context takes an input, whose effects are `f`: its source holds it for 4 ms, and the effects leave under the context's next
effect number, at once, or while a spare catches up only when that is done (13 R286 to R288). A context that the input begins takes it
as its first. -/
def State.input (s : State) (c : Ctx) (i : Input) (f : State → State) : State :=
  let hold (u : State) (k : Nat) : State :=
    u.holdInput { time := s.now, ctx := c, num := some k, input := i, after := u.matesData c }
  match s.fau.holder c with
  | none =>
    let u := f s
    match u.fau.holder c with
    | none => u
    | some _ => hold (u.accepts c (u.fau.taken c + 1)) (u.fau.taken c + 1)
  | some n =>
    let e := s.fau.eng n
    let k := s.fau.numberOf e c + 1
    if e.patch.isSome then s.holdInput { time := s.now, ctx := c, num := none, input := i, after := [] }
    else hold (f (s.accepts c k)) k

end Sys2Proof.Machine
end

