-- ==== Sys2Proof/Machine/EthWire.lean ====
section
/-!
DEFINITION. Machine/EthWire.lean: the addresses of the Ethernet ports (18 R409, R410) and the octets of a frame as it leaves one:
addresses, tag, IP and UDP headers (18 R410 to R412). The layout of the headers is the protocols' own (log entry 219).
-/

namespace Sys2Proof.Machine

open Sys2Proof

/-! ## Addresses (18 R409, R410) -/

/-- The MAC address of a port (18 R409), from the lining's identity record. -/
def State.macOf (s : State) (p : Nat) : Nat := tget 0 s.lin.macs p

/-- The IPv4 address of a port; 0 disables IPv4 there (18 R410). -/
def State.ipv4 (s : State) (p : Nat) : Nat := s.reg F.ethEpIpv4 p

/-- The IPv6 address of a port; 0 disables IPv6 there (18 R410). -/
def State.ipv6 (s : State) (p : Nat) : Nat :=
  ((s.reg F.ethEpIpv60 p * 2 ^ 32 + s.reg F.ethEpIpv61 p) * 2 ^ 32 + s.reg F.ethEpIpv62 p) * 2 ^ 32 +
    s.reg F.ethEpIpv63 p

/-- The port's own address of a protocol. -/
def State.ipOf (s : State) (p : Nat) (v6 : Bool) : Nat := if v6 then s.ipv6 p else s.ipv4 p

/-- A datagram that a port takes (18 R410): the protocol is not disabled, the destination is the port's address or a group the device
listens to, it is no fragment, has no IPv6 extension header, and its UDP checksum holds or, in IPv4 only, is zero. -/
def State.takesIp (s : State) (p : Nat) (v6 : Bool) (group : Option Nat) (h : IpHead) : Bool :=
  decide (s.ipOf p v6 ≠ 0) && (decide (h.dst = s.ipOf p v6) || decide (some h.dst = group)) && !h.fragment &&
    !(v6 && h.extension) && (match h.sum with
      | .right => true
      | .wrong => false
      | .zero => !v6)

/-! ## Headers -/

/-- The sum of a list of octets as 16-bit words, an odd last octet being the higher half of one. -/
def wordSum : List Byte → Nat
  | [] => 0
  | [a] => a.toNat * 256
  | a :: b :: r => a.toNat * 256 + b.toNat + wordSum r

/-- The ones' complement checksum of a list of octets. -/
def ipSum (l : List Byte) : Nat :=
  let n := wordSum l
  65535 - (if n = 0 then 0 else (n - 1) % 65535 + 1)

/-- What a UDP or ICMPv6 checksum covers before the datagram: the addresses, the length and the protocol. -/
def pseudoHead (v6 : Bool) (src dst proto len : Nat) : List Byte :=
  if v6 then be 16 src ++ be 16 dst ++ be 4 len ++ be 4 proto else be 4 src ++ be 4 dst ++ be 2 proto ++ be 2 len

/-- A UDP datagram with its checksum, which every one the device sends carries: a sum of 0 goes as 0xFFFF. -/
def udpDatagram (v6 : Bool) (src dst sport dport : Nat) (body : List Byte) : List Byte :=
  let n := 8 + body.length
  let head := be 2 sport ++ be 2 dport ++ be 2 n
  let c := ipSum (pseudoHead v6 src dst 17 n ++ head ++ be 2 0 ++ body)
  head ++ be 2 (if c = 0 then 0xFFFF else c) ++ body

/-- An IPv4 packet: TTL 64 and DF set. Its service octet and identification are not stated: free. -/
def State.ipv4Packet (s : State) (src dst proto : Nat) (body : List Byte) : List Byte :=
  let a := be 1 0x45 ++ s.open8s 954 1 ++ be 2 (20 + body.length) ++ s.open8s 956 2 ++ be 2 0x4000 ++ be 1 64 ++ be 1 proto
  let b := be 4 src ++ be 4 dst
  a ++ be 2 (ipSum (a ++ be 2 0 ++ b)) ++ b ++ body

/-- An IPv6 packet: hop limit 64 and no extension header. Its traffic class and flow label are not stated: free. -/
def State.ipv6Packet (s : State) (src dst next : Nat) (body : List Byte) : List Byte :=
  be 4 (6 * 2 ^ 28 + s.draw 957 (2 ^ 28)) ++ be 2 body.length ++ be 1 next ++ be 1 64 ++ be 16 src ++ be 16 dst ++ body

/-- An IP packet of either protocol. -/
def State.ipPacket (s : State) (v6 : Bool) (src dst proto : Nat) (body : List Byte) : List Byte :=
  if v6 then s.ipv6Packet src dst proto body else s.ipv4Packet src dst proto body

/-- An ARP reply from a port to an asker (18 R410). -/
def arpReply (mac ip askerMac askerIp : Nat) : List Byte :=
  be 2 1 ++ be 2 0x0800 ++ be 1 6 ++ be 1 4 ++ be 2 2 ++ be 6 mac ++ be 4 ip ++ be 6 askerMac ++ be 4 askerIp

/-- An IPv6 neighbour advertisement for a port's address, solicited and overriding, with its MAC address (18 R410). -/
def neighbourAdvert (mac ip asker : Nat) : List Byte :=
  let rest := be 4 0x60000000 ++ be 16 ip ++ be 2 0x0201 ++ be 6 mac
  be 2 0x8800 ++ be 2 (ipSum (pseudoHead true ip asker 58 32 ++ be 2 0x8800 ++ be 2 0 ++ rest)) ++ rest

/-- Octets padded with zeros to the Ethernet minimum of 64, the FCS's 4 included (03 R43; log entry 219). -/
def padFrame (l : List Byte) : List Byte := l ++ zeros (60 - l.length)

/-- The octets of a frame as port `p` sends it, from the destination address to the last one before the FCS, under the port's
own MAC and IP addresses (18 R410 to R412). None where the port has no address of the frame's protocol. -/
def State.ethOctets (s : State) (p : Nat) (f : Frame) : Option (List Byte) :=
  let d := f.dst
  let own := s.ipOf p d.v6
  let tag := match d.tag with
    | some t => be 2 0x8100 ++ be 2 t
    | none => []
  let head := be 6 d.mac ++ be 6 (s.macOf p) ++ tag
  let ip (proto : Nat) (body : List Byte) : Option (List Byte) :=
    if own = 0 then none
    else some (padFrame (head ++ be 2 (if d.v6 then 0x86DD else 0x0800) ++ s.ipPacket d.v6 own d.ip proto body))
  if d.udp then ip 17 (udpDatagram d.v6 own d.ip f.proto d.uport f.body)
  else if f.kind = .neighbour then ip 58 f.body
  else some (padFrame (head ++ be 2 f.proto ++ f.body))

end Sys2Proof.Machine
end

