-- ==== Sys2Proof/Machine/Mailbox.lean ====
section
/-!
DEFINITION. Machine/Mailbox.lean: the hardware mailbox engine (03): the acceptance order of R57, sessions, tags and
credits, acknowledgements, resends, and the classification of arriving frames (18 R413).
-/

namespace Sys2Proof.Machine

open Sys2Proof

/-! ## Answers made by the engine -/

/-- A reply to a message that is not in flight: a RESPONSE, or a SESSION message that repeats the OPCODE (03 R48,
R57), and its SEQUENCE (log entry 222); `head`: at the head of the queue (18 R414). -/
def State.reply (s : State) (m : Inbound) (session : Bool) (opcode flags status slot gen : Nat)
    (operand : List Byte) (head : Bool := false) : State :=
  s.queueFrame m.port 2 head
    { kind := if session then .session else .response, dst := m.src,
      body := message (if session then 6 else 1) flags (if session then 0 else m.mb) (if session then 0 else m.tag)
        opcode m.seq slot gen status operand }

/-- A rejection under 03 R57: a final response of the engine, DIRECT and FINAL set, in a SESSION reply too (log entry 222). -/
def State.reject (s : State) (m : Inbound) (session : Bool) (opcode status : Nat) (operand : List Byte) : State :=
  s.reply m session opcode 6 status m.slot m.gen operand

/-! ## Checks (03 R57) -/

/-- The carrier is a mailbox carrier of 03 R43: raw with STW_XPORT.ETHERTYPE, or UDP to STW_UDP.PORT. -/
def State.mailProto (s : State) (udp : Bool) (proto : Nat) : Bool :=
  decide (proto = if udp then s.reg F.stwUdpPort else s.reg F.stwXportEthertype)

/-- The carrier of a message is enabled (03 R43). -/
def State.carrierOn (s : State) (m : Inbound) : Bool :=
  if m.src.udp then s.flag F.stwXportUdpEn else s.flag F.stwXportRawEn

/-- A frame or datagram on a port is of an enabled seam carrier (11 R233): the seam does not use IPv6; its IPv4 group is
SEA_MCAST_V4. -/
def State.seamCarrier (s : State) (port : Nat) (udp v6 : Bool) (proto : Nat) (ip : IpHead) : Bool :=
  if udp then s.flag F.seaXportUdpEn && !v6 && decide (proto = s.reg F.seaUdpPort) &&
    s.takesIp port false (some (s.reg F.seaMcastV4)) ip
  else s.flag F.seaXportRawEn && decide (proto = s.reg F.seaXportEthertype)

/-- A tag whose VID is neither MB_VID nor SEAM_VID while MB_VID is not 0 (18 R413, order 2). -/
def State.strangeTag (s : State) (tag : Option Nat) : Bool :=
  match tag with
  | some v => decide (s.reg F.ethVlanMbVid ≠ 0) && decide (v % 4096 ≠ s.reg F.ethVlanMbVid) &&
      decide (v % 4096 ≠ s.reg F.ethVlanSeamVid)
  | none => false

/-- A message that goes to the seam block (11 R233): its carrier is an enabled seam carrier, and bits [7:4] of its first octet are
0xE. -/
def State.seamMarked (s : State) (m : Inbound) : Bool :=
  s.seamCarrier m.port m.src.udp m.src.v6 m.proto m.ip && decide (m.version = 0xE)

/-- A frame that reaches the mailbox engine: its port is up, its VID is not a strange one, it does not go to the seam block, and it is
a mailbox carrier (18 R413, orders 2 to 4) that R410 does not discard. -/
def State.reaches (s : State) (m : Inbound) : Bool :=
  (s.ep m.port).up && !s.strangeTag m.src.tag && !s.seamMarked m && s.mailProto m.src.udp m.proto &&
    (!m.src.udp || s.takesIp m.port m.src.v6 none m.ip)

/-- A frame on an up port that does not reach the mailbox engine is counted (18 R413, orders 2 and 6), unless it goes to the seam
block. -/
def State.strayFrame (s : State) (m : Inbound) : State :=
  if (s.ep m.port).up && (s.strangeTag m.src.tag || !s.seamMarked m) then s.bump F.ethEpCntRxdrop m.port else s

/-- A message without the reserved bit 12 of its octets 2 and 3, which the device ignores (00 R7, 03 R45). -/
def cleanTag (m : Inbound) : Inbound := { m with tag := m.tag % 4096 }

/-- LENGTH agrees with the frame (03 R43, R52). -/
def lenOk (m : Inbound) : Bool :=
  decide (m.len ≤ 8192) && decide (m.operand.length = m.len) &&
    (decide (m.payLen = 16 + m.len) || (!m.src.udp && m.minFrame && decide (16 + m.len ≤ m.payLen)))

/-- Checks 2 to 4 of 03 R57 on a message: the status of the first that fails. -/
def State.headChecks (s : State) (m : Inbound) : Option Nat :=
  if m.version ≠ 1 then some Status.badOpcode
  else if !lenOk m then some Status.badLength
  else match s.sessOf m.slot m.gen with
    | none => some Status.badSession
    | some _ => none

/-- A message that passes checks 1 to 4 marks its session active and moves its addresses and port to those it came
from (03 R44, R51); one that fails a check before does not count as its activity (log entry 223). -/
def State.heard (s : State) (m : Inbound) : State :=
  match s.sessOf m.slot m.gen with
  | some x => s.setSess m.slot { x with last := s.now, src := m.src, port := m.port }
  | none => s

/-- Check 1 of 03 R57 and the carrier: the message is taken, or discarded and counted in STW_DISCARD. -/
def State.takes (s : State) (m : Inbound) : Bool := s.carrierOn m && decide (16 ≤ m.payLen)

/-- The commands in flight of a session. -/
def Session.inFlight (x : Session) : Nat := (x.tags.filter fun e => e.2.busy).length

/-- The firmware commands queued in a mailbox (03 R59). -/
def Stw.queued (w : Stw) (mb : Nat) : List Flight :=
  w.flights.filter fun f => decide (f.stage = .queued) && decide (f.mb = mb)

/-- The hint of a full queue (03 R60, REASON 1): commands ahead times the mean service time of the last 256, between
50 and 1,000,000. Before any command has been served there is no mean, and the hint is a free value between the
limits (log entry 20). -/
def State.retryHint (s : State) (mb : Nat) : Nat :=
  let h := tget [] s.stw.svc mb
  if h.isEmpty then 50 + s.draw 10 999951
  else clamp 50 1000000 ((s.stw.queued mb).length * h.foldl (· + ·) 0 / h.length)

/-- Check 10 of 03 R57 for a firmware command: REASON and RETRY_US of the BUSY it draws (R59, R60). -/
def State.busyWith (s : State) (mb : Nat) : Option (Nat × Nat) :=
  if s.pow.phase < 4 ∧ s.pow.booted = true then some (0, (100 * ms - s.now) / us)
  else if !s.fwRuns then some (2, 0xFFFFFFFF)
  else if 256 ≤ (s.stw.queued mb).length then some (1, s.retryHint mb)
  else none

/-- The operand of a BUSY response (03 R60). -/
def State.busyOperand (s : State) (reason retry : Nat) : List Byte := be 4 retry ++ be 1 reason ++ s.open8s 920 3

/-- Checks 5 to 7 of 03 R57, in order: duplicate, tag in use, no credit. A duplicate of a command in flight is
answered PENDING with REPLAY, which goes at the head of the queue (18 R414), one of an answered command its recorded STATUS with REPLAY and FINAL (R55). -/
def State.tagChecks (s : State) (m : Inbound) (opcode : Nat) (x : Session) : Option State :=
  match tget? x.tags m.tag with
  | some r =>
    if r.seq = m.seq then
      some (if r.busy then s.reply m false opcode 5 Status.pending m.slot m.gen [] true
        else s.reply m false opcode 7 r.status m.slot m.gen [])
    else if r.busy then some (s.reject m false opcode Status.tagInUse [])
    else if x.grant ≤ x.inFlight then some (s.reject m false opcode Status.noCredit [])
    else none
  | none => if x.grant ≤ x.inFlight then some (s.reject m false opcode Status.noCredit []) else none

/-- The command taken into flight (03 R54, R55): it holds a credit, and its tag is busy under its SEQUENCE. -/
def State.enter (s : State) (m : Inbound) (opcode : Nat) (x : Session) (st : Stage) : State × Flight :=
  let f : Flight :=
    { ref := s.stw.nextRef, slot := m.slot, gen := m.gen, tag := m.tag, seq := m.seq, mb := m.mb, opcode := opcode,
      time := s.now, src := m.src, port := m.port, operand := m.operand, pend := false, stage := st }
  let x := { x with tags := tset x.tags m.tag { seq := m.seq, status := 0, busy := true } }
  let w : Stw := { s.stw with
    sess := tset s.stw.sess m.slot x
    flights := s.stw.flights ++ [f]
    nextRef := s.stw.nextRef + 1 }
  ({ s with stw := w }, f)

/-- A COMMAND message through the acceptance order of 03 R57. `need` is the rights it needs (R62). Answers the state,
and the command if it was accepted. -/
def State.accept (s : State) (m : Inbound) (opcode need : Nat) (direct : Bool) (st : Stage) : State × Option Flight :=
  let m := cleanTag m
  if !s.reaches m then (s.strayFrame m, none)
  else if !s.takes m then (s.bump F.stwDiscard, none)
  else match s.headChecks m with
    | some e => (s.reject m false opcode e [], none)
    | none =>
      let s := s.heard m
      match s.sessOf m.slot m.gen with
      | none => (s, none)
      | some x =>
        match s.tagChecks m opcode x with
        | some s' => (s', none)
        | none =>
          if x.rights &&& need ≠ need then (s.reject m false opcode Status.notPermitted [], none)
          else if direct then
            let r := s.enter m opcode x st
            (r.1, some r.2)
          else match s.busyWith m.mb with
            | some (why, retry) => (s.reject m false opcode Status.busy (s.busyOperand why retry), none)
            | none =>
              let r := s.enter m opcode x st
              (r.1, some r.2)

/-- A firmware command arrives: through the acceptance order into its mailbox queue (03 R57, R59). -/
def State.arriveFw (s : State) (m : Inbound) (opcode need : Nat) : State := (s.accept m opcode need false .queued).1

/-- The rights of 03 R62, by bit. -/
def Right.admin : Nat := 0x80
def Right.key : Nat := 0x40
def Right.cluster : Nat := 0x20
def Right.write : Nat := 0x10
def Right.operate : Nat := 0x08
def Right.capture : Nat := 0x04
def Right.diag : Nat := 0x02
def Right.read : Nat := 0x01

/-! ## Sessions (03 R48 to R53, R62) -/

/-- The idle time after which a session closes (03 R51; a value of 0 is taken as 1). -/
def State.idleNs (s : State) : Nat := max 1 (s.reg F.stwSessionIdleS) * sec

/-- The credits that no open or closing session holds (03 R53, STW_CREDIT.FREE). -/
def Stw.freeCredits (w : Stw) : Nat :=
  4096 - (w.sess.foldl (fun n e => n + e.2.grant) 0 + w.closing.foldl (fun n c => n + c.grant) 0)

/-- Whether the source of an OPEN matches an access table entry (03 R62, STW_ACLn); a PREFIX beyond the address's bits is all of them
(log entry 225). -/
def State.aclMatch (s : State) (n : Nat) (a : Addr) : Bool :=
  let w0 := s.reg F.stwAclAddr0 n
  let w1 := s.reg F.stwAclAddr1 n
  let w2 := s.reg F.stwAclAddr2 n
  let w3 := s.reg F.stwAclAddr3 n
  let pre := s.reg F.stwAclCtlPrefix n
  match s.reg F.stwAclCtlMatch n with
  | 1 => decide (a.mac = w0 * 2 ^ 16 + w1 / 2 ^ 16)
  | 2 => a.udp && !a.v6 && decide (a.ip / 2 ^ (32 - min pre 32) = w0 / 2 ^ (32 - min pre 32))
  | 3 =>
    let w := ((w0 * 2 ^ 32 + w1) * 2 ^ 32 + w2) * 2 ^ 32 + w3
    a.udp && a.v6 && decide (a.ip / 2 ^ (128 - min pre 128) = w / 2 ^ (128 - min pre 128))
  | _ => false

/-- The RIGHTS an OPEN receives: the lowest-numbered enabled entry that matches, all rights while every entry is
disabled, none otherwise (03 R62). -/
def State.aclRights (s : State) (a : Addr) : Option Nat :=
  if (List.range 16).all fun n => decide (s.reg F.stwAclCtlMatch n = 0) then some 0xFF
  else (firstBelow 16 fun n => s.aclMatch n a).map fun n => s.reg F.stwAclCtlRights n

/-- Microseconds until the next session expires, all ones when there is none (03 R60, REASON 3). Every open session counts as idle
(log entry 224). -/
def State.expiryHint (s : State) : Nat :=
  s.stw.sess.foldl (fun h e => min h ((e.2.last + s.idleNs - s.now) / us)) 0xFFFFFFFF

/-- The next generation: 1 to 0xFFF, never 0 (03 R50). -/
def nextGen (g : Nat) : Nat := g % 0xFFF + 1

/-- A session at its opening (03 R49). The first event and record sequences are not stated: free values (log
entry 20). A session without READ subscribes to nothing (R62). -/
def State.newSession (s : State) (m : Inbound) (grant rights : Nat) : Session :=
  { gen := nextGen s.stw.genCtr, maxmsg := min (beAt m.operand 0 2) 8208, grant := grant, rights := rights,
    groups := if bit rights 0 then beAt m.operand 4 2 else 0, kinds := if bit rights 0 then octet m.operand 6 % 8 else 0,
    src := m.src, port := m.port, last := s.now, evSeq := s.draw 1 (2 ^ 32), events := [], evLost := 0,
    recSeq := s.draw 2 (2 ^ 32), recs := [], recLost := 0, recWhy := 0, tags := [], latElapsed := 0, latCluster := 0,
    latRx := 0, latRxc := 0 }

/-- SESSION OPEN (03 R48, R49, R53, R62): tested for BAD_LENGTH, NOT_PERMITTED and BUSY in this order, and only a granted one advances
the generation (log entry 223). -/
def State.openSession (s : State) (m : Inbound) : State :=
  let want := beAt m.operand 0 2
  let credits := beAt m.operand 2 2
  if m.operand.length ≠ 8 ∨ want < 256 ∨ credits = 0 ∨ 4096 < credits then s.reject m true 1 Status.badLength []
  else match s.aclRights m.src with
    | none => s.reject m true 1 Status.notPermitted []
    | some rights =>
      let grant := min credits s.stw.freeCredits
      match firstBelow 16 fun k => (tget? s.stw.sess k).isNone with
      | some k =>
        if grant = 0 then s.reject m true 1 Status.busy (s.busyOperand 3 s.expiryHint)
        else
          let x := s.newSession m grant rights
          let s := { s with stw := { s.stw with sess := tset s.stw.sess k x, genCtr := x.gen } }
          s.reply m true 1 6 Status.ok k x.gen
            (be 2 x.maxmsg ++ be 2 x.grant ++ be 1 x.rights ++ s.open8s 930 3 ++ be 4 x.evSeq ++ be 4 x.recSeq)
      | none => s.reject m true 1 Status.busy (s.busyOperand 3 s.expiryHint)

/-- A session ends (03 R48, R51, R53, R67; 04 R87): its captures end, its holds on records are released, and its
grant stays with its commands in flight. -/
def State.closeSession (s : State) (k : Nat) (x : Session) : State :=
  let busy := s.stw.flights.any fun f => decide (f.slot = k) && decide (f.gen = x.gen)
  let w : Stw := { s.stw with
    sess := tdel s.stw.sess k
    closing := if busy then s.stw.closing ++ [{ slot := k, gen := x.gen, grant := x.grant }] else s.stw.closing }
  { s with
    stw := w.sweep
    caps := s.caps.filter fun c => !(decide (c.slot = k) && decide (c.gen = x.gen)) }

/-- Checks of a SESSION message other than OPEN (03 R57), then what it does. -/
def State.sessionMsg (s : State) (m : Inbound) (opcode : Nat) (f : State → Session → State) : State :=
  if !s.reaches m then s.strayFrame m
  else if !s.takes m then s.bump F.stwDiscard
  else match s.headChecks m with
    | some e => s.reject m true opcode e []
    | none =>
      let s := s.heard m
      match s.sessOf m.slot m.gen with
      | some x => f s x
      | none => s

/-- SESSION_OPEN (03 R48): checks 1 to 3 of R57, then the opening; OPEN is the one exception to check 4 (R50). -/
def execSessionOpen (t : Nat) (m : Inbound) (s : State) : Host.Outcome State Fault Refusal :=
  whenOn t (fun s =>
    if !s.reaches m then s.strayFrame m
    else if !s.takes m then s.bump F.stwDiscard
    else if m.version ≠ 1 then s.reject m true 1 Status.badOpcode []
    else if !lenOk m then s.reject m true 1 Status.badLength []
    else s.openSession m) s

/-- SESSION_CLOSE (03 R48): answered, then ended; its commands in flight run on without replies. -/
def execSessionClose (t : Nat) (m : Inbound) (s : State) : Host.Outcome State Fault Refusal :=
  whenOn t (fun s => s.sessionMsg m 2 fun s x =>
    (s.reject m true 2 Status.ok []).closeSession m.slot x) s

/-- SESSION_KEEPALIVE (03 R48): it does nothing but mark the session active. -/
def execSessionKeepalive (t : Nat) (m : Inbound) (s : State) : Host.Outcome State Fault Refusal :=
  whenOn t (fun s => s.sessionMsg m 3 fun s _ => s.reject m true 3 Status.ok []) s

/-- A sequence is covered by UPTO, modulo 2^32 within a window of 2^31 (03 R68). -/
def covered (upto seq : Nat) : Bool := decide ((upto + 2 ^ 32 - seq % 2 ^ 32) % 2 ^ 32 < 2 ^ 31)

/-- What an ACK acknowledges (03 R64, R67, R68). -/
def State.acknowledge (s : State) (k : Nat) (x : Session) (stream upto : Nat) : State :=
  if stream = 0 then
    ((s.setSess k { x with events := x.events.filter fun e => !covered upto e.seq }).eventsLost k).recordsLost k
  else
    let s := s.setSess k { x with recs := x.recs.filter fun r => !covered upto r.seq }
    ({ s with stw := s.stw.sweep }).recordsLost k

/-- ACK_MESSAGE (03 R57, R68): never answered; one that fails check 2, 3 or 4 is discarded and counted. -/
def execAckMessage (t : Nat) (m : Inbound) (s : State) : Host.Outcome State Fault Refusal :=
  whenOn t (fun s =>
    if !s.reaches m then s.strayFrame m
    else if !s.takes m then s.bump F.stwDiscard
    else match s.headChecks m with
      | some _ => s.bump F.stwDiscard
      | none =>
        let s := s.heard m
        match s.sessOf m.slot m.gen with
        | some x =>
          if m.operand.length = 8 ∧ octet m.operand 0 ≤ 1 then
            s.acknowledge m.slot x (octet m.operand 0) (beAt m.operand 4 4)
          else s
        | none => s) s

/-- SESSION_IDLE_EXPIRY (03 R51): a session silent for IDLE_S seconds is closed as though it had sent CLOSE. -/
def execSessionIdleExpiry (t : Nat) (slot : Nat) (s : State) : Host.Outcome State Fault Refusal :=
  whenOn t (fun s =>
    match tget? s.stw.sess slot with
    | some x => if x.last + s.idleNs ≤ s.now then s.closeSession slot x else s
    | none => s) s

/-- PENDING_TIMEOUT (03 R61): a firmware command with no final response 5 ms after it arrived is sent one PENDING,
FINAL clear and DIRECT set; it keeps its credit. -/
def execPendingTimeout (t : Nat) (slot tag : Nat) (s : State) : Host.Outcome State Fault Refusal :=
  whenOn t (fun s =>
    match s.stw.flights.find? (fun f => decide (f.slot = slot) && decide (f.tag = tag) && !f.pend &&
        decide (0x300 ≤ f.opcode) && decide (f.time + 5 * ms ≤ s.now)) with
    | some f => (s.sendPending f 4).setFlight { f with pend := true }
    | none => s) s

/-- EVENT_RESEND (03 R64): an unacknowledged event is resent 100 ms after it was sent, at most 8 times, and 100 ms
after the eighth it is released and counted as dropped. Resends are made only while a port is up. -/
def execEventResend (t : Nat) (slot seq : Nat) (s : State) : Host.Outcome State Fault Refusal :=
  whenOn t (fun s =>
    match tget? s.stw.sess slot with
    | none => s
    | some x =>
      match x.events.find? (fun e => decide (e.seq = seq) && e.sent && decide (e.time + 100 * ms ≤ s.now)) with
      | none => s
      | some e =>
        if !s.anyUp then s
        else if e.resends < 8 then
          let e' := { e with time := s.now, resends := e.resends + 1 }
          (s.setSess slot { x with events := x.events.map fun y => if y.seq = seq then e' else y }).sendEvent slot x e'
        else
          let x' := { x with
            events := x.events.filter (fun y => decide (y.seq ≠ seq))
            evLost := x.evLost + 1 }
          (s.setSess slot x').eventsLost slot) s

/-- RECORD_RESEND (03 R67): a record not acknowledged 20 ms after it was sent is resent. -/
def execRecordResend (t : Nat) (slot seq : Nat) (s : State) : Host.Outcome State Fault Refusal :=
  whenOn t (fun s =>
    match tget? s.stw.sess slot with
    | none => s
    | some x =>
      match x.recs.find? (fun r => decide (r.seq = seq) && decide (r.time + 20 * ms ≤ s.now)) with
      | none => s
      | some r =>
        match s.stw.area.find? (fun a => decide (a.id = r.id)) with
        | none => s
        | some a =>
          if !s.anyUp then s
          else
            let r' := { r with time := s.now }
            (s.setSess slot { x with recs := x.recs.map fun y => if y.seq = seq then r' else y }).sendRecord slot x r'
              a.body) s

/-- Check 8 of 03 R57: the commands the families define (04 R74, R79, R85). -/
def definedCommand (opcode : Nat) : Bool :=
  let last := match opcode / 256 with
    | 1 => 4
    | 2 => 3
    | 3 => 6
    | 4 => 6
    | 5 => 3
    | 6 => 5
    | 7 => 5
    | 8 => 2
    | 9 => 3
    | _ => 0
  decide (1 ≤ opcode % 256) && decide (opcode % 256 ≤ last)

/-- The operations of SESSION (03 R48). -/
def definedSession (opcode : Nat) : Bool := decide (1 ≤ opcode) && decide (opcode ≤ 3)

/-- UNDEFINED_COMMAND (03 R57 checks 2 and 8): a COMMAND whose version, family or command is not defined, or a SESSION
message whose operation is not one of R48, is answered with BAD_OPCODE; the earlier checks come first. A message of
VERSION 1 with a defined opcode is another row's. -/
def execUndefinedCommand (t : Nat) (m : Inbound) (session : Bool) (opcode : Nat) (s : State) :
    Host.Outcome State Fault Refusal :=
  whenOn t (fun s =>
    let m := cleanTag m
    if m.version = 1 ∧ (if session then definedSession opcode else definedCommand opcode) = true then s
    else if session then s.sessionMsg m opcode fun s _ => s.reject m true opcode Status.badOpcode []
    else if !s.reaches m then s.strayFrame m
    else if !s.takes m then s.bump F.stwDiscard
    else match s.headChecks m with
      | some e => s.reject m false opcode e []
      | none =>
        let s := s.heard m
        match s.sessOf m.slot m.gen with
        | none => s
        | some x =>
          match s.tagChecks m opcode x with
          | some s' => s'
          | none => s.reject m false opcode Status.badOpcode []) s

/-! ## Classification of arriving frames (18 R409, R410, R413) -/

/-- The destinations a port takes (18 R413, order 1). -/
def State.takesMac (s : State) (f : EthFrame) : Bool :=
  decide (f.dst = s.macOf f.port) ||
  (decide (f.dst = 0xFFFFFFFFFFFF) && decide (f.what = .arp)) ||
  decide (f.dst = s.reg F.seaMcastHi * 2 ^ 32 + s.reg F.seaMcastLo) ||
  (s.flag F.seaXportUdpEn && decide (f.dst = 0x01005E000000 + s.reg F.seaMcastV4 % 2 ^ 23)) ||
  (decide (s.ipv6 f.port ≠ 0) && decide (f.dst = 0x3333FF000000 + s.ipv6 f.port % 2 ^ 24))

/-- How an arriving frame ends (18 R413, 03 R43, R57 check 1). -/
inductive Fate
  | silent | rxdrop | stwDiscard | taken
  deriving DecidableEq, Repr

/-- A tagged frame, not ARP, whose VID is neither MB_VID nor SEAM_VID while MB_VID is not 0 (18 R413, order 2). -/
def State.strangeVid (s : State) (f : EthFrame) : Bool :=
  decide (f.what ≠ .arp) && s.strangeTag f.vid

/-- The classification of 18 R413, in order. A PFC frame is acted on before it where RX_EN is not 0 (R416). -/
def State.fateOf (s : State) (f : EthFrame) : Fate :=
  if 9216 < f.len then .silent
  else if f.what = .pfc then (if s.reg F.ethPfcRxEn = 0 then .rxdrop else .taken)
  else if !s.takesMac f then .silent
  else if s.strangeVid f then .rxdrop
  else match f.what with
    | .arp | .neighbour => .taken
    | .carrier udp v6 proto n mark cls ip =>
      if s.seamCarrier f.port udp v6 proto ip && decide (mark = 0xE) then .taken
      else if !s.mailProto udp proto || (udp && !s.takesIp f.port v6 none ip) then .rxdrop
      else if !(if udp then s.flag F.stwXportUdpEn else s.flag F.stwXportRawEn) then .stwDiscard
      else if n < 16 ∨ ¬ (cls = 0 ∨ cls = 3 ∨ cls = 6) then .stwDiscard
      else .taken
    | .datagram | .other | .pfc => .rxdrop

/-- ETH_FRAME_DISCARD (18 R413, 03 R43, R57): an arriving frame that fails classification or mailbox check 1 is
discarded, and counted where its row says so. A frame that would be taken is another command's. -/
def execEthFrameDiscard (t : Nat) (f : EthFrame) (s : State) : Host.Outcome State Fault Refusal :=
  whenOn t (fun s =>
    if !(s.ep f.port).up then s
    else match s.fateOf f with
      | .silent | .taken => s
      | .rxdrop => s.bump F.ethEpCntRxdrop f.port
      | .stwDiscard => s.bump F.stwDiscard) s

/-- An answer to an address question (18 R410), to the asker. -/
def State.answerAddress (s : State) (kind : FrameKind) (port mac ip : Nat) (body : List Byte) : State :=
  s.queueFrame port 2 false
    { kind := kind, dst := { mac := mac, udp := false, v6 := decide (kind = .neighbour), ip := ip, uport := 0, tag := none },
      body := body }

/-- ARP_REQUEST (18 R410): a request for the port's IPv4 address is answered; an address of all zeros disables
IPv4. -/
def execArpRequest (t : Nat) (port mac ip target : Nat) (s : State) : Host.Outcome State Fault Refusal :=
  whenOn t (fun s =>
    let own := s.ipv4 port
    if (s.ep port).up ∧ own ≠ 0 ∧ target = own then s.answerAddress .arp port mac ip (arpReply (s.macOf port) own mac ip) else s) s

/-- NEIGHBOUR_SOLICITATION (18 R410): a solicitation for the port's IPv6 address is answered. -/
def execNeighbourSolicitation (t : Nat) (port mac ip target : Nat) (s : State) : Host.Outcome State Fault Refusal :=
  whenOn t (fun s =>
    let own := s.ipv6 port
    if (s.ep port).up ∧ own ≠ 0 ∧ target = own then
      s.answerAddress .neighbour port mac ip (neighbourAdvert (s.macOf port) own ip)
    else s) s

end Sys2Proof.Machine
end

