-- ==== Sys2Proof/Machine/Cipher.lean ====
section
/-!
DEFINITION. Machine/Cipher.lean: keys, provisioning, alarms, frame counters, the scheduler, the host job ring and the
check units (14), with the nonce reservations of 02 R38 and R42.
-/

namespace Sys2Proof.Machine

open Sys2Proof

/-! ## Key records (14 R301, R302) -/

/-- The slot of a handle: its bits [15:0]. -/
def slotOf (handle : Nat) : Nat := handle % 65536

/-- The 40-octet plaintext of a wrapped key, read and checked (14 R302). -/
def keyOfPlain (p : List Byte) : Option KeyRec :=
  let size := octet p 4
  let usage := octet p 5
  let body := p.drop 8
  let host := bit usage 4
  let ok := decide (p.length = 40) && (decide (size = 16) || decide (size = 24) || decide (size = 32)) &&
    decide (usage < 32) && (body.drop size).all (fun b => decide (b = 0)) &&
    (if host then decide (usage % 16 = 0) else decide (usage % 4 ≠ 0) && decide (usage / 4 % 4 ≠ 0))
  if ok then
    some { handle := beAt p 0 4, size := size, usage := usage, bind := beAt p 6 2, key := body.take size }
  else none

/-- A wrapped record unwrapped under the root key. -/
def unwrapKey (root rec : List Byte) : Option KeyRec :=
  match kwUnwrap root rec with
  | some p => keyOfPlain p
  | none => none

/-- The key that a slot holds (14 R301, R306): the one in the cache or, until its first use or the background fill has put it there,
the one that its DRAM copy unwraps to. A record that fails its unwrap leaves the slot empty; DRAM copies that an alarm is still to
clear (R310 step 4) hold none. -/
def State.keyAt (s : State) (slot : Nat) : Option KeyRec :=
  match tget? s.cip.cache slot with
  | some k => some k
  | none =>
    if s.cip.clearDue then none
    else match s.cip.root, tget? s.cip.dram slot with
      | some root, some rec => unwrapKey root rec
      | _, _ => none

/-- The slots that hold a key, with their keys. -/
def State.heldKeys (s : State) : Tab KeyRec :=
  s.cip.cache ++ s.cip.dram.filterMap fun e =>
    if (tget? s.cip.cache e.1).isSome then none else (s.keyAt e.1).map fun k => (e.1, k)

/-- A key used: its first use puts it in the cache (14 R306). -/
def Cip.used (c : Cip) : Option KeyRec → Cip
  | some k => if k.handle = 0 then c else { c with cache := tset c.cache (slotOf k.handle) k }
  | none => c

/-- The key held under a handle. -/
def State.keyFor (s : State) (handle : Nat) : Option KeyRec :=
  match s.keyAt (slotOf handle) with
  | some k => if k.handle = handle then some k else none
  | none => none

/-! ## Frame counters and reservations (02 R42, 14 R318, R319) -/

/-- The next frame counter of a slot. -/
def State.counter (s : State) (slot : Nat) : Nat := tget 0 s.cip.ctr slot

/-- A key is exhausted once its counter has passed 0xFFFF_FFFE (14 R319). -/
def State.exhausted (s : State) (slot : Nat) : Bool := decide (0xFFFFFFFE < s.counter slot)

/-- The durable reservation that bounds the counters a slot's key may use; none before its first (02 R42, R303). -/
def State.bound (s : State) (slot : Nat) : Nat :=
  if s.lin.noRes.contains slot then 0 else tget 0 s.lin.nonces slot

/-- The reservation one block beyond a counter's block (02 R42; 14 R319: beyond the last block it is all ones). -/
def blockAfter (c : Nat) : Nat := min ((c / 65536 + 1) * 65536) 0xFFFFFFFF

/-- A nonce record for the slot is being written. -/
def State.nonceDue (s : State) (slot : Nat) : Bool :=
  s.lin.writes.any fun w => match w.what with
    | .nonce k _ => decide (k = slot)
    | _ => false

/-- A reservation written for a slot, unless one is already being written. -/
def State.reserveTo (s : State) (slot val : Nat) : State :=
  if s.nonceDue slot then s else s.linWrite (.nonce slot val)

/-- What a send under a key finds: nothing to use, a reservation to wait for, or a counter value taken. -/
inductive Nonce
  | none
  | wait
  | got (fc : Nat)
  deriving DecidableEq, Repr

/-- The scheduler takes a slot's counter (14 R318): at or above the durable reservation the job waits for the
reservation's write; passing the midpoint of the last reserved block writes the next reservation (02 R42). -/
def State.takeCounter (s : State) (slot : Nat) : State × Nonce :=
  let c := s.counter slot
  if s.exhausted slot then (s, .none)
  else if s.bound slot ≤ c then (s.reserveTo slot (blockAfter c), .wait)
  else
    let s' := { s with cip := { s.cip with ctr := tset s.cip.ctr slot (c + 1) } }
    let b := s.bound slot
    (if b - 32768 < c + 1 ∧ b ≠ 0xFFFFFFFF then s'.reserveTo slot (blockAfter b) else s', .got c)

/-! ## Secured frames (14 R315 to R321) -/

/-- The MIC octets of a security level (14 R316), 0 where the level is not supported. -/
def micLen (level : Nat) : Nat :=
  match level with
  | 1 | 5 => 4
  | 2 | 6 => 8
  | 3 | 7 => 16
  | _ => 0

/-- SEC_LEVEL as a downlink takes it: 0, 4 or above 7 is taken as 5 (14 R316). -/
def secLevel (v : Nat) : Nat := if v = 0 ∨ v = 4 ∨ 7 < v then 5 else v

/-- The 13-octet nonce of a frame (14 R317). -/
def frameNonce (ext fc level : Nat) : List Byte := be 8 ext ++ be 4 fc ++ be 1 level

/-- The auxiliary header (14 R315): FC and SLOT least significant octet first on the air, most significant first on
the line. -/
def auxHeader (air : Bool) (level fc slot : Nat) : List Byte :=
  be 1 level ++ (if air then le 4 fc ++ le 2 slot else be 4 fc ++ be 2 slot)

/-- The auxiliary header at the start of octets: LEVEL, FC and SLOT. -/
def auxOf (air : Bool) (l : List Byte) : Nat × Nat × Nat :=
  (octet l 0 % 8, if air then ofLe (cut l 1 4) else beAt l 1 4, if air then ofLe (cut l 5 2) else beAt l 5 2)

/-- The key that decrypts a received secured frame, if the conditions of 14 R320 hold: `sec` the octets from the
auxiliary header on, `ext` the sender's extended address if it is known, `short` its short address. -/
def State.openKey (s : State) (air : Bool) (sec : List Byte) (ext : Option Nat) (short : Nat) : Option (KeyRec × Nat) :=
  let (level, _, slot) := auxOf air sec
  match s.keyAt slot, ext with
  | some k, some e =>
    if 7 ≤ sec.length ∧ micLen level ≠ 0 ∧ micLen level ≤ sec.length - 7 ∧ bit k.usage 1 = true ∧
        bit k.usage (if air then 3 else 2) = true ∧ (k.bind = short ∨ k.bind = 0xFFFF) ∧ s.cip.erasing = false then
      some (k, e)
    else none
  | _, _ => none

/-! ## Alarms (14 R309 to R314) -/

/-- Every job in progress that uses a key completes with KEY_ERASED (14 R311). -/
def eraseJobs (js : List Job) : List Job := js.map fun j => if j.bad = 0 then { j with bad := 2 } else j

/-- A lining record that an alarm overtakes (14 R310, R311): one that would store a key or a root key. -/
def LinRec.erased : LinRec → Bool
  | .key _ (some _) _ | .cells _ => true
  | _ => false

/-- The overtaken records gone, and the commands that wait for them completed with KEY_ERASED (log entry 162). -/
def State.dropErased (s : State) : State :=
  (s.lin.writes.filter fun w => w.what.erased).foldl (fun s w => match w.ref with
    | some ref => s.finishRef ref Status.keyErased []
    | none => s) { s with lin := { s.lin with writes := s.lin.writes.filter fun w => !w.what.erased } }

/-- An alarm (14 R310): steps 1 to 3. The cache and the root key are cleared, the secure cells cleared and marked; the
fault log entry and the ALARM event follow; step 4 is ALARM_WRAPPED_KEY_CLEAR. `stays`: the condition is present
until its cause is removed. -/
def State.alarm (s : State) (source detail : Nat) (stays : Bool) : State :=
  let held := s.heldKeys
  let c : Cip := { s.cip with
    root := none
    gone := s.cip.gone ++ held.map (fun e => e.2.handle)
    cache := []
    erasing := true
    clearDue := true
    lastSource := source
    present := if stays && !s.cip.present.contains source then s.cip.present ++ [source] else s.cip.present
    jobs := eraseJobs s.cip.jobs }
  let s := { s with
    cip := c
    lin := { s.lin with cells := { root := none, rootId := 0, station := 0xFFFF, mark := true } } }
  let s := s.bump F.cipCntAlarm
  let idx := s.logIndex
  let s := (s.logFault 0x70 0x40 0 1 10 255 0 0 0).bump F.fauCntUnmasked
  (s.raise 0x301 0x40 0 (be 1 source ++ be 1 detail ++ be 2 (min held.length 0xFFFF) ++ be 4 idx)).dropErased

/-- TAMPER_MESH_OPEN (14 R309, SOURCE 1), while MESH_EN is 1. -/
def execTamperMeshOpen (t : Nat) (s : State) : Host.Outcome State Fault Refusal :=
  whenOn t (fun s => if s.flag F.cipAlarmCfgMeshEn then s.alarm 1 0 true else s) s

/-- The supplies' windows in microvolts, in the order in which 14 R314 numbers them, and their nominal values (19 R422). -/
def supplyWindows : List (Nat × Nat) :=
  [(620000, 900000), (1140000, 1260000), (1710000, 1890000), (3135000, 3465000), (1045000, 1155000)]
def supplyNominal : List Nat := [750000, 1200000, 1800000, 3300000, 1100000]

/-- The latest voltage of a supply. -/
def State.volts (s : State) (n : Nat) : Nat := tget (supplyNominal.getD n 0) s.pow.volts n

/-- A voltage of a supply lies below its window, or above it. -/
def supplyLow (n uv : Nat) : Bool := decide (uv < (supplyWindows.getD n (0, 0)).1)
def supplyHigh (n uv : Nat) : Bool := decide ((supplyWindows.getD n (0, 0)).2 < uv)

/-- A supply is outside its window. -/
def State.supplyOut (s : State) (n : Nat) : Bool := supplyLow n (s.volts n) || supplyHigh n (s.volts n)

/-- A reading of a supply is an alarm (02 R22; 19 R422, R426, R427): it has risen above its window, or left it while PORST_N is high. -/
def State.supplyAlarms (s : State) (n uv : Nat) : Bool :=
  (supplyHigh n uv && !supplyHigh n (s.volts n)) || (supplyLow n uv && !s.supplyOut n && s.pow.porstHigh)

/-- A supply inside its window again: its alarm condition has ended. -/
def State.supplyBack (s : State) (n : Nat) : State :=
  let l := s.cip.supplies.filter fun x => decide (x ≠ n)
  { s with cip := { s.cip with
    supplies := l
    present := if l.isEmpty then s.cip.present.filter fun x => decide (x ≠ 2) else s.cip.present } }

/-- A supply's voltage, once it counts. -/
def State.supplyAt (s : State) (n uv : Nat) : State :=
  let u : State := { s with pow := { s.pow with volts := tset s.pow.volts n uv } }
  if s.supplyAlarms n uv then
    let u := u.alarm 2 n true
    { u with cip := { u.cip with supplies := n :: u.cip.supplies.filter fun x => decide (x ≠ n) } }
  else if u.supplyOut n then u
  else u.supplyBack n

/-- SUPPLY_ALARM (02 R22; 14 R309, SOURCE 2; 19 R422, R423, R426, R427): a supply is at a voltage, outside its window only once it has
been there for 200 ns. It raises the alarm if it has risen above its window, or left it while PORST_N is high; below it with PORST_N
low, or since before PORST_N rose, it raises nothing; nor does one inside its window. -/
def execSupplyAlarm (t supply : Nat) (reading : SupplyReading) (s : State) : Host.Outcome State Fault Refusal :=
  .next (let out := supplyLow supply reading.uv || supplyHigh supply reading.uv
    if 5 ≤ supply ∨ (out = true ∧ reading.ns < 200) then s
    else if s.pow.on || s.supplyAlarms supply reading.uv then (s.tick t).supplyAt supply reading.uv
    else s.supplyAt supply reading.uv)

/-- TEMPERATURE_ALARM (14 R309, SOURCE 3; 19 R432): the die is below -50 or above +135 degrees Celsius. -/
def execTemperatureAlarm (t : Nat) (celsius : Int) (s : State) : Host.Outcome State Fault Refusal :=
  whenOn t (fun s => if celsius < -50 ∨ 135 < celsius then s.alarm 3 0 true else s) s

/-- LINING_TAMPER_CHECK (14 R309, SOURCE 4): the hourly check of the secure cells' integrity seal. -/
def execLiningTamperCheck (t : Nat) (sealOk : Bool) (s : State) : Host.Outcome State Fault Refusal :=
  whenOn t (fun s => if sealOk then s else s.alarm 4 0 false) s

/-- The wrapped-key area and the DRAM copies cleared (14 R310 step 4). -/
def State.clearWrapped (s : State) : State :=
  { s with
    cip := { s.cip with dram := [], clearDue := false }
    lin := { s.lin with keys := [], noRes := [] } }

/-- ALARM_WRAPPED_KEY_CLEAR (14 R310 step 4), after an alarm. -/
def execAlarmWrappedKeyClear (t : Nat) (s : State) : Host.Outcome State Fault Refusal :=
  whenOn t (fun s => if s.cip.clearDue then s.clearWrapped else s) s

/-- ALARM_CAUSE_REMOVED (14 R312): an alarm condition ends, for the supplies that of every one in alarm, which is at its nominal value
from then on; with the last one ALARM_ACTIVE falls to 0. -/
def execAlarmCauseRemoved (t source : Nat) (s : State) : Host.Outcome State Fault Refusal :=
  .next (let s := s.tick t
    { s with cip := { s.cip with
      present := s.cip.present.filter fun x => decide (x ≠ source)
      supplies := if source = 2 then [] else s.cip.supplies }
             pow := { s.pow with volts := if source = 2 then s.pow.volts.filter fun e => !s.cip.supplies.contains e.1
                                          else s.pow.volts } })

/-- ALARM_N is driven low: the keys are erased, or an alarm condition is present (14 R312); outside normal running only for a
supply alarm whose condition lasts; and never while VIO, supply 2, is outside its window, with an alarm or without (19 R426). -/
def State.alarmPinLow (s : State) : Bool :=
  !s.supplyOut 2 &&
    (if s.pow.on then s.lin.cells.mark || !s.cip.present.isEmpty else s.cip.present.contains 2)

/-! ## The KEY family (14 R303 to R308, R313), served by the steward -/

/-- KEY DELETE (14 R304): the slot's reservation and the device floor are kept. -/
def State.serveKeyDelete (s : State) (f : Flight) : State :=
  if f.operand.length ≠ 4 then s.finish f false Status.badLength []
  else
    let handle := beAt f.operand 0 4
    match s.keyFor handle with
    | none => s.finish f false Status.badAddress []
    | some _ =>
      let slot := slotOf handle
      let s := { s with cip := { s.cip with cache := tdel s.cip.cache slot, dram := tdel s.cip.dram slot } }
      (s.linWrite (.key slot none false)).finish f false Status.ok []

/-- STATE of KEY STATUS (14 R305). -/
def State.keyState (s : State) (handle : Nat) : Nat :=
  match s.keyFor handle with
  | some _ => if s.exhausted (slotOf handle) then 3 else 1
  | none => if s.cip.gone.contains handle && (s.keyAt (slotOf handle)).isNone then 2 else 0

/-- KEY STATUS (14 R305). -/
def State.serveKeyStatus (s : State) (f : Flight) : State :=
  if f.operand.length ≠ 4 then s.finish f false Status.badLength []
  else
    let handle := beAt f.operand 0 4
    let st := s.keyState handle
    let slot := slotOf handle
    s.finish f false Status.ok
      (be 4 (if st = 0 then 0 else s.counter slot) ++ be 4 (tget 0 s.lin.nonces slot) ++ be 1 st ++ s.open8s 940 3)

/-- KEY ROOT_PROVISION (14 R308). -/
def State.serveRootProvision (s : State) (f : Flight) : State :=
  if f.operand.length ≠ 52 then s.finish f false Status.badLength []
  else if !s.cip.present.isEmpty then s.finish f false Status.keyErased []
  else match kwUnwrap s.cip.otp (f.operand.drop 4) with
    | none => s.finish f false Status.authFail []
    | some p =>
      if beAt p 0 2 ≠ beAt f.operand 0 2 ∨ beAt p 2 2 ≠ 0 then s.finish f false Status.authFail []
      else match s.cip.root with
        | some r => s.finish f false (if r = p.drop 8 then Status.ok else Status.authFail) []
        | none =>
          let s := { s with cip := { s.cip with root := some (p.drop 8), erasing := false } }
          (s.setFlight { f with stage := .waiting }).linWrite
            (.cells { root := some (p.drop 8), rootId := beAt p 4 4, station := beAt p 0 2, mark := false })
            (some f.ref)

/-- KEY ALARM (14 R309, SOURCE 5): any CONFIRM but 0xA1A4_0000 completes with BAD_OPCODE and raises nothing. -/
def State.serveKeyAlarm (s : State) (f : Flight) : State :=
  if f.operand.length ≠ 4 then s.finish f false Status.badLength []
  else if beAt f.operand 0 4 ≠ 0xA1A40000 then s.finish f false Status.badOpcode []
  else (s.alarm 5 0 false).finish f false Status.ok []

/-- KEY_LOAD arrives (03 R57, R62: KEY right); the steward serves it under 14 R303. -/
def execKeyLoad (t : Nat) (m : Inbound) (s : State) : Host.Outcome State Fault Refusal :=
  whenOn t (fun s => s.arriveFw m 0x601 Right.key) s

/-- KEY_DELETE arrives; the steward serves it under 14 R304. -/
def execKeyDelete (t : Nat) (m : Inbound) (s : State) : Host.Outcome State Fault Refusal :=
  whenOn t (fun s => s.arriveFw m 0x602 Right.key) s

/-- KEY_STATUS arrives; the steward serves it under 14 R305. -/
def execKeyStatus (t : Nat) (m : Inbound) (s : State) : Host.Outcome State Fault Refusal :=
  whenOn t (fun s => s.arriveFw m 0x603 Right.key) s

/-- KEY_ROOT_PROVISION arrives; the steward serves it under 14 R308. -/
def execKeyRootProvision (t : Nat) (m : Inbound) (s : State) : Host.Outcome State Fault Refusal :=
  whenOn t (fun s => s.arriveFw m 0x604 Right.key) s

/-- KEY_ALARM arrives; the steward serves it under 14 R309. -/
def execKeyAlarm (t : Nat) (m : Inbound) (s : State) : Host.Outcome State Fault Refusal :=
  whenOn t (fun s => s.arriveFw m 0x605 Right.key) s

/-! ## Jobs (14 R322 to R326) -/

/-- The fields of a job descriptor (14 R325). -/
def jMode (d : List Byte) : Nat := octet d 0
def jFlags (d : List Byte) : Nat := octet d 1
def jTag (d : List Byte) : Nat := octet d 2
def jQueue (d : List Byte) : Nat := octet d 3
def jHandle (d : List Byte) : Nat := beAt d 4 4
def jSrc (d : List Byte) : Nat := beAt d 8 8
def jDst (d : List Byte) : Nat := beAt d 16 8
def jA (d : List Byte) : Nat := beAt d 24 4
def jM (d : List Byte) : Nat := beAt d 28 4

/-- A field outside its range (14 R325), or a host job that sets NONCE_HW (R328). With NONCE_HW the four octets at AUX_OFS lie in the
copy of A (log entry 214). CCM with a 13-octet nonce carries
its message length in two octets, so a longer message is outside the mode's range (log entry 31). -/
def badJob (d : List Byte) (host : Bool) : Bool :=
  let m := jMode d
  let ccm := decide (m = 2) || decide (m = 3)
  let kw := decide (m = 5) || decide (m = 6)
  decide (d.length ≠ 64) || decide (m = 0) || decide (6 < m) || decide (3 < jQueue d) || decide (65536 < jA d) ||
  decide (16777216 < jM d) || (host && bit (jFlags d) 1) ||
  (ccm && !(decide (jTag d = 0) || decide (jTag d = 4) || decide (jTag d = 8) || decide (jTag d = 16))) ||
  (decide (m = 4) && !(decide (4 ≤ jTag d) && decide (jTag d ≤ 16))) ||
  (!ccm && decide (m ≠ 4) && decide (jTag d ≠ 0)) ||
  (ccm && decide (65535 < jM d)) ||
  (kw && (decide (jM d % 8 ≠ 0) || decide (jM d < 16))) ||
  (bit (jFlags d) 1 && decide (jA d < beAt d 50 2 + 4))

/-- How many octets a job reads at SRC and writes at DST. -/
def jobReads (d : List Byte) : Nat := jA d + jM d + (if bit (jFlags d) 0 then jTag d else 0)
def jobWrites (d : List Byte) : Nat :=
  match jMode d with
  | 5 => jA d + jM d + 8
  | 6 => jA d + jM d - 8
  | _ => jA d + jM d + (if bit (jFlags d) 0 then 0 else jTag d)

/-- A range lies in the memory a submitter may use: a host job's in memory that MEM may read and write, another's in
device memory (14 R326, R328). -/
def State.jobRange (s : State) (host : Bool) (a n : Nat) : Bool :=
  (firstBad (fun x => if host then mayRead s.mem x && mayWrite s.mem x else decide (regionOf x ≠ .none)) a n).isNone

/-- The key a job uses: HANDLE 0 names the root key, for firmware jobs only (log entry 32); otherwise the key loaded
under HANDLE whose USAGE allows the job (14 R302, R326, R328). -/
def State.jobKey (s : State) (d : List Byte) (host : Bool) : Option KeyRec :=
  if jHandle d = 0 then
    match s.cip.root with
    | some r => if !host && decide (jQueue d = 2) then
        some { handle := 0, size := 32, usage := 0, bind := 0xFFFF, key := r } else none
    | none => none
  else match s.keyFor (jHandle d) with
    | none => none
    | some k =>
      if host then (if bit k.usage 4 then some k else none)
      else if bit k.usage 4 then none
      else if bit (jFlags d) 0 then (if bit k.usage 1 then some k else none)
      else (if bit k.usage 0 then some k else none)

/-- The status already decided at acceptance, 0 for none (14 R326); a frame's octets (`own`) lie in the device's own memory. -/
def State.jobBad (s : State) (d : List Byte) (host own : Bool) : Nat :=
  if badJob d host then 4
  else if s.cip.erasing then 2
  else match s.jobKey d host with
    | none => 3
    | some k =>
      if !own && !(s.jobRange host (jSrc d) (jobReads d) && s.jobRange host (jDst d) (jobWrites d)) then 5
      else if bit (jFlags d) 1 && s.exhausted (slotOf k.handle) then 7
      else 0

/-- The queue a job is in: a host job is in queue 3 (14 R328), another where its descriptor says. -/
def Job.queue (j : Job) : Nat := if j.ring.isSome then 3 else jQueue j.desc

/-- The jobs outstanding (14 R324): those whose completion is not yet written, among them host jobs whose completion waits for an
earlier one's (R329). -/
def Cip.outstanding (c : Cip) : Nat := c.jobs.length + c.ringDone.length

/-- A place is free for a job (14 R324): 4,096 in all, 512 of them kept for queue 0, 256 at most from the host
ring. -/
def Cip.place (c : Cip) (q : Nat) (host : Bool) : Bool :=
  decide (c.outstanding < 4096) &&
  (decide (q = 0 ∧ host = false) || decide ((c.jobs.filter fun j => decide (j.queue ≠ 0)).length + c.ringDone.length < 3584)) &&
  (!host || decide ((c.jobs.filter fun j => j.ring.isSome).length + c.ringDone.length < 256))

/-- A job that waits for its nonce takes it once the reservation is durable (02 R42, 14 R318). -/
def State.nonceJob (s : State) (j : Job) : State × Job :=
  match j.key with
  | some k =>
    if bit (jFlags j.desc) 1 && decide (j.bad = 0) then
      match s.takeCounter (slotOf k.handle) with
      | (s', .got fc) => (s', { j with nonce := frameNonce s.extAddr fc (octet j.desc 48), stage := .queued })
      | (s', .wait) => (s', { j with stage := .reserve })
      | (s', .none) => (s', { j with bad := 7, stage := .queued })
    else (s, { j with stage := .queued })
  | none => (s, { j with stage := .queued })

/-- A job accepted into its queue (14 R324, R325). The key is the one held at acceptance (R304). With NONCE_HW the IV is ignored: in
the modes that NONCE_HW gives no nonce, what stands in its place is free (log entry 239). -/
def State.submitJob (s : State) (d : List Byte) (ring : Option Nat) (own : Option (List Byte) := none) (use : JobUse := .memory) : State :=
  let host := ring.isSome
  let bad := s.jobBad d host own.isSome
  let nonce := if jMode d = 2 ∨ jMode d = 3 then cut d 32 13 else zeros 13
  let j : Job :=
    { id := s.cip.nextJob, desc := d, ring := ring, own := own, use := use, time := s.now, key := if bad = 0 then s.jobKey d host else none,
      bad := bad, nonce := if bit (jFlags d) 1 then zeros 13 else nonce,
      iv := if bit (jFlags d) 1 then s.open8s (100000 + 16 * s.cip.nextJob) 16 else cut d 32 16, stage := .queued }
  let (s, j) := ({ s with cip := s.cip.used j.key } : State).nonceJob j
  { s with cip := { s.cip with jobs := s.cip.jobs ++ [j], nextJob := s.cip.nextJob + 1 } }

/-- A job of the device's own submitted: it takes a place, or waits for one (14 R324). -/
def State.offerJob (s : State) (w : JobWait) : State :=
  if s.cip.place (jQueue w.desc) false then s.submitJob w.desc none w.own w.use
  else { s with cip := { s.cip with waits := s.cip.waits ++ [w] } }

/-- The jobs that wait take the places that have come free, in order. -/
def State.admitJobs (s : State) : State :=
  let l := s.cip.waits
  l.foldl State.offerJob { s with cip := { s.cip with waits := [] } }

/-- The job that unwraps a wrapped key under the root key: one of queue 2 (14 R324). -/
def unwrapJob (rec : List Byte) (use : JobUse) : JobWait :=
  { desc := be 1 6 ++ zeros 2 ++ be 1 2 ++ zeros 4 ++ be 8 (sramBase .frames) ++ be 8 (sramBase .frames) ++ zeros 4 ++ be 4 rec.length ++ zeros 32, own := some rec, use := use }

/-- KEY LOAD (14 R303): its unwrap is a job; `State.keyLoaded` goes on when that completes. -/
def State.serveKeyLoad (s : State) (f : Flight) : State :=
  if f.operand.length ≠ 52 then s.finish f false Status.badLength []
  else if s.cip.root.isNone then s.finish f false Status.keyErased []
  else
    let handle := beAt f.operand 0 4
    if handle = 0 then s.finish f false Status.badAddress []
    else (s.setFlight { f with stage := .waiting }).offerJob (unwrapJob (f.operand.drop 4) (.unwrap f.ref handle))

/-- A KEY LOAD goes on with what its unwrap gave (14 R303, third check): the key replaces what its slot held, and the lining record is
begun. -/
def State.keyLoaded (s : State) (ref handle : Nat) (wrapped plain : List Byte) : State :=
  match keyOfPlain plain with
  | none => s.finishRef ref Status.authFail []
  | some k =>
    if k.handle ≠ handle then s.finishRef ref Status.authFail []
    else
      let slot := slotOf handle
      let same := decide (s.keyAt slot = some k)
      let c : Cip := { s.cip with
        cache := tset s.cip.cache slot k
        dram := tset s.cip.dram slot wrapped
        ctr := if same then s.cip.ctr else tset s.cip.ctr slot s.lin.floor
        gone := s.cip.gone.filter fun h => decide (slotOf h ≠ slot) }
      ({ s with cip := c } : State).linWrite (.key slot (some wrapped) (!same)) (some ref)

/-- The background fill (14 R306): a job for each DRAM copy. -/
def State.fillCache (s : State) : State :=
  s.cip.dram.foldl (fun s e => s.offerJob (unwrapJob e.2 (.fill e.1))) s

/-- A fill's key put in the cache, unless its slot has been changed since. -/
def State.filled (s : State) (slot : Nat) (wrapped plain : List Byte) : State :=
  if tget? s.cip.dram slot = some wrapped ∧ s.cip.clearDue = false then
    { s with cip := s.cip.used (if (tget? s.cip.cache slot).isNone then keyOfPlain plain else none) }
  else s

/-- CIPHER_JOB_SUBMIT (14 R324, R325): a submitter that finds no place waits for one. -/
def execCipherJobSubmit (t : Nat) (desc : List Byte) (s : State) : Host.Outcome State Fault Refusal :=
  whenOn t (fun s => s.offerJob { desc := desc, own := none, use := .memory }) s

/-! ## The jobs of frames (14 R317, R318, R320) -/

/-- A frame's authenticated data and message as a job takes them (14 R317): at levels 1 to 3 the message is authenticated with the rest
and sent in the clear. -/
def frameParts (level : Nat) (a m : List Byte) : List Byte × List Byte := if level < 4 then (a ++ m, []) else (a, m)

/-- The descriptor of a frame's job (14 R325). Where in the frame buffers its octets lie is not stated: SRC and DST name their
partition (log entry 215). -/
def frameDesc (flags mic queue handle aLen mLen : Nat) (iv : List Byte) (level ofs id : Nat) : List Byte :=
  be 1 3 ++ be 1 flags ++ be 1 mic ++ be 1 queue ++ be 4 handle ++ be 8 (sramBase .frames) ++ be 8 (sramBase .frames) ++ be 4 aLen ++
    be 4 mLen ++ iv ++ zeros 3 ++ be 1 level ++ zeros 1 ++ be 2 ofs ++ be 4 id ++ zeros 8

/-- The job that secures a frame the device sends (14 R318): `a` the authenticated data before the auxiliary header, `p` what follows
it. The scheduler writes the counter into FC. -/
def sealJob (air : Bool) (key level : Nat) (a p : List Byte) (use : JobUse) : JobWait :=
  let q := frameParts level (a ++ auxHeader air level 0 (slotOf key)) p
  let id := match use with
    | .line ref => ref
    | .air id => id
    | _ => 0
  { desc := frameDesc (2 + (if air then 4 else 0)) (micLen level) 0 key q.1.length q.2.length (zeros 13) level (a.length + 1)
      (id % 2 ^ 32), own := some (q.1 ++ q.2), use := use }

/-- A send under a key is refused before it is built (14 R311, R313, R319): KEY_ERASED. KEY 0 sends in the clear. -/
def State.sendBarred (s : State) (air : Bool) (key : Nat) : Bool :=
  if key = 0 then false
  else s.cip.erasing || (match s.keyFor key with
    | none => true
    | some k => !(bit k.usage 0 && bit k.usage (if air then 3 else 2)) || s.exhausted (slotOf key))

/-- The job that decrypts a received frame (14 R320), if its conditions hold: `a0` is the authenticated data before the auxiliary
header, `sec` what follows. -/
def State.openJob (s : State) (air : Bool) (a0 sec : List Byte) (ext : Option Nat) (short : Nat) (use : JobUse) : Option JobWait :=
  match s.openKey air sec ext short with
  | none => none
  | some (k, e) =>
    let (level, fc, _) := auxOf air sec
    let n := sec.length - micLen level
    let q := frameParts level (a0 ++ sec.take 7) ((sec.take n).drop 7)
    some { desc := frameDesc 1 (micLen level) 1 k.handle q.1.length q.2.length (frameNonce e fc level) 0 0 0,
           own := some (q.1 ++ q.2 ++ sec.drop n), use := use }

/-- A record whose FLAGS are decided is delivered (14 R321; CIP_CNT_UNTRUSTED): `p` the payload from the auxiliary header on. -/
def State.deliverRec (s : State) (r : RecvRec) (untrusted : Bool) (p : List Byte) : State :=
  let s := if untrusted then s.bump F.cipCntUntrusted else s
  s.deliver r.kind (recordBody r.kind r.port r.chan (r.flags + b2n untrusted) r.short r.seq r.ext r.epoch r.ns r.margin r.hops (r.head ++ p))

/-- A frame's record: an unsecured frame's is delivered, a secured one's goes to its decryption, or is delivered undecrypted
(14 R320). -/
def State.deliverFrame (s : State) (air sec : Bool) (a0 p : List Byte) (ext : Option Nat) (short : Nat) (r : RecvRec) : State :=
  if !sec then s.deliverRec r false p
  else match s.openJob air a0 p ext short (.record a0.length r) with
    | some w => s.offerJob w
    | none => s.deliverRec r true p

/-- Jobs that wait for a reservation try again (02 R42). -/
def State.retryJobs (s : State) : State :=
  s.cip.jobs.foldl (fun s j =>
    if j.stage = .reserve then
      let (s, j') := s.nonceJob j
      { s with cip := { s.cip with jobs := s.cip.jobs.map fun x => if x.id = j.id then j' else x } }
    else s) s

/-- The queue a job is taken from: one lower once it has waited 1 ms (14 R324, Aging). -/
def State.jobRank (s : State) (j : Job) : Nat :=
  let q := j.queue
  if 1 ≤ q ∧ j.time + ms ≤ s.now then q - 1 else q

/-- The oldest job of the lowest-numbered queue that is not empty. -/
def State.nextJob (s : State) : Option Job :=
  (s.cip.jobs.filter fun j => decide (j.stage = .queued)).foldl (fun best j =>
    match best with
    | none => some j
    | some b => if s.jobRank j < s.jobRank b then some j else some b) none

/-- A core that is in service and free, lowest number first. -/
def Cip.freeCore (c : Cip) : Option Nat :=
  firstBelow 16 fun n => !c.coresOut.contains n && !(c.jobs.any fun j => decide (j.stage = .running n))

/-- CIPHER_JOB_START (14 R324): a free core takes the oldest job of the lowest queue, with aging. -/
def execCipherJobStart (t : Nat) (s : State) : Host.Outcome State Fault Refusal :=
  whenOn t (fun s =>
    match s.cip.freeCore, s.nextJob with
    | some n, some j =>
      let js := s.cip.jobs.map fun x => if x.id = j.id then { x with stage := .running n } else x
      { s with cip := { s.cip with jobs := js } }
    | _, _ => s) s

/-- What a job computes: its output octets, and whether its authentication holds (14 R325). With NONCE_HW the
counter is written into the copy of A (AUX_OFS, AUX_LE) before it is authenticated (R318). -/
def jobOutput (j : Job) (k : KeyRec) (src : List Byte) : List Byte × Bool :=
  let d := j.desc
  let a0 := src.take (jA d)
  let fc := cut j.nonce 8 4
  let ofs := beAt d 50 2
  let a := if bit (jFlags d) 1 then
      a0.take ofs ++ (if bit (jFlags d) 2 then fc.reverse else fc) ++ a0.drop (ofs + 4)
    else a0
  let m := cut src (jA d) (jM d)
  let tag := cut src (jA d + jM d) (jTag d)
  match jMode d with
  | 1 => (a ++ ctrMode (roundKeys (nums k.key)) j.iv m, true)
  | 4 =>
    if bit (jFlags d) 0 then
      let r := gcmOpen k.key (j.iv.take 12) a m tag
      (a ++ r.1, r.2)
    else
      let r := gcmSeal k.key (j.iv.take 12) a m (jTag d)
      (a ++ r.1 ++ r.2, true)
  | 5 => (a ++ kwWrap k.key m, true)
  | 6 =>
    match kwUnwrap k.key m with
    | some p => (a ++ p, true)
    | none => ([], false)
  | _ =>
    if bit (jFlags d) 0 then
      let r := ccmOpen k.key j.nonce a m tag
      (a ++ r.1, r.2)
    else
      let r := ccmSeal k.key j.nonce a m (jTag d)
      (a ++ r.1 ++ r.2, true)

/-- A completion (14 R326). -/
def State.completion (s : State) (j : Job) (core status : Nat) : List Byte :=
  be 1 status ++ be 1 j.queue ++ be 1 core ++ s.open8s 950 1 ++ cut j.desc 52 4 ++
    s.stamp ++ (if jMode j.desc = 2 ∨ jMode j.desc = 3 then j.nonce else zeros 13) ++ s.open8s 951 15

/-- SIZE of the host ring (CIP_HR_CTL.SIZE). -/
def State.ringSize (s : State) : Nat := 2 ^ clamp 4 12 (s.reg F.cipHrCtlSize)

/-- The host ring's addresses. -/
def State.ringJobs (s : State) : Nat := s.reg F.cipHrJobsHi * 2 ^ 32 + s.reg F.cipHrJobsLo
def State.ringDones (s : State) : Nat := s.reg F.cipHrDoneHi * 2 ^ 32 + s.reg F.cipHrDoneLo

/-- Both rings lie whole in memory that MEM may read and write (14 R328). -/
def State.ringsOk (s : State) : Bool :=
  s.jobRange true s.ringJobs (64 * s.ringSize) && s.jobRange true s.ringDones (48 * s.ringSize)

/-- A host completion written at its index: MEM_ERROR if it covers a poisoned codeword only in part (01 R17), and nowhere where its 48
octets leave the memory that MEM may read and write (14 R328; log entry 240). -/
def State.putDone (s : State) (a : Nat) (c : List Byte) : State :=
  if s.jobRange true a 48 then
    let s := s.consumePart 0x40 a 48
    s.put a (if (s.mem.poisonPart a 48).isEmpty then c else 6 :: c.drop 1)
  else s

/-- Host completions written in index order, HEAD advancing past each (14 R329). -/
def State.flushRing (s : State) : Nat → State
  | 0 => s
  | n + 1 =>
    let h := s.reg F.cipHrHeadHead
    match tget? s.cip.ringDone h with
    | none => s
    | some c =>
      let s := s.putDone (s.ringDones + 48 * h) c
      let s := { s with cip := { s.cip with ringDone := tdel s.cip.ringDone h } }
      (s.setReg F.cipHrHeadHead 0 0 ((h + 1) % s.ringSize)).flushRing n

/-- Host descriptors read from the ring while there is room for their jobs (14 R329, R324). -/
def State.readRing (s : State) : Nat → State
  | 0 => s
  | n + 1 =>
    let i := s.cip.ringTaken
    if s.flag F.cipHrCtlEn && decide (i ≠ s.reg F.cipHrTailTail) && s.cip.place 3 true then
      let a := s.ringJobs + 64 * i
      let here := s.jobRange true a 64
      let ok := s.ringsOk
      let d := if here then s.mem.reads a 64 else zeros 64
      let s := if here then s.consume 0x40 a 64 else s
      let s := { s with cip := { s.cip with ringTaken := (i + 1) % s.ringSize } }
      let s' := s.submitJob d (some i)
      let rotten := here && !(s.mem.poisonIn a 64).isEmpty
      let s' := if ok && !rotten then s'
        else { s' with cip := { s'.cip with
          jobs := s'.cip.jobs.map fun j =>
            if j.id = s.cip.nextJob then { j with bad := if ok then 6 else 5, key := none } else j } }
      s'.readRing n
    else s

/-- The output of a decryption that an alarm cut: in each octet of the destination either the received octet or the
plaintext octet (14 R311), which of the two is a free value. -/
def State.mixed (s : State) (src out : List Byte) : List Byte :=
  (out.zip src).zipIdx.map fun ((p, c), i) => if (s.open8 (1000 + i)).toNat % 2 = 0 then c else p

/-- A poisoned word is consumed (01 R17): the codewords a range touches. -/
def State.poisoned (s : State) (a n : Nat) : Bool := !(s.mem.poisonIn a n).isEmpty

/-- The octets a job reads. -/
def State.jobSource (s : State) (j : Job) : List Byte :=
  match j.own with
  | some l => l
  | none => s.mem.reads (jSrc j.desc) (jobReads j.desc)

/-- A job's output, where it has one, and its status (14 R311, R322, R323): a frame's stays with its job, another is written first. A
failed unwrap writes nothing; a failed CCM, CCM* or GCM has written its whole output, and a decryption that an alarm cut a mixed one. -/
def State.runJob (s : State) (j : Job) : State × Nat × List Byte :=
  match j.key with
  | none => (s, j.bad, [])
  | some k =>
    if j.bad ≠ 0 ∧ j.bad ≠ 2 then (s, j.bad, [])
    else
      let src := s.jobSource j
      let s := if j.own.isSome then s else s.consume 0x40 (jSrc j.desc) (jobReads j.desc)
      if j.bad = 2 ∧ bit (jFlags j.desc) 0 = false then (s, 2, [])
      else if j.bad = 0 ∧ j.own.isNone ∧ s.poisoned (jSrc j.desc) (jobReads j.desc) = true then (s, 6, [])
      else
        let r := jobOutput j k src
        let out := if j.bad = 2 then s.mixed src r.1 else r.1
        let st := if j.bad = 2 then 2 else if r.2 then 0 else 1
        if j.own.isSome then (s, st, out)
        else
          let w := s.writeMem 0x40 (jDst j.desc) out
          (w.1, if w.2 ∧ st ≠ 2 then 6 else st, out)

/-- A completion written and its place free (14 R326, R329): a host job's goes to the completion ring in index order; jobs that wait
take the place. -/
def State.completeJob (s : State) (j : Job) (core status : Nat) : State :=
  let c := s.completion j core status
  let done := { s.cip with jobs := s.cip.jobs.filter (fun x => decide (x.id ≠ j.id)), lastDone := c }
  let s := ({ s with cip := done }).bump F.cipCntJobs
  let s := if status = 1 then s.bump F.cipCntAuthfail else s
  let s := match j.ring with
    | none => s
    | some i => ({ s with cip := { s.cip with ringDone := tset s.cip.ringDone i c } } : State).flushRing 4096
  s.admitJobs.readRing 256

/-! ## The host ring (14 R328, R329) -/

/-- The host ring's EN set: TAIL is reset to HEAD and reading begins there. -/
def State.ringEnable (s : State) : State :=
  let h := s.reg F.cipHrHeadHead
  let s := (s.setReg F.cipHrCtlEn 0 0 1).setReg F.cipHrTailTail 0 0 h
  { s with cip := { s.cip with ringTaken := h } }

/-- How far one ring index lies behind another. -/
def State.ringGap (s : State) (a b : Nat) : Nat := (b + s.ringSize - a % s.ringSize) % s.ringSize

/-- A TAIL write would leave more than SIZE - 1 jobs between HEAD and TAIL (14 R329): the jobs up to the old TAIL and those written
since; or it names no index. -/
def State.tailRefused (s : State) (tail : Nat) : Bool :=
  let old := s.reg F.cipHrTailTail
  decide (s.ringSize ≤ tail) || decide (s.ringSize ≤ s.ringGap (s.reg F.cipHrHeadHead) old + s.ringGap old tail)

/-- A TAIL write: the value it already holds has no effect; otherwise the descriptors up to TAIL - 1 are read. -/
def State.ringTail (s : State) (tail : Nat) : State :=
  if tail = s.reg F.cipHrTailTail then s else (s.setReg F.cipHrTailTail 0 0 tail).readRing 256

/-- HOST_RING_ENABLE (14 R329). -/
def execHostRingEnable (t : Nat) (s : State) : Host.Outcome State Fault Refusal :=
  whenOn t (fun s => if s.flag F.cipHrCtlEn then s else s.ringEnable) s

/-- HOST_RING_DISABLE (14 R329): new reads stop; jobs already taken complete. -/
def execHostRingDisable (t : Nat) (s : State) : Host.Outcome State Fault Refusal :=
  whenOn t (fun s => s.setReg F.cipHrCtlEn 0 0 0) s

/-- HOST_RING_DOORBELL (14 R329): a write of CIP_HR_TAIL hands jobs to the scheduler, or is refused. -/
def execHostRingDoorbell (t tail : Nat) (s : State) : Host.Outcome State Fault Refusal :=
  whenOn t (fun s => if s.tailRefused tail then s else s.ringTail tail) s

/-! ## Check units (14 R330 to R332) -/

/-- A check unit is in service. -/
def State.checkUnit (s : State) : Bool := decide (s.cip.unitsOut.length < 8)

/-- A job of the check units completes (CHK_CNT_JOBS), with a value to compare or none (CHK_CNT_MISMATCH). -/
def State.checkDone (s : State) (v : Nat) (want : Option Nat) : State :=
  let s := ({ s with cip := { s.cip with lastCrc := v } }).bump F.chkCntJobs
  match want with
  | some w => if w = v then s else s.bump F.chkCntMismatch
  | none => s

/-- CHECK_JOB (14 R331, R332): a CRC of `data` behind its fold prefix of 0 to 16 octets, on a unit in service; a
value to compare with counts a mismatch. With no unit in service the job waits. -/
def execCheckJob (t poly : Nat) (fold data : List Byte) (want : Option Nat) (s : State) :
    Host.Outcome State Fault Refusal :=
  whenOn t (fun s =>
    if 4 < poly ∨ 16 < fold.length then s
    else if s.checkUnit then s.checkDone (crc poly fold data) want
    else
      let w : CheckWait := { poly := poly, fold := fold, data := data, want := want }
      { s with cip := { s.cip with checks := s.cip.checks ++ [w] } }) s

end Sys2Proof.Machine
end

