-- ==== Sys2Proof/Machine/Mains.lean ====
section
/-!
DEFINITION. Machine/Mains.lean: the mains tracker and the pleat timer (05): crossings, phase states, anchors and
pleat starts. PLEAT_START itself, with the noise census, is Machine/LineMap.lean's.
-/

namespace Sys2Proof.Machine

open Sys2Proof

/-! ## Phases (05 R100 to R103) -/

/-- The nominal period of MNS_CTL.NOMINAL (05 R101). -/
def State.nominal (s : State) : Nat := if s.flag F.mnsCtlNominal then 16666667 else 20000000

/-- A phase of a tracker started at instant `t` with nominal period `p` (05 R101, R114). -/
def Phase.init (t p : Nat) : Phase :=
  { state := 0, crossing := t, period := p, periods := [], odd := 0, accepted := false, dev := none, rejected := 0,
    outside := 0, low := 0, high := 0, run := [], ref := 255, angle := 0, apart := [],
    ampl := 0 }

/-- A phase. -/
def State.phase (s : State) (x : Nat) : Phase := tget (Phase.init 0 20000000) s.mns.phases x

/-- A phase set. -/
def State.setPhase (s : State) (x : Nat) (p : Phase) : State :=
  { s with mns := { s.mns with phases := tset s.mns.phases x p } }

/-- The limits of a mains period, 65 Hz and 45 Hz (05 R102). -/
def periodOk (p : Nat) : Bool := decide (15384615 ≤ p) && decide (p ≤ 22222222)

/-- The lock level in hundredths of an LSB: LEVEL, at least 4, times 81.92 LSBs (05 R102). -/
def State.lockLevel (s : State) : Nat := max 4 (s.reg F.mnsCfgLevel) * 8192

/-- The lock test (05 R102): nine crossings give eight periods in range, each within 0.5 % of their mean. -/
def lockRun (run : List Nat) : Option (List Nat) :=
  if run.length < 9 then none
  else
    let ps := List.zipWith (fun a b => b - a) run (run.drop 1)
    let sum : Nat := ps.foldl (· + ·) 0
    if ps.all (fun p => periodOk p && decide (((8 : Int) * (p : Int) - (sum : Int)).natAbs * 200 ≤ sum)) then some ps
    else none

/-- A list of numbers by its last `n`. -/
def lastN {α : Type} (n : Nat) (l : List α) : List α := l.drop (l.length - n)

/-- An accepted period enters the estimate (05 R103): the mean of the last 4, rounded down; two in a row that differ
from P by more than 0.5 % start it anew. -/
def Phase.addPeriod (p : Phase) (q : Nat) : Phase :=
  let odd := if Int.natAbs ((q : Int) - p.period) * 200 > p.period then p.odd + 1 else 0
  let ps := if 2 ≤ odd then [q] else lastN 4 (p.periods ++ [q])
  { p with
    periods := ps
    odd := if 2 ≤ odd then 0 else odd
    outside := if periodOk q then 0 else p.outside + 1
    period := ps.foldl (· + ·) 0 / ps.length }

/-! ## Anchors (05 R104, R105, R110) -/

/-- A pleat timer. -/
def PleatTimer.init (t p : Nat) : PleatTimer :=
  { anchor := t, next := t + p, period := p, off := 0, cycle := 0, pleat := 0, start := t, irregular := false,
    fresh := true, noA := true, grid := [], prev := none }

/-- A pleat timer of the state. -/
def State.timer (s : State) (n : Nat) : PleatTimer := tget (PleatTimer.init 0 20000000) s.mns.timers n

/-- A pleat timer set. -/
def State.setTimer (s : State) (n : Nat) (x : PleatTimer) : State :=
  { s with mns := { s.mns with timers := tset s.mns.timers n x } }

/-- The phase a timer takes its cycles from, 3 for none (05 R110, R112). -/
def State.timerSrc (s : State) (n : Nat) : Nat := if n < 24 then s.reg F.mnsPortCfgSrc n else n - 24

/-- OFFSET of a timer, in 1/4,096 of a cycle. -/
def State.timerOffset (s : State) (n : Nat) : Nat := if n < 24 then s.reg F.mnsPortCfgOffset n else 0

/-- The period a timer runs at: its phase's, or the nominal one. -/
def State.timerPeriod (s : State) (n : Nat) : Nat :=
  if s.timerSrc n = 3 then s.nominal else (s.phase (s.timerSrc n)).period

/-- The first anchor after the tracker starts or SRC changes (05 R104): the least C + j P + off later than `now`. -/
def firstAnchor (c p off now : Nat) : Nat :=
  if now < c + off then c + off - (c + off - now - 1) / p * p else c + off + ((now - (c + off)) / p + 1) * p

/-- The anchor C + j P + off that lies nearest to A + P, a tie going to the larger j (05 R104). -/
def nearAnchor (c p off a : Nat) : Nat :=
  let j : Int := (2 * ((a : Int) + p - off - c) + p) / (2 * p)
  ((c : Int) + j * p + off).toNat

/-- The first instant at which the pleat in progress may end: it never lasts less than P / 32 (05 R105). -/
def PleatTimer.soonest (x : PleatTimer) : Nat := if x.fresh then 0 else x.start + x.period / 32

/-- A timer's next anchor fixed from what its source supplies now (05 R104). A pleat never lasts less than P / 32
(R105), and an anchor is not fixed in the past; where there is no A, j is the smallest that keeps to both (log entry 195). A cycle
whose next anchor was once fixed more than P / 256 from A + P stays IRREGULAR (log entry 248). -/
def State.fixNext (s : State) (n : Nat) : State :=
  let x := s.timer n
  let src := s.timerSrc n
  if src = 3 then s
  else
    let ph := s.phase src
    if x.noA then
      let off := s.timerOffset n * ph.period / 4096
      s.setTimer n { x with next := firstAnchor ph.crossing ph.period off (max s.now (x.soonest - 1)) }
    else
      let raw := nearAnchor ph.crossing x.period x.off x.anchor
      let next := max (max raw x.soonest) s.now
      let wide := x.period / 256 < Int.natAbs ((next : Int) - (x.anchor + x.period))
      s.setTimer n { x with next := next, irregular := x.irregular || decide wide }

/-- The next anchor of every timer of a phase fixed again (05 R104). -/
def State.fixPhase (s : State) (ph : Nat) : State :=
  ((List.range 27).filter fun n => decide (s.timerSrc n = ph)).foldl (fun s n => s.fixNext n) s

/-- The cycles in progress on a phase marked IRREGULAR (05 R105, R106). -/
def State.markPhase (s : State) (ph : Nat) : State :=
  ((List.range 27).filter fun n => decide (s.timerSrc n = ph)).foldl
    (fun s n => s.setTimer n { s.timer n with irregular := true }) s

/-! ## Phase states (05 R101, R102, R107, R108) -/

/-- MAINS_LOCK or MAINS_LOST of a phase (05 R108). -/
def State.phaseEvent (s : State) (code x : Nat) : State :=
  let p := s.phase x
  s.raise code 0x64 x (be 4 p.period ++ be 1 p.state ++ be 1 (if p.state = 2 then p.ref else 0xFF) ++ s.open8s 100 2)

/-- The line ports that have been enabled and whose phase condition is met from now on (06 R115). -/
def State.phaseMet (s : State) (n : Nat) : Bool :=
  decide (s.timerSrc n = 3) || decide ((s.phase (s.timerSrc n)).state = 1) ||
    decide ((s.phase (s.timerSrc n)).state = 2)

/-- A phase enters a state, or DERIVED with another reference: its event is raised, and a cycle in which the state changes is
IRREGULAR (05 R105, R107). -/
def State.toState (s : State) (x st ref : Nat) : State :=
  let p := s.phase x
  let per := if st = 2 then (s.phase ref).period else p.period
  let s := s.setPhase x { p with state := st, ref := ref, period := per, rejected := 0, outside := 0 }
  (if p.state = st then s else s.markPhase x).phaseEvent (if st = 1 then 0x401 else 0x402) x

/-- The lowest-lettered LOCKED phase other than `x` (05 R107). -/
def State.lockedRef (s : State) (x : Nat) : Option Nat :=
  firstBelow 3 fun y => decide (y ≠ x) && decide ((s.phase y).state = 1)

/-- A phase falls back to DERIVED, or to FREE when no other phase is LOCKED (05 R107). -/
def State.fallBack (s : State) (x : Nat) : State :=
  match s.lockedRef x with
  | some y => s.toState x 2 y
  | none => s.toState x 3 255

/-- A LOCKED phase is lost (05 R107), and each DERIVED phase that it was the reference of moves on. -/
def State.losePhase (s : State) (x : Nat) : State :=
  let s := s.fallBack x
  ((List.range 3).filter fun y => decide ((s.phase y).state = 2) && decide ((s.phase y).ref = x)).foldl
    (fun s y => s.fallBack y) s

/-- How far the ANGLE of two phases that are both LOCKED lie apart, noted for each (05 R107). -/
def State.noteApart (s : State) (x y : Nat) : State :=
  let p := s.phase x
  let q := s.phase y
  if p.state = 1 ∧ q.state = 1 then
    let d : Int := p.angle - q.angle
    (s.setPhase x { p with apart := tset p.apart y d }).setPhase y { q with apart := tset q.apart x (-d) }
  else s

/-- ANGLE of the phases that are LOCKED together with phase A: the crossing after phase A's in 1/4,096 of a cycle
(05, MNS_PHx_LEVEL). -/
def State.measureAngles (s : State) : State :=
  let a := s.phase 0
  if a.state ≠ 1 then s
  else
    let s := [1, 2].foldl (fun s y =>
      let p := s.phase y
      if p.state = 1 then
        let d := ((p.crossing : Int) - a.crossing) % a.period
        s.setPhase y { p with angle := d.toNat * 4096 / a.period % 4096 }
      else s) s
    [(0, 1), (0, 2), (1, 2)].foldl (fun s e => s.noteApart e.1 e.2) s

/-- The crossing of a DERIVED phase follows that of its reference (05 R107): shifted by the difference of their angles as last
measured while both were LOCKED, rounded down, modulo P_ref (log entry 250). P becomes P_ref (log entry 40). -/
def State.derive (s : State) (ref : Nat) : State :=
  let r := s.phase ref
  ((List.range 3).filter fun y => decide ((s.phase y).state = 2) && decide ((s.phase y).ref = ref)).foldl
    (fun s y =>
      let p := s.phase y
      let d := (tget ((p.angle : Int) - r.angle) p.apart ref * r.period / 4096) % r.period
      let s := s.setPhase y { p with crossing := r.crossing + d.toNat, period := r.period }
      s.fixPhase y) s

/-- A new crossing C of a phase reaches the pleat timer, and its dependents. -/
def State.supplied (s : State) (x : Nat) : State := (((s.fixPhase x).measureAngles).derive x)

/-- The amplitude of a cycle counted (05 R102, R107). -/
def Phase.level (p : Phase) (lock ampl : Nat) : Phase :=
  { p with
    ampl := min ampl 0xFFFF
    high := if lock ≤ ampl * 100 then p.high + 1 else 0
    low := if 2 * ampl * 100 < lock then p.low + 1 else 0 }

/-- A crossing that a LOCKED phase rejects or misses (05 R106): C + P is used as C; after 8 in a row the phase is
lost. -/
def State.rejectCrossing (s : State) (x : Nat) (p : Phase) (dev : Option Int) : State :=
  let p := { p with crossing := p.crossing + p.period, accepted := false, dev := dev, rejected := p.rejected + 1 }
  let s := (s.setPhase x p).supplied x
  if 8 ≤ p.rejected then s.losePhase x else s

/-- A crossing that a LOCKED phase accepts (05 R103, R106). -/
def State.acceptCrossing (s : State) (x : Nat) (p : Phase) (m : Nat) (jump : Bool) : State :=
  let p := if p.accepted then p.addPeriod (m - p.crossing) else p
  let p := { p with crossing := m, accepted := true, dev := none, rejected := 0 }
  let s := s.setPhase x p
  let s := if jump then ((s.bump F.mnsPhStatusJumps x).setReg F.mnsPhStatusJump x 0 1).markPhase x else s
  let s := s.supplied x
  if 4 ≤ p.outside then s.losePhase x else s

/-- J, the jump threshold (05 R106). -/
def State.jumpLimit (s : State) (p : Nat) : Nat := max 16 (s.reg F.mnsCfgJump) * p / 4096

/-- A measured crossing of a LOCKED phase, by the table of 05 R106. One beyond J after a missing one, which has no deviation, is
rejected and its deviation kept as the first (log entry 249). -/
def State.lockedCrossing (s : State) (x m : Nat) : State :=
  let p := s.phase x
  let d : Int := (m : Int) - (p.crossing + p.period)
  let j := s.jumpLimit p.period
  if d.natAbs ≤ j then s.acceptCrossing x p m false
  else if p.accepted then s.rejectCrossing x p (some d)
  else match p.dev with
    | some e => if (d - e).natAbs ≤ j then s.acceptCrossing x p m true else s.rejectCrossing x p (some d)
    | none => s.rejectCrossing x p (some d)

/-- A measured crossing of a phase that is not LOCKED: its lock test (05 R102). A DERIVED phase keeps its reference when a
lower-lettered phase locks (log entry 251). -/
def State.tryLock (s : State) (x m : Nat) : State :=
  let p := s.phase x
  match lockRun p.run with
  | some ps =>
    if 8 ≤ p.high then
      let four := lastN 4 ps
      let p := { p with
        crossing := m
        periods := four
        period := four.foldl (· + ·) 0 / 4
        odd := 0
        accepted := true
        dev := none }
      ((s.setPhase x p).toState x 1 255).supplied x
    else s
  | none => s

/-- Line ports whose phase condition is met now have met it since EN was set (06 R115). -/
def State.markMet (s : State) : State :=
  { s with plx := { s.plx with ports := s.plx.ports.map fun e =>
                               (e.1, if s.phaseMet e.1 then { e.2 with met := true } else e.2) } }

/-- The crossings measured in a row, in whatever state (05 R102): a missing one starts them anew. -/
def Phase.seen (p : Phase) (m : Option Nat) : Phase :=
  { p with run := match m with
      | some m => lastN 9 (p.run ++ [m])
      | none => [] }

/-- A crossing of a phase, by its state. -/
def State.crossing (s : State) (phase : Nat) (seen : Option Nat) (ampl : Nat) : State :=
  let s := s.setPhase phase (((s.phase phase).level s.lockLevel ampl).seen seen)
  let p := s.phase phase
  if p.state = 1 then
    if 2 ≤ p.low then s.losePhase phase
    else match seen with
      | some m => s.lockedCrossing phase m
      | none => s.rejectCrossing phase p none
  else match seen with
    | some m => s.tryLock phase m
    | none => s

/-- MAINS_CROSSING (05 R100 to R107): a crossing of phase `phase` measured at `at?`, or missing, with the RMS amplitude
of the cycle it ends, in converter LSBs. A stopped tracker takes none (R114). -/
def execMainsCrossing (t phase : Nat) (seen : Option Nat) (ampl : Nat) (s : State) :
    Host.Outcome State Fault Refusal :=
  whenOn t (fun s =>
    if 3 ≤ phase ∨ s.flag F.mnsCtlEn = false then s
    else (s.crossing phase seen ampl).markMet) s

/-- The tracker enabled: each phase may lock again (05 R114). -/
def State.mnsEnable (s : State) : State :=
  let s := s.setReg F.mnsCtlEn 0 0 1
  [0, 1, 2].foldl (fun s x => s.setPhase x { s.phase x with run := [], high := 0, low := 0 }) s

/-- The tracker stopped: LOCKED and DERIVED phases enter FREE, with MAINS_LOST for each (05 R114). -/
def State.mnsDisable (s : State) : State :=
  let s := s.setReg F.mnsCtlEn 0 0 0
  [0, 1, 2].foldl (fun s x =>
    if (s.phase x).state = 1 ∨ (s.phase x).state = 2 then s.toState x 3 255 else s) s

/-- MNS_ENABLE (05 R114): MNS_CTL.EN set. -/
def execMnsEnable (t : Nat) (s : State) : Host.Outcome State Fault Refusal :=
  whenOn t (fun s => if s.flag F.mnsCtlEn then s else s.mnsEnable.kept s .mnsCtl 0) s

/-- MNS_DISABLE (05 R114): MNS_CTL.EN cleared; the pleat timer keeps running. -/
def execMnsDisable (t : Nat) (s : State) : Host.Outcome State Fault Refusal :=
  whenOn t (fun s => if s.flag F.mnsCtlEn then s.mnsDisable.kept s .mnsCtl 0 else s) s

/-- NOMINAL changed while the tracker is stopped: phases in NONE run at the new nominal period (05 R101). -/
def State.newNominal (s : State) : State :=
  [0, 1, 2].foldl (fun s x =>
    if (s.phase x).state = 0 then s.setPhase x { s.phase x with period := s.nominal } else s) s

/-! ## Pleat starts (05 R104, R105, R111 to R113) -/

/-- When the timer's next pleat starts: the next pleat of the cycle unless it is cancelled (05 R105), else the next
anchor. -/
def PleatTimer.due (x : PleatTimer) : Nat :=
  let b := x.anchor + x.pleat * x.period / 16
  if x.fresh then x.next
  else if x.pleat < 16 ∧ b + x.period / 32 < x.next then b
  else x.next

/-- The next event of the timer is an anchor. -/
def PleatTimer.atAnchor (x : PleatTimer) : Bool :=
  let b := x.anchor + x.pleat * x.period / 16
  x.fresh || !(decide (x.pleat < 16) && decide (b + x.period / 32 < x.next))

/-- A line port applies a pending OFFSET snapshot (05 R111): its own field, and the hand-over ends with the last
port. -/
def State.applyOffset (s : State) (n : Nat) : State :=
  let c := s.regs.com .mnsCommit 0
  if c.pend && c.waiting.contains n then
    let w := c.waiting.filter fun m => decide (m ≠ n)
    let s := match c.snap.find? (fun e => decide (e.1 = famAddr .mnsPortCfg n 0)) with
      | some e => s.applyReg e.1 e.2
      | none => s
    if w.isEmpty then s.handedOver .mnsCommit 0
    else s.stillWait .mnsCommit 0 w
  else s

/-- The SRC of a line port changed (05 R110): there is no A, so the next anchor is fixed from the new phase as a first anchor, or
runs free from this instant, and the cycle that ends at it is IRREGULAR. A port that now has no phase applies a waiting
OFFSET at once (R111). -/
def State.newSource (s : State) (n src : Nat) : State :=
  let s := s.setReg F.mnsPortCfgSrc n 0 src
  let x := { s.timer n with irregular := true }
  if src = 3 then (s.setTimer n { x with next := s.now + s.nominal, noA := false }).applyOffset n
  else (s.setTimer n { x with noA := true }).fixNext n

/-! ## Channels of the filter chain that follow a timer (17 R390) -/

/-- The grid is mains-locked. -/
def State.locked (s : State) (e : Nat) : Bool := s.flag F.fltChRateMode e

/-- The pleat timer of a SRC (17 R390): 0 to 23 a line port's, 24 to 26 a phase's. -/
def State.fltSource (s : State) (e : Nat) : Nat := s.reg F.fltChRateSrc e

/-- A cycle of a pleat timer reaches the channels locked to it. -/
def State.noteCycle (s : State) (n : Nat) : State :=
  let x := s.timer n
  { s with chans := s.chans.map fun e =>
                   if s.locked e.1 && decide (s.fltSource e.1 = n) then (e.1, { e.2 with cycles := e.2.cycles ++ [(x.anchor, x.period)] })
                   else e }

/-- An anchor (05 R104, R105): a pending OFFSET is applied, P and off are fixed for the new cycle, and its end is
fixed from the crossing available now. -/
def State.newCycle (s : State) (n : Nat) : State :=
  let x := s.timer n
  let o := s.timerOffset n
  let s := if n < 24 then s.applyOffset n else s
  let p := s.timerPeriod n
  let moved := decide (s.timerSrc n ≠ 3) && decide (s.timerOffset n ≠ o)
  let y := { x with
    anchor := x.next
    start := x.next
    period := p
    off := s.timerOffset n * p / 4096
    cycle := (x.cycle + 1) % 2 ^ 32
    pleat := 1
    irregular := moved
    fresh := false
    noA := false
    next := x.next + p
    grid := (x.next, 0) :: x.grid
    prev := if x.fresh then none else some (x.anchor, x.period) }
  ((s.setTimer n y).fixNext n).noteCycle n

/-- A pleat within the cycle starts. -/
def State.nextPleat (s : State) (n : Nat) : State :=
  let x := s.timer n
  let b := x.anchor + x.pleat * x.period / 16
  s.setTimer n { x with pleat := x.pleat + 1, start := b, grid := (b, x.pleat) :: x.grid }

/-- The trigger lines that fire at a pleat start (05 R113). -/
def State.fireTriggers (s : State) (n : Nat) : State :=
  let x := s.timer n
  (List.range 4).foldl (fun s m =>
    if s.flag F.mnsTrgCfgEn m && decide (s.reg F.mnsTrgCfgSrc m = n) && bit (s.reg F.mnsTrgCfgMask m) (x.pleat - 1) then
      { s with mns := { s.mns with fired := tset s.mns.fired m x.start } }
    else s) s

/-- The timer's pleat event (05 R112): at an anchor, or a pleat of the cycle. -/
def State.pleatEvent (s : State) (n : Nat) : State :=
  (if (s.timer n).atAnchor then s.newCycle n else s.nextPleat n).fireTriggers n

/-- MNS_SRC_CHANGE (05 R110): a write of SRC, which R97 allows only while the port is not in service; the value held
already changes nothing. -/
def execMnsSrcChange (t port src : Nat) (s : State) : Host.Outcome State Fault Refusal :=
  whenOn t (fun s =>
    let busy := match tget? s.plx.ports port with
      | some p => p.service
      | none => false
    if 24 ≤ port ∨ 4 ≤ src ∨ src = s.reg F.mnsPortCfgSrc port ∨ busy = true then s
    else (s.newSource port src).markMet.kept s .mnsPortCfg port) s

end Sys2Proof.Machine
end

