-- ==== Sys2Proof/Machine/LinePhy.lean ====
section
/-!
DEFINITION. Machine/LinePhy.lean: the line frame on the wire (06, 07): tones and modes, whitening, the header and the checks, the
pleat grid and the layout of data slots, the slots a frame is sent in, and the decision of received slots.
-/

namespace Sys2Proof.Machine

open Sys2Proof

/-! ## Tones (06 R122 to R126) -/

/-- The tones of a plan (06 R122): codes 3 to 6 are taken as plan 0. -/
def planTones (plan : Nat) : Nat × Nat :=
  match plan with
  | 1 => (122, 190)
  | 2 | 7 => (12, 627)
  | _ => (12, 121)

/-- A tone that the notch mask masks (06 R123). -/
def Regs.masked (r : Regs) (n t : Nat) : Bool := bit (r.get F.plxNotchMask n (t / 32)) (t % 32)

/-- A tone the port may send: inside its plan and not masked. -/
def State.toneOk (s : State) (n t : Nat) : Bool :=
  let p := planTones (s.reg F.plxCfgPlan n)
  decide (p.1 ≤ t) && decide (t ≤ p.2) && !s.regs.masked n t

/-- The rate class k of a RATE code and the repetition of a REP code (06 R126). -/
def rateK (code : Nat) : Nat := 2 ^ (code % 4)
def repRho (code : Nat) : Nat := 2 ^ code

/-- The fields of a pleat-map entry (07 R147); REP codes 5 to 7 are a skip. -/
def entryBase (e : Nat) : Nat := bits e 15 6
def entryK (e : Nat) : Nat := rateK (bits e 5 4)
def entryRho (e : Nat) : Nat := repRho (bits e 3 1)
def entrySkip (e : Nat) : Bool := bit e 0 || decide (4 < bits e 3 1)

/-- The tone index of a bit pair at base b and rate class k (06 R125). -/
def pairTone (pair : Nat) : Nat :=
  match pair with
  | 0 => 0
  | 1 => 1
  | 3 => 2
  | _ => 3

/-- The four tones of a base and rate class. -/
def fourTones (b k : Nat) : List Nat := [b, b + k, b + 2 * k, b + 3 * k]

/-- The tone on which copy `r` of a symbol with tone number `j` goes (06 R127), none where the slot stays silent because
one of its four tones is masked or outside the plan (R123). -/
def State.copyTone (s : State) (n b k j r : Nat) : Option Nat :=
  if (fourTones b k).all fun t => s.toneOk n t then some (b + (j + r) % 4 * k) else none

/-! ## Whitening (06 R136) -/

/-- One octet of the PN9 sequence, most significant bit first, and the register after it. -/
def pnOctet (r : Nat) : Nat × Nat :=
  (List.range 8).foldl (fun a _ =>
    let fb := (a.2 ^^^ (a.2 / 32)) % 2
    (a.1 * 2 + a.2 % 2, a.2 / 2 + fb * 256)) (0, r)

/-- Octets whitened from register `r`; whitening twice gives the octets back. -/
def whitenFrom : Nat → List Byte → List Byte
  | _, [] => []
  | r, b :: l =>
    let p := pnOctet r
    (b ^^^ BitVec.ofNat 8 p.1) :: whitenFrom p.2 l

/-- Octets whitened from the start of the header. -/
def whiten (l : List Byte) : List Byte := whitenFrom 0x1FF l

/-- The bit pairs of octets, as tone numbers j (06 R125, R129). -/
def symbolsOf (l : List Byte) : List Nat :=
  l.flatMap fun b => [bits b.toNat 7 6, bits b.toNat 5 4, bits b.toNat 3 2, bits b.toNat 1 0].map pairTone

/-! ## The frame (06 R129 to R137) -/

/-- The header's 64 bits (06 R132). -/
def LineHead.word (h : LineHead) : Nat :=
  h.len * 2 ^ 55 + h.typ * 2 ^ 53 + b2n h.ackReq * 2 ^ 52 + b2n h.crc32 * 2 ^ 51 + b2n h.sec * 2 ^ 50 + h.mode * 2 ^ 48 +
    h.dst * 2 ^ 32 + h.src * 2 ^ 16 + h.seq

/-- A header read from its 64 bits. -/
def headOf (v : Nat) : LineHead :=
  { len := bits v 63 55, typ := bits v 54 53, ackReq := bit v 52, crc32 := bit v 51, sec := bit v 50, mode := bits v 49 48,
    dst := bits v 47 32, src := bits v 31 16, seq := bits v 15 0 }

/-- The header and its check, behind the port's fold byte (06 R134). -/
def headOctets (fold : Nat) (h : LineHead) : List Byte :=
  be 8 h.word ++ be 1 (crc 0 (be 1 fold) (be 8 h.word))

/-- The payload check of a payload as sent (06 R135). -/
def payloadCheck (h : LineHead) (p : List Byte) : List Byte :=
  let fold := be 2 h.dst ++ be 2 h.src ++ be 2 h.seq
  if h.crc32 then be 4 (crc 3 fold p) else be 2 (crc 1 fold p)

/-- The octets of a frame from header to payload check. -/
def State.frameOctets (s : State) (n : Nat) (h : LineHead) (p : List Byte) : List Byte :=
  headOctets (s.reg F.plxCfgFold n) h ++ (if p.isEmpty then [] else p ++ payloadCheck h p)

/-- The header check of nine octets as received, for a candidate of a mode (06 R132, R134). -/
def State.headCheck (s : State) (n mode : Nat) (raw : List Byte) : Option LineHead :=
  let o := whiten raw
  let h := headOf (beAt o 0 8)
  if o.length = 9 ∧ octet o 8 = crc 0 (be 1 (s.reg F.plxCfgFold n)) (o.take 8) ∧ h.len ≤ 256 ∧ h.mode = mode ∧ h.mode ≠ 3 then
    some h
  else none

/-- The payload of octets as received behind a header, if their check passes (06 R135). -/
def payloadOf (h : LineHead) (raw : List Byte) : Option (List Byte) :=
  let all := whiten (zeros 9 ++ raw)
  let o := all.drop 9
  let n := h.len + (if h.crc32 then 4 else 2)
  if raw.length = n ∧ o.drop h.len = payloadCheck h (o.take h.len) then some (o.take h.len) else none

/-! ## The pleat grid and the layout of MAP frames (07 R149) -/

/-- The pleat of a cycle of period `p` from anchor `a` that holds `t`. -/
def pleatIn (a p t : Nat) : Nat × Nat × Nat :=
  let k0 := (t - a) * 16 / p
  let k := if a + (k0 + 1) * p / 16 ≤ t then k0 + 1 else k0
  let k := min k 15
  (k, a + k * p / 16, if k = 15 then a + p else a + (k + 1) * p / 16)

/-- The pleat of the past that holds `t`, from the grid, newest first; `fin` is the END of the first entry. -/
def pleatPast (fin t : Nat) : List (Nat × Nat) → Nat × Nat × Nat
  | [] => (0, 0, fin)
  | (st, k) :: l => if st ≤ t then (k, st, fin) else pleatPast st t l

/-- The pleat whose [START, END) holds `t`: from the pleats that have started, or from the prediction of 05 R104. The last pleat
that is not cancelled runs until the next anchor (R105). -/
def PleatTimer.pleatAt (x : PleatTimer) (t : Nat) : Nat × Nat × Nat :=
  if x.next ≤ t then
    let a := x.next + (t - x.next) / x.period * x.period
    pleatIn a x.period t
  else if x.start ≤ t then
    let b (k : Nat) := x.anchor + k * x.period / 16
    let last := ((List.range 16).filter fun k => decide (k < x.pleat) || decide (b k + x.period / 32 < x.next)).length - 1
    let k := min last (max (pleatIn x.anchor x.period t).1 (x.pleat - 1))
    (k, b k, if k = last then x.next else b (k + 1))
  else pleatPast x.start t (x.grid.drop 1)

/-- The pleat that holds `t` on the grid shifted by `d` ns (07 R150). -/
def PleatTimer.pleatOn (x : PleatTimer) (d : Int) (t : Nat) : Nat × Nat × Nat :=
  let (k, st, fin) := x.pleatAt (t - d).toNat
  (k, ((st : Int) + d).toNat, ((fin : Int) + d).toNat)

/-- A data slot of a frame: its start and length, its base and rate class, which copy of which data symbol it holds, and whether its
start moves with the grid, since the link has idled to a boundary before it. -/
structure DataSlot where
  start : Nat
  len : Nat
  base : Nat
  k : Nat
  sym : Nat
  copy : Nat
  grid : Bool
  deriving DecidableEq, Repr

/-- The instant of a slot's centre. -/
def DataSlot.centre (x : DataSlot) : Nat := x.start + x.len / 2

/-- A layout: its slots, the end of the last, and by how much the grid may be shifted later and earlier before one of them comes
under another pleat. -/
structure Layout where
  slots : List DataSlot
  fin : Nat
  up : Nat
  dn : Nat
  deriving DecidableEq, Repr

/-- What the walk over the grid carries: the instant it has come to, whether that instant moves with the grid (it does once the
link has idled to a boundary), the symbols left, the copies left of the current one, and the layout so far, newest slot first. -/
structure Walk where
  t : Nat
  grid : Bool
  syms : Nat
  copies : Nat
  sym : Nat
  copy : Nat
  out : Layout
  deriving DecidableEq, Repr

/-- An instant is looked up on the shifted grid: the pleat, and the walk with the room that this leaves the shift. -/
def Walk.look (w : Walk) (x : PleatTimer) (d : Int) (t : Nat) : (Nat × Nat × Nat) × Walk :=
  let p := x.pleatOn d t
  (p, if w.grid then w else { w with out := { w.out with up := min w.out.up (t - p.2.1 + 1), dn := min w.out.dn (p.2.2 - t) } })

/-- The link sends nothing until a boundary of the grid. -/
def Walk.idle (w : Walk) (t : Nat) : Walk := { w with t := max t (w.t + 1), grid := true }

/-- A slot sent under an entry; the first copy of a symbol fixes how many it has. -/
def Walk.put (w : Walk) (e : Nat) : Walk :=
  let len := 1280000 / entryK e
  let slot : DataSlot := { start := w.t, len := len, base := entryBase e, k := entryK e, sym := w.sym, copy := w.copy,
                            grid := w.grid }
  let left := if w.copy = 0 then entryRho e - 1 else w.copies - 1
  { w with
    t := w.t + len
    syms := if left = 0 then w.syms - 1 else w.syms
    copies := left
    sym := if left = 0 then w.sym + 1 else w.sym
    copy := if left = 0 then 0 else w.copy + 1
    out := { w.out with slots := slot :: w.out.slots, fin := w.t + len } }

/-- One step of the symbol-centre rule (07 R149). -/
def Walk.step (x : PleatTimer) (map : List Nat) (d : Int) (w : Walk) : Walk :=
  let ((p, pst, fin), w) := w.look x d w.t
  let e := map.getD p 1
  if entrySkip e then w.idle fin
  else
    let ((q, qst, qfin), w) := w.look x d (w.t + 1280000 / entryK e / 2)
    if q = p ∧ qst = pst then w.put e
    else
      let f := map.getD q 1
      if entrySkip f then w.idle qfin
      else
        let (r, w) := w.look x d (w.t + 1280000 / entryK f / 2)
        if r.2.1 = qst then w.put f else w.idle qst

/-- The symbol-centre rule until no symbol is left; `fuel` bounds the walk. -/
def Walk.run (x : PleatTimer) (map : List Nat) (d : Int) : Nat → Walk → Layout
  | 0, w => { w.out with slots := w.out.slots.reverse }
  | fuel + 1, w => if w.syms = 0 then { w.out with slots := w.out.slots.reverse } else Walk.run x map d fuel (w.step x map d)

/-- The most slots and pauses a walk may take. -/
def layoutFuel : Nat := 100000

/-- The layout of `syms` data symbols from a data start, on the grid shifted by `d` (07 R149, R150). -/
def layout (x : PleatTimer) (map : List Nat) (data syms : Nat) (d : Int) : Layout :=
  Walk.run x map d layoutFuel
    { t := data, grid := false, syms := syms, copies := 0, sym := 0, copy := 0,
      out := { slots := [], fin := data, up := 100001, dn := 100001 } }

/-- What a layout on the grid shifted by `d` sends, slot by slot: base, rate class, symbol, copy, and the start, taken back by the
shift where it moves with the grid. Two layouts that agree in it are one (log entry 196). -/
def Layout.shape (l : Layout) (d : Int) : List (Nat × Nat × Nat × Nat × Bool × Int) :=
  l.slots.map fun s => (s.base, s.k, s.sym, s.copy, s.grid, s.start - (if s.grid then d else 0))

/-- The shifts, in the direction `dir`, just beyond which the layout changes, within 50 us (07 R150). -/
def shiftsFrom (x : PleatTimer) (map : List Nat) (data syms : Nat) (dir : Int) : Nat → Int → Layout → List Int
  | 0, _, _ => []
  | fuel + 1, d, l =>
    let d' := d + dir * (if 0 < dir then l.up else l.dn)
    if 50000 < d'.natAbs then []
    else
      let l' := layout x map data syms d'
      if l'.shape d' = l.shape d then shiftsFrom x map data syms dir fuel d' l'
      else d' :: shiftsFrom x map data syms dir fuel d' l'

/-- The shifts of the layouts under which a header is tried, in order: 0, then those at which the layout changes by their size, a
later grid first among equals, at most 4 in all (07 R150). -/
def shifts (x : PleatTimer) (map : List Nat) (data syms : Nat) : List Int :=
  let l := layout x map data syms 0
  let up := shiftsFrom x map data syms 1 512 0 l
  let dn := shiftsFrom x map data syms (-1) 512 0 l
  0 :: ((up ++ dn).mergeSort fun a b => decide (a.natAbs ≤ b.natAbs)).take 3

/-- The slots of a BASIC or ROBUST frame: every slot at HOME with k = 1, `rho` copies of each symbol (06 R128). -/
def homeLayout (home data syms rho : Nat) : Layout :=
  { slots := (List.range (syms * rho)).map fun i =>
      { start := data + i * 1280000, len := 1280000, base := home, k := 1, sym := i / rho, copy := i % rho, grid := false }
    fin := data + syms * rho * 1280000, up := 100001, dn := 100001 }

/-- The data slots of a frame whose preamble starts at `start`, and its end F (06 R128, R137; 07 R149). -/
def State.dataLayout (s : State) (n m start mode syms : Nat) (map : List Nat) (d : Int) : Layout :=
  let data := start + 20480000
  match mode with
  | 0 => layout (s.timer n) map data syms d
  | 1 => homeLayout (s.reg F.plxLsTxHome n m) data syms 4
  | _ => homeLayout (s.reg F.plxLsTxHome n m) data syms 16

/-- The end F of a frame whose preamble starts at `start` (06 R137, 07 R149). -/
def State.lineEnd (s : State) (n start mode octets : Nat) (map : List Nat) (d : Int) : Nat :=
  match mode with
  | 0 => (layout (s.timer n) map (start + 20480000) (4 * octets) d).fin
  | 1 => start + 20480000 + 4 * octets * 4 * 1280000
  | _ => start + 20480000 + 4 * octets * 16 * 1280000

/-- The octets of a frame after its preamble and delimiter. -/
def LineHead.octets (h : LineHead) : Nat := 9 + (if h.len = 0 then 0 else h.len + (if h.crc32 then 4 else 2))

/-- The entries of the map a frame goes by. -/
def mapEntries (map : Option PMap) : List Nat :=
  match map with
  | some p => p.entries
  | none => []

/-! ## What a frame sends (06 R119, R123, R127 to R131) -/

/-- The preamble's tones (06 R130). -/
def preambleTones : List Nat := [0, 2, 3, 1, 3, 0, 1, 2]

/-- The start delimiter of a mode (06 R131). -/
def delimiter (mode : Nat) : Nat :=
  match mode with
  | 0 => 0xF35A
  | 1 => 0x0CA5
  | _ => 0x5A0F

/-- The slots of the preamble and the start delimiter, at HOME with k = 1 and one copy whatever the mode (06 R128): start, tone. -/
def State.headTones (s : State) (n m start mode : Nat) : List (Nat × Nat × Option Nat) :=
  (preambleTones ++ symbolsOf (be 2 (delimiter mode))).zipIdx.map fun (j, i) =>
    (start + i * 1280000, 1280000, s.copyTone n (s.reg F.plxLsTxHome n m) 1 j 0)

/-- The tones of data slots, from the symbols `l` of which the first is symbol `i`. -/
def State.dataTones (s : State) (n : Nat) : List DataSlot → Nat → List Nat → List (Nat × Nat × Option Nat)
  | [], _, _ => []
  | x :: r, i, l =>
    let l' := l.drop (x.sym - i)
    (x.start, x.len, s.copyTone n x.base x.k (l'.headD 0) x.copy) :: s.dataTones n r x.sym l'

/-- The phase runs on from slot to slot (06 R119): a slot of `len` ns on tone t takes t x len / 1,280,000 turns. -/
def phased : Nat → List (Nat × Nat × Option Nat) → List ToneSlot
  | _, [] => []
  | ph, (st, len, t) :: r =>
    { start := st, len := len, tone := t, phase := ph } :: phased ((ph + t.getD 0 * len) % 1280000) r

/-- The slots of a transmission of octets as sent, whitened (06 R129, R136). -/
def State.toneSlots (s : State) (n m start mode : Nat) (octets : List Byte) (map : List Nat) : List ToneSlot :=
  phased 0 (s.headTones n m start mode ++
    s.dataTones n (s.dataLayout n m start mode (4 * octets.length) map 0).slots 0 (symbolsOf octets))

/-- The intervals in which a transmission sounds, oldest first. -/
def sounding : List ToneSlot → List (Nat × Nat)
  | [] => []
  | x :: r =>
    if x.tone.isNone then sounding r
    else match sounding r with
      | (a, b) :: l => if x.start + x.len = a then (x.start, b) :: l else (x.start, x.start + x.len) :: (a, b) :: l
      | [] => [(x.start, x.start + x.len)]

/-- The 64-sample ramps (06 R119): the amplitude at an instant in 64ths of the peak, up over the first 20 us of an interval in which
the transmission sounds and down over its last. -/
def rampAt (l : List ToneSlot) (t : Nat) : Nat :=
  match (sounding l).find? fun i => decide (i.1 ≤ t) && decide (t < i.2) with
  | some (a, b) => min 64 (min ((t - a) * 64 / 20000) ((b - t) * 64 / 20000))
  | none => 0

/-- The slot of a transmission at an instant. -/
def slotAt (l : List ToneSlot) (t : Nat) : Option ToneSlot := l.find? fun x => decide (x.start ≤ t) && decide (t < x.start + x.len)

/-- The phase of a slot at an instant, and at its end (06 R119). -/
def ToneSlot.phaseAt (x : ToneSlot) (t : Nat) : Nat := (x.phase + x.tone.getD 0 * (t - x.start)) % 1280000

/-- The down-ramp that ends a transmission cut at `t`: 64 samples on the tone of that instant, from the amplitude it has there (06
R119). -/
def LineTx.cutRamp (y : LineTx) (t : Nat) : Option LineTail :=
  match slotAt y.slots t with
  | some x => if x.tone.isSome then
      some { slot := { start := t, len := 20000, tone := x.tone, phase := x.phaseAt t }, level := y.amp * rampAt y.slots t } else none
  | none => none

/-- A slot that has begun falls silent at `t`, with the ramp (06 R119, R123). -/
def ToneSlot.silence (x : ToneSlot) (t : Nat) : List ToneSlot :=
  let fin := x.start + x.len
  if x.tone.isSome ∧ t + 20000 < fin then
    [{ x with len := t + 20000 - x.start }, { start := t + 20000, len := fin - (t + 20000), tone := none, phase := 0 }]
  else [x]

/-- A transmission laid out anew at `t`: the slots that have begun stay, the one in progress falling silent if its tones are masked
now (06 R123); the others follow as laid out, the phase running on (R119). -/
def LineTx.relaid (x : LineTx) (t : Nat) (new : List ToneSlot) : LineTx :=
  let kept := x.slots.filter fun z => decide (z.start < t)
  match kept.getLast? with
  | none => { x with slots := new }
  | some z =>
    let fin := z.start + z.len
    let masked := new.any fun y => decide (y.start = z.start) && y.tone.isNone
    let rest := new.filter fun y => decide (fin ≤ y.start)
    { x with slots := kept.dropLast ++ (if masked then z.silence t else [z]) ++
        phased (z.phaseAt fin) (rest.map fun y => (y.start, y.len, y.tone)) }

/-! ## What received slots decide (06 R127, 07 R151) -/

/-- The weights of a slot by tone number j, its copy's rotation undone (06 R127). -/
def unrotate (copy : Nat) (w : SlotSoft) : List Int := (List.range 4).map fun j => w.getD ((j + copy) % 4) 0

/-- The soft values of the two bits of a copy (06 R125, log entry 197): the weights of the tones whose pair has the bit at 1 less
those of the others. -/
def softBits (copy : Nat) (w : SlotSoft) : Int × Int :=
  match unrotate copy w with
  | [a, b, c, d] => (c + d - a - b, b + c - a - d)
  | _ => (0, 0)

/-- The symbols that slots decide, from the symbol `i` being combined, whose copies so far give `hi` and `lo`: soft values add, an
erased copy adds nothing, and a soft value of 0 is decided as 0 (06 R127, 07 R151). -/
def decideSlots : Nat → Int → Int → List (DataSlot × Bool × SlotSoft) → List Nat
  | _, hi, lo, [] => [b2n (decide (0 < hi)) * 2 + b2n (decide (0 < lo))]
  | i, hi, lo, (x, gone, w) :: r =>
    let v := if gone then (0, 0) else softBits x.copy w
    if x.sym = i then decideSlots i (hi + v.1) (lo + v.2) r
    else (b2n (decide (0 < hi)) * 2 + b2n (decide (0 < lo))) :: decideSlots x.sym v.1 v.2 r

/-- Octets of decided bit pairs, first pair highest (06 R129). -/
def octetsOf : List Nat → List Byte
  | a :: b :: c :: d :: r => BitVec.ofNat 8 (a * 64 + b * 16 + c * 4 + d) :: octetsOf r
  | _ => []

/-- Slots with their weights and whether they are erased; a slot without weights weighs nothing. -/
def withSoft (gone : DataSlot → Bool) : List DataSlot → List SlotSoft → List (DataSlot × Bool × SlotSoft)
  | [], _ => []
  | x :: r, l => (x, gone x, l.headD []) :: withSoft gone r l.tail

/-- The octets, still whitened, that received slots decide. -/
def octetsOfSlots (slots : List DataSlot) (gone : DataSlot → Bool) (soft : List SlotSoft) : List Byte :=
  match slots with
  | [] => []
  | x :: _ => octetsOf (decideSlots x.sym 0 0 (withSoft gone slots soft))

end Sys2Proof.Machine
end

