-- ==== Sys2Proof/Machine/Seam.lean ====
section
/-!
DEFINITION. Machine/Seam.lean: the cluster and the seam (11): roles, HELLO, joining, beacons, cluster time, the registry
and its mirror, home claims, and elections.
-/

namespace Sys2Proof.Machine

open Sys2Proof

/-! ## Messages (11 R233 to R235, 18 R411, R414) -/

/-- The device's own station number. -/
def State.station (s : State) : Nat := s.reg F.seaCfgStation

/-- The SEA block changed. -/
def State.setSea (s : State) (x : Sea) : State := { s with sea := x }

/-- The tag of a seam frame (18 R414). -/
def State.seamTag (s : State) (pcp : Nat) : Option Nat :=
  if s.flag F.ethVlanSeamTag then some (pcp * 8192 + s.reg F.ethVlanSeamVid) else none

/-- The 16-octet header of 11 R234 and the body. -/
def State.seamBytes (s : State) (typ dst : Nat) (body : List Byte) : List Byte :=
  be 1 0xE1 ++ be 1 typ ++ be 2 (s.reg F.seaIdCluster) ++ be 2 s.station ++ be 2 dst ++ be 4 s.sea.seq ++
    be 2 body.length ++ zeros 2 ++ body

/-- The next SEQ. -/
def State.nextSeq (s : State) : State := s.setSea { s.sea with seq := (s.sea.seq + 1) % 2 ^ 32 }

/-- A carrier is enabled to send in. -/
def State.seamCarried (s : State) : Bool := s.flag F.seaXportRawEn || s.flag F.seaXportUdpEn

/-- A multicast seam frame on one port, in each enabled carrier. -/
def State.castOn (s : State) (port q pcp : Nat) (bytes : List Byte) : State :=
  let raw : Addr := { mac := s.reg F.seaMcastHi * 2 ^ 32 + s.reg F.seaMcastLo, udp := false, v6 := false, ip := 0,
                      uport := 0, tag := s.seamTag pcp }
  let udp : Addr := { mac := 0x01005E000000 + s.reg F.seaMcastV4 % 2 ^ 23, udp := true, v6 := false,
                      ip := s.reg F.seaMcastV4, uport := s.reg F.seaUdpPort, tag := s.seamTag pcp }
  let s := if s.flag F.seaXportRawEn then s.queueFrame port q false { kind := .seam, dst := raw, body := bytes } else s
  if s.flag F.seaXportUdpEn then s.queueFrame port q false { kind := .seam, dst := udp, body := bytes } else s

/-- The port that carries every seam type but BEACON and HELLO: EP0 while its link is up, and EP1 otherwise. -/
def State.seamPort (s : State) : Nat := if (s.ep 0).up then 0 else 1

/-- BEACON or HELLO, on every port whose link is up (queue 0). SEQ counts what is sent (R234). -/
def State.castAll (s : State) (typ : Nat) (body : List Byte) : State :=
  if !s.anyUp || !s.seamCarried then s
  else
    let b := s.seamBytes typ 0xFFFF body
    let s := s.nextSeq
    let pcp := s.reg F.ethPrioBeaconPcp
    let s := if (s.ep 0).up then s.castOn 0 0 pcp b else s
    if (s.ep 1).up then s.castOn 1 0 pcp b else s

/-- Another multicast type, on the one port (queue 1). -/
def State.castOne (s : State) (typ : Nat) (body : List Byte) : State :=
  if !s.anyUp || !s.seamCarried then s
  else
    let b := s.seamBytes typ 0xFFFF body
    s.nextSeq.castOn s.seamPort 1 (s.reg F.ethPrioSeamPcp) b

/-- A unicast seam message (queue 1), to the addresses the station's last HELLOs on the port gave (18 R411): the MAC address in every
carrier, the IP address that of a HELLO over UDP. A station not heard there has no address, and nothing is sent (log entry 45). -/
def State.sendTo (s : State) (station typ : Nat) (body : List Byte) : State :=
  if !s.anyUp then s
  else
    let p := s.seamPort
    match (tget? s.sea.peers station).bind fun x => tget? x.addrs p with
    | none => s
    | some a =>
      let udpOn := s.flag F.seaXportUdpEn && a.udp
      if !s.flag F.seaXportRawEn && !udpOn then s
      else
        let b := s.seamBytes typ station body
        let s := s.nextSeq
        let tag := s.seamTag (s.reg F.ethPrioSeamPcp)
        let raw : Addr := { a with udp := false, ip := 0, uport := 0, tag := tag }
        let udp : Addr := { a with udp := true, uport := s.reg F.seaUdpPort, tag := tag }
        let s := if s.flag F.seaXportRawEn then s.queueFrame p 1 false { kind := .seam, dst := raw, body := b } else s
        if udpOn then s.queueFrame p 1 false { kind := .seam, dst := udp, body := b } else s

/-- A seam message for the device (11 R233, R234): its port is up, its VID is not a strange one, its carrier enabled, its version 1, its CLUSTER the device's own,
its DST the device or a multicast. -/
def State.forSeam (s : State) (m : SeamMsg) : Bool :=
  (s.ep m.port).up && !s.strangeTag m.src.tag && s.seamCarrier m.port m.src.udp m.src.v6 m.proto m.ip && decide (m.version = 1) &&
  decide (m.cluster = s.reg F.seaIdCluster) && (decide (m.dst = s.station) || decide (m.dst = 0xFFFF))

/-- A seam message that the device takes: one for it, of which no copy, on the other port or in the other carrier, was taken before. -/
def State.takesSeam (s : State) (m : SeamMsg) : Bool := s.forSeam m && !s.sea.recent.contains (m.station, m.seq)

/-- A message taken is remembered, so that its copy on the other port is not taken again. -/
def State.noteSeam (s : State) (m : SeamMsg) : State :=
  s.setSea { s.sea with recent := ((m.station, m.seq) :: s.sea.recent).take 64 }

/-- A seam message on an up port that is discarded and counted (18 R413): its VID is a strange one, or it is of no enabled seam carrier
and of no mailbox carrier. -/
def State.seamStray (s : State) (m : SeamMsg) : Bool :=
  (s.ep m.port).up && (s.strangeTag m.src.tag || !(s.seamCarrier m.port m.src.udp m.src.v6 m.proto m.ip || s.mailProto m.src.udp m.proto))

/-- What a seam message does, once it is taken. A DETACHED device takes no part. -/
def seamRx (t : Nat) (m : SeamMsg) (f : State → State) (s : State) : Host.Outcome State Fault Refusal :=
  whenOn t (fun s =>
    if s.seamStray m then s.bump F.ethEpCntRxdrop m.port
    else if s.takesSeam m && decide (s.sea.role ≠ 0) then f (s.noteSeam m) else s) s

/-! ## Cluster time (11 R253 to R255) -/

/-- The device's cluster time now. -/
def State.ctime (s : State) : Nat := s.sea.cbase + (s.now - s.sea.cat)

/-- Cluster time as octets of (epoch, ns). -/
def State.cstamp (s : State) : List Byte := be 4 s.sea.cepoch ++ be 8 s.ctime

/-- The instant of a local time in cluster time. -/
def State.ctimeAt (s : State) (local_ : Nat) : Nat := ((s.ctime : Int) - ((s.now : Int) - local_)).toNat

/-! ## Keys and stations (11 R237, R252) -/

/-- The key of a device, as a number: higher priority first, then lower station number. -/
def keyOf (prio station : Nat) : Nat := prio * 65536 + (65535 - station)

/-- The device's priority in effect (SEA_CFG: a write takes effect at the next HELLO or ELECT). -/
def State.prio (s : State) : Nat := s.sea.prio

/-- The 16-octet HELLO body (11 R239). -/
def State.helloBody (s : State) : List Byte :=
  be 1 s.sea.role ++ be 1 s.prio ++ be 6 (s.macOf 0) ++ be 6 (s.macOf 1) ++ be 1 (b2n s.sea.valid) ++ zeros 1

/-- The 16-octet station entry (11 R252). -/
def stationBody (k : Nat) (x : Station) : List Byte :=
  be 2 k ++ be 1 x.role ++ be 1 x.prio ++ be 6 x.mac0 ++ be 6 x.mac1

/-- Members, the manager included (11 R240, R243). -/
def State.members (s : State) : Nat := if s.sea.role = 6 then s.sea.list.length + 1 else s.sea.count

/-- The manager: this device in MANAGER, else the station followed. -/
def State.managerOf (s : State) : Option Nat := if s.sea.role = 6 then some s.station else s.sea.follow

/-- A station number or 0xFFFF. -/
def orNone (x : Option Nat) : Nat := x.getD 0xFFFF

/-! ## Roles (11 R238, R260) -/

/-- What waits for a mirror at a device that is manager no more is not acknowledged: its home claims them again of the next manager,
and a REG_PUT ends with NOT_MANAGER (11 R252, R259; log entry 210). -/
def State.dropWaits (s : State) : State :=
  let l := s.sea.mwaits
  l.foldl (fun s w => match w.what with
    | .put ref => s.finishRef ref Status.notManager []
    | .claim _ _ => s) (s.setSea { s.sea with mwaits := [] })

/-- A valid BEACON has come within the last second (11 R255). -/
def Sea.fresh (x : Sea) (now : Nat) : Bool := x.arrival.any fun a => decide (now < a + sec)

/-- A role change, with ROLE_CHANGE. Cluster time stays valid at a device that is manager no more only if a valid BEACON has come within
the last second (R255). The groups and results of a device that is manager no more are discarded with the
role (11 R259, log entry 73), and what waits there is not acknowledged. -/
def State.toRole (s : State) (role reason : Nat) : State :=
  let old := s.sea.role
  let s : State := if old = 6 ∧ role ≠ 6 then
      ({ s with sc := { s.sc with groups := [], results := [] }, sea := { s.sea with valid := s.sea.fresh s.now } } : State).dropWaits
    else s
  let s := s.setSea { s.sea with role := role, entered := s.now }
  s.raise 0x601 0x70 0 (be 1 old ++ be 1 role ++ be 1 reason ++ s.open8s 110 1 ++ be 2 (orNone s.managerOf) ++
    be 2 (orNone s.sea.deputy))

/-- STATION_LEFT (11 R260). -/
def State.stationLeft (s : State) (station reason : Nat) : State :=
  s.raise 0x603 0x70 0 (be 2 station ++ be 1 reason ++ s.open8s 111 1)

/-- LISTENING (11 R242, R245, R247, R258): nothing is followed. -/
def State.toListening (s : State) (reason : Nat) : State :=
  let x : Sea := { s.sea with
    follow := none
    also := none
    deputy := none
    misses := 0
    list := []
    yield := none
    synced := false
    bulk := none
    mirrors := []
    refused := false }
  (s.setSea x).toRole 1 reason

/-- ELECTING (11 R256): entered only with a link up (R258); the first ELECT is due at once. A device that was in
DEPUTY_SYNC keeps what it had copied (R257). -/
def State.toElecting (s : State) : State :=
  if !s.anyUp then s
  else
    let x : Sea := { s.sea with
      follow := none
      also := none
      deputy := none
      misses := 0
      heard := []
      electNext := s.now
      keepReg := decide (s.sea.role = 4) }
    (s.setSea x).toRole 7 8

/-- The stations that a new manager takes for members: those whose HELLO, in a member's role, it has heard within 10 ms
(log entry 46). -/
def State.heardMembers (s : State) : Tab Station :=
  s.sea.peers.filter fun e => decide (3 ≤ e.2.role) && decide (e.2.role ≤ 5) && decide (s.now < e.2.heard + 10 * ms)

/-- MANAGER (11 R243, R245, R253, R256): cluster time is continued, or founded where there is none; the PERIOD_US of the
last valid BEACON goes into SEA_BCN; the first BEACON is due. -/
def State.toManager (s : State) (reason : Nat) : State :=
  let found := !s.sea.valid
  let old := s
  let x : Sea := { s.sea with
    follow := none
    also := none
    deputy := none
    misses := 0
    list := s.heardMembers
    synced := false
    bulk := none
    mirrors := []
    mwaits := []
    yield := none
    beacon := s.now
    valid := true
    known := true
    cepoch := if found then s.lin.epoch else s.sea.cepoch
    cbase := if found then s.now else s.ctime
    cat := s.now }
  let s := (s.setSea x).toRole 6 reason
  if s.sea.arrival = none then s else (s.setReg F.seaBcnPeriodUs 0 0 s.sea.period).kept old .seaBcn 0

/-- A deputy takes over (11 R242, R245), its BEACONs with TAKEOVER for 1 ms; a device of priority 0, which is never manager (R237),
enters ELECTING. -/
def State.takeOver (s : State) : State :=
  if s.prio = 0 then s.toElecting
  else
    let s := s.toManager 1
    s.setSea { s.sea with takeover := s.now + ms }

/-! ## The registry and its mirror (11 R249 to R252) -/

/-- A registry entry as 32 octets. -/
def entryBytes (ext : Nat) (e : RegEntry) (fill : List Byte) : List Byte :=
  be 8 ext ++ be 2 e.home ++ be 1 e.kind ++ be 1 e.flags ++ be 2 e.short ++ be 1 e.port ++ fill ++ be 4 e.key ++
    be 4 e.cepoch ++ be 8 e.cns

/-- A registry entry read from 32 octets. -/
def entryOf (b : List Byte) : Nat × RegEntry :=
  (beAt b 0 8, { home := beAt b 8 2, kind := octet b 10, flags := octet b 11 % 2, short := beAt b 12 2,
                 port := octet b 14, key := beAt b 16 4, cepoch := beAt b 20 4, cns := beAt b 24 8 })

/-- Octets cut into entries of 32. -/
def entriesOf (b : List Byte) : List (Nat × RegEntry) :=
  (List.range (b.length / 32)).map fun i => entryOf (cut b (32 * i) 32)

/-- The registry with an entry, or without it when its KIND is 0 (11 R252). -/
def putEntry (r : Tab RegEntry) (ext : Nat) (e : RegEntry) : Tab RegEntry :=
  if e.kind = 0 then tdel r ext else tset r ext e

/-- The body of MIRROR for some changes (11 R249). -/
def mirrorBody (l : List MirrorItem) : List Byte :=
  match l with
  | [] => []
  | x :: _ => be 4 x.num ++ l.flatMap fun y => entryBytes y.ext y.entry (zeros 1)

/-- A registry change at the manager (11 R249): it takes effect, and goes to the deputy, if one is appointed. -/
def State.regChange (s : State) (ext : Nat) (e : RegEntry) : State :=
  let n := s.sea.change + 1
  let s := s.setSea { s.sea with registry := putEntry s.sea.registry ext e, change := n }
  match s.sea.deputy with
  | none => s
  | some d =>
    let item : MirrorItem := { num := n, ext := ext, entry := e, sent := s.now }
    let heard := if s.sea.mirrors.isEmpty then s.now else s.sea.mirrorHeard
    let s := s.setSea { s.sea with mirrors := s.sea.mirrors ++ [item], mirrorHeard := heard }
    s.sendTo d 7 (mirrorBody [item])

/-- A waiting acknowledgement given (11 R251, R252). -/
def State.releaseWait (s : State) (w : MirrorFor) : State :=
  match w with
  | .claim k ext => s.sendTo k 0x0A (be 8 ext)
  | .put ref => s.finishRef ref Status.ok []

/-- An acknowledgement that waits for change `n` to be mirrored by a deputy in DEPUTY, or is given at once while there
is none. -/
def State.whenMirrored (s : State) (n : Nat) (w : MirrorFor) : State :=
  if s.sea.synced && (s.sea.mirrors.any fun x => decide (x.num = n)) then
    s.setSea { s.sea with mwaits := s.sea.mwaits ++ [{ num := n, what := w }] }
  else s.releaseWait w

/-- Every waiting acknowledgement whose change is mirrored, or that has no deputy in DEPUTY to wait for. -/
def State.releaseMirrored (s : State) : State :=
  let ready := s.sea.mwaits.filter fun w =>
    !(s.sea.synced && (s.sea.mirrors.any fun x => decide (x.num = w.num)))
  let s := s.setSea { s.sea with mwaits := s.sea.mwaits.filter fun w => !ready.contains w }
  ready.foldl (fun s w => s.releaseWait w.what) s

/-- A claim's time is later than the stored one. -/
def laterClaim (a b : RegEntry) : Bool := decide (b.cepoch < a.cepoch) || (decide (a.cepoch = b.cepoch) && decide (b.cns < a.cns))

/-- What a claim or release by station `k` makes of the stored entry, none for no change (11 R251, cases 1 to 6). -/
def applyClaim (old : Option RegEntry) (k : Nat) (e : RegEntry) : Option RegEntry :=
  let taken (key : Nat) : RegEntry := { e with home := k, key := key }
  if e.home = 0xFFFF then
    match old with
    | some o => if o.home = k then some { o with home := 0xFFFF } else none
    | none => none
  else match old with
    | none => some (taken 0)
    | some o =>
      if o.home = 0xFFFF ∨ o.home = k then some (taken o.key)
      else if laterClaim e o then some (taken o.key)
      else if e.cepoch = o.cepoch ∧ e.cns = o.cns ∧ k < o.home then some (taken o.key)
      else none

/-- An entry would be one too many for the registry (11 R250). -/
def State.regFull (s : State) (ext kind : Nat) : Bool :=
  (tget? s.sea.registry ext).isNone && decide (kind ≠ 0) && decide (268435456 ≤ s.sea.registry.length)

/-- A claim applied at the manager, and its acknowledgement. One that needs an entry too many changes nothing (log entry 209). -/
def State.claimAt (s : State) (k ext : Nat) (e : RegEntry) (ack : Bool) : State :=
  match applyClaim (tget? s.sea.registry ext) k e with
  | some e' =>
    if s.regFull ext e'.kind then (if ack then s.releaseWait (.claim k ext) else s)
    else
      let s := s.regChange ext e'
      if ack then s.whenMirrored s.sea.change (.claim k ext) else s
  | none => if ack then s.releaseWait (.claim k ext) else s

/-! ## Home claims (11 R251) -/

/-- A claim sent, or applied when this device is the manager; without cluster time, or without a manager, it waits. -/
def State.sendClaim (s : State) (c : Claim) : State :=
  if !s.sea.valid then s
  else
    let c := if c.timed then c
      else { c with entry := { c.entry with cepoch := s.sea.cepoch, cns := s.ctimeAt c.born }, timed := true }
    let put (s : State) (c : Claim) : State :=
      s.setSea { s.sea with claims := s.sea.claims.map fun x => if x.ext = c.ext then c else x }
    if s.sea.role = 6 then
      let s := s.claimAt s.station c.ext c.entry false
      if c.entry.home = 0xFFFF then
        s.setSea { s.sea with claims := s.sea.claims.filter fun x => decide (x.ext ≠ c.ext) }
      else put s { c with sent := some s.now, acked := true }
    else match s.sea.follow with
      | none => s
      | some m =>
        if s.sea.role = 3 ∨ s.sea.role = 4 ∨ s.sea.role = 5 then
          let home := if c.entry.home = 0xFFFF then 0xFFFF else s.station
          (put s { c with sent := some s.now, acked := false }).sendTo m 9
            (entryBytes c.ext { c.entry with home := home } (zeros 1))
        else s

/-- Every claim held sent again, to a new manager or after an election. -/
def State.resendClaims (s : State) : State := s.sea.claims.foldl (fun s c => s.sendClaim c) s

/-- A claim of a node the device has become home of, or its release (`home` 0xFFFF). KIND 1 air sensor, 2 line node. -/
def State.claim (s : State) (ext kind flags short port : Nat) (release : Bool) : State :=
  let e : RegEntry := { home := if release then 0xFFFF else s.station, kind := kind, flags := flags, short := short,
                        port := port, key := 0, cepoch := 0, cns := 0 }
  let c : Claim := { ext := ext, entry := e, born := s.now, timed := false, sent := none, acked := false }
  let s := s.setSea { s.sea with claims := (s.sea.claims.filter fun x => decide (x.ext ≠ ext)) ++ [c] }
  s.sendClaim c

/-! ## Following a station -/

/-- The device follows a station (11 R244, R251, R254): the claims it holds go to it, and DELAY_REQ is due: it
leaves within 1 ms. -/
def State.followStation (s : State) (k : Nat) : State :=
  s.setSea { s.sea with
    follow := some k
    also := none
    path := none
    delayNext := s.now }

/-- JOINING (11 R238, R240): the manager of the BEACON is followed, and JOIN_REQ is due. No BEACON of that manager has
been valid yet, so the first one is, whatever its CNS (log entry 50). -/
def State.toJoining (s : State) (k reason : Nat) : State :=
  let s := s.followStation k
  (s.setSea { s.sea with joinNext := s.now, refused := false, lastCns := none }).toRole 2 reason

/-! ## Enabling and leaving (11 R242) -/

/-- SEA_CTL.EN from 0 to 1 starts LISTENING, once a link is up at power-up (R242). -/
def State.seaEnable (s : State) : State :=
  let s := s.setReg F.seaCtlEn 0 0 1
  (s.setSea { s.sea with waits := false, prio := s.reg F.seaCfgPriority }).toListening 0

/-- LEAVE sent by role (11 R242): the manager's to its deputy, another device's to its manager. -/
def State.sendLeave (s : State) : State :=
  if s.sea.role = 6 then
    match s.sea.deputy with
    | some d => s.sendTo d 5 []
    | none => s
  else match s.sea.follow with
    | some m => s.sendTo m 5 []
    | none => s

/-- LEAVE is sent, and the device enters DETACHED (11 R242). -/
def State.seaLeave (s : State) : State :=
  if s.sea.role = 0 then s
  else
    let s := s.sendLeave
    let x : Sea := { s.sea with
      follow := none
      also := none
      deputy := none
      misses := 0
      list := []
      yield := none
      synced := false
      bulk := none
      mirrors := [] }
    (s.setSea x).toRole 0 6

/-- SEA_CTL.EN cleared. -/
def State.seaDisable (s : State) : State :=
  let s := (s.setReg F.seaCtlEn 0 0 0).seaLeave
  s.setSea { s.sea with waits := false }

/-- SEA_ENABLE (11 R242). -/
def execSeaEnable (t : Nat) (s : State) : Host.Outcome State Fault Refusal :=
  whenOn t (fun s => if s.flag F.seaCtlEn then s else s.seaEnable.kept s .seaCtl 0) s

/-- SEA_DISABLE (11 R242). -/
def execSeaDisable (t : Nat) (s : State) : Host.Outcome State Fault Refusal :=
  whenOn t (fun s =>
    if s.flag F.seaCtlEn then s.seaDisable.kept s .seaCtl 0 else s) s

/-! ## Deputies (11 R248) -/

/-- The eligible member with the highest key. -/
def bestMember (l : Tab Station) : Option Nat :=
  (l.filter fun e => decide (e.2.prio ≠ 0)).foldl (fun best e =>
    match best with
    | none => some e.1
    | some b =>
      let p := match tget? l b with
        | some x => x.prio
        | none => 0
      if keyOf p b < keyOf e.2.prio e.1 then some e.1 else some b) none

/-- A manager without a deputy appoints one; the registry as it stands is copied to it, and every change after it is mirrored. -/
def State.appoint (s : State) : State :=
  if s.sea.role ≠ 6 ∨ s.sea.deputy ≠ none ∨ s.sea.yield ≠ none then s
  else match bestMember s.sea.list with
    | none => s
    | some d =>
      let x : Sea := { s.sea with
        deputy := some d
        synced := false
        bulk := some (s.sea.change, s.sea.registry)
        mirrors := []
        mirrorHeard := s.now }
      (s.setSea x).sendTo d 6 []

/-- PRIORITY taken for a HELLO or an ELECT. A manager or deputy whose priority has become 0, which R237 does not let it be, sends LEAVE
as R242 has it and starts anew in LISTENING (log entry 208). -/
def State.takePrio (s : State) : State :=
  let p := s.reg F.seaCfgPriority
  if p = 0 ∧ 4 ≤ s.sea.role ∧ s.sea.role ≤ 6 then ((s.setSea { s.sea with prio := p }).sendLeave).toListening 6
  else s.setSea { s.sea with prio := p }

/-- A member leaves the manager's list, with STATION_LEFT; a deputy that leaves is replaced. -/
def State.dropMember (s : State) (k reason : Nat) : State :=
  let gone := decide (s.sea.deputy = some k)
  let x : Sea := { s.sea with list := tdel s.sea.list k }
  let x : Sea := if gone then { x with deputy := none, synced := false, bulk := none, mirrors := [] } else x
  let s := (s.setSea x).stationLeft k reason
  if gone then s.releaseMirrored.appoint else s

/-! ## HELLO (11 R239) -/

/-- The instant at which a HELLO is due (11 R239): every 1 ms of the time base (00 R4), from the row that first finds one due. -/
def State.helloDue (s : State) : Nat := if s.sea.hello + 2 * ms ≤ s.now then s.now else s.sea.hello + ms

/-- HELLO_DUE (11 R239): every 1 ms. -/
def execHelloDue (t : Nat) (s : State) : Host.Outcome State Fault Refusal :=
  whenOn t (fun s =>
    if s.sea.role ≠ 0 ∧ s.sea.hello + ms ≤ s.now then
      let due := s.helloDue
      let s := s.takePrio
      let s := s.castAll 2 s.helloBody
      s.setSea { s.sea with hello := due }
    else s) s

/-- The address a HELLO gives on a port: its MAC address, and its IP address where it came over UDP, else the one before. -/
def helloAddr (old : Option Addr) (a : Addr) : Addr :=
  match old with
  | some o => if a.udp then a else { o with mac := a.mac }
  | none => a

/-- A station's HELLO body noted. -/
def State.noteStation (s : State) (m : SeamMsg) : State :=
  let old := match tget? s.sea.peers m.station with
    | some x => x.addrs
    | none => []
  let x : Station := { role := octet m.body 0, prio := octet m.body 1, mac0 := beAt m.body 2 6, mac1 := beAt m.body 8 6,
                       heard := s.now, addrs := tset old m.port (helloAddr (tget? old m.port) m.src) }
  let l := match tget? s.sea.list m.station with
    | some y => if y.mac0 = x.mac0 ∧ y.mac1 = x.mac1 then tset s.sea.list m.station x else s.sea.list
    | none => s.sea.list
  s.setSea { s.sea with peers := tset s.sea.peers m.station x, list := l }

/-- HELLO_RX (11 R239): noted, each copy with the address it came from (18 R411); a deputy whose HELLO shows DEPUTY has completed its
copy (R248). -/
def execHelloRx (t : Nat) (m : SeamMsg) (s : State) : Host.Outcome State Fault Refusal :=
  whenOn t (fun s =>
    if s.seamStray m then s.bump F.ethEpCntRxdrop m.port
    else if s.forSeam m = false ∨ s.sea.role = 0 ∨ m.body.length ≠ 16 then s
    else
      let s := ((if s.takesSeam m then s.noteSeam m else s).noteStation m)
      if s.sea.role = 6 ∧ s.sea.deputy = some m.station ∧ octet m.body 0 = 5 then
        s.setSea { s.sea with synced := true, bulk := none }
      else s) s

/-- MEMBER_SILENT (11 R239): no HELLO from a member for 10 ms. -/
def execMemberSilent (t station : Nat) (s : State) : Host.Outcome State Fault Refusal :=
  whenOn t (fun s =>
    match tget? s.sea.list station with
    | some x => if s.sea.role = 6 ∧ x.heard + 10 * ms ≤ s.now then s.dropMember station 1 else s
    | none => s) s

/-! ## Listening and joining (11 R238, R240, R241) -/

/-- LISTEN_TIMEOUT (11 R238): 3 ms in LISTENING with no BEACON. -/
def execListenTimeout (t : Nat) (s : State) : Host.Outcome State Fault Refusal :=
  whenOn t (fun s => if s.sea.role = 1 ∧ s.sea.entered + 3 * ms ≤ s.now then s.toElecting else s) s

/-- SEAM_JOIN_REQ_DUE (11 R240, R241): JOIN_REQ every 1 ms, or every 100 ms after STATUS 1. -/
def execSeamJoinReqDue (t : Nat) (s : State) : Host.Outcome State Fault Refusal :=
  whenOn t (fun s =>
    match s.sea.follow with
    | some m =>
      if s.sea.role = 2 ∧ s.sea.joinNext ≤ s.now then
        let next := s.now + (if s.sea.refused then 100 * ms else ms)
        (s.setSea { s.sea with joinNext := next }).sendTo m 3 s.helloBody
      else s
    | none => s) s

/-- The JOIN_ACK body (11 R240). -/
def State.joinAck (s : State) (status : Nat) : List Byte :=
  be 1 status ++ zeros 1 ++ be 2 (orNone s.sea.deputy) ++ be 4 s.members

/-- SEAM_JOIN_REQ (11 R240, R241): at the manager. -/
def execSeamJoinReq (t : Nat) (m : SeamMsg) (s : State) : Host.Outcome State Fault Refusal :=
  seamRx t m (fun s =>
    if s.sea.role ≠ 6 ∨ m.body.length ≠ 16 then s
    else
      let mac0 := beAt m.body 2 6
      let mac1 := beAt m.body 8 6
      match tget? s.sea.list m.station with
      | some x =>
        if x.mac0 = mac0 ∧ x.mac1 = mac1 then s.sendTo m.station 4 (s.joinAck 0)
        else s.sendTo m.station 4 (s.joinAck 1)
      | none =>
        if m.station = s.station then s.sendTo m.station 4 (s.joinAck 1)
        else
          let old := match tget? s.sea.peers m.station with
            | some x => x.addrs
            | none => []
          let x : Station := { role := octet m.body 0, prio := octet m.body 1, mac0 := mac0, mac1 := mac1,
                               heard := s.now, addrs := old }
          let s := s.setSea { s.sea with list := tset s.sea.list m.station x }
          let s := s.sendTo m.station 4 (s.joinAck 0)
          (s.raise 0x602 0x70 0 (stationBody m.station x)).appoint) s

/-- JOIN_ACK (11 R240, R241): STATUS 0 makes the device a WORKER; the first STATUS 1 raises ROLE_CHANGE with
REASON 7. -/
def execJoinAck (t : Nat) (m : SeamMsg) (s : State) : Host.Outcome State Fault Refusal :=
  seamRx t m (fun s =>
    if s.sea.role ≠ 2 ∨ s.sea.follow ≠ some m.station ∨ m.body.length ≠ 8 then s
    else if octet m.body 0 = 0 then
      let d := beAt m.body 2 2
      let x : Sea := { s.sea with
        deputy := if d = 0xFFFF then none else some d
        count := beAt m.body 4 4
        refused := false
        misses := 0 }
      ((s.setSea x).toRole 3 0).resendClaims
    else if octet m.body 0 = 1 then
      let first := !s.sea.refused
      let s := s.setSea { s.sea with refused := true, joinNext := s.now + 100 * ms }
      if first then
        s.raise 0x601 0x70 0 (be 1 2 ++ be 1 2 ++ be 1 7 ++ s.open8s 110 1 ++ be 2 (orNone s.managerOf) ++
          be 2 (orNone s.sea.deputy))
      else s
    else s) s

/-- SEAM_LEAVE (11 R242): a member leaves its manager, or the manager leaves its deputy. -/
def execSeamLeave (t : Nat) (m : SeamMsg) (s : State) : Host.Outcome State Fault Refusal :=
  seamRx t m (fun s =>
    if s.sea.role = 6 then
      match tget? s.sea.list m.station with
      | some _ => s.dropMember m.station 0
      | none => s
    else if s.sea.follow = some m.station then
      if s.sea.role = 5 then s.takeOver
      else if s.sea.role = 4 then s.toElecting
      else s
    else s) s

/-- DEPUTY_APPOINT (11 R248): a worker enters DEPUTY_SYNC, with an empty copy. The number of the change up to which the copy goes, after
which it applies changes in order (R249), comes with the copy, whose form is not stated: free (log entry 211). -/
def execDeputyAppoint (t : Nat) (m : SeamMsg) (s : State) : Host.Outcome State Fault Refusal :=
  seamRx t m (fun s =>
    if s.sea.role = 3 ∧ s.sea.follow = some m.station ∧ s.prio ≠ 0 then
      (s.setSea { s.sea with registry := [], copied := [], since := [], applied := some (s.draw 298 (2 ^ 32)), deputy := some s.station }).toRole 4 3
    else s) s

/-- A bulk copy, up to change `last`, with the changes applied beside it that are later. -/
def Sea.withCopy (x : Sea) (last : Nat) (copy : Tab RegEntry) : Tab RegEntry :=
  (x.since.reverse.filter fun c => decide (last < c.1)).foldl (fun r c => putEntry r c.2.1 c.2.2) copy

/-- Whole entries of a copy, as a registry. -/
def copyOf (b : List Byte) : Tab RegEntry := (entriesOf b).foldl (fun r e => putEntry r e.1 e.2) []

/-- More of the registry's copy has come to an appointee (11 R248): which entries is free (log entry 211). -/
def State.copyGoesOn (s : State) : State :=
  if s.sea.role = 4 then
    s.setSea { s.sea with copied := (entriesOf (s.open8s 300 (32 * s.draw 299 268435457))).foldl (fun r e => putEntry r e.1 e.2) s.sea.copied }
  else s

/-- DEPUTY_SYNC_DONE (11 R248): the bulk copy of the registry, up to change `last`, is complete; the changes applied in the meantime
stay. -/
def execDeputySyncDone (t last : Nat) (copy : List Byte) (s : State) : Host.Outcome State Fault Refusal :=
  whenOn t (fun s =>
    if s.sea.role ≠ 4 then s
    else
      let x : Sea := { s.sea with
        registry := s.sea.withCopy last (copyOf copy)
        applied := some (if s.sea.since.isEmpty then last else max last (s.sea.applied.getD 0))
        copied := []
        since := [] }
      (s.setSea x).toRole 5 4) s

/-- The entries of a MIRROR applied in order of change number: those already applied are passed over, and none is
applied across a gap. -/
def applyMirror (r : Tab RegEntry) (done : Option Nat) (n : Nat) : List (Nat × RegEntry) → Tab RegEntry × Option Nat
  | [] => (r, done)
  | e :: l =>
    let next := match done with
      | some d => decide (n = d + 1)
      | none => true
    let old := match done with
      | some d => decide (n ≤ d)
      | none => false
    if next then applyMirror (putEntry r e.1 e.2) (some n) (n + 1) l
    else if old then applyMirror r done (n + 1) l
    else (r, done)

/-- MIRROR (11 R249): at the deputy. -/
def execMirror (t : Nat) (m : SeamMsg) (s : State) : Host.Outcome State Fault Refusal :=
  seamRx t m (fun s =>
    if (s.sea.role = 4 ∨ s.sea.role = 5) ∧ s.sea.follow = some m.station ∧ 36 ≤ m.body.length then
      let r := applyMirror s.sea.registry s.sea.applied (beAt m.body 0 4) (entriesOf (m.body.drop 4))
      let n0 := beAt m.body 0 4
      let new := ((entriesOf (m.body.drop 4)).zipIdx.map fun (e, i) => (n0 + i, e.1, e.2)).filter fun c =>
        (s.sea.applied.all fun a => decide (a < c.1)) && (r.2.any fun b => decide (c.1 ≤ b))
      let since := if s.sea.role = 4 then new.reverse ++ s.sea.since else []
      let s := s.setSea { s.sea with registry := r.1, applied := r.2, since := since }
      match r.2 with
      | some n => s.sendTo m.station 8 (be 4 n)
      | none => s
    else s) s

/-- MIRROR_ACK (11 R249, R251, R252): the changes up to the number are mirrored. -/
def execMirrorAck (t : Nat) (m : SeamMsg) (s : State) : Host.Outcome State Fault Refusal :=
  seamRx t m (fun s =>
    if s.sea.role = 6 ∧ s.sea.deputy = some m.station ∧ m.body.length = 4 then
      let n := beAt m.body 0 4
      let s := s.setSea { s.sea with
        mirrors := s.sea.mirrors.filter fun x => decide (n < x.num)
        mirrorHeard := s.now }
      s.releaseMirrored
    else s) s

/-- MIRROR_RESEND (11 R249): the changes not acknowledged after 10 us are sent again. -/
def execMirrorResend (t : Nat) (s : State) : Host.Outcome State Fault Refusal :=
  whenOn t (fun s =>
    match s.sea.deputy with
    | some d =>
      let late := s.sea.mirrors.filter fun x => decide (x.sent + 10 * us ≤ s.now)
      if s.sea.role ≠ 6 ∨ late.isEmpty then s
      else
        let s := s.setSea { s.sea with mirrors := s.sea.mirrors.map fun x =>
                                       if x.sent + 10 * us ≤ s.now then { x with sent := s.now } else x }
        late.foldl (fun s x => s.sendTo d 7 (mirrorBody [x])) s
    | none => s) s

/-- MIRROR_TIMEOUT (11 R249): no MIRROR_ACK for 200 us; the deputy is declared gone. -/
def execMirrorTimeout (t : Nat) (s : State) : Host.Outcome State Fault Refusal :=
  whenOn t (fun s =>
    match s.sea.deputy with
    | some d =>
      if s.sea.role = 6 ∧ s.sea.mirrors ≠ [] ∧ s.sea.mirrorHeard + 200 * us ≤ s.now then s.dropMember d 1 else s
    | none => s) s

/-! ## Beacons (11 R243 to R247) -/

/-- PERIOD_US as the device takes it (11 R243). -/
def State.periodUs (s : State) : Nat := clamp 8 1024 (s.reg F.seaBcnPeriodUs)

/-- The BEACON body (11 R243), as it is due; CNS is put in as it leaves (`State.stampFrame`). -/
def State.beaconBody (s : State) : List Byte :=
  let x := s.sea
  let y := match x.yield with
    | some (k, _) => k
    | none => 0xFFFF
  let flags := b2n x.synced + 2 * b2n (decide (x.beacon < x.takeover)) + 4 * b2n (decide (x.beacon < x.elected)) +
    8 * b2n (x.yield.isSome)
  be 4 x.cepoch ++ be 8 (s.ctimeAt x.beacon) ++ be 2 s.station ++ be 2 (orNone x.deputy) ++ be 1 flags ++ be 1 s.prio ++ be 2 s.periodUs ++ be 2 y ++
    zeros 2 ++ be 4 s.members

/-- The manager steps down after its last YIELD (11 R247): its members are told of as yielded (log entry 47). -/
def State.yielded (s : State) : State :=
  let l := s.sea.list
  let s := l.foldl (fun s e => s.stationLeft e.1 2) s
  s.toListening 5

/-- CLUSTER_BEACON_DUE (11 R243, R247): the manager's BEACON, metered from the instant of the one before; after it a manager without a
deputy appoints one. -/
def execClusterBeaconDue (t : Nat) (s : State) : Host.Outcome State Fault Refusal :=
  whenOn t (fun s =>
    if s.sea.role = 6 ∧ s.sea.beacon ≤ s.now then
      let s := s.castAll 1 s.beaconBody
      let s := s.setSea { s.sea with beacon := s.sea.beacon + s.periodUs * us }
      match s.sea.yield with
      | some (k, n) => if n ≤ 1 then s.yielded else s.setSea { s.sea with yield := some (k, n - 1) }
      | none => s.appoint
    else s) s

/-- Cluster time steered by a valid BEACON (11 R254, R255): to its CNS plus the path delay; until the first exchange
with the manager it holds over. A device that has never had cluster time takes the CNS as it comes (log entry 48). -/
def State.steer (s : State) (cepoch cns : Nat) : State :=
  let x := s.sea
  match x.path with
  | some d => s.setSea { x with cepoch := cepoch, cbase := cns + d, cat := s.now, known := true, valid := true }
  | none =>
    if x.known then s.setSea { x with valid := true }
    else s.setSea { x with cepoch := cepoch, cbase := cns, cat := s.now, known := true, valid := true }

/-- A CNS greater than that of the last valid BEACON of the station followed, if there was one (11 R244; log entry 50). -/
def Sea.later (x : Sea) (cns : Nat) : Bool := x.lastCns.all fun c => decide (c < cns)

/-- What a valid BEACON says, taken in (11 R244, R254). -/
def State.takeBeacon (s : State) (b : List Byte) : State :=
  let d := beAt b 14 2
  let x : Sea := { s.sea with
    arrival := some s.now
    lastCns := some (beAt b 4 8)
    period := beAt b 18 2
    misses := 0
    also := none
    count := beAt b 24 4
    deputy := if d = 0xFFFF then none else some d }
  (s.setSea x).steer (beAt b 0 4) (beAt b 4 8)

/-- A valid BEACON (11 R244, R247): a station newly followed gets the claims held; YIELD moves the device on. -/
def State.validBeacon (s : State) (m : SeamMsg) : State :=
  let held := s.sea.claims.any fun c => !c.timed
  let moved := decide (s.sea.follow ≠ some m.station)
  let s := if moved then s.followStation m.station else s
  let s := s.takeBeacon m.body
  if bit (octet m.body 16) 3 then s.toJoining (beAt m.body 20 2) 5
  else if moved || held then s.resendClaims
  else s

/-- A BEACON heard in LISTENING or ELECTING: its manager is followed, or the station that it yields to (R247). -/
def State.joinBeacon (s : State) (m : SeamMsg) (reason : Nat) : State :=
  let k := if bit (octet m.body 16) 3 then beAt m.body 20 2 else beAt m.body 12 2
  let s := s.toJoining k reason
  if k = m.station then s.takeBeacon m.body else s

/-- CLUSTER_BEACON_RX (11 R238, R244, R245, R247, R256). -/
def execClusterBeaconRx (t : Nat) (m : SeamMsg) (s : State) : Host.Outcome State Fault Refusal :=
  seamRx t m (fun s =>
    let b := m.body
    let x := s.sea
    if b.length ≠ 28 ∨ m.station = s.station then s
    else if x.role = 6 then
      if x.deputy = some m.station then s.toListening 1
      else if keyOf s.prio s.station < keyOf (octet b 17) m.station ∧ x.yield = none then
        s.setSea { x with yield := some (m.station, 4) }
      else s
    else if x.role = 1 then s.joinBeacon m 0
    else if x.role = 7 then s.joinBeacon m (if bit (octet b 16) 2 then 2 else 0)
    else if (x.follow = some m.station ∨ (x.also = some m.station ∧ s.now ≤ x.limit)) ∧ x.later (beAt b 4 8) = true then s.validBeacon m
    else s) s

/-- The next beacon deadline (11 R244), once a valid BEACON has come. -/
def Sea.deadline (x : Sea) : Option Nat := x.arrival.map fun a => a + (x.misses + 1) * x.period * us + 2 * us

/-- BEACON_MISS (11 R244, R245): a deadline passes; the third miss in a row acts by role. A device with no link up stays
in its role (R258). MISSES shows at most 3. -/
def execBeaconMiss (t : Nat) (s : State) : Host.Outcome State Fault Refusal :=
  whenOn t (fun s =>
    let x := s.sea
    if (x.role = 3 ∨ x.role = 4 ∨ x.role = 5) ∧ (x.deadline.any fun d => decide (d ≤ s.now)) = true then
      let s := (s.setSea { x with misses := x.misses + 1 }).bump F.seaMiss
      if x.misses + 1 ≠ 3 ∨ s.anyUp = false then s
      else if x.role = 5 then s.takeOver
      else
        let also := if x.role = 3 then x.deputy else none
        s.setSea { s.sea with also := also, limit := s.now + 3 * x.period * us + 24 * us }
    else s) s

/-- TAKEOVER_TIMEOUT (11 R245): no BEACON within 3 P + 24 us of the third miss. -/
def execTakeoverTimeout (t : Nat) (s : State) : Host.Outcome State Fault Refusal :=
  whenOn t (fun s =>
    if (s.sea.role = 3 ∨ s.sea.role = 4) ∧ 3 ≤ s.sea.misses ∧ s.sea.limit ≤ s.now then s.toElecting else s) s

/-! ## Claims on the seam (11 R251) -/

/-- HOME_CLAIM (11 R251): at the manager. -/
def execHomeClaim (t : Nat) (m : SeamMsg) (s : State) : Host.Outcome State Fault Refusal :=
  seamRx t m (fun s =>
    if s.sea.role ≠ 6 ∨ m.body.length ≠ 32 then s
    else
      let e := entryOf m.body
      s.claimAt m.station e.1 e.2 true) s

/-- CLAIM_ACK (11 R251): the claim is acknowledged; a release is done with. -/
def execClaimAck (t : Nat) (m : SeamMsg) (s : State) : Host.Outcome State Fault Refusal :=
  seamRx t m (fun s =>
    if s.sea.follow ≠ some m.station ∨ m.body.length ≠ 8 then s
    else
      let ext := beAt m.body 0 8
      let l := (s.sea.claims.filter fun c => !(decide (c.ext = ext) && decide (c.entry.home = 0xFFFF))).map fun c =>
        if c.ext = ext then { c with acked := true } else c
      s.setSea { s.sea with claims := l }) s

/-- CLAIM_RESEND (11 R251): an unacknowledged claim every 1 ms. -/
def execClaimResend (t ext : Nat) (s : State) : Host.Outcome State Fault Refusal :=
  whenOn t (fun s =>
    match s.sea.claims.find? (fun c => decide (c.ext = ext) && !c.acked) with
    | some c =>
      match c.sent with
      | some u => if u + ms ≤ s.now then s.sendClaim c else s
      | none => s.sendClaim c
    | none => s) s

/-! ## Elections (11 R256, R257) -/

/-- ELECT_DUE (11 R256): an eligible device in ELECTING sends ELECT on entry and every 100 us, metered from the instant at which the one
before was due (00 R4), until the close. -/
def execElectDue (t : Nat) (s : State) : Host.Outcome State Fault Refusal :=
  whenOn t (fun s =>
    if s.sea.role = 7 ∧ s.reg F.seaCfgPriority ≠ 0 ∧ s.sea.electNext ≤ s.now ∧ s.now < s.sea.entered + 1500 * us then
      let s := s.takePrio
      (s.setSea { s.sea with electNext := s.sea.electNext + 100 * us }).castOne 0x0B
        (be 1 s.prio ++ be 1 (b2n s.sea.valid) ++ zeros 6)
    else s) s

/-- ELECT_RX (11 R256): the key is noted. -/
def execElectRx (t : Nat) (m : SeamMsg) (s : State) : Host.Outcome State Fault Refusal :=
  seamRx t m (fun s =>
    if s.sea.role = 7 ∧ m.body.length = 8 ∧ octet m.body 0 ≠ 0 then
      s.setSea { s.sea with heard := tset s.sea.heard m.station (octet m.body 0) }
    else s) s

/-- ELECTION_CLOSE (11 R256, R257): 1,500 us after entry the eligible device with the highest key becomes manager, with
an empty registry unless it was in DEPUTY_SYNC: then it keeps what it had copied, and the changes applied beside it. -/
def execElectionClose (t : Nat) (s : State) : Host.Outcome State Fault Refusal :=
  whenOn t (fun s =>
    let x := s.sea
    if x.role ≠ 7 ∨ s.now < x.entered + 1500 * us ∨ s.prio = 0 ∨ s.anyUp = false then s
    else if x.heard.all fun e => decide (keyOf e.2 e.1 < keyOf s.prio s.station) then
      let found := !x.valid
      let s := s.setSea { x with registry := if x.keepReg then x.withCopy 0 x.copied else [], copied := [], since := [] }
      let s := s.toManager 2
      let s := s.setSea { s.sea with elected := s.now + ms }
      let s := (s.logFault 0x60 0x70 0 1 9 255 0 0 0).bump F.fauCntUnmasked
      let s := s.raise 0x604 0x70 0 (be 2 s.station ++ be 1 (min 255 x.heard.length) ++ be 1 (b2n found) ++
        be 4 s.members)
      s.resendClaims
    else s) s

/-! ## Path delay and lapse (11 R254, R255) -/

/-- DELAY_REQ_DUE (11 R254): within 1 ms of first following, JOINING included, and every 100 ms, metered from the instant at which the
one before was due (00 R4). Its send instant is put in as it leaves (`State.stampFrame`). -/
def execDelayReqDue (t : Nat) (s : State) : Host.Outcome State Fault Refusal :=
  whenOn t (fun s =>
    match s.sea.follow with
    | some m =>
      if (s.sea.role = 2 ∨ s.sea.role = 3 ∨ s.sea.role = 4 ∨ s.sea.role = 5) ∧ s.sea.delayNext ≤ s.now then
        (s.setSea { s.sea with delayNext := s.sea.delayNext + 100 * ms }).sendTo m 0x0C (be 8 s.now ++ zeros 8)
      else s
    | none => s) s

/-- DELAY_REQ (11 R254): answered by the manager with its cluster-time receive instant. -/
def execDelayReq (t : Nat) (m : SeamMsg) (s : State) : Host.Outcome State Fault Refusal :=
  seamRx t m (fun s =>
    if s.sea.role = 6 ∧ m.body.length = 16 then s.sendTo m.station 0x0D (cut m.body 0 8 ++ be 8 s.ctime) else s) s

/-- DELAY_RESP (11 R254): the path delay is half the round trip, reckoned from the DELAY_REQ's two instants one way and
from the last valid BEACON's the other (18 R418; log entry 49). -/
def execDelayResp (t : Nat) (m : SeamMsg) (s : State) : Host.Outcome State Fault Refusal :=
  seamRx t m (fun s =>
    match s.sea.arrival, s.sea.lastCns with
    | some a, some c =>
      if s.sea.follow = some m.station ∧ m.body.length = 16 then
        let out : Int := (beAt m.body 8 8 : Int) - beAt m.body 0 8
        s.setSea { s.sea with path := some ((out + ((a : Int) - c)) / 2).toNat }
      else s
    | _, _ => s) s

/-- CLUSTER_TIME_LAPSE (11 R255): no valid BEACON for 1 s. -/
def execClusterTimeLapse (t : Nat) (s : State) : Host.Outcome State Fault Refusal :=
  whenOn t (fun s =>
    if s.sea.role ≠ 6 ∧ s.sea.valid ∧ s.sea.fresh s.now = false then s.setSea { s.sea with valid := false } else s) s

/-! ## The CLU family (04 R85; 11 R250, R252) -/

/-- CLU STATUS. -/
def State.serveCluStatus (s : State) (f : Flight) : State :=
  if f.operand.length ≠ 0 then s.finish f false Status.badLength []
  else
    let m := s.managerOf
    s.finish f false Status.ok
      (be 1 s.sea.role ++ s.open8s 960 1 ++ be 2 s.station ++ be 2 (orNone m) ++ be 2 (orNone s.sea.deputy) ++
        be 4 (if m.isSome then s.sea.cepoch else 0))

/-- CLU REG_GET: NOT_MANAGER elsewhere, NO_ROUTE for an EXT without an entry. -/
def State.serveRegGet (s : State) (f : Flight) : State :=
  if f.operand.length ≠ 8 then s.finish f false Status.badLength []
  else if s.sea.role ≠ 6 then s.finish f false Status.notManager []
  else
    let ext := beAt f.operand 0 8
    match tget? s.sea.registry ext with
    | some e => s.finish f false Status.ok (entryBytes ext e (s.open8s 960 1))
    | none => s.finish f false Status.noRoute []

/-- CLU REG_PUT (11 R252): KIND, DIGEST and KEY are taken; KIND 0 frees the entry; OK follows the mirror. -/
def State.serveRegPut (s : State) (f : Flight) : State :=
  if f.operand.length ≠ 32 then s.finish f false Status.badLength []
  else
    let e := entryOf f.operand
    if 2 < e.2.kind then s.finish f false Status.badLength []
    else if s.sea.role ≠ 6 then s.finish f false Status.notManager []
    else
      let old := tget? s.sea.registry e.1
      if s.regFull e.1 e.2.kind then s.finish f false Status.badAddress []
      else
        let base : RegEntry := old.getD { home := 0xFFFF, kind := 0, flags := 0, short := 0, port := 0, key := 0,
                                          cepoch := 0, cns := 0 }
        let s := s.regChange e.1 { base with kind := e.2.kind, flags := e.2.flags, key := e.2.key }
        (s.setFlight { f with stage := .waiting }).whenMirrored s.sea.change (.put f.ref)

/-- CLU STATIONS (04 R85, 11 R252): the manager's members, itself included, from START upward; a registry command (log entry 256). -/
def State.serveStations (s : State) (f : Flight) : State :=
  let n := beAt f.operand 2 2
  if f.operand.length ≠ 4 ∨ n = 0 ∨ 511 < n then s.finish f false Status.badLength []
  else if s.sea.role ≠ 6 then s.finish f false Status.notManager []
  else
    let me : Station := { role := 6, prio := s.prio, mac0 := s.macOf 0, mac1 := s.macOf 1, heard := s.now, addrs := [] }
    let all := (tset s.sea.list s.station me).filter fun e => decide (beAt f.operand 0 2 ≤ e.1)
    let out := all.take n
    let next := if n < all.length then (match out.getLast? with
      | some e => e.1 + 1
      | none => 0xFFFF) else 0xFFFF
    s.finish f false Status.ok (be 2 next ++ s.open8s 960 2 ++ out.flatMap fun e => stationBody e.1 e.2)

/-- CLU LEAVE (11 R242). -/
def State.serveCluLeave (s : State) (f : Flight) : State :=
  if f.operand.length ≠ 0 then s.finish f false Status.badLength []
  else s.seaLeave.finish f false Status.ok []

/-- CLU_STATUS arrives (03 R57, R62: CLUSTER right); the steward serves it. -/
def execCluStatus (t : Nat) (m : Inbound) (s : State) : Host.Outcome State Fault Refusal :=
  whenOn t (fun s => s.arriveFw m 0x701 Right.cluster) s

/-- CLU_REG_GET arrives; the steward serves it under 11 R252. -/
def execCluRegGet (t : Nat) (m : Inbound) (s : State) : Host.Outcome State Fault Refusal :=
  whenOn t (fun s => s.arriveFw m 0x702 Right.cluster) s

/-- CLU_REG_PUT arrives (CLUSTER right); the steward serves it under 11 R252. -/
def execCluRegPut (t : Nat) (m : Inbound) (s : State) : Host.Outcome State Fault Refusal :=
  whenOn t (fun s => s.arriveFw m 0x703 Right.cluster) s

/-- CLU_STATIONS arrives; the steward serves it under 11 R252. -/
def execCluStations (t : Nat) (m : Inbound) (s : State) : Host.Outcome State Fault Refusal :=
  whenOn t (fun s => s.arriveFw m 0x704 Right.cluster) s

/-- CLU_LEAVE arrives (CLUSTER right); the steward serves it under 11 R242. -/
def execCluLeave (t : Nat) (m : Inbound) (s : State) : Host.Outcome State Fault Refusal :=
  whenOn t (fun s => s.arriveFw m 0x705 Right.cluster) s

end Sys2Proof.Machine
end

