-- ==== Sys2Proof/Machine/LineBase.lean ====
section
/-!
DEFINITION. Machine/LineBase.lean: what the line families share: the line ports and link slots, what a port puts out (06 R119),
busy and idle, and the queue of a link slot (08 R162 to R164).
-/

namespace Sys2Proof.Machine

open Sys2Proof

/-! ## Access to the line ports -/

/-- A link slot with nothing on it. -/
def LineSlot.init : LineSlot :=
  { cands := [], rx := none, ack := none, tx := none, queue := [], draw := none, ready := 0, idle := 0, hot := false,
    reserved := 0, sent := 0, quiet := 0, tail := none, await := none, map := none, version := 0, offer := none, want := none, rebuild := none,
    lastRebuild := 0, stepAt := none, choices := [], disc := none, openAt := 0, lastSeq := [] }

/-- A line port that is stopped. -/
def LinePort.init : LinePort :=
  { enabledAt := 0, conv := false, frozen := false, spur := 60, spurAt := 0, met := false, service := false, serviceAt := 0,
    scale := 0, stepped := none, gainWas := 1000000, gainFrom := 0, clean := 0, sending := none, hist := [], ordinal := 0, cells := [], cycle := [], ahead := [],
    lives := [], olds := [], discAt := 0, slots := [], overrun := 0 }

/-- A cell of the noise census. -/
def LinePort.cell (p : LinePort) (k : Nat) : Cell := tget { vals := [], avg := none } p.cells k

/-- A line port. -/
def State.lp (s : State) (n : Nat) : LinePort := tget LinePort.init s.plx.ports n

/-- A line port set. -/
def State.setLp (s : State) (n : Nat) (p : LinePort) : State :=
  { s with plx := { s.plx with ports := tset s.plx.ports n p } }

/-- A link slot. -/
def State.ls (s : State) (n m : Nat) : LineSlot := tget LineSlot.init (s.lp n).slots m

/-- A link slot set. -/
def State.setLs (s : State) (n m : Nat) (x : LineSlot) : State :=
  s.setLp n { s.lp n with slots := tset (s.lp n).slots m x }

/-- A link slot that is enabled on a port in service (06 R115, R116, R124). -/
def State.linkOn (s : State) (n m : Nat) : Bool :=
  decide (n < 24) && decide (m < 64) && (s.lp n).service && s.flag F.plxLsRegionEn n m

/-- The end F of a reception, or of the reception that an acknowledgement answers (08 R167). -/
def State.rxEnd (s : State) (n start : Nat) (h : LineHead) (map : Option PMap) (d : Int) : Nat :=
  s.lineEnd n start h.mode h.octets (mapEntries map) d

/-! ## What a port puts out (06 R119) -/

/-- A transmission of octets that starts at `start`: its slots are laid out from there. -/
def State.newTx (s : State) (n m start mode : Nat) (map : Option PMap) (plain : List Byte) : LineTx :=
  let octets := whiten plain
  { start := start, mode := mode, map := map, octets := octets, amp := s.reg F.plxLsTxTxamp n m
    slots := s.toneSlots n m start mode octets (mapEntries map)
    limited := decide (0 < (s.lp n).scale) }

/-- The slots of a port's transmissions in progress that have yet to begin, laid out anew: the grid has moved on (07 R149), or the
notch mask has changed (06 R123). -/
def State.retone (s : State) (n : Nat) : State :=
  let anew (m : Nat) (x : LineTx) : LineTx := x.relaid s.now (s.toneSlots n m x.start x.mode x.octets (mapEntries x.map))
  s.setLp n { s.lp n with slots := (s.lp n).slots.map fun e => (e.1, { e.2 with tx := e.2.tx.map (anew e.1) }) }

/-- The amplitude at which a slot sends at an instant, in 64ths of a converter code, before the steps of SCALE (08 R171): TXAMP
under the ramps, and the ramp of a transmission cut short. -/
def LineSlot.ampAt (x : LineSlot) (t : Nat) : Nat :=
  match x.tx, x.tail with
  | some y, _ => y.amp * rampAt y.slots t
  | none, some z => if t < z.slot.start + z.slot.len then z.level * (z.slot.start + z.slot.len - t) / 20000 else 0
  | none, none => 0

/-- The tone and phase, in 1/1,280,000 of a turn, that a slot sends at an instant. -/
def LineSlot.toneAt (x : LineSlot) (t : Nat) : Option (Nat × Nat) :=
  match slotAt ((match x.tx with
    | some y => y.slots
    | none => []) ++ (x.tail.map (·.slot)).toList) t with
  | some z => z.tone.map fun j => (j, z.phaseAt t)
  | none => none

/-- The factor, in millionths, by which SCALE steps of 3 dB each lower the output (08 R171; log entry 244). -/
def scaleGain (k : Nat) : Nat := [1000000, 707946, 501187, 354813, 251189, 177828, 125893, 89125].getD k 63096

/-- The factor of a port at an instant: that of SCALE, or on the 64-sample ramp to it (08 R171). -/
def LinePort.gain (p : LinePort) (t : Nat) : Nat :=
  if t < p.gainFrom + 20000 then
    (p.gainWas * (20000 - (t - p.gainFrom)) + scaleGain p.scale * (t - p.gainFrom)) / 20000
  else scaleGain p.scale

/-- SCALE set: the output ramps to its level from the one it has now. -/
def LinePort.setScale (p : LinePort) (k now : Nat) : LinePort :=
  { p with scale := k, gainWas := p.gain now, gainFrom := now }

/-- The amplitude of the sum that the front end sends at an instant, in 64ths of a code (06 R119, 08 R171). -/
def State.portAmp (s : State) (n t : Nat) : Nat :=
  (s.lp n).slots.foldl (fun a e => a + e.2.ampAt t) 0 * (s.lp n).gain t / 1000000

/-! ## Busy and idle (08 R162) -/

/-- The sense reference of a slot in the current pleat, in 0.25 dB: the largest census average of the region's groups,
or -90 dBFS where none has one. -/
def State.senseRef (s : State) (n m : Nat) : Int :=
  let lo := s.reg F.plxLsRegionLo n m / 8
  let hi := s.reg F.plxLsRegionHi n m / 8
  let p := (s.timer n).pleat - 1
  let avgs := (List.range (hi + 1 - lo)).filterMap fun g => ((s.lp n).cell (p * 80 + lo + g)).avg
  avgs.foldl (fun (a : Option Int) v => some (match a with
    | none => v
    | some w => max w v)) none |>.getD (-360)

/-- Link slot m is busy, as far as the state shows it. -/
def State.slotBusy (s : State) (n m : Nat) : Bool :=
  let x := s.ls n m
  !x.cands.isEmpty || x.rx.isSome || x.hot || x.tx.isSome || decide (s.now < x.reserved)

/-- What made a slot busy has ended at `fin`, its own transmission with its down-ramp: its idle start is no earlier (08 R162; the
interframe space is metered from there, 00 R4). -/
def State.settleIdle (s : State) (n m fin : Nat) : State :=
  s.setLs n m { s.ls n m with idle := max (s.ls n m).idle fin }

/-! ## The queue of a link slot (08 R163, R164) -/

/-- The head of the queue contends: it draws a contention slot, and became ready at `at_`. -/
def State.contend (s : State) (n m at_ : Nat) : State :=
  let x := s.ls n m
  match x.queue with
  | [] => s.setLs n m { x with draw := none }
  | f :: _ =>
    if f.delayed.isSome then s
    else s.setLs n m { x with draw := some (s.draw (200 + 64 * n + m) 4), ready := at_ }

/-- A frame in its place: by priority, then by order of queueing; a head that has made a try stays at the head. -/
def insertFrame (f : LineFrame) : List LineFrame → List LineFrame
  | [] => [f]
  | g :: l => if f.prio < g.prio ∧ g.tries = 0 then f :: g :: l else g :: insertFrame f l

/-- A frame queued on a link slot at `at_`; a frame that comes to the head contends. The slot has traffic outstanding, so its
link holds a context if one is free (R12, log entry 55). -/
def State.queueLineAt (s : State) (n m at_ : Nat) (f : LineFrame) : State :=
  let x := s.ls n m
  let q := insertFrame f x.queue
  let s := s.setLs n m { x with queue := q }
  let s := (s.place (.lineTx n m)).getD s
  if x.queue.head? = q.head? then s else s.contend n m at_

/-- A frame queued on a link slot now. -/
def State.queueLine (s : State) (n m : Nat) (f : LineFrame) : State := s.queueLineAt n m s.now f

/-- The SEQ of a new frame to a destination: one above the last sent there (R170; log entry 56). -/
def State.newSeq (s : State) (dst : Nat) : State × Nat :=
  let q := (tget 0 s.plx.seqs dst + 1) % 65536
  ({ s with plx := { s.plx with seqs := tset s.plx.seqs dst q } }, q)

/-- A frame of the device's own. -/
def ownFrame (job : LineJob) (prio typ node dst seq : Nat) (ack : Bool) (p : List Byte) : LineFrame :=
  { job := job, prio := prio, typ := typ, node := node, dst := dst, ackReq := ack, crc32 := false, sec := false, seq := seq,
    payload := p, nonce := zeros 13, mode := 1, tries := 0, airtime := 0, first := 0, delayed := none, expires := none,
    done := false, limited := false }

/-! ## Line nodes (08 R175 to R177) -/

/-- A line-node entry set or freed, and its lining record begun; a record of the same entry that still waits is
replaced (log entry 57). -/
def State.setNode (s : State) (short : Nat) (n : Option Node) : State :=
  let s := { s with plx := { s.plx with nodes := match n with
    | some x => tset s.plx.nodes short x
    | none => tdel s.plx.nodes short } }
  let keep := s.lin.writes.filter fun w => match w.what with
    | .node k _ => decide (k ≠ short)
    | _ => true
  { s with lin := { s.lin with writes := keep ++ [{ what := .node short n, ref := none }] } }

/-- A line-node entry. -/
def State.node? (s : State) (short : Nat) : Option Node := tget? s.plx.nodes short

/-- NODE_JOINED and the home claim of a node that has become JOINED (08 R175, R176; 11 R251). -/
def State.nodeJoined (s : State) (short : Nat) (x : Node) : State :=
  let s := s.raise 0x404 0x10 x.port (be 2 short ++ be 1 x.slot ++ be 1 x.hops ++ be 8 x.ext)
  s.claim x.ext 2 0 short x.port false

/-- A node entry as 64 octets (08 R177). -/
def State.nodeBytes (s : State) (short : Nat) (x : Node) : List Byte :=
  be 2 short ++ be 1 x.port ++ be 1 x.slot ++ be 1 x.state ++ be 1 x.flags ++ be 1 x.hops ++ be 1 x.mapver ++ be 8 x.ext ++
    ((x.route.flatMap fun r => be 2 r) ++ zeros (16 - 2 * x.route.length)) ++ be 4 x.lastEpoch ++ be 8 x.lastNs ++
    be 2 (match x.sn with
      | some v => twos 16 v
      | none => 0x8000) ++ be 1 x.margin ++ s.open8s 970 1 ++ be 4 x.rxOk ++ be 4 x.tx ++ be 4 x.txFail ++ s.open8s 971 4

/-! ## Downlink results (04 R86) -/

/-- The 36-octet downlink result. -/
def State.downlinkResult (s : State) (result tries airtimeUs first : Nat) (nonce : List Byte) : List Byte :=
  be 1 result ++ be 1 tries ++ s.open8s 980 2 ++ be 4 airtimeUs ++ be 4 (if tries = 0 then 0 else s.lin.epoch) ++ be 8 first ++
    nonce ++ s.open8s 982 3

/-- A host downlink on the line ends with a RESULT; AIRTIME_US drops the fraction of a microsecond (log entry 258). -/
def State.lineResult (s : State) (ref : Nat) (f : LineFrame) (result : Nat) : State :=
  s.finishRef ref Status.ok (s.downlinkResult result f.tries (f.airtime / us) f.first f.nonce)

end Sys2Proof.Machine
end

