-- ==== Sys2Proof/Machine/LineMap.lean ====
section
/-!
DEFINITION. Machine/LineMap.lean: the noise census, the map builder, rebuilds and offers (07), and PLEAT_START (05
R112). Powers are natural numbers in units of 2^-64 of a full-scale tone in its bin; levels are in 0.25 dB of dBFS.
-/

namespace Sys2Proof.Machine

open Sys2Proof

/-! ## Powers and levels -/

/-- The unit of power: I and Q have 24 bits (06 R121), and a full-scale tone reads 2^23 (log entry 198). -/
def fullScale : Nat := 2 ^ 46

/-- Power num / den is at least `q` quarter dB above full scale: exactly, in whole numbers. -/
def levelAtLeast (num den : Nat) (q : Int) : Bool :=
  if 0 ≤ q then decide ((den * fullScale) ^ 40 * 10 ^ q.toNat ≤ num ^ 40)
  else decide ((den * fullScale) ^ 40 ≤ num ^ 40 * 10 ^ (-q).toNat)

/-- The greatest level in quarter dB at or below a power, by bisection from -1024. -/
def levelFloor (num den : Nat) : Int :=
  let n : Nat := (List.range 11).foldl (fun (a : Nat) (i : Nat) =>
    let b : Nat := a + 2 ^ (10 - i)
    if levelAtLeast num den ((b : Int) - 1024) then b else a) 0
  (n : Int) - 1024

/-- A power in quarter dB. The rounding is not stated (log entry 22): the level below or the level above, by a free
value, unless the power is 0 or exactly a level. -/
def State.level (s : State) (k num den : Nat) : Int :=
  let q := levelFloor num den
  let exact := decide ((den * fullScale) ^ 40 * 10 ^ q.toNat = num ^ 40 * 10 ^ (-q).toNat)
  if num = 0 ∨ exact = true then q else q + s.draw k 2

/-! ## The census (07 R143 to R145) -/

/-- The average of pleat p, group g. -/
def LinePort.avg (p : LinePort) (pl g : Nat) : Option Int := (p.cell (pl * 80 + g)).avg

/-- The average of pleat p, group g as it stood at an instant. -/
def LinePort.avgAtTime (p : LinePort) (t pl g : Nat) : Option Int :=
  match p.olds.reverse.find? fun o => decide (t < o.1) with
  | some o => tget? o.2 (pl * 80 + g)
  | none => p.avg pl g

/-- The earliest preamble start of a candidate or reception on a port. -/
def State.oldestHeard (s : State) (n : Nat) : Option Nat :=
  ((s.lp n).slots.flatMap fun e => e.2.cands.map (·.start) ++ (e.2.rx.map fun r => r.cand.start).toList).foldl
    (fun a v => some (match a with
      | none => v
      | some w => min v w)) none

/-- The averages that a port has, as they have stood until `t`, before those of earlier times that a frame in progress needs; a frame
takes those at its data start (07 R151). -/
def State.keepAvgs (s : State) (n t : Nat) : List (Nat × Tab Int) :=
  let p := s.lp n
  (t, p.cells.filterMap fun e => e.2.avg.map fun v => (e.1, v)) :: (match s.oldestHeard n with
    | some k => p.olds.filter fun o => decide (k + 20480000 < o.1)
    | none => [])

/-- Two mean powers added. -/
def addPower (a b : Nat × Nat) : Nat × Nat := (a.1 * b.2 + b.1 * a.2, a.2 * b.2)

/-- The largest of some mean powers. -/
def topPower (l : List (Nat × Nat)) : Nat × Nat := l.foldl (fun a b => if a.1 * b.2 < b.1 * a.2 then b else a) (0, 1)

/-- The average of a cell's last 8 cycle values within 64 included cycles: the largest is dropped, the rest are averaged
in linear power; with fewer than 2 the previous average stays (07 R145). -/
def State.cellAvg (s : State) (ord : Nat) (c : Cell) : Cell :=
  let vals := lastN 8 (c.vals.filter fun v => decide (ord < v.1 + 64))
  if vals.length < 2 then { c with vals := vals }
  else
    let ps := vals.map (·.2)
    let sum := (ps.erase (topPower ps)).foldl addPower (0, 1)
    { vals := vals, avg := some (s.level 300 sum.1 (sum.2 * (ps.length - 1))) }

/-- An included cycle ends (07 R144, R145): its values enter the cells, and every average is formed anew. -/
def State.includeCycle (s : State) (n : Nat) : State :=
  let p := s.lp n
  let ord := p.ordinal + 1
  let cells := p.cycle.foldl (fun cs e => tmod { vals := [], avg := none } cs e.1 fun c =>
    { c with vals := c.vals ++ [(ord, e.2)] }) p.cells
  let olds := s.keepAvgs n s.now
  s.setLp n { p with ordinal := ord, cells := cells.map fun e => (e.1, s.cellAvg ord e.2), cycle := p.ahead, ahead := [], olds := olds }

/-- A bin that a transmission of the port's own keeps out of the census at an instant (07 R143). -/
def State.ownBin (s : State) (n t bin : Nat) : Bool :=
  (s.lp n).slots.any fun e =>
    let x := e.2
    let sends := match x.tx with
      | some y => decide (y.start ≤ t)
      | none => false
    (sends || (decide (x.sent ≤ t) && decide (0 < x.quiet) && decide (t < x.quiet + 2 * ms))) &&
      decide (s.reg F.plxLsRegionLo n e.1 ≤ bin + 2) && decide (bin ≤ s.reg F.plxLsRegionHi n e.1 + 2)

/-- The centre of an output: its instant less the channelizer's delay (06 R121, 07 R143). -/
def outCentre (o : ChanOut) : Nat := o.time - 2560000

/-- The base and rate class of the slot in which a frame that is heard is at `t`: the preamble, the delimiter and the slots of BASIC
and ROBUST at HOME, those of MAP as its layout has them (06 R128, 07 R149). -/
def State.slotHeard (s : State) (n m start : Nat) (mode : Option Nat) (syms : Nat) (map : List Nat) (d : Int) (t : Nat) :
    Option (Nat × Nat) :=
  if t < start then none
  else if mode = some 0 ∧ start + 20480000 ≤ t then
    if map.isEmpty then none
    else ((s.dataLayout n m start 0 syms map d).slots.find? fun x => decide (x.start ≤ t) && decide (t < x.start + x.len)).map
      fun x => (x.base, x.k)
  else some (s.reg F.plxLsTxHome n m, 1)

/-- The slots in which the candidates and the reception of a link are at an instant: base and rate class. A MAP candidate is taken
under the first layout that it is tried under. -/
def State.slotsHeard (s : State) (n m t : Nat) : List (Nat × Nat) :=
  let x := s.ls n m
  let map := ((x.offer.map (·.map)).toList ++ x.map.toList).head?
  (x.cands.filterMap fun c => s.slotHeard n m c.start c.mode 36 (mapEntries map) 0 t) ++
    ((x.rx.bind fun r => s.slotHeard n m r.cand.start (some r.head.mode) (4 * r.head.octets) (mapEntries r.map) r.delta t)).toList

/-- The link slots that hear a frame at an output's centre, the tone decided for their current slot, which is one of its four, and its
rate class (07 R143). -/
def State.heardTones (s : State) (n : Nat) (o : ChanOut) : List (Nat × Nat × Nat) :=
  o.decided.filterMap fun (m, tone) =>
    ((s.slotsHeard n m (outCentre o)).find? fun b => (fourTones b.1 b.2).contains tone).map fun b => (m, tone, b.2)

/-- A bin that a candidate or reception keeps out of the census: it lies in the slot's region within k of the tone decided for the
current slot (07 R143). -/
def State.heardBin (s : State) (n : Nat) (heard : List (Nat × Nat × Nat)) (bin : Nat) : Bool :=
  heard.any fun (m, tone, k) =>
    decide (s.reg F.plxLsRegionLo n m ≤ bin) && decide (bin ≤ s.reg F.plxLsRegionHi n m) && decide (tone ≤ bin + k) &&
      decide (bin ≤ tone + k)

/-- What an output contributes: the group and the power of each bin that nothing excludes (07 R143). -/
def State.contributions (s : State) (n : Nat) (o : ChanOut) : List (Nat × Nat) :=
  let heard := s.heardTones n o
  o.bins.filterMap fun (bin, i, q) =>
    if 640 ≤ bin ∨ s.ownBin n (outCentre o) bin = true ∨ s.heardBin n heard bin = true then none
    else some (bin / 8, i.natAbs ^ 2 + q.natAbs ^ 2)

/-- Powers added to the sums and counts of their keys. -/
def addTo (t : Tab (Nat × Nat)) (l : List (Nat × Nat)) : Tab (Nat × Nat) :=
  l.foldl (fun t e => tmod (0, 0) t e.1 fun v => (v.1 + e.2, v.2 + 1)) t

/-- The entry of the map in force in whose pleat some live value of a group it touches reaches basis + ERASE (07 R151). -/
def State.livesStep (s : State) (n m : Nat) (l : Live) : Bool :=
  match (s.ls n m).map with
  | none => false
  | some mp =>
    let e := mp.entries.getD l.pleat 1
    !entrySkip e && (fourTones (entryBase e) (entryK e)).any fun t =>
      match tget? l.groups (t / 8) with
      | some v => levelAtLeast v.1 v.2 (mp.basis.getD l.pleat 0 + 4 * clamp 3 40 (s.reg F.plxMapcfgErase n))
      | none => false

/-- The link steps in an included cycle (07 R155): its rebuild runs at the end of the eighth included cycle counted from
the step cycle; further steps within those do not move it. -/
def State.stepLink (s : State) (n m : Nat) : State :=
  let x := s.ls n m
  if x.stepAt.isSome then s else s.setLs n m { x with stepAt := some ((s.lp n).ordinal + 8) }

/-- One output enters the census of a port in service (07 R143, R145): the cycle its centre falls in, the one in progress or the
next, the live values, and the links it steps. -/
def State.census (s : State) (n : Nat) (o : ChanOut) : State :=
  let (p, st, _) := (s.timer n).pleatAt (outCentre o)
  let l := s.contributions n o
  let lp := s.lp n
  let old := match lp.lives with
    | x :: _ => if x.start = st ∧ x.pleat = p then x.groups else []
    | [] => []
  let live : Live := { centre := outCentre o, pleat := p, start := st, groups := addTo old l }
  let cells := l.map fun e => (p * 80 + e.1, e.2)
  let lp := if (s.timer n).next ≤ outCentre o then { lp with ahead := addTo lp.ahead cells }
    else if (s.timer n).anchor ≤ outCentre o then { lp with cycle := addTo lp.cycle cells } else lp
  let s := s.setLp n { lp with lives := live :: lp.lives }
  ((List.range 64).filter fun m => s.linkOn n m && s.livesStep n m live).foldl (fun s m => s.stepLink n m) s

/-- An output of a running port's channelizer, on the raster of 160 us: it enters the history, which holds those of the last 4 ms, at
most 25 (06 R121), and the census. An output not centred before now is not taken (log entry 199). -/
def State.takeOut (s : State) (n : Nat) (o : ChanOut) : State :=
  let lp := s.lp n
  let next := match lp.hist with
    | h :: _ => decide (h.time < o.time) && decide ((o.time - h.time) % 160000 = 0)
    | [] => true
  if !(decide (n < 24) && s.flag F.plxCtlEn n && next && decide (2560000 ≤ o.time) && decide (outCentre o < s.now)) then s
  else
    let s := s.setLp n { lp with hist := o :: lp.hist.filter fun h => decide (o.time < h.time + 4 * ms) }
    if lp.service then s.census n o else s

/-- The outputs since those before. -/
def State.takeOuts (s : State) (n : Nat) (l : List ChanOut) : State := l.foldl (fun s o => s.takeOut n o) s

/-! ## The census copy (07 R146) -/

/-- An instant of this power-up as octets of (epoch, ns). -/
def State.stampAt (s : State) (t : Nat) : List Byte := be 4 s.lin.epoch ++ be 8 t

/-- The octets of a copy: its head and 1,280 levels. -/
def State.censusCopy (s : State) (n : Nat) : List Byte :=
  let p := s.lp n
  s.stampAt (s.timer n).next ++ be 4 p.ordinal ++ (List.range 1280).flatMap fun k =>
    be 2 (match (p.cell k).avg with
      | some v => twos 16 v
      | none => 0x8000)

/-- The census copied to the next of its two buffers by a firmware spool (15 R334; log entry 178), or refused for its address. -/
def State.copyCensus (s : State) (n : Nat) : State :=
  let a0 := s.reg F.plxCenAddrHi n * 2 ^ 32 + s.reg F.plxCenAddrLo n
  let done := s.reg F.plxCenCtlCopies n
  let buf := done % 2
  let a := a0 + buf * 0x1000
  let ok := (firstBad (fun x => decide (regionOf x = .dram) && mayWrite s.mem x) a 2576).isNone
  if ok then
    let s := s.put a (s.censusCopy n)
    let s := s.spoolMoved (96 + s.draw 972 96) 2576
    (s.setReg F.plxCenCtlCopies n 0 ((done + 1) % 65536)).setReg F.plxCenCtlLast n 0 buf
  else s.setReg F.plxCenCtlErr n 0 1

/-! ## The builder (07 R152, R153) -/

/-- The nodes of a link that are reached directly (07 R155: repeaters' links belong to the repeaters). -/
def State.linkNodes (s : State) (n m : Nat) : List (Nat × Node) :=
  s.plx.nodes.filter fun e => decide (e.2.port = n) && decide (e.2.slot = m) && !bit e.2.flags 2 &&
    (decide (e.2.state = 1) || decide (e.2.state = 2))

/-- The least of some levels. -/
def minLevel (l : List Int) : Option Int :=
  l.foldl (fun (a : Option Int) v => some (match a with
    | none => v
    | some w => min v w)) none

/-- A node's reported value for a cell in quarter dB (07 R157): none for no data or a report older than 15 minutes. -/
def reported (now : Nat) (x : Node) (p g : Nat) : Option Int :=
  match x.report with
  | none => none
  | some (at_, g0, r, vals) =>
    let nb := vals.length / 16
    if at_ + 900 * sec < now ∨ r = 0 ∨ g < g0 ∨ nb ≤ (g - g0) / r then none
    else
      let v := vals.getD (p * nb + (g - g0) / r) 15
      if v = 15 then none else some ((3 * (v : Int) - 6) * 4)

/-- C[p][g] in quarter dB (07 R152). -/
def State.cellSnr (s : State) (n : Nat) (nodes : List (Nat × Node)) (p g : Nat) : Option Int :=
  match (s.lp n).avg p g, minLevel (nodes.filterMap fun e => e.2.sn) with
  | some a, some sn =>
    let u := sn - a
    match minLevel (nodes.filterMap fun e => reported s.now e.2 p g) with
    | some d => some (min u d)
    | none => some u
  | _, _ => none

/-- SNR(p, b, k): the least C over the groups that the four tones touch; unusable where one has no average. -/
def snrOf (c : Nat → Option Int) (b k : Nat) : Option Int :=
  (fourTones b k).foldl (fun (a : Option (Option Int)) t =>
    match a with
    | none => none
    | some w => match c (t / 8) with
      | none => none
      | some v => some (some (match w with
        | none => v
        | some u => min u v))) (some none) |>.join

/-- The required SNR of k = 2^i and rho = 2^j, in quarter dB (07 R153). -/
def required (i j : Nat) : Int := 4 * (12 + 3 * (i : Int) - 3 * (j : Int))

/-- A choice of the builder: base, the exponents of k and rho, and its SNR. -/
structure Pick where
  b : Nat
  i : Nat
  j : Nat
  snr : Int
  deriving DecidableEq, Repr

/-- The net rate of a choice, in sixteenths of 1,562.5 bit/s. -/
def Pick.rate (x : Pick) : Nat := 2 ^ x.i * 16 / 2 ^ x.j

/-- A choice comes before another (07 R153 step 2). -/
def Pick.better (x y : Pick) : Bool :=
  if x.rate ≠ y.rate then decide (y.rate < x.rate)
  else if x.i ≠ y.i then decide (y.i < x.i)
  else if x.snr ≠ y.snr then decide (y.snr < x.snr)
  else decide (x.b < y.b)

/-- The best of some choices. -/
def bestPick (l : List Pick) : Option Pick :=
  l.foldl (fun a x => match a with
    | none => some x
    | some y => some (if x.better y then x else y)) none

/-- The bases of rate class 2^i in the region whose four tones may all be sent, with their SNR. -/
def State.bases (s : State) (n m : Nat) (c : Nat → Option Int) (i : Nat) : List (Nat × Int) :=
  let lo := s.reg F.plxLsRegionLo n m
  let hi := s.reg F.plxLsRegionHi n m
  let k := 2 ^ i
  if hi + 1 < lo + 3 * k + 1 then []
  else (List.range (hi + 1 - 3 * k - lo)).filterMap fun d =>
    if (fourTones (lo + d) k).all fun t => s.toneOk n t then (snrOf c (lo + d) k).map fun v => (lo + d, v) else none

/-- The builder's choice for a pleat (07 R153 steps 1 and 2), none for a skip. -/
def State.pickPleat (s : State) (n m : Nat) (c : Nat → Option Int) : Option Pick :=
  let margin : Int := s.reg F.plxMapcfgMargin n
  bestPick ((List.range 4).flatMap fun i => (s.bases n m c i).flatMap fun e =>
    (List.range 5).filterMap fun j =>
      if required i j + margin ≤ e.2 then some { b := e.1, i := i, j := j, snr := e.2 } else none)

/-- The best k = 1, rho = 16 choice of a pleat, whatever the margin (07 R153 step 4). -/
def State.floorPick (s : State) (n m : Nat) (c : Nat → Option Int) : Option Pick :=
  bestPick ((s.bases n m c 0).map fun e => { b := e.1, i := 0, j := 4, snr := e.2 })

/-- The pleats that the skip floor names: the four with the largest best SNR, ties to the lower number. -/
def floorPleats (l : List (Nat × Pick)) : List Nat :=
  ((l.mergeSort fun a b => decide (b.2.snr < a.2.snr) || (decide (a.2.snr = b.2.snr) && decide (a.1 ≤ b.1))).take 4).map
    (·.1)

/-- The entry of a choice (07 R147); a skip holds BASE = HOME. -/
def pickEntry (home : Nat) : Option Pick → Nat
  | some x => x.b * 64 + x.i * 16 + x.j * 2
  | none => home * 64 + 1

/-- The largest average of some tones' groups in a pleat (07 R151, R153). -/
def State.basisOf (s : State) (n p : Nat) (tones : List Nat) : Int :=
  (tones.filterMap fun t => (s.lp n).avg p (t / 8)).foldl (fun (a : Option Int) v => some (match a with
    | none => v
    | some w => max w v)) none |>.getD (-32768)

/-- The four tones that an entry's basis looks at. -/
def entryTones (home e : Nat) : List Nat := if entrySkip e then fourTones home 1 else fourTones (entryBase e) (entryK e)

/-- The builder's map: the choice of each pleat (07 R153). -/
def State.buildMap (s : State) (n m : Nat) : List (Option Pick) :=
  let nodes := s.linkNodes n m
  let c (p : Nat) : Nat → Option Int := fun g => s.cellSnr n nodes p g
  let picks := (List.range 16).map fun p => s.pickPleat n m (c p)
  if 4 ≤ (picks.filter (·.isSome)).length then picks
  else
    let fl := (List.range 16).filterMap fun p => (s.floorPick n m (c p)).map fun x => (p, x)
    let top := floorPleats fl
    (List.range 16).map fun p => if top.contains p then tget? fl p else picks.getD p none

/-! ## The new map (07 R154) -/

/-- An entry that is masked, or outside the region or the plan. -/
def State.entryOut (s : State) (n m e : Nat) : Bool :=
  !entrySkip e && (fourTones (entryBase e) (entryK e)).any fun t =>
    !s.toneOk n t || decide (t < s.reg F.plxLsRegionLo n m) || decide (s.reg F.plxLsRegionHi n m < t)

/-- The net rate of an entry. -/
def entryRate (e : Nat) : Nat := if entrySkip e then 0 else entryK e * 16 / entryRho e

/-- The entry of a pleat in the new map (07 R154): the builder's, or the one in force. `lastOther` is when a rebuild
last did not make this choice with the SNR of case 5. -/
def State.newEntry (s : State) (n m : Nat) (c : Nat → Option Int) (pick : Option Pick) (old lastOther : Nat) : Nat :=
  let home := s.reg F.plxLsTxHome n m
  let e := pickEntry home pick
  let margin : Int := s.reg F.plxMapcfgMargin n
  let hyst : Int := s.reg F.plxMapcfgHyst n
  if s.entryOut n m old then e
  else if entryRate e < entryRate old then e
  else match pick with
    | none => e
    | some x =>
      let oldSnr := if entrySkip old then none else snrOf c (entryBase old) (entryK old)
      let oldReq := required (bits old 5 4) (bits old 3 1)
      if entryRate e = entryRate old then
        match oldSnr with
        | some v => if oldReq + margin ≤ v then (if v + hyst ≤ x.snr then e else old) else e
        | none => e
      else if lastOther + max 1 (s.reg F.plxMapholdHoldS n) * sec < s.now then e
      else old

/-- A choice that case 5 counts: its SNR meets the requirement with MARGIN and HYST. -/
def State.strong (s : State) (n : Nat) (x : Pick) : Bool :=
  decide (required x.i x.j + s.reg F.plxMapcfgMargin n + s.reg F.plxMapcfgHyst n ≤ x.snr)

/-! ## Offers (07 R159) -/

/-- The version after another: 1 to 15, and 1 after 15. -/
def nextVersion (v : Nat) : Nat := v % 15 + 1

/-- The MAP_OFFER payload: the envelope and the body (07 R156, 08 R173). -/
def offerBody (m : PMap) : List Byte :=
  be 1 5 ++ zeros 1 ++ be 1 (m.version * 16) ++ zeros 1 ++ m.entries.flatMap fun e => be 2 e

/-- A MAP_OFFER queued to a node (07 R159: a unicast BASIC frame with ACK_REQ; 08 R163: priority 0). -/
def State.sendOffer (s : State) (n m node : Nat) (p : PMap) : State :=
  let r := s.newSeq node
  r.1.queueLine n m (ownFrame (.offer node) 0 2 node node r.2 true (offerBody p))

/-- The offer ends when every node is on the offered version or has used up its tries (07 R159 step 4): the offered map
comes into force, and a map that waited is offered. -/
def State.endOffer (s : State) (n m : Nat) : State :=
  let x := s.ls n m
  match x.offer with
  | some o => if o.left.isEmpty then s.setLs n m { x with map := some o.map, offer := none } else s
  | none => s

/-- A map offered (07 R159): VERSION rises, and MAP_OFFER goes to each node of the link. -/
def State.startOffer (s : State) (n m : Nat) (p : PMap) : State :=
  let x := s.ls n m
  let v := nextVersion x.version
  let p := { p with version := v }
  let nodes := (s.linkNodes n m).map (·.1)
  let s := s.setLs n m { x with version := v, offer := some { map := p, left := nodes }, want := none }
  let s := s.bump F.plxCntOffer n
  (nodes.foldl (fun s k => s.sendOffer n m k p) s).endOffer n m

/-- The next offer, once none is in progress: a map that waited, if it still differs and the link still runs. -/
def State.nextOffer (s : State) (n m : Nat) : State :=
  let x := s.ls n m
  match x.offer, x.want with
  | none, some p =>
    if (x.map.map fun y => y.entries) = some p.entries then s.setLs n m { x with want := none }
    else if s.flag F.plxMapcfgFreeze n || !s.linkOn n m then s
    else s.startOffer n m p
  | _, _ => s

/-- A node's MAP_OFFER has ended: it is on the offered version, or it has used up its tries (07 R159). A node that has is
served in BASIC and ROBUST only. -/
def State.offerDone (s : State) (n m node : Nat) (version : Nat) (ok : Bool) : State :=
  let s := match s.node? node with
    | some y => s.setNode node (some { y with mapver := if ok then version else 0, spent := !ok })
    | none => s
  let x := s.ls n m
  match x.offer with
  | some o =>
    if o.map.version = version then
      let s := s.setLs n m { x with offer := some { o with left := o.left.filter fun k => decide (k ≠ node) } }
      (s.endOffer n m).nextOffer n m
    else s
  | none => s

/-! ## Rebuilds (07 R155) -/

/-- A rebuild of a link starts now: none runs while FREEZE is 1. -/
def State.startRebuild (s : State) (n m : Nat) : State :=
  if s.flag F.plxMapcfgFreeze n then s
  else
    let x := s.ls n m
    s.setLs n m { x with rebuild := some s.now }

/-- The cycle in progress, or the one that has just ended, is included (07 R144). -/
def State.included (s : State) (n : Nat) (x : PleatTimer) : Bool := (s.lp n).service && !x.irregular && s.phaseMet n

/-- A new region, HOME or notch mask: a rebuild runs at once, unless the cycle in progress is not included (07 R155). -/
def State.rebuildNow (s : State) (n m : Nat) : State := if s.included n (s.timer n) then s.startRebuild n m else s

/-- The link has a node with S_n, and the census has averages for its region, as its first map needs. -/
def State.canBuild (s : State) (n m : Nat) : Bool :=
  let lo := s.reg F.plxLsRegionLo n m / 8
  let hi := s.reg F.plxLsRegionHi n m / 8
  (s.linkNodes n m).any (fun e => e.2.sn.isSome) &&
    (List.range 16).any fun p => (List.range (hi + 1 - lo)).any fun g => ((s.lp n).avg p (lo + g)).isSome

/-- A rebuild completed (07 R154, R155): the new map is compared with the one in force, and offered if it differs. One that FREEZE or
a cycle that is not included has overtaken is given up (log entry 245). -/
def State.rebuildDone (s : State) (n m : Nat) : State :=
  let x := s.ls n m
  if s.flag F.plxMapcfgFreeze n || !s.included n (s.timer n) then s.setLs n m { x with rebuild := none } else
  let s := s.bump F.plxCntRebuild n
  if x.map.isNone && !s.canBuild n m then s.setLs n m { x with rebuild := none, lastRebuild := s.now }
  else
    let home := s.reg F.plxLsTxHome n m
    let nodes := s.linkNodes n m
    let picks := s.buildMap n m
    let choices : Tab (Nat × Nat) := (List.range 16).map fun p =>
      let pk := picks.getD p none
      let e := pickEntry home pk
      let strong := match pk with
        | some y => s.strong n y
        | none => false
      let old := tget (0, 0) x.choices p
      (p, (e, if !strong then s.now else if old.1 = e then old.2 else x.lastRebuild))
    let entries := match x.map with
      | none => picks.map (pickEntry home)
      | some old => (List.range 16).map fun p =>
        s.newEntry n m (fun g' => s.cellSnr n nodes p g') (picks.getD p none) (old.entries.getD p 1)
          (tget (0, 0) choices p).2
    let basis := (List.range 16).map fun p =>
      let e := entries.getD p 1
      match x.map with
      | some old => if old.entries.getD p 1 = e then old.basis.getD p 0 else s.basisOf n p (entryTones home e)
      | none => s.basisOf n p (entryTones home e)
    let p : PMap := { version := 0, entries := entries, basis := basis }
    let s := s.setLs n m { x with rebuild := none, lastRebuild := s.now, choices := choices, want := some p }
    s.nextOffer n m

/-- The rebuild in progress on a link, if there is one, completes. -/
def State.rebuilt (s : State) (n m : Nat) : State :=
  if s.linkOn n m ∧ (s.ls n m).rebuild.isSome then s.rebuildDone n m else s

/-- MAP_REBUILD_DONE (07 R154, R155): the rebuild in progress on a link completes. -/
def execMapRebuildDone (t port slot : Nat) (s : State) : Host.Outcome State Fault Refusal :=
  whenOn t (fun s => s.input (.lineTx port slot) (.lineRebuilt port slot) fun s => s.rebuilt port slot) s

/-! ## Erasures (07 R151) -/

/-- ERASE in dB (07, PLX_MAPCFG). -/
def State.eraseDb (s : State) (n : Nat) : Nat := clamp 3 40 (s.reg F.plxMapcfgErase n)

/-- The basis of a pleat for a frame (07 R151): of the map it goes by, or the largest average in HOME to HOME + 3 as it stood at the
frame's data start. -/
def State.basisFor (s : State) (n m mode start : Nat) (map : Option PMap) (p : Nat) : Int :=
  if mode = 0 then
    match map with
    | some y => y.basis.getD p 0
    | none => 0
  else
    let avgs := (fourTones (s.reg F.plxLsTxHome n m) 1).filterMap fun t => (s.lp n).avgAtTime (start + 20480000) p (t / 8)
    avgs.foldl (fun (a : Option Int) v => some (match a with
      | none => v
      | some w => max w v)) none |>.getD (-32768)

/-- A data slot is an erasure (07 R151): its centre falls in pleat p, and the live value that a group its four tones touch has in that
pleat, by the slot's end, exists and is at or above basis[p] + ERASE (log entry 246). -/
def State.erased (s : State) (n m mode start : Nat) (map : Option PMap) (d : Int) (x : DataSlot) : Bool :=
  let (p, st, _) := (s.timer n).pleatAt ((x.centre : Int) - d).toNat
  match (s.lp n).lives.find? fun l => decide (l.centre ≤ x.start + x.len) && decide (l.pleat = p) && decide (l.start = st) with
  | some l =>
    (fourTones x.base x.k).any fun t =>
      match tget? l.groups (t / 8) with
      | some v => levelAtLeast v.1 v.2 (s.basisFor n m mode start map p + 4 * s.eraseDb n)
      | none => false
  | none => false

/-! ## Pleat starts (05 R112, 07 R143 to R146, R155) -/

/-- The end of a cycle at an anchor: the census takes it in, copies are made and rebuilds started at every eighth
included cycle, and a rebuild held by a step runs when it is due. A step in a cycle that is not included holds
nothing. -/
def State.cycleEnd (s : State) (n : Nat) (x : PleatTimer) : State :=
  if s.included n x then
    let s := s.includeCycle n
    let ord := (s.lp n).ordinal
    let s := if s.flag F.plxCenCtlCopy n && decide (ord % 8 = 0) then s.copyCensus n else s
    ((List.range 64).filter fun m => s.linkOn n m).foldl (fun s m =>
      let x := s.ls n m
      match x.stepAt with
      | some d => if d ≤ ord then (s.setLs n m { x with stepAt := none }).startRebuild n m else s
      | none => if ord % 8 = 0 then s.startRebuild n m else s) s
  else
    let lp := s.lp n
    s.setLp n { lp with
      cycle := lp.ahead
      ahead := []
      slots := lp.slots.map fun e =>
        (e.1, if e.2.stepAt = some (lp.ordinal + 8) then { e.2 with stepAt := none } else e.2) }

/-- The earliest preamble start of a frame in progress on a port, sent or heard. -/
def State.oldestFrame (s : State) (n : Nat) : Option Nat :=
  ((s.oldestHeard n).toList ++ (s.lp n).slots.flatMap fun e => (e.2.tx.map (·.start)).toList ++ (e.2.ack.map (·.start)).toList).foldl
    (fun a v => some (match a with
      | none => v
      | some w => min v w)) none

/-- Entries of the grid that no frame in progress needs are dropped. -/
def pruneGrid (keep : Option Nat) : List (Nat × Nat) → List (Nat × Nat)
  | [] => []
  | e :: l =>
    match keep with
    | some k => if e.1 ≤ k then [e] else e :: pruneGrid keep l
    | none => e :: l.take 1

/-- The live values that a frame in progress may still need, and the newest (07 R151). -/
def pruneLives (keep : Option Nat) (l : List Live) : List Live :=
  match keep with
  | some k => l.takeWhile fun x => decide (k ≤ x.centre)
  | none => l.take 1

/-- PLEAT_START (05 R104, R105, R112, R113): the next pleat of timer `port` (0 to 23 a line port, 24 to 26 a phase at
OFFSET 0) starts, if it is due. `outs` are the channelizer's outputs, centred before it, since those given before. -/
def execPleatStart (t port : Nat) (outs : List ChanOut) (s : State) : Host.Outcome State Fault Refusal :=
  whenOn t (fun s =>
    let x := s.timer port
    if 27 ≤ port ∨ s.now < x.due then s
    else
      let s := s.takeOuts port outs
      let s := if x.atAnchor ∧ port < 24 then s.cycleEnd port x else s
      let s := if x.atAnchor ∧ 24 ≤ port then s.wrapBy F.mnsPhCyclesCycles (port - 24) 1 else s
      let s := s.pleatEvent port
      let y := s.timer port
      let s := s.setTimer port { y with grid := pruneGrid (s.oldestFrame port) y.grid }
      if port < 24 then
        (s.setLp port { s.lp port with lives := pruneLives (s.oldestHeard port) (s.lp port).lives }).retone port
      else s) s

/-! ## LINK MAP_READ (07 R148) -/

/-- LINK MAP_READ served: the map in force, and whether an offer is in progress. -/
def State.serveMapRead (s : State) (f : Flight) : State :=
  let n := octet f.operand 0
  let m := octet f.operand 1
  if f.operand.length ≠ 2 then s.finish f false Status.badLength []
  else if 24 ≤ n ∨ 64 ≤ m then s.finish f false Status.badAddress []
  else
    let x := s.ls n m
    let st := if x.offer.isSome then 2 else if x.map.isSome then 1 else 0
    s.finish f false Status.ok (be 1 (match x.map with
      | some y => y.version
      | none => 0) ++ be 1 st ++ s.open8s 960 2 ++ (match x.map with
      | some y => y.entries.flatMap fun e => be 2 e
      | none => zeros 32))

/-- LINK_MAP_READ arrives (03 R57, R62: OPERATE right); the steward serves it. -/
def execLinkMapRead (t : Nat) (m : Inbound) (s : State) : Host.Outcome State Fault Refusal :=
  whenOn t (fun s => s.arriveFw m 0x305 Right.operate) s

end Sys2Proof.Machine
end

