-- ==== Sys2Proof/Machine/LineTx.lean ====
section
/-!
DEFINITION. Machine/LineTx.lean: sending on the line (08): contention, tries and retries, acknowledgements sent, the
transmit-current limit, DISCOVER, downlinks, and what clearing a port or a slot ends (06 R116, 08 R164).
-/

namespace Sys2Proof.Machine

open Sys2Proof

/-! ## The port transmits (08 R171) -/

/-- Some slot of the port transmits. -/
def State.portSends (s : State) (n : Nat) : Bool := (s.lp n).slots.any fun e => e.2.tx.isSome

/-- The port's transmitting time is reckoned from an instant. -/
def State.sendStarts (s : State) (n t : Nat) : State :=
  let p := s.lp n
  if p.sending.isSome then s else s.setLp n { p with sending := some t }

/-- The port transmits no longer: the time it has transmitted is added up. -/
def State.sendEnds (s : State) (n : Nat) : State :=
  let p := s.lp n
  match p.sending with
  | some t => if s.portSends n then s else s.setLp n { p with sending := none, clean := p.clean + (s.now - t) }
  | none => s

/-! ## The end of a queued frame (08 R164, R169; 04 R86) -/

/-- The link has nothing queued and nothing in the air: its context ends. -/
def State.linkQuiet (s : State) (n m : Nat) : State :=
  let x := s.ls n m
  if x.queue.isEmpty && x.tx.isNone && x.ack.isNone then s.unplace (.lineTx n m) else s

/-- A node whose entry is PENDING becomes JOINED, or a LOST one returns (08 R175, R176). -/
def State.joinNode (s : State) (short : Nat) : State :=
  match s.node? short with
  | some x =>
    if x.state = 3 ∨ x.state = 2 then
      let y := { x with state := 1, since := s.now }
      (s.setNode short (some y)).nodeJoined short y
    else s
  | none => s

/-- What the end of a frame means to what it was for. `ok`: acknowledged; `result`: the RESULT of a host downlink. -/
def State.jobDone (s : State) (n m : Nat) (f : LineFrame) (ok : Bool) (result : Nat) : State :=
  match f.job with
  | .downlink ref =>
    if f.tries = 0 ∧ result ≠ 3 then s.finishRef ref Status.noRoute [] else s.lineResult ref f result
  | .offer node => s.offerDone n m node (beAt f.payload 2 1 / 16) ok
  | .accept node => if ok ∧ f.typ = 2 then s.joinNode node else s
  | .reject | .discover => s

/-- A frame sent with ACK_REQ has ended without an acknowledgement: its entry's TX_FAIL counts it (08 R177). -/
def State.countFail (s : State) (f : LineFrame) : State :=
  if f.ackReq then
    match s.node? f.node with
    | some y => s.setNode f.node (some { y with txFail := (y.txFail + 1) % 2 ^ 32 })
    | none => s
  else s

/-- The head of the queue is done with at `at_`: it leaves, the entry's TX_FAIL counts an unacknowledged end, and the next head
contends. -/
def State.popLine (s : State) (n m at_ : Nat) (ok : Bool) (result : Nat) : State :=
  let x := s.ls n m
  match x.queue with
  | [] => s
  | f :: l =>
    let s := s.setLs n m { x with queue := l, draw := none, await := none }
    let s := if ok then s else s.countFail f
    let s := if f.done then s else s.jobDone n m f ok result
    (s.contend n m at_).linkQuiet n m

/-- TRIES (08, PLX_ACC): 0 is taken as 1, above 8 as 8. -/
def State.lineTries (s : State) (n : Nat) : Nat := clamp 1 8 (s.reg F.plxAccTries n)

/-- A try of the head has failed at `at_` (08 R168, R169, R172): the next mode is fixed, and the random delay of 0 to
2^min(r, 4) x 20.48 ms begins; or the last try has failed. TXLIM counts if it was 1 during the try or is 1 now. -/
def State.tryFailed (s : State) (n m at_ : Nat) : State :=
  let x := s.ls n m
  match x.queue with
  | [] => s
  | f :: l =>
    if f.done ∨ s.lineTries n ≤ f.tries then s.popLine n m at_ false 2
    else
      let mode := if f.limited || decide (0 < (s.lp n).scale) then 2 else if f.mode = 0 then 1 else 2
      let wait := s.draw (210 + 64 * n + m) (2 ^ min f.tries 4 * 20480000 + 1)
      s.setLs n m { x with
        queue := { f with mode := mode, delayed := some (at_ + wait) } :: l
        draw := none
        await := none }

/-! ## Starting a try (08 R163, R169) -/

/-- The instant at which the head of the queue starts, if its slot stays idle (08 R163 step 4). -/
def LineSlot.startAt (x : LineSlot) : Option Nat :=
  match x.queue, x.draw with
  | f :: _, some d => some (max (max x.idle x.reserved) x.ready + 2560000 + (4 * f.prio + d + 1) * 1280000)
  | _, _ => none

/-- The mode of a first try (08 R169): MAP when the link has a map and the node is on it, or on the offered one; the
device's own frames are BASIC. -/
def State.firstMode (s : State) (n m : Nat) (f : LineFrame) : Nat :=
  match f.job with
  | .downlink _ =>
    match s.node? f.dst with
    | some y =>
      let x := s.ls n m
      let on (v : Option Nat) : Bool := decide (v = some y.mapver) && decide (y.mapver ≠ 0)
      if on (x.map.map (·.version)) || on (x.offer.map fun o => o.map.version) then 0 else 1
    | none => 1
  | _ => 1

/-- The map a frame goes by in MAP mode (07 R159): the offered one if its node is on the offered version, else the one in force. -/
def State.mapFor (s : State) (n m : Nat) (f : LineFrame) : Option PMap :=
  match (s.ls n m).offer, s.node? f.dst with
  | some o, some y => if o.map.version = y.mapver then some o.map else (s.ls n m).map
  | _, _ => (s.ls n m).map

/-- The header of a frame in a mode (06 R132). -/
def LineFrame.head (f : LineFrame) (mode : Nat) : LineHead :=
  { len := f.payload.length, typ := f.typ, ackReq := f.ackReq, crc32 := f.crc32, sec := f.sec, mode := mode, dst := f.dst,
    src := 0, seq := f.seq }

/-- A try begins (08 R163 step 4): its first preamble slot starts at `start`, the metered instant (00 R4), and its octets go out
whitened (06 R136). -/
def State.beginTry (s : State) (n m start : Nat) (f : LineFrame) (l : List LineFrame) : State :=
  let mode := if f.tries = 0 then s.firstMode n m f else f.mode
  let map := if mode = 0 then s.mapFor n m f else none
  let g := { f with mode := mode, tries := f.tries + 1, first := start }
  let tx := s.newTx n m start mode map (s.frameOctets n (f.head mode) f.payload)
  let s := s.setLs n m { s.ls n m with queue := g :: l, tx := some tx, draw := none }
  let s := s.bump F.plxCntTx n
  let s := if 0 < f.tries then s.bump F.plxCntRetry n else s
  let s := match s.node? f.node with
    | some y => s.setNode f.node (some { y with tx := (y.tx + 1) % 2 ^ 32 })
    | none => s
  s.sendStarts n start

/-- Frames may go to an address: it has an entry, or is that of nodes without an address or of all (06 R133, 08 R176). -/
def State.mayAddress (s : State) (dst : Nat) : Bool := decide (0xFFFE ≤ dst) || (s.node? dst).isSome

/-- The instant at which a try may start: no transmission is in progress or armed on the slot, the slot is idle, its start has come,
and lies within its 30 s; the device sends nothing to an address without an entry (R176). -/
def State.mayStart (s : State) (n m : Nat) (f : LineFrame) : Option Nat :=
  let x := s.ls n m
  match x.startAt with
  | some u =>
    if s.linkOn n m && !s.slotBusy n m && x.ack.isNone && f.delayed.isNone && !f.done && s.mayAddress f.dst && decide (u ≤ s.now) &&
        (match f.expires with
        | some e => decide (u < e)
        | none => true) then some u else none
  | none => none

/-- A contention slot that has ended idle: the try begins. -/
def State.contended (s : State) (n m : Nat) : State :=
  match (s.ls n m).queue with
  | f :: l =>
    match s.mayStart n m f with
    | some u => s.beginTry n m u f l
    | none => s
  | [] => s

/-- LINE_CONTENTION_END (08 R163): the drawn contention slot ends while the link slot is idle; the frame's transmission
starts at that end. -/
def execLineContentionEnd (t port slot : Nat) (s : State) : Host.Outcome State Fault Refusal :=
  whenOn t (fun s => s.input (.lineTx port slot) (.lineContend port slot) fun s => s.contended port slot) s

/-- A slot that turns busy while its head contends, `level` the sense detector's energy. -/
def State.defers (s : State) (n m : Nat) (level : Option Int) : State :=
  let loud := match level with
    | some v => decide (s.senseRef n m + s.reg F.plxAccSense n < v)
    | none => false
  let x := s.ls n m
  let s := if loud then s.setLs n m { x with hot := true } else s
  if s.slotBusy n m && x.draw.isSome then (s.setLs n m { s.ls n m with draw := none }).bump F.plxCntDefer n else s

/-- LINE_DEFER (08 R162, R163): the slot turns busy during contention, from the state or because the sense detector's
energy `level`, in 0.25 dB, exceeds the sense reference by SENSE. -/
def execLineDefer (t port slot : Nat) (level : Option Int) (s : State) : Host.Outcome State Fault Refusal :=
  whenOn t (fun s =>
    if !s.linkOn port slot then s
    else s.input (.lineTx port slot) (.lineDefer port slot level) fun s => s.defers port slot level) s

/-- A slot that has fallen idle. -/
def State.fallsIdle (s : State) (n m : Nat) : State :=
  let x := s.ls n m
  let s := s.setLs n m { x with hot := false, idle := if x.hot then max x.idle s.now else x.idle }
  if s.slotBusy n m then s
  else
    let x := s.ls n m
    match x.queue with
    | f :: _ =>
      if f.delayed.isNone ∧ x.await = none then
        s.setLs n m { x with draw := some (s.draw (200 + 64 * n + m) 4) }
      else s
    | [] => s

/-- LINK_SLOT_IDLE (08 R162, R163 step 5): a busy link slot falls idle; the head of its queue contends again from the
new idle start, which is now where the sense detector held it busy. -/
def execLinkSlotIdle (t port slot : Nat) (s : State) : Host.Outcome State Fault Refusal :=
  whenOn t (fun s =>
    if !s.linkOn port slot then s
    else s.input (.lineTx port slot) (.lineIdle port slot) fun s => s.fallsIdle port slot) s

/-! ## The end of a transmission (08 R167 to R169) -/

/-- The end of the transmission in progress on a slot. -/
def State.txEnd (s : State) (n : Nat) (x : LineTx) : Nat :=
  s.lineEnd n x.start x.mode x.octets.length (mapEntries x.map) 0

/-- A transmission leaves the slot at `fin`, its down-ramp with it; one that is cut there goes on through the ramp (06 R119,
R120). -/
def State.txOver (s : State) (n m fin : Nat) (cut : Bool) : State :=
  let x := s.ls n m
  let y := match x.tx with
    | some t => { x with tx := none, sent := t.start, quiet := if cut then fin + 20000 else fin
                         tail := if cut then t.cutRamp fin else none }
    | none => x
  ((s.setLs n m y).sendEnds n).settleIdle n m y.quiet

/-- A frame's own try has ended at `fin`, or is cut there: an acknowledgement window opens, or the frame is done. -/
def State.tryEnds (s : State) (n m fin : Nat) (cut : Bool) (x : LineTx) : State :=
  let s := s.txOver n m fin cut
  let y := s.ls n m
  match y.queue with
  | [] => s
  | f :: l =>
    let g := { f with airtime := f.airtime + (fin - x.start), limited := x.limited || decide (0 < (s.lp n).scale) }
    let s := s.setLs n m { y with queue := g :: l }
    if g.done then s.popLine n m fin false 2
    else if g.ackReq then s.setLs n m { s.ls n m with await := some fin }
    else s.popLine n m fin true 1

/-- LINE_TX_END (08 R167, R168): a transmission ends at F. -/
def execLineTxEnd (t port slot : Nat) (s : State) : Host.Outcome State Fault Refusal :=
  whenOn t (fun s =>
    let y := s.ls port slot
    match y.tx with
    | none => s
    | some x =>
      match y.ack with
      | some a =>
        if a.begun ∧ a.ok = some true ∧ x.start + 204800000 ≤ s.now then
          ((s.setLs port slot { y with ack := none }).txOver port slot (x.start + 204800000) false).linkQuiet port slot
        else s
      | none =>
        let f := s.txEnd port x
        if f ≤ s.now then s.tryEnds port slot f false x else s) s

/-- A candidate of the acknowledgement window of a try that ended at F (08 R168). -/
def inAckWindow (f start : Nat) : Bool := decide (f + 2360000 ≤ start) && decide (start ≤ f + 2760000)

/-- A try whose acknowledgement window has ended without a candidate fails, at F + 16 ms. -/
def State.ackLate (s : State) (n m : Nat) : State :=
  let x := s.ls n m
  match x.await with
  | some f =>
    let heard := x.cands.any (fun c => inAckWindow f c.start) || (match x.rx with
      | some r => inAckWindow f r.cand.start
      | none => false)
    if f + 16 * ms ≤ s.now ∧ heard = false then s.tryFailed n m (f + 16 * ms) else s
  | none => s

/-- LINE_ACK_TIMEOUT (08 R168): no candidate exists in the window by F + 16 ms. -/
def execLineAckTimeout (t port slot : Nat) (s : State) : Host.Outcome State Fault Refusal :=
  whenOn t (fun s => s.input (.lineTx port slot) (.lineAckLate port slot) fun s => s.ackLate port slot) s

/-- A random delay that has ended: the next try contends from that end. -/
def State.retries (s : State) (n m : Nat) : State :=
  let x := s.ls n m
  match x.queue with
  | f :: l =>
    match f.delayed with
    | some d => if d ≤ s.now then (s.setLs n m { x with queue := { f with delayed := none } :: l }).contend n m d else s
    | none => s
  | [] => s

/-- LINE_RETRY_DELAY_END (08 R169): the random delay ends; the next try contends, with I no earlier than that end. -/
def execLineRetryDelayEnd (t port slot : Nat) (s : State) : Host.Outcome State Fault Refusal :=
  whenOn t (fun s => s.input (.lineTx port slot) (.lineRetry port slot) fun s => s.retries port slot) s

/-! ## Acknowledgements sent (08 R165 to R167) -/

/-- The acknowledgement's header (08 R166). -/
def ackHead (h : LineHead) : LineHead :=
  { len := 0, typ := 1, ackReq := false, crc32 := false, sec := false, mode := 1, dst := h.src, src := h.dst, seq := h.seq }

/-- LINE_ACK_START (08 R167 step 2): at F + 2.56 ms, metered (00 R4), the armed acknowledgement's preamble starts, whatever the
payload check will show. -/
def execLineAckStart (t port slot : Nat) (s : State) : Host.Outcome State Fault Refusal :=
  whenOn t (fun s =>
    let x := s.ls port slot
    match x.ack with
    | some a =>
      let u := s.rxEnd port a.start a.head a.map a.delta + 2560000
      if !a.begun ∧ u ≤ s.now ∧ x.tx = none then
        let tx := s.newTx port slot u 1 none (s.frameOctets port (ackHead a.head) [])
        ((s.setLs port slot { x with ack := some { a with begun := true }, tx := some tx }).bump F.plxCntTx port).sendStarts port u
      else s
    | none => s) s

/-- LINE_ACK_DECISION (08 R167 step 4, 13 R289): at F + 12.80 ms the acknowledgement goes on if the front end has been told in time
that the payload check has passed, and otherwise ends with the ramp, counted. -/
def execLineAckDecision (t port slot : Nat) (s : State) : Host.Outcome State Fault Refusal :=
  whenOn t (fun s =>
    let x := s.ls port slot
    match x.ack, x.tx with
    | some a, some tx =>
      if a.begun = true ∧ tx.start + 10240000 ≤ s.now ∧ a.ok ≠ some true then
        (((s.setLs port slot { x with ack := none }).txOver port slot (tx.start + 10240000) true).bump F.plxCntAckAbort port).linkQuiet port slot
      else s
    | _, _ => s) s

/-! ## Transmit-current limit (08 R171) -/

/-- FLOOR (08, PLX_TXLIM): 0 is taken as 1, above 8 as 8. -/
def State.txFloor (s : State) (n : Nat) : Nat := clamp 1 8 (s.reg F.plxTxlimFloor n)

/-- TXLIM_STEP (08 R171): LPn_ILIM_N has been low for 10 us while the port transmits. -/
def execTxlimStep (t port : Nat) (s : State) : Host.Outcome State Fault Refusal :=
  whenOn t (fun s =>
    let p := s.lp port
    let free := match p.stepped with
      | some u => decide (u + ms ≤ s.now)
      | none => true
    if s.flag F.plxTxlimEn port && s.portSends port && decide (port < 24) then
      let s := s.setLp port { p with clean := 0, sending := some s.now }
      if free && decide (p.scale < s.txFloor port) then
        let p := s.lp port
        let slots := p.slots.map fun e => (e.1, { e.2 with tx := e.2.tx.map fun x => { x with limited := true } })
        let s := s.setLp port { p.setScale (p.scale + 1) s.now with stepped := some s.now, slots := slots }
        if p.scale = 0 then
          s.raise 0x406 0x10 port (be 1 1 ++ be 1 (slots.filter fun e => e.2.tx.isSome).length ++ s.open8s 120 2)
        else s
      else s
    else s) s

/-- The time the port has transmitted since the limit was last seen. -/
def State.cleanTime (s : State) (n : Nat) : Nat :=
  let p := s.lp n
  p.clean + (match p.sending with
    | some t => s.now - t
    | none => 0)

/-- TXLIM_RECOVER (08 R171): HOLD_S seconds of transmission have passed without the limit. -/
def execTxlimRecover (t port : Nat) (s : State) : Host.Outcome State Fault Refusal :=
  whenOn t (fun s =>
    let p := s.lp port
    let hold := clamp 1 3600 (s.reg F.plxTxlimHoldS port) * sec
    if 0 < p.scale ∧ hold ≤ s.cleanTime port then
      s.setLp port { p.setScale (p.scale - 1) s.now with clean := 0, sending := p.sending.map fun _ => s.now }
    else s) s

/-- PLX_TXLIM.EN cleared: SCALE returns to 0 at once. -/
def State.txlimOff (s : State) (n : Nat) : State :=
  (s.setReg F.plxTxlimEn n 0 0).setLp n ((s.lp n).setScale 0 s.now)

/-- TXLIM_DISABLE (08 R171). -/
def execTxlimDisable (t port : Nat) (s : State) : Host.Outcome State Fault Refusal :=
  whenOn t (fun s => if port < 24 then (s.txlimOff port).kept s .plxTxlim port else s) s

/-! ## DISCOVER (08 R174) -/

/-- The DISCOVER payload. -/
def State.discoverBody (s : State) (n m : Nat) : List Byte :=
  be 1 1 ++ zeros 1 ++ be 1 n ++ be 1 m ++ be 1 (s.reg F.plxCfgFold n) ++ be 1 (s.reg F.plxCfgPlan n) ++
    be 2 (s.reg F.plxLsRegionLo n m) ++ be 2 (s.reg F.plxLsRegionHi n m) ++ be 2 (s.reg F.plxLsTxHome n m) ++
    be 2 (s.reg F.mnsPortCfgOffset n) ++ be 1 (s.reg F.plxMapcfgErase n) ++
    be 1 (b2n (s.flag F.mnsCtlNominal) + 2 * b2n (s.flag F.plxDiscJoin n)) ++ zeros 2

/-- When a slot's next DISCOVER that has come due is queued: the first within 1 s of the port, the slot and EN allowing it, each later
one PERIOD_S after the one before, metered (00 R4), or at the change of PERIOD_S where that has already passed then. -/
def State.discoverDue (s : State) (n m : Nat) : Option Nat :=
  if s.linkOn n m && s.flag F.plxDiscEn n then
    match (s.ls n m).disc with
    | none => some s.now
    | some u =>
      let d := max (u + clamp 10 3600 (s.reg F.plxDiscPeriodS n) * sec) (s.lp n).discAt
      if d ≤ s.now then some d else none
  else none

/-- DISCOVER_DUE (08 R174): queued at priority 3, BASIC, to 0xFFFF. -/
def execDiscoverDue (t port slot : Nat) (s : State) : Host.Outcome State Fault Refusal :=
  whenOn t (fun s =>
    match s.discoverDue port slot with
    | some d =>
      let s := s.setLs port slot { s.ls port slot with disc := some d }
      let r := s.newSeq 0xFFFF
      r.1.queueLineAt port slot d (ownFrame .discover 3 2 0 0xFFFF r.2 false (r.1.discoverBody port slot))
    | none => s) s

/-! ## Host downlinks (04 R85, R86; 08 R178, R181; 14 R315 to R318) -/

/-- The octets that security adds to a payload. -/
def secOverhead (key level : Nat) : Nat := if key = 0 then 0 else 7 + micLen level

/-- The relay header of a frame sent down a route (08 R178, R181). -/
def relayDown (sec : Bool) (target seq : Nat) (route : List Nat) : List Byte :=
  be 1 (route.length * 16) ++ be 1 (0x80 + (if sec then 0x40 else 0)) ++ be 2 0 ++ be 2 target ++ be 2 seq ++
    route.flatMap fun r => be 2 r

/-- LINK DOWNLINK on its way: refused, queued on the node's slot, or given to the cipher block first (14 R318). -/
def State.lineDownlink (s : State) (f : Flight) (short : Nat) (x : Node) : State :=
  let o := f.operand
  let key := beAt o 4 4
  let level := secLevel (octet o 8)
  let flags := octet o 9
  let p := o.drop 16
  let routed := bit x.flags 2
  let limit := if routed then 248 - 2 * x.hops else 256
  let dst := if routed then x.route.headD 0 else short
  let secured := decide (key ≠ 0)
  if limit < p.length + secOverhead key level then s.finish f false Status.badLength []
  else if !s.mayAddress dst then s.finish f false Status.noRoute []
  else if s.sendBarred false key then s.finish f false Status.keyErased []
  else
    let r := s.newSeq short
    let q := if routed then r.1.newSeq dst else r
    let head := if routed then relayDown secured short r.2 x.route else []
    let fr : LineFrame := { job := .downlink f.ref, prio := octet o 3, typ := if routed then 3 else 0, node := short, dst := dst,
                            ackReq := bit flags 0, crc32 := bit flags 1, sec := secured && !routed, seq := q.2,
                            payload := if secured then head else head ++ p, nonce := zeros 13, mode := 1, tries := 0, airtime := 0,
                            first := 0, delayed := none, expires := some (f.time + 30 * sec), done := false, limited := false }
    let s := q.1.setFlight { f with stage := .waiting }
    if secured then
      let a := if routed then be 2 0 ++ be 2 short ++ be 2 r.2 else be 2 short ++ be 2 0 ++ be 2 r.2
      let z : Sealing := { ref := f.ref, port := x.port, slot := x.slot, frame := fr }
      ({ s with plx := { s.plx with sealing := s.plx.sealing ++ [z] } }).offerJob (sealJob false key level a p (.line f.ref))
    else s.queueLine x.port x.slot fr

/-- A line downlink's payload has been secured, or has failed to be (14 R318): its frame is queued, unless its node or its slot has
gone. -/
def State.lineSealed (s : State) (ref status : Nat) (nonce out : List Byte) : State :=
  match s.plx.sealing.find? fun z => decide (z.ref = ref) with
  | none => s
  | some z =>
    let s := { s with plx := { s.plx with sealing := s.plx.sealing.filter fun y => decide (y.ref ≠ ref) } }
    if status ≠ Status.ok then s.finishRef ref status []
    else if (s.node? z.frame.node).isNone ∨ s.linkOn z.port z.slot = false ∨ (s.lp z.port).service = false then
      s.finishRef ref Status.noRoute []
    else s.queueLine z.port z.slot { z.frame with payload := z.frame.payload ++ out.drop 6, nonce := nonce }

/-- LINK DOWNLINK served (04 R85, R86; 08 R164). -/
def State.serveLineDownlink (s : State) (f : Flight) : State :=
  let o := f.operand
  let plen := beAt o 10 2
  let short := beAt o 0 2
  let port := octet o 2
  if o.length < 17 ∨ plen = 0 ∨ o.length ≠ 16 + plen ∨ 3 < octet o 3 then s.finish f false Status.badLength []
  else if port ≠ 0xFF ∧ 24 ≤ port then s.finish f false Status.badAddress []
  else match s.node? short with
    | none => s.finish f false Status.noRoute []
    | some x =>
      if (x.state ≠ 1 ∧ x.state ≠ 2) ∨ (port ≠ 0xFF ∧ port ≠ x.port) ∨ (s.lp x.port).service = false ∨
          s.linkOn x.port x.slot = false then
        s.finish f false Status.noRoute []
      else s.lineDownlink f short x

/-- LINK_DOWNLINK arrives (03 R57, R62: OPERATE right); the steward serves it, and its frame is tried under 08 R163 to
R169. -/
def execLinkDownlink (t : Nat) (m : Inbound) (s : State) : Host.Outcome State Fault Refusal :=
  whenOn t (fun s => s.arriveFw m 0x304 Right.operate) s

/-- A line downlink ends at its 30 s limit with RESULT 3 (04 R86): a frame that is not in the air leaves the queue; one
that is stays until its transmission ends. -/
def State.expireLine (s : State) (ref : Nat) : State :=
  let hit := (s.plx.ports.flatMap fun p => p.2.slots.map fun e => (p.1, e.1, e.2)).find? fun e =>
    e.2.2.queue.any fun f => decide (f.job = .downlink ref)
  match hit with
  | none =>
    let r := s.downlinkResult 3 0 0 0 (zeros 13)
    ({ s with plx := { s.plx with sealing := s.plx.sealing.filter fun z => decide (z.ref ≠ ref) } }).finishRef ref Status.ok r
  | some (n, m, x) =>
    match x.queue.find? fun f => decide (f.job = .downlink ref) with
    | none => s
    | some f =>
      let head := decide (x.queue.head? = some f)
      let spent := match x.tx with
        | some y => if head && x.ack.isNone then s.now - y.start else 0
        | none => 0
      let s := s.lineResult ref { f with airtime := f.airtime + spent } 3
      if head && x.tx.isSome && x.ack.isNone then
        s.setLs n m { s.ls n m with queue := x.queue.map fun g => if g = f then { g with done := true } else g }
      else
        let s := (s.setLs n m { s.ls n m with queue := x.queue.filter fun g => decide (g ≠ f) }).countFail f
        if head then ((s.setLs n m { s.ls n m with await := none, draw := none }).contend n m s.now).linkQuiet n m else s

/-! ## What stopping ends (06 R116, 08 R164) -/

/-- Every frame queued on a link slot ends (08 R164). -/
def State.endQueue (s : State) (n m : Nat) : State :=
  let q := (s.ls n m).queue
  let s := s.setLs n m { s.ls n m with queue := [], draw := none, await := none }
  q.foldl (fun s f => let s := s.countFail f; if f.done then s else s.jobDone n m f false 2) s

/-- Frames to a SHORT that has no entry any more are not sent (08 R176): one that waits ends, a host downlink with NO_ROUTE before
its first try and with RESULT 2 after it (log entry 200); one in the air ends with its transmission, and TX_FAIL counts it then. -/
def State.dropFrames (s : State) (n m short : Nat) : State :=
  let x := s.ls n m
  let hit (f : LineFrame) : Bool := decide (f.node = short) || decide (f.dst = short)
  let air := x.tx.isSome && x.ack.isNone
  let gone := x.queue.filter fun f => hit f && !f.done
  let stay : List LineFrame := match x.queue with
    | f :: l => (if hit f then (if air then [{ f with done := true }] else []) else [f]) ++ l.filter fun g => !hit g
    | [] => []
  let s := s.setLs n m { x with queue := stay }
  let s := if !air && (x.queue.head?.any hit) then ((s.setLs n m { s.ls n m with await := none, draw := none }).contend n m s.now).linkQuiet n m else s.linkQuiet n m
  gone.foldl (fun s f => (if air ∧ x.queue.head? = some f then s else s.countFail f).jobDone n m f false 2) s

/-- The frames to a SHORT leave every queue. -/
def State.dropNode (s : State) (short : Nat) : State :=
  (s.plx.ports.flatMap fun p => p.2.slots.map fun e => (p.1, e.1)).foldl (fun s k => s.dropFrames k.1 k.2 short) s

/-- Everything on a link slot ends: receptions without a record, the transmission with the ramp (06 R119), the acknowledgement,
its contexts, and its queue. A try cut short counts its airtime. -/
def State.endSlot (s : State) (n m : Nat) : State :=
  let x := s.ls n m
  let q := match x.tx, x.ack, x.queue with
    | some tx, none, f :: l => { f with airtime := f.airtime + (s.now - tx.start) } :: l
    | _, _, q => q
  let s := s.setLs n m { x with cands := [], rx := none, ack := none, queue := q, hot := false, reserved := 0 }
  let s := (if x.tx.isSome then s.txOver n m s.now true else s).endQueue n m
  ((s.unplace (.lineRx n m 0)).unplace (.lineRx n m 1)).unplace (.lineTx n m)

end Sys2Proof.Machine
end

