-- ==== Sys2Proof/Machine/LineCommit.lean ====
section
/-!
DEFINITION. Machine/LineCommit.lean: the hand-over of a line port's snapshot, link by link (04 R94, R96; 06 R124), and
the port's entering and leaving service (06 R115 to R118).
-/

namespace Sys2Proof.Machine

open Sys2Proof

/-! ## The agreement rules of a line port (06 R124) -/

/-- The enabled slots of the shadows: slot, LO, HI, HOME, TXAMP. -/
def State.planSlots (s : State) (n : Nat) : List (Nat × Nat × Nat × Nat × Nat) :=
  (List.range 64).filterMap fun m =>
    if s.regs.shadow F.plxLsRegionEn n m = 1 then
      some (m, s.regs.shadow F.plxLsRegionLo n m, s.regs.shadow F.plxLsRegionHi n m, s.regs.shadow F.plxLsTxHome n m,
        s.regs.shadow F.plxLsTxTxamp n m)
    else none

/-- The first of HOME to HOME + 3 that the shadow of the notch mask masks. -/
def State.homeMasked (s : State) (n home : Nat) : Option Nat :=
  (fourTones home 1).find? fun t => bit (s.regs.shadow F.plxNotchMask n (t / 32)) (t % 32)

/-- The registers that the rules of 06 R124 fail at, of each failing rule the first by address. -/
def State.planBad (s : State) (n : Nat) : List Nat :=
  let slots := s.planSlots n
  let p := planTones (s.reg F.plxCfgPlan n)
  let one := slots.flatMap fun (m, lo, hi, home, _) =>
    (if p.1 ≤ lo ∧ hi ≤ p.2 ∧ lo + 3 ≤ hi ∧ lo ≤ home ∧ home + 3 ≤ hi then [] else [famAddr .plxLsRegion n m]) ++
      (match s.homeMasked n home with
      | some t => [famAddr .plxNotch n (t / 32)]
      | none => [])
  let two := slots.flatMap fun (m, lo, hi, _, _) => slots.filterMap fun (m', lo', _, _, _) =>
    if m ≠ m' ∧ lo ≤ lo' ∧ lo' < hi + 3 then some (famAddr .plxLsRegion n (min m m')) else none
  let sum : Nat := slots.foldl (fun (a : Nat) x => a + x.2.2.2.2) 0
  one ++ two ++ (if 8191 < sum then (slots.take 1).map fun x => famAddr .plxLsTx n x.1 else [])

/-- The register that COMMIT_CONFLICT names when a line port's shadows fail an agreement rule (04 R94). -/
def State.plxConflict (s : State) (n : Nat) : Option Nat :=
  (s.planBad n).foldl (fun (a : Option Nat) x => some (match a with
    | none => x
    | some y => min x y)) none

/-! ## Applying a snapshot (04 R96) -/

/-- A frame is in progress on a link, or its acknowledgement. -/
def State.linkInFrame (s : State) (n m : Nat) : Bool :=
  let x := s.ls n m
  !x.cands.isEmpty || x.rx.isSome || x.tx.isSome || x.ack.isSome || x.await.isSome || decide (s.now < x.reserved)

/-- A link takes the snapshot. A slot it disables ends; one it enables is open from now; a new region or HOME is
rebuilt for at once (07 R155). -/
def State.applyLink (s : State) (n m : Nat) : State :=
  let c := s.regs.com .plxCommit n
  let mine := c.snap.filter fun e => decide (e.1 = famAddr .plxLsRegion n m) || decide (e.1 = famAddr .plxLsTx n m)
  let old := s
  let s := mine.foldl (fun s e => s.applyReg e.1 e.2) s
  let s := s.stillWait .plxCommit n (c.waiting.filter fun k => decide (k ≠ m))
  let was := old.flag F.plxLsRegionEn n m
  let is := s.flag F.plxLsRegionEn n m
  let moved := [F.plxLsRegionLo, F.plxLsRegionHi, F.plxLsTxHome].any fun f => decide (s.reg f n m ≠ old.reg f n m)
  let s := if was && !is then s.endSlot n m
    else if is && !was then s.setLs n m { s.ls n m with openAt := s.now, idle := s.now, disc := none } else s
  if moved && s.linkOn n m then s.rebuildNow n m else s

/-- Every link of a port at its boundary takes the snapshot; with the last the hand-over is complete. -/
def State.plxBoundary (s : State) (n : Nat) : State :=
  let c := s.regs.com .plxCommit n
  if !c.pend then s
  else
    let s := (c.waiting.filter fun m => !s.linkInFrame n m).foldl (fun s m => s.applyLink n m) s
    if (s.regs.com .plxCommit n).waiting.isEmpty then s.handedOver .plxCommit n else s

/-- A snapshot of a line port taken: the notch mask, which belongs to no one link, is applied at once (06 R123, log
entry 60), and the links one by one. -/
def State.plxGo (s : State) (n : Nat) : State :=
  let c := s.regs.com .plxCommit n
  let notch := c.snap.filter fun e => match regOf e.1 with
    | some (.plxNotch, _, _) => true
    | _ => false
  let new := notch.any fun e => decide ((regWord s.regs .plxNotch n ((e.1 - famAddr .plxNotch n 0) / 4)) ≠ e.2)
  let s := notch.foldl (fun s e => s.applyReg e.1 e.2) s
  let s := s.stillWait .plxCommit n (List.range 64)
  let s := if new then ((List.range 64).filter fun m => s.linkOn n m).foldl (fun s m => s.rebuildNow n m) (s.retone n) else s
  s.plxBoundary n

/-! ## Running and in service (06 R115 to R118) -/

/-- EN of a line port set: the converter, slice correction and channelizer run. The first estimate of the worst spur is free within
what R117 and R118 leave it before convergence, -60 dBFS or lower and above -90 dBFS; a FREEZE that is 1 already holds it until the
convergence (log entry 201). -/
def State.plxStart (s : State) (n : Nat) : State :=
  let s := s.setReg F.plxCtlEn n 0 1
  let p := s.lp n
  s.setLp n { p with
    enabledAt := s.now
    conv := false
    frozen := s.flag F.plxCalFreeze n
    spur := 60 + s.draw (500 + n) 30
    spurAt := s.now
    met := s.phaseMet n
    service := false
    hist := []
    lives := [] }

/-- EN of a line port cleared (06 R116): everything on it ends, and it leaves service. -/
def State.plxStop (s : State) (n : Nat) : State :=
  let s := (s.setReg F.plxCtlEn n 0 0).setLp n { s.lp n with service := false }
  let s := (List.range 64).foldl (fun s m => if (tget? (s.lp n).slots m).isSome then s.endSlot n m else s) s
  let s := s.sendEnds n
  let p := s.lp n
  let s := s.setLp n { p with met := false, conv := false, frozen := false, sending := none }
  s.plxBoundary n

/-- PLX_ENABLE (06 R116). -/
def execPlxEnable (t port : Nat) (s : State) : Host.Outcome State Fault Refusal :=
  whenOn t (fun s => if port < 24 ∧ s.flag F.plxCtlEn port = false then (s.plxStart port).kept s .plxCtl port else s) s

/-- PLX_DISABLE (06 R116). -/
def execPlxDisable (t port : Nat) (s : State) : Host.Outcome State Fault Refusal :=
  whenOn t (fun s => if port < 24 ∧ s.flag F.plxCtlEn port = true then (s.plxStop port).kept s .plxCtl port else s) s

/-- PLX_CAL.RESTART written: CAL_CONV clears, and convergence starts again; the port stays in service. -/
def State.calRestart (s : State) (n : Nat) : State :=
  if s.flag F.plxCtlEn n then s.setLp n { s.lp n with conv := false } else s

/-- CAL_RESTART (06 R118). -/
def execCalRestart (t port : Nat) (s : State) : Host.Outcome State Fault Refusal :=
  whenOn t (fun s => if port < 24 then s.calRestart port else s) s

/-- The current estimate of the worst spur (06 R118): while the estimates are held, and at the instant at which they were last
reported, the one kept; otherwise free, since they go on tracking (log entry 201). -/
def State.spurNow (s : State) (n : Nat) : Nat :=
  let p := s.lp n
  if p.frozen ∨ p.spurAt = s.now then p.spur else s.draw (500 + n) 256

/-- PLX_CAL.FREEZE written: the estimates are held as they are, or tracking resumes. -/
def State.calFreeze (s : State) (n : Nat) (on : Bool) : State :=
  let s := s.setReg F.plxCalFreeze n 0 (b2n on)
  if s.flag F.plxCtlEn n then s.setLp n { s.lp n with frozen := on, spur := s.spurNow n, spurAt := s.now } else s

/-- CAL_FREEZE (06 R118). -/
def execCalFreeze (t port : Nat) (s : State) : Host.Outcome State Fault Refusal :=
  whenOn t (fun s => if port < 24 then s.calFreeze port true else s) s

/-- CAL_RESUME (06 R118). -/
def execCalResume (t port : Nat) (s : State) : Host.Outcome State Fault Refusal :=
  whenOn t (fun s => if port < 24 then s.calFreeze port false else s) s

/-- CAL_CONVERGED (06 R118): the estimated worst spur `spur`, in -dBFS, is at -90 dBFS or lower. A convergence that EN or RESTART has
begun runs under FREEZE too; estimates that FREEZE holds after it stand (log entry 201). -/
def execCalConverged (t port spur : Nat) (s : State) : Host.Outcome State Fault Refusal :=
  whenOn t (fun s =>
    let p := s.lp port
    let v := if p.frozen && p.conv then p.spur else min 255 spur
    if port < 24 ∧ s.flag F.plxCtlEn port = true ∧ 90 ≤ v then
      s.setLp port { p with conv := true, spur := v, spurAt := s.now }
    else s) s

/-- The conditions of 06 R115, with the phase condition met at some instant since EN was set. -/
def State.lineReady (s : State) (n : Nat) : Bool :=
  decide (n < 24) && s.flag F.plxCtlEn n && (s.lp n).conv && !s.fau.testing && ((s.lp n).met || s.phaseMet n)

/-- A line port enters service (06 R115): LINE_READY; the census runs from now, its ordinals from 1 (07 R143, R144; log entry 202);
its entries' silence is counted afresh (02 R40). LINE_READY gives PLAN as the register holds it (log entry 261). -/
def State.enterService (s : State) (n : Nat) : State :=
  let first := decide ((s.lp n).serviceAt = 0)
  let p := s.lp n
  let s := s.setLp n { p with
    service := true
    met := true
    serviceAt := s.now
    ordinal := 0
    cells := []
    cycle := []
    ahead := []
    lives := []
    olds := []
    slots := p.slots.map fun e => (e.1, { e.2 with disc := none, openAt := s.now, idle := s.now, stepAt := none }) }
  let s := if first then
      { s with plx := { s.plx with nodes := s.plx.nodes.map fun e =>
                                   if e.2.port = n then (e.1, { e.2 with since := s.now }) else e } }
    else s
  let st := if s.timerSrc n = 3 then 0xFF else (s.phase (s.timerSrc n)).state
  s.raise 0x403 0x10 n (be 1 (s.reg F.plxCfgPlan n) ++ be 1 st ++ s.open8s 400 2)

/-- LINE_READY (06 R115). -/
def execLineReady (t port : Nat) (s : State) : Host.Outcome State Fault Refusal :=
  whenOn t (fun s => if s.lineReady port ∧ (s.lp port).service = false then s.enterService port else s) s

end Sys2Proof.Machine
end

