-- ==== Sys2Proof/Machine/LineRx.lean ====
section
/-!
DEFINITION. Machine/LineRx.lean: receiving on the line: candidates and receptions (06 R138 to R142), acknowledgements
accepted and armed (08 R165 to R168), what a frame does (08 R173 to R180, R435; 07 R157, R159), and the line-node table.
-/

namespace Sys2Proof.Machine

open Sys2Proof

/-! ## Candidates (06 R138 to R140) -/

/-- THRESH in 0.25 dB (PLX_COR). -/
def State.corThresh (s : State) (n : Nat) : Nat := clamp 16 80 (s.reg F.plxCorThresh n)

/-- The metric of an output as a ratio (06 R138): the energies at the pattern's tones over the mean energies at the other three,
each summed over the 8 slots. -/
def metricOf (e : PreambleEnergy) : Nat × Nat :=
  let l := e.zip preambleTones
  let p := l.foldl (fun a x => a + x.1.getD x.2 0) 0
  let all := l.foldl (fun a x => a + x.1.foldl (· + ·) 0) 0
  (3 * p, all - p)

/-- A metric of at least `q` quarter dB: exactly, in whole numbers. -/
def metricAtLeast (m : Nat × Nat) (q : Nat) : Bool := decide (0 < m.1) && decide (m.2 ^ 40 * 10 ^ q ≤ m.1 ^ 40)

/-- A metric greater than another, and one at least 3 dB above another. -/
def metricAbove (a b : Nat × Nat) : Bool := decide (b.1 * a.2 < a.1 * b.2)
def metricWins (a b : Nat × Nat) : Bool := decide ((b.1 * a.2) ^ 10 * 1000 ≤ (a.1 * b.2) ^ 10)

/-- A peak (06 R138): at or above the threshold, greater than at the output before and not less than at the output after. -/
def isPeak (q : Nat) (before m after : Nat × Nat) : Bool := metricAtLeast m q && metricAbove m before && !metricAbove after m

/-- A candidate's context ends. -/
def State.dropCand (s : State) (n m : Nat) (c : LineCand) : State :=
  let x := s.ls n m
  (s.setLs n m { x with cands := x.cands.filter fun d => decide (d ≠ c) }).unplace (.lineRx n m c.place)

/-- A candidate held. -/
def State.holdCand (s : State) (n m : Nat) (c : LineCand) : State :=
  let x := s.ls n m
  (s.setLs n m { x with cands := x.cands ++ [c] }).bump F.plxCntCand n

/-- A peak in a context slot that is already held, in place of `old`. -/
def State.preempt (s : State) (n m : Nat) (old : List LineCand) (c : LineCand) : State :=
  let s := old.foldl (fun s d => (s.setLs n m { s.ls n m with cands := (s.ls n m).cands.filter fun e => decide (e ≠ d) }).bump
    F.plxCntPreempt n) s
  let s := old.foldl (fun s d => if d.place = c.place then s else s.unplace (.lineRx n m d.place)) s
  s.holdCand n m c

/-- A peak that takes a new context slot, or is dropped and counted for want of one. -/
def State.newCand (s : State) (n m : Nat) (c : LineCand) : State :=
  match s.place (.lineRx n m c.place) with
  | some s => s.holdCand n m c
  | none => s.bump F.plxCntCdrop n

/-- A peak found (06 R140). -/
def State.linePeak (s : State) (n m : Nat) (metric : Nat × Nat) (start : Nat) : State :=
  let x := s.ls n m
  let c (p : Nat) : LineCand := { place := p, metric := metric, start := start, mode := none, broken := false }
  if x.rx.isSome then s.bump F.plxCntLate n
  else match x.cands with
    | [] => s.newCand n m (c 0)
    | [a] => if metricWins metric a.metric then s.preempt n m [a] (c a.place) else s.newCand n m (c (1 - a.place))
    | a :: b :: _ =>
      let low := if metricAbove a.metric b.metric then b else a
      if metricWins metric a.metric && metricWins metric b.metric then s.preempt n m [a, b] (c a.place)
      else if metricWins metric low.metric then s.preempt n m [low] (c low.place)
      else s.bump F.plxCntLate n

/-- The place of the context that takes a peak (06 R140): a new one, the one it takes over, or that which goes on in spite of it. -/
def LineSlot.peakPlace (x : LineSlot) (metric : Nat × Nat) : Nat :=
  match x.rx, x.cands with
  | some r, _ => r.cand.place
  | none, [] => 0
  | none, [a] => if metricWins metric a.metric then a.place else 1 - a.place
  | none, a :: b :: _ =>
    let low := if metricAbove a.metric b.metric then b else a
    if metricWins metric a.metric && metricWins metric b.metric then a.place
    else if metricWins metric low.metric then low.place else a.place

/-- LINE_PREAMBLE_PEAK (06 R138 to R140): a correlator output that is a peak, from the energies at it and at the outputs before and
after; its preamble, 8 slots, began at `start` at the converter input (R139). A slot's own correlator is ignored while it
transmits and for 2 ms after its down-ramp (R120). -/
def execLinePreamblePeak (t port slot : Nat) (peak : LinePeak) (start : Nat) (s : State) :
    Host.Outcome State Fault Refusal :=
  whenOn t (fun s =>
    let x := s.ls port slot
    let m := metricOf peak.peak
    if s.linkOn port slot = false ∨ isPeak (s.corThresh port) (metricOf peak.before) m (metricOf peak.after) = false ∨ x.tx.isSome = true ∨
        s.now < x.quiet + 2 * ms ∨ s.now < start + 10240000 then s
    else s.input (.lineRx port slot (x.peakPlace m)) (.linePeak port slot m start) fun s => s.linePeak port slot m start) s

/-! ## The start delimiter (06 R131) -/

/-- How well 16 soft bits, positive for a 1, fit a value. -/
def softFit (soft : List Int) (v : Nat) : Int :=
  (soft.zipIdx.map fun (x, i) => if bit v (15 - i) then x else -x).foldl (· + ·) 0

/-- How many of the 16 hard-decided bits differ from a value. -/
def hardErrors (soft : List Int) (v : Nat) : Nat :=
  (soft.zipIdx.filter fun (x, i) => decide (0 < x) != bit v (15 - i)).length

/-- The mode whose delimiter is nearest, by a free draw among equals (log entry 61). -/
def State.nearest (s : State) (soft : List Int) : Nat :=
  let best := (List.range 3).foldl (fun (a : Int) m => max a (softFit soft (delimiter m))) (softFit soft (delimiter 0))
  let l := (List.range 3).filter fun m => decide (softFit soft (delimiter m) = best)
  l.getD (s.draw 410 l.length) 0

/-- The candidate of a slot in a context place. -/
def State.candAt (s : State) (n m place : Nat) : Option LineCand := (s.ls n m).cands.find? fun c => decide (c.place = place)

/-- A candidate whose delimiter or header check fails (06 R140). -/
def State.candFails (s : State) (n m : Nat) (c : LineCand) : State :=
  ((s.dropCand n m c).bump F.plxCntHdrFail n).settleIdle n m s.now

/-- What a delimiter check that falls due does. -/
def State.lineDelim (s : State) (n m place : Nat) (soft : List Int) : State :=
  match s.candAt n m place with
  | none => s
  | some c =>
    if c.mode.isSome ∨ soft.length ≠ 16 ∨ s.now < c.start + 20480000 then s
    else
      let mode := s.nearest soft
      if 3 < hardErrors soft (delimiter mode) ∨ c.broken = true then s.candFails n m c
      else
        let x := s.ls n m
        s.setLs n m { x with cands := x.cands.map fun d => if d = c then { d with mode := some mode } else d }

/-- LINE_DELIMITER_CHECK (06 R131): the 16 received soft bits decide a candidate's mode, or it fails. -/
def execLineDelimiterCheck (t port slot place : Nat) (soft : List Int) (s : State) : Host.Outcome State Fault Refusal :=
  whenOn t (fun s => s.input (.lineRx port slot place) (.lineDelim port slot place soft)
    fun s => s.lineDelim port slot place soft) s

/-! ## Line nodes heard (08 R176, R177; 07 R152, R159) -/

/-- MARGIN from a decision SNR in hundredths of a dB (06 R142): less 8.0 dB, in 0.5 dB, saturating; which way it is
rounded is free (log entry 22). -/
def State.margin (s : State) (snr : Int) : Nat :=
  let d := snr - 800
  let q := d / 50 + (if d % 50 = 0 then 0 else (s.draw 420 2 : Int))
  twos 8 (clampI (-128) 127 q)

/-- The offer of the map in force to a node that had used up its tries (07 R159). -/
def State.offerAgain (s : State) (n m short : Nat) (y : Node) : State :=
  let x := s.ls n m
  match x.map with
  | some p =>
    let queued := x.queue.any fun f => decide (f.job = .offer short)
    if y.spent && !queued && !bit y.flags 2 && (decide (y.state = 1) || decide (y.state = 2)) then
      s.sendOffer n m short p
    else s
  | none => s

/-- A frame from a node has passed its checks: its entry counts it, a PENDING or LOST entry becomes JOINED, and S_n is
formed anew when the node itself was heard. `energy` is the mean energy of the decided tone, in 2^-64 of full scale,
none for a relayed frame's origin. -/
def State.nodeHeard (s : State) (n m short start margin : Nat) (energy : Option Nat) : State :=
  match s.node? short with
  | none => s
  | some y =>
    let same := decide (y.port = n) && decide (y.slot = m)
    let old := if same then y.energies else []
    let es := match energy with
      | some e => lastN 8 (old ++ [e])
      | none => old
    let sn := if es.isEmpty then (if same then y.sn else none) else some (s.level 430 (es.foldl (· + ·) 0) es.length)
    let z : Node := { y with
      port := n
      slot := m
      mapver := if same then y.mapver else 0
      lastEpoch := s.lin.epoch
      lastNs := start
      sn := sn
      margin := margin
      rxOk := (y.rxOk + 1) % 2 ^ 32
      since := s.now
      energies := es }
    let s := (s.setNode short (some z)).joinNode short
    if energy.isSome then s.offerAgain n m short z else s

/-! ## Joining (08 R175) -/

/-- The line node with an extended address. -/
def State.nodeByExt (s : State) (ext : Nat) : Option (Nat × Node) := s.plx.nodes.find? fun e => decide (e.2.ext = ext)

/-- The lowest SHORT from 1 that no entry holds. -/
def State.freeShort (s : State) : Nat :=
  ((firstBelow (s.plx.nodes.length + 1) fun k => (s.node? (k + 1)).isNone).getD 0) + 1

/-- An answer to a JOIN_REQ queued: to 0xFFFE, or down the route the request came by. -/
def State.answerJoin (s : State) (n m : Nat) (job : LineJob) (prio node : Nat) (route : List Nat) (p : List Byte) : State :=
  let dst := route.headD 0xFFFE
  let r := s.newSeq dst
  if route.isEmpty then r.1.queueLine n m (ownFrame job prio 2 node 0xFFFE r.2 true p)
  else
    let q := r.1.newSeq 0xFFFE
    q.1.queueLine n m (ownFrame job prio 3 node dst r.2 true (relayDown false 0xFFFE q.2 route ++ p))

/-- A JOIN_REQ acted on: `route` the repeaters it came by, nearest first. -/
def State.joinReq (s : State) (n m ext caps : Nat) (route : List Nat) : State :=
  let known := s.nodeByExt ext
  let full := known.isNone && decide (8192 ≤ s.plx.nodes.length)
  let open_ := s.flag F.plxDiscJoin n
  if !open_ || full then
    s.answerJoin n m .reject 1 0 route (be 1 4 ++ zeros 1 ++ be 8 ext ++ be 1 (if open_ then 1 else 2) ++ zeros 1)
  else
    let short := match known with
      | some e => e.1
      | none => s.freeShort
    let fresh : Node :=
      { port := n, slot := m, state := 3, flags := 0, hops := 0, ext := ext, route := [], lastEpoch := 0, lastNs := 0,
        sn := none, margin := 0, rxOk := 0, tx := 0, txFail := 0, mapver := 0, since := s.now, spent := false,
        energies := [], report := none }
    let y := match known with
      | some e => e.2
      | none => fresh
    let same := decide (y.port = n) && decide (y.slot = m)
    let z : Node := { y with
      port := n
      slot := m
      state := 3
      flags := caps % 4 + (if route.isEmpty then 0 else 4)
      hops := route.length
      route := route
      mapver := 0
      since := s.now
      sn := if same then y.sn else none
      energies := if same then y.energies else [] }
    (s.setNode short (some z)).answerJoin n m (.accept short) 0 short route
      (be 1 3 ++ zeros 1 ++ be 8 ext ++ be 2 short ++ be 1 m ++ zeros 1)

/-- A JOIN_REQ payload: its extended address and CAPS (08 R173, R175). -/
def joinFields (p : List Byte) : Option (Nat × Nat) :=
  if p.length = 12 ∧ octet p 0 = 2 then some (beAt p 2 8, octet p 10) else none

/-! ## CONTROL frames from nodes (08 R173, 07 R157) -/

/-- The values of a NOISE_REPORT, one for each 4 bits. -/
def nibbles (l : List Byte) : List Nat := l.flatMap fun b => [b.toNat / 16, b.toNat % 16]

/-- A NOISE_REPORT from a node of the slot (07 R157); one whose length does not match its body is not acted on. -/
def State.noiseReport (s : State) (n m short : Nat) (p : List Byte) : State :=
  let b := p.drop 2
  let r := octet b 0 % 16
  let g := s.reg F.plxLsRegionHi n m / 8 + 1 - s.reg F.plxLsRegionLo n m / 8
  match s.node? short with
  | none => s
  | some y =>
    if r = 0 ∨ b.length ≠ 4 + 8 * cdiv g r ∨ 30 < cdiv g r then s
    else s.setNode short (some { y with report := some (s.now, octet b 1, r, nibbles (b.drop 4)) })

/-- A CONTROL frame addressed to the device (08 R173, R175). -/
def State.lineControl (s : State) (n m src : Nat) (p : List Byte) : State :=
  if src = 0xFFFE then
    match joinFields p with
    | some (ext, caps) => s.joinReq n m ext caps []
    | none => s
  else if octet p 0 = 6 then s.noiseReport n m src p
  else s

/-! ## Records (08 R435, 03 R66) -/

/-- A line record delivered, after its decryption under 14 R320 if it is secured: `a0` is what the frame authenticates before the
auxiliary header. -/
def State.deliverLine (s : State) (n m short seq start margin hops : Nat) (sec relayed : Bool) (a0 p : List Byte) :
    State :=
  match s.node? short with
  | none => s
  | some y =>
    if y.state ≠ 1 ∧ y.state ≠ 2 then s
    else
      let ext := if y.ext = 0 then none else some y.ext
      let r : RecvRec := { kind := 1, port := n, chan := m, flags := 4 * b2n relayed + 8 * b2n ext.isSome + 16 * b2n sec,
                           short := short, seq := seq, ext := ext.getD 0, epoch := s.lin.epoch, ns := start, margin := margin,
                           hops := hops, head := [] }
      s.deliverFrame false sec a0 p ext short r

/-! ## Relayed frames (08 R178 to R180) -/

/-- A relay header: COUNT, DIR 1, SEC, ORIGIN, TARGET, ORIGIN_SEQ, ROUTE. -/
structure RelayHead where
  count : Nat
  down : Bool
  sec : Bool
  origin : Nat
  target : Nat
  seq : Nat
  route : List Nat
  deriving DecidableEq, Repr

/-- The relay header at the start of a payload. -/
def relayHead (p : List Byte) : RelayHead :=
  let count := octet p 0 / 16
  { count := count, down := bit (octet p 1) 7, sec := bit (octet p 1) 6, origin := beAt p 2 2, target := beAt p 4 2,
    seq := beAt p 6 2, route := (List.range count).map fun i => beAt p (8 + 2 * i) 2 }

/-- A list holds an element twice. -/
def hasTwice : List Nat → Bool
  | [] => false
  | a :: l => l.contains a || hasTwice l

/-- A joined repeater. -/
def State.isRepeater (s : State) (short : Nat) : Bool :=
  match s.node? short with
  | some y => decide (y.state = 1) && bit y.flags 0
  | none => false

/-- The causes for which the device drops a relayed frame (08 R180); a payload too short for its ROUTE is one with a
wrong COUNT (log entry 62). -/
def State.relayBad (s : State) (src : Nat) (p : List Byte) (h : RelayHead) : Bool :=
  decide (h.count = 0) || decide (8 < h.count) || decide (p.length < 8 + 2 * h.count) || hasTwice h.route ||
    h.route.contains h.origin || h.route.any (fun r => !s.isRepeater r) || decide (h.route.getLast? ≠ some src)

/-- A RELAY frame whose outer DST is the device, its checks passed: dropped for a cause, or delivered, whatever its DIR and TARGET
(08 R180, log entry 203); a JOIN_REQ in it is acted on if its TARGET is the device (R175). -/
def State.lineRelay (s : State) (n m src start margin : Nat) (p : List Byte) : State :=
  let h := relayHead p
  let inner := p.drop (8 + 2 * h.count)
  let route := h.route.reverse
  if s.relayBad src p h then s.bump F.plxCntRelayDrop n
  else if h.origin = 0xFFFE then
    match joinFields inner with
    | some (ext, caps) => if h.target = 0 then s.joinReq n m ext caps route else s
    | none => s
  else
    let s := s.nodeHeard n m h.origin start margin none
    let s := match s.node? h.origin with
      | some y => s.setNode h.origin (some { y with route := route, hops := h.count, flags := y.flags % 4 + 4 })
      | none => s
    s.deliverLine n m h.origin h.seq start margin h.count h.sec true (be 2 h.origin ++ be 2 h.target ++ be 2 h.seq) inner

/-! ## The end of a reception -/

/-- What a frame whose checks have passed does: it is counted, feeds its sender's entry, and is delivered, acted on or
neither. -/
def State.lineFrame (s : State) (n m : Nat) (r : LineRx) (p : List Byte) (energy : Nat) (snr : Int) : State :=
  let h := r.head
  let start := r.cand.start
  let margin := s.margin snr
  let s := (s.bump F.plxCntRxOk n).nodeHeard n m h.src start margin (some energy)
  if h.len = 0 then s
  else match h.typ with
    | 0 => if h.dst = 0 ∨ h.dst = 0xFFFF then
        s.deliverLine n m h.src h.seq start margin 0 h.sec false (be 2 h.dst ++ be 2 h.src ++ be 2 h.seq) p else s
    | 2 => if h.dst = 0 then s.lineControl n m h.src p else s
    | 3 => if h.dst = 0 then s.lineRelay n m h.src start margin p else s
    | _ => s

/-- A reception leaves its slot; its context ends. -/
def State.rxOver (s : State) (n m : Nat) (r : LineRx) : State :=
  ((s.setLs n m { s.ls n m with rx := none }).unplace (.lineRx n m r.cand.place)).settleIdle n m s.now

/-- The outcome of the payload check reaches the acknowledgement armed for the reception, if the front end has it 100 us before
F + 12.80 ms (13 R289). -/
def State.ackKnown (s : State) (n m : Nat) (ok : Bool) : State :=
  let x := s.ls n m
  match x.ack with
  | some a =>
    if s.now ≤ s.rxEnd n a.start a.head a.map a.delta + 12700000 then s.setLs n m { x with ack := some { a with ok := some ok } } else s
  | none => s

/-- The traffic of a link goes to the engine that holds its reception, and shares its slot there (01 R11, 08 R167). -/
def State.joinRx (s : State) (n m : Nat) : State :=
  match s.fau.holder (.lineTx n m) with
  | some _ => let u := s.unplace (.lineTx n m); (u.place (.lineTx n m)).getD s
  | none => s

/-- A header check passes: the candidate becomes the reception, the other is dropped without a count; the reservation
and the acknowledgement follow, which the engine that holds the reception sends (08 R167, R162). -/
def State.headPassed (s : State) (n m : Nat) (r : LineRx) : State :=
  let c := r.cand
  let h := r.head
  let s := ((s.ls n m).cands.filter fun d => decide (d ≠ c)).foldl (fun s d => s.dropCand n m d) s
  let x := s.ls n m
  let s := (s.setLs n m { x with cands := [], rx := some r }).joinRx n m
  let f := s.rxEnd n c.start h r.map r.delta
  let x := s.ls n m
  let s := if h.ackReq = true ∧ h.dst ≠ 0xFFFF then s.setLs n m { x with reserved := max x.reserved (f + 207560000) } else s
  if h.ackReq = true ∧ h.dst = 0 ∧ h.typ ≠ 1 then
    let x := s.ls n m
    let a : LineAck := { head := h, start := c.start, map := r.map, delta := r.delta, begun := false,
                         ok := if h.len = 0 then some true else none }
    let s := s.setLs n m { x with ack := some a }
    (s.place (.lineTx n m)).getD s
  else s

/-- The acknowledgement of the try just sent (08 R168). -/
def State.isOurAck (s : State) (n m : Nat) (c : LineCand) (h : LineHead) : Bool :=
  let x := s.ls n m
  match x.await, x.queue with
  | some f, g :: _ => inAckWindow f c.start && decide (h = ackHead (g.head g.mode))
  | _, _ => false

/-- A candidate of the acknowledgement window has come to nothing: with no other such candidate the try has failed. -/
def State.windowMissed (s : State) (n m : Nat) (c : LineCand) : State :=
  let x := s.ls n m
  match x.await with
  | some f =>
    if inAckWindow f c.start && !(x.cands.any fun d => inAckWindow f d.start) && decide (f + 16 * ms ≤ s.now) then
      s.tryFailed n m s.now
    else s
  | none => s

/-- The maps and shifts under which the header of a candidate of a mode is tried, in order: a MAP header under the layouts of the
offered map, then under those of the map in force (07 R150, R159); with no map it fails (R148). -/
def State.headTries (s : State) (n m start mode : Nat) : List (Option PMap × Int) :=
  if mode ≠ 0 then [(none, 0)]
  else
    let x := s.ls n m
    ((x.offer.map (·.map)).toList ++ x.map.toList).flatMap fun p =>
      (shifts (s.timer n) p.entries (start + 20480000) 36).map fun d => (some p, d)

/-- The slots of a header and its check under a map and a shift. -/
def State.headSlots (s : State) (n m start mode : Nat) (map : Option PMap) (d : Int) : Layout :=
  s.dataLayout n m start mode 36 (mapEntries map) d

/-- The header of a candidate: of the layouts in order, with the weights received under each, the first whose header check passes.
Erased copies weigh nothing (07 R151, R161). -/
def State.tryHead (s : State) (n m : Nat) (c : LineCand) (mode : Nat) : List (Option PMap × Int) → List (List SlotSoft) → Option LineRx
  | (map, d) :: l, w :: ws =>
    let raw := octetsOfSlots (s.headSlots n m c.start mode map d).slots (s.erased n m mode c.start map d) w
    match s.headCheck n mode raw with
    | some h => some { cand := c, head := h, map := map, delta := d }
    | none => s.tryHead n m c mode l ws
  | _, _ => none

/-- What the header check of a candidate gives; one that a gap in the samples spans fails (01 R19). -/
def State.headOfCand (s : State) (n m : Nat) (c : LineCand) (soft : List (List SlotSoft)) : Option LineRx :=
  match c.mode with
  | some mode => if c.broken then none else s.tryHead n m c mode (s.headTries n m c.start mode) soft
  | none => none

/-- Erased slots counted (07 R151). -/
def State.countErased (s : State) (n m mode start : Nat) (map : Option PMap) (d : Int) (l : List DataSlot) : State :=
  s.bumpBy F.plxCntErase n (l.filter fun x => s.erased n m mode start map d x).length

/-- The header check of a candidate has failed: the erasures of the first layout tried are counted (log entry 204). -/
def State.headFails (s : State) (n m : Nat) (c : LineCand) : State :=
  let mode := c.mode.getD 1
  let s := match s.headTries n m c.start mode with
    | (map, d) :: _ => s.countErased n m mode c.start map d (s.headSlots n m c.start mode map d).slots
    | [] => s
  (s.candFails n m c).windowMissed n m c

/-- The header check of a candidate has passed. -/
def State.headWins (s : State) (n m : Nat) (r : LineRx) (energy : Nat) (snr : Int) : State :=
  let ours := s.isOurAck n m r.cand r.head
  let s := s.countErased n m r.head.mode r.cand.start r.map r.delta
    (s.headSlots n m r.cand.start r.head.mode r.map r.delta).slots
  let s := s.headPassed n m r
  if r.head.len ≠ 0 then s.windowMissed n m r.cand
  else
    let s := (s.rxOver n m r).lineFrame n m r [] energy snr
    if ours then s.popLine n m s.now true 0 else (s.bump F.plxCntAckStray n).windowMissed n m r.cand

/-- The candidates whose header checks complete on one output, with what they give: those that fail are dropped; of two that pass
the one with the larger M becomes the reception (06 R140). -/
def State.headsDone (s : State) (n m : Nat) (l : List (LineCand × Option LineRx)) (energy : Nat) (snr : Int) : State :=
  let s := (l.filter fun e => e.2.isNone).foldl (fun s e => s.headFails n m e.1) s
  match l.filterMap (·.2) with
  | [a, b] => s.headWins n m (if metricAbove b.cand.metric a.cand.metric then b else a) energy snr
  | a :: _ => s.headWins n m a energy snr
  | [] => s

/-- The header check of a candidate is complete: its delimiter has been decided and its last header slot has ended (06 R139). -/
def State.headDue (s : State) (n m : Nat) (c : LineCand) : Bool :=
  match c.mode with
  | some mode => match s.headTries n m c.start mode with
    | (map, d) :: _ => decide ((s.headSlots n m c.start mode map d).fin ≤ s.now)
    | [] => true
  | none => false

/-- What a header check that falls due does. -/
def State.lineHead (s : State) (n m place : Nat) (soft : List (List SlotSoft)) (rival : Option (List (List SlotSoft)))
    (energy : Nat) (snr : Int) : State :=
  match s.candAt n m place with
  | none => s
  | some c =>
    if !s.headDue n m c then s
    else
      let other := (s.ls n m).cands.find? fun d => decide (d ≠ c) && s.headDue n m d
      let l := (c, s.headOfCand n m c soft) :: (match rival, other with
        | some w, some d => [(d, s.headOfCand n m d w)]
        | _, _ => [])
      s.headsDone n m l energy snr

/-- LINE_HEADER_CHECK (06 R139, R140; 08 R168): `head` holds the channelizer's outputs since those given before, and the weights
received under each layout the engine tries; `rival` the weights of the slot's other candidate if its
header check completes on the same output; `energy` and `snr` what the header's symbols give a frame with LEN 0. -/
def execLineHeaderCheck (t port slot place : Nat) (head : HeadSoft)
    (rival : Option (List (List SlotSoft))) (energy : Nat) (snr : Int) (s : State) : Host.Outcome State Fault Refusal :=
  whenOn t (fun s =>
    (s.takeOuts port head.outs).input (.lineRx port slot place) (.lineHead port slot place head.soft rival energy snr)
      fun s => s.lineHead port slot place head.soft rival energy snr) s

/-- The payload and its check as received, still whitened (07 R150: under the layout that its header was decoded under). -/
def State.bodySlots (s : State) (n m : Nat) (r : LineRx) : List DataSlot :=
  (s.dataLayout n m r.cand.start r.head.mode (4 * r.head.octets) (mapEntries r.map) r.delta).slots.filter fun x => decide (36 ≤ x.sym)

/-- The payload of a reception, if its check passes and no gap in the samples spans it (01 R19). -/
def State.payloadOfRx (s : State) (n m : Nat) (r : LineRx) (soft : List SlotSoft) : Option (List Byte) :=
  if r.cand.broken then none
  else payloadOf r.head (octetsOfSlots (s.bodySlots n m r) (s.erased n m r.head.mode r.cand.start r.map r.delta) soft)

/-- What a payload check that falls due does. -/
def State.linePayload (s : State) (n m : Nat) (soft : List SlotSoft) (energy : Nat) (snr : Int) : State :=
  match (s.ls n m).rx with
  | none => s
  | some r =>
    if s.now < s.rxEnd n r.cand.start r.head r.map r.delta then s
    else
      let p := s.payloadOfRx n m r soft
      let s := s.countErased n m r.head.mode r.cand.start r.map r.delta (s.bodySlots n m r)
      match p with
      | none => (((s.ackKnown n m false).rxOver n m r).bump F.plxCntPayFail n).plxBoundary n
      | some p => (((s.ackKnown n m true).rxOver n m r).lineFrame n m r p energy snr).plxBoundary n

/-- The place of the context that holds a link's reception. -/
def State.rxPlace (s : State) (n m : Nat) : Nat := match (s.ls n m).rx with
  | some r => r.cand.place
  | none => 0

/-- LINE_PAYLOAD_CHECK (06 R135, 07 R161, 08 R435): `soft` holds the weights of the slots of the payload and its check; the frame is
delivered, acted on, or counted as failed. A snapshot that waits for the link is applied if its boundary has come (04 R96). -/
def execLinePayloadCheck (t port slot : Nat) (outs : List ChanOut) (soft : List SlotSoft) (energy : Nat) (snr : Int)
    (s : State) : Host.Outcome State Fault Refusal :=
  whenOn t (fun s =>
    let s := s.takeOuts port outs
    s.input (.lineRx port slot (s.rxPlace port slot)) (.linePayload port slot soft energy snr)
      fun s => s.linePayload port slot soft energy snr) s

/-! ## Lapse and loss (08 R175, R176) -/

/-- The silence of an entry is counted only once its port has entered service after the power-up (02 R40). -/
def State.silentFor (s : State) (y : Node) (ns : Nat) : Bool :=
  decide (0 < (s.lp y.port).serviceAt) && decide (y.since + ns ≤ s.now)

/-- JOIN_LAPSE (08 R175): a PENDING entry is freed 600 s after its latest JOIN_REQ. -/
def execJoinLapse (t short : Nat) (s : State) : Host.Outcome State Fault Refusal :=
  whenOn t (fun s =>
    match s.node? short with
    | some y => if y.state = 3 ∧ (y.since + 600 * sec ≤ s.now ∧ 0 < (s.lp y.port).serviceAt) then
        (s.setNode short none).dropNode short else s
    | none => s) s

/-- NODE_LOST (08 R176): a JOINED node has been silent for LOST_S. -/
def execNodeLost (t short : Nat) (s : State) : Host.Outcome State Fault Refusal :=
  whenOn t (fun s =>
    match s.node? short with
    | some y =>
      if y.state = 1 ∧ s.silentFor y (max 60 (s.reg F.plxNodeLostS y.port) * sec) = true then
        (s.setNode short (some { y with state := 2 })).raise 0x405 0x10 y.port (be 2 short ++ be 1 1 ++ s.open8s 440 1)
      else s
    | none => s) s

/-! ## The LINK family's node commands (04 R85, 08 R176) -/

/-- LINK NODE_LIST served. -/
def State.serveNodeList (s : State) (f : Flight) : State :=
  let port := octet f.operand 0
  let start := beAt f.operand 2 2
  let count := beAt f.operand 4 2
  if f.operand.length ≠ 6 ∨ count = 0 ∨ 127 < count then s.finish f false Status.badLength []
  else if port ≠ 0xFF ∧ 24 ≤ port then s.finish f false Status.badAddress []
  else
    let all := s.plx.nodes.filter fun e => (decide (port = 0xFF) || decide (e.2.port = port)) && decide (start ≤ e.1)
    let l := all.take count
    let next := if l.length < all.length then (match l.getLast? with
      | some e => e.1 + 1
      | none => 0xFFFF) else 0xFFFF
    s.finish f false Status.ok (be 2 next ++ s.open8s 450 2 ++ l.flatMap fun e => s.nodeBytes e.1 e.2)

/-- LINK NODE_GET served. -/
def State.serveNodeGet (s : State) (f : Flight) : State :=
  if f.operand.length ≠ 2 then s.finish f false Status.badLength []
  else match s.node? (beAt f.operand 0 2) with
    | some y => s.finish f false Status.ok (s.nodeBytes (beAt f.operand 0 2) y)
    | none => s.finish f false Status.noRoute []

/-- A line-node entry removed (08 R176): nothing more is sent to it, and its home claim is released (11 R251). -/
def State.removeNode (s : State) (short : Nat) (y : Node) : State :=
  ((s.setNode short none).dropNode short).claim y.ext 2 0 short y.port true

/-- LINK NODE_REMOVE served. -/
def State.serveNodeRemove (s : State) (f : Flight) : State :=
  if f.operand.length ≠ 2 then s.finish f false Status.badLength []
  else
    let short := beAt f.operand 0 2
    match s.node? short with
    | some y => (s.removeNode short y).finish f false Status.ok []
    | none => s.finish f false Status.noRoute []

/-- A line port's counters in the order of their addresses, 4 octets each (log entry 63). -/
def lineCounters : List FRef :=
  [F.plxCntCand, F.plxCntPreempt, F.plxCntHdrFail, F.plxCntPayFail, F.plxCntCdrop, F.plxCntLate, F.plxCntRxOk, F.plxCntTx,
   F.plxCntErase, F.plxCntRebuild, F.plxCntOffer, F.plxCntDefer, F.plxCntRetry, F.plxCntAckAbort, F.plxCntAckStray,
   F.plxCntRelayDrop]

/-- LINK PORT_STATS served. -/
def State.servePortStats (s : State) (f : Flight) : State :=
  let n := octet f.operand 0
  if f.operand.length ≠ 1 then s.finish f false Status.badLength []
  else if 24 ≤ n then s.finish f false Status.badAddress []
  else s.finish f false Status.ok (lineCounters.flatMap fun x => be 4 (s.reg x n))

/-- LINK_NODE_LIST arrives (03 R57, R62: OPERATE right); the steward serves it. -/
def execLinkNodeList (t : Nat) (m : Inbound) (s : State) : Host.Outcome State Fault Refusal :=
  whenOn t (fun s => s.arriveFw m 0x301 Right.operate) s

/-- LINK_NODE_GET arrives. -/
def execLinkNodeGet (t : Nat) (m : Inbound) (s : State) : Host.Outcome State Fault Refusal :=
  whenOn t (fun s => s.arriveFw m 0x302 Right.operate) s

/-- LINK_NODE_REMOVE arrives. -/
def execLinkNodeRemove (t : Nat) (m : Inbound) (s : State) : Host.Outcome State Fault Refusal :=
  whenOn t (fun s => s.arriveFw m 0x303 Right.operate) s

/-- LINK_PORT_STATS arrives. -/
def execLinkPortStats (t : Nat) (m : Inbound) (s : State) : Host.Outcome State Fault Refusal :=
  whenOn t (fun s => s.arriveFw m 0x306 Right.operate) s

end Sys2Proof.Machine
end

