-- ==== Sys2Proof/Machine/AirPhy.lean ====
section
/-!
DEFINITION. Machine/AirPhy.lean: the air ports' access, the link to the radio head (09 R184, R185), the FSK PHY (R191 to R198), the
correlator's metric (R199) and what a transmission sends (R203).
-/

namespace Sys2Proof.Machine

open Sys2Proof

/-! ## Access to the air ports -/

/-- An air channel with nothing on it. -/
def AirChan.init : AirChan := { cands := [], rx := none, ack := none, quiet := 0, held := 0, loudAt := 0, hist := [] }

/-- An air port that is stopped. -/
def AirPort.init : AirPort :=
  { attempt := none, next := 0, up := false, hadLink := false, dclk := none, rxsync := none, sysref := [], tails := [], did := 0,
    bid := 0, reason := 0, chans := [], sends := [], quiet := 0, bcnAt := none, bcnSeq := 0, served := false, overrun := 0 }

/-- An air port. -/
def State.ap (s : State) (n : Nat) : AirPort := tget AirPort.init s.air.ports n

/-- An air port set. -/
def State.setAp (s : State) (n : Nat) (p : AirPort) : State :=
  { s with air := { s.air with ports := tset s.air.ports n p } }

/-- An air channel. -/
def State.ac (s : State) (n m : Nat) : AirChan := tget AirChan.init (s.ap n).chans m

/-- An air channel set. -/
def State.setAc (s : State) (n m : Nat) (x : AirChan) : State :=
  s.setAp n { s.ap n with chans := tset (s.ap n).chans m x }

/-- An air port is in service (09 R183). -/
def State.airServes (s : State) (n : Nat) : Bool :=
  decide (n < 16) && s.flag F.airCtlEn n && (s.ap n).up && !s.fau.testing

/-- An enabled channel of a port in service. -/
def State.chanOn (s : State) (n m : Nat) : Bool := s.airServes n && decide (m < 64) && s.flag F.airChCfgEn n m

/-! ## The link to the radio head (09 R184 to R186) -/

/-- AIR_JESD.RATE; code 3 is taken as 0 (R184). -/
def State.jesdRate (s : State) (n : Nat) : Nat := s.reg F.airJesdRate n % 3

/-- The head sample rate of a parameter set in kHz; its lane rate in kb/s, 4 octets of 10 bits a sample; the factor of decimation and
interpolation; and the LMFC period, 32 frames, in ns. -/
def headKhz (rate : Nat) : Nat :=
  match rate with
  | 1 => 32000
  | 2 => 80000
  | _ => 16000
def laneKbps (rate : Nat) : Nat := headKhz rate * 40
def headFactor (rate : Nat) : Nat := headKhz rate / 16000
def lmfcNs (rate : Nat) : Nat := 32 * 1000000 / headKhz rate

/-- L, M, F, S, N, N', K, CS, CF and HD of every parameter set. -/
def jesdParams : List Nat := [1, 2, 4, 1, 16, 16, 32, 0, 0, 0]

/-- The multiframe of the device's own ILAS (R186 step 5). -/
def State.ownIlas (s : State) (n : Nat) : Ilas :=
  { did := 0, bid := 0, lid := 0, params := jesdParams, scr := s.flag F.airJesdScr n, jesdv := 1, subclassv := 1, fchk := true }

/-- The first LMFC edge at or after an instant, and the next after it: the edges are the multiples of the period in TMB_ELAPSED. -/
def lmfcAt (p t : Nat) : Nat := cdiv t p * p
def lmfcNext (p t : Nat) : Nat := (t / p + 1) * p

/-- What a port's transmit lane carries. -/
inductive LaneWord
  | comma | ilas | zero | samples
  deriving DecidableEq, Repr

/-- What the transmit lane carries at an instant (R186): none where the spec does not say, outside an attempt and an up link. -/
def State.laneAt (s : State) (n t : Nat) : Option LaneWord :=
  let p := s.ap n
  match p.attempt with
  | some a =>
    if a.sent = false ∨ t < a.own then some .comma
    else if t < a.own + 4 * lmfcNs (s.jesdRate n) then some .ilas
    else some .zero
  | none => if p.up then some .samples else none

/-! ## The PHY (09 R191 to R198) -/

/-- Bits a symbol (R193). -/
def State.airBits (s : State) (n m : Nat) : Nat := if s.reg F.airChCfgMod n m = 2 then 2 else 1

/-- Symbols a second (R192). -/
def State.airRate (s : State) (n m : Nat) : Nat :=
  match s.reg F.airChCfgRate n m with
  | 0 => 50000
  | 1 => 100000
  | _ => 150000

/-- The duration of `b` bits on a channel, rounded down to whole ns (R193, R198). -/
def State.airNs (s : State) (n m b : Nat) : Nat := b * 1000000000 / (s.airBits n m * s.airRate n m)

/-- The duration of a PPDU (R198). -/
def State.ppdu (s : State) (n m pre len : Nat) : Nat := s.airNs n m (8 * pre + 32 + 8 * len)

/-- How many preamble octets cover a time: its ceiling in T_oct (10 R225). -/
def State.octetsFor (s : State) (n m ns : Nat) : Nat := cdiv (ns * (s.airBits n m * s.airRate n m)) 8000000000

/-- The receive delay D_RX (R191). -/
def State.dRx (s : State) (n m : Nat) : Nat := if s.reg F.airChCfgWidth n m = 0 then 40000 else 20000

/-- The time between two outputs of a channel: 400 or 800 kS/s (R191). -/
def State.airStep (s : State) (n m : Nat) : Nat := if s.reg F.airChCfgWidth n m = 0 then 2500 else 1250

/-- The instant at which a sample of the antenna instant `t` comes out of a channel (R189, R191). -/
def State.airOutAt (s : State) (n m t : Nat) : Nat := t + s.dRx n m + s.reg F.airLatRxNs n

/-- The account of a channel (AIR_ACCMAPi). -/
def State.acctOf (s : State) (n m : Nat) : Nat :=
  wordBits (regWord s.regs .airAccmap n (m / 8)) (4 * (m % 8) + 3) (4 * (m % 8))

/-- The mean power of the 100 us that end with the newest of a channel's outputs exceeds -THRESH dBFS (10 R232): a full-scale output
has I^2 + Q^2 = 2^30 (log entry 207). -/
def State.loud (s : State) (n m : Nat) (l : List AirOut) : Bool :=
  let k := 100000 / s.airStep n m
  let w := l.take k
  let p := w.foldl (fun (a : Nat) o => a + o.i.natAbs ^ 2 + o.q.natAbs ^ 2) 0
  match w, w.getLast? with
  | o :: _, some z => decide (w.length = k) && decide (o.time < z.time + 100000) &&
      decide ((k * 2 ^ 30) ^ 10 < p ^ 10 * 10 ^ s.reg F.airDutyLbtThresh (s.acctOf n m))
  | _, _ => false

/-- One output put to a channel's history: 16 bits for I and for Q, no sooner than its rate gives. -/
def State.takeAirOut (s : State) (n m : Nat) (x : AirChan) (o : AirOut) : AirChan :=
  let fresh := decide (o.time ≤ s.now) && (match x.hist with
    | h :: _ => decide (h.time + s.airStep n m ≤ o.time)
    | [] => true)
  if !fresh then x
  else
    let l := { o with i := clampI (-32768) 32767 o.i, q := clampI (-32768) 32767 o.q } :: x.hist
    { x with hist := l, loudAt := if s.loud n m l then o.time else x.loudAt }

/-- Outputs of a channel that is formed, since those given before; the history holds 4 ms (R191). -/
def State.takeAir (s : State) (n m : Nat) (outs : List AirOut) : State :=
  if !s.chanOn n m then s
  else
    let x := outs.foldl (fun x o => s.takeAirOut n m x o) (s.ac n m)
    s.setAc n m { x with hist := x.hist.takeWhile fun o => decide (s.now < o.time + 4 * ms) }

/-- The centre of a channel in kHz (R190). -/
def State.airFreq (s : State) (n m : Nat) : Nat :=
  ((s.reg F.airCenterKhz n : Int) + signed 7 (s.reg F.airChCfgRaster n m) * 200).toNat

/-- The octets of a channel's own FCS. -/
def State.fcsLen (s : State) (n m : Nat) : Nat := if s.flag F.airChCfgFcs4 n m then 4 else 2

/-- The required SNR of a modulation, in hundredths of a dB (09 R202). -/
def airRequired (mod : Nat) : Int :=
  match mod with
  | 0 => 1300
  | 1 => 1100
  | _ => 1800

/-- The PHR (09 R195). -/
def phrOf (fcs4 dw : Bool) (len : Nat) : Nat := (if fcs4 then 0 else 4096) + b2n dw * 2048 + len

/-- The fields of a PHR. -/
def phrLen (v : Nat) : Nat := v % 2048
def phrDw (v : Nat) : Bool := bit v 11
def phrFcs4 (v : Nat) : Bool := !bit v 12

/-- Octets whitened with the PN9 sequence from register `r`, each least significant bit first (09 R196). -/
def airWhitenFrom : Nat → List Byte → List Byte
  | _, [] => []
  | r, b :: l =>
    let p := pnOctet r
    (b ^^^ BitVec.ofNat 8 (revBits 8 p.1)) :: airWhitenFrom p.2 l

/-- The FCS of a MAC frame, as its octets stand in the PSDU (09 R197; their order as IEEE 802.15.4, log entry 70). -/
def fcsOf (four : Bool) (mac : List Byte) : List Byte :=
  if four then le 4 (crc 3 [] mac) else le 2 (crc 1 [] mac)

/-- The PSDU of a MAC frame as sent. -/
def psduOf (four dw : Bool) (mac : List Byte) : List Byte :=
  let p := mac ++ fcsOf four mac
  if dw then airWhitenFrom 0x1FF p else p

/-- The MAC frame of a received PSDU, if its FCS passes. -/
def macOf (phr : Nat) (raw : List Byte) : Option (List Byte) :=
  let p := if phrDw phr then airWhitenFrom 0x1FF raw else raw
  let n := phrLen phr - (if phrFcs4 phr then 4 else 2)
  if p.length = phrLen phr ∧ p.drop n = fcsOf (phrFcs4 phr) (p.take n) then some (p.take n) else none

/-! ## Symbols (09 R193, R194) -/

/-- The deviation in Hz (R193): h x R_s / 2, with h 0.5, 1.0 and 0.33. -/
def airDev (mod rate : Nat) : Nat :=
  match mod with
  | 0 => rate / 4
  | 1 => rate / 2
  | _ => rate * 33 / 200

/-- The bits of a number, the highest of `n` first, and of an octet, the least significant first. -/
def bitsHigh (n v : Nat) : List Bool := (List.range n).map fun i => bit v (n - 1 - i)
def bitsLow (b : Byte) : List Bool := (List.range 8).map fun i => b.getLsbD i

/-- Bit pairs as 4-FSK symbols in units of fdev, the first bit of a pair the higher (R193). -/
def pairSyms : List Bool → List Int
  | a :: b :: r => (if a then (if b then 3 else 1) else (if b then -3 else -1)) :: pairSyms r
  | _ => []

/-- Bits as symbols in units of fdev (R193). -/
def airSyms (mod : Nat) (l : List Bool) : List Int := if mod = 2 then pairSyms l else l.map fun b => if b then 1 else -1

/-- `k` symbols of the preamble (R194). -/
def airPreamble (mod k : Nat) : List Int :=
  (List.range k).map fun i => (if i % 2 = 0 then 1 else -1) * (if mod = 2 then 3 else 1)

/-- The SFD of AIR_CHm_CFG.SFD (R194). -/
def airSfd (code : Nat) : Nat := if code = 0 then 0x904E else 0x7A0E

/-- The symbols of a PPDU (R194): preamble, SFD and PHR with their highest bit first, the PSDU's octets least significant bit
first. -/
def ppduSyms (mod sfd pre phr : Nat) (psdu : List Byte) : List Int :=
  airPreamble mod (if mod = 2 then 4 * pre else 8 * pre) ++
    airSyms mod (bitsHigh 16 (airSfd sfd) ++ bitsHigh 16 phr ++ psdu.flatMap bitsLow)

/-- The amplitude of a transmission at an antenna instant: up over 1 us before the first symbol and down over 1 us after the last (R203;
its shape, log entry 206). -/
def AirSend.level (x : AirSend) (t : Nat) : Nat :=
  if t < x.start then x.amp * (t + 1000 - x.start) / 1000
  else if t ≤ x.fin then x.amp
  else x.amp * (x.fin + 1000 - t) / 1000

/-! ## Received symbols (09 R199, 12 R262) -/

/-- The pattern of a modulation and SFD: the last 8 preamble symbols and the SFD (R199). -/
def airPattern (mod sfd : Nat) : List Int := airPreamble mod 8 ++ airSyms mod (bitsHigh 16 (airSfd sfd))

/-- The sum of products of two lists. -/
def dot (a b : List Int) : Int := ((a.zip b).map fun x => x.1 * x.2).foldl (· + ·) 0

/-- E_m / E_r of an output whose discriminator gives `d` at the pattern's symbol centres (R199), both times the pattern's energy. -/
def airMetric (c d : List Int) : Nat × Nat :=
  let m := (dot d c).natAbs ^ 2
  (m, (dot d d * dot c c).toNat - m)

/-- Octets of bits, the least significant first. -/
def octetsLow : List Bool → List Byte
  | a :: b :: c :: d :: e :: f :: g :: h :: r =>
    BitVec.ofNat 8 (b2n a + 2 * b2n b + 4 * b2n c + 8 * b2n d + 16 * b2n e + 32 * b2n f + 64 * b2n g + 128 * b2n h) :: octetsLow r
  | _ => []

/-- The octets that log-likelihood ratios decide, in sending order (12 R262): above 0 a 1. -/
def hardOctets (soft : List Int) : List Byte := octetsLow (soft.map fun v => decide (0 < v))

/-- MAG of a log-likelihood ratio given in 1/65,536 (12 R262): min(7, floor(|LLR| + 0.5)). -/
def magOf (v : Int) : Nat := min 7 ((v.natAbs + 32768) / 65536)

/-- Plane `p` of 2 to 0 of the soft values (12 R262, R263): bit p of MAG, laid out as the PSDU. -/
def magPlane (p : Nat) (soft : List Int) : List Byte := octetsLow (soft.map fun v => bit (magOf v) p)

end Sys2Proof.Machine
end

