-- ==== Sys2Proof/Machine/Air.lean ====
section
/-!
DEFINITION. Machine/Air.lean: what the air families share: the duty accounts (10 R229, R230), a port's snapshots, bring-up and
service (09 R183 to R190).
-/

namespace Sys2Proof.Machine

open Sys2Proof

/-! ## Duty accounts (10 R230, R231; 02 R41) -/

/-- A duty account with nothing spent. -/
def Duty.init : Duty := { bins := [], pos := 0, unsaved := 0 }

/-- A duty account. -/
def State.acct (s : State) (a : Nat) : Duty := tget Duty.init s.air.duty a

/-- A duty account set. -/
def State.setAcct (s : State) (a : Nat) (x : Duty) : State := { s with air := { s.air with duty := tset s.air.duty a x } }

/-- WINDOW_S and LIMIT within their ranges. -/
def State.dutyWindow (s : State) (a : Nat) : Nat := clamp 1 3600 (s.reg F.airDutyCfgWindowS a)
def State.dutyLimit (s : State) (a : Nat) : Nat := clamp 1 1000 (s.reg F.airDutyCfgLimit a)

/-- The allowed airtime of a window, and the reserve S. -/
def State.dutyAllowed (s : State) (a : Nat) : Nat := s.dutyLimit a * s.dutyWindow a * 1000
def State.dutyReserve (s : State) (a : Nat) : Nat := cdiv (s.dutyAllowed a) 64

/-- spent(): the current bin and the WINDOW_S - 1 before it. -/
def State.spent (s : State) (a : Nat) : Nat :=
  let x := s.acct a
  x.bins.foldl (fun n e => if (x.pos + 3600 - e.1) % 3600 < s.dutyWindow a then n + e.2 else n) 0

/-- A record write of an account is in progress. -/
def State.dutyWriting (s : State) (a : Nat) : Bool :=
  s.lin.writes.any fun w => match w.what with
    | .duty b _ _ _ _ => decide (b = a)
    | _ => false

/-- The unsaved airtime of an account that record writes in progress have captured. -/
def State.dutyTaken (s : State) (a : Nat) : Nat :=
  s.lin.writes.foldl (fun (n : Nat) w => match w.what with
    | .duty b _ _ taken _ => if b = a then n + taken else n
    | _ => n) 0

/-- A record write of an account begun: it captures the bins, the position and the unsaved airtime that no write in progress has
captured, so that none is subtracted twice. -/
def State.writeDuty (s : State) (a : Nat) (waiter : Option Nat) : State :=
  let x := s.acct a
  s.linWrite (.duty a x.bins x.pos (x.unsaved - s.dutyTaken a) waiter)

/-- Airtime added to an account's current bin. -/
def State.chargeDuty (s : State) (a us : Nat) : State :=
  let x := s.acct a
  s.setAcct a { x with bins := tput 0 x.bins x.pos (tget 0 x.bins x.pos + us), unsaved := x.unsaved + us }

/-- What a duty check answers. -/
inductive DutyAns
  | go | wait | refuse
  deriving DecidableEq, Repr

/-- duty_check() of 10 R230, for the account of a channel; `waiter` is the downlink that waits for a blocking write. -/
def State.dutyCheck (s : State) (n m us : Nat) (ack : Bool) (waiter : Option Nat) : State × DutyAns :=
  let a := s.acctOf n m
  if !s.flag F.airDutyCfgEn a then (s, .go)
  else if s.dutyAllowed a < s.spent a + us then (s.bump F.airCntDuty n, .refuse)
  else
    let r := s.dutyReserve a
    if r ≤ (s.acct a).unsaved + us then
      if ack then (s.bump F.airCntDuty n, .refuse) else ((s.chargeDuty a us).writeDuty a waiter, .wait)
    else
      let s := s.chargeDuty a us
      if r / 2 ≤ (s.acct a).unsaved ∧ s.dutyWriting a = false then (s.writeDuty a none, .go) else (s, .go)

/-- A duration in microseconds; how a fraction is rounded is not stated (log entry 22). -/
def State.toUs (s : State) (k ns : Nat) : Nat := ns / 1000 + (if ns % 1000 = 0 then 0 else s.draw k 2)

/-- DUTY_BIN_ADVANCE (10 R230): at each whole second every account advances one bin, and clears it. -/
def execDutyBinAdvance (t : Nat) (s : State) : Host.Outcome State Fault Refusal :=
  whenOn t (fun s =>
    if s.now < (s.air.secs + 1) * sec then s
    else
      let s : State := { s with air := { s.air with secs := s.air.secs + 1 } }
      (List.range 16).foldl (fun s a =>
        let x := s.acct a
        let p := (x.pos + 1) % 3600
        s.setAcct a { x with pos := p, bins := tdel x.bins p }) s) s

/-! ## Snapshots (09 R190, 04 R96) -/

/-- The enabled channels of the shadows: channel, RASTER, W in kHz, RATE, MOD, MAXLEN, PREAMBLE. -/
def State.planChans (s : State) (n : Nat) : List (Nat × Int × Nat × Nat × Nat × Nat × Nat) :=
  (List.range 64).filterMap fun m =>
    if s.regs.shadow F.airChCfgEn n m = 1 then
      some (m, signed 7 (s.regs.shadow F.airChCfgRaster n m), (s.regs.shadow F.airChCfgWidth n m + 1) * 200,
        s.regs.shadow F.airChCfgRate n m, s.regs.shadow F.airChCfgMod n m, s.regs.shadow F.airChLimMaxlen n m,
        s.regs.shadow F.airChLimPreamble n m)
    else none

/-- The registers that the rules of 09 R190 fail at, of each failing rule the first by address. -/
def State.airBad (s : State) (n : Nat) : List Nat :=
  let chans := s.planChans n
  let cfg (m : Nat) : Nat := famAddr .airChCfg n m
  let one := chans.flatMap fun (m, ra, w, rate, mod, maxlen, pre) =>
    let band := decide (2 * ra.natAbs * 200 + w ≤ 14000)
    let width := decide (w ≤ 600) && decide (rate ≤ 2) && (decide (rate = 0) || decide (400 ≤ w))
    (if band && width && decide (mod ≤ 2) then [] else [cfg m]) ++
      (if 5 ≤ maxlen ∧ maxlen ≤ 2047 ∧ 4 ≤ pre ∧ pre ≤ 1000 then [] else [famAddr .airChLim n m])
  let two := chans.flatMap fun (m, ra, w, _) => chans.filterMap fun (m', ra', w', _) =>
    if m < m' ∧ 2 * (ra - ra').natAbs * 200 < w + w' then some (cfg m) else none
  let mx := s.regs.shadow F.airTxMaxtx n
  one ++ two ++
    (if mx = 0 ∨ 4 < mx ∨ 32767 < mx * s.regs.shadow F.airTxTxamp n then [famAddr .airTx n 0] else [])

/-- The register that COMMIT_CONFLICT names when an air port's shadows fail an agreement rule. -/
def State.airConflict (s : State) (n : Nat) : Option Nat :=
  (s.airBad n).foldl (fun (a : Option Nat) x => some (match a with
    | none => x
    | some y => min x y)) none

/-- A frame is in progress on a channel, or its acknowledgement, a downlink's window included. -/
def State.chanInFrame (s : State) (n m : Nat) : Bool :=
  let x := s.ac n m
  !x.cands.isEmpty || x.rx.isSome || x.ack.isSome || ((s.ap n).sends.any fun y => decide (y.chan = m)) ||
    s.air.downs.any fun d => decide (d.port = n) && decide (d.chan = m) && (match d.stage with
      | .await => true
      | _ => false)

/-- A channel takes the snapshot. -/
def State.applyChan (s : State) (n m : Nat) : State :=
  let c := s.regs.com .airCommit n
  let mine := c.snap.filter fun e => decide (e.1 = famAddr .airChCfg n m) || decide (e.1 = famAddr .airChLim n m)
  let s := mine.foldl (fun s e => s.applyReg e.1 e.2) s
  s.stillWait .airCommit n (c.waiting.filter fun k => decide (k ≠ m))

/-- Every channel of a port at its boundary takes the snapshot; with the last the hand-over is complete. -/
def State.airBoundary (s : State) (n : Nat) : State :=
  let c := s.regs.com .airCommit n
  if !c.pend then s
  else
    let s := (c.waiting.filter fun m => !s.chanInFrame n m).foldl (fun s m => s.applyChan n m) s
    if (s.regs.com .airCommit n).waiting.isEmpty then s.handedOver .airCommit n else s

/-- A snapshot of an air port taken: AIR_TX, which belongs to no one channel, is applied at once (log entry 60), and
the channels one by one. -/
def State.airGo (s : State) (n : Nat) : State :=
  let c := s.regs.com .airCommit n
  let s := (c.snap.filter fun e => decide (e.1 = famAddr .airTx n 0)).foldl (fun s e => s.applyReg e.1 e.2) s
  (s.stillWait .airCommit n (List.range 64)).airBoundary n

/-! ## What stopping ends (09 R183, R187) -/

/-- Every candidate and reception of a port ends without a record, and its acknowledgements are not sent (10 R214); the contexts are
freed. -/
def State.endReceptions (s : State) (n : Nat) : State :=
  let p := s.ap n
  let s := s.setAp n { p with chans := p.chans.map fun e => (e.1, { e.2 with cands := [], rx := none, ack := none }) }
  let s := s.bumpBy F.airCntAckSkip n (p.chans.filter fun e => e.2.ack.isSome).length
  p.chans.foldl (fun s e => (s.unplace (.airRx n e.1 0)).unplace (.airRx n e.1 1)) s

/-! ## Bring-up (09 R186 to R188) -/

/-- A bring-up attempt has failed: the next starts 10 ms later. -/
def State.bringFails (s : State) (n reason : Nat) : State :=
  s.setAp n { s.ap n with attempt := none, next := s.now + 10 * ms, reason := reason }

/-- JESD_ATTEMPT (09 R186 steps 1 and 2): APn_DCLK runs, APn_RXSYNC_N is held low and K28.5 characters are sent; from 100 us on, 4
SYSREF pulses on LMFC edges. -/
def execJesdAttempt (t port : Nat) (s : State) : Host.Outcome State Fault Refusal :=
  whenOn t (fun s =>
    let p := s.ap port
    let l := lmfcNs (s.jesdRate port)
    let e := lmfcAt l (s.now + 100 * us)
    if port < 16 ∧ s.flag F.airCtlEn port = true ∧ p.up = false ∧ p.attempt = none ∧ p.next ≤ s.now then
      s.setAp port { p with
        attempt := some { start := s.now, cgs := false, ilas := false, sent := false, own := 0 }
        dclk := some (headKhz (s.jesdRate port))
        rxsync := none
        sysref := [e, e + l, e + 2 * l, e + 3 * l] }
    else s) s

/-- JESD_CODE_GROUP_SYNC (09 R186 step 3): by 1 ms of the attempt; APn_RXSYNC_N is released at the next LMFC edge. -/
def execJesdCodeGroupSync (t port : Nat) (s : State) : Host.Outcome State Fault Refusal :=
  whenOn t (fun s =>
    let p := s.ap port
    match p.attempt with
    | some a =>
      if a.cgs = false ∧ s.now ≤ a.start + ms then
        s.setAp port { p with attempt := some { a with cgs := true }, rxsync := some (lmfcNext (lmfcNs (s.jesdRate port)) s.now) }
      else s
    | none => s) s

/-- The checks of 09 R187 on the head's ILAS. -/
def State.ilasOk (s : State) (n : Nat) (l : List Ilas) : Bool :=
  decide (l.length = 4) && l.all (fun x => decide (x.params = jesdParams) &&
    decide (x.scr = s.flag F.airJesdScr n) && decide (x.jesdv = 1) && decide (x.subclassv = 1) && x.fchk) &&
    (match l with
    | [] => false
    | x :: r => r.all fun y => decide (y = x))

/-- JESD_ILAS (09 R186 step 4): once APn_RXSYNC_N has been released the head's ILAS of four multiframes arrives and is checked; DID and
BID are recorded. -/
def execJesdIlas (t port : Nat) (ilas : List Ilas) (s : State) : Host.Outcome State Fault Refusal :=
  whenOn t (fun s =>
    let p := s.ap port
    match p.attempt, ilas with
    | some a, x :: _ =>
      if a.cgs = true ∧ (p.rxsync.any fun r => decide (r ≤ s.now)) = true then
        let p : AirPort := { p with did := x.did % 256, bid := x.bid % 16 }
        let s := s.setAp port p
        if s.ilasOk port ilas then s.setAp port { p with attempt := some { a with ilas := true } } else s.bringFails port 2
      else s
    | _, _ => s) s

/-- JESD_TXSYNC_RELEASE (09 R186 step 5): by 2 ms the head releases TXSYNC_N, and the device sends its own ILAS at the next LMFC
edge. -/
def execJesdTxsyncRelease (t port : Nat) (s : State) : Host.Outcome State Fault Refusal :=
  whenOn t (fun s =>
    let p := s.ap port
    match p.attempt with
    | some a =>
      if a.sent = false ∧ s.now ≤ a.start + 2 * ms then
        s.setAp port { p with attempt := some { a with sent := true, own := lmfcNext (lmfcNs (s.jesdRate port)) s.now } }
      else s
    | none => s) s

/-- JESD_SYNC_TIMEOUT (09 R186 steps 3 and 5): no code-group sync by 1 ms, or TXSYNC_N not released by 2 ms. -/
def execJesdSyncTimeout (t port : Nat) (s : State) : Host.Outcome State Fault Refusal :=
  whenOn t (fun s =>
    match (s.ap port).attempt with
    | some a =>
      if (a.start + ms ≤ s.now ∧ a.cgs = false) ∨ (a.start + 2 * ms ≤ s.now ∧ a.sent = false) then s.bringFails port 4 else s
    | none => s) s

/-- An air port has entered service: its first beacon is due at once (10 R220); on its first entry after power-up the
lapse of its entries is counted afresh (02 R40). -/
def State.airEnters (s : State) (n : Nat) : State :=
  let p := s.ap n
  let s := s.setAp n { p with served := true, bcnAt := if s.flag F.airBcnEn n then some s.now else none }
  if p.served then s
  else
    { s with air := { s.air with sensors := s.air.sensors.map fun e =>
                                 if e.2.port = n then (e.1, { e.2 with since := s.now }) else e } }

/-- JESD_LINK_UP (09 R186 step 6): with the first sample after both ILAS the link is up in both directions. The first capture block
after a link comes up again has GAP set (R205). -/
def execJesdLinkUp (t port : Nat) (s : State) : Host.Outcome State Fault Refusal :=
  whenOn t (fun s =>
    let p := s.ap port
    match p.attempt with
    | some a =>
      if a.ilas && a.sent && decide (a.own + 4 * lmfcNs (s.jesdRate port) ≤ s.now) then
        let s := s.setAp port { p with attempt := none, up := true, hadLink := true }
        let s := if p.hadLink then s.gapCaptures (capturesOf 2 port) else s
        let s := if s.airServes port then s.airEnters port else s
        s.raise 0x501 0x30 port (be 1 p.did ++ be 1 p.bid ++ be 1 (s.jesdRate port) ++ s.open8s 500 1)
      else s
    | none => s) s

/-! ## Elastic FIFOs (01 R19) -/

/-- The candidates and receptions of a line port, or of an air port, are spanned by a gap in its samples: their checks fail. -/
def LineSlot.breaks (x : LineSlot) : LineSlot :=
  { x with
    cands := x.cands.map fun c => { c with broken := true }
    rx := x.rx.map fun r => { r with cand := { r.cand with broken := true } } }
def AirChan.breaks (x : AirChan) : AirChan :=
  { x with
    cands := x.cands.map fun c => { c with broken := true }
    rx := x.rx.map fun r => { r with cand := { r.cand with broken := true } } }

/-- PACE_OVERRUN (01 R19): a line converter's or an air lane's elastic FIFO overflows; `lost` samples are discarded and
counted, the event is raised, and what the gap spans fails its checks. -/
def execPaceOverrun (t : Nat) (air : Bool) (port lost : Nat) (s : State) : Host.Outcome State Fault Refusal :=
  whenOn t (fun s =>
    if air then
      if port < 16 then
        let p := s.ap port
        let s := s.setAp port { p with overrun := p.overrun + lost, chans := p.chans.map fun e => (e.1, e.2.breaks) }
        (s.gapCaptures (capturesOf 2 port)).raise 0x206 0x30 port []
      else s
    else if port < 24 then
      let p := s.lp port
      let s := s.setLp port { p with overrun := p.overrun + lost, slots := p.slots.map fun e => (e.1, e.2.breaks) }
      (s.gapCaptures (capturesOf 1 port)).raise 0x206 0x10 port []
    else s) s

end Sys2Proof.Machine
end

