-- ==== Sys2Proof/Machine/AirTx.lean ====
section
/-!
DEFINITION. Machine/AirTx.lean: sending on the air (10 R221 to R232): wake predictions, methods, tries, pending windows,
listen-before-talk, beacons, and the downlink commands.
-/

namespace Sys2Proof.Machine

open Sys2Proof

/-! ## Sensors -/

/-- An association entry. -/
def State.sensor? (s : State) (short : Nat) : Option Sensor := tget? s.air.sensors short

/-- An association entry set or freed, and its lining record begun; a record of the same entry that still waits is
replaced (log entry 57). -/
def State.setSensor (s : State) (short : Nat) (x : Option Sensor) : State :=
  let s : State := { s with air := { s.air with sensors := match x with
    | some y => tset s.air.sensors short y
    | none => tdel s.air.sensors short } }
  let keep := s.lin.writes.filter fun w => match w.what with
    | .sensor k _ => decide (k ≠ short)
    | _ => true
  { s with lin := { s.lin with writes := keep ++ [{ what := .sensor short x, ref := none }] } }

/-- The sensor with an extended address. -/
def State.sensorByExt (s : State) (ext : Nat) : Option (Nat × Sensor) :=
  s.air.sensors.find? fun e => decide (e.2.ext = ext)

/-! ## Wake phases (10 R222, R223) -/

/-- The predicted wake period in ns: W plus its drift. -/
def Sensor.period (x : Sensor) : Int :=
  let w : Int := x.wakeMs * ms
  w + (w * x.drift).tdiv 1000000000

/-- JIT in ns (AIR_MAC_WAKE.JITTER). -/
def State.jit (s : State) : Int := s.reg F.airMacWakeJitter * 10000

/-- u of 10 R223 at a predicted wake `t`. -/
def State.uncertainty (s : State) (x : Sensor) (t : Int) : Int :=
  ((t - x.phaseNs + x.ofs * 1000) * x.unc).tdiv 1000000000 + s.jit

/-- The k-th predicted wake. -/
def Sensor.wake (x : Sensor) (k : Nat) : Int := x.phaseNs + k * x.period

/-- M in ns (AIR_MAC_WAKE.MARGIN_US, from 500 to 20,000 us). -/
def State.wakeMargin (s : State) : Nat := clamp 500 20000 (s.reg F.airMacWakeMarginUs) * us

/-- The timing registers within their ranges. -/
def State.ackPre (s : State) : Nat := clamp 4 32 (s.reg F.airMacTimingAckPre)
def State.pendDelay (s : State) : Nat := clamp 5 255 (s.reg F.airMacTimingPendDelay) * 100000
def State.pendWinMs (s : State) : Nat := clamp 5 1000 (s.reg F.airMacTimingPendWinMs)
def State.airTries (s : State) : Nat := clamp 1 8 (s.reg F.airMacCtlTries)

/-- LISTEN_US of a channel's account in ns, none without listen-before-talk (10 R232). -/
def State.listenNs (s : State) (n m : Nat) : Option Nat :=
  let a := s.acctOf n m
  if s.flag F.airDutyCfgLbt a then some (clamp 100 65535 (s.reg F.airDutyLbtListenUs a) * us) else none

/-! ## The methods (10 R225) -/

/-- The PSDU length of a downlink on its channel. -/
def State.downLen (s : State) (d : AirDown) : Nat := d.mac.length + s.fcsLen d.port d.chan

/-- PREAMBLE of a channel. -/
def State.chanPre (s : State) (n m : Nat) : Nat := s.reg F.airChLimPreamble n m

/-- The gap G between train copies. -/
def State.trainGap (s : State) (n m : Nat) : Nat := 320000 + s.ppdu n m s.ackPre 8 + 100000

/-- The phase-targeted wake: the first k whose start falls at or after `from_`; `fuel` bounds the search. -/
def State.phaseAt (s : State) (x : Sensor) (from_ : Int) : Nat → Nat → Option (Nat × Int)
  | 0, _ => none
  | fuel + 1, k =>
    let t := x.wake k
    let u := s.uncertainty x t
    let st := t - u - s.wakeMargin / 2
    if from_ ≤ st then some (k, st) else s.phaseAt x from_ fuel (k + 1)

/-- A plan that starts at once, or after listening. -/
def State.planNow (s : State) (d : AirDown) (way pre left : Nat) : AirPlan :=
  let l := s.listenNs d.port d.chan
  { way := way, start := s.now + l.getD 0, pre := pre, left := left, checked := false, writing := false,
    listen := l.map fun _ => s.now, heard := l.isNone, backoff := none }

/-- The long-preamble plan, if it is available. -/
def State.longPlan (s : State) (d : AirDown) (x : Sensor) : Option AirPlan :=
  let pre := s.octetsFor d.port d.chan (x.wakeMs * ms + s.wakeMargin)
  if pre ≤ 1000 then some (s.planNow d 1 pre 0) else none

/-- The frame-train plan: n = ceil(W / (D_c + G)) + 1 copies. -/
def State.trainPlan (s : State) (d : AirDown) (x : Sensor) : AirPlan :=
  let pre := s.chanPre d.port d.chan
  let dc := s.ppdu d.port d.chan pre (s.downLen d)
  s.planNow d 2 pre (cdiv (x.wakeMs * ms) (dc + s.trainGap d.port d.chan))

/-- The phase-targeted plan, if it is available: the first wake whose start falls at least 12 ms, and LISTEN_US, from
now. -/
def State.phasePlan (s : State) (d : AirDown) (x : Sensor) : Option AirPlan :=
  let l := s.listenNs d.port d.chan
  let from_ : Int := s.now + 12 * ms + l.getD 0
  let k0 := ((from_ - x.phaseNs) / x.period).toNat
  if !x.valid ∨ x.period ≤ 0 then none
  else match s.phaseAt x from_ 64 k0 with
    | none => none
    | some (k, st) =>
      let u := (s.uncertainty x (x.wake k)).toNat
      let pre := max (s.chanPre d.port d.chan) (s.octetsFor d.port d.chan (2 * u + s.wakeMargin))
      if 1000 < pre then none
      else some { way := 3, start := st.toNat, pre := pre, left := 0, checked := false, writing := false,
                  listen := l.map fun n => st.toNat - n, heard := l.isNone, backoff := none }

/-- The airtime of a plan in ns: all copies of a train (10 R227). -/
def State.planNs (s : State) (d : AirDown) (p : AirPlan) : Nat :=
  (p.left + 1) * s.ppdu d.port d.chan p.pre (s.downLen d)

/-- The open pending window of an extended address that a frame may still use (10 R226). -/
def State.openWindow? (s : State) (ext : Nat) : Option AirWindow :=
  s.air.windows.find? fun w => decide (w.ext = ext) && !w.used

/-- The pending-window plan: PEND_DELAY after the acknowledgement, if it is still to come and the frame ends within the
window. -/
def State.windowPlan (s : State) (d : AirDown) (w : AirWindow) : Option AirPlan :=
  let l := s.listenNs d.port d.chan
  let st := w.start + s.pendDelay
  let pre := s.chanPre d.port d.chan
  if w.port = d.port ∧ w.chan = d.chan ∧ s.now + l.getD 0 ≤ st ∧ st + s.ppdu d.port d.chan pre (s.downLen d) ≤ w.fin then
    some { way := 4, start := st, pre := pre, left := 0, checked := false, writing := false,
           listen := l.map fun n => st - n, heard := l.isNone, backoff := none }
  else none

/-- The available method of 10 R225 with the least airtime; ties go to phase-targeted, then long preamble. -/
def State.leastPlan (s : State) (d : AirDown) (x : Sensor) : AirPlan :=
  let tr := s.trainPlan d x
  let b := match s.longPlan d x with
    | some p => if s.planNs d p ≤ s.planNs d tr then p else tr
    | none => tr
  match s.phasePlan d x with
  | some p => if s.planNs d p ≤ s.planNs d b then p else b
  | none => b

/-- The entry a downlink goes by: the copy a DISASSOC kept, or its sensor's. -/
def State.entryOf (s : State) (d : AirDown) : Option Sensor :=
  match d.copy with
  | some x => some x
  | none => s.sensor? d.short

/-- The method of a downlink's next try (10 R227), none where its METHOD has none available. -/
def State.planFor (s : State) (d : AirDown) : Option AirPlan :=
  if !s.flag F.airChCfgEn d.port d.chan then none
  else match d.job with
    | .assoc => (s.openWindow? d.ext).bind fun w => s.windowPlan d w
    | .beacon => some (s.planNow d 0 (s.chanPre d.port d.chan) 0)
    | _ =>
      match s.entryOf d with
      | none => none
      | some x =>
        if x.wakeMs = 0 then some (s.planNow d 0 (s.chanPre d.port d.chan) 0)
        else match d.job with
          | .digest _ => (s.openWindow? d.ext).bind fun w => s.windowPlan d w
          | _ =>
            match d.method with
            | 1 => s.longPlan d x
            | 2 => some (s.trainPlan d x)
            | 3 => s.phasePlan d x
            | _ => match (s.openWindow? d.ext).bind fun w => s.windowPlan d w with
              | some p => some p
              | none => some (s.leastPlan d x)

/-! ## The list of downlinks -/

/-- A downlink by its number. -/
def State.down? (s : State) (id : Nat) : Option AirDown := s.air.downs.find? fun d => decide (d.id = id)

/-- A downlink changed. -/
def State.setDown (s : State) (d : AirDown) : State :=
  { s with air := { s.air with downs := s.air.downs.map fun e => if e.id = d.id then d else e } }

/-- A downlink gone. -/
def State.dropDown (s : State) (id : Nat) : State :=
  { s with air := { s.air with downs := s.air.downs.filter fun d => decide (d.id ≠ id) } }

/-- A new downlink, behind those of its sensor. -/
def State.addDown (s : State) (d : AirDown) : State :=
  { s with air := { s.air with downs := s.air.downs ++ [{ d with id := s.air.nextId }], nextId := s.air.nextId + 1 } }

/-- A downlink of the device's own, before it is planned. -/
def AirDown.own (job : AirJob) (short ext port chan seq : Nat) (ack : Bool) (mac : List Byte) : AirDown :=
  { id := 0, job := job, short := short, ext := ext, port := port, chan := chan, copy := none, method := 0, ackReq := ack,
    mac := mac, seq := seq, tries := 0, airtime := 0, first := 0, lastEnd := 0, nonce := zeros 13, expires := none,
    pend := false, done := false, stage := .queued }

/-- The next value of the device-wide downlink SEQ (10 R227). -/
def State.airSeq (s : State) : State × Nat :=
  ({ s with air := { s.air with seq := (s.air.seq + 1) % 256 } }, s.air.seq)

/-- A beacon, an ASSOC_RESP and a DIGEST do not wait behind other downlinks. -/
def AirDown.inLine (d : AirDown) : Bool :=
  match d.job with
  | .host _ | .disassoc => true
  | _ => false

/-- QUEUE of a short address (10 R213, 12 R277): a downlink to it waits, or a digest entry. -/
def State.queueBit (s : State) (short : Nat) : Bool :=
  (s.air.downs.any fun d => decide (d.short = short) && !d.done && (match d.job with
    | .beacon => false
    | _ => true)) || s.sc.digests.any fun e => decide (e.short = short)

/-! ## Planning and ending -/

/-- A host downlink on the air ends (04 R86, 10 R228): with a status and an empty operand, or its result. -/
def State.airResult (s : State) (d : AirDown) (status : Nat) (result : Option Nat) : State :=
  match d.job with
  | .host ref => s.finishRef ref status (match result with
    | some r => s.downlinkResult r d.tries (s.toUs 510 d.airtime) d.first d.nonce
    | none => [])
  | _ => s

/-- TX_FAIL of the entry: a downlink that asked for an acknowledgement has ended without one. -/
def State.noteFail (s : State) (d : AirDown) : State :=
  if d.ackReq && decide (0 < d.tries) && d.copy.isNone then
    match s.sensor? d.short with
    | some x => s.setSensor d.short (some { x with txFail := x.txFail + 1 })
    | none => s
  else s

/-- A plan set on a downlink; a pending-window frame's duty check is made at once (10 R230). -/
def State.setPlan (s : State) (d : AirDown) (p : AirPlan) : State × DutyAns :=
  if p.way = 4 then
    let r := s.dutyCheck d.port d.chan (s.toUs 511 (s.ppdu d.port d.chan p.pre (s.downLen d))) false (some d.id)
    let s : State := { r.1 with air := { r.1.air with windows := r.1.air.windows.map fun w =>
                                                      if w.ext = d.ext then { w with used := true } else w } }
    (s.setDown { d with stage := .planned { p with checked := true, writing := decide (r.2 = .wait) } }, r.2)
  else (s.setDown { d with stage := .planned p }, .go)

/-- The downlinks of a sensor, one at a time: the first that waits is planned once none is under way. `fuel` bounds how
many end at once. -/
def State.nextDown (s : State) (ext : Nat) : Nat → State
  | 0 => s
  | fuel + 1 =>
    let mine := s.air.downs.filter fun d => decide (d.ext = ext) && d.inLine && !d.done
    match mine with
    | [] => s
    | d :: _ =>
      if d.stage ≠ .queued then s
      else match s.planFor d with
        | some p =>
          let r := s.setPlan d p
          if r.2 = .refuse then (((r.1.dropDown d.id).airResult d Status.dutyExhausted none).nextDown ext fuel) else r.1
        | none => (((s.dropDown d.id).airResult d Status.noRoute none).nextDown ext fuel)

/-- The most downlinks that may end at once. -/
def downFuel : Nat := 4096

/-- A downlink ends. -/
def State.endDown (s : State) (d : AirDown) (status : Nat) (result : Option Nat) : State :=
  let s := (s.dropDown d.id).noteFail d
  (if d.done then s else s.airResult d status result).nextDown d.ext downFuel

/-- A try's duty check has refused it (10 R228, R231): DUTY_EXHAUSTED, with the full result after earlier tries; a
beacon is skipped. -/
def State.dutyRefused (s : State) (d : AirDown) : State :=
  match d.job with
  | .beacon => (s.dropDown d.id).bump F.airCntBcnSkip d.port
  | _ => s.endDown d Status.dutyExhausted (if d.tries = 0 then none else some 2)

/-- The next try of a downlink is planned (10 R228), or none is made. -/
def State.planTry (s : State) (d : AirDown) : State :=
  match s.planFor d with
  | some p =>
    let r := s.setPlan d p
    if r.2 = .refuse then r.1.dutyRefused d else r.1
  | none => if d.tries = 0 then s.endDown d Status.noRoute none else s.endDown d Status.ok (some 2)

/-- A DIGEST command is tried once (12 R279). -/
def AirDown.once (d : AirDown) : Bool :=
  match d.job with
  | .digest _ => true
  | _ => false

/-- A try has failed (10 R228): the next is chosen at once, or the last has failed. -/
def State.airFailed (s : State) (d : AirDown) : State :=
  let again := !d.once && !d.done && d.ackReq && decide (d.tries < s.airTries)
  if again then s.planTry d else s.endDown d Status.ok (some 2)

/-! ## Starting a transmission (10 R229, 09 R203, R204) -/

/-- Since when what is planned holds a transmit slot (10 R229): a timed transmission from the start of its listen period, a train from
that of its first copy and through its gaps. -/
def AirDown.holds (d : AirDown) : Option Nat :=
  match d.stage with
  | .planned p =>
    if p.way = 2 ∧ d.lastEnd ≠ 0 then some (p.listen.getD d.first)
    else if p.backoff.isSome then none
    else if p.way = 2 then p.listen
    else if p.way = 3 ∨ p.way = 4 then some (p.listen.getD p.start)
    else none
  | _ => none

/-- Another transmission of a port comes before a downlink in the use of a slot: it holds one by now, and did so first. -/
def State.holdsBefore (s : State) (e d : AirDown) : Bool :=
  match e.holds with
  | none => false
  | some h => decide (e.port = d.port) && decide (e.id ≠ d.id) && decide (h ≤ s.now) && (match d.holds with
    | some k => decide (h < k) || (decide (h = k) && decide (e.id < d.id))
    | none => true)

/-- The acknowledgements of a port that are to start by now. -/
def State.acksDue (s : State) (n : Nat) : Nat :=
  ((s.ap n).chans.filter fun e => e.2.ack.any fun a => a.go && decide (a.fin + 320000 ≤ s.now)).length

/-- A transmit slot is free for a downlink (AIR_TX.MAXTX, 10 R229): of the slots, what is in the air, the acknowledgements due, and
what holds a slot before it take theirs. -/
def State.slotFree (s : State) (n : Nat) (d : AirDown) : Bool :=
  decide ((s.ap n).sends.length + s.acksDue n + (s.air.downs.filter fun e => s.holdsBefore e d).length < s.reg F.airTxMaxtx n)

/-- A transmission of the port runs on a channel. -/
def State.chanSends (s : State) (n m : Nat) : Bool := (s.ap n).sends.any fun x => decide (x.chan = m)

/-- A channel is free for a downlink: transmissions at once are on different channels (09 R203), and an acknowledgement due is never
delayed (10 R214, R229). -/
def State.chanFree (s : State) (n m : Nat) : Bool := !s.chanSends n m && (s.ac n m).ack.isNone

/-- A channel that may hold a candidate or a reception until now. -/
def AirChan.seen (x : AirChan) (now : Nat) : AirChan := if x.cands.isEmpty && x.rx.isNone then x else { x with held := now }

/-- A channel with no candidate and no reception. -/
def AirChan.clear (x : AirChan) : AirChan := { x with cands := [], rx := none }

/-- What the start of a transmission ends on a port's receivers (09 R204): in full duplex on its own channel, in half
duplex on every channel. -/
def State.cutReceptions (s : State) (n m : Nat) : State :=
  let p := s.ap n
  let half := s.flag F.airJesdDuplex n
  let hit := p.chans.filter fun e => half || decide (e.1 = m)
  let cut := (hit.filter fun e => e.2.rx.isSome).length
  let s := s.setAp n { p with chans := p.chans.map fun e =>
                              if half || decide (e.1 = m) then (e.1, (e.2.seen s.now).clear) else e }
  let s := hit.foldl (fun s e => (s.unplace (.airRx n e.1 0)).unplace (.airRx n e.1 1)) s
  s.bumpBy F.airCntTxcut n cut

/-- A transmission begins on a channel, at the antenna at `start` (09 R203): TX_NS earlier on the lane (R189), in the form that the
channel's registers give (R194). -/
def State.airBegin (s : State) (n m : Nat) (what : AirWhat) (start pre : Nat) (four dw : Bool) (mac : List Byte) :
    State :=
  let psdu := psduOf four dw mac
  let s := (s.cutReceptions n m).bump F.airCntTx n
  let mod := s.reg F.airChCfgMod n m
  let dev : Int := airDev mod (s.airRate n m)
  let syms := ppduSyms mod (s.reg F.airChCfgSfd n m) pre (phrOf four dw psdu.length) psdu
  let x : AirSend := { chan := m, what := what, start := start, fin := start + s.ppdu n m pre psdu.length, pre := pre,
                       psdu := psdu, lane := start - s.reg F.airLatTxNs n, khz := s.airFreq n m, amp := s.reg F.airTxTxamp n,
                       bt := s.reg F.airChCfgBt n m % 3, rate := s.airRate n m, offsets := syms.map fun v => v * dev }
  s.setAp n { s.ap n with sends := (s.ap n).sends ++ [x] }

/-- PENDING set in FC0 (10 R207). -/
def withPending (b : Bool) (mac : List Byte) : List Byte :=
  match mac with
  | a :: l => (if b then a ||| 0x10#8 else a) :: l
  | [] => []

/-- Further downlinks wait for a sensor (10 R226). -/
def State.moreFor (s : State) (d : AirDown) : Bool :=
  s.air.downs.any fun e => decide (e.id ≠ d.id) && decide (e.ext = d.ext) && e.inLine && !e.done

/-- A downlink's transmission, or a train's copy, begins. -/
def State.sendDown (s : State) (d : AirDown) (p : AirPlan) : State :=
  let start := if p.way = 0 ∨ p.way = 1 ∨ (p.way = 2 ∧ d.lastEnd = 0) then s.now else p.start
  let copy := decide (p.way = 2) && decide (d.lastEnd ≠ 0)
  let pend := decide (p.way = 4) && s.moreFor d
  let s := s.setDown { d with stage := .sending p, tries := if copy then d.tries else d.tries + 1, first := start, pend := pend }
  s.airBegin d.port d.chan (.frame d.id) start p.pre (s.flag F.airChCfgFcs4 d.port d.chan) (s.flag F.airChCfgDw d.port d.chan)
    (withPending pend d.mac)

/-- A phase-targeted try, or a copy of a train that has started: its instant is its own. -/
def AirDown.timed (d : AirDown) (p : AirPlan) : Bool := decide (p.way = 3) || (decide (p.way = 2) && decide (d.lastEnd ≠ 0))

/-- A planned transmission is ready to start: its instant has come, the channel was heard idle, no duty record is awaited
and, where the check comes first, it has passed. -/
def State.readyDown (s : State) (n : Nat) (d : AirDown) : Option AirPlan :=
  match d.stage with
  | .planned p =>
    let timed := d.timed p
    if d.port = n ∧ p.way ≠ 4 ∧ p.start ≤ s.now ∧ p.heard = true ∧ p.backoff = none ∧ (p.writing = false ∨ timed = true) ∧
        (timed = false ∨ p.checked = true) then some p
    else none
  | _ => none

/-- A ready transmission whose listen period ended before now: it did not start then, and listens again first (10 R232: immediately
before the start). -/
def State.heardStale (s : State) (d : AirDown) (p : AirPlan) : Bool :=
  p.listen.isSome && !d.timed p && decide (p.start < s.now)

/-- The transmissions of a port that find a slot and a channel listen again where their listen period has passed. -/
def State.relisten (s : State) (n : Nat) : State :=
  s.air.downs.foldl (fun s d =>
    match s.readyDown n d with
    | some p =>
      if s.heardStale d p && s.slotFree n d && s.chanFree n d.chan then
        let l := s.listenNs n d.chan
        s.setDown { d with stage := .planned { p with
          start := s.now + l.getD 0
          listen := l.map fun _ => s.now
          heard := l.isNone } }
      else s
    | none => s) s

/-- The order of 10 R229: timed transmissions, beacons, others, each in order of arrival. -/
def AirDown.rank (d : AirDown) (p : AirPlan) : Nat :=
  if d.timed p then 0
  else match d.job with
    | .beacon => 1
    | _ => 2

/-- A copy of a train that has started: an earlier one was sent. -/
def AirDown.copyOf (d : AirDown) (p : AirPlan) : Bool := decide (p.way = 2) && decide (d.lastEnd ≠ 0)

/-- A downlink has reached its 30 s limit: no new try of it starts (04 R86). -/
def State.expired (s : State) (d : AirDown) : Bool := d.expires.any fun e => decide (e ≤ s.now)

/-- A ready transmission is one for its port to take: its limit is not reached, and it finds a slot and an enabled, free channel, or its
instant is its own, so that it moves on if it does not. -/
def State.toTake (s : State) (n : Nat) (d : AirDown) (p : AirPlan) : Bool :=
  !s.expired d && (d.copyOf p || (s.flag F.airChCfgEn n d.chan && (decide (p.way = 3) || (s.slotFree n d && s.chanFree n d.chan))))

/-- The transmission that a port takes next. -/
def State.nextSend (s : State) (n : Nat) : Option (AirDown × AirPlan) :=
  (s.air.downs.filterMap fun d => (s.readyDown n d).bind fun p =>
    if s.heardStale d p || !s.toTake n d p then none else some (d, p)).foldl (fun best e =>
    match best with
    | none => some e
    | some b => if e.1.rank e.2 < b.1.rank b.2 then some e else some b) none

/-- The next copy of a train, after one that ended at `fin`: its duty check is made now; a refusal ends the train. The train holds its
slot since its first copy, or the listen period before it, which the plan keeps (10 R229). -/
def State.nextCopy (s : State) (d : AirDown) (p : AirPlan) (fin : Nat) : State :=
  let dur := s.ppdu d.port d.chan p.pre (s.downLen d)
  let r := s.dutyCheck d.port d.chan (s.toUs 512 dur) false (some d.id)
  match r.2 with
  | .refuse => if d.ackReq then r.1.setDown { d with stage := .await } else r.1.endDown d Status.ok (some 1)
  | a => r.1.setDown { d with stage := .planned { p with
      start := fin + s.trainGap d.port d.chan
      left := p.left - 1
      checked := true
      writing := decide (a = .wait)
      listen := some (p.listen.getD d.first)
      heard := true } }

/-- A phase-targeted try that does not start at its instant moves to the sensor's next wake, uncounted (10 R228, R229). -/
def State.nextWake (s : State) (d : AirDown) : State :=
  match (s.entryOf d).bind fun x => s.phasePlan d x with
  | some p => (s.setPlan d p).1
  | none => s.planTry d

/-- A train copy whose record is not durable by its start, or that finds no slot or channel then, is not sent; the train goes on with
its next copy. -/
def State.skipCopy (s : State) (d : AirDown) (p : AirPlan) : State :=
  let fin := p.start + s.ppdu d.port d.chan p.pre (s.downLen d)
  if p.left = 0 then (if d.ackReq then s.setDown { d with stage := .await } else s.endDown d Status.ok (some 1))
  else s.nextCopy d p fin

/-- Beacons that wait are not sent, and counted (10 R220): those that have not started within 10 ms of their due instants. -/
def State.skipBeacons (s : State) (n : Nat) (p : AirDown → Bool) : State :=
  let late := s.air.downs.filter fun d => decide (d.port = n) && decide (d.job = .beacon) && p d && (match d.stage with
    | .planned _ => true
    | _ => false)
  late.foldl (fun s d => (s.dropDown d.id).bump F.airCntBcnSkip n) s
def State.staleBeacons (s : State) (n : Nat) : State := s.skipBeacons n fun d => decide (d.first + 10 * ms < s.now)

/-- A transmission chosen by 10 R229 starts, if a slot is free and its duty check, where it is made at the start, lets
it. -/
def State.startDown (s : State) (n : Nat) (d : AirDown) (p : AirPlan) : State :=
  let copy := d.copyOf p
  if copy && (p.writing || !s.flag F.airChCfgEn n d.chan) then s.skipCopy d p
  else if !s.slotFree n d || !s.chanFree n d.chan then
    if copy then s.skipCopy d p else if p.way = 3 then s.nextWake d else s
  else if p.checked then s.sendDown d p
  else
    let r := s.dutyCheck n d.chan (s.toUs 513 (s.ppdu n d.chan p.pre (s.downLen d))) false (some d.id)
    match r.2 with
    | .refuse => r.1.dutyRefused d
    | .wait => r.1.setDown { d with stage := .planned { p with checked := true, writing := true } }
    | .go => r.1.sendDown d { p with checked := true }

/-- AIR_TX_START (10 R229, 09 R203): the next transmission due on a port starts at its intended antenna instant. -/
def execAirTxStart (t port : Nat) (s : State) : Host.Outcome State Fault Refusal :=
  whenOn t (fun s =>
    if !s.airServes port then s
    else
      let s := (s.staleBeacons port).relisten port
      match s.nextSend port with
      | some (d, p) => s.startDown port d p
      | none => s) s

/-! ## Beacons (10 R220, 12 R278) -/

/-- The digest entries a beacon of a port carries: the oldest for sensors of that port, at most 32, within MAXLEN. -/
def State.beaconDigest (s : State) (n m : Nat) : List DigestEntry :=
  let mine := s.sc.digests.filter fun e => match s.sensor? e.short with
    | some x => decide (x.port = n)
    | none => false
  let room := s.reg F.airChLimMaxlen n m - (13 + 4 + s.fcsLen n m + 1)
  mine.take (min 32 (room / 4))

/-- Four octets of a digest entry (12 R276). -/
def DigestEntry.bytes (e : DigestEntry) : List Byte := le 2 e.short ++ be 1 e.seq ++ be 1 e.margin

/-- A beacon's MAC frame (10 R220): TYPE BEACON, SRC extended. -/
def State.beaconMac (s : State) (n m seq : Nat) : List Byte :=
  let dg := s.beaconDigest n m
  let flags := s.reg F.airMacCtlAssocOpen + 2 * b2n (!dg.isEmpty)
  be 1 0 ++ be 1 0xC0 ++ be 1 seq ++ le 2 (s.reg F.airMacCtlPan) ++ le 8 s.extAddr ++
    be 1 flags ++ be 1 n ++ le 2 (clamp 5 600 (s.reg F.airBcnPeriodDs n)) ++
    (if dg.isEmpty then [] else be 1 dg.length ++ dg.flatMap (·.bytes))

/-- AIR_BEACON_DUE (10 R220): a port's beacon falls due; without listen-before-talk and with a slot free it starts at
once, and otherwise it waits, for 10 ms at most. -/
def execAirBeaconDue (t port : Nat) (s : State) : Host.Outcome State Fault Refusal :=
  whenOn t (fun s =>
    let p := s.ap port
    match p.bcnAt with
    | none => s
    | some due =>
      if s.airServes port = false ∨ s.flag F.airBcnEn port = false ∨ s.now < due then s
      else
        let m := s.reg F.airBcnChannel port
        let period := clamp 5 600 (s.reg F.airBcnPeriodDs port) * 100 * ms
        let s := (s.staleBeacons port).setAp port { s.ap port with bcnAt := some (due + period), bcnSeq := (p.bcnSeq + 1) % 256 }
        if s.flag F.airChCfgEn port m = false ∨ due + 10 * ms < s.now then s.bump F.airCntBcnSkip port
        else
          let d : AirDown := { AirDown.own .beacon 0xFFFF 0 port m p.bcnSeq false (s.beaconMac port m p.bcnSeq) with first := due }
          let id := s.air.nextId
          let s := s.addDown d
          match s.down? id with
          | none => s
          | some d =>
            let pl := s.planNow d 0 (s.chanPre port m) 0
            let d : AirDown := { d with stage := .planned pl }
            let s := s.setDown d
            if pl.heard then s.startDown port d pl else s) s

/-! ## Pending windows (10 R226, R227) -/

/-- A pending window opens for a sensor from `at_` on: its first frame is chosen, the DIGEST before all (12 R279), then
an ASSOC_RESP, then a METHOD 0 downlink whose plan has not passed its duty check. A DIGEST that is not sent in it goes: a later
window makes its own, of the entries that wait then. -/
def State.openWindow (s : State) (ext short n m at_ : Nat) : State :=
  let w : AirWindow := { ext := ext, short := short, port := n, chan := m, start := at_, fin := at_ + s.pendWinMs * ms,
                         used := false }
  let s : State := { s with air := { s.air with windows := (s.air.windows.filter fun v => decide (v.ext ≠ ext)) ++ [w] } }
  let capable := match s.sensor? short with
    | some x => x.digest && x.sleepy && decide (x.state = 1)
    | none => false
  let dg : List DigestEntry := (s.sc.digests.filter fun e => decide (e.short = short)).take 16
  let s := if capable && !dg.isEmpty && !(s.air.downs.any fun d => decide (d.ext = ext) && (match d.job with
      | .digest _ => true
      | _ => false)) then
      let q := s.airSeq
      let body := be 1 0x10 ++ be 1 dg.length ++ dg.flatMap (·.bytes)
      let mac := be 1 0x63 ++ be 1 0x88 ++ be 1 q.2 ++ le 2 (s.reg F.airMacCtlPan) ++ le 2 short ++ le 2 0 ++ body
      q.1.addDown (AirDown.own (.digest (dg.map fun e => (e.short, e.seq, e.margin))) short ext n m q.2 true mac)
    else s
  let free (d : AirDown) : Bool := match d.stage with
    | .queued => true
    | .planned p => !p.checked && decide (d.lastEnd = 0 ∨ p.way ≠ 2)
    | _ => false
  let mine := s.air.downs.filter fun d => decide (d.ext = ext) && !d.done
  let order := (mine.filter fun d => d.once && free d) ++ (mine.filter fun d => decide (d.job = .assoc) && free d) ++
    (match mine.filter (fun d => d.inLine) with
    | d :: _ => if d.method = 0 ∧ free d = true then [d] else []
    | [] => [])
  let first := order.findSome? fun d => (s.windowPlan { d with port := n, chan := m } w).map fun p =>
    (({ d with port := n, chan := m } : AirDown), p)
  let s := (mine.filter fun d => d.once && decide (d.stage = .queued) && decide (some d.id ≠ first.map (·.1.id))).foldl
    (fun s d => s.dropDown d.id) s
  match first with
  | none => s
  | some (d, p) =>
    let r := s.setPlan d p
    if r.2 = .refuse then r.1.dutyRefused d else r.1

/-- PENDING_WINDOW_SEND (10 R226): the frame planned in a sensor's pending window starts; one whose duty record is not
durable, or that finds no slot, goes by the method of R227 instead. -/
def execPendingWindowSend (t ext : Nat) (s : State) : Host.Outcome State Fault Refusal :=
  whenOn t (fun s =>
    let hit := s.air.downs.findSome? fun d =>
      match d.stage with
      | .planned p => if d.ext = ext ∧ p.way = 4 ∧ p.start ≤ s.now ∧ p.heard = true then some (d, p) else none
      | _ => none
    match hit with
    | none => s
    | some (d, p) =>
      if !s.airServes d.port || s.expired d then s
      else if p.writing ∨ s.slotFree d.port d = false ∨ s.chanFree d.port d.chan = false then
        if d.inLine then s.planTry d else s.endDown d Status.ok none
      else s.sendDown d p) s

/-- PENDING_WINDOW_END (10 R226, R227): a pending window closes; what was planned in it and has not started goes by
another method, an ASSOC_RESP not at all (R217). -/
def execPendingWindowEnd (t ext : Nat) (s : State) : Host.Outcome State Fault Refusal :=
  whenOn t (fun s =>
    match s.air.windows.find? (fun w => decide (w.ext = ext)) with
    | none => s
    | some w =>
      if s.now < w.fin then s
      else
        let s : State := { s with air := { s.air with windows := s.air.windows.filter fun v => decide (v.ext ≠ ext) } }
        let left : List AirDown := s.air.downs.filter fun (d : AirDown) => decide (d.ext = ext) && (match d.stage with
          | .planned p => decide (p.way = 4)
          | .queued => decide (d.job = .assoc)
          | _ => false)
        left.foldl (fun (s : State) (d : AirDown) => if d.inLine then s.planTry d else s.endDown d Status.ok none) s) s

/-! ## The end of a transmission (10 R228) -/

/-- The end of the acknowledgement window of a try that ended at E. -/
def State.airWindowEnd (s : State) (d : AirDown) : Nat :=
  d.lastEnd + 320000 + s.airNs d.port d.chan (32 * 8 + 16) + 10000

/-- An acknowledgement's SFD end lies in the window of the last try or copy. -/
def State.inAirWindow (s : State) (d : AirDown) (ts : Nat) : Bool :=
  decide (0 < d.lastEnd) && decide (d.lastEnd + 320000 + s.airNs d.port d.chan (4 * 8 + 16) ≤ ts + 10000) &&
    decide (ts ≤ s.airWindowEnd d)

/-- A downlink's transmission has ended at `fin`. -/
def State.downSent (s : State) (id start fin : Nat) : State :=
  match s.down? id with
  | none => s
  | some d =>
    let d : AirDown := { d with airtime := d.airtime + (fin - start), lastEnd := fin }
    match d.stage with
    | .sending p =>
      match d.job with
      | .beacon => s.dropDown id
      | _ =>
        if d.done then (s.setDown d).endDown d Status.ok none
        else if p.way = 2 ∧ 0 < p.left then (s.setDown d).nextCopy d p fin
        else if d.ackReq then s.setDown { d with stage := .await }
        else (s.setDown d).endDown d Status.ok (some 1)
    | _ => s

/-- AIR_TX_END (10 R228, R226): a transmission or train copy ends; its acknowledgement window opens, or the pending
window that an acknowledgement with PENDING 1 opens. -/
def execAirTxEnd (t port chan : Nat) (s : State) : Host.Outcome State Fault Refusal :=
  whenOn t (fun s =>
    let p := s.ap port
    match p.sends.find? (fun x => decide (x.chan = chan)) with
    | none => s
    | some x =>
      if s.now < x.fin then s
      else
        let s := s.setAp port { p with sends := p.sends.filter fun y => decide (y ≠ x), quiet := max p.quiet (x.fin + 20000) }
        let s := s.setAc port chan { s.ac port chan with quiet := x.fin + 20000 }
        let s := match x.what with
          | .ack (some ext) =>
            let short := match s.sensorByExt ext with
              | some e => e.1
              | none => match (s : State).air.downs.find? (fun (d : AirDown) => decide (d.ext = ext)) with
                | some d => d.short
                | none => 0xFFFE
            s.openWindow ext short port chan x.fin
          | .ack none => s
          | .frame id => s.downSent id x.start x.fin
        s.airBoundary port) s

/-- AIR_ACK_WINDOW_END (10 R228): an acknowledgement window closes without an accepted ACK; the try has failed. A frame
whose SFD ended in the window and is still arriving is waited for. -/
def execAirAckWindowEnd (t id : Nat) (s : State) : Host.Outcome State Fault Refusal :=
  whenOn t (fun s =>
    match s.down? id with
    | none => s
    | some d =>
      let x := s.ac d.port d.chan
      let coming := x.cands.any (fun c => s.inAirWindow d c.ts) || (match x.rx with
        | some r => s.inAirWindow d r.cand.ts
        | none => false)
      if d.stage = .await ∧ s.airWindowEnd d ≤ s.now ∧ coming = false then
        (s.airFailed { d with lastEnd := 0 }).airBoundary d.port
      else s) s

/-! ## Duty checks and listening ahead (10 R230, R232) -/

/-- PHASE_TARGET_CHECK (10 R230): 12 ms before a phase-targeted try's listen period its duty check is made. -/
def execPhaseTargetCheck (t id : Nat) (s : State) : Host.Outcome State Fault Refusal :=
  whenOn t (fun s =>
    match s.down? id with
    | none => s
    | some d =>
      match d.stage with
      | .planned p =>
        if p.way = 3 ∧ p.checked = false ∧ p.listen.getD p.start ≤ s.now + 12 * ms then
          let r := s.dutyCheck d.port d.chan (s.toUs 514 (s.ppdu d.port d.chan p.pre (s.downLen d))) false (some id)
          if r.2 = .refuse then r.1.dutyRefused d
          else r.1.setDown { d with stage := .planned { p with checked := true, writing := decide (r.2 = .wait) } }
        else s
      | _ => s) s

/-- The channel counts as busy in the listen period that began at `since` (10 R232): a 100 us mean of its power exceeded the
threshold, it held a candidate or a reception, or, in half duplex, the port transmitted. -/
def State.listenBusy (s : State) (n m since : Nat) : Bool :=
  let x := s.ac n m
  decide (since + 100000 ≤ x.loudAt + s.airStep n m) || !x.cands.isEmpty || x.rx.isSome || decide (since < x.held) ||
    (s.flag F.airJesdDuplex n && (!(s.ap n).sends.isEmpty || decide (since + 20000 < (s.ap n).quiet)))

/-- LBT_LISTEN_END (10 R232): a listen period ends; `outs` are the channel's outputs since those given before. -/
def execLbtListenEnd (t id : Nat) (outs : List AirOut) (s : State) : Host.Outcome State Fault Refusal :=
  whenOn t (fun s =>
    match s.down? id with
    | none => s
    | some d =>
      let s := s.takeAir d.port d.chan outs
      match d.stage with
      | .planned p =>
        if p.heard ∨ p.backoff.isSome ∨ s.now < p.start then s
        else if !s.listenBusy d.port d.chan (p.listen.getD p.start) then s.setDown { d with stage := .planned { p with heard := true } }
        else
          let s := s.bump F.airCntLbtBusy d.port
          match d.job with
          | .beacon =>
            if d.first + 10 * ms < s.now then (s.dropDown id).bump F.airCntBcnSkip d.port
            else s.setDown { d with stage := .planned (s.planNow d 0 p.pre 0) }
          | _ =>
            if p.way = 3 then s.nextWake d
            else if p.way = 4 then (if d.inLine then s.planTry d else s.endDown d Status.ok none)
            else
              let a := s.acctOf d.port d.chan
              let most := clamp 1 255 (s.reg F.airDutyLbtBackoffMs a) * ms
              let wait := s.draw 515 (most + 1)
              s.setDown { d with stage := .planned { p with backoff := some (s.now + wait) } }
      | _ => s) s

/-- LBT_BACKOFF_END (10 R232): a backoff ends and the port listens again. -/
def execLbtBackoffEnd (t id : Nat) (s : State) : Host.Outcome State Fault Refusal :=
  whenOn t (fun s =>
    match s.down? id with
    | none => s
    | some d =>
      match d.stage with
      | .planned p =>
        match p.backoff with
        | some b =>
          if b ≤ s.now then
            let l := (s.listenNs d.port d.chan).getD 0
            s.setDown { d with stage := .planned { p with backoff := none, listen := some s.now, start := s.now + l } }
          else s
        | none => s
      | _ => s) s

/-! ## AIR DOWNLINK (04 R85, R86; 10 R227; 14 R315 to R318) -/

/-- The MAC header of a downlink: SRC 0x0000, PANC 1, DST short or extended. -/
def State.downHead (s : State) (typ : Nat) (ack sec : Bool) (seq : Nat) (dst : List Byte) : List Byte :=
  be 1 (0x40 + 0x20 * b2n ack + 8 * b2n sec + typ) ++ be 1 (if dst.length = 8 then 0x8C else 0x88) ++ be 1 seq ++
    le 2 (s.reg F.airMacCtlPan) ++ dst ++ le 2 0

/-- AIR DOWNLINK on its way: refused, or in its place among its sensor's downlinks, once the cipher block has secured it where it is
sent under a key (14 R318). -/
def State.airDownlink (s : State) (f : Flight) (short : Nat) (x : Sensor) : State :=
  let o := f.operand
  let key := beAt o 4 4
  let level := secLevel (octet o 8)
  let p := o.drop 16
  let ack := bit (octet o 9) 0
  let beyond := secOverhead key level
  if s.reg F.airChLimMaxlen x.port x.chan < 9 + beyond + p.length + s.fcsLen x.port x.chan then
    s.finish f false Status.badLength []
  else if s.sendBarred true key then s.finish f false Status.keyErased []
  else
    let q := s.airSeq
    let head := s.downHead 1 ack (decide (key ≠ 0)) q.2 (le 2 short)
    let d : AirDown := { AirDown.own (.host f.ref) short x.ext x.port x.chan q.2 ack (if key = 0 then head ++ p else head) with
                         method := octet o 3, expires := some (f.time + 30 * sec), stage := if key = 0 then .queued else .sealing }
    let id := q.1.air.nextId
    let s := (q.1.setFlight { f with stage := .waiting }).addDown d
    if key = 0 then s.nextDown x.ext downFuel else s.offerJob (sealJob true key level head p (.air id))

/-- An air downlink has been secured, or has failed to be (14 R318). -/
def State.airSealed (s : State) (id status : Nat) (nonce out : List Byte) : State :=
  match s.down? id with
  | none => s
  | some d =>
    if status ≠ Status.ok then s.endDown d status none
    else (s.setDown { d with mac := out, nonce := nonce, stage := .queued }).nextDown d.ext downFuel

/-- AIR DOWNLINK served. Of several faults in its fields BAD_LENGTH comes before BAD_ADDRESS (log entry 257). -/
def State.serveAirDownlink (s : State) (f : Flight) : State :=
  let o := f.operand
  let plen := beAt o 10 2
  let short := beAt o 0 2
  let port := octet o 2
  if o.length < 17 ∨ plen = 0 ∨ o.length ≠ 16 + plen ∨ 3 < octet o 3 then s.finish f false Status.badLength []
  else if port ≠ 0xFF ∧ 16 ≤ port then s.finish f false Status.badAddress []
  else match s.sensor? short with
    | none => s.finish f false Status.noRoute []
    | some x =>
      if x.state ≠ 1 ∨ (port ≠ 0xFF ∧ port ≠ x.port) then s.finish f false Status.noRoute []
      else s.airDownlink f short x

/-- An air downlink ends at its 30 s limit with RESULT 3 (04 R86); one in the air goes on to its end. One never sent reports 0 as EPOCH and
NS (log entry 193). -/
def State.expireAir (s : State) (ref : Nat) : State :=
  match s.air.downs.find? (fun d => decide (d.job = .host ref)) with
  | none => s.finishRef ref Status.ok (s.downlinkResult 3 0 0 0 (zeros 13))
  | some d =>
    match d.stage with
    | .sending p =>
      let spent := match (s.ap d.port).sends.find? (fun y => decide (y.what = .frame d.id)) with
        | some y => min s.now y.fin - y.start
        | none => 0
      (s.airResult { d with airtime := d.airtime + spent } Status.ok (some 3)).setDown
        { d with done := true, stage := .sending { p with left := 0 } }
    | _ => s.endDown d Status.ok (some 3)

/-- DOWNLINK_EXPIRY (04 R86): a downlink unfinished 30 s after it arrived ends with RESULT 3, be it still in its mailbox queue. A
try in the air then counts in TRIES and with the airtime spent so far (log entry 193). -/
def execDownlinkExpiry (t slot tag : Nat) (s : State) : Host.Outcome State Fault Refusal :=
  whenOn t (fun s =>
    match s.stw.flights.find? (fun f => decide (f.slot = slot) && decide (f.tag = tag) &&
        (decide (f.opcode = 0x304) || decide (f.opcode = 0x402))) with
    | none => s
    | some f =>
      if s.now < f.time + 30 * sec then s
      else if f.stage = .queued then s.finish f false Status.ok (s.downlinkResult 3 0 0 0 (zeros 13))
      else if f.opcode = 0x304 then s.expireLine f.ref
      else if f.opcode = 0x402 then s.expireAir f.ref
      else s) s

/-- AIR_DOWNLINK arrives (03 R57, R62: OPERATE right); the steward serves it under 10 R227. -/
def execAirDownlink (t : Nat) (m : Inbound) (s : State) : Host.Outcome State Fault Refusal :=
  whenOn t (fun s => s.arriveFw m 0x402 Right.operate) s

/-! ## A port stops (09 R183, R187) -/

/-- An ASSOC_RESP that no pending window will carry. -/
def State.assocAdrift (s : State) (d : AirDown) : Bool :=
  decide (d.job = .assoc) && decide (d.stage = .queued) && !(s.air.windows.any fun w => decide (w.ext = d.ext))

/-- A port's transmissions are cut: `sent` tells whether they count as sent (a cut by EN, with the down-ramp) or not (a lost link,
without one). A try that was in the air is made again once the port serves, uncounted unless copies of its train were sent (04 R86);
beacons are dropped, and those not begun counted as skipped. -/
def State.cutSends (s : State) (n : Nat) (sent : Bool) : State :=
  let p := s.ap n
  let tails : List AirTail := if sent then p.sends.map fun x => { chan := x.chan, start := s.now, amp := x.level s.now } else []
  let s := s.setAp n { p with sends := [], bcnAt := none, tails := tails }
  let copied (d : AirDown) : Bool := match d.stage with
    | .sending p => d.copyOf p
    | _ => false
  let s := p.sends.foldl (fun s x =>
    match x.what with
    | .ack _ => s
    | .frame id =>
      match s.down? id with
      | none => s
      | some d =>
        match d.job with
        | .beacon => s.dropDown id
        | _ =>
          if sent then s.airFailed { d with airtime := d.airtime + (s.now - x.start), lastEnd := 0 }
          else if copied d then s.airFailed { d with lastEnd := 0 }
          else s.planTry { d with tries := d.tries - 1, lastEnd := 0 }) s
  let s := s.skipBeacons n fun _ => true
  (s.air.downs.filter fun (d : AirDown) => decide (d.port = n) && s.assocAdrift d).foldl (fun s d => s.dropDown d.id) s

/-- EN of an air port set (09 R183): bring-up begins. -/
def State.airStart (s : State) (n : Nat) : State :=
  let s := s.setReg F.airCtlEn n 0 1
  (s.setAp n { s.ap n with attempt := none, up := false, next := s.now }).gapCaptures (capturesOf 2 n)

/-- EN of an air port cleared: receptions end, transmissions are cut with the ramp, APn_DCLK stops, the link goes down without an
event. -/
def State.airStop (s : State) (n : Nat) : State :=
  let s := s.setReg F.airCtlEn n 0 0
  let s := s.endReceptions n
  let s := s.setAp n { s.ap n with attempt := none, up := false, dclk := none, sysref := (s.ap n).sysref.filter fun t => decide (t ≤ s.now) }
  let s := s.gapCaptures (capturesOf 2 n)
  (s.cutSends n true).airBoundary n

/-- AIR_ENABLE (09 R183). -/
def execAirEnable (t port : Nat) (s : State) : Host.Outcome State Fault Refusal :=
  whenOn t (fun s => if port < 16 ∧ s.flag F.airCtlEn port = false then (s.airStart port).kept s .airCtl port else s) s

/-- AIR_DISABLE (09 R183). -/
def execAirDisable (t port : Nat) (s : State) : Host.Outcome State Fault Refusal :=
  whenOn t (fun s => if port < 16 ∧ s.flag F.airCtlEn port = true then (s.airStop port).kept s .airCtl port else s) s

/-- JESD_LINK_DOWN (09 R187): receive sync lost (1) or a resync asked for by the head (3). -/
def execJesdLinkDown (t port reason : Nat) (s : State) : Host.Outcome State Fault Refusal :=
  whenOn t (fun s =>
    if port < 16 ∧ (s.ap port).up = true ∧ (reason = 1 ∨ reason = 3) then
      let s := s.endReceptions port
      let s := s.setAp port { s.ap port with up := false, attempt := none, next := s.now + 10 * ms, reason := reason }
      let s := s.gapCaptures (capturesOf 2 port)
      let s := (s.cutSends port false).bump F.airCntLinkdown port
      (s.raise 0x502 0x30 port (be 1 reason ++ s.open8s 520 3)).airBoundary port
    else s) s

end Sys2Proof.Machine
end

