-- ==== Sys2Proof/Machine/AirRecv.lean ====
section
/-!
DEFINITION. Machine/AirRecv.lean: what an air frame whose FCS has passed does (10 R206 to R222): its header, the
address match, records, commands and association, wake phases, acknowledgements due and accepted; and the AIR family's
table commands.
-/

namespace Sys2Proof.Machine

open Sys2Proof

/-! ## The MAC header (10 R206, R207) -/

/-- A MAC frame: its header's fields, `head` the octets before the auxiliary security header, and `rest` what follows
them: the auxiliary header and the secured part, or the BODY. -/
structure MacFrame where
  typ : Nat
  ackReq : Bool
  sec : Bool
  seq : Nat
  dstPan : Nat
  dstMode : Nat
  dst : Nat
  srcMode : Nat
  src : Nat
  wake : Option Nat
  head : List Byte
  rest : List Byte
  deriving DecidableEq, Repr

/-- The octets of an address of a mode. -/
def addrLen (mode : Nat) : Nat :=
  match mode with
  | 2 => 2
  | 3 => 8
  | _ => 0

/-- TYPE of a MAC frame. -/
def macType (mac : List Byte) : Nat := octet mac 0 % 8

/-- A MAC frame's fields; none where its VERSION is not 0, a mode code is reserved, or it ends before its header does
(log entry 71). -/
def macFrame (mac : List Byte) : Option MacFrame :=
  let a := octet mac 0
  let b := octet mac 1
  let sm := bits b 7 6
  let dm := bits b 3 2
  let dpan := if dm = 0 then 0 else 2
  let span := if sm = 0 ∨ bit a 6 = true then 0 else 2
  let o1 := 3 + dpan
  let o2 := o1 + addrLen dm + span
  let o3 := o2 + addrLen sm
  let o4 := o3 + (if bit b 1 then 4 else 0)
  if sm = 1 ∨ dm = 1 ∨ bits b 5 4 ≠ 0 ∨ mac.length < o4 then none
  else some
    { typ := a % 8, ackReq := bit a 5, sec := bit a 3, seq := octet mac 2, dstPan := ofLe (cut mac 3 dpan), dstMode := dm,
      dst := ofLe (cut mac o1 (addrLen dm)), srcMode := sm, src := ofLe (cut mac o2 (addrLen sm)),
      wake := if bit b 1 then some (ofLe (cut mac o3 3)) else none, head := mac.take o4, rest := mac.drop o4 }

/-- The device's extended address (10 R209): m0 m1 m2 FF FE m3 m4 m5 of EP0's factory MAC address. -/
def State.isOwnExt (s : State) (a : Nat) : Bool := decide (a = s.extAddr)

/-- The address match (10 R209). -/
def State.macMatch (s : State) (f : MacFrame) : Bool :=
  (decide (f.typ = 1) || decide (f.typ = 3)) && decide (f.dstMode ≠ 0) &&
    (decide (f.dstPan = s.reg F.airMacCtlPan) || decide (f.dstPan = 0xFFFF)) &&
    (if f.dstMode = 2 then decide (f.dst = 0) || decide (f.dst = 0xFFFF) else s.isOwnExt f.dst)

/-- DST is the broadcast address. -/
def MacFrame.broadcast (f : MacFrame) : Bool := decide (f.dstMode = 2) && decide (f.dst = 0xFFFF)

/-! ## The sender -/

/-- The entry of a frame's source, whatever its state. -/
def State.senderEntry (s : State) (f : MacFrame) : Option (Nat × Sensor) :=
  match f.srcMode with
  | 2 => (s.sensor? f.src).map fun x => (f.src, x)
  | 3 => s.sensorByExt f.src
  | _ => none

/-- The entry of a frame's source, if it is in STATE 1. -/
def State.senderAssoc (s : State) (f : MacFrame) : Option (Nat × Sensor) :=
  match s.senderEntry f with
  | some e => if e.2.state = 1 then some e else none
  | none => none

/-- The record's SHORT (10 R210). -/
def State.senderShort (s : State) (f : MacFrame) : Nat :=
  match f.srcMode with
  | 2 => f.src
  | 3 => ((s.senderAssoc f).map (·.1)).getD 0xFFFE
  | _ => 0xFFFE

/-- The sender's extended address, where it is known (10 R210, 14 R320). -/
def State.senderExt (s : State) (f : MacFrame) : Option Nat :=
  match f.srcMode with
  | 3 => some f.src
  | _ => (s.senderAssoc f).map (·.2.ext)

/-! ## Records (10 R210; 14 R320) -/

/-- What a frame authenticates before its auxiliary header: the PENDING bit counts as 0 (14 R317). -/
def MacFrame.a0 (f : MacFrame) : List Byte :=
  match f.head with
  | b :: l => (b &&& 0xEF#8) :: l
  | [] => []

/-- The record of an accepted DATA frame (10 R210, 12 R273): `kind` 2 air or 3 combined. -/
def State.airRecord (s : State) (kind port chan epoch ns margin : Nat) (f : MacFrame) : RecvRec :=
  let ext := s.senderExt f
  { kind := kind, port := port, chan := chan, flags := 2 * b2n (decide (kind = 3)) + 8 * b2n ext.isSome + 16 * b2n f.sec,
    short := s.senderShort f, seq := f.seq, ext := ext.getD 0, epoch := epoch, ns := ns, margin := margin, hops := 0, head := f.head }

/-- An accepted DATA frame delivered, after its decryption where 14 R320 has it decrypted. -/
def State.airDeliver (s : State) (kind port chan epoch ns margin : Nat) (f : MacFrame) : State :=
  s.deliverFrame true f.sec f.a0 f.rest (s.senderExt f) (s.senderShort f) (s.airRecord kind port chan epoch ns margin f)

/-! ## Wake phases (10 R222) -/

/-- A quotient rounded half away from zero; `b` is above 0. -/
def roundAway (a b : Int) : Int := if 0 ≤ a then (2 * a + b) / (2 * b) else -((-2 * a + b) / (2 * b))

/-- The entry with the first anchor's drift. -/
def Sensor.firstAnchor (x : Sensor) : Sensor := { x with drift := 0, unc := x.clk * 1000, nph := 1 }

/-- A drift sample taken over `n` periods. -/
def State.driftSample (s : State) (x : Sensor) (delta n : Int) : Sensor :=
  let w : Int := x.wakeMs * ms
  let emin := s.reg F.airMacWakeEmin * 100
  let m := ((delta - n * w) * 1000000000).tdiv (n * w)
  let r := m - x.drift
  let d := if x.nph = 1 then m else x.drift + r.tdiv 4
  let e := if x.nph = 1 then 4 * emin else max emin (2 * r.natAbs)
  { x with drift := d, unc := min e (x.clk * 1000), nph := min 255 (x.nph + 1) }

/-- An entry's phase after an uplink at `ts` that carries NEXT_WAKE_US `nw` (10 R222). -/
def State.learn (s : State) (x : Sensor) (ts nw : Nat) : Sensor :=
  let a : Int := ts + nw * 1000
  let y : Sensor :=
    if x.valid = false ∧ x.stale = false then x.firstAnchor
    else if x.stale = true ∨ s.lin.epoch ≠ x.phaseEpoch then x
    else if x.period ≤ 0 then x
    else
      let delta := a - x.phaseNs
      let n := roundAway delta x.period
      if n < 1 then x
      else if s.uncertainty x a < ((delta - n * x.period).natAbs : Int) then x.firstAnchor
      else s.driftSample x delta n
  { y with phaseNs := a.toNat, phaseEpoch := s.lin.epoch, ofs := nw, valid := true, stale := false }

/-- A frame accepted from a sensor that has an entry: where and how it was heard, and its wake phase. A sensor whose
WAKE_MS is 0 always listens, and no phase is learned of it (log entry 72). -/
def State.sensorHeard (s : State) (n m ts margin : Nat) (f : MacFrame) : State :=
  match s.senderEntry f with
  | none => s
  | some (short, x) =>
    let y : Sensor := { x with
      port := n
      chan := m
      lastEpoch := s.lin.epoch
      lastNs := ts
      margin := margin
      rxOk := (x.rxOk + 1) % 2 ^ 32 }
    let z := match f.wake with
      | some nw => if y.state = 1 ∧ y.sleepy = true ∧ 0 < y.wakeMs then s.learn y ts nw else y
      | none => y
    s.setSensor short (some z)

/-! ## Association (10 R208, R217) -/

/-- The body of an unsecured ASSOC_REQ from an extended source (10 R208): SLEEPY, WAKE_MS, CLK_PPM. -/
def MacFrame.assocReq (f : MacFrame) : Option (Bool × Nat × Nat) :=
  if f.typ = 3 ∧ f.sec = false ∧ f.srcMode = 3 ∧ f.rest.length = 5 ∧ octet f.rest 0 = 1 then
    some (bit (octet f.rest 1) 0, ofLe (cut f.rest 2 2), octet f.rest 4)
  else none

/-- The lowest SHORT from 1 that no association entry holds. -/
def State.freeSensor (s : State) : Nat :=
  ((firstBelow (s.air.sensors.length + 1) fun k => (s.sensor? (k + 1)).isNone).getD 0) + 1

/-- An association entry as it is made. -/
def Sensor.fresh (ext : Nat) : Sensor :=
  { state := 2, sleepy := false, digest := false, valid := false, stale := false, port := 0, chan := 0, wakeMs := 0,
    ext := ext, phaseEpoch := 0, phaseNs := 0, drift := 0, unc := 0, ofs := 0, clk := 0, lastEpoch := 0, lastNs := 0,
    margin := 0, nph := 0, rxOk := 0, txFail := 0, since := 0 }

/-- An ASSOC_RESP made ready for the pending window; one for the same sensor that still waits is replaced. -/
def State.answerAssoc (s : State) (n m ext short status : Nat) : State :=
  let s : State := { s with air := { s.air with downs := s.air.downs.filter fun (d : AirDown) =>
                                                !(decide (d.ext = ext) && decide (d.job = .assoc) && decide (d.stage = .queued)) } }
  let q := s.airSeq
  let mac := s.downHead 3 true false q.2 (le 8 ext) ++ be 1 2 ++ le 2 short ++ be 1 status ++ le 2 s.pendWinMs ++ be 1 s.ackPre
  q.1.addDown (AirDown.own .assoc short ext n m q.2 true mac)

/-- An ASSOC_REQ acted on (10 R217). A known sensor keeps its SHORT and its STATE. -/
def State.assocReq (s : State) (n m ext : Nat) (sleepy : Bool) (wake clk : Nat) : State :=
  let known := s.sensorByExt ext
  if !s.flag F.airMacCtlAssocOpen then s.answerAssoc n m ext 0xFFFE 2
  else if known.isNone ∧ 65533 ≤ s.air.sensors.length then s.answerAssoc n m ext 0xFFFE 1
  else
    let e := known.getD (s.freeSensor, Sensor.fresh ext)
    let x : Sensor := { e.2 with
      sleepy := sleepy
      wakeMs := wake
      clk := clk
      port := n
      chan := m
      since := s.now }
    (s.setSensor e.1 (some x)).answerAssoc n m ext e.1 0

/-- An entry freed, and its home claim released (11 R251). -/
def State.freeEntry (s : State) (short : Nat) (x : Sensor) : State :=
  (s.setSensor short none).claim x.ext 1 0 short x.port true

/-- An entry becomes ASSOCIATED at the sensor's acknowledgement of ASSOC_RESP (10 R217, R219; 11 R251). -/
def State.associated (s : State) (short ext : Nat) : State :=
  match s.sensor? short with
  | none => s
  | some x =>
    if x.ext ≠ ext then s
    else
      let s := s.setSensor short (some { x with state := 1 })
      let s := s.raise 0x503 0x30 x.port (be 2 short ++ be 1 x.chan ++ be 1 (b2n x.sleepy) ++ be 8 ext)
      s.claim ext 1 (b2n x.digest) short x.port false

/-- ASSOC_LAPSE (10 R217): a PENDING entry is freed 600 s after its latest ASSOC_REQ, counted, after a power-up, from its
port's entry into service (02 R40). -/
def execAssocLapse (t short : Nat) (s : State) : Host.Outcome State Fault Refusal :=
  whenOn t (fun s =>
    match s.sensor? short with
    | some x => if x.state = 2 ∧ x.since + 600 * sec ≤ s.now ∧ (s.ap x.port).served = true then s.setSensor short none else s
    | none => s) s

/-- A COMMAND frame's BODY acted on, once it is known to be good (10 R208): DISASSOC frees its sender's entry. -/
def State.airCommand (s : State) (short : Nat) (body : List Byte) : State :=
  match s.sensor? short with
  | some x => if body.length = 2 ∧ octet body 0 = 3 then s.freeEntry short x else s
  | none => s

/-- A COMMAND frame but ASSOC_REQ (10 R208): acted on, after its decryption if it is secured; one that is not decrypted is not. -/
def State.airOrder (s : State) (f : MacFrame) : State :=
  match s.senderEntry f with
  | none => s
  | some (short, _) =>
    if !f.sec then s.airCommand short f.rest
    else match s.openJob true f.a0 f.rest (s.senderExt f) (s.senderShort f) (.command f.a0.length short) with
      | some w => s.offerJob w
      | none => s

/-! ## Acknowledgements due (10 R211 to R214) -/

/-- The sensor whose pending window an acknowledgement with PENDING 1 opens: the sender, if it is SLEEPY by its entry or
by the copy a DISASSOC kept of it. -/
def State.windowFor (s : State) (f : MacFrame) : Option Nat :=
  match s.senderEntry f with
  | some e => if e.2.sleepy then some e.2.ext else none
  | none =>
    (s.air.downs.find? fun (d : AirDown) => (match d.copy with
      | some x => x.sleepy
      | none => false) && (if f.srcMode = 3 then decide (d.ext = f.src) else decide (d.short = f.src))).map (·.ext)

/-- The PENDING bit of an acknowledgement (10 R213). -/
def State.pendingBit (s : State) (f : MacFrame) : Bool :=
  f.assocReq.isSome ||
    (match s.senderShort f with
    | 0xFFFE => false
    | x => s.air.host.contains x || s.queueBit x)

/-- The acknowledgement of an accepted frame made due, its duty check decided (10 R211, R214, R230): `phr` the frame's PHR
and `fin` its end E. -/
def State.ackDue (s : State) (n m phr fin margin : Nat) (f : MacFrame) : State :=
  if f.ackReq = false ∨ f.broadcast = true then s
  else
    let four := phrFcs4 phr
    let pend := s.pendingBit f
    let mac := be 1 (2 + 16 * b2n pend) ++ zeros 1 ++ be 1 f.seq ++ be 1 margin
    let opens := if !pend then none else if f.assocReq.isSome then some f.src else s.windowFor f
    let short := s.senderShort f
    let r := s.dutyCheck n m (s.toUs 516 (s.ppdu n m s.ackPre (4 + (if four then 4 else 2)))) true none
    let a : AirAck := { fin := fin, mac := mac, fcs4 := four, dw := phrDw phr, opens := opens, go := decide (r.2 = .go),
                        short := if short = 0xFFFE then none else some short }
    r.1.setAc n m { r.1.ac n m with ack := some a }

/-- AIR_ACK_SEND (10 R211 to R214, 12 R277): 320 us after a frame's end its acknowledgement starts, unless its duty check
refused it or AIR_TX.MAXTX transmissions already run, or one on its channel (09 R203); a digest entry of the frame it acknowledges is done with. -/
def execAirAckSend (t port chan : Nat) (s : State) : Host.Outcome State Fault Refusal :=
  whenOn t (fun s =>
    match (s.ac port chan).ack with
    | none => s
    | some a =>
      if s.now < a.fin + 320000 then s
      else
        let s := s.setAc port chan { s.ac port chan with ack := none }
        if a.go && s.airServes port && !s.chanSends port chan && decide ((s.ap port).sends.length < s.reg F.airTxMaxtx port) then
          let s := (s.bump F.airCntAck port).airBegin port chan (.ack a.opens) (a.fin + 320000) s.ackPre a.fcs4 a.dw a.mac
          match a.short with
          | some k => { s with sc := { s.sc with digests := s.sc.digests.filter fun (e : DigestEntry) =>
                                                 !(decide (e.short = k) && decide (e.seq = octet a.mac 2)) } }
          | none => s
        else
          let s := s.bump F.airCntAckSkip port
          let lost := s.air.downs.filter fun (d : AirDown) => decide (some d.ext = a.opens) && s.assocAdrift d
          (lost.foldl (fun s d => s.dropDown d.id) s).airBoundary port) s

/-! ## Acknowledgements accepted (10 R228) -/

/-- The downlink an ACK frame answers: its SFD ended in the window of the last try or copy, and the SEQ matches. -/
def State.ackedDown (s : State) (n m ts seq : Nat) : Option AirDown :=
  s.air.downs.find? fun d => decide (d.port = n) && decide (d.chan = m) && d.ackReq && decide (d.seq = seq) &&
    s.inAirWindow d ts && (match d.stage with
      | .await => true
      | .planned p => decide (p.way = 2)
      | _ => false)

/-- A downlink acknowledged by a frame that ended at `fin`: its command is answered or its work done, the train stops,
and a new pending window opens if it carried PENDING 1 (10 R226). -/
def State.downAcked (s : State) (d : AirDown) (fin : Nat) : State :=
  let s := s.dropDown d.id
  let s := match d.job with
    | .host _ => if d.done then s else s.airResult d Status.ok (some 0)
    | .assoc => s.associated d.short d.ext
    | .digest l => { s with sc := { s.sc with digests := s.sc.digests.filter fun (e : DigestEntry) =>
                                              !(l.contains (e.short, e.seq, e.margin)) } }
    | _ => s
  let s := if d.pend then s.openWindow d.ext d.short d.port d.chan fin else s
  s.nextDown d.ext downFuel

/-! ## What a frame does -/

/-- An accepted frame: its acknowledgement becomes due, its sender's entry is fed, and it is delivered or acted on. -/
def State.airAccepted (s : State) (n m phr ts fin margin : Nat) (f : MacFrame) : State :=
  let s := s.ackDue n m phr fin margin f
  match f.assocReq with
  | some (sleepy, wake, clk) => (s.assocReq n m f.src sleepy wake clk).sensorHeard n m ts margin f
  | none =>
    let s := s.sensorHeard n m ts margin f
    if f.typ = 1 then s.airDeliver 2 n m s.lin.epoch ts margin f else s.airOrder f

/-- A MAC frame whose FCS has passed (10 R209): an ACK completes a downlink or does nothing, a BEACON does nothing, and
what fails the match is counted. -/
def State.airFrame (s : State) (n m phr ts fin margin : Nat) (mac : List Byte) : State :=
  if macType mac = 2 then
    if mac.length < 3 then s else
    match s.ackedDown n m ts (octet mac 2) with
    | some d => s.downAcked d fin
    | none => s
  else if macType mac = 0 then s
  else match macFrame mac with
    | some f => if s.macMatch f then s.airAccepted n m phr ts fin margin f else s.bump F.airCntAddrMiss n
    | none => s.bump F.airCntAddrMiss n

/-! ## The AIR family's table commands (04 R85, 10 R218, R231) -/

/-- The 64-octet association entry (10 R218). -/
def State.sensorBytes (s : State) (short : Nat) (x : Sensor) : List Byte :=
  let flags := b2n x.sleepy + 2 * b2n x.digest + 4 * b2n x.valid + 8 * b2n x.stale
  be 2 short ++ be 1 x.state ++ be 1 flags ++ be 1 x.port ++ be 1 x.chan ++ be 2 x.wakeMs ++ be 8 x.ext ++
    be 4 x.phaseEpoch ++ be 8 x.phaseNs ++ be 4 (twos 32 x.drift) ++ be 4 x.unc ++ be 3 x.ofs ++ be 1 x.clk ++
    be 4 x.lastEpoch ++ be 8 x.lastNs ++ be 1 x.margin ++ be 1 x.nph ++ s.open8s 530 2 ++ be 4 x.rxOk ++ be 4 x.txFail

/-- AIR SENSOR_GET served. -/
def State.serveSensorGet (s : State) (f : Flight) : State :=
  let o := f.operand
  if o.length ≠ 16 ∨ 1 < octet o 0 then s.finish f false Status.badLength []
  else
    let hit := if octet o 0 = 0 then (s.sensor? (beAt o 14 2)).map fun x => (beAt o 14 2, x) else s.sensorByExt (beAt o 8 8)
    match hit with
    | some (short, x) => s.finish f false Status.ok (s.sensorBytes short x)
    | none => s.finish f false Status.noRoute []

/-- AIR DISASSOCIATE served (10 R217): the entry is freed, and DISASSOC goes to the sensor by a copy of it. -/
def State.serveDisassociate (s : State) (f : Flight) : State :=
  let short := beAt f.operand 0 2
  if f.operand.length ≠ 2 then s.finish f false Status.badLength []
  else match s.sensor? short with
    | none => s.finish f false Status.noRoute []
    | some x =>
      let s := (s.freeEntry short x).finish f false Status.ok []
      let q := s.airSeq
      let mac := s.downHead 3 true false q.2 (le 8 x.ext) ++ be 1 3 ++ zeros 1
      let d : AirDown := { AirDown.own .disassoc short x.ext x.port x.chan q.2 true mac with copy := some x }
      (q.1.addDown d).nextDown x.ext downFuel

/-- AIR PENDING_SET served (10 R213). -/
def State.servePendingSet (s : State) (f : Flight) : State :=
  let short := beAt f.operand 0 2
  let v := octet f.operand 2
  if f.operand.length ≠ 3 ∨ 1 < v then s.finish f false Status.badLength []
  else
    let rest := s.air.host.filter fun k => decide (k ≠ short)
    let s : State := { s with air := { s.air with host := if v = 1 then short :: rest else rest } }
    s.finish f false Status.ok []

/-- AIR DUTY_READ served (10 R231). -/
def State.serveDutyRead (s : State) (f : Flight) : State :=
  let a := octet f.operand 0
  if f.operand.length ≠ 1 then s.finish f false Status.badLength []
  else if 16 ≤ a then s.finish f false Status.badAddress []
  else s.finish f false Status.ok (be 4 (s.dutyLimit a) ++ be 4 (s.dutyWindow a) ++ be 4 (s.spent a) ++ be 4 (s.dutyReserve a))

/-- AIR DIGEST_SET served (10 R218). -/
def State.serveDigestSet (s : State) (f : Flight) : State :=
  let short := beAt f.operand 0 2
  let v := octet f.operand 2
  if f.operand.length ≠ 3 ∨ 1 < v then s.finish f false Status.badLength []
  else match s.sensor? short with
    | some x => (s.setSensor short (some { x with digest := decide (v = 1) })).finish f false Status.ok []
    | none => s.finish f false Status.noRoute []

/-- AIR_SENSOR_GET arrives (03 R57, R62: OPERATE right); the steward serves it. -/
def execAirSensorGet (t : Nat) (m : Inbound) (s : State) : Host.Outcome State Fault Refusal :=
  whenOn t (fun s => s.arriveFw m 0x401 Right.operate) s

/-- AIR_DISASSOCIATE arrives. -/
def execAirDisassociate (t : Nat) (m : Inbound) (s : State) : Host.Outcome State Fault Refusal :=
  whenOn t (fun s => s.arriveFw m 0x403 Right.operate) s

/-- AIR_PENDING_SET arrives. -/
def execAirPendingSet (t : Nat) (m : Inbound) (s : State) : Host.Outcome State Fault Refusal :=
  whenOn t (fun s => s.arriveFw m 0x404 Right.operate) s

/-- AIR_DUTY_READ arrives. -/
def execAirDutyRead (t : Nat) (m : Inbound) (s : State) : Host.Outcome State Fault Refusal :=
  whenOn t (fun s => s.arriveFw m 0x405 Right.operate) s

/-- AIR_DIGEST_SET arrives. -/
def execAirDigestSet (t : Nat) (m : Inbound) (s : State) : Host.Outcome State Fault Refusal :=
  whenOn t (fun s => s.arriveFw m 0x406 Right.operate) s

end Sys2Proof.Machine
end

