-- ==== Sys2Proof/Machine/Combine.lean ====
section
/-!
DEFINITION. Machine/Combine.lean: soft combining (12 R261 to R279): forwarding, groups and attempts at the manager,
delivery at the home, and the acknowledgement digest.
-/

namespace Sys2Proof.Machine

open Sys2Proof

/-! ## Groups and copies (12 R267, R268) -/

/-- A combining group by its number. -/
def State.group? (s : State) (num : Nat) : Option Group := s.sc.groups.find? fun g => decide (g.num = num)

/-- A group changed. -/
def State.setGroup (s : State) (g : Group) : State :=
  { s with sc := { s.sc with groups := s.sc.groups.map fun h => if h.num = g.num then g else h } }

/-- LENGTH of a group. -/
def Group.len (g : Group) : Nat := phrLen g.phr

/-- MOD of a group, and its symbol rate. -/
def Group.mod (g : Group) : Nat := bits g.phy 7 6
def Group.rate (g : Group) : Nat :=
  match bits g.phy 5 4 with
  | 0 => 50000
  | 1 => 100000
  | _ => 150000

/-- The instant a group closes (12 R268): E_ref + 2,250,000 ns. -/
def Group.closeAt (g : Group) : Nat :=
  g.ref + (16 + 8 * g.len) * 1000000000 / ((if g.mod = 2 then 2 else 1) * g.rate) + 2250000

/-- A copy with every octet of plane `p`. -/
def Copy.whole (c : Copy) (len p : Nat) : Bool := decide (len ≤ (tget [] c.planes p).length)

/-- The copies that take part in an attempt: those with plane 3 complete. -/
def Group.parts (g : Group) : List Copy := g.copies.filter fun c => c.whole g.len 3

/-- The level of a group (12 R269). -/
def Group.levelNow (g : Group) : Int :=
  if g.parts.any fun c => !c.whole g.len 2 then 2
  else if g.parts.any fun c => !c.whole g.len 1 then 1
  else if g.parts.any fun c => !c.whole g.len 0 then 0
  else -1

/-- half_value() of 12 R269: `planes` are octet j's of planes 2 to 0, none where absent. -/
def halfValue (s : Bool) (planes : List (Option Byte)) (b : Nat) : Int :=
  let known := (planes.zipIdx.map fun (x, i) => match x with
    | some v => if v.getLsbD b then 2 ^ (2 - i) else 0
    | none => 0).foldl (fun (a : Nat) v => a + v) 0
  let missing := (planes.filter fun x => x.isNone).length
  let est : Int := 2 * known + (2 ^ missing - 1)
  if s then est else -est

/-- One copy's value for bit `b` of octet `j`. -/
def Copy.value (c : Copy) (j b : Nat) : Int :=
  halfValue ((tget 0 (tget [] c.planes 3) j).getLsbD b)
    [tget? (tget [] c.planes 2) j, tget? (tget [] c.planes 1) j, tget? (tget [] c.planes 0) j] b

/-- The decided PSDU of an attempt (12 R269). -/
def decided (parts : List Copy) (len : Nat) : List Byte :=
  (List.range len).map fun j =>
    BitVec.ofNat 8 ((List.range 8).foldl (fun (a : Nat) b =>
      if 0 < (parts.map fun c => c.value j b).foldl (fun (x : Int) v => x + v) 0 then a + 2 ^ b else a) 0)

/-- The MAC frame an attempt decides, if its FCS passes. The soft values are of the PSDU after de-whitening. -/
def Group.attempt (g : Group) : Option (List Byte) :=
  macOf (phrOf (phrFcs4 g.phr) false g.len) (decided g.parts g.len)

/-! ## The combined margin (12 R274) -/

/-- The whole `n`-th root of `x`, by bisection from bit `k` down. -/
def rootDown (n x : Nat) : Nat → Nat → Nat
  | 0, r => r
  | k + 1, r => rootDown n x k (if (r + 2 ^ k) ^ n ≤ x then r + 2 ^ k else r)

/-- 10^(v/20), scaled by 10^30: the power of an SNR of `v` half-dB, from -128 to 127. -/
def powerOf (v : Int) : Nat := rootDown 20 (10 ^ ((v + 200).toNat + 400)) 128 0

/-- The combined MARGIN in units of 0.5 dB: the nearest whole number to 20 log10 of the sum of the powers, less twice the
required SNR, saturating. -/
def combinedMargin (snrs : List Int) (mod : Nat) : Int :=
  let x := (snrs.map powerOf).foldl (fun (a : Nat) v => a + v) 0
  let k : Nat := (firstBelow 320 fun i => decide (x ^ 40 < 10 ^ (2 * i + 1 + 920))).getD 320
  clampI (-128) 127 ((k : Int) - 140 - airRequired mod / 50)

/-! ## Delivering (12 R272, R273, R276, R279) -/

/-- A frame with no home delivered by the manager. -/
def State.deliverNoHome (s : State) (cepoch cns margin : Nat) (mac : List Byte) : State :=
  match macFrame mac with
  | none => s
  | some f =>
    if !s.macMatch f then s
    else if f.typ = 1 then s.deliverRec (s.airRecord 3 0xFF 0xFF cepoch cns margin f) f.sec f.rest
    else if f.sec then s else s.airOrder f

/-- HOLD_S in ns. -/
def State.holdNs (s : State) : Nat := clamp 1 3600 (s.reg F.seaScCtlHoldS) * sec

/-- A digest entry made; a sensor that always listens is sent the DIGEST command at once. -/
def State.addDigest (s : State) (short : Nat) (x : Sensor) (seq margin : Nat) : State :=
  let e : DigestEntry := { short := short, seq := seq, margin := margin, born := s.now, hold := s.holdNs }
  let s : State := { s with sc := { s.sc with digests := s.sc.digests ++ [e] } }
  if x.wakeMs ≠ 0 then s
  else
    let dg := (s.sc.digests.filter fun d => decide (d.short = short)).take 16
    let q := s.airSeq
    let mac := s.downHead 3 true false q.2 (le 2 short) ++ be 1 0x10 ++ be 1 dg.length ++ dg.flatMap (·.bytes)
    let id := q.1.air.nextId
    let s := q.1.addDown (AirDown.own (.digest (dg.map fun d => (d.short, d.seq, d.margin))) short x.ext x.port x.chan q.2
      true mac)
    match s.down? id with
    | some d => s.planTry d
    | none => s

/-- A combined frame at the home of the sensor with extended address `ext`, with the STATUS of SC_RESULT_ACK. The match is
applied first (log entry 74). -/
def State.deliverHome (s : State) (cepoch cns ext margin : Nat) (mac : List Byte) : State × Nat :=
  match macFrame mac with
  | none => (s, 1)
  | some f =>
    if !s.macMatch f then (s, 1)
    else match s.sensorByExt ext with
      | none => (s, 2)
      | some (short, x) =>
        if x.state ≠ 1 then (s, 2)
        else
          let s := if f.typ = 1 then s.airDeliver 3 x.port x.chan cepoch cns margin f else s.airOrder f
          match s.sensor? short with
          | some y => if y.digest && f.ackReq && !f.broadcast then (s.addDigest short y f.seq margin, 0) else (s, 0)
          | none => (s, 0)

/-! ## The manager's result (12 R270 to R272) -/

/-- The registry entry of a combined frame's sender (12 R271), by EXT. -/
def State.resolve (s : State) (g : Group) (mac : List Byte) : Option (Nat × RegEntry) :=
  match macFrame mac with
  | none => none
  | some f =>
    match f.srcMode with
    | 3 => (tget? s.sea.registry f.src).bind fun e => if e.kind = 1 then some (f.src, e) else none
    | 2 =>
      match s.sea.registry.filter fun e => decide (e.2.kind = 1) && decide (e.2.short = f.src) with
      | [] => none
      | [e] => some e
      | l =>
        let best := g.copies.foldl (fun (a : Option Copy) c =>
          if l.any fun e => decide (e.2.home = c.station) then
            match a with
            | some b => if b.snr < c.snr then some c else a
            | none => some c
          else a) none
        best.bind fun c => l.find? fun e => decide (e.2.home = c.station)
    | _ => none

/-- SC_RESULT's body (12 R272). -/
def Group.result (g : Group) (ext short : Nat) (mac : List Byte) : List Byte :=
  let cns := match g.copies with
    | c :: l => l.foldl (fun (a : Nat) d => min a d.cns) c.cns
    | [] => g.ref
  be 4 g.cepoch ++ be 8 cns ++ be 8 ext ++ be 2 short ++ be 1 g.parts.length ++
    be 1 (twos 8 (combinedMargin (g.parts.map (·.snr)) g.mod)) ++ be 2 g.phr ++ be 2 (g.num % 65536) ++ mac

/-- The fields of SC_RESULT that a delivery needs, delivered as a frame with no home. -/
def State.resultNoHome (s : State) (b : List Byte) : State :=
  s.deliverNoHome (beAt b 0 4) (beAt b 4 8) (octet b 23) (b.drop 28)

/-- SC_RESULT's frame delivered at this device, its home. -/
def State.resultHome (s : State) (b : List Byte) : State × Nat :=
  s.deliverHome (beAt b 0 4) (beAt b 4 8) (beAt b 12 8) (octet b 23) (b.drop 28)

/-- The decided frame on its way (12 R271, R272). -/
def State.sendResult (s : State) (g : Group) (mac : List Byte) : State :=
  match s.resolve g mac with
  | none => s.resultNoHome (g.result 0 0 mac)
  | some (ext, e) =>
    let b := g.result ext e.short mac
    if e.home = 0xFFFF then s.resultNoHome b
    else if e.home = s.station then
      let r := s.resultHome b
      if r.2 = 2 then r.1.resultNoHome b else r.1
    else
      let x : ScSend := { home := e.home, body := b, sent := s.now, resends := 0 }
      ({ s with sc := { s.sc with results := s.sc.results ++ [x] } }).sendTo e.home 0x11 b

/-! ## Attempts (12 R269, R270) -/

/-- The check of an attempt's FCS, a job of the check units (14 R332). -/
def State.checkGroup (s : State) (g : Group) : State :=
  let raw := decided g.parts g.len
  let n := g.len - (if phrFcs4 g.phr then 4 else 2)
  s.checkDone (ofLe (fcsOf (phrFcs4 g.phr) (raw.take n))) (some (ofLe (raw.drop n)))

/-- A decoding attempt on a group; the first that passes succeeds. With no check unit in service none is made (log entry 241). -/
def State.tryGroup (s : State) (g : Group) : State :=
  if !s.checkUnit then s
  else
  let g : Group := { g with tried := g.parts.map fun c => (c.station, c.rxid), level := g.levelNow }
  let s := s.checkGroup g
  match g.attempt with
  | none => s.setGroup g
  | some mac =>
    let s := ((s.setGroup { g with won := true }).bump F.seaScCntOk).bump F.seaScCntGroup
    s.sendResult g mac

/-- An attempt made if one is due. -/
def State.attemptDue (s : State) (num : Nat) : State :=
  match s.group? num with
  | none => s
  | some g =>
    let more := g.parts.any fun c => !g.tried.contains (c.station, c.rxid)
    if g.won = false ∧ g.closed = none ∧ 2 ≤ g.parts.length ∧ (more = true ∨ g.levelNow < g.level) then s.tryGroup g else s

/-! ## Fragments at the manager (12 R265, R267, R268) -/

/-- What a copy's fragments say of it (12 R265). -/
structure ScHead where
  rxid : Nat
  cepoch : Nat
  cns : Nat
  freq : Nat
  phy : Nat
  snr : Int
  phr : Nat
  port : Nat
  deriving DecidableEq, Repr

/-- The head of SC_METRICS. -/
def scHead (b : List Byte) : ScHead :=
  { rxid := beAt b 0 4, cepoch := beAt b 4 4, cns := beAt b 8 8, freq := beAt b 16 4, phy := octet b 20 / 8 * 8,
    snr := signed 8 (octet b 21), phr := beAt b 22 2, port := octet b 24 }

/-- A copy matches an open group. -/
def Group.takes (g : Group) (station : Nat) (h : ScHead) : Bool :=
  decide (g.closed = none) && decide (g.freq = h.freq) && decide (g.phy = h.phy) && decide (g.phr = h.phr) &&
    decide (g.cepoch = h.cepoch) && decide (h.cns ≤ g.ref + 200000) && decide (g.ref ≤ h.cns + 200000) &&
    !(g.copies.any fun c => decide (c.station = station) && decide (c.port = h.port))

/-- The group a copy joins: the nearest that it matches, and of equal ones the older. -/
def State.groupFor (s : State) (station : Nat) (h : ScHead) : Option Group :=
  let off (g : Group) : Nat := max g.ref h.cns - min g.ref h.cns
  (s.sc.groups.filter fun g => g.takes station h).foldl (fun (a : Option Group) g =>
    match a with
    | some b => if off g < off b then some g else a
    | none => some g) none

/-- A copy discarded or replaced. -/
def State.copyGone (s : State) (station rxid : Nat) : State :=
  ({ s with sc := { s.sc with gone := s.sc.gone ++ [(station, rxid, s.now)] } }).bump F.seaScCntDrop

/-- A new copy enters a group, or opens one; the group it is in now, if it is in one. -/
def State.enterCopy (s : State) (station : Nat) (h : ScHead) : State × Option Nat :=
  let c : Copy := { station := station, rxid := h.rxid, port := h.port, snr := h.snr, cns := h.cns, planes := [] }
  match s.groupFor station h with
  | some g =>
    if g.won then (s.setGroup { g with shut := (station, h.rxid) :: g.shut }, none)
    else if g.copies.length < 16 then (s.setGroup { g with copies := g.copies ++ [c] }, some g.num)
    else
      let low := g.copies.foldl (fun (a : Copy) d => if d.snr < a.snr then d else a) (g.copies.headD c)
      if low.snr < h.snr then
        let g' : Group := { g with copies := (g.copies.filter fun d => decide (d ≠ low)) ++ [c] }
        ((s.setGroup g').copyGone low.station low.rxid, some g.num)
      else (s.copyGone station h.rxid, none)
  | none =>
    if 1024 ≤ (s.sc.groups.filter fun g => decide (g.closed = none)).length then (s.copyGone station h.rxid, none)
    else
      let g : Group := { num := s.sc.nextGroup, cepoch := h.cepoch, ref := h.cns, freq := h.freq, phy := h.phy, phr := h.phr,
                         copies := [c], won := false, shut := [], tried := [], level := 3, closed := none }
      ({ s with sc := { s.sc with groups := s.sc.groups ++ [g], nextGroup := s.sc.nextGroup + 1 } }, some g.num)

/-- Plane octets put into a copy of a group; those beyond LENGTH are no part of it. -/
def State.putPlane (s : State) (num station rxid plane off : Nat) (data : List Byte) : State :=
  match s.group? num with
  | none => s
  | some g =>
    let put (c : Copy) : Copy :=
      let l := (data.zipIdx.filter fun (_, i) => decide (off + i < g.len)).foldl (fun (t : Tab Byte) (v, i) =>
        tset t (off + i) v) (tget [] c.planes plane)
      { c with planes := tset c.planes plane l }
    s.setGroup { g with copies := g.copies.map fun c =>
                        if c.station = station ∧ c.rxid = rxid then put c else c }

/-- The group that holds a copy, or that was already delivered when the copy's first fragment came. -/
def State.holds (s : State) (station rxid : Nat) : Option Group :=
  s.sc.groups.find? fun g => (g.copies.any fun c => decide (c.station = station) && decide (c.rxid = rxid)) ||
    g.shut.contains (station, rxid)

/-- A fragment at the manager. -/
def State.fragment (s : State) (station : Nat) (b : List Byte) : State :=
  let h := scHead b
  let plane := octet b 26 / 16
  let data := b.drop 32
  let put (s : State) (num : Nat) : State :=
    (s.putPlane num station h.rxid plane (beAt b 28 2) data).attemptDue num
  if b.length < 33 ∨ beAt b 30 2 ≠ data.length ∨ 1408 < data.length ∨ 3 < plane then s
  else match s.holds station h.rxid with
    | some g => if g.closed.isSome then s.bump F.seaScCntLate else if g.won then s else put s g.num
    | none =>
      if s.sc.gone.any fun x => decide (x.1 = station) && decide (x.2.1 = h.rxid) then s
      else match s.enterCopy station h with
        | (s, some num) => put s num
        | (s, none) => s

/-- SC_METRICS (12 R265 to R270): a fragment of a forwarded reception arrives; while SC_CTL.EN is 0 at the manager it is
discarded and counted. -/
def execScMetrics (t : Nat) (m : SeamMsg) (s : State) : Host.Outcome State Fault Refusal :=
  seamRx t m (fun s =>
    if s.sea.role ≠ 6 then s
    else if !s.flag F.seaScCtlEn then s.bump F.seaScCntDrop
    else s.fragment m.station m.body) s

/-- What is remembered of closed groups and of copies gone is forgotten after 1 s (log entry 75). -/
def Sc.forget (x : Sc) (now : Nat) : Sc :=
  { x with
    groups := x.groups.filter fun g => match g.closed with
      | some u => decide (now < u + sec)
      | none => true
    gone := x.gone.filter fun e => decide (now < e.2.2 + sec) }

/-- GROUP_CLOSE (12 R268 to R270): a group closes, after one last attempt if none has succeeded. -/
def execGroupClose (t num : Nat) (s : State) : Host.Outcome State Fault Refusal :=
  whenOn t (fun s =>
    match s.group? num with
    | none => s
    | some g =>
      if g.closed.isSome ∨ s.ctime < g.closeAt then s
      else
        let s := if g.won = false ∧ 2 ≤ g.parts.length then s.tryGroup g else s
        match s.group? num with
        | none => s
        | some h =>
          let s := s.setGroup { h with closed := some s.now }
          let s := if g.won = false ∧ h.won = false ∧ 2 ≤ h.copies.length then s.bump F.seaScCntGroup else s
          let s := if h.won = false ∧ 2 ≤ h.tried.length then s.bump F.seaScCntFail else s
          { s with sc := s.sc.forget s.now }) s

/-! ## SC_RESULT and its acknowledgement (12 R272) -/

/-- SC_RESULT (12 R272, R273, R276): at the home, from the manager it follows: the frame is delivered or refused, and
SC_RESULT_ACK says which. -/
def execScResult (t : Nat) (m : SeamMsg) (s : State) : Host.Outcome State Fault Refusal :=
  seamRx t m (fun s =>
    if s.sea.follow ≠ some m.station ∨ m.body.length < 28 then s
    else
      let r := s.resultHome m.body
      r.1.sendTo m.station 0x12 (be 2 (beAt m.body 26 2) ++ be 1 r.2 ++ zeros 1)) s

/-- The result that waits for an acknowledgement, by its group. -/
def State.resultOf (s : State) (num : Nat) : Option ScSend := s.sc.results.find? fun r => decide (beAt r.body 26 2 = num)

/-- A result is done with. -/
def State.dropResult (s : State) (r : ScSend) : State :=
  { s with sc := { s.sc with results := s.sc.results.filter fun x => decide (x ≠ r) } }

/-- SC_RESULT_ACK (12 R272): STATUS 2 makes the manager deliver the frame itself. -/
def execScResultAck (t : Nat) (m : SeamMsg) (s : State) : Host.Outcome State Fault Refusal :=
  seamRx t m (fun s =>
    if m.body.length ≠ 4 then s
    else match s.resultOf (beAt m.body 0 2) with
      | none => s
      | some r =>
        if r.home ≠ m.station then s
        else if octet m.body 2 = 2 then (s.dropResult r).resultNoHome r.body
        else s.dropResult r) s

/-- SC_RESULT_RESEND (12 R272): every 1 ms, at most 4 times; after the fourth with no answer the manager delivers the frame
itself. -/
def execScResultResend (t num : Nat) (s : State) : Host.Outcome State Fault Refusal :=
  whenOn t (fun s =>
    match s.resultOf num with
    | none => s
    | some r =>
      if s.now < r.sent + ms then s
      else if r.resends < 4 then
        let r' : ScSend := { r with sent := s.now, resends := r.resends + 1 }
        ({ s with sc := { s.sc with results := s.sc.results.map fun x => if x = r then r' else x } }).sendTo r.home 0x11 r.body
      else (s.dropResult r).resultNoHome r.body) s

/-! ## Digest entries (12 R277) -/

/-- DIGEST_EXPIRY (12 R277): a digest entry that has waited the HOLD_S seconds of when it was made is dropped. -/
def execDigestExpiry (t short seq : Nat) (s : State) : Host.Outcome State Fault Refusal :=
  whenOn t (fun s =>
    { s with sc := { s.sc with digests := s.sc.digests.filter fun (e : DigestEntry) =>
                               !(decide (e.short = short) && decide (e.seq = seq) && decide (e.born + e.hold ≤ s.now)) } }) s

/-! ## Forwarding (12 R261 to R266) -/

/-- The fragments of a plane (12 R265): at most 1,408 octets each, by ascending OFFSET. -/
def fragments (l : List Byte) : List (Nat × List Byte) :=
  (List.range (cdiv l.length 1408)).map fun i => (i * 1408, cut l (i * 1408) 1408)

/-- The decision SNR in half-dB; how it is rounded is not stated (log entry 22). -/
def State.snrHalf (s : State) (snr : Int) : Int :=
  clampI (-128) 127 (snr / 50 + (if snr % 50 = 0 then 0 else (s.draw 531 2 : Int)))

/-- A failed reception forwarded to the manager followed, or passed to the device's own combiner, whole (12 R261 to R263). `soft` holds
the log-likelihood ratio of each bit as received; a local spool splits it into planes (15 R334; log entry 178). -/
def State.scForward (s : State) (n m phr ts : Nat) (soft : List Int) (snr : Int) : State :=
  let minSnr : Int := min 30 (s.reg F.seaScCtlMinSnr)
  let len := phrLen phr
  if s.flag F.seaScCtlEn = false ∨ s.sea.role < 3 ∨ 6 < s.sea.role ∨ s.managerOf = none ∨ s.sea.valid = false ∨
      soft.length ≠ 8 * len ∨ snr < minSnr * 100 then s
  else
    let raw := hardOctets soft
    let hard := if phrDw phr then airWhitenFrom 0x1FF raw else raw
    let planes := [(3, hard), (2, magPlane 2 soft), (1, magPlane 1 soft), (0, magPlane 0 soft)]
    let rxid := s.sc.rxid
    let phy := s.reg F.airChCfgMod n m * 64 + s.reg F.airChCfgRate n m * 16 + s.reg F.airChCfgSfd n m * 8
    let head := be 4 rxid ++ be 4 s.sea.cepoch ++ be 8 (s.ctimeAt ts) ++ be 4 (s.airFreq n m) ++ be 1 phy ++
      be 1 (twos 8 (s.snrHalf snr)) ++ be 2 phr ++ be 1 n ++ be 1 m
    let s := ({ s with sc := { s.sc with rxid := (rxid + 1) % 2 ^ 32 } }).bump F.seaScCntFwd
    let s := s.spoolMoved (256 + s.draw 973 128) (8 * len)
    if s.sea.role = 6 then
      let h := scHead head
      match s.enterCopy s.station h with
      | (s, some num) => (planes.foldl (fun s p => s.putPlane num s.station rxid p.1 0 p.2) s).attemptDue num
      | (s, none) => s
    else match s.managerOf with
      | none => s
      | some k => planes.foldl (fun s p => (fragments p.2).foldl (fun s e =>
          s.sendTo k 0x10 (head ++ be 1 (p.1 * 16) ++ zeros 1 ++ be 2 e.1 ++ be 2 e.2.length ++ e.2)) s) s

end Sys2Proof.Machine
end

