-- ==== Sys2Proof/Machine/AirRx.lean ====
section
/-!
DEFINITION. Machine/AirRx.lean: receiving on the air (09 R195 to R202, R204): candidates, the PHR check and the FCS
check.
-/

namespace Sys2Proof.Machine

open Sys2Proof

/-! ## Candidates (09 R199 to R201, 06 R140) -/

/-- THRESH in 0.25 dB (AIR_COR). -/
def State.airThresh (s : State) (n : Nat) : Nat := clamp 16 80 (s.reg F.airCorThresh n)

/-- A candidate held. -/
def State.holdAir (s : State) (n m : Nat) (c : AirCand) : State :=
  let x := s.ac n m
  (s.setAc n m { x with cands := x.cands ++ [c] }).bump F.airCntCand n

/-- A candidate's context ends. -/
def State.dropAir (s : State) (n m : Nat) (c : AirCand) : State :=
  let x := (s.ac n m).seen s.now
  (s.setAc n m { x with cands := x.cands.filter fun d => decide (d ≠ c) }).unplace (.airRx n m c.place)

/-- A peak in a context slot that is already held, in place of `old`. -/
def State.preemptAir (s : State) (n m : Nat) (old : List AirCand) (c : AirCand) : State :=
  let s := old.foldl (fun s d =>
    (s.setAc n m { s.ac n m with cands := (s.ac n m).cands.filter fun e => decide (e ≠ d) }).bump F.airCntPreempt n) s
  let s := old.foldl (fun s d => if d.place = c.place then s else s.unplace (.airRx n m d.place)) s
  s.holdAir n m c

/-- A peak that takes a new context slot, or is dropped and counted for want of one (01 R12). -/
def State.newAir (s : State) (n m : Nat) (c : AirCand) : State :=
  match s.place (.airRx n m c.place) with
  | some s => s.holdAir n m c
  | none => s.bump F.airCntCdrop n

/-- A peak found, by the table of 06 R140 as 09 R201 reads it. -/
def State.airPeak (s : State) (n m : Nat) (metric : Nat × Nat) (ts : Nat) : State :=
  let x := s.ac n m
  let c (p : Nat) : AirCand := { place := p, metric := metric, ts := ts, broken := false }
  if x.rx.isSome then s.bump F.airCntLate n
  else match x.cands with
    | [] => s.newAir n m (c 0)
    | [a] => if metricWins metric a.metric then s.preemptAir n m [a] (c a.place) else s.newAir n m (c (1 - a.place))
    | a :: b :: _ =>
      let low := if metricAbove a.metric b.metric then b else a
      if metricWins metric a.metric && metricWins metric b.metric then s.preemptAir n m [a, b] (c a.place)
      else if metricWins metric low.metric then s.preemptAir n m [low] (c low.place)
      else s.bump F.airCntLate n

/-- The place of the context that takes a peak, as on the line. -/
def AirChan.peakPlace (x : AirChan) (metric : Nat × Nat) : Nat :=
  match x.rx, x.cands with
  | some r, _ => r.cand.place
  | none, [] => 0
  | none, [a] => if metricWins metric a.metric then a.place else 1 - a.place
  | none, a :: b :: _ =>
    let low := if metricAbove a.metric b.metric then b else a
    if metricWins metric a.metric && metricWins metric b.metric then a.place
    else if metricWins metric low.metric then low.place else a.place

/-- A channel's correlator is ignored: its channel transmits, or in half duplex any channel does, and for 20 us after
(09 R204). -/
def State.airDeaf (s : State) (n m : Nat) : Bool :=
  if s.flag F.airJesdDuplex n then !(s.ap n).sends.isEmpty || decide (s.now < (s.ap n).quiet)
  else s.chanSends n m || decide (s.now < (s.ac n m).quiet)

/-- AIR_PREAMBLE_PEAK (09 R199 to R201): the channel's outputs since those given before, and the
discriminator's values at the pattern's symbol centres at three outputs in a row. A peak at `inst` is a candidate, its timestamp that
less D_RX and RX_NS (R200). -/
def execAirPreamblePeak (t port chan : Nat) (peak : AirPeak) (inst : Nat) (s : State) :
    Host.Outcome State Fault Refusal :=
  whenOn t (fun s =>
    let s := s.takeAir port chan peak.outs
    let c := airPattern (s.reg F.airChCfgMod port chan) (s.reg F.airChCfgSfd port chan)
    let m := airMetric c peak.peak
    if s.chanOn port chan = false ∨ peak.peak.length ≠ c.length ∨
        isPeak (s.airThresh port) (airMetric c peak.before) m (airMetric c peak.after) = false ∨
        s.airDeaf port chan = true then s
    else
      let ts := inst - s.dRx port chan - s.reg F.airLatRxNs port
      s.input (.airRx port chan ((s.ac port chan).peakPlace m)) (.airPeak port chan m ts) fun s => s.airPeak port chan m ts) s

/-! ## The PHR check (09 R195, R201) -/

/-- The PHR check passes. -/
def State.phrOk (s : State) (n m phr : Nat) : Bool :=
  decide (phr / 8192 = 0) && decide (5 ≤ phrLen phr) && decide (phrLen phr ≤ s.reg F.airChLimMaxlen n m)

/-- A candidate's PHR check is complete: 16 / B symbols after its peak (R201). -/
def State.phrDue (s : State) (n m : Nat) (c : AirCand) : Bool := decide (s.airOutAt n m (c.ts + s.airNs n m 16) ≤ s.now)

/-- The candidates whose PHR checks complete on one output, with their PHRs: those that fail are dropped and counted; of those that
pass, the one with the larger M becomes the reception, and the other candidate is dropped without a count (06 R140). One that a gap in
the samples spans fails (01 R19). -/
def State.phrsDone (s : State) (n m : Nat) (l : List (AirCand × Nat)) : State :=
  let good (e : AirCand × Nat) : Bool := s.phrOk n m e.2 && !e.1.broken
  let s := (l.filter fun e => !good e).foldl (fun s e => (s.dropAir n m e.1).bump F.airCntPhrFail n) s
  match l.filter good with
  | [] => s.airBoundary n
  | a :: r =>
    let (c, phr) := r.foldl (fun a b => if metricAbove b.1.metric a.1.metric then b else a) a
    let s := ((s.ac n m).cands.filter fun d => decide (d ≠ c)).foldl (fun s d => s.dropAir n m d) s
    s.setAc n m { s.ac n m with cands := [], rx := some { cand := c, phr := phr } }

/-- What a PHR check that falls due does. -/
def State.airPhr (s : State) (n m place phr : Nat) (rival : Option Nat) : State :=
  match (s.ac n m).cands.find? (fun c => decide (c.place = place)) with
  | none => s
  | some c =>
    if !s.phrDue n m c then s
    else
      let other := (s.ac n m).cands.find? fun d => decide (d ≠ c) && s.phrDue n m d
      s.phrsDone n m ((c, phr) :: (match rival, other with
        | some v, some d => [(d, v)]
        | _, _ => []))

/-- AIR_PHR_CHECK (09 R195, R201): a candidate's PHR is decided. -/
def execAirPhrCheck (t port chan place : Nat) (head : AirHead) (s : State) : Host.Outcome State Fault Refusal :=
  whenOn t (fun s => s.input (.airRx port chan place) (.airPhr port chan place head.phr head.rival)
    fun s => s.airPhr port chan place head.phr head.rival) s

/-! ## The FCS check (09 R202) -/

/-- MARGIN from a decision SNR in hundredths of a dB (09 R202): less the required SNR, in 0.5 dB, saturating; which way it
is rounded is free (log entry 22). -/
def State.airMargin (s : State) (n m : Nat) (snr : Int) : Nat :=
  let d := snr - airRequired (s.reg F.airChCfgMod n m)
  twos 8 (clampI (-128) 127 (d / 50 + (if d % 50 = 0 then 0 else (s.draw 532 2 : Int))))

/-- The end E of a frame, from its timestamp: its PHR and PSDU follow its SFD. -/
def State.airEnd (s : State) (n m phr ts : Nat) : Nat := ts + s.airNs n m (16 + 8 * phrLen phr)

/-- The FCS check of a reception (09 R197, R202): the MAC frame of the octets decided, unless a gap in the samples spans it. -/
def AirRx.mac (r : AirRx) (soft : List Int) : Option (List Byte) := if r.cand.broken then none else macOf r.phr (hardOctets soft)

/-- What an FCS check that falls due does. -/
def State.airFcs (s : State) (n m : Nat) (soft : List Int) (snr : Int) : State :=
  match (s.ac n m).rx with
  | none => s
  | some r =>
    if s.now < s.airOutAt n m (s.airEnd n m r.phr r.cand.ts) then s
    else
      let s := (s.setAc n m ((s.ac n m).seen s.now).clear).unplace (.airRx n m r.cand.place)
      let ts := r.cand.ts
      let s := match r.mac soft with
        | none => (s.bump F.airCntFcsFail n).scForward n m r.phr ts soft snr
        | some mac => (s.bump F.airCntRxOk n).airFrame n m r.phr ts (s.airEnd n m r.phr ts) (s.airMargin n m snr) mac
      s.airBoundary n

/-- The place of the context that holds a channel's reception. -/
def State.airPlace (s : State) (n m : Nat) : Nat := match (s.ac n m).rx with
  | some r => r.cand.place
  | none => 0

/-- AIR_FCS_CHECK (09 R202, 10 R209, 12 R261, R262): the last bit of a reception is decided. `outs` are the channel's outputs since
those given before; `soft` the log-likelihood ratio of each PSDU bit as received, in sending order, in 1/65,536; `snr` the decision SNR
in hundredths of a dB. -/
def execAirFcsCheck (t port chan : Nat) (outs : List AirOut) (soft : List Int) (snr : Int) (s : State) :
    Host.Outcome State Fault Refusal :=
  whenOn t (fun s =>
    let s := s.takeAir port chan outs
    s.input (.airRx port chan (s.airPlace port chan)) (.airFcs port chan soft snr) fun s => s.airFcs port chan soft snr) s

end Sys2Proof.Machine
end

