-- ==== Sys2Proof/Machine/Ethernet.lean ====
section
/-!
DEFINITION. Machine/Ethernet.lean: the Ethernet ports (18 R405 to R417) and their failover (13 R295, R297): bring-up and
down, moving sessions and queued traffic, pause, and sending from the transmit queues.
-/

namespace Sys2Proof.Machine

open Sys2Proof

/-! ## Settings (18 R405, R408) -/

/-- TYPE in effect: codes 5 to 7 are taken as 0. -/
def EthPort.code (e : EthPort) : Nat := if 5 ≤ e.type then 0 else e.type

/-- The settings the registers hold differ from those in effect. -/
def State.ethChanged (s : State) (p : Nat) : Bool :=
  let e := s.ep p
  decide (s.reg F.ethEpCtlType p ≠ e.type) || decide (s.reg F.ethEpCtlAn p ≠ e.an) || decide (s.reg F.ethEpCtlFec p ≠ e.fec)

/-- The settings of the registers put in effect, and bring-up begun under them. -/
def State.ethTake (s : State) (p : Nat) : State :=
  s.setEp p { s.ep p with
    type := s.reg F.ethEpCtlType p
    an := s.reg F.ethEpCtlAn p
    fec := s.reg F.ethEpCtlFec p
    since := s.now }

/-- The lanes of a port and the code words of its RS-FEC, by TYPE (18 R405). -/
def EthPort.lanes (e : EthPort) : Nat := if 3 ≤ e.code then 2 else 4
def EthPort.rsFec (e : EthPort) : Nat × Nat := (if 3 ≤ e.code then 544 else 528, 514)

/-- RS-FEC is on: always but with TYPE 2, where FEC chooses (18 R405). -/
def EthPort.fecOn (e : EthPort) : Bool := decide (e.code ≠ 2) || decide (e.fec = 1)

/-- Clause 73 negotiates: never with TYPE 2, otherwise where AN is set (18 R405). -/
def EthPort.negotiates (e : EthPort) : Bool := decide (e.code ≠ 2) && decide (e.an = 1)

/-! ## Moving traffic (13 R295, 18 R412) -/

/-- The sessions whose messages go to a port. -/
def State.sessionsOn (s : State) (p : Nat) : Nat := (s.stw.sess.filter fun e => decide (e.2.port = p)).length

/-- The sessions and commands in flight of a port move to the other one. -/
def State.moveSessions (s : State) (p : Nat) : State :=
  { s with stw := { s.stw with
                    sess := s.stw.sess.map fun e => if e.2.port = p then (e.1, { e.2 with port := 1 - p }) else e
                    flights := s.stw.flights.map fun f => if f.port = p then { f with port := 1 - p } else f } }

/-- The frames queued on a port move to the other one, but its own pause frames. -/
def State.moveQueues (s : State) (p : Nat) : State :=
  let e := s.ep p
  let o := s.ep (1 - p)
  let q := (List.range 5).foldl (fun (q : Tab (List Frame)) k => tset q k (tget [] q k ++ tget [] e.queues k)) o.queues
  (s.setEp p { e with queues := [] }).setEp (1 - p) { o with queues := q }

/-! ## Down and up (18 R406, R407; 13 R295, R297) -/

/-- ETH_LINK_UP or ETH_LINK_DOWN. -/
def State.linkEvent (s : State) (code p reason : Nat) : State :=
  s.raise code 0x80 p (be 1 (s.ep p).code ++ be 1 reason ++ s.open8s 950 2)

/-- A port fault masked by the other port: logged, counted, and PORT_FAILOVER raised. -/
def State.failover (s : State) (p detect moved interrupt : Nat) : State :=
  let s := (s.logFault 0x20 0x80 p 0 detect (1 - p) 0 interrupt 0).bump F.fauCntFailover
  s.raise 0x203 0x80 p (be 1 (1 - p) ++ be 1 detect ++ be 1 moved ++ s.open8s 952 1)

/-- A port fault with both ports down: logged as not masked; UNMASKED_FAULT waits for a link. -/
def State.bothDown (s : State) (p detect : Nat) : State :=
  let i := s.logIndex
  let s := (s.logFault 0x21 0x80 p 1 detect 255 0 0 0).bump F.fauCntUnmasked
  { s with fau := { s.fau with unmaskedPort := some (p, detect, i) } }

/-- A port goes down with a REASON; DETECT is how a fault was detected, `interrupt` its interruption in ns. REASON 5 is no
fault. Whether capture blocks were on the failed wire is open. -/
def State.portDown (s : State) (p reason detect interrupt : Nat) : State :=
  let s := s.setEp p { s.ep p with up := false, reason := reason, paused := [], pausing := [], since := s.now }
  let moved := s.sessionsOn p
  let lost := decide (s.draw 954 2 = 1)
  let s := s.gapCaptures fun c => lost && (match tget? s.stw.sess c.slot with
    | some x => decide (x.port = p)
    | none => false)
  if (s.ep (1 - p)).up then
    let s := ((s.moveSessions p).moveQueues p).linkEvent 0x802 p reason
    if reason = 5 then s else s.failover p detect moved interrupt
  else
    let s := s.linkEvent 0x802 p reason
    if reason = 5 then s else s.bothDown p detect

/-- The events that waited for a link are sent (13 R297). -/
def State.sendWaiting (s : State) : State :=
  s.stw.sess.foldl (fun s e =>
    let late := e.2.events.filter fun v => !v.sent
    let s := s.setSess e.1 { e.2 with events := e.2.events.map fun v =>
                                      if v.sent then v else { v with sent := true, time := s.now } }
    late.foldl (fun s v => s.sendEvent e.1 e.2 v) s) s

/-- UNMASKED_FAULT (13 R299). -/
def State.unmasked (s : State) (block inst kind detect ctxs index : Nat) : State :=
  s.raise 0x207 block inst (be 1 kind ++ be 1 detect ++ be 2 ctxs ++ be 4 index)

/-- UNMASKED_FAULT of both ports down, when a link returns. -/
def State.portsBack (s : State) : State :=
  match s.fau.unmaskedPort with
  | some (p, detect, i) =>
    let s : State := { s with fau := { s.fau with unmaskedPort := none } }
    s.unmasked 0x80 p 0x21 detect 0 i
  | none => s

/-- The seam when the first link is up: a role but DETACHED becomes LISTENING (11 R258; its REASON is not stated), and a retained EN
that has waited since power-up starts it (R242). -/
def State.seamBack (s : State) : State :=
  if s.sea.waits then s.seaEnable
  else if s.sea.role = 0 ∨ s.sea.role = 1 then s
  else s.toListening (s.draw 953 9)

/-- A port comes up. -/
def State.portUp (s : State) (p : Nat) : State :=
  let first := !s.anyUp
  let s := s.setEp p { s.ep p with up := true }
  if first then
    let s := ((s.moveSessions (1 - p)).moveQueues (1 - p)).sendWaiting
    ((s.linkEvent 0x801 p 0).portsBack).seamBack
  else s.linkEvent 0x801 p 0

/-- The conditions of R406 can have held for 10 ms since bring-up began. -/
def State.linkReady (s : State) (p : Nat) : Bool :=
  s.flag F.ethEpCtlEn p && !(s.ep p).up && decide ((s.ep p).since + 10 * ms ≤ s.now)

/-- ETH_LINK_UP (18 R406): the conditions have held for 10 ms while EN is 1. -/
def execEthLinkUp (t port : Nat) (s : State) : Host.Outcome State Fault Refusal :=
  whenOn t (fun s => if port < 2 ∧ s.linkReady port = true then s.portUp port else s) s

/-- A condition of R406 whose failure takes a port down: REASON 1 to 4, hi_ser only where RS-FEC is on, or 6, a datapath fault. -/
def EthPort.mayFail (e : EthPort) (reason : Nat) : Bool :=
  (decide (1 ≤ reason) && decide (reason ≤ 4) && (decide (reason ≠ 2) || e.fecOn)) || decide (reason = 6)

/-- ETH_LINK_DOWN (18 R406; 13 R281): a condition of an up port failed, or its datapath, with how that was detected (13 R298, 1 or
2). -/
def execEthLinkDown (t port reason detect interrupt : Nat) (s : State) : Host.Outcome State Fault Refusal :=
  whenOn t (fun s =>
    if port < 2 ∧ (s.ep port).up = true ∧ (s.ep port).mayFail reason = true then
      s.portDown port reason (if reason = 6 then clamp 1 2 detect else 6) (min interrupt 40000)
    else s) s

/-- EN of a port set: bring-up starts under the settings in effect; new ones wait for the OK of their write (R408). -/
def State.ethEnable (s : State) (p : Nat) : State :=
  let s := s.setReg F.ethEpCtlEn p 0 1
  s.setEp p { s.ep p with since := s.now }

/-- EN of a port cleared: it goes down with REASON 5. -/
def State.ethDisable (s : State) (p : Nat) : State :=
  let s := s.setReg F.ethEpCtlEn p 0 0
  if (s.ep p).up then s.portDown p 5 0 0 else s

/-- ETH_PORT_ENABLE (18 R406). -/
def execEthPortEnable (t port : Nat) (s : State) : Host.Outcome State Fault Refusal :=
  whenOn t (fun s =>
    if port < 2 ∧ s.flag F.ethEpCtlEn port = false then (s.ethEnable port).kept s .ethEpCtl port else s) s

/-- ETH_PORT_DISABLE (18 R407). -/
def execEthPortDisable (t port : Nat) (s : State) : Host.Outcome State Fault Refusal :=
  whenOn t (fun s =>
    if port < 2 ∧ s.flag F.ethEpCtlEn port = true then (s.ethDisable port).kept s .ethEpCtl port else s) s

/-- No response waits to leave a port. -/
def State.responsesGone (s : State) : Bool :=
  [0, 1].all fun p => (tget [] (s.ep p).queues 2).all fun f => decide (f.kind ≠ .response)

/-- ETH_PORT_RECONFIGURE (18 R408): a write has changed TYPE, FEC or AN and its OK has left: the port goes down with REASON 5 and
begins bring-up under the new values. -/
def execEthPortReconfigure (t port : Nat) (s : State) : Host.Outcome State Fault Refusal :=
  whenOn t (fun s =>
    if port < 2 ∧ s.ethChanged port = true ∧ s.responsesGone = true then
      let s := if (s.ep port).up then s.portDown port 5 0 0 else s
      s.ethTake port
    else s) s

/-! ## Priority flow control (18 R416) -/

/-- PFC_PAUSE_RX (18 R416): a received pause, with the quanta of each priority it names; a quantum is 512 bit times at
100 Gbit/s (log entry 95). -/
def execPfcPauseRx (t port : Nat) (quanta : List (Nat × Nat)) (s : State) : Host.Outcome State Fault Refusal :=
  whenOn t (fun s =>
    if port < 2 ∧ (s.ep port).up = true then
      let honoured := quanta.filter fun q => decide (q.1 < 8) && bit (s.reg F.ethPfcRxEn) q.1
      s.setEp port { s.ep port with
        paused := honoured.foldl (fun (l : Tab Nat) q =>
          if q.2 = 0 then tdel l q.1 else tset l q.1 (s.now + cdiv (min q.2 65535 * 512) 100)) (s.ep port).paused }
    else s) s

/-- PFC_PAUSE_EXPIRY (18 R416): the quanta of a priority have run out. -/
def execPfcPauseExpiry (t port prio : Nat) (s : State) : Host.Outcome State Fault Refusal :=
  whenOn t (fun s =>
    match tget? (s.ep port).paused prio with
    | some z => if z ≤ s.now then s.setEp port { s.ep port with paused := tdel (s.ep port).paused prio } else s
    | none => s) s

/-- A PFC frame for one priority (IEEE 802.1Qbb: opcode 0x0101, the enable vector, eight times; log entry 95). -/
def pauseBody (prio quanta : Nat) : List Byte :=
  be 2 0x0101 ++ be 2 (2 ^ prio) ++ (List.range 8).flatMap fun p => be 2 (if p = prio then quanta else 0)

/-- A pause sent. -/
def State.sendPause (s : State) (port prio quanta : Nat) : State :=
  let e := s.ep port
  s.setEp port { e with queues := tset e.queues 5 (tget [] e.queues 5 ++
                        [{ kind := .pause, dst := { mac := 0x0180C2000001, udp := false, v6 := false, ip := 0, uport := 0, tag := none },
                           body := pauseBody prio quanta, proto := 0x8808 }]) }

/-- PFC_PAUSE_REFRESH (18 R416): the receive buffer for a priority holds `level` octets: a pause starts above 1 MiB, is
refreshed every 2,600 ns, and ends at 512 KiB. -/
def execPfcPauseRefresh (t port prio level : Nat) (s : State) : Host.Outcome State Fault Refusal :=
  whenOn t (fun s =>
    if 2 ≤ port ∨ 8 ≤ prio ∨ (s.ep port).up = false ∨ bit (s.reg F.ethPfcTxEn) prio = false then s
    else
      let set (s : State) := s.setEp port { s.ep port with pausing := tset (s.ep port).pausing prio s.now }
      match tget? (s.ep port).pausing prio with
      | none => if 1048576 < level then (set s).sendPause port prio 0xFFFF else s
      | some last =>
        if level ≤ 524288 then
          (s.setEp port { s.ep port with pausing := tdel (s.ep port).pausing prio }).sendPause port prio 0
        else if last + 2600 ≤ s.now then (set s).sendPause port prio 0xFFFF
        else s) s

/-! ## Sending (18 R414, R415) -/

/-- The PCP of a queue, under which an untagged frame of it is paused. -/
def State.queuePcp (s : State) (q : Nat) : Nat :=
  match q with
  | 0 => s.reg F.ethPrioBeaconPcp
  | 1 => s.reg F.ethPrioSeamPcp
  | 2 => s.reg F.ethPrioMbPcp
  | 3 => s.reg F.ethPrioRecPcp
  | _ => s.reg F.ethPrioCapPcp

/-- The octets of a frame's headers, from its destination address on. -/
def Frame.head (f : Frame) : Nat :=
  14 + (if f.dst.tag.isSome then 4 else 0) + (if f.dst.udp then (if f.dst.v6 then 48 else 28) else if f.kind = .neighbour then 40 else 0)

/-- The octets of a frame on the wire, with preamble, gap, headers and FCS. -/
def Frame.wire (f : Frame) : Nat := 20 + max 64 (4 + f.head + f.body.length)

/-- The instant, in hundredths of a nanosecond, at which the next frame of a port can begin on its wire: now, or when the one before and
its gap have passed. -/
def State.wireFree (s : State) (p : Nat) : Nat := max (s.now * 100) (s.ep p).freeAt

/-- A frame of queues 1 to 4 sent next on a port would end before the next BEACON, while the device is manager, and the next HELLO are
due (18 R415). -/
def State.clearOf (s : State) (p : Nat) (f : Frame) : Bool :=
  let fin := s.wireFree p + f.wire * 8
  (decide (s.sea.role ≠ 6) || decide (fin ≤ s.sea.beacon * 100)) &&
    (decide (s.sea.role = 0) || decide (fin ≤ (s.sea.hello + ms) * 100))

/-- A queue whose head frame may leave a port now: it is not paused, one of queues 1 to 4 delays no BEACON or HELLO, and a capture
block waits for its pace (R417). -/
def State.mayLeave (s : State) (p q : Nat) (f : Frame) : Bool :=
  let pcp := match f.dst.tag with
    | some t => t / 8192
    | none => s.queuePcp q
  !(bit (s.reg F.ethPfcRxEn) pcp && (tget? (s.ep p).paused pcp).isSome) &&
    (decide (q = 0) || s.clearOf p f) &&
    (decide (q ≠ 4) || decide ((s.ep p).capAt ≤ s.now))

/-- The queue that an up port serves next: pause frames, then the queues in order of priority. -/
def State.serveQueue (s : State) (p : Nat) : Option Nat :=
  if !(s.ep p).up then none
  else if !(tget [] (s.ep p).queues 5).isEmpty then some 5
  else firstBelow 5 fun q => match tget [] (s.ep p).queues q with
    | f :: _ => s.mayLeave p q f
    | [] => false

/-- RATE_GBPS. -/
def State.capRate (s : State) : Nat := clamp 1 100 (s.reg F.ethCapRateGbps)

/-- The device spool that brings a frame to its port (15 R334): of those for its use, a capture stream's is that of its line or air
port; which of the others is not stated. -/
def State.spoolFor (s : State) (f : Frame) : Option Nat :=
  match f.kind with
  | .records => some (s.draw 955 16)
  | .response | .event | .session => some (16 + s.draw 956 8)
  | .capture => some ((if octet f.body 16 = 2 then 48 else 24) + octet f.body 17)
  | .seam => some (64 + s.draw 957 32)
  | .arp | .neighbour | .pause => none

/-- A device spool has moved a frame, as one descriptor (15 R334, R343; log entry 178). -/
def State.carried (s : State) (f : Frame) : State :=
  match s.spoolFor f with
  | none => s
  | some n => s.spoolMoved n f.body.length

/-- A seam frame that begins on the wire of a port at an instant in hundredths of a nanosecond, with the instants the Ethernet hardware
puts in (18 R418): CNS of a BEACON is that of its body's first octet, the send instant of a DELAY_REQ that of the first octet after the
start frame delimiter (log entry 243). -/
def State.stampFrame (s : State) (start : Nat) (f : Frame) : Frame :=
  let put (ofs v : Nat) : Frame := { f with body := f.body.take ofs ++ be 8 v ++ f.body.drop (ofs + 8) }
  if f.kind ≠ .seam then f
  else match octet f.body 1 with
    | 0x01 => put 20 (s.ctimeAt ((start + 8 * (24 + f.head)) / 100))
    | 0x0C => put 16 ((start + 64) / 100)
    | _ => f

/-- One frame leaves a port, which its device spool has brought it to; after a capture block the next waits until the blocks fit the
rate. One whose protocol has no address on the port ends unsent (18 R410; log entry 219). -/
def State.sendFrom (s : State) (p : Nat) : State :=
  match s.serveQueue p with
  | some q =>
    match tget [] (s.ep p).queues q with
    | f :: l =>
      let e := { s.ep p with queues := tset (s.ep p).queues q l }
      let start := s.wireFree p
      match s.ethOctets p (s.stampFrame start f) with
      | some o =>
        let e := { e with out := o, freeAt := start + f.wire * 8 }
        (s.carried f).setEp p (if q = 4 then { e with capAt := cdiv start 100 + cdiv (f.body.length * 8) s.capRate } else e)
      | none => s.setEp p e
    | [] => s
  | none => s

/-- RS-FEC of an up port has corrected code words, or found some it could not: how many is free (18 ETH_EPn_CNT_FEC_CORR and
CNT_FEC_UNCORR; log entry 173). -/
def State.fecWorks (s : State) (p : Nat) : State :=
  if (s.ep p).up && (s.ep p).fecOn then
    (s.bumpBy F.ethEpCntFecCorr p (Config.freeNat s.free (965 + p))).bumpBy F.ethEpCntFecUncorr p (Config.freeNat s.free (967 + p))
  else s

/-- What the block does when no command waits: each port sends one frame, and its RS-FEC counts (log entry 3); and the copy of the
registry that an appointed deputy receives goes on (log entry 211). -/
def State.idle (s : State) : State :=
  if s.pow.on then (((((s.tick s.now).sendFrom 0).sendFrom 1).settleCarrier.fecWorks 0).fecWorks 1).copyGoesOn else s

end Sys2Proof.Machine
end

