-- ==== Sys2Proof/Machine/Capture.lean ====
section
/-!
DEFINITION. Machine/Capture.lean: capture streams (04 R87, R88; 09 R205; 18 R417).
-/

namespace Sys2Proof.Machine

open Sys2Proof

/-- The octets of one sample: real 16-bit for a line port, complex for an air port. -/
def sampleLen (source : Nat) : Nat := if source = 1 then 2 else 4

/-- The samples that a stream's queue holds: 2 ms of its rate. -/
def queueSamples (source : Nat) : Nat := if source = 1 then 6400 else 32000

/-- The samples of a full block of a session. -/
def blockSamples (source : Nat) (x : Session) : Nat := (x.maxmsg - 40) / sampleLen source

/-- CAP_START (04 R87) arrives. -/
def execCapStart (t : Nat) (m : Inbound) (s : State) : Host.Outcome State Fault Refusal :=
  whenOn t (fun s => s.arriveFw m 0x801 Right.capture) s

/-- CAP_STOP (04 R87) arrives. -/
def execCapStop (t : Nat) (m : Inbound) (s : State) : Host.Outcome State Fault Refusal :=
  whenOn t (fun s => s.arriveFw m 0x802 Right.capture) s

/-- CAP START served: a port that another session captures is refused, but no second capture of the same session (log entry 259). Which instant the first sample has is open, within 1 us. -/
def State.serveCapStart (s : State) (f : Flight) : State :=
  let o := f.operand
  let src := octet o 0
  let port := octet o 1
  if o.length ≠ 12 ∨ ¬(src = 1 ∨ src = 2) then s.finish f false Status.badLength []
  else if (src = 1 ∧ 24 ≤ port) ∨ 16 ≤ port ∧ src = 2 then s.finish f false Status.badAddress []
  else if s.caps.any (fun c => capturesOf src port c && !(decide (c.slot = f.slot) && decide (c.gen = f.gen))) then
    s.finish f false Status.lockedRunning []
  else
    let at_ := s.now + s.draw 998 1000
    let c : Capture := { source := src, port := port, slot := f.slot, gen := f.gen, stream := beAt o 8 4, start := at_,
                         dur := beAt o 4 4 * ms, sent := 0, gap := false }
    let s := match s.sessOf f.slot f.gen with
      | some _ => { s with caps := s.caps ++ [c] }
      | none => s
    s.finish f false Status.ok (be 4 s.lin.epoch ++ be 8 at_)

/-- A stream of a session. -/
def State.capture? (s : State) (slot stream : Nat) : Option Capture :=
  s.caps.find? fun c => decide (c.slot = slot) && decide (c.stream = stream)

/-- CAP STOP served. -/
def State.serveCapStop (s : State) (f : Flight) : State :=
  if f.operand.length ≠ 4 then s.finish f false Status.badLength []
  else match s.caps.find? (fun c => decide (c.slot = f.slot) && decide (c.gen = f.gen) &&
      decide (c.stream = beAt f.operand 0 4)) with
    | some c => ({ s with caps := s.caps.filter fun d => decide (d ≠ c) } : State).finish f false Status.ok (be 4 c.sent)
    | none => s.finish f false Status.badAddress []

/-- CAPTURE_DURATION_END (04 R87): DURATION_MS has passed since the first sample. -/
def execCaptureDurationEnd (t slot stream : Nat) (s : State) : Host.Outcome State Fault Refusal :=
  whenOn t (fun s =>
    match s.capture? slot stream with
    | some c =>
      if c.dur ≠ 0 ∧ c.start + c.dur ≤ s.now then { s with caps := s.caps.filter fun d => decide (d ≠ c) } else s
    | none => s) s

/-- The samples of a stream that wait in the transmit queues. -/
def State.capQueued (s : State) (c : Capture) : Nat :=
  [0, 1].foldl (fun (n : Nat) p => (tget [] (s.ep p).queues 4).foldl (fun (n : Nat) f =>
    if octet f.body 16 = c.source ∧ octet f.body 17 = c.port ∧ beAt f.body 20 4 = c.stream ∧ beAt f.body 12 2 / 4096 = c.slot then
      n + beAt f.body 36 4
    else n) n) 0

/-- A capture block queued, or dropped and counted when its stream's queue is full; a stream's first SEQUENCE is 0 (log entry 260). -/
def State.captureBlock (s : State) (c : Capture) (x : Session) (ns : Nat) (samples : List Byte) : State :=
  let n := samples.length / sampleLen c.source
  let put (d : Capture) : State := { s with caps := s.caps.map fun e => if e = c then d else e }
  if queueSamples c.source < s.capQueued c + n then (put { c with gap := true }).bump F.ethEpCntCapdrop (s.txPort x.port)
  else
    let flags := b2n c.gap + 2 * s.draw 999 128
    let body := be 1 c.source ++ be 1 c.port ++ be 1 (c.source - 1) ++ be 1 flags ++ be 4 c.stream ++ be 4 s.lin.epoch ++
      be 8 ns ++ be 4 n ++ samples
    (put { c with sent := c.sent + 1, gap := false }).queueFrame x.port 4 false
      { kind := .capture, dst := x.addr (s.reg F.ethPrioCapPcp),
        body := message 5 0 0 0 0 (c.sent % 2 ^ 32) c.slot c.gen 0 body }

/-- CAPTURE_BLOCK (04 R88, 18 R417): a block of samples, filling a message, whose first sample was at `ns`, on the lane of an air port,
whose block gives the antenna's instant, RX_NS earlier (09 R189, R205); an air port sends none while its link is down. -/
def execCaptureBlock (t slot stream ns : Nat) (samples : List Byte) (s : State) : Host.Outcome State Fault Refusal :=
  whenOn t (fun s =>
    match s.capture? slot stream, tget? s.stw.sess slot with
    | some c, some x =>
      let ns := if c.source = 2 then ns - s.reg F.airLatRxNs c.port else ns
      if samples.length = blockSamples c.source x * sampleLen c.source ∧ 0 < samples.length ∧ c.start ≤ ns ∧
          (c.source = 1 ∨ (s.ap c.port).up = true) then s.captureBlock c x ns samples
      else s
    | _, _ => s) s

end Sys2Proof.Machine
end

