-- ==== Sys2Proof/Machine/Fault.lean ====
section
/-!
DEFINITION. Machine/Fault.lean: fault masking (13): checkpoints, patching, self-tests and spares, steward pairs, cipher cores and
check units, votes, the memory patrol, the fault log, and injection.
-/

namespace Sys2Proof.Machine

open Sys2Proof

/-! ## Engines (13 R285 to R291) -/

/-- A link engine set. -/
def State.setEng (s : State) (n : Nat) (e : Engine) : State := s.setEngine n e

/-- A link engine. -/
def State.eng (s : State) (n : Nat) : Engine := s.fau.eng n

/-- The ready spares, in ascending order. -/
def State.spares (s : State) : List Nat := tkeys (s.fau.engines.filter fun e => decide (e.2.st = .spare))

/-- The active engines. -/
def State.actives (s : State) : List Nat := tkeys (s.fau.engines.filter fun e => decide (e.2.st = .active))

/-- The contexts of an engine with their effect numbers and what each holds, as a checkpoint holds them. -/
def State.ckptOf (s : State) (e : Engine) : Ckpt :=
  { time := s.now, fx := e.ctxs.map fun c => (c, s.fau.numberOf e c), data := e.ctxs.map fun c => (c, s.ctxData c) }

/-- CHECKPOINT (13 R285): engine `n`'s instant of the millisecond, at which it starts to write a checkpoint, over the older of its
two. -/
def execCheckpoint (t n : Nat) (s : State) : Host.Outcome State Fault Refusal :=
  whenOn t (fun s =>
    let e := s.eng n
    if n < 64 ∧ e.st = .active ∧ s.now % ms = 15625 * n then
      s.setEng n { e with ckptOld := none, ckptNew := some (s.ckptOf e) }
    else s) s

/-- CHECKPOINT_COMPLETE (13 R285): the checkpoint being written is the valid one from now on. -/
def execCheckpointComplete (t n : Nat) (s : State) : Host.Outcome State Fault Refusal :=
  whenOn t (fun s =>
    let e := s.eng n
    match e.ckptNew with
    | some c =>
      if n < 64 ∧ e.st = .active then s.setEng n { e with ckpt := c, ckptOld := some e.ckpt, ckptNew := none } else s
    | none => s) s

/-- A context ends for want of an engine (13 R297): a reception without a record, a transmission cut with the ramp. An acknowledgement
that is armed, or in its preamble, is left without a decision, which aborts it at F + 12.80 ms (R289). -/
def State.endCtx (s : State) (c : Ctx) : State :=
  match c with
  | .lineRx n m p =>
    let x := s.ls n m
    let rx := match x.rx with
      | some r => if r.cand.place = p then none else some r
      | none => none
    let ack := if x.rx = rx then x.ack else x.ack.map fun a => if a.ok = some true then a else { a with ok := some false }
    (s.setLs n m { x with cands := x.cands.filter fun d => decide (d.place ≠ p), rx := rx, ack := ack }).settleIdle n m s.now
  | .lineTx n m =>
    let x := s.ls n m
    match x.tx, x.ack with
    | some tx, some a =>
      if s.now < tx.start + 10240000 then s.setLs n m { x with ack := some { a with ok := some false } }
      else (s.setLs n m { x with ack := none }).txOver n m s.now true
    | none, some a => s.setLs n m { x with ack := some { a with ok := some false } }
    | some tx, none =>
      match x.queue with
      | f :: _ => if f.ackReq then s.tryEnds n m s.now true tx else (s.txOver n m s.now true).popLine n m s.now false 2
      | [] => s.txOver n m s.now true
    | none, none => s
  | .airRx n m p =>
    let x := s.ac n m
    let rx := match x.rx with
      | some r => if r.cand.place = p then none else some r
      | none => none
    s.setAc n m { x with cands := x.cands.filter fun d => decide (d.place ≠ p), rx := rx }

/-- A failed engine leaves service: its fault counted, its self-test begun (13 R290). -/
def State.failEngine (s : State) (n by_ : Nat) : State :=
  let e := s.eng n
  s.setEng n { e with st := .selfTest, drain := false, ctxs := [], fx := [], inputs := [], ckptNew := none, patch := none,
                      testAt := s.now, faults := e.faults + 1, replacedBy := by_ }

/-- Contexts lost: they end, and the fault is logged as not masked, counted and reported (13 R297). -/
def State.loseEngine (s : State) (n detect target : Nat) (cs : List Ctx) : State :=
  let i := s.logIndex
  let s := cs.foldl (fun s c => s.endCtx c) s
  let s := (s.logFault 0x01 0x04 n 1 detect target (slotsOf cs) 0 0 (some n)).bump F.fauCntUnmasked
  s.unmasked 0x04 n 0x01 detect (slotsOf cs) i

/-- A checkpoint covers an engine's contexts: the inputs held for 4 ms reach back to its instant (13 R286, R297). -/
def State.coveredBy (s : State) (e : Engine) (c : Option Ckpt) : Bool :=
  e.ctxs.isEmpty || match c with
    | some c => decide (s.now ≤ c.time + 4 * ms)
    | none => false

/-- A spare takes over for an engine (13 R288): its identity and contexts, which are again as its checkpoint has them, and the inputs
held since; contexts that no checkpoint covers end. -/
def State.patchIn (s : State) (e : Engine) (j : Nat) (p : Patch) (c old : Option Ckpt) : State :=
  let d := s.eng j
  let k := c.getD { time := s.now, fx := [], data := [] }
  let d : Engine := { d with st := .active, drain := e.drain, ckpt := k, ckptOld := old, ckptNew := none }
  if s.coveredBy e c then
    (s.setEng j { d with ctxs := e.ctxs, fx := k.fx, inputs := e.inputs, patch := some { p with ckpt := k.time } }).putCtxs j k.data
  else (s.setEng j ({ d with ctxs := [], fx := [], inputs := [] } : Engine).settle).loseEngine p.failed p.detect j e.ctxs

/-- A fault of an engine (13 R288, R290, R297): a ready spare is logged and tested; an active engine is patched by the ready spare
with the lowest number, by the next one from the older checkpoint where the checkpoint is uncorrectable or the engine was itself
being patched in, or is not masked. Where it was being patched in, what is logged is that patch. -/
def State.engineFault (s : State) (n detect fault : Nat) (bad : Bool) : State :=
  let e := s.eng n
  match e.st with
  | .spare => (s.failEngine n 255).logFault 0x01 0x04 n 0 detect 255 0 0 0 (some n)
  | .active =>
    let p := e.patch.getD { failed := n, detect := detect, detected := s.now, fault := fault, ckpt := e.ckpt.time }
    let l := s.spares
    let pick := if bad then (match l with
        | _ :: b :: _ => some b
        | l => l.head?) else l.head?
    match pick with
    | none => (s.failEngine n 255).loseEngine p.failed p.detect 255 e.ctxs
    | some j =>
      let s := s.failEngine n j
      if bad then s.patchIn e j p e.ckptOld e.ckptOld
      else if e.patch.isSome then s.patchIn e j p (e.ckptOld.orElse fun _ => some e.ckpt) e.ckptOld
      else s.patchIn e j p (some e.ckpt) e.ckptOld
  | _ => s

/-- ENGINE_FAULT (13 R281 to R284, R288): a fault that occurred at `fault`, at most 2 us ago, is detected; `bad`: the checkpoint to be
loaded is uncorrectable. -/
def execEngineFault (t n detect fault : Nat) (bad : Bool) (s : State) : Host.Outcome State Fault Refusal :=
  whenOn t (fun s =>
    if n < 64 ∧ (detect = 1 ∨ detect = 2 ∨ detect = 4) ∧ fault ≤ s.now ∧ s.now ≤ fault + 2 * us then
      s.engineFault n detect fault bad
    else s) s

/-- What an input does to the context that takes it. -/
def Input.run (i : Input) (s : State) : State :=
  match i with
  | .linePeak n m metric start => s.linePeak n m metric start
  | .lineDelim n m place soft => s.lineDelim n m place soft
  | .lineContend n m => s.contended n m
  | .lineDefer n m level => s.defers n m level
  | .lineIdle n m => s.fallsIdle n m
  | .lineAckLate n m => s.ackLate n m
  | .lineRetry n m => s.retries n m
  | .lineRebuilt n m => s.rebuilt n m
  | .airPeak n m metric ts => s.airPeak n m metric ts
  | .lineHead n m place soft rival energy snr => s.lineHead n m place soft rival energy snr
  | .linePayload n m soft energy snr => s.linePayload n m soft energy snr
  | .airPhr n m place phr rival => s.airPhr n m place phr rival
  | .airFcs n m soft snr => s.airFcs n m soft snr

/-- A held input replayed on engine `n` (13 R287, R288 steps 4 and 5): an effect at or below the number last accepted of its context is
discarded without action, and its contexts come to where they were after it; one that came in while the spare caught up is taken now.
-/
def State.replay (n : Nat) (s : State) (h : HeldInput) : State :=
  let e := s.eng n
  match h.num with
  | some k =>
    let s := s.setEng n { e with fx := numSet e.fx h.ctx k }
    if k ≤ s.fau.taken h.ctx then s.putCtxs n h.after else h.input.run (s.accepts h.ctx k)
  | none => s.input h.ctx h.input h.input.run

/-- PATCH_CAUGHT_UP (13 R288 steps 4 and 5): the spare has replayed the inputs held since its checkpoint and caught up with real time;
the patch is logged, with the span it replayed from its loading at `load`, and PATCH raised. -/
def execPatchCaughtUp (t n load : Nat) (s : State) : Host.Outcome State Fault Refusal :=
  whenOn t (fun s =>
    let e := s.eng n
    match e.patch with
    | some p =>
      if n < 64 ∧ e.st = .active ∧ p.fault ≤ load ∧ load ≤ s.now then
        let int := s.now - p.fault
        let s := s.setEng n { e with patch := none, inputs := e.inputs.filter fun h => h.num.isSome }
        let s := (s.logFaultAt p.detected 0x01 0x04 p.failed 0 p.detect n e.load int (load - p.ckpt) (some p.failed)).bump
          F.fauCntPatch
        let s := s.raiseAt p.detected 0x201 0x04 p.failed (be 1 0 ++ be 1 n ++ be 2 e.load ++ be 4 int)
        (e.inputs.filter fun h => decide (p.ckpt ≤ h.time)).foldl (State.replay n) s
      else s
    | none => s) s

/-! ## Self-tests and spares (13 R290, R291) -/

/-- The target count of spares. -/
def State.spareTarget (s : State) : Nat := min 8 (s.reg F.fauSparesSpares)

/-- Active engines that drain toward spare. -/
def State.draining (s : State) : List Nat :=
  tkeys (s.fau.engines.filter fun e => decide (e.2.st = .active) && e.2.drain)

/-- One engine more toward the target: the highest-numbered active engine that does not drain. -/
def State.drainOne (s : State) : State :=
  match (s.actives.filter fun n => !(s.eng n).drain).getLast? with
  | some n => s.setEng n ({ s.eng n with drain := true } : Engine).settle
  | none => s

/-- One fewer: the lowest-numbered drain is cancelled, or the lowest-numbered ready spare becomes active, with nothing yet to
checkpoint. -/
def State.undrainOne (s : State) : State :=
  match s.draining with
  | n :: _ => s.setEng n { s.eng n with drain := false }
  | [] =>
    match s.spares with
    | n :: _ => s.setEng n { s.eng n with st := .active, ckpt := { time := s.now, fx := [], data := [] }, ckptOld := none }
    | [] => s

/-- The target met in either direction. -/
def State.meetTarget (s : State) : State :=
  let n := s.spares.length + s.draining.length
  let k := s.spareTarget
  if n < k then (List.range (k - n)).foldl (fun s _ => s.drainOne) s
  else (List.range (n - k)).foldl (fun s _ => s.undrainOne) s

/-- SPARES_TARGET_WRITE (13 R291). -/
def execSparesTargetWrite (t n : Nat) (s : State) : Host.Outcome State Fault Refusal :=
  whenOn t (fun s => ((s.setReg F.fauSparesSpares 0 0 (n % 16)).meetTarget).kept s .fauSpares 0) s

/-- The power-up self-test ends: the engines that failed it start retired, and are logged; of the others the highest-numbered are
spares. Ports may enter service. -/
def State.powerTest (s : State) (failed : List Nat) : State :=
  let good := (List.range 64).filter fun n => !failed.contains n
  let cut := good.length - s.spareTarget
  let s : State := { s with fau := { s.fau with
                                     testing := false
                                     engines := (List.range 64).map fun n =>
                                       (n, { Engine.init with
                                             st := if failed.contains n then .retired
                                               else if (good.take cut).contains n then .active else .spare
                                             ckpt := { time := s.now, fx := [], data := [] } }) } }
  let s := ((List.range 64).filter fun n => failed.contains n).foldl (fun s n => s.logFault 0x02 0x04 n 0 8 255 0 0 0 (some n)) s
  (List.range 16).foldl (fun s n => if (s.ap n).up && s.airServes n then s.airEnters n else s) s

/-- ENGINE_SELF_TEST_DONE (13 R290): at power-up the test of every engine, otherwise that of engine `n`, 100 ms after it began;
`failed` lists those that fail. -/
def execEngineSelfTestDone (t n : Nat) (failed : List Nat) (s : State) : Host.Outcome State Fault Refusal :=
  whenOn t (fun s =>
    if s.fau.testing then s.powerTest failed
    else
      let e := s.eng n
      if n < 64 ∧ e.st = .selfTest ∧ e.testAt + 100 * ms ≤ s.now then
        if failed.contains n then (s.setEng n { e with st := .retired }).logFault 0x02 0x04 n 0 8 255 0 0 0 (some n)
        else s.setEng n { e with st := .spare }
      else s) s

/-- Whether a context is still in use. -/
def State.ctxBusy (s : State) (c : Ctx) : Bool :=
  match c with
  | .lineRx n m p =>
    let x := s.ls n m
    x.cands.any (fun d => decide (d.place = p)) || (match x.rx with
      | some r => decide (r.cand.place = p)
      | none => false)
  | .lineTx n m => let x := s.ls n m; !(x.queue.isEmpty && x.tx.isNone && x.ack.isNone)
  | .airRx n m p =>
    let x := s.ac n m
    x.cands.any (fun d => decide (d.place = p)) || (match x.rx with
      | some r => decide (r.cand.place = p)
      | none => false)

/-- The context that a port, slot or channel, and place name; kind 0 a line reception, 1 a line link, 2 an air reception. -/
def ctxOf (kind port slot place : Nat) : Ctx :=
  match kind with
  | 0 => .lineRx port slot place
  | 1 => .lineTx port slot
  | _ => .airRx port slot place

/-- CONTEXT_END (13 R291): a context that nothing uses any more frees its slot; a draining engine with none left becomes a spare.
-/
def execContextEnd (t kind port slot place : Nat) (s : State) : Host.Outcome State Fault Refusal :=
  whenOn t (fun s =>
    let c := ctxOf kind port slot place
    if s.ctxBusy c then s else s.unplace c) s

/-! ## Steward pairs (13 R293, R294) -/

/-- A pair's state set. -/
def State.setPair (s : State) (n : Nat) (p : PairState) : State :=
  { s with fau := { s.fau with pairs := tset s.fau.pairs n p } }

/-- A pair's self-test begins. -/
def State.testPair (s : State) (n : Nat) : State :=
  let s := s.setPair n .selfTest
  { s with fau := { s.fau with pairTest := tset s.fau.pairTest n s.now } }

/-- The firmware commands in flight. -/
def State.fwFlights (s : State) : List Flight := s.stw.flights.filter fun f => decide (0x300 ≤ f.opcode)

/-- A command in flight at a switch is sent one PENDING, and its recorded final response if it has one (13 R294). -/
def State.takeFlight (s : State) (f : Flight) : State :=
  let s := s.sendPending f 4
  match f.stage with
  | .answered status operand => s.finish f false status operand
  | _ => s

/-- A pair becomes active: it takes the commands in flight (13 R294). -/
def State.pairTakes (s : State) (n : Nat) : State :=
  let s := s.setPair n .active
  let s : State := { s with fau := { s.fau with actPair := n } }
  s.fwFlights.foldl State.takeFlight s

/-- The active pair faults (13 R293, R297): the standby takes over, or no pair is in service. -/
def State.pairFault (s : State) (n detect interrupt : Nat) : State :=
  let s := s.testPair n
  match s.fau.pairs.find? (fun p => decide (p.2 = .standby)) with
  | some (m, _) =>
    let k := s.fwFlights.length
    let s := s.pairTakes m
    let s := (s.logFault 0x10 0x00 n 0 detect m 0 interrupt 0).bump F.fauCntSwitch
    s.raise 0x202 0x00 n (be 1 n ++ be 1 detect ++ be 2 k ++ be 4 interrupt)
  | none =>
    let i := s.logIndex
    let s := (s.logFault 0x10 0x00 n 1 detect 255 0 0 0).bump F.fauCntUnmasked
    { s with fau := { s.fau with unmaskedPair := some (n, detect, i) } }

/-- How the fault of a pair is detected (13 R281, R283): a handshake timeout, dual-rail parity, an uncorrectable word, or the
comparator. -/
def pairDetect (d : Nat) : Bool := decide (d = 1) || decide (d = 2) || decide (d = 4) || decide (d = 5)

/-- PAIR_FAULT (13 R293): of the active pair; DETECT, and the interruption. -/
def execPairFault (t detect interrupt : Nat) (s : State) : Host.Outcome State Fault Refusal :=
  whenOn t (fun s =>
    match s.fau.pairs.find? (fun p => decide (p.2 = .active)) with
    | some (n, _) =>
      if pairDetect detect then s.pairFault n detect (min interrupt 40000) else s
    | none => s) s

/-- A fault of the standby pair. -/
def State.standbyFault (s : State) (n detect : Nat) : State := (s.testPair n).logFault 0x12 0x00 n 0 detect 255 0 0 0

/-- STANDBY_FAULT (13 R293): STANDBY_READY clears, and the pair's self-test begins; no event. -/
def execStandbyFault (t detect : Nat) (s : State) : Host.Outcome State Fault Refusal :=
  whenOn t (fun s =>
    match s.fau.pairs.find? (fun p => decide (p.2 = .standby)) with
    | some (n, _) => if pairDetect detect then s.standbyFault n detect else s
    | none => s) s

/-- A pair active again after none was: what waited for one is reported (13 R297). -/
def State.pairBack (s : State) (n : Nat) : State :=
  let s := s.pairTakes n
  match s.fau.unmaskedPair with
  | some (p, detect, i) =>
    let s : State := { s with fau := { s.fau with unmaskedPair := none } }
    s.unmasked 0x00 p 0x10 detect 0 i
  | none => s

/-- PAIR_SELF_TEST_DONE (13 R293): 1 s after it began; a pair that passes becomes standby, or active while none is; one that
fails is retired. -/
def execPairSelfTestDone (t pair : Nat) (pass : Bool) (s : State) : Host.Outcome State Fault Refusal :=
  whenOn t (fun s =>
    if tget? s.fau.pairs pair = some .selfTest ∧ tget 0 s.fau.pairTest pair + sec ≤ s.now then
      if !pass then (s.setPair pair .retired).logFault 0x11 0x00 pair 0 8 255 0 0 0
      else if s.pairActive then s.setPair pair .standby
      else s.pairBack pair
    else s) s

/-! ## Cipher cores and check units (13 R292) -/

/-- A cipher core retired, its job back at the head of its queue under the nonce it has. -/
def State.retireCore (s : State) (n : Nat) : State :=
  { s with cip := { s.cip with
                    coresOut := n :: s.cip.coresOut
                    jobs := s.cip.jobs.map fun j => if j.stage = .running n then { j with stage := .queued } else j } }

/-- UNIT_FAULT (13 R292): a cipher core, or a check unit with the jobs it had, is retired and its jobs issued again. -/
def execUnitFault (t : Nat) (check : Bool) (unit detect jobs interrupt : Nat) (s : State) : Host.Outcome State Fault Refusal :=
  whenOn t (fun s =>
    if ¬(detect = 1 ∨ detect = 2) then s
    else
      let int := min interrupt 10000
      let done (s : State) (kind block jobs : Nat) : State :=
        let s := (s.logFault 0x40 block unit 0 detect 255 jobs int 0).bump F.fauCntPatch
        s.raise 0x201 block unit (be 1 kind ++ be 1 255 ++ be 2 jobs ++ be 4 int)
      if check then
        if unit < 8 ∧ unit ∉ s.cip.unitsOut then
          let s : State := { s with cip := { s.cip with unitsOut := unit :: s.cip.unitsOut } }
          done s 2 0x41 jobs
        else s
      else if unit < 16 ∧ unit ∉ s.cip.coresOut then
        let k := (s.cip.jobs.filter fun j => decide (j.stage = .running unit)).length
        done (s.retireCore unit) 1 0x40 k
      else s) s

/-- VOTE (13 R292): a fixed-function block outvotes a copy, or corrects a buffer by ECC; logged, no event. -/
def execVote (t block inst : Nat) (ecc : Bool) (s : State) : Host.Outcome State Fault Refusal :=
  whenOn t (fun s => s.logFault 0x50 block inst 0 (if ecc then 3 else 7) 255 0 0 0) s

/-! ## Memory (01 R17, 13 R296) -/

/-- Where the corrections of an address are kept: instance 0, 1 or 2, or 64 and the number of the engine whose local memory it is. -/
def corrKey (a : Nat) : Nat :=
  match regionOf a with
  | .engine n => 64 + n
  | _ => memInstance a

/-- A correction of the codeword at an address: counted, logged at most once a second for the codeword, with the corrections since
as DETAIL where they were merged, and reported at most once a second for the instance. A bit of engine local memory is logged under
its engine and has no event (log entry 213). -/
def State.corrected (s : State) (a : Nat) : State :=
  let i := corrKey a
  let c := tget { lastEvent := none, since := 0, merged := [] } s.fau.corr i
  let m := tget (0, 0) c.merged a
  let fresh := (tget? c.merged a).isNone
  let logs := fresh || decide (m.1 + sec ≤ s.now)
  let since := c.since + 1
  let tells := match c.lastEvent with
    | some t => decide (t + sec ≤ s.now)
    | none => true
  let c' : CorrState := { lastEvent := if tells then some s.now else c.lastEvent, since := if tells then 0 else since,
                          merged := tset c.merged a (if logs then (s.now, 0) else (m.1, m.2 + 1)) }
  let s : State := { s with fau := { s.fau with corr := tset s.fau.corr i c' } }
  let s := s.bump F.fauCntCorr
  let s := if logs then s.logFault 0x30 0x04 (i % 64) 0 3 255 0 0 (if m.2 = 0 then a % 2 ^ 32 else m.2 + 1) else s
  if tells && decide (i < 64) then s.raise 0x204 0x04 i (be 8 a ++ be 4 since ++ s.open8s 990 4) else s

/-- Corrections merged into a codeword's entry of a second ago are logged, with their COUNT as DETAIL. -/
def State.logMerged (s : State) : State :=
  s.fau.corr.foldl (fun s e =>
    let due := e.2.merged.filter fun m => decide (m.2.1 + sec ≤ s.now)
    let merged := e.2.merged.filterMap fun m =>
      if s.now < m.2.1 + sec then some m else if m.2.2 = 0 then none else some (m.1, (s.now, 0))
    let s : State := { s with fau := { s.fau with corr := tset s.fau.corr e.1 { e.2 with merged := merged } } }
    (due.filter fun m => decide (0 < m.2.2)).foldl (fun s m => s.logFault 0x30 0x04 (e.1 % 64) 0 3 255 0 0 m.2.2) s) s

/-- Memory in DRAM or SRAM. -/
def inMemory (a : Nat) : Bool := decide (regionOf a = .dram) || decide (regionOf a = .sram)

/-- MEMORY_PATROL (13 R281, R296): the patrol has read `n` octets from `lo`: `fixed` lists the codewords corrected, those of engine
local memory at a read of the engine's; `bad` the codewords that have become uncorrectable; those in the range are found, the others by
the first read that comes to them. -/
def execMemoryPatrol (t lo n : Nat) (fixed bad : List Nat) (s : State) : Host.Outcome State Fault Refusal :=
  whenOn t (fun s =>
    let new := ((bad.filter inMemory).map codeword).filter fun c => !s.mem.poison.contains c && !s.mem.rot.contains c
    let s : State := { s with mem := { s.mem with rot := new.eraseDups ++ s.mem.rot } }
    let here (a : Nat) : Bool := decide (64 ≤ corrKey a) || inMemory a && touches lo n (codeword a)
    let s := (fixed.filter here).foldl (fun s a => s.corrected (codeword a)) s.logMerged
    s.consume 0x04 lo n) s

/-! ## The fault log (13 R298) -/

/-- FAULT_LOG_WRITE (13 R298): the active pair writes the oldest queued entry, under the next INDEX, over the oldest of
32,768. -/
def execFaultLogWrite (t : Nat) (s : State) : Host.Outcome State Fault Refusal :=
  whenOn t (fun s =>
    match s.fau.queue with
    | [] => s
    | w :: l =>
      if !s.pairActive then s
      else
        let i := s.lin.logNext
        let s : State := { s with
          fau := { s.fau with queue := l }
          lin := { s.lin with log := tset (if 32768 ≤ i then tdel s.lin.log (i - 32768) else s.lin.log) i (w.body ++ be 4 i), logNext := i + 1 } }
        match w.engine with
        | some n => s.setEng n { s.eng n with lastIndex := i }
        | none => s) s

/-- DIAG FAULT_LOG served (04 DIAG family, 13 R298). -/
def State.serveFaultLog (s : State) (f : Flight) : State :=
  let first := beAt f.operand 0 4
  let n := beAt f.operand 4 2
  if f.operand.length ≠ 6 ∨ n = 0 ∨ 255 < n then s.finish f false Status.badLength []
  else if first + 32768 < s.lin.logNext then s.finish f false Status.badAddress []
  else s.finish f false Status.ok ((List.range n).flatMap fun i => tget (zeros 32) s.lin.log (first + i))

/-- DIAG ENGINE served (13 R300). -/
def State.serveEngine (s : State) (f : Flight) : State :=
  let n := octet f.operand 0
  if f.operand.length ≠ 1 then s.finish f false Status.badLength []
  else if 64 ≤ n then s.finish f false Status.badAddress []
  else
    let e := s.eng n
    let st := match e.st with
      | .active => 0
      | .spare => 1
      | .selfTest => 2
      | .retired => 3
    s.finish f false Status.ok (be 1 n ++ be 1 st ++ be 2 e.load ++ be 1 e.replacedBy ++ s.open8s 992 3 ++
      be 4 e.faults ++ be 4 e.lastIndex)

/-- DIAG MEMDESC served (04 R89). -/
def State.serveMemdesc (s : State) (f : Flight) : State :=
  if !f.operand.isEmpty then s.finish f false Status.badLength []
  else
    let entry (r : MemRange) : List Byte :=
      be 8 r.base ++ be 4 (r.size / 1024) ++ be 1 r.kind ++ be 1 (match r.kind with
        | 1 => 3
        | 2 => 0
        | _ => 1) ++ s.open8s (r.base / 1024) 2
    s.finish f false Status.ok (be 2 s.mem.ranges.length ++ s.open8s 995 6 ++ s.mem.ranges.flatMap entry)

/-- DIAG_MEMDESC (04 R89) arrives. -/
def execDiagMemdesc (t : Nat) (m : Inbound) (s : State) : Host.Outcome State Fault Refusal :=
  whenOn t (fun s => s.arriveFw m 0x901 Right.diag) s

/-- DIAG_FAULT_LOG (13 R298) arrives. -/
def execDiagFaultLog (t : Nat) (m : Inbound) (s : State) : Host.Outcome State Fault Refusal :=
  whenOn t (fun s => s.arriveFw m 0x902 Right.diag) s

/-- DIAG_ENGINE (13 R300) arrives. -/
def execDiagEngine (t : Nat) (m : Inbound) (s : State) : Host.Outcome State Fault Refusal :=
  whenOn t (fun s => s.arriveFw m 0x903 Right.diag) s

/-! ## Injection (13 R281, FAU_INJECT) -/

/-- FAU_INJECT.KIND 0: an engine handshake timeout. -/
def State.injectEngine (s : State) (n : Nat) : State := if n < 64 then s.engineFault n 1 s.now false else s

/-- KIND 1: a comparator mismatch of a pair; how long the switch interrupts is not stated beyond its bound. -/
def State.injectPair (s : State) (n : Nat) : State :=
  match tget? s.fau.pairs n with
  | some .active => s.pairFault n 5 (s.draw 996 40001)
  | some .standby => s.standbyFault n 5
  | _ => s

/-- KIND 2: a datapath fault of an Ethernet port. -/
def State.injectPort (s : State) (n : Nat) : State :=
  if n < 2 ∧ (s.ep n).up = true then s.portDown n 6 1 (s.draw 997 40001) else s

/-- A write of GO to FAU_INJECT. -/
def State.inject (s : State) (kind target : Nat) : State :=
  match kind with
  | 0 => s.injectEngine target
  | 1 => s.injectPair target
  | 2 => s.injectPort target
  | _ => s

/-- INJECT_ENGINE_FAULT. -/
def execInjectEngineFault (t target : Nat) (s : State) : Host.Outcome State Fault Refusal :=
  whenOn t (fun s => s.injectEngine target) s

/-- INJECT_PAIR_FAULT. -/
def execInjectPairFault (t target : Nat) (s : State) : Host.Outcome State Fault Refusal :=
  whenOn t (fun s => s.injectPair target) s

/-- INJECT_PORT_FAULT. -/
def execInjectPortFault (t target : Nat) (s : State) : Host.Outcome State Fault Refusal :=
  whenOn t (fun s => s.injectPort target) s

end Sys2Proof.Machine
end

