-- ==== Sys2Proof/Machine/FrameJobs.lean ====
section
/-!
DEFINITION. Machine/FrameJobs.lean: what the completion of a cipher job means to its submitter (14 R318, R321, R322, R326).
-/

namespace Sys2Proof.Machine

open Sys2Proof

/-- The command status of a cipher status (14 R326). -/
def cipherStatus (st : Nat) : Nat :=
  match st with
  | 0 => Status.ok
  | 1 => Status.authFail
  | 4 => Status.badLength
  | 5 => Status.badAddress
  | 6 => Status.memError
  | _ => Status.keyErased

/-- A received frame's payload from its auxiliary header on, as its decryption leaves it: the MIC stays as received (14 R321); with no
output, the octets as received. -/
def Job.opened (j : Job) (skip : Nat) (out : List Byte) : List Byte :=
  let own := j.own.getD []
  if out.isEmpty then own.drop skip else out.drop skip ++ own.drop (own.length - jTag j.desc)

/-- What a submitter does once it has its completion. A record is sent only now, with FLAGS set from it (14 R322); a COMMAND frame is
acted on only if it authenticates (10 R208). -/
def State.jobUsed (s : State) (j : Job) (st : Nat) (out : List Byte) : State :=
  match j.use with
  | .memory => s
  | .line ref => s.lineSealed ref (cipherStatus st) j.nonce out
  | .air id => s.airSealed id (cipherStatus st) j.nonce out
  | .record skip r => s.deliverRec r (decide (st ≠ 0)) (j.opened skip out)
  | .command skip short => if st = 0 then s.airCommand short (out.drop (skip + 7)) else s
  | .unwrap ref handle =>
    if st = 0 then s.keyLoaded ref handle (j.own.getD []) out else s.finishRef ref (cipherStatus st) []
  | .fill slot => if st = 0 then s.filled slot (j.own.getD []) out else s

/-- CIPHER_JOB_COMPLETE (14 R322, R326, R329): the job running on a core writes its output, then its completion, and its submitter
goes on. -/
def execCipherJobComplete (t core : Nat) (s : State) : Host.Outcome State Fault Refusal :=
  whenOn t (fun s =>
    match s.cip.jobs.find? (fun j => decide (j.stage = .running core)) with
    | none => s
    | some j =>
      let (s, st, out) := s.runJob j
      (s.completeJob j core st).jobUsed j st out) s

end Sys2Proof.Machine
end

