-- ==== Sys2Proof/Machine/Loop.lean ====
section
/-!
DEFINITION. Machine/Loop.lean: the loop outputs (16 R383 to R388): the current a loop drives, its fault level and the
causes of it, its events, and its PWM event.
-/

namespace Sys2Proof.Machine

open Sys2Proof

/-- A loop right after LOP has been restored (02 R33, 16 R383). -/
def Loop.init : Loop :=
  { ua := 3600, fault := false, cause := 0, opened := false, range := false, stale := false, reg := false,
    value := none, lastOut := 0, fired := none }

/-- A loop. -/
def State.loop (s : State) (n : Nat) : Loop := tget Loop.init s.loops n

/-- A loop set. -/
def State.setLoop (s : State) (n : Nat) (x : Loop) : State := { s with loops := tset s.loops n x }

/-- MODE 0 and EN 1: the loop follows its source entry. -/
def State.mapped (s : State) (n : Nat) : Bool :=
  s.flag F.lopLoCtlEn n && decide (s.reg F.lopLoCtlMode n = 0)

/-- V4 and V20 of a loop. -/
def State.v4 (s : State) (n : Nat) : Int := signed 24 (s.reg F.lopLoV4 n)
def State.v20 (s : State) (n : Nat) : Int := signed 24 (s.reg F.lopLoV20 n)

/-- VALUE and QUALITY of an entry's result register. -/
def State.resValue (s : State) (e : Nat) : Int := signed 24 (s.reg F.cnvResValue e)
def State.resQuality (s : State) (e : Nat) : Nat := s.reg F.cnvResQuality e

/-- The mapped current for a VALUE in microamperes (16 R384); a fraction of a microampere is dropped. -/
def mappedUa (v4 v20 v : Int) : Nat := (clampI 3800 20500 (4000 + 16000 * (v - v4) / (v20 - v4))).toNat

/-- The lowest cause present on a loop in MODE 0 (16 R385), 0 for none. -/
def State.loopCause (s : State) (n : Nat) : Nat :=
  let x := s.loop n
  if !s.mapped n then 0
  else if x.opened then 1
  else if x.range then 2
  else if x.stale then 3
  else if s.v20 n = s.v4 n then 4
  else if x.reg then 5
  else 0

/-- The current a loop drives (16 R383 to R385): 0 stands for a transistor held off. -/
def State.loopUa (s : State) (n : Nat) : Nat :=
  if !s.flag F.lopLoCtlEn n then 0
  else
    match s.reg F.lopLoCtlMode n with
    | 1 => clamp 3600 21000 (s.reg F.lopLoFixedUa n)
    | 2 => 3600
    | 3 => 21000
    | _ =>
      if s.loopCause n ≠ 0 then (if s.flag F.lopLoCtlFaultDir n then 21000 else 3600)
      else
        match (s.loop n).value with
        | some v => mappedUa (s.v4 n) (s.v20 n) v
        | none => 3600

/-- LOP_LOn_STAT.STATE. -/
def State.loopState (s : State) (n : Nat) : Nat :=
  if !s.flag F.lopLoCtlEn n then 0
  else if s.reg F.lopLoCtlMode n ≠ 0 then 3
  else if (s.loop n).fault then 2 else 1

/-- LOOP_FAULT of a loop (16 R386). -/
def State.loopFault (s : State) (n state cause : Nat) : State :=
  s.raise 0x702 0x63 n (be 1 state ++ be 1 cause ++ be 1 (s.reg F.lopLoCtlFaultDir n) ++ s.open8s (930 + n) 1)

/-- A loop brought to what its causes and registers make it (16 R384 to R386). At an exit CAUSE is the cause left or
0, which the spec leaves open. -/
def State.loopEval (s : State) (n : Nat) : State :=
  let x := s.loop n
  let c := s.loopCause n
  let now := decide (c ≠ 0)
  let s := s.setLoop n { x with fault := now, cause := c, ua := s.loopUa n }
  if now && !x.fault then (s.bump F.lopCntFault).loopFault n 1 c
  else if x.fault && !now then s.loopFault n 0 (if s.draw (940 + n) 2 = 0 then 0 else x.cause)
  else s

/-- An excitation is at fault. -/
def State.excBroken (s : State) (n : Nat) : Bool :=
  match tget? s.cnv.excs n with
  | some x => x.broken
  | none => false

/-- The excitation of an entry (4: none). -/
def State.entryExc (s : State) (e : Nat) : Nat := s.reg F.cnvEntCfgExc e

/-- A loop starts anew to follow its source: MODE 0 entered, SRC changed or EN set. An output that the source's result register
holds counts as its last one; without it the loop waits for the first (02 R33). -/
def State.loopFollow (s : State) (n : Nat) : State :=
  let src := s.reg F.lopLoCtlSrc n
  let q := s.resQuality src
  let valid := bit q 7
  (s.setLoop n { s.loop n with
    opened := s.excBroken (s.entryExc src) || (valid && bit q 6)
    range := valid && (bit q 5 || bit q 3)
    stale := false
    reg := false
    value := if valid then some (s.resValue src) else none
    lastOut := s.now }).loopEval n

/-- The loops whose registers have been written (16 LOP): EN, MODE or SRC changed follow anew, other changes count at
once. -/
def State.loopWritten (s old : State) (n : Nat) : State :=
  let same := decide (s.reg F.lopLoCtlEn n = old.reg F.lopLoCtlEn n) &&
    decide (s.reg F.lopLoCtlMode n = old.reg F.lopLoCtlMode n) && decide (s.reg F.lopLoCtlSrc n = old.reg F.lopLoCtlSrc n)
  let s := if s.flag F.lopLoCtlEn n then s
    else s.setLoop n { s.loop n with fired := none }
  if same then s.loopEval n else s.loopFollow n

/-- A break on excitation `x`: every loop in MODE 0 whose source entry it drives has cause 1 (16 R374). -/
def State.loopsBreak (s : State) (x : Nat) : State :=
  (List.range 4).foldl (fun s n =>
    if s.mapped n && decide (s.entryExc (s.reg F.lopLoCtlSrc n) = x) then (s.setLoop n { s.loop n with opened := true }).loopEval n
    else s) s

/-- A filter output of entry `e` reaches the loops mapped to it (16 R384 to R386). -/
def State.loopsOutput (s : State) (e : Nat) (opened range : Bool) : State :=
  (List.range 4).foldl (fun s n =>
    if s.mapped n && decide (s.reg F.lopLoCtlSrc n = e) then
      (s.setLoop n { s.loop n with
        opened := opened || s.excBroken (s.entryExc e)
        range := range
        stale := false
        value := some (s.resValue e)
        lastOut := s.now }).loopEval n
    else s) s

/-- LOOP_STALE (16 R385): STALE_MS, at least 1, has passed without an output of the source. -/
def execLoopStale (t n : Nat) (s : State) : Host.Outcome State Fault Refusal :=
  whenOn t (fun s =>
    let x := s.loop n
    if n < 4 ∧ s.mapped n = true ∧ x.stale = false ∧ x.lastOut + max 1 (s.reg F.lopLoCtlStaleMs n) * ms ≤ s.now then
      (s.setLoop n { x with stale := true }).loopEval n
    else s) s

/-- LOOP_REGULATION_FAULT (16 R385, cause 5): the duty has been at its limit for 1 ms off target, or no longer is. -/
def execLoopRegulationFault (t n : Nat) (on : Bool) (s : State) : Host.Outcome State Fault Refusal :=
  whenOn t (fun s =>
    if n < 4 ∧ s.mapped n = true then (s.setLoop n { s.loop n with reg := on }).loopEval n else s) s

/-- The instant of a loop's next PWM event (16 R387): the first of EN is where its PWM stands, the others lie 1,024 us apart. -/
def State.pwmDue (s : State) (n : Nat) : Nat :=
  match (s.loop n).fired with
  | some f => f + 1024 * us
  | none => s.now

/-- LOOP_PWM_EVENT (16 R387): every 1,024 us while EN is 1. -/
def execLoopPwmEvent (t n : Nat) (s : State) : Host.Outcome State Fault Refusal :=
  whenOn t (fun s =>
    if n < 4 ∧ s.flag F.lopLoCtlEn n = true ∧ s.pwmDue n ≤ s.now then
      s.setLoop n { s.loop n with fired := some (s.pwmDue n) }
    else s) s

/-! ## SENS LOOP_SET and CURVE_INFO (04 SENS family, 16 R382, R384) -/

/-- SENS LOOP_SET served: MODE, and for MODE 1 UA. -/
def State.serveLoopSet (s : State) (f : Flight) : State :=
  let o := f.operand
  let n := octet o 0
  let mode := octet o 1
  let uA := beAt o 4 4
  if o.length ≠ 8 ∨ 3 < mode then s.finish f false Status.badLength []
  else if 3 < n then s.finish f false Status.badAddress []
  else if mode = 1 ∧ (uA < 3600 ∨ 21000 < uA) then s.finish f false Status.badLength []
  else
    let s1 := s.setReg F.lopLoCtlMode n 0 mode
    let s1 := if mode = 1 then (s1.setReg F.lopLoFixedUa n 0 uA).kept s .lopLoFixed n else s1
    ((s1.kept s .lopLoCtl n).loopWritten s n).finish f false Status.ok []

/-- The curves of 16 R378: UNIT, REQUIRES, MIN and MAX. -/
def curveInfo (c : Nat) : Option (Nat × Nat × Int × Int) :=
  match c with
  | 0 => some (0, 0, -8388608, 8388607)
  | 1 => some (1, 1, -20000, 85000)
  | 3 => some (1, 2, -21000, 120000)
  | 4 => some (1, 2, -20000, 137200)
  | 5 => some (1, 2, -20000, 130000)
  | 6 => some (1, 2, -20000, 40000)
  | 7 => some (1, 2, -20000, 100000)
  | 8 => some (1, 2, -5000, 176800)
  | 9 => some (1, 2, -5000, 176800)
  | 10 => some (3, 0, -8388608, 8388607)
  | 11 => some (3, 0, -8388608, 8388607)
  | _ => none

/-- SENS CURVE_INFO served. -/
def State.serveCurveInfo (s : State) (f : Flight) : State :=
  if f.operand.length ≠ 1 then s.finish f false Status.badLength []
  else
    let c := octet f.operand 0
    match curveInfo c with
    | some (unit, req, lo, hi) => s.finish f false Status.ok
        (be 1 c ++ be 1 unit ++ be 1 req ++ s.open8s 940 1 ++ be 4 (twos 32 lo) ++ be 4 (twos 32 hi) ++ s.open8s 941 4)
    | none => s.finish f false Status.badAddress []

end Sys2Proof.Machine
end

