-- ==== Sys2Proof/Machine/Filter.lean ====
section
/-!
DEFINITION. Machine/Filter.lean: the site filter chain (17) and the result stage (16 R377 to R382): grids, outputs, their
flags and VALUE, restarts, hand-over, and the result stream.
-/

namespace Sys2Proof.Machine

open Sys2Proof

/-! ## Channels -/

/-- A filter channel after power-up. -/
def Chan.init : Chan :=
  { seen := false, first := none, visits := [], steady := none, interval := none, longest := 0, lastG := none,
    cycles := [], dcb := 0, settling := false, epoch := 0, ns := 0, mean := 0, good := none }

/-- A filter channel. -/
def State.chan (s : State) (e : Nat) : Chan := tget Chan.init s.chans e

/-- A filter channel set. -/
def State.setChan (s : State) (e : Nat) (c : Chan) : State := { s with chans := tset s.chans e c }

/-- A number rounded to the nearest multiple of 1 / den of it, a tie going to the even one (17 R397). -/
def roundEven (num : Int) (den : Nat) : Int :=
  let q := num / den
  let r := 2 * (num % den)
  if r < den then q else if (den : Int) < r then q + 1 else if q % 2 = 0 then q else q + 1

/-- A value held between limits, and whether it lay beyond them. -/
def held (lo hi v : Int) : Int × Bool := (clampI lo hi v, decide (v < lo) || decide (hi < v))

/-- PHASE_NS, signed. -/
def State.phaseNs (s : State) (e : Nat) : Int := signed 32 (s.reg F.fltChPhasePhaseNs e)

/-- 2^HB. -/
def State.decim (s : State) (e : Nat) : Nat := 2 ^ s.reg F.fltChCfgHb e

/-- K of the notch (17 R395): 4 f_out / f0 rounded, where a tie is left open, or 4 N. -/
def State.notchK (s : State) (e : Nat) : Nat :=
  let notch := s.reg F.fltChCfgNotch e
  let count := s.reg F.fltChRateCount e
  if notch = 0 then 0
  else if s.locked e then 4 * count
  else
    let den := count * (if notch = 1 then 50 else 60)
    let q := 4000000 / den
    let r := 2 * (4000000 % den)
    if r < den then q else if den < r then q + 1 else q + Config.freeNat 0 (count + 16777216) % 2

/-- The output interval T_o as a fraction in ns, for a cycle period `p` when the grid is mains-locked. -/
def State.outStep (s : State) (e p : Nat) : Nat × Nat :=
  if s.locked e then (p, max 1 (s.reg F.fltChRateCount e)) else (s.reg F.fltChRateCount e * 1000, 1)

/-- The group delay D_g as a fraction in ns (17 R398). -/
def State.groupDelay (s : State) (e p : Nat) : Nat × Nat :=
  let t := s.outStep e p
  let d := s.decim e
  (t.1 * (23 * (d - 1) + (s.notchK e + 2 ^ (s.reg F.fltChCfgDcw e - 1)) * d), t.2 * d)

/-- FLT_CHe_STAT.GDELAY_US: D_g rounded up to microseconds at the present T_o. -/
def State.gdelayUs (s : State) (e : Nat) : Nat :=
  let d := s.groupDelay e (s.timerPeriod (s.fltSource e))
  cdiv d.1 (d.2 * 1000)

/-! ## The grids (17 R390, R391) -/

/-- The instants of a mains-locked grid of `n` per cycle, in order, with the period of their cycle: those at or after the
next anchor do not occur. -/
def lockedGrid (n : Nat) : List (Nat × Nat) → List (Nat × Nat)
  | [] => []
  | (a, p) :: r =>
    let own := (List.range n).map fun j => (a + j * p / n, p)
    match r with
    | (b, _) :: _ => (own.filter fun g => decide (g.1 < b)) ++ lockedGrid n r
    | [] => own

/-- Whether a grid instant may be the next output's: later than the last one, and with an input to interpolate. -/
def State.gridFits (s : State) (e g : Nat) : Bool :=
  let c := s.chan e
  (match c.lastG with
    | some l => decide (l < g)
    | none => true) &&
  (match c.first with
    | some f => decide ((f : Int) ≤ g + s.phaseNs e)
    | none => false)

/-- The grid instant of the next output, with the cycle period of its grid. -/
def State.nextG (s : State) (e : Nat) : Option (Nat × Nat) :=
  let c := s.chan e
  if s.locked e then (lockedGrid (s.reg F.fltChRateCount e) c.cycles).find? fun g => s.gridFits e g.1
  else
    let per := s.reg F.fltChRateCount e * 1000
    match c.first with
    | none => none
    | some f =>
      if per = 0 then none
      else
        let least : Nat := ((f : Int) - s.phaseNs e).toNat
        let g := cdiv least per * per
        match c.lastG with
        | some l => some (max g ((l / per + 1) * per), 0)
        | none => some (g, 0)

/-- The instants of the resampler grid at `p` steps from grid instant `g` (17 R390). -/
def State.resampleAt (s : State) (e g : Nat) (grid : List (Nat × Nat)) (p : Int) : Option Int :=
  if s.locked e then
    let i := (grid.takeWhile fun x => decide (x.1 < g)).length
    if 0 ≤ (i : Int) + p then (grid[((i : Int) + p).toNat]?).map fun x => (x.1 : Int) else none
  else some (((g * s.decim e : Nat) + p * (s.reg F.fltChRateCount e * 1000 : Nat)) / (s.decim e : Nat))

/-- The visit samples a channel has had at or after an instant. -/
def visitsFrom (vs : List Visit) (at_ : Int) : Nat := (vs.filter fun v => decide (at_ < (v.inst : Int))).length

/-- The DC blocker's window on either side, in output samples (17 R396). -/
def State.dcSide (s : State) (e : Nat) : Nat := 2 ^ (s.reg F.fltChCfgDcw e - 1)

/-- How many steps of the resampler grid from an output's instant the last resampler output lies that enters it, by D_g (17 R398). -/
def State.reach (s : State) (e side : Nat) : Nat := s.decim e * (side + s.notchK e) + 23 * (s.decim e - 1)

/-- The instants of a channel's resampler grid in the cycles it knows (17 R390). -/
def State.resampleGrid (s : State) (e : Nat) : List (Nat × Nat) :=
  if s.locked e then lockedGrid (s.reg F.fltChRateCount e * s.decim e) (s.chan e).cycles else []

/-- The visit samples that the output at `g` rests on have come: eight after the last resampler output that enters it, in every state
of DCB (17 R393, R396, R398; log entry 218). -/
def State.inputsIn (s : State) (e g : Nat) : Bool :=
  match s.resampleAt e g (s.resampleGrid e) (s.reach e (s.dcSide e)) with
  | some x => decide (8 ≤ visitsFrom (s.chan e).visits (x + s.phaseNs e))
  | none => false

/-- An output may be formed (17 R398): its entry is below LEN (R401), D_g has passed since g + PHASE_NS, and its inputs have come. -/
def State.outputDue (s : State) (e : Nat) : Bool :=
  match s.nextG e with
  | none => false
  | some (g, p) =>
    let d := s.groupDelay e p
    decide (e < s.reg F.cnvSeqCtlLen) && s.inputsIn e g && decide ((g + s.phaseNs e) * d.2 + d.1 ≤ (s.now : Int) * d.2)

/-- The channel is forming outputs (17 R403): its sequencer runs, its entry is below LEN, and it has had an input since its restart. -/
def State.forming (s : State) (e : Nat) : Bool :=
  (s.chan e).first.isSome && s.flag F.cnvCtlEn && decide (e < s.reg F.cnvSeqCtlLen)

/-! ## Restarts (17 R401) -/

/-- The cycles a mains-locked channel starts from: the one in progress, and the one before, in which its first visit sample may lie. -/
def State.cyclesNow (s : State) (e : Nat) : List (Nat × Nat) :=
  let x := s.timer (s.fltSource e)
  if s.locked e && !x.fresh then x.prev.toList ++ [(x.anchor, x.period)] else []

/-- A channel restarted: histories cleared, the result register 0 until its next output; counted, but at the first visit
sample ever. -/
def State.restartChan (s : State) (e : Nat) (counted : Bool) : State :=
  let c := s.chan e
  let s := s.setChan e { c with
    first := none
    visits := []
    steady := none
    interval := none
    longest := 0
    cycles := s.cyclesNow e
    mean := 0
    good := none }
  let s := (s.setReg F.cnvResValue e 0 0).setReg F.cnvResQuality e 0 0
  if counted then s.bump F.fltCntRestart else s

/-- A visit sample is late (17 R401): more than 16 times the larger of the previous input interval and the resampler period
after the one before. Without a previous interval none is late (log entry 90). -/
def State.late (s : State) (e gap : Nat) : Bool :=
  match (s.chan e).interval with
  | none => false
  | some i =>
    let t := s.outStep e (s.timerPeriod (s.fltSource e))
    let tr := (t.1, t.2 * s.decim e)
    decide (16 * i < gap) && decide (16 * tr.1 < gap * tr.2)

/-- A visit sample arrives at its channel (17 R389, R393, R401). -/
def State.visitIn (s : State) (e : Nat) (v : Visit) : State :=
  let c := s.chan e
  let gap : Option Nat := c.visits.getLast?.map fun u => v.inst - u.inst
  let late := match gap with
    | some g => s.late e g
    | none => false
  let s := if !c.seen then s.restartChan e false else if late then s.restartChan e true else s
  let c := s.chan e
  s.setChan e { c with
    seen := true
    first := some (c.first.getD v.inst)
    mean := if c.first.isNone && s.flag F.fltChCfgFast e then v.value else c.mean
    visits := c.visits ++ [v]
    steady := if c.first.isNone then some v.value else if c.steady = some v.value then c.steady else none
    interval := gap
    longest := match c.first, gap with
      | some _, some g => max c.longest g
      | _, _ => c.longest }

/-! ## Hand-over (17 R403) -/

/-- A snapshot's values for one channel. -/
def chanSnap (snap : List (Nat × Word)) (e : Nat) : List (Nat × Word) :=
  snap.filter fun x => decide (x.1 = famAddr .fltChCfg e 0) || decide (x.1 = famAddr .fltChRate e 0) ||
    decide (x.1 = famAddr .fltChPhase e 0)

/-- What a change of which restarts a channel: HB, NOTCH, DCW, FAST, MODE, SRC, COUNT. -/
def State.chanShape (s : State) (e : Nat) : List Nat :=
  [s.reg F.fltChCfgHb e, s.reg F.fltChCfgNotch e, s.reg F.fltChCfgDcw e, s.reg F.fltChCfgFast e, s.reg F.fltChRateMode e,
    s.reg F.fltChRateSrc e, s.reg F.fltChRateCount e]

/-- A channel applies a snapshot that waits for it. -/
def State.chanBoundary (s : State) (e : Nat) : State :=
  let c := s.regs.com .fltCommit 0
  if c.pend && c.waiting.contains e then
    let old := s.chanShape e
    let w := c.waiting.filter fun m => decide (m ≠ e)
    let s := (chanSnap c.snap e).foldl (fun s x => s.applyReg x.1 x.2) s
    let s := if s.chanShape e = old then s else s.restartChan e true
    if w.isEmpty then s.handedOver .fltCommit 0 else s.stillWait .fltCommit 0 w
  else s

/-- The channels that form no outputs apply a snapshot at once. -/
def State.idleChans (s : State) : State :=
  (List.range 32).foldl (fun s e => if s.forming e then s else s.chanBoundary e) s

/-- A FLT snapshot taken. -/
def State.fltGo (s : State) : State :=
  let c := s.regs.com .fltCommit 0
  ({ s with regs := s.regs.setCom .fltCommit 0 { c with waiting := List.range 32 } }).idleChans

/-- The registers involved in the conditions of 17 R403 that one channel's shadows fail: of each failing condition, the lowest
register that holds a field it names (04 R94; log entry 217). -/
def State.chanBad (s : State) (e : Nat) : List Nat :=
  let r := s.regs
  let hb := r.shadow F.fltChCfgHb e
  let dcw := r.shadow F.fltChCfgDcw e
  let notch := r.shadow F.fltChCfgNotch e
  let fast := r.shadow F.fltChCfgFast e
  let mode := r.shadow F.fltChRateMode e
  let n := r.shadow F.fltChRateCount e
  let ph := signed 32 (r.shadow F.fltChPhasePhaseNs e)
  let cfg := famAddr .fltChCfg e 0
  let rate := famAddr .fltChRate e 0
  let when (bad : Bool) (a : Nat) : List Nat := if bad then [a] else []
  let fixed := decide (mode = 0)
  when (decide (6 < hb) || decide (dcw < 4) || decide (2 < notch)) cfg ++
  when (fixed && decide (n < 32 * 2 ^ hb)) cfg ++
  when (fixed && decide (16000000 < n)) rate ++
  when (!fixed && (decide (26 < r.shadow F.fltChRateSrc e) || decide (n = 0) || decide (256 < n))) rate ++
  when (!fixed && decide (480 < n * 2 ^ hb)) cfg ++
  when (fixed && ((decide (notch = 1) && decide (5000 < n)) || (decide (notch = 2) && decide (4166 < n)))) cfg ++
  when (!fixed && decide (notch ≠ 0) && decide (n < 4)) cfg ++
  when (decide (fast = 1) && ((fixed && decide (n < 1000)) || (!fixed && decide (15 < n)))) cfg ++
  when (decide (ph < -1000000) || decide (1000000 < ph)) (famAddr .fltChPhase e 0)

/-- The register that COMMIT_CONFLICT names at GO for FLT. -/
def State.fltConflict (s : State) : Option Nat := ((List.range 32).flatMap fun e => s.chanBad e).min?

/-! ## What an output rests on (17 R399, R400) -/

/-- 1 in 2^-40. -/
def unity : Nat := 1099511627776

/-- A quotient in 2^-40; how it is rounded is free (log entry 93). -/
def openDiv (num : Int) (den : Nat) : Int := if num % den = 0 then num / den else num / den + Config.freeNat 2 num.natAbs % 2

/-- The sum of some numbers. -/
def sumOf (l : List Int) : Int := l.foldl (fun (a : Int) x => a + x) 0

/-- The 16 taps of a phase of the resampler (17 R393). Their sum is 1, since an input that holds steady comes out exact (R402); those
past the 256th phase are phase 0 of the next visit sample. All else is free (log entry 252). -/
def resampleTaps (p : Nat) : List Int :=
  let free := (List.range 16).map fun j => if j = 7 ∨ p % 256 = 0 ∧ j = 15 then 0 else Config.resampleTap (p % 256) j
  let l := free.set 7 (unity - sumOf free)
  if p < 256 then l else 0 :: l.take 15

/-- The resampler's output at the fraction num / den on its 16 visit samples: between the two nearest phases, linearly (17 R393). -/
def resample (num den : Nat) (xs : List Int) : Int :=
  let p := 256 * num / den
  let r := 256 * num % den
  let taps := List.zipWith (fun (a b : Int) => a * (den - r : Nat) + b * r) (resampleTaps p) (resampleTaps (p + 1))
  openDiv (sumOf (List.zipWith (· * ·) taps xs)) (den * unity)

/-- A tap of a half-band stage at an offset from its centre (17 R394): symmetric, 1/2 at the centre, 0 at the other even offsets, and
1 in sum; all else is free (log entries 92 and 252). -/
def hbTap (o : Int) : Int :=
  let rest := (List.range 11).map fun i => Config.halfBandTap (i + 1)
  if o = 0 then unity / 2
  else if o % 2 = 0 ∨ 23 < o.natAbs then 0
  else if o.natAbs = 1 then unity / 4 - sumOf rest
  else Config.halfBandTap (o.natAbs / 2)

/-- A FIR of taps in 2^-40. -/
def fir (taps xs : List Int) : Int := openDiv (sumOf (List.zipWith (· * ·) taps xs)) unity

/-- The taps from `-k` to `k` of a filter. -/
def tapList (k : Nat) (tap : Int → Int) : List Int := (List.range (2 * k + 1)).map fun (i : Nat) => tap ((i : Int) - k)

/-- A tap of the notch at an offset from its centre (17 R395): symmetric and 1 in sum; all else is free, by PERIOD_US and NOTCH, or by
N alone on a mains-locked grid (log entries 91 and 252). -/
def State.notchTap (s : State) (e : Nat) (m : Int) : Int :=
  let k := s.notchK e
  let design := s.reg F.fltChRateCount e * 4 + (if s.locked e then 3 else s.reg F.fltChCfgNotch e)
  if k < m.natAbs then 0
  else if m = 0 then unity - 2 * sumOf ((List.range k).map fun i => Config.notchTap design (i + 1))
  else Config.notchTap design m.natAbs

/-- A resampler output `p` steps from the output's instant enters it through taps of the half-band stages that are not zero (17 R399).
-/
def halfBandEnters : Nat → Int → Bool
  | 0, p => decide (p = 0)
  | hb + 1, p => (List.range 47).any fun i =>
      let o : Int := (i : Int) - 23
      decide ((p - o) % 2 = 0) && decide (hbTap o ≠ 0) && halfBandEnters hb ((p - o) / 2)

/-- The steps of the resampler grid that enter an output. -/
def State.tapsOf (s : State) (e : Nat) : List Int :=
  let d := s.decim e
  let r : Nat := 23 * (d - 1)
  let hb := (List.range (2 * r + 1)).filterMap fun (i : Nat) =>
    let p : Int := (i : Int) - (r : Int)
    if halfBandEnters (s.reg F.fltChCfgHb e) p then some p else none
  let k := s.notchK e
  let notch := (List.range (2 * k + 1)).filterMap fun (i : Nat) =>
    let m : Int := (i : Int) - (k : Int)
    if s.notchTap e m ≠ 0 then some m else none
  notch.flatMap fun m => hb.map fun p => p + m * d

/-- The visit samples that contribute to the output at `g`: for each resampler output, the sample before it, the seven before
that and the eight after it (17 R393, R399). -/
def State.contributing (s : State) (e g : Nat) : List Visit :=
  let vs := (s.chan e).visits
  let grid := s.resampleGrid e
  let at_ : List Int := (s.tapsOf e).filterMap fun p => (s.resampleAt e g grid p).map fun x => x + s.phaseNs e
  let used := at_.filterMap fun x =>
    let n := (vs.takeWhile fun v => decide ((v.inst : Int) ≤ x)).length
    if 0 < n ∧ n < vs.length then some (n - 1) else none
  (vs.zipIdx.filter fun v => used.any fun i => decide (i ≤ v.2 + 7) && decide (v.2 ≤ i + 8)).map (·.1)

/-- RANGE_SETTLING (17 R400). -/
def State.rangeSettling (s : State) (e g p : Nat) : Bool :=
  let t := s.outStep e p
  (s.chan e).visits.any fun v => v.chg.any fun i =>
    let d : Int := 2 * ((i : Int) - g - s.phaseNs e) * t.2
    decide (-(t.1 : Int) ≤ d) && decide (d < t.1)

/-- FILTER_SETTLING (17 R402). -/
def State.filterSettling (s : State) (e g p : Nat) : Bool :=
  let c := s.chan e
  let d := s.groupDelay e p
  match c.first with
  | some f => !s.flag F.fltChCfgFast e &&
      decide (((g : Int) + s.phaseNs e - f) * d.2 < 2 * (d.1 : Int) + 16 * c.longest * d.2)
  | none => false

/-! ## The chain (17 R392 to R397) -/

/-- What a restart fills the histories with (17 R401, R402): the first visit sample with FAST 1, otherwise 0. -/
def State.fill (s : State) (e : Nat) : Int :=
  match s.flag F.fltChCfgFast e, (s.chan e).visits with
  | true, v :: _ => v.value
  | _, _ => 0

/-- The resampler's output for the input at instant `x` (17 R393): from the visit samples `i` and `i + 1` about it, the 16
from `i - 7` to `i + 8`, those before the restart being `fill`. None before the first visit sample: a history as the restart
left it. -/
def resampled (vs : List Visit) (fill x : Int) : Option Int :=
  let n := (vs.takeWhile fun v => decide ((v.inst : Int) ≤ x)).length
  match vs.drop (n - 1) with
  | a :: b :: _ =>
    if n = 0 then none
    else
      let past := List.replicate (8 - n) fill ++ ((vs.take n).drop (n - 8)).map (·.value)
      let next := ((vs.drop n).take 8).map (·.value)
      some (resample (x - a.inst).toNat (b.inst - a.inst) (past ++ next))
  | _ => none

/-- A FIR of `len` taps run over a signal, an output every `step` inputs. Where nothing but history as the restart left it lies in
its window, so is its output. -/
def runFir (f : List Int → Int) (fill : Int) (len step : Nat) : Nat → List (Option Int) → List (Option Int)
  | 0, _ => []
  | n + 1, xs =>
    let w := xs.take len
    (if w.all (·.isNone) then none else some (f (w.map fun x => x.getD fill))) :: runFir f fill len step n (xs.drop step)

/-- The half-band stages (17 R394): `n` outputs of the last of `hb` stages, from 2^hb (n - 1) + 46 (2^hb - 1) + 1 inputs. -/
def halfBands (fill : Int) : Nat → Nat → List (Option Int) → List (Option Int)
  | 0, n, xs => xs.take n
  | hb + 1, n, xs =>
    let m := 2 ^ hb * (n - 1) + 46 * (2 ^ hb - 1) + 1
    halfBands fill hb n (runFir (fir (tapList 23 hbTap)) fill 47 2 m xs)

/-- The inputs of the DC blocker for the output at `g` (17 R392 to R396): the outputs of the notch, or of the last half-band
stage where it is off, from 2^(DCW - 1) output intervals before `g` to as many after. With DCB 0 or 2 only the one at `g`
enters the output itself. -/
def State.dcInputs (s : State) (e g side : Nat) : List Int :=
  let vs := (s.chan e).visits
  let fill := s.fill e
  let k := s.notchK e
  let hb := s.reg F.fltChCfgHb e
  let n := 2 * (side + k) + 1
  let reach := s.reach e side
  let grid := s.resampleGrid e
  let xs := (List.range (2 * reach + 1)).map fun (i : Nat) =>
    match s.resampleAt e g grid ((i : Int) - (reach : Int)) with
    | some x => resampled vs fill (x + s.phaseNs e)
    | none => none
  let ys := halfBands fill hb n xs
  let zs := if k = 0 then ys
    else runFir (fir (tapList k (s.notchTap e))) fill (2 * k + 1) 1 (2 * side + 1) ys
  zs.map fun z => z.getD fill

/-- The mean of 2^DCW + 1 samples in 2^-40; how it is rounded is free (log entry 93). -/
def State.dcMean (s : State) (xs : List Int) : Int :=
  let sum : Int := xs.foldl (fun (a : Int) x => a + x) 0
  let n : Nat := max 1 xs.length
  if sum % n = 0 then sum / n else sum / n + s.draw 960 2

/-- The chain's result in 2^-40 (17 R396), and the mean that the DC blocker has then, kept in every state of DCB and held in 2. With FAST
an input that holds steady since the restart is exact (17 R402). -/
def State.chainOut (s : State) (e g : Nat) : Int × Int :=
  let c := s.chan e
  let side := s.dcSide e
  match s.flag F.fltChCfgFast e, c.steady with
  | true, some v => let m := if c.dcb = 2 then c.mean else v; (if c.dcb = 0 then v else v - m, m)
  | _, _ =>
    let xs := s.dcInputs e g side
    let x := xs.getD side 0
    let m := if c.dcb = 2 then c.mean else s.dcMean xs
    (if c.dcb = 0 then x else x - m, m)

/-- X of a result in 2^-40 and whether it was saturated (17 R397). -/
def outX (y : Int) : Int × Bool := let x := roundEven y 512; held (-2147483648) 2147483647 x

/-! ## The result stage (16 R377 to R380) -/

/-- The greatest number whose square is not above `n`, by bits from 2^k down. -/
def isqrt : Nat → Nat → Nat → Nat
  | 0, _, r => r
  | k + 1, n, r => let r' := r + 2 ^ k; if r' * r' ≤ n then isqrt k n r' else isqrt k n r

/-- The square root of n / 2^31 rounded to a whole number, a tie to the even one. -/
def roundSqrt (n : Nat) : Nat :=
  let r := isqrt 48 (n / 2 ^ 31) 0
  let mid := (2 * r + 1) * (2 * r + 1) * 2 ^ 29
  if n < mid then r else if mid < n then r + 1 else if r % 2 = 0 then r else r + 1

/-- 10^23 times the Callendar–Van Dusen ratio at a temperature of `t` hundredths of a degree (16 R378). -/
def cvd (t : Int) : Int :=
  100000000000000000000000 + 3908300000000000000 * t - 5775000000000 * t * t -
    (if t < 0 then 4183 * (t - 10000) * t * t * t else 0)

/-- The greatest temperature in the range whose ratio times `den` is not above `num` (times 10^23), from `t` up by steps of
halving size. -/
def cvdFind : Nat → Int → Int → Int → Int
  | 0, _, _, t => t
  | k + 1, num, den, t =>
    let t' := t + 2 ^ k
    if t' ≤ 85000 ∧ cvd t' * den ≤ num then cvdFind k num den t' else cvdFind k num den t

/-- The temperature of a platinum resistor (16 R378, CURVE 1). Computation may add up to 0.01 degrees, so which of the hundredths
next to the exact value it gives is free. -/
def State.rtdValue (s : State) (x pa pb : Int) : Int × Bool :=
  if 2147483648 ≤ x then (85000, true)
  else
    let num := pb * x * 100000000000000000000000
    let den := pa * (2147483648 - x)
    if num < cvd (-20000) * den then (-20000, true)
    else if cvd 85000 * den < num then (85000, true)
    else
      let t := cvdFind 17 num den (-20000)
      let d : Int := if cvd t * den = num then (s.draw 962 3 : Int) - 1 else s.draw 962 2
      (clampI (-20000) 85000 (t + d), false)

/-- The die temperature in 0.01 °C: a measurement, so free. -/
def State.dieTemp (s : State) : Int := signed 24 (Config.freeInt s.free 963 % 16777216).toNat

/-- VALUE of a result is neither OPEN, OVER nor CLAMP. -/
def goodQuality (q : Nat) : Bool := bit q 7 && !bit q 6 && !bit q 5 && !bit q 3

/-- The cold-junction temperature of a thermocouple entry, and CJC (16 R379): the source's latest VALUE; a substitute is its last
valid one, or the die temperature. -/
def State.coldJunction (s : State) (e : Nat) : Int × Bool :=
  let cj := s.reg F.cnvEntLinCj e
  if 32 ≤ cj then (s.dieTemp, false)
  else if goodQuality (s.resQuality cj) then (s.resValue cj, false)
  else ((s.chan cj).good.getD s.dieTemp, true)

/-- The temperature of a thermocouple (16 R378): its EMF x 2,500,000 uV and that of the cold junction through the inverse
function, PB added. Computation may add up to 0.01 degrees. -/
def State.thermocouple (s : State) (c : Nat) (x pb tc : Int) : Int :=
  Config.thermoTemp c (x * 2500000 + Config.thermoEmf c tc) + pb + (s.draw 962 3 : Int) - 1

/-- VALUE of an output, CLAMP and CJC, from X (16 R362, R377 to R379). -/
def State.linearise (s : State) (e : Nat) (x : Int) : Int × Bool × Bool :=
  let chan := s.reg F.cnvEntCfgChan e
  let pa := signed 32 (s.reg F.cnvEntPaParam e)
  let pb := signed 32 (s.reg F.cnvEntPbParam e)
  let plain (v : Int) : Int × Bool × Bool := let h := held (-8388608) 8388607 v; (h.1, h.2, false)
  if chan = 16 then plain (roundEven (x * 2500000) 2147483648)
  else if chan = 17 ∨ chan = 18 ∨ chan = 19 then plain (roundEven (x * 5000000) 2147483648)
  else if chan = 20 then (s.dieTemp, false, false)
  else if chan = 21 then plain (roundEven x 256)
  else
    match s.reg F.cnvEntLinCurve e with
    | 0 => plain (roundEven x 256)
    | 1 => let h := s.rtdValue x pa pb; (h.1, h.2, false)
    | 10 => plain (roundEven (pa * x) 2147483648 + pb)
    | 11 =>
      if x < 0 then plain pb
      else
        let r : Int := roundSqrt (pa.natAbs * pa.natAbs * x.toNat)
        plain ((if pa < 0 then -r else r) + pb)
    | c =>
      match curveInfo c with
      | some (_, _, lo, hi) =>
        let cj := s.coldJunction e
        let h := held lo hi (s.thermocouple c x pb cj.1)
        (h.1, h.2, cj.2)
      | none => (0, false, false)

/-- QUALITY (16 R380). -/
def quality (opened beyond settle clamp cjc filter : Bool) : Nat :=
  128 + b2n opened * 64 + b2n beyond * 32 + b2n settle * 16 + b2n clamp * 8 + b2n cjc * 4 + b2n filter * 2

/-! ## The stream (17 R404) -/

/-- The ring base and its entries. -/
def State.strmBase (s : State) : Nat := s.reg F.fltStrmAddrHi * 2 ^ 32 + s.reg F.fltStrmAddrLo
def State.strmLen (s : State) : Nat := 2 ^ max 8 (s.reg F.fltStrmCtlLog2size)

/-- The ring may be written whole, and is aligned. -/
def State.strmOk (s : State) : Bool :=
  decide (s.strmBase % 32 = 0) && (firstBad (mayWrite s.mem) s.strmBase (32 * s.strmLen)).isNone

/-- EN set, once the ring has been checked: WIDX is 0. -/
def State.strmStart (s : State) : State := (s.setReg F.fltStrmCtlEn 0 0 1).setReg F.fltStrmWidxWidx 0 0 0

/-- STREAM_ENABLE (17 R404): a ring that may not be written whole refuses the write. -/
def execStreamEnable (t : Nat) (s : State) : Host.Outcome State Fault Refusal :=
  whenOn t (fun s =>
    if s.flag F.fltStrmCtlEn = false ∧ s.strmOk = true then s.strmStart.kept s .fltStrmCtl 0 else s) s

/-- An output written to the stream, through one of the firmware spools; which is not stated. -/
def State.strmPut (s : State) (e q g : Nat) (v x : Int) : State :=
  if s.flag F.fltStrmCtlEn && bit (s.reg F.fltStrmMaskMask) e then
    let k := s.reg F.fltStrmWidxWidx
    let body := be 1 e ++ be 1 q ++ s.open8s 970 2 ++ be 4 (twos 32 v) ++ be 4 (twos 32 x) ++ be 4 s.lin.epoch ++ be 8 g ++
      s.open8s 972 8
    let s := (s.writeMem 0x62 (s.strmBase + 32 * (k % s.strmLen)) body).1
    (s.spoolMoved (96 + s.draw 969 96) 32).wrapBy F.fltStrmWidxWidx 0 1
  else s

/-! ## Outputs -/

/-- The visit samples and cycles that no later output needs are forgotten. -/
def State.prune (s : State) (e : Nat) : State :=
  let c := s.chan e
  match c.lastG with
  | none => s
  | some g =>
    let p := s.timerPeriod (s.fltSource e)
    let d := s.groupDelay e p
    let horizon : Int := (g : Int) - 2 * ((d.1 / d.2 : Nat) : Int) - 4000000
    let old := (c.visits.takeWhile fun v => decide ((v.inst : Int) < horizon)).length
    let oldC := (c.cycles.takeWhile fun x => decide ((x.1 + 2 * x.2 : Nat) < horizon)).length
    s.setChan e { c with visits := c.visits.drop (old - 16), cycles := c.cycles.drop (oldC - 1) }

/-- An output formed for grid instant `g` (17 R397 to R404; 16 R377 to R380, R384). DCB takes effect at the boundary before it (R396;
log entry 253). -/
def State.output (s : State) (e g p : Nat) : State :=
  let s := s.setChan e { s.chan e with dcb := s.reg F.fltChCfgDcb e }
  let c := s.chan e
  let vs := s.contributing e g
  let y := s.chainOut e g
  let xo := outX y.1
  let opened := vs.any (·.opened)
  let beyond := vs.any (·.beyond) || xo.2
  let v := s.linearise e xo.1
  let fs := s.filterSettling e g p
  let q := quality opened beyond (s.rangeSettling e g p) v.2.1 v.2.2 fs
  let s := (s.setReg F.cnvResValue e 0 (twos 24 v.1)).setReg F.cnvResQuality e 0 q
  let s := s.setChan e { c with
    lastG := some g
    settling := fs
    epoch := s.lin.epoch
    ns := g
    mean := y.2
    good := if goodQuality q then some v.1 else c.good }
  let s := s.loopsOutput e opened (beyond || v.2.1)
  let s := s.strmPut e q g v.1 xo.1
  (s.prune e).chanBoundary e

/-- FILTER_OUTPUT (17 R398): the next output of a channel, once it is due. -/
def execFilterOutput (t e : Nat) (s : State) : Host.Outcome State Fault Refusal :=
  whenOn t (fun s =>
    if e < 32 ∧ s.outputDue e = true then
      match s.nextG e with
      | some (g, p) => s.output e g p
      | none => s
    else s) s

/-- SENS RESULTS served (16 R381). -/
def State.serveResults (s : State) (f : Flight) : State :=
  let first := octet f.operand 0
  let n := octet f.operand 1
  if f.operand.length ≠ 2 ∨ n = 0 then s.finish f false Status.badLength []
  else if 32 < first + n then s.finish f false Status.badAddress []
  else s.finish f false Status.ok ((List.range n).flatMap fun i =>
    let c := s.chan (first + i)
    be 3 (s.reg F.cnvResValue (first + i)) ++ be 1 (s.reg F.cnvResQuality (first + i)) ++ 
      (if bit (s.reg F.cnvResQuality (first + i)) 7 then be 4 c.epoch ++ be 8 c.ns else s.open8s (12 * i) 12))

end Sys2Proof.Machine
end

