-- ==== Sys2Proof/Machine/Site.lean ====
section
/-!
DEFINITION. Machine/Site.lean: the site front end (16 R359 to R376): the reference, the excitations and wire breaks, the
sequencer with its triggers and visits, gain, and raw and visit samples (17 R389).
-/

namespace Sys2Proof.Machine

open Sys2Proof

/-! ## Access -/

/-- The site front end right after it has been restored. -/
def Cnv.init : Cnv :=
  { refAt := 0, ready := false, state := 0, seqs := 0, entry := 0, cal := false, enAt := 0, due := 0, visit := 0,
    raws := [], gain := 0, peak := 0, gains := [], falls := [], used := [], excs := [] }

/-- The site front end changed. -/
def State.setCnv (s : State) (c : Cnv) : State := { s with cnv := c }

/-- CNV_STATUS.CAL_CONV: the correction has converged since EN was set, at the latest after 500 ms (16 R365). -/
def State.cnvConverged (s : State) : Bool := s.cnv.cal || (s.flag F.cnvCtlEn && decide (s.cnv.enAt + 500 * ms ≤ s.now))

/-- CNV_STATUS.REF_WAIT. -/
def State.refWait (s : State) : Bool := s.flag F.cnvCtlEn && !s.cnv.ready

/-- An input of SI0 to SI15. -/
def State.external (s : State) (e : Nat) : Bool := decide (s.reg F.cnvEntCfgChan e < 16)

/-- The gain code an entry may use at most (16 R362). -/
def State.topGain (s : State) (e : Nat) : Nat :=
  let c := s.reg F.cnvEntCfgChan e
  if c < 16 ∨ c = 21 then s.reg F.cnvEntCfgGain e else 0

/-- AUTO of an entry, which only the external inputs use. -/
def State.autoGain (s : State) (e : Nat) : Bool := s.external e && s.flag F.cnvEntCfgAuto e

/-- The gain code at which a visit of an entry starts (16 R364). -/
def State.startGain (s : State) (e : Nat) : Nat :=
  let top := s.topGain e
  match s.autoGain e, tget? s.cnv.gains e with
  | true, some (g, peak) => min top (if peak * 2 ^ (g + 1) < 65536 * 128 then g + 1 else g)
  | _, _ => top

/-- D of an entry, and the instants of a visit that started at `v` (16 R366). -/
def State.chops (s : State) (e : Nat) : Nat := s.reg F.cnvEntCfgDwell e + 1
def State.dwellAt (s : State) (e v : Nat) : Nat := v + (4 + min 2000 (s.reg F.cnvEntCfgSettle e)) * us
def State.dwellEnd (s : State) (e v : Nat) : Nat := s.dwellAt e v + 32 * us * s.chops e

/-! ## The sequencer (16 R366 to R372) -/

/-- A visit to entry `e` starts at `v`: its switch begins. -/
def State.startVisit (s : State) (e v : Nat) : State :=
  s.setCnv { s.cnv with state := 3, entry := e, visit := v, raws := [], gain := s.startGain e, peak := 0 }

/-- The trigger sources' firings so far are no triggers for a source chosen later. -/
def State.forgetTriggers (s : State) : State :=
  let m := (List.range 4).filterMap fun n => (tget? s.mns.fired n).map fun t => (n + 1, t)
  let l := (List.range 4).filterMap fun n => ((s.loop n).fired).map fun t => (n + 5, t)
  s.setCnv { s.cnv with used := m ++ l }

/-- What a change of which restarts an entry (16 R371). -/
def State.entryShape (s : State) (e : Nat) : List Nat :=
  [s.reg F.cnvEntCfgChan e, s.reg F.cnvEntCfgExc e, s.reg F.cnvEntCfgRatio e, s.reg F.cnvEntLinCurve e]

/-- A pending CNV snapshot applied, and the entries that it changes restarted. -/
def State.cnvBoundary (s : State) : State :=
  let c := s.regs.com .cnvCommit 0
  if c.pend then
    let old := s
    let s := (c.snap.foldl (fun s x => s.applyReg x.1 x.2) s).handedOver .cnvCommit 0
    let s := (List.range 32).foldl (fun s e =>
      if s.entryShape e = old.entryShape e then s
      else (s.setCnv { s.cnv with gains := tdel s.cnv.gains e, falls := tdel s.cnv.falls e }).restartChan e true) s
    let s := if s.reg F.cnvSeqCtlTsrc = old.reg F.cnvSeqCtlTsrc ∧ s.flag F.cnvSeqCtlCont = old.flag F.cnvSeqCtlCont then s
      else s.forgetTriggers
    if s.reg F.cnvSeqCtlLen = old.reg F.cnvSeqCtlLen then s else s.idleChans
  else s

/-- A CNV snapshot taken: at once while no sequence runs. With CONT newly 1, sequences run from then on. -/
def State.cnvGo (s : State) : State :=
  if s.cnv.state < 2 then
    let s := s.cnvBoundary
    if s.cnv.state = 1 ∧ s.cnv.ready = true ∧ s.flag F.cnvSeqCtlCont = true then s.startVisit 0 s.now else s
  else s

/-- The registers involved in the conditions of 16 R371 that one entry's shadows fail: of each failing condition, the lowest
register that holds a field it names, CNV_SEQ_CTL for a CJ at or above LEN (04 R94; log entry 217). -/
def State.entryBad (s : State) (len e : Nat) : List Nat :=
  let r := s.regs
  let chan := r.shadow F.cnvEntCfgChan e
  let exc := r.shadow F.cnvEntCfgExc e
  let ratio := r.shadow F.cnvEntCfgRatio e
  let curve := r.shadow F.cnvEntLinCurve e
  let cj := r.shadow F.cnvEntLinCj e
  let cfg := famAddr .cnvEntCfg e 0
  let lin := famAddr .cnvEntLin e 0
  let tc := decide (3 ≤ curve) && decide (curve ≤ 9)
  let curveOfCj := r.shadow F.cnvEntLinCurve cj
  let source := decide (curveOfCj = 1) || (decide (3 ≤ curveOfCj) && decide (curveOfCj ≤ 9)) ||
    decide (r.shadow F.cnvEntCfgChan cj = 20)
  let when (bad : Bool) (a : Nat) : List Nat := if bad then [a] else []
  when (decide (21 < chan) || decide (4 < exc) || (decide (ratio = 1) && decide (exc = 4)) ||
    (decide (16 ≤ chan) && (decide (exc ≠ 4) || decide (ratio = 1))) || decide (2000 < r.shadow F.cnvEntCfgSettle e)) cfg ++
  when (decide (curve = 2) || decide (11 < curve)) lin ++
  when ((decide (curve = 1) && decide (ratio = 0)) || (tc && decide (ratio = 1))) cfg ++
  when (decide (curve = 1) && (decide (signed 32 (r.shadow F.cnvEntPaParam e) < 1) ||
    decide (signed 32 (r.shadow F.cnvEntPbParam e) < 1))) lin ++
  (if tc = false ∨ cj = 32 then []
   else if len ≤ cj then [famAddr .cnvSeqCtl 0 0]
   else if cj = e then [lin]
   else if source then [] else [min lin (famAddr .cnvEntCfg cj 0)])

/-- The register that COMMIT_CONFLICT names at GO for CNV. -/
def State.cnvConflict (s : State) : Option Nat :=
  let len := s.regs.shadow F.cnvSeqCtlLen
  if len = 0 ∨ 32 < len ∨ 8 < s.regs.shadow F.cnvSeqCtlTsrc then some (famAddr .cnvSeqCtl 0 0)
  else ((List.range len).flatMap fun e => s.entryBad len e).min?

/-- CNV_CTL.EN set (16 R372): every channel restarts (17 R401); STATE 1, or sequences back to back. -/
def State.cnvEnable (s : State) : State :=
  let s := s.setReg F.cnvCtlEn 0 0 1
  let s := (List.range 32).foldl (fun s e => s.restartChan e true) s
  let s := s.setCnv { s.cnv with state := 1, cal := false, enAt := s.now, gains := [], falls := [], raws := [] }
  let s := s.forgetTriggers
  if s.cnv.ready && s.flag F.cnvSeqCtlCont then s.startVisit 0 s.now else s

/-- CNV_CTL.EN cleared: the visit in progress is abandoned, and a pending snapshot applies. -/
def State.cnvDisable (s : State) : State :=
  let s := s.setReg F.cnvCtlEn 0 0 0
  ((s.setCnv { s.cnv with state := 0, raws := [] }).cnvBoundary).idleChans

/-- A trigger that arrived at instant `f` (16 R367, R368). -/
def State.trigger (s : State) (f : Nat) : State :=
  if s.refWait || decide (2 ≤ s.cnv.state) then s.bump F.cnvCntTrigmiss
  else if s.cnv.state = 0 then s
  else s.setCnv { s.cnv with state := 2, due := f + s.reg F.cnvTrigDlyDelay * 100 }

/-- The latest firing of the trigger source TSRC names that has not been taken. -/
def State.firing (s : State) : Option Nat :=
  let n := s.reg F.cnvSeqCtlTsrc
  let f := if 1 ≤ n ∧ n ≤ 4 then tget? s.mns.fired (n - 1) else if 5 ≤ n ∧ n ≤ 8 then (s.loop (n - 5)).fired else none
  match f with
  | some t => if tget? s.cnv.used n = some t then none else some t
  | none => none

/-- REF_ENABLE (16 R359): SEN_REF.EN set. -/
def State.refEnable (s : State) : State :=
  let s := s.setReg F.senRefEn 0 0 1
  s.setCnv { s.cnv with refAt := s.now, ready := false }

def execRefEnable (t : Nat) (s : State) : Host.Outcome State Fault Refusal :=
  whenOn t (fun s =>
    if s.flag F.senRefEn = false ∧ s.flag F.cnvCtlEn = false then s.refEnable.kept s .senRef 0 else s) s

/-- REF_READY (16 R359): 2 ms after EN; in continuous mode the first sequence starts. -/
def execRefReady (t : Nat) (s : State) : Host.Outcome State Fault Refusal :=
  whenOn t (fun s =>
    if s.flag F.senRefEn = true ∧ s.cnv.ready = false ∧ s.cnv.refAt + 2 * ms ≤ s.now then
      let s := s.setCnv { s.cnv with ready := true }
      if s.cnv.state = 1 ∧ s.flag F.cnvSeqCtlCont = true then s.startVisit 0 s.now else s
    else s) s

/-- CNV_ENABLE (16 R372). -/
def execCnvEnable (t : Nat) (s : State) : Host.Outcome State Fault Refusal :=
  whenOn t (fun s => if s.flag F.cnvCtlEn then s else s.cnvEnable.kept s .cnvCtl 0) s

/-- CNV_DISABLE (16 R372). -/
def execCnvDisable (t : Nat) (s : State) : Host.Outcome State Fault Refusal :=
  whenOn t (fun s => if s.flag F.cnvCtlEn then s.cnvDisable.kept s .cnvCtl 0 else s) s

/-- CNV_CAL_CONVERGED (16 R365). 500 ms after EN it has happened at the latest (`State.cnvConverged`). -/
def execCnvCalConverged (t : Nat) (s : State) : Host.Outcome State Fault Refusal :=
  whenOn t (fun s => if s.flag F.cnvCtlEn then s.setCnv { s.cnv with cal := true } else s) s

/-- SWTRIG (16 R367, R368): a trigger under every TSRC; with CONT 1 a sequence is under way, so it is missed. -/
def execSwtrig (t : Nat) (s : State) : Host.Outcome State Fault Refusal :=
  whenOn t (fun s => s.trigger s.now) s

/-- SEQUENCE_TRIGGER (16 R367, R368): the source TSRC names has fired; under CONT 1 what has fired is ignored for good. -/
def execSequenceTrigger (t : Nat) (s : State) : Host.Outcome State Fault Refusal :=
  whenOn t (fun s =>
    if s.flag F.cnvSeqCtlCont then s.forgetTriggers
    else match s.firing with
      | some f => (s.setCnv { s.cnv with used := tset s.cnv.used (s.reg F.cnvSeqCtlTsrc) f }).trigger f
      | none => s) s

/-- SEQUENCE_START (16 R369, step 2): the delay has ended, within 50 ns. The sequence starts at the delay's end, whatever later
instant the command runs at (00 R4). -/
def execSequenceStart (t : Nat) (s : State) : Host.Outcome State Fault Refusal :=
  whenOn t (fun s =>
    if s.cnv.state = 2 ∧ s.cnv.due ≤ s.now + 50 then s.startVisit 0 s.cnv.due else s) s

/-! ## Raw samples (16 R363, R364, R370, R374; 17 R389) -/

/-- A converter sample at or beyond 98 % of full scale. -/
def nearFull (c : Int) : Bool := decide (98 * 131072 ≤ 100 * c.natAbs)

/-- A chop period's converter samples in order, 500 ns apart from `at_`: the gain at the end, the samples that form the raw
sample, OVER, the instant of the last fall in gain, and the greatest sample times 128 / G. -/
def chop (auto : Bool) : List Int → Nat → Nat → List Int → Bool → Option Nat → Nat → Nat × List Int × Bool × Option Nat × Nat
  | [], _, g, kept, beyond, fall, peak => (g, kept, beyond, fall, peak)
  | c :: r, at_, g, kept, beyond, fall, peak =>
    let peak := max peak (c.natAbs * 2 ^ (7 - g))
    if nearFull c && auto && decide (0 < g) then chop auto r (at_ + 500) (g - 3) [] false (some at_) peak
    else chop auto r (at_ + 500) g (kept ++ [c]) (beyond || nearFull c) fall peak

/-- The chop period from `a` to `b` overlaps an interval in which the samples of excitation `x` carry OPEN. -/
def State.openIn (s : State) (x a b : Nat) : Bool :=
  match tget? s.cnv.excs x with
  | some e => e.opens.any fun o => decide (o.1 < b) && (match o.2 with
    | some z => decide (a < z)
    | none => true)
  | none => false

/-- The mean of codes as a fraction of full scale divided by the gain, in 2^-40 of the reference; how it is rounded is free, and so
is the mean of no samples (log entry 93). -/
def State.rawValue (s : State) (codes : List Int) (g : Nat) : Int :=
  let n := codes.length * 2 ^ g
  if n = 0 then signed 41 (Config.freeInt s.free 980 % 2199023255552).toNat
  else
    let sum : Int := codes.foldl (fun (a : Int) c => a + c) 0 * 8388608
    if sum % n = 0 then sum / n else sum / n + s.draw 981 2

/-- A raw sample formed from the converter samples of the next chop period of the visit. -/
def State.rawSample (s : State) (codes : List Int) : State :=
  let c := s.cnv
  let e := c.entry
  let start := s.dwellAt e c.visit + 32 * us * c.raws.length
  let fin := start + 32 * us
  let r := chop (s.autoGain e) codes start c.gain [] false none c.peak
  let g := r.1
  let fall := r.2.2.2.1
  let falls := match fall with
    | some f => tset c.falls e f
    | none => c.falls
  let chg := match tget? falls e with
    | some f => decide (start < f + 64 * us)
    | none => false
  let raw : Raw :=
    { value := s.rawValue r.2.1 g, opened := s.openIn (s.entryExc e) start fin, beyond := r.2.2.1, chg := chg,
      centre := start + 16 * us, fin := fin }
  let s := s.setCnv { c with raws := c.raws ++ [raw], gain := g, peak := r.2.2.2.2, falls := falls }
  if r.2.2.1 then s.bump F.cnvCntOver else s

/-- RAW_SAMPLE (16 R370): the 64 converter samples of a chop period that has ended, 18 bits each. -/
def execRawSample (t : Nat) (codes : List Int) (s : State) : Host.Outcome State Fault Refusal :=
  whenOn t (fun s =>
    let e := s.cnv.entry
    if s.cnv.state = 3 ∧ s.cnv.raws.length < s.chops e ∧ codes.length = 64 ∧
        (codes.all fun c => decide (-131072 ≤ c) && decide (c ≤ 131071)) = true ∧
        s.dwellAt e s.cnv.visit + 32 * us * (s.cnv.raws.length + 1) ≤ s.now then s.rawSample codes
    else s) s

/-- The value of a visit sample (17 R389) times its divisor: the divisor is 1, 2, or 2 (D - 1). -/
def visitSum (xs : List Int) : Int × Nat :=
  let sum : Int := xs.foldl (fun (a : Int) x => a + x) 0
  if xs.length < 3 then (sum, max 1 xs.length)
  else (2 * sum - xs.headD 0 - xs.getLastD 0, 2 * (xs.length - 1))

/-- The visit sample of the visit in progress. -/
def State.visitSample (s : State) : Visit :=
  let c := s.cnv
  let v := visitSum (c.raws.map (·.value))
  let d := s.dwellAt c.entry c.visit
  { inst := d + 16 * us * s.chops c.entry
    fin := s.dwellEnd c.entry c.visit
    value := if v.1 % v.2 = 0 then v.1 / v.2 else v.1 / v.2 + s.draw 982 2
    opened := c.raws.any (·.opened)
    beyond := c.raws.any (·.beyond)
    chg := (c.raws.filter (·.chg)).map (·.centre) }

/-- The end of a sequence (16 R369, step 6). -/
def State.sequenceEnd (s : State) (fin : Nat) : State :=
  let s := s.setCnv { s.cnv with state := 1, raws := [], seqs := (s.cnv.seqs + 1) % 65536 }
  let s := s.cnvBoundary
  if s.flag F.cnvSeqCtlCont then s.startVisit 0 fin else s

/-- The end of a dwell: the visit sample goes to its channel, and the next entry switches or the sequence ends. -/
def State.dwellDone (s : State) : State :=
  let c := s.cnv
  let fin := s.dwellEnd c.entry c.visit
  let v := s.visitSample
  let s := s.setCnv { c with gains := tset c.gains c.entry (c.gain, c.peak) }
  let s := s.visitIn c.entry v
  if c.entry + 1 < s.reg F.cnvSeqCtlLen then s.startVisit (c.entry + 1) fin else s.sequenceEnd fin

/-- DWELL_END (16 R366, R369): every raw sample of the dwell has come, and it has ended. -/
def execDwellEnd (t : Nat) (s : State) : Host.Outcome State Fault Refusal :=
  whenOn t (fun s =>
    if s.cnv.state = 3 ∧ s.cnv.raws.length = s.chops s.cnv.entry ∧ s.dwellEnd s.cnv.entry s.cnv.visit ≤ s.now then s.dwellDone
    else s) s

/-! ## Wire breaks (16 R373 to R376) -/

/-- An excitation. -/
def State.exc (s : State) (n : Nat) : Exc := tget { broken := false, lastBreak := 0, opens := [] } s.cnv.excs n

/-- An excitation set. -/
def State.setExc (s : State) (n : Nat) (x : Exc) : State := s.setCnv { s.cnv with excs := tset s.cnv.excs n x }

/-- SIDE of a current in 10 uA against the window of an excitation: 1 below, 2 above, 0 inside. -/
def State.side (s : State) (n cur : Nat) : Nat :=
  let lo := s.reg F.senExCfgImin n
  let hi := s.reg F.senExCfgImax n
  if 0 < lo ∧ cur < lo * 10 then 1 else if 0 < hi ∧ hi * 10 < cur then 2 else 0

/-- ENTRIES of WIRE_BREAK. -/
def State.excEntries (s : State) (n : Nat) : Nat :=
  (List.range (min 32 (s.reg F.cnvSeqCtlLen))).foldl (fun (a : Nat) e => if s.entryExc e = n then a + 2 ^ e else a) 0

/-- WIRE_BREAK raised. -/
def State.wireEvent (s : State) (n state side cur : Nat) : State :=
  s.raise 0x701 0x60 n (be 1 state ++ be 1 side ++ be 2 cur ++ be 4 (s.excEntries n))

/-- Samples that ended later than `a` and were taken with excitation `n` carry OPEN. -/
def State.markOpen (s : State) (n a : Nat) : State :=
  let s := if s.entryExc s.cnv.entry = n then
      s.setCnv { s.cnv with raws := s.cnv.raws.map fun r => if a < r.fin then { r with opened := true } else r }
    else s
  { s with chans := s.chans.map fun c =>
                   if s.entryExc c.1 = n then
                     (c.1, { c.2 with visits := c.2.visits.map fun v => if a < v.fin then { v with opened := true } else v })
                   else c }

/-- A break detected (16 R373, R374): its samples carry OPEN from 8 us before. -/
def State.wireBreak (s : State) (n side cur : Nat) : State :=
  let x := s.exc n
  let a := s.now - 8 * us
  let s := s.setExc n { broken := true, lastBreak := s.now,
                        opens := if x.broken then x.opens else (a, none) :: x.opens.take 3 }
  let s := (s.setReg F.senExStatSeen n 0 1).bump F.senCntBreak
  let s := if x.broken then s else s.markOpen n a
  (s.loopsBreak n).wireEvent n 1 side cur

/-- What an excitation drives, in millivolts: MV held to 1,000 to 5,000 while EN is 1, otherwise 0 (16 R360), as in reset (02
R23). -/
def State.excDrive (s : State) (n : Nat) : Nat :=
  if s.pow.on && s.flag F.senExCfgEn n then clamp 1000 5000 (s.reg F.senExCfgMv n) else 0

/-- Four consecutive comparisons, 1 us apart, that lie outside the window; a current above the limit of 28.5 mA does not flow
(16 R360, R373). -/
def State.breaks (s : State) (n : Nat) (curs : List Nat) : Bool :=
  decide (s.excDrive n ≠ 0) && decide (curs.length = 4) && curs.all fun c => decide (c ≤ 2850) && decide (s.side n c ≠ 0)

/-- WIRE_BREAK (16 R373): the currents, in 10 uA, that 4 consecutive comparisons of excitation `n` saw. -/
def execWireBreak (t n : Nat) (curs : List Nat) (s : State) : Host.Outcome State Fault Refusal :=
  whenOn t (fun s =>
    let cur := curs.getLastD 0
    if n < 4 ∧ s.breaks n curs = true then s.wireBreak n (s.side n cur) cur else s) s

/-- WIRE_RESTORE (16 R375): the current, inside the window since `cur.since`, has stayed there for RECOVER_MS, at least 1, without a
break. -/
def execWireRestore (t n : Nat) (cur : InWindow) (s : State) : Host.Outcome State Fault Refusal :=
  whenOn t (fun s =>
    let x := s.exc n
    if n < 4 ∧ s.flag F.senExCfgEn n = true ∧ x.broken = true ∧ s.side n cur.cur = 0 ∧
        max x.lastBreak cur.since + max 1 (s.reg F.senBrkRecoverMs) * ms ≤ s.now then
      let s := s.setExc n { x with
        broken := false
        opens := match x.opens with
          | o :: r => (o.1, some s.now) :: r
          | [] => [] }
      s.wireEvent n 0 0 cur.cur
    else s) s

/-! ## SENS commands (04 SENS family) -/

/-- SENS_RESULTS (16 R381) arrives. -/
def execSensResults (t : Nat) (m : Inbound) (s : State) : Host.Outcome State Fault Refusal :=
  whenOn t (fun s => s.arriveFw m 0x501 Right.operate) s

/-- SENS_LOOP_SET (16 R384) arrives. -/
def execSensLoopSet (t : Nat) (m : Inbound) (s : State) : Host.Outcome State Fault Refusal :=
  whenOn t (fun s => s.arriveFw m 0x502 Right.operate) s

/-- SENS_CURVE_INFO (16 R382) arrives. -/
def execSensCurveInfo (t : Nat) (m : Inbound) (s : State) : Host.Outcome State Fault Refusal :=
  whenOn t (fun s => s.arriveFw m 0x503 Right.operate) s

end Sys2Proof.Machine
end

