-- ==== Sys2Proof/Machine/Spool.lean ====
section
/-!
DEFINITION. Machine/Spool.lean: the spools (15 R333 to R358): rings and descriptors, reshuffle and fold checks, bursts,
completion, doorbells, and starting and stopping.
-/

namespace Sys2Proof.Machine

open Sys2Proof

/-! ## Access -/

/-- A host spool (15 R333). -/
def hostSpool (n : Nat) : Bool := decide (192 ≤ n) && decide (n < 256)

/-- A local spool (15 R333). -/
def localSpool (n : Nat) : Bool := decide (256 ≤ n) && decide (n < 384)

/-- Where the hardware that a local spool is linked to lays its ring: in the SRAM's spool partition, behind the 16 KiB FIFOs of the 384
spools, 16 KiB for each (15 R333, R351; log entry 178). -/
def localRing (n : Nat) : Nat := sramBase .spools + 384 * 16384 + (n - 256) * 16384

/-- START. -/
def State.ringStart (s : State) (n : Nat) : Nat := s.reg F.splChRcfgStart n % s.ringLen n

/-- The active PACE. -/
def State.paceOf (s : State) (n : Nat) : Pace :=
  { burst := 64 * 2 ^ min 6 (s.reg F.splChPaceBurst n)
    high := 64 * s.reg F.splChPaceHigh n
    low := 64 * s.reg F.splChPaceLow n
    prio := s.reg F.splChPacePrio n }

/-! ## The descriptor (15 R335, R336) -/

def SpoolDesc.own (d : SpoolDesc) : Bool := bit (octet d.ctrl 0) 7
def SpoolDesc.hem (d : SpoolDesc) : Bool := bit (octet d.ctrl 0) 6
def SpoolDesc.bar (d : SpoolDesc) : Bool := bit (octet d.ctrl 0) 5
def SpoolDesc.irq (d : SpoolDesc) : Bool := bit (octet d.ctrl 0) 4
def SpoolDesc.fold (d : SpoolDesc) : Nat := octet d.ctrl 0 % 16
def SpoolDesc.mode (d : SpoolDesc) : Nat := octet d.ctrl 1 / 16
def SpoolDesc.ways (d : SpoolDesc) : Nat := octet d.ctrl 2
def SpoolDesc.esize (d : SpoolDesc) : Nat := 2 ^ (octet d.ctrl 3 / 64)
def SpoolDesc.nextEn (d : SpoolDesc) : Bool := bit (octet d.ctrl 3) 0
def SpoolDesc.len (d : SpoolDesc) : Nat := beAt d.ctrl 4 4
def SpoolDesc.src (d : SpoolDesc) : Nat := beAt d.body 0 8
def SpoolDesc.dst (d : SpoolDesc) : Nat := beAt d.body 8 8
def SpoolDesc.next (d : SpoolDesc) : Nat := beAt d.body 16 2

/-- The conditions of 15 R349 on WAYS, ESIZE and LEN. -/
def SpoolDesc.shapeOk (d : SpoolDesc) : Bool :=
  let e := d.esize
  let n := d.ways
  match d.mode with
  | 0 => true
  | 1 | 2 => decide (e ≤ 4) && decide (2 ≤ n) && decide (n ≤ 32) && decide (d.len % (n * e) = 0)
  | 3 => decide (e ≤ 4) && decide (2 ≤ n) && decide (n ≤ 16) && decide (n ≤ 8 * e) && decide (d.len % (8 * e) = 0)
  | 4 => decide (e ≤ 4) && decide (2 ≤ n) && decide (n ≤ 16) && decide (n ≤ 8 * e) && decide (d.len % n = 0)
  | _ => false

/-- A descriptor is invalid (15 R336). -/
def SpoolDesc.invalid (d : SpoolDesc) (size : Nat) : Bool :=
  decide (d.len = 0) || decide (16777216 < d.len) || decide (6 < d.fold) || !d.shapeOk || (d.nextEn && decide (size ≤ d.next))

/-- The index after a descriptor (15 R338); a NEXT that is not below SIZE is not taken (log entry 80). -/
def SpoolDesc.after (d : SpoolDesc) (size : Nat) : Nat :=
  if d.nextEn ∧ d.next < size then d.next else (d.idx + 1) % size

/-! ## Reshuffle (15 R349, R350) -/

/-- The destination length. -/
def SpoolDesc.dlen (d : SpoolDesc) : Nat :=
  match d.mode with
  | 3 => d.ways * d.len / (8 * d.esize)
  | 4 => 8 * d.esize * d.len / d.ways
  | _ => d.len

/-- The source and destination ranges overlap, which leaves what the descriptor moves undefined (15 R336). -/
def SpoolDesc.overlaps (d : SpoolDesc) : Bool := decide (d.src < d.dst + d.dlen) && decide (d.dst < d.src + d.len)

/-- Bit `p` of source element `m`, elements big-endian. -/
def elementBit (e : Nat) (data : List Byte) (m p : Nat) : Bool := (data.getD (m * e + (e - 1 - p / 8)) 0).getLsbD (p % 8)

/-- An octet of eight bits, bit 0 of weight 1. -/
def octetOf (f : Nat → Bool) : Byte := BitVec.ofNat 8 ((List.range 8).foldl (fun (a : Nat) b => if f b then a + 2 ^ b else a) 0)

/-- Octet `o` of the destination range, from the source octets. -/
def SpoolDesc.outByte (d : SpoolDesc) (data : List Byte) (o : Nat) : Byte :=
  let e := d.esize
  let n := d.ways
  let blk := d.len / n
  match d.mode with
  | 1 => data.getD ((o % blk / e * n + o / blk) * e + o % e) 0
  | 2 => data.getD (o / e % n * blk + o / e / n * e + o % e) 0
  | 3 =>
    let k := d.len / e / 8
    octetOf fun b => elementBit e data (8 * (o % k) + b) (n - 1 - o / k)
  | 4 => octetOf fun b =>
      let p := 8 * (e - 1 - o % e) + b
      decide (p < n) && (data.getD ((n - 1 - p) * blk + o / e / 8) 0).getLsbD (o / e % 8)
  | _ => data.getD o 0

/-- The last source octet that octet `o` of the destination range rests on. -/
def SpoolDesc.restsOn (d : SpoolDesc) (o : Nat) : Nat :=
  let e := d.esize
  let n := d.ways
  let blk := d.len / n
  match d.mode with
  | 1 => (o % blk / e * n + o / blk) * e + o % e
  | 2 => o / e % n * blk + o / e / n * e + o % e
  | 3 => (8 * (o % (d.len / e / 8)) + 8) * e - 1
  | 4 => (n - 1) * blk + o / e / 8
  | _ => o

/-- The destination octets that become known as the source octets from `a` to `b - 1` are drained, by address. -/
def SpoolDesc.outputs (d : SpoolDesc) (a b : Nat) : List (Nat × Byte) :=
  ((List.range d.dlen).filter fun o => decide (a ≤ d.restsOn o) && decide (d.restsOn o < b)).map fun o =>
    (d.dst + o, d.outByte d.data o)

/-- Octets at rising addresses as runs of consecutive ones. -/
def runsOf : List (Nat × Byte) → List (Nat × List Byte)
  | [] => []
  | (a, v) :: l =>
    match runsOf l with
    | (b, r) :: t => if b = a + 1 then (a, v :: r) :: t else (a, [v]) :: (b, r) :: t
    | [] => [(a, [v])]

/-! ## Fold checks (15 R348) -/

/-- The polynomial of a FOLD, whether it verifies, and whether it generates. -/
def foldOf (v : Nat) : Nat × Bool × Bool :=
  match v with
  | 1 => (4, false, true)
  | 2 => (4, true, false)
  | 3 => (4, true, true)
  | 4 => (3, false, true)
  | 5 => (3, true, false)
  | 6 => (3, true, true)
  | _ => (4, false, false)

/-- A descriptor whose data has moved: its STATUS and CHECK (15 R347, R348). -/
def SpoolDesc.outcome (d : SpoolDesc) : Nat × List Byte :=
  let f := foldOf d.fold
  let was := cut d.body 20 4
  let seen := be 4 (crc f.1 (be 8 d.src) d.data)
  let made := be 4 (crc f.1 (be 8 d.dst) ((List.range d.dlen).map fun o => d.outByte d.data o))
  let bad := f.2.1 && decide (seen ≠ was)
  let check := if f.2.1 then (if f.2.2 && !bad then made else seen) else if f.2.2 then made else was
  (if bad then 1 else 0, check)

/-- The check units have a job of a descriptor's: its data has moved, and its FOLD names a check (14 R332). -/
def SpoolDesc.checked (d : SpoolDesc) : Bool := decide (d.status = 0) && ((foldOf d.fold).2.1 || (foldOf d.fold).2.2)

/-- A descriptor's check jobs, one to verify and one to generate (log entry 216). -/
def State.foldJobs (s : State) (d : SpoolDesc) : State :=
  let f := foldOf d.fold
  let seen := crc f.1 (be 8 d.src) d.data
  let made := crc f.1 (be 8 d.dst) ((List.range d.dlen).map fun o => d.outByte d.data o)
  let s := if d.checked && f.2.1 then s.checkDone seen (some (beAt d.body 20 4)) else s
  if d.checked && f.2.2 then s.checkDone made none else s

/-! ## Bursts: readiness (15 R351) -/

/-- The octets in a spool's staging FIFO. -/
def Spool.fill (x : Spool) : Nat := x.busy.foldl (fun (a : Nat) d => a + (d.data.length - d.drained)) 0

/-- A descriptor with octets still to read. -/
def SpoolDesc.reading (d : SpoolDesc) : Bool := decide (d.status = 0) && !d.broken && decide (d.data.length < d.len)

/-- The pace a descriptor goes by. -/
def SpoolDesc.paceIn (d : SpoolDesc) (now : Pace) : Pace := d.pace.getD now

/-- The octets of a descriptor's next read burst. -/
def SpoolDesc.readLen (d : SpoolDesc) (now : Pace) : Nat := min (d.paceIn now).burst (d.len - d.data.length)

/-- The descriptor whose read burst is ready. -/
def Spool.readReady (x : Spool) (now : Pace) : Option SpoolDesc :=
  if x.state = 0 ∨ x.opened = false then none
  else match x.busy.find? (·.reading) with
    | some d => if x.fill + d.readLen now ≤ 16384 then some d else none
    | none => none

/-- The descriptor whose write burst is ready: the first not yet drained, once its FIFO share holds a whole burst or the
rest of it; of one cut by MEM_ERROR what was read before may still be written (15 R347). -/
def Spool.writeReady (x : Spool) (now : Pace) : Option SpoolDesc :=
  if x.state = 0 then none
  else match x.busy.find? (fun d => !d.broken && d.held.isNone && decide (d.drained < d.len)) with
    | some d =>
      let have_ := d.data.length - d.drained
      if 0 < have_ ∧ ((d.paceIn now).burst ≤ have_ ∨ d.data.length = d.len ∨ d.status = 4) then some d else none
    | none => none

/-- A spool changed, keeping since when its bursts have been ready (15 R352). -/
def State.putSp (s : State) (n : Nat) (x : Spool) (read write : Bool) : State :=
  let old := s.sp n
  let p := s.paceOf n
  s.setSp n { x with
    readAt := if (old.readReady p).isSome ∧ read = false then old.readAt else s.now
    writeAt := if (old.writeReady p).isSome ∧ write = false then old.writeAt else s.now }

/-- The first element equal to `a` replaced. -/
def swapFirst (a b : SpoolDesc) : List SpoolDesc → List SpoolDesc
  | [] => []
  | d :: l => if d = a then b :: l else d :: swapFirst a b l

/-- A descriptor of a spool replaced. -/
def Spool.put (x : Spool) (old new : SpoolDesc) : Spool := { x with busy := swapFirst old new x.busy }

/-! ## Hand-over of PACE (15 R357, R358) -/

/-- A spool's snapshot is applied. -/
def State.splBoundary (s : State) (n : Nat) : State :=
  let c := s.regs.com .splChCommit n
  if c.pend then (c.snap.foldl (fun s e => s.applyReg e.1 e.2) s).handedOver .splChCommit n else s

/-- A snapshot of a spool taken: at once while it is stopped or waits. -/
def State.splGo (s : State) (n : Nat) : State :=
  if (s.sp n).state = 0 ∨ (s.sp n).state = 2 then s.splBoundary n else s

/-- The register that COMMIT_CONFLICT names when PACE breaks 15 R358. -/
def State.splConflict (s : State) (n : Nat) : Option Nat :=
  let b := s.regs.shadow F.splChPaceBurst n
  let h := s.regs.shadow F.splChPaceHigh n
  let l := s.regs.shadow F.splChPaceLow n
  if b ≤ 6 ∧ 1 ≤ h ∧ h ≤ 256 ∧ l < h ∧ 2 ^ b ≤ h - l then none else some (famAddr .splChPace n 0)

/-! ## Walking the ring (15 R338, R339) -/

/-- The spool has stopped: EN and STATE become 0. -/
def State.spoolStopped (s : State) (n : Nat) (stop : Nat) : State :=
  let s := s.setSp n { s.sp n with state := 0, stopIdx := stop, ring := false }
  (s.setReg F.splChCtlEn n 0 0).splBoundary n

/-- The engine reads the control word at its current index: a stop descriptor makes it wait, another starts. -/
def State.readDesc (s : State) (n : Nat) : State :=
  let x := s.sp n
  let size := s.ringLen n
  let a := s.ringBase n + 32 * x.cur
  let s := s.consume 0x50 a 8
  let ctrl := s.mem.reads a 8
  let d : SpoolDesc := { idx := x.cur, ctrl := ctrl, body := s.mem.reads (a + 8) 24, status := 0, broken := false, data := [],
                         drained := 0, pace := none, held := none }
  if !(s.mem.poisonIn a 8).isEmpty then s.setSp n { x with state := 1, busy := x.busy ++ [{ d with broken := true }] }
  else if !d.own || d.hem then (s.setSp n { x with state := 2, stopIdx := x.cur, ring := false }).splBoundary n
  else
  let s := s.consume 0x50 (a + 8) 24
  if !(s.mem.poisonIn (a + 8) 24).isEmpty then
    s.setSp n { x with state := 1, busy := x.busy ++ [{ d with broken := true }] }
  else
    let bad := if d.invalid size then 2
      else if hostSpool n && ((firstBad (mayRead s.mem) d.src d.len).isSome ||
          (firstBad (mayWrite s.mem) d.dst d.dlen).isSome) then 3
      else 0
    s.putSp n { x with
      state := 1
      cur := d.after size
      opened := true
      busy := x.busy ++ [{ d with status := bad }] } false false

/-- The engine may read the next control word: fewer than four descriptors are in progress and the current one's first
read burst has been issued. -/
def Spool.mayStart (x : Spool) : Bool :=
  decide (x.busy.length < 4) && !(x.busy.any (·.broken)) && (match x.busy.getLast? with
    | some d => decide (d.status ≠ 0) || !d.data.isEmpty
    | none => true)

/-- DESCRIPTOR_START (15 R338, R339): a running spool reads the control word at its current index. -/
def execDescriptorStart (t spool : Nat) (s : State) : Host.Outcome State Fault Refusal :=
  whenOn t (fun s =>
    let x := s.sp spool
    if spool < 384 ∧ s.flag F.splChCtlEn spool = true ∧ x.state = 1 ∧ x.err = false ∧ x.mayStart = true then s.readDesc spool
    else s) s

/-! ## Starting, stopping and doorbells (15 R340, R354 to R357) -/

/-- The ring lies where a spool's ring may, and is aligned. -/
def State.ringOk (s : State) (n : Nat) : Bool :=
  let a := s.ringBase n
  let len := s.ringLen n * 32
  decide (a % 32 = 0) &&
    (if localSpool n then decide (sramPart a = some .spools) && decide (sramPart (a + len - 1) = some .spools)
    else (firstBad (mayWrite s.mem) a len).isNone)

/-- EN from 0 to 1, once the ring has been checked. Data writes that a stop has left posted become visible later, as before (R344). -/
def State.spoolStart (s : State) (n : Nat) : State :=
  let i := s.ringStart n
  let s := ((s.setCount F.splChCntDesc n 0).setCount F.splChCntBytes n 0).setReg F.splChCtlEn n 0 1
  let s := s.setSp n { s.sp n with
    state := 0
    err := false
    last := 0
    ring := false
    stopIdx := i
    idx := i
    cur := i
    busy := []
    opened := false }
  let s := s.splBoundary n
  s.setSp n { s.sp n with state := 1 }

/-- A local spool's hardware configures its ring before it enables it (15 R333). -/
def State.laidRing (s : State) (n : Nat) : State :=
  if localSpool n && !s.flag F.splChCtlEn n then
    (s.setReg F.splChRingLo n 0 (localRing n % 2 ^ 32)).setReg F.splChRingHi n 0 (localRing n / 2 ^ 32)
  else s

/-- SPOOL_ENABLE (15 R354). -/
def execSpoolEnable (t spool : Nat) (s : State) : Host.Outcome State Fault Refusal :=
  whenOn t (fun s =>
    let s := s.laidRing spool
    if spool < 384 ∧ s.flag F.splChCtlEn spool = false ∧ s.ringOk spool = true then s.spoolStart spool else s) s

/-- A stop at the next descriptor boundary (15 R355, R357). -/
def State.spoolStop (s : State) (n : Nat) : State :=
  let x := s.sp n
  if x.err then s.spoolStopped n x.stopIdx
  else if x.state = 3 then s
  else if x.busy.isEmpty then s.spoolStopped n x.cur
  else s.setSp n { x with state := 3, ring := false }

/-- SPOOL_STOP_REQUEST (15 R355). -/
def execSpoolStopRequest (t spool : Nat) (s : State) : Host.Outcome State Fault Refusal :=
  whenOn t (fun s => if spool < 384 ∧ s.flag F.splChCtlEn spool = true then s.spoolStop spool else s) s

/-- Data writes become visible. -/
def State.land (s : State) (l : List (Nat × List Byte)) : State := l.foldl (fun s e => s.put e.1 e.2) s

/-- A descriptor written while the engine owned it: its data and its write-back are undefined (15 R337). -/
def State.spoilt (s : State) (n : Nat) (d : SpoolDesc) : Bool := decide (s.ringBase n + 32 * d.idx ∈ s.mem.spoilt)

/-- A descriptor's octets in its ring, as the engine writes them back. -/
def State.writeDesc (s : State) (a : Nat) (tail ctrl : List Byte) : State :=
  { s with mem := { (s.mem.store (a + 24) tail).store a ctrl with spoilt := s.mem.spoilt.filter fun x => decide (x ≠ a) } }

/-- A descriptor written back (15 R343): bytes 24 to 31, then the control word with OWN 0; free octets where it was written while the
engine owned it (15 R337). -/
def State.putBack (s : State) (n : Nat) (d : SpoolDesc) (status : Nat) (check : List Byte) : State :=
  let a := s.ringBase n + 32 * d.idx
  let tail := cut d.body 16 2 ++ be 1 status ++ cut d.body 19 1 ++ check
  let ctrl := match d.ctrl with
    | b :: l => (b &&& 0x7F#8) :: l
    | [] => []
  if s.spoilt n d then s.writeDesc a (s.open8s 620 8) (s.open8s 630 8) else s.writeDesc a tail ctrl

/-- EN cleared (15 R356): bursts are dropped, each data write issued lands or not, and a write-back that waits is not made; the
counts and indexes are undefined until EN is next set. -/
def State.spoolKill (s : State) (n : Nat) : State :=
  let x := s.sp n
  let s := s.land ((x.posts.zipIdx.filter fun e => decide (s.draw (600 + e.2) 2 = 1)).map (·.1))
  let s := s.setSp n { x with
    state := 0
    ring := false
    busy := []
    posts := []
    opened := false
    stopIdx := s.draw 591 65536
    idx := s.draw 592 65536 }
  let s := (s.setCount F.splChCntDesc n (s.draw 593 (2 ^ 32))).setCount F.splChCntBytes n (s.draw 594 (2 ^ 32))
  (s.setReg F.splChCtlEn n 0 0).splBoundary n

/-- SPOOL_DISABLE (15 R356). -/
def execSpoolDisable (t spool : Nat) (s : State) : Host.Outcome State Fault Refusal :=
  whenOn t (fun s => if spool < 384 ∧ s.flag F.splChCtlEn spool = true then s.spoolKill spool else s) s

/-- A doorbell (15 R340). -/
def State.doorbell (s : State) (n : Nat) : State :=
  let x := s.sp n
  if s.flag F.splChCtlEn n = false ∨ x.err = true then s
  else if x.state = 1 then s.setSp n { x with ring := true }
  else if x.state = 2 then (if x.mayStart then s.readDesc n else s.setSp n { x with state := 1 })
  else s

/-- SPOOL_DOORBELL (15 R340). -/
def execSpoolDoorbell (t spool : Nat) (s : State) : Host.Outcome State Fault Refusal :=
  whenOn t (fun s => if spool < 384 then s.doorbell spool else s) s

/-! ## Movers (15 R351, R352) -/

/-- A burst's priority: fixed for the device spools (15 R334); a host spool's PRIO 0 is taken as 1, and a burst of its that has
waited 100 us as one lower, never below 1. -/
def State.spoolPrio (s : State) (n p since : Nat) : Nat :=
  if n < 24 then 0
  else if n < 64 then 1
  else if n < 96 then 0
  else if n < 192 then 2
  else if n < 256 then
    let p := max 1 p
    if since + 100 * us ≤ s.now then max 1 (p - 1) else p
  else p

/-- The priority of a spool's ready burst on one side (`write`: from its FIFO to memory), by the pace its descriptor goes by. -/
def State.burstPrio (s : State) (n : Nat) (x : Spool) (write : Bool) : Option Nat :=
  let p := s.paceOf n
  if write then (x.writeReady p).map fun d => s.spoolPrio n (d.paceIn p).prio x.writeAt
  else (x.readReady p).map fun d => s.spoolPrio n (d.paceIn p).prio x.readAt

/-- The ready bursts: spool, side and priority. Of a spool's two, that on the side `write` comes first. -/
def State.ready (s : State) (write : Bool) : List (Nat × Bool × Nat) :=
  s.spl.spools.flatMap fun (n, x) =>
    [write, !write].filterMap fun w => (s.burstPrio n x w).map fun p => (n, w, p)

/-- The burst a free mover takes: of the lowest priority number, round-robin after the spool served last. Which of one spool's two
bursts of one priority goes first is not stated: it is that on the side `write`. -/
def State.nextBurst (s : State) (write : Bool) : Option (Nat × Bool) :=
  let turn (n : Nat) : Nat := (n + 384 - s.spl.served - 1) % 384
  ((s.ready write).foldl (fun (best : Option (Nat × Bool × Nat)) e =>
    match best with
    | none => some e
    | some b => if e.2.2 < b.2.2 ∨ (e.2.2 = b.2.2 ∧ turn e.1 < turn b.1) then some e else best) none).map fun e => (e.1, e.2.1)

/-- What a read burst of a descriptor brings: the source octets, or free ones where what it moves is undefined (15 R336, R337). -/
def State.burstData (s : State) (n : Nat) (d : SpoolDesc) (a len : Nat) : List Byte :=
  if d.overlaps || s.spoilt n d then s.open8s 640 len else s.mem.reads a len

/-- A read burst carried: the source octets enter the FIFO, or a poisoned word ends the descriptor. PACE takes a pending
snapshot before the first burst of a running spool's descriptor; one that stops takes it when it has stopped (15 R357). -/
def State.readBurst (s : State) (n : Nat) : State :=
  let s := match (s.sp n).readReady (s.paceOf n) with
    | some d => if d.pace.isNone && decide ((s.sp n).state = 1) then s.splBoundary n else s
    | none => s
  let now := s.paceOf n
  let x := s.sp n
  match x.busy.find? (·.reading) with
  | none => s
  | some d =>
    let p := d.paceIn now
    let len := d.readLen now
    let a := d.src + d.data.length
    let s := s.consume 0x50 a len
    let e : SpoolDesc := { d with pace := some p }
    let e : SpoolDesc := if (s.mem.poisonIn a len).isEmpty then { e with data := d.data ++ s.burstData n d a len }
      else { e with status := 4 }
    let y := x.put d e
    s.putSp n { y with opened := x.opened && decide (y.fill < p.high) } true false

/-- A write burst carried: the octets it makes known are issued as data writes, which become visible at once or stay
posted (15 R344), a free choice; a poisoned codeword covered only in part ends the descriptor (01 R17). -/
def State.writeBurst (s : State) (n : Nat) : State :=
  let now := s.paceOf n
  let x := s.sp n
  match x.writeReady now with
  | none => s
  | some d =>
    let p := d.paceIn now
    let k := min p.burst (d.data.length - d.drained)
    let runs := runsOf (d.outputs d.drained (d.drained + k))
    let s := runs.foldl (fun s e => s.consumePart 0x50 e.1 e.2.length) s
    let part := runs.any fun e => !(s.mem.poisonPart e.1 e.2.length).isEmpty
    let e : SpoolDesc := { d with drained := d.drained + k, status := if part then 4 else d.status }
    let y := x.put d e
    let y : Spool := { y with opened := x.opened || decide (y.fill ≤ p.low) }
    if s.draw 595 2 = 0 then (s.land runs).putSp n y false true
    else s.putSp n { y with posts := x.posts ++ runs } false true

/-- SPOOL_BURST (15 R351, R352): a free mover takes one whole burst, the one of the lowest priority number on either side; `write`
says which of one spool's two bursts goes first. -/
def execSpoolBurst (t : Nat) (write : Bool) (s : State) : Host.Outcome State Fault Refusal :=
  whenOn t (fun s =>
    match s.nextBurst write with
    | none => s
    | some (n, side) =>
      let s : State := { s with spl := { s.spl with served := n } }
      if side then s.writeBurst n else s.readBurst n) s

/-! ## Completion (15 R343 to R347) -/

/-- The unit that a local spool's pulses reach (15 R345): the one SPL_CHn_LINK names, in place of a link engine that has been patched
the spare that replaced it. -/
def State.pulseUnit (s : State) (n : Nat) : Nat :=
  let unit := s.reg F.splChLinkUnit n
  let inst := s.reg F.splChLinkInstance n
  let by_ := (s.fau.eng inst).replacedBy
  unit * 256 + (if unit = 1 ∧ by_ ≠ 255 then by_ else inst)

/-- A completion signalled: by a system spool to the steward, by a local spool as a pulse to its unit (15 R345). -/
def State.spoolSignal (s : State) (n idx status : Nat) : State :=
  if n < 256 then
    s.setSp n { s.sp n with irq := true, sigIdx := idx, sigStatus := status, signals := (s.sp n).signals + 1 }
  else
    let s := s.setSp n { s.sp n with pulse := some (idx, status) }
    { s with spl := { s.spl with pulses := tset s.spl.pulses (s.pulseUnit n) (n, idx, status) } }

/-- An error stop (15 R347): descriptors after the failed one are abandoned. A spool that was stopping stops. -/
def State.spoolError (s : State) (n status stop : Nat) : State :=
  let x := s.sp n
  let s := s.setSp n { x with err := true, last := status, stopIdx := stop, cur := stop, busy := [], opened := false, ring := false }
  if x.state = 3 then s.spoolStopped n stop else (s.setSp n { s.sp n with state := 2 }).splBoundary n

/-- The codewords of a descriptor that a write-back covers only in part: one found poisoned cannot take it (15 R347, 01 R17). -/
def State.descPoisoned (s : State) (a : Nat) : Bool := !(s.mem.poisonPart a 8).isEmpty || !(s.mem.poisonPart (a + 24) 8).isEmpty

/-- The oldest descriptor in progress written back, with what follows; in poisoned memory it is not written back, and the spool stops
there (15 R347). -/
def State.writeBack (s : State) (n : Nat) (d : SpoolDesc) (status : Nat) (check : List Byte) : State :=
  let next := d.after (s.ringLen n)
  let a := s.ringBase n + 32 * d.idx
  let s := (s.consumePart 0x50 a 8).consumePart 0x50 (a + 24) 8
  if s.descPoisoned a then s.spoolError n 4 d.idx
  else
  let s := s.putBack n d status check
  let s := (s.wrapBy F.splChCntDesc n 1).wrapBy F.splChCntBytes n d.data.length
  let s := s.setSp n { s.sp n with idx := next, busy := (s.sp n).busy.drop 1 }
  let s := if d.irq || decide (status ≠ 0) then s.spoolSignal n d.idx status else s
  if status ≠ 0 then s.spoolError n status next
  else if (s.sp n).state = 3 ∧ (s.sp n).busy.isEmpty = true then s.spoolStopped n (s.sp n).cur
  else s

/-- DESCRIPTOR_COMPLETE (15 R343, R347, R348): the oldest descriptor in progress has issued its last data write and its
check has finished, which needs a check unit in service, or it has failed; with BAR its write-back waits. A CHECK that no check formed is
a free value. One whose outcome is undefined stops no other (15 R337). -/
def execDescriptorComplete (t spool : Nat) (s : State) : Host.Outcome State Fault Refusal :=
  whenOn t (fun s =>
    let x := s.sp spool
    if s.flag F.splChCtlEn spool = false then s
    else match x.busy with
      | [] => s
      | d :: _ =>
        if d.held.isSome then s
        else if d.broken then s.spoolError spool 4 d.idx
        else if d.status = 0 ∧ d.drained < d.len then s
        else if d.checked && !s.checkUnit then s
        else
          let s := s.foldJobs d
          let r := if d.status = 0 then (if s.spoilt spool d then (0, d.outcome.2) else d.outcome)
            else (d.status, if d.fold = 0 then cut d.body 20 4 else s.open8s 596 4)
          if d.bar then s.setSp spool (x.put d { d with held := some r }) else s.writeBack spool d r.1 r.2) s

/-- BAR_WRITEBACK (15 R344): every data write of the spool so far is visible, and the descriptor that waited is written
back. -/
def execBarWriteback (t spool : Nat) (s : State) : Host.Outcome State Fault Refusal :=
  whenOn t (fun s =>
    let x := s.sp spool
    match x.busy with
    | [] => s
    | d :: _ =>
      match d.held with
      | none => s
      | some (status, check) =>
        let s := (s.land x.posts).setSp spool { x with posts := [] }
        s.writeBack spool d status check) s

/-- SPOOL_DONE (15 R346): the firmware services a spool's interrupt; for a host spool it raises SPOOL_DONE. -/
def execSpoolDone (t spool : Nat) (s : State) : Host.Outcome State Fault Refusal :=
  whenOn t (fun s =>
    let x := s.sp spool
    if x.irq = false ∨ s.fwRuns = false then s
    else
      let s := s.setSp spool { x with irq := false, signals := 0 }
      if hostSpool spool then
        s.raise 4 0x50 spool (be 2 x.sigIdx ++ be 1 x.sigStatus ++ be 1 (b2n x.err) ++ be 4 x.signals)
      else s) s

end Sys2Proof.Machine
end

