-- ==== Sys2Proof/Machine/Power.lean ====
section
/-!
DEFINITION. Machine/Power.lean: reset and the start sequence, durability of lining records, firmware banks, factory
restore and what unpowered time does to the retained state (02; 19 R426 to R428).
-/

namespace Sys2Proof.Machine

open Sys2Proof

/-! ## What a lining record makes durable (02 R28 to R30) -/

/-- The retained fields of one register made durable. -/
def storeReg (image : List (Nat × Word)) (e : Nat × Word) : List (Nat × Word) :=
  match regOf e.1 with
  | some (f, i, _) => tput (famInit f i &&& keepMask f) image e.1 e.2
  | none => image

/-- A record of a table: an entry, or a free one. -/
def storeOpt {α : Type} (l : Tab α) (k : Nat) : Option α → Tab α
  | some x => tset l k x
  | none => tdel l k

/-- The lining once a record is durable. A reservation above the device floor raises it (02 R42). -/
def Lining.store (l : Lining) : LinRec → Lining
  | .cfg vals => { l with image := vals.foldl storeReg l.image }
  | .arm on => { l with armed := on }
  | .nonce k v =>
    { l with nonces := tset l.nonces k v, floor := max l.floor v, noRes := l.noRes.filter fun x => decide (x ≠ k) }
  | .key k w fresh =>
    let rest := l.noRes.filter fun x => decide (x ≠ k)
    { l with keys := storeOpt l.keys k w, noRes := if fresh then k :: rest else if w.isNone then rest else l.noRes }
  | .cells c => { l with cells := c }
  | .node k n => { l with nodes := storeOpt l.nodes k n }
  | .sensor k x => { l with sensors := storeOpt l.sensors k x }
  | .duty a bins pos _ _ => { l with duty := tset l.duty a (bins, pos) }

/-- A record made durable. -/
def State.storeRec (s : State) (r : LinRec) : State := { s with lin := s.lin.store r }

/-- What waited for a record goes on (14 R303, R308; 10 R230). -/
def State.recDone (s : State) (w : LinWrite) : State :=
  match w.what, w.ref with
  | .key k _ _, some ref => s.finishRef ref Status.ok (be 4 (s.counter k))
  | .cells _, some ref => s.finishRef ref Status.ok []
  | .duty a _ _ taken waiter, _ =>
    let x := s.acct a
    let s := s.setAcct a { x with unsaved := x.unsaved - taken }
    match waiter.bind s.down? with
    | some d =>
      match d.stage with
      | .planned p => s.setDown { d with stage := .planned { p with writing := false } }
      | _ => s
    | none => s
  | _, _ => s

/-! ## Reset (02 R23, R29, R31; 19 R428) -/

/-- No output is driven (02 R23): no frame or symbol is sent, the links are down, and no loop or excitation drives a current. -/
def State.undriven (s : State) : State :=
  { s with
    eth := s.eth.map fun e => (e.1, { e.2 with up := false, queues := [] })
    plx := { s.plx with ports := s.plx.ports.map fun e =>
                                   (e.1, { e.2 with service := false, sending := none,
                                                    slots := e.2.slots.map fun x => (x.1, { x.2 with tx := none, tail := none }) }) }
    air := { s.air with ports := s.air.ports.map fun e => (e.1, { e.2 with up := false, attempt := none, sends := [], tails := [], dclk := none, sysref := [] }) }
    loops := s.loops.map fun e => (e.1, { e.2 with ua := 0 }) }

/-- All processing stops and no output is driven. The record being written is completed or discarded whole, the others are
lost (R23, R29; log entry 24); a bank being written fails its check from then on. -/
def State.halt (s : State) : State :=
  let s := match s.lin.writes with
    | w :: _ => if s.draw 700 2 = 1 then s.storeRec w.what else s
    | [] => s
  let banks := match s.lin.bankWrite with
    | some b => tset s.lin.banks b.bank { image := [], crc := 1, valid := false }
    | none => s.lin.banks
  let s : State := { s with
    lin := { s.lin with writes := [], banks := banks, bankWrite := none }
    caps := []
    pow := { s.pow with on := false, phase := 0, restart := false } }
  s.undriven

/-- A restart that waits begins once no retained change is outstanding (02 R31). -/
def State.restartDue (s : State) : State := if s.pow.restart && !s.pendingWrites then s.halt else s

/-- PORST_ASSERT (02 R23). A low pulse of less than 10 us, which R21 lets be ignored or be a full reset, is a full reset too
(log entry 191). -/
def execPorstAssert (t : Nat) (s : State) : Host.Outcome State Fault Refusal :=
  .next (let s := s.tick t
    let s := if s.pow.on then s.halt else s
    { s with pow := { s.pow with porstHigh := false } })

/-- REFCLK_LOSS (19 R428): no edge for 1 us while PORST_N is high: as PORST_N going low, but the pin stays high, and REFCLK has to run
again for 2 ms before the start sequence begins. -/
def execRefclkLoss (t : Nat) (s : State) : Host.Outcome State Fault Refusal :=
  whenOn t (fun s => if s.pow.porstHigh then s.halt else s) s

/-- LIN_CTL.RESTART written (02 R31). -/
def State.askRestart (s : State) : State := ({ s with pow := { s.pow with restart := true } } : State).restartDue

/-- RESTART (02 R31). -/
def execRestart (t : Nat) (s : State) : Host.Outcome State Fault Refusal :=
  whenOn t (fun s => s.askRestart) s

/-! ## LINING_WRITE_DONE (02 R30, R32, R42) -/

/-- LINING_WEAR: when WEAR first reaches 800, and at each further 50 (02 R32); one for a write that passes several of these (log entry
221). -/
def State.wears (s : State) (wear : Nat) : State :=
  let w := min 1000 (max s.lin.wear wear)
  let s : State := { s with lin := { s.lin with wear := w } }
  if s.lin.wearNext ≤ w then
    let s : State := { s with lin := { s.lin with wearNext := (w / 50 + 1) * 50 } }
    s.raise 0x102 0x02 0 (be 2 w ++ s.open8s 710 2)
  else s

/-- The oldest record in progress becomes durable, and what waited for it resumes. -/
def State.writeDone (s : State) : State :=
  match s.lin.writes with
  | [] => s
  | w :: l =>
    let s : State := { s with lin := { s.lin with writes := l } }
    ((s.recDone w).storeRec w.what).retryJobs

/-- LINING_WRITE_DONE (02 R30, R32, R42): the endurance used so far is `wear` in 0.1 %. -/
def execLiningWriteDone (t wear : Nat) (s : State) : Host.Outcome State Fault Refusal :=
  whenOn t (fun s => if s.lin.writes.isEmpty then s else ((s.writeDone).wears wear).restartDue) s

/-! ## Factory restore (02 R37) -/

/-- The arm that LIN_STATUS.FACTORY_ARMED shows: the latest asked for, durable or not. -/
def State.factoryArmed (s : State) : Bool :=
  s.lin.writes.foldl (fun a w => match w.what with
    | .arm on => on
    | _ => a) s.lin.armed

/-- The arm set or cleared. -/
def State.armFactory (s : State) (on : Bool) : State := if s.factoryArmed = on then s else s.linWrite (.arm on)

/-- FACTORY_ARM (02 R37). -/
def execFactoryArm (t : Nat) (s : State) : Host.Outcome State Fault Refusal :=
  whenOn t (fun s => s.armFactory true) s

/-- FACTORY_DISARM (02 R37). -/
def execFactoryDisarm (t : Nat) (s : State) : Host.Outcome State Fault Refusal :=
  whenOn t (fun s => s.armFactory false) s

/-! ## Firmware banks (02 R34, R35) -/

/-- The check of a bank: CRC-32C over the image against the value stored with it. -/
def Bank.passes (b : Bank) : Bool := decide (Machine.crc 4 [] b.image = b.crc)

/-- A bank; one never written holds an empty image and its CRC (log entry 110). -/
def Lining.bank (l : Lining) (n : Nat) : Bank := tget { image := [], crc := 0, valid := true } l.banks n

/-- LIN_BANK_SRC. -/
def State.bankSrc (s : State) : Nat := s.reg F.linBankSrcHi * 2 ^ 32 + s.reg F.linBankSrcLo

/-- The status that refuses a GO for a bank, if one does. -/
def State.bankRefused (s : State) (bank : Nat) : Option Nat :=
  let len := s.reg F.linBankLen
  if (s.pow.booted && decide (bank = s.lin.activeBank)) || s.lin.bankWrite.isSome then some Status.lockedRunning
  else if len < 4 ∨ 8388608 < len ∨ (firstBad (mayRead s.mem) s.bankSrc len).isSome = true then some Status.badAddress
  else none

/-- A bank write begun. -/
def State.bankGo (s : State) (bank : Nat) : State :=
  let w : BankWrite := { bank := bank, src := s.bankSrc, len := s.reg F.linBankLen, crc := s.reg F.linBankCrc }
  ({ s with lin := { s.lin with bankWrite := some w } } : State).setReg F.linBankWrBank 0 0 bank

/-- BANK_WRITE (02 R35). -/
def execBankWrite (t bank : Nat) (s : State) : Host.Outcome State Fault Refusal :=
  whenOn t (fun s => if bank < 2 ∧ s.bankRefused bank = none then s.bankGo bank else s) s

/-- A bank write ends: a read error, a match or a mismatch, which a check unit finds (14 R332). DONE and ERR tell of the last bank write alone, so the one that
does not hold is cleared. -/
def State.bankDone (s : State) (w : BankWrite) : State :=
  let s := s.consume 0x02 w.src w.len
  let err := !(s.mem.poisonIn w.src w.len).isEmpty
  let data := (List.range w.len).map fun i => s.memOctet s.mem (w.src + i)
  let v := if err then 0 else crc 4 [] data
  let result := if err then 2 else if v = w.crc then 0 else 1
  let b : Bank := if err then { image := [], crc := 1, valid := false }
    else { image := data, crc := w.crc, valid := decide (result = 0) }
  let s : State := { s with lin := { s.lin with banks := tset s.lin.banks w.bank b, bankWrite := none } }
  let s := (s.setReg F.linBankWrDone 0 0 (b2n (decide (result = 0)))).setReg F.linBankWrErr 0 0 (b2n (decide (result ≠ 0)))
  let s := if err then s else s.checkDone v (some w.crc)
  s.raise 0x103 0x02 w.bank (be 1 result ++ s.open8s 720 3 ++ be 4 v)

/-- BANK_WRITE_DONE (02 R35, R39): while no check unit is in service the check of the bank waits. -/
def execBankWriteDone (t : Nat) (s : State) : Host.Outcome State Fault Refusal :=
  whenOn t (fun s =>
    match s.lin.bankWrite with
    | some w => if s.checkUnit then s.bankDone w else s
    | none => s) s

/-! ## The start sequence (02 R24, R33, R34, R36, R40; 19 R427) -/

/-- The memory descriptor's ranges (04 R89; log entry 111). -/
def memRanges : List MemRange :=
  [{ base := sramBase .general, size := sramSize .general, kind := 1 },
   { base := 0x16FD00000, size := 0x300000, kind := 2 },
   { base := 0x170000000, size := 0x210000000, kind := 3 },
   { base := 0x380000000, size := 0x80000000, kind := 4 }]

/-- The registers restored from the configuration image: the retained fields as it holds them, the others at their
first-start values; every shadow equal to its active value (02 R33, 00 R8). -/
def Regs.restored (image : List (Nat × Word)) : Regs :=
  { vals := image.foldl (fun (l : List (Nat × Word)) e => match regOf e.1 with
      | some (f, i, _) => tput (famInit f i) l e.1 ((famInit f i &&& ~~~keepMask f) ||| (e.2 &&& keepMask f))
      | none => l) []
    shad := []
    coms := []
    hitAt := 0
    hits := []
    last := 0 }

/-- No key, no root and no mark. -/
def Cells.blank : Cells := { root := none, rootId := 0, station := 0xFFFF, mark := false }

/-- The lining after steps 2 and 3: at a first start the areas that do not survive it are cleared (02 R28, R36), and the
record that carries the new epoch clears the arm. -/
def Lining.starts (l : Lining) : Lining :=
  let l : Lining := if l.blank || l.armed then { l with
      blank := false
      image := []
      nodes := []
      sensors := []
      keys := []
      nonces := []
      noRes := []
      duty := []
      cells := Cells.blank }
    else l
  { l with epoch := min (l.epoch + 1) 0xFFFFFFFF, armed := false }

/-- An erase mark makes what is left of step 4 of 14 R310 happen before step 6. -/
def Lining.wiped (l : Lining) : Lining := if l.cells.mark then { l with keys := [], noRes := [] } else l

/-- The mailbox engine at power-up. -/
def Stw.init : Stw :=
  { sess := [], closing := [], genCtr := 0, flights := [], nextRef := 0, waits := [], svc := [], area := [], nextArea := 0,
    areaDrops := 0, carrier := none }

/-- The seam at power-up: DETACHED. -/
def Sea.init : Sea :=
  { role := 0, prio := 1, waits := false, entered := 0, follow := none, also := none, limit := 0, deputy := none, arrival := none,
    lastCns := none, period := 0, misses := 0, count := 0, cepoch := 0, cbase := 0, cat := 0, known := false,
    valid := false, path := none, delayNext := 0, list := [], peers := [], recent := [], seq := 0, hello := 0, beacon := 0,
    takeover := 0, elected := 0, yield := none, synced := false, registry := [], keepReg := false, bulk := none, copied := [], since := [], change := 0, mirrors := [],
    mwaits := [], mirrorHeard := 0, applied := none, claims := [], joinNext := 0, refused := false, electNext := 0,
    heard := [] }

/-- The engines and pairs at power-up: every engine in its self-test. -/
def Fau.init : Fau :=
  { engines := (List.range 64).map fun n => (n, { Engine.init with st := .selfTest }), testing := true, pairs := [],
    pairTest := [], actPair := 0, queue := [], corr := [], accepted := [], unmaskedPort := none, unmaskedPair := none }

/-- The keys of the wrapped-key area that unwrap under the root key (14 R306). -/
def Lining.unwrapped (l : Lining) : Tab KeyRec :=
  match l.cells.root with
  | some root => l.keys.filterMap fun e => (unwrapKey root e.2).map fun k => (e.1, k)
  | none => []

/-- The counter at which a slot's key resumes (02 R40, R42). -/
def Lining.resumes (l : Lining) (slot : Nat) : Nat := if l.noRes.contains slot then l.floor else tget 0 l.nonces slot

/-- The cipher block at step 4: the root key, and an empty cache. -/
def Cip.starts (c : Cip) (l : Lining) : Cip :=
  { otp := c.otp, root := l.cells.root, cache := [], dram := [], ctr := [], gone := [], erasing := l.cells.mark, clearDue := false,
    lastSource := 0, present := c.present, supplies := c.supplies, jobs := [], waits := [], nextJob := 0, ringTaken := 0, ringDone := [], lastDone := [],
    coresOut := [], unitsOut := [], lastCrc := 0, checks := [] }

/-- The machine after steps 1 to 3 and the restore of step 6, every block stopped. -/
def State.bare (s : State) (l : Lining) : State :=
  { s with
    now := 4 * ms
    regs := Regs.restored l.image
    lin := l
    stw := Stw.init
    mem := { cells := [], poison := [], rot := [], posted := [], ranges := memRanges, spoilt := [] }
    eth := []
    fau := Fau.init
    cip := s.cip.starts l
    caps := []
    mns := { phases := [], timers := [], fired := [] }
    sea := Sea.init
    plx := { ports := [], nodes := l.nodes.map fun e =>
                                (e.1, { e.2 with mapver := 0, spent := false, energies := [], report := none }),
             seqs := [], sealing := [] }
    air := { ports := [], sensors := l.sensors.map fun e =>
                                  (e.1, { e.2 with stale := e.2.stale || e.2.valid, valid := false }),
             host := [], duty := [], secs := 0, downs := [], nextId := 0, seq := 0, windows := [] }
    sc := { groups := [], gone := [], nextGroup := 0, rxid := 0, results := [], digests := [] }
    spl := { spools := [], served := 0, pulses := [] }
    cnv := Cnv.init
    chans := []
    loops := [] }

/-- The check of a bank, a job of the check units (14 R332). -/
def State.checkBank (s : State) (b : Bank) : State := s.checkDone (Machine.crc 4 [] b.image) (some b.crc)

/-- Step 5: the bank that LIN_BOOT.NEXT names boots, or else the other one; none where both fail (02 R34). -/
def State.boot (s : State) : State :=
  let n := s.reg F.linBootNext
  let a := s.lin.bank n
  let b := s.lin.bank (1 - n)
  let first := a.passes
  let banks := tset s.lin.banks n { a with valid := first }
  let banks := if first then banks else tset banks (1 - n) { b with valid := b.passes }
  let ok := first || b.passes
  let s := s.checkBank a
  let s := if first then s else s.checkBank b
  { s with
    lin := { s.lin with banks := banks, activeBank := if first || !ok then n else 1 - n }
    fau := { s.fau with pairs := if ok then [(0, .active), (1, .standby)] else [(0, .stopped), (1, .stopped)] }
    pow := { s.pow with booted := ok, phase := 2, bankFallback := ok && !first, bootNext := n } }

/-- The alarms of step 4: a mesh that is open, and cells that fail their seal (14 R309). -/
def State.startAlarms (s : State) (mesh sealBad : Bool) : State :=
  let s := if mesh && s.flag F.cipAlarmCfgMeshEn then s.alarm 1 0 true else s
  if sealBad then s.alarm 4 0 false else s

/-- Step 6, the keys: the DRAM copies (14 R306), the counters, and a reservation one block higher for each key
that has one (02 R42). The cache stays empty. -/
def State.loadKeys (s : State) : State :=
  let held := s.lin.unwrapped
  let c : Cip := { s.cip with
    dram := s.lin.keys
    ctr := held.map fun e => (e.1, s.lin.resumes e.1) }
  let s : State := { s with cip := c }
  held.foldl (fun s e =>
    if s.lin.noRes.contains e.1 ∨ s.exhausted e.1 = true then s else s.reserveTo e.1 (blockAfter (s.counter e.1))) s

/-- Step 6, a duty account: its bins resume, and an enabled one is charged its reserve, which does not
count as airtime that no record holds yet (02 R40, R41; log entry 255). -/
def State.loadDuty (s : State) (a : Nat) : State :=
  let (bins, pos) := tget ([], 0) s.lin.duty a
  let x : Duty := { bins := bins, pos := pos, unsaved := 0 }
  if s.flag F.airDutyCfgEn a then
    s.setAcct a { x with bins := tput 0 bins pos (tget 0 bins pos + s.dutyReserve a) }
  else if tget? s.lin.duty a = none then s
  else s.setAcct a x

/-- The tracker starts with every phase in NONE, and the pleat timers with it (05 R114). -/
def State.mnsStart (s : State) : State :=
  let p := s.nominal
  let s : State := { s with mns := {
    phases := (List.range 3).map fun x => (x, Phase.init s.now p)
    timers := (List.range 27).map fun n => (n, PleatTimer.init s.now p)
    fired := [] } }
  (List.range 27).foldl (fun s n => s.fixNext n) s

/-- The run fields applied, in the order of 02 R33. -/
def State.startBlocks (s : State) : State :=
  let s : State := { s with sea := { s.sea with waits := s.flag F.seaCtlEn, prio := s.reg F.seaCfgPriority } }
  let s := s.mnsStart
  let s := ((List.range 24).filter fun n => s.flag F.plxCtlEn n).foldl (fun s n => s.plxStart n) s
  let s := ((List.range 16).filter fun n => s.flag F.airCtlEn n).foldl (fun s n => s.airStart n) s
  let s := if s.flag F.senRefEn then s.refEnable else s
  let s := if s.flag F.cnvCtlEn then s.cnvEnable else s
  (List.range 4).foldl (fun s n => s.loopFollow n) s

/-- Step 8, where a bank booted: PHASE 4, START and BANK_FALLBACK (02 R24, R39), and the cache's background fill begins (14 R306). -/
def State.running (s : State) : State :=
  if !s.pow.booted then s
  else
    let s : State := ({ s with pow := { s.pow with phase := 4 } } : State).fillCache
    let flags := b2n s.pow.firstStart + 2 * b2n s.pow.factoryDone + 4 * b2n s.pow.bankFallback + 8 * b2n s.lin.cells.mark +
      16 * s.draw 730 16
    let retired := (s.fau.engines.filter fun e => decide (e.2.st = .retired)).length
    let s := s.raise 0x001 0x02 0 (be 1 flags ++ be 1 s.lin.activeBank ++ be 1 retired ++ s.open8s 731 1 ++
      be 2 s.lin.wear ++ s.open8s 732 2)
    if s.pow.bankFallback then
      let valid := b2n (s.lin.bank 0).valid + 2 * b2n (s.lin.bank 1).valid + 4 * s.draw 734 64
      s.raise 0x101 0x02 s.lin.activeBank (be 1 s.pow.bootNext ++ be 1 valid ++ s.open8s 735 2)
    else s

/-- Steps 1 to 7 of the start sequence (02 R24): `mesh` tells whether the tamper mesh is open at step 4, `sealBad` whether the
secure cells fail their seal. PHASE stays 2 where no bank boots (R34). -/
def State.start (s : State) (mesh sealBad : Bool) : State :=
  let first := s.lin.blank || s.lin.armed
  let factory := s.lin.armed
  let s := s.bare s.lin.starts.wiped
  let s : State := { s with pow := {
    porstHigh := true, on := true, phase := 1, booted := false, restart := false, firstStart := first, factoryDone := factory,
    bankFallback := false, bootNext := 0, volts := s.pow.volts } }
  let s := (s.startAlarms mesh sealBad).boot
  let s : State := { s with
    now := 70 * ms
    pow := { s.pow with phase := if s.pow.booted then 3 else 2 } }
  let s := (List.range 16).foldl (fun s a => s.loadDuty a) s.loadKeys
  let s := s.startBlocks
  let s : State := { s with now := 80 * ms }
  (s.ethTake 0).ethTake 1

/-- The start sequence may begin (19 R427, R428): every supply has been inside its window, and REFCLK has run, for 2 ms. -/
def State.mayBegin (s : State) (pins : StartPins) : Bool :=
  (List.range 5).all (fun n => !s.supplyOut n) && decide (2 * ms ≤ pins.supplyNs) && decide (2 * ms ≤ pins.refclkNs)

/-- START_SEQUENCE (02 R24, 19 R427): PORST_N is high, and where the supplies or REFCLK do not yet allow the sequence the device stays in
reset. Otherwise in reset, steps 1 to 7, and step 8 too if `t`, counted from step 1, has reached its 100 ms; where
it has not, the mailbox engine serves, and the row's next occurrence from 100 ms on is step 8 (log entry 171). -/
def execStartSequence (t : Nat) (pins : StartPins) (sealBad : Bool) (s : State) : Host.Outcome State Fault Refusal :=
  let begun := if s.pow.on then s else ({ s with free := s.free + 1 } : State).start pins.mesh sealBad
  .next (if !s.pow.on && !s.mayBegin pins then { s with pow := { s.pow with porstHigh := true } }
    else if begun.pow.phase = 3 ∧ 100 * ms ≤ max begun.now t then (begun.tick t).running
    else if s.pow.on then s else begun.tick t)

end Sys2Proof.Machine
end

