-- ==== Sys2Proof/Machine/Cfg.lean ====
section
/-!
DEFINITION. Machine/Cfg.lean: the direct window (03 R58; 04 R72 to R84, R90 to R99, R434; 00 R6, R7, R436): what a
register reads, what writing it does, COMMIT, and the CFG and MEM commands.
-/

namespace Sys2Proof.Machine

open Sys2Proof

/-! ## What registers read (00 R6, R7) -/

/-- The fields of a COMMIT register (04 R90): COUNT, SHADOW_DIRTY, COMMIT_PENDING. -/
def Commit.fields (c : Commit) (f : Fam) : List (FRef × Nat) :=
  [(⟨f, 31, 16⟩, c.count), (⟨f, 9, 9⟩, b2n c.dirty), (⟨f, 8, 8⟩, b2n c.pend)]

/-- The two bits of an engine in FAU_ENGSTATEi. -/
def EngState.code (e : EngState) : Nat :=
  match e with
  | .active => 0
  | .spare => 1
  | .selfTest => 2
  | .retired => 3

/-- The linked unit of a spool (15, SPL_CHn_LINK): 0 for a system spool. Which unit a local spool serves is not stated: free
constants (log entry 120). -/
def linkUnit (n : Nat) : Nat := if 256 ≤ n then Config.freeNat 0 (50331648 + n) % 5 + 1 else 0
def linkInstance (n : Nat) : Nat := Config.freeNat 0 (58720256 + n) % 256

/-- The cluster arrival instant of a frame, 0 while cluster time is not valid (18 R419). -/
def State.rxCluster (s : State) (arrived : Nat) : Nat := if s.sea.valid then s.ctimeAt arrived else 0

/-- A latch of the reading session; 0 where no session reads. -/
def latchOf (x : Option Session) (f : Session → Word) : Nat :=
  match x with
  | some x => (f x).toNat
  | none => 0

/-- The fields of the registers of blocks STW, TMB, LIN and FAU that follow other state (02, 03, 13). -/
def State.liveCore (s : State) (x : Option Session) (f : Fam) (i : Nat) : List (FRef × Nat) :=
  match f with
  | .stwCredit => [(F.stwCreditInflight, s.stw.flights.length), (F.stwCreditFree, s.stw.freeCredits)]
  | .stwSession => [(F.stwSessionOpen, s.stw.sess.foldl (fun (a : Nat) e => a + 2 ^ e.1) 0)]
  | .tmbElapsedLo => [(F.tmbElapsedLoNsLo, s.now)]
  | .tmbElapsedHi => [(F.tmbElapsedHiNsHi, latchOf x (·.latElapsed))]
  | .tmbEpoch => [(F.tmbEpochEpoch, s.lin.epoch)]
  | .linStatus =>
    [(F.linStatusWear, s.lin.wear), (F.linStatusPendingWrites, b2n s.pendingWrites),
      (F.linStatusFactoryArmed, b2n s.factoryArmed), (F.linStatusBankFallback, b2n s.pow.bankFallback),
      (F.linStatusFactoryDone, b2n s.pow.factoryDone), (F.linStatusFirstStart, b2n s.pow.firstStart),
      (F.linStatusPhase, s.pow.phase)]
  | .linBoot =>
    [(F.linBootValidB, b2n (s.lin.bank 1).valid), (F.linBootValidA, b2n (s.lin.bank 0).valid),
      (F.linBootActive, s.lin.activeBank)]
  | .linBankWr => [(F.linBankWrGo, b2n s.lin.bankWrite.isSome)]
  | .fauStatus =>
    [(F.fauStatusActive, (s.fau.engines.filter fun e => decide (e.2.st = .active)).length),
      (F.fauStatusSparesReady, s.spares.length),
      (F.fauStatusStandbyReady, b2n (s.fau.pairs.any fun p => decide (p.2 = .standby))),
      (F.fauStatusActivePair, s.fau.actPair)]
  | .fauLog => [(F.fauLogNext, s.lin.logNext)]
  | .fauEngstate => (List.range 16).map fun j => (⟨.fauEngstate, 2 * j + 1, 2 * j⟩, (s.fau.eng (16 * i + j)).st.code)
  | _ => []

/-- Of blocks PLX and AIR (06 to 10). -/
def State.livePorts (s : State) (f : Fam) (i : Nat) : List (FRef × Nat) :=
  match f with
  | .plxStatus =>
    let p := s.lp i
    [(F.plxStatusSpur, s.spurNow i), (F.plxStatusTxlim, b2n (decide (0 < p.scale))), (F.plxStatusCalFrozen, b2n p.frozen),
      (F.plxStatusCalConv, b2n p.conv), (F.plxStatusInservice, b2n p.service)]
  | .plxNode => [(F.plxNodeNodes, (s.plx.nodes.filter fun e => decide (e.2.port = i) && decide (1 ≤ e.2.state)).length)]
  | .plxTxlim => [(F.plxTxlimScale, (s.lp i).scale)]
  | .airStatus =>
    let p := s.ap i
    [(F.airStatusDid, p.did), (F.airStatusBid, p.bid), (F.airStatusDownReason, p.reason), (F.airStatusLinkUp, b2n p.up),
      (F.airStatusInservice, b2n (s.airServes i))]
  | .airMacExtHi => [(F.airMacExtHiExt, s.extAddr / 2 ^ 32)]
  | .airMacExtLo => [(F.airMacExtLoExt, s.extAddr)]
  | .airMacCount =>
    [(F.airMacCountAssociated, (s.air.sensors.filter fun e => decide (e.2.state = 1) || decide (e.2.state = 2)).length)]
  | .airDutySpent => [(F.airDutySpentSpentUs, s.spent i)]
  | .airDutyStat => [(F.airDutyStatWriting, b2n (s.dutyWriting i)), (F.airDutyStatPos, (s.acct i).pos)]
  | _ => []

/-- Of blocks CIP, CHK and SPL (14, 15). -/
def State.liveUnits (s : State) (f : Fam) (i : Nat) : List (FRef × Nat) :=
  match f with
  | .cipStatus =>
    [(F.cipStatusRetired, s.cip.coresOut.length), (F.cipStatusLastSource, s.cip.lastSource),
      (F.cipStatusAlarmActive, b2n (!s.cip.present.isEmpty)), (F.cipStatusErased, b2n s.lin.cells.mark),
      (F.cipStatusRoot, b2n s.cip.root.isSome)]
  | .cipKeys => [(F.cipKeysLoaded, s.heldKeys.length)]
  | .cipFloor => [(F.cipFloorFloor, s.lin.floor)]
  | .cipRoot => [(F.cipRootStation, s.lin.cells.station)]
  | .cipRootId => [(F.cipRootIdRootId, if s.cip.root.isSome then s.lin.cells.rootId else 0)]
  | .cipOutstanding => [(F.cipOutstandingJobs, s.cip.outstanding)]
  | .chkStatus =>
    [(F.chkStatusInservice,
      (List.range 8).foldl (fun (a : Nat) u => if s.cip.unitsOut.contains u then a else a + 2 ^ u) 0)]
  | .splChCtl => [(F.splChCtlStopreq, b2n (decide ((s.sp i).state = 3)))]
  | .splChStatus =>
    let x := s.sp i
    [(F.splChStatusStopIdx, x.stopIdx), (F.splChStatusLastStatus, x.last), (F.splChStatusErr, b2n x.err),
      (F.splChStatusState, x.state)]
  | .splChIdx => [(F.splChIdxNextDone, (s.sp i).idx)]
  | .splChLink => [(F.splChLinkUnit, linkUnit i), (F.splChLinkInstance, linkInstance i)]
  | _ => []

/-- Of blocks SEN, CNV, FLT, LOP and MNS (05, 16, 17). The present current of an excitation and the measured one of a loop are
measurements: free values. -/
def State.liveSite (s : State) (f : Fam) (i : Nat) : List (FRef × Nat) :=
  match f with
  | .senRef => [(F.senRefReady, b2n s.cnv.ready)]
  | .senExStat => [(F.senExStatBroken, b2n (s.exc i).broken), (F.senExStatCurrent, if s.flag F.senExCfgEn i then s.draw (1000 + i) 2851 else 0)]
  | .cnvStatus =>
    let c := s.cnv
    [(F.cnvStatusSeqs, c.seqs), (F.cnvStatusEntry, c.entry), (F.cnvStatusCalConv, b2n s.cnvConverged),
      (F.cnvStatusRefWait, b2n s.refWait), (F.cnvStatusState, c.state)]
  | .fltChStat =>
    let c := s.chan i
    [(F.fltChStatSettling, b2n c.settling), (F.fltChStatFrozen, b2n (decide (c.dcb = 2))),
      (F.fltChStatGdelayUs, s.gdelayUs i)]
  | .lopLoStat =>
    [(F.lopLoStatUaMeas, s.draw (1010 + i) 65536), (F.lopLoStatCause, (s.loop i).cause),
      (F.lopLoStatState, s.loopState i)]
  | .mnsPhStatus => [(F.mnsPhStatusState, (s.phase i).state)]
  | .mnsPhPeriod => [(F.mnsPhPeriodPeriod, (s.phase i).period)]
  | .mnsPhLevel => [(F.mnsPhLevelAngle, (s.phase i).angle), (F.mnsPhLevelAmpl, (s.phase i).ampl)]
  | _ => []

/-- Of blocks SEA and ETH (11, 18). `arrived` is when the frame of the reading command arrived. -/
def State.liveNet (s : State) (x : Option Session) (arrived : Nat) (f : Fam) (i : Nat) : List (FRef × Nat) :=
  match f with
  | .seaStatus =>
    [(F.seaStatusMisses, min 3 s.sea.misses), (F.seaStatusCtimeValid, b2n s.sea.valid),
      (F.seaStatusSynced, b2n (decide (s.sea.role = 5) || (decide (s.sea.role = 6) && s.sea.synced))),
      (F.seaStatusRole, s.sea.role)]
  | .seaCepoch => [(F.seaCepochCepoch, if s.sea.known then s.sea.cepoch else 0)]
  | .seaCtimeLo => [(F.seaCtimeLoCns, s.ctime)]
  | .seaCtimeHi => [(F.seaCtimeHiCns, latchOf x (·.latCluster))]
  | .seaPeers =>
    let m := s.managerOf
    [(F.seaPeersMgrValid, b2n m.isSome), (F.seaPeersManager, m.getD 0), (F.seaPeersDepValid, b2n s.sea.deputy.isSome),
      (F.seaPeersDeputy, s.sea.deputy.getD 0)]
  | .seaMembers => [(F.seaMembers, s.members)]
  | .ethEpStatus =>
    let e := s.ep i
    [(F.ethEpStatusReason, e.reason), (F.ethEpStatusSessions, b2n (decide (0 < s.sessionsOn i))),
      (F.ethEpStatusUp, b2n e.up)]
  | .ethEpMacHi => [(F.ethEpMacHi, s.macOf i / 2 ^ 32)]
  | .ethEpMacLo => [(F.ethEpMacLo, s.macOf i)]
  | .ethRxtsLo => [(F.ethRxtsLoNs, arrived)]
  | .ethRxtsHi => [(F.ethRxtsHiNs, latchOf x (·.latRx))]
  | .ethRxctsLo => [(F.ethRxctsLoNs, s.rxCluster arrived)]
  | .ethRxctsHi => [(F.ethRxctsHiNs, latchOf x (·.latRxc))]
  | _ => []

/-- The fields of a register that follow other state than the registers themselves. -/
def State.live (s : State) (x : Option Session) (arrived : Nat) (f : Fam) (i : Nat) : List (FRef × Nat) :=
  if !(scopeFams f).isEmpty then (s.regs.com f i).fields f
  else s.liveCore x f i ++ s.livePorts f i ++ s.liveUnits f i ++ s.liveSite f i ++ s.liveNet x arrived f i

/-- What a read of a register returns to a session: the current value of each field, for RS fields the active one, 0 for WO
fields; reserved bits are free (00 R6, R7). -/
def State.readWord (s : State) (x : Option Session) (arrived : Nat) (f : Fam) (i j : Nat) : Word :=
  let v := (s.live x arrived f i).foldl (fun v e => withBits v e.1.hi e.1.lo e.2) (regWord s.regs f i j)
  let d := definedMask f
  (v &&& d &&& ~~~(classMask f .wo)) ||| (Config.freeWord s.free (famAddr f i j) &&& ~~~d)

/-- The latches that a read of a LO register sets for its session (02 R27, 11 R253, 18 R419). -/
def State.latched (s : State) (arrived : Nat) (f : Fam) (x : Session) : Session :=
  let hi (v : Nat) : Word := BitVec.ofNat 32 (v / 2 ^ 32)
  match f with
  | .tmbElapsedLo => { x with latElapsed := hi s.now }
  | .seaCtimeLo => { x with latCluster := hi s.ctime }
  | .ethRxtsLo => { x with latRx := hi arrived }
  | .ethRxctsLo => { x with latRxc := hi (s.rxCluster arrived) }
  | _ => x

/-- A register read by the session of a slot and generation: the value, and the state with its latch set. -/
def State.readReg (s : State) (slot gen arrived : Nat) (r : Fam × Nat × Nat) : State × Word :=
  match s.sessOf slot gen with
  | some x =>
    let x := s.latched arrived r.1 x
    (s.setSess slot x, s.readWord (some x) arrived r.1 r.2.1 r.2.2)
  | none => (s, s.readWord none arrived r.1 r.2.1 r.2.2)

/-! ## COMMIT (04 R90 to R96) -/

/-- The scope's shadows as a snapshot. -/
def Regs.snapshot (r : Regs) (c : Fam) (i : Nat) : List (Nat × Word) :=
  (scopeRegs c i).map fun x => (famAddr x.1 x.2.1 x.2.2, shadowWord r x.1 x.2.1 x.2.2)

/-- The register that COMMIT_CONFLICT names at GO when an agreement rule fails (04 R94); MNS has none (05 R111). -/
def State.commitConflict (s : State) (c : Fam) (i : Nat) : Option Nat :=
  match c with
  | .plxCommit => s.plxConflict i
  | .airCommit => s.airConflict i
  | .splChCommit => s.splConflict i
  | .cnvCommit => s.cnvConflict
  | .fltCommit => s.fltConflict
  | _ => none

/-- An MNS snapshot taken (05 R111): a port with SRC 3, or whose OFFSET is unchanged, applies it at once, the others each at its
next anchor. -/
def State.mnsGo (s : State) : State :=
  let c := s.regs.com .mnsCommit 0
  let wait := (List.range 24).filter fun n => decide (s.reg F.mnsPortCfgSrc n ≠ 3) &&
    decide (s.regs.shadow F.mnsPortCfgOffset n ≠ s.reg F.mnsPortCfgOffset n)
  let mine := c.snap.filter fun e => !(wait.any fun n => decide (e.1 = famAddr .mnsPortCfg n 0))
  let s := mine.foldl (fun s e => s.applyReg e.1 e.2) s
  if wait.isEmpty then s.handedOver .mnsCommit 0 else s.stillWait .mnsCommit 0 wait

/-- A block takes a snapshot just made: at once where it is stopped or idle, otherwise at its safe boundary (04 R91). -/
def State.startHandOver (s : State) (c : Fam) (i : Nat) : State :=
  match c with
  | .mnsCommit => s.mnsGo
  | .plxCommit => s.plxGo i
  | .airCommit => s.airGo i
  | .splChCommit => s.splGo i
  | .cnvCommit => s.cnvGo
  | .fltCommit => s.fltGo
  | _ => s

/-- GO (04 R91). -/
def State.commitGo (s : State) (c : Fam) (i : Nat) : State :=
  let x := s.regs.com c i
  let x : Commit := { x with dirty := false, pend := true, snap := s.regs.snapshot c i, waiting := [] }
  ({ s with regs := s.regs.setCom c i x }).startHandOver c i

/-- DISCARD (04 R90): every shadow equals its active value, and SHADOW_DIRTY clears. -/
def State.commitDiscard (s : State) (c : Fam) (i : Nat) : State :=
  let gone := (scopeRegs c i).map fun x => famAddr x.1 x.2.1 x.2.2
  let r : Regs := { s.regs with shad := s.regs.shad.filter fun e => !gone.contains e.1 }
  { s with regs := r.setCom c i { s.regs.com c i with dirty := false } }

/-- A block at its safe boundary applies a pending snapshot (04 R91, R96). A line or air port does so link by link; CNV while no
sequence runs; a spool while it is stopped or waits. -/
def State.commitBoundary (s : State) (c : Fam) (i : Nat) : State :=
  match c with
  | .plxCommit => s.plxBoundary i
  | .airCommit => s.airBoundary i
  | .splChCommit => s.splGo i
  | .cnvCommit => if s.cnv.state < 2 then s.cnvBoundary else s
  | .fltCommit => s.idleChans
  | _ => s

/-- The COMMIT register at an address. -/
def commitAt (addr : Nat) : Option (Fam × Nat) :=
  match regOf addr with
  | some (f, i, _) => if (scopeFams f).isEmpty then none else some (f, i)
  | none => none

/-! ## Checks before a write (04 R73, R75, R93, R94, R97) -/

/-- The block, port or spool of a register's RL fields is running, for a write of the session at `slot` (03 R70, 04 R97). -/
def State.rlRunning (s : State) (slot : Nat) (f : Fam) (i : Nat) : Bool :=
  match f with
  | .stwXport | .stwUdp => s.stw.sess.any fun e => decide (e.1 ≠ slot)
  | .plxCfg => s.flag F.plxCtlEn i
  | .airJesd | .airCenter | .airLat => s.flag F.airCtlEn i
  | .airMacCtl => (List.range 16).any fun n => s.flag F.airCtlEn n
  | .cipAlarmCfg => s.cip.root.isSome
  | .cipHrCtl | .cipHrJobsLo | .cipHrJobsHi | .cipHrDoneLo | .cipHrDoneHi => s.flag F.cipHrCtlEn
  | .splChRingLo | .splChRingHi | .splChRcfg => s.flag F.splChCtlEn i
  | .senRef | .senExCfg => s.flag F.cnvCtlEn
  | .fltStrmCtl | .fltStrmAddrLo | .fltStrmAddrHi => s.flag F.fltStrmCtlEn
  | .mnsCtl => s.flag F.mnsCtlEn
  | .mnsPortCfg => (s.lp i).service
  | .seaCfg | .seaId | .seaXport | .seaUdp | .seaMcastHi | .seaMcastLo | .seaMcastV4 => s.flag F.seaCtlEn
  | _ => false

/-- Why a register write is refused: STATUS, ADDRESS and REASON (04 R78). -/
structure NoWrite where
  status : Nat
  addr : Nat
  reason : Nat
  deriving DecidableEq, Repr

/-- One register's part of a write (04 R434): the value each bit is written with, and which bits the command names; all of
them in a CFG WRITE. -/
structure RegWrite where
  fam : Fam
  i : Nat
  j : Nat
  value : Word
  mask : Word
  deriving DecidableEq, Repr

/-- A field of the written value, and whether the write names any bit of it. -/
def RegWrite.get (w : RegWrite) (x : FRef) : Nat := wordBits w.value x.hi x.lo
def RegWrite.names (w : RegWrite) (x : FRef) : Bool := decide (wordBits w.mask x.hi x.lo ≠ 0)

/-- The write sets a one-bit field to 1 by name. -/
def RegWrite.sets (w : RegWrite) (x : FRef) : Bool := w.names x && decide (w.get x = 1)

/-- The checks of one register (04 R75): `s` is the state the command finds, `r` the registers as its earlier writes leave them. -/
def State.checkWrite (s : State) (slot : Nat) (r : Regs) (w : RegWrite) : Option NoWrite :=
  let a := famAddr w.fam w.i w.j
  let rl := classMask w.fam .rl
  let n : State := { s with regs := r }
  let bad (b : Bool) : Option NoWrite := if b then some ⟨Status.badAddress, a, 0⟩ else none
  let commit (go discard : FRef) : Option NoWrite :=
    if !(w.sets go || w.sets discard) then none
    else if (s.regs.com w.fam w.i).pend then some ⟨Status.commitConflict, a, 1⟩
    else if w.sets discard then none
    else (n.commitConflict w.fam w.i).map fun x => ⟨Status.commitConflict, x, 2⟩
  if 0x500000 ≤ a ∧ a < 0x506000 ∧ hostSpool w.i = false then bad true
  else if w.value &&& rl ≠ regWord s.regs w.fam w.i w.j &&& rl ∧ s.rlRunning slot w.fam w.i = true then
    some ⟨Status.lockedRunning, a, 0⟩
  else match w.fam with
    | .linBankWr =>
      if w.sets F.linBankWrGo then (n.bankRefused (w.get F.linBankWrBank)).map fun st => ⟨st, a, 0⟩ else none
    | .splChCtl => bad (decide (w.get F.splChCtlEn = 1) && !s.flag F.splChCtlEn w.i && !n.ringOk w.i)
    | .fltStrmCtl => bad (decide (w.get F.fltStrmCtlEn = 1) && !s.flag F.fltStrmCtlEn && !n.strmOk)
    | .cipHrTail => bad (w.names F.cipHrTailTail && n.tailRefused (w.get F.cipHrTailTail))
    | .mnsCommit => commit F.mnsCommitGo F.mnsCommitDiscard
    | .plxCommit => commit F.plxCommitGo F.plxCommitDiscard
    | .airCommit => commit F.airCommitGo F.airCommitDiscard
    | .splChCommit => commit F.splChCommitGo F.splChCommitDiscard
    | .cnvCommit => commit F.cnvCommitGo F.cnvCommitDiscard
    | .fltCommit => commit F.fltCommitGo F.fltCommitDiscard
    | _ => none

/-! ## Writing (00 R6, R436; 04 R92) -/

/-- The fields of a register that a write changes with no other effect than their value: RW, RL and LV, but for those whose
effect sets the value itself. -/
def storeMask (f : Fam) : Word :=
  match f with
  | .splChCtl | .cipHrTail => 0
  | .linBankWr => plainMask f &&& 0xFFFFFFFE#32
  | _ => plainMask f

/-- The registers after one write, each field by its class; an RS field collects in its shadow, and SHADOW_DIRTY is set. -/
def Regs.write (r : Regs) (w : RegWrite) : Regs :=
  let old := regWord r w.fam w.i w.j
  let m := storeMask w.fam
  let sh := shadowWord r w.fam w.i w.j
  let rs := classMask w.fam .rs
  let v := ((old &&& ~~~m) ||| (w.value &&& m)) &&& ~~~(w.value &&& classMask w.fam .w1c)
  let r := setWord r w.fam w.i w.j v
  if rs = 0 then r
  else
    let r := setShadow r w.fam w.i w.j ((v &&& ~~~rs) ||| (((sh &&& ~~~w.mask) ||| (w.value &&& w.mask)) &&& rs))
    match scopeOf w.fam w.i with
    | some (c, k) => if w.mask &&& rs = 0 then r else r.setCom c k { r.com c k with dirty := true }
    | none => r

/-- The events that a cleared count has recorded at the instant of the write are counted after the clear (00 R436). -/
def Regs.recount (r : Regs) (now : Nat) (w : RegWrite) : Regs :=
  let a := famAddr w.fam w.i w.j
  let clears := w.value &&& classMask w.fam .w1c
  let after (h : Hit) : Hit := { h with base := h.base - (h.base &&& wordBits clears h.hi h.lo) }
  let hits := r.hitsAt now
  let r := { r with hitAt := now, hits := hits.map fun h => if h.addr = a then after h else h }
  (hits.filter fun h => decide (h.addr = a)).foldl (fun r h => r.put ⟨w.fam, h.hi, h.lo⟩ w.i w.j (after h).count) r

/-- The first refusal among a command's registers, in ascending order (04 R75). Each is checked against the registers as those
before it leave them, so that a GO is held against the shadows its own command carries (R95). -/
def State.checkAll (s : State) (slot : Nat) : Regs → List RegWrite → Option NoWrite
  | _, [] => none
  | r, w :: l =>
    let r' := r.write w
    match s.checkWrite slot r' w with
    | some e => some e
    | none => s.checkAll slot r' l

/-! ## What else a write does -/

/-- A run field was set, or cleared, by a write. -/
def State.rose (s old : State) (x : FRef) (i : Nat) : Bool := s.flag x i && !old.flag x i
def State.fell (s old : State) (x : FRef) (i : Nat) : Bool := old.flag x i && !s.flag x i

/-- SPL_CHn_CTL written (15 R354 to R356). -/
def State.spoolCtl (s : State) (w : RegWrite) : State :=
  let n := w.i
  let stop := w.sets F.splChCtlStopreq
  if w.get F.splChCtlEn = 1 then
    let s := if s.flag F.splChCtlEn n then s else s.spoolStart n
    if stop then s.spoolStop n else s
  else if s.flag F.splChCtlEn n then s.spoolKill n
  else s

/-- A COMMIT register written: GO and DISCARD together are DISCARD alone (04 R90). -/
def State.commitWrite (s : State) (w : RegWrite) : State :=
  if w.value &&& 2#32 ≠ 0 then s.commitDiscard w.fam w.i
  else if w.value &&& 1#32 ≠ 0 then s.commitGo w.fam w.i
  else s

/-- DISCOVER starts anew on every slot of a port (08 R174). -/
def State.discoverAnew (s : State) (n : Nat) : State :=
  let p := s.lp n
  s.setLp n { p with slots := p.slots.map fun e => (e.1, { e.2 with disc := none }) }

/-- What a write sets off in blocks STW to AIR, after the registers have taken it; `old` is the state before. -/
def State.hookPorts (s old : State) (w : RegWrite) : State :=
  let i := w.i
  match w.fam with
  | .linCtl => if w.sets F.linCtlRestart then s.askRestart else s
  | .linFactory =>
    if !w.names F.linFactoryCode then s
    else if w.get F.linFactoryCode = 0xFAC7 then s.armFactory true
    else if w.get F.linFactoryCode = 0 then s.armFactory false
    else s
  | .linBankWr => if w.sets F.linBankWrGo then s.bankGo (w.get F.linBankWrBank) else s
  | .fauSpares => s.meetTarget
  | .fauInject => if w.sets F.fauInjectGo then s.inject (w.get F.fauInjectKind) (w.get F.fauInjectTarget) else s
  | .plxCtl => if s.rose old F.plxCtlEn i then s.plxStart i else if s.fell old F.plxCtlEn i then s.plxStop i else s
  | .plxCal =>
    let s := if w.names F.plxCalFreeze then s.calFreeze i (decide (w.get F.plxCalFreeze = 1)) else s
    if w.sets F.plxCalRestart then s.calRestart i else s
  | .plxDisc =>
    let s := if s.reg F.plxDiscPeriodS i ≠ old.reg F.plxDiscPeriodS i then s.setLp i { s.lp i with discAt := s.now } else s
    if s.rose old F.plxDiscEn i then s.discoverAnew i else s
  | .plxTxlim => if s.fell old F.plxTxlimEn i then s.txlimOff i else s
  | .airCtl => if s.rose old F.airCtlEn i then s.airStart i else if s.fell old F.airCtlEn i then s.airStop i else s
  | .airBcn =>
    if s.rose old F.airBcnEn i && s.airServes i then s.setAp i { s.ap i with bcnAt := some s.now }
    else if s.fell old F.airBcnEn i then s.setAp i { s.ap i with bcnAt := none }
    else s
  | _ => s

/-- In blocks CIP to ETH. -/
def State.hookUnits (s old : State) (w : RegWrite) : State :=
  let i := w.i
  match w.fam with
  | .cipHrCtl => if s.rose old F.cipHrCtlEn 0 then s.ringEnable else s
  | .cipHrTail => if w.names F.cipHrTailTail then s.ringTail (w.get F.cipHrTailTail) else s
  | .splChCtl => s.spoolCtl w
  | .splChStatus => if w.sets F.splChStatusErr then s.setSp i { s.sp i with err := false } else s
  | .splChDoorbell => if w.sets F.splChDoorbellRing then s.doorbell i else s
  | .senRef =>
    if s.rose old F.senRefEn 0 then s.refEnable
    else if s.fell old F.senRefEn 0 then s.setCnv { s.cnv with ready := false }
    else s
  | .cnvCtl =>
    let s := if s.rose old F.cnvCtlEn 0 then s.cnvEnable else if s.fell old F.cnvCtlEn 0 then s.cnvDisable else s
    if w.sets F.cnvCtlSwtrig then s.trigger s.now else s
  | .fltStrmCtl => if s.rose old F.fltStrmCtlEn 0 then s.strmStart else s
  | .mnsCtl =>
    let s := if s.reg F.mnsCtlNominal = old.reg F.mnsCtlNominal then s else s.newNominal
    if s.rose old F.mnsCtlEn 0 then s.mnsEnable else if s.fell old F.mnsCtlEn 0 then s.mnsDisable else s
  | .mnsPortCfg =>
    if s.reg F.mnsPortCfgSrc i = old.reg F.mnsPortCfgSrc i then s
    else (s.newSource i (s.reg F.mnsPortCfgSrc i)).markMet
  | .seaCtl => if s.rose old F.seaCtlEn 0 then s.seaEnable else if s.fell old F.seaCtlEn 0 then s.seaDisable else s
  | .ethEpCtl => if s.rose old F.ethEpCtlEn i then s.ethEnable i else if s.fell old F.ethEpCtlEn i then s.ethDisable i else s
  | .mnsCommit | .plxCommit | .airCommit | .splChCommit | .cnvCommit | .fltCommit => s.commitWrite w
  | _ => s

/-- STW_XPORT or STW_UDP written: the new value waits until the command's OK response has been sent (03 R70). -/
def State.writeCarrier (s : State) (w : RegWrite) : State :=
  let old := s.stw.carrier.getD (regWord s.regs .stwXport 0 0, regWord s.regs .stwUdp 0 0)
  let m := storeMask w.fam
  let put (v : Word) : Word := (v &&& ~~~m) ||| (w.value &&& m)
  let new := if w.fam = .stwXport then (put old.1, old.2) else (old.1, put old.2)
  { s with stw := { s.stw with carrier := some new } }

/-- One register written whole (00 R6), its retained fields recorded (02 R30). -/
def State.writeReg (s : State) (w : RegWrite) : State :=
  if w.fam = .stwXport ∨ w.fam = .stwUdp then s.writeCarrier w
  else
  let old := s
  let s : State := { s with regs := (s.regs.write w).recount s.now w }
  let s := (s.hookPorts old w).hookUnits old w
  if s.pow.on then s.kept old w.fam w.i w.j else s

/-- A register of a loop output. -/
def RegWrite.ofLoop (w : RegWrite) (n : Nat) : Bool :=
  decide (w.i = n) && (match w.fam with
    | .lopLoCtl | .lopLoFixed | .lopLoV4 | .lopLoV20 => true
    | _ => false)

/-- The registers of a command written in ascending order, unless a restart begins; the loops follow once all are written (16
R384, R388). -/
def State.writeAll (s : State) (l : List RegWrite) : State :=
  let old := s
  let s := l.foldl (fun s w => if s.pow.on then s.writeReg w else s) s
  (List.range 4).foldl (fun s n => if s.pow.on && l.any (·.ofLoop n) then s.loopWritten old n else s) s

/-! ## Visibility of MEM writes (04 R80, R81) -/

/-- A posted write is a session's. -/
def Posted.of (slot gen : Nat) (p : Posted) : Bool := decide (p.slot = slot) && decide (p.gen = gen)

/-- A posted write reaches memory. -/
def State.landOne (s : State) (p : Posted) : State := (s.writeMem 0x00 p.addr p.data).1

/-- Every posted write of a session made visible, in the order of arrival. -/
def State.landAll (s : State) (slot gen : Nat) : State :=
  let mine := s.mem.posted.filter (Posted.of slot gen)
  let s : State := { s with mem := { s.mem with posted := s.mem.posted.filter fun p => !p.of slot gen } }
  mine.foldl (fun s p => s.landOne p) s

/-- Posted writes become visible in order, each no earlier than the device chooses: how many more are visible by the time a
direct-window command runs is free (log entry 121). -/
def State.settle (s : State) : State :=
  let n := s.draw 1020 (s.mem.posted.length + 1)
  let now := s.mem.posted.take n
  let s : State := { s with mem := { s.mem with posted := s.mem.posted.drop n } }
  now.foldl (fun s p => s.landOne p) s

/-- Memory as a session that has posted writes reads it. -/
def Mem.seenBy (m : Mem) (slot gen : Nat) : Mem := (m.posted.filter (Posted.of slot gen)).foldl (fun m p => m.store p.addr p.data) m

/-! ## CFG commands (04 R74 to R78) -/

/-- The operand of a refusal (04 R78). -/
def State.refusal (s : State) (addr reason : Nat) : List Byte := be 4 addr ++ be 1 reason ++ s.open8s 1030 3

/-- The registers at COUNT addresses from ADDR, or the first address that is none (04 R73). -/
def regsFrom (a n : Nat) : Except Nat (List (Fam × Nat × Nat)) :=
  (List.range n).foldr (fun k l => match regOf (a + 4 * k) with
    | some r => l.map (r :: ·)
    | none => .error (a + 4 * k)) (.ok [])

/-- The registers read in ascending order, each with its latch. -/
def State.readAll (s : State) (slot gen arrived : Nat) : List (Fam × Nat × Nat) → State × List Word
  | [] => (s, [])
  | r :: l =>
    let x := s.readReg slot gen arrived r
    let y := x.1.readAll slot gen arrived l
    (y.1, x.2 :: y.2)

/-- CFG READ. -/
def State.cfgRead (s : State) (f : Flight) : State :=
  let a := beAt f.operand 0 4
  let n := beAt f.operand 4 2
  if f.operand.length ≠ 8 ∨ n = 0 ∨ 2048 < n then s.finish f true Status.badLength []
  else match regsFrom a n with
    | .error b => s.finish f true Status.badAddress (s.refusal b 0)
    | .ok l =>
      if s.tooLong f (4 * n) then s.finish f true Status.badLength []
      else
      let x := s.readAll f.slot f.gen f.time l
      x.1.finish f true Status.ok (x.2.flatMap fun v => be 4 v.toNat)

/-- The writes of a command carried out, or refused whole (04 R75, R78); `operand` answers OK. -/
def State.applyWrites (s : State) (f : Flight) (l : List RegWrite) (operand : List Byte) : State :=
  let s := s.landAll f.slot f.gen
  match s.checkAll f.slot s.regs l with
  | some e => s.finish f true e.status (s.refusal e.addr e.reason)
  | none =>
    let t := s.writeAll l
    if t.pow.on then (t.finish f true Status.ok operand (decide (t.stw.carrier ≠ s.stw.carrier))).settleCarrier else t

/-- CFG WRITE. -/
def State.cfgWrite (s : State) (f : Flight) : State :=
  let a := beAt f.operand 0 4
  let n := beAt f.operand 4 2
  if f.operand.length < 8 ∨ n = 0 ∨ 2046 < n ∨ f.operand.length ≠ 8 + 4 * n then s.finish f true Status.badLength []
  else match regsFrom a n with
    | .error b => s.finish f true Status.badAddress (s.refusal b 0)
    | .ok l =>
      let ws := l.zipIdx.map fun x =>
        ({ fam := x.1.1, i := x.1.2.1, j := x.1.2.2, value := BitVec.ofNat 32 (beAt f.operand (8 + 4 * x.2) 4),
           mask := 0xFFFFFFFF#32 } : RegWrite)
      s.applyWrites f ws []

/-- The write a MODIFY makes of a register (04 R434): outside MASK a field is written with the bit read, an RS field with its
shadow's, a W1C or WO field with 0. -/
def State.modifyWrite (s : State) (r : Fam × Nat × Nat) (read mask value : Word) : RegWrite :=
  let rs := classMask r.1 .rs
  let zero := classMask r.1 .w1c ||| classMask r.1 .wo
  let keep := ((read &&& ~~~rs) ||| (shadowWord s.regs r.1 r.2.1 r.2.2 &&& rs)) &&& ~~~zero
  { fam := r.1, i := r.2.1, j := r.2.2, value := (keep &&& ~~~mask) ||| (value &&& mask), mask := mask }

/-- CFG MODIFY. -/
def State.cfgModify (s : State) (f : Flight) : State :=
  let a := beAt f.operand 0 4
  if f.operand.length ≠ 12 then s.finish f true Status.badLength []
  else match regOf a with
    | none => s.finish f true Status.badAddress (s.refusal a 0)
    | some r =>
      let s := s.landAll f.slot f.gen
      let x := s.readReg f.slot f.gen f.time r
      let mask := BitVec.ofNat 32 (beAt f.operand 4 4)
      let value := BitVec.ofNat 32 (beAt f.operand 8 4)
      x.1.applyWrites f [x.1.modifyWrite r x.2 mask value] (be 4 x.2.toNat)

/-- The answer of a WAIT. -/
def State.waitAnswer (s : State) (f : Flight) (v : Word) (met : Bool) : State :=
  s.finish f true Status.ok (be 4 v.toNat ++ be 1 (b2n met) ++ s.open8s 1040 3)

/-- CFG WAIT: the first read; unless it meets the condition, the wait goes on. -/
def State.cfgWait (s : State) (f : Flight) : State :=
  let a := beAt f.operand 0 4
  let us' := beAt f.operand 12 4
  if f.operand.length ≠ 16 ∨ 8000 < us' then s.finish f true Status.badLength []
  else match regOf a with
    | none => s.finish f true Status.badAddress (s.refusal a 0)
    | some r =>
      let mask := BitVec.ofNat 32 (beAt f.operand 4 4)
      let want := BitVec.ofNat 32 (beAt f.operand 8 4)
      let x := s.readReg f.slot f.gen f.time r
      if x.2 &&& mask = want then x.1.waitAnswer f x.2 true
      else
        let w : Wait := { ref := f.ref, slot := f.slot, addr := a, mask := mask, want := want, due := s.now + us' * us }
        let s := x.1
        { s with stw := { s.stw with waits := s.stw.waits ++ [w] } }

/-! ## MEM commands (04 R79 to R84, 01 R15 to R17) -/

/-- MEM READ; `fixed` lists codewords the read corrected. -/
def State.memRead (s : State) (fixed : List Nat) (f : Flight) : State :=
  let a := beAt f.operand 0 8
  let n := beAt f.operand 8 4
  if f.operand.length ≠ 16 ∨ n = 0 ∨ 8192 < n then s.finish f true Status.badLength []
  else match firstBad (mayRead s.mem) a n with
    | some b => s.finish f true Status.badAddress (s.refusal (b % 2 ^ 32) 0)
    | none =>
      if s.tooLong f n then s.finish f true Status.badLength []
      else
      let s := (fixed.filter fun c => inMemory c && touches a n (codeword c)).foldl (fun s c => s.corrected (codeword c)) s
      let rot := (s.mem.seenBy f.slot f.gen).rot.filter (touches a n)
      let s := rot.foldl (fun s c => s.foundRotten 0x00 c) s
      let m := s.mem.seenBy f.slot f.gen
      if (m.poisonIn a n).isEmpty then
        s.finish f true Status.ok ((List.range n).map fun i => s.memOctet m (a + i))
      else s.finish f true Status.memError []

/-- MEM WRITE. One that is not posted lands behind the session's posted writes. A posted one that covers a poisoned codeword only
in part has the status the spec leaves between R81 and 01 R17 (log entry 122). -/
def State.memWrite (s : State) (f : Flight) : State :=
  let a := beAt f.operand 0 8
  let d := f.operand.drop 16
  if f.operand.length < 17 ∨ 8192 < f.operand.length then s.finish f true Status.badLength []
  else match firstBad (mayWrite s.mem) a d.length with
    | some b => s.finish f true Status.badAddress (s.refusal (b % 2 ^ 32) 0)
    | none =>
      if bit (octet f.operand 8) 0 then
        let part := !((s.mem.seenBy f.slot f.gen).poisonPart a d.length).isEmpty
        let p : Posted := { slot := f.slot, gen := f.gen, addr := a, data := d }
        let s : State := { s with mem := { s.mem with posted := s.mem.posted ++ [p] } }
        s.finish f true (if part && decide (s.draw 1021 2 = 1) then Status.memError else Status.ok) []
      else
        let x := (s.landAll f.slot f.gen).writeMem 0x00 a d
        x.1.finish f true (if x.2 then Status.memError else Status.ok) []

/-- MEM FENCE. -/
def State.memFence (s : State) (f : Flight) : State :=
  if !f.operand.isEmpty then s.finish f true Status.badLength []
  else (s.landAll f.slot f.gen).finish f true Status.ok []

/-! ## Execution in order (03 R58; 04 R76, R77) -/

/-- A direct-window command executed; `fixed` is what a MEM READ corrects. -/
def State.runDirect (s : State) (fixed : List Nat) (f : Flight) : State :=
  let s := s.settle
  match f.opcode with
  | 0x101 => s.cfgRead f
  | 0x102 => s.cfgWrite f
  | 0x103 => s.cfgModify f
  | 0x104 => s.cfgWait f
  | 0x201 => s.memRead fixed f
  | 0x202 => s.memWrite f
  | 0x203 => s.memFence f
  | _ => s

/-- The WAIT in progress of a session, with its command. -/
def State.waitOf (s : State) (slot gen : Nat) : Option (Wait × Flight) :=
  s.stw.waits.findSome? fun w => match s.flight? w.ref with
    | some f => if f.slot = slot ∧ f.gen = gen then some (w, f) else none
    | none => none

/-- A direct-window command arrives: accepted under 03 R57, it runs at once, or behind its session's WAIT. -/
def State.arriveDirect (s : State) (m : Inbound) (opcode need : Nat) (fixed : List Nat) : State :=
  let hold := (s.waitOf m.slot m.gen).isSome
  match s.accept m opcode need true (if hold then .held else .waiting) with
  | (s, some f) => if hold then s else s.runDirect fixed f
  | (s, none) => s

/-- The commands held behind a WAIT run in order of arrival, as far as the next WAIT. -/
def State.runHeld (s : State) (slot gen : Nat) (fixed : List Nat) : State :=
  let held := s.stw.flights.filter fun f => decide (f.slot = slot) && decide (f.gen = gen) && decide (f.stage = .held)
  held.foldl (fun s f =>
    if (s.waitOf slot gen).isSome || !s.pow.on then s
    else
      let g : Flight := { f with stage := .waiting }
      (s.setFlight g).runDirect fixed g) s

/-- A WAIT's next read (04 R77): it completes once the condition holds or TIMEOUT_US has passed. -/
def State.waitRead (s : State) (w : Wait) (f : Flight) (fixed : List Nat) : State :=
  match regOf w.addr with
  | none => s
  | some r =>
    let x := s.readReg f.slot f.gen f.time r
    let met := decide (x.2 &&& w.mask = w.want)
    if met || decide (w.due ≤ s.now) then
      let s := x.1
      let s : State := { s with stw := { s.stw with waits := s.stw.waits.filter fun v => decide (v.ref ≠ w.ref) } }
      (s.waitAnswer f x.2 met).runHeld f.slot f.gen fixed
    else x.1

/-! ## The rights of a CFG write (03 R62) -/

/-- The rights that writing registers from ADDR needs, by the block each lies in. -/
def writeRights (a n : Nat) : Nat :=
  let l := (List.range (min n 2046)).map fun k => adminAddr (a + 4 * k)
  (if l.any id then Right.admin else 0) ||| (if l.any (!·) then Right.write else 0)

/-- CFG_READ (04 R74). -/
def execCfgRead (t : Nat) (m : Inbound) (s : State) : Host.Outcome State Fault Refusal :=
  whenOn t (fun s => s.arriveDirect m 0x101 Right.read []) s

/-- CFG_WRITE (04 R75). -/
def execCfgWrite (t : Nat) (m : Inbound) (s : State) : Host.Outcome State Fault Refusal :=
  whenOn t (fun s => s.arriveDirect m 0x102 (writeRights (beAt m.operand 0 4) (beAt m.operand 4 2)) []) s

/-- CFG_MODIFY (04 R434). -/
def execCfgModify (t : Nat) (m : Inbound) (s : State) : Host.Outcome State Fault Refusal :=
  whenOn t (fun s => s.arriveDirect m 0x103 (writeRights (beAt m.operand 0 4) 1) []) s

/-- CFG_WAIT (04 R77). -/
def execCfgWait (t : Nat) (m : Inbound) (s : State) : Host.Outcome State Fault Refusal :=
  whenOn t (fun s => s.arriveDirect m 0x104 Right.read []) s

/-- CFG_WAIT_COMPLETE (04 R77): a read of the WAIT of the open or closed session whose command has the model's number
`ref`. -/
def execCfgWaitComplete (t ref : Nat) (fixed : List Nat) (s : State) : Host.Outcome State Fault Refusal :=
  whenOn t (fun s =>
    match s.stw.waits.find? (fun w => decide (w.ref = ref)), s.flight? ref with
    | some w, some f => s.waitRead w f fixed
    | _, _ => s) s

/-- MEM_READ (04 R79, R81). -/
def execMemRead (t : Nat) (m : Inbound) (fixed : List Nat) (s : State) : Host.Outcome State Fault Refusal :=
  whenOn t (fun s => s.arriveDirect m 0x201 Right.read fixed) s

/-- MEM_WRITE (04 R80, R81). -/
def execMemWrite (t : Nat) (m : Inbound) (s : State) : Host.Outcome State Fault Refusal :=
  whenOn t (fun s => s.arriveDirect m 0x202 Right.write []) s

/-- MEM_FENCE (04 R81); 03 R62 names no right for it. -/
def execMemFence (t : Nat) (m : Inbound) (s : State) : Host.Outcome State Fault Refusal :=
  whenOn t (fun s => s.arriveDirect m 0x203 0 []) s

/-! ## Rows of single registers -/

/-- A register read by the session open at a slot, the value held as `regs.last`. -/
def State.readRow (s : State) (slot arrived : Nat) (f : Fam) : State :=
  let gen := match tget? s.stw.sess slot with
    | some x => x.gen
    | none => 0
  let x := s.readReg slot gen arrived (f, 0, 0)
  let s := x.1
  { s with regs := { s.regs with last := x.2 } }

/-- ELAPSED_LATCH_READ (02 R27). -/
def execElapsedLatchRead (t slot : Nat) (s : State) : Host.Outcome State Fault Refusal :=
  whenOn t (fun s => s.readRow slot s.now .tmbElapsedLo) s

/-- CLUSTER_TIME_LATCH_READ (11 R253). -/
def execClusterTimeLatchRead (t slot : Nat) (s : State) : Host.Outcome State Fault Refusal :=
  whenOn t (fun s => s.readRow slot s.now .seaCtimeLo) s

/-- RX_TIMESTAMP_READ (18 R419): a CFG READ that covers ETH_RXTS_LO and ETH_RXCTS_LO, whose frame arrived at `arrived`. -/
def execRxTimestampRead (t slot arrived : Nat) (s : State) : Host.Outcome State Fault Refusal :=
  whenOn t (fun s => (s.readRow slot arrived .ethRxctsLo).readRow slot arrived .ethRxtsLo) s

/-- REGISTER_WRITE (00 R6): the session at `slot` writes one register; a write that a check refuses changes nothing. -/
def execRegisterWrite (t slot addr : Nat) (value : Word) (s : State) : Host.Outcome State Fault Refusal :=
  whenOn t (fun s =>
    match regOf addr with
    | some (f, i, j) =>
      let w : RegWrite := { fam := f, i := i, j := j, value := value, mask := 0xFFFFFFFF#32 }
      if (s.checkAll slot s.regs [w]).isSome then s else (s.writeAll [w]).settleCarrier
    | none => s) s

/-- COMMIT_GO (04 R91): refused while a hand-over is pending or when an agreement rule fails. -/
def execCommitGo (t addr : Nat) (s : State) : Host.Outcome State Fault Refusal :=
  whenOn t (fun s =>
    match commitAt addr with
    | some (c, i) => if (s.regs.com c i).pend || (s.commitConflict c i).isSome then s else s.commitGo c i
    | none => s) s

/-- COMMIT_DISCARD (04 R90). -/
def execCommitDiscard (t addr : Nat) (s : State) : Host.Outcome State Fault Refusal :=
  whenOn t (fun s =>
    match commitAt addr with
    | some (c, i) => if (s.regs.com c i).pend then s else s.commitDiscard c i
    | none => s) s

/-- COMMIT_APPLY (04 R91, R96): a pending snapshot is applied where its boundary has been reached. -/
def execCommitApply (t addr : Nat) (s : State) : Host.Outcome State Fault Refusal :=
  whenOn t (fun s =>
    match commitAt addr with
    | some (c, i) => if (s.regs.com c i).pend then s.commitBoundary c i else s
    | none => s) s

end Sys2Proof.Machine
end

