-- ==== Sys2Proof/Machine/Steward.lean ====
section
/-!
DEFINITION. Machine/Steward.lean: STEWARD_DISPATCH (03 R59): the active steward pair takes a firmware command and
serves it.
-/

namespace Sys2Proof.Machine

open Sys2Proof

/-- The command taken next: the oldest of the lowest-numbered mailbox queue that is not empty (03, "Firmware commands and a
saturated steward"). -/
def Stw.next (w : Stw) : Option Flight := (List.range 8).findSome? fun mb => (w.queued mb).head?

/-- The service times of a queue, of its last 256 commands (03 R60). -/
def Stw.served (w : Stw) (mb took : Nat) : Stw :=
  let h := tget [] w.svc mb ++ [took]
  { w with svc := tset w.svc mb (h.drop (h.length - 256)) }

/-- A firmware command served, by its opcode (04 R85). -/
def State.serve (s : State) (f : Flight) : State :=
  match f.opcode with
  | 0x301 => s.serveNodeList f
  | 0x302 => s.serveNodeGet f
  | 0x303 => s.serveNodeRemove f
  | 0x304 => s.serveLineDownlink f
  | 0x305 => s.serveMapRead f
  | 0x306 => s.servePortStats f
  | 0x401 => s.serveSensorGet f
  | 0x402 => s.serveAirDownlink f
  | 0x403 => s.serveDisassociate f
  | 0x404 => s.servePendingSet f
  | 0x405 => s.serveDutyRead f
  | 0x406 => s.serveDigestSet f
  | 0x501 => s.serveResults f
  | 0x502 => s.serveLoopSet f
  | 0x503 => s.serveCurveInfo f
  | 0x601 => s.serveKeyLoad f
  | 0x602 => s.serveKeyDelete f
  | 0x603 => s.serveKeyStatus f
  | 0x604 => s.serveRootProvision f
  | 0x605 => s.serveKeyAlarm f
  | 0x701 => s.serveCluStatus f
  | 0x702 => s.serveRegGet f
  | 0x703 => s.serveRegPut f
  | 0x704 => s.serveStations f
  | 0x705 => s.serveCluLeave f
  | 0x801 => s.serveCapStart f
  | 0x802 => s.serveCapStop f
  | 0x901 => s.serveMemdesc f
  | 0x902 => s.serveFaultLog f
  | 0x903 => s.serveEngine f
  | _ => s

/-- STEWARD_DISPATCH (03 R59): `took` is the command's service time in microseconds. -/
def execStewardDispatch (t took : Nat) (s : State) : Host.Outcome State Fault Refusal :=
  whenOn t (fun s =>
    if !s.fwRuns then s
    else match s.stw.next with
      | none => s
      | some f =>
        let g : Flight := { f with stage := .waiting }
        let s : State := { s with stw := s.stw.served f.mb took }
        (s.setFlight g).serve g) s

end Sys2Proof.Machine
end

