-- ==== Sys2Proof/Machine/Dispatch.lean ====
section
/-!
DEFINITION. Machine/Dispatch.lean: one arm for each command, each a direct call of its meaning.
-/

namespace Sys2Proof.Machine

def exec (i : Instr) (s : State) : Host.Outcome State Fault Refusal :=
  match i with
  | .porstAssert t => Sys2Proof.Machine.execPorstAssert t s
  | .startSequence t pins sealBad => Sys2Proof.Machine.execStartSequence t pins sealBad s
  | .refclkLoss t => Sys2Proof.Machine.execRefclkLoss t s
  | .restart t => Sys2Proof.Machine.execRestart t s
  | .liningWriteDone t wear => Sys2Proof.Machine.execLiningWriteDone t wear s
  | .factoryArm t => Sys2Proof.Machine.execFactoryArm t s
  | .factoryDisarm t => Sys2Proof.Machine.execFactoryDisarm t s
  | .bankWrite t bank => Sys2Proof.Machine.execBankWrite t bank s
  | .bankWriteDone t => Sys2Proof.Machine.execBankWriteDone t s
  | .elapsedLatchRead t slot => Sys2Proof.Machine.execElapsedLatchRead t slot s
  | .clusterTimeLatchRead t slot => Sys2Proof.Machine.execClusterTimeLatchRead t slot s
  | .rxTimestampRead t slot arrived => Sys2Proof.Machine.execRxTimestampRead t slot arrived s
  | .registerWrite t slot addr value => Sys2Proof.Machine.execRegisterWrite t slot addr value s
  | .ethFrameDiscard t f => Sys2Proof.Machine.execEthFrameDiscard t f s
  | .arpRequest t port mac ip target => Sys2Proof.Machine.execArpRequest t port mac ip target s
  | .neighbourSolicitation t port mac ip target => Sys2Proof.Machine.execNeighbourSolicitation t port mac ip target s
  | .sessionOpen t m => Sys2Proof.Machine.execSessionOpen t m s
  | .sessionClose t m => Sys2Proof.Machine.execSessionClose t m s
  | .sessionKeepalive t m => Sys2Proof.Machine.execSessionKeepalive t m s
  | .ackMessage t m => Sys2Proof.Machine.execAckMessage t m s
  | .sessionIdleExpiry t slot => Sys2Proof.Machine.execSessionIdleExpiry t slot s
  | .pendingTimeout t slot tag => Sys2Proof.Machine.execPendingTimeout t slot tag s
  | .eventResend t slot seq => Sys2Proof.Machine.execEventResend t slot seq s
  | .recordResend t slot seq => Sys2Proof.Machine.execRecordResend t slot seq s
  | .stewardDispatch t took => Sys2Proof.Machine.execStewardDispatch t took s
  | .cfgRead t m => Sys2Proof.Machine.execCfgRead t m s
  | .cfgWrite t m => Sys2Proof.Machine.execCfgWrite t m s
  | .cfgModify t m => Sys2Proof.Machine.execCfgModify t m s
  | .cfgWait t m => Sys2Proof.Machine.execCfgWait t m s
  | .cfgWaitComplete t ref fixed => Sys2Proof.Machine.execCfgWaitComplete t ref fixed s
  | .memRead t m fixed => Sys2Proof.Machine.execMemRead t m fixed s
  | .memWrite t m => Sys2Proof.Machine.execMemWrite t m s
  | .memFence t m => Sys2Proof.Machine.execMemFence t m s
  | .linkNodeList t m => Sys2Proof.Machine.execLinkNodeList t m s
  | .linkNodeGet t m => Sys2Proof.Machine.execLinkNodeGet t m s
  | .linkNodeRemove t m => Sys2Proof.Machine.execLinkNodeRemove t m s
  | .linkDownlink t m => Sys2Proof.Machine.execLinkDownlink t m s
  | .linkMapRead t m => Sys2Proof.Machine.execLinkMapRead t m s
  | .linkPortStats t m => Sys2Proof.Machine.execLinkPortStats t m s
  | .airSensorGet t m => Sys2Proof.Machine.execAirSensorGet t m s
  | .airDownlink t m => Sys2Proof.Machine.execAirDownlink t m s
  | .airDisassociate t m => Sys2Proof.Machine.execAirDisassociate t m s
  | .airPendingSet t m => Sys2Proof.Machine.execAirPendingSet t m s
  | .airDutyRead t m => Sys2Proof.Machine.execAirDutyRead t m s
  | .airDigestSet t m => Sys2Proof.Machine.execAirDigestSet t m s
  | .sensResults t m => Sys2Proof.Machine.execSensResults t m s
  | .sensLoopSet t m => Sys2Proof.Machine.execSensLoopSet t m s
  | .sensCurveInfo t m => Sys2Proof.Machine.execSensCurveInfo t m s
  | .keyLoad t m => Sys2Proof.Machine.execKeyLoad t m s
  | .keyDelete t m => Sys2Proof.Machine.execKeyDelete t m s
  | .keyStatus t m => Sys2Proof.Machine.execKeyStatus t m s
  | .keyRootProvision t m => Sys2Proof.Machine.execKeyRootProvision t m s
  | .keyAlarm t m => Sys2Proof.Machine.execKeyAlarm t m s
  | .cluStatus t m => Sys2Proof.Machine.execCluStatus t m s
  | .cluRegGet t m => Sys2Proof.Machine.execCluRegGet t m s
  | .cluRegPut t m => Sys2Proof.Machine.execCluRegPut t m s
  | .cluStations t m => Sys2Proof.Machine.execCluStations t m s
  | .cluLeave t m => Sys2Proof.Machine.execCluLeave t m s
  | .capStart t m => Sys2Proof.Machine.execCapStart t m s
  | .capStop t m => Sys2Proof.Machine.execCapStop t m s
  | .captureDurationEnd t slot stream => Sys2Proof.Machine.execCaptureDurationEnd t slot stream s
  | .captureBlock t slot stream ns samples => Sys2Proof.Machine.execCaptureBlock t slot stream ns samples s
  | .diagMemdesc t m => Sys2Proof.Machine.execDiagMemdesc t m s
  | .diagFaultLog t m => Sys2Proof.Machine.execDiagFaultLog t m s
  | .diagEngine t m => Sys2Proof.Machine.execDiagEngine t m s
  | .commitGo t addr => Sys2Proof.Machine.execCommitGo t addr s
  | .commitDiscard t addr => Sys2Proof.Machine.execCommitDiscard t addr s
  | .commitApply t addr => Sys2Proof.Machine.execCommitApply t addr s
  | .plxEnable t port => Sys2Proof.Machine.execPlxEnable t port s
  | .plxDisable t port => Sys2Proof.Machine.execPlxDisable t port s
  | .calRestart t port => Sys2Proof.Machine.execCalRestart t port s
  | .calFreeze t port => Sys2Proof.Machine.execCalFreeze t port s
  | .calResume t port => Sys2Proof.Machine.execCalResume t port s
  | .calConverged t port spur => Sys2Proof.Machine.execCalConverged t port spur s
  | .lineReady t port => Sys2Proof.Machine.execLineReady t port s
  | .txlimDisable t port => Sys2Proof.Machine.execTxlimDisable t port s
  | .mnsEnable t => Sys2Proof.Machine.execMnsEnable t s
  | .mnsDisable t => Sys2Proof.Machine.execMnsDisable t s
  | .mnsSrcChange t port src => Sys2Proof.Machine.execMnsSrcChange t port src s
  | .mainsCrossing t phase seen ampl => Sys2Proof.Machine.execMainsCrossing t phase seen ampl s
  | .pleatStart t port outs => Sys2Proof.Machine.execPleatStart t port outs s
  | .mapRebuildDone t port slot => Sys2Proof.Machine.execMapRebuildDone t port slot s
  | .linePreamblePeak t port slot peak start => Sys2Proof.Machine.execLinePreamblePeak t port slot peak start s
  | .lineDelimiterCheck t port slot place soft => Sys2Proof.Machine.execLineDelimiterCheck t port slot place soft s
  | .lineHeaderCheck t port slot place head rival energy snr => Sys2Proof.Machine.execLineHeaderCheck t port slot place head rival energy snr s
  | .linePayloadCheck t port slot outs soft energy snr => Sys2Proof.Machine.execLinePayloadCheck t port slot outs soft energy snr s
  | .lineAckStart t port slot => Sys2Proof.Machine.execLineAckStart t port slot s
  | .lineAckDecision t port slot => Sys2Proof.Machine.execLineAckDecision t port slot s
  | .lineContentionEnd t port slot => Sys2Proof.Machine.execLineContentionEnd t port slot s
  | .lineDefer t port slot level => Sys2Proof.Machine.execLineDefer t port slot level s
  | .lineTxEnd t port slot => Sys2Proof.Machine.execLineTxEnd t port slot s
  | .lineAckTimeout t port slot => Sys2Proof.Machine.execLineAckTimeout t port slot s
  | .lineRetryDelayEnd t port slot => Sys2Proof.Machine.execLineRetryDelayEnd t port slot s
  | .txlimStep t port => Sys2Proof.Machine.execTxlimStep t port s
  | .txlimRecover t port => Sys2Proof.Machine.execTxlimRecover t port s
  | .discoverDue t port slot => Sys2Proof.Machine.execDiscoverDue t port slot s
  | .joinLapse t short => Sys2Proof.Machine.execJoinLapse t short s
  | .nodeLost t short => Sys2Proof.Machine.execNodeLost t short s
  | .airEnable t port => Sys2Proof.Machine.execAirEnable t port s
  | .airDisable t port => Sys2Proof.Machine.execAirDisable t port s
  | .jesdAttempt t port => Sys2Proof.Machine.execJesdAttempt t port s
  | .jesdCodeGroupSync t port => Sys2Proof.Machine.execJesdCodeGroupSync t port s
  | .jesdIlas t port ilas => Sys2Proof.Machine.execJesdIlas t port ilas s
  | .jesdTxsyncRelease t port => Sys2Proof.Machine.execJesdTxsyncRelease t port s
  | .jesdSyncTimeout t port => Sys2Proof.Machine.execJesdSyncTimeout t port s
  | .jesdLinkUp t port => Sys2Proof.Machine.execJesdLinkUp t port s
  | .jesdLinkDown t port reason => Sys2Proof.Machine.execJesdLinkDown t port reason s
  | .paceOverrun t air port lost => Sys2Proof.Machine.execPaceOverrun t air port lost s
  | .airPreamblePeak t port chan peak inst => Sys2Proof.Machine.execAirPreamblePeak t port chan peak inst s
  | .airPhrCheck t port chan place head => Sys2Proof.Machine.execAirPhrCheck t port chan place head s
  | .airFcsCheck t port chan outs soft snr => Sys2Proof.Machine.execAirFcsCheck t port chan outs soft snr s
  | .airAckSend t port chan => Sys2Proof.Machine.execAirAckSend t port chan s
  | .airTxStart t port => Sys2Proof.Machine.execAirTxStart t port s
  | .airTxEnd t port chan => Sys2Proof.Machine.execAirTxEnd t port chan s
  | .airAckWindowEnd t id => Sys2Proof.Machine.execAirAckWindowEnd t id s
  | .airBeaconDue t port => Sys2Proof.Machine.execAirBeaconDue t port s
  | .dutyBinAdvance t => Sys2Proof.Machine.execDutyBinAdvance t s
  | .phaseTargetCheck t id => Sys2Proof.Machine.execPhaseTargetCheck t id s
  | .lbtListenEnd t id outs => Sys2Proof.Machine.execLbtListenEnd t id outs s
  | .lbtBackoffEnd t id => Sys2Proof.Machine.execLbtBackoffEnd t id s
  | .pendingWindowSend t ext => Sys2Proof.Machine.execPendingWindowSend t ext s
  | .pendingWindowEnd t ext => Sys2Proof.Machine.execPendingWindowEnd t ext s
  | .assocLapse t short => Sys2Proof.Machine.execAssocLapse t short s
  | .downlinkExpiry t slot tag => Sys2Proof.Machine.execDownlinkExpiry t slot tag s
  | .seaEnable t => Sys2Proof.Machine.execSeaEnable t s
  | .seaDisable t => Sys2Proof.Machine.execSeaDisable t s
  | .helloDue t => Sys2Proof.Machine.execHelloDue t s
  | .helloRx t m => Sys2Proof.Machine.execHelloRx t m s
  | .memberSilent t station => Sys2Proof.Machine.execMemberSilent t station s
  | .listenTimeout t => Sys2Proof.Machine.execListenTimeout t s
  | .seamJoinReqDue t => Sys2Proof.Machine.execSeamJoinReqDue t s
  | .seamJoinReq t m => Sys2Proof.Machine.execSeamJoinReq t m s
  | .joinAck t m => Sys2Proof.Machine.execJoinAck t m s
  | .seamLeave t m => Sys2Proof.Machine.execSeamLeave t m s
  | .deputyAppoint t m => Sys2Proof.Machine.execDeputyAppoint t m s
  | .deputySyncDone t last copy => Sys2Proof.Machine.execDeputySyncDone t last copy s
  | .mirror t m => Sys2Proof.Machine.execMirror t m s
  | .mirrorAck t m => Sys2Proof.Machine.execMirrorAck t m s
  | .mirrorResend t => Sys2Proof.Machine.execMirrorResend t s
  | .mirrorTimeout t => Sys2Proof.Machine.execMirrorTimeout t s
  | .clusterBeaconDue t => Sys2Proof.Machine.execClusterBeaconDue t s
  | .clusterBeaconRx t m => Sys2Proof.Machine.execClusterBeaconRx t m s
  | .beaconMiss t => Sys2Proof.Machine.execBeaconMiss t s
  | .takeoverTimeout t => Sys2Proof.Machine.execTakeoverTimeout t s
  | .homeClaim t m => Sys2Proof.Machine.execHomeClaim t m s
  | .claimAck t m => Sys2Proof.Machine.execClaimAck t m s
  | .claimResend t ext => Sys2Proof.Machine.execClaimResend t ext s
  | .electDue t => Sys2Proof.Machine.execElectDue t s
  | .electRx t m => Sys2Proof.Machine.execElectRx t m s
  | .electionClose t => Sys2Proof.Machine.execElectionClose t s
  | .delayReqDue t => Sys2Proof.Machine.execDelayReqDue t s
  | .delayReq t m => Sys2Proof.Machine.execDelayReq t m s
  | .delayResp t m => Sys2Proof.Machine.execDelayResp t m s
  | .clusterTimeLapse t => Sys2Proof.Machine.execClusterTimeLapse t s
  | .scMetrics t m => Sys2Proof.Machine.execScMetrics t m s
  | .groupClose t num => Sys2Proof.Machine.execGroupClose t num s
  | .scResult t m => Sys2Proof.Machine.execScResult t m s
  | .scResultAck t m => Sys2Proof.Machine.execScResultAck t m s
  | .scResultResend t num => Sys2Proof.Machine.execScResultResend t num s
  | .digestExpiry t short seq => Sys2Proof.Machine.execDigestExpiry t short seq s
  | .checkpoint t n => Sys2Proof.Machine.execCheckpoint t n s
  | .engineFault t n detect fault bad => Sys2Proof.Machine.execEngineFault t n detect fault bad s
  | .patchCaughtUp t n load => Sys2Proof.Machine.execPatchCaughtUp t n load s
  | .engineSelfTestDone t n failed => Sys2Proof.Machine.execEngineSelfTestDone t n failed s
  | .sparesTargetWrite t n => Sys2Proof.Machine.execSparesTargetWrite t n s
  | .contextEnd t kind port slot place => Sys2Proof.Machine.execContextEnd t kind port slot place s
  | .pairFault t detect interrupt => Sys2Proof.Machine.execPairFault t detect interrupt s
  | .standbyFault t detect => Sys2Proof.Machine.execStandbyFault t detect s
  | .pairSelfTestDone t pair pass => Sys2Proof.Machine.execPairSelfTestDone t pair pass s
  | .unitFault t check unit detect jobs interrupt => Sys2Proof.Machine.execUnitFault t check unit detect jobs interrupt s
  | .vote t block inst ecc => Sys2Proof.Machine.execVote t block inst ecc s
  | .memoryPatrol t lo n fixed bad => Sys2Proof.Machine.execMemoryPatrol t lo n fixed bad s
  | .faultLogWrite t => Sys2Proof.Machine.execFaultLogWrite t s
  | .injectEngineFault t target => Sys2Proof.Machine.execInjectEngineFault t target s
  | .injectPairFault t target => Sys2Proof.Machine.execInjectPairFault t target s
  | .injectPortFault t target => Sys2Proof.Machine.execInjectPortFault t target s
  | .tamperMeshOpen t => Sys2Proof.Machine.execTamperMeshOpen t s
  | .supplyAlarm t supply reading => Sys2Proof.Machine.execSupplyAlarm t supply reading s
  | .temperatureAlarm t celsius => Sys2Proof.Machine.execTemperatureAlarm t celsius s
  | .liningTamperCheck t sealOk => Sys2Proof.Machine.execLiningTamperCheck t sealOk s
  | .alarmWrappedKeyClear t => Sys2Proof.Machine.execAlarmWrappedKeyClear t s
  | .cipherJobSubmit t desc => Sys2Proof.Machine.execCipherJobSubmit t desc s
  | .cipherJobStart t => Sys2Proof.Machine.execCipherJobStart t s
  | .cipherJobComplete t core => Sys2Proof.Machine.execCipherJobComplete t core s
  | .hostRingEnable t => Sys2Proof.Machine.execHostRingEnable t s
  | .hostRingDisable t => Sys2Proof.Machine.execHostRingDisable t s
  | .hostRingDoorbell t tail => Sys2Proof.Machine.execHostRingDoorbell t tail s
  | .checkJob t poly fold data want => Sys2Proof.Machine.execCheckJob t poly fold data want s
  | .spoolEnable t spool => Sys2Proof.Machine.execSpoolEnable t spool s
  | .spoolStopRequest t spool => Sys2Proof.Machine.execSpoolStopRequest t spool s
  | .spoolDisable t spool => Sys2Proof.Machine.execSpoolDisable t spool s
  | .spoolDoorbell t spool => Sys2Proof.Machine.execSpoolDoorbell t spool s
  | .descriptorStart t spool => Sys2Proof.Machine.execDescriptorStart t spool s
  | .spoolBurst t write => Sys2Proof.Machine.execSpoolBurst t write s
  | .descriptorComplete t spool => Sys2Proof.Machine.execDescriptorComplete t spool s
  | .barWriteback t spool => Sys2Proof.Machine.execBarWriteback t spool s
  | .spoolDone t spool => Sys2Proof.Machine.execSpoolDone t spool s
  | .refEnable t => Sys2Proof.Machine.execRefEnable t s
  | .refReady t => Sys2Proof.Machine.execRefReady t s
  | .cnvEnable t => Sys2Proof.Machine.execCnvEnable t s
  | .cnvDisable t => Sys2Proof.Machine.execCnvDisable t s
  | .cnvCalConverged t => Sys2Proof.Machine.execCnvCalConverged t s
  | .swtrig t => Sys2Proof.Machine.execSwtrig t s
  | .sequenceTrigger t => Sys2Proof.Machine.execSequenceTrigger t s
  | .sequenceStart t => Sys2Proof.Machine.execSequenceStart t s
  | .rawSample t codes => Sys2Proof.Machine.execRawSample t codes s
  | .dwellEnd t => Sys2Proof.Machine.execDwellEnd t s
  | .wireBreak t n curs => Sys2Proof.Machine.execWireBreak t n curs s
  | .wireRestore t n cur => Sys2Proof.Machine.execWireRestore t n cur s
  | .filterOutput t e => Sys2Proof.Machine.execFilterOutput t e s
  | .streamEnable t => Sys2Proof.Machine.execStreamEnable t s
  | .loopStale t n => Sys2Proof.Machine.execLoopStale t n s
  | .loopRegulationFault t n on => Sys2Proof.Machine.execLoopRegulationFault t n on s
  | .loopPwmEvent t n => Sys2Proof.Machine.execLoopPwmEvent t n s
  | .ethPortEnable t port => Sys2Proof.Machine.execEthPortEnable t port s
  | .ethPortDisable t port => Sys2Proof.Machine.execEthPortDisable t port s
  | .ethPortReconfigure t port => Sys2Proof.Machine.execEthPortReconfigure t port s
  | .ethLinkUp t port => Sys2Proof.Machine.execEthLinkUp t port s
  | .ethLinkDown t port reason detect interrupt => Sys2Proof.Machine.execEthLinkDown t port reason detect interrupt s
  | .pfcPauseRx t port quanta => Sys2Proof.Machine.execPfcPauseRx t port quanta s
  | .pfcPauseExpiry t port prio => Sys2Proof.Machine.execPfcPauseExpiry t port prio s
  | .pfcPauseRefresh t port prio level => Sys2Proof.Machine.execPfcPauseRefresh t port prio level s
  | .linkSlotIdle t port slot => Sys2Proof.Machine.execLinkSlotIdle t port slot s
  | .undefinedCommand t m session opcode => Sys2Proof.Machine.execUndefinedCommand t m session opcode s
  | .alarmCauseRemoved t source => Sys2Proof.Machine.execAlarmCauseRemoved t source s
  | .checkpointComplete t n => Sys2Proof.Machine.execCheckpointComplete t n s

end Sys2Proof.Machine
end

