-- ==== Sys2Proof/Safety.lean ====
section
/-!
DEFINITION. Safety.lean: what a safe run of the block is, and the terms that statements use: which blocks of State a
command leaves, which command passes the mailbox engine's checks (03 R57), what a response says.
-/

namespace Sys2Proof.Safety

open Sys2Proof Sys2Proof.Machine

/-! ## Runs -/

/-- A step that neither faults nor refuses. -/
def Runs (s : State) : Prop := ∃ t, step s = .next t

/-- The state after a step, where there is one. -/
def After (s t : State) : Prop := step s = .next t

/-- States that a run comes to from a state. -/
inductive Reaches : State → State → Prop
  | refl (s : State) : Reaches s s
  | tail {s t u : State} : Reaches s t → After t u → Reaches s u

/-- A command completes in a state, with an effect. -/
def Does (c : Instr) (s : State) (effect : State → Prop) : Prop := ∃ u, exec c s = .next u ∧ effect u

/-! ## Frames -/

/-- The parts of State that a frame names. -/
inductive Block
  | regs | pow | lin | stw | mem | eth | fau | cip | caps | mns | sea | plx | air | sc | spl | cnv | chans | loops
  deriving DecidableEq, Repr

/-- Two states agree in one part. -/
def Same (s t : State) : Block → Prop
  | .regs => t.regs = s.regs
  | .pow => t.pow = s.pow
  | .lin => t.lin = s.lin
  | .stw => t.stw = s.stw
  | .mem => t.mem = s.mem
  | .eth => t.eth = s.eth
  | .fau => t.fau = s.fau
  | .cip => t.cip = s.cip
  | .caps => t.caps = s.caps
  | .mns => t.mns = s.mns
  | .sea => t.sea = s.sea
  | .plx => t.plx = s.plx
  | .air => t.air = s.air
  | .sc => t.sc = s.sc
  | .spl => t.spl = s.spl
  | .cnv => t.cnv = s.cnv
  | .chans => t.chans = s.chans
  | .loops => t.loops = s.loops

/-- `t` differs from `s` in the parts listed alone (the clock and the free-value counter aside). -/
def Only (parts : List Block) (s t : State) : Prop := ∀ b, b ∉ parts → Same s t b

/-- What reset leaves of a state (02 R23, R29): no processing, and no output driven; of the lining the record being written whole or not at
all, and no other; a bank being written fails its check, with the image the model gives it (log entry 110). -/
def Stopped (s u : State) : Prop :=
  u.pow.on = false ∧ u.caps = [] ∧ u.lin.writes = [] ∧ u.lin.bankWrite = none ∧
  Only [.pow, .lin, .caps, .eth, .plx, .air, .loops] s u ∧
  (∀ p, (u.ep p).up = false ∧ (u.ep p).queues = []) ∧ (∀ e ∈ u.loops, e.2.ua = 0) ∧
  u.plx = { s.plx with ports := u.plx.ports } ∧
  (∀ e ∈ u.plx.ports, e.2.service = false ∧ ∀ x ∈ e.2.slots, x.2.tx = none ∧ x.2.tail = none) ∧
  u.air = { s.air with ports := u.air.ports } ∧
  (∀ e ∈ u.air.ports, e.2.up = false ∧ e.2.sends = [] ∧ e.2.tails = [] ∧ e.2.dclk = none) ∧
  ∃ l : Lining, (l = s.lin ∨ ∃ w rest, s.lin.writes = w :: rest ∧ l = s.lin.store w.what) ∧
    u.lin = { l with writes := [], bankWrite := none, banks := u.lin.banks } ∧
    (s.lin.bankWrite = none → u.lin.banks = l.banks) ∧
    ∀ b k, s.lin.bankWrite = some b → tget? u.lin.banks k =
      if k = b.bank then some { image := [], crc := 1, valid := false } else tget? l.banks k

/-! ## Mailbox commands (03 R57) -/

/-- A COMMAND message that passes the checks of 03 R57 which the session decides: it arrives on a port that is up, by a mailbox
carrier (03 R43, 18 R410) that is enabled, whole, of version 1, with a LENGTH that agrees, for an open session with the right GEN, under a
tag that is free and not a duplicate, with a credit left and the rights `need`. -/
structure Sound (s : State) (m : Inbound) (need : Nat) (x : Session) : Prop where
  on : s.pow.on = true
  reaches : s.reaches m = true
  carrier : s.carrierOn m = true
  whole : 16 ≤ m.payLen
  version : m.version = 1
  length : lenOk m = true
  session : tget? s.stw.sess m.slot = some x
  gen : x.gen = m.gen
  fresh : ∀ r, tget? x.tags (m.tag % 4096) = some r → r.seq ≠ m.seq ∧ r.busy = false
  credit : x.inFlight < x.grant
  rights : x.rights &&& need = need

/-- Besides, the firmware runs and no firmware command is ahead of this one (03 R59); `refs` is kept by every step (see
the statement NumbersStayFresh). -/
structure Served (s : State) (m : Inbound) (need : Nat) (x : Session) : Prop extends Sound s m need x where
  firmware : s.fwRuns = true
  alone : ∀ f ∈ s.stw.flights, f.stage ≠ .queued
  mailbox : m.mb < 8
  refs : ∀ f ∈ s.stw.flights, f.ref < s.stw.nextRef

/-- A frame of a kind, for an address, with a body, stands in a transmit queue (18 R414) of some Ethernet port. -/
def Queued (q : Nat) (f : Frame) (t : State) : Prop :=
  ∃ p, ∃ g ∈ tget [] (t.ep p).queues q, g.kind = f.kind ∧ g.dst = f.dst ∧ g.body = f.body

/-- The frame that an up port sends next, from its queue `q`, with those that stay behind it (18 R414 to R416): a pause frame first, else
the head of the lowest-numbered queue whose head may leave. -/
def NextFrame (s : State) (p q : Nat) (f : Frame) (l : List Frame) : Prop :=
  tget [] (s.ep p).queues q = f :: l ∧
    (q = 5 ∨ (q < 5 ∧ tget [] (s.ep p).queues 5 = [] ∧ s.mayLeave p q f = true ∧
      ∀ k g r, k < q → tget [] (s.ep p).queues k = g :: r → s.mayLeave p k g = false))

/-- Such a frame carries the EtherType, or the UDP source port, of its traffic (03 R43; 11 R233). -/
def QueuedAs (q : Nat) (f : Frame) (proto : Nat) (t : State) : Prop :=
  ∃ p, ∃ g ∈ tget [] (t.ep p).queues q, g.kind = f.kind ∧ g.dst = f.dst ∧ g.body = f.body ∧ g.proto = proto

/-- What a mailbox message carries to an address as its EtherType, or its UDP source port (03 R43). -/
def mailProto (s : State) (a : Addr) : Nat := if a.udp then s.reg F.stwUdpPort else s.reg F.stwXportEthertype

/-- The response to a command, with its FLAGS (6 DIRECT and FINAL, 2 FINAL, 4 DIRECT), STATUS and operand (03 R45); bit 12 of
octets 2 and 3 is reserved, and the device sends it as 0. -/
def response (m : Inbound) (opcode flags status : Nat) (operand : List Byte) : Frame :=
  { kind := .response, dst := m.src, body := message 1 flags m.mb (m.tag % 4096) opcode m.seq m.slot m.gen status operand }

/-- The engine's answer to a SESSION message (03 R48). -/
def sessionReply (m : Inbound) (opcode status slot gen : Nat) (operand : List Byte) : Frame :=
  { kind := .session, dst := m.src, body := message 6 6 0 0 opcode m.seq slot gen status operand }

/-- A final response of the firmware to a command is queued. -/
def Answered (m : Inbound) (opcode status : Nat) (operand : List Byte) (t : State) : Prop :=
  Queued 2 (response m opcode 2 status operand) t

/-- A final response of the engine itself is queued. -/
def Direct (m : Inbound) (opcode status : Nat) (operand : List Byte) (t : State) : Prop :=
  Queued 2 (response m opcode 6 status operand) t

/-- A message that passes checks 1 to 4 of 03 R57. -/
def Good (s : State) (m : Inbound) : Prop :=
  s.pow.on = true ∧ s.reaches m = true ∧ s.takes m = true ∧ s.headChecks m = none

/-- The firmware rows of the table (04 R85): the instant, the message, the opcode and the rights it needs. -/
def firmwareRow : Instr → Option (Nat × Inbound × Nat × Nat)
  | .linkNodeList t m => some (t, m, 0x301, Right.operate)
  | .linkNodeGet t m => some (t, m, 0x302, Right.operate)
  | .linkNodeRemove t m => some (t, m, 0x303, Right.operate)
  | .linkDownlink t m => some (t, m, 0x304, Right.operate)
  | .linkMapRead t m => some (t, m, 0x305, Right.operate)
  | .linkPortStats t m => some (t, m, 0x306, Right.operate)
  | .airSensorGet t m => some (t, m, 0x401, Right.operate)
  | .airDownlink t m => some (t, m, 0x402, Right.operate)
  | .airDisassociate t m => some (t, m, 0x403, Right.operate)
  | .airPendingSet t m => some (t, m, 0x404, Right.operate)
  | .airDutyRead t m => some (t, m, 0x405, Right.operate)
  | .airDigestSet t m => some (t, m, 0x406, Right.operate)
  | .sensResults t m => some (t, m, 0x501, Right.operate)
  | .sensLoopSet t m => some (t, m, 0x502, Right.operate)
  | .sensCurveInfo t m => some (t, m, 0x503, Right.operate)
  | .keyLoad t m => some (t, m, 0x601, Right.key)
  | .keyDelete t m => some (t, m, 0x602, Right.key)
  | .keyStatus t m => some (t, m, 0x603, Right.key)
  | .keyRootProvision t m => some (t, m, 0x604, Right.key)
  | .keyAlarm t m => some (t, m, 0x605, Right.key)
  | .cluStatus t m => some (t, m, 0x701, Right.cluster)
  | .cluRegGet t m => some (t, m, 0x702, Right.cluster)
  | .cluRegPut t m => some (t, m, 0x703, Right.cluster)
  | .cluStations t m => some (t, m, 0x704, Right.cluster)
  | .cluLeave t m => some (t, m, 0x705, Right.cluster)
  | .capStart t m => some (t, m, 0x801, Right.capture)
  | .capStop t m => some (t, m, 0x802, Right.capture)
  | .diagMemdesc t m => some (t, m, 0x901, Right.diag)
  | .diagFaultLog t m => some (t, m, 0x902, Right.diag)
  | .diagEngine t m => some (t, m, 0x903, Right.diag)
  | _ => none

/-- The command a message makes in flight at an instant (03 R54, R55). -/
def flightOf (s : State) (m : Inbound) (opcode t : Nat) (st : Stage) : Flight :=
  { ref := s.stw.nextRef, slot := m.slot, gen := m.gen, tag := m.tag % 4096, seq := m.seq, mb := m.mb, opcode := opcode,
    time := max s.now t, src := m.src, port := m.port, operand := m.operand, pend := false, stage := st }

/-- A firmware command arrives, and the steward pair takes it at instant `at_`: the state after both. -/
def Handled (c : Instr) (at_ took : Nat) (s : State) (effect : State → Prop) : Prop :=
  ∃ u v, exec c s = .next u ∧ exec (.stewardDispatch at_ took) u = .next v ∧ effect v

/-- A cipher job of the device's own has been accepted, or waits for a place (14 R324). -/
def Offered (w : JobWait) (t : State) : Prop :=
  (∃ j ∈ t.cip.jobs, j.desc = w.desc ∧ j.own = w.own ∧ j.use = w.use) ∨ w ∈ t.cip.waits

/-- A job that secures a frame (14 R318): CCM*, with its key, its octets and no error. -/
def Seals (j : Job) (k : KeyRec) (src : List Byte) : Prop :=
  jMode j.desc = 3 ∧ bit (jFlags j.desc) 0 = false ∧ j.key = some k ∧ j.own = some src ∧ j.bad = 0 ∧ j.ring = none

/-! ## The direct window (04 R72 to R84) -/

/-- The state in which a direct-window command of an instant runs: the mailbox engine holds it, and nothing else moved. -/
def Arrived (s : State) (m : Inbound) (opcode t : Nat) (v : State) : Prop :=
  Only [.stw] s v ∧ v.now = max s.now t ∧ v.stw.flights = s.stw.flights ++ [flightOf s m opcode t .waiting] ∧
    (∀ k, (tget? v.stw.sess k).isSome = (tget? s.stw.sess k).isSome) ∧ v.stw.waits = s.stw.waits ∧
    v.stw.carrier = s.stw.carrier

/-- No WAIT of the session holds the command back (04 R77), and no posted write is still to land (R81). -/
def Clear (s : State) (m : Inbound) : Prop := s.waitOf m.slot m.gen = none ∧ s.mem.posted = []

/-- The RS fields of some registers have taken the values `w` (04 R91). -/
def Took (u : State) (l : List (Fam × Nat × Nat)) (w : Fam → Nat → Nat → Word) : Prop :=
  ∀ r ∈ l, regWord u.regs r.1 r.2.1 r.2.2 &&& classMask r.1 .rs = w r.1 r.2.1 r.2.2 &&& classMask r.1 .rs

/-- The registers of a scope that belong to one link, channel or entry, by the number they are held under (04 R96). -/
def partRegs (c : Fam) (i m : Nat) : List (Fam × Nat × Nat) :=
  match c with
  | .plxCommit => [(.plxLsRegion, i, m), (.plxLsTx, i, m)]
  | .airCommit => [(.airChCfg, i, m), (.airChLim, i, m)]
  | .fltCommit => [(.fltChCfg, m, 0), (.fltChRate, m, 0), (.fltChPhase, m, 0)]
  | _ => []

/-- A link or channel is in a frame or its acknowledgement, or a site channel forms outputs: it takes no snapshot now (04 R96). -/
def partBusy (s : State) (c : Fam) (i m : Nat) : Bool :=
  match c with
  | .plxCommit => s.linkInFrame i m
  | .airCommit => s.chanInFrame i m
  | _ => s.forming m

/-- Where nothing of a block runs, a snapshot is applied as soon as it is taken (04 R91, R96; 05 R111). -/
def AtOnce (s : State) (c : Fam) (i : Nat) : Prop :=
  match c with
  | .plxCommit | .airCommit => ∀ m < 64, partBusy s c i m = false
  | .fltCommit => ∀ m < 32, partBusy s c i m = false
  | .splChCommit => (s.sp i).state = 0 ∨ (s.sp i).state = 2
  | .cnvCommit => s.cnv.state < 2
  | _ => ∀ n < 24, s.reg F.mnsPortCfgSrc n = 3 ∨ s.regs.shadow F.mnsPortCfgOffset n = s.reg F.mnsPortCfgOffset n

/-- STW_XPORT and STW_UDP, which are held back behind their command's response (03 R70). -/
def carrierReg (f : Fam) : Bool := decide (f = .stwXport) || decide (f = .stwUdp)

/-- Registers of which a write sets something off beyond their own value. -/
def hooked : Fam → Bool
  | .linCtl | .linFactory | .linBankWr | .fauSpares | .fauInject | .plxCtl | .plxCal | .plxDisc | .plxTxlim | .airCtl
  | .airBcn | .cipHrCtl | .cipHrTail | .splChCtl | .splChStatus | .splChDoorbell | .senRef | .cnvCtl | .fltStrmCtl
  | .mnsCtl | .mnsPortCfg | .seaCtl | .ethEpCtl | .mnsCommit | .plxCommit | .airCommit | .splChCommit | .cnvCommit
  | .fltCommit | .lopLoCtl | .lopLoFixed | .lopLoV4 | .lopLoV20 => true
  | _ => false

/-! ## Events and the fault log (03 R63, R64; 13 R298) -/

/-- From `s` to `u` an event was put to every session subscribed to its group that had room for it. `data` is what the
spec states of its data; a free reserved field may follow. -/
def Raised (s u : State) (at_ code block inst : Nat) (data : List Byte) : Prop :=
  s.fwRuns = true → ∀ k x, tget? s.stw.sess k = some x → bit x.groups (code / 256) = true → x.events.length < 1024 →
    ∃ y e rest, tget? u.stw.sess k = some y ∧ e ∈ y.events ∧ e.seq = x.evSeq ∧
      e.body = s.eventBodyAt at_ code block inst data ++ rest

/-- As `Raised`, where up to `n` other events may have been put before this one. -/
def Reported (s u : State) (n at_ code block inst : Nat) (data : List Byte) : Prop :=
  s.fwRuns = true → ascending s.stw.sess = true → ∀ k x, tget? s.stw.sess k = some x → bit x.groups (code / 256) = true →
    x.events.length + n < 1024 → ∃ y e rest, tget? u.stw.sess k = some y ∧ e ∈ y.events ∧ e.body = s.eventBodyAt at_ code block inst data ++ rest

/-! ## Seam messages (11 R234) -/

/-- The header and body of a seam message of type `typ` from the device to station `dst`, with some SEQ. -/
def SeamText (s : State) (typ dst : Nat) (body : List Byte) (l : List Byte) : Prop :=
  ∃ n, l = ({ s with sea := { s.sea with seq := n } } : State).seamBytes typ dst body

/-- A unicast seam message to a station goes out wherever the device has the station's address and a carrier (18 R411). -/
def Told (s u : State) (k typ : Nat) (body : List Byte) : Prop :=
  ∀ x a, s.anyUp = true → tget? s.sea.peers k = some x → tget? x.addrs s.seamPort = some a →
    s.flag F.seaXportRawEn = true ∨ (s.flag F.seaXportUdpEn = true ∧ a.udp = true) →
    ∃ f, Queued 1 f u ∧ f.kind = .seam ∧ f.dst.mac = a.mac ∧ SeamText s typ k body f.body

/-- A multicast seam message goes out, in a transmit queue, wherever the device has a link and a carrier. -/
def Cast (s u : State) (q typ : Nat) (body : List Byte) : Prop :=
  s.anyUp = true → s.flag F.seaXportRawEn = true ∨ s.flag F.seaXportUdpEn = true →
    ∃ f, Queued q f u ∧ f.kind = .seam ∧ SeamText s typ 0xFFFF body f.body

/-- A seam message that the device takes, in a role that takes part (11 R233, R234, R238). -/
def Takes (s : State) (m : SeamMsg) : Prop := s.pow.on = true ∧ s.takesSeam m = true ∧ s.sea.role ≠ 0

/-- The commands that are a seam message's arrival. -/
def seamArrivals (t : Nat) (m : SeamMsg) : List Instr :=
  [.helloRx t m, .seamJoinReq t m, .joinAck t m, .seamLeave t m, .deputyAppoint t m, .mirror t m, .mirrorAck t m,
    .clusterBeaconRx t m, .homeClaim t m, .claimAck t m, .electRx t m, .delayReq t m, .delayResp t m, .scMetrics t m,
    .scResult t m, .scResultAck t m]

/-- ROLE_CHANGE (11 R260) is raised. -/
def RoleChanged (s u : State) (at_ old new reason : Nat) : Prop :=
  u.sea.role = new ∧ Raised s u at_ 0x601 0x70 0 (be 1 old ++ be 1 new ++ be 1 reason)

/-- An entry waits in the fault log's queue, with its KIND, BLOCK, INSTANCE, OUTCOME, DETECT and TARGET. -/
def Logged (u : State) (kind block inst outcome detect target : Nat) : Prop :=
  ∃ w ∈ u.fau.queue, octet w.body 0 = kind ∧ octet w.body 1 = block % 256 ∧ octet w.body 2 = inst % 256 ∧
    octet w.body 3 = outcome ∧ octet w.body 16 = detect ∧ octet w.body 17 = target

/-- The queue of the fault log has room (13 R298). -/
def LogRoom (s : State) : Prop := s.fau.queue.length < 64

/-! ## Contexts put back (13 R288) -/

/-- A link slot of a line port is held in the state. -/
def HasSlot (s : State) (n m : Nat) : Prop := ((tget? s.plx.ports n).bind fun x => tget? x.slots m).isSome = true

/-- A candidate is back in its place of a link slot, alone there. -/
def Restored (u : State) (n m place : Nat) (c : LineCand) : Prop :=
  c ∈ (u.ls n m).cands ∧ ∀ d ∈ (u.ls n m).cands, d = c ∨ d.place ≠ place

end Sys2Proof.Safety
end

