-- ==== Sys2Proof/Certificates/Slice0/Obligations.lean ====
section
/-!
DEFINITION. Certificates/Slice0/Obligations.lean: the statements about the block. Each command that has a meaning stands in
one of them with the state it leads to.
-/

open Sys2Proof Sys2Proof.Machine Sys2Proof.Safety

/-! ## The machine as a whole -/

/-- A step runs the command at the front of the queue on the state with the queue's rest. -/
def Obligations.StepRunsTheFrontCommand : Prop :=
  ∀ (c : Instr) (rest : List Instr) (s : State), step { s with pending := c :: rest } = exec c { s with pending := rest }

/-- Every command completes, in every state; no command touches the queue of those that wait, and the clock never runs back
but at a start (02 R25). -/
def Obligations.EveryCommandCompletesAndKeepsTheQueue : Prop :=
  ∀ (c : Instr) (s : State), ∃ u, exec c s = .next u ∧ u.pending = s.pending ∧
    ((∀ t pins sealBad, c ≠ .startSequence t pins sealBad) → s.now ≤ u.now)

/-! ## Power, reset and the lining (02) -/

/-- What reset leaves (02 R23, R29, R31): no output driven; of the lining the record being written whole or not at all, and no other;
a bank being written fails its check, with the image the model gives it (log entry 110). -/
def Obligations.ResetStopsTheBlock : Prop :=
  ∀ (t : Nat) (s : State), s.pow.on = true →
    Does (.porstAssert t) s (fun u => Stopped s u ∧ u.pow.porstHigh = false) ∧
    (s.pow.porstHigh = true → Does (.refclkLoss t) s (fun u => Stopped s u ∧ u.pow.porstHigh = true)) ∧
    (s.pendingWrites = false → Does (.restart t) s (fun u => Stopped s u ∧ u.pow.porstHigh = s.pow.porstHigh)) ∧
    (s.pendingWrites = true →
      Does (.restart t) s (fun u => u.pow.on = true ∧ u.pow.restart = true ∧ Only [.pow] s u))

/-- TMB_EPOCH (02 R26): 1 at a device's first start, higher by 1 at each start after it (held at its greatest value, 02 R24), 0
after none, and changed by no other command, a factory restore's first start included. A sequence whose supplies or REFCLK do not yet
allow it (19 R427, R428) is no start. -/
def Obligations.OnlyAStartRaisesTheEpoch : Prop :=
  (∀ (c : Instr) (s u : State), exec c s = .next u →
    u.lin.epoch =
      match c with
      | .startSequence _ pins _ =>
        if s.pow.on = false ∧ s.mayBegin pins = true then min (s.lin.epoch + 1) 0xFFFFFFFF else s.lin.epoch
      | _ => s.lin.epoch) ∧
  ∀ (t : Nat) (pins : StartPins) (sealBad : Bool) (s : State), s.pow.on = false → s.mayBegin pins = true →
    Does (.startSequence t pins sealBad) s (fun u => u.lin.epoch ≠ 0 ∧ (s.lin.epoch = 0 → u.lin.epoch = 1) ∧ (s.lin.epoch < 0xFFFFFFFF → u.lin.epoch = s.lin.epoch + 1))

/-- The start sequence (02 R24, R34, R36): it begins where every supply has been inside its window, and REFCLK has run, for 2 ms (19 R427,
R428; that the row carries those durations is log entry 254, the model's choice), and otherwise PORST_N is high and the device stays in
reset. The named bank boots if it passes, the other one if it does; a blank or armed lining makes a first start, which keeps the
fault log and the addresses; the arm is cleared. Before its step 8, PHASE is 3; step 8, from 100 ms on, makes PHASE 4, raises
START (R39) to every session subscribed to its group, and offers the jobs of the cache's background fill (14 R306; log entry 238, the
model's choice). That one row stands for both is the model's choice (log entry 171). -/
def Obligations.StartSequenceBootsABank : Prop :=
  (∀ (t : Nat) (pins : StartPins) (sealBad : Bool) (s : State), s.pow.on = false →
    (s.mayBegin pins = false →
      Does (.startSequence t pins sealBad) s (fun u => u = { s with pow := { s.pow with porstHigh := true } })) ∧
    (s.mayBegin pins = true ↔ (∀ n, n < 5 → s.supplyOut n = false) ∧ 2 * ms ≤ pins.supplyNs ∧ 2 * ms ≤ pins.refclkNs) ∧
    (s.mayBegin pins = true → Does (.startSequence t pins sealBad) s (fun u =>
      u.pow.on = true ∧ u.pow.porstHigh = true ∧ u.lin.armed = false ∧ u.lin.blank = false ∧
      u.pow.firstStart = (s.lin.blank || s.lin.armed) ∧ u.pow.factoryDone = s.lin.armed ∧
      u.lin.log = s.lin.log ∧ u.lin.macs = s.lin.macs ∧ u.stw.sess = [] ∧
      (let n := u.reg F.linBootNext
       let own := (s.lin.bank n).passes
       let other := (s.lin.bank (1 - n)).passes
       u.pow.phase = (if own || other then (if 100 * ms ≤ t then 4 else 3) else 2) ∧ u.pow.bankFallback = (!own && other) ∧
       (own = true → u.lin.activeBank = n) ∧ (own = false → other = true → u.lin.activeBank = 1 - n))))) ∧
  ∀ (t : Nat) (pins : StartPins) (sealBad : Bool) (s : State), s.pow.on = true →
    (s.pow.phase = 3 → s.pow.booted = true → 100 * ms ≤ max s.now t →
      Does (.startSequence t pins sealBad) s (fun u =>
        u.pow = { s.pow with phase := 4 } ∧ Only [.pow, .stw, .eth, .cip] s u ∧
        u.cip = { s.cip with jobs := u.cip.jobs, waits := u.cip.waits, nextJob := u.cip.nextJob } ∧
        u.cip.jobs.length + u.cip.waits.length = s.cip.jobs.length + s.cip.waits.length + s.cip.dram.length ∧
        (s.pairActive = true → ∀ k x, tget? s.stw.sess k = some x → bit x.groups 0 = true → x.events.length < 1024 →
          ∃ y e, tget? u.stw.sess k = some y ∧ e ∈ y.events ∧ e.seq = x.evSeq ∧
            e.body.take 16 = be 2 1 ++ be 1 2 ++ be 1 0 ++ be 4 s.lin.epoch ++ be 8 (max s.now t)))) ∧
    (¬(s.pow.phase = 3 ∧ 100 * ms ≤ max s.now t) → Does (.startSequence t pins sealBad) s (fun u => Only [] s u))

/-- LINING_WRITE_DONE, FACTORY_ARM, FACTORY_DISARM (02 R30, R32, R37); a RESTART that waits begins once the record done leaves no
retained change outstanding (02 R31), and otherwise waits on. BANK_WRITE, BANK_WRITE_DONE (02 R35). That the image is taken from memory as
it stands at completion is the model's choice (log entry 172), and so is it that the completion waits while no check unit is in
service (log entry 216). -/
def Obligations.LiningRecordsAndBanksAreWritten : Prop :=
  ((∀ (t wear : Nat) (w : LinWrite) (rest : List LinWrite) (s : State),
     s.pow.on = true → s.pow.restart = false → s.lin.writes = w :: rest →
     Does (.liningWriteDone t wear) s (fun u =>
       u.lin.wear = min 1000 (max s.lin.wear wear) ∧
       (∀ vals, w.what = .cfg vals → u.lin.image = vals.foldl storeReg s.lin.image) ∧
       (∀ b, w.what = .arm b → u.lin.armed = b) ∧
       (∀ k v, w.what = .nonce k v → tget? u.lin.nonces k = some v ∧ u.lin.floor = max s.lin.floor v) ∧
       (∀ k n, w.what = .node k n → tget? u.lin.nodes k = n) ∧
       (∀ k x, w.what = .sensor k x → tget? u.lin.sensors k = x))) ∧
   (∀ (t wear : Nat) (s : State), s.pow.on = true → s.pow.restart = true → s.lin.writes ≠ [] →
     let v := ((s.tick t).writeDone).wears wear
     v.pow = s.pow ∧ v.lin.wear = min 1000 (max s.lin.wear wear) ∧
     (v.pendingWrites = true → Does (.liningWriteDone t wear) s (fun u => u = v)) ∧
     (v.pendingWrites = false → Does (.liningWriteDone t wear) s (fun u => Stopped v u ∧ u.pow.porstHigh = s.pow.porstHigh))) ∧
   ∀ (t : Nat) (s : State), s.pow.on = true →
     Does (.factoryArm t) s (fun u => u.factoryArmed = true ∧ Only [.lin] s u ∧
       u.lin = { s.lin with writes := u.lin.writes }) ∧
     Does (.factoryDisarm t) s (fun u => u.factoryArmed = false ∧ Only [.lin] s u ∧
       u.lin = { s.lin with writes := u.lin.writes })) ∧
  ((∀ (t bank : Nat) (s : State), s.pow.on = true → bank < 2 → s.bankRefused bank = none →
     Does (.bankWrite t bank) s (fun u =>
       u.lin.bankWrite = some { bank := bank, src := s.bankSrc, len := s.reg F.linBankLen, crc := s.reg F.linBankCrc } ∧
       u.reg F.linBankWrBank = bank ∧ Only [.lin, .regs] s u ∧
       u.lin = { s.lin with bankWrite := u.lin.bankWrite })) ∧
   (∀ (t bank e : Nat) (s : State), s.pow.on = true → s.bankRefused bank = some e →
     Does (.bankWrite t bank) s (fun u => Only [] s u)) ∧
   ∀ (t : Nat) (w : BankWrite) (s : State), s.pow.on = true → s.lin.bankWrite = some w →
     s.mem.poisonIn w.src w.len = [] → s.mem.rot.filter (touches w.src w.len) = [] →
     (∀ a, w.src ≤ a → a < w.src + w.len → kindOf s.mem a < 3 ∧ ∀ n, regionOf a ≠ .engine n) →
     let data := s.mem.reads w.src w.len
     (s.checkUnit = true → Does (.bankWriteDone t) s (fun u =>
       u.lin.bankWrite = none ∧ tget? u.lin.banks w.bank = some { image := data, crc := w.crc, valid := decide (crc 4 [] data = w.crc) } ∧
       (crc 4 [] data = w.crc → u.reg F.linBankWrDone = 1 ∧ u.reg F.linBankWrErr = 0) ∧
       (crc 4 [] data ≠ w.crc → u.reg F.linBankWrDone = 0 ∧ u.reg F.linBankWrErr = 1) ∧
       Only [.lin, .regs, .cip, .stw, .eth] s u)) ∧
     (s.checkUnit = false → Does (.bankWriteDone t) s (fun u => Only [] s u)))

/-! ## Mailboxes (03) and arriving frames (18 R410, R413) -/

/-- SESSION_OPEN (03 R48 to R50, R53, R62): the lowest free slot, the next generation, the smaller of the credits asked for
and those free, the rights of the access table; BUSY without a slot or a credit; NOT_PERMITTED without an entry. The model's choices among
these: NOT_PERMITTED comes before BUSY, and a refused OPEN gives no generation away (log entry 223); the reply carries the request's
SEQUENCE, DIRECT and FINAL (log entry 222). -/
def Obligations.SessionOpenGrantsASession : Prop :=
  ∀ (t : Nat) (m : Inbound) (s : State),
    s.pow.on = true → s.reaches m = true → s.takes m = true → m.version = 1 → lenOk m = true → m.operand.length = 8 →
    256 ≤ beAt m.operand 0 2 → 1 ≤ beAt m.operand 2 2 → beAt m.operand 2 2 ≤ 4096 →
    (∀ k rights, firstBelow 16 (fun k => (tget? s.stw.sess k).isNone) = some k → s.aclRights m.src = some rights →
      0 < s.stw.freeCredits →
      Does (.sessionOpen t m) s (fun u => ∃ x,
        u.stw = { s.stw with sess := tset s.stw.sess k x, genCtr := x.gen } ∧
        x.gen = nextGen s.stw.genCtr ∧ x.gen ≠ 0 ∧ x.grant = min (beAt m.operand 2 2) s.stw.freeCredits ∧
        x.maxmsg = min (beAt m.operand 0 2) 8208 ∧ x.rights = rights ∧ x.src = m.src ∧ x.port = m.port ∧
        x.last = max s.now t ∧ x.events = [] ∧ x.recs = [] ∧ x.tags = [] ∧ Only [.stw, .eth] s u ∧
        ∃ o : List Byte, o.length = 3 ∧ Queued 2 (sessionReply m 1 Status.ok k x.gen
          (be 2 x.maxmsg ++ be 2 x.grant ++ be 1 x.rights ++ o ++ be 4 x.evSeq ++ be 4 x.recSeq)) u)) ∧
    (∀ rights, s.aclRights m.src = some rights →
      (firstBelow 16 (fun k => (tget? s.stw.sess k).isNone) = none ∨ s.stw.freeCredits = 0) →
      Does (.sessionOpen t m) s (fun u => Only [.eth] s u ∧ ∃ o, Queued 2 (sessionReply m 1 Status.busy m.slot m.gen o) u)) ∧
    (s.aclRights m.src = none →
      Does (.sessionOpen t m) s (fun u => Only [.eth] s u ∧
        Queued 2 (sessionReply m 1 Status.notPermitted m.slot m.gen []) u))

/-- SESSION_CLOSE, SESSION_KEEPALIVE, SESSION_IDLE_EXPIRY (03 R48, R51, R53; 04 R87); a reply goes under the EtherType or the UDP
port of the mailbox (R43). The reply's SEQUENCE and flags (log entry 222) and its UDP source port (log entry 192, PRESUMED) are the
model's choices. -/
def Obligations.SessionsEndAndStayAlive : Prop :=
  (∀ (t : Nat) (m : Inbound) (x : Session) (s : State), Good s m → s.sessOf m.slot m.gen = some x →
    Does (.sessionClose t m) s (fun u =>
      tget? u.stw.sess m.slot = none ∧ (∀ k, k ≠ m.slot → tget? u.stw.sess k = tget? s.stw.sess k) ∧
      u.caps = s.caps.filter (fun c => !(decide (c.slot = m.slot) && decide (c.gen = m.gen))) ∧
      u.stw.flights = s.stw.flights ∧ Queued 2 (sessionReply m 2 Status.ok m.slot m.gen []) u ∧
      Only [.stw, .eth, .caps] s u) ∧
    Does (.sessionKeepalive t m) s (fun u =>
      tget? u.stw.sess m.slot = some { x with last := max s.now t, src := m.src, port := m.port } ∧
      (∀ k, k ≠ m.slot → tget? u.stw.sess k = tget? s.stw.sess k) ∧
      QueuedAs 2 (sessionReply m 3 Status.ok m.slot m.gen []) (mailProto s m.src) u ∧ Only [.stw, .eth] s u)) ∧
  ∀ (t slot : Nat) (x : Session) (s : State), s.pow.on = true → tget? s.stw.sess slot = some x →
    (x.last + s.idleNs ≤ max s.now t →
      Does (.sessionIdleExpiry t slot) s (fun u =>
        tget? u.stw.sess slot = none ∧ u.stw.flights = s.stw.flights ∧ Only [.stw, .caps] s u)) ∧
    (max s.now t < x.last + s.idleNs → Does (.sessionIdleExpiry t slot) s (fun u => Only [] s u))

/-- ACK_MESSAGE (03 R68): the events, or the records, up to UPTO are released, and a record that no session holds any more
leaves the delivery area (03 R67). -/
def Obligations.AcknowledgedEventsAndRecordsAreReleased : Prop :=
  ∀ (t : Nat) (m : Inbound) (x : Session) (s : State), Good s m → s.sessOf m.slot m.gen = some x → m.operand.length = 8 →
    (octet m.operand 0 = 0 → Does (.ackMessage t m) s (fun u => ∃ y more,
      tget? u.stw.sess m.slot = some y ∧ y.recs = x.recs ∧
      y.events = x.events.filter (fun e => !covered (beAt m.operand 4 4) e.seq) ++ more ∧ (x.evLost = 0 → x.recLost = 0 → more = []) ∧
      u.stw.area = s.stw.area ∧ Only [.stw, .eth] s u)) ∧
    (octet m.operand 0 = 1 → Does (.ackMessage t m) s (fun u => ∃ y,
      tget? u.stw.sess m.slot = some y ∧ y.recs = x.recs.filter (fun r => !covered (beAt m.operand 4 4) r.seq) ∧
      (∀ a ∈ u.stw.area, a ∈ s.stw.area) ∧
      (∀ a ∈ s.stw.area, ascending s.stw.sess = true →
        (∀ e ∈ s.stw.sess, e.1 ≠ m.slot → ∀ r ∈ e.2.recs, r.id ≠ a.id) → (∀ r ∈ y.recs, r.id ≠ a.id) → a ∉ u.stw.area) ∧
      Only [.stw, .eth] s u))

/-- PENDING_TIMEOUT, EVENT_RESEND, RECORD_RESEND (03 R61, R64, R67): a record goes in a message of its own, or behind the records
just before it in a message that still waits and has room. -/
def Obligations.MailboxTimersResend : Prop :=
  (∀ (t slot tag : Nat) (f : Flight) (x : Session) (s : State), s.pow.on = true →
    s.stw.flights.find? (fun f => decide (f.slot = slot) && decide (f.tag = tag) && !f.pend && decide (0x300 ≤ f.opcode) &&
      decide (f.time + 5 * ms ≤ max s.now t)) = some f → s.sessOf f.slot f.gen = some x →
    Does (.pendingTimeout t slot tag) s (fun u =>
      (∃ p g, (tget [] (u.ep p).queues 2).head? = some g ∧ g.kind = .response ∧ g.dst = f.src ∧
        g.body = message 1 4 f.mb f.tag f.opcode f.seq f.slot f.gen Status.pending []) ∧
      u.stw.flights = s.stw.flights.map (fun g => if g.ref = f.ref then { f with pend := true } else g) ∧
      u.stw.sess = s.stw.sess ∧ Only [.stw, .eth] s u)) ∧
  (∀ (t slot seq : Nat) (e : StoredEvent) (x : Session) (s : State), s.pow.on = true → s.anyUp = true →
    tget? s.stw.sess slot = some x →
    x.events.find? (fun e => decide (e.seq = seq) && e.sent && decide (e.time + 100 * ms ≤ max s.now t)) = some e →
    (e.resends < 8 → Does (.eventResend t slot seq) s (fun u => ∃ y,
      tget? u.stw.sess slot = some y ∧ { e with time := max s.now t, resends := e.resends + 1 } ∈ y.events ∧
      y.events.length = x.events.length ∧ Only [.stw, .eth] s u)) ∧
    (8 ≤ e.resends → Does (.eventResend t slot seq) s (fun u => ∃ y more,
      tget? u.stw.sess slot = some y ∧ y.events = x.events.filter (fun z => decide (z.seq ≠ seq)) ++ more ∧
      Only [.stw, .eth] s u))) ∧
  ∀ (t slot seq : Nat) (r : StoredRec) (a : AreaRec) (x : Session) (s : State), s.pow.on = true → s.anyUp = true →
    tget? s.stw.sess slot = some x →
    x.recs.find? (fun r => decide (r.seq = seq) && decide (r.time + 20 * ms ≤ max s.now t)) = some r →
    s.stw.area.find? (fun a => decide (a.id = r.id)) = some a →
    Does (.recordResend t slot seq) s (fun u => ∃ y,
      tget? u.stw.sess slot = some y ∧ { r with time := max s.now t } ∈ y.recs ∧ y.recs.length = x.recs.length ∧
      (∃ p f, f ∈ tget [] (u.ep p).queues 3 ∧ f.kind = .records ∧
        (f.body = message 4 0 0 0 0 r.seq slot x.gen 0 a.body ∨
          ∃ g ∈ tget [] (s.ep p).queues 3, g.kind = .records ∧ g.dst = f.dst ∧ g.body.length + a.body.length ≤ x.maxmsg ∧
            (beAt g.body 8 4 + g.recs) % 2 ^ 32 = r.seq ∧
            f.body = message 4 0 0 0 0 (beAt g.body 8 4) slot x.gen 0 (g.body.drop 16 ++ a.body))) ∧
      Only [.stw, .eth] s u)

/-- UNDEFINED_COMMAND (03 R57, checks 2 and 8), ETH_FRAME_DISCARD, ARP_REQUEST, NEIGHBOUR_SOLICITATION (18 R410, R413). The flags and
SEQUENCE of the answer to an undefined SESSION operation (log entry 222) and the octets of the ARP reply and the neighbour advertisement,
which the spec names and does not print (log entry 219, PRESUMED), are the model's choices. -/
def Obligations.UnwantedFramesAreAnsweredOrDropped : Prop :=
  (∀ (t opcode : Nat) (m : Inbound) (s : State), Good s m → definedSession opcode = false →
    Does (.undefinedCommand t m true opcode) s (fun u =>
      Queued 2 (sessionReply m opcode Status.badOpcode m.slot m.gen []) u ∧ Only [.stw, .eth] s u)) ∧
  (∀ (t opcode : Nat) (m : Inbound) (x : Session) (s : State), Sound s m 0 x → definedCommand opcode = false →
    Does (.undefinedCommand t m false opcode) s (fun u =>
      Direct m opcode Status.badOpcode [] u ∧ u.stw.flights = s.stw.flights ∧ Only [.stw, .eth] s u)) ∧
  (∀ (t opcode : Nat) (m : Inbound) (s : State), s.pow.on = true → s.reaches m = true → s.takes m = true → m.version ≠ 1 →
    Does (.undefinedCommand t m true opcode) s (fun u =>
      Queued 2 (sessionReply m opcode Status.badOpcode m.slot m.gen []) u ∧ Only [.eth] s u) ∧
    Does (.undefinedCommand t m false opcode) s (fun u => Direct m opcode Status.badOpcode [] u ∧ Only [.eth] s u)) ∧
  (∀ (t : Nat) (f : EthFrame) (s : State), s.pow.on = true → (s.ep f.port).up = true →
    (s.fateOf f = .rxdrop → Does (.ethFrameDiscard t f) s (fun u => u = (s.tick t).bump F.ethEpCntRxdrop f.port)) ∧
    (s.fateOf f = .stwDiscard → Does (.ethFrameDiscard t f) s (fun u => u = (s.tick t).bump F.stwDiscard)) ∧
    (s.fateOf f = .silent → Does (.ethFrameDiscard t f) s (fun u => Only [] s u))) ∧
  ∀ (t port mac ip : Nat) (s : State), s.pow.on = true → (s.ep port).up = true →
    (s.reg F.ethEpIpv4 port ≠ 0 → Does (.arpRequest t port mac ip (s.reg F.ethEpIpv4 port)) s (fun u =>
      Only [.eth] s u ∧ ∃ f, Queued 2 f u ∧ f.kind = .arp ∧ f.dst.mac = mac ∧
        f.body.drop 8 = be 6 (s.macOf port) ++ be 4 (s.reg F.ethEpIpv4 port) ++ be 6 mac ++ be 4 ip)) ∧
    (s.ipv6 port ≠ 0 → Does (.neighbourSolicitation t port mac ip (s.ipv6 port)) s (fun u =>
      Only [.eth] s u ∧ ∃ f, Queued 2 f u ∧ f.kind = .neighbour ∧ f.dst.mac = mac ∧ f.dst.ip = ip ∧
        f.body.drop 8 = be 16 (s.ipv6 port) ++ be 2 0x0201 ++ be 6 (s.macOf port)))

/-- A firmware command that passes the checks of 03 R57 enters its mailbox queue under a credit and a busy tag (R54, R55),
and waits there for STEWARD_DISPATCH (R59); one that fails a check takes nothing: whatever arrives, a firmware row changes
the mailbox engine, registers and the transmit queues alone. The rejections come each by its STATUS; what is no mailbox message
of an enabled carrier, or comes under a strange VID, is counted and not answered (R43; 18 R413), and what goes to the seam block changes
nothing here. -/
def Obligations.FirmwareCommandsQueueOrAreRejected : Prop :=
  (∀ (c : Instr) (t : Nat) (m : Inbound) (opcode need : Nat) (s : State), firmwareRow c = some (t, m, opcode, need) →
     (∀ x, Served s m need x → Does c s (fun u => ∃ y,
       u.stw.flights = s.stw.flights ++ [flightOf s m opcode t .queued] ∧ tget? u.stw.sess m.slot = some y ∧
       tget? y.tags (m.tag % 4096) = some { seq := m.seq, status := 0, busy := true } ∧ y.grant = x.grant ∧ Only [.stw] s u)) ∧
     Does c s (fun u => Only [.stw, .eth, .regs] s u ∧
       (u.stw.flights = s.stw.flights ∨ u.stw.flights = s.stw.flights ++ [flightOf s m opcode t .queued]))) ∧
  (∀ (c : Instr) (t : Nat) (m : Inbound) (opcode need : Nat) (s : State), firmwareRow c = some (t, m, opcode, need) →
     s.pow.on = true →
     (s.reaches m = false → (s.ep m.port).up = true → (s.strangeTag m.src.tag = true ∨ s.seamMarked m = false) →
       Does c s (fun u => u = (s.tick t).bump F.ethEpCntRxdrop m.port)) ∧
     (((s.ep m.port).up = false ∨ (s.strangeTag m.src.tag = false ∧ s.seamMarked m = true)) → Does c s (fun u => Only [] s u)) ∧
     (s.reaches m = true → s.takes m = false → Does c s (fun u => u = (s.tick t).bump F.stwDiscard)) ∧
     (s.reaches m = true → s.takes m = true →
     let fails (status : Nat) : Prop :=
       Does c s (fun u => Direct m opcode status [] u ∧ u.stw.flights = s.stw.flights ∧ Only [.stw, .eth] s u)
     (m.version ≠ 1 → fails Status.badOpcode) ∧
     (m.version = 1 → lenOk m = false → fails Status.badLength) ∧
     (m.version = 1 → lenOk m = true → s.sessOf m.slot m.gen = none → fails Status.badSession) ∧
     ∀ x, m.version = 1 → lenOk m = true → s.sessOf m.slot m.gen = some x →
       let tag := m.tag % 4096
       (∀ r, tget? x.tags tag = some r → r.seq ≠ m.seq → r.busy = true → fails Status.tagInUse) ∧
       (tget? x.tags tag = none → x.grant ≤ x.inFlight → fails Status.noCredit) ∧
       (tget? x.tags tag = none → x.inFlight < x.grant → x.rights &&& need ≠ need → fails Status.notPermitted) ∧
       (∀ why retry, tget? x.tags tag = none → x.inFlight < x.grant → x.rights &&& need = need →
         (s.tick t).busyWith m.mb = some (why, retry) →
         Does c s (fun u => u.stw.flights = s.stw.flights ∧ Only [.stw, .eth] s u ∧
           ∃ o : List Byte, o.length = 3 ∧ Direct m opcode Status.busy (be 4 retry ++ be 1 why ++ o) u)) ∧
       (∀ r, tget? x.tags tag = some r → r.seq = m.seq →
         Does c s (fun u => u.stw.flights = s.stw.flights ∧
           Queued 2 (response m opcode (if r.busy then 5 else 7) (if r.busy then Status.pending else r.status) []) u))))

/-! ## The firmware commands (04 R85 to R89), taken and served by the steward pair -/

/-- The LINK commands (04 R85, R86; 07 R148; 08 R176 to R178, R181). A downlink goes to a node named with PORT 0xFF or with its own port,
straight to it or down its route behind a relay header (R178, R181); a secured one goes to the cipher block first, and its frame is queued
once its job completes (14 R318; log entry 215). The order of the counters in PORT_STATS is the model's choice (log entry 63): 04 R85
does not print it. -/
def Obligations.LinkCommandsAreServed : Prop :=
  ∀ (t at_ took : Nat) (m : Inbound) (x : Session) (s : State), Served s m Right.operate x → 256 ≤ x.maxmsg →
    (∀ port start count : Nat, m.operand.length = 6 → port = octet m.operand 0 → start = beAt m.operand 2 2 →
      count = beAt m.operand 4 2 → 1 ≤ count → count ≤ 127 → (port = 0xFF ∨ port < 24) →
      let all := s.plx.nodes.filter fun e => (decide (port = 0xFF) || decide (e.2.port = port)) && decide (start ≤ e.1)
      let l := all.take count
      20 + (l.flatMap fun e => s.nodeBytes e.1 e.2).length ≤ x.maxmsg →
      Handled (.linkNodeList t m) at_ took s (fun v => ∃ (w : State) (next : Nat),
        Answered m 0x301 Status.ok (be 2 next ++ w.open8s 450 2 ++ l.flatMap fun e => w.nodeBytes e.1 e.2) v ∧
        (all.length ≤ count → next = 0xFFFF) ∧ (∀ e, count < all.length → l.getLast? = some e → next = e.1 + 1) ∧
        Only [.stw, .eth] s v)) ∧
    (∀ (short : Nat) (y : Node), m.operand.length = 2 → beAt m.operand 0 2 = short → s.node? short = some y →
      y.route.length ≤ 8 →
      Handled (.linkNodeGet t m) at_ took s (fun v =>
        (∃ w : State, Answered m 0x302 Status.ok (w.nodeBytes short y) v) ∧ Only [.stw, .eth] s v) ∧
      Handled (.linkNodeRemove t m) at_ took s (fun v =>
        Answered m 0x303 Status.ok [] v ∧ v.node? short = none ∧
        (∀ k, k ≠ short → (v.node? k).isSome = (s.node? k).isSome) ∧
        ((∀ e ∈ s.plx.ports, ∀ z ∈ e.2.slots, ∀ f ∈ z.2.queue, f.node ≠ short ∧ f.dst ≠ short) →
          ∀ k, k ≠ short → v.node? k = s.node? k) ∧
        ({ what := .node short none, ref := none } : LinWrite) ∈ v.lin.writes)) ∧
    (m.operand.length = 2 → s.node? (beAt m.operand 0 2) = none →
      Handled (.linkNodeGet t m) at_ took s (Answered m 0x302 Status.noRoute []) ∧
      Handled (.linkNodeRemove t m) at_ took s (Answered m 0x303 Status.noRoute [])) ∧
    (∀ (short key : Nat) (y : Node), 17 ≤ m.operand.length → m.operand.length = 16 + beAt m.operand 10 2 →
      octet m.operand 3 ≤ 3 → short = beAt m.operand 0 2 → key = beAt m.operand 4 4 → s.node? short = some y →
      (octet m.operand 2 = 0xFF ∨ octet m.operand 2 < 24) →
      let routed := bit y.flags 2
      let dst := if routed then y.route.headD 0 else short
      let level := secLevel (octet m.operand 8)
      let limit := if routed then 248 - 2 * y.hops else 256
      let seq := (tget 0 s.plx.seqs short + 1) % 65536
      let p := m.operand.drop 16
      let waits (v : State) : Prop := ∃ g ∈ v.stw.flights, g.ref = s.stw.nextRef ∧ g.stage = .waiting
      let asAsked (fr : LineFrame) : Prop :=
        fr.job = .downlink s.stw.nextRef ∧ fr.node = short ∧ fr.dst = dst ∧ fr.typ = (if routed then 3 else 0) ∧
        fr.prio = octet m.operand 3 ∧ fr.ackReq = bit (octet m.operand 9) 0 ∧ fr.crc32 = bit (octet m.operand 9) 1 ∧ fr.tries = 0 ∧
        fr.sec = (decide (key ≠ 0) && !routed) ∧ fr.expires = some (max s.now t + 30 * sec) ∧ fr.done = false
      ((y.state ≠ 1 ∧ y.state ≠ 2 ∨ octet m.operand 2 ≠ 0xFF ∧ octet m.operand 2 ≠ y.port ∨ s.linkOn y.port y.slot = false) →
        Handled (.linkDownlink t m) at_ took s (Answered m 0x304 Status.noRoute [])) ∧
      ((y.state = 1 ∨ y.state = 2) → (octet m.operand 2 = 0xFF ∨ octet m.operand 2 = y.port) → s.linkOn y.port y.slot = true →
        (limit < p.length + secOverhead key level → Handled (.linkDownlink t m) at_ took s (Answered m 0x304 Status.badLength [])) ∧
        (p.length + secOverhead key level ≤ limit → s.mayAddress dst = true →
          (key = 0 → Handled (.linkDownlink t m) at_ took s (fun v => ∃ fr ∈ (v.ls y.port y.slot).queue,
            asAsked fr ∧ fr.payload = (if routed then relayDown false short seq y.route else []) ++ p ∧ waits v)) ∧
          (s.sendBarred false key = true →
            Handled (.linkDownlink t m) at_ took s (Answered m 0x304 Status.keyErased [])) ∧
          (key ≠ 0 → s.sendBarred false key = false → Handled (.linkDownlink t m) at_ took s (fun v => ∃ z ∈ v.plx.sealing,
            z.ref = s.stw.nextRef ∧ z.port = y.port ∧ z.slot = y.slot ∧ asAsked z.frame ∧
            z.frame.payload = (if routed then relayDown true short seq y.route else []) ∧
            Offered (sealJob false key level (if routed then be 2 0 ++ be 2 short ++ be 2 seq else be 2 short ++ be 2 0 ++ be 2 seq) p
              (.line s.stw.nextRef)) v ∧ waits v))))) ∧
    (∀ (core : Nat) (j : Job) (k : KeyRec) (src : List Byte) (z : Sealing), s.cip.jobs.find? (fun j => decide (j.stage = .running core)) = some j →
      Seals j k src → j.use = .line z.ref → s.plx.sealing.find? (fun y => decide (y.ref = z.ref)) = some z →
      (s.node? z.frame.node).isSome = true → s.linkOn z.port z.slot = true →
      Does (.cipherJobComplete t core) s (fun u =>
        { z.frame with payload := z.frame.payload ++ (jobOutput j k src).1.drop 6, nonce := j.nonce } ∈ (u.ls z.port z.slot).queue ∧
        ∀ y ∈ u.plx.sealing, y.ref ≠ z.ref)) ∧
    (m.operand.length = 2 → octet m.operand 0 < 24 → octet m.operand 1 < 64 →
      ∀ pm, (s.ls (octet m.operand 0) (octet m.operand 1)).map = some pm → pm.entries.length = 16 →
      Handled (.linkMapRead t m) at_ took s (fun v => (∃ o : List Byte, o.length = 2 ∧
        Answered m 0x305 Status.ok
          (be 1 pm.version ++ be 1 (if (s.ls (octet m.operand 0) (octet m.operand 1)).offer.isSome then 2 else 1) ++ o ++
            pm.entries.flatMap fun e => be 2 e) v) ∧ Only [.stw, .eth] s v)) ∧
    (m.operand.length = 1 → octet m.operand 0 < 24 →
      Handled (.linkPortStats t m) at_ took s (fun v =>
        Answered m 0x306 Status.ok (lineCounters.flatMap fun f => be 4 (s.reg f (octet m.operand 0))) v ∧
        Only [.stw, .eth] s v))

/-- The AIR commands (04 R85, R86; 10 R213, R217, R218, R227, R231). A downlink goes to a sensor named with PORT 0xFF or with its own
port, by the method of R227's table; behind another of its sensor's it waits; a secured one goes to the cipher block first (14 R318; log
entry 215) and is planned once its job completes. -/
def Obligations.AirCommandsAreServed : Prop :=
  ∀ (t at_ took : Nat) (m : Inbound) (x : Session) (s : State), Served s m Right.operate x → 256 ≤ x.maxmsg →
    (∀ (short : Nat) (y : Sensor), m.operand.length = 16 → octet m.operand 0 = 0 → short = beAt m.operand 14 2 →
      s.sensor? short = some y →
      Handled (.airSensorGet t m) at_ took s (fun v =>
        (∃ w : State, Answered m 0x401 Status.ok (w.sensorBytes short y) v) ∧ Only [.stw, .eth] s v)) ∧
    (∀ (short key : Nat) (y : Sensor), 17 ≤ m.operand.length → m.operand.length = 16 + beAt m.operand 10 2 →
      octet m.operand 3 ≤ 3 → short = beAt m.operand 0 2 → key = beAt m.operand 4 4 → s.sensor? short = some y →
      (octet m.operand 2 = 0xFF ∨ octet m.operand 2 < 16) →
      let level := secLevel (octet m.operand 8)
      let ack := bit (octet m.operand 9) 0
      let head := s.downHead 1 ack (decide (key ≠ 0)) s.air.seq (le 2 short)
      let p := m.operand.drop 16
      let d : AirDown :=
        { AirDown.own (.host s.stw.nextRef) short y.ext y.port y.chan s.air.seq ack (if key = 0 then head ++ p else head) with
          method := octet m.operand 3, expires := some (max s.now t + 30 * sec), id := s.air.nextId }
      let w := (s.tick t).tick at_
      let done (f : State → Prop) : Prop := Handled (.airDownlink t m) at_ took s f
      let planned (x : AirPlan) : Prop := done (fun v => { d with stage := .planned x } ∈ v.air.downs)
      ((y.state ≠ 1 ∨ octet m.operand 2 ≠ 0xFF ∧ octet m.operand 2 ≠ y.port) → done (Answered m 0x402 Status.noRoute [])) ∧
      (y.state = 1 → (octet m.operand 2 = 0xFF ∨ octet m.operand 2 = y.port) →
        (s.reg F.airChLimMaxlen y.port y.chan < 9 + secOverhead key level + p.length + s.fcsLen y.port y.chan →
          done (Answered m 0x402 Status.badLength [])) ∧
        (9 + secOverhead key level + p.length + s.fcsLen y.port y.chan ≤ s.reg F.airChLimMaxlen y.port y.chan →
          (s.sendBarred true key = true → done (Answered m 0x402 Status.keyErased [])) ∧
          (key ≠ 0 → s.sendBarred true key = false → done (fun v =>
            { d with stage := .sealing } ∈ v.air.downs ∧ Offered (sealJob true key level head p (.air s.air.nextId)) v)) ∧
          (∀ e l, key = 0 → (s.air.downs.filter fun d => decide (d.ext = y.ext) && d.inLine && !d.done) = e :: l → e.stage ≠ .queued →
            done (fun v => v.air.downs = s.air.downs ++ [d])) ∧
          (key = 0 → (∀ e ∈ s.air.downs, e.ext ≠ y.ext) → s.flag F.airChCfgEn y.port y.chan = true →
            (y.wakeMs = 0 → planned (w.planNow d 0 (w.chanPre y.port y.chan) 0)) ∧
            (y.wakeMs ≠ 0 → d.method = 1 → (∀ x, w.longPlan d y = some x → planned x) ∧
              (w.longPlan d y = none → done (Answered m 0x402 Status.noRoute []))) ∧
            (y.wakeMs ≠ 0 → d.method = 2 → planned (w.trainPlan d y)) ∧
            (y.wakeMs ≠ 0 → d.method = 3 → (∀ x, w.phasePlan d y = some x → planned x) ∧
              (w.phasePlan d y = none → done (Answered m 0x402 Status.noRoute []))) ∧
            (y.wakeMs ≠ 0 → d.method = 0 → (∀ a, w.openWindow? y.ext = some a → w.windowPlan d a = none) →
              planned (w.leastPlan d y)) ∧
            (∀ a x, y.wakeMs ≠ 0 → d.method = 0 → w.openWindow? y.ext = some a → w.windowPlan d a = some x →
              s.flag F.airDutyCfgEn (s.acctOf y.port y.chan) = false →
              done (fun v => { d with stage := .planned { x with checked := true, writing := false } } ∈ v.air.downs ∧
                ∀ b ∈ v.air.windows, b.ext = y.ext → b.used = true)))))) ∧
    (∀ (d : AirDown) (y : Sensor) (w : State), let a := (w.leastPlan d y)
      (a = w.trainPlan d y ∨ w.longPlan d y = some a ∨ w.phasePlan d y = some a) ∧ w.planNs d a ≤ w.planNs d (w.trainPlan d y) ∧
      (∀ x, w.longPlan d y = some x → w.planNs d a ≤ w.planNs d x) ∧ (∀ x, w.phasePlan d y = some x → w.planNs d a ≤ w.planNs d x)) ∧
    (∀ (core : Nat) (j : Job) (k : KeyRec) (src : List Byte) (d : AirDown) (y : Sensor),
      s.cip.jobs.find? (fun j => decide (j.stage = .running core)) = some j → Seals j k src → j.use = .air d.id →
      d ∈ s.air.downs → (∀ e ∈ s.air.downs, e.id = d.id → e = d) → (s.air.downs.filter fun e => decide (e.ext = d.ext)) = [d] →
      d.inLine = true → d.done = false → s.entryOf d = some y → y.wakeMs = 0 → s.flag F.airChCfgEn d.port d.chan = true →
      Does (.cipherJobComplete t core) s (fun u => ∃ x, x.way = 0 ∧
        { d with mac := (jobOutput j k src).1, nonce := j.nonce, stage := .planned x } ∈ u.air.downs)) ∧
    (∀ (short : Nat) (y : Sensor), m.operand.length = 2 → short = beAt m.operand 0 2 → s.sensor? short = some y →
      Handled (.airDisassociate t m) at_ took s (fun v =>
        Answered m 0x403 Status.ok [] v ∧ v.sensor? short = none)) ∧
    (∀ (short v0 : Nat), m.operand.length = 3 → short = beAt m.operand 0 2 → v0 = octet m.operand 2 → v0 ≤ 1 →
      Handled (.airPendingSet t m) at_ took s (fun v =>
        Answered m 0x404 Status.ok [] v ∧ (short ∈ v.air.host ↔ v0 = 1) ∧
        (∀ k, k ≠ short → (k ∈ v.air.host ↔ k ∈ s.air.host)) ∧ Only [.stw, .eth, .air] s v) ∧
      (∀ y, s.sensor? short = some y → Handled (.airDigestSet t m) at_ took s (fun v =>
        Answered m 0x406 Status.ok [] v ∧ v.sensor? short = some { y with digest := decide (v0 = 1) } ∧
        (∀ k, k ≠ short → v.sensor? k = s.sensor? k) ∧ Only [.stw, .eth, .air, .lin] s v)) ∧
      (s.sensor? short = none → Handled (.airDigestSet t m) at_ took s (Answered m 0x406 Status.noRoute []))) ∧
    (m.operand.length = 1 → octet m.operand 0 < 16 →
      Handled (.airDutyRead t m) at_ took s (fun v =>
        Answered m 0x405 Status.ok (be 4 (s.dutyLimit (octet m.operand 0)) ++ be 4 (s.dutyWindow (octet m.operand 0)) ++
          be 4 (s.spent (octet m.operand 0)) ++ be 4 (s.dutyReserve (octet m.operand 0))) v ∧ Only [.stw, .eth] s v))

/-- The SENS commands (04 R85; 16 R381, R382, R384). -/
def Obligations.SensCommandsAreServed : Prop :=
  ∀ (t at_ took : Nat) (m : Inbound) (x : Session) (s : State), Served s m Right.operate x → 528 ≤ x.maxmsg →
    (m.operand.length = 2 → 1 ≤ octet m.operand 1 → octet m.operand 0 + octet m.operand 1 ≤ 32 →
      Handled (.sensResults t m) at_ took s (fun v => (∃ o : Nat → List Byte, (∀ i, (o i).length = 12) ∧
        Answered m 0x501 Status.ok ((List.range (octet m.operand 1)).flatMap fun i =>
          let e := octet m.operand 0 + i
          be 3 (s.reg F.cnvResValue e) ++ be 1 (s.reg F.cnvResQuality e) ++
            (if bit (s.reg F.cnvResQuality e) 7 then be 4 (s.chan e).epoch ++ be 8 (s.chan e).ns else o i)) v) ∧
        Only [.stw, .eth] s v)) ∧
    (∀ n mode uA : Nat, m.operand.length = 8 → n = octet m.operand 0 → mode = octet m.operand 1 → uA = beAt m.operand 4 4 →
      n < 4 → mode ≤ 3 → (mode = 1 → 3600 ≤ uA ∧ uA ≤ 21000) →
      Handled (.sensLoopSet t m) at_ took s (fun v =>
        Answered m 0x502 Status.ok [] v ∧ v.reg F.lopLoCtlMode n = mode ∧
        (mode = 1 → v.reg F.lopLoFixedUa n = uA) ∧
        (v.loop n).ua = v.loopUa n ∧
        (s.flag F.lopLoCtlEn n = true → 1 ≤ mode →
          (v.loop n).ua = (if mode = 1 then uA else if mode = 2 then 3600 else 21000)))) ∧
    (∀ c unit req lo hi, m.operand.length = 1 → c = octet m.operand 0 → curveInfo c = some (unit, req, lo, hi) →
      Handled (.sensCurveInfo t m) at_ took s (fun v => (∃ o p : List Byte, o.length = 1 ∧ p.length = 4 ∧
        Answered m 0x503 Status.ok
          (be 1 c ++ be 1 unit ++ be 1 req ++ o ++ be 4 (twos 32 lo) ++ be 4 (twos 32 hi) ++ p) v) ∧ Only [.stw, .eth] s v))

/-- The KEY commands (14 R303 to R305, R308, R309): the unwrap of a KEY LOAD is a job of queue 2 (R324; that KEY LOAD waits for it and
ROOT_PROVISION's blob is no job is log entry 238, the model's choice); a key that unwraps is stored and its counter starts at the device
floor, unless the identical key stands in its slot; one that does not, or names another handle, is AUTH_FAIL; the response waits for
the lining. -/
def Obligations.KeyCommandsAreServed : Prop :=
  ∀ (t at_ took : Nat) (m : Inbound) (x : Session) (s : State), Served s m Right.key x → 256 ≤ x.maxmsg →
    (m.operand.length = 52 → s.cip.root.isSome = true → beAt m.operand 0 4 ≠ 0 →
      Handled (.keyLoad t m) at_ took s (fun v =>
        Offered (unwrapJob (m.operand.drop 4) (.unwrap s.stw.nextRef (beAt m.operand 0 4))) v ∧
        (∃ g ∈ v.stw.flights, g.ref = s.stw.nextRef ∧ g.stage = .waiting) ∧
        v.cip = { s.cip with jobs := v.cip.jobs, waits := v.cip.waits, nextJob := v.cip.nextJob } ∧ Only [.stw, .cip] s v)) ∧
    (∀ (core ref handle : Nat) (j : Job) (root rec : List Byte) (r : KeyRec), rec.length = 48 → r.key = root →
      s.cip.jobs.find? (fun j => decide (j.stage = .running core)) = some j → j.use = .unwrap ref handle →
      j.desc = (unwrapJob rec (.unwrap ref handle)).desc → j.own = some rec → j.key = some r → j.bad = 0 → j.ring = none →
      s.cip.waits = [] → s.flag F.cipHrCtlEn = false →
      (∀ k, unwrapKey root rec = some k → k.handle = handle →
        let slot := slotOf handle
        Does (.cipherJobComplete t core) s (fun u =>
          tget? u.cip.cache slot = some k ∧ tget? u.cip.dram slot = some rec ∧
          (s.keyAt slot ≠ some k → u.counter slot = s.lin.floor) ∧ (s.keyAt slot = some k → u.counter slot = s.counter slot) ∧
          (∀ i, i ≠ slot → tget? u.cip.cache i = tget? s.cip.cache i ∧ u.counter i = s.counter i) ∧
          (∃ fresh, ({ what := .key slot (some rec) fresh, ref := some ref } : LinWrite) ∈ u.lin.writes) ∧
          Only [.cip, .lin, .regs] s u)) ∧
      (∀ f y, (∀ k, unwrapKey root rec = some k → k.handle ≠ handle) → s.flight? ref = some f → f.opcode = 0x601 →
        s.pairActive = true → s.sessOf f.slot f.gen = some y → 16 ≤ y.maxmsg →
        Does (.cipherJobComplete t core) s (fun u =>
          Queued 2 { kind := .response, dst := f.src,
                     body := message 1 2 f.mb f.tag f.opcode f.seq f.slot f.gen Status.authFail [] } u ∧
          u.cip.cache = s.cip.cache ∧ u.cip.dram = s.cip.dram ∧ Only [.stw, .eth, .cip, .regs] s u))) ∧
    (m.operand.length = 52 → s.cip.root = none →
      Handled (.keyLoad t m) at_ took s (fun v => Answered m 0x601 Status.keyErased [] v ∧ Only [.stw, .eth] s v)) ∧
    (∀ k, m.operand.length = 4 → s.keyFor (beAt m.operand 0 4) = some k →
      Handled (.keyDelete t m) at_ took s (fun v =>
        Answered m 0x602 Status.ok [] v ∧ tget? v.cip.cache (slotOf (beAt m.operand 0 4)) = none ∧
        tget? v.cip.dram (slotOf (beAt m.operand 0 4)) = none ∧ v.lin.nonces = s.lin.nonces ∧ v.lin.floor = s.lin.floor ∧
        Only [.stw, .eth, .cip, .lin] s v)) ∧
    (m.operand.length = 4 →
      Handled (.keyStatus t m) at_ took s (fun v => (∃ o : List Byte, o.length = 3 ∧
        let st := s.keyState (beAt m.operand 0 4)
        let slot := slotOf (beAt m.operand 0 4)
        Answered m 0x603 Status.ok
          (be 4 (if st = 0 then 0 else s.counter slot) ++ be 4 (tget 0 s.lin.nonces slot) ++ be 1 st ++ o) v) ∧
        Only [.stw, .eth] s v)) ∧
    (∀ p, m.operand.length = 52 → s.cip.present = [] → s.cip.root = none → kwUnwrap s.cip.otp (m.operand.drop 4) = some p →
      beAt p 0 2 = beAt m.operand 0 2 → beAt p 2 2 = 0 →
      Handled (.keyRootProvision t m) at_ took s (fun v =>
        v.cip.root = some (p.drop 8) ∧ v.cip.erasing = false ∧
        ({ what := .cells { root := some (p.drop 8), rootId := beAt p 4 4, station := beAt p 0 2, mark := false },
           ref := some s.stw.nextRef } : LinWrite) ∈ v.lin.writes ∧ Only [.stw, .cip, .lin] s v)) ∧
    (m.operand.length = 4 → beAt m.operand 0 4 = 0xA1A40000 →
      Handled (.keyAlarm t m) at_ took s (fun v =>
        v.cip.root = none ∧ v.cip.cache = [] ∧ v.lin.cells.root = none ∧ v.lin.cells.mark = true ∧ v.cip.lastSource = 5 ∧
        Answered m 0x605 Status.ok [] v)) ∧
    (m.operand.length = 4 → beAt m.operand 0 4 ≠ 0xA1A40000 →
      Handled (.keyAlarm t m) at_ took s (fun v => Answered m 0x605 Status.badOpcode [] v ∧ Only [.stw, .eth] s v))

/-- The CLU commands (04 R85; 11 R242, R252). That STATIONS is a registry command, which the manager alone serves, is the model's choice
(log entry 256). -/
def Obligations.ClusterCommandsAreServed : Prop :=
  ∀ (t at_ took : Nat) (m : Inbound) (x : Session) (s : State), Served s m Right.cluster x → 256 ≤ x.maxmsg →
    (m.operand = [] → Handled (.cluStatus t m) at_ took s (fun v => (∃ o : List Byte, o.length = 1 ∧
      Answered m 0x701 Status.ok
        (be 1 s.sea.role ++ o ++ be 2 s.station ++ be 2 (orNone s.managerOf) ++ be 2 (orNone s.sea.deputy) ++
          be 4 (if s.managerOf.isSome then s.sea.cepoch else 0)) v) ∧ Only [.stw, .eth] s v)) ∧
    (m.operand.length = 8 → s.sea.role ≠ 6 → Handled (.cluRegGet t m) at_ took s (fun v =>
      Answered m 0x702 Status.notManager [] v ∧ Only [.stw, .eth] s v)) ∧
    (∀ e, m.operand.length = 8 → s.sea.role = 6 → tget? s.sea.registry (beAt m.operand 0 8) = some e →
      Handled (.cluRegGet t m) at_ took s (fun v => (∃ o : List Byte, o.length = 1 ∧
        Answered m 0x702 Status.ok (entryBytes (beAt m.operand 0 8) e o) v) ∧ Only [.stw, .eth] s v)) ∧
    (∀ e old, m.operand.length = 32 → s.sea.role = 6 → entryOf m.operand = e → (e.2.kind = 1 ∨ e.2.kind = 2) →
      tget? s.sea.registry e.1 = some old →
      Handled (.cluRegPut t m) at_ took s (fun v =>
        tget? v.sea.registry e.1 = some { old with kind := e.2.kind, flags := e.2.flags, key := e.2.key } ∧
        (∀ k, k ≠ e.1 → tget? v.sea.registry k = tget? s.sea.registry k) ∧ v.sea.change = s.sea.change + 1 ∧
        (s.sea.deputy = none → s.sea.mirrors = [] → Answered m 0x703 Status.ok [] v) ∧
        (∀ d, s.sea.deputy = some d → s.sea.synced = true →
          ({ num := s.sea.change + 1, what := .put s.stw.nextRef } : MirrorWait) ∈ v.sea.mwaits ∧
          ∃ i ∈ v.sea.mirrors, i.num = s.sea.change + 1 ∧ i.ext = e.1) ∧ Only [.stw, .eth, .sea] s v)) ∧
    (∀ n, m.operand.length = 4 → s.sea.role = 6 → n = beAt m.operand 2 2 → 1 ≤ n → n ≤ 13 →
      Handled (.cluStations t m) at_ took s (fun v => (∃ (o : List Byte) (next : Nat) (me : Station), o.length = 2 ∧
        me.role = 6 ∧ me.prio = s.prio ∧ me.mac0 = s.macOf 0 ∧ me.mac1 = s.macOf 1 ∧
        Answered m 0x704 Status.ok
          (be 2 next ++ o ++
            (((tset s.sea.list s.station me).filter fun e => decide (beAt m.operand 0 2 ≤ e.1)).take n).flatMap
              fun e => stationBody e.1 e.2) v) ∧ Only [.stw, .eth] s v)) ∧
    (m.operand = [] → s.sea.role ≠ 0 → Handled (.cluLeave t m) at_ took s (fun v =>
      v.sea.role = 0 ∧ v.sea.follow = none ∧ v.sea.deputy = none ∧ v.sea.list = [] ∧ Answered m 0x705 Status.ok [] v))

/-- The CAP and DIAG commands (04 R85, R87, R89; 13 R298, R300). That a session may capture a port twice, and use a STREAM again, is
the model's choice (log entry 259). -/
def Obligations.CaptureAndDiagCommandsAreServed : Prop :=
  (∀ (t at_ took : Nat) (m : Inbound) (x : Session) (s : State), Served s m Right.capture x → 256 ≤ x.maxmsg →
    (m.operand.length = 12 → (octet m.operand 0 = 1 ∧ octet m.operand 1 < 24 ∨ octet m.operand 0 = 2 ∧ octet m.operand 1 < 16) →
      (∀ c ∈ s.caps, capturesOf (octet m.operand 0) (octet m.operand 1) c = true → c.slot = m.slot ∧ c.gen = m.gen) →
      Handled (.capStart t m) at_ took s (fun v => ∃ c, v.caps = s.caps ++ [c] ∧ c.source = octet m.operand 0 ∧
        c.port = octet m.operand 1 ∧ c.slot = m.slot ∧ c.gen = m.gen ∧ c.stream = beAt m.operand 8 4 ∧
        c.dur = beAt m.operand 4 4 * ms ∧ c.sent = 0 ∧ c.gap = false ∧
        max (max s.now t) at_ ≤ c.start ∧ c.start < max (max s.now t) at_ + us ∧
        Answered m 0x801 Status.ok (be 4 s.lin.epoch ++ be 8 c.start) v ∧ Only [.stw, .eth, .caps] s v)) ∧
    (∀ c ∈ s.caps, m.operand.length = 12 → (octet m.operand 0 = 1 ∧ octet m.operand 1 < 24 ∨
        octet m.operand 0 = 2 ∧ octet m.operand 1 < 16) → capturesOf (octet m.operand 0) (octet m.operand 1) c = true →
      c.slot ≠ m.slot →
      Handled (.capStart t m) at_ took s (fun v => Answered m 0x801 Status.lockedRunning [] v ∧ Only [.stw, .eth] s v)) ∧
    (∀ c, m.operand.length = 4 → s.caps.find? (fun c => decide (c.slot = m.slot) && decide (c.gen = m.gen) &&
        decide (c.stream = beAt m.operand 0 4)) = some c →
      Handled (.capStop t m) at_ took s (fun v => Answered m 0x802 Status.ok (be 4 c.sent) v ∧ c ∉ v.caps ∧
        (∀ d, d ≠ c → (d ∈ v.caps ↔ d ∈ s.caps)) ∧ Only [.stw, .eth, .caps] s v))) ∧
  ∀ (t at_ took : Nat) (m : Inbound) (x : Session) (s : State), Served s m Right.diag x →
    (m.operand = [] → 24 + 16 * s.mem.ranges.length ≤ x.maxmsg →
      Handled (.diagMemdesc t m) at_ took s (fun v => (∃ (o : List Byte) (p : MemRange → List Byte), o.length = 6 ∧
        (∀ r, (p r).length = 2) ∧
        Answered m 0x901 Status.ok (be 2 s.mem.ranges.length ++ o ++ s.mem.ranges.flatMap fun r =>
          be 8 r.base ++ be 4 (r.size / 1024) ++ be 1 r.kind ++
            be 1 (if r.kind = 1 then 3 else if r.kind = 2 then 0 else 1) ++ p r) v) ∧ Only [.stw, .eth] s v)) ∧
    (∀ first n, m.operand.length = 6 → first = beAt m.operand 0 4 → n = beAt m.operand 4 2 → 1 ≤ n → n ≤ 255 →
      s.lin.logNext ≤ first + 32768 → (∀ i, i < n → (tget (zeros 32) s.lin.log (first + i)).length = 32) →
      16 + 32 * n ≤ x.maxmsg →
      Handled (.diagFaultLog t m) at_ took s (fun v =>
        Answered m 0x902 Status.ok ((List.range n).flatMap fun i => tget (zeros 32) s.lin.log (first + i)) v ∧
        Only [.stw, .eth] s v)) ∧
    (∀ n, m.operand.length = 1 → n = octet m.operand 0 → n < 64 → 32 ≤ x.maxmsg →
      Handled (.diagEngine t m) at_ took s (fun v => (∃ o : List Byte, o.length = 3 ∧
        Answered m 0x903 Status.ok
          (be 1 n ++ be 1 (match (s.eng n).st with
            | .active => 0
            | .spare => 1
            | .selfTest => 2
            | .retired => 3) ++ be 2 (s.eng n).load ++ be 1 (s.eng n).replacedBy ++ o ++
            be 4 (s.eng n).faults ++ be 4 (s.eng n).lastIndex) v) ∧ Only [.stw, .eth] s v))

/-! ## The direct window (04) and registers (00) -/

/-- A write by access class (00 R6, R7, R436): RW, RL and LV fields take the written value, a W1C bit written with 1
clears, RO and WO fields and the active values of RS fields stay; a shadow takes what the write names. A read gives WO
fields as 0, and a field that no other state drives as its register's value. -/
def Obligations.FieldsFollowTheirAccessClass : Prop :=
  (∀ (r : Regs) (w : RegWrite) (x : Fld), hooked w.fam = false → x ∈ (famInfo w.fam).flds →
     let old := regWord r w.fam w.i w.j
     let new := regWord (r.write w) w.fam w.i w.j
     ((x.acc = .rw ∨ x.acc = .rl ∨ x.acc = .lv) → new &&& fldMask x = w.value &&& fldMask x) ∧
     (x.acc = .w1c → new &&& fldMask x = old &&& ~~~w.value &&& fldMask x) ∧
     ((x.acc = .ro ∨ x.acc = .wo ∨ x.acc = .rs) → new &&& fldMask x = old &&& fldMask x) ∧
     (x.acc = .rs → fldMask x &&& ~~~w.mask = 0 →
       shadowWord (r.write w) w.fam w.i w.j &&& fldMask x = w.value &&& fldMask x) ∧
     (x.acc = .rs → fldMask x &&& w.mask = 0 →
       shadowWord (r.write w) w.fam w.i w.j &&& fldMask x = shadowWord r w.fam w.i w.j &&& fldMask x)) ∧
  (∀ (s : State) (x : Option Session) (arrived i j : Nat) (f : Fam) (y : Fld), y ∈ (famInfo f).flds →
     (y.acc = .wo → s.readWord x arrived f i j &&& fldMask y = 0) ∧
     (y.acc ≠ .wo → s.live x arrived f i = [] →
       s.readWord x arrived f i j &&& fldMask y = regWord s.regs f i j &&& fldMask y))

/-- A write of a register that sets nothing else off changes that register, what it counts at the instant of its clearing (00 R436),
and the lining's queue where a retained field changed (02 R30). STW_XPORT and STW_UDP are held, as written, until the response has
been sent (03 R70). -/
def Obligations.QuietRegistersAloneChange : Prop :=
  (∀ (s : State) (w : RegWrite), s.pow.on = true → carrierReg w.fam = true →
    let u := s.writeAll [w]
    let old := s.stw.carrier.getD (regWord s.regs .stwXport 0 0, regWord s.regs .stwUdp 0 0)
    Only [.stw] s u ∧ u.stw = { s.stw with carrier := u.stw.carrier } ∧ ∃ x y, u.stw.carrier = some (x, y) ∧
      (w.fam = .stwXport → y = old.2 ∧ x &&& plainMask .stwXport = w.value &&& plainMask .stwXport) ∧
      (w.fam = .stwUdp → x = old.1 ∧ y &&& plainMask .stwUdp = w.value &&& plainMask .stwUdp)) ∧
  (∀ (s : State) (w : RegWrite), s.pow.on = true → hooked w.fam = false → carrierReg w.fam = false →
    let u := s.writeAll [w]
    u.regs = (s.regs.write w).recount s.now w ∧ (s.regs.hitsAt s.now = [] → u.regs.vals = (s.regs.write w).vals) ∧ Only [.regs, .lin] s u ∧ u.lin = { s.lin with writes := u.lin.writes } ∧
    (regWord u.regs w.fam w.i w.j &&& keepMask w.fam ≠ regWord s.regs w.fam w.i w.j &&& keepMask w.fam →
      u.lin.writes = s.lin.writes ++
        [{ what := .cfg [(famAddr w.fam w.i w.j, regWord u.regs w.fam w.i w.j &&& keepMask w.fam)], ref := none }])) ∧
  ∀ (t slot addr : Nat) (value : Word) (s : State), s.pow.on = true →
    (∀ f i j, regOf addr = some (f, i, j) →
      let w : RegWrite := { fam := f, i := i, j := j, value := value, mask := 0xFFFFFFFF#32 }
      (s.checkAll slot s.regs [w] = none → Does (.registerWrite t slot addr value) s (fun u =>
        ∃ v, Only [] s v ∧ v.now = max s.now t ∧ Only [] (v.writeAll [w]).settleCarrier u)) ∧
      ((s.checkAll slot s.regs [w]).isSome → Does (.registerWrite t slot addr value) s (Only [] s))) ∧
    (regOf addr = none → Does (.registerWrite t slot addr value) s (Only [] s))

/-- CFG READ (04 R73, R74): COUNT registers in ascending order, each as it then reads; none is read where the answer would be too
long for the session (03 R52). -/
def Obligations.CfgReadReturnsTheRegisters : Prop :=
  ∀ (t a n : Nat) (m : Inbound) (x : Session) (s : State), Sound s m Right.read x → Clear s m → 256 ≤ x.maxmsg →
    m.operand.length = 8 → a = beAt m.operand 0 4 → n = beAt m.operand 4 2 → 1 ≤ n → n ≤ 2048 →
    (∀ l, regsFrom a n = .ok l →
      (16 + 4 * n ≤ x.maxmsg → Does (.cfgRead t m) s (fun u => ∃ vals : List Word, vals.length = n ∧ Only [.stw, .eth] s u ∧
        Direct m 0x101 Status.ok (vals.flatMap fun v => be 4 v.toNat) u ∧
        ∀ (k : Nat) (r : Fam × Nat × Nat), l[k]? = some r → ∃ v y, Arrived s m 0x101 t v ∧
          vals[k]? = some (v.readWord (some y) (max s.now t) r.1 r.2.1 r.2.2))) ∧
      (x.maxmsg < 16 + 4 * n → Does (.cfgRead t m) s (fun u => Direct m 0x101 Status.badLength [] u ∧ Only [.stw, .eth] s u ∧
        ∃ y, tget? u.stw.sess m.slot = some y ∧ y.latElapsed = x.latElapsed ∧ y.latCluster = x.latCluster ∧
          y.latRx = x.latRx ∧ y.latRxc = x.latRxc))) ∧
    (∀ b, regsFrom a n = .error b →
      Does (.cfgRead t m) s (fun u => ∃ o, Direct m 0x101 Status.badAddress (be 4 b ++ be 1 0 ++ o) u ∧
        Only [.stw, .eth] s u))

/-- CFG WRITE (04 R75, R78): the first register that fails a check is named in the refusal, and then nothing is written;
otherwise every register is written in ascending order. That a write which begins a restart ends the command with no response is the
model's choice (log entry 134). -/
def Obligations.CfgWriteWritesAllOrNothing : Prop :=
  ∀ (t a n : Nat) (m : Inbound) (x : Session) (s : State), Sound s m (writeRights a n) x → Clear s m → 256 ≤ x.maxmsg →
    a = beAt m.operand 0 4 → n = beAt m.operand 4 2 → 1 ≤ n → n ≤ 2046 → m.operand.length = 8 + 4 * n →
    (∀ l, regsFrom a n = .ok l →
      let ws : List RegWrite := l.zipIdx.map fun z =>
        { fam := z.1.1, i := z.1.2.1, j := z.1.2.2, value := BitVec.ofNat 32 (beAt m.operand (8 + 4 * z.2) 4), mask := 0xFFFFFFFF#32 }
      Does (.cfgWrite t m) s (fun u => ∃ v, Arrived s m 0x102 t v ∧
        (∀ e, v.checkAll m.slot v.regs ws = some e → Only [.stw, .eth] s u ∧
          ∃ o, Direct m 0x102 e.status (be 4 e.addr ++ be 1 e.reason ++ o) u) ∧
        (v.checkAll m.slot v.regs ws = none → (s.stw.carrier = none → m.port < 2 → Only [.stw, .eth] (v.writeAll ws) u) ∧
          ((v.writeAll ws).pow.on = false → u = v.writeAll ws) ∧
          ((∀ w ∈ ws, hooked w.fam = false) → Direct m 0x102 Status.ok [] u)))) ∧
    (∀ b, regsFrom a n = .error b →
      Does (.cfgWrite t m) s (fun u => ∃ o, Direct m 0x102 Status.badAddress (be 4 b ++ be 1 0 ++ o) u ∧
        Only [.stw, .eth] s u))

/-- CFG MODIFY (04 R434): one register is read and written once; in a register that sets nothing else off, and that has counted
nothing at this instant (00 R436), the fields outside MASK stay and those inside it take VALUE by their class: RW, RL and LV fields
hold it, a W1C bit clears where VALUE is 1, an RS field's shadow holds it and its active value stays, RO and WO fields stay. That a
MODIFY which begins a restart ends with no response is the model's choice (log entry 134). -/
def Obligations.CfgModifyWritesUnderTheMask : Prop :=
  ∀ (t a i j : Nat) (f : Fam) (m : Inbound) (x : Session) (s : State), Sound s m (writeRights a 1) x → Clear s m →
    256 ≤ x.maxmsg → m.operand.length = 12 → a = beAt m.operand 0 4 → regOf a = some (f, i, j) →
    let mask := BitVec.ofNat 32 (beAt m.operand 4 4)
    let value := BitVec.ofNat 32 (beAt m.operand 8 4)
    Does (.cfgModify t m) s (fun u => ∃ (v : State) (y : Session), Arrived s m 0x103 t v ∧
      let read := v.readWord (some y) (max s.now t) f i j
      let w := v.modifyWrite (f, i, j) read mask value
      (∀ e, v.checkAll m.slot v.regs [w] = some e → Only [.stw, .eth] s u ∧
        ∃ o, Direct m 0x103 e.status (be 4 e.addr ++ be 1 e.reason ++ o) u) ∧
      (v.checkAll m.slot v.regs [w] = none → (s.stw.carrier = none → m.port < 2 → Only [.stw, .eth] (v.writeAll [w]) u) ∧
        ((v.writeAll [w]).pow.on = false → u = v.writeAll [w]) ∧
        (hooked f = false → Direct m 0x103 Status.ok (be 4 read.toNat) u) ∧
        (hooked f = false → carrierReg f = false → s.stw.carrier = none → s.regs.hitsAt (max s.now t) = [] → ∀ z ∈ (famInfo f).flds,
          (fldMask z &&& mask = 0 → regWord u.regs f i j &&& fldMask z = regWord s.regs f i j &&& fldMask z) ∧
          (fldMask z &&& mask = 0 → z.acc = .rs → shadowWord u.regs f i j &&& fldMask z = shadowWord s.regs f i j &&& fldMask z) ∧
          (fldMask z &&& ~~~mask = 0 →
            ((z.acc = .rw ∨ z.acc = .rl ∨ z.acc = .lv) → regWord u.regs f i j &&& fldMask z = value &&& fldMask z) ∧
            (z.acc = .w1c → regWord u.regs f i j &&& fldMask z = regWord s.regs f i j &&& ~~~value &&& fldMask z) ∧
            (z.acc = .rs → shadowWord u.regs f i j &&& fldMask z = value &&& fldMask z) ∧
            ((z.acc = .rs ∨ z.acc = .ro ∨ z.acc = .wo) →
              regWord u.regs f i j &&& fldMask z = regWord s.regs f i j &&& fldMask z)))))

/-- CFG WAIT (04 R77): a first read that meets the condition answers at once with MET 1; otherwise the wait stands until
TIMEOUT_US; the read at its end answers with MET as it finds it. -/
def Obligations.CfgWaitAnswersOnceMetOrLate : Prop :=
  (∀ (t a i j : Nat) (f : Fam) (m : Inbound) (x : Session) (s : State), Sound s m Right.read x → Clear s m →
    256 ≤ x.maxmsg → m.operand.length = 16 → a = beAt m.operand 0 4 → regOf a = some (f, i, j) → beAt m.operand 12 4 ≤ 8000 →
    let mask := BitVec.ofNat 32 (beAt m.operand 4 4)
    let want := BitVec.ofNat 32 (beAt m.operand 8 4)
    Does (.cfgWait t m) s (fun u => Only [.stw, .eth] s u ∧ ∃ (v : State) (y : Session), Arrived s m 0x104 t v ∧
      let read := v.readWord (some y) (max s.now t) f i j
      if read &&& mask = want then
        u.stw.waits = s.stw.waits ∧ ∃ o, Direct m 0x104 Status.ok (be 4 read.toNat ++ be 1 1 ++ o) u
      else
        u.stw.waits = s.stw.waits ++ [{ ref := s.stw.nextRef, slot := m.slot, addr := a, mask := mask, want := want,
                                        due := max s.now t + beAt m.operand 12 4 * us }] ∧
        u.stw.flights = s.stw.flights ++ [flightOf s m 0x104 t .waiting] ∧ u.eth = s.eth)) ∧
  ∀ (t i j : Nat) (fam : Fam) (w : Wait) (f : Flight) (x : Session) (s : State), s.pow.on = true →
    s.stw.waits.find? (fun v => decide (v.ref = w.ref)) = some w → s.flight? w.ref = some f → regOf w.addr = some (fam, i, j) →
    s.sessOf f.slot f.gen = some x → 256 ≤ x.maxmsg →
    (∀ g ∈ s.stw.flights, g.slot = f.slot → g.gen = f.gen → g.stage ≠ .held) →
    Does (.cfgWaitComplete t w.ref []) s (fun u => Only [.stw, .eth] s u ∧ ∃ (v : State) (y : Session),
      Only [.stw] s v ∧ v.now = max s.now t ∧ v.stw.flights = s.stw.flights ∧
      let read := v.readWord (some y) f.time fam i j
      if read &&& w.mask = w.want ∨ w.due ≤ max s.now t then
        u.stw.waits = s.stw.waits.filter (fun v => decide (v.ref ≠ w.ref)) ∧
        ∃ o, Queued 2 { kind := .response, dst := f.src,
                        body := message 1 6 f.mb f.tag f.opcode f.seq f.slot f.gen Status.ok
                          (be 4 read.toNat ++ be 1 (b2n (decide (read &&& w.mask = w.want))) ++ o) } u
      else u.stw.waits = s.stw.waits ∧ u.stw.flights = s.stw.flights ∧ u.eth = s.eth)

/-- MEM READ and MEM WRITE (04 R79, R80; 01 R15 to R17), in memory without uncorrectable codewords; nothing is read where the answer
would be too long for the session (03 R52). MEM FENCE (04 R81): answered once no earlier posted write of the session is left to land, a
lone one with its octets then in memory; no octet that no posted write covers changes. -/
def Obligations.MemCommandsReachMemory : Prop :=
  (∀ (t a n : Nat) (fixed : List Nat) (m : Inbound) (x : Session) (s : State), Sound s m Right.read x → Clear s m →
    256 ≤ x.maxmsg → m.operand.length = 16 → a = beAt m.operand 0 8 → n = beAt m.operand 8 4 → 1 ≤ n → n ≤ 8192 →
    (firstBad (mayRead s.mem) a n = none → s.mem.rot = [] → s.mem.poisonIn a n = [] → 16 + n ≤ x.maxmsg →
      Does (.memRead t m fixed) s (fun u => Only [.stw, .eth, .regs, .fau] s u ∧ ∃ d : List Byte, d.length = n ∧
        Direct m 0x201 Status.ok d u ∧ ∀ k, k < n → kindOf s.mem (a + k) < 3 → (∀ e, regionOf (a + k) ≠ .engine e) →
          d[k]? = some (s.mem.read (a + k)))) ∧
    (firstBad (mayRead s.mem) a n = none → x.maxmsg < 16 + n →
      Does (.memRead t m fixed) s (fun u => Only [.stw, .eth] s u ∧ Direct m 0x201 Status.badLength [] u)) ∧
    (firstBad (mayRead s.mem) a n = none → s.mem.rot = [] → s.mem.poisonIn a n ≠ [] → 16 + n ≤ x.maxmsg →
      Does (.memRead t m fixed) s (fun u => Only [.stw, .eth, .regs, .fau] s u ∧ Direct m 0x201 Status.memError [] u)) ∧
    (∀ b, firstBad (mayRead s.mem) a n = some b →
      Does (.memRead t m fixed) s (fun u => Only [.stw, .eth] s u ∧
        ∃ o, Direct m 0x201 Status.badAddress (be 4 (b % 2 ^ 32) ++ be 1 0 ++ o) u))) ∧
  (∀ (t a : Nat) (d : List Byte) (m : Inbound) (x : Session) (s : State), Sound s m Right.write x → Clear s m →
    256 ≤ x.maxmsg → 17 ≤ m.operand.length → m.operand.length ≤ 8192 → a = beAt m.operand 0 8 → d = m.operand.drop 16 →
    (firstBad (mayWrite s.mem) a d.length = none → s.mem.rot = [] → bit (octet m.operand 8) 0 = false →
      Does (.memWrite t m) s (fun u => Only [.stw, .eth, .mem] s u ∧
        (∀ k, k < d.length → d[k]? = some (u.mem.read (a + k))) ∧
        (∀ b, b < a ∨ a + d.length ≤ b → u.mem.read b = s.mem.read b) ∧ u.mem.ranges = s.mem.ranges ∧
        Direct m 0x202 (if (s.mem.poisonPart a d.length).isEmpty then Status.ok else Status.memError) [] u)) ∧
    (firstBad (mayWrite s.mem) a d.length = none → bit (octet m.operand 8) 0 = true →
      Does (.memWrite t m) s (fun u => Only [.stw, .eth, .mem] s u ∧
        u.mem = { s.mem with posted := [{ slot := m.slot, gen := m.gen, addr := a, data := d }] } ∧
        (s.mem.poison = [] → Direct m 0x202 Status.ok [] u))) ∧
    (∀ b, firstBad (mayWrite s.mem) a d.length = some b →
      Does (.memWrite t m) s (fun u => Only [.stw, .eth] s u ∧
        ∃ o, Direct m 0x202 Status.badAddress (be 4 (b % 2 ^ 32) ++ be 1 0 ++ o) u))) ∧
  ∀ (t : Nat) (m : Inbound) (x : Session) (s : State), Sound s m 0 x → s.waitOf m.slot m.gen = none → 256 ≤ x.maxmsg →
    m.operand = [] →
    Does (.memFence t m) s (fun u => (∀ p ∈ u.mem.posted, p ∈ s.mem.posted ∧ p.of m.slot m.gen = false) ∧
      (∀ a, (∀ p ∈ s.mem.posted, a < p.addr ∨ p.addr + p.data.length ≤ a) → u.mem.read a = s.mem.read a) ∧
      (∀ p, s.mem.posted = [p] → p.of m.slot m.gen = true → ∀ k, k < p.data.length → p.data[k]? = some (u.mem.read (p.addr + k))) ∧
      u.mem.ranges = s.mem.ranges ∧ Only [.stw, .eth, .mem, .regs, .fau] s u ∧
      (s.mem.rot = [] → Direct m 0x203 Status.ok [] u))

/-- A step on an empty queue (log entry 3, the model's choice: the block then sends, and no command stands for it). A device that is off
idles. On one that runs, each up port sends the frame that 18 R414 to R416 name: a pause frame first, else the head of its lowest-numbered
queue whose head may leave; its octets go out as 18 R410 to R412 lay them out, with the stamps of R418, after the frame before it on the
wire (log entry 243), and after a capture block the next waits for the rate of R417. One whose protocol has no address on the port ends
unsent (log entry 219). STW_XPORT and STW_UDP as written take effect once no response they wait for is left in a queue (03 R70). The
RS-FEC counters of an up port that uses it advance by an open count (log entry 173), the spool that brought a frame counts it (log
entry 178), and an appointed deputy's copy goes on (log entry 211). Nothing else changes. -/
def Obligations.AnIdleStepSendsTheQueuedFrames : Prop :=
  ∀ s : State, s.pending = [] →
    (s.pow.on = false → step s = .next s) ∧
    (s.pow.on = true → ∃ u, step s = .next u ∧ u.pending = [] ∧ u.now = s.now ∧ Only [.regs, .lin, .stw, .eth, .spl, .sea] s u ∧
      (∀ p, (2 ≤ p ∨ (s.ep p).up = false ∨ ∀ q f l, ¬NextFrame s p q f l) → u.ep p = s.ep p) ∧
      (∀ p q f l, p < 2 → (s.ep p).up = true → NextFrame s p q f l →
        let r := s.tick s.now
        let start := s.wireFree p
        let e := { s.ep p with queues := tset (s.ep p).queues q l }
        (∀ o, r.ethOctets p (r.stampFrame start f) = some o →
          u.ep p = { e with out := o, freeAt := start + f.wire * 8
                            capAt := if q = 4 then cdiv start 100 + cdiv (f.body.length * 8) s.capRate else e.capAt }) ∧
        (r.ethOctets p (r.stampFrame start f) = none → u.ep p = e)) ∧
      (∀ p, p < 2 → ∀ x ∈ [(F.ethEpCntFecCorr, 965), (F.ethEpCntFecUncorr, 967)], u.reg x.1 p =
        if (s.ep p).up && (s.ep p).fecOn then min (s.reg x.1 p + Config.freeNat (s.free + 1) (x.2 + p)) 0xFFFFFFFF else s.reg x.1 p) ∧
      u.stw = { s.stw with carrier := u.stw.carrier } ∧ (s.stw.carrier = none → u.stw.carrier = none ∧ u.lin = s.lin) ∧
      (∀ x y, s.stw.carrier = some (x, y) →
        ((∃ p < 2, ∃ f ∈ tget [] (u.ep p).queues 2, f.settles = true) → u.stw.carrier = some (x, y) ∧ u.lin = s.lin) ∧
        ((∀ p < 2, ∀ f ∈ tget [] (u.ep p).queues 2, f.settles = false) →
          u.stw.carrier = none ∧ regWord u.regs .stwXport 0 0 = x ∧ regWord u.regs .stwUdp 0 0 = y)) ∧
      u.lin = { s.lin with writes := u.lin.writes } ∧
      u.sea = { s.sea with copied := u.sea.copied } ∧ (s.sea.role ≠ 4 → u.sea = s.sea) ∧
      u.spl = { s.spl with spools := u.spl.spools } ∧ (u.eth = s.eth → u.spl = s.spl) ∧
      u.regs = { s.regs with vals := u.regs.vals, hitAt := u.regs.hitAt, hits := u.regs.hits } ∧
      ∀ a, (∀ p < 2, a ≠ famAddr .ethEpCntFecCorr p 0 ∧ a ≠ famAddr .ethEpCntFecUncorr p 0) →
        (∀ n < 384, a ≠ famAddr .splChCtl n 0 ∧ a ≠ famAddr .splChCntDesc n 0 ∧ a ≠ famAddr .splChCntBytes n 0) →
        a ≠ famAddr .stwXport 0 0 → a ≠ famAddr .stwUdp 0 0 → tget? u.regs.vals a = tget? s.regs.vals a)

/-- The latched 64-bit reads (02 R27; 11 R253; 18 R419): a read of the low register returns it and latches the high one for
the session, and no other session's latch moves; the high register reads as the session's latch. That one RX_TIMESTAMP_READ latches
both RXTS and RXCTS is the model's choice (log entry 140). -/
def Obligations.LowReadsLatchTheHighPart : Prop :=
  (∀ (s : State) (x : Session) (arrived : Nat), s.readWord (some x) arrived .tmbElapsedHi 0 0 = x.latElapsed) ∧
  ∀ (t slot arrived : Nat) (x : Session) (s : State), s.pow.on = true → tget? s.stw.sess slot = some x →
    let now := max s.now t
    let hi (v : Nat) : Word := BitVec.ofNat 32 (v / 2 ^ 32)
    let others (u : State) : Prop := ∀ k, k ≠ slot → tget? u.stw.sess k = tget? s.stw.sess k
    Does (.elapsedLatchRead t slot) s (fun u => u.regs.last = BitVec.ofNat 32 now ∧
      tget? u.stw.sess slot = some { x with latElapsed := hi now } ∧ others u ∧ Only [.stw, .regs] s u ∧
      u.regs = { s.regs with last := u.regs.last }) ∧
    Does (.clusterTimeLatchRead t slot) s (fun u => ∃ c : Nat, c = (s.tick t).ctime ∧ u.regs.last = BitVec.ofNat 32 c ∧
      tget? u.stw.sess slot = some { x with latCluster := hi c } ∧ others u ∧ Only [.stw, .regs] s u ∧
      u.regs = { s.regs with last := u.regs.last }) ∧
    Does (.rxTimestampRead t slot arrived) s (fun u => u.regs.last = BitVec.ofNat 32 arrived ∧
      tget? u.stw.sess slot = some { x with
        latRx := hi arrived
        latRxc := hi (if s.sea.valid then s.ctimeAt arrived else 0) } ∧
      others u ∧ Only [.stw, .regs] s u ∧ u.regs = { s.regs with last := u.regs.last })

/-- COMMIT (04 R90 to R93, R96; 05 R111): GO takes a snapshot of the shadows; a block of which nothing runs applies it as soon as it
is taken, and every register of the scope takes its shadow's value. APPLY hands over what has reached its boundary: a link or
channel that is in no frame, a site channel that forms no output, a stopped or waiting spool, a sequencer between sequences; the
others keep the snapshot waiting. An MNS snapshot that waits is no business of APPLY: each port takes its OFFSET at its own anchor (05
R111), the cycle that begins there is IRREGULAR where OFFSET changes, and the last port to take it ends the hand-over. DISCARD
sets every shadow to its active value. A GO that fails an agreement rule, or finds a hand-over pending, changes nothing. -/
def Obligations.CommitHandsShadowsOver : Prop :=
  ∀ (t addr i : Nat) (c : Fam) (s : State), s.pow.on = true → commitAt addr = some (c, i) →
    let old := s.regs.com c i
    let v := s.tick t
    let handed (u : State) : Prop := (u.regs.com c i).pend = false ∧ (u.regs.com c i).count = (old.count + 1) % 65536
    (old.pend = false → s.commitConflict c i = none →
      Does (.commitGo t addr) s (fun u => (u.regs.com c i).dirty = false ∧
        (handed u ∨ (u.regs.com c i).pend = true ∧ (u.regs.com c i).snap = s.regs.snapshot c i ∧
          (u.regs.com c i).count = old.count) ∧
        (AtOnce v c i → handed u ∧ Took u (scopeRegs c i) fun f a b => shadowWord s.regs f a b))) ∧
    (old.pend = true ∨ (s.commitConflict c i).isSome → Does (.commitGo t addr) s (Only [] s)) ∧
    (old.pend = false →
      Does (.commitDiscard t addr) s (fun u => u.regs.com c i = { old with dirty := false } ∧ Only [.regs] s u ∧
        u.regs.vals = s.regs.vals ∧ ∀ r ∈ scopeRegs c i, shadowWord u.regs r.1 r.2.1 r.2.2 = regWord s.regs r.1 r.2.1 r.2.2)) ∧
    (old.pend = true → Does (.commitDiscard t addr) s (Only [] s)) ∧
    (old.pend = false → Does (.commitApply t addr) s (Only [] s)) ∧
    ∀ w : Fam → Nat → Nat → Word, old.pend = true →
      old.snap = (scopeRegs c i).map (fun r => (famAddr r.1 r.2.1 r.2.2, w r.1 r.2.1 r.2.2)) →
      (c = .splChCommit ∨ c = .cnvCommit → AtOnce v c i →
        Does (.commitApply t addr) s (fun u => handed u ∧ Took u (scopeRegs c i) w)) ∧
      (c = .splChCommit ∨ c = .cnvCommit → ¬AtOnce v c i → Does (.commitApply t addr) s (Only [] s)) ∧
      (c = .plxCommit ∨ c = .airCommit → (∀ m ∈ old.waiting, m < 64) →
        Does (.commitApply t addr) s (fun u =>
          (∀ m ∈ old.waiting, partBusy v c i m = false → Took u (partRegs c i m) w) ∧
          (∀ m < 64, (m ∉ old.waiting ∨ partBusy v c i m = true) → Took u (partRegs c i m) fun f a b => regWord s.regs f a b) ∧
          ((∀ m ∈ old.waiting, partBusy v c i m = false) → handed u) ∧
          (∀ k, k ∈ old.waiting → partBusy v c i k = true → (u.regs.com c i).pend = true ∧ (u.regs.com c i).count = old.count ∧
            (u.regs.com c i).waiting = old.waiting.filter fun m => partBusy v c i m))) ∧
      (c = .fltCommit → old.waiting ≠ [] → (∀ m ∈ old.waiting, m < 32) →
        Does (.commitApply t addr) s (fun u =>
          (∀ m ∈ old.waiting, partBusy v c i m = false → Took u (partRegs c i m) w) ∧
          ((∀ m ∈ old.waiting, partBusy v c i m = false) → handed u) ∧
          (∀ k, k ∈ old.waiting → partBusy v c i k = true → (u.regs.com c i).pend = true ∧ (u.regs.com c i).count = old.count))) ∧
      (c = .mnsCommit → Does (.commitApply t addr) s (Only [] s)) ∧
      ∀ (n : Nat) (outs : List ChanOut), c = .mnsCommit → n < 24 → n ∈ old.waiting → (s.timer n).due ≤ max s.now t →
        (s.timer n).atAnchor = true → Does (.pleatStart t n outs) s (fun u =>
          Took u [(.mnsPortCfg, n, 0)] w ∧ (u.timer n).off = u.reg F.mnsPortCfgOffset n * (u.timer n).period / 4096 ∧
          (s.reg F.mnsPortCfgSrc n ≠ 3 → u.reg F.mnsPortCfgOffset n ≠ s.reg F.mnsPortCfgOffset n → (u.timer n).irregular = true) ∧
          (∀ m, m < 24 → m ≠ n → u.reg F.mnsPortCfgOffset m = s.reg F.mnsPortCfgOffset m) ∧
          ((∀ m ∈ old.waiting, m = n) → handed u) ∧
          (∀ k ∈ old.waiting, k ≠ n → ∃ part, u.regs.com c i =
            { old with waiting := old.waiting.filter fun m => decide (m ≠ n), part := part }))
/-! ## Captures (04 R87, R88), the steward's queue (03 R59), alarms and the cipher block (14) -/

/-- CAPTURE_DURATION_END and CAPTURE_BLOCK (04 R87, R88; 18 R417); an air port's block has the antenna's instant (09 R189, R205). That
a stream's SEQUENCE counts from 0, and that GAP is kept for the next block sent, are the model's choices (log entries 185 and 260). -/
def Obligations.CaptureStreamsSendAndEnd : Prop :=
  (∀ (t slot stream : Nat) (c : Capture) (s : State), s.pow.on = true → s.capture? slot stream = some c →
    (c.dur ≠ 0 → c.start + c.dur ≤ max s.now t → Does (.captureDurationEnd t slot stream) s (fun u =>
      u.caps = s.caps.filter (fun d => decide (d ≠ c)) ∧ Only [.caps] s u)) ∧
    (c.dur = 0 ∨ max s.now t < c.start + c.dur → Does (.captureDurationEnd t slot stream) s (Only [] s))) ∧
  ∀ (t slot stream lane ns : Nat) (samples : List Byte) (c : Capture) (x : Session) (s : State), s.pow.on = true →
    s.capture? slot stream = some c → tget? s.stw.sess slot = some x →
    samples.length = blockSamples c.source x * sampleLen c.source → 0 < samples.length →
    ns = (if c.source = 2 then lane - s.reg F.airLatRxNs c.port else lane) → c.start ≤ ns →
    (c.source = 1 ∨ (s.ap c.port).up = true) →
    let n := samples.length / sampleLen c.source
    (s.capQueued c + n ≤ queueSamples c.source → Does (.captureBlock t slot stream lane samples) s (fun u =>
      { c with sent := c.sent + 1, gap := false } ∈ u.caps ∧ u.caps.length = s.caps.length ∧ Only [.caps, .eth] s u ∧
      ∃ (f : Frame) (free : Nat), Queued 4 f u ∧ f.kind = .capture ∧
        f.body = message 5 0 0 0 0 (c.sent % 2 ^ 32) c.slot c.gen 0
          (be 1 c.source ++ be 1 c.port ++ be 1 (c.source - 1) ++ be 1 (b2n c.gap + 2 * free) ++ be 4 c.stream ++
            be 4 s.lin.epoch ++ be 8 ns ++ be 4 n ++ samples))) ∧
    (queueSamples c.source < s.capQueued c + n → Does (.captureBlock t slot stream lane samples) s (fun u =>
      { c with gap := true } ∈ u.caps ∧ u.caps.length = s.caps.length ∧ Only [.caps, .regs] s u ∧
      u.reg F.ethEpCntCapdrop (s.txPort x.port) = min (s.reg F.ethEpCntCapdrop (s.txPort x.port) + 1) 0xFFFFFFFF))

/-- STEWARD_DISPATCH (03 R59): the command taken is the oldest of the lowest-numbered mailbox that holds one; it waits there no
longer, and its service time enters the mean of its mailbox. -/
def Obligations.StewardTakesTheLowestMailbox : Prop :=
  ∀ (t took : Nat) (s : State), s.pow.on = true →
    ((s.fwRuns = false ∨ ∀ g ∈ s.stw.flights, g.stage = .queued → 8 ≤ g.mb) →
      Does (.stewardDispatch t took) s (Only [] s)) ∧
    (∀ g ∈ s.stw.flights, s.fwRuns = true → g.stage = .queued → g.mb < 8 →
      Does (.stewardDispatch t took) s (fun u => ∃ f, (s.stw.queued f.mb).head? = some f ∧
        (∀ h ∈ s.stw.flights, h.stage = .queued → f.mb ≤ h.mb) ∧
        (∀ k, k ≠ f.mb → tget? u.stw.svc k = tget? s.stw.svc k) ∧ (tget [] u.stw.svc f.mb).getLast? = some took ∧
        (∀ h ∈ u.stw.flights, h.ref = f.ref → h.stage ≠ .queued)))

/-- An alarm (14 R309 to R312; 19 R426): keys, root and secure cells are gone at once, jobs in progress end with KEY_ERASED, and the
log entry and the event tell it; its condition, where it lasts, is present; ALARM_N is driven low, unless VIO, which drives it, is
outside its window. That a command whose lining record an alarm overtakes ends with KEY_ERASED is log entry 162, the model's choice. A
supply's reading outside its window (19 R422) counts once it has lasted 200 ns, and is an alarm where the supply has risen above its
window, or has left it while PORST_N is high (02 R22; 19 R423, R426, R427); that the row carries the reading, and that
ALARM_CAUSE_REMOVED of source 2 brings every supply in alarm back to its nominal value, is log entry 254, the model's choice. -/
def Obligations.AlarmsEraseTheKeys : Prop :=
  let erased (s u : State) (now source detail : Nat) (stays : Bool) (more : List Block) : Prop :=
    u.cip.root = none ∧ u.cip.cache = [] ∧ u.cip.erasing = true ∧ u.cip.clearDue = true ∧ u.cip.lastSource = source ∧
    (∀ j ∈ u.cip.jobs, j.bad ≠ 0) ∧ u.cip.jobs.length = s.cip.jobs.length ∧ u.cip.dram = s.cip.dram ∧ u.cip.otp = s.cip.otp ∧
    (stays = true → source ∈ u.cip.present) ∧ (stays = false → u.cip.present = s.cip.present) ∧
    u.lin = { s.lin with cells := { root := none, rootId := 0, station := 0xFFFF, mark := true }
                         writes := s.lin.writes.filter fun w => !w.what.erased } ∧
    (∀ w ∈ s.lin.writes, ∀ r, w.what.erased = true → w.ref = some r → s.pairActive = true → ∀ f ∈ u.stw.flights, f.ref ≠ r) ∧
    u.reg F.cipCntAlarm = min (s.reg F.cipCntAlarm + 1) 0xFFFFFFFF ∧
    (LogRoom s → Logged u 0x70 0x40 0 1 10 255) ∧
    Raised s u now 0x301 0x40 0 (be 1 source ++ be 1 detail ++ be 2 (min s.heldKeys.length 0xFFFF)) ∧
    (s.pow.on = true → u.supplyOut 2 = false → u.alarmPinLow = true) ∧
    Only ([.cip, .lin, .regs, .fau, .stw, .eth] ++ more) s u
  (∀ (t : Nat) (celsius : Int) (sealOk : Bool) (s : State), s.pow.on = true →
    (s.flag F.cipAlarmCfgMeshEn = true → Does (.tamperMeshOpen t) s (fun u => erased s u (max s.now t) 1 0 true [])) ∧
    (s.flag F.cipAlarmCfgMeshEn = false → Does (.tamperMeshOpen t) s (Only [] s)) ∧
    (celsius < -50 ∨ 135 < celsius → Does (.temperatureAlarm t celsius) s (fun u => erased s u (max s.now t) 3 0 true [])) ∧
    (-50 ≤ celsius → celsius ≤ 135 → Does (.temperatureAlarm t celsius) s (Only [] s)) ∧
    Does (.liningTamperCheck t sealOk) s (fun u =>
      if sealOk then Only [] s u else erased s u (max s.now t) 4 0 false [])) ∧
  (∀ (t n : Nat) (r : SupplyReading) (s : State), n < 5 →
    let low (uv : Nat) : Prop := uv < [620000, 1140000, 1710000, 3135000, 1045000].getD n 0
    let high (uv : Nat) : Prop := [900000, 1260000, 1890000, 3465000, 1155000].getD n 0 < uv
    let inside (uv : Nat) : Prop := ¬low uv ∧ ¬high uv
    let alarms : Prop := (high r.uv ∧ ¬high (s.volts n)) ∨ (low r.uv ∧ inside (s.volts n) ∧ s.pow.porstHigh = true)
    (¬inside r.uv → r.ns < 200 → Does (.supplyAlarm t n r) s (fun u => u = s)) ∧
    (200 ≤ r.ns → alarms → Does (.supplyAlarm t n r) s (fun u => erased s u (max s.now t) 2 n true [.pow] ∧ n ∈ u.cip.supplies ∧
      u.volts n = r.uv ∧ (n = 2 → u.alarmPinLow = false))) ∧
    (200 ≤ r.ns → ¬inside r.uv → ¬alarms → Does (.supplyAlarm t n r) s (fun u => u.volts n = r.uv ∧
      (n = 2 → u.alarmPinLow = false) ∧ Only [.pow] s u)) ∧
    (inside r.uv → Does (.supplyAlarm t n r) s (fun u => u.volts n = r.uv ∧ u.supplyOut n = false ∧
      u.cip = { s.cip with supplies := s.cip.supplies.filter (fun x => decide (x ≠ n)), present := u.cip.present } ∧
      (u.cip.supplies = [] → 2 ∉ u.cip.present) ∧ (u.cip.supplies ≠ [] → u.cip.present = s.cip.present) ∧
      (∀ x, x ≠ 2 → (x ∈ u.cip.present ↔ x ∈ s.cip.present)) ∧ Only [.cip, .pow] s u))) ∧
  (∀ (t n : Nat) (r : SupplyReading) (s : State), 5 ≤ n → Does (.supplyAlarm t n r) s (fun u => u = s)) ∧
  (∀ (t : Nat) (s : State), s.pow.on = true →
    (s.cip.clearDue = true → Does (.alarmWrappedKeyClear t) s (fun u =>
      u.cip = { s.cip with dram := [], clearDue := false } ∧ u.lin = { s.lin with keys := [], noRes := [] } ∧
      Only [.cip, .lin] s u)) ∧
    (s.cip.clearDue = false → Does (.alarmWrappedKeyClear t) s (Only [] s))) ∧
  ∀ (t source : Nat) (s : State), Does (.alarmCauseRemoved t source) s (fun u =>
    u.cip = { s.cip with present := s.cip.present.filter (fun x => decide (x ≠ source)),
                         supplies := if source = 2 then [] else s.cip.supplies } ∧
    (∀ n, n < 5 → (source = 2 ∧ n ∈ s.cip.supplies → u.volts n = [750000, 1200000, 1800000, 3300000, 1100000].getD n 0) ∧
      (source ≠ 2 ∨ n ∉ s.cip.supplies → u.volts n = s.volts n)) ∧
    u.pow = { s.pow with volts := u.pow.volts } ∧ Only [.cip, .pow] s u)

/-- Cipher jobs (14 R320 to R326): they queue or wait for a place, start by queue and age, and write what the spec says of their
output; a received frame's record is delivered at the end of its decryption, as untrusted where that has failed. A key's first use puts
it in the cache (R306). With NONCE_HW the IV of the descriptor is ignored (R325); what stands for it in the modes that get no nonce is
free (log entry 239). -/
def Obligations.CipherJobsQueueRunAndWrite : Prop :=
  let quiet (s : State) : Prop := s.flag F.cipHrCtlEn = false ∨ s.cip.ringTaken = s.reg F.cipHrTailTail
  ((∀ (t : Nat) (d : List Byte) (s : State), s.pow.on = true → s.cip.place (jQueue d) false = true →
     let bad := s.jobBad d false false
     (bit (jFlags d) 1 = false ∨ bad ≠ 0 → Does (.cipherJobSubmit t d) s (fun u => ∃ j : Job,
       u.cip = { s.cip.used j.key with jobs := s.cip.jobs ++ [j], nextJob := s.cip.nextJob + 1 } ∧ Only [.cip] s u ∧
       (bit (jFlags d) 1 = false → j.iv = cut d 32 16 ∧ (jMode d = 2 ∨ jMode d = 3 → j.nonce = cut d 32 13)) ∧
       j.id = s.cip.nextJob ∧ j.desc = d ∧ j.ring = none ∧ j.own = none ∧ j.use = .memory ∧ j.time = max s.now t ∧ j.bad = bad ∧ j.stage = .queued ∧
       (bad = 0 → j.key = s.jobKey d false) ∧ (bad ≠ 0 → j.key = none))) ∧
     (∀ k, bit (jFlags d) 1 = true → bad = 0 → s.jobKey d false = some k → s.counter (slotOf k.handle) < s.bound (slotOf k.handle) →
       s.counter (slotOf k.handle) ≤ 0xFFFFFFFE →
       Does (.cipherJobSubmit t d) s (fun u => ∃ j : Job, u.cip.jobs = s.cip.jobs ++ [j] ∧ j.key = some k ∧ j.stage = .queued ∧
         j.bad = 0 ∧ j.nonce = frameNonce s.extAddr (s.counter (slotOf k.handle)) (octet d 48) ∧
         u.counter (slotOf k.handle) = s.counter (slotOf k.handle) + 1 ∧ Only [.cip, .lin] s u)) ∧
     (∀ k, bit (jFlags d) 1 = true → bad = 0 → s.jobKey d false = some k → s.bound (slotOf k.handle) ≤ s.counter (slotOf k.handle) →
       s.counter (slotOf k.handle) ≤ 0xFFFFFFFE → s.nonceDue (slotOf k.handle) = false →
       Does (.cipherJobSubmit t d) s (fun u => ∃ j : Job, u.cip.jobs = s.cip.jobs ++ [j] ∧ j.stage = .reserve ∧
         u.lin.writes = s.lin.writes ++
           [{ what := .nonce (slotOf k.handle) (blockAfter (s.counter (slotOf k.handle))), ref := none }] ∧
         u.cip.ctr = s.cip.ctr ∧ Only [.cip, .lin] s u))) ∧
   (∀ (t : Nat) (d : List Byte) (s : State), s.pow.on = true → s.cip.place (jQueue d) false = false →
     Does (.cipherJobSubmit t d) s (fun u => Only [.cip] s u ∧
       u.cip = { s.cip with waits := s.cip.waits ++ [{ desc := d, own := none, use := .memory }] })) ∧
   ∀ (t n : Nat) (s : State), s.pow.on = true → s.cip.freeCore = some n →
     ((∀ j ∈ s.cip.jobs, j.stage ≠ .queued) → Does (.cipherJobStart t) s (Only [] s)) ∧
     (∀ k ∈ s.cip.jobs, k.stage = .queued → Does (.cipherJobStart t) s (fun u => ∃ j ∈ s.cip.jobs, j.stage = .queued ∧
       (∀ i ∈ s.cip.jobs, i.stage = .queued → (s.tick t).jobRank j ≤ (s.tick t).jobRank i) ∧
       u.cip = { s.cip with jobs := s.cip.jobs.map fun x => if x.id = j.id then { x with stage := .running n } else x } ∧
       Only [.cip] s u))) ∧
  ((∀ (t core : Nat) (j : Job) (k : KeyRec) (s : State), s.pow.on = true →
     s.cip.jobs.find? (fun j => decide (j.stage = .running core)) = some j → j.ring = none → j.own = none → j.use = .memory →
     j.key = some k → j.bad = 0 → s.mem.rot = [] → s.mem.poison = [] → s.cip.waits = [] → quiet s →
     let r := jobOutput j k (s.mem.reads (jSrc j.desc) (jobReads j.desc))
     Does (.cipherJobComplete t core) s (fun u =>
       u.mem.reads (jDst j.desc) r.1.length = r.1 ∧
       (∀ a, a < jDst j.desc ∨ jDst j.desc + r.1.length ≤ a → u.mem.read a = s.mem.read a) ∧
       u.cip.jobs = s.cip.jobs.filter (fun x => decide (x.id ≠ j.id)) ∧ octet u.cip.lastDone 0 = (if r.2 then 0 else 1) ∧
       u.cip = { s.cip with jobs := u.cip.jobs, lastDone := u.cip.lastDone } ∧
       u.reg F.cipCntJobs = min (s.reg F.cipCntJobs + 1) 0xFFFFFFFF ∧ Only [.cip, .mem, .regs] s u)) ∧
   (∀ (t core : Nat) (j : Job) (s : State), s.pow.on = true →
     s.cip.jobs.find? (fun j => decide (j.stage = .running core)) = some j → j.ring = none → j.use = .memory → j.key = none → j.bad < 8 → j.bad ≠ 1 →
     quiet s →
     (s.cip.waits = [] → Does (.cipherJobComplete t core) s (fun u =>
       u.cip.jobs = s.cip.jobs.filter (fun x => decide (x.id ≠ j.id)) ∧ octet u.cip.lastDone 0 = j.bad ∧
       Only [.cip, .regs] s u)) ∧
     (∀ w, s.cip.waits = [w] → ({ s.cip with jobs := s.cip.jobs.filter (fun x => decide (x.id ≠ j.id)) } : Cip).place (jQueue w.desc) false = true →
       Does (.cipherJobComplete t core) s (fun u => u.cip.waits = [] ∧ ∃ i, i.desc = w.desc ∧ i.use = w.use ∧ i.own = w.own ∧
         u.cip.jobs = s.cip.jobs.filter (fun x => decide (x.id ≠ j.id)) ++ [i] ∧ Only [.cip, .regs, .lin] s u))) ∧
   (∀ (t core skip : Nat) (j : Job) (k : KeyRec) (l : List Byte) (r : RecvRec) (s : State), s.pow.on = true →
     s.cip.jobs.find? (fun j => decide (j.stage = .running core)) = some j → j.ring = none → j.own = some l →
     j.use = .record skip r → j.key = some k → s.cip.waits = [] → quiet s → (j.bad = 0 ∨ 2 < j.bad) →
     let o := if j.bad = 0 then jobOutput j k l else ([], false)
     Does (.cipherJobComplete t core) s (fun u => ∃ v, Only [.cip, .regs] s v ∧ v.now = max s.now t ∧
       v.cip.jobs = s.cip.jobs.filter (fun x => decide (x.id ≠ j.id)) ∧
       Only [] (v.deliverRec r (!o.2) (j.opened skip o.1)) u)) ∧
   ∀ (t core : Nat) (s : State), s.pow.on = true → (∀ j ∈ s.cip.jobs, j.stage ≠ .running core) →
     Does (.cipherJobComplete t core) s (Only [] s))

/-- The host ring (14 R328, R329): a TAIL that would leave more than SIZE - 1 jobs is refused; a job read from a ring that does not lie
whole in memory MEM may use ends with BAD_ADDRESS (log entry 240 says of which ring, the model's choice). The check units (14 R331, R332):
that with none in service a job waits is the model's choice (log entry 216). -/
def Obligations.HostRingAndCheckUnitsRun : Prop :=
  (∀ (t : Nat) (s : State), s.pow.on = true →
    (s.flag F.cipHrCtlEn = false → Does (.hostRingEnable t) s (fun u => u.flag F.cipHrCtlEn = true ∧
      u.reg F.cipHrTailTail = s.reg F.cipHrHeadHead ∧ u.cip = { s.cip with ringTaken := s.reg F.cipHrHeadHead } ∧
      Only [.cip, .regs] s u)) ∧
    (s.flag F.cipHrCtlEn = true → Does (.hostRingEnable t) s (Only [] s)) ∧
    Does (.hostRingDisable t) s (fun u => u.flag F.cipHrCtlEn = false ∧ u.reg F.cipHrTailTail = s.reg F.cipHrTailTail ∧
      Only [.regs] s u)) ∧
  (∀ (t tail : Nat) (s : State), s.pow.on = true →
    let fits (tail : Nat) : Prop :=
      s.ringGap (s.reg F.cipHrHeadHead) (s.reg F.cipHrTailTail) + s.ringGap (s.reg F.cipHrTailTail) tail < s.ringSize
    (s.ringSize ≤ tail → Does (.hostRingDoorbell t tail) s (Only [] s)) ∧
    (s.ringSize ≤ s.ringGap (s.reg F.cipHrHeadHead) (s.reg F.cipHrTailTail) + s.ringGap (s.reg F.cipHrTailTail) tail →
      Does (.hostRingDoorbell t tail) s (Only [] s)) ∧
    (tail = s.reg F.cipHrTailTail → Does (.hostRingDoorbell t tail) s (Only [] s)) ∧
    (tail < s.ringSize → fits tail → s.flag F.cipHrCtlEn = false →
      Does (.hostRingDoorbell t tail) s (fun u => u.reg F.cipHrTailTail = tail ∧ Only [.regs] s u)) ∧
    (tail < s.ringSize → fits tail → tail ≠ s.reg F.cipHrTailTail → s.flag F.cipHrCtlEn = true → s.cip.ringTaken ≠ tail →
      (s.cip.ringTaken + 1) % s.ringSize = tail → s.cip.place 3 true = true →
      Does (.hostRingDoorbell t tail) s (fun u => u.reg F.cipHrTailTail = tail ∧ u.cip.ringTaken = tail ∧
        ∃ l j, u.cip.jobs = l ++ [j] ∧ l.length = s.cip.jobs.length ∧ j.ring = some s.cip.ringTaken ∧
          (s.ringsOk = false → s.mem.rot = [] → s.mem.poison = [] → j.bad = 5 ∧ j.key = none)))) ∧
  ∀ (t poly : Nat) (fold data : List Byte) (want : Option Nat) (s : State), s.pow.on = true →
    (s.cip.unitsOut.length < 8 → poly ≤ 4 → fold.length ≤ 16 → Does (.checkJob t poly fold data want) s (fun u =>
      u.cip = { s.cip with lastCrc := crc poly fold data } ∧ u.reg F.chkCntJobs = min (s.reg F.chkCntJobs + 1) 0xFFFFFFFF ∧
      u.reg F.chkCntMismatch = (if want = none ∨ want = some (crc poly fold data) then s.reg F.chkCntMismatch
        else min (s.reg F.chkCntMismatch + 1) 0xFFFFFFFF) ∧ Only [.cip, .regs] s u)) ∧
    (8 ≤ s.cip.unitsOut.length → poly ≤ 4 → fold.length ≤ 16 → Does (.checkJob t poly fold data want) s (fun u =>
      u.cip = { s.cip with checks := s.cip.checks ++ [{ poly := poly, fold := fold, data := data, want := want }] } ∧
      Only [.cip] s u)) ∧
    (4 < poly ∨ 16 < fold.length → Does (.checkJob t poly fold data want) s (Only [] s))

/-! ## Fault masking (13) -/

/-- CHECKPOINT and CHECKPOINT_COMPLETE (13 R285, R287): engine n starts one 15.625 us times n into each millisecond, of its contexts, their
effect numbers and what each holds, over the older of its two; once written it is the valid one, and the one before is kept. -/
def Obligations.EnginesKeepTwoCheckpoints : Prop :=
  ∀ (t n : Nat) (s : State), s.pow.on = true → n < 64 → (s.eng n).st = .active →
    (max s.now t % ms = 15625 * n → Does (.checkpoint t n) s (fun u =>
      let c : Ckpt := { time := max s.now t, fx := (s.eng n).ctxs.map fun c => (c, s.fau.numberOf (s.eng n) c)
                        data := (s.eng n).ctxs.map fun c => (c, s.ctxData c) }
      u.fau = { s.fau with engines := tset s.fau.engines n { s.eng n with ckptOld := none, ckptNew := some c } } ∧
      Only [.fau] s u)) ∧
    (max s.now t % ms ≠ 15625 * n → Does (.checkpoint t n) s (Only [] s)) ∧
    (∀ c, (s.eng n).ckptNew = some c → Does (.checkpointComplete t n) s (fun u =>
      let e := { s.eng n with ckpt := c, ckptOld := some (s.eng n).ckpt, ckptNew := none }
      u.fau = { s.fau with engines := tset s.fau.engines n e } ∧ Only [.fau] s u)) ∧
    ((s.eng n).ckptNew = none → Does (.checkpointComplete t n) s (Only [] s))

/-- An engine's fault (13 R286 to R288, R290, R297): the ready spare with the lowest number takes its contexts, which are again as the
checkpoint has them, and the inputs held since, and the engine begins its self-test; without a spare the fault is not masked, and of an
engine that was itself being patched in it is that patch's fault which is not; a faulty spare is tested and logged. Which engine and
DETECT are reported when an engine faults during its own patch, that its drain moves with it, and the stamps are the model's choices
(log entry 166). -/
def Obligations.EngineFaultsArePatchedOrReported : Prop :=
  ∀ (t n detect fault : Nat) (inject : Bool) (s : State), s.pow.on = true → n < 64 →
    (if inject then detect = 1 ∧ fault = max s.now t
      else (detect = 1 ∨ detect = 2 ∨ detect = 4) ∧ fault ≤ max s.now t ∧ max s.now t ≤ fault + 2 * us) →
    let c : Instr := if inject then .injectEngineFault t n else .engineFault t n detect fault false
    let e := s.eng n
    let tested (u : State) (by_ : Nat) : Prop :=
      (u.eng n).st = .selfTest ∧ (u.eng n).faults = e.faults + 1 ∧ (u.eng n).replacedBy = by_ ∧ (u.eng n).ctxs = [] ∧
        (u.eng n).testAt = max s.now t
    (∀ j l, e.st = .active → s.spares = j :: l → j ≠ n → e.patch = none →
      (e.ctxs = [] ∨ max s.now t ≤ e.ckpt.time + 4 * ms) →
      Does c s (fun u => tested u j ∧ (u.eng j).st = .active ∧ (u.eng j).ctxs = e.ctxs ∧ (u.eng j).ckpt = e.ckpt ∧
        (u.eng j).fx = e.ckpt.fx ∧ (u.eng j).inputs = e.inputs ∧ (u.eng j).drain = e.drain ∧
        (u.eng j).patch = some { failed := n, detect := detect, detected := max s.now t, fault := fault, ckpt := e.ckpt.time } ∧
        (∀ k, k ≠ n → k ≠ j → u.eng k = s.eng k) ∧
        (∀ a m q c, e.ctxs = [.lineRx a m q] → e.ckpt.data = [(.lineRx a m q, .lineRx (some c) none)] → HasSlot s a m →
          Restored u a m q c) ∧ Only [.fau, .plx, .air] s u)) ∧
    (∀ of how, e.st = .active → s.spares = [] → e.ctxs = [] → of = (e.patch.map (·.failed)).getD n →
      how = (e.patch.map (·.detect)).getD detect → how < 256 →
      Does c s (fun u => tested u 255 ∧ (∀ k, k ≠ n → u.eng k = s.eng k) ∧
      (LogRoom s → Logged u 0x01 0x04 of 1 how 255) ∧
      u.reg F.fauCntUnmasked = min (s.reg F.fauCntUnmasked + 1) 0xFFFFFFFF ∧
      Raised s u (max s.now t) 0x207 0x04 of (be 1 1 ++ be 1 how ++ be 2 0) ∧ Only [.fau, .regs, .stw, .eth] s u)) ∧
    (e.st = .spare → Does c s (fun u => tested u 255 ∧ (∀ k, k ≠ n → u.eng k = s.eng k) ∧
      (LogRoom s → Logged u 0x01 0x04 n 0 detect 255) ∧ Only [.fau, .regs] s u)) ∧
    (e.st = .selfTest ∨ e.st = .retired → Does c s (Only [] s))

/-- PATCH_CAUGHT_UP, CONTEXT_END, SPARES_TARGET_WRITE, ENGINE_SELF_TEST_DONE (13 R286 to R288, R290, R291): a spare that has caught up
has replayed the inputs held since the checkpoint; an effect at or below the number last accepted is discarded, and its context comes to
where it was after it; a later one is accepted; an input that came in while the spare caught up is taken now. The stamps of the patch's
log entry and event, and OUTCOME 0 of a retirement, are the model's choices (log entry 166), and so is it that FAU_SPARES reads back the
value written, modulo 16, while at most 8 is in use (log entry 4). -/
def Obligations.EnginesReturnToTheirPool : Prop :=
  (∀ (t n load : Nat) (p : Patch) (s : State), s.pow.on = true → n < 64 → (s.eng n).st = .active → (s.eng n).patch = some p →
    p.fault ≤ load → load ≤ max s.now t →
    (∀ h ∈ (s.eng n).inputs, h.time < p.ckpt ∨ ∃ k, h.num = some k ∧ k ≤ s.fau.taken h.ctx) → Does (.patchCaughtUp t n load) s (fun u =>
      u.eng n = { s.eng n with patch := none, fx := (u.eng n).fx, inputs := (s.eng n).inputs.filter fun h => h.num.isSome } ∧
      (∀ k, k ≠ n → u.eng k = s.eng k) ∧ u.fau.accepted = s.fau.accepted ∧
      (∀ h a m q c, (s.eng n).inputs = [h] → p.ckpt ≤ h.time → h.after = [(.lineRx a m q, .lineRx (some c) none)] →
        .lineRx a m q ∈ (s.eng n).ctxs → HasSlot s a m → Restored u a m q c) ∧
      (LogRoom s → p.detect < 256 → Logged u 0x01 0x04 p.failed 0 p.detect n) ∧
      u.reg F.fauCntPatch = min (s.reg F.fauCntPatch + 1) 0xFFFFFFFF ∧
      Raised s u p.detected 0x201 0x04 p.failed
        (be 1 0 ++ be 1 n ++ be 2 (s.eng n).load ++ be 4 (max s.now t - p.fault)) ∧
      Only [.fau, .regs, .stw, .eth, .plx, .air] s u)) ∧
  (∀ (t n load : Nat) (p : Patch) (h : HeldInput) (s : State), s.pow.on = true → n < 64 → (s.eng n).st = .active →
    (s.eng n).patch = some p → p.fault ≤ load → load ≤ max s.now t → (s.eng n).inputs = [h] → p.ckpt ≤ h.time →
    (∀ k, h.num = some k → s.fau.taken h.ctx < k → Does (.patchCaughtUp t n load) s (fun u => ∃ v, Only [.fau, .regs, .stw, .eth] s v ∧
      v.now = max s.now t ∧ (v.eng n).patch = none ∧ numOf (v.eng n).fx h.ctx = some k ∧ v.fau.taken h.ctx = k ∧
      Only [] (h.input.run v) u)) ∧
    (h.num = none → Does (.patchCaughtUp t n load) s (fun u => ∃ v, Only [.fau, .regs, .stw, .eth] s v ∧
      v.now = max s.now t ∧ v.eng n = { s.eng n with patch := none, inputs := [] } ∧ v.fau.accepted = s.fau.accepted ∧
      Only [] (v.input h.ctx h.input h.input.run) u))) ∧
  (∀ (t kind port slot place : Nat) (s : State), s.pow.on = true →
    (s.ctxBusy (ctxOf kind port slot place) = false → Does (.contextEnd t kind port slot place) s (fun u =>
      (∀ e ∈ u.fau.engines, ctxOf kind port slot place ∉ e.2.ctxs) ∧
      (∀ n e, tget? s.fau.engines n = some e → e.ctxs = [ctxOf kind port slot place] → e.drain = true → e.st = .active →
        (u.eng n).st = .spare) ∧ Only [.fau] s u)) ∧
    (s.ctxBusy (ctxOf kind port slot place) = true → Does (.contextEnd t kind port slot place) s (Only [] s))) ∧
  (∀ (t n : Nat) (s : State), s.pow.on = true → ascending s.fau.engines = true →
    8 ≤ (s.actives.filter fun k => !(s.eng k).drain).length → Does (.sparesTargetWrite t n) s (fun u =>
      u.reg F.fauSparesSpares = n % 16 ∧ u.spares.length + u.draining.length = min 8 (n % 16) ∧
      Only [.fau, .regs, .lin] s u)) ∧
  (∀ (t n : Nat) (failed : List Nat) (s : State), s.pow.on = true → s.fau.testing = false → n < 64 →
    (s.eng n).st = .selfTest → (s.eng n).testAt + 100 * ms ≤ max s.now t → Does (.engineSelfTestDone t n failed) s (fun u =>
      u.eng n = { s.eng n with st := if failed.contains n then .retired else .spare } ∧
      (∀ k, k ≠ n → u.eng k = s.eng k) ∧ (failed.contains n = true → LogRoom s → Logged u 0x02 0x04 n 0 8 255) ∧
      Only [.fau, .regs] s u)) ∧
  ∀ (t n : Nat) (failed : List Nat) (s : State), s.pow.on = true → s.fau.testing = true →
    Does (.engineSelfTestDone t n failed) s (fun u => u.fau.testing = false ∧
      (∀ k, k < 64 → k ∈ failed → (u.eng k).st = .retired) ∧
      (∀ k, k < 64 → k ∉ failed → (u.eng k).st = .active ∨ (u.eng k).st = .spare) ∧
      (failed = [] → u.spares.length = s.spareTarget))

/-- The steward pairs (13 R283, R293, R294, R297): a fault of the active pair makes the standby active, which sends the final responses
that were recorded while no pair ran, or waits for a pair; one of the standby tests it; a self-test returns a pair or retires it. That
the last pair's fault is logged with KIND 0x10 and OUTCOME 1, and that its UNMASKED_FAULT waits for a pair, are the model's choices
(log entry 167). -/
def Obligations.PairsSwitchAndReturn : Prop :=
  (∀ (t n m detect interrupt : Nat) (inject : Bool) (s : State), s.pow.on = true → n ≠ m →
    (s.fau.pairs = [(n, .active), (m, .standby)] ∨ s.fau.pairs = [(m, .standby), (n, .active)]) →
    (if inject then detect = 5 else detect = 1 ∨ detect = 2 ∨ detect = 4 ∨ detect = 5) →
    let a : Instr := if inject then .injectPairFault t n else .pairFault t detect interrupt
    let b : Instr := if inject then .injectPairFault t m else .standbyFault t detect
    Does a s (fun u => tget? u.fau.pairs n = some .selfTest ∧ tget? u.fau.pairs m = some .active ∧ u.fau.actPair = m ∧
      (m < 256 → LogRoom s → Logged u 0x10 0x00 n 0 detect m) ∧
      u.reg F.fauCntSwitch = min (s.reg F.fauCntSwitch + 1) 0xFFFFFFFF ∧
      (s.fwRuns = true → u.fwRuns = true) ∧
      ((∀ f ∈ s.stw.flights, ∀ st op, f.stage ≠ .answered st op) → u.stw.flights = s.stw.flights) ∧
      (∀ f ∈ s.stw.flights, ∀ st op x, f.stage = .answered st op → 0x300 ≤ f.opcode → s.sessOf f.slot f.gen = some x →
        16 + op.length ≤ x.maxmsg → Queued 2
          { kind := .response, dst := f.src, body := message 1 2 f.mb f.tag f.opcode f.seq f.slot f.gen st op } u) ∧ Only [.fau, .regs, .stw, .eth] s u) ∧
    Does b s (fun u => tget? u.fau.pairs m = some .selfTest ∧ tget? u.fau.pairs n = some .active ∧ u.fau.actPair = s.fau.actPair ∧
      (LogRoom s → Logged u 0x12 0x00 m 0 detect 255) ∧ Only [.fau, .regs] s u)) ∧
  (∀ (t n detect interrupt : Nat) (s : State), s.pow.on = true → s.fau.pairs = [(n, .active)] →
    (detect = 1 ∨ detect = 2 ∨ detect = 4 ∨ detect = 5) → Does (.pairFault t detect interrupt) s (fun u => u.pairActive = false ∧
      u.fau.unmaskedPair = some (n, detect, s.logIndex) ∧ (LogRoom s → Logged u 0x10 0x00 n 1 detect 255) ∧
      Only [.fau, .regs] s u)) ∧
  ∀ (t pair : Nat) (pass : Bool) (s : State), s.pow.on = true → tget? s.fau.pairs pair = some .selfTest →
    (tget 0 s.fau.pairTest pair + sec ≤ max s.now t → Does (.pairSelfTestDone t pair pass) s (fun u =>
      tget? u.fau.pairs pair =
        some (if !pass then PairState.retired else if s.pairActive then .standby else .active) ∧
      (∀ k, k ≠ pair → tget? u.fau.pairs k = tget? s.fau.pairs k) ∧
      (pass = true → s.pairActive = false → u.fau.actPair = pair ∧ u.fau.unmaskedPair = none) ∧
      (pass = false → LogRoom s → Logged u 0x11 0x00 pair 0 8 255) ∧ Only [.fau, .regs, .stw, .eth] s u)) ∧
    (max s.now t < tget 0 s.fau.pairTest pair + sec → Does (.pairSelfTestDone t pair pass) s (Only [] s))

/-- UNIT_FAULT, VOTE, MEMORY_PATROL and FAULT_LOG_WRITE (13 R292, R296, R298; 01 R17). -/
def Obligations.UnitsVotesMemoryAndLog : Prop :=
  (∀ (t unit detect jobs interrupt : Nat) (s : State), s.pow.on = true → (detect = 1 ∨ detect = 2) →
    (unit < 16 → unit ∉ s.cip.coresOut → Does (.unitFault t false unit detect jobs interrupt) s (fun u =>
      u.cip.coresOut = unit :: s.cip.coresOut ∧ (∀ j ∈ u.cip.jobs, j.stage ≠ .running unit) ∧
      u.cip.jobs.map (fun j => (j.id, j.nonce)) = s.cip.jobs.map (fun j => (j.id, j.nonce)) ∧
      (LogRoom s → Logged u 0x40 0x40 unit 0 detect 255) ∧
      u.reg F.fauCntPatch = min (s.reg F.fauCntPatch + 1) 0xFFFFFFFF ∧ Only [.cip, .fau, .regs, .stw, .eth] s u)) ∧
    (unit < 8 → unit ∉ s.cip.unitsOut → Does (.unitFault t true unit detect jobs interrupt) s (fun u =>
      u.cip = { s.cip with unitsOut := unit :: s.cip.unitsOut } ∧ (LogRoom s → Logged u 0x40 0x41 unit 0 detect 255) ∧
      Only [.cip, .fau, .regs, .stw, .eth] s u))) ∧
  (∀ (t block inst : Nat) (ecc : Bool) (s : State), s.pow.on = true → Does (.vote t block inst ecc) s (fun u =>
    (LogRoom s → Logged u 0x50 block inst 0 (if ecc then 3 else 7) 255) ∧
    (¬LogRoom s → u.fau = s.fau ∧ u.reg F.fauCntLoglost = min (s.reg F.fauCntLoglost + 1) 0xFFFFFFFF) ∧
    Only [.fau, .regs] s u)) ∧
  (∀ (t lo n : Nat) (fixed bad : List Nat) (s : State), s.pow.on = true → Does (.memoryPatrol t lo n fixed bad) s (fun u =>
    (∀ a ∈ bad, inMemory a = true → codeword a ∈ u.mem.poison ∨ codeword a ∈ u.mem.rot) ∧
    (∀ c ∈ u.mem.rot, touches lo n c = false) ∧ (∀ c ∈ s.mem.poison, c ∈ u.mem.poison) ∧
    u.mem = { s.mem with poison := u.mem.poison, rot := u.mem.rot } ∧ Only [.mem, .fau, .regs, .stw, .eth] s u)) ∧
  ∀ (t : Nat) (s : State), s.pow.on = true →
    (∀ w l, s.fau.queue = w :: l → s.pairActive = true → Does (.faultLogWrite t) s (fun u => u.fau.queue = l ∧
      u.lin.logNext = s.lin.logNext + 1 ∧ tget? u.lin.log s.lin.logNext = some (w.body ++ be 4 s.lin.logNext) ∧
      (∀ k, k ≠ s.lin.logNext → tget? u.lin.log k = if k + 32768 = s.lin.logNext then none else tget? s.lin.log k) ∧
      (∀ n, w.engine = some n → u.eng n = { s.eng n with lastIndex := s.lin.logNext }) ∧ Only [.lin, .fau] s u ∧
      u.lin = { s.lin with log := u.lin.log, logNext := u.lin.logNext })) ∧
    (s.fau.queue = [] ∨ s.pairActive = false → Does (.faultLogWrite t) s (Only [] s))

/-! ## Ethernet ports (18) -/

/-- Ports come up and go down (18 R405 to R408; 13 R295, R297): a link comes up once its conditions can have held for 10 ms, hi_ser
takes down only a port whose RS-FEC is on, and the traffic of a port that fails moves to the other. A port enabled begins bring-up under
the settings in effect; those that a write has changed take effect once its OK has left (R408). -/
def Obligations.EthernetPortsComeAndGo : Prop :=
  ∀ (t p : Nat) (s : State), s.pow.on = true → p < 2 →
    let took (u : State) : Prop := (u.ep p).type = s.reg F.ethEpCtlType p ∧ (u.ep p).an = s.reg F.ethEpCtlAn p ∧
      (u.ep p).fec = s.reg F.ethEpCtlFec p
    let moved (u : State) : Prop := ∀ k x, tget? s.stw.sess k = some x → x.port = p → ∃ y, tget? u.stw.sess k = some y ∧ y.port = 1 - p
    (s.flag F.ethEpCtlEn p = false → Does (.ethPortEnable t p) s (fun u => u.flag F.ethEpCtlEn p = true ∧
      u.ep p = { s.ep p with since := max s.now t } ∧ u.ep (1 - p) = s.ep (1 - p) ∧ Only [.eth, .regs, .lin] s u)) ∧
    (s.flag F.ethEpCtlEn p = true → Does (.ethPortDisable t p) s (fun u => u.flag F.ethEpCtlEn p = false ∧ (u.ep p).up = false ∧
      ((s.ep p).up = true → (u.ep p).reason = 5 ∧ ((s.ep (1 - p)).up = true → moved u)) ∧
      u.fau = s.fau ∧ Only [.eth, .regs, .lin, .stw, .caps] s u)) ∧
    (s.ethChanged p = true → s.responsesGone = true → Does (.ethPortReconfigure t p) s (fun u => took u ∧ (u.ep p).up = false ∧
      u.fau = s.fau ∧ Only [.eth, .regs, .stw, .caps] s u)) ∧
    (s.flag F.ethEpCtlEn p = true → (s.ep p).up = false → (s.ep p).since + 10 * ms ≤ max s.now t →
      Does (.ethLinkUp t p) s (fun u => (u.ep p).up = true ∧
      ((s.ep (1 - p)).up = true → Raised s u (max s.now t) 0x801 0x80 p (be 1 (s.ep p).code ++ be 1 0) ∧
        Only [.eth, .stw] s u))) ∧
    (s.flag F.ethEpCtlEn p = false ∨ max s.now t < (s.ep p).since + 10 * ms → Does (.ethLinkUp t p) s (Only [] s)) ∧
    (∀ detect interrupt, (s.ep p).up = true → (s.ep p).fecOn = false → Does (.ethLinkDown t p 2 detect interrupt) s (Only [] s)) ∧
    (∀ reason detect interrupt, (s.ep p).up = true → (1 ≤ reason ∧ reason ≤ 4 ∨ reason = 6) →
      (reason = 2 → (s.ep p).fecOn = true) →
      let how := if reason = 6 then clamp 1 2 detect else 6
      Does (.ethLinkDown t p reason detect interrupt) s (fun u => (u.ep p).up = false ∧ (u.ep p).reason = reason ∧
        ((s.ep (1 - p)).up = true → moved u ∧ (u.ep p).queues = [] ∧ (LogRoom s → Logged u 0x20 0x80 p 0 how (1 - p)) ∧
          u.reg F.fauCntFailover = min (s.reg F.fauCntFailover + 1) 0xFFFFFFFF) ∧
        ((s.ep (1 - p)).up = false → (LogRoom s → Logged u 0x21 0x80 p 1 how 255) ∧
          u.fau.unmaskedPort = some (p, how, s.logIndex)) ∧
        Only [.eth, .stw, .caps, .fau, .regs] s u)) ∧
    ((s.ep p).up = true → Does (.injectPortFault t p) s (fun u => (u.ep p).up = false ∧ (u.ep p).reason = 6 ∧
      (LogRoom s → (s.ep (1 - p)).up = true → Logged u 0x20 0x80 p 0 1 (1 - p)) ∧
      Only [.eth, .stw, .caps, .fau, .regs] s u))

/-- Priority flow control (18 R416): a received pause holds its priorities for its quanta; a full receive buffer sends pauses,
refreshed every 2,600 ns until it has drained. That a quantum is 512 bit times at 100 Gbit/s, and the octets of a pause frame, are the
model's choice (log entry 95, PRESUMED): R416 prints neither. -/
def Obligations.PausesHoldAndRelease : Prop :=
  ∀ (t p prio : Nat) (s : State), s.pow.on = true → p < 2 →
    let now := max s.now t
    let rest (u : State) : Prop := Only [.eth] s u ∧ u.ep (1 - p) = s.ep (1 - p)
    (∀ quanta, (s.ep p).up = true → prio < 8 → (s.reg F.ethPfcRxEn).testBit prio = true → quanta < 65536 →
      Does (.pfcPauseRx t p [(prio, quanta)]) s (fun u => rest u ∧
        u.ep p = { s.ep p with paused := (u.ep p).paused } ∧ (∀ k, k ≠ prio → tget? (u.ep p).paused k = tget? (s.ep p).paused k) ∧
        tget? (u.ep p).paused prio = if quanta = 0 then none else some (now + cdiv (quanta * 512) 100))) ∧
    (∀ quanta, (s.reg F.ethPfcRxEn).testBit prio = false → Does (.pfcPauseRx t p [(prio, quanta)]) s (fun u => rest u ∧ u.ep p = s.ep p)) ∧
    (∀ z, tget? (s.ep p).paused prio = some z →
      (z ≤ now → Does (.pfcPauseExpiry t p prio) s (fun u => rest u ∧
        u.ep p = { s.ep p with paused := tdel (s.ep p).paused prio })) ∧
      (now < z → Does (.pfcPauseExpiry t p prio) s (Only [] s))) ∧
    (∀ level, (s.ep p).up = true → prio < 8 → (s.reg F.ethPfcTxEn).testBit prio = true →
      let sent (u : State) (quanta : Nat) : Prop := rest u ∧ (∀ q, q ≠ 5 → tget [] (u.ep p).queues q = tget [] (s.ep p).queues q) ∧
        ∃ f, tget [] (u.ep p).queues 5 = tget [] (s.ep p).queues 5 ++ [f] ∧ f.kind = .pause ∧ f.body = pauseBody prio quanta
      (tget? (s.ep p).pausing prio = none → 1048576 < level → Does (.pfcPauseRefresh t p prio level) s (fun u => sent u 0xFFFF ∧
        tget? (u.ep p).pausing prio = some now)) ∧
      (tget? (s.ep p).pausing prio = none → level ≤ 1048576 → Does (.pfcPauseRefresh t p prio level) s (Only [] s)) ∧
      (∀ last, tget? (s.ep p).pausing prio = some last →
        (level ≤ 524288 → Does (.pfcPauseRefresh t p prio level) s (fun u => sent u 0 ∧ tget? (u.ep p).pausing prio = none)) ∧
        (524288 < level → last + 2600 ≤ now → Does (.pfcPauseRefresh t p prio level) s (fun u => sent u 0xFFFF ∧
          tget? (u.ep p).pausing prio = some now)) ∧
        (524288 < level → now < last + 2600 → Does (.pfcPauseRefresh t p prio level) s (Only [] s))))

/-! ## Mains and pleats (05) -/

/-- The tracker (05 R100 to R108, R110, R114): an enabled phase takes crossings as its state says; a LOCKED one takes those within the
jump limit, rejects an outlier, takes a confirmed jump, and is lost after eight rejected or missing in a row or two cycles of low
amplitude; stopping the tracker frees the phases and leaves the pleat timers running; each loss raises MAINS_LOST with its data. That an
outlier after a missing crossing is kept as the first of two is the model's choice (log entry 249). -/
def Obligations.MainsTrackerFollowsCrossings : Prop :=
  (∀ (t : Nat) (s : State), s.pow.on = true →
    (s.flag F.mnsCtlEn = false → Does (.mnsEnable t) s (fun u => u.flag F.mnsCtlEn = true ∧
      (∀ x, x < 3 → u.phase x = { s.phase x with run := [], high := 0, low := 0 }) ∧ u.mns.timers = s.mns.timers ∧
      Only [.mns, .regs, .lin] s u)) ∧
    (s.flag F.mnsCtlEn = true → Does (.mnsDisable t) s (fun u => u.flag F.mnsCtlEn = false ∧
      (∀ x, x < 3 → (u.phase x).state = if (s.phase x).state = 1 ∨ (s.phase x).state = 2 then 3 else (s.phase x).state) ∧
      (∀ x, x < 3 → (s.phase x).state = 1 ∨ (s.phase x).state = 2 →
        Reported s u 2 (max s.now t) 0x402 0x64 x (be 4 (s.phase x).period ++ be 1 3 ++ be 1 0xFF)) ∧
      (∀ n, (u.timer n).next = (s.timer n).next ∧ (u.timer n).anchor = (s.timer n).anchor) ∧
      Only [.mns, .regs, .lin, .stw, .eth] s u)) ∧
    (s.flag F.mnsCtlEn = true → Does (.mnsEnable t) s (Only [] s)) ∧
    (s.flag F.mnsCtlEn = false → Does (.mnsDisable t) s (Only [] s))) ∧
  (∀ (t port src : Nat) (s : State), s.pow.on = true → port < 24 → src < 4 → src ≠ s.reg F.mnsPortCfgSrc port →
    (∀ p, tget? s.plx.ports port = some p → p.service = false) → Does (.mnsSrcChange t port src) s (fun u =>
      u.reg F.mnsPortCfgSrc port = src ∧ (u.timer port).irregular = true ∧
      (u.timer port).noA = decide (src ≠ 3) ∧ (src = 3 → (u.timer port).next = max s.now t + s.nominal) ∧ (u.timer port).anchor = (s.timer port).anchor ∧
      (∀ k, k ≠ port → u.timer k = s.timer k) ∧ u.mns.phases = s.mns.phases ∧ Only [.mns, .regs, .plx, .lin] s u)) ∧
  (∀ (t port src : Nat) (p : LinePort) (s : State), s.pow.on = true → tget? s.plx.ports port = some p → p.service = true →
    Does (.mnsSrcChange t port src) s (Only [] s)) ∧
  ∀ (t x ampl : Nat) (s : State), s.pow.on = true →
    let p := s.phase x
    let lost (u : State) : Prop :=
      (∀ y, s.lockedRef x = some y → (u.phase x).state = 2 ∧ (u.phase x).ref = y ∧
        Raised s u (max s.now t) 0x402 0x64 x (be 4 (s.phase y).period ++ be 1 2 ++ be 1 y)) ∧
      (s.lockedRef x = none → (u.phase x).state = 3 ∧
        Raised s u (max s.now t) 0x402 0x64 x (be 4 p.period ++ be 1 3 ++ be 1 0xFF)) ∧
      Only [.mns, .plx, .regs, .stw, .eth] s u
    (3 ≤ x ∨ s.flag F.mnsCtlEn = false → ∀ seen, Does (.mainsCrossing t x seen ampl) s (Only [] s)) ∧
    (x < 3 → s.flag F.mnsCtlEn = true → (s.phase x).state = 1 → s.lockLevel ≤ ampl * 100 →
      (∀ m : Nat, ((m : Int) - ((s.phase x).crossing + (s.phase x).period)).natAbs ≤ s.jumpLimit (s.phase x).period →
        (s.phase x).outside < 3 → Does (.mainsCrossing t x (some m) ampl) s (fun u => (u.phase x).state = 1 ∧
          (u.phase x).crossing = m ∧ (u.phase x).rejected = 0 ∧ Only [.mns, .plx, .regs, .stw, .eth] s u)) ∧
      (∀ m : Nat, let d : Int := (m : Int) - (p.crossing + p.period)
        s.jumpLimit p.period < d.natAbs →
        (p.accepted = true ∨ p.dev = none ∨ (∃ e, p.dev = some e ∧ s.jumpLimit p.period < (d - e).natAbs) →
          (p.rejected < 7 → Does (.mainsCrossing t x (some m) ampl) s (fun u => (u.phase x).state = 1 ∧
            (u.phase x).rejected = p.rejected + 1 ∧ (u.phase x).crossing = p.crossing + p.period ∧ (u.phase x).period = p.period ∧
            (u.phase x).accepted = false ∧ (u.phase x).dev = some d ∧ Only [.mns, .plx, .regs, .stw, .eth] s u)) ∧
          (7 ≤ p.rejected → Does (.mainsCrossing t x (some m) ampl) s lost)) ∧
        (∀ e, p.accepted = false → p.dev = some e → (d - e).natAbs ≤ s.jumpLimit p.period → p.outside < 3 →
          Does (.mainsCrossing t x (some m) ampl) s (fun u => (u.phase x).state = 1 ∧ (u.phase x).crossing = m ∧
            (u.phase x).rejected = 0 ∧ (u.phase x).accepted = true ∧ (u.phase x).period = p.period ∧
            u.reg F.mnsPhStatusJumps x = min (s.reg F.mnsPhStatusJumps x + 1) 0xFFFF ∧ u.reg F.mnsPhStatusJump x = 1 ∧
            (∀ n, n < 27 → s.timerSrc n = x → (u.timer n).irregular = true) ∧ Only [.mns, .plx, .regs, .stw, .eth] s u))) ∧
      (p.rejected < 7 → Does (.mainsCrossing t x none ampl) s (fun u => (u.phase x).state = 1 ∧
        (u.phase x).rejected = p.rejected + 1 ∧ (u.phase x).crossing = p.crossing + p.period ∧ (u.phase x).dev = none ∧
        Only [.mns, .plx, .regs, .stw, .eth] s u)) ∧
      (7 ≤ p.rejected → Does (.mainsCrossing t x none ampl) s lost)) ∧
    (x < 3 → s.flag F.mnsCtlEn = true → p.state = 1 → 2 * ampl * 100 < s.lockLevel → 1 ≤ p.low → ∀ seen,
      Does (.mainsCrossing t x seen ampl) s lost) ∧
    (x < 3 → s.flag F.mnsCtlEn = true → (s.phase x).state ≠ 1 → s.lockLevel ≤ ampl * 100 → 7 ≤ (s.phase x).high →
      ∀ (m : Nat) (ps : List Nat), lockRun (lastN 9 ((s.phase x).run ++ [m])) = some ps → Does (.mainsCrossing t x (some m) ampl) s (fun u =>
        (u.phase x).state = 1 ∧ (u.phase x).crossing = m ∧ (u.phase x).period = (lastN 4 ps).foldl (· + ·) 0 / 4 ∧
        Raised s u (max s.now t) 0x401 0x64 x (be 4 ((lastN 4 ps).foldl (· + ·) 0 / 4) ++ be 1 1 ++ be 1 0xFF) ∧
        Only [.mns, .plx, .regs, .stw, .eth] s u))

/-- PLEAT_START (05 R104, R105, R112, R113): a pleat that is due starts, at an anchor or within the cycle, and fires the
trigger lines that name it. -/
def Obligations.PleatsStartAndFireTriggers : Prop :=
  ∀ (t n : Nat) (outs : List ChanOut) (s : State), s.pow.on = true → n < 27 →
    let x := s.timer n
    (x.due ≤ max s.now t → Does (.pleatStart t n outs) s (fun u =>
      (x.atAnchor = true → (u.timer n).anchor = x.next ∧ (u.timer n).start = x.next ∧ (u.timer n).pleat = 1 ∧
        (u.timer n).cycle = (x.cycle + 1) % 2 ^ 32 ∧ (u.timer n).fresh = false ∧ (u.timer n).noA = false ∧ (u.timer n).period = s.timerPeriod n) ∧
      (x.atAnchor = false → (u.timer n).anchor = x.anchor ∧ (u.timer n).next = x.next ∧ (u.timer n).pleat = x.pleat + 1 ∧
        (u.timer n).start = x.anchor + x.pleat * x.period / 16 ∧ (u.timer n).cycle = x.cycle) ∧
      (∀ m, m < 4 → s.flag F.mnsTrgCfgEn m = true → s.reg F.mnsTrgCfgSrc m = n →
        (s.reg F.mnsTrgCfgMask m).testBit ((u.timer n).pleat - 1) = true → tget? u.mns.fired m = some (u.timer n).start) ∧
      (∀ k, k ≠ n → u.timer k = s.timer k) ∧ u.mns.phases = s.mns.phases ∧
      Only [.mns, .plx, .regs, .mem, .lin, .chans, .spl] s u)) ∧
    (max s.now t < x.due → Does (.pleatStart t n outs) s (Only [] s))

/-! ## Line ports (06 to 08) -/

/-- A line port enabled, calibrated, in service and stopped (06 R115, R116, R118); the limit switched off (08 R171): the output rises
over a ramp from the level it has. That a port entering service starts with an empty census and ordinal 0 is the model's choice (log
entry 202), as are that a convergence runs under FREEZE (log entry 201), the PLAN byte for codes 3 to 6 (log entry 261) and the
factors of the ramp (log entry 244). -/
def Obligations.LinePortsRunAndStop : Prop :=
  ∀ (t n : Nat) (s : State), s.pow.on = true → n < 24 →
    let others (u : State) : Prop := ∀ k, k ≠ n → u.lp k = s.lp k
    (s.flag F.plxCtlEn n = false → Does (.plxEnable t n) s (fun u => u.flag F.plxCtlEn n = true ∧ (u.lp n).service = false ∧
      (u.lp n).conv = false ∧ (u.lp n).met = s.phaseMet n ∧ others u ∧ Only [.plx, .regs, .lin] s u)) ∧
    (s.flag F.plxCtlEn n = true → Does (.plxDisable t n) s (fun u => u.flag F.plxCtlEn n = false ∧ (u.lp n).service = false ∧
      (∀ m, m < 64 → (u.ls n m).cands = [] ∧ (u.ls n m).rx = none ∧ (u.ls n m).ack = none ∧ (u.ls n m).tx = none ∧
        (u.ls n m).queue = []) ∧ others u ∧ Only [.plx, .regs, .lin, .fau, .stw, .eth, .sea] s u)) ∧
    (s.flag F.plxCtlEn n = true → Does (.plxEnable t n) s (Only [] s)) ∧
    (s.flag F.plxCtlEn n = false → Does (.plxDisable t n) s (Only [] s)) ∧
    Does (.calRestart t n) s (fun u => others u ∧ Only [.plx] s u ∧
      u.lp n = if s.flag F.plxCtlEn n = true then { s.lp n with conv := false } else s.lp n) ∧
    Does (.calFreeze t n) s (fun u => u.flag F.plxCalFreeze n = true ∧ others u ∧ Only [.plx, .regs] s u ∧
      ∃ v, ((s.lp n).frozen = true → v = (s.lp n).spur) ∧ u.lp n =
        if s.flag F.plxCtlEn n = true then { s.lp n with frozen := true, spur := v, spurAt := max s.now t } else s.lp n) ∧
    Does (.calResume t n) s (fun u => u.flag F.plxCalFreeze n = false ∧ others u ∧ Only [.plx, .regs] s u ∧
      ∃ v, ((s.lp n).frozen = true → v = (s.lp n).spur) ∧ u.lp n =
        if s.flag F.plxCtlEn n = true then { s.lp n with frozen := false, spur := v, spurAt := max s.now t } else s.lp n) ∧
    (∀ spur v, v = (if (s.lp n).frozen && (s.lp n).conv then (s.lp n).spur else min 255 spur) →
      (s.flag F.plxCtlEn n = true → 90 ≤ v → Does (.calConverged t n spur) s (fun u =>
        u.lp n = { s.lp n with conv := true, spur := v, spurAt := max s.now t } ∧ others u ∧ Only [.plx] s u)) ∧
      (s.flag F.plxCtlEn n = false ∨ v < 90 → Does (.calConverged t n spur) s (Only [] s))) ∧
    (s.lineReady n = true → (s.lp n).service = false → Does (.lineReady t n) s (fun u => (u.lp n).service = true ∧
      (u.lp n).serviceAt = max s.now t ∧ (u.lp n).ordinal = 0 ∧ (u.lp n).cells = [] ∧ Raised s u (max s.now t) 0x403 0x10 n (be 1 (s.reg F.plxCfgPlan n)) ∧ others u ∧
      Only [.plx, .stw, .eth] s u)) ∧
    (s.lineReady n = false ∨ (s.lp n).service = true → Does (.lineReady t n) s (Only [] s)) ∧
    Does (.txlimDisable t n) s (fun u => u.flag F.plxTxlimEn n = false ∧ (u.lp n).scale = 0 ∧ others u ∧
      (u.lp n).gain (max s.now t) = (s.lp n).gain (max s.now t) ∧ (∀ r, max s.now t + 20000 ≤ r → (u.lp n).gain r = 1000000) ∧
      Only [.plx, .regs, .lin] s u)

/-- MAP_REBUILD_DONE: each entry of the new map is the builder's, or that of the map in force, as 07 R154 says; the map is offered to
every node of the link if it differs from the one in force, and waits while an offer is in progress (07 R154, R155, R159). A rebuild
that FREEZE or a cycle that is not included has overtaken is given up, which is the model's choice (log entry 245). DISCOVER_DUE:
DISCOVER is queued, with the port's and the link's parameters, PERIOD_S after the one before (08 R174; 00 R4). -/
def Obligations.MapsRebuildAndDiscoverIsSent : Prop :=
  (∀ (t n m : Nat) (s : State), s.pow.on = true → n < 24 →
    (∀ e, s.fau.holder (.lineTx n m) = some e → (s.fau.eng e).patch = none) →
    let x := s.ls n m
    let now := max s.now t
    let nodes := s.linkNodes n m
    let c (p : Nat) : Nat → Option Int := fun g => (s.tick t).cellSnr n nodes p g
    let pick (p : Nat) : Option Pick := ((s.tick t).buildMap n m).getD p none
    let offered (u : State) : Prop := u.reg F.plxCntOffer n = min (s.reg F.plxCntOffer n + 1) 0xFFFFFFFF ∧
      (u.ls n m).version = nextVersion x.version
    (s.linkOn n m = true → x.rebuild.isSome = true →
      (s.flag F.plxMapcfgFreeze n = true ∨ s.included n (s.timer n) = false → Does (.mapRebuildDone t n m) s (fun u =>
        u.ls n m = { x with rebuild := none } ∧ Only [.plx, .fau] s u)) ∧
      (s.flag F.plxMapcfgFreeze n = false → s.included n (s.timer n) = true → Does (.mapRebuildDone t n m) s (fun u =>
        (u.ls n m).rebuild = none ∧ (u.ls n m).lastRebuild = now ∧
        u.reg F.plxCntRebuild n = min (s.reg F.plxCntRebuild n + 1) 0xFFFFFFFF ∧
        (x.map = none → s.canBuild n m = false → (u.ls n m).map = none ∧ (u.ls n m).offer = x.offer) ∧
        (x.map ≠ none ∨ s.canBuild n m = true → ∀ o, x.offer = some o → (u.ls n m).offer = some o ∧ (u.ls n m).map = x.map ∧
          (u.ls n m).version = x.version ∧ (u.ls n m).want.isSome = true) ∧
        (x.map = none → s.canBuild n m = true → x.offer = none → nodes ≠ [] → offered u ∧
          ∃ o, (u.ls n m).offer = some o ∧ o.map.version = nextVersion x.version ∧ o.left = nodes.map (·.1) ∧
            o.map.entries = ((s.tick t).buildMap n m).map (pickEntry (s.reg F.plxLsTxHome n m)) ∧
            ∀ k ∈ o.left, ∃ f ∈ (u.ls n m).queue, f.job = .offer k ∧ f.dst = k ∧ f.typ = 2 ∧ f.ackReq = true ∧
              f.prio = 0 ∧ f.payload = be 1 5 ++ zeros 1 ++ be 1 (o.map.version * 16) ++ zeros 1 ++ o.map.entries.flatMap fun e => be 2 e) ∧
        (∀ old, x.map = some old → x.offer = none →
          (∀ p, p < 16 → tget (0, 0) (u.ls n m).choices p =
            (pickEntry (s.reg F.plxLsTxHome n m) (pick p),
              if (match pick p with
                | some y => s.strong n y
                | none => false) = false then now
              else if (tget (0, 0) x.choices p).1 = pickEntry (s.reg F.plxLsTxHome n m) (pick p) then (tget (0, 0) x.choices p).2
              else x.lastRebuild)) ∧
          let entries := (List.range 16).map fun p =>
            (s.tick t).newEntry n m (c p) (pick p) (old.entries.getD p 1) (tget (0, 0) (u.ls n m).choices p).2
          (entries = old.entries → (u.ls n m).map = some old ∧ (u.ls n m).offer = none ∧ (u.ls n m).version = x.version ∧
            u.reg F.plxCntOffer n = s.reg F.plxCntOffer n) ∧
          (entries ≠ old.entries → offered u ∧ ∃ p : PMap, p.version = nextVersion x.version ∧ p.entries = entries ∧
            (nodes = [] → (u.ls n m).map = some p ∧ (u.ls n m).offer = none) ∧
            (nodes ≠ [] → (u.ls n m).map = some old ∧ (u.ls n m).offer = some { map := p, left := nodes.map (·.1) }))) ∧
        Only [.plx, .regs, .fau] s u))) ∧
    (s.linkOn n m = false ∨ x.rebuild = none → Does (.mapRebuildDone t n m) s (Only [.fau] s))) ∧
  ∀ (t n m : Nat) (s : State), s.pow.on = true →
    let after (d : Nat) : Prop := ∃ u, (s.ls n m).disc = some u ∧
      d = max (u + clamp 10 3600 (s.reg F.plxDiscPeriodS n) * sec) (s.lp n).discAt
    (∀ d, s.linkOn n m = true → s.flag F.plxDiscEn n = true →
      ((s.ls n m).disc = none ∧ d = max s.now t) ∨ (after d ∧ d ≤ max s.now t) →
      Does (.discoverDue t n m) s (fun u => (u.ls n m).disc = some d ∧ Only [.plx, .fau] s u ∧
        (u.ls n m).queue.length = (s.ls n m).queue.length + 1 ∧ ∃ f ∈ (u.ls n m).queue, f.job = .discover ∧ f.dst = 0xFFFF ∧
          f.prio = 3 ∧ f.typ = 2 ∧ f.ackReq = false ∧ f.mode = 1 ∧ f.payload = be 1 1 ++ zeros 1 ++ be 1 n ++ be 1 m ++
            be 1 (s.reg F.plxCfgFold n) ++ be 1 (s.reg F.plxCfgPlan n) ++ be 2 (s.reg F.plxLsRegionLo n m) ++
            be 2 (s.reg F.plxLsRegionHi n m) ++ be 2 (s.reg F.plxLsTxHome n m) ++ be 2 (s.reg F.mnsPortCfgOffset n) ++
            be 1 (s.reg F.plxMapcfgErase n) ++ be 1 (b2n (s.flag F.mnsCtlNominal) + 2 * b2n (s.flag F.plxDiscJoin n)) ++ zeros 2)) ∧
    (s.linkOn n m = false ∨ s.flag F.plxDiscEn n = false ∨ (∃ d, after d ∧ max s.now t < d) →
      Does (.discoverDue t n m) s (Only [] s))

/-- Receiving on the line (06 R131, R138 to R140, R134, R135; 08 R167, R168, R173, R175, R178 to R180, R435; 14 R320): peaks and the
candidates they begin or take over, the delimiter, the header check of one candidate or of two at once, and the payload check with
what data, secured, CONTROL and RELAY frames then do. That a RELAY frame too short for its ROUTE is one with a wrong COUNT is the
model's choice (log entry 62), and so is it that one whose checks pass is delivered whatever its DIR and TARGET (log entry 203). -/
def Obligations.LineReceptionRuns : Prop :=
  ∀ (t n m : Nat) (s : State), s.pow.on = true → n < 24 →
    let up (u : State) (x : FRef) : Prop := u.reg x n = min (s.reg x n + 1) 0xFFFFFFFF
    let whole (k : Nat) : Prop := ∀ e, s.fau.holder (.lineRx n m k) = some e → (s.fau.eng e).patch = none
    (∀ (peak : LinePeak) (start : Nat), s.linkOn n m = true →
      isPeak (s.corThresh n) (metricOf peak.before) (metricOf peak.peak) (metricOf peak.after) = true → (s.ls n m).tx = none →
      (s.ls n m).quiet + 2 * ms ≤ max s.now t → start + 10240000 ≤ max s.now t →
      let c (k : Nat) : LineCand := { place := k, metric := metricOf peak.peak, start := start, mode := none, broken := false }
      let mine := metricOf peak.peak
      let new (k : Nat) : Prop :=
        ((s.place (.lineRx n m k)).isSome = true → Does (.linePreamblePeak t n m peak start) s (fun u =>
          (u.ls n m).cands = (s.ls n m).cands ++ [c k] ∧ (u.fau.holder (.lineRx n m k)).isSome = true ∧ up u F.plxCntCand ∧
          Only [.plx, .regs, .fau] s u)) ∧
        (s.place (.lineRx n m k) = none → Does (.linePreamblePeak t n m peak start) s (fun u => up u F.plxCntCdrop ∧
          Only [.regs] s u))
      let late : Prop := Does (.linePreamblePeak t n m peak start) s (fun u => up u F.plxCntLate ∧ Only [.regs, .fau] s u)
      ((s.ls n m).rx = none → (s.ls n m).cands = [] → whole 0 → new 0) ∧
      (∀ a, (s.ls n m).rx = none → (s.ls n m).cands = [a] →
        (metricWins mine a.metric = true → whole a.place → Does (.linePreamblePeak t n m peak start) s (fun u =>
          (u.ls n m).cands = [c a.place] ∧ up u F.plxCntPreempt ∧ up u F.plxCntCand ∧ Only [.plx, .regs, .fau] s u)) ∧
        (metricWins mine a.metric = false → whole (1 - a.place) → new (1 - a.place))) ∧
      (∀ a b, (s.ls n m).rx = none → (s.ls n m).cands = [a, b] →
        let low := if metricAbove a.metric b.metric then b else a
        (metricWins mine a.metric = true → metricWins mine b.metric = true → whole a.place →
          Does (.linePreamblePeak t n m peak start) s (fun u => (u.ls n m).cands = [c a.place] ∧
            u.reg F.plxCntPreempt n = min (s.reg F.plxCntPreempt n + 2) 0xFFFFFFFF ∧ up u F.plxCntCand ∧
            Only [.plx, .regs, .fau] s u)) ∧
        ((metricWins mine a.metric && metricWins mine b.metric) = false →
          (metricWins mine low.metric = true → whole low.place → Does (.linePreamblePeak t n m peak start) s (fun u =>
            (u.ls n m).cands = ([a, b].filter fun e => decide (e ≠ low)) ++ [c low.place] ∧ up u F.plxCntPreempt ∧
            up u F.plxCntCand ∧ Only [.plx, .regs, .fau] s u)) ∧
          (metricWins mine low.metric = false → whole a.place → late))) ∧
      (∀ r, (s.ls n m).rx = some r → whole r.cand.place → late)) ∧
    (∀ (peak : LinePeak) (start : Nat), s.linkOn n m = false ∨
        isPeak (s.corThresh n) (metricOf peak.before) (metricOf peak.peak) (metricOf peak.after) = false ∨
        (s.ls n m).tx.isSome = true ∨ max s.now t < (s.ls n m).quiet + 2 * ms ∨ max s.now t < start + 10240000 →
      Does (.linePreamblePeak t n m peak start) s (Only [] s)) ∧
    (∀ (place : Nat) (c : LineCand) (soft : List Int), s.candAt n m place = some c → c.mode = none → soft.length = 16 →
      c.start + 20480000 ≤ max s.now t → whole place →
      Does (.lineDelimiterCheck t n m place soft) s (fun u => Only [.plx, .regs, .fau] s u ∧ ∃ k, k < 3 ∧
        (∀ j, j < 3 → softFit soft (delimiter j) ≤ softFit soft (delimiter k)) ∧
        (hardErrors soft (delimiter k) ≤ 3 → c.broken = false → { c with mode := some k } ∈ (u.ls n m).cands) ∧
        (3 < hardErrors soft (delimiter k) ∨ c.broken = true → c ∉ (u.ls n m).cands ∧ up u F.plxCntHdrFail))) ∧
    (∀ (place : Nat) (c : LineCand) (head : HeadSoft) (energy : Nat) (snr : Int),
      let v := (s.tick t).takeOuts n head.outs
      s.candAt n m place = some c → v.headDue n m c = true → whole place →
      (v.headOfCand n m c head.soft = none → (s.ls n m).await = none →
        Does (.lineHeaderCheck t n m place head none energy snr) s (fun u => c ∉ (u.ls n m).cands ∧ up u F.plxCntHdrFail ∧
          Only [.plx, .regs, .fau] s u)) ∧
      (∀ r, v.headOfCand n m c head.soft = some r → r.head.len ≠ 0 → (s.ls n m).await = none →
        Does (.lineHeaderCheck t n m place head none energy snr) s (fun u => (u.ls n m).cands = [] ∧ (u.ls n m).rx = some r ∧
          (r.head.ackReq = true → r.head.dst = 0 → r.head.typ ≠ 1 → (u.ls n m).ack = some
            { head := r.head, start := c.start, map := r.map, delta := r.delta, begun := false, ok := none }) ∧ Only [.plx, .regs, .fau] s u)) ∧
      (∀ r g l ref, v.headOfCand n m c head.soft = some r → r.head.len = 0 → s.isOurAck n m c r.head = true →
        (s.ls n m).queue = g :: l → g.job = .downlink ref → g.done = false → g.tries ≠ 0 → s.pairActive = true →
        Does (.lineHeaderCheck t n m place head none energy snr) s (fun u => (u.ls n m).await = none ∧
          ∀ f ∈ u.stw.flights, f.ref ≠ ref)) ∧
      (∀ d w x y, d ≠ c → ((s.ls n m).cands = [c, d] ∨ (s.ls n m).cands = [d, c]) → v.headDue n m d = true →
        (s.ls n m).await = none → v.headOfCand n m c head.soft = x → v.headOfCand n m d w = y → ∀ r : LineRx, r.head.len ≠ 0 →
        (x = some r ∧ (y = none ∨ ∃ q, y = some q ∧ metricAbove d.metric c.metric = false)) ∨
          (y = some r ∧ (x = none ∨ ∃ q, x = some q ∧ metricAbove d.metric c.metric = true)) →
        Does (.lineHeaderCheck t n m place head (some w) energy snr) s (fun u => (u.ls n m).cands = [] ∧ (u.ls n m).rx = some r ∧
          u.reg F.plxCntHdrFail n = min (s.reg F.plxCntHdrFail n + (if x = none ∨ y = none then 1 else 0)) 0xFFFFFFFF ∧
          Only [.plx, .regs, .fau] s u))) ∧
    (∀ (r : LineRx) (outs : List ChanOut) (soft : List SlotSoft) (energy : Nat) (snr : Int), (s.ls n m).rx = some r →
      s.rxEnd n r.cand.start r.head r.map r.delta ≤ max s.now t → whole r.cand.place →
      let v := (s.tick t).takeOuts n outs
      (v.payloadOfRx n m r soft = none → Does (.linePayloadCheck t n m outs soft energy snr) s (fun u =>
        (u.ls n m).rx = none ∧ up u F.plxCntPayFail)) ∧
      (∀ p y k x, v.payloadOfRx n m r soft = some p → r.head.len ≠ 0 → r.head.len ≤ 256 → r.head.typ = 0 → r.head.dst = 0 →
        r.head.sec = false → s.node? r.head.src = some y → y.state = 1 → y.ext ≠ 0 → tget? s.stw.sess k = some x →
        bit x.kinds 0 = true → 328 ≤ x.maxmsg → areaUsed s.stw.area + 312 ≤ 2147483648 →
        Does (.linePayloadCheck t n m outs soft energy snr) s (fun u => (u.ls n m).rx = none ∧ up u F.plxCntRxOk ∧
          ∃ margin, ({ id := s.stw.nextArea,
                       body := recordBody 1 n m 8 r.head.src r.head.seq y.ext s.lin.epoch r.cand.start margin 0 p } : AreaRec) ∈ u.stw.area)) ∧
      (∀ p y k x, v.payloadOfRx n m r soft = some p → r.head.len ≠ 0 → r.head.len ≤ 256 → r.head.typ = 0 → r.head.dst = 0 →
        r.head.sec = true → s.node? r.head.src = some y → y.state = 1 → y.ext ≠ 0 → tget? s.stw.sess k = some x →
        bit x.kinds 0 = true → 328 ≤ x.maxmsg → areaUsed s.stw.area + 312 ≤ 2147483648 →
        let a0 := be 2 0 ++ be 2 r.head.src ++ be 2 r.head.seq
        Does (.linePayloadCheck t n m outs soft energy snr) s (fun u => (u.ls n m).rx = none ∧ up u F.plxCntRxOk ∧ ∃ margin,
          let q : RecvRec := { kind := 1, port := n, chan := m, flags := 24, short := r.head.src, seq := r.head.seq, ext := y.ext,
                               epoch := s.lin.epoch, ns := r.cand.start, margin := margin, hops := 0, head := [] }
          (∀ w, s.openJob false a0 p (some y.ext) r.head.src (.record 6 q) = some w → Offered w u) ∧
          (s.openJob false a0 p (some y.ext) r.head.src (.record 6 q) = none →
            u.reg F.cipCntUntrusted = min (s.reg F.cipCntUntrusted + 1) 0xFFFFFFFF ∧
              ({ id := s.stw.nextArea,
                 body := recordBody 1 n m 25 r.head.src r.head.seq y.ext s.lin.epoch r.cand.start margin 0 p } : AreaRec) ∈ u.stw.area))) ∧
      (∀ p, v.payloadOfRx n m r soft = some p → r.head.len ≠ 0 → r.head.typ = 2 → r.head.dst = 0 →
        (s.regs.com .plxCommit n).pend = false →
        (∀ ext caps, r.head.src = 0xFFFE → s.node? 0xFFFE = none → joinFields p = some (ext, caps) →
          (s.flag F.plxDiscJoin n = false → Does (.linePayloadCheck t n m outs soft energy snr) s (fun u =>
            u.plx.nodes = s.plx.nodes ∧ (∃ f ∈ (u.ls n m).queue, f.job = .reject ∧ f.dst = 0xFFFE ∧ f.typ = 2 ∧ f.ackReq = true ∧
              f.payload = be 1 4 ++ zeros 1 ++ be 8 ext ++ be 1 2 ++ zeros 1) ∧ Only [.plx, .regs, .fau] s u)) ∧
          (s.flag F.plxDiscJoin n = true → s.nodeByExt ext = none → s.plx.nodes.length < 8192 →
            Does (.linePayloadCheck t n m outs soft energy snr) s (fun u => (∃ z, u.node? s.freeShort = some z ∧ z.state = 3 ∧
                z.ext = ext ∧ z.port = n ∧ z.slot = m ∧ z.flags = caps % 4 ∧ z.hops = 0 ∧ z.since = max s.now t) ∧
              (∀ k, k ≠ s.freeShort → u.node? k = s.node? k) ∧
              (∃ f ∈ (u.ls n m).queue, f.job = .accept s.freeShort ∧ f.dst = 0xFFFE ∧ f.typ = 2 ∧ f.ackReq = true ∧
                f.payload = be 1 3 ++ zeros 1 ++ be 8 ext ++ be 2 s.freeShort ++ be 1 m ++ zeros 1) ∧
              Only [.plx, .regs, .fau, .lin] s u))) ∧
        (∀ y, let b := p.drop 2
          let k := octet b 0 % 16
          let g := s.reg F.plxLsRegionHi n m / 8 + 1 - s.reg F.plxLsRegionLo n m / 8
          s.node? r.head.src = some y → y.state = 1 → r.head.src ≠ 0xFFFE → octet p 0 = 6 → k ≠ 0 → b.length = 4 + 8 * cdiv g k →
          cdiv g k ≤ 30 → Does (.linePayloadCheck t n m outs soft energy snr) s (fun u => ∃ z, u.node? r.head.src = some z ∧
            z.report = some (max s.now t, octet b 1, k, nibbles (b.drop 4)) ∧ Only [.plx, .regs, .fau, .lin] s u))) ∧
      (∀ p y, v.payloadOfRx n m r soft = some p → r.head.len ≠ 0 → r.head.typ = 3 → r.head.dst = 0 →
        s.node? r.head.src = some y → y.state = 1 → (s.regs.com .plxCommit n).pend = false →
        let h := relayHead p
        (s.relayBad r.head.src p h = true → Does (.linePayloadCheck t n m outs soft energy snr) s (fun u =>
          (u.ls n m).rx = none ∧ up u F.plxCntRxOk ∧ up u F.plxCntRelayDrop ∧ Only [.plx, .regs, .fau, .lin] s u)) ∧
        (∀ z k x, s.relayBad r.head.src p h = false → h.origin ≠ 0xFFFE → s.node? h.origin = some z → z.state = 1 → z.ext ≠ 0 →
          h.sec = false → r.head.len ≤ 256 → tget? s.stw.sess k = some x → bit x.kinds 0 = true → 328 ≤ x.maxmsg →
          areaUsed s.stw.area + 312 ≤ 2147483648 → Does (.linePayloadCheck t n m outs soft energy snr) s (fun u =>
            up u F.plxCntRxOk ∧ (∃ w, u.node? h.origin = some w ∧ w.route = h.route.reverse ∧ w.hops = h.count ∧ bit w.flags 2 = true) ∧
            ∃ margin, ({ id := s.stw.nextArea,
                         body := recordBody 1 n m 12 h.origin h.seq z.ext s.lin.epoch r.cand.start margin h.count
                           (p.drop (8 + 2 * h.count)) } : AreaRec) ∈ u.stw.area)))) ∧
    ((∀ r, (s.ls n m).rx = some r → max s.now t < s.rxEnd n r.cand.start r.head r.map r.delta) → ∀ outs soft energy snr,
      Does (.linePayloadCheck t n m outs soft energy snr) s (fun u => (u.ls n m).rx = (s.ls n m).rx ∧
        (u.ls n m).cands = (s.ls n m).cands ∧ Only [.plx, .fau] s u))

/-- Acknowledgements sent (08 R167): the armed one begins 2.56 ms after the frame's end, and goes on only if the payload check
has passed. Sending (08 R162, R163, R168, R169): contention, a try, its end, its acknowledgement's window, and the delay before
the next, each metered from the end of what it follows (00 R4). The instant from which the slot is quiet, the end of the last slot or
20 us after a cut, is the model's choice (log entry 232). -/
def Obligations.LineAcknowledgesAndRetries : Prop :=
  (∀ (t n m : Nat) (a : LineAck) (s : State), s.pow.on = true → n < 24 → (s.ls n m).ack = some a →
     let go := s.rxEnd n a.start a.head a.map a.delta + 2560000
     (a.begun = false → go ≤ max s.now t → (s.ls n m).tx = none →
       Does (.lineAckStart t n m) s (fun u => (u.ls n m).ack = some { a with begun := true } ∧
         (∃ x, (u.ls n m).tx = some x ∧ x.start = go ∧ x.mode = 1 ∧ x.octets = whiten (s.frameOctets n (ackHead a.head) []) ∧
           x.amp = s.reg F.plxLsTxTxamp n m ∧ x.slots = s.toneSlots n m go 1 x.octets []) ∧
         u.reg F.plxCntTx n = min (s.reg F.plxCntTx n + 1) 0xFFFFFFFF ∧ Only [.plx, .regs] s u)) ∧
     (max s.now t < go → Does (.lineAckStart t n m) s (Only [] s)) ∧
     (∀ x, a.begun = true → (s.ls n m).tx = some x → x.start + 10240000 ≤ max s.now t →
       (a.ok ≠ some true → Does (.lineAckDecision t n m) s (fun u => (u.ls n m).ack = none ∧ (u.ls n m).tx = none ∧
         (u.ls n m).quiet = x.start + 10260000 ∧ u.reg F.plxCntAckAbort n = min (s.reg F.plxCntAckAbort n + 1) 0xFFFFFFFF ∧ Only [.plx, .regs, .fau] s u)) ∧
       (a.ok = some true → Does (.lineAckDecision t n m) s (Only [] s)) ∧
       (a.ok = some true → x.start + 204800000 ≤ max s.now t → Does (.lineTxEnd t n m) s (fun u => (u.ls n m).ack = none ∧
         (u.ls n m).tx = none ∧ (u.ls n m).quiet = x.start + 204800000 ∧ (u.ls n m).queue = (s.ls n m).queue ∧
         Only [.plx, .fau] s u)))) ∧
  (∀ (t n m : Nat) (s : State), s.pow.on = true → n < 24 →
     let x := s.ls n m
     let now := max s.now t
     let whole : Prop := ∀ e, s.fau.holder (.lineTx n m) = some e → (s.fau.eng e).patch = none
     (∀ f l, x.queue = f :: l → whole →
       (∀ go, (s.tick t).mayStart n m f = some go → Does (.lineContentionEnd t n m) s (fun u => Only [.plx, .regs, .lin, .fau] s u ∧
         (u.ls n m).draw = none ∧ u.reg F.plxCntTx n = min (s.reg F.plxCntTx n + 1) 0xFFFFFFFF ∧
         ∃ g tx, (u.ls n m).queue = g :: l ∧ g = { f with mode := g.mode, tries := f.tries + 1, first := go } ∧
           (f.tries ≠ 0 → g.mode = f.mode) ∧ (u.ls n m).tx = some tx ∧ tx.start = go ∧ tx.mode = g.mode ∧
           tx.octets = whiten (s.frameOctets n (f.head g.mode) f.payload) ∧ tx.amp = s.reg F.plxLsTxTxamp n m)) ∧
       ((s.tick t).mayStart n m f = none → Does (.lineContentionEnd t n m) s (Only [.fau] s))) ∧
     (∀ v d, s.linkOn n m = true → x.draw = some d → whole → s.senseRef n m + s.reg F.plxAccSense n < v →
       Does (.lineDefer t n m (some v)) s (fun u => (u.ls n m).hot = true ∧ (u.ls n m).draw = none ∧
         u.reg F.plxCntDefer n = min (s.reg F.plxCntDefer n + 1) 0xFFFFFFFF ∧ Only [.plx, .regs, .fau] s u)) ∧
     (s.linkOn n m = true → x.cands = [] → x.rx = none → x.tx = none → x.reserved ≤ now → whole →
       Does (.linkSlotIdle t n m) s (fun u => (u.ls n m).hot = false ∧
         (u.ls n m).idle = (if x.hot then max x.idle now else x.idle) ∧ Only [.plx, .fau] s u ∧
         ∀ f l, x.queue = f :: l → f.delayed = none → x.await = none → ∃ d, d < 4 ∧ (u.ls n m).draw = some d)) ∧
     (∀ tx f l, x.tx = some tx → x.ack = none → s.txEnd n tx ≤ now → x.queue = f :: l → f.done = false →
       (f.ackReq = true → Does (.lineTxEnd t n m) s (fun u => (u.ls n m).tx = none ∧ (u.ls n m).await = some (s.txEnd n tx) ∧
         (u.ls n m).idle = max x.idle (s.txEnd n tx) ∧ (u.ls n m).quiet = s.txEnd n tx ∧
         (∃ lim, (u.ls n m).queue = { f with airtime := f.airtime + (s.txEnd n tx - tx.start), limited := lim } :: l) ∧ Only [.plx] s u)) ∧
       (∀ ref, f.ackReq = false → f.job = .downlink ref → s.pairActive = true → Does (.lineTxEnd t n m) s (fun u => (u.ls n m).tx = none ∧
         (u.ls n m).queue = l ∧ ∀ g ∈ u.stw.flights, g.ref ≠ ref))) ∧
     (∀ tx, x.tx = some tx → x.ack = none → now < s.txEnd n tx → Does (.lineTxEnd t n m) s (Only [] s)) ∧
     (∀ at_ f l, x.await = some at_ → x.cands = [] → x.rx = none → x.queue = f :: l → f.done = false → whole →
       (at_ + 16 * ms ≤ now → f.tries < s.lineTries n → Does (.lineAckTimeout t n m) s (fun u => (u.ls n m).await = none ∧
         (u.ls n m).draw = none ∧ Only [.plx, .fau] s u ∧ ∃ g d, (u.ls n m).queue = g :: l ∧ g = { f with mode := g.mode, delayed := some d } ∧
           at_ + 16 * ms ≤ d ∧ d ≤ at_ + 16 * ms + 2 ^ min f.tries 4 * 20480000 ∧ (0 < (s.lp n).scale → g.mode = 2))) ∧
       (∀ ref, at_ + 16 * ms ≤ now → s.lineTries n ≤ f.tries → f.job = .downlink ref → s.pairActive = true → Does (.lineAckTimeout t n m) s (fun u =>
         (u.ls n m).queue = l ∧ (u.ls n m).await = none ∧ ∀ g ∈ u.stw.flights, g.ref ≠ ref)) ∧
       (now < at_ + 16 * ms → Does (.lineAckTimeout t n m) s (Only [.fau] s))) ∧
     (∀ f l d, x.queue = f :: l → f.delayed = some d → whole →
       (d ≤ now → Does (.lineRetryDelayEnd t n m) s (fun u => (u.ls n m).queue = { f with delayed := none } :: l ∧
         (u.ls n m).ready = d ∧ (∃ k, k < 4 ∧ (u.ls n m).draw = some k) ∧ Only [.plx, .fau] s u)) ∧
       (now < d → Does (.lineRetryDelayEnd t n m) s (Only [.fau] s))))

/-- The transmit-current limit (08 R171): each step and each recovery ramps the port's output from the level it has to that of the new
SCALE; and entries that lapse or are lost (08 R175, R176). The factors of the steps and the form of the ramp are the model's choice (log
entry 244). -/
def Obligations.LineLimitsAndLosses : Prop :=
  (∀ (t n : Nat) (s : State), s.pow.on = true → n < 24 →
    let ramps (u : State) : Prop := (u.lp n).gain (max s.now t) = (s.lp n).gain (max s.now t) ∧
      ∀ r, max s.now t + 20000 ≤ r → (u.lp n).gain r = scaleGain (u.lp n).scale
    (s.flag F.plxTxlimEn n = true → s.portSends n = true →
      (∀ u, (s.lp n).stepped = some u → u + ms ≤ max s.now t) → (s.lp n).scale < s.txFloor n →
      Does (.txlimStep t n) s (fun u => (u.lp n).scale = (s.lp n).scale + 1 ∧ (u.lp n).stepped = some (max s.now t) ∧
        (u.lp n).clean = 0 ∧ ramps u ∧ ((s.lp n).scale = 0 → Raised s u (max s.now t) 0x406 0x10 n (be 1 1)) ∧
        Only [.plx, .stw, .eth] s u)) ∧
    (s.flag F.plxTxlimEn n = false ∨ s.portSends n = false → Does (.txlimStep t n) s (Only [] s)) ∧
    (0 < (s.lp n).scale → clamp 1 3600 (s.reg F.plxTxlimHoldS n) * sec ≤ (s.tick t).cleanTime n →
      Does (.txlimRecover t n) s (fun u => (u.lp n).scale = (s.lp n).scale - 1 ∧ (u.lp n).clean = 0 ∧ ramps u ∧ Only [.plx] s u)) ∧
    ((s.tick t).cleanTime n < clamp 1 3600 (s.reg F.plxTxlimHoldS n) * sec → Does (.txlimRecover t n) s (Only [] s))) ∧
  ∀ (t short : Nat) (y : Node) (s : State), s.pow.on = true → s.node? short = some y → 0 < (s.lp y.port).serviceAt →
    (y.state = 3 → y.since + 600 * sec ≤ max s.now t → Does (.joinLapse t short) s (fun u => u.node? short = none ∧
      (∀ k z, k ≠ short → u.node? k = some z → ∃ x, s.node? k = some x ∧ z = { x with txFail := z.txFail, mapver := z.mapver, spent := z.spent }) ∧
      (∀ k, k ≠ short → (s.node? k).isSome = true → (u.node? k).isSome = true) ∧
      ({ what := .node short none, ref := none } : LinWrite) ∈ u.lin.writes ∧
      (∀ n m, n < 24 → m < 64 → ∀ f ∈ (u.ls n m).queue, f.node = short ∨ f.dst = short → f.done = true) ∧
      Only [.plx, .lin, .fau, .stw, .eth, .regs] s u)) ∧
    (y.state ≠ 3 ∨ max s.now t < y.since + 600 * sec → Does (.joinLapse t short) s (Only [] s)) ∧
    (y.state = 1 → y.since + max 60 (s.reg F.plxNodeLostS y.port) * sec ≤ max s.now t → Does (.nodeLost t short) s (fun u =>
      u.node? short = some { y with state := 2 } ∧ (∀ k, k ≠ short → u.node? k = s.node? k) ∧
      Raised s u (max s.now t) 0x405 0x10 y.port (be 2 short ++ be 1 1) ∧ Only [.plx, .lin, .stw, .eth] s u)) ∧
    (y.state ≠ 1 ∨ max s.now t < y.since + max 60 (s.reg F.plxNodeLostS y.port) * sec →
      Does (.nodeLost t short) s (Only [] s))

/-! ## Air ports (09, 10) -/

/-- Air links and elastic FIFOs (01 R19; 09 R183, R186, R187): an enabled port brings its link up step by step, a failed
attempt is repeated after 10 ms, and a port that stops ends its frames. -/
def Obligations.AirLinksComeUpAndGo : Prop :=
  (∀ (t n : Nat) (s : State), s.pow.on = true → n < 16 →
    let now := max s.now t
    let others (u : State) : Prop := ∀ k, k ≠ n → u.ap k = s.ap k
    let fails (u : State) (why : Nat) : Prop := (u.ap n).attempt = none ∧ (u.ap n).next = now + 10 * ms ∧
      (u.ap n).reason = why ∧ (u.ap n).up = (s.ap n).up ∧ others u ∧ Only [.air] s u
    let idle (u : State) : Prop := (u.ap n).attempt = none ∧ (u.ap n).up = false ∧ others u
    let l := lmfcNs (s.jesdRate n)
    let cut (u : State) : Prop := (u.ap n).sends = [] ∧ (u.ap n).bcnAt = none ∧
      (∀ m, (u.ac n m).cands = [] ∧ (u.ac n m).rx = none ∧ (u.ac n m).ack = none) ∧
      Only [.air, .caps, .eth, .fau, .lin, .regs, .stw] s u
    (s.flag F.airCtlEn n = false → Does (.airEnable t n) s (fun u => u.flag F.airCtlEn n = true ∧ idle u ∧
      (u.ap n).next = now ∧ Only [.air, .caps, .lin, .regs] s u)) ∧
    (s.flag F.airCtlEn n = true → Does (.airEnable t n) s (Only [] s)) ∧
    (s.flag F.airCtlEn n = true → Does (.airDisable t n) s (fun u => u.flag F.airCtlEn n = false ∧ (u.ap n).dclk = none ∧ idle u ∧ cut u)) ∧
    (s.flag F.airCtlEn n = false → Does (.airDisable t n) s (Only [] s)) ∧
    (s.flag F.airCtlEn n = true → (s.ap n).up = false → (s.ap n).attempt = none → (s.ap n).next ≤ now →
      let e := lmfcAt l (now + 100 * us)
      Does (.jesdAttempt t n) s (fun u => others u ∧ Only [.air] s u ∧ u.ap n = { s.ap n with
        attempt := some { start := now, cgs := false, ilas := false, sent := false, own := 0 }
        dclk := some (headKhz (s.jesdRate n))
        rxsync := none
        sysref := [e, e + l, e + 2 * l, e + 3 * l] })) ∧
    (s.flag F.airCtlEn n = false ∨ (s.ap n).up = true ∨ (s.ap n).attempt.isSome = true ∨ now < (s.ap n).next →
      Does (.jesdAttempt t n) s (Only [] s)) ∧
    (∀ a, (s.ap n).attempt = some a →
      (a.cgs = false → now ≤ a.start + ms → Does (.jesdCodeGroupSync t n) s (fun u => others u ∧ Only [.air] s u ∧
        u.ap n = { s.ap n with attempt := some { a with cgs := true }, rxsync := some (lmfcNext l now) })) ∧
      (∀ (x : Ilas) (r : List Ilas) (sync : Nat), a.cgs = true → (s.ap n).rxsync = some sync → sync ≤ now →
        Does (.jesdIlas t n (x :: r)) s (fun u => (u.ap n).did = x.did % 256 ∧
          (u.ap n).bid = x.bid % 16 ∧ others u ∧ Only [.air] s u ∧
          (s.ilasOk n (x :: r) = true → (u.ap n).attempt = some { a with ilas := true }) ∧
          (s.ilasOk n (x :: r) = false → fails u 2))) ∧
      (a.sent = false → now ≤ a.start + 2 * ms → Does (.jesdTxsyncRelease t n) s (fun u => others u ∧ Only [.air] s u ∧
        u.ap n = { s.ap n with attempt := some { a with sent := true, own := lmfcNext l now } })) ∧
      ((a.start + ms ≤ now ∧ a.cgs = false) ∨ (a.start + 2 * ms ≤ now ∧ a.sent = false) →
        Does (.jesdSyncTimeout t n) s (fun u => fails u 4)) ∧
      (now < a.start + ms → Does (.jesdSyncTimeout t n) s (Only [] s)) ∧
      (a.ilas = true → a.sent = true → a.own + 4 * l ≤ now → Does (.jesdLinkUp t n) s (fun u => (u.ap n).up = true ∧ (u.ap n).attempt = none ∧
        Raised s u now 0x501 0x30 n (be 1 (s.ap n).did ++ be 1 (s.ap n).bid ++ be 1 (s.jesdRate n)) ∧ others u ∧
        (s.flag F.airCtlEn n = true → s.fau.testing = false → s.flag F.airBcnEn n = true → (u.ap n).bcnAt = some now) ∧
        ((s.ap n).hadLink = true → ∀ c ∈ s.caps, capturesOf 2 n c = true → { c with gap := true } ∈ u.caps) ∧
        Only [.air, .caps, .eth, .stw] s u)) ∧
      (a.ilas = false ∨ a.sent = false ∨ now < a.own + 4 * l → Does (.jesdLinkUp t n) s (Only [] s))) ∧
    (∀ why, why = 1 ∨ why = 3 → (s.ap n).up = true → Does (.jesdLinkDown t n why) s (fun u => idle u ∧ cut u ∧
      (u.ap n).next = now + 10 * ms ∧ (u.ap n).reason = why ∧
      u.reg F.airCntLinkdown n = min (s.reg F.airCntLinkdown n + 1) 0xFFFFFFFF ∧ Raised s u now 0x502 0x30 n (be 1 why))) ∧
    (∀ why, (s.ap n).up = false → Does (.jesdLinkDown t n why) s (Only [] s)) ∧
    (∀ lost, Does (.paceOverrun t true n lost) s (fun u => (u.ap n).overrun = (s.ap n).overrun + lost ∧ others u ∧
      (∀ m r, (s.ac n m).rx = some r → (u.ac n m).rx = some { r with cand := { r.cand with broken := true } }) ∧
      Raised s u now 0x206 0x30 n [] ∧ Only [.air, .caps, .eth, .stw] s u))) ∧
  ∀ (t n lost : Nat) (s : State), s.pow.on = true → n < 24 → Does (.paceOverrun t false n lost) s (fun u =>
    (u.lp n).overrun = (s.lp n).overrun + lost ∧ (∀ k, k ≠ n → u.lp k = s.lp k) ∧
    (∀ m r, (s.ls n m).rx = some r → (u.ls n m).rx = some { r with cand := { r.cand with broken := true } }) ∧
    (∀ c ∈ s.caps, capturesOf 1 n c = true → { c with gap := true } ∈ u.caps) ∧
    Raised s u (max s.now t) 0x206 0x10 n [] ∧ Only [.plx, .caps, .eth, .stw] s u)

/-- Receiving on the air (09 R195, R199 to R202; 10 R208 to R212, R217; 14 R320): peaks and the candidates they begin or take over, the
PHR check of one candidate or of two at once, the FCS check with what an accepted frame, secured or not, sets going, the acknowledgement
320 us after its end, entries that lapse, and the duty bins. That an acknowledgement is skipped, and counted, where its own channel
transmits is the model's choice (log entry 154). -/
def Obligations.AirReceptionRuns : Prop :=
  (∀ (t n m : Nat) (s : State), s.pow.on = true → n < 16 →
    let now := max s.now t
    let up (u : State) (x : FRef) : Prop := u.reg x n = min (s.reg x n + 1) 0xFFFFFFFF
    let whole (k : Nat) : Prop := ∀ e, s.fau.holder (.airRx n m k) = some e → (s.fau.eng e).patch = none
    let pat := airPattern (s.reg F.airChCfgMod n m) (s.reg F.airChCfgSfd n m)
    let found (peak : AirPeak) : Prop := peak.peak.length = pat.length ∧
      isPeak (s.airThresh n) (airMetric pat peak.before) (airMetric pat peak.peak) (airMetric pat peak.after) = true
    (∀ (peak : AirPeak) (inst : Nat), s.chanOn n m = true → found peak → (s.tick t).airDeaf n m = false →
      let mine := airMetric pat peak.peak
      let c (k : Nat) : AirCand := { place := k, metric := mine, ts := inst - s.dRx n m - s.reg F.airLatRxNs n, broken := false }
      let new (k : Nat) : Prop :=
        ((s.place (.airRx n m k)).isSome = true → Does (.airPreamblePeak t n m peak inst) s (fun u => (u.ac n m).rx = none ∧
          (u.ac n m).cands = (s.ac n m).cands ++ [c k] ∧ (u.fau.holder (.airRx n m k)).isSome = true ∧ up u F.airCntCand ∧
          Only [.air, .fau, .regs] s u)) ∧
        (s.place (.airRx n m k) = none → Does (.airPreamblePeak t n m peak inst) s (fun u => up u F.airCntCdrop ∧
          Only [.air, .regs] s u))
      let late : Prop := Does (.airPreamblePeak t n m peak inst) s (fun u => up u F.airCntLate ∧ Only [.air, .fau, .regs] s u)
      ((s.ac n m).rx = none → (s.ac n m).cands = [] → whole 0 → new 0) ∧
      (∀ a, (s.ac n m).rx = none → (s.ac n m).cands = [a] →
        (metricWins mine a.metric = true → whole a.place → Does (.airPreamblePeak t n m peak inst) s (fun u =>
          (u.ac n m).cands = [c a.place] ∧ up u F.airCntPreempt ∧ up u F.airCntCand ∧ Only [.air, .fau, .regs] s u)) ∧
        (metricWins mine a.metric = false → whole (1 - a.place) → new (1 - a.place))) ∧
      (∀ a b, (s.ac n m).rx = none → (s.ac n m).cands = [a, b] →
        let low := if metricAbove a.metric b.metric then b else a
        metricWins mine low.metric = false → whole a.place → late) ∧
      (∀ r, (s.ac n m).rx = some r → whole r.cand.place → late)) ∧
    (∀ (peak : AirPeak) (inst : Nat), (s.chanOn n m = false → Does (.airPreamblePeak t n m peak inst) s (Only [] s)) ∧
      (¬found peak ∨ (s.tick t).airDeaf n m = true → Does (.airPreamblePeak t n m peak inst) s (fun u =>
        (u.ac n m).cands = (s.ac n m).cands ∧ (u.ac n m).rx = (s.ac n m).rx ∧ Only [.air] s u))) ∧
    (∀ (place : Nat) (head : AirHead) (c : AirCand), (s.ac n m).cands.find? (fun c => decide (c.place = place)) = some c →
      head.rival = none → whole place → ((s.tick t).phrDue n m c = true →
        (s.phrOk n m head.phr = true → c.broken = false → Does (.airPhrCheck t n m place head) s (fun u =>
          (u.ac n m).cands = [] ∧ (u.ac n m).rx = some { cand := c, phr := head.phr } ∧ Only [.air, .fau] s u)) ∧
        (s.phrOk n m head.phr = false ∨ c.broken = true → Does (.airPhrCheck t n m place head) s (fun u =>
          c ∉ (u.ac n m).cands ∧ up u F.airCntPhrFail ∧ (u.ac n m).rx = (s.ac n m).rx ∧ Only [.air, .fau, .regs, .lin] s u))) ∧
      ((s.tick t).phrDue n m c = false → Does (.airPhrCheck t n m place head) s (Only [.fau] s))) ∧
    (∀ (place phr : Nat) (head : AirHead) (c d : AirCand), (s.ac n m).cands.find? (fun c => decide (c.place = place)) = some c →
      d ≠ c → ((s.ac n m).cands = [c, d] ∨ (s.ac n m).cands = [d, c]) → head.rival = some phr → whole place →
      (s.tick t).phrDue n m c = true → (s.tick t).phrDue n m d = true →
      let x := s.phrOk n m head.phr && !c.broken
      let y := s.phrOk n m phr && !d.broken
      (∀ r : AirRx, (x = true ∧ r = { cand := c, phr := head.phr } ∧ (y = false ∨ metricAbove d.metric c.metric = false)) ∨
          (y = true ∧ r = { cand := d, phr := phr } ∧ (x = false ∨ metricAbove d.metric c.metric = true)) →
        Does (.airPhrCheck t n m place head) s (fun u => (u.ac n m).cands = [] ∧ (u.ac n m).rx = some r ∧
          u.reg F.airCntPhrFail n = min (s.reg F.airCntPhrFail n + (if x && y then 0 else 1)) 0xFFFFFFFF ∧
          Only [.air, .fau, .regs] s u)) ∧
      (x = false → y = false → Does (.airPhrCheck t n m place head) s (fun u => (u.ac n m).cands = [] ∧
        u.reg F.airCntPhrFail n = min (s.reg F.airCntPhrFail n + 2) 0xFFFFFFFF ∧ Only [.air, .fau, .regs, .lin] s u))) ∧
    (∀ (outs : List AirOut) (soft : List Int) (snr : Int),
      ((∀ r, (s.ac n m).rx = some r → now < s.airOutAt n m (s.airEnd n m r.phr r.cand.ts)) →
        Does (.airFcsCheck t n m outs soft snr) s (fun u => (u.ac n m).rx = (s.ac n m).rx ∧ Only [.air, .fau] s u)) ∧
      ∀ r : AirRx, (s.ac n m).rx = some r → s.airOutAt n m (s.airEnd n m r.phr r.cand.ts) ≤ now → whole r.cand.place →
        (r.mac soft = none → Does (.airFcsCheck t n m outs soft snr) s (fun u => (u.ac n m).rx = none ∧
          up u F.airCntFcsFail)) ∧
        ∀ (mac : List Byte) (f : MacFrame), r.mac soft = some mac →
          (macType mac = 0 → Does (.airFcsCheck t n m outs soft snr) s (fun u => (u.ac n m).rx = none ∧ up u F.airCntRxOk ∧
            Only [.air, .fau, .regs, .lin] s u)) ∧
          (macType mac ≠ 0 → macType mac ≠ 2 → macFrame mac = some f → s.macMatch f = false →
            Does (.airFcsCheck t n m outs soft snr) s (fun u => (u.ac n m).rx = none ∧ up u F.airCntAddrMiss ∧
              Only [.air, .fau, .regs, .lin] s u)) ∧
          (macFrame mac = some f → s.macMatch f = true → f.ackReq = true → f.broadcast = false →
            Does (.airFcsCheck t n m outs soft snr) s (fun u => ∃ a, (u.ac n m).ack = some a ∧
              a.fin = s.airEnd n m r.phr r.cand.ts ∧ a.mac.length = 4 ∧ octet a.mac 0 % 16 = 2 ∧ octet a.mac 2 = f.seq ∧
              (f.assocReq.isSome = true → a.opens = some f.src))) ∧
          (macFrame mac = some f → s.macMatch f = true → f.typ = 1 → f.sec = false → ascending s.air.sensors = true → ∀ k x, tget? s.stw.sess k = some x →
            bit x.kinds 1 = true → 55 + mac.length ≤ x.maxmsg → areaUsed s.stw.area + 39 + mac.length ≤ 2147483648 →
            Does (.airFcsCheck t n m outs soft snr) s (fun u => ∃ flags margin a, a ∈ u.stw.area ∧ a.id = s.stw.nextArea ∧
              a.body = recordBody 2 n m flags (s.senderShort f) f.seq ((s.senderExt f).getD 0) s.lin.epoch r.cand.ts margin 0 mac)) ∧
          (macFrame mac = some f → s.macMatch f = true → f.typ = 1 → f.sec = true → ascending s.air.sensors = true →
            Does (.airFcsCheck t n m outs soft snr) s (fun u => (u.ac n m).rx = none ∧ up u F.airCntRxOk ∧ ∃ margin,
              let q := s.airRecord 2 n m s.lin.epoch r.cand.ts margin f
              (∀ w, s.openJob true f.a0 f.rest (s.senderExt f) (s.senderShort f) (.record f.a0.length q) = some w → Offered w u) ∧
              (s.openJob true f.a0 f.rest (s.senderExt f) (s.senderShort f) (.record f.a0.length q) = none →
                u.reg F.cipCntUntrusted = min (s.reg F.cipCntUntrusted + 1) 0xFFFFFFFF ∧
                ∀ k x, tget? s.stw.sess k = some x → bit x.kinds 1 = true → 55 + mac.length ≤ x.maxmsg →
                  areaUsed s.stw.area + 39 + mac.length ≤ 2147483648 → ∃ a ∈ u.stw.area, a.id = s.stw.nextArea ∧
                    a.body = recordBody 2 n m (q.flags + 1) q.short q.seq q.ext q.epoch q.ns margin 0 mac))) ∧
          (∀ e, macFrame mac = some f → s.macMatch f = true → f.typ = 3 → s.senderEntry f = some e → ascending s.air.sensors = true →
            (f.sec = true → ∀ w, s.openJob true f.a0 f.rest (s.senderExt f) (s.senderShort f) (.command f.a0.length e.1) = some w →
              Does (.airFcsCheck t n m outs soft snr) s (fun u => (u.ac n m).rx = none ∧ Offered w u)) ∧
            (f.sec = false → f.rest.length = 2 → octet f.rest 0 = 3 →
              Does (.airFcsCheck t n m outs soft snr) s (fun u => (u.ac n m).rx = none ∧ u.sensor? e.1 = none))) ∧
          (∀ sleepy wake clk, macFrame mac = some f → s.macMatch f = true → f.assocReq = some (sleepy, wake, clk) →
            s.flag F.airMacCtlAssocOpen = true → s.sensorByExt f.src = none → s.air.sensors.length < 65533 →
            Does (.airFcsCheck t n m outs soft snr) s (fun u =>
              (∃ y, u.sensor? s.freeSensor = some y ∧ y.state = 2 ∧ y.ext = f.src ∧ y.sleepy = sleepy ∧ y.wakeMs = wake ∧
                y.clk = clk ∧ y.port = n ∧ y.chan = m) ∧
              ∃ d ∈ u.air.downs, d.job = .assoc ∧ d.ext = f.src ∧ d.short = s.freeSensor ∧ d.ackReq = true))) ∧
    (∀ a : AirAck, (s.ac n m).ack = some a →
      (a.fin + 320000 ≤ now → a.go = true → s.airServes n = true → s.chanSends n m = false →
        (s.ap n).sends.length < s.reg F.airTxMaxtx n → Does (.airAckSend t n m) s (fun u => (u.ac n m).ack = none ∧
          (∃ x, (u.ap n).sends = (s.ap n).sends ++ [x] ∧ x.chan = m ∧ x.what = .ack a.opens ∧ x.start = a.fin + 320000 ∧
            x.lane = x.start - s.reg F.airLatTxNs n ∧ x.pre = s.ackPre ∧ x.psdu = psduOf a.fcs4 a.dw a.mac) ∧ up u F.airCntAck ∧ up u F.airCntTx ∧
          (∀ k, a.short = some k → ∀ e ∈ u.sc.digests, e.short = k → e.seq ≠ octet a.mac 2) ∧
          Only [.air, .fau, .regs, .sc] s u)) ∧
      (a.fin + 320000 ≤ now → a.go = false ∨ s.airServes n = false ∨ s.chanSends n m = true ∨
          s.reg F.airTxMaxtx n ≤ (s.ap n).sends.length → Does (.airAckSend t n m) s (fun u =>
        (u.ac n m).ack = none ∧ (u.ap n).sends = (s.ap n).sends ∧ up u F.airCntAckSkip ∧ Only [.air, .regs, .lin] s u)) ∧
      (now < a.fin + 320000 → Does (.airAckSend t n m) s (Only [] s)))) ∧
  (∀ (t short : Nat) (x : Sensor) (s : State), s.pow.on = true → s.sensor? short = some x →
    (x.state = 2 → x.since + 600 * sec ≤ max s.now t → (s.ap x.port).served = true → Does (.assocLapse t short) s (fun u =>
      u.sensor? short = none ∧ (∀ k, k ≠ short → u.sensor? k = s.sensor? k) ∧
      ({ what := .sensor short none, ref := none } : LinWrite) ∈ u.lin.writes ∧ Only [.air, .lin] s u)) ∧
    (x.state ≠ 2 ∨ max s.now t < x.since + 600 * sec ∨ (s.ap x.port).served = false →
      Does (.assocLapse t short) s (Only [] s))) ∧
  ∀ (t : Nat) (s : State), s.pow.on = true →
    ((s.air.secs + 1) * sec ≤ max s.now t → Does (.dutyBinAdvance t) s (fun u => u.air.secs = s.air.secs + 1 ∧
      (∀ a, a < 16 → u.acct a = { s.acct a with pos := ((s.acct a).pos + 1) % 3600,
                                                bins := tdel (s.acct a).bins (((s.acct a).pos + 1) % 3600) }) ∧
      u.air.downs = s.air.downs ∧ u.air.sensors = s.air.sensors ∧ Only [.air] s u)) ∧
    (max s.now t < (s.air.secs + 1) * sec → Does (.dutyBinAdvance t) s (Only [] s))

/-- Sending on the air (04 R86; 10 R220, R225 to R232): beacons, tries with their acknowledgement windows, listen-before-
talk, pending windows and the 30 s limit of a downlink, from which no try starts. That an ASSOC_RESP is dropped at the end of its pending
window is the model's choice (log entry 230). -/
def Obligations.AirTransmissionsRun : Prop :=
  (∀ (t n : Nat) (s : State), s.pow.on = true → n < 16 →
    let now := max s.now t
    let begun (u : State) (d : AirDown) (p : AirPlan) (start : Nat) (mac : List Byte) : Prop :=
      ∃ x, x ∈ (u.ap n).sends ∧ x.what = .frame d.id ∧ x.chan = d.chan ∧ x.start = start ∧ x.pre = p.pre ∧
        x.psdu = psduOf (s.flag F.airChCfgFcs4 n d.chan) (s.flag F.airChCfgDw n d.chan) mac
    (∀ due, (s.ap n).bcnAt = some due → s.airServes n = true → s.flag F.airBcnEn n = true → due ≤ now →
      (∀ d ∈ s.air.downs, d.job ≠ .beacon ∧ d.id < s.air.nextId) →
      let m := s.reg F.airBcnChannel n
      let later (u : State) : Prop := (u.ap n).bcnAt = some (due + clamp 5 600 (s.reg F.airBcnPeriodDs n) * 100 * ms) ∧
        (u.ap n).bcnSeq = ((s.ap n).bcnSeq + 1) % 256
      (s.flag F.airChCfgEn n m = false ∨ due + 10 * ms < now → Does (.airBeaconDue t n) s (fun u => later u ∧ (u.ap n).sends = (s.ap n).sends ∧
        u.reg F.airCntBcnSkip n = min (s.reg F.airCntBcnSkip n + 1) 0xFFFFFFFF ∧ Only [.air, .regs] s u)) ∧
      (s.flag F.airChCfgEn n m = true → now ≤ due + 10 * ms → s.listenNs n m = none → s.flag F.airDutyCfgEn (s.acctOf n m) = false →
        (∀ d ∈ s.air.downs, d.port = n → d.holds = none) → (s.ap n).sends.length + (s.tick t).acksDue n < s.reg F.airTxMaxtx n →
        s.chanFree n m = true → Does (.airBeaconDue t n) s (fun u => later u ∧
          u.reg F.airCntTx n = min (s.reg F.airCntTx n + 1) 0xFFFFFFFF ∧ (∃ x, x ∈ (u.ap n).sends ∧
            x.what = .frame s.air.nextId ∧ x.chan = m ∧ x.start = now ∧ x.pre = s.chanPre n m ∧
            x.psdu = psduOf (s.flag F.airChCfgFcs4 n m) (s.flag F.airChCfgDw n m) (s.beaconMac n m (s.ap n).bcnSeq)) ∧
          Only [.air, .fau, .regs] s u))) ∧
    ((∀ due, (s.ap n).bcnAt = some due → now < due) ∨ s.airServes n = false ∨ s.flag F.airBcnEn n = false → Does (.airBeaconDue t n) s (Only [] s)) ∧
    ((∀ d ∈ s.air.downs, d.job ≠ .beacon ∨ now ≤ d.first + 10 * ms) →
      (∀ d ∈ s.air.downs, ∀ p, (s.tick t).readyDown n d = some p → (s.tick t).heardStale d p = false) →
      (∀ d p, s.airServes n = true → (s.tick t).nextSend n = some (d, p) → s.flag F.airChCfgEn n d.chan = true →
        (∀ e, d.expires = some e → now < e) → (s.tick t).slotFree n d = true → s.chanFree n d.chan = true →
        p.checked = true → ¬(p.way = 2 ∧ d.lastEnd ≠ 0 ∧ p.writing = true) →
        let start := if p.way ≤ 1 ∨ (p.way = 2 ∧ d.lastEnd = 0) then now else p.start
        Does (.airTxStart t n) s (fun u => begun u d p start (withPending false d.mac) ∧
          u.down? d.id = some { d with stage := .sending p, tries := if p.way = 2 ∧ d.lastEnd ≠ 0 then d.tries else d.tries + 1,
                                       first := start, pend := false } ∧ Only [.air, .fau, .regs] s u)) ∧
      (s.airServes n = false ∨ (s.tick t).nextSend n = none → Does (.airTxStart t n) s (Only [] s))) ∧
    (∀ m x, (s.ap n).sends.find? (fun x => decide (x.chan = m)) = some x →
      (x.fin ≤ now → Does (.airTxEnd t n m) s (fun u => x ∉ (u.ap n).sends ∧ (u.ac n m).quiet = x.fin + 20000 ∧
        Only [.air, .eth, .lin, .regs, .stw] s u ∧
        (∀ ext, x.what = .ack (some ext) → ∃ w ∈ u.air.windows, w.ext = ext ∧ w.start = x.fin ∧
          w.fin = x.fin + s.pendWinMs * ms ∧ w.port = n ∧ w.chan = m) ∧
        (∀ id d p, x.what = .frame id → s.down? id = some d → d.stage = .sending p → d.job ≠ .beacon → d.done = false →
          d.ackReq = true → p.way ≠ 2 ∨ p.left = 0 → u.down? id =
            some { d with airtime := d.airtime + (x.fin - x.start), lastEnd := x.fin, stage := .await }) ∧
        (∀ id d p ref, x.what = .frame id → s.down? id = some d → d.stage = .sending p → d.job = .host ref → d.done = false →
          d.ackReq = false → p.way ≠ 2 ∨ p.left = 0 → s.pairActive = true → ∀ g ∈ u.stw.flights, g.ref ≠ ref) ∧
        (∀ id d p, x.what = .frame id → s.down? id = some d → d.stage = .sending p → d.job = .beacon →
          u.down? id = none))) ∧
      (now < x.fin → Does (.airTxEnd t n m) s (Only [] s)))) ∧
  (∀ (t id : Nat) (d : AirDown) (s : State), s.pow.on = true → s.down? id = some d →
    let now := max s.now t
    let v := s.tick t
    let plan (u : State) (p : AirPlan) : Prop := u.down? id = some { d with stage := .planned p } ∧
      u.air.sensors = s.air.sensors ∧ ∀ k, (u.ap k).sends = (s.ap k).sends
    (d.stage = .await → s.airWindowEnd d ≤ now → (s.ac d.port d.chan).cands = [] → (s.ac d.port d.chan).rx = none →
      d.ackReq = true → d.done = false →
      (∀ ref, d.job = .host ref → s.airTries ≤ d.tries → s.pairActive = true → Does (.airAckWindowEnd t id) s (fun u =>
        (∀ e ∈ u.air.downs, e.id ≠ id) ∧ (∀ g ∈ u.stw.flights, g.ref ≠ ref) ∧
        (∀ y, d.copy = none → s.sensor? d.short = some y → u.sensor? d.short = some { y with txFail := y.txFail + 1 }) ∧
        Only [.air, .eth, .lin, .regs, .stw] s u)) ∧
      (∀ ref p, d.job = .host ref → d.tries < s.airTries → v.planFor { d with lastEnd := 0 } = some p → p.way ≠ 4 →
        Does (.airAckWindowEnd t id) s (fun u => u.down? id = some { d with lastEnd := 0, stage := .planned p } ∧
          u.stw = s.stw ∧ Only [.air, .lin, .regs] s u))) ∧
    (d.stage ≠ .await ∨ now < s.airWindowEnd d → Does (.airAckWindowEnd t id) s (Only [] s)) ∧
    (∀ p, d.stage = .planned p →
      (p.way = 3 → p.checked = false → p.listen.getD p.start ≤ now + 12 * ms →
        (s.flag F.airDutyCfgEn (s.acctOf d.port d.chan) = false → Does (.phaseTargetCheck t id) s (fun u =>
          plan u { p with checked := true, writing := false } ∧ Only [.air] s u)) ∧
        (∀ ref, s.flag F.airDutyCfgEn (s.acctOf d.port d.chan) = true → d.job = .host ref → d.done = false → s.pairActive = true →
          s.dutyAllowed (s.acctOf d.port d.chan) < s.spent (s.acctOf d.port d.chan) →
          Does (.phaseTargetCheck t id) s (fun u => (∀ e ∈ u.air.downs, e.id ≠ id) ∧ (∀ g ∈ u.stw.flights, g.ref ≠ ref) ∧
            Only [.air, .eth, .lin, .regs, .stw] s u))) ∧
      (p.way ≠ 3 ∨ p.checked = true ∨ now + 12 * ms < p.listen.getD p.start → Does (.phaseTargetCheck t id) s (Only [] s)) ∧
      (∀ outs : List AirOut,
        let w := v.takeAir d.port d.chan outs
        let busy (u : State) : Prop :=
          u.reg F.airCntLbtBusy d.port = min (s.reg F.airCntLbtBusy d.port + 1) 0xFFFFFFFF ∧ Only [.air, .regs] s u
        (p.heard = false → p.backoff = none → p.start ≤ now →
          (w.listenBusy d.port d.chan (p.listen.getD p.start) = false → Does (.lbtListenEnd t id outs) s (fun u =>
            plan u { p with heard := true } ∧ Only [.air] s u)) ∧
          (w.listenBusy d.port d.chan (p.listen.getD p.start) = true → d.job ≠ .beacon →
            (p.way < 3 → Does (.lbtListenEnd t id outs) s (fun u => busy u ∧
              ∃ b, now ≤ b ∧ b ≤ now + clamp 1 255 (s.reg F.airDutyLbtBackoffMs (s.acctOf d.port d.chan)) * ms ∧
                plan u { p with backoff := some b })) ∧
            (∀ x q, p.way = 3 → s.entryOf d = some x → w.phasePlan d x = some q → Does (.lbtListenEnd t id outs) s (fun u =>
              busy u ∧ plan u q)))) ∧
        (p.heard = true ∨ p.backoff.isSome = true ∨ now < p.start → Does (.lbtListenEnd t id outs) s (fun u => plan u p ∧
          Only [.air] s u))) ∧
      (∀ b, p.backoff = some b →
        (b ≤ now → Does (.lbtBackoffEnd t id) s (fun u => plan u { p with
            backoff := none, listen := some now, start := now + (s.listenNs d.port d.chan).getD 0 } ∧ Only [.air] s u)) ∧
        (now < b → Does (.lbtBackoffEnd t id) s (Only [] s))))) ∧
  (∀ (t ext : Nat) (s : State), s.pow.on = true →
    let now := max s.now t
    let due (d : AirDown) (p : AirPlan) : Prop := d.ext = ext ∧ d.stage = .planned p ∧ p.way = 4 ∧ p.start ≤ now ∧ p.heard = true
    (∀ d p, d ∈ s.air.downs → due d p → (∀ e q, e ∈ s.air.downs → due e q → e = d) → s.airServes d.port = true →
      p.writing = false → s.chanFree d.port d.chan = true → (s.tick t).slotFree d.port d = true →
      (∀ e, d.expires = some e → now < e) → Does (.pendingWindowSend t ext) s (fun u => (∃ x ∈ (u.ap d.port).sends, x.what = .frame d.id ∧ x.chan = d.chan ∧
          x.start = p.start ∧ x.psdu = psduOf (s.flag F.airChCfgFcs4 d.port d.chan) (s.flag F.airChCfgDw d.port d.chan)
            (withPending (s.moreFor d) d.mac)) ∧
        u.down? d.id = some { d with stage := .sending p, tries := d.tries + 1, first := p.start, pend := s.moreFor d } ∧
        Only [.air, .fau, .regs] s u)) ∧
    ((∀ d p, d ∈ s.air.downs → ¬due d p) → Does (.pendingWindowSend t ext) s (Only [] s)) ∧
    (∀ w, s.air.windows.find? (fun w => decide (w.ext = ext)) = some w →
      (w.fin ≤ now → Does (.pendingWindowEnd t ext) s (fun u => (∀ v ∈ u.air.windows, v.ext ≠ ext) ∧
        (∀ d ∈ s.air.downs, d.ext = ext → d.job = .assoc → d.stage = .queued → ∀ e ∈ u.air.downs, e.id ≠ d.id) ∧
        Only [.air, .eth, .lin, .regs, .stw] s u)) ∧
      (now < w.fin → Does (.pendingWindowEnd t ext) s (Only [] s)))) ∧
  ∀ (t slot tag : Nat) (f : Flight) (s : State), s.pow.on = true →
    s.stw.flights.find? (fun f => decide (f.slot = slot) && decide (f.tag = tag) &&
      (decide (f.opcode = 0x304) || decide (f.opcode = 0x402))) = some f →
    (f.time + 30 * sec ≤ max s.now t → s.pairActive = true → f.stage = .queued ∨ f.opcode = 0x304 ∨
        (∀ d ∈ s.air.downs, d.job = .host f.ref → d.done = false) → Does (.downlinkExpiry t slot tag) s (fun u =>
      (∀ g ∈ u.stw.flights, g.ref ≠ f.ref) ∧ Only [.air, .eth, .fau, .lin, .plx, .regs, .stw] s u)) ∧
    (max s.now t < f.time + 30 * sec → Does (.downlinkExpiry t slot tag) s (Only [] s))
/-! ## The cluster and the seam (11) -/

/-- Membership (11 R238 to R248, R258, R260; 18 R411, R413): roles, HELLO, joining and leaving, beacons and missed beacons; a seam
message that the device does not take changes nothing, and one that is discarded for its carrier or its VID is counted. That a manager or
deputy whose priority has become 0 leaves and starts anew in LISTENING, and that a deputy of priority 0 elects, is the model's choice (log
entry 208). -/
def Obligations.StationsJoinFollowAndLeave : Prop :=
  (∀ (t : Nat) (m : SeamMsg) (c : Instr) (s : State), s.pow.on = true → c ∈ seamArrivals t m →
    (s.seamStray m = true → Does c s (fun u => u = (s.tick t).bump F.ethEpCntRxdrop m.port)) ∧
    (s.seamStray m = false → s.takesSeam m = false ∨ s.sea.role = 0 → c ≠ .helloRx t m → Does c s (Only [] s))) ∧
  (∀ (t : Nat) (m : SeamMsg) (s : State), s.pow.on = true → s.seamStray m = false → s.forSeam m = false ∨ s.sea.role = 0 →
    Does (.helloRx t m) s (Only [] s)) ∧
  (∀ (t : Nat) (s : State), s.pow.on = true →
    let now := max s.now t
    let x := s.sea
    let v := s.tick t
    let quiet (c : Instr) : Prop := Does c s (Only [] s)
    (s.flag F.seaCtlEn = false → Does (.seaEnable t) s (fun u => u.flag F.seaCtlEn = true ∧
      RoleChanged s u now x.role 1 0 ∧ u.sea.entered = now ∧ u.sea.follow = none ∧ u.sea.deputy = none ∧ u.sea.list = [] ∧
      u.sea.waits = false ∧ u.sea.prio = s.reg F.seaCfgPriority ∧ u.sea.registry = x.registry ∧ u.sea.claims = x.claims ∧
      Only [.eth, .lin, .regs, .sc, .sea, .stw] s u)) ∧
    (s.flag F.seaCtlEn = true → quiet (.seaEnable t)) ∧
    (s.flag F.seaCtlEn = true → Does (.seaDisable t) s (fun u => u.flag F.seaCtlEn = false ∧ u.sea.role = 0 ∧
      (x.role ≠ 0 → RoleChanged s u now x.role 0 6 ∧ u.sea.follow = none ∧ u.sea.deputy = none ∧ u.sea.list = []) ∧
      (∀ k, x.role ≠ 0 → (x.role = 6 ∧ x.deputy = some k) ∨ (x.role ≠ 6 ∧ x.follow = some k) → Told s u k 5 []) ∧
      Only [.eth, .lin, .regs, .sc, .sea, .stw] s u)) ∧
    (s.flag F.seaCtlEn = false → quiet (.seaDisable t)) ∧
    (x.role ≠ 0 → x.hello + ms ≤ now →
      (s.reg F.seaCfgPriority ≠ 0 ∨ x.role < 4 ∨ x.role = 7 → Does (.helloDue t) s (fun u =>
        u.sea.hello = (if x.hello + 2 * ms ≤ now then now else x.hello + ms) ∧ u.sea.role = x.role ∧
        u.sea.prio = s.reg F.seaCfgPriority ∧ Cast s u 0 2 (be 1 x.role ++ be 1 (s.reg F.seaCfgPriority) ++ be 6 (s.macOf 0) ++
          be 6 (s.macOf 1) ++ be 1 (b2n x.valid) ++ zeros 1) ∧ Only [.eth, .sea] s u)) ∧
      (s.reg F.seaCfgPriority = 0 → x.role = 4 ∨ x.role = 5 ∨ x.role = 6 → Does (.helloDue t) s (fun u =>
        RoleChanged s u now x.role 1 6 ∧ u.sea.prio = 0 ∧
        (∀ k, (x.role = 6 ∧ x.deputy = some k) ∨ (x.role ≠ 6 ∧ x.follow = some k) → Told s u k 5 []) ∧
        Only [.eth, .sc, .sea, .stw] s u))) ∧
    (x.role = 0 ∨ now < x.hello + ms → quiet (.helloDue t)) ∧
    (∀ k y, tget? x.list k = some y →
      (x.role = 6 → y.heard + 10 * ms ≤ now → Does (.memberSilent t k) s (fun u => tget? u.sea.list k = none ∧
        (∀ j, j ≠ k → tget? u.sea.list j = tget? x.list j) ∧ Raised s u now 0x603 0x70 0 (be 2 k ++ be 1 1) ∧
        (if x.deputy = some k then u.sea.deputy ≠ some k ∧ u.sea.synced = false else u.sea.deputy = x.deputy) ∧
        Only [.eth, .sea, .stw] s u)) ∧
      (x.role ≠ 6 ∨ now < y.heard + 10 * ms → quiet (.memberSilent t k))) ∧
    (x.role = 1 → x.entered + 3 * ms ≤ now → s.anyUp = true → Does (.listenTimeout t) s (fun u => RoleChanged s u now 1 7 8 ∧
      u.sea.entered = now ∧ u.sea.electNext = now ∧ u.sea.heard = [] ∧ u.sea.keepReg = false ∧ Only [.eth, .sea, .stw] s u)) ∧
    (x.role ≠ 1 ∨ now < x.entered + 3 * ms ∨ s.anyUp = false → quiet (.listenTimeout t)) ∧
    (∀ k, x.follow = some k → x.role = 2 → x.joinNext ≤ now → Does (.seamJoinReqDue t) s (fun u =>
      u.sea.joinNext = now + (if x.refused = true then 100 * ms else ms) ∧ Told s u k 3 s.helloBody ∧
      Only [.eth, .sea] s u)) ∧
    (x.role ≠ 2 ∨ now < x.joinNext → quiet (.seamJoinReqDue t)) ∧
    (x.role = 6 → x.beacon ≤ now → Does (.clusterBeaconDue t) s (fun u => Cast s u 0 1 v.beaconBody ∧
      u.sea.beacon = x.beacon + s.periodUs * us ∧ u.sea.registry = x.registry ∧
      (∀ k n, x.yield = some (k, n) → (1 < n → u.sea.role = 6 ∧ u.sea.yield = some (k, n - 1)) ∧ (n ≤ 1 → u.sea.role = 1)) ∧
      (∀ k y, x.yield = none → x.deputy = none → tget? x.list k = some y → y.prio ≠ 0 → u.sea.role = 6 ∧
        u.sea.bulk = some (x.change, x.registry) ∧ ∃ d z, u.sea.deputy = some d ∧ (d, z) ∈ x.list ∧ z.prio ≠ 0 ∧ Told s u d 6 []) ∧
      Only [.eth, .sc, .sea, .stw] s u)) ∧
    (x.role ≠ 6 ∨ now < x.beacon → quiet (.clusterBeaconDue t)) ∧
    (∀ d, x.deadline = some d → x.role = 3 ∨ x.role = 4 ∨ x.role = 5 → d ≤ now → Does (.beaconMiss t) s (fun u =>
      u.reg F.seaMiss = min (s.reg F.seaMiss + 1) 0xFFFFFFFF ∧
      (x.misses ≠ 2 ∨ s.anyUp = false → u.sea = { x with misses := x.misses + 1 }) ∧
      (x.misses = 2 → s.anyUp = true → (x.role = 5 → s.prio ≠ 0 → RoleChanged s u now 5 6 1 ∧
          u.sea.takeover = now + ms ∧ u.sea.registry = x.registry) ∧
        (x.role = 5 → s.prio = 0 → RoleChanged s u now 5 7 8) ∧
        (x.role ≠ 5 → u.sea.role = x.role ∧ u.sea.misses = 3 ∧ u.sea.follow = x.follow ∧
          u.sea.also = (if x.role = 3 then x.deputy else none) ∧ u.sea.limit = now + 3 * x.period * us + 24 * us)) ∧
      Only [.eth, .lin, .regs, .sea, .stw] s u)) ∧
    ((x.role ≠ 3 ∧ x.role ≠ 4 ∧ x.role ≠ 5) ∨ (∀ d, x.deadline = some d → now < d) → quiet (.beaconMiss t)) ∧
    (x.role = 3 ∨ x.role = 4 → 3 ≤ x.misses → x.limit ≤ now → s.anyUp = true → Does (.takeoverTimeout t) s (fun u =>
      RoleChanged s u now x.role 7 8 ∧ u.sea.follow = none ∧ u.sea.keepReg = decide (x.role = 4) ∧
      Only [.eth, .sea, .stw] s u)) ∧
    ((x.role ≠ 3 ∧ x.role ≠ 4) ∨ x.misses < 3 ∨ now < x.limit → quiet (.takeoverTimeout t))) ∧
  ∀ (t : Nat) (m : SeamMsg) (s : State), Takes s m →
    let now := max s.now t
    let x := s.sea
    let b := m.body
    (b.length = 16 → Does (.helloRx t m) s (fun u => (∃ y, tget? u.sea.peers m.station = some y ∧ y.role = octet b 0 ∧
        y.prio = octet b 1 ∧ y.mac0 = beAt b 2 6 ∧ y.mac1 = beAt b 8 6 ∧ y.heard = now ∧
        ∃ a, tget? y.addrs m.port = some a ∧ a.mac = m.src.mac ∧ (m.src.udp = true → a = m.src)) ∧
      (x.role = 6 → x.deputy = some m.station → octet b 0 = 5 → u.sea.synced = true) ∧ u.sea.role = x.role ∧ Only [.sea] s u)) ∧
    (x.role = 6 → b.length = 16 →
      (tget? x.list m.station = none → m.station ≠ s.station → Does (.seamJoinReq t m) s (fun u =>
        (∃ y, tget? u.sea.list m.station = some y ∧ y.role = octet b 0 ∧ y.prio = octet b 1 ∧ y.mac0 = beAt b 2 6 ∧
          y.mac1 = beAt b 8 6 ∧ y.heard = now) ∧
        Told s u m.station 4 (be 1 0 ++ zeros 1 ++ be 2 (orNone x.deputy) ++ be 4 u.members) ∧
        Raised s u now 0x602 0x70 0 (be 2 m.station ++ be 1 (octet b 0) ++ be 1 (octet b 1) ++ be 6 (beAt b 2 6) ++
          be 6 (beAt b 8 6)) ∧
        (x.deputy = none → x.yield = none → octet b 1 ≠ 0 → u.sea.deputy.isSome = true) ∧ u.sea.role = 6 ∧
        Only [.eth, .sea, .stw] s u)) ∧
      (∀ y, tget? x.list m.station = some y → Does (.seamJoinReq t m) s (fun u => u.sea.list = x.list ∧ u.sea.role = 6 ∧
        Told s u m.station 4 (s.joinAck (if y.mac0 = beAt b 2 6 ∧ y.mac1 = beAt b 8 6 then 0 else 1)) ∧
        Only [.eth, .sea] s u))) ∧
    (x.role = 2 → x.follow = some m.station → b.length = 8 →
      (octet b 0 = 0 → Does (.joinAck t m) s (fun u => RoleChanged s u now 2 3 0 ∧ u.sea.count = beAt b 4 4 ∧
        u.sea.deputy = (if beAt b 2 2 = 0xFFFF then none else some (beAt b 2 2)) ∧ u.sea.misses = 0 ∧
        Only [.eth, .sea, .stw] s u)) ∧
      (octet b 0 = 1 → Does (.joinAck t m) s (fun u => u.sea.role = 2 ∧ u.sea.refused = true ∧ u.sea.joinNext = now + 100 * ms ∧
        (x.refused = false → RoleChanged s u now 2 2 7) ∧ Only [.eth, .sea, .stw] s u))) ∧
    (∀ y, x.role = 6 → tget? x.list m.station = some y → Does (.seamLeave t m) s (fun u => tget? u.sea.list m.station = none ∧
      Raised s u now 0x603 0x70 0 (be 2 m.station ++ be 1 0) ∧ u.sea.deputy ≠ some m.station ∧ Only [.eth, .sea, .stw] s u)) ∧
    (x.follow = some m.station → (x.role = 5 → s.prio ≠ 0 → Does (.seamLeave t m) s (fun u => RoleChanged s u now 5 6 1 ∧
        u.sea.takeover = now + ms ∧ u.sea.registry = x.registry ∧ Only [.eth, .lin, .regs, .sea, .stw] s u)) ∧
      (x.role = 4 → s.anyUp = true → Does (.seamLeave t m) s (fun u => RoleChanged s u now 4 7 8 ∧ u.sea.keepReg = true ∧
        Only [.eth, .sea, .stw] s u))) ∧
    (b.length = 28 → m.station ≠ s.station →
      let k := if bit (octet b 16) 3 then beAt b 20 2 else beAt b 12 2
      (x.role = 1 → Does (.clusterBeaconRx t m) s (fun u => RoleChanged s u now 1 2 0 ∧ u.sea.follow = some k ∧
        u.sea.joinNext = now ∧ Only [.eth, .sea, .stw] s u)) ∧
      (x.role = 7 → Does (.clusterBeaconRx t m) s (fun u => RoleChanged s u now 7 2 (if bit (octet b 16) 2 then 2 else 0) ∧
        u.sea.follow = some k ∧ Only [.eth, .sea, .stw] s u)) ∧
      (x.role = 6 → x.deputy = some m.station → Does (.clusterBeaconRx t m) s (fun u => RoleChanged s u now 6 1 1 ∧
        u.sea.follow = none ∧ u.sc.groups = [] ∧ Only [.eth, .sc, .sea, .stw] s u)) ∧
      (x.role = 6 → x.deputy ≠ some m.station → Does (.clusterBeaconRx t m) s (fun u => u.sea.role = 6 ∧ Only [.sea] s u ∧
        u.sea.yield = if keyOf s.prio s.station < keyOf (octet b 17) m.station ∧ x.yield = none then some (m.station, 4)
          else x.yield)) ∧
      (x.role = 2 ∨ x.role = 3 ∨ x.role = 4 ∨ x.role = 5 →
        (x.follow = some m.station → x.later (beAt b 4 8) = true → bit (octet b 16) 3 = false →
          Does (.clusterBeaconRx t m) s (fun u => u.sea.role = x.role ∧ u.sea.follow = x.follow ∧ u.sea.arrival = some now ∧
            u.sea.lastCns = some (beAt b 4 8) ∧ u.sea.period = beAt b 18 2 ∧ u.sea.misses = 0 ∧ u.sea.also = none ∧ u.sea.count = beAt b 24 4 ∧
            u.sea.valid = true ∧ (∀ d, x.path = some d → u.sea.cepoch = beAt b 0 4 ∧ u.sea.cbase = beAt b 4 8 + d ∧
              u.sea.cat = now) ∧ Only [.eth, .sea] s u)) ∧
        (x.follow = some m.station → x.later (beAt b 4 8) = true → bit (octet b 16) 3 = true →
          Does (.clusterBeaconRx t m) s (fun u => RoleChanged s u now x.role 2 5 ∧ u.sea.follow = some (beAt b 20 2) ∧
            Only [.eth, .sea, .stw] s u)) ∧
        ((x.follow ≠ some m.station ∧ (x.also ≠ some m.station ∨ x.limit < now)) ∨ x.later (beAt b 4 8) = false →
          Does (.clusterBeaconRx t m) s (fun u => u.sea = { x with recent := u.sea.recent } ∧ Only [.sea] s u))))

/-- The cluster's duties (11 R248 to R257): the deputy's copy and its mirror, home claims, elections, path delay, and the
lapse of cluster time. The model's choices: a claim at a full registry changes nothing (log entry 209); the path delay is reckoned from
the last valid BEACON (log entry 49); the entries of a MIRROR out of order are not applied (log entry 141); the number of the change up
to which a copy goes, and which of its entries have come, are free (log entry 211). -/
def Obligations.RegistryClaimsAndElectionsRun : Prop :=
  (∀ (t : Nat) (m : SeamMsg) (s : State), Takes s m →
    let now := max s.now t
    let x := s.sea
    let b := m.body
    (x.role = 3 → x.follow = some m.station → s.prio ≠ 0 → Does (.deputyAppoint t m) s (fun u => RoleChanged s u now 3 4 3 ∧
      u.sea.registry = [] ∧ u.sea.copied = [] ∧ u.sea.since = [] ∧ u.sea.applied.isSome = true ∧ u.sea.deputy = some s.station ∧ Only [.eth, .sea, .stw] s u)) ∧
    (x.role = 4 ∨ x.role = 5 → x.follow = some m.station → 36 ≤ b.length → Does (.mirror t m) s (fun u =>
      let r := applyMirror x.registry x.applied (beAt b 0 4) (entriesOf (b.drop 4))
      u.sea.registry = r.1 ∧ u.sea.applied = r.2 ∧ (∀ n, r.2 = some n → Told s u m.station 8 (be 4 n)) ∧
      (b.length = 36 → ∀ n e y, x.applied = some n → beAt b 0 4 = n + 1 → entryOf (b.drop 4) = (e, y) → y.kind ≠ 0 →
        tget? u.sea.registry e = some y) ∧ Only [.eth, .sea] s u)) ∧
    (x.role = 6 → x.deputy = some m.station → b.length = 4 → Does (.mirrorAck t m) s (fun u =>
      u.sea.mirrors = x.mirrors.filter (fun y => decide (beAt b 0 4 < y.num)) ∧ u.sea.mirrorHeard = now ∧
      (∀ w ∈ x.mwaits, w.num ≤ beAt b 0 4 → (∀ ref, w.what = .put ref → s.pairActive = true → ∀ g ∈ u.stw.flights, g.ref ≠ ref) ∧
        (∀ k ext, w.what = .claim k ext → Told s u k 0x0A (be 8 ext))) ∧ u.sea.registry = x.registry ∧
      Only [.eth, .sea, .stw] s u)) ∧
    (x.role = 6 → b.length = 32 → ∀ ext e, entryOf b = (ext, e) →
      (applyClaim (tget? x.registry ext) m.station e = none → Does (.homeClaim t m) s (fun u => u.sea.registry = x.registry ∧
        Told s u m.station 0x0A (be 8 ext) ∧ Only [.eth, .sea, .stw] s u)) ∧
      (∀ y, applyClaim (tget? x.registry ext) m.station e = some y → s.regFull ext y.kind = true → Does (.homeClaim t m) s (fun u =>
        u.sea.registry = x.registry ∧ Told s u m.station 0x0A (be 8 ext) ∧ Only [.eth, .sea, .stw] s u)) ∧
      (∀ y, applyClaim (tget? x.registry ext) m.station e = some y → s.regFull ext y.kind = false → Does (.homeClaim t m) s (fun u =>
        u.sea.registry = putEntry x.registry ext y ∧ u.sea.change = x.change + 1 ∧
        (x.synced = false → Told s u m.station 0x0A (be 8 ext)) ∧
        (∀ d, x.deputy = some d → Told s u d 7 (be 4 (x.change + 1) ++ entryBytes ext y (zeros 1)) ∧
          ({ num := x.change + 1, ext := ext, entry := y, sent := now } : MirrorItem) ∈ u.sea.mirrors) ∧
        Only [.eth, .sea, .stw] s u)) ∧
      (tget? x.registry ext = none → e.home ≠ 0xFFFF → e.kind ≠ 0 → x.registry.length < 268435456 → Does (.homeClaim t m) s (fun u =>
        tget? u.sea.registry ext = some { e with home := m.station, key := 0 }))) ∧
    (x.follow = some m.station → b.length = 8 → Does (.claimAck t m) s (fun u => Only [.sea] s u ∧
      (∀ c ∈ x.claims, c.ext = beAt b 0 8 → c.entry.home ≠ 0xFFFF → { c with acked := true } ∈ u.sea.claims) ∧
      (∀ c ∈ u.sea.claims, c.ext = beAt b 0 8 → c.entry.home ≠ 0xFFFF ∧ c.acked = true) ∧
      ∀ c ∈ x.claims, c.ext ≠ beAt b 0 8 → c ∈ u.sea.claims)) ∧
    (x.role = 7 → b.length = 8 → octet b 0 ≠ 0 → Does (.electRx t m) s (fun u =>
      tget? u.sea.heard m.station = some (octet b 0) ∧ u.sea.role = 7 ∧ Only [.sea] s u)) ∧
    (x.role = 6 → b.length = 16 → Does (.delayReq t m) s (fun u => u.sea.role = 6 ∧ Only [.eth, .sea] s u ∧
      Told s u m.station 0x0D (cut b 0 8 ++ be 8 (s.tick t).ctime))) ∧
    (x.follow = some m.station → b.length = 16 → Does (.delayResp t m) s (fun u => Only [.sea] s u ∧
      (∀ a c, x.arrival = some a → x.lastCns = some c →
        u.sea.path = some (((beAt b 8 8 : Int) - beAt b 0 8 + ((a : Int) - c)) / 2).toNat) ∧
      (x.arrival = none ∨ x.lastCns = none → u.sea.path = x.path)))) ∧
  ∀ (t : Nat) (s : State), s.pow.on = true →
    let now := max s.now t
    let x := s.sea
    let quiet (c : Instr) : Prop := Does c s (Only [] s)
    (∀ last copy, x.role = 4 → Does (.deputySyncDone t last copy) s (fun u => RoleChanged s u now 4 5 4 ∧
      u.sea.applied = some (if x.since.isEmpty then last else max last (x.applied.getD 0)) ∧ u.sea.since = [] ∧ u.sea.copied = [] ∧
      u.sea.registry = (x.since.reverse.filter fun c => decide (last < c.1)).foldl (fun r c => putEntry r c.2.1 c.2.2)
        ((entriesOf copy).foldl (fun r e => putEntry r e.1 e.2) []) ∧
      Only [.eth, .sea, .stw] s u)) ∧
    (∀ last copy, x.role ≠ 4 → quiet (.deputySyncDone t last copy)) ∧
    (∀ d, x.deputy = some d → x.role = 6 →
      ((∃ y ∈ x.mirrors, y.sent + 10 * us ≤ now) → Does (.mirrorResend t) s (fun u =>
        (∀ y ∈ x.mirrors, y.sent + 10 * us ≤ now → Told s u d 7 (mirrorBody [y]) ∧ { y with sent := now } ∈ u.sea.mirrors) ∧
        u.sea.mirrors.length = x.mirrors.length ∧ Only [.eth, .sea] s u)) ∧
      (x.mirrors ≠ [] → x.mirrorHeard + 200 * us ≤ now → Does (.mirrorTimeout t) s (fun u => tget? u.sea.list d = none ∧
        u.sea.deputy ≠ some d ∧ u.sea.synced = false ∧ Raised s u now 0x603 0x70 0 (be 2 d ++ be 1 1) ∧
        Only [.eth, .sea, .stw] s u))) ∧
    (x.deputy = none ∨ x.role ≠ 6 ∨ (∀ y ∈ x.mirrors, now < y.sent + 10 * us) → quiet (.mirrorResend t)) ∧
    (x.deputy = none ∨ x.role ≠ 6 ∨ x.mirrors = [] ∨ now < x.mirrorHeard + 200 * us → quiet (.mirrorTimeout t)) ∧
    (∀ ext c k, x.claims.find? (fun c => decide (c.ext = ext) && !c.acked) = some c → x.valid = true → c.timed = true →
      x.role = 3 ∨ x.role = 4 ∨ x.role = 5 → x.follow = some k →
      ((∀ u, c.sent = some u → u + ms ≤ now) → Does (.claimResend t ext) s (fun u =>
        Told s u k 9 (entryBytes ext { c.entry with home := if c.entry.home = 0xFFFF then 0xFFFF else s.station } (zeros 1)) ∧
        { c with sent := some now, acked := false } ∈ u.sea.claims ∧ Only [.eth, .sea] s u)) ∧
      (∀ u, c.sent = some u → now < u + ms → quiet (.claimResend t ext))) ∧
    (x.role = 7 → s.reg F.seaCfgPriority ≠ 0 → x.electNext ≤ now → now < x.entered + 1500 * us → Does (.electDue t) s (fun u =>
      u.sea.electNext = x.electNext + 100 * us ∧ u.sea.role = 7 ∧ u.sea.prio = s.reg F.seaCfgPriority ∧
      Cast s u 1 0x0B (be 1 (s.reg F.seaCfgPriority) ++ be 1 (b2n x.valid) ++ zeros 6) ∧
      Only [.eth, .sea] s u)) ∧
    (x.role ≠ 7 ∨ s.reg F.seaCfgPriority = 0 ∨ now < x.electNext ∨ x.entered + 1500 * us ≤ now → quiet (.electDue t)) ∧
    (x.role = 7 → x.entered + 1500 * us ≤ now → s.prio ≠ 0 → s.anyUp = true →
      (x.heard.all fun e => decide (keyOf e.2 e.1 < keyOf s.prio s.station)) = true → Does (.electionClose t) s (fun u =>
        RoleChanged s u now 7 6 2 ∧ u.sea.elected = now + ms ∧ u.sea.valid = true ∧
        (x.claims = [] → x.keepReg = false → u.sea.registry = []) ∧
        (x.claims = [] → x.keepReg = true → u.sea.registry = x.withCopy 0 x.copied) ∧
        u.reg F.fauCntUnmasked = min (s.reg F.fauCntUnmasked + 1) 0xFFFFFFFF ∧
        (LogRoom s → Logged u 0x60 0x70 0 1 9 255) ∧
        Reported s u 1 now 0x604 0x70 0 (be 2 s.station ++ be 1 (min 255 x.heard.length) ++ be 1 (b2n !x.valid) ++
          be 4 u.members) ∧
        Only [.eth, .fau, .lin, .regs, .sea, .stw] s u)) ∧
    (x.role ≠ 7 ∨ now < x.entered + 1500 * us ∨ s.prio = 0 ∨ s.anyUp = false → quiet (.electionClose t)) ∧
    ((∃ e ∈ x.heard, keyOf s.prio s.station ≤ keyOf e.2 e.1) → quiet (.electionClose t)) ∧
    (∀ k, x.follow = some k → x.role = 2 ∨ x.role = 3 ∨ x.role = 4 ∨ x.role = 5 → x.delayNext ≤ now → Does (.delayReqDue t) s (fun u =>
      u.sea.delayNext = x.delayNext + 100 * ms ∧ u.sea.role = x.role ∧ Told s u k 0x0C (be 8 now ++ zeros 8) ∧
      Only [.eth, .sea] s u)) ∧
    (x.follow = none ∨ now < x.delayNext → quiet (.delayReqDue t)) ∧
    (x.role ≠ 6 → x.valid = true → (∀ a, x.arrival = some a → a + sec ≤ now) → Does (.clusterTimeLapse t) s (fun u =>
      u.sea = { x with valid := false } ∧ Only [.sea] s u)) ∧
    (x.role = 6 ∨ x.valid = false ∨ (∃ a, x.arrival = some a ∧ now < a + sec) → quiet (.clusterTimeLapse t))

/-- Soft combining (12 R265 to R273, R276, R277; 14 R332): fragments open and fill groups at the manager, groups close after a last
attempt, whose check is a job of the check units, results go to the home and are acknowledged, and digest entries lapse. That the
addresses are matched before the association, which decides between STATUS 1 and 2, is the model's choice (log entry 74), and so is it
that no attempt is made while no check unit is in service (log entry 241). -/
def Obligations.SoftCombiningRuns : Prop :=
  (∀ (t : Nat) (m : SeamMsg) (s : State), Takes s m →
    let now := max s.now t
    let b := m.body
    let h := scHead b
    let data := b.drop 32
    let whole : Prop := 33 ≤ b.length ∧ beAt b 30 2 = data.length ∧ data.length ≤ 1408 ∧ octet b 26 / 16 ≤ 3
    let answer (u : State) (status : Nat) : Prop := Told s u m.station 0x12 (be 2 (beAt b 26 2) ++ be 1 status ++ zeros 1)
    (s.sea.role ≠ 6 → Does (.scMetrics t m) s (Only [.sea] s)) ∧
    (s.sea.role = 6 → s.flag F.seaScCtlEn = false → Does (.scMetrics t m) s (fun u =>
      u.reg F.seaScCntDrop = min (s.reg F.seaScCntDrop + 1) 0xFFFFFFFF ∧ Only [.regs, .sea] s u)) ∧
    (s.sea.role = 6 → s.flag F.seaScCtlEn = true → ¬whole → Does (.scMetrics t m) s (Only [.sea] s)) ∧
    (s.sea.role = 6 → s.flag F.seaScCtlEn = true → whole → s.holds m.station h.rxid = none →
      (∀ e ∈ s.sc.gone, e.1 ≠ m.station ∨ e.2.1 ≠ h.rxid) → s.groupFor m.station h = none →
      (s.sc.groups.filter fun g => decide (g.closed = none)).length < 1024 → (∀ g ∈ s.sc.groups, g.num ≠ s.sc.nextGroup) →
      Does (.scMetrics t m) s (fun u => u.sc.nextGroup = s.sc.nextGroup + 1 ∧ Only [.sc, .sea] s u ∧
        (∀ g ∈ s.sc.groups, g ∈ u.sc.groups) ∧ ∃ g c, g ∈ u.sc.groups ∧ g.num = s.sc.nextGroup ∧ g.ref = h.cns ∧
          g.cepoch = h.cepoch ∧ g.freq = h.freq ∧ g.phy = h.phy ∧ g.phr = h.phr ∧ g.won = false ∧ g.closed = none ∧
          g.copies = [c] ∧ c.station = m.station ∧ c.rxid = h.rxid ∧ c.snr = h.snr ∧
          ∀ i, i < data.length → beAt b 28 2 + i < phrLen h.phr →
            tget? (tget [] c.planes (octet b 26 / 16)) (beAt b 28 2 + i) = data[i]?)) ∧
    (∀ g, s.sea.role = 6 → s.flag F.seaScCtlEn = true → whole → s.holds m.station h.rxid = some g → g.closed.isSome = true →
      Does (.scMetrics t m) s (fun u => u.reg F.seaScCntLate = min (s.reg F.seaScCntLate + 1) 0xFFFFFFFF ∧
        Only [.regs, .sea] s u)) ∧
    (s.sea.follow = some m.station → 28 ≤ b.length →
      (macFrame (b.drop 28) = none → Does (.scResult t m) s (fun u => answer u 1 ∧ Only [.eth, .sea] s u)) ∧
      ∀ f, macFrame (b.drop 28) = some f →
        (s.macMatch f = false → Does (.scResult t m) s (fun u => answer u 1 ∧ Only [.eth, .sea] s u)) ∧
        (s.macMatch f = true → s.sensorByExt (beAt b 12 8) = none → Does (.scResult t m) s (fun u => answer u 2 ∧
          Only [.eth, .sea] s u)) ∧
        (∀ short y, s.macMatch f = true → s.sensorByExt (beAt b 12 8) = some (short, y) → y.state ≠ 1 →
          Does (.scResult t m) s (fun u => answer u 2 ∧ Only [.eth, .sea] s u)) ∧
        (∀ short y, s.macMatch f = true → s.sensorByExt (beAt b 12 8) = some (short, y) → s.sensor? short = some y →
          y.state = 1 → f.typ = 1 → f.sec = false → Does (.scResult t m) s (fun u => answer u 0 ∧
            (∀ k x, tget? s.stw.sess k = some x → bit x.kinds 2 = true → 55 + (b.drop 28).length ≤ x.maxmsg →
              areaUsed s.stw.area + 39 + (b.drop 28).length ≤ 2147483648 → ∃ flags a, a ∈ u.stw.area ∧
                a.id = s.stw.nextArea ∧ a.body = recordBody 3 y.port y.chan flags (s.senderShort f) f.seq
                  ((s.senderExt f).getD 0) (beAt b 0 4) (beAt b 4 8) (octet b 23) 0 (b.drop 28)) ∧
            (y.digest = true → f.ackReq = true → f.broadcast = false →
              ({ short := short, seq := f.seq, margin := octet b 23, born := now, hold := s.holdNs } : DigestEntry) ∈ u.sc.digests)))) ∧
    (∀ r, b.length = 4 → s.resultOf (beAt b 0 2) = some r → r.home = m.station → Does (.scResultAck t m) s (fun u =>
      r ∉ u.sc.results ∧ (octet b 2 ≠ 2 → Only [.sc, .sea] s u))) ∧
    (b.length ≠ 4 ∨ s.resultOf (beAt b 0 2) = none → Does (.scResultAck t m) s (Only [.sea] s))) ∧
  ∀ (t num : Nat) (s : State), s.pow.on = true →
    let now := max s.now t
    (∀ g, s.group? num = some g →
      (g.closed = none → g.closeAt ≤ (s.tick t).ctime → Does (.groupClose t num) s (fun u =>
        (∃ g', g' ∈ u.sc.groups ∧ g'.num = num ∧ g'.closed = some now) ∧
        (g.won = true ∨ g.copies.length < 2 → g.tried.length < 2 → Only [.sc] s u) ∧
        (g.won = false → 2 ≤ g.parts.length → s.checkUnit = true → g.attempt = none →
          u.reg F.seaScCntGroup = min (s.reg F.seaScCntGroup + 1) 0xFFFFFFFF ∧
          u.reg F.seaScCntFail = min (s.reg F.seaScCntFail + 1) 0xFFFFFFFF ∧
          u.reg F.chkCntJobs = min (s.reg F.chkCntJobs + 1) 0xFFFFFFFF ∧ Only [.regs, .sc, .cip] s u) ∧
        (g.won = false → 2 ≤ g.parts.length → s.checkUnit = false →
          u.reg F.seaScCntGroup = min (s.reg F.seaScCntGroup + 1) 0xFFFFFFFF ∧
          u.reg F.seaScCntFail = min (s.reg F.seaScCntFail + (if 2 ≤ g.tried.length then 1 else 0)) 0xFFFFFFFF ∧
          Only [.regs, .sc] s u) ∧
        (g.won = false → 2 ≤ g.parts.length → s.checkUnit = true → g.attempt.isSome = true →
          u.reg F.seaScCntOk = min (s.reg F.seaScCntOk + 1) 0xFFFFFFFF ∧
          u.reg F.seaScCntGroup = min (s.reg F.seaScCntGroup + 1) 0xFFFFFFFF))) ∧
      (g.closed.isSome = true ∨ (s.tick t).ctime < g.closeAt → Does (.groupClose t num) s (Only [] s))) ∧
    (∀ r, s.resultOf num = some r →
      (r.sent + ms ≤ now → r.resends < 4 → Does (.scResultResend t num) s (fun u => Told s u r.home 0x11 r.body ∧
        { r with sent := now, resends := r.resends + 1 } ∈ u.sc.results ∧ Only [.eth, .sc, .sea] s u)) ∧
      (r.sent + ms ≤ now → 4 ≤ r.resends → Does (.scResultResend t num) s (fun u => r ∉ u.sc.results)) ∧
      (now < r.sent + ms → Does (.scResultResend t num) s (Only [] s))) ∧
    ∀ seq, Does (.digestExpiry t num seq) s (fun u => Only [.sc] s u ∧ u.sc.groups = s.sc.groups ∧
      (∀ e ∈ u.sc.digests, e.short = num → e.seq = seq → now < e.born + e.hold) ∧
      ∀ e ∈ s.sc.digests, e.short ≠ num ∨ e.seq ≠ seq ∨ now < e.born + e.hold → e ∈ u.sc.digests)

/-! ## Spools (15) -/

/-- The spools (15 R335 to R357): starting, stopping and doorbells; the walk round the ring; read and write bursts; completion
with its fold checks and write-back, and the interrupt's service. The model's choices: where a local spool's ring lies (log entry 178);
that a descriptor has one check job to verify and one to generate, which wait for a check unit (log entry 216); what a descriptor that
overlaps itself or was written while the engine owned it moves and leaves (log entry 237). -/
def Obligations.SpoolsRunTheirRings : Prop :=
  (∀ (t n : Nat) (s : State), s.pow.on = true → n < 384 →
    let now := max s.now t
    let x := s.sp n
    let a := s.ringBase n + 32 * x.cur
    let others (u : State) : Prop := ∀ k, k ≠ n → u.sp k = s.sp k
    let quiet (c : Instr) : Prop := Does c s (Only [] s)
    let on : Prop := s.flag F.splChCtlEn n = true
    let i := s.ringStart n
    (¬on → (s.laidRing n).ringOk n = true → Does (.spoolEnable t n) s (fun u => u.flag F.splChCtlEn n = true ∧ u.sp n = { x with
        state := 1, err := false, last := 0, ring := false, stopIdx := i, idx := i, cur := i, busy := [], opened := false } ∧ u.reg F.splChCntDesc n = 0 ∧ u.reg F.splChCntBytes n = 0 ∧ others u ∧ Only [.lin, .regs, .spl] s u ∧
        u.ringBase n = (if localSpool n = true then localRing n else s.ringBase n))) ∧
    (on ∨ (localSpool n = false ∧ s.ringOk n = false) → quiet (.spoolEnable t n)) ∧
    (¬on → localSpool n = true → (s.laidRing n).ringOk n = false → Does (.spoolEnable t n) s (fun u =>
      u.ringBase n = localRing n ∧ u.flag F.splChCtlEn n = false ∧ Only [.regs] s u)) ∧
    (on → (x.err = true ∨ (x.state ≠ 3 ∧ x.busy = [])) → Does (.spoolStopRequest t n) s (fun u =>
      u.flag F.splChCtlEn n = false ∧ others u ∧ Only [.lin, .regs, .spl] s u ∧
      u.sp n = { x with state := 0, stopIdx := if x.err then x.stopIdx else x.cur, ring := false })) ∧
    (on → x.err = false → x.state ≠ 3 → x.busy ≠ [] → Does (.spoolStopRequest t n) s (fun u =>
      u.sp n = { x with state := 3, ring := false } ∧ others u ∧ Only [.spl] s u)) ∧
    (¬on ∨ (x.err = false ∧ x.state = 3) → quiet (.spoolStopRequest t n)) ∧
    (on → Does (.spoolDisable t n) s (fun u => u.flag F.splChCtlEn n = false ∧ (u.sp n).state = 0 ∧ (u.sp n).busy = [] ∧
      (u.sp n).posts = [] ∧ (u.sp n).ring = false ∧ others u ∧
      (x.posts = [] → u.mem = s.mem) ∧ Only [.lin, .mem, .regs, .spl] s u)) ∧
    (¬on → quiet (.spoolDisable t n)) ∧
    (on → x.err = false → x.state = 1 → Does (.spoolDoorbell t n) s (fun u => u.sp n = { x with ring := true } ∧ others u ∧
      Only [.spl] s u)) ∧
    (on → x.err = false → x.state = 2 → x.mayStart = false → Does (.spoolDoorbell t n) s (fun u =>
      u.sp n = { x with state := 1 } ∧ others u ∧ Only [.spl] s u)) ∧
    (¬on ∨ x.err = true ∨ (x.state ≠ 1 ∧ x.state ≠ 2) → quiet (.spoolDoorbell t n)) ∧
    (¬on ∨ x.err = true ∨ x.state ≠ 1 ∨ x.mayStart = false → quiet (.descriptorStart t n)) ∧
    (∀ c, on → x.err = false → x.mayStart = true → (c = .descriptorStart t n ∧ x.state = 1) ∨
        (c = .spoolDoorbell t n ∧ x.state = 2) → (∀ w ∈ s.mem.rot, touches a 32 w = false) → s.mem.poisonIn a 32 = [] →
      let d : SpoolDesc := { idx := x.cur, ctrl := s.mem.reads a 8, body := s.mem.reads (a + 8) 24, status := 0,
                             broken := false, data := [], drained := 0, pace := none, held := none }
      (d.own = false ∨ d.hem = true → Does c s (fun u => u.sp n = { x with state := 2, stopIdx := x.cur, ring := false } ∧
        others u ∧ Only [.lin, .regs, .spl] s u)) ∧
      (d.own = true → d.hem = false → Does c s (fun u => (u.sp n).state = 1 ∧ (u.sp n).cur = d.after (s.ringLen n) ∧
        (u.sp n).opened = true ∧ others u ∧ Only [.spl] s u ∧ ∃ v, (u.sp n).busy = x.busy ++ [{ d with status := v }] ∧
          (d.invalid (s.ringLen n) = true → v = 2) ∧ (d.invalid (s.ringLen n) = false → hostSpool n = false → v = 0) ∧
          (d.invalid (s.ringLen n) = false → (firstBad (mayRead s.mem) d.src d.len).isSome = true → hostSpool n = true → v = 3)))) ∧
    (∀ d l, x.busy = d :: l → on → d.held = none → d.broken = false → d.ctrl.length = 8 → d.body.length = 24 →
      let at_ := s.ringBase n + 32 * d.idx
      let kept (u : State) : Prop := (∀ b, b < at_ ∨ at_ + 32 ≤ b ∨ (at_ + 8 ≤ b ∧ b < at_ + 24) →
          u.mem.read b = s.mem.read b) ∧ (u.mem.read at_).getLsbD 7 = false ∧
        (∀ k, 0 < k → k < 8 → d.ctrl[k]? = some (u.mem.read (at_ + k))) ∧
        u.reg F.splChCntDesc n = (s.reg F.splChCntDesc n + 1) % 2 ^ 32 ∧
        u.reg F.splChCntBytes n = (s.reg F.splChCntBytes n + d.data.length) % 2 ^ 32 ∧
        (u.sp n).idx = d.after (s.ringLen n) ∧ others u ∧ Only [.cip, .eth, .fau, .lin, .mem, .regs, .spl, .stw] s u
      let defined : Prop := s.spoilt n d = false
      let sound : Prop := s.mem.rot = [] ∧ s.descPoisoned at_ = false
      let f := foldOf d.fold
      (d.status = 0 → d.len ≤ d.drained → (d.checked = true → s.checkUnit = true) → (d.bar = true → defined → Does (.descriptorComplete t n) s (fun u =>
          u.sp n = { x with busy := { d with held := some d.outcome } :: l } ∧ others u ∧ Only [.cip, .regs, .spl] s u)) ∧
        (d.bar = false → s.mem.rot = [] → s.descPoisoned at_ = true → Does (.descriptorComplete t n) s (fun u => (u.sp n).err = true ∧
          (u.sp n).last = 4 ∧ (u.sp n).stopIdx = d.idx ∧ (u.sp n).busy = [] ∧ u.mem = s.mem ∧ others u ∧
          Only [.cip, .lin, .regs, .spl] s u)) ∧
        (d.bar = false → sound → ¬defined → Does (.descriptorComplete t n) s (fun u => (u.sp n).busy = l ∧ (u.sp n).err = x.err ∧ others u ∧
          (∀ b, b < at_ ∨ at_ + 32 ≤ b ∨ (at_ + 8 ≤ b ∧ b < at_ + 24) → u.mem.read b = s.mem.read b) ∧
          (u.sp n).idx = d.after (s.ringLen n) ∧ Only [.cip, .eth, .fau, .lin, .mem, .regs, .spl, .stw] s u)) ∧
        (d.bar = false → sound → defined → d.outcome.1 = 0 → Does (.descriptorComplete t n) s (fun u => kept u ∧ (u.sp n).busy = l ∧
          u.reg F.chkCntJobs = min (s.reg F.chkCntJobs + b2n f.2.1 + b2n f.2.2) 0xFFFFFFFF ∧
          u.mem.read (at_ + 26) = 0 ∧ (u.sp n).state = (if x.state = 3 ∧ l = [] then 0 else x.state) ∧
          (d.irq = true → n < 256 → (u.sp n).irq = true ∧ (u.sp n).sigIdx = d.idx ∧ (u.sp n).sigStatus = 0) ∧
          (d.irq = true → 256 ≤ n → (u.sp n).pulse = some (d.idx, 0) ∧ tget? u.spl.pulses (s.pulseUnit n) = some (n, d.idx, 0))))) ∧
      (d.checked = true → s.checkUnit = false → quiet (.descriptorComplete t n)) ∧
      (d.status ≠ 0 → d.status < 256 → d.bar = false → sound → defined → Does (.descriptorComplete t n) s (fun u => kept u ∧ (u.sp n).err = true ∧
        (u.sp n).last = d.status ∧ (u.sp n).busy = [] ∧ u.mem.read (at_ + 26) = BitVec.ofNat 8 d.status ∧
        (u.sp n).state = (if x.state = 3 then 0 else 2) ∧ (n < 256 → (u.sp n).irq = true ∧ (u.sp n).sigStatus = d.status) ∧
        (256 ≤ n → (u.sp n).pulse = some (d.idx, d.status) ∧ tget? u.spl.pulses (s.pulseUnit n) = some (n, d.idx, d.status)))) ∧
      (d.status = 0 → d.drained < d.len → quiet (.descriptorComplete t n))) ∧
    (∀ d l, x.busy = d :: l → on → d.held = none → d.broken = true → Does (.descriptorComplete t n) s (fun u =>
      u.sp n = { x with err := true, last := 4, stopIdx := d.idx, cur := d.idx, busy := [], opened := false, ring := false,
                        state := if x.state = 3 then 0 else 2 } ∧ others u ∧ Only [.lin, .regs, .spl] s u)) ∧
    (¬on ∨ x.busy = [] → quiet (.descriptorComplete t n)) ∧
    (∀ d l check, x.busy = d :: l → d.held = some (0, check) → x.posts = [] → d.ctrl.length = 8 → s.spoilt n d = false → s.mem.rot = [] →
      s.descPoisoned (s.ringBase n + 32 * d.idx) = false → Does (.barWriteback t n) s (fun u =>
      (u.sp n).busy = l ∧ (u.sp n).idx = d.after (s.ringLen n) ∧ (u.mem.read (s.ringBase n + 32 * d.idx)).getLsbD 7 = false ∧
      u.reg F.splChCntDesc n = (s.reg F.splChCntDesc n + 1) % 2 ^ 32 ∧ others u)) ∧
    (∀ d l r, x.busy = d :: l → d.held = some r → Does (.barWriteback t n) s (fun u => (u.sp n).posts = [] ∧
      Only [.eth, .fau, .lin, .mem, .regs, .spl, .stw] s u)) ∧
    (x.busy = [] ∨ (∃ d l, x.busy = d :: l ∧ d.held = none) → quiet (.barWriteback t n)) ∧
    (x.irq = true → s.fwRuns = true → Does (.spoolDone t n) s (fun u => u.sp n = { x with irq := false, signals := 0 } ∧
      others u ∧ Only [.eth, .spl, .stw] s u ∧ (hostSpool n = true →
        Raised s u now 4 0x50 n (be 2 x.sigIdx ++ be 1 x.sigStatus ++ be 1 (b2n x.err) ++ be 4 x.signals)))) ∧
    (x.irq = false ∨ s.fwRuns = false → quiet (.spoolDone t n))) ∧
  ∀ (t : Nat) (s : State), s.pow.on = true →
    let v := s.tick t
    (∀ write, v.nextBurst write = none → Does (.spoolBurst t write) s (Only [] s)) ∧
    (∀ write n d, v.nextBurst write = some (n, false) → (s.sp n).readReady (s.paceOf n) = some d →
      (s.regs.com .splChCommit n).pend = false →
      let p := d.paceIn (s.paceOf n)
      let a := d.src + d.data.length
      let k := d.readLen (s.paceOf n)
      (∀ w ∈ s.mem.rot, touches a k w = false) → s.mem.poisonIn a k = [] →
      Does (.spoolBurst t write) s (fun u => u.spl.served = n ∧ (∀ j, j ≠ n → u.sp j = s.sp j) ∧ Only [.spl] s u ∧
        (u.sp n).busy.length = (s.sp n).busy.length ∧ ∃ e : List Byte, e.length = k ∧
          (d.overlaps = false → s.spoilt n d = false → e = s.mem.reads a k) ∧
          { d with pace := some p, data := d.data ++ e } ∈ (u.sp n).busy)) ∧
    (∀ write n d, v.nextBurst write = some (n, true) → (s.sp n).writeReady (s.paceOf n) = some d →
      let k := min (d.paceIn (s.paceOf n)).burst (d.data.length - d.drained)
      let runs := runsOf (d.outputs d.drained (d.drained + k))
      (∀ r ∈ runs, (∀ w ∈ s.mem.rot, touches r.1 r.2.length w = false) ∧ s.mem.poisonIn r.1 r.2.length = []) →
      Does (.spoolBurst t write) s (fun u => u.spl.served = n ∧ (∀ j, j ≠ n → u.sp j = s.sp j) ∧ Only [.mem, .spl] s u ∧
        { d with drained := d.drained + k } ∈ (u.sp n).busy ∧
        (∀ b, (∀ o, o < d.dlen → b ≠ d.dst + o) → u.mem.read b = s.mem.read b) ∧
        (((u.sp n).posts = (s.sp n).posts ∧ u.mem = { runs.foldl (fun m e => m.store e.1 e.2) s.mem with spoilt := u.mem.spoilt }) ∨
          ((u.sp n).posts = (s.sp n).posts ++ runs ∧ u.mem = s.mem))))

/-! ## Site measurement, filters and loops (16, 17) -/

/-- A trigger that arrives while the sequencer is delayed, converts, or waits for the reference is ignored and counted, and
none is kept for later (16 R368). -/
def Obligations.TriggersAreMissedWhileBusy : Prop :=
  ∀ (t : Nat) (s : State), s.pow.on = true → s.cnv.state = 2 ∨ s.cnv.state = 3 ∨ s.refWait = true →
    let missed (u : State) : Prop := u.reg F.cnvCntTrigmiss = min (s.reg F.cnvCntTrigmiss + 1) 0xFFFFFFFF
    Does (.swtrig t) s (fun u => missed u ∧ u.cnv = s.cnv ∧ Only [.regs] s u) ∧
    ∀ f, s.flag F.cnvSeqCtlCont = false → s.firing = some f → Does (.sequenceTrigger t) s (fun u => missed u ∧
      u.cnv = { s.cnv with used := u.cnv.used } ∧ u.firing = none ∧ Only [.cnv, .regs] s u)

/-- The site front end (16 R359, R365 to R376): reference, sequencer, raw samples, visits, and wire breaks; with CONT what a trigger
source fires is ignored for good. That a break detected again while BROKEN is 1 counts and raises WIRE_BREAK once more is the model's
choice (log entry 182). -/
def Obligations.SequencesAndWireBreaksRun : Prop :=
  (∀ (t : Nat) (s : State), s.pow.on = true →
    let now := max s.now t
    let x := s.cnv
    let quiet (c : Instr) : Prop := Does c s (Only [] s)
    let en := s.flag F.cnvCtlEn
    let cont := s.flag F.cnvSeqCtlCont
    let starts (u : State) (e at_ : Nat) : Prop := u.cnv.state = 3 ∧ u.cnv.entry = e ∧ u.cnv.visit = at_ ∧ u.cnv.raws = [] ∧
      u.cnv.peak = 0
    (s.flag F.senRefEn = false → en = false → Does (.refEnable t) s (fun u => u.flag F.senRefEn = true ∧
      u.cnv = { x with refAt := now, ready := false } ∧ Only [.cnv, .lin, .regs] s u)) ∧
    (s.flag F.senRefEn = true ∨ en = true → quiet (.refEnable t)) ∧
    (s.flag F.senRefEn = true → x.ready = false → x.refAt + 2 * ms ≤ now → Does (.refReady t) s (fun u => u.cnv.ready = true ∧
      (if x.state = 1 ∧ cont = true then starts u 0 now else u.cnv = { x with ready := true }) ∧ Only [.cnv] s u)) ∧
    (s.flag F.senRefEn = false ∨ x.ready = true ∨ now < x.refAt + 2 * ms → quiet (.refReady t)) ∧
    (en = false → Does (.cnvEnable t) s (fun u => u.flag F.cnvCtlEn = true ∧ u.cnv.cal = false ∧ u.cnv.enAt = now ∧
      u.cnv.gains = [] ∧ (if x.ready = true ∧ cont = true then starts u 0 now else u.cnv.state = 1) ∧
      (∀ e, e < 32 → (u.chan e).first = none ∧ (u.chan e).visits = [] ∧ (u.chan e).good = none ∧ u.reg F.cnvResValue e = 0 ∧
        u.reg F.cnvResQuality e = 0) ∧ Only [.chans, .cnv, .lin, .regs] s u)) ∧
    (en = true → quiet (.cnvEnable t)) ∧
    (en = true → Does (.cnvDisable t) s (fun u => u.flag F.cnvCtlEn = false ∧ u.cnv.state = 0 ∧ u.cnv.raws = [] ∧
      Only [.chans, .cnv, .lin, .regs] s u)) ∧
    (en = false → quiet (.cnvDisable t)) ∧
    (en = true → Does (.cnvCalConverged t) s (fun u => u.cnv = { x with cal := true } ∧ Only [.cnv] s u)) ∧
    (en = false → quiet (.cnvCalConverged t)) ∧
    (x.state = 1 → s.refWait = false → Does (.swtrig t) s (fun u => Only [.cnv] s u ∧
        u.cnv = { x with state := 2, due := now + s.reg F.cnvTrigDlyDelay * 100 }) ∧
      ∀ f, cont = false → s.firing = some f → Does (.sequenceTrigger t) s (fun u => Only [.cnv] s u ∧
        u.cnv = { x with state := 2, due := f + s.reg F.cnvTrigDlyDelay * 100, used := u.cnv.used })) ∧
    (x.state = 0 → s.refWait = false → quiet (.swtrig t)) ∧
    (cont = false → s.firing = none → quiet (.sequenceTrigger t)) ∧
    (cont = true → Does (.sequenceTrigger t) s (fun u => u.cnv = { x with used := u.cnv.used } ∧ u.firing = none ∧
      Only [.cnv] s u)) ∧
    (x.state = 2 → x.due ≤ now + 50 → Does (.sequenceStart t) s (fun u => starts u 0 x.due ∧ u.cnv.gain = s.startGain 0 ∧
      Only [.cnv] s u)) ∧
    (x.state ≠ 2 ∨ now + 50 < x.due → quiet (.sequenceStart t)) ∧
    (∀ codes : List Int, x.state = 3 → x.raws.length < s.chops x.entry → codes.length = 64 →
      (∀ c ∈ codes, -131072 ≤ c ∧ c ≤ 131071) → s.dwellAt x.entry x.visit + 32 * us * (x.raws.length + 1) ≤ now →
      ((∀ c ∈ codes, nearFull c = false) → Does (.rawSample t codes) s (fun u => Only [.cnv] s u ∧ u.cnv.gain = x.gain ∧
        ∃ r, u.cnv.raws = x.raws ++ [r] ∧ r.beyond = false ∧
          r.centre = s.dwellAt x.entry x.visit + 32 * us * x.raws.length + 16 * us ∧ r.fin = r.centre + 16 * us ∧
          (codes.foldl (fun (a : Int) c => a + c) 0 * 8388608 % (64 * 2 ^ x.gain : Nat) = 0 →
            r.value = codes.foldl (fun (a : Int) c => a + c) 0 * 8388608 / (64 * 2 ^ x.gain : Nat)))) ∧
      ((∃ c ∈ codes, nearFull c = true) → s.autoGain x.entry = false → Does (.rawSample t codes) s (fun u =>
        u.reg F.cnvCntOver = min (s.reg F.cnvCntOver + 1) 0xFFFFFFFF ∧ u.cnv.gain = x.gain ∧
        (∃ r, u.cnv.raws = x.raws ++ [r] ∧ r.beyond = true) ∧ Only [.cnv, .regs] s u))) ∧
    (∀ codes, x.state ≠ 3 ∨ s.chops x.entry ≤ x.raws.length ∨
      now < s.dwellAt x.entry x.visit + 32 * us * (x.raws.length + 1) → quiet (.rawSample t codes)) ∧
    (x.state = 3 → x.raws.length = s.chops x.entry → s.dwellEnd x.entry x.visit ≤ now →
      (x.entry + 1 < s.reg F.cnvSeqCtlLen → Does (.dwellEnd t) s (fun u =>
        starts u (x.entry + 1) (s.dwellEnd x.entry x.visit) ∧ u.cnv.seqs = x.seqs ∧ (u.chan x.entry).seen = true ∧
        (∀ e, e ≠ x.entry → u.chan e = s.chan e) ∧ Only [.chans, .cnv, .regs] s u ∧
        ∃ w ∈ (u.chan x.entry).visits, w.inst = s.dwellAt x.entry x.visit + 16 * us * s.chops x.entry ∧
          w.fin = s.dwellEnd x.entry x.visit ∧ w.opened = x.raws.any (·.opened) ∧ w.beyond = x.raws.any (·.beyond))) ∧
      (s.reg F.cnvSeqCtlLen ≤ x.entry + 1 → Does (.dwellEnd t) s (fun u => u.cnv.seqs = (x.seqs + 1) % 65536 ∧
        (u.flag F.cnvSeqCtlCont = true → starts u 0 (s.dwellEnd x.entry x.visit)) ∧
        (u.flag F.cnvSeqCtlCont = false → u.cnv.state = 1 ∧ u.cnv.raws = []) ∧ Only [.chans, .cnv, .lin, .regs] s u))) ∧
    (x.state ≠ 3 ∨ x.raws.length ≠ s.chops x.entry ∨ now < s.dwellEnd x.entry x.visit → quiet (.dwellEnd t))) ∧
  ∀ (t n : Nat) (cur : InWindow) (curs : List Nat) (s : State), s.pow.on = true → n < 4 →
    let now := max s.now t
    let last := curs.getLastD 0
    (s.flag F.senExCfgEn n = true → curs.length = 4 → (∀ c ∈ curs, c ≤ 2850 ∧ s.side n c ≠ 0) → Does (.wireBreak t n curs) s (fun u =>
      (u.exc n).broken = true ∧ (u.exc n).lastBreak = now ∧ u.flag F.senExStatSeen n = true ∧
      u.reg F.senCntBreak = min (s.reg F.senCntBreak + 1) 0xFFFFFFFF ∧
      (∀ m, m < 4 → s.mapped m = true → s.entryExc (s.reg F.lopLoCtlSrc m) = n → (u.loop m).fault = true ∧ (u.loop m).cause = 1) ∧
      Reported s u 4 now 0x701 0x60 n (be 1 1 ++ be 1 (s.side n last) ++ be 2 last ++ be 4 (s.excEntries n)) ∧
      (∀ k, k ≠ n → u.exc k = s.exc k) ∧ Only [.chans, .cnv, .eth, .loops, .regs, .stw] s u)) ∧
    (s.flag F.senExCfgEn n = false ∨ curs.length ≠ 4 ∨ (∃ c ∈ curs, 2850 < c ∨ s.side n c = 0) →
      Does (.wireBreak t n curs) s (Only [] s)) ∧
    let due := max (s.exc n).lastBreak cur.since + max 1 (s.reg F.senBrkRecoverMs) * ms
    (s.flag F.senExCfgEn n = true → (s.exc n).broken = true → s.side n cur.cur = 0 → due ≤ now → Does (.wireRestore t n cur) s (fun u =>
        (u.exc n).broken = false ∧ (∀ k, k ≠ n → u.exc k = s.exc k) ∧
        Raised s u now 0x701 0x60 n (be 1 0 ++ be 1 0 ++ be 2 cur.cur ++ be 4 (s.excEntries n)) ∧ Only [.cnv, .eth, .stw] s u)) ∧
    (s.flag F.senExCfgEn n = false ∨ (s.exc n).broken = false ∨ s.side n cur.cur ≠ 0 ∨ now < due → Does (.wireRestore t n cur) s (Only [] s))

/-- Filter outputs with their results, the loops that follow them and the stream (16 R377, R380, R384; 17 R397 to R400, R402, R404),
and the loop outputs (16 R383 to R387). The model's choices: a loop's current drops the fraction of a microampere (log entry 183), and DCB
takes effect at the boundary before an output (log entry 253). -/
def Obligations.OutputsReachResultsAndLoops : Prop :=
  (∀ (t e : Nat) (s : State), s.pow.on = true → e < 32 →
    let v := s.tick t
    (v.outputDue e = false → Does (.filterOutput t e) s (Only [] s)) ∧
    (∀ g p, v.outputDue e = true → s.nextG e = some (g, p) →
      let used := v.contributing e g
      let w := v.setChan e { v.chan e with dcb := s.reg F.fltChCfgDcb e }
      let x := outX (w.chainOut e g).1
      let k := s.reg F.fltStrmWidxWidx
      let a := s.strmBase + 32 * (k % s.strmLen)
      let follows (m : Nat) : Prop := m < 4 ∧ s.mapped m = true ∧ s.reg F.lopLoCtlSrc m = e
      Does (.filterOutput t e) s (fun u => (u.chan e).lastG = some g ∧ (u.chan e).ns = g ∧ (u.chan e).epoch = s.lin.epoch ∧ (u.chan e).dcb = s.reg F.fltChCfgDcb e ∧
        (∀ j, j ≠ e → u.chan j = s.chan j) ∧
        (∀ m, follows m → (u.loop m).lastOut = max s.now t ∧ (u.loop m).stale = false ∧ (u.loop m).value.isSome = true) ∧
        (∀ m, m < 4 → ¬follows m → u.loop m = s.loop m) ∧
        (s.flag F.fltStrmCtlEn = false ∨ bit (s.reg F.fltStrmMaskMask) e = false → u.mem = s.mem ∧ u.spl = s.spl ∧
          u.reg F.fltStrmWidxWidx = k) ∧
        (s.flag F.fltStrmCtlEn = true → bit (s.reg F.fltStrmMaskMask) e = true → u.mem.read a = BitVec.ofNat 8 e ∧
          u.reg F.fltStrmWidxWidx = (k + 1) % 2 ^ 32 ∧ (∀ b, b < a ∨ a + 32 ≤ b → u.mem.read b = s.mem.read b)) ∧
        ((s.regs.com .fltCommit 0).pend = false →
          let q := u.reg F.cnvResQuality e
          bit q 7 = true ∧ bit q 6 = used.any (·.opened) ∧ bit q 5 = (used.any (·.beyond) || x.2) ∧
          bit q 4 = v.rangeSettling e g p ∧ bit q 1 = v.filterSettling e g p ∧
          (∀ m, follows m → (u.loop m).value = some (u.resValue e) ∧
            (u.loopCause m = 0 → (u.loop m).ua = mappedUa (s.v4 m) (s.v20 m) (u.resValue e))) ∧
          (s.reg F.cnvEntCfgChan e < 16 → s.reg F.cnvEntLinCurve e = 0 →
            u.reg F.cnvResValue e = twos 24 (clampI (-8388608) 8388607 (roundEven x.1 256)) ∧
            ∀ y, s.flag F.fltChCfgFast e = true → s.reg F.fltChCfgDcb e = 0 → (s.chan e).steady = some y →
              x.1 = clampI (-2147483648) 2147483647 (roundEven y 512))) ∧
        Only [.chans, .eth, .fau, .lin, .loops, .mem, .regs, .spl, .stw] s u))) ∧
  (∀ (t : Nat) (s : State), s.pow.on = true →
    (s.flag F.fltStrmCtlEn = false → s.strmOk = true → Does (.streamEnable t) s (fun u => u.flag F.fltStrmCtlEn = true ∧
      u.reg F.fltStrmWidxWidx = 0 ∧ Only [.lin, .regs] s u)) ∧
    (s.flag F.fltStrmCtlEn = true ∨ s.strmOk = false → Does (.streamEnable t) s (Only [] s))) ∧
  ∀ (t n : Nat) (s : State), s.pow.on = true → n < 4 →
    let now := max s.now t
    let x := s.loop n
    let level := if s.flag F.lopLoCtlFaultDir n = true then 21000 else 3600
    let others (u : State) : Prop := ∀ k, k ≠ n → u.loop k = s.loop k
    let enters (u : State) (c : Nat) : Prop := (u.loop n).fault = true ∧ (u.loop n).cause = c ∧ (u.loop n).ua = level ∧
      (x.fault = false → u.reg F.lopCntFault = min (s.reg F.lopCntFault + 1) 0xFFFFFFFF ∧
        Raised s u now 0x702 0x63 n (be 1 1 ++ be 1 c ++ be 1 (s.reg F.lopLoCtlFaultDir n)))
    (s.mapped n = true → x.stale = false → x.lastOut + max 1 (s.reg F.lopLoCtlStaleMs n) * ms ≤ now →
      Does (.loopStale t n) s (fun u => (u.loop n).stale = true ∧ others u ∧ Only [.eth, .loops, .regs, .stw] s u ∧
        enters u (if x.opened = true then 1 else if x.range = true then 2 else 3))) ∧
    (s.mapped n = false ∨ x.stale = true ∨ now < x.lastOut + max 1 (s.reg F.lopLoCtlStaleMs n) * ms →
      Does (.loopStale t n) s (Only [] s)) ∧
    (∀ on, s.mapped n = true → Does (.loopRegulationFault t n on) s (fun u => (u.loop n).reg = on ∧ others u ∧
      Only [.eth, .loops, .regs, .stw] s u ∧ (x.opened = false → x.range = false → x.stale = false → s.v20 n ≠ s.v4 n →
        (on = true → enters u 5) ∧ (on = false → (u.loop n).fault = false ∧ ∀ y, x.value = some y →
          (u.loop n).ua = mappedUa (s.v4 n) (s.v20 n) y)))) ∧
    (∀ on, s.mapped n = false → Does (.loopRegulationFault t n on) s (Only [] s)) ∧
    (s.flag F.lopLoCtlEn n = true → (∀ f, x.fired = some f → f + 1024 * us ≤ now) → Does (.loopPwmEvent t n) s (fun u =>
      u.loop n = { x with fired := some ((x.fired.map (· + 1024 * us)).getD now) } ∧ others u ∧ Only [.loops] s u)) ∧
    (s.flag F.lopLoCtlEn n = false ∨ (∃ f, x.fired = some f ∧ now < f + 1024 * us) →
      Does (.loopPwmEvent t n) s (Only [] s))

/-! ## Invariants -/

/-- Device memory keeps its canonical form at every step, so that equal contents are equal data. -/
def Obligations.MemoryStaysCanonical : Prop :=
  ∀ s t : State, s.mem.wf = true → step s = .next t → t.mem.wf = true

/-- The numbers that the model gives to commands in flight and to the air's downlinks stay below the next ones, and stay
distinct, at every step. -/
def Obligations.NumbersStayFresh : Prop :=
  ∀ s t : State, (∀ f ∈ s.stw.flights, f.ref < s.stw.nextRef) → (s.stw.flights.map (·.ref)).Nodup →
    (∀ d ∈ s.air.downs, d.id < s.air.nextId) → (s.air.downs.map (·.id)).Nodup → step s = .next t →
    (∀ f ∈ t.stw.flights, f.ref < t.stw.nextRef) ∧ (t.stw.flights.map (·.ref)).Nodup ∧
    (∀ d ∈ t.air.downs, d.id < t.air.nextId) ∧ (t.air.downs.map (·.id)).Nodup

/-- The state after reset meets both invariants, with nothing in progress and nothing waiting; the values are those of a
blank device's first start (02 R24, R26; the model's choice where the manual gives none: log entry 6). -/
def Obligations.ResetMeetsTheInvariants : Prop :=
  State.reset.mem.wf = true ∧ State.reset.stw.flights = [] ∧ State.reset.air.downs = [] ∧ State.reset.pending = [] ∧
  State.reset.stw.sess = [] ∧ State.reset.pow.on = true ∧ State.reset.pow.firstStart = true ∧ State.reset.pow.phase = 4 ∧
  State.reset.lin.epoch = 1 ∧ State.reset.sea.role = 0 ∧ State.reset.regs.vals = [] ∧ State.reset.lin.log = []
end

