-- ==== Sys2Proof/Laws/Tables.lean ====
section
/-!
SUPPORT. Laws/Tables.lean: reading a sparse table after a change of it, and that every change keeps its keys strictly
ascending.
-/

namespace Sys2Proof.Machine

open Sys2Proof

variable {α : Type}

@[simp] theorem tget?_nil (k : Nat) : tget? ([] : Tab α) k = none := rfl

@[simp] theorem tget?_cons (a k : Nat) (v : α) (l : Tab α) :
    tget? ((a, v) :: l) k = if a = k then some v else tget? l k := rfl

@[simp] theorem tget?_tset_self (l : Tab α) (k : Nat) (v : α) : tget? (tset l k v) k = some v := by
  induction l with
  | nil => simp [tset]
  | cons e r ih =>
    obtain ⟨a, w⟩ := e
    by_cases h : k < a
    · simp [tset, h]
    · by_cases h' : k = a
      · simp [tset, h']
      · have h2 : a ≠ k := fun x => h' x.symm
        simp [tset, h, h', h2, ih]

theorem tget?_tset_ne (l : Tab α) (v : α) {k k' : Nat} (hk : k' ≠ k) : tget? (tset l k v) k' = tget? l k' := by
  have hk' : k ≠ k' := fun x => hk x.symm
  induction l with
  | nil => simp [tset, hk']
  | cons e r ih =>
    obtain ⟨a, w⟩ := e
    by_cases h : k < a
    · simp [tset, h, hk']
    · by_cases h' : k = a
      · subst h'
        simp [tset, hk']
      · simp [tset, h, h', ih]

theorem tget?_tset (l : Tab α) (v : α) (k k' : Nat) :
    tget? (tset l k v) k' = if k' = k then some v else tget? l k' := by
  by_cases h : k' = k
  · subst h; simp
  · simp [h, tget?_tset_ne l v h]

@[simp] theorem tget?_tdel_self (l : Tab α) (k : Nat) : tget? (tdel l k) k = none := by
  induction l with
  | nil => rfl
  | cons e r ih =>
    obtain ⟨a, w⟩ := e
    by_cases h : a = k <;> simp [tdel, h, ih]

theorem tget?_tdel_ne (l : Tab α) {k k' : Nat} (hk : k' ≠ k) : tget? (tdel l k) k' = tget? l k' := by
  induction l with
  | nil => rfl
  | cons e r ih =>
    obtain ⟨a, w⟩ := e
    by_cases h : a = k
    · subst h
      have h2 : a ≠ k' := fun x => hk x.symm
      simp [tdel, h2, ih]
    · simp [tdel, h, ih]

theorem tget?_tdel (l : Tab α) (k k' : Nat) : tget? (tdel l k) k' = if k' = k then none else tget? l k' := by
  by_cases h : k' = k
  · subst h; simp
  · simp [h, tget?_tdel_ne l h]

@[simp] theorem tget_tset_self (d : α) (l : Tab α) (k : Nat) (v : α) : tget d (tset l k v) k = v := by
  simp [tget]

theorem tget_tset (d : α) (l : Tab α) (v : α) (k k' : Nat) :
    tget d (tset l k v) k' = if k' = k then v else tget d l k' := by
  by_cases h : k' = k <;> simp [tget, tget?_tset, h]

@[simp] theorem tget_tput_self [DecidableEq α] (d : α) (l : Tab α) (k : Nat) (v : α) : tget d (tput d l k v) k = v := by
  by_cases h : v = d <;> simp [tput, tget, h]

theorem tget_tput [DecidableEq α] (d : α) (l : Tab α) (v : α) (k k' : Nat) :
    tget d (tput d l k v) k' = if k' = k then v else tget d l k' := by
  by_cases h : k' = k
  · subst h; simp
  · by_cases hv : v = d <;> simp [tput, tget, hv, h, tget?_tset, tget?_tdel]

theorem tget_tmod (d : α) (l : Tab α) (f : α → α) (k k' : Nat) :
    tget d (tmod d l k f) k' = if k' = k then f (tget d l k) else tget d l k' := by
  simp [tmod, tget_tset]

/-! ## Ascending keys -/

/-- Every key of a table is greater than `a`. -/
theorem ascending_cons (a : Nat) (v : α) (l : Tab α) :
    ascending ((a, v) :: l) = true ↔ (∀ e ∈ l, a < e.1) ∧ ascending l = true := by
  induction l generalizing a v with
  | nil => simp [ascending]
  | cons e r ih =>
    obtain ⟨b, w⟩ := e
    simp only [ascending, Bool.and_eq_true, decide_eq_true_eq, List.mem_cons, forall_eq_or_imp]
    constructor
    · rintro ⟨hab, h⟩
      exact ⟨⟨hab, fun e he => lt_trans hab (((ih b w).1 h).1 e he)⟩, h⟩
    · rintro ⟨⟨hab, _⟩, h⟩
      exact ⟨hab, h⟩

theorem tset_keys (l : Tab α) (k : Nat) (v : α) : ∀ e ∈ tset l k v, e = (k, v) ∨ e ∈ l := by
  induction l with
  | nil => simp [tset]
  | cons e r ih =>
    obtain ⟨a, w⟩ := e
    intro x hx
    by_cases h : k < a
    · simp only [tset, h, if_true, List.mem_cons] at hx ⊢
      tauto
    · by_cases h' : k = a
      · simp only [tset, h', lt_irrefl, if_false, if_true, List.mem_cons] at hx ⊢
        tauto
      · simp only [tset, h, h', if_false, List.mem_cons] at hx ⊢
        rcases hx with hx | hx
        · tauto
        · rcases ih x hx with hx | hx <;> tauto

theorem tdel_sub (l : Tab α) (k : Nat) : ∀ e ∈ tdel l k, e ∈ l ∧ e.1 ≠ k := by
  induction l with
  | nil => simp [tdel]
  | cons e r ih =>
    obtain ⟨a, w⟩ := e
    intro x hx
    by_cases h : a = k
    · simp only [tdel, h, if_true] at hx
      exact ⟨List.mem_cons_of_mem _ (ih x hx).1, (ih x hx).2⟩
    · simp only [tdel, h, if_false, List.mem_cons] at hx
      rcases hx with rfl | hx
      · exact ⟨List.mem_cons_self, h⟩
      · exact ⟨List.mem_cons_of_mem _ (ih x hx).1, (ih x hx).2⟩

theorem ascending_tset (l : Tab α) (k : Nat) (v : α) (h : ascending l = true) : ascending (tset l k v) = true := by
  induction l with
  | nil => rfl
  | cons e r ih =>
    obtain ⟨a, w⟩ := e
    obtain ⟨ha, hr⟩ := (ascending_cons a w r).1 h
    by_cases h1 : k < a
    · simp only [tset, h1, if_true]
      refine (ascending_cons _ _ _).2 ⟨?_, h⟩
      intro e he
      rcases List.mem_cons.1 he with rfl | he
      · exact h1
      · exact lt_trans h1 (ha e he)
    · by_cases h2 : k = a
      · simp only [tset, h2, lt_irrefl, if_false, if_true]
        exact (ascending_cons _ _ _).2 ⟨ha, hr⟩
      · simp only [tset, h1, h2, if_false]
        refine (ascending_cons _ _ _).2 ⟨?_, ih hr⟩
        intro e he
        rcases tset_keys r k v e he with rfl | he
        · show a < k
          omega
        · exact ha e he

theorem ascending_tdel (l : Tab α) (k : Nat) (h : ascending l = true) : ascending (tdel l k) = true := by
  induction l with
  | nil => rfl
  | cons e r ih =>
    obtain ⟨a, w⟩ := e
    obtain ⟨ha, hr⟩ := (ascending_cons a w r).1 h
    by_cases h2 : a = k
    · simpa only [tdel, h2, if_true] using ih hr
    · simp only [tdel, h2, if_false]
      exact (ascending_cons _ _ _).2 ⟨fun e he => ha e (tdel_sub r k e he).1, ih hr⟩

theorem ascending_tput [DecidableEq α] (d : α) (l : Tab α) (k : Nat) (v : α) (h : ascending l = true) :
    ascending (tput d l k v) = true := by
  by_cases hv : v = d
  · simpa [tput, hv] using ascending_tdel l k h
  · simpa [tput, hv] using ascending_tset l k v h

/-- A table keeps listing no entry equal to what an unlisted key reads as. -/
theorem tput_no_default [DecidableEq α] (d : α) (l : Tab α) (k : Nat) (v : α) (h : ∀ e ∈ l, e.2 ≠ d) :
    ∀ e ∈ tput d l k v, e.2 ≠ d := by
  by_cases hv : v = d
  · simp only [tput, hv, if_true]
    exact fun e he => h e (tdel_sub l k e he).1
  · simp only [tput, hv, if_false]
    intro e he
    rcases tset_keys l k v e he with rfl | he
    · exact hv
    · exact h e he

end Sys2Proof.Machine
end

