-- ==== Sys2Proof/Laws/Mem.lean ====
section
/-!
SUPPORT. Laws/Mem.lean: every operation on device memory keeps its canonical form; what an octet reads as after a
write, and which octets a write leaves.
-/

namespace Sys2Proof.Machine

open Sys2Proof

theorem Mem.wf_iff (m : Mem) : m.wf = true ↔ ascending m.cells = true ∧ ∀ c ∈ m.cells, c.2 ≠ Mem.blankByte := by
  simp [Mem.wf]

@[simp] theorem Mem.read_write (m : Mem) (a b : Nat) (v : Byte) :
    (m.write a v).read b = if b = a then v else m.read b := by
  simp [Mem.write, Mem.read, tget_tput]

@[simp] theorem Mem.write_poison (m : Mem) (a : Nat) (v : Byte) : (m.write a v).poison = m.poison := rfl
@[simp] theorem Mem.write_rot (m : Mem) (a : Nat) (v : Byte) : (m.write a v).rot = m.rot := rfl
@[simp] theorem Mem.write_posted (m : Mem) (a : Nat) (v : Byte) : (m.write a v).posted = m.posted := rfl
@[simp] theorem Mem.write_ranges (m : Mem) (a : Nat) (v : Byte) : (m.write a v).ranges = m.ranges := rfl
@[simp] theorem Mem.write_spoilt (m : Mem) (a : Nat) (v : Byte) : (m.write a v).spoilt = m.spoilt := rfl

theorem Mem.write_wf (m : Mem) (a : Nat) (v : Byte) (h : m.wf = true) : (m.write a v).wf = true := by
  rw [Mem.wf_iff] at *
  exact ⟨ascending_tput _ _ _ _ h.1, tput_no_default _ _ _ _ h.2⟩

/-- Octets written upward from `a` change the octets `a` to `a + d.length - 1` alone. -/
theorem Mem.read_writes (m : Mem) (a b : Nat) (d : List Byte) :
    (m.writes a d).read b = if a ≤ b ∧ b < a + d.length then d.getD (b - a) 0 else m.read b := by
  induction d generalizing m a with
  | nil => simp [Mem.writes]
  | cons v r ih =>
    rw [Mem.writes, ih, Mem.read_write]
    by_cases h : b = a
    · subst h; simp
    · by_cases h2 : a + 1 ≤ b ∧ b < a + 1 + r.length
      · have h3 : a ≤ b ∧ b < a + (v :: r).length := by simp; omega
        obtain ⟨k, rfl⟩ : ∃ k, b = a + 1 + k := ⟨b - (a + 1), by omega⟩
        have h4 : a + 1 + k - a = k + 1 := by omega
        rw [if_pos h2, if_pos h3, h4]
        simp
      · have h3 : ¬(a ≤ b ∧ b < a + (v :: r).length) := by simp; omega
        rw [if_neg h2, if_neg h3, if_neg h]

theorem Mem.writes_wf (m : Mem) (a : Nat) (d : List Byte) (h : m.wf = true) : (m.writes a d).wf = true := by
  induction d generalizing m a with
  | nil => exact h
  | cons v r ih => exact ih _ _ (Mem.write_wf m a v h)

@[simp] theorem Mem.writes_posted (m : Mem) (a : Nat) (d : List Byte) : (m.writes a d).posted = m.posted := by
  induction d generalizing m a with
  | nil => rfl
  | cons v r ih => simp [Mem.writes, ih]

@[simp] theorem Mem.writes_ranges (m : Mem) (a : Nat) (d : List Byte) : (m.writes a d).ranges = m.ranges := by
  induction d generalizing m a with
  | nil => rfl
  | cons v r ih => simp [Mem.writes, ih]

@[simp] theorem Mem.writes_spoilt (m : Mem) (a : Nat) (d : List Byte) : (m.writes a d).spoilt = m.spoilt := by
  induction d generalizing m a with
  | nil => rfl
  | cons v r ih => simp [Mem.writes, ih]

@[simp] theorem Mem.store_cells (m : Mem) (a : Nat) (d : List Byte) : (m.store a d).cells = (m.writes a d).cells := rfl
@[simp] theorem Mem.store_posted (m : Mem) (a : Nat) (d : List Byte) : (m.store a d).posted = m.posted := by
  simp [Mem.store]
@[simp] theorem Mem.store_ranges (m : Mem) (a : Nat) (d : List Byte) : (m.store a d).ranges = m.ranges := by
  simp [Mem.store]

@[simp] theorem Mem.store_spoilt (m : Mem) (a : Nat) (d : List Byte) : (m.store a d).spoilt = m.spoilt := by
  simp [Mem.store]

theorem Mem.store_wf (m : Mem) (a : Nat) (d : List Byte) (h : m.wf = true) : (m.store a d).wf = true := by
  have := Mem.writes_wf m a d h
  rwa [Mem.wf_iff] at *

theorem Mem.read_store (m : Mem) (a b : Nat) (d : List Byte) :
    (m.store a d).read b = if a ≤ b ∧ b < a + d.length then d.getD (b - a) 0 else m.read b :=
  Mem.read_writes m a b d

end Sys2Proof.Machine
end

