-- ==== Sys2Proof/Laws/State.lean ====
section
/-!
SUPPORT. Laws/State.lean: for each update of State, what it leaves (one simp rule a field) and what reading the changed
part gives after it.
-/

namespace Sys2Proof.Machine

open Sys2Proof

/-! ## Which blocks two states share -/

/-- `t` differs from `s` in `eth` alone. -/
abbrev ButEth (s t : State) : Prop :=
  t.pending = s.pending ∧ t.free = s.free ∧ t.now = s.now ∧ t.regs = s.regs ∧ t.pow = s.pow ∧ t.lin = s.lin ∧
  t.stw = s.stw ∧ t.mem = s.mem ∧ t.fau = s.fau ∧ t.cip = s.cip ∧ t.caps = s.caps ∧ t.mns = s.mns ∧ t.sea = s.sea ∧
  t.plx = s.plx ∧ t.air = s.air ∧ t.sc = s.sc ∧ t.spl = s.spl ∧ t.cnv = s.cnv ∧ t.chans = s.chans ∧ t.loops = s.loops

/-- `t` differs from `s` in `stw` alone. -/
abbrev ButStw (s t : State) : Prop :=
  t.pending = s.pending ∧ t.free = s.free ∧ t.now = s.now ∧ t.regs = s.regs ∧ t.pow = s.pow ∧ t.lin = s.lin ∧
  t.mem = s.mem ∧ t.eth = s.eth ∧ t.fau = s.fau ∧ t.cip = s.cip ∧ t.caps = s.caps ∧ t.mns = s.mns ∧ t.sea = s.sea ∧
  t.plx = s.plx ∧ t.air = s.air ∧ t.sc = s.sc ∧ t.spl = s.spl ∧ t.cnv = s.cnv ∧ t.chans = s.chans ∧ t.loops = s.loops

/-- `t` differs from `s` in `stw` and `eth` alone. -/
abbrev ButMail (s t : State) : Prop :=
  t.pending = s.pending ∧ t.free = s.free ∧ t.now = s.now ∧ t.regs = s.regs ∧ t.pow = s.pow ∧ t.lin = s.lin ∧
  t.mem = s.mem ∧ t.fau = s.fau ∧ t.cip = s.cip ∧ t.caps = s.caps ∧ t.mns = s.mns ∧ t.sea = s.sea ∧ t.plx = s.plx ∧
  t.air = s.air ∧ t.sc = s.sc ∧ t.spl = s.spl ∧ t.cnv = s.cnv ∧ t.chans = s.chans ∧ t.loops = s.loops

/-- `t` differs from `s` in `regs` alone. -/
abbrev ButRegs (s t : State) : Prop :=
  t.pending = s.pending ∧ t.free = s.free ∧ t.now = s.now ∧ t.pow = s.pow ∧ t.lin = s.lin ∧ t.stw = s.stw ∧
  t.mem = s.mem ∧ t.eth = s.eth ∧ t.fau = s.fau ∧ t.cip = s.cip ∧ t.caps = s.caps ∧ t.mns = s.mns ∧ t.sea = s.sea ∧
  t.plx = s.plx ∧ t.air = s.air ∧ t.sc = s.sc ∧ t.spl = s.spl ∧ t.cnv = s.cnv ∧ t.chans = s.chans ∧ t.loops = s.loops

/-- `t` differs from `s` in `regs`, `stw` and `eth` alone. -/
abbrev ButMailRegs (s t : State) : Prop :=
  t.pending = s.pending ∧ t.free = s.free ∧ t.now = s.now ∧ t.pow = s.pow ∧ t.lin = s.lin ∧ t.mem = s.mem ∧
  t.fau = s.fau ∧ t.cip = s.cip ∧ t.caps = s.caps ∧ t.mns = s.mns ∧ t.sea = s.sea ∧ t.plx = s.plx ∧ t.air = s.air ∧
  t.sc = s.sc ∧ t.spl = s.spl ∧ t.cnv = s.cnv ∧ t.chans = s.chans ∧ t.loops = s.loops

/-- `t` differs from `s` in `regs` and `fau` alone. -/
abbrev ButFaults (s t : State) : Prop :=
  t.pending = s.pending ∧ t.free = s.free ∧ t.now = s.now ∧ t.pow = s.pow ∧ t.lin = s.lin ∧ t.stw = s.stw ∧
  t.mem = s.mem ∧ t.eth = s.eth ∧ t.cip = s.cip ∧ t.caps = s.caps ∧ t.mns = s.mns ∧ t.sea = s.sea ∧ t.plx = s.plx ∧
  t.air = s.air ∧ t.sc = s.sc ∧ t.spl = s.spl ∧ t.cnv = s.cnv ∧ t.chans = s.chans ∧ t.loops = s.loops

/-- `t` differs from `s` in `regs`, `stw`, `mem`, `eth` and `fau` alone. -/
abbrev ButMemory (s t : State) : Prop :=
  t.pending = s.pending ∧ t.free = s.free ∧ t.now = s.now ∧ t.pow = s.pow ∧ t.lin = s.lin ∧ t.cip = s.cip ∧
  t.caps = s.caps ∧ t.mns = s.mns ∧ t.sea = s.sea ∧ t.plx = s.plx ∧ t.air = s.air ∧ t.sc = s.sc ∧ t.spl = s.spl ∧
  t.cnv = s.cnv ∧ t.chans = s.chans ∧ t.loops = s.loops

/-- `t` differs from `s` in `lin` alone. -/
abbrev ButLining (s t : State) : Prop :=
  t.pending = s.pending ∧ t.free = s.free ∧ t.now = s.now ∧ t.regs = s.regs ∧ t.pow = s.pow ∧ t.stw = s.stw ∧
  t.mem = s.mem ∧ t.eth = s.eth ∧ t.fau = s.fau ∧ t.cip = s.cip ∧ t.caps = s.caps ∧ t.mns = s.mns ∧ t.sea = s.sea ∧
  t.plx = s.plx ∧ t.air = s.air ∧ t.sc = s.sc ∧ t.spl = s.spl ∧ t.cnv = s.cnv ∧ t.chans = s.chans ∧ t.loops = s.loops

/-- `t` differs from `s` in `regs` and `lin` alone. -/
abbrev ButRegsLining (s t : State) : Prop :=
  t.pending = s.pending ∧ t.free = s.free ∧ t.now = s.now ∧ t.pow = s.pow ∧ t.stw = s.stw ∧ t.mem = s.mem ∧
  t.eth = s.eth ∧ t.fau = s.fau ∧ t.cip = s.cip ∧ t.caps = s.caps ∧ t.mns = s.mns ∧ t.sea = s.sea ∧ t.plx = s.plx ∧
  t.air = s.air ∧ t.sc = s.sc ∧ t.spl = s.spl ∧ t.cnv = s.cnv ∧ t.chans = s.chans ∧ t.loops = s.loops

/-- `t` differs from `s` in `fau` alone. -/
abbrev ButFau (s t : State) : Prop :=
  t.pending = s.pending ∧ t.free = s.free ∧ t.now = s.now ∧ t.regs = s.regs ∧ t.pow = s.pow ∧ t.lin = s.lin ∧
  t.stw = s.stw ∧ t.mem = s.mem ∧ t.eth = s.eth ∧ t.cip = s.cip ∧ t.caps = s.caps ∧ t.mns = s.mns ∧ t.sea = s.sea ∧
  t.plx = s.plx ∧ t.air = s.air ∧ t.sc = s.sc ∧ t.spl = s.spl ∧ t.cnv = s.cnv ∧ t.chans = s.chans ∧ t.loops = s.loops

/-- `t` differs from `s` in `caps` alone. -/
abbrev ButCaps (s t : State) : Prop :=
  t.pending = s.pending ∧ t.free = s.free ∧ t.now = s.now ∧ t.regs = s.regs ∧ t.pow = s.pow ∧ t.lin = s.lin ∧
  t.stw = s.stw ∧ t.mem = s.mem ∧ t.eth = s.eth ∧ t.fau = s.fau ∧ t.cip = s.cip ∧ t.mns = s.mns ∧ t.sea = s.sea ∧
  t.plx = s.plx ∧ t.air = s.air ∧ t.sc = s.sc ∧ t.spl = s.spl ∧ t.cnv = s.cnv ∧ t.chans = s.chans ∧ t.loops = s.loops

/-- `t` differs from `s` in `mns` alone. -/
abbrev ButMns (s t : State) : Prop :=
  t.pending = s.pending ∧ t.free = s.free ∧ t.now = s.now ∧ t.regs = s.regs ∧ t.pow = s.pow ∧ t.lin = s.lin ∧
  t.stw = s.stw ∧ t.mem = s.mem ∧ t.eth = s.eth ∧ t.fau = s.fau ∧ t.cip = s.cip ∧ t.caps = s.caps ∧ t.sea = s.sea ∧
  t.plx = s.plx ∧ t.air = s.air ∧ t.sc = s.sc ∧ t.spl = s.spl ∧ t.cnv = s.cnv ∧ t.chans = s.chans ∧ t.loops = s.loops

/-- `t` differs from `s` in `sea` alone. -/
abbrev ButSea (s t : State) : Prop :=
  t.pending = s.pending ∧ t.free = s.free ∧ t.now = s.now ∧ t.regs = s.regs ∧ t.pow = s.pow ∧ t.lin = s.lin ∧
  t.stw = s.stw ∧ t.mem = s.mem ∧ t.eth = s.eth ∧ t.fau = s.fau ∧ t.cip = s.cip ∧ t.caps = s.caps ∧ t.mns = s.mns ∧
  t.plx = s.plx ∧ t.air = s.air ∧ t.sc = s.sc ∧ t.spl = s.spl ∧ t.cnv = s.cnv ∧ t.chans = s.chans ∧ t.loops = s.loops

/-- `t` differs from `s` in `plx` alone. -/
abbrev ButPlx (s t : State) : Prop :=
  t.pending = s.pending ∧ t.free = s.free ∧ t.now = s.now ∧ t.regs = s.regs ∧ t.pow = s.pow ∧ t.lin = s.lin ∧
  t.stw = s.stw ∧ t.mem = s.mem ∧ t.eth = s.eth ∧ t.fau = s.fau ∧ t.cip = s.cip ∧ t.caps = s.caps ∧ t.mns = s.mns ∧
  t.sea = s.sea ∧ t.air = s.air ∧ t.sc = s.sc ∧ t.spl = s.spl ∧ t.cnv = s.cnv ∧ t.chans = s.chans ∧ t.loops = s.loops

/-- `t` differs from `s` in `lin` and `plx` alone. -/
abbrev ButPlxLining (s t : State) : Prop :=
  t.pending = s.pending ∧ t.free = s.free ∧ t.now = s.now ∧ t.regs = s.regs ∧ t.pow = s.pow ∧ t.stw = s.stw ∧
  t.mem = s.mem ∧ t.eth = s.eth ∧ t.fau = s.fau ∧ t.cip = s.cip ∧ t.caps = s.caps ∧ t.mns = s.mns ∧ t.sea = s.sea ∧
  t.air = s.air ∧ t.sc = s.sc ∧ t.spl = s.spl ∧ t.cnv = s.cnv ∧ t.chans = s.chans ∧ t.loops = s.loops

/-- `t` differs from `s` in `air` alone. -/
abbrev ButAir (s t : State) : Prop :=
  t.pending = s.pending ∧ t.free = s.free ∧ t.now = s.now ∧ t.regs = s.regs ∧ t.pow = s.pow ∧ t.lin = s.lin ∧
  t.stw = s.stw ∧ t.mem = s.mem ∧ t.eth = s.eth ∧ t.fau = s.fau ∧ t.cip = s.cip ∧ t.caps = s.caps ∧ t.mns = s.mns ∧
  t.sea = s.sea ∧ t.plx = s.plx ∧ t.sc = s.sc ∧ t.spl = s.spl ∧ t.cnv = s.cnv ∧ t.chans = s.chans ∧ t.loops = s.loops

/-- `t` differs from `s` in `lin` and `air` alone. -/
abbrev ButAirLining (s t : State) : Prop :=
  t.pending = s.pending ∧ t.free = s.free ∧ t.now = s.now ∧ t.regs = s.regs ∧ t.pow = s.pow ∧ t.stw = s.stw ∧
  t.mem = s.mem ∧ t.eth = s.eth ∧ t.fau = s.fau ∧ t.cip = s.cip ∧ t.caps = s.caps ∧ t.mns = s.mns ∧ t.sea = s.sea ∧
  t.plx = s.plx ∧ t.sc = s.sc ∧ t.spl = s.spl ∧ t.cnv = s.cnv ∧ t.chans = s.chans ∧ t.loops = s.loops

/-- `t` differs from `s` in `sc` alone. -/
abbrev ButSc (s t : State) : Prop :=
  t.pending = s.pending ∧ t.free = s.free ∧ t.now = s.now ∧ t.regs = s.regs ∧ t.pow = s.pow ∧ t.lin = s.lin ∧
  t.stw = s.stw ∧ t.mem = s.mem ∧ t.eth = s.eth ∧ t.fau = s.fau ∧ t.cip = s.cip ∧ t.caps = s.caps ∧ t.mns = s.mns ∧
  t.sea = s.sea ∧ t.plx = s.plx ∧ t.air = s.air ∧ t.spl = s.spl ∧ t.cnv = s.cnv ∧ t.chans = s.chans ∧
  t.loops = s.loops

/-- `t` differs from `s` in `spl` alone. -/
abbrev ButSpl (s t : State) : Prop :=
  t.pending = s.pending ∧ t.free = s.free ∧ t.now = s.now ∧ t.regs = s.regs ∧ t.pow = s.pow ∧ t.lin = s.lin ∧
  t.stw = s.stw ∧ t.mem = s.mem ∧ t.eth = s.eth ∧ t.fau = s.fau ∧ t.cip = s.cip ∧ t.caps = s.caps ∧ t.mns = s.mns ∧
  t.sea = s.sea ∧ t.plx = s.plx ∧ t.air = s.air ∧ t.sc = s.sc ∧ t.cnv = s.cnv ∧ t.chans = s.chans ∧ t.loops = s.loops

/-- `t` differs from `s` in `cnv` alone. -/
abbrev ButCnv (s t : State) : Prop :=
  t.pending = s.pending ∧ t.free = s.free ∧ t.now = s.now ∧ t.regs = s.regs ∧ t.pow = s.pow ∧ t.lin = s.lin ∧
  t.stw = s.stw ∧ t.mem = s.mem ∧ t.eth = s.eth ∧ t.fau = s.fau ∧ t.cip = s.cip ∧ t.caps = s.caps ∧ t.mns = s.mns ∧
  t.sea = s.sea ∧ t.plx = s.plx ∧ t.air = s.air ∧ t.sc = s.sc ∧ t.spl = s.spl ∧ t.chans = s.chans ∧ t.loops = s.loops

/-- `t` differs from `s` in `chans` alone. -/
abbrev ButChans (s t : State) : Prop :=
  t.pending = s.pending ∧ t.free = s.free ∧ t.now = s.now ∧ t.regs = s.regs ∧ t.pow = s.pow ∧ t.lin = s.lin ∧
  t.stw = s.stw ∧ t.mem = s.mem ∧ t.eth = s.eth ∧ t.fau = s.fau ∧ t.cip = s.cip ∧ t.caps = s.caps ∧ t.mns = s.mns ∧
  t.sea = s.sea ∧ t.plx = s.plx ∧ t.air = s.air ∧ t.sc = s.sc ∧ t.spl = s.spl ∧ t.cnv = s.cnv ∧ t.loops = s.loops

/-- `t` differs from `s` in `loops` alone. -/
abbrev ButLoops (s t : State) : Prop :=
  t.pending = s.pending ∧ t.free = s.free ∧ t.now = s.now ∧ t.regs = s.regs ∧ t.pow = s.pow ∧ t.lin = s.lin ∧
  t.stw = s.stw ∧ t.mem = s.mem ∧ t.eth = s.eth ∧ t.fau = s.fau ∧ t.cip = s.cip ∧ t.caps = s.caps ∧ t.mns = s.mns ∧
  t.sea = s.sea ∧ t.plx = s.plx ∧ t.air = s.air ∧ t.sc = s.sc ∧ t.spl = s.spl ∧ t.cnv = s.cnv ∧ t.chans = s.chans

/-! ## The updates -/

@[simp] theorem State.setReg_frame (s : State) (x : FRef) (i j v : Nat) : ButRegs s (s.setReg x i j v) :=
  ⟨rfl, rfl, rfl, rfl, rfl, rfl, rfl, rfl, rfl, rfl, rfl, rfl, rfl, rfl, rfl, rfl, rfl, rfl, rfl, rfl⟩

@[simp] theorem State.setEp_frame (s : State) (p : Nat) (e : EthPort) : ButEth s (s.setEp p e) :=
  ⟨rfl, rfl, rfl, rfl, rfl, rfl, rfl, rfl, rfl, rfl, rfl, rfl, rfl, rfl, rfl, rfl, rfl, rfl, rfl, rfl⟩

@[simp] theorem State.setSess_frame (s : State) (k : Nat) (x : Session) : ButStw s (s.setSess k x) :=
  ⟨rfl, rfl, rfl, rfl, rfl, rfl, rfl, rfl, rfl, rfl, rfl, rfl, rfl, rfl, rfl, rfl, rfl, rfl, rfl, rfl⟩

@[simp] theorem State.setFlight_frame (s : State) (f : Flight) : ButStw s (s.setFlight f) :=
  ⟨rfl, rfl, rfl, rfl, rfl, rfl, rfl, rfl, rfl, rfl, rfl, rfl, rfl, rfl, rfl, rfl, rfl, rfl, rfl, rfl⟩

@[simp] theorem State.setPhase_frame (s : State) (x : Nat) (p : Phase) : ButMns s (s.setPhase x p) :=
  ⟨rfl, rfl, rfl, rfl, rfl, rfl, rfl, rfl, rfl, rfl, rfl, rfl, rfl, rfl, rfl, rfl, rfl, rfl, rfl, rfl⟩

@[simp] theorem State.setTimer_frame (s : State) (n : Nat) (x : PleatTimer) : ButMns s (s.setTimer n x) :=
  ⟨rfl, rfl, rfl, rfl, rfl, rfl, rfl, rfl, rfl, rfl, rfl, rfl, rfl, rfl, rfl, rfl, rfl, rfl, rfl, rfl⟩

@[simp] theorem State.setSea_frame (s : State) (x : Sea) : ButSea s (s.setSea x) :=
  ⟨rfl, rfl, rfl, rfl, rfl, rfl, rfl, rfl, rfl, rfl, rfl, rfl, rfl, rfl, rfl, rfl, rfl, rfl, rfl, rfl⟩

@[simp] theorem State.setLp_frame (s : State) (n : Nat) (p : LinePort) : ButPlx s (s.setLp n p) :=
  ⟨rfl, rfl, rfl, rfl, rfl, rfl, rfl, rfl, rfl, rfl, rfl, rfl, rfl, rfl, rfl, rfl, rfl, rfl, rfl, rfl⟩

@[simp] theorem State.setLs_frame (s : State) (n m : Nat) (x : LineSlot) : ButPlx s (s.setLs n m x) :=
  ⟨rfl, rfl, rfl, rfl, rfl, rfl, rfl, rfl, rfl, rfl, rfl, rfl, rfl, rfl, rfl, rfl, rfl, rfl, rfl, rfl⟩

@[simp] theorem State.setNode_frame (s : State) (k : Nat) (x : Option Node) : ButPlxLining s (s.setNode k x) :=
  ⟨rfl, rfl, rfl, rfl, rfl, rfl, rfl, rfl, rfl, rfl, rfl, rfl, rfl, rfl, rfl, rfl, rfl, rfl, rfl⟩

@[simp] theorem State.setAp_frame (s : State) (n : Nat) (p : AirPort) : ButAir s (s.setAp n p) :=
  ⟨rfl, rfl, rfl, rfl, rfl, rfl, rfl, rfl, rfl, rfl, rfl, rfl, rfl, rfl, rfl, rfl, rfl, rfl, rfl, rfl⟩

@[simp] theorem State.setAc_frame (s : State) (n m : Nat) (x : AirChan) : ButAir s (s.setAc n m x) :=
  ⟨rfl, rfl, rfl, rfl, rfl, rfl, rfl, rfl, rfl, rfl, rfl, rfl, rfl, rfl, rfl, rfl, rfl, rfl, rfl, rfl⟩

@[simp] theorem State.setAcct_frame (s : State) (a : Nat) (x : Duty) : ButAir s (s.setAcct a x) :=
  ⟨rfl, rfl, rfl, rfl, rfl, rfl, rfl, rfl, rfl, rfl, rfl, rfl, rfl, rfl, rfl, rfl, rfl, rfl, rfl, rfl⟩

@[simp] theorem State.setSensor_frame (s : State) (k : Nat) (x : Option Sensor) : ButAirLining s (s.setSensor k x) :=
  ⟨rfl, rfl, rfl, rfl, rfl, rfl, rfl, rfl, rfl, rfl, rfl, rfl, rfl, rfl, rfl, rfl, rfl, rfl, rfl⟩

@[simp] theorem State.setDown_frame (s : State) (d : AirDown) : ButAir s (s.setDown d) :=
  ⟨rfl, rfl, rfl, rfl, rfl, rfl, rfl, rfl, rfl, rfl, rfl, rfl, rfl, rfl, rfl, rfl, rfl, rfl, rfl, rfl⟩

@[simp] theorem State.setGroup_frame (s : State) (g : Group) : ButSc s (s.setGroup g) :=
  ⟨rfl, rfl, rfl, rfl, rfl, rfl, rfl, rfl, rfl, rfl, rfl, rfl, rfl, rfl, rfl, rfl, rfl, rfl, rfl, rfl⟩

@[simp] theorem State.setSp_frame (s : State) (n : Nat) (x : Spool) : ButSpl s (s.setSp n x) :=
  ⟨rfl, rfl, rfl, rfl, rfl, rfl, rfl, rfl, rfl, rfl, rfl, rfl, rfl, rfl, rfl, rfl, rfl, rfl, rfl, rfl⟩

@[simp] theorem State.setCnv_frame (s : State) (c : Cnv) : ButCnv s (s.setCnv c) :=
  ⟨rfl, rfl, rfl, rfl, rfl, rfl, rfl, rfl, rfl, rfl, rfl, rfl, rfl, rfl, rfl, rfl, rfl, rfl, rfl, rfl⟩

@[simp] theorem State.setExc_frame (s : State) (n : Nat) (x : Exc) : ButCnv s (s.setExc n x) :=
  ⟨rfl, rfl, rfl, rfl, rfl, rfl, rfl, rfl, rfl, rfl, rfl, rfl, rfl, rfl, rfl, rfl, rfl, rfl, rfl, rfl⟩

@[simp] theorem State.setChan_frame (s : State) (e : Nat) (c : Chan) : ButChans s (s.setChan e c) :=
  ⟨rfl, rfl, rfl, rfl, rfl, rfl, rfl, rfl, rfl, rfl, rfl, rfl, rfl, rfl, rfl, rfl, rfl, rfl, rfl, rfl⟩

@[simp] theorem State.setLoop_frame (s : State) (n : Nat) (x : Loop) : ButLoops s (s.setLoop n x) :=
  ⟨rfl, rfl, rfl, rfl, rfl, rfl, rfl, rfl, rfl, rfl, rfl, rfl, rfl, rfl, rfl, rfl, rfl, rfl, rfl, rfl⟩

@[simp] theorem State.setEng_frame (s : State) (n : Nat) (e : Engine) : ButFau s (s.setEng n e) :=
  ⟨rfl, rfl, rfl, rfl, rfl, rfl, rfl, rfl, rfl, rfl, rfl, rfl, rfl, rfl, rfl, rfl, rfl, rfl, rfl, rfl⟩

@[simp] theorem State.setPair_frame (s : State) (n : Nat) (p : PairState) : ButFau s (s.setPair n p) :=
  ⟨rfl, rfl, rfl, rfl, rfl, rfl, rfl, rfl, rfl, rfl, rfl, rfl, rfl, rfl, rfl, rfl, rfl, rfl, rfl, rfl⟩

/-! ## Reading what an update wrote -/

@[simp] theorem State.setReg_regs (s : State) (x : FRef) (i j v : Nat) : (s.setReg x i j v).regs = s.regs.put x i j v := rfl
@[simp] theorem State.setSess_sess (s : State) (k : Nat) (x : Session) :
    (s.setSess k x).stw = { s.stw with sess := tset s.stw.sess k x } := rfl
@[simp] theorem State.setSea_sea (s : State) (x : Sea) : (s.setSea x).sea = x := rfl
@[simp] theorem State.setCnv_cnv (s : State) (c : Cnv) : (s.setCnv c).cnv = c := rfl

theorem State.ep_setEp (s : State) (p : Nat) (e : EthPort) (q : Nat) : (s.setEp p e).ep q = if q = p then e else s.ep q :=
  tget_tset _ _ _ _ _
theorem State.phase_setPhase (s : State) (x : Nat) (p : Phase) (y : Nat) :
    (s.setPhase x p).phase y = if y = x then p else s.phase y := tget_tset _ _ _ _ _
theorem State.timer_setTimer (s : State) (n : Nat) (x : PleatTimer) (m : Nat) :
    (s.setTimer n x).timer m = if m = n then x else s.timer m := tget_tset _ _ _ _ _
theorem State.lp_setLp (s : State) (n : Nat) (p : LinePort) (m : Nat) :
    (s.setLp n p).lp m = if m = n then p else s.lp m := tget_tset _ _ _ _ _
theorem State.ls_setLs (s : State) (n m : Nat) (x : LineSlot) (k : Nat) :
    (s.setLs n m x).ls n k = if k = m then x else s.ls n k := by
  simp [State.ls, State.setLs, State.lp_setLp, tget_tset]
theorem State.ap_setAp (s : State) (n : Nat) (p : AirPort) (m : Nat) :
    (s.setAp n p).ap m = if m = n then p else s.ap m := tget_tset _ _ _ _ _
theorem State.ac_setAc (s : State) (n m : Nat) (x : AirChan) (k : Nat) :
    (s.setAc n m x).ac n k = if k = m then x else s.ac n k := by
  simp [State.ac, State.setAc, State.ap_setAp, tget_tset]
theorem State.sp_setSp (s : State) (n : Nat) (x : Spool) (m : Nat) :
    (s.setSp n x).sp m = if m = n then x else s.sp m := tget_tset _ _ _ _ _
theorem State.chan_setChan (s : State) (e : Nat) (c : Chan) (f : Nat) :
    (s.setChan e c).chan f = if f = e then c else s.chan f := tget_tset _ _ _ _ _
theorem State.loop_setLoop (s : State) (n : Nat) (x : Loop) (m : Nat) :
    (s.setLoop n x).loop m = if m = n then x else s.loop m := tget_tset _ _ _ _ _
theorem State.exc_setExc (s : State) (n : Nat) (x : Exc) (m : Nat) :
    (s.setExc n x).exc m = if m = n then x else s.exc m := tget_tset _ _ _ _ _
theorem State.eng_setEng (s : State) (n : Nat) (e : Engine) (m : Nat) :
    (s.setEng n e).eng m = if m = n then e else s.eng m := tget_tset _ _ _ _ _
theorem State.node?_setNode (s : State) (k : Nat) (x : Option Node) (m : Nat) :
    (s.setNode k x).node? m = if m = k then x else s.node? m := by
  cases x <;> simp [State.node?, State.setNode, tget?_tset, tget?_tdel]
theorem State.sensor?_setSensor (s : State) (k : Nat) (x : Option Sensor) (m : Nat) :
    (s.setSensor k x).sensor? m = if m = k then x else s.sensor? m := by
  cases x <;> simp [State.sensor?, State.setSensor, tget?_tset, tget?_tdel]

end Sys2Proof.Machine
end

