-- ==== Sys2Proof/Laws/Ops.lean ====
section
/-!
SUPPORT. Laws/Ops.lean: what each shared operation of Machine/Ops.lean can change: one lemma each, a simp rule for every
block of State that the operation leaves.
-/

namespace Sys2Proof.Machine

open Sys2Proof

/-! ## Repeated operations -/

/-- A property of states that each step of a loop keeps holds after the loop. -/
theorem foldl_keeps {β : Type} (P : State → Prop) (f : State → β → State) (h : ∀ s b, P s → P (f s b)) (l : List β)
    (s : State) (hs : P s) : P (l.foldl f s) := by
  induction l generalizing s with
  | nil => exact hs
  | cons b l ih => exact ih _ (h s b hs)

/-- A loop whose steps leave all but the mailboxes and the ports leaves them. -/
theorem foldl_butMail {β : Type} (f : State → β → State) (h : ∀ s b, ButMail s (f s b)) (l : List β) (s : State) :
    ButMail s (l.foldl f s) := by
  refine foldl_keeps (fun t => ButMail s t) f (fun a b ha => ?_) l s (by simp [ButMail])
  have hb := h a b
  simp only [ButMail] at *
  simp [hb, ha]

/-- The same with the memory, its registers and the fault log besides. -/
theorem foldl_butMemory {β : Type} (f : State → β → State) (h : ∀ s b, ButMemory s (f s b)) (l : List β) (s : State) :
    ButMemory s (l.foldl f s) := by
  refine foldl_keeps (fun t => ButMemory s t) f (fun a b ha => ?_) l s (by simp [ButMemory])
  have hb := h a b
  simp only [ButMemory] at *
  simp [hb, ha]

/-! ## Time -/

@[simp] theorem State.tick_now (s : State) (t : Nat) : (s.tick t).now = max s.now t := rfl
@[simp] theorem State.tick_pending (s : State) (t : Nat) : (s.tick t).pending = s.pending := rfl
@[simp] theorem State.tick_regs (s : State) (t : Nat) : (s.tick t).regs = s.regs := rfl
@[simp] theorem State.tick_pow (s : State) (t : Nat) : (s.tick t).pow = s.pow := rfl
@[simp] theorem State.tick_lin (s : State) (t : Nat) : (s.tick t).lin = s.lin := rfl
@[simp] theorem State.tick_stw (s : State) (t : Nat) : (s.tick t).stw = s.stw := rfl
@[simp] theorem State.tick_mem (s : State) (t : Nat) : (s.tick t).mem = s.mem := rfl
@[simp] theorem State.tick_eth (s : State) (t : Nat) : (s.tick t).eth = s.eth := rfl
@[simp] theorem State.tick_fau (s : State) (t : Nat) : (s.tick t).fau = s.fau := rfl
@[simp] theorem State.tick_cip (s : State) (t : Nat) : (s.tick t).cip = s.cip := rfl
@[simp] theorem State.tick_caps (s : State) (t : Nat) : (s.tick t).caps = s.caps := rfl
@[simp] theorem State.tick_mns (s : State) (t : Nat) : (s.tick t).mns = s.mns := rfl
@[simp] theorem State.tick_sea (s : State) (t : Nat) : (s.tick t).sea = s.sea := rfl
@[simp] theorem State.tick_plx (s : State) (t : Nat) : (s.tick t).plx = s.plx := rfl
@[simp] theorem State.tick_air (s : State) (t : Nat) : (s.tick t).air = s.air := rfl
@[simp] theorem State.tick_sc (s : State) (t : Nat) : (s.tick t).sc = s.sc := rfl
@[simp] theorem State.tick_spl (s : State) (t : Nat) : (s.tick t).spl = s.spl := rfl
@[simp] theorem State.tick_cnv (s : State) (t : Nat) : (s.tick t).cnv = s.cnv := rfl
@[simp] theorem State.tick_chans (s : State) (t : Nat) : (s.tick t).chans = s.chans := rfl
@[simp] theorem State.tick_loops (s : State) (t : Nat) : (s.tick t).loops = s.loops := rfl

/-- Every meaning built on `whenOn` answers a next state. -/
theorem whenOn_next (t : Nat) (f : State → State) (s : State) : ∃ u, whenOn t f s = .next u := ⟨_, rfl⟩

theorem whenOn_on (t : Nat) (f : State → State) (s : State) (h : s.pow.on = true) : whenOn t f s = .next (f (s.tick t)) := by
  simp [whenOn, h]

theorem whenOn_off (t : Nat) (f : State → State) (s : State) (h : s.pow.on = false) : whenOn t f s = .next s := by
  simp [whenOn, h]

/-! ## Registers -/

@[simp] theorem State.bumpBy_frame (s : State) (x : FRef) (i n : Nat) : ButRegs s (s.bumpBy x i n) := by
  simp [ButRegs, State.bumpBy]

@[simp] theorem State.bump_frame (s : State) (x : FRef) (i : Nat) : ButRegs s (s.bump x i) := by
  simp [ButRegs, State.bump]

@[simp] theorem State.wrapBy_frame (s : State) (x : FRef) (i n : Nat) : ButRegs s (s.wrapBy x i n) := by
  simp [ButRegs, State.wrapBy]

@[simp] theorem State.applyReg_frame (s : State) (a : Nat) (v : Word) : ButRegs s (s.applyReg a v) := by
  simp [ButRegs, State.applyReg]

/-! ## Ethernet queues -/

@[simp] theorem State.queueFrame_frame (s : State) (p q : Nat) (h : Bool) (f : Frame) : ButEth s (s.queueFrame p q h f) := by
  simp [ButEth, State.queueFrame]

/-- A frame queued stands in its queue, and the rest of that port stays. -/
theorem State.queueFrame_ep (s : State) (p q : Nat) (h : Bool) (f : Frame) (p' : Nat) :
    (s.queueFrame p q h f).ep p' =
      if p' = s.txPort p then
        { s.ep p' with
          queues := tset (s.ep p').queues q
            (if h then { f with proto := s.protoOf f } :: tget [] (s.ep p').queues q
            else tget [] (s.ep p').queues q ++ [{ f with proto := s.protoOf f }]) }
      else s.ep p' := by
  by_cases hp : p' = s.txPort p
  · subst hp
    simp [State.queueFrame, State.setEp, State.ep]
  · simp [State.queueFrame, State.setEp, State.ep, tget_tset, hp]

/-! ## Sessions and events -/

@[simp] theorem State.sendEvent_frame (s : State) (k : Nat) (x : Session) (e : StoredEvent) : ButEth s (s.sendEvent k x e) := by
  simp [ButEth, State.sendEvent]

@[simp] theorem State.postEvent_frame (s : State) (k : Nat) (x : Session) (b : List Byte) : ButMail s (s.postEvent k x b) := by
  simp only [State.postEvent]
  split
  · simp [ButMail]
  · split <;> simp [ButMail]

@[simp] theorem State.raiseAt_frame (s : State) (a c b i : Nat) (d : List Byte) : ButMail s (s.raiseAt a c b i d) := by
  simp only [State.raiseAt]
  split
  · simp [ButMail]
  · refine foldl_butMail _ (fun s e => ?_) _ s
    split
    · split <;> simp [ButMail]
    · simp [ButMail]

@[simp] theorem State.raise_frame (s : State) (c b i : Nat) (d : List Byte) : ButMail s (s.raise c b i d) :=
  State.raiseAt_frame s _ _ _ _ _

@[simp] theorem State.eventsLost_frame (s : State) (k : Nat) : ButMail s (s.eventsLost k) := by
  simp only [State.eventsLost]
  split
  · split <;> simp [ButMail]
  · simp [ButMail]

@[simp] theorem State.sendRecord_frame (s : State) (k : Nat) (x : Session) (r : StoredRec) (b : List Byte) :
    ButEth s (s.sendRecord k x r b) := by
  simp only [State.sendRecord]
  split
  · split <;> simp [ButEth]
  · simp [ButEth]

@[simp] theorem State.recordsLost_frame (s : State) (k : Nat) : ButMail s (s.recordsLost k) := by
  simp only [State.recordsLost]
  split
  · split
    · exact State.postEvent_frame _ _ _ _
    · simp [ButMail]
  · simp [ButMail]

@[simp] theorem State.deliverTo_frame (s : State) (k : Nat) (x : Session) (id : Nat) (full : Bool) (b : List Byte) :
    ButMail s (s.deliverTo k x id full b) := by
  simp only [State.deliverTo]
  split
  · simp [ButMail]
  · split <;> simp [ButMail]

@[simp] theorem State.deliver_frame (s : State) (kind : Nat) (b : List Byte) : ButMail s (s.deliver kind b) := by
  have h1 : ∀ (l : List (Nat × Session)) (id : Nat) (full : Bool) (s : State),
      ButMail s (l.foldl (fun s e =>
        match tget? s.stw.sess e.1 with
        | some x => s.deliverTo e.1 x id full b
        | none => s) s) := by
    intro l id full s
    refine foldl_butMail _ (fun s e => ?_) l s
    split
    · exact State.deliverTo_frame _ _ _ _ _ _
    · simp [ButMail]
  have h2 : ∀ (l : List (Nat × Session)) (s : State), ButMail s (l.foldl (fun s e => s.recordsLost e.1) s) :=
    fun l s => foldl_butMail _ (fun s e => State.recordsLost_frame s e.1) l s
  unfold State.deliver
  extract_lets full takers fits id w s1 s2
  have hs1 : ButMail s s1 := by
    simp only [s1, ButMail]
    split
    · simp
    · split <;> simp
  have hs2 : ButMail s1 s2 := h1 _ _ _ _
  have hs3 := h2 takers s2
  simp only [ButMail] at hs1 hs2 hs3 ⊢
  simp [hs1, hs2, hs3]

/-! ## Responses -/

@[simp] theorem State.answer_frame (s : State) (f : Flight) (d : Bool) (st : Nat) (o : List Byte) (e : Bool) :
    ButMail s (s.answer f d st o e) := by
  simp only [State.answer]
  split <;> simp [ButMail]

@[simp] theorem State.finish_frame (s : State) (f : Flight) (d : Bool) (st : Nat) (o : List Byte) (e : Bool) :
    ButMail s (s.finish f d st o e) := by
  simp only [State.finish]
  split
  · simp [ButMail, State.recordFinal, State.setFlight]
  · exact State.answer_frame _ _ _ _ _ _

@[simp] theorem State.sendPending_frame (s : State) (f : Flight) (n : Nat) : ButEth s (s.sendPending f n) := by
  simp only [State.sendPending]
  split <;> simp [ButEth]

@[simp] theorem State.finishRef_frame (s : State) (ref st : Nat) (o : List Byte) : ButMail s (s.finishRef ref st o) := by
  simp only [State.finishRef]
  split <;> simp [ButMail]

/-- A final response that is given takes the command out of flight. -/
theorem State.answer_flights (s : State) (f : Flight) (d : Bool) (st : Nat) (o : List Byte) (e : Bool) :
    (s.answer f d st o e).stw.flights = s.stw.flights.filter fun g => decide (g.ref ≠ f.ref) := by
  simp only [State.answer]
  split <;> simp [Stw.reap, State.setSess]

/-- While a pair runs, or for a command that the hardware answers, a final response is given at once. -/
theorem State.finish_answer (s : State) (f : Flight) (d : Bool) (st : Nat) (o : List Byte) (e : Bool)
    (h : f.opcode < 0x300 ∨ s.pairActive = true) : s.finish f d st o e = s.answer f d st o e := by
  have : ¬ (0x300 ≤ f.opcode ∧ s.pairActive = false) := by
    rintro ⟨a, b⟩
    rcases h with h | h
    · omega
    · simp [h] at b
  simp [State.finish, this]

/-- While no pair runs, the final response of a firmware command is recorded, and the command stays in flight. -/
theorem State.finish_records (s : State) (f : Flight) (d : Bool) (st : Nat) (o : List Byte) (e : Bool)
    (h : 0x300 ≤ f.opcode) (hp : s.pairActive = false) : s.finish f d st o e = s.recordFinal f st o := by
  simp [State.finish, h, hp]

/-! ## The fault log and memory -/

@[simp] theorem State.logFaultAt_frame (s : State) (a k b i o d t c n e : Nat) (g : Option Nat) :
    ButFaults s (s.logFaultAt a k b i o d t c n e g) := by
  simp only [State.logFaultAt]
  split <;> simp [ButFaults]

@[simp] theorem State.logFault_frame (s : State) (k b i o d t c n e : Nat) (g : Option Nat) :
    ButFaults s (s.logFault k b i o d t c n e g) :=
  State.logFaultAt_frame s _ _ _ _ _ _ _ _ _ _ _

@[simp] theorem State.foundRotten_frame (s : State) (b c : Nat) : ButMemory s (s.foundRotten b c) := by
  simp [ButMemory, State.foundRotten]

@[simp] theorem State.foundRotten_cells (s : State) (b c : Nat) : (s.foundRotten b c).mem.cells = s.mem.cells := by
  have h := State.raise_frame
  simp [State.foundRotten]

@[simp] theorem State.consume_frame (s : State) (b a n : Nat) : ButMemory s (s.consume b a n) :=
  foldl_butMemory _ (fun s c => State.foundRotten_frame s b c) _ s

@[simp] theorem State.consume_cells (s : State) (b a n : Nat) : (s.consume b a n).mem.cells = s.mem.cells :=
  foldl_keeps (fun t => t.mem.cells = s.mem.cells) _ (fun t c h => by simpa using h) _ s rfl

@[simp] theorem State.consumePart_frame (s : State) (b a n : Nat) : ButMemory s (s.consumePart b a n) :=
  foldl_butMemory _ (fun s c => State.foundRotten_frame s b c) _ s

@[simp] theorem State.consumePart_cells (s : State) (b a n : Nat) : (s.consumePart b a n).mem.cells = s.mem.cells :=
  foldl_keeps (fun t => t.mem.cells = s.mem.cells) _ (fun t c h => by simpa using h) _ s rfl

/-- A range that takes octets changes device memory alone: its octets, their codewords, and which descriptors are spoilt. -/
theorem State.put_eq (s : State) (a : Nat) (d : List Byte) :
    s.put a d = { s with mem := { s.mem.store a d with spoilt := (s.put a d).mem.spoilt } } := rfl

@[simp] theorem State.put_frame (s : State) (a : Nat) (d : List Byte) : ButMemory s (s.put a d) := by
  simp [ButMemory, State.put]

theorem State.put_read (s : State) (a : Nat) (d : List Byte) (x : Nat) :
    (s.put a d).mem.read x = if a ≤ x ∧ x < a + d.length then d.getD (x - a) 0 else s.mem.read x :=
  Mem.read_store _ _ _ _

theorem State.put_wf (s : State) (a : Nat) (d : List Byte) (h : s.mem.wf = true) : (s.put a d).mem.wf = true :=
  Mem.store_wf s.mem a d h

@[simp] theorem State.writeMem_frame (s : State) (b a : Nat) (d : List Byte) : ButMemory s (s.writeMem b a d).1 := by
  simp [ButMemory, State.writeMem, State.put]

/-- A write of a range changes the octets of the range alone. -/
theorem State.writeMem_read (s : State) (b a : Nat) (d : List Byte) (x : Nat) :
    (s.writeMem b a d).1.mem.read x = if a ≤ x ∧ x < a + d.length then d.getD (x - a) 0 else s.mem.read x := by
  simp only [State.writeMem, State.put_read]
  simp [Mem.read]

theorem State.writeMem_wf (s : State) (b a : Nat) (d : List Byte) (h : s.mem.wf = true) :
    (s.writeMem b a d).1.mem.wf = true := by
  refine State.put_wf _ _ _ ?_
  rw [Mem.wf_iff] at *
  simpa using h

/-! ## Lining records -/

@[simp] theorem State.linWrite_frame (s : State) (r : LinRec) (ref : Option Nat) : ButLining s (s.linWrite r ref) := by
  simp [ButLining, State.linWrite]

@[simp] theorem State.kept_frame (s old : State) (f : Fam) (i j : Nat) : ButLining s (s.kept old f i j) := by
  simp only [State.kept]
  split <;> simp [ButLining]

@[simp] theorem State.keepSnap_frame (s : State) (n : List (Nat × Word)) : ButLining s (s.keepSnap n) := by
  simp [ButLining, State.keepSnap]

@[simp] theorem State.handedOver_frame (s : State) (f : Fam) (i : Nat) : ButRegsLining s (s.handedOver f i) := by
  simp [ButRegsLining, State.handedOver]

/-! ## Captures and contexts -/

@[simp] theorem State.gapCaptures_frame (s : State) (p : Capture → Bool) : ButCaps s (s.gapCaptures p) := by
  simp [ButCaps, State.gapCaptures]

@[simp] theorem State.unplace_frame (s : State) (c : Ctx) : ButFau s (s.unplace c) := by
  simp [ButFau, State.unplace]

theorem State.place_frame (s t : State) (c : Ctx) (h : s.place c = some t) : ButFau s t := by
  simp only [State.place] at h
  split at h
  · cases h; simp [ButFau]
  · split at h
    · cases h
    · cases h; simp [ButFau]

/-! ## Hand-overs, carriers and device spools -/

@[simp] theorem State.stillWait_frame (s : State) (f : Fam) (i : Nat) (w : List Nat) : ButRegs s (s.stillWait f i w) := by
  simp [ButRegs, State.stillWait]

/-- A carrier that takes effect changes the registers, and the lining and the mailbox beside them. -/
theorem State.settleCarrier_frame (s : State) :
    let t := s.settleCarrier
    t.pending = s.pending ∧ t.free = s.free ∧ t.now = s.now ∧ t.pow = s.pow ∧ t.mem = s.mem ∧ t.eth = s.eth ∧ t.fau = s.fau ∧
      t.stw = { s.stw with carrier := t.stw.carrier } := by
  simp only [State.settleCarrier]
  split
  · simp
  · split <;> simp

/-- A device spool that moves octets changes its own window and its two counters alone. -/
theorem State.spoolMoved_frame (s : State) (n b : Nat) :
    let t := s.spoolMoved n b
    t.pending = s.pending ∧ t.free = s.free ∧ t.now = s.now ∧ t.pow = s.pow ∧ t.lin = s.lin ∧ t.stw = s.stw ∧ t.mem = s.mem ∧
      t.eth = s.eth ∧ t.fau = s.fau ∧ (∀ m, m ≠ n → t.sp m = s.sp m) ∧
      t.sp n = (let i := ((s.sp n).idx + 1) % s.ringLen n; { s.sp n with idx := i, cur := i, stopIdx := i, state := 2 }) := by
  refine ⟨?_, ?_, ?_, ?_, ?_, ?_, ?_, ?_, ?_, fun m hm => ?_, ?_⟩
  case refine_10 => simp [State.spoolMoved, State.sp, State.setSp, tget_tset, hm]
  case refine_11 => simp [State.spoolMoved, State.sp, State.setSp]
  all_goals simp [State.spoolMoved]

/-! ## Inputs of contexts -/

@[simp] theorem State.accepts_frame (s : State) (c : Ctx) (n : Nat) : ButFau s (s.accepts c n) := by
  simp [ButFau, State.accepts]

/-- An input held changes the fault block alone. -/
theorem State.holdInput_fau (s : State) (h : HeldInput) : ∃ x, s.holdInput h = { s with fau := x } := by
  simp only [State.holdInput]
  split
  · exact ⟨s.fau, rfl⟩
  · exact ⟨_, rfl⟩

/-- What a context's input can do: its effects, on a state that differs in the fault block alone, with the input held after them; or,
while a spare catches up, nothing beside the fault block. -/
theorem State.input_cases (s : State) (c : Ctx) (i : Input) (f : State → State) :
    ∃ x y, s.input c i f = { f { s with fau := x } with fau := y } ∨ s.input c i f = { s with fau := y } := by
  simp only [State.input]
  split
  · split
    · exact ⟨s.fau, (f s).fau, .inl rfl⟩
    · obtain ⟨y, hy⟩ := ((f s).accepts c ((f s).fau.taken c + 1)).holdInput_fau _
      exact ⟨s.fau, y, .inl (hy.trans rfl)⟩
  · split
    · obtain ⟨y, hy⟩ := s.holdInput_fau { time := s.now, ctx := c, num := none, input := i, after := [] }
      exact ⟨s.fau, y, .inr hy⟩
    · obtain ⟨y, hy⟩ := (f (s.accepts c _)).holdInput_fau _
      exact ⟨_, y, .inl (hy.trans rfl)⟩

/-- What a checkpoint gives back to a context changes the line and air blocks alone. -/
theorem State.putCtx_cases (s : State) (e : Ctx × CtxData) : ∃ x y, s.putCtx e = { s with plx := x, air := y } := by
  unfold State.putCtx
  split
  · exact ⟨_, s.air, rfl⟩
  · exact ⟨s.plx, _, rfl⟩
  · exact ⟨s.plx, s.air, rfl⟩

theorem State.putCtxs_cases (s : State) (n : Nat) (l : List (Ctx × CtxData)) :
    ∃ x y, s.putCtxs n l = { s with plx := x, air := y } := by
  unfold State.putCtxs
  generalize l.filter _ = r
  induction r generalizing s with
  | nil => exact ⟨s.plx, s.air, rfl⟩
  | cons e r ih =>
    obtain ⟨x, y, h⟩ := s.putCtx_cases e
    obtain ⟨x', y', h'⟩ := ih (s.putCtx e)
    exact ⟨x', y', by rw [List.foldl_cons, h', h]⟩

/-! ## The level of a line port (08 R171) -/

/-- A step of SCALE begins at the level the output has. -/
@[simp] theorem LinePort.setScale_gain (p : LinePort) (k now : Nat) : (p.setScale k now).gain now = p.gain now := by
  rw [LinePort.gain]
  simp [LinePort.setScale]

/-- It ends, 64 samples later, at the level of SCALE. -/
theorem LinePort.setScale_gain_after (p : LinePort) (k now t : Nat) (h : now + 20000 ≤ t) :
    (p.setScale k now).gain t = scaleGain k := by
  simp [LinePort.gain, LinePort.setScale, Nat.not_lt.mpr h]

end Sys2Proof.Machine
end

