-- ==== Sys2Proof/Laws/Mailbox.lean ====
section
/-!
SUPPORT. Laws/Mailbox.lean: a command that passes the checks of 03 R57 enters flight, and a firmware command that is alone
is the next that the steward pair serves.
-/

namespace Sys2Proof.Machine

open Sys2Proof Sys2Proof.Safety

/-- The session of a message that has passed check 4: active now, at the message's addresses and port. -/
def Session.moved (x : Session) (now : Nat) (m : Inbound) : Session := { x with last := now, src := m.src, port := m.port }

@[simp] theorem State.tick_carrierOn (s : State) (t : Nat) (m : Inbound) : (s.tick t).carrierOn m = s.carrierOn m := rfl
@[simp] theorem State.tick_ep (s : State) (t p : Nat) : (s.tick t).ep p = s.ep p := rfl
@[simp] theorem State.tick_reg (s : State) (t : Nat) (x : FRef) (i j : Nat) : (s.tick t).reg x i j = s.reg x i j := rfl
@[simp] theorem State.tick_flag (s : State) (t : Nat) (x : FRef) (i j : Nat) : (s.tick t).flag x i j = s.flag x i j := rfl
@[simp] theorem State.tick_fwRuns (s : State) (t : Nat) : (s.tick t).fwRuns = s.fwRuns := rfl
@[simp] theorem State.tick_sessOf (s : State) (t k g : Nat) : (s.tick t).sessOf k g = s.sessOf k g := rfl

theorem State.sessOf_eq (s : State) (k g : Nat) (x : Session) (h : tget? s.stw.sess k = some x) (hg : x.gen = g) :
    s.sessOf k g = some x := by
  simp [State.sessOf, h, hg]

theorem sound_takes {s : State} {m : Inbound} {need : Nat} {x : Session} (h : Sound s m need x) : s.takes m = true := by
  simp [State.takes, h.carrier, h.whole]

theorem sound_headChecks {s : State} {m : Inbound} {need : Nat} {x : Session} (h : Sound s m need x) :
    s.headChecks m = none := by
  simp [State.headChecks, h.version, h.length, s.sessOf_eq _ _ _ h.session h.gen]

theorem sound_heard {s : State} {m : Inbound} {need : Nat} {x : Session} (h : Sound s m need x) :
    s.heard m = s.setSess m.slot (x.moved s.now m) := by
  simp [State.heard, s.sessOf_eq _ _ _ h.session h.gen, Session.moved]

theorem sound_tick {s : State} {m : Inbound} {need : Nat} {x : Session} (h : Sound s m need x) (t : Nat) :
    Sound (s.tick t) m need x := { h with }

/-- Checks 5 to 7 pass. -/
theorem sound_tagChecks {s : State} {m : Inbound} {need : Nat} {x : Session} (h : Sound s m need x) (opcode : Nat)
    (r : State) (y : Session) (hy : y.tags = x.tags) (hg : y.grant = x.grant) : r.tagChecks (cleanTag m) opcode y = none := by
  have hc : ¬ y.grant ≤ y.inFlight := by
    have := h.credit
    simp only [Session.inFlight, hy, hg] at *
    omega
  simp only [State.tagChecks, hy]
  split
  · rename_i q hq
    obtain ⟨h1, h2⟩ := h.fresh q hq
    have h1' : ¬ q.seq = (cleanTag m).seq := h1
    simp [h1', h2, hc]
  · simp [hc]

/-- A sound command is accepted: it enters flight at once. A firmware command must also find its queue open. -/
theorem sound_accept {s : State} {m : Inbound} {need : Nat} {x : Session} (h : Sound s m need x) (opcode : Nat)
    (direct : Bool) (st : Stage) (hb : direct = true ∨ (s.setSess m.slot (x.moved s.now m)).busyWith m.mb = none) :
    s.accept m opcode need direct st =
      (((s.setSess m.slot (x.moved s.now m)).enter (cleanTag m) opcode (x.moved s.now m) st).1,
        some ((s.setSess m.slot (x.moved s.now m)).enter (cleanTag m) opcode (x.moved s.now m) st).2) := by
  have e1 : s.reaches (cleanTag m) = true := h.reaches
  have e2 : s.takes (cleanTag m) = true := (show s.takes m = true from sound_takes h)
  have e3 : s.headChecks (cleanTag m) = none := (show s.headChecks m = none from sound_headChecks h)
  have e4 : s.heard (cleanTag m) = s.setSess m.slot (x.moved s.now m) := (show s.heard m = _ from sound_heard h)
  have hs : (s.setSess m.slot (x.moved s.now m)).sessOf (cleanTag m).slot (cleanTag m).gen = some (x.moved s.now m) :=
    State.sessOf_eq _ _ _ _ (by simp [cleanTag]) (by simp [Session.moved, h.gen, cleanTag])
  have ht := sound_tagChecks h opcode (s.setSess m.slot (x.moved s.now m)) (x.moved s.now m) rfl rfl
  have hr : ¬ (x.moved s.now m).rights &&& need ≠ need := by simp [Session.moved, h.rights]
  simp only [State.accept, e1, e2, e3, e4, hs, ht, hr, Bool.not_true, Bool.false_eq_true, if_false]
  cases direct with
  | true => simp
  | false =>
    have hb' : (s.setSess m.slot (x.moved s.now m)).busyWith (cleanTag m).mb = none := by simpa [cleanTag] using hb
    simp [hb']

/-- The state in which a sound command of instant `t` has entered flight. -/
def entered (s : State) (m : Inbound) (opcode t : Nat) (x : Session) (st : Stage) : State :=
  (((s.tick t).setSess m.slot (x.moved (max s.now t) m)).enter (cleanTag m) opcode (x.moved (max s.now t) m) st).1

/-- Its session there. -/
def Session.busyWith (x : Session) (now : Nat) (m : Inbound) : Session :=
  { x.moved now m with tags := tset x.tags (m.tag % 4096) { seq := m.seq, status := 0, busy := true } }

theorem entered_frame (s : State) (m : Inbound) (opcode t : Nat) (x : Session) (st : Stage) :
    ButStw (s.tick t) (entered s m opcode t x st) := by
  simp [entered, State.enter, ButStw]

theorem entered_flights (s : State) (m : Inbound) (opcode t : Nat) (x : Session) (st : Stage) :
    (entered s m opcode t x st).stw.flights = s.stw.flights ++ [flightOf s m opcode t st] := by
  simp [entered, State.enter, flightOf, cleanTag]

theorem entered_sess (s : State) (m : Inbound) (opcode t : Nat) (x : Session) (st : Stage) :
    tget? (entered s m opcode t x st).stw.sess m.slot = some (x.busyWith (max s.now t) m) := by
  simp [entered, State.enter, Session.busyWith, Session.moved, cleanTag]

theorem busyWith_of_served {s : State} {m : Inbound} {need : Nat} {x : Session} (h : Served s m need x) (r : State)
    (hf : r.fwRuns = true) (hq : r.stw.flights = s.stw.flights) : r.busyWith m.mb = none := by
  have h4 : r.pow.phase = 4 := by
    have := hf
    simp only [State.fwRuns, Bool.and_eq_true, decide_eq_true_eq] at this
    exact this.1
  have hl : r.stw.queued m.mb = [] := by
    simp only [Stw.queued, hq, List.filter_eq_nil_iff, Bool.and_eq_true, decide_eq_true_eq, not_and]
    intro f hf2 hf3
    exact absurd hf3 (h.alone f hf2)
  simp [State.busyWith, h4, hf, hl]

/-- A firmware command that is served next: its arrival leaves it queued. -/
theorem served_arrives {s : State} {m : Inbound} {need : Nat} {x : Session} (h : Served s m need x) (opcode t : Nat) :
    (s.tick t).arriveFw m opcode need = entered s m opcode t x .queued := by
  have hb := busyWith_of_served h ((s.tick t).setSess m.slot (x.moved (max s.now t) m)) (by simpa [State.fwRuns, State.pairActive] using h.firmware) rfl
  have := sound_accept (sound_tick h.toSound t) opcode false .queued (Or.inr hb)
  simp [State.arriveFw, this, entered]

/-- The state in which the steward pair has taken a command, right before it serves it. -/
def taken (s : State) (m : Inbound) (opcode t : Nat) (x : Session) (at_ took : Nat) : State :=
  let u := (entered s m opcode t x .queued).tick at_
  ({ u with stw := u.stw.served m.mb took } : State).setFlight (flightOf s m opcode t .waiting)

theorem entered_next {s : State} {m : Inbound} {need : Nat} {x : Session} (h : Served s m need x) (opcode t : Nat) :
    (entered s m opcode t x .queued).stw.next = some (flightOf s m opcode t .queued) := by
  have hq : ∀ k, (entered s m opcode t x .queued).stw.queued k = if k = m.mb then [flightOf s m opcode t .queued] else [] := by
    intro k
    have h0 : s.stw.flights.filter (fun f => decide (f.stage = .queued) && decide (f.mb = k)) = [] := by
      simp only [List.filter_eq_nil_iff, Bool.and_eq_true, decide_eq_true_eq, not_and]
      exact fun f hf hs => absurd hs (h.alone f hf)
    rw [Stw.queued, entered_flights, List.filter_append, h0]
    by_cases hk : k = m.mb
    · simp [flightOf, hk]
    · have hk' : ¬ m.mb = k := fun e => hk e.symm
      simp [flightOf, hk, hk']
  have hm := h.mailbox
  simp only [Stw.next, hq]
  generalize m.mb = k at hm ⊢
  interval_cases k <;> rfl

/-- Arrival and service of a firmware command: what is left is the service of its opcode. -/
theorem served_handled {s : State} {m : Inbound} {need : Nat} {x : Session} (h : Served s m need x) (c : Instr)
    (opcode t : Nat) (hc : exec c s = whenOn t (fun s => s.arriveFw m opcode need) s) (at_ took : Nat) (P : State → Prop)
    (hP : P ((taken s m opcode t x at_ took).serve (flightOf s m opcode t .waiting))) : Handled c at_ took s P := by
  refine ⟨entered s m opcode t x .queued, _, ?_, ?_, hP⟩
  · rw [hc, whenOn_on _ _ _ h.on, served_arrives h]
  · have hon : (entered s m opcode t x .queued).pow.on = true := by
      have := entered_frame s m opcode t x .queued
      simp only [ButStw] at this
      simp [this, h.on]
    have hfw : ((entered s m opcode t x .queued).tick at_).fwRuns = true := by
      have := entered_frame s m opcode t x .queued
      simp only [ButStw] at this
      have h2 := h.firmware
      simp only [State.fwRuns, State.pairActive] at h2 ⊢
      simp [this, h2]
    have hn : ((entered s m opcode t x .queued).tick at_).stw.next = some (flightOf s m opcode t .queued) := by
      simpa using entered_next h opcode t
    show execStewardDispatch at_ took _ = _
    rw [execStewardDispatch, whenOn_on _ _ _ hon]
    simp only [hfw, hn, Bool.not_true, Bool.false_eq_true, if_false]
    rfl

theorem taken_frame (s : State) (m : Inbound) (opcode t : Nat) (x : Session) (at_ took : Nat) :
    ButStw ((s.tick t).tick at_) (taken s m opcode t x at_ took) := by
  have := entered_frame s m opcode t x .queued
  simp only [ButStw, State.tick] at this
  simp [taken, ButStw, this, State.tick]

theorem taken_sess (s : State) (m : Inbound) (opcode t : Nat) (x : Session) (at_ took : Nat) :
    tget? (taken s m opcode t x at_ took).stw.sess m.slot = some (x.busyWith (max s.now t) m) := by
  simpa [taken, State.setFlight, Stw.served] using entered_sess s m opcode t x .queued

/-- While a command's session is open and its response fits, and a pair runs or the hardware answers the command, the final response
stands in the queue of a port. -/
theorem State.finish_answers (s : State) (f : Flight) (x : Session) (status : Nat) (o : List Byte)
    (h : f.opcode < 0x300 ∨ s.pairActive = true) (hx : tget? s.stw.sess f.slot = some x) (hg : x.gen = f.gen)
    (hl : 16 + o.length ≤ x.maxmsg) :
    Queued 2 { kind := .response, dst := f.src, body := message 1 2 f.mb f.tag f.opcode f.seq f.slot f.gen status o }
      (s.finish f false status o) := by
  have hl' : ¬ x.maxmsg < 16 + o.length := by omega
  rw [State.finish_answer _ _ _ _ _ _ h]
  unfold State.answer
  extract_lets w0 w s1
  have hs : s1.sessOf f.slot f.gen = some x := State.sessOf_eq _ _ _ x (by simpa [s1, w, Stw.reap] using hx) hg
  rw [hs]
  simp only [hl', decide_false, Bool.false_eq_true, if_false]
  generalize s1.setSess _ _ = r
  refine ⟨r.txPort f.port, ?_⟩
  rw [State.queueFrame_ep, if_pos rfl]
  simp

end Sys2Proof.Machine
end

