-- ==== Sys2Proof/Laws/Registers.lean ====
section
/-!
SUPPORT. Laws/Registers.lean: a register field read after a write of it, of another field of its register, or of another
register.
-/

namespace Sys2Proof.Machine

open Sys2Proof

theorem regWord_setWord_self (r : Regs) (f : Fam) (i j : Nat) (v : Word) : regWord (setWord r f i j v) f i j = v := by
  simp [regWord, setWord]

theorem regWord_setWord_ne (r : Regs) (f g : Fam) (i j k l : Nat) (v : Word) (h : famAddr g k l ≠ famAddr f i j) :
    regWord (setWord r f i j v) g k l = regWord r g k l := by
  simp only [regWord, setWord, tget, tput]
  split <;> simp [tget?_tset, tget?_tdel, h]

theorem withBits_testBit (v : Word) (hi lo x n : Nat) (hn : n < 32) :
    (withBits v hi lo x).toNat.testBit n = if lo ≤ n ∧ n < hi + 1 then x.testBit (n - lo) else v.toNat.testBit n := by
  simp only [withBits, BitVec.toNat_or, BitVec.toNat_and, BitVec.toNat_not, BitVec.toNat_ofNat, Nat.testBit_or,
    Nat.testBit_and, Nat.testBit_mod_two_pow, hn, decide_true, Bool.true_and, Nat.testBit_shiftLeft]
  rw [show 2 ^ 32 - 1 - ((2 ^ (hi + 1 - lo) - 1) <<< lo) % 2 ^ 32 = 2 ^ 32 - ((2 ^ (hi + 1 - lo) - 1) <<< lo % 2 ^ 32 + 1) by omega,
    Nat.testBit_two_pow_sub_succ (Nat.mod_lt _ (by decide))]
  simp only [hn, decide_true, Bool.true_and, Nat.testBit_mod_two_pow, Nat.testBit_shiftLeft, Nat.testBit_two_pow_sub_one]
  by_cases h1 : lo ≤ n
  · by_cases h2 : n < hi + 1
    · have h3 : n - lo < hi + 1 - lo := by omega
      simp [h1, h2, h3]
    · have h3 : ¬ n - lo < hi + 1 - lo := by omega
      simp [h1, h2, h3]
  · simp [h1]

theorem wordBits_testBit (v : Word) (hi lo n : Nat) (hh : lo ≤ hi) :
    (wordBits v hi lo).testBit n = (decide (n + lo < hi + 1) && v.toNat.testBit (lo + n)) := by
  simp only [wordBits, bits, Nat.testBit_mod_two_pow, Nat.testBit_shiftRight]
  congr 1
  exact decide_eq_decide.2 ⟨fun h => by omega, fun h => by omega⟩

/-- A field read after it was written: the value cut to its width. -/
theorem wordBits_withBits_self (v : Word) (hi lo x : Nat) (hh : lo ≤ hi) (h : hi < 32) :
    wordBits (withBits v hi lo x) hi lo = x % 2 ^ (hi + 1 - lo) := by
  refine Nat.eq_of_testBit_eq fun n => ?_
  rw [wordBits_testBit _ _ _ _ hh, Nat.testBit_mod_two_pow]
  by_cases hn : n + lo < hi + 1
  · have h1 : n < hi + 1 - lo := by omega
    rw [withBits_testBit _ _ _ _ _ (by omega)]
    have h2 : lo ≤ lo + n ∧ lo + n < hi + 1 := by omega
    simp [hn, h1, h2]
  · have h1 : ¬ n < hi + 1 - lo := by omega
    simp [hn, h1]

/-- A field read after another field of its register was written. -/
theorem wordBits_withBits_apart (v : Word) (hi lo hi' lo' x : Nat) (hh : lo' ≤ hi') (h : hi' < 32)
    (apart : hi < lo' ∨ hi' < lo) : wordBits (withBits v hi lo x) hi' lo' = wordBits v hi' lo' := by
  refine Nat.eq_of_testBit_eq fun n => ?_
  rw [wordBits_testBit _ _ _ _ hh, wordBits_testBit _ _ _ _ hh]
  by_cases hn : n + lo' < hi' + 1
  · rw [withBits_testBit _ _ _ _ _ (by omega)]
    rw [if_neg (by omega)]
  · simp [hn]

theorem Regs.get_put_self (r : Regs) (x : FRef) (i j v : Nat) (hh : x.lo ≤ x.hi) (h : x.hi < 32) :
    (r.put x i j v).get x i j = v % 2 ^ (x.hi + 1 - x.lo) := by
  simp only [Regs.get, Regs.put, regWord_setWord_self]
  exact wordBits_withBits_self _ _ _ _ hh h

theorem Regs.get_put_apart (r : Regs) (x y : FRef) (i j v : Nat) (hf : y.fam = x.fam) (hh : y.lo ≤ y.hi) (h : y.hi < 32)
    (apart : x.hi < y.lo ∨ y.hi < x.lo) : (r.put x i j v).get y i j = r.get y i j := by
  simp only [Regs.get, Regs.put, hf, regWord_setWord_self]
  exact wordBits_withBits_apart _ _ _ _ _ _ hh h apart

theorem Regs.get_put_ne (r : Regs) (x y : FRef) (i j k l v : Nat) (h : famAddr y.fam k l ≠ famAddr x.fam i j) :
    (r.put x i j v).get y k l = r.get y k l := by
  simp only [Regs.get, Regs.put]
  rw [regWord_setWord_ne _ _ _ _ _ _ _ _ h]

theorem State.reg_setReg_self (s : State) (x : FRef) (i j v : Nat) (hh : x.lo ≤ x.hi) (h : x.hi < 32) :
    (s.setReg x i j v).reg x i j = v % 2 ^ (x.hi + 1 - x.lo) :=
  Regs.get_put_self _ _ _ _ _ hh h

theorem State.reg_setReg_ne (s : State) (x y : FRef) (i j k l v : Nat) (h : famAddr y.fam k l ≠ famAddr x.fam i j) :
    (s.setReg x i j v).reg y k l = s.reg y k l :=
  Regs.get_put_ne _ _ _ _ _ _ _ _ h

/-- A counter advanced by one, held at its greatest value. -/
theorem State.reg_bump (s : State) (x : FRef) (i : Nat) (hh : x.lo ≤ x.hi) (h : x.hi < 32) :
    (s.bump x i).reg x i = min (s.reg x i + 1) (2 ^ (x.hi + 1 - x.lo) - 1) := by
  rw [State.bump, State.bumpBy, State.reg_setReg_self _ _ _ _ _ hh h]
  refine Nat.mod_eq_of_lt ?_
  have : 0 < 2 ^ (x.hi + 1 - x.lo) := Nat.two_pow_pos _
  omega

end Sys2Proof.Machine
end

