-- ==== Sys2Proof/WellFormed.lean ====
section
/-!
DEFINITION. WellFormed.lean: which commands name things that exist: a port, slot, channel, spool, engine or other unit
within its number range, header fields within their widths (03 R45; 11 R234; 01 to 18).
-/

namespace Sys2Proof

/-- An Ethernet port (18), EP0 or EP1. -/
def okEthPort (n : Nat) : Bool := decide (n < 2)

/-- A line port (06). -/
def okLinePort (n : Nat) : Bool := decide (n < 24)

/-- A pleat timer (05 R112): a line port's, or a phase's at OFFSET 0. -/
def okTimer (n : Nat) : Bool := decide (n < 27)

/-- An air port (09). -/
def okAirPort (n : Nat) : Bool := decide (n < 16)

/-- A link slot of a line port, or a channel of an air port (06, 09). -/
def okChan (n : Nat) : Bool := decide (n < 64)

/-- A place of a candidate: at most two at once (06 R139, 09 R201). -/
def okPlace (n : Nat) : Bool := decide (n < 2)

/-- A session slot (03 R49). -/
def okSession (n : Nat) : Bool := decide (n < 16)

/-- A tag with the reserved bit above it: the 13 bits beside MB (03 R45). -/
def okTag (n : Nat) : Bool := decide (n < 8192)

/-- A 32-bit sequence (03 R45). -/
def okSeq (n : Nat) : Bool := decide (n < 2 ^ 32)

/-- A spool (15 R333). -/
def okSpool (n : Nat) : Bool := decide (n < 384)

/-- A cipher core (14). -/
def okCore (n : Nat) : Bool := decide (n < 16)

/-- A steward pair, or a firmware bank. -/
def okPair (n : Nat) : Bool := decide (n < 2)

/-- A mains phase (05). -/
def okPhase (n : Nat) : Bool := decide (n < 3)

/-- A priority (18 R416). -/
def okPrio (n : Nat) : Bool := decide (n < 8)

/-- A short address or a station number. -/
def okShort (n : Nat) : Bool := decide (n < 65536)

/-- An extended address. -/
def okExt (n : Nat) : Bool := decide (n < 2 ^ 64)

/-- A sequencer entry and its filter channel (16, 17). -/
def okEntry (n : Nat) : Bool := decide (n < 32)

/-- A loop output or an excitation (16). -/
def okQuad (n : Nat) : Bool := decide (n < 4)

/-- A link engine (13). -/
def okEngine (n : Nat) : Bool := decide (n < 64)

/-- A configuration-space address. -/
def okAddr (n : Nat) : Bool := decide (n < 2 ^ 32)

/-- The address a message comes from: widths of its parts (03 R43). -/
def Addr.wf (a : Addr) : Bool :=
  decide (a.mac < 2 ^ 48) && decide (a.ip < 2 ^ 128) && decide (a.uport < 65536) && (match a.tag with
    | some t => decide (t < 65536)
    | none => true)

/-- The IP header of a datagram: the width of its address. -/
def IpHead.wf (h : IpHead) : Bool := decide (h.dst < 2 ^ 128)

/-- An arriving mailbox message: widths of its header's fields (03 R45). -/
def Inbound.wf (m : Inbound) : Bool :=
  okEthPort m.port && m.src.wf && decide (m.proto < 65536) && decide (m.version < 16) && decide (m.mb < 8) && okTag m.tag && okSeq m.seq &&
    okSession m.slot && decide (m.gen < 4096) && decide (m.len < 65536) && m.ip.wf

/-- An arriving Ethernet frame (18 R413). -/
def EthFrame.wf (f : EthFrame) : Bool := okEthPort f.port && decide (f.dst < 2 ^ 48) && (match f.what with
  | .carrier _ _ proto _ mark cls ip => decide (proto < 65536) && decide (mark < 16) && decide (cls < 16) && ip.wf
  | .arp | .neighbour | .datagram | .pfc | .other => true)

/-- An arriving seam message: widths of its header's fields (11 R234). -/
def SeamMsg.wf (m : SeamMsg) : Bool :=
  okEthPort m.port && m.src.wf && decide (m.proto < 65536) && decide (m.version < 16) && decide (m.cluster < 65536) && okShort m.station &&
    okShort m.dst && okSeq m.seq && m.ip.wf

/-- An output of a channelizer (06 R121): bins 0 to 639, I and Q of 24 bits; the decided tones of link slots. -/
def ChanOut.wf (o : ChanOut) : Bool :=
  o.bins.all (fun b => decide (b.1 < 640) && decide (b.2.1.natAbs ≤ 2 ^ 23) && decide (b.2.2.natAbs ≤ 2 ^ 23)) &&
    o.decided.all fun d => okChan d.1 && decide (d.2 < 640)

/-- The energies of the 8 slots of a preamble at its four tones (06 R138). -/
def okPreamble (e : List (List Nat)) : Bool := decide (e.length = 8) && e.all fun l => decide (l.length = 4)

/-- A command whose operands name things that exist. -/
def Instr.wf (i : Instr) : Bool :=
  match i with
  | .porstAssert _ => true
  | .startSequence _ _ _ => true
  | .refclkLoss _ => true
  | .restart _ => true
  | .liningWriteDone _ _ => true
  | .factoryArm _ => true
  | .factoryDisarm _ => true
  | .bankWrite _ bank => okPair bank
  | .bankWriteDone _ => true
  | .elapsedLatchRead _ slot => okSession slot
  | .clusterTimeLatchRead _ slot => okSession slot
  | .rxTimestampRead _ slot _ => okSession slot
  | .registerWrite _ slot addr _ => okSession slot && okAddr addr
  | .ethFrameDiscard _ f => f.wf
  | .arpRequest _ port _ _ _ => okEthPort port
  | .neighbourSolicitation _ port _ _ _ => okEthPort port
  | .sessionOpen _ m => m.wf
  | .sessionClose _ m => m.wf
  | .sessionKeepalive _ m => m.wf
  | .ackMessage _ m => m.wf
  | .sessionIdleExpiry _ slot => okSession slot
  | .pendingTimeout _ slot tag => okSession slot && okTag tag
  | .eventResend _ slot seq => okSession slot && okSeq seq
  | .recordResend _ slot seq => okSession slot && okSeq seq
  | .stewardDispatch _ _ => true
  | .cfgRead _ m => m.wf
  | .cfgWrite _ m => m.wf
  | .cfgModify _ m => m.wf
  | .cfgWait _ m => m.wf
  | .cfgWaitComplete _ _ _ => true
  | .memRead _ m _ => m.wf
  | .memWrite _ m => m.wf
  | .memFence _ m => m.wf
  | .linkNodeList _ m => m.wf
  | .linkNodeGet _ m => m.wf
  | .linkNodeRemove _ m => m.wf
  | .linkDownlink _ m => m.wf
  | .linkMapRead _ m => m.wf
  | .linkPortStats _ m => m.wf
  | .airSensorGet _ m => m.wf
  | .airDownlink _ m => m.wf
  | .airDisassociate _ m => m.wf
  | .airPendingSet _ m => m.wf
  | .airDutyRead _ m => m.wf
  | .airDigestSet _ m => m.wf
  | .sensResults _ m => m.wf
  | .sensLoopSet _ m => m.wf
  | .sensCurveInfo _ m => m.wf
  | .keyLoad _ m => m.wf
  | .keyDelete _ m => m.wf
  | .keyStatus _ m => m.wf
  | .keyRootProvision _ m => m.wf
  | .keyAlarm _ m => m.wf
  | .cluStatus _ m => m.wf
  | .cluRegGet _ m => m.wf
  | .cluRegPut _ m => m.wf
  | .cluStations _ m => m.wf
  | .cluLeave _ m => m.wf
  | .capStart _ m => m.wf
  | .capStop _ m => m.wf
  | .captureDurationEnd _ slot _ => okSession slot
  | .captureBlock _ slot _ _ _ => okSession slot
  | .diagMemdesc _ m => m.wf
  | .diagFaultLog _ m => m.wf
  | .diagEngine _ m => m.wf
  | .commitGo _ addr => okAddr addr
  | .commitDiscard _ addr => okAddr addr
  | .commitApply _ addr => okAddr addr
  | .plxEnable _ port => okLinePort port
  | .plxDisable _ port => okLinePort port
  | .calRestart _ port => okLinePort port
  | .calFreeze _ port => okLinePort port
  | .calResume _ port => okLinePort port
  | .calConverged _ port _ => okLinePort port
  | .lineReady _ port => okLinePort port
  | .txlimDisable _ port => okLinePort port
  | .mnsEnable _ => true
  | .mnsDisable _ => true
  | .mnsSrcChange _ port _ => okLinePort port
  | .mainsCrossing _ phase _ _ => okPhase phase
  | .pleatStart _ port outs => okTimer port && outs.all ChanOut.wf
  | .mapRebuildDone _ port slot => okLinePort port && okChan slot
  | .linePreamblePeak _ port slot x _ =>
    okLinePort port && okChan slot && okPreamble x.before && okPreamble x.peak && okPreamble x.after
  | .lineDelimiterCheck _ port slot place _ => okLinePort port && okChan slot && okPlace place
  | .lineHeaderCheck _ port slot place head _ _ _ => okLinePort port && okChan slot && okPlace place && head.outs.all ChanOut.wf
  | .linePayloadCheck _ port slot outs _ _ _ => okLinePort port && okChan slot && outs.all ChanOut.wf
  | .lineAckStart _ port slot => okLinePort port && okChan slot
  | .lineAckDecision _ port slot => okLinePort port && okChan slot
  | .lineContentionEnd _ port slot => okLinePort port && okChan slot
  | .lineDefer _ port slot _ => okLinePort port && okChan slot
  | .lineTxEnd _ port slot => okLinePort port && okChan slot
  | .lineAckTimeout _ port slot => okLinePort port && okChan slot
  | .lineRetryDelayEnd _ port slot => okLinePort port && okChan slot
  | .txlimStep _ port => okLinePort port
  | .txlimRecover _ port => okLinePort port
  | .discoverDue _ port slot => okLinePort port && okChan slot
  | .joinLapse _ short => okShort short
  | .nodeLost _ short => okShort short
  | .airEnable _ port => okAirPort port
  | .airDisable _ port => okAirPort port
  | .jesdAttempt _ port => okAirPort port
  | .jesdCodeGroupSync _ port => okAirPort port
  | .jesdIlas _ port _ => okAirPort port
  | .jesdTxsyncRelease _ port => okAirPort port
  | .jesdSyncTimeout _ port => okAirPort port
  | .jesdLinkUp _ port => okAirPort port
  | .jesdLinkDown _ port _ => okAirPort port
  | .paceOverrun _ air port _ => (if air then okAirPort port else okLinePort port)
  | .airPreamblePeak _ port chan _ _ => okAirPort port && okChan chan
  | .airPhrCheck _ port chan place head =>
    okAirPort port && okChan chan && okPlace place && decide (head.phr < 65536) && (match head.rival with
      | some v => decide (v < 65536)
      | none => true)
  | .airFcsCheck _ port chan _ _ _ => okAirPort port && okChan chan
  | .airAckSend _ port chan => okAirPort port && okChan chan
  | .airTxStart _ port => okAirPort port
  | .airTxEnd _ port chan => okAirPort port && okChan chan
  | .airAckWindowEnd _ _ => true
  | .airBeaconDue _ port => okAirPort port
  | .dutyBinAdvance _ => true
  | .phaseTargetCheck _ _ => true
  | .lbtListenEnd _ _ _ => true
  | .lbtBackoffEnd _ _ => true
  | .pendingWindowSend _ ext => okExt ext
  | .pendingWindowEnd _ ext => okExt ext
  | .assocLapse _ short => okShort short
  | .downlinkExpiry _ slot tag => okSession slot && okTag tag
  | .seaEnable _ => true
  | .seaDisable _ => true
  | .helloDue _ => true
  | .helloRx _ m => m.wf
  | .memberSilent _ station => okShort station
  | .listenTimeout _ => true
  | .seamJoinReqDue _ => true
  | .seamJoinReq _ m => m.wf
  | .joinAck _ m => m.wf
  | .seamLeave _ m => m.wf
  | .deputyAppoint _ m => m.wf
  | .deputySyncDone _ _ _ => true
  | .mirror _ m => m.wf
  | .mirrorAck _ m => m.wf
  | .mirrorResend _ => true
  | .mirrorTimeout _ => true
  | .clusterBeaconDue _ => true
  | .clusterBeaconRx _ m => m.wf
  | .beaconMiss _ => true
  | .takeoverTimeout _ => true
  | .homeClaim _ m => m.wf
  | .claimAck _ m => m.wf
  | .claimResend _ ext => okExt ext
  | .electDue _ => true
  | .electRx _ m => m.wf
  | .electionClose _ => true
  | .delayReqDue _ => true
  | .delayReq _ m => m.wf
  | .delayResp _ m => m.wf
  | .clusterTimeLapse _ => true
  | .scMetrics _ m => m.wf
  | .groupClose _ _ => true
  | .scResult _ m => m.wf
  | .scResultAck _ m => m.wf
  | .scResultResend _ _ => true
  | .digestExpiry _ short seq => okShort short && okSeq seq
  | .checkpoint _ n => okEngine n
  | .engineFault _ n _ _ _ => okEngine n
  | .patchCaughtUp _ n _ => okEngine n
  | .engineSelfTestDone _ n _ => okEngine n
  | .sparesTargetWrite _ _ => true
  | .contextEnd _ kind port slot place => (if kind = 2 then okAirPort port else okLinePort port) && okChan slot && okPlace place
  | .pairFault _ _ _ => true
  | .standbyFault _ _ => true
  | .pairSelfTestDone _ pair _ => okPair pair
  | .unitFault _ _ _ _ _ _ => true
  | .vote _ _ _ _ => true
  | .memoryPatrol _ _ _ _ _ => true
  | .faultLogWrite _ => true
  | .injectEngineFault _ _ => true
  | .injectPairFault _ _ => true
  | .injectPortFault _ _ => true
  | .tamperMeshOpen _ => true
  | .supplyAlarm _ _ _ => true
  | .temperatureAlarm _ _ => true
  | .liningTamperCheck _ _ => true
  | .alarmWrappedKeyClear _ => true
  | .cipherJobSubmit _ _ => true
  | .cipherJobStart _ => true
  | .cipherJobComplete _ core => okCore core
  | .hostRingEnable _ => true
  | .hostRingDisable _ => true
  | .hostRingDoorbell _ _ => true
  | .checkJob _ _ _ _ _ => true
  | .spoolEnable _ spool => okSpool spool
  | .spoolStopRequest _ spool => okSpool spool
  | .spoolDisable _ spool => okSpool spool
  | .spoolDoorbell _ spool => okSpool spool
  | .descriptorStart _ spool => okSpool spool
  | .spoolBurst _ _ => true
  | .descriptorComplete _ spool => okSpool spool
  | .barWriteback _ spool => okSpool spool
  | .spoolDone _ spool => okSpool spool
  | .refEnable _ => true
  | .refReady _ => true
  | .cnvEnable _ => true
  | .cnvDisable _ => true
  | .cnvCalConverged _ => true
  | .swtrig _ => true
  | .sequenceTrigger _ => true
  | .sequenceStart _ => true
  | .rawSample _ _ => true
  | .dwellEnd _ => true
  | .wireBreak _ n _ => okQuad n
  | .wireRestore _ n _ => okQuad n
  | .filterOutput _ e => okEntry e
  | .streamEnable _ => true
  | .loopStale _ n => okQuad n
  | .loopRegulationFault _ n _ => okQuad n
  | .loopPwmEvent _ n => okQuad n
  | .ethPortEnable _ port => okEthPort port
  | .ethPortDisable _ port => okEthPort port
  | .ethPortReconfigure _ port => okEthPort port
  | .ethLinkUp _ port => okEthPort port
  | .ethLinkDown _ port _ _ _ => okEthPort port
  | .pfcPauseRx _ port _ => okEthPort port
  | .pfcPauseExpiry _ port prio => okEthPort port && okPrio prio
  | .pfcPauseRefresh _ port prio _ => okEthPort port && okPrio prio
  | .linkSlotIdle _ port slot => okLinePort port && okChan slot
  | .undefinedCommand _ m _ _ => m.wf
  | .alarmCauseRemoved _ _ => true
  | .checkpointComplete _ n => okEngine n

end Sys2Proof
end

