-- ==== Sys2Proof/Tests/Slice0.lean ====
section
/-!
SUPPORT. Tests/Slice0.lean: ill-formed commands that WellFormed refuses, single steps on small states, and for each
statement of Certificates/Slice0/Obligations.lean states and operands that meet its hypotheses.
-/

namespace Sys2Proof.Tests

open Sys2Proof Sys2Proof.Machine Sys2Proof.Safety

/-! ## States to test with -/

/-- A host. -/
def host : Addr := { mac := 2, udp := false, v6 := false, ip := 0, uport := 0, tag := none }

/-- A mailbox message of session 0 with an operand. -/
def msg (operand : List Byte) (rows : Nat := 0) : Inbound :=
  { port := 0, src := host, proto := 0x88B5, minFrame := true, payLen := 16 + operand.length, version := 1, mb := rows, tag := 1, seq := 9,
    slot := 0, gen := 1, len := operand.length, operand := operand }

/-- A session with every right, subscribed to everything. -/
def sess : Session :=
  { gen := 1, maxmsg := 8208, grant := 8, rights := 0xFF, groups := 0xFFFF, kinds := 7, src := host, port := 0, last := 100000000,
    evSeq := 5, events := [], evLost := 0, recSeq := 5, recs := [], recLost := 0, recWhy := 0, tags := [], latElapsed := 0,
    latCluster := 0, latRx := 0, latRxc := 0 }

/-- The block after reset with both Ethernet ports up. -/
def up : State := (State.reset.setEp 0 { EthPort.reset with up := true }).setEp 1 { EthPort.reset with up := true }

/-- The same with session 0 open. -/
def opened : State := up.setSess 0 sess

/-- A state whose block is off. -/
def off : State := { State.reset with pow := { State.reset.pow with on := false, porstHigh := false } }

/-- A sensor and a line node in their tables. -/
def sensor : Sensor :=
  { state := 1, sleepy := false, digest := true, valid := false, stale := false, port := 15, chan := 63, wakeMs := 0, ext := 77,
    phaseEpoch := 0, phaseNs := 0, drift := 0, unc := 0, ofs := 0, clk := 0, lastEpoch := 1, lastNs := 0, margin := 0, nph := 0,
    rxOk := 0, txFail := 0, since := 0 }

def node : Node :=
  { port := 23, slot := 63, state := 1, flags := 0, hops := 1, ext := 78, route := [], lastEpoch := 1, lastNs := 0, sn := none,
    margin := 0, rxOk := 0, tx := 0, txFail := 0, mapver := 0, since := 0, spent := false, energies := [], report := none }

/-- A command in flight. -/
def flight : Flight :=
  { ref := 0, slot := 0, gen := 1, tag := 1, seq := 9, mb := 7, opcode := 0x301, time := 0, src := host, port := 0, operand := [],
    pend := false, stage := .queued }

/-- A message of session 0, whose session has no tag in use, passes the checks that the session decides. -/
theorem soundBy (s : State) (x : Session) (operand : List Byte) (need mb : Nat) (on : s.pow.on = true)
    (reaches : s.reaches (msg operand mb) = true) (carrier : s.flag F.stwXportRawEn = true) (session : tget? s.stw.sess 0 = some x)
    (h : operand.length ≤ 8192) (hg : x.gen = 1) (ht : x.tags = []) (hc : 0 < x.grant) (hr : x.rights &&& need = need) :
    Sound s (msg operand mb) need x where
  on := on
  reaches := reaches
  carrier := carrier
  whole := by simp [msg]
  version := rfl
  length := by simp [lenOk, msg, h]
  session := session
  gen := hg
  fresh := by intro r hr; simp [ht] at hr
  credit := by simpa [Session.inFlight, ht] using hc
  rights := hr

/-- The same of the session with every right. -/
theorem sound (s : State) (operand : List Byte) (need mb : Nat) (on : s.pow.on = true)
    (reaches : s.reaches (msg operand mb) = true) (carrier : s.flag F.stwXportRawEn = true)
    (session : tget? s.stw.sess 0 = some sess) (h : operand.length ≤ 8192) (hr : 0xFF &&& need = need) :
    Sound s (msg operand mb) need sess :=
  soundBy s sess operand need mb on reaches carrier session h rfl rfl (by decide) hr

/-- The same of a firmware command, with nothing in flight. -/
theorem served (s : State) (operand : List Byte) (need : Nat) (on : s.pow.on = true)
    (reaches : s.reaches (msg operand 7) = true) (carrier : s.flag F.stwXportRawEn = true) (session : tget? s.stw.sess 0 = some sess) (runs : s.fwRuns = true)
    (alone : s.stw.flights = []) (h : operand.length ≤ 8192) (hr : 0xFF &&& need = need) :
    Served s (msg operand 7) need sess where
  toSound := sound s operand need 7 on reaches carrier session h hr
  firmware := runs
  alone := by simp [alone]
  mailbox := Nat.lt_succ_self 7
  refs := by simp [alone]

theorem witness_sound : Sound opened (msg (be 8 0) 7) 0xFF sess :=
  sound opened _ 0xFF 7 rfl (by decide) (by decide) rfl (by decide) rfl

/-! ## WellFormed: each check refuses a number that names nothing, and takes the last one that does -/

theorem test_wf_ethPort : (Instr.ethLinkUp 0 2).wf = false ∧ (Instr.ethLinkUp 0 1).wf = true := by decide
theorem test_wf_linePort : (Instr.plxEnable 0 24).wf = false ∧ (Instr.plxEnable 0 23).wf = true := by decide
theorem test_wf_timer : (Instr.pleatStart 0 27 []).wf = false ∧ (Instr.pleatStart 0 26 []).wf = true := by decide
theorem test_wf_airPort : (Instr.airEnable 0 16).wf = false ∧ (Instr.airEnable 0 15).wf = true := by decide
theorem test_wf_chan : (Instr.airAckSend 0 15 64).wf = false ∧ (Instr.airAckSend 0 15 63).wf = true := by decide
theorem test_wf_place : (Instr.airPhrCheck 0 15 63 2 ⟨0, none⟩).wf = false ∧ (Instr.airPhrCheck 0 15 63 1 ⟨0, none⟩).wf = true := by decide
theorem test_wf_phr :
    (Instr.airPhrCheck 0 0 0 0 ⟨65536, none⟩).wf = false ∧ (Instr.airPhrCheck 0 0 0 0 ⟨65535, some 65536⟩).wf = false ∧
      (Instr.airPhrCheck 0 0 0 0 ⟨65535, some 65535⟩).wf = true := by decide
theorem test_wf_peak :
    (Instr.linePreamblePeak 0 0 0 ⟨[], [], []⟩ 0).wf = false ∧
      (let e := List.replicate 8 [0, 0, 0, 0]; (Instr.linePreamblePeak 0 0 0 ⟨e, e, e⟩ 0).wf = true) := by decide
theorem test_wf_output :
    (Instr.pleatStart 0 0 [⟨0, [(640, 0, 0)], []⟩]).wf = false ∧ (Instr.pleatStart 0 0 [⟨0, [(639, 2 ^ 23 + 1, 0)], []⟩]).wf = false ∧
      (Instr.pleatStart 0 0 [⟨0, [(639, 2 ^ 23, 0)], [(63, 8)]⟩]).wf = true := by decide
theorem test_wf_session : (Instr.sessionIdleExpiry 0 16).wf = false ∧ (Instr.sessionIdleExpiry 0 15).wf = true := by decide
theorem test_wf_tag : (Instr.pendingTimeout 0 15 8192).wf = false ∧ (Instr.pendingTimeout 0 15 8191).wf = true := by decide
theorem test_wf_seq :
    (Instr.eventResend 0 15 0x100000000).wf = false ∧ (Instr.eventResend 0 15 0xFFFFFFFF).wf = true := by decide
theorem test_wf_spool : (Instr.spoolDone 0 384).wf = false ∧ (Instr.spoolDone 0 383).wf = true := by decide
theorem test_wf_core : (Instr.cipherJobComplete 0 16).wf = false ∧ (Instr.cipherJobComplete 0 15).wf = true := by decide
theorem test_wf_pair : (Instr.bankWrite 0 2).wf = false ∧ (Instr.bankWrite 0 1).wf = true := by decide
theorem test_wf_phase : (Instr.mainsCrossing 0 3 none 0).wf = false ∧ (Instr.mainsCrossing 0 2 none 0).wf = true := by decide
theorem test_wf_prio : (Instr.pfcPauseExpiry 0 1 8).wf = false ∧ (Instr.pfcPauseExpiry 0 1 7).wf = true := by decide
theorem test_wf_short : (Instr.nodeLost 0 65536).wf = false ∧ (Instr.nodeLost 0 65535).wf = true := by decide
theorem test_wf_ext :
    (Instr.claimResend 0 (2 ^ 64)).wf = false ∧ (Instr.claimResend 0 (2 ^ 64 - 1)).wf = true := by decide
theorem test_wf_entry : (Instr.filterOutput 0 32).wf = false ∧ (Instr.filterOutput 0 31).wf = true := by decide
theorem test_wf_quad : (Instr.loopStale 0 4).wf = false ∧ (Instr.loopStale 0 3).wf = true := by decide
theorem test_wf_engine : (Instr.checkpoint 0 64).wf = false ∧ (Instr.checkpoint 0 63).wf = true := by decide
theorem test_wf_addr :
    (Instr.commitGo 0 0x100000000).wf = false ∧ (Instr.commitGo 0 0xFFFFFFFF).wf = true := by decide
theorem test_wf_source :
    ({ host with mac := 2 ^ 48 } : Addr).wf = false ∧ ({ host with ip := 2 ^ 128 } : Addr).wf = false ∧
      ({ host with uport := 65536 } : Addr).wf = false ∧ ({ host with tag := some 65536 } : Addr).wf = false ∧
      ({ host with tag := some 65535 } : Addr).wf = true := by decide
theorem test_wf_message :
    ({ msg [] with port := 2 } : Inbound).wf = false ∧ ({ msg [] with src := { host with mac := 2 ^ 48 } } : Inbound).wf = false ∧
      ({ msg [] with proto := 65536 } : Inbound).wf = false ∧ ({ msg [] with ip := { dst := 2 ^ 128 } } : Inbound).wf = false ∧
      ({ msg [] with version := 16 } : Inbound).wf = false ∧ ({ msg [] with mb := 8 } : Inbound).wf = false ∧
      ({ msg [] with tag := 8192 } : Inbound).wf = false ∧ ({ msg [] with seq := 2 ^ 32 } : Inbound).wf = false ∧
      ({ msg [] with slot := 16 } : Inbound).wf = false ∧ ({ msg [] with gen := 4096 } : Inbound).wf = false ∧
      ({ msg [] with len := 65536 } : Inbound).wf = false ∧ (msg []).wf = true := by decide
theorem test_wf_frame :
    ({ port := 2, len := 64, dst := 0, vid := none, what := .arp } : EthFrame).wf = false ∧
      ({ port := 1, len := 64, dst := 2 ^ 48, vid := none, what := .arp } : EthFrame).wf = false ∧
      ({ port := 1, len := 64, dst := 1, vid := none, what := .carrier true true 65536 16 1 1 } : EthFrame).wf = false ∧
      ({ port := 1, len := 64, dst := 2 ^ 48 - 1, vid := none, what := .arp } : EthFrame).wf = true := by decide

/-- A seam message of station 9 to every station of cluster 1. -/
def seam (body : List Byte) : SeamMsg :=
  { port := 0, src := host, proto := 0x88B5, version := 1, cluster := 1, station := 9, dst := 0xFFFF, seq := 1, body := body }

theorem test_wf_seam :
    ({ seam [] with port := 2 } : SeamMsg).wf = false ∧ ({ seam [] with src := { host with mac := 2 ^ 48 } } : SeamMsg).wf = false ∧
      ({ seam [] with proto := 65536 } : SeamMsg).wf = false ∧ ({ seam [] with version := 16 } : SeamMsg).wf = false ∧ ({ seam [] with cluster := 65536 } : SeamMsg).wf = false ∧
      ({ seam [] with station := 65536 } : SeamMsg).wf = false ∧ ({ seam [] with dst := 65536 } : SeamMsg).wf = false ∧
      ({ seam [] with seq := 2 ^ 32 } : SeamMsg).wf = false ∧ (seam []).wf = true := by decide

/-! ## Single steps and operations, against the worked examples and tables of the spec -/

set_option maxRecDepth 20000 in
/-- The check values of the table of 14 R330. -/
theorem test_check_values :
    let d : List Byte := [0x31, 0x32, 0x33, 0x34, 0x35, 0x36, 0x37, 0x38, 0x39]
    (List.range 5).map (fun n => crc n [] d) = [0xF4, 0x2189, 0x21CF02, 0xCBF43926, 0xE3069283] := by decide

/-- 06, first example, steps 4, 6 and 7: the header word, its first octets whitened, and their tones. -/
theorem test_line_frame :
    let h : LineHead := { len := 100, typ := 0, ackReq := true, crc32 := false, sec := false, mode := 0, dst := 0, src := 0x0A3C,
                          seq := 0x1F07 }
    h.word = 0x321000000A3C1F07 ∧ headOf 0x321000000A3C1F07 = h ∧ whiten [0x32, 0x10] = [0xCD, 0x97] ∧
      symbolsOf [0xCD] = [2, 0, 2, 1] ∧ fourTones 200 4 = [200, 204, 208, 212] := by decide

/-- 09, first example, steps 8 and 9. -/
theorem test_air_frame : phrOf false true 20 = 0x1814 ∧ airWhitenFrom 0x1FF [0x41, 0x88] = [0xBE, 0x69] := by decide

/-- 05, the example's second crossing: the jump is confirmed, C and the next anchor move, and the cycle is IRREGULAR. -/
theorem test_confirmed_jump :
    let s := (opened.setReg F.mnsPortCfgSrc 7 0 1).setReg F.mnsPortCfgOffset 7 0 0x100
    let s := s.setPhase 1 { Phase.init 0 19996000 with
                            state := 1, crossing := 12500301000, periods := [19996000], dev := some 1500000, rejected := 1 }
    let s := s.setTimer 7 { s.timer 7 with
                            anchor := 12521546750, next := 12541542750, period := 19996000, off := 1249750, pleat := 1, fresh := false }
    ∃ u, exec (.mainsCrossing 12523797000 1 (some 12521797000) 100000) s = .next u ∧ (u.phase 1).crossing = 12521797000 ∧
      (u.timer 7).next = 12543042750 ∧ (u.timer 7).irregular = true ∧ (u.phase 1).period = 19996000 ∧
      u.reg F.mnsPhStatusJumps 1 = 1 := ⟨_, rfl, by decide⟩

/-- 10, second example, steps 1 to 5: the first anchor, the drift of the second, and the phase-targeted start. -/
theorem test_wake_phase :
    let x : Sensor := { sensor with sleepy := true, port := 6, chan := 2, wakeMs := 4000, clk := 20 }
    let s : State := { opened with lin := { opened.lin with epoch := 0x5A } }
    let a := s.learn x 5000000000000 1500000
    let b := s.learn a 8600736000000 800000
    a.phaseNs = 5001500000000 ∧ a.unc = 20000 ∧ a.nph = 1 ∧ b.phaseNs = 8601536000000 ∧ b.drift = 10000 ∧ b.unc = 8000 ∧ b.nph = 2 ∧
      b.wake 1800 = 15801608000000 ∧ s.uncertainty b 15801608000000 = 57656976 := by decide

/-- 12, the example of one bit: -6, +12 and +3 half-units. -/
theorem test_half_values :
    halfValue false [some 0, some 8, some 8] 3 = -6 ∧ halfValue true [some 8, some 8, some 0] 3 = 12 ∧
      halfValue true [some 0, none, none] 3 = 3 := by decide

/-- 13, the example: the spare takes the identity of the engine that failed, with its 40 contexts. -/
theorem test_patch :
    let cs := (List.range 40).map fun i => Ctx.lineTx 4 i
    let s := opened.setEng 17 { opened.eng 17 with ctxs := cs, ckpt := { time := 812008265625, fx := [], data := [] } }
    ∃ u, exec (.engineFault 812008602000 17 1 812008600000 false) s = .next u ∧ (u.eng 60).ctxs = cs ∧ (u.eng 17).st = .selfTest ∧
      (u.eng 60).patch = some { failed := 17, detect := 1, detected := 812008602000, fault := 812008600000, ckpt := 812008265625 } :=
  ⟨_, rfl, by decide⟩

/-- 14, the example: the frame's first 16 octets, and its nonce. -/
theorem test_secured_header :
    be 1 0x69 ++ be 1 0x88 ++ be 1 0x3E ++ le 2 1 ++ le 2 0xA41 ++ le 2 0 ++ auxHeader true 5 0x40000 0x203 =
        [0x69, 0x88, 0x3E, 0x01, 0x00, 0x41, 0x0A, 0x00, 0x00, 0x05, 0x00, 0x00, 0x04, 0x00, 0x03, 0x02] ∧
      frameNonce 0x4E4496FFFE002A17 0x40000 5 = [0x4E, 0x44, 0x96, 0xFF, 0xFE, 0x00, 0x2A, 0x17, 0x00, 0x04, 0x00, 0x00, 0x05] := by decide

/-- 15, second example: bit planes. -/
theorem test_bit_planes :
    let data : List Byte := [0x0F, 0x02, 0x0A, 0x09, 0x00, 0x0E, 0x07, 0x0B, 0x08, 0x08, 0x01, 0x0C, 0x0F, 0x03, 0x05, 0x0D]
    let d : SpoolDesc := { idx := 0, ctrl := [0x80, 0x30, 0x04, 0, 0, 0, 0, 0x10], body := zeros 24, status := 0, broken := false,
                           data := data, drained := 0, pace := none, held := none }
    d.dlen = 8 ∧ (List.range 8).map (d.outByte data) = [0xAD, 0x9B, 0x61, 0xD8, 0xE7, 0x30, 0xC9, 0xF4] := by decide

/-- 16, the example, step 1 to 3: the instants of entry 0's dwell. -/
theorem test_dwell :
    let s := (opened.setReg F.cnvEntCfgSettle 0 0 100).setReg F.cnvEntCfgDwell 0 0 3
    s.dwellAt 0 25000 = 129000 ∧ s.dwellEnd 0 25000 = 257000 := by decide

/-- 17, the example: the group delay, and VALUE from X. -/
theorem test_group_delay :
    let s := (opened.setReg F.fltChRateCount 0 0 500).setReg F.fltChCfgHb 0 0 2
    s.gdelayUs 0 = 12625 ∧ (s.groupDelay 0 0).1 = 12625000 * (s.groupDelay 0 0).2 ∧ roundEven 16492674 256 = 64425 := by decide

/-- 02, the example, step 2: the reserve of an account of 10 per mille over 3,600 s. -/
theorem test_duty_reserve : State.reset.dutyReserve 2 = 562500 := by decide

set_option maxRecDepth 20000 in
/-- 07, the example: of the entries with the best rate, k = 2 and the lowest base. -/
theorem test_map_choice :
    let s := ((opened.setReg F.plxLsRegionLo 2 4 100).setReg F.plxLsRegionHi 2 4 107).setReg F.plxLsTxHome 2 4 100
    pickEntry 100 (s.pickPleat 2 4 fun g => if g = 12 ∨ g = 13 then some 56 else none) = 0x1914 ∧ pickEntry 100 none = 0x1901 := by
  decide

/-- 08, second example: the header of the last hop, and a relay header of the device's. -/
theorem test_relay_headers :
    let h : LineHead := { len := 22, typ := 3, ackReq := true, crc32 := false, sec := false, mode := 1, dst := 0, src := 0x31, seq := 0xA2 }
    h.word = 0x0B710000003100A2 ∧ (ackHead h).word = 0x00210031000000A2 ∧
      relayDown false 0x0417 0x5511 [0x0031, 0x0102] = [0x20, 0x80, 0, 0, 0x04, 0x17, 0x55, 0x11, 0x00, 0x31, 0x01, 0x02] := by decide

/-- 11, the example, step 6: at the third miss the deputy is manager, and its first BEACON is due. -/
theorem test_takeover :
    let x : Sea := { Sea.reset with
                     role := 5, follow := some 18, deputy := some 167, period := 8, arrival := some 1000004500, misses := 2, valid := true }
    let s : State := { opened with sea := x }
    ∃ u v, exec (.beaconMiss 1000030499) s = .next u ∧ u.sea.role = 5 ∧ exec (.beaconMiss 1000030500) s = .next v ∧ v.sea.role = 6 ∧
      v.sea.deputy = none ∧ v.sea.beacon ≤ 1000038500 := ⟨_, _, rfl, by decide, rfl, by decide⟩


/-- 09 R184 and R185: head rates in kHz, lane rates in kb/s and LMFC periods in ns of RATE 0, 1 and 2. -/
theorem test_radio_head :
    (List.range 3).map headKhz = [16000, 32000, 80000] ∧ (List.range 3).map laneKbps = [640000, 1280000, 3200000] ∧
      (List.range 3).map lmfcNs = [2000, 1000, 400] ∧ (List.range 3).map headFactor = [1, 2, 5] := by decide

/-- 09 R193: the 4-FSK symbols of 01 00 10 11, and the deviation of 2-FSK with h 1.0 at 150 ksymbol/s. -/
theorem test_air_symbols :
    airSyms 2 [false, true, false, false, true, false, true, true] = [-3, -1, 1, 3] ∧ airDev 1 150000 = 75000 := by decide

/-- 12 R262: MAG of LLRs of 0.49, -0.5, 6.4 and 9. -/
theorem test_mag : [32112, -32768, 419430, 589824].map magOf = [0, 1, 6, 7] := by decide

/-- 06 R130 at HOME 12. -/
theorem test_preamble_tones :
    (((State.reset.setReg F.plxLsTxHome 0 0 12).headTones 0 0 0 1).take 8).map (fun x => x.2.2) =
      [12, 14, 15, 13, 15, 12, 13, 14].map some := by decide
/-! ## Witnesses: power, reset and the lining -/

theorem witness_EveryCommandCompletesAndKeepsTheQueue :
    ∀ t pins sealBad, Instr.porstAssert 0 ≠ .startSequence t pins sealBad := by intro t pins sealBad h; cases h

theorem witness_ResetStopsTheBlock :
    State.reset.pow.on = true ∧ State.reset.pow.porstHigh = true ∧ State.reset.pendingWrites = false ∧
      (State.reset.linWrite (.cfg [])).pendingWrites = true ∧ (State.reset.linWrite (.cfg [])).pow.on = true ∧
      State.reset.lin.bankWrite = none ∧
      (let s : State := { State.reset with lin := { State.reset.lin with bankWrite := some { bank := 1, src := 0, len := 4, crc := 0 } } }
       s.pow.on = true ∧ s.lin.bankWrite = some { bank := 1, src := 0, len := 4, crc := 0 } ∧ s.pendingWrites = false) := by decide

/-- A loop that drives, and a line transmission under way: a reset leaves neither. -/
theorem test_reset_drives_nothing :
    let s := State.reset.setLoop 2 { Loop.init with ua := 12000 }
    ∃ u, exec (.porstAssert 7) s = .next u ∧ (u.loop 2).ua = 0 := ⟨_, rfl, by decide⟩

/-- Supplies and REFCLK good for 2 ms, and for less. -/
def pinsReady : StartPins := { mesh := true, supplyNs := 2 * ms, refclkNs := 2 * ms }
def pinsEarly : StartPins := { pinsReady with refclkNs := 2 * ms - 1 }

theorem witness_OnlyAStartRaisesTheEpoch :
    (∃ u, exec (.porstAssert 0) State.reset = .next u) ∧ off.pow.on = false ∧ off.mayBegin pinsReady = true ∧
      ({ off with lin := { off.lin with epoch := 0 } } : State).lin.epoch = 0 ∧
      ({ off with lin := { off.lin with epoch := 0xFFFFFFFE } } : State).lin.epoch < 0xFFFFFFFF :=
  ⟨⟨_, rfl⟩, by decide, by decide, by decide, by decide⟩

/-- A start that finds a bank that does not pass. -/
def badBank : Bank := { image := [], crc := 1, valid := false }

/-- A session is open at step 7. -/
def stepSeven : State :=
  { State.reset with
    now := 80 * ms
    pow := { State.reset.pow with phase := 3 }
    stw := { State.reset.stw with sess := [(0, sess)] } }

theorem witness_StartSequenceBootsABank :
    (off.pow.on = false ∧ off.mayBegin pinsReady = true ∧ off.mayBegin pinsEarly = false ∧ (off.lin.bank 0).passes = true ∧
      (({ off.lin with banks := [(0, badBank)] } : Lining).bank 0).passes = false ∧
      (({ off.lin with banks := [(0, badBank)] } : Lining).bank 1).passes = true) ∧
    (stepSeven.pow.on = true ∧ stepSeven.pow.phase = 3 ∧ stepSeven.pow.booted = true ∧ 100 * ms ≤ max stepSeven.now (100 * ms) ∧
      stepSeven.pairActive = true ∧ tget? stepSeven.stw.sess 0 = some sess ∧ bit sess.groups 0 = true ∧
      sess.events.length < 1024) ∧
    ¬(stepSeven.pow.phase = 3 ∧ 100 * ms ≤ max stepSeven.now (100 * ms - 1)) ∧
    ¬(State.reset.pow.phase = 3 ∧ 100 * ms ≤ max State.reset.now 0) := by decide

/-- The shortest image a bank write takes. -/
def bankReady : State := State.reset.setReg F.linBankLen 0 0 4

theorem witness_LiningRecordsAndBanksAreWritten :
    ((State.reset.linWrite (.nonce 3 4)).pow.on = true ∧ (State.reset.linWrite (.nonce 3 4)).pow.restart = false ∧
      (State.reset.linWrite (.nonce 3 4)).lin.writes = [{ what := .nonce 3 4, ref := none }]) ∧
    (let s : State := State.reset.linWrite (.cfg [])
     let s : State := { s with pow := { s.pow with restart := true } }
     s.pow.on = true ∧ s.pow.restart = true ∧ s.lin.writes ≠ [] ∧ (((s.tick 0).writeDone).wears 0).pendingWrites = false ∧
       ((((s.linWrite (.cfg [])).tick 0).writeDone).wears 0).pendingWrites = true) ∧
    (bankReady.pow.on = true ∧ bankReady.bankRefused 1 = none ∧ bankReady.bankRefused 0 = some Status.lockedRunning ∧
      State.reset.bankRefused 1 = some Status.badAddress) ∧
    (let w : BankWrite := { bank := 1, src := 0, len := 4, crc := 0 }
     let s : State := { bankReady with lin := { bankReady.lin with bankWrite := some w } }
     s.pow.on = true ∧ s.lin.bankWrite = some w ∧ s.mem.poisonIn w.src w.len = [] ∧
       s.mem.rot.filter (touches w.src w.len) = [] ∧ (∀ a, a < 4 → kindOf s.mem a < 3) ∧ s.checkUnit = true ∧
       ({ s with cip := { s.cip with unitsOut := List.range 8 } } : State).checkUnit = false) := by decide

theorem witness_bankSource : ∀ a, a < 4 → ∀ n, regionOf a ≠ .engine n := by
  intro a h n
  have : a = 0 ∨ a = 1 ∨ a = 2 ∨ a = 3 := by omega
  rcases this with h | h | h | h <;> subst h <;> exact fun e => nomatch e

/-! ## Witnesses: mailboxes -/

/-- An OPEN that asks for one credit and the shortest MAXMSG, of a mailbox with none to wait for. -/
def openMsg : Inbound := msg (be 2 256 ++ be 2 1 ++ be 4 0)

/-- Every slot taken; every credit held; an access table that the host is not in. -/
def fullSlots : State := { up with stw := { up.stw with sess := (List.range 16).map fun k => (k, sess) } }
def fullCredits : State := { up with stw := { up.stw with closing := [{ slot := 0, gen := 1, grant := 4096 }] } }
def stranger : State := up.setReg F.stwAclCtlMatch 15 0 1

theorem witness_SessionOpenGrantsASession :
    (up.pow.on = true ∧ up.reaches openMsg = true ∧ fullSlots.reaches openMsg = true ∧ fullCredits.reaches openMsg = true ∧
      stranger.reaches openMsg = true ∧ up.takes openMsg = true ∧ openMsg.version = 1 ∧ lenOk openMsg = true ∧
      openMsg.operand.length = 8 ∧ 256 ≤ beAt openMsg.operand 0 2 ∧ 1 ≤ beAt openMsg.operand 2 2 ∧
      beAt openMsg.operand 2 2 ≤ 4096) ∧
    (firstBelow 16 (fun k => (tget? up.stw.sess k).isNone) = some 0 ∧ up.aclRights openMsg.src = some 0xFF ∧
      0 < up.stw.freeCredits) ∧
    (fullSlots.takes openMsg = true ∧ fullSlots.aclRights openMsg.src = some 0xFF ∧
      firstBelow 16 (fun k => (tget? fullSlots.stw.sess k).isNone) = none) ∧
    (fullCredits.takes openMsg = true ∧ fullCredits.aclRights openMsg.src = some 0xFF ∧ fullCredits.stw.freeCredits = 0) ∧
    (stranger.takes openMsg = true ∧ stranger.aclRights openMsg.src = none) := by decide

/-- An event of the session, sent once, and a record of it in the delivery area. -/
def event : StoredEvent := { seq := 4, time := 0, sent := true, resends := 7, body := [] }
def record : StoredRec := { seq := 4, id := 0, time := 0 }
def holding : State :=
  { up.setSess 0 { sess with events := [event], recs := [record] } with
    stw := { (up.setSess 0 { sess with events := [event], recs := [record] }).stw with area := [{ id := 0, body := zeros 40 }] } }

theorem witness_SessionsEndAndStayAlive :
    (opened.pow.on = true ∧ opened.reaches (msg []) = true ∧ opened.takes (msg []) = true ∧
      opened.headChecks (msg []) = none ∧ opened.sessOf (msg []).slot (msg []).gen = some sess) ∧
    (tget? opened.stw.sess 0 = some sess ∧ sess.last + opened.idleNs ≤ max opened.now (sess.last + opened.idleNs) ∧
      max opened.now (sess.last + opened.idleNs - 1) < sess.last + opened.idleNs) := by decide

theorem witness_AcknowledgedEventsAndRecordsAreReleased :
    let m := msg (be 1 0 ++ zeros 3 ++ be 4 4)
    let n := msg (be 1 1 ++ zeros 3 ++ be 4 4)
    Good holding m ∧ holding.sessOf m.slot m.gen = some { sess with events := [event], recs := [record] } ∧
      m.operand.length = 8 ∧ octet m.operand 0 = 0 ∧ Good holding n ∧ n.operand.length = 8 ∧ octet n.operand 0 = 1 ∧
      covered 4 4 = true ∧ covered 4 5 = false := by unfold Good; decide

/-- The same with a firmware command in flight. -/
def waiting : State := { holding with stw := { holding.stw with flights := [flight], nextRef := 1 } }

theorem witness_MailboxTimersResend :
    (waiting.pow.on = true ∧ waiting.anyUp = true ∧
      waiting.stw.flights.find? (fun f => decide (f.slot = 0) && decide (f.tag = 1) && !f.pend && decide (0x300 ≤ f.opcode) &&
        decide (f.time + 5 * ms ≤ max waiting.now 0)) = some flight ∧
      waiting.sessOf flight.slot flight.gen = some { sess with events := [event], recs := [record] }) ∧
    ((sess.events ++ [event]).find? (fun e => decide (e.seq = 4) && e.sent && decide (e.time + 100 * ms ≤ max waiting.now 0)) =
        some event ∧ event.resends < 8 ∧ 8 ≤ ({ event with resends := 8 } : StoredEvent).resends ∧
      [{ event with resends := 8 }].find? (fun e => decide (e.seq = 4) && e.sent && decide (e.time + 100 * ms ≤ max waiting.now 0)) =
        some { event with resends := 8 }) ∧
    ([record].find? (fun r => decide (r.seq = 4) && decide (r.time + 20 * ms ≤ max waiting.now 0)) = some record ∧
      waiting.stw.area.find? (fun a => decide (a.id = record.id)) = some { id := 0, body := zeros 40 }) := by decide

/-- A frame from port 0 that is nobody's; one for the device that is no protocol's; one too short for a mailbox message. -/
def frame (dst : Nat) (what : FrameClass) : EthFrame := { port := 0, len := 64, dst := dst, vid := none, what := what }

theorem witness_UnwantedFramesAreAnsweredOrDropped :
    Good opened (msg []) ∧ definedSession 4 = false ∧ definedSession 3 = true ∧ definedCommand 0x307 = false ∧
      definedCommand 0x306 = true ∧ ({ msg [] with version := 0 } : Inbound).version ≠ 1 ∧
      opened.reaches { msg [] with version := 0 } = true ∧ opened.takes { msg [] with version := 0 } = true ∧
      Sound opened (msg []) 0 sess ∧ (opened.ep 0).up = true ∧ opened.fateOf (frame 0 .other) = .rxdrop ∧
      opened.fateOf (frame 0 (.carrier false false 0x88B5 15 1 0)) = .stwDiscard ∧ opened.fateOf (frame 1 .other) = .silent ∧
      (opened.setReg F.ethEpIpv4 1 0 7).reg F.ethEpIpv4 1 ≠ 0 ∧ (opened.setReg F.ethEpIpv63 1 0 7).ipv6 1 ≠ 0 :=
  ⟨by unfold Good; decide, by decide, by decide, by decide, by decide, by decide, by decide, by decide,
    sound opened [] 0 0 rfl (by decide) (by decide) rfl (by decide) rfl, by decide⟩

/-- Sessions in which the tag is busy with another command, with no credit, without a right, and repeating the command. -/
def with_ (x : Session) : State := up.setSess 0 x
def busyTag : Session := { sess with tags := [(1, { seq := 8, status := 0, busy := true })] }
def noCredit : Session := { sess with grant := 0 }
def noRight : Session := { sess with rights := 0 }
def repeated (busy : Bool) : Session := { sess with tags := [(1, { seq := 9, status := 0x12, busy := busy })] }

theorem witness_FirmwareCommandsQueueOrAreRejected :
    (let c : Instr := .linkNodeGet 0 (msg (be 2 1) 7)
     firmwareRow c = some (0, msg (be 2 1) 7, 0x302, Right.operate) ∧ Served opened (msg (be 2 1) 7) Right.operate sess) ∧
    (let m := msg [] 7
     (opened.reaches m = true ∧ opened.reaches { m with proto := 0x88B6 } = false ∧ (opened.ep m.port).up = true ∧
       opened.takes { m with payLen := 15 } = false ∧ opened.reaches { m with payLen := 15 } = true ∧
       opened.takes m = true ∧ ({ m with version := 0 } : Inbound).version ≠ 1 ∧ m.version = 1 ∧ lenOk m = true ∧
       lenOk { m with len := 1 } = false ∧ up.sessOf m.slot m.gen = none) ∧
     (let tagged : Inbound := { m with src := { host with tag := some 12 } }
      let vlan := opened.setReg F.ethVlanMbVid 0 0 11
      vlan.strangeTag tagged.src.tag = true ∧ vlan.reaches tagged = false ∧ opened.seamMarked { m with proto := 0x88B6 } = false ∧
        State.reset.reaches m = false ∧ (State.reset.ep m.port).up = false) ∧
     (let other : Inbound := { m with version := 14 }
      let seamy := opened.setReg F.seaXportRawEn 0 0 1
      seamy.strangeTag other.src.tag = false ∧ seamy.seamMarked other = true ∧ seamy.reaches other = false) ∧
     ((with_ busyTag).sessOf m.slot m.gen = some busyTag ∧ tget? busyTag.tags (m.tag % 4096) = some { seq := 8, status := 0, busy := true } ∧
       8 ≠ m.seq) ∧
     ((with_ noCredit).sessOf m.slot m.gen = some noCredit ∧ tget? noCredit.tags (m.tag % 4096) = none ∧ noCredit.grant ≤ noCredit.inFlight) ∧
     ((with_ noRight).sessOf m.slot m.gen = some noRight ∧ tget? noRight.tags (m.tag % 4096) = none ∧ noRight.inFlight < noRight.grant ∧
       noRight.rights &&& Right.operate ≠ Right.operate) ∧
     ((with_ (repeated true)).sessOf m.slot m.gen = some (repeated true) ∧
       tget? (repeated true).tags (m.tag % 4096) = some { seq := 9, status := 0x12, busy := true } ∧ 9 = m.seq) ∧
     (({ opened with fau := { opened.fau with pairs := [] } } : State).tick 0).busyWith m.mb = some (2, 0xFFFFFFFF)) :=
  ⟨⟨rfl, served opened _ _ rfl (by decide) (by decide) rfl (by decide) rfl (by decide) rfl⟩, by decide⟩


/-- Bit 12 of octets 2 and 3 is reserved: the tag is what lies below it. -/
theorem test_reserved_tag_bit :
    ∃ u, exec (.linkNodeGet 0 { msg (be 2 1) with tag := 4097 }) opened = .next u ∧ u.stw.flights.map (·.tag) = [1] := ⟨_, rfl, by decide⟩
/-! ## Witnesses: the firmware commands -/

/-- A firmware command that is served: its message in mailbox 7, in a state that has session 0 and nothing in flight. -/
def calls (s : State) (operand : List Byte) (need : Nat) : Bool :=
  s.pow.on && s.reaches (msg operand 7) && s.flag F.stwXportRawEn && decide (tget? s.stw.sess 0 = some sess) && s.fwRuns &&
    decide (s.stw.flights = []) && decide (operand.length ≤ 8192) && decide (0xFF &&& need = need)

theorem calls_served {s : State} {operand : List Byte} {need : Nat} (h : calls s operand need = true) :
    Served s (msg operand 7) need sess ∧ 528 ≤ sess.maxmsg := by
  simp only [calls, Bool.and_eq_true, decide_eq_true_eq] at h
  obtain ⟨⟨⟨⟨⟨⟨⟨h1, h2⟩, h3⟩, h4⟩, h5⟩, h6⟩, h7⟩, h8⟩ := h
  exact ⟨served s operand need h1 h2 h3 h4 h5 h6 h7 h8, by decide⟩

/-- Line port 23 in service with slot 63 enabled and mapped, and node 1 on it. -/
def pmap : PMap := { version := 3, entries := List.replicate 16 0, basis := List.replicate 16 0 }
def lined : State :=
  let s := (opened.setReg F.plxCtlEn 23 0 1).setReg F.plxLsRegionEn 23 63 1
  let s := s.setLp 23 { LinePort.init with service := true, serviceAt := 1, conv := true }
  let s := s.setLs 23 63 { LineSlot.init with map := some pmap }
  { s with plx := { s.plx with nodes := [(1, node), (9, { node with state := 2 })] } }

theorem witness_LinkCommandsAreServed :
    (let o := be 1 0xFF ++ zeros 1 ++ be 2 0 ++ be 2 1
     calls lined o Right.operate = true ∧ o.length = 6 ∧ beAt o 4 2 = 1 ∧
       20 + 64 ≤ sess.maxmsg) ∧
    (calls lined (be 2 1) Right.operate = true ∧ lined.node? (beAt (be 2 1) 0 2) = some node ∧ node.route.length ≤ 8 ∧
      ∀ e ∈ lined.plx.ports, ∀ z ∈ e.2.slots, ∀ f ∈ z.2.queue, f.node ≠ 1 ∧ f.dst ≠ 1) ∧
    (calls lined (be 2 2) Right.operate = true ∧ lined.node? (beAt (be 2 2) 0 2) = none) ∧
    (let o := be 1 23 ++ be 1 63
     calls lined o Right.operate = true ∧ o.length = 2 ∧ (lined.ls (octet o 0) (octet o 1)).map = some pmap ∧ pmap.entries.length = 16) ∧
    (calls lined (be 1 23) Right.operate = true ∧ (be 1 23).length = 1 ∧ octet (be 1 23) 0 < 24) := by decide

theorem witness_LinkCommandsAreServed_list :
    (let o := be 1 23 ++ zeros 1 ++ be 2 1 ++ be 2 127
     calls lined o Right.operate = true ∧ o.length = 6 ∧ octet o 0 < 24 ∧ beAt o 4 2 = 127) ∧
    20 + 2 * 64 ≤ sess.maxmsg ∧ (lined.plx.nodes.filter fun e => (decide (23 = 0xFF) || decide (e.2.port = 23)) && decide (1 ≤ e.1)) =
      [(1, node), (9, { node with state := 2 })] := by decide

/-- A LINK DOWNLINK, or an AIR DOWNLINK: to entry `short`, on a port, under a key, of some octets. -/
def downlink (short port method key len : Nat) : List Byte :=
  be 2 short ++ be 1 port ++ be 1 method ++ be 4 key ++ be 1 0 ++ be 1 1 ++ be 2 len ++ zeros 4 ++ zeros len

/-- Node 5 behind node 1, and node 9 that has been taken out of its slot's links; the key of the line. -/
def far : Node := { node with flags := 4, hops := 2, route := [1] }
def lineKey : KeyRec := { handle := 0x00010002, size := 16, usage := 5, bind := 0, key := List.replicate 16 0x22 }
def linked : State :=
  { lined with
    plx := { lined.plx with nodes := [(1, node), (5, far), (9, { node with state := 3 })] }
    cip := { lined.cip with root := some (List.replicate 32 0x11), cache := [(2, lineKey)] } }

/-- A downlink that the host asks for with the operand `o`, on a state and its node. -/
def asked (s : State) (o : List Byte) (y : Node) : Bool :=
  calls s o Right.operate && decide (17 ≤ o.length) && decide (o.length = 16 + beAt o 10 2) && decide (octet o 3 ≤ 3) &&
    decide (s.node? (beAt o 0 2) = some y) && (decide (octet o 2 = 0xFF) || decide (octet o 2 < 24))

set_option maxRecDepth 4000 in
theorem witness_LinkCommandsAreServed_downlink :
    (let o := downlink 1 0xFF 3 0 1
     asked linked o node = true ∧ linked.linkOn 23 63 = true ∧ 1 + secOverhead 0 (secLevel 0) ≤ 256 ∧ linked.mayAddress 1 = true) ∧
    (let o := downlink 5 23 3 0 1
     asked linked o far = true ∧ bit far.flags 2 = true ∧ linked.mayAddress (far.route.headD 0) = true ∧
       1 + secOverhead 0 (secLevel 0) ≤ 248 - 2 * far.hops) ∧
    (asked linked (downlink 9 0xFF 0 0 1) { node with state := 3 } = true ∧ asked linked (downlink 1 22 0 0 1) node = true) ∧
    (let o := downlink 5 0xFF 0 0 245
     asked linked o far = true ∧ 248 - 2 * far.hops < 245 + secOverhead 0 (secLevel 0)) ∧
    (let o := downlink 1 0xFF 0 0x00010002 1
     asked linked o node = true ∧ linked.sendBarred false 0x00010002 = false) ∧
    (let o := downlink 5 0xFF 0 0x00010002 1
     asked linked o far = true ∧ 1 + secOverhead 0x00010002 (secLevel 0) ≤ 248 - 2 * far.hops) ∧
    (asked lined (downlink 1 0xFF 0 0x00010002 1) node = true ∧ lined.sendBarred false 0x00010002 = true) := by decide

/-- A cipher job on core 15 that secures a frame. -/
def sealing (use : JobUse) : Job :=
  { id := 0, desc := be 1 3 ++ zeros 63, ring := none, own := some (zeros 32), use := use, time := 0, key := some lineKey, bad := 0,
    nonce := [], iv := [], stage := .running 15 }
def sealed : Sealing := { ref := 6, port := 23, slot := 63, frame := ownFrame (.downlink 6) 0 0 1 1 0 false (zeros 4) }

theorem witness_LinkCommandsAreServed_sealed :
    let s : State := { linked with cip := { linked.cip with jobs := [sealing (.line 6)] }, plx := { linked.plx with sealing := [sealed] } }
    s.cip.jobs.find? (fun j => decide (j.stage = .running 15)) = some (sealing (.line 6)) ∧
      Seals (sealing (.line 6)) lineKey (zeros 32) ∧ s.plx.sealing.find? (fun y => decide (y.ref = sealed.ref)) = some sealed ∧
      (s.node? sealed.frame.node).isSome = true ∧ s.linkOn 23 63 = true := by unfold Seals; decide

/-- Air port 15 in service, channel 63 enabled, and sensor 1 there. -/
def aired : State :=
  let s := (opened.setReg F.airCtlEn 15 0 1).setReg F.airChCfgEn 15 63 1
  let s := s.setAp 15 { AirPort.init with up := true, served := true }
  { s with air := { s.air with sensors := [(1, sensor)] } }

theorem witness_AirCommandsAreServed :
    (let o := be 1 0 ++ zeros 13 ++ be 2 1
     calls aired o Right.operate = true ∧ o.length = 16 ∧ octet o 0 = 0 ∧ aired.sensor? (beAt o 14 2) = some sensor) ∧
    (calls aired (be 2 1) Right.operate = true ∧ aired.sensor? (beAt (be 2 1) 0 2) = some sensor) ∧
    (calls aired (be 2 1 ++ be 1 1) Right.operate = true ∧ octet (be 2 1 ++ be 1 1) 2 ≤ 1 ∧ aired.sensor? 1 = some sensor ∧
      aired.sensor? 2 = none ∧ octet (be 2 2 ++ be 1 0) 2 = 0) ∧
    (calls aired (be 1 15) Right.operate = true ∧ octet (be 1 15) 0 < 16) := by decide

/-- A sensor that wakes every 4 s and whose wake phase is known, and its pending window; the air's key. -/
def sleeper : Sensor := { sensor with sleepy := true, wakeMs := 4000, valid := true, nph := 2, clk := 1 }
def airKey : KeyRec := { lineKey with usage := 9 }
def sleeping (x : Sensor) : State :=
  { aired with
    air := { aired.air with sensors := [(1, x)] }
    cip := { aired.cip with root := some (List.replicate 32 0x11), cache := [(2, airKey)] } }
def window (s : State) : State :=
  { s with air := { s.air with windows := [{ ext := 77, short := 1, port := 15, chan := 63, start := s.now, fin := s.now + sec, used := false }] } }

/-- The downlink of the host's that the operand `o` asks for. -/
def asks_ (s : State) (o : List Byte) (x : Sensor) : AirDown :=
  { AirDown.own (.host s.stw.nextRef) 1 x.ext x.port x.chan s.air.seq true
      (s.downHead 1 true (decide (beAt o 4 4 ≠ 0)) s.air.seq (le 2 1) ++ o.drop 16) with
    method := octet o 3, expires := some (max s.now 0 + 30 * sec), id := s.air.nextId }

/-- What every AIR DOWNLINK's clauses ask for. -/
def asksAir (s : State) (o : List Byte) (x : Sensor) : Bool :=
  calls s o Right.operate && decide (17 ≤ o.length) && decide (o.length = 16 + beAt o 10 2) && decide (octet o 3 ≤ 3) &&
    decide (s.sensor? (beAt o 0 2) = some x) && (decide (octet o 2 = 0xFF) || decide (octet o 2 < 16))

/-- And those in which it is planned. -/
def plansAir (s : State) (o : List Byte) (x : Sensor) : Bool :=
  asksAir s o x && decide (x.state = 1) && (decide (octet o 2 = 0xFF) || decide (octet o 2 = x.port)) &&
    decide (9 + secOverhead (beAt o 4 4) (secLevel (octet o 8)) + (o.drop 16).length + s.fcsLen x.port x.chan ≤
      s.reg F.airChLimMaxlen x.port x.chan) && s.flag F.airChCfgEn x.port x.chan

set_option maxRecDepth 8000 in
theorem witness_AirCommandsAreServed_downlink :
    plansAir aired (downlink 1 0xFF 3 0 1) sensor = true ∧ (∀ d ∈ aired.air.downs, d.ext ≠ sensor.ext) ∧ sensor.wakeMs = 0 ∧
      asksAir aired (downlink 1 14 3 0 1) sensor = true ∧ 14 ≠ sensor.port ∧
      (let s := sleeping { sensor with state := 3 }
       asksAir s (downlink 1 15 3 0 1) { sensor with state := 3 } = true) ∧
      (let o := downlink 1 15 3 0 2
       let s := aired.setReg F.airChLimMaxlen 15 63 10
       asksAir s o sensor = true ∧ s.reg F.airChLimMaxlen 15 63 < 9 + 2) ∧
      (let o := downlink 1 15 0 0x00010002 1
       plansAir (sleeping sensor) o sensor = true ∧ (sleeping sensor).sendBarred true 0x00010002 = false ∧
         plansAir aired o sensor = true ∧ aired.sendBarred true 0x00010002 = true) ∧
      (let d := asks_ aired (downlink 1 15 0 0 1) sensor
       let s : State := { aired with air := { aired.air with downs := [{ d with stage := .sealing }] } }
       (s.air.downs.filter fun d => decide (d.ext = sensor.ext) && d.inLine && !d.done) = [{ d with stage := .sealing }]) := by decide

set_option maxRecDepth 8000 in
theorem witness_AirCommandsAreServed_methods :
    let s := sleeping sleeper
    (∀ n < 4, plansAir s (downlink 1 15 n 0 1) sleeper = true) ∧ sleeper.wakeMs ≠ 0 ∧ (∀ d ∈ s.air.downs, d.ext ≠ sleeper.ext) ∧
      (s.longPlan (asks_ s (downlink 1 15 1 0 1) sleeper) { sleeper with wakeMs := 10 }).isSome = true ∧
      s.longPlan (asks_ s (downlink 1 15 1 0 1) sleeper) { sleeper with wakeMs := 65535 } = none ∧
      (s.phasePlan (asks_ s (downlink 1 15 3 0 1) sleeper) sleeper).isSome = true ∧
      s.phasePlan (asks_ s (downlink 1 15 3 0 1) sleeper) { sleeper with valid := false } = none ∧ s.openWindow? 77 = none ∧
      (∃ a, (window s).openWindow? 77 = some a ∧
        (((window s).tick 0).windowPlan (asks_ s (downlink 1 15 0 0 1) sleeper) a).isSome = true) ∧
      s.flag F.airDutyCfgEn (s.acctOf 15 63) = false := ⟨by decide, by decide, by decide, by decide, by decide, by decide, by decide, by decide, ⟨_, rfl, by decide⟩, by decide⟩

theorem witness_AirCommandsAreServed_sealed :
    let d : AirDown := { asks_ aired (downlink 1 15 0 0x00010002 1) sensor with id := 6, stage := .sealing }
    let s : State :=
      { sleeping sensor with
        cip := { (sleeping sensor).cip with jobs := [sealing (.air 6)] }, air := { (sleeping sensor).air with downs := [d] } }
    s.cip.jobs.find? (fun j => decide (j.stage = .running 15)) = some (sealing (.air 6)) ∧
      Seals (sealing (.air 6)) lineKey (zeros 32) ∧ d ∈ s.air.downs ∧ (∀ e ∈ s.air.downs, e.id = d.id → e = d) ∧
      (s.air.downs.filter fun e => decide (e.ext = d.ext)) = [d] ∧ d.inLine = true ∧ d.done = false ∧
      s.entryOf d = some sensor ∧ sensor.wakeMs = 0 ∧ s.flag F.airChCfgEn d.port d.chan = true := by unfold Seals; decide

theorem witness_SensCommandsAreServed :
    (let o := be 1 31 ++ be 1 1
     calls opened o Right.operate = true ∧ o.length = 2 ∧ 1 ≤ octet o 1 ∧ octet o 0 + octet o 1 ≤ 32) ∧
    (let o := be 1 3 ++ be 1 1 ++ zeros 2 ++ be 4 21000
     calls opened o Right.operate = true ∧ o.length = 8 ∧ octet o 0 < 4 ∧ octet o 1 = 1 ∧ 3600 ≤ beAt o 4 4 ∧ beAt o 4 4 ≤ 21000) ∧
    (let o := be 1 3 ++ be 1 3 ++ zeros 2 ++ be 4 0
     calls opened o Right.operate = true ∧ octet o 1 ≤ 3 ∧ octet o 1 ≠ 1 ∧ (opened.setReg F.lopLoCtlEn 3 0 1).flag F.lopLoCtlEn 3 = true) ∧
    (let o := be 1 7
     calls opened o Right.operate = true ∧ o.length = 1 ∧ curveInfo (octet o 0) = some (1, 2, -20000, 100000)) := by
  decide

/-- A key in its slot. -/
def key : KeyRec := { handle := 0x00010002, size := 16, usage := 5, bind := 0, key := List.replicate 16 0x22 }
def keyed : State := { opened with cip := { opened.cip with root := some (List.replicate 32 0x11), cache := [(2, key)] } }

theorem witness_KeyCommandsAreServed :
    (let o := be 4 0x00010002 ++ zeros 48
     calls keyed o Right.key = true ∧ o.length = 52 ∧ keyed.cip.root.isSome = true ∧ beAt o 0 4 ≠ 0) ∧
    (calls opened (zeros 52) Right.key = true ∧ (zeros 52).length = 52 ∧ opened.cip.root = none) ∧
    (let o := be 4 0x00010002
     calls keyed o Right.key = true ∧ o.length = 4 ∧ keyed.keyFor (beAt o 0 4) = some key) ∧
    (let o := be 4 0xA1A40000
     calls keyed o Right.key = true ∧ o.length = 4 ∧ beAt o 0 4 = 0xA1A40000) ∧
    (let o := be 4 0xA1A40001
     calls keyed o Right.key = true ∧ o.length = 4 ∧ beAt o 0 4 ≠ 0xA1A40000) := by decide

/-- The unwrap of a KEY LOAD's record, on core 15, and its command; the empty key unwraps nothing. -/
def unwrapping : Job :=
  { id := 0, desc := (unwrapJob (zeros 48) (.unwrap 0 0x00010002)).desc, ring := none, own := some (zeros 48),
    use := .unwrap 0 0x00010002, time := 0, key := some { key with key := [] }, bad := 0, nonce := [], iv := [],
    stage := .running 15 }
def unwraps : State :=
  { keyed with
    cip := { keyed.cip with jobs := [unwrapping], nextJob := 1 }
    stw := { keyed.stw with flights := [{ flight with opcode := 0x601, stage := .waiting }], nextRef := 1 } }

theorem witness_KeyCommandsAreServed_unwrapped :
    unwraps.pow.on = true ∧ unwrapKey [] (zeros 48) = none ∧ (zeros 48).length = 48 ∧
      unwraps.cip.jobs.find? (fun j => decide (j.stage = .running 15)) = some unwrapping ∧
      unwraps.cip.waits = [] ∧ unwraps.flag F.cipHrCtlEn = false ∧ unwraps.pairActive = true ∧
      unwraps.flight? 0 = some { flight with opcode := 0x601, stage := .waiting } ∧
      unwraps.sessOf 0 1 = some sess ∧ 16 ≤ sess.maxmsg := by decide

/-- The manager of a cluster, with one entry in its registry. -/
def entry : RegEntry := { home := 0, kind := 1, flags := 0, short := 1, port := 15, key := 0, cepoch := 0, cns := 0 }
def manager : State := { opened with sea := { opened.sea with role := 6, registry := [(77, entry)] } }

theorem witness_ClusterCommandsAreServed :
    (calls opened [] Right.cluster = true) ∧
    (let o := be 8 77
     calls opened o Right.cluster = true ∧ o.length = 8 ∧ opened.sea.role ≠ 6 ∧ calls manager o Right.cluster = true ∧
       manager.sea.role = 6 ∧ tget? manager.sea.registry (beAt o 0 8) = some entry) ∧
    (let o := be 8 77 ++ be 2 0 ++ be 1 2 ++ zeros 21
     calls manager o Right.cluster = true ∧ o.length = 32 ∧ (entryOf o).2.kind = 2 ∧
       tget? manager.sea.registry (entryOf o).1 = some entry ∧ manager.sea.deputy = none ∧ manager.sea.mirrors = [] ∧
       ({ manager.sea with deputy := some 9, synced := true } : Sea).synced = true) ∧
    (let o := be 2 0 ++ be 2 13
     calls manager o Right.cluster = true ∧ o.length = 4 ∧ 1 ≤ beAt o 2 2 ∧ beAt o 2 2 ≤ 13) ∧
    (calls manager [] Right.cluster = true ∧ manager.sea.role ≠ 0) := by decide

/-- A capture of air port 15, of session 0. -/
def capture : Capture :=
  { source := 2, port := 15, slot := 0, gen := 1, stream := 6, start := 0, dur := 0, sent := 0, gap := true }
def captured : State := { opened with caps := [capture] }

theorem witness_CaptureAndDiagCommandsAreServed :
    (let o := be 1 2 ++ be 1 15 ++ zeros 2 ++ be 4 0 ++ be 4 7
     calls captured o Right.capture = true ∧ o.length = 12 ∧ octet o 0 = 2 ∧ octet o 1 < 16 ∧
       (∀ c ∈ captured.caps, capturesOf (octet o 0) (octet o 1) c = true → c.slot = 0 ∧ c.gen = 1)) ∧
    (let o := be 1 1 ++ be 1 23 ++ zeros 2 ++ be 4 0 ++ be 4 7
     calls { opened with caps := [{ capture with source := 1, port := 23, slot := 1 }] } o Right.capture = true ∧
       octet o 0 = 1 ∧ octet o 1 < 24 ∧
       capturesOf (octet o 0) (octet o 1) { capture with source := 1, port := 23, slot := 1 } = true) ∧
    (let o := be 4 6
     calls captured o Right.capture = true ∧ o.length = 4 ∧ captured.caps.find? (fun c => decide (c.slot = 0) && decide (c.gen = 1) &&
       decide (c.stream = beAt o 0 4)) = some capture) ∧
    (calls opened [] Right.diag = true ∧ 24 + 16 * opened.mem.ranges.length ≤ sess.maxmsg) ∧
    (let o := be 4 0 ++ be 2 255
     calls opened o Right.diag = true ∧ o.length = 6 ∧ beAt o 4 2 = 255 ∧ opened.lin.logNext ≤ beAt o 0 4 + 32768 ∧
       opened.lin.log = [] ∧ 16 + 32 * 255 ≤ sess.maxmsg) ∧
    (let o := be 1 63
     calls opened o Right.diag = true ∧ o.length = 1 ∧ octet o 0 < 64 ∧ 32 ≤ sess.maxmsg) := by decide

theorem witness_served : Served lined (msg (be 2 1) 7) Right.operate sess := (calls_served (by decide)).1

/-! ## Witnesses: the direct window -/

/-- A direct-window command that passes the checks, with no WAIT of its session and no posted write left. -/
def asks (s : State) (operand : List Byte) (need : Nat) : Bool :=
  s.pow.on && s.reaches (msg operand) && s.flag F.stwXportRawEn && decide (tget? s.stw.sess 0 = some sess) &&
    decide (operand.length ≤ 8192) && decide (0xFF &&& need = need) && (s.waitOf 0 1).isNone && decide (s.mem.posted = [])

theorem asks_sound {s : State} {operand : List Byte} {need : Nat} (h : asks s operand need = true) :
    Sound s (msg operand 0) need sess ∧ Clear s (msg operand 0) ∧ 256 ≤ sess.maxmsg := by
  simp only [asks, Bool.and_eq_true, decide_eq_true_eq] at h
  obtain ⟨⟨⟨⟨⟨⟨⟨h1, h2⟩, h3⟩, h4⟩, h5⟩, h6⟩, h7⟩, h8⟩ := h
  exact ⟨sound s operand need 0 h1 h2 h3 h4 h5 h6, ⟨Option.isNone_iff_eq_none.mp h7, h8⟩, by decide⟩

theorem witness_FieldsFollowTheirAccessClass :
    let w : RegWrite := { fam := .fltStrmWidx, i := 0, j := 0, value := 0, mask := 0xFFFFFFFF#32 }
    hooked w.fam = false ∧ (⟨31, 0, .ro, false, 0⟩ : Fld) ∈ (famInfo w.fam).flds ∧
      ((famInfo .mnsPortCfg).flds.any fun x => decide (x.acc = .rs)) = true ∧
      State.reset.live none 0 .linBankLen 0 = [] := by decide

theorem witness_QuietRegistersAloneChange :
    carrierReg .stwXport = true ∧ carrierReg .stwUdp = true ∧ carrierReg .linBankLen = false ∧
    State.reset.regs.hitsAt State.reset.now = [] ∧
    let w : RegWrite := { fam := .linBankLen, i := 0, j := 0, value := 4, mask := 0xFFFFFFFF#32 }
    let k : RegWrite := { fam := .linBankWr, i := 0, j := 0, value := 1, mask := 0xFFFFFFFF#32 }
    State.reset.pow.on = true ∧ hooked w.fam = false ∧ regOf 0x2001C = some (.linBankLen, 0, 0) ∧
      State.reset.checkAll 0 State.reset.regs [w] = none ∧ regOf 0x20010 = some (.linBankWr, 0, 0) ∧
      (State.reset.checkAll 0 State.reset.regs [k]).isSome = true ∧ regOf 0x2001D = none := by decide

theorem witness_CfgReadReturnsTheRegisters :
    (asks opened (be 4 0x10000 ++ be 2 1 ++ zeros 2) Right.read = true) ∧
      regsFrom 0x10000 3 = .ok [(.tmbElapsedLo, 0, 0), (.tmbElapsedHi, 0, 0), (.tmbEpoch, 0, 0)] ∧
      regsFrom 0x10000 1 = .ok [(.tmbElapsedLo, 0, 0)] ∧ 16 + 4 * 3 ≤ sess.maxmsg ∧ regsFrom 0x10002 1 = .error 0x10002 :=
  ⟨by decide, rfl, rfl, by decide, rfl⟩

/-- A session whose MAXMSG is the least there is. -/
def small : Session := { sess with maxmsg := 256 }

theorem witness_CfgReadReturnsTheRegisters_long :
    Sound (with_ small) (msg (be 4 0x100100 ++ be 2 61 ++ zeros 2)) Right.read small ∧ 256 ≤ small.maxmsg ∧ small.maxmsg < 16 + 4 * 61 ∧
      ∃ l, regsFrom 0x100100 61 = .ok l :=
  ⟨soundBy _ _ _ _ _ rfl (by decide) (by decide) rfl (by decide) rfl rfl (by decide) (by decide), by decide, by decide, _, rfl⟩

theorem witness_CfgWriteWritesAllOrNothing :
    (let o := be 4 0x2001C ++ be 2 1 ++ zeros 2 ++ be 4 4
     asks opened o (writeRights 0x2001C 1) = true ∧ o.length = 8 + 4 * beAt o 4 2) ∧
    regsFrom 0x2001C 1 = .ok [(.linBankLen, 0, 0)] ∧ regsFrom 0x2001D 1 = .error 0x2001D ∧
    (let o := be 4 0x2001D ++ be 2 1 ++ zeros 2 ++ be 4 4
     asks opened o (writeRights 0x2001D 1) = true ∧ o.length = 8 + 4 * beAt o 4 2) := ⟨by decide, rfl, rfl, by decide⟩

theorem witness_CfgModifyWritesUnderTheMask :
    let o := be 4 0x2001C ++ be 4 0xFF ++ be 4 4
    asks opened o (writeRights 0x2001C 1) = true ∧ o.length = 12 ∧ regOf (beAt o 0 4) = some (.linBankLen, 0, 0) ∧
      hooked .linBankLen = false ∧ carrierReg .linBankLen = false ∧ opened.stw.carrier = none ∧
      opened.regs.hitsAt (max opened.now 0) = [] := by decide

/-- Fields of each class that a MODIFY whose MASK is all ones reaches. -/
theorem witness_CfgModifyWritesUnderTheMask_classes :
    (∀ a ∈ [0x10, 0x10030C, 0x500000], asks opened (be 4 a ++ be 4 0xFFFFFFFF ++ be 4 1) (writeRights a 1) = true) ∧
      regOf 0x10 = some (.stwDiscard, 0, 0) ∧ hooked .stwDiscard = false ∧ carrierReg .stwDiscard = false ∧
      (⟨31, 0, .w1c, false, 0⟩ : Fld) ∈ (famInfo .stwDiscard).flds ∧
      regOf 0x10030C = some (.plxCenAddrLo, 0, 0) ∧ hooked .plxCenAddrLo = false ∧ carrierReg .plxCenAddrLo = false ∧
      ((famInfo .plxCenAddrLo).flds.any fun x => decide (x.acc = .lv)) = true ∧
      ((famsPlx ++ famsAir ++ famsSpl ++ famsSen).any fun f => !hooked f && ((famInfo f).flds.any fun x => decide (x.acc = .rs))) = true := by decide

/-- Port 0 with a frame to send in queue 2, one behind it in queue 3, and a carrier that waits for the first; port 1 paused. -/
def sends : State :=
  let f : Frame := { kind := .response, dst := host, body := zeros 16, proto := 0x88B5 }
  let s := opened.setEp 0 { opened.ep 0 with queues := [(2, [f]), (3, [f])], type := 2, fec := 1 }
  { s with stw := { s.stw with carrier := some (0x88B50003#32, 0xC1E8#32) } }

theorem witness_AnIdleStepSendsTheQueuedFrames :
    off.pending = [] ∧ off.pow.on = false ∧ opened.pending = [] ∧ opened.pow.on = true ∧ sends.pow.on = true ∧
      (let f : Frame := { kind := .response, dst := host, body := zeros 16, proto := 0x88B5 }
       tget [] (sends.ep 0).queues 2 = [f] ∧ tget [] (sends.ep 0).queues 5 = [] ∧ sends.mayLeave 0 2 f = true ∧
         (∀ k < 2, tget [] (sends.ep 0).queues k = []) ∧ (sends.ep 0).up = true ∧
         ((sends.tick sends.now).ethOctets 0 ((sends.tick sends.now).stampFrame (sends.wireFree 0) f)).isSome = true ∧
         ((sends.tick sends.now).ethOctets 0 { f with dst := { host with udp := true } }) = none ∧
         (opened.ep 1).queues = []) := by decide

/-- A WAIT in progress: its time is over at 108 ms. -/
def wait : Wait := { ref := 0, slot := 0, addr := 0x10008, mask := 1, want := 0, due := 108000000 }
def waitFlight : Flight := { flight with opcode := 0x104, mb := 0, stage := .waiting }
def waits : State := { opened with stw := { opened.stw with flights := [waitFlight], nextRef := 1, waits := [wait] } }

theorem witness_CfgWaitAnswersOnceMetOrLate :
    (let o := be 4 0x10008 ++ be 4 1 ++ be 4 1 ++ be 4 8000
     asks opened o Right.read = true ∧ o.length = 16 ∧ regOf (beAt o 0 4) = some (.tmbEpoch, 0, 0) ∧ beAt o 12 4 ≤ 8000) ∧
    (waits.pow.on = true ∧ waits.stw.waits.find? (fun v => decide (v.ref = wait.ref)) = some wait ∧
      waits.flight? wait.ref = some waitFlight ∧ regOf wait.addr = some (.tmbEpoch, 0, 0) ∧
      waits.sessOf waitFlight.slot waitFlight.gen = some sess ∧ 256 ≤ sess.maxmsg ∧
      (∀ g ∈ waits.stw.flights, g.slot = waitFlight.slot → g.gen = waitFlight.gen → g.stage ≠ .held)) := by decide

/-- Memory whose first codeword is poisoned. -/
def poisoned : State := { opened with mem := { opened.mem with poison := [0] } }

theorem witness_MemCommandsReachMemory :
    (let o := be 8 0 ++ be 4 1 ++ zeros 4
     asks opened o Right.read = true ∧ o.length = 16 ∧ firstBad (mayRead opened.mem) 0 1 = none ∧ opened.mem.rot = [] ∧
       opened.mem.poisonIn 0 1 = [] ∧ asks poisoned o Right.read = true ∧ firstBad (mayRead poisoned.mem) 0 1 = none ∧
       poisoned.mem.rot = [] ∧ poisoned.mem.poisonIn 0 1 ≠ [] ∧
       16 + 1 ≤ sess.maxmsg ∧ small.maxmsg < 16 + 241 ∧ kindOf opened.mem 0 < 3) ∧
    (let o := be 8 0x3FFFFFFFF ++ be 4 2 ++ zeros 4
     asks opened o Right.read = true ∧ beAt o 8 4 = 2 ∧ firstBad (mayRead opened.mem) 0x3FFFFFFFF 2 = some 0x400000000) ∧
    (let o := be 8 0 ++ be 1 0 ++ zeros 7 ++ be 1 9
     asks opened o Right.write = true ∧ 17 ≤ o.length ∧ o.length ≤ 8192 ∧ firstBad (mayWrite opened.mem) 0 1 = none ∧
       bit (octet o 8) 0 = false) ∧
    (let o := be 8 0 ++ be 1 1 ++ zeros 7 ++ be 1 9
     asks opened o Right.write = true ∧ bit (octet o 8) 0 = true ∧ opened.mem.poison = []) ∧
    (let o := be 8 0x1005300000 ++ be 1 0 ++ zeros 7 ++ be 1 9
     asks opened o Right.write = true ∧ firstBad (mayWrite opened.mem) 0x1005300000 1 = none) ∧
    (let o := be 8 0x16FD00000 ++ be 1 0 ++ zeros 7 ++ be 1 9
     asks opened o Right.write = true ∧ firstBad (mayWrite opened.mem) 0x16FD00000 1 = some 0x16FD00000) := by decide

theorem witness_MemCommandsReachMemory_fence :
    let p : Posted := { slot := 0, gen := 1, addr := 0, data := be 2 5 }
    let s : State := { opened with mem := { opened.mem with posted := [p] } }
    s.waitOf 0 1 = none ∧ p.of 0 1 = true ∧ (msg []).operand = [] ∧ s.mem.rot = [] ∧ Sound s (msg []) 0 sess ∧ s.mem.posted = [p] :=
  ⟨rfl, by decide, rfl, rfl, sound _ [] 0 0 rfl (by decide) (by decide) rfl (by decide) rfl, rfl⟩

theorem witness_LowReadsLatchTheHighPart : opened.pow.on = true ∧ tget? opened.stw.sess 0 = some sess := by decide

/-- A hand-over under way: its snapshot waits for some links, channels or entries. -/
def handing (c : Fam) (i : Nat) (waiting : List Nat) : State :=
  { State.reset with regs := State.reset.regs.setCom c i
                      { Commit.init with pend := true, snap := State.reset.regs.snapshot c i, waiting := waiting } }

/-- Spool 383 whose shadow of PACE breaks the rules of 15 R358. -/
def badPace : State := { State.reset with regs := setShadow State.reset.regs .splChPace 383 0 0 }

theorem witness_CommitHandsShadowsOver :
    let a := 0x50003C + 383 * 0x40
    State.reset.pow.on = true ∧ commitAt a = some (.splChCommit, 383) ∧ commitAt 0x61FFF0 = some (.cnvCommit, 0) ∧
      (State.reset.regs.com .splChCommit 383).pend = false ∧ State.reset.commitConflict .splChCommit 383 = none ∧
      (badPace.commitConflict .splChCommit 383).isSome = true ∧ State.reset.commitConflict .mnsCommit 0 = none ∧
      AtOnce State.reset .splChCommit 383 ∧ AtOnce State.reset .cnvCommit 0 ∧
      ¬AtOnce (State.reset.setSp 383 { Spool.init with state := 1 }) .splChCommit 383 ∧
      (∀ m < 64, partBusy State.reset .plxCommit 23 m = false) ∧ (∀ m < 64, partBusy State.reset .airCommit 15 m = false) ∧
      (∀ m < 32, partBusy State.reset .fltCommit 0 m = false) :=
  ⟨by decide, by decide, by decide, by decide, by decide, by decide, by decide, Or.inl (by decide),
    show State.reset.cnv.state < 2 by decide, fun h => by revert h; show ¬((_ : Nat) = 0 ∨ _ = 2); decide, by decide, by decide, by decide⟩

theorem witness_CommitHandsShadowsOver_pending (c : Fam) (i : Nat) (w : List Nat) :
    let s := handing c i w
    (s.regs.com c i).pend = true ∧ (s.regs.com c i).waiting = w ∧
      (s.regs.com c i).snap = (scopeRegs c i).map fun r =>
        (famAddr r.1 r.2.1 r.2.2, shadowWord State.reset.regs r.1 r.2.1 r.2.2) := by
  simp only [handing, Regs.setCom, Regs.com, Regs.snapshot, tget_tput_self, and_self]

theorem witness_CommitHandsShadowsOver_offsets :
    let s := (handing .mnsCommit 0 [7, 9]).setTimer 7 { (State.reset.timer 7) with next := 5 }
    s.pow.on = true ∧ commitAt (famAddr .mnsCommit 0 0) = some (.mnsCommit, 0) ∧ (s.timer 7).due ≤ max s.now 5 ∧
      (s.timer 7).atAnchor = true ∧ s.reg F.mnsPortCfgSrc 7 ≠ 3 := by decide

theorem witness_CommitHandsShadowsOver_parts :
    (∃ a, commitAt a = some (.plxCommit, 23)) ∧ (∃ a, commitAt a = some (.airCommit, 15)) ∧ (∃ a, commitAt a = some (.fltCommit, 0)) ∧
      partBusy ((handing .fltCommit 0 [0, 31]).setReg F.cnvCtlEn 0 0 1 |>.setReg F.cnvSeqCtlLen 0 0 32 |>.setChan 31
        { Chan.init with first := some 0 }) .fltCommit 0 31 = true ∧
      (∀ m ∈ [0, 31], m < 32) ∧ partBusy (handing .fltCommit 0 [0, 31]) .fltCommit 0 0 = false :=
  ⟨⟨famAddr .plxCommit 23 0, by decide⟩, ⟨famAddr .airCommit 15 0, by decide⟩, ⟨famAddr .fltCommit 0 0, by decide⟩,
    by decide, by decide, by decide⟩
/-! ## Witnesses: captures, the steward, alarms and the cipher block -/

set_option maxRecDepth 4000 in
theorem witness_CaptureStreamsSendAndEnd :
    let c : Capture := { capture with source := 1, port := 23, dur := 5 }
    let x : Session := { sess with maxmsg := 256 }
    let s : State := { with_ x with caps := [c, { capture with stream := 7 }] }
    let full : Frame := { kind := .capture, dst := host, body := zeros 16 ++ be 1 1 ++ be 1 23 ++ zeros 2 ++ be 4 6 ++ zeros 12 ++ be 4 6293 }
    let t : State := s.setEp 0 { s.ep 0 with queues := [(4, [full])] }
    s.pow.on = true ∧ s.capture? 0 6 = some c ∧ c.dur ≠ 0 ∧ c.start + c.dur ≤ max s.now 0 ∧ tget? s.stw.sess 0 = some x ∧
      s.capture? 0 7 = some { capture with stream := 7 } ∧ ({ capture with stream := 7 } : Capture).dur = 0 ∧
      (zeros 216).length = blockSamples c.source x * sampleLen c.source ∧ 0 < (zeros 216).length ∧ c.start ≤ 0 ∧
      s.capQueued c + 216 / 2 ≤ queueSamples c.source ∧ queueSamples c.source < t.capQueued c + 216 / 2 ∧
      t.capture? 0 6 = some c ∧
      (let a := s.setAp 15 { AirPort.init with up := true }
       (a.ap 15).up = true ∧ (a.setReg F.airLatRxNs 15 0 250).reg F.airLatRxNs 15 = 250 ∧ c.source = 1) := by decide

theorem witness_StewardTakesTheLowestMailbox :
    opened.fwRuns = true ∧ (∀ g ∈ opened.stw.flights, g.stage = .queued → 8 ≤ g.mb) ∧ flight ∈ waiting.stw.flights ∧
      waiting.fwRuns = true ∧ flight.stage = .queued ∧ flight.mb < 8 := by decide

theorem witness_AlarmsEraseTheKeys :
    let mesh (b : Nat) : State := State.reset.setReg F.cipAlarmCfgMeshEn 0 0 b
    let clear : State := { State.reset with cip := { State.reset.cip with clearDue := true } }
    (mesh 1).flag F.cipAlarmCfgMeshEn = true ∧ (mesh 0).flag F.cipAlarmCfgMeshEn = false ∧ (mesh 0).pow.on = true ∧
      ((-51 : Int) < -50 ∧ 135 < (136 : Int) ∧ (-50 : Int) ≤ -50 ∧ (135 : Int) ≤ 135) ∧
      State.reset.pow.porstHigh = true ∧ off.pow.porstHigh = false ∧ clear.pow.on = true ∧ clear.cip.clearDue = true ∧
      State.reset.cip.clearDue = false ∧ LogRoom State.reset ∧
      State.reset.supplyOut 2 = false ∧
      (let s := State.reset.linWrite (.key 2 (some (zeros 48)) false)
       s.lin.writes.length = 1 ∧ (LinRec.key 2 (some (zeros 48)) false).erased = true) ∧
      (620000 : Nat) ≤ State.reset.volts 0 ∧ State.reset.volts 0 ≤ 900000 ∧ 1710000 ≤ State.reset.volts 2 ∧
      (let s : State := { off with pow := { off.pow with volts := [(2, 0)] }, cip := { off.cip with supplies := [2], present := [2] } }
       s.volts 2 = 0 ∧ s.pow.porstHigh = false ∧ 2 ∈ s.cip.supplies) := by unfold LogRoom; decide

/-- A descriptor of 64 octets: CTR over one octet at 256 to 512, queue `q`, under a handle. -/
def desc (mode flags q handle : Nat) (a : Nat := 0) : List Byte :=
  be 1 mode ++ be 1 flags ++ be 1 0 ++ be 1 q ++ be 4 handle ++ be 8 256 ++ be 8 512 ++ be 4 a ++ be 4 1 ++ zeros 32
def jobKey : KeyRec := { key with usage := 3 }
def job (stage : JobStage) : Job :=
  { id := 0, desc := desc 1 0 0 0x00010002, ring := none, own := none, use := .memory, time := 0, key := some jobKey, bad := 0, nonce := [], iv := [], stage := stage }
def ciphered (jobs : List Job) : State :=
  { State.reset with cip := { State.reset.cip with root := some (List.replicate 32 0x11), cache := [(2, jobKey)], jobs := jobs, nextJob := 1 } }

theorem witness_CipherJobsQueueRunAndWrite :
    let hw := desc 3 2 0 0x00010002 4
    let s := ciphered []
    let r : State := { s with lin := { s.lin with nonces := [(2, 65536)] } }
    let one := ciphered [job .queued]
    let runs := ciphered [job (.running 15)]
    let dead := ciphered [{ job (.running 15) with key := none, bad := 2 }]
    (s.pow.on = true ∧ s.cip.place (jQueue (desc 1 0 3 0x00010002)) false = true ∧ bit (jFlags (desc 1 0 3 0x00010002)) 1 = false) ∧
    (s.jobBad (desc 7 2 0 0) false false ≠ 0 ∧ s.cip.place (jQueue (desc 7 2 0 0)) false = true) ∧
    (bit (jFlags hw) 1 = true ∧ r.jobBad hw false false = 0 ∧ r.jobKey hw false = some jobKey ∧ r.counter (slotOf jobKey.handle) < r.bound (slotOf jobKey.handle) ∧
      r.counter (slotOf jobKey.handle) ≤ 0xFFFFFFFE) ∧
    (s.jobBad hw false false = 0 ∧ s.jobKey hw false = some jobKey ∧ s.bound (slotOf jobKey.handle) ≤ s.counter (slotOf jobKey.handle) ∧
      s.nonceDue (slotOf jobKey.handle) = false) ∧
    (s.cip.freeCore = some 0 ∧ (∀ j ∈ s.cip.jobs, j.stage ≠ .queued) ∧ one.cip.freeCore = some 0 ∧ job .queued ∈ one.cip.jobs ∧
      (job .queued).stage = .queued) ∧
    (runs.cip.jobs.find? (fun j => decide (j.stage = .running 15)) = some (job (.running 15)) ∧ (job (.running 15)).ring = none ∧
      (job (.running 15)).key = some jobKey ∧ (job (.running 15)).bad = 0 ∧ runs.mem.rot = [] ∧ runs.mem.poison = [] ∧
      runs.cip.waits = [] ∧ runs.flag F.cipHrCtlEn = false ∧ (job (.running 15)).own = none ∧ (job (.running 15)).use = .memory) ∧
    (dead.cip.jobs.find? (fun j => decide (j.stage = .running 15)) = some { job (.running 15) with key := none, bad := 2 } ∧
      (∀ j ∈ runs.cip.jobs, j.stage ≠ .running 14)) ∧
    s.jobBad (desc 3 2 0 0x00010002 3) false false = 4 := by decide

/-- A record of station 1's frame, on a core; and a job that waits for a place. -/
def recv : RecvRec :=
  { kind := 2, port := 15, chan := 63, flags := 0, short := 1, seq := 1, ext := 77, epoch := 1, ns := 0, margin := 0, hops := 0, head := [] }
def recordJob : Job := { job (.running 15) with own := some (zeros 32), use := .record 9 recv }
def queuedJob : JobWait := { desc := desc 1 0 0 0x00010002, own := none, use := .memory }

theorem witness_CipherJobsQueueRunAndWrite_record :
    let s := ciphered [recordJob]
    let t := ciphered [{ recordJob with bad := 3 }]
    let w : State := { ciphered [{ job (.running 15) with key := none, bad := 2 }] with
                       cip := { (ciphered [{ job (.running 15) with key := none, bad := 2 }]).cip with waits := [queuedJob] } }
    (s.pow.on = true ∧ s.cip.jobs.find? (fun j => decide (j.stage = .running 15)) = some recordJob ∧ recordJob.own = some (zeros 32) ∧
      recordJob.use = .record 9 recv ∧ recordJob.key = some jobKey ∧ recordJob.ring = none ∧ s.cip.waits = [] ∧
      s.flag F.cipHrCtlEn = false ∧ recordJob.bad = 0) ∧
    (t.cip.jobs.find? (fun j => decide (j.stage = .running 15)) = some { recordJob with bad := 3 } ∧ 2 < ({ recordJob with bad := 3 } : Job).bad) ∧
    (w.cip.waits = [queuedJob] ∧
      ({ w.cip with jobs := w.cip.jobs.filter (fun x => decide (x.id ≠ 0)) } : Cip).place (jQueue queuedJob.desc) false = true) := by decide

theorem witness_CipherJobsQueueRunAndWrite_full :
    (ciphered (List.replicate 4096 (job .queued))).cip.place 0 false = false := by
  decide +kernel

/-- The host ring running, its TAIL and its next job at 0. -/
def ring : State := State.reset.setReg F.cipHrCtlEn 0 0 1

theorem witness_HostRingAndCheckUnitsRun :
    (State.reset.flag F.cipHrCtlEn = false ∧ ring.flag F.cipHrCtlEn = true ∧ ring.pow.on = true) ∧
    (ring.ringSize ≤ 16 ∧ 0 = ring.reg F.cipHrTailTail ∧ 15 < State.reset.ringSize ∧ 1 < ring.ringSize ∧ 1 ≠ ring.reg F.cipHrTailTail ∧
      ring.cip.ringTaken ≠ 1 ∧ (ring.cip.ringTaken + 1) % ring.ringSize = 1 ∧ ring.cip.place 3 true = true ∧
      ring.ringGap (ring.reg F.cipHrHeadHead) (ring.reg F.cipHrTailTail) + ring.ringGap (ring.reg F.cipHrTailTail) 1 < ring.ringSize ∧
      (let r := (State.reset.setReg F.cipHrTailTail 0 0 5).setReg F.cipHrHeadHead 0 0 2
       r.ringSize ≤ r.ringGap (r.reg F.cipHrHeadHead) (r.reg F.cipHrTailTail) + r.ringGap (r.reg F.cipHrTailTail) 3)) ∧
    (ring.mem.rot = [] ∧ ring.mem.poison = []) ∧
    (State.reset.cip.unitsOut.length < 8 ∧ 4 ≤ 4 ∧ (zeros 16).length ≤ 16 ∧ 8 ≤ ({ State.reset.cip with unitsOut := [0, 1, 2, 3, 4, 5, 6, 7] } : Cip).unitsOut.length) := by decide

/-- A ring that begins above the memory. -/
theorem witness_HostRingAndCheckUnitsRun_outside : (ring.setReg F.cipHrJobsHi 0 0 0xFFFFFFFF).ringsOk = false := by
  decide +kernel
/-! ## Witnesses: fault masking and Ethernet ports -/

/-- An engine in a given state at 100 ms, its checkpoint 4 ms old. -/
def engine (st : EngState) : Engine := { Engine.reset 0 with st := st, ckpt := { time := 96000000, fx := [], data := [] } }
def engines (l : Tab Engine) : State := { State.reset with fau := { State.reset.fau with engines := l } }

theorem witness_EnginesKeepTwoCheckpoints :
    let s := engines [(59, engine .active)]
    let w := engines [(59, { engine .active with ckptNew := some { time := 5, fx := [], data := [] } })]
    s.pow.on = true ∧ 59 < 64 ∧ (s.eng 59).st = .active ∧ (s.eng 59).patch = none ∧ max s.now 100921875 % ms = 15625 * 59 ∧
      max s.now 0 % ms ≠ 15625 * 59 ∧ (w.eng 59).ckptNew = some { time := 5, fx := [], data := [] } ∧ (s.eng 59).ckptNew = none := by decide

theorem witness_EngineFaultsArePatchedOrReported :
    let two := engines [(0, engine .active), (63, engine .spare)]
    let one := engines [(63, engine .active)]
    let tests := engines [(63, engine .selfTest), (62, engine .retired)]
    (two.pow.on = true ∧ (1 = 1 ∧ 100000000 = max two.now 0) ∧ ((4 = 1 ∨ 4 = 2 ∨ 4 = 4) ∧ 99998000 ≤ max two.now 0 ∧
      max two.now 0 ≤ 99998000 + 2 * us)) ∧
    ((two.eng 0).st = .active ∧ two.spares = [63] ∧ 63 ≠ 0 ∧ (two.eng 0).patch = none ∧ max two.now 0 ≤ (two.eng 0).ckpt.time + 4 * ms) ∧
    ((one.eng 63).st = .active ∧ one.spares = [] ∧ (one.eng 63).ctxs = []) ∧
    (two.eng 63).st = .spare ∧ (tests.eng 63).st = .selfTest ∧ (tests.eng 62).st = .retired ∧ LogRoom one := by
  unfold LogRoom; decide

/-- A candidate at place 1 of line port 23's slot 63, its context on engine 0 and in that engine's checkpoint. -/
def kept : LineCand := { place := 1, metric := (0, 0), start := 7, mode := none, broken := false }
def keptData : List (Ctx × CtxData) := [(.lineRx 23 63 1, .lineRx (some kept) none)]

theorem witness_EngineFaultsArePatchedOrReported_restored :
    let e : Engine := { engine .active with ctxs := [.lineRx 23 63 1], ckpt := { time := 96000000, fx := [], data := keptData } }
    let s := (engines [(0, e), (63, engine .spare)]).setLs 23 63 { LineSlot.init with cands := [{ kept with metric := (9, 1) }] }
    (s.eng 0).st = .active ∧ s.spares = [63] ∧ (s.eng 0).ctxs = [.lineRx 23 63 1] ∧ (s.eng 0).ckpt.data = keptData ∧
      max s.now 0 ≤ (s.eng 0).ckpt.time + 4 * ms ∧ HasSlot s 23 63 := by unfold HasSlot; decide

/-- An input of the context of air port 15's channel 63, number 5. -/
def input (time : Nat) : HeldInput := { time := time, ctx := .airRx 15 63 1, num := some 5, input := .airPhr 15 63 1 20 none, after := [] }
def patch : Patch := { failed := 0, detect := 1, detected := 99000000, fault := 98000000, ckpt := 96000000 }

theorem witness_EnginesReturnToTheirPool :
    let s := engines [(62, { engine .active with patch := some patch }), (63, { engine .active with drain := true, ctxs := [.airRx 15 63 1] })]
    let b := s.setLs 23 63 { LineSlot.init with cands := [{ place := 1, metric := (0, 0), start := 0, mode := none, broken := false }] }
    let z := engines [(63, { engine .selfTest with testAt := 0 })]
    let t : State := { State.reset with fau := { State.reset.fau with testing := true } }
    (s.pow.on = true ∧ (s.eng 62).st = .active ∧ (s.eng 62).patch = some patch ∧ patch.fault ≤ 98000000 ∧ 98000000 ≤ max s.now 0 ∧
      LogRoom s ∧ patch.detect < 256 ∧ (s.eng 62).inputs = []) ∧
    (let r := engines [(62, { engine .active with patch := some patch, inputs := [input 97000000] })]
     (r.eng 62).inputs = [input 97000000] ∧ patch.ckpt ≤ (input 97000000).time ∧ r.fau.taken (input 0).ctx < 5 ∧
       (let t : State := { r with fau := { r.fau with accepted := [((input 0).ctx, 5)] } }; (5 : Nat) ≤ t.fau.taken (input 0).ctx) ∧
       (let h : HeldInput := { input 97000000 with num := none }
        ((engines [(62, { engine .active with patch := some patch, inputs := [h] })]).eng 62).inputs = [h] ∧ h.num = none) ∧
       (let h : HeldInput := { input 97000000 with ctx := .lineRx 23 63 1, after := keptData }
        let e : Engine := { engine .active with patch := some patch, inputs := [h], ctxs := [.lineRx 23 63 1] }
        let w := (engines [(62, e)]).setLs 23 63 LineSlot.init
        (w.eng 62).inputs = [h] ∧ h.after = keptData ∧ Ctx.lineRx 23 63 1 ∈ (w.eng 62).ctxs ∧ HasSlot w 23 63)) ∧
    (s.ctxBusy (ctxOf 2 15 63 1) = false ∧ b.ctxBusy (ctxOf 0 23 63 1) = true ∧ tget? s.fau.engines 63 =
        some { engine .active with drain := true, ctxs := [ctxOf 2 15 63 1] }) ∧
    (ascending State.reset.fau.engines = true ∧ 8 ≤ (State.reset.actives.filter fun k => !(State.reset.eng k).drain).length) ∧
    (z.pow.on = true ∧ z.fau.testing = false ∧ (z.eng 63).st = .selfTest ∧ (z.eng 63).testAt + 100 * ms ≤ max z.now 0) ∧
    (t.pow.on = true ∧ t.fau.testing = true) := by unfold LogRoom HasSlot; decide

def pairs (l : Tab PairState) : State := { State.reset with fau := { State.reset.fau with pairs := l } }

theorem witness_PairsSwitchAndReturn :
    (State.reset.pow.on = true ∧ State.reset.fau.pairs = [(0, .active), (1, .standby)] ∧ 0 ≠ 1 ∧
      (pairs [(0, .standby), (1, .active)]).fau.pairs = [(0, .standby), (1, .active)]) ∧
    (pairs [(1, .active)]).fau.pairs = [(1, .active)] ∧
    (let f : Flight := { flight with stage := .answered 0 [] }
     let s : State := { opened with stw := { opened.stw with flights := [f], nextRef := 1 } }
     f ∈ s.stw.flights ∧ 0x300 ≤ f.opcode ∧ s.sessOf f.slot f.gen = some sess ∧ 16 + ([] : List Byte).length ≤ sess.maxmsg ∧
       s.fwRuns = true ∧ opened.stw.flights = []) ∧
    (let s := pairs [(1, .selfTest)]
     s.pow.on = true ∧ tget? s.fau.pairs 1 = some .selfTest ∧ tget 0 s.fau.pairTest 1 + sec ≤ max s.now sec ∧
       max s.now (sec - 1) < tget 0 s.fau.pairTest 1 + sec ∧ s.pairActive = false) := by decide

theorem witness_UnitsVotesMemoryAndLog :
    let w : LogWait := { body := zeros 28, engine := some 63 }
    let s : State := { State.reset with fau := { State.reset.fau with queue := [w] } }
    (State.reset.pow.on = true ∧ 15 < 16 ∧ 15 ∉ State.reset.cip.coresOut ∧ 7 < 8 ∧ 7 ∉ State.reset.cip.unitsOut ∧ LogRoom State.reset) ∧
      inMemory 0x3FFFFFFFF = true ∧ s.fau.queue = [w] ∧ s.pairActive = true ∧ State.reset.fau.queue = [] ∧
      (let f : State := { State.reset with fau := { State.reset.fau with queue := List.replicate 64 w } }; ¬LogRoom f) := by
  unfold LogRoom; decide

theorem witness_EthernetPortsComeAndGo :
    let s (en : Nat) : State := up.setReg F.ethEpCtlEn 1 0 en
    let d : State := (State.reset.setReg F.ethEpCtlEn 1 0 1).setEp 0 { EthPort.reset with up := true }
    let c : State := State.reset.setReg F.ethEpCtlType 1 0 1
    (up.pow.on = true ∧ 1 < 2 ∧ (s 0).flag F.ethEpCtlEn 1 = false ∧ (s 1).flag F.ethEpCtlEn 1 = true ∧ ((s 1).ep 1).up = true ∧
      ((s 1).ep 0).up = true ∧ ((s 1).ep 1).fecOn = true ∧
      (let n := (s 1).setEp 1 { EthPort.reset with up := true, type := 2, fec := 0 }; (n.ep 1).fecOn = false)) ∧
    ((d.ep 1).since + 10 * ms ≤ max d.now 0 ∧ (let x := d.setEp 1 { d.ep 1 with since := 91 * ms }; max x.now 0 < (x.ep 1).since + 10 * ms)) ∧
    (c.ethChanged 1 = true ∧ c.responsesGone = true) ∧ (d.flag F.ethEpCtlEn 1 = true ∧ (d.ep 1).up = false ∧ (d.ep 0).up = true) ∧
    (d.ep 0).up = true ∧ (d.ep (1 - 0)).up = false ∧ LogRoom d := by unfold LogRoom; decide

theorem witness_PausesHoldAndRelease :
    let s := (up.setReg F.ethPfcRxEn 0 0 128).setReg F.ethPfcTxEn 0 0 128
    let held := s.setEp 1 { s.ep 1 with paused := [(7, 100000005)], pausing := [(7, 100000000)] }
    (s.pow.on = true ∧ (s.ep 1).up = true ∧ (s.reg F.ethPfcRxEn).testBit 7 = true ∧ 65535 < 65536 ∧ (s.reg F.ethPfcRxEn).testBit 6 = false) ∧
    (tget? (held.ep 1).paused 7 = some 100000005 ∧ 100000005 ≤ max held.now 100000005 ∧ max held.now 100000004 < 100000005) ∧
    ((s.reg F.ethPfcTxEn).testBit 7 = true ∧ tget? (s.ep 1).pausing 7 = none ∧ 1048576 < 1048577 ∧ (held.ep 1).up = true ∧
      (held.reg F.ethPfcTxEn).testBit 7 = true ∧ tget? (held.ep 1).pausing 7 = some 100000000 ∧
      100000000 + 2600 ≤ max held.now 100002600 ∧ max held.now 100002599 < 100000000 + 2600) := by decide

/-! ## Witnesses: mains and pleats, line ports -/

/-- A LOCKED phase 2 whose next crossing is due at 110 ms; one that has heard eight crossings 20 ms apart. -/
def locked : Phase := { Phase.reset with state := 1, crossing := 90000000, rejected := 6, outside := 2 }
def phased (p : Phase) : State := State.reset.setPhase 2 p
def nearlyLocked : Phase := { Phase.reset with state := 3, high := 7, run := (List.range 8).map fun k => k * 20000000 }

theorem witness_MainsTrackerFollowsCrossings :
    let no := State.reset.setReg F.mnsCtlEn 0 0 0
    (no.pow.on = true ∧ no.flag F.mnsCtlEn = false ∧ State.reset.flag F.mnsCtlEn = true) ∧
    (23 < 24 ∧ 3 < 4 ∧ 3 ≠ State.reset.reg F.mnsPortCfgSrc 23 ∧ State.reset.plx.ports = [] ∧
      tget? (lined.plx.ports.map fun e => (e.1, e.2.service)) 23 = some true) ∧
    ((phased locked).flag F.mnsCtlEn = true ∧ ((phased locked).phase 2).state = 1 ∧ (phased locked).lockLevel ≤ 4000000 * 100 ∧
      (((110000000 : Int)) - ((phased locked).phase 2).crossing - ((phased locked).phase 2).period).natAbs ≤ (phased locked).jumpLimit 20000000 ∧
      ((phased locked).phase 2).outside < 3 ∧ ((phased locked).phase 2).rejected < 7 ∧
      7 ≤ ((phased { locked with rejected := 7 }).phase 2).rejected) ∧
    (let far : Nat := 90000000 + 20000000 + 5 * us + (phased locked).jumpLimit 20000000
     let p := { locked with accepted := true, dev := none }
     let q := { locked with accepted := false, dev := some ((far : Int) - 110000000) }
     ((phased p).phase 2).period = 20000000 ∧ (phased locked).jumpLimit 20000000 < ((far : Int) - 110000000).natAbs ∧
       ((phased p).phase 2).accepted = true ∧ ((phased q).phase 2).accepted = false ∧ ((phased q).phase 2).outside < 3 ∧
       ((phased q).phase 2).dev = some ((far : Int) - 110000000) ∧ 7 ≤ ((phased { p with rejected := 7 }).phase 2).rejected) ∧
    ((phased { locked with low := 1 }).phase 2).state = 1 ∧ 1 ≤ ((phased { locked with low := 1 }).phase 2).low ∧
      2 * 0 * 100 < (phased locked).lockLevel ∧
    ((phased locked).lockedRef 2 = none ∧ ((phased locked).setPhase 0 { Phase.reset with state := 1 }).lockedRef 2 = some 0) ∧
    (((phased nearlyLocked).phase 2).state ≠ 1 ∧ 7 ≤ ((phased nearlyLocked).phase 2).high ∧
      lockRun (lastN 9 (((phased nearlyLocked).phase 2).run ++ [160000000])) = some (List.replicate 8 20000000)) := by decide

/-- No port is set in a table that has none. -/
theorem witness_MainsTrackerFollowsCrossings_ports :
    (∀ p, tget? State.reset.plx.ports 23 = some p → p.service = false) ∧
      ∃ p, tget? lined.plx.ports 23 = some p ∧ p.service = true := ⟨(by intro p h; cases h), ⟨_, rfl, rfl⟩⟩

theorem witness_PleatsStartAndFireTriggers :
    State.reset.pow.on = true ∧ 26 < 27 ∧ (State.reset.timer 26).due ≤ max State.reset.now 0 ∧
      max (engines []).now 0 < ((State.reset.setTimer 26 { PleatTimer.reset with next := 100000001 }).timer 26).due ∧
      (State.reset.timer 26).atAnchor = true ∧
      ({ PleatTimer.reset with fresh := false, pleat := 15, next := 200000000 } : PleatTimer).atAnchor = false := by decide

theorem witness_LinePortsRunAndStop :
    let on := State.reset.setReg F.plxCtlEn 23 0 1
    let ready := (on.setPhase (on.timerSrc 23) locked).setLp 23 { LinePort.init with conv := true }
    State.reset.pow.on = true ∧ State.reset.flag F.plxCtlEn 23 = false ∧ on.flag F.plxCtlEn 23 = true ∧ 90 ≤ 90 ∧ 89 < 90 ∧
      ready.lineReady 23 = true ∧ (ready.lp 23).service = false ∧ on.lineReady 23 = false ∧ (lined.lp 23).service = true := by decide

theorem witness_MapsRebuildAndDiscoverIsSent :
    let s := lined.setLs 23 63 { lined.ls 23 63 with rebuild := some 5, map := none }
    let cells : Tab Cell := [(0, { vals := [], avg := some 40 })]
    let able := (s.setLp 23 { s.lp 23 with cells := cells }).setNode 1 (some { node with sn := some 120 })
    let met (s : State) : State := (s.setPhase (s.timerSrc 23) locked).setTimer 23 { s.timer 23 with irregular := false }
    (s.pow.on = true ∧ s.linkOn 23 63 = true ∧ (s.ls 23 63).rebuild.isSome = true ∧ (lined.ls 23 63).rebuild = none ∧
      s.fau.holder (.lineTx 23 63) = none) ∧
    (s.included 23 (s.timer 23) = false ∧ (met s).included 23 ((met s).timer 23) = true ∧ (met s).linkOn 23 63 = true ∧
      ((met s).ls 23 63).map = none ∧ (met s).canBuild 23 63 = false) ∧
    (s.setReg F.plxMapcfgFreeze 23 0 1).flag F.plxMapcfgFreeze 23 = true ∧
    (((met able).ls 23 63).map = none ∧ (met able).canBuild 23 63 = true ∧ (met able).flag F.plxMapcfgFreeze 23 = false ∧
      ((met able).ls 23 63).offer = none ∧ (met able).included 23 ((met able).timer 23) = true ∧
      (let o := (met able).setLs 23 63 { (met able).ls 23 63 with offer := some { map := pmap, left := [1] } }
       (o.ls 23 63).offer = some { map := pmap, left := [1] } ∧ o.canBuild 23 63 = true)) ∧
    (let o := (met s).setLs 23 63 { (met s).ls 23 63 with map := some pmap }
     (o.ls 23 63).map = some pmap ∧ (o.ls 23 63).offer = none ∧ (o.linkNodes 23 63).length = 2 ∧ o.linkNodes 0 0 = [] ∧
       o.flag F.plxMapcfgFreeze 23 = false ∧ o.included 23 (o.timer 23) = true) ∧
    (lined.flag F.plxDiscEn 23 = true ∧ (lined.ls 23 63).disc = none ∧ State.reset.linkOn 0 0 = false ∧
      (let d := lined.setLs 23 63 { lined.ls 23 63 with disc := some 100000000 }
       (d.ls 23 63).disc = some 100000000 ∧ (d.lp 23).discAt = 0 ∧
         max d.now 0 < max (100000000 + clamp 10 3600 (d.reg F.plxDiscPeriodS 23) * sec) (d.lp 23).discAt)) := by decide

/-- Two candidates, the weaker of which a stronger peak takes over; and a peak weaker than both. -/
theorem test_line_places :
    let a : LineCand := { place := 0, metric := (9, 1), start := 5, mode := none, broken := false }
    let b := { a with place := 1, metric := (4, 1) }
    metricAbove a.metric b.metric = true ∧ metricWins (8, 1) b.metric = true ∧ metricWins (8, 1) a.metric = false := by decide

/-- A candidate of link slot 63 of port 23, BASIC, a frame header to port 23, and its reception. -/
def cand : LineCand := { place := 0, metric := (9, 1), start := 90000000, mode := some 1, broken := false }
def lineHead : LineHead := { len := 1, typ := 0, ackReq := true, crc32 := false, sec := false, mode := 1, dst := 0, src := 1, seq := 7 }
def onSlot (x : LineSlot) : State := lined.setLs 23 63 x
def reception : LineRx := { cand := cand, head := lineHead, map := none, delta := 0 }
def slotRx : LineSlot := { LineSlot.init with rx := some reception }

/-- A frame of one octet to node 1 that waits for its acknowledgement. -/
def lineFrame : LineFrame :=
  { job := .downlink 0, prio := 0, typ := 0, node := 1, dst := 1, ackReq := true, crc32 := false, sec := false, seq := 7, payload := [9],
    nonce := [], mode := 1, tries := 1, airtime := 0, first := 0, delayed := none, expires := none, done := false, limited := false }

/-- Energies of 8 preamble slots, each with `e` at the pattern's tone and 1 at the others. -/
def energies (e : Nat) : PreambleEnergy := [0, 2, 3, 1, 3, 0, 1, 2].map fun j => (List.range 4).map fun i => if i = j then e else 1

/-- Weights of BASIC slots that are sure of the octets sent: four copies of each symbol, copy `r` of tone number `j` at j + r. -/
def softOf (l : List Byte) : List SlotSoft :=
  (symbolsOf l).flatMap fun j => (List.range 4).map fun r => (List.range 4).map fun i => if i = (j + r) % 4 then 1 else 0

theorem witness_LineReceptionRuns_peaks :
    let p : LinePeak := { before := energies 1, peak := energies 1000, after := energies 999 }
    (lined.pow.on = true ∧ lined.linkOn 23 63 = true ∧
      isPeak (lined.corThresh 23) (metricOf p.before) (metricOf p.peak) (metricOf p.after) = true ∧ (lined.ls 23 63).tx = none ∧
      (lined.ls 23 63).quiet + 2 * ms ≤ max lined.now 0 ∧ 89760000 + 10240000 ≤ max lined.now 0 ∧ (lined.ls 23 63).rx = none ∧
      (lined.ls 23 63).cands = []) ∧
    (lined.place (.lineRx 23 63 0)).isSome = true ∧
    (({ lined with fau := { lined.fau with testing := true } } : State).place (.lineRx 23 63 0)).isNone = true ∧
    (lined.fau.holder (.lineRx 23 63 0) = none ∧ lined.fau.holder (.lineRx 23 63 1) = none) ∧
    (metricWins (metricOf p.peak) (1000000, 1) = false ∧
      (let a := { cand with metric := (1000000, 1) }
       let w := onSlot { LineSlot.init with cands := [a] }
       (w.ls 23 63).cands = [a] ∧ (w.place (.lineRx 23 63 (1 - a.place))).isSome = true) ∧
      (let b := { cand with place := 1 }
       (((onSlot { LineSlot.init with cands := [cand, b] }).ls 23 63).cands = [cand, b] ∧
         metricWins (metricOf p.peak) b.metric = true) ∧
       (let w := { cand with metric := (1000000, 1) }
        (metricWins (metricOf p.peak) w.metric && metricWins (metricOf p.peak) b.metric) = false ∧
          (if metricAbove w.metric b.metric then b else w) = b ∧
          metricWins (metricOf p.peak) ({ w with place := 1 } : LineCand).metric = false))) ∧
    (metricWins (metricOf p.peak) cand.metric = true ∧ ((onSlot { LineSlot.init with cands := [cand] }).ls 23 63).cands = [cand]) ∧
    ((onSlot slotRx).ls 23 63).rx.isSome = true ∧
    (lined.linkOn 22 63 = false ∧
      isPeak (lined.corThresh 23) (metricOf p.before) (metricOf p.before) (metricOf p.after) = false ∧
      max lined.now 0 < 89760001 + 10240000) := by decide

/-- The bits of a delimiter as sure soft values. -/
def bitsOf (w : Nat) : List Int := (List.range 16).map fun i => if bit w (15 - i) then 1 else -1

theorem witness_LineReceptionRuns_delimiters :
    let c : LineCand := { cand with mode := none }
    let s := onSlot { LineSlot.init with cands := [c] }
    s.candAt 23 63 0 = some c ∧ c.mode = none ∧ (bitsOf (delimiter 1)).length = 16 ∧ c.start + 20480000 ≤ max s.now 110480000 ∧
      hardErrors (bitsOf (delimiter 1)) (delimiter 1) ≤ 3 ∧ c.broken = false ∧ 3 < hardErrors (bitsOf 0) (delimiter 1) := by decide

set_option maxRecDepth 40000 in
theorem witness_LineReceptionRuns_checks :
    let h := onSlot { LineSlot.init with cands := [cand] }
    let v := (h.tick 294800000).takeOuts 23 []
    let w := whiten (headOctets (h.reg F.plxCfgFold 23) lineHead)
    (h.candAt 23 63 0 = some cand ∧ v.headDue 23 63 cand = true ∧ h.fau.holder (.lineRx 23 63 0) = none ∧
      v.headOfCand 23 63 cand [softOf (zeros 9)] = none ∧ (h.ls 23 63).await = none) ∧
    (v.headOfCand 23 63 cand [softOf w] = some reception ∧ lineHead.len ≠ 0 ∧ lineHead.ackReq = true ∧ lineHead.dst = 0 ∧
      lineHead.typ ≠ 1) := by decide

set_option maxRecDepth 40000 in
theorem witness_LineReceptionRuns_rival :
    let d : LineCand := { cand with place := 1, metric := (4, 1) }
    let h := onSlot { LineSlot.init with cands := [cand, d] }
    let v := (h.tick 294800000).takeOuts 23 []
    let w := whiten (headOctets (h.reg F.plxCfgFold 23) lineHead)
    d ≠ cand ∧ (h.ls 23 63).cands = [cand, d] ∧ v.headDue 23 63 d = true ∧ (h.ls 23 63).await = none ∧
      (v.headOfCand 23 63 cand [softOf w]).isSome = true ∧ v.headOfCand 23 63 d [softOf (zeros 9)] = none ∧
      metricAbove d.metric cand.metric = false ∧ metricAbove cand.metric d.metric = true := by decide

set_option maxRecDepth 40000 in
theorem witness_LineReceptionRuns_ack :
    let c : LineCand := { cand with start := 92360000 }
    let s := onSlot { LineSlot.init with cands := [c], queue := [lineFrame], await := some 90000000 }
    let h := ackHead (lineFrame.head lineFrame.mode)
    let v := (s.tick 297160000).takeOuts 23 []
    let r : LineRx := { reception with cand := c, head := h }
    s.candAt 23 63 0 = some c ∧ v.headDue 23 63 c = true ∧
      v.headOfCand 23 63 c [softOf (whiten (headOctets (s.reg F.plxCfgFold 23) h))] = some r ∧ r.head.len = 0 ∧
      s.isOurAck 23 63 c r.head = true ∧ (s.ls 23 63).queue = [lineFrame] ∧ lineFrame.job = .downlink 0 ∧ lineFrame.done = false ∧
      lineFrame.tries ≠ 0 ∧ s.pairActive = true := by decide

set_option maxRecDepth 40000 in
theorem witness_LineReceptionRuns_payload :
    let s := onSlot slotRx
    let e := s.rxEnd 23 cand.start lineHead none 0
    let v := (s.tick e).takeOuts 23 []
    let raw := (whiten (zeros 9 ++ ([9] ++ payloadCheck lineHead [9]))).drop 9
    (s.ls 23 63).rx = some reception ∧ e ≤ max s.now e ∧ max s.now (e - 1) < e ∧ v.payloadOfRx 23 63 reception [] = none ∧
      v.payloadOfRx 23 63 reception (softOf raw) = some [9] ∧ lineHead.len ≠ 0 ∧ lineHead.len ≤ 256 ∧ lineHead.typ = 0 ∧ lineHead.dst = 0 ∧
      lineHead.sec = false ∧ s.node? lineHead.src = some node ∧ node.state = 1 ∧ node.ext ≠ 0 ∧ tget? s.stw.sess 0 = some sess ∧
      bit sess.kinds 0 = true ∧ 328 ≤ sess.maxmsg ∧ areaUsed s.stw.area + 312 ≤ 2147483648 := by decide

/-- A reception of a payload `p` from a node, with what the statement asks of each kind of frame. -/
def hears (src typ : Nat) (sec : Bool) (p : List Byte) : LineRx :=
  { reception with head := { lineHead with len := p.length, typ := typ, sec := sec, src := src } }
def hearing (s : State) (r : LineRx) : State := s.setLs 23 63 { LineSlot.init with rx := some r }
def heardOf (s : State) (r : LineRx) (p : List Byte) : Option (List Byte) :=
  ((s.tick (s.rxEnd 23 cand.start r.head none 0)).takeOuts 23 []).payloadOfRx 23 63 r
    (softOf ((whiten (zeros 9 ++ (p ++ payloadCheck r.head p))).drop 9))

set_option maxRecDepth 80000 in
theorem witness_LineReceptionRuns_control :
    let join := be 1 2 ++ zeros 1 ++ be 8 77 ++ zeros 2
    let report := be 1 6 ++ zeros 1 ++ be 1 15 ++ zeros 1
    let r := hears 0xFFFE 2 false join
    let s := hearing lined r
    (heardOf s r join = some join ∧ s.node? 0xFFFE = none ∧ joinFields join = some (77, 0) ∧ s.flag F.plxDiscJoin 23 = true ∧
      (s.setReg F.plxDiscJoin 23 0 0).flag F.plxDiscJoin 23 = false ∧ s.nodeByExt 77 = none ∧ s.plx.nodes.length < 8192 ∧
      (s.regs.com .plxCommit 23).pend = false ∧ s.fau.holder (.lineRx 23 63 0) = none) ∧
    (octet report 0 = 6 ∧ octet (report.drop 2) 0 % 16 = 15 ∧ lined.node? 1 = some node ∧ node.state = 1 ∧ (1 : Nat) ≠ 0xFFFE) := by decide

set_option maxRecDepth 80000 in
theorem witness_LineReceptionRuns_report :
    let s := (lined.setReg F.plxLsRegionLo 23 63 0).setReg F.plxLsRegionHi 23 63 7
    let p := be 1 6 ++ zeros 1 ++ be 1 1 ++ zeros 11
    let r := hears 1 2 false p
    heardOf (hearing s r) r p = some p ∧ (hearing s r).node? 1 = some node ∧ octet (p.drop 2) 0 % 16 = 1 ∧
      s.reg F.plxLsRegionHi 23 63 / 8 + 1 - s.reg F.plxLsRegionLo 23 63 / 8 = 1 ∧ (p.drop 2).length = 4 + 8 * cdiv 1 1 := by decide

set_option maxRecDepth 80000 in
theorem witness_LineReceptionRuns_secured :
    let p := zeros 12
    let r := hears 1 0 true p
    let s := hearing lined r
    heardOf s r p = some p ∧ r.head.sec = true ∧ s.node? 1 = some node ∧
      s.openJob false (be 2 0 ++ be 2 1 ++ be 2 7) p (some 78) 1 (.record 6
        { kind := 1, port := 23, chan := 63, flags := 24, short := 1, seq := 7, ext := 78, epoch := 1, ns := 0, margin := 0, hops := 0,
          head := [] }) = none ∧ tget? s.stw.sess 0 = some sess ∧
      (let o : KeyRec := { lineKey with handle := 0x00010000, usage := 6, bind := 1 }
       let w : State := { s with cip := { s.cip with cache := [(0, o)] } }
       (w.openJob false (be 2 0 ++ be 2 1 ++ be 2 7) (be 1 5 ++ zeros 15) (some 78) 1 (.command 6 1)).isSome = true) := by decide

set_option maxRecDepth 80000 in
theorem witness_LineReceptionRuns_relay :
    let hop := { node with flags := 1 }
    let w : State := { lined with plx := { lined.plx with nodes := [(1, hop), (5, { node with ext := 79 })] } }
    let p := be 1 16 ++ zeros 1 ++ be 2 5 ++ be 2 0 ++ be 2 3 ++ be 2 1 ++ be 1 9
    let q := be 1 0 ++ zeros 8
    let r := hears 1 3 false p
    let s := hearing w r
    heardOf s r p = some p ∧ s.relayBad 1 p (relayHead p) = false ∧ (relayHead p).origin = 5 ∧ s.node? 1 = some hop ∧
      s.node? 5 = some { node with ext := 79 } ∧ (relayHead p).sec = false ∧ s.relayBad 1 q (relayHead q) = true ∧
      heardOf s (hears 1 3 false q) q = some q := by decide

/-- A transmission of the device on the slot, and an acknowledgement armed or being sent. -/
def lineTx : LineTx := { start := 0, mode := 1, map := none, octets := zeros 12, amp := 8191, slots := [], limited := false }
def lineAck (begun : Bool) (ok : Option Bool) : LineAck :=
  { head := lineHead, start := 0, map := none, delta := 0, begun := begun, ok := ok }

theorem witness_LineAcknowledgesAndRetries_ack :
    let armed := onSlot { LineSlot.init with ack := some (lineAck false none) }
    let sent (ok : Option Bool) : State := onSlot { LineSlot.init with ack := some (lineAck true ok), tx := some lineTx }
    let e := armed.rxEnd 23 0 lineHead none 0
    ((armed.ls 23 63).ack = some (lineAck false none) ∧ e + 2560000 ≤ max armed.now (e + 2560000) ∧ (armed.ls 23 63).tx = none) ∧
    (max armed.now (e + 2559999) < e + 2560000) ∧
    (((sent none).ls 23 63).ack = some (lineAck true none) ∧ ((sent none).ls 23 63).tx = some lineTx ∧
      lineTx.start + 10240000 ≤ max (sent none).now 0 ∧ (lineAck true none).ok ≠ some true) ∧
    (((sent (some true)).ls 23 63).ack = some (lineAck true (some true)) ∧
      lineTx.start + 204800000 ≤ max (sent (some true)).now 204800000) := by decide

theorem witness_LineAcknowledgesAndRetries_try :
    let q : LineSlot := { LineSlot.init with queue := [{ lineFrame with tries := 0 }], draw := some 0 }
    let a := onSlot { LineSlot.init with queue := [lineFrame], await := some 84000000 }
    let a4 := onSlot { LineSlot.init with queue := [{ lineFrame with tries := 4 }], await := some 84000000 }
    let x := onSlot { LineSlot.init with queue := [lineFrame], tx := some lineTx }
    let d := onSlot { LineSlot.init with queue := [{ lineFrame with delayed := some 100000001 }] }
    let e := x.txEnd 23 lineTx
    (((onSlot q).ls 23 63).queue = [{ lineFrame with tries := 0 }] ∧ (((onSlot q).tick 100000000).mayStart 23 63 { lineFrame with tries := 0 }).isSome = true) ∧
    (((onSlot { q with hot := true }).tick 0).mayStart 23 63 { lineFrame with tries := 0 } = none) ∧
    ((onSlot q).linkOn 23 63 = true ∧ ((onSlot q).ls 23 63).draw = some 0 ∧
      (onSlot q).senseRef 23 63 + (onSlot q).reg F.plxAccSense 23 < 0) ∧
    (((onSlot q).ls 23 63).cands = [] ∧ ((onSlot q).ls 23 63).rx = none ∧ ((onSlot q).ls 23 63).tx = none ∧
      ((onSlot q).ls 23 63).reserved ≤ max (onSlot q).now 0) ∧
    ((x.ls 23 63).tx = some lineTx ∧ (x.ls 23 63).ack = none ∧ e ≤ max x.now e ∧ max x.now (e - 1) < e ∧ lineFrame.ackReq = true ∧
      lineFrame.done = false ∧ lineFrame.job = .downlink 0 ∧ ({ lineFrame with ackReq := false } : LineFrame).ackReq = false ∧
      x.pairActive = true) ∧
    ((a.ls 23 63).await = some 84000000 ∧ (a.ls 23 63).cands = [] ∧ (a.ls 23 63).rx = none ∧ (a.ls 23 63).queue = [lineFrame] ∧
      84000000 + 16 * ms ≤ max a.now 0 ∧ lineFrame.tries < a.lineTries 23 ∧ a4.lineTries 23 ≤ 4 ∧ (a4.ls 23 63).await = some 84000000 ∧
      a4.pairActive = true ∧ max a.now 0 < 84000001 + 16 * ms) ∧
    ((d.ls 23 63).queue = [{ lineFrame with delayed := some 100000001 }] ∧ 100000001 ≤ max d.now 100000001 ∧ max d.now 0 < 100000001) := by decide

theorem witness_LineLimitsAndLosses :
    let sends (k : Nat) : State := (onSlot { LineSlot.init with tx := some lineTx }).setLp 23
      { (onSlot { LineSlot.init with tx := some lineTx }).lp 23 with stepped := some 99000000, scale := k }
    let clean (k : Nat) : State := lined.setLp 23 { lined.lp 23 with scale := 1, clean := k }
    ((sends 3).flag F.plxTxlimEn 23 = true ∧ (sends 3).portSends 23 = true ∧ 99000000 + ms ≤ max (sends 3).now 0 ∧
      ((sends 3).lp 23).scale < (sends 3).txFloor 23 ∧ ((sends 0).lp 23).scale = 0 ∧ lined.portSends 23 = false) ∧
    (0 < ((clean (10 * sec)).lp 23).scale ∧ clamp 1 3600 (lined.reg F.plxTxlimHoldS 23) * sec ≤ ((clean (10 * sec)).tick 0).cleanTime 23 ∧
      ((clean (10 * sec - 1)).tick 0).cleanTime 23 < clamp 1 3600 (lined.reg F.plxTxlimHoldS 23) * sec) ∧
    (lined.node? 1 = some node ∧ 0 < (lined.lp node.port).serviceAt ∧ node.state = 1 ∧
      node.since + max 60 (lined.reg F.plxNodeLostS node.port) * sec ≤ max lined.now (3600 * sec) ∧
      max lined.now (3600 * sec - 1) < node.since + max 60 (lined.reg F.plxNodeLostS node.port) * sec ∧
      ({ node with state := 3 } : Node).state = 3 ∧ node.since + 600 * sec ≤ max lined.now (600 * sec) ∧
      max lined.now (600 * sec - 1) < node.since + 600 * sec) := by decide

theorem witness_LineLimitsAndLosses_stepped :
    ∀ u, (some 99000000 : Option Nat) = some u → u + ms ≤ max State.reset.now 0 := by
  intro u h; cases h; decide

/-! ## Witnesses: air ports -/

def bring (cgs ilas sent : Bool) : Bring := { start := 99000000, cgs := cgs, ilas := ilas, sent := sent, own := 99999999 }
def ilas : Ilas := { did := 1, bid := 2, lid := 0, params := [1, 2, 4, 1, 16, 16, 32, 0, 0, 0], scr := true, jesdv := 1, subclassv := 1, fchk := true }
def aport (p : AirPort) : State := (State.reset.setReg F.airCtlEn 15 0 1).setAp 15 p

theorem witness_AirLinksComeUpAndGo :
    let down := aport AirPort.init
    let tries (a : Bring) : State := aport { AirPort.init with attempt := some a, rxsync := some 99900000 }
    let served := aport { AirPort.init with up := true }
    (State.reset.flag F.airCtlEn 15 = false ∧ down.flag F.airCtlEn 15 = true ∧ (down.ap 15).up = false ∧ (down.ap 15).attempt = none ∧
      (down.ap 15).next ≤ max down.now 0 ∧ (served.ap 15).up = true ∧ ((tries (bring true true true)).ap 15).attempt.isSome = true ∧
      max (aport { AirPort.init with next := 100000001 }).now 0 < 100000001) ∧
    (((tries (bring false false false)).ap 15).attempt = some (bring false false false) ∧ max down.now 0 ≤ (bring false false false).start + ms ∧
      (bring true false false).cgs = true ∧
      (((tries (bring true false false)).ap 15).rxsync = some 99900000 ∧ 99900000 ≤ max down.now 0) ∧ max down.now 101000000 ≤ (bring true false false).start + 2 * ms ∧
      ((bring false false false).start + ms ≤ max down.now 0 ∧ (bring false false false).cgs = false) ∧
      ((bring true false false).start + 2 * ms ≤ max down.now 101000000 ∧ (bring true false false).sent = false) ∧
      max down.now 0 < ({ bring false false false with start := 99000001 } : Bring).start + ms ∧
      (bring true true true).ilas = true ∧ (bring true true true).sent = true ∧
      (bring true true true).own + 4 * lmfcNs (down.jesdRate 15) ≤ max down.now 107800000 ∧
      max down.now 0 < (bring true true true).own + 4 * lmfcNs (down.jesdRate 15)) ∧
    ((tries (bring true false false)).flag F.airJesdScr 15 = true → (tries (bring true false false)).ilasOk 15 [ilas, ilas, ilas, ilas] = true) ∧
    (tries (bring true false false)).ilasOk 15 [ilas] = false ∧ capturesOf 1 23 { capture with source := 1, port := 23 } = true := by decide

/-- A DATA frame of sensor 1 that asks for an acknowledgement, its PHR, and the same not acknowledged. -/
def dataMac (ack : Nat) : List Byte := be 1 (0x41 + ack) ++ be 1 0x88 ++ be 1 7 ++ be 2 0xFFFF ++ be 2 0 ++ le 2 1 ++ be 1 9
def phr2 (mac : List Byte) : Nat := phrOf false false (mac.length + 2)
def assocMac : List Byte := be 1 0x43 ++ be 1 0xC8 ++ be 1 7 ++ be 2 0xFFFF ++ be 2 0 ++ le 8 99 ++ (be 1 1 ++ be 1 1 ++ le 2 500 ++ be 1 20)
def otherMac : List Byte := be 1 0x41 ++ be 1 0x80 ++ be 1 7 ++ le 2 1
def acand : AirCand := { place := 1, metric := (9, 1), ts := 90000000, broken := false }
def onChan (x : AirChan) : State := aired.setAc 15 63 x
def receiving (phr : Nat) : State := onChan { AirChan.init with rx := some { cand := acand, phr := phr } }

/-- Log-likelihood ratios that are sure of the octets sent. -/
def llrs (l : List Byte) : List Int := l.flatMap fun b => (bitsLow b).map fun x => if x then 1 else -1

theorem witness_AirReceptionRuns_peaks :
    let c := airPattern (aired.reg F.airChCfgMod 15 63) (aired.reg F.airChCfgSfd 15 63)
    let peak : AirPeak := { outs := [], before := 1 :: List.replicate 23 0, peak := 1 :: ((airPattern 0 0).drop 1).map (3 * ·), after := 1 :: List.replicate 23 0 }
    (aired.pow.on = true ∧ aired.chanOn 15 63 = true ∧ peak.peak.length = c.length ∧
      isPeak (aired.airThresh 15) (airMetric c peak.before) (airMetric c peak.peak) (airMetric c peak.after) = true ∧
      (aired.tick 0).airDeaf 15 63 = false ∧ (aired.ac 15 63).rx = none ∧ (aired.ac 15 63).cands = [] ∧
      (aired.place (.airRx 15 63 0)).isSome = true ∧ aired.fau.holder (.airRx 15 63 0) = none) ∧
    (let m := airMetric c peak.peak
     let strong := { acand with metric := (1000000, 1) }
     let two := onChan { AirChan.init with cands := [strong, { strong with place := 0 }] }
     metricWins m { acand with metric := (0, 1) }.metric = true ∧ metricWins m strong.metric = false ∧
       ((onChan { AirChan.init with cands := [strong] }).ac 15 63).cands = [strong] ∧ two.fau.holder (.airRx 15 63 1) = none ∧
       (two.ac 15 63).cands = [strong, { strong with place := 0 }] ∧
       ((onChan { AirChan.init with cands := [strong] }).place (.airRx 15 63 (1 - strong.place))).isSome = true) ∧
    (({ aired with fau := { aired.fau with engines := [] } } : State).place (.airRx 15 63 0)).isNone = true ∧
    ((receiving 0).ac 15 63).rx.isSome = true ∧ aired.chanOn 14 63 = false ∧ ([] : List Int).length ≠ c.length ∧
    (let s := onChan { AirChan.init with cands := [acand] }
     (s.ac 15 63).cands.find? (fun c => decide (c.place = 1)) = some acand ∧ s.fau.holder (.airRx 15 63 1) = none ∧
       (s.tick 0).phrDue 15 63 acand = true ∧ (s.tick 0).phrDue 15 63 { acand with ts := 100000000 } = false ∧
       s.phrOk 15 63 5 = true ∧ acand.broken = false ∧ s.phrOk 15 63 4 = false) := by decide

/-- Two candidates whose PHR checks fall due on one output. -/
theorem witness_AirReceptionRuns_rival :
    let d := { acand with place := 0, metric := (4, 1) }
    let s := onChan { AirChan.init with cands := [acand, d] }
    (s.ac 15 63).cands.find? (fun c => decide (c.place = 1)) = some acand ∧ d ≠ acand ∧ (s.ac 15 63).cands = [acand, d] ∧
      ({ phr := 5, rival := some 4 } : AirHead).rival = some 4 ∧ (s.tick 0).phrDue 15 63 acand = true ∧
      (s.tick 0).phrDue 15 63 d = true ∧ (s.phrOk 15 63 5 && !acand.broken) = true ∧ (s.phrOk 15 63 4 && !d.broken) = false ∧
      metricAbove d.metric acand.metric = false ∧ metricAbove acand.metric d.metric = true := by decide

/-- A secured DATA frame of sensor 1, and its DISASSOC. -/
def secMac : List Byte := be 1 0x49 ++ be 1 0x88 ++ be 1 7 ++ be 2 0xFFFF ++ be 2 0 ++ le 2 1 ++ (be 1 5 ++ zeros 15)
def leaveMac (sec : Bool) : List Byte :=
  be 1 (if sec then 0x4B else 0x43) ++ be 1 0x88 ++ be 1 7 ++ be 2 0xFFFF ++ be 2 0 ++ le 2 1 ++
    (if sec then be 1 5 ++ zeros 15 else be 1 3 ++ zeros 1)

set_option maxRecDepth 20000 in
theorem witness_AirReceptionRuns_secured :
    let key : KeyRec := { airKey with handle := 0x00010000, usage := 10, bind := 1 }
    let s := aired
    let w : State := { s with cip := { s.cip with cache := [(0, key)] } }
    let q (f : MacFrame) : RecvRec := s.airRecord 2 15 63 1 0 0 f
    (macFrame secMac).any (fun f => s.macMatch f && decide (f.typ = 1) && f.sec) = true ∧ ascending s.air.sensors = true ∧
      ((macFrame secMac).any fun f => (s.openJob true f.a0 f.rest (s.senderExt f) (s.senderShort f) (.record f.a0.length (q f))).isNone) = true ∧
      ((macFrame secMac).any fun f => (w.openJob true f.a0 f.rest (s.senderExt f) (s.senderShort f) (.record f.a0.length (q f))).isSome) = true ∧
      ((macFrame (leaveMac true)).any fun f => s.macMatch f && decide (f.typ = 3) && f.sec &&
        (s.senderEntry f).any fun e => (w.openJob true f.a0 f.rest (s.senderExt f) (s.senderShort f) (.command f.a0.length e.1)).isSome) = true ∧
      ((macFrame (leaveMac false)).any fun f => s.macMatch f && decide (f.typ = 3) && !f.sec && decide (f.rest.length = 2) &&
        decide (octet f.rest 0 = 3) && (s.senderEntry f).isSome) = true ∧
      ({ cand := acand, phr := phr2 secMac } : AirRx).mac (llrs (psduOf false false secMac)) = some secMac := by decide

set_option maxRecDepth 20000 in
theorem witness_AirReceptionRuns_frames :
    let r : AirRx := { cand := acand, phr := phr2 (dataMac 0x20) }
    let s := receiving r.phr
    let fin := s.airOutAt 15 63 (s.airEnd 15 63 r.phr r.cand.ts)
    (aired.ac 15 63).rx = none ∧ (s.ac 15 63).rx = some r ∧ fin ≤ max s.now fin ∧
      max s.now 0 < s.airOutAt 15 63 (s.airEnd 15 63 r.phr 100000000) ∧ s.fau.holder (.airRx 15 63 1) = none ∧
      r.mac [] = none ∧ r.mac (llrs (psduOf false false (dataMac 0x20))) = some (dataMac 0x20) ∧
      ({ r with phr := phr2 (zeros 3) } : AirRx).mac (llrs (psduOf false false (zeros 3))) = some (zeros 3) ∧ macType (zeros 3) = 0 ∧
      ({ r with phr := phr2 otherMac } : AirRx).mac (llrs (psduOf false false otherMac)) = some otherMac ∧ macType otherMac ≠ 0 ∧
      macType otherMac ≠ 2 ∧ (macFrame otherMac).any (fun f => !s.macMatch f) = true ∧
      (macFrame (dataMac 0x20)).any (fun f => s.macMatch f && f.ackReq && !f.broadcast && decide (f.typ = 1) && !f.sec) = true ∧
      ascending s.air.sensors = true ∧ tget? s.stw.sess 0 = some sess ∧ bit sess.kinds 1 = true ∧ 55 + (dataMac 0x20).length ≤ sess.maxmsg ∧
      areaUsed s.stw.area + 39 + (dataMac 0x20).length ≤ 2147483648 := by decide

set_option maxRecDepth 20000 in
theorem witness_AirReceptionRuns_assoc :
    let r : AirRx := { cand := acand, phr := phr2 assocMac }
    let s := (receiving r.phr).setReg F.airMacCtlAssocOpen 0 0 1
    r.mac (llrs (psduOf false false assocMac)) = some assocMac ∧ s.flag F.airMacCtlAssocOpen = true ∧ s.air.sensors.length < 65533 ∧
      (macFrame assocMac).any (fun f => s.macMatch f && decide (f.assocReq = some (true, 500, 20)) && decide (s.sensorByExt f.src = none)) =
        true := by decide

def airAck (go : Bool) : AirAck := { fin := 99680000, mac := zeros 4, fcs4 := false, dw := false, opens := none, go := go, short := none }

theorem witness_AirReceptionRuns_ack :
    let s (go : Bool) : State := onChan { AirChan.init with ack := some (airAck go) }
    let entry (x : Sensor) : State := { aired with air := { aired.air with sensors := [(1, x)] } }
    (((s true).ac 15 63).ack = some (airAck true) ∧ (airAck true).fin + 320000 ≤ max (s true).now 0 ∧ (airAck true).go = true ∧
      (s true).airServes 15 = true ∧ (s true).chanSends 15 63 = false ∧ ((s true).ap 15).sends.length < (s true).reg F.airTxMaxtx 15) ∧
    ((airAck false).go = false ∧ max (s true).now 0 < ({ airAck true with fin := 99680001 } : AirAck).fin + 320000) ∧
    ((entry { sensor with state := 2 }).sensor? 1 = some { sensor with state := 2 } ∧ sensor.since + 600 * sec ≤ max aired.now (600 * sec) ∧
      (aired.ap sensor.port).served = true ∧ max aired.now (600 * sec - 1) < sensor.since + 600 * sec ∧ sensor.state ≠ 2 ∧
      (State.reset.ap 15).served = false) ∧
    ((aired.air.secs + 1) * sec ≤ max aired.now sec ∧ max aired.now (sec - 1) < (aired.air.secs + 1) * sec) := by decide

/-- A downlink of the device to sensor 1, and what it waits for. -/
def plan : AirPlan :=
  { way := 0, start := 100000000, pre := 8, left := 0, checked := true, writing := false, listen := none, heard := true, backoff := none }
def airDown (st : AirStage) : AirDown :=
  { id := 0, job := .host 0, short := 1, ext := 77, port := 15, chan := 63, copy := none, method := 0, ackReq := true, mac := dataMac 0,
    seq := 7, tries := 0, airtime := 0, first := 0, lastEnd := 0, nonce := [], expires := none, pend := false, done := false, stage := st }
def downs (l : List AirDown) : State := { aired with air := { aired.air with downs := l, nextId := 1 } }
def airSend (w : AirWhat) : AirSend :=
  { chan := 63, what := w, start := 0, fin := 100000000, pre := 8, psdu := [], lane := 0, khz := 920000, amp := 8191, bt := 0, rate := 50000, offsets := [] }
def sending (w : AirWhat) (l : List AirDown) : State := (downs l).setAp 15 { (downs l).ap 15 with sends := [airSend w] }

theorem witness_AirTransmissionsRun_beacons :
    let s := (aired.setAp 15 { aired.ap 15 with bcnAt := some 100000000 }).setReg F.airBcnEn 15 0 1
    let m := s.reg F.airBcnChannel 15
    let e := (s.setReg F.airChCfgEn 15 m 1).setReg F.airDutyCfgEn (s.acctOf 15 m) 0 0
    ((s.ap 15).bcnAt = some 100000000 ∧ s.airServes 15 = true ∧ s.flag F.airBcnEn 15 = true ∧ 100000000 ≤ max s.now 0 ∧
      (∀ d ∈ s.air.downs, d.job ≠ .beacon ∧ d.id < s.air.nextId) ∧ s.flag F.airChCfgEn 15 m = false) ∧
    (100000000 + 10 * ms < max s.now 110000001 ∧ max s.now 110000000 ≤ 100000000 + 10 * ms) ∧
    (e.flag F.airChCfgEn 15 m = true ∧ e.listenNs 15 m = none ∧ e.flag F.airDutyCfgEn (e.acctOf 15 m) = false ∧
      (∀ d ∈ e.air.downs, d.port = 15 → d.holds = none) ∧ (e.ap 15).sends.length + (e.tick 0).acksDue 15 < e.reg F.airTxMaxtx 15 ∧
      e.chanFree 15 m = true) ∧
    (aired.ap 15).bcnAt = none ∧ aired.airServes 14 = false ∧ (aired.setReg F.airBcnEn 15 0 0).flag F.airBcnEn 15 = false := by decide

theorem witness_AirTransmissionsRun_starts :
    let d := airDown (.planned plan)
    let s := downs [d]
    (∀ e ∈ s.air.downs, e.job ≠ .beacon ∨ max s.now 0 ≤ e.first + 10 * ms) ∧ s.airServes 15 = true ∧
      (s.tick 0).nextSend 15 = some (d, plan) ∧ s.flag F.airChCfgEn 15 d.chan = true ∧ d.expires = none ∧
      (s.tick 0).slotFree 15 d = true ∧ (∀ e ∈ s.air.downs, ∀ p, (s.tick 0).readyDown 15 e = some p → (s.tick 0).heardStale e p = false) ∧ s.chanFree 15 d.chan = true ∧ plan.checked = true ∧
      ¬(plan.way = 2 ∧ d.lastEnd ≠ 0 ∧ plan.writing = true) ∧ s.airServes 14 = false ∧ (aired.tick 0).nextSend 15 = none := by decide

theorem witness_AirTransmissionsRun_ends :
    let s := sending (.frame 0) [airDown (.sending plan)]
    let b := sending (.frame 0) [{ airDown (.sending plan) with job := .beacon }]
    let a := sending (.ack (some 77)) []
    (s.ap 15).sends.find? (fun x => decide (x.chan = 63)) = some (airSend (.frame 0)) ∧ (airSend (.frame 0)).fin ≤ max s.now 0 ∧
      (a.ap 15).sends.find? (fun x => decide (x.chan = 63)) = some (airSend (.ack (some 77))) ∧
      s.down? 0 = some (airDown (.sending plan)) ∧ (airDown (.sending plan)).job ≠ .beacon ∧ plan.way ≠ 2 ∧
      b.down? 0 = some { airDown (.sending plan) with job := .beacon } ∧
      max s.now 0 < ({ airSend (.frame 0) with fin := 100000001 } : AirSend).fin := by decide

theorem witness_AirTransmissionsRun_window :
    let d := { airDown .await with lastEnd := 90000000, tries := 1 }
    let l := { airDown .await with lastEnd := 90000000, tries := 8 }
    let s := downs [d]
    s.down? 0 = some d ∧ s.airWindowEnd d ≤ max s.now 0 ∧ (s.ac d.port d.chan).cands = [] ∧ (s.ac d.port d.chan).rx = none ∧
      d.ackReq = true ∧ d.done = false ∧ d.tries < s.airTries ∧ (downs [l]).airTries ≤ l.tries ∧ (downs [l]).down? 0 = some l ∧
      ((s.tick 0).planFor { d with lastEnd := 0 }).any (fun p => decide (p.way ≠ 4)) = true ∧
      max s.now 0 < s.airWindowEnd { d with lastEnd := 100000000 } := by decide

theorem witness_AirTransmissionsRun_plans :
    let timed : AirPlan := { plan with way := 3, checked := false, start := 112000000 }
    let quiet : AirPlan := { plan with heard := false, listen := some 99000000 }
    let back : AirPlan := { quiet with backoff := some 100000001 }
    let on : State := (downs [airDown (.planned timed)]).setReg F.airDutyCfgEn ((downs []).acctOf 15 63) 0 1
    let full : State := { on with air := { on.air with duty := (List.range 16).map fun a => (a, { bins := [(0, 100000000000)], pos := 0, unsaved := 0 }) } }
    let out : State := (downs [airDown (.planned timed)]).setReg F.airDutyCfgEn ((downs []).acctOf 15 63) 0 0
    let w : State := ((downs []).tick 0).takeAir 15 63 []
    (out.down? 0 = some (airDown (.planned timed)) ∧ timed.way = 3 ∧ timed.checked = false ∧
      timed.listen.getD timed.start ≤ max out.now 0 + 12 * ms ∧ out.flag F.airDutyCfgEn (out.acctOf 15 63) = false) ∧
    (full.flag F.airDutyCfgEn (full.acctOf 15 63) = true ∧ full.dutyAllowed (full.acctOf 15 63) < full.spent (full.acctOf 15 63) ∧
      full.pairActive = true) ∧
    (plan.way ≠ 3 ∧ max out.now 0 + 12 * ms < ({ timed with start := 112000001 } : AirPlan).listen.getD 112000001) ∧
    (quiet.heard = false ∧ quiet.backoff = none ∧ quiet.start ≤ max out.now 0 ∧
      w.listenBusy 15 63 (quiet.listen.getD quiet.start) = false ∧
      (w.setAc 15 63 { w.ac 15 63 with held := 99000001 }).listenBusy 15 63 (quiet.listen.getD quiet.start) = true ∧
      (airDown .await).job ≠ .beacon ∧ quiet.way < 3 ∧ plan.heard = true ∧ max out.now 0 < 100000001) ∧
    (back.backoff = some 100000001 ∧ 100000001 ≤ max out.now 100000001 ∧ max out.now 0 < 100000001) := by decide

/-- A sensor whose wakes are known, every second from 90 ms on, finds a later wake for a phase-targeted try. -/
theorem witness_AirTransmissionsRun_phase :
    let x : Sensor := { sensor with sleepy := true, valid := true, wakeMs := 1000, phaseEpoch := 1, phaseNs := 90000000, clk := 20 }
    let d := airDown (.planned { plan with way := 3, heard := false, listen := some 99000000 })
    let s : State := { downs [d] with air := { (downs [d]).air with sensors := [(1, x)] } }
    s.entryOf d = some x ∧ (((s.tick 0).takeAir 15 63 []).phasePlan d x).isSome = true := by decide

def airWindow : AirWindow := { ext := 77, short := 1, port := 15, chan := 63, start := 90000000, fin := 100000000, used := false }

theorem witness_AirTransmissionsRun_pending :
    let p : AirPlan := { plan with way := 4 }
    let d := airDown (.planned p)
    let s := downs [d]
    let w : State := { aired with air := { aired.air with windows := [airWindow] } }
    (d ∈ s.air.downs ∧ d.ext = 77 ∧ d.stage = .planned p ∧ p.way = 4 ∧ p.start ≤ max s.now 0 ∧ p.heard = true ∧
      s.airServes d.port = true ∧ p.writing = false ∧ d.expires = none ∧ max s.now 0 < 100000001 ∧ s.chanFree d.port d.chan = true ∧ (s.tick 0).slotFree d.port d = true) ∧
    (w.air.windows.find? (fun w => decide (w.ext = 77)) = some airWindow ∧ airWindow.fin ≤ max w.now 0 ∧
      max w.now 0 < ({ airWindow with fin := 100000001 } : AirWindow).fin) := by decide

theorem witness_AirTransmissionsRun_pending_alone :
    let d := airDown (.planned { plan with way := 4 })
    (∀ e q, e ∈ (downs [d]).air.downs → e.ext = 77 ∧ e.stage = .planned q ∧ q.way = 4 ∧ q.start ≤ 100000000 ∧ q.heard = true → e = d) ∧
      ∀ e (q : AirPlan), e ∈ aired.air.downs → ¬(e.ext = 77 ∧ e.stage = .planned q ∧ q.way = 4 ∧ q.start ≤ 100000000 ∧ q.heard = true) := by
  refine ⟨?_, ?_⟩
  · intro e q h _
    exact List.mem_singleton.mp h
  · intro e q h
    cases h

theorem witness_AirTransmissionsRun_expiry :
    let f : Flight := { flight with opcode := 0x402, stage := .waiting }
    let s : State := { downs [airDown .queued] with stw := { (downs []).stw with flights := [f], nextRef := 1 } }
    s.stw.flights.find? (fun f => decide (f.slot = 0) && decide (f.tag = 1) &&
        (decide (f.opcode = 0x304) || decide (f.opcode = 0x402))) = some f ∧
      f.time + 30 * sec ≤ max s.now (30 * sec) ∧ s.pairActive = true ∧ (∀ d ∈ s.air.downs, d.job = .host f.ref → d.done = false) ∧
      max s.now (30 * sec - 1) < f.time + 30 * sec ∧ flight.stage = .queued ∧ ({ flight with opcode := 0x304 } : Flight).opcode = 0x304 := by
  decide
/-! ## Witnesses: the seam -/

/-- Station 9, heard now, with its address on port 0. -/
def peer : Station := { role := 3, prio := 5, mac0 := 1, mac1 := 2, heard := 100000000, addrs := [(0, host)] }

/-- The block with an open session, in a role, with the SEA block otherwise as given. -/
def sea (x : Sea) : State := { opened with sea := { x with peers := [(9, peer)] } }
def role (n : Nat) : Sea := { Sea.reset with role := n }
def follower (n : Nat) : Sea := { role n with follow := some 9, arrival := some 99000000, lastCns := some 5 }
def managing : Sea := { role 6 with list := [(9, peer)] }
def hello (prio : Nat) : List Byte := be 1 3 ++ be 1 prio ++ be 6 1 ++ be 6 2 ++ zeros 2

/-- A BEACON of 28 octets: cluster time 7, the manager's number, flags, priority, and its deputy. -/
def beacon (cns flags prio : Nat) : List Byte :=
  be 4 1 ++ be 8 cns ++ be 2 9 ++ be 2 0 ++ be 1 flags ++ be 1 prio ++ be 2 8 ++ be 2 9 ++ be 2 0 ++ be 4 2

theorem witness_StationsJoinFollowAndLeave_taken :
    (sea (role 1)).pow.on = true ∧ (sea (role 1)).takesSeam (seam []) = true ∧ (role 1).role ≠ 0 ∧
      (sea (role 1)).takesSeam { seam [] with cluster := 2 } = false ∧ (role 0).role = 0 ∧
      Instr.helloRx 0 (seam []) ∈ seamArrivals 0 (seam []) ∧
      ((sea (role 1)).seamStray { seam [] with proto := 0x1234 } = true ∧ (sea (role 1)).seamStray (seam []) = false) := by decide

theorem witness_StationsJoinFollowAndLeave_control :
    let on (x : Sea) : State := (sea x).setReg F.seaCtlEn 0 0 1
    ((sea (role 0)).flag F.seaCtlEn = false ∧ (on (follower 3)).flag F.seaCtlEn = true ∧ (follower 3).role ≠ 0 ∧
      ((managing.role = 6 ∧ ({ managing with deputy := some 9 } : Sea).deputy = some 9) ∧
        ((follower 3).role ≠ 6 ∧ (follower 3).follow = some 9))) ∧
    ((role 1).role ≠ 0 ∧ (role 1).hello + ms ≤ max (sea (role 1)).now 0 ∧
      max (sea (role 1)).now 0 < ({ role 1 with hello := 99000001 } : Sea).hello + ms) ∧
    (tget? managing.list 9 = some peer ∧ managing.role = 6 ∧ peer.heard + 10 * ms ≤ max (sea managing).now 110000000 ∧
      max (sea managing).now 109999999 < peer.heard + 10 * ms ∧ (role 1).role ≠ 6) ∧
    ((role 1).role = 1 ∧ (role 1).entered + 3 * ms ≤ max (sea (role 1)).now 0 ∧ (sea (role 1)).anyUp = true ∧ State.reset.anyUp = false ∧
      max (sea (role 1)).now 0 < ({ role 1 with entered := 97000001 } : Sea).entered + 3 * ms) := by decide

theorem witness_StationsJoinFollowAndLeave_timers :
    let now := max (sea (role 1)).now 0
    ((follower 2).follow = some 9 ∧ (follower 2).role = 2 ∧ (follower 2).joinNext ≤ now ∧
      now < ({ follower 2 with joinNext := 100000001 } : Sea).joinNext ∧ (follower 3).role ≠ 2) ∧
    (managing.role = 6 ∧ managing.beacon ≤ now ∧ ({ managing with yield := some (9, 2) } : Sea).yield = some (9, 2) ∧ 1 < 2 ∧
      managing.yield = none ∧ managing.deputy = none ∧ tget? managing.list 9 = some peer ∧ peer.prio ≠ 0 ∧
      now < ({ managing with beacon := 100000001 } : Sea).beacon) ∧
    ((follower 3).role = 3 ∧ (follower 3).deadline.any (fun d => decide (d ≤ now)) = true ∧ (role 3).deadline = none ∧ (follower 3).misses ≠ 2 ∧
      ({ follower 5 with misses := 2 } : Sea).misses = 2 ∧ (sea (follower 5)).anyUp = true ∧ (follower 5).role = 5 ∧
      ({ follower 3 with arrival := some 100000000, period := 8 } : Sea).deadline.all (fun d => decide (now < d)) = true) ∧
    (({ follower 4 with misses := 3 } : Sea).misses ≥ 3 ∧ (follower 4).role = 4 ∧ (follower 4).limit ≤ now ∧ (follower 4).misses < 3 ∧
      now < ({ follower 4 with limit := 100000001 } : Sea).limit) := by decide

theorem witness_StationsJoinFollowAndLeave_joins :
    (hello 5).length = 16 ∧ ({ managing with deputy := some 9 } : Sea).deputy = some 9 ∧ octet (hello 5) 0 = 3 ∧
      octet (be 1 5 ++ (hello 5).drop 1) 0 = 5 ∧ tget? (role 6).list 9 = none ∧ 9 ≠ (sea (role 6)).station ∧
      (role 6).deputy = none ∧ (role 6).yield = none ∧ octet (hello 5) 1 ≠ 0 ∧ tget? managing.list 9 = some peer ∧
      (follower 2).role = 2 ∧ (follower 2).follow = some 9 ∧ (be 1 0 ++ zeros 7).length = 8 ∧ octet (be 1 0 ++ zeros 7) 0 = 0 ∧
      octet (be 1 1 ++ zeros 7) 0 = 1 ∧ (follower 2).refused = false ∧ (follower 5).follow = some 9 ∧ (follower 5).role = 5 ∧
      (follower 4).role = 4 := by decide

theorem witness_StationsJoinFollowAndLeave_beacons :
    (beacon 7 0 5).length = 28 ∧ 9 ≠ (sea managing).station ∧ bit (octet (beacon 7 4 5) 16) 2 = true ∧
      bit (octet (beacon 7 0 5) 16) 2 = false ∧ ({ managing with deputy := some 9 } : Sea).deputy = some 9 ∧
      managing.deputy ≠ some 9 ∧ keyOf (sea managing).prio (sea managing).station < keyOf (octet (beacon 7 0 5) 17) 9 ∧
      (follower 3).follow = some 9 ∧ (follower 3).later (beAt (beacon 7 0 5) 4 8) = true ∧ (role 3).later 0 = true ∧ bit (octet (beacon 7 0 5) 16) 3 = false ∧
      bit (octet (beacon 7 8 5) 16) 3 = true ∧ (role 3).follow ≠ some 9 ∧ (role 3).also ≠ some 9 ∧
      (follower 3).later (beAt (beacon 5 0 5) 4 8) = false ∧ ({ follower 3 with path := some 3 } : Sea).path = some 3 := by decide

/-- A registry entry of node 77 at station 4, its MIRROR of change 8, and a claim of it. -/
def homed : RegEntry := { home := 4, kind := 1, flags := 0, short := 1, port := 23, key := 0, cepoch := 1, cns := 50 }
def mirrored (sent : Nat) : Sea :=
  let waits : List MirrorWait := [{ num := 8, what := .put 3 }, { num := 8, what := .claim 9 77 }]
  { managing with
    deputy := some 9
    mirrors := [{ num := 8, ext := 77, entry := homed, sent := sent }]
    mirrorHeard := sent
    mwaits := waits
    registry := [(77, homed)] }
def claim (sent : Option Nat) : Claim := { ext := 77, entry := homed, born := 0, timed := true, sent := sent, acked := false }
def claims (sent : Option Nat) : Sea := { follower 3 with claims := [claim sent], valid := true }

theorem witness_RegistryClaimsAndElectionsRun_messages :
    (Takes (sea (follower 3)) (seam []) ∧ (follower 3).role = 3 ∧ (follower 3).follow = some 9 ∧ (sea (follower 3)).prio ≠ 0) ∧
    (let b := be 4 8 ++ entryBytes 77 homed (zeros 1)
     (follower 5).role = 5 ∧ 36 ≤ b.length ∧ b.length = 36 ∧ ({ follower 5 with applied := some 7 } : Sea).applied = some 7 ∧
       beAt b 0 4 = 7 + 1 ∧ entryOf (b.drop 4) = (77, homed) ∧ homed.kind ≠ 0) ∧
    ((mirrored 0).role = 6 ∧ (mirrored 0).deputy = some 9 ∧ (be 4 8).length = 4 ∧ beAt (be 4 8) 0 4 = 8 ∧
      ({ num := 8, what := .put 3 } : MirrorWait) ∈ (mirrored 0).mwaits ∧
      ({ num := 8, what := .claim 9 77 } : MirrorWait) ∈ (mirrored 0).mwaits) ∧
    ((follower 3).follow = some 9 ∧ (be 8 77).length = 8 ∧ claim none ∈ (claims none).claims ∧ beAt (be 8 77) 0 8 = 77 ∧
      homed.home ≠ 0xFFFF) ∧
    ((role 7).role = 7 ∧ octet (be 1 5 ++ zeros 7) 0 ≠ 0 ∧ (zeros 16).length = 16 ∧ (follower 3).arrival = some 99000000 ∧ (follower 3).lastCns = some 5 ∧ (role 3).arrival = none) := by
  unfold Takes
  decide

theorem witness_RegistryClaimsAndElectionsRun_claims :
    let b := entryBytes 77 homed (zeros 1)
    let late := entryBytes 77 { homed with cns := 60 } (zeros 1)
    b.length = 32 ∧ entryOf b = (77, homed) ∧ applyClaim (tget? (mirrored 0).registry 77) 9 homed = none ∧
      entryOf late = (77, { homed with cns := 60 }) ∧
      applyClaim (tget? (mirrored 0).registry 77) 9 { homed with cns := 60 } = some { homed with home := 9, cns := 60 } ∧
      (mirrored 0).synced = false ∧ (mirrored 0).deputy = some 9 ∧ tget? managing.registry 77 = none ∧ homed.home ≠ 0xFFFF ∧
      homed.kind ≠ 0 := by decide

theorem witness_RegistryClaimsAndElectionsRun_timers :
    let now := max (sea (role 7)).now 0
    ((follower 4).role = 4 ∧ (follower 5).role ≠ 4) ∧
    ((mirrored 0).deputy = some 9 ∧ (∃ y ∈ (mirrored 99990000).mirrors, y.sent + 10 * us ≤ now) ∧ (mirrored 0).mirrors ≠ [] ∧
      (mirrored 99800000).mirrorHeard + 200 * us ≤ now ∧ (∀ y ∈ (mirrored 99990001).mirrors, now < y.sent + 10 * us) ∧
      now < (mirrored 99800001).mirrorHeard + 200 * us) ∧
    ((claims none).claims.find? (fun c => decide (c.ext = 77) && !c.acked) = some (claim none) ∧ (claims none).valid = true ∧
      (claim none).timed = true ∧ (claims none).follow = some 9 ∧ (claim none).sent = none ∧
      (claims (some 99000001)).claims.find? (fun c => decide (c.ext = 77) && !c.acked) = some (claim (some 99000001)) ∧
      (claim (some 99000001)).sent = some 99000001 ∧ now < 99000001 + ms) ∧
    ((sea (role 7)).prio ≠ 0 ∧ (role 7).electNext ≤ now ∧ now < ({ role 7 with entered := 98500001 } : Sea).entered + 1500 * us ∧
      (role 7).entered + 1500 * us ≤ now ∧ (sea (role 7)).anyUp = true ∧
      (((role 7).heard.all fun e => decide (keyOf e.2 e.1 < keyOf (sea (role 7)).prio (sea (role 7)).station)) = true) ∧
      (∃ e ∈ ({ role 7 with heard := [(9, 5)] } : Sea).heard, keyOf (sea (role 7)).prio (sea (role 7)).station ≤ keyOf e.2 e.1)) ∧
    ((follower 5).delayNext ≤ now ∧ now < ({ follower 5 with delayNext := 100000001 } : Sea).delayNext ∧
      ({ follower 3 with valid := true } : Sea).valid = true ∧ (follower 3).arrival.all (fun a => decide (a + sec ≤ max (sea (role 7)).now (2 * sec))) = true ∧
      (follower 3).arrival.any (fun a => decide (now < a + sec)) = true ∧ (role 7).follow = none ∧ (follower 3).valid = false) := by decide

/-- A fragment of plane 3 of reception 6, and a group that holds it. -/
def frag (plane : Nat) : List Byte :=
  be 4 6 ++ be 4 1 ++ be 8 1000 ++ be 4 868000 ++ be 1 8 ++ be 1 20 ++ be 2 0x1003 ++ zeros 2 ++ be 1 (plane * 16) ++ zeros 1 ++
    be 2 0 ++ be 2 1 ++ be 1 9
def comb : Copy := { station := 9, rxid := 6, port := 0, snr := 20, cns := 1000, planes := [] }
def joint (closed : Option Nat) (won : Bool) (copies : List Copy) : Group :=
  { num := 2, cepoch := 1, ref := 1000, freq := 868000, phy := 8, phr := 0x1003, copies := copies, won := won, shut := [], tried := [], level := 3,
    closed := closed }
def combining (gs : List Group) : State :=
  let s := (sea managing).setReg F.seaScCtlEn 0 0 1
  { s with sc := { s.sc with groups := gs } }

theorem witness_SoftCombiningRuns_fragments :
    Takes (combining []) (seam (frag 3)) ∧ (follower 3).role ≠ 6 ∧ (combining []).flag F.seaScCtlEn = true ∧
      (sea managing).flag F.seaScCtlEn = false ∧ (33 ≤ (frag 3).length ∧ beAt (frag 3) 30 2 = ((frag 3).drop 32).length ∧
        ((frag 3).drop 32).length ≤ 1408 ∧ octet (frag 3) 26 / 16 ≤ 3) ∧ ¬octet (frag 4) 26 / 16 ≤ 3 ∧
      (combining []).holds 9 (scHead (frag 3)).rxid = none ∧ (combining []).groupFor 9 (scHead (frag 3)) = none ∧
      ((combining []).sc.groups.filter fun g => decide (g.closed = none)).length < 1024 ∧
      (∀ e ∈ (combining []).sc.gone, e.1 ≠ 9 ∨ e.2.1 ≠ (scHead (frag 3)).rxid) ∧
      (∀ g ∈ (combining []).sc.groups, g.num ≠ (combining []).sc.nextGroup) ∧
      (combining [joint (some 0) false [comb]]).holds 9 (scHead (frag 3)).rxid = some (joint (some 0) false [comb]) ∧
      (joint (some 0) false [comb]).closed.isSome = true := by
  unfold Takes
  decide

/-- The home, which follows station 9, with the sensor in its table. -/
def home (y : Sensor) : State := { sea (follower 3) with air := { opened.air with sensors := [(1, y)] } }
def resultOf (ext : Nat) (mac : List Byte) : List Byte := zeros 12 ++ be 8 ext ++ be 2 1 ++ be 1 0 ++ be 1 20 ++ zeros 4 ++ mac
/-- A DATA frame of sensor 1 in PAN 1. -/
def panMac : List Byte := be 1 0x61 ++ be 1 0x88 ++ be 1 7 ++ le 2 1 ++ be 2 0 ++ le 2 1 ++ be 1 9
def panOther : List Byte := be 1 0x61 ++ be 1 0x88 ++ be 1 7 ++ le 2 2 ++ be 2 0 ++ le 2 1 ++ be 1 9

theorem witness_SoftCombiningRuns_results :
    let s := home sensor
    let f (mac : List Byte) (p : MacFrame → Bool) : Prop := ((macFrame ((resultOf 77 mac).drop 28)).any p) = true
    Takes s (seam (resultOf 77 panMac)) ∧ s.sea.follow = some 9 ∧ 28 ≤ (resultOf 77 []).length ∧
      macFrame ((resultOf 77 []).drop 28) = none ∧ f panOther (fun f => !s.macMatch f) ∧
      f panMac (fun f => s.macMatch f && decide (f.typ = 1) && !f.sec && f.ackReq && !f.broadcast) ∧
      s.sensorByExt (beAt (resultOf 78 panMac) 12 8) = none ∧
      (home { sensor with state := 2 }).sensorByExt (beAt (resultOf 77 panMac) 12 8) = some (1, { sensor with state := 2 }) ∧
      s.sensorByExt (beAt (resultOf 77 panMac) 12 8) = some (1, sensor) ∧ s.sensor? 1 = some sensor ∧ sensor.state = 1 ∧
      tget? s.stw.sess 0 = some sess ∧ bit sess.kinds 2 = true ∧ 55 + ((resultOf 77 panMac).drop 28).length ≤ sess.maxmsg ∧
      areaUsed s.stw.area + 39 + ((resultOf 77 panMac).drop 28).length ≤ 2147483648 ∧ sensor.digest = true := by
  unfold Takes
  decide

def sent (n : Nat) : ScSend := { home := 9, body := zeros 26 ++ be 2 3, sent := 99000000, resends := n }
def results (n : Nat) : State := { sea managing with sc := { (sea managing).sc with results := [sent n] } }

theorem witness_SoftCombiningRuns_ends :
    let planes : Tab (Tab Byte) := (List.range 4).map fun p => (p, [(0, 9), (1, 9), (2, 9)])
    let full (k : Nat) : Copy := { comb with station := k, planes := planes }
    let lone := joint none false [comb]
    let two := joint none false [full 8, full 9]
    let won := joint none true [comb]
    ((be 2 3 ++ zeros 2).length = 4 ∧ (results 0).resultOf (beAt (be 2 3 ++ zeros 2) 0 2) = some (sent 0) ∧ (sent 0).home = 9 ∧
      octet (be 2 3 ++ zeros 2) 2 ≠ 2 ∧ (results 0).resultOf 4 = none) ∧
    ((combining [lone]).group? 2 = some lone ∧ lone.closed = none ∧ lone.closeAt ≤ ((combining [lone]).tick 0).ctime ∧
      won.won = true ∧ lone.copies.length < 2 ∧ lone.tried.length < 2 ∧ two.won = false ∧ 2 ≤ two.parts.length ∧ two.attempt = none ∧ (combining [two]).checkUnit = true ∧
      ({ combining [two] with cip := { (combining [two]).cip with unitsOut := List.range 8 } } : State).checkUnit = false ∧
      (joint (some 0) false []).closed.isSome = true ∧
      ((combining [lone]).tick 0).ctime < ({ lone with ref := 200000000 } : Group).closeAt) ∧
    ((results 0).resultOf 3 = some (sent 0) ∧ (sent 0).sent + ms ≤ max (results 0).now 0 ∧ (sent 0).resends < 4 ∧ 4 ≤ (sent 4).resends ∧
      max (results 0).now 0 < ({ sent 0 with sent := 99000001 } : ScSend).sent + ms) := by decide

set_option maxRecDepth 20000 in
theorem witness_SoftCombiningRuns_decides :
    let mac := zeros 3
    let psdu := psduOf false false mac
    let soft : Tab Byte := (List.range 5).map fun i => (i, psdu.getD i 0)
    let full (k : Nat) : Copy := { comb with station := k, planes := (List.range 4).map fun p => (p, soft) }
    let g : Group := { joint none false [full 8, full 9] with phr := phrOf false false 5 }
    g.won = false ∧ 2 ≤ g.parts.length ∧ g.attempt = some mac := by decide


theorem witness_StationsJoinFollowAndLeave_priorities :
    let zero (x : Sea) : State := (sea x).setReg F.seaCfgPriority 0 0 0
    (sea (role 1)).forSeam { seam [] with cluster := 2 } = false ∧
    ((zero managing).reg F.seaCfgPriority = 0 ∧ managing.role = 6 ∧ managing.hello + ms ≤ max (zero managing).now 0 ∧
      (sea managing).reg F.seaCfgPriority ≠ 0) ∧
    (let x : Sea := { follower 5 with misses := 2, prio := 0 }
     x.role = 5 ∧ (sea x).prio = 0 ∧ (sea x).anyUp = true ∧ x.misses = 2 ∧ x.deadline.any (fun d => decide (d ≤ max (sea x).now 0)) = true) ∧
    (let x : Sea := { follower 3 with follow := some 8, also := some 9, limit := 99000000 }
     x.follow ≠ some 9 ∧ x.also = some 9 ∧ x.limit < max (sea x).now 0) ∧
    ((follower 5).role = 5 ∧ (follower 5).follow = some 9 ∧ (sea (follower 5)).prio ≠ 0 ∧ (follower 4).role = 4 ∧
      (sea (follower 4)).anyUp = true) := by decide

theorem tget?_replicate (n : Nat) (e : RegEntry) : tget? (List.replicate n ((5 : Nat), e)) 77 = none := by
  induction n with
  | zero => rfl
  | succ n ih => rw [List.replicate_succ, tget?, if_neg (by decide), ih]

/-- A registry that is full has no room for node 77. -/
theorem regFull_replicate (n : Nat) (h : 268435456 ≤ n) :
    (sea { managing with registry := List.replicate n (5, homed) }).regFull 77 1 = true := by
  have e : (sea { managing with registry := List.replicate n (5, homed) }).sea.registry = List.replicate n (5, homed) := rfl
  rw [State.regFull, e, tget?_replicate, List.length_replicate, decide_eq_true h]
  rfl

theorem witness_RegistryClaimsAndElectionsRun_full :
    ∃ n, (sea { managing with registry := List.replicate n (5, homed) }).regFull 77 1 = true :=
  ⟨268435456, regFull_replicate _ (Nat.le_refl _)⟩

theorem witness_RegistryClaimsAndElectionsRun_copies :
    let x : Sea := { role 7 with keepReg := true, claims := [], since := [(9, 77, homed)] }
    x.claims = [] ∧ x.keepReg = true ∧ (role 7).keepReg = false ∧ (sea managing).regFull 77 1 = false ∧ (sea (mirrored 0)).pairActive = true ∧
      managing.registry.length < 268435456 := by decide
/-! ## Witnesses: spools -/

/-- A descriptor as read: 8 octets of control word and 24 others. -/
def ctrl (first len : Nat) : List Byte := be 1 first ++ zeros 3 ++ be 4 len
def others : List Byte := be 8 0x200000000 ++ be 8 0x300000000 ++ zeros 8
def spoolDesc (first status : Nat) (data : List Byte) (drained : Nat) : SpoolDesc :=
  { idx := 1, ctrl := ctrl first 4, body := others, status := status, broken := false, data := data, drained := drained, pace := none,
    held := none }

/-- Host spool 192, running or not, its ring at 0x100000000, with a descriptor placed at index 2. -/
def ringed (on : Nat) (x : Spool) (slot : List Byte) : State :=
  let s := ((opened.setReg F.splChCtlEn 192 0 on).setReg F.splChRingHi 192 0 1).setReg F.splChRingLo 192 0 0
  ({ s with mem := s.mem.store (0x100000000 + 64) slot } : State).setSp 192 x
def spool (state : Nat) (busy : List SpoolDesc) : Spool := { Spool.init with state := state, cur := 2, busy := busy, opened := true }
def done : SpoolDesc := spoolDesc 0x80 0 (zeros 4) 4

set_option maxRecDepth 20000 in
theorem witness_SpoolsRunTheirRings_control :
    let idle := ringed 0 Spool.init []
    let run (x : Spool) : State := ringed 1 x []
    (idle.flag F.splChCtlEn 192 = false ∧ (run (spool 1 [])).flag F.splChCtlEn 192 = true ∧
      (opened.setReg F.splChRingLo 0 0 16).ringOk 0 = false ∧ opened.ringOk 0 = true) ∧
    ((spool 1 []).state ≠ 3 ∧ (spool 1 []).busy = [] ∧ ({ spool 2 [] with err := true } : Spool).err = true ∧
      (spool 1 [done]).err = false ∧ (spool 1 [done]).busy ≠ [] ∧ (spool 3 [done]).err = false ∧ (spool 3 [done]).state = 3) ∧
    ((spool 1 []).posts = [] ∧ (∀ d ∈ (spool 1 [done]).busy, d.held = none) ∧ (spool 2 []).state = 2 ∧
      (spool 2 [done, done, done, done]).mayStart = false ∧ (spool 1 []).mayStart = true ∧ (spool 0 []).state ≠ 1 ∧
      (spool 0 []).state ≠ 2) := by decide

set_option maxRecDepth 20000 in
theorem witness_SpoolsRunTheirRings_ring : (ringed 0 Spool.init []).ringOk 192 = true := by decide

theorem witness_SpoolsRunTheirRings_walk :
    let s (slot : List Byte) : State := ringed 1 (spool 1 []) slot
    let d (slot : List Byte) : SpoolDesc := { idx := 2, ctrl := (s slot).mem.reads 0x100000040 8, body := (s slot).mem.reads 0x100000048 24,
                                              status := 0, broken := false, data := [], drained := 0, pace := none, held := none }
    let good := ctrl 0x80 4 ++ others
    let bad := ctrl 0x80 0 ++ others
    let far := ctrl 0x80 4 ++ be 8 0x500000000 ++ be 8 0 ++ zeros 8
    (s []).mem.rot = [] ∧ (s []).mem.poisonIn 0x100000040 32 = [] ∧ (d []).own = false ∧ (d (be 1 0xC0)).hem = true ∧
      (d good).own = true ∧ (d good).hem = false ∧ (d bad).invalid 16 = true ∧ (d good).invalid 16 = false ∧ hostSpool 191 = false ∧
      hostSpool 192 = true ∧ (d far).own = true ∧ (d far).invalid 16 = false ∧
      (firstBad (mayRead (s far).mem) (d far).src (d far).len).isSome = true := by decide

theorem witness_SpoolsRunTheirRings_ends :
    let held : SpoolDesc := { done with held := some (0, zeros 4) }
    (done.held = none ∧ done.broken = false ∧ done.ctrl.length = 8 ∧ done.body.length = 24 ∧ done.status = 0 ∧ done.len ≤ done.drained ∧
      (spoolDesc 0xA0 0 (zeros 4) 4).bar = true ∧ done.bar = false ∧ done.outcome.1 = 0 ∧ (spoolDesc 0x90 0 (zeros 4) 4).irq = true ∧
      (spoolDesc 0x80 4 [] 0).status = 4 ∧ (spoolDesc 0x80 0 (zeros 4) 3).drained < (spoolDesc 0x80 0 (zeros 4) 3).len) ∧
    (held.held = some (0, zeros 4) ∧ (spool 1 [held]).posts = [] ∧ ({ spool 1 [] with irq := true } : Spool).irq = true ∧
      (ringed 1 (spool 1 []) []).fwRuns = true ∧ (spool 1 []).irq = false) := by decide

theorem witness_SpoolsRunTheirRings_bursts :
    let fresh := spoolDesc 0x80 0 [] 0
    let full := spoolDesc 0x80 0 (be 4 7) 0
    let s (d : SpoolDesc) : State := ringed 1 (spool 1 [d]) []
    ((opened.tick 0).nextBurst true = none ∧ (opened.tick 0).nextBurst false = none) ∧
    (((s fresh).tick 0).nextBurst true = some (192, false) ∧ ((s fresh).sp 192).readReady ((s fresh).paceOf 192) = some fresh ∧
      ((s fresh).regs.com .splChCommit 192).pend = false ∧ (s fresh).mem.rot = [] ∧ (s fresh).mem.poisonIn fresh.src 4 = []) ∧
    (((s full).tick 0).nextBurst true = some (192, true) ∧ ((s full).sp 192).writeReady ((s full).paceOf 192) = some full ∧
      (∀ r ∈ runsOf (full.outputs 0 4), (s full).mem.poisonIn r.1 r.2.length = []) ∧ runsOf (full.outputs 0 4) = [(0x300000000, be 4 7)]) := by
  decide


/-- A descriptor that a write finds owned by the engine is spoilt until it is written as software's own; source and destination may
overlap. -/
theorem witness_SpoolsRunTheirRings_undefined :
    let own := ringed 1 (spool 1 [done]) (ctrl 0x80 4)
    let hem := ringed 1 (spool 1 [done]) (ctrl 0xC0 4)
    let hit (s : State) : State := (s.writeMem 0 (0x100000000 + 71) [5]).1
    let at2 : SpoolDesc := { done with idx := 2 }
    own.spoilt 192 at2 = false ∧ (hit own).spoilt 192 at2 = true ∧ (hit hem).spoilt 192 at2 = false ∧
      ((hit own).writeMem 0 (0x100000000 + 96) [5]).1.spoilt 192 at2 = true ∧
      ((hit own).writeDesc (0x100000000 + 64) (zeros 8) (zeros 8)).spoilt 192 at2 = false ∧
      (let s := ringed 1 (spool 1 [done]) []
       s.mem.rot = [] ∧ s.descPoisoned (0x100000000 + 32) = false ∧
       ({ s with mem := { s.mem with poison := [0x100000000] } } : State).descPoisoned (0x100000000 + 32) = true) ∧
      done.overlaps = false ∧ ({ done with body := be 8 0x200000000 ++ be 8 0x200000003 ++ zeros 8 } : SpoolDesc).overlaps = true := by
  decide

/-- Local spool 383 has its ring in the SRAM's spool partition, unless its size goes beyond it; a descriptor with a check waits for a
check unit. -/
theorem witness_SpoolsRunTheirRings_local :
    let big := opened.setReg F.splChRcfgLog2size 383 0 16
    let none_ : State := { opened with cip := { opened.cip with unitsOut := List.range 8 } }
    (opened.flag F.splChCtlEn 383 = false ∧ localSpool 383 = true ∧ (opened.laidRing 383).ringOk 383 = true ∧
      (big.laidRing 383).ringOk 383 = false ∧ localSpool 255 = false) ∧
    ((spoolDesc 0x81 0 (zeros 4) 4).checked = true ∧ done.checked = false ∧ opened.checkUnit = true ∧ none_.checkUnit = false) ∧
    ({ done with broken := true } : SpoolDesc).broken = true := by decide
/-! ## Witnesses: site measurement, filters and loops -/

/-- The converter running (or not) with its sequencer as given; trigger source 1 has fired at 99000000. -/
def site (en cont : Nat) (x : Cnv) : State :=
  let s := (((opened.setReg F.cnvCtlEn 0 0 en).setReg F.cnvSeqCtlCont 0 0 cont).setReg F.senRefEn 0 0 1).setReg F.cnvSeqCtlTsrc 0 0 1
  { s with cnv := x, mns := { s.mns with fired := [(0, 99000000)] } }
def cnv (state : Nat) : Cnv := { Cnv.reset with state := state, ready := true }
def raw : Raw := { value := 0, opened := false, beyond := false, chg := false, centre := 0, fin := 0 }

theorem witness_TriggersAreMissedWhileBusy :
    ((site 1 0 (cnv 2)).cnv.state = 2 ∧ (site 1 0 (cnv 3)).cnv.state = 3 ∧ (site 1 0 Cnv.reset).refWait = true) ∧
      (site 1 0 (cnv 2)).flag F.cnvSeqCtlCont = false ∧ (site 1 0 (cnv 2)).firing = some 99000000 := by decide

theorem witness_SequencesAndWireBreaksRun_control :
    (opened.flag F.senRefEn = false ∧ opened.flag F.cnvCtlEn = false ∧ (site 1 0 (cnv 1)).flag F.senRefEn = true ∧
      (site 1 0 (cnv 1)).flag F.cnvCtlEn = true) ∧
    (Cnv.reset.ready = false ∧ Cnv.reset.refAt + 2 * ms ≤ max opened.now 0 ∧ (cnv 1).ready = true ∧
      max opened.now 0 < ({ Cnv.reset with refAt := 98000001 } : Cnv).refAt + 2 * ms ∧
      (site 1 1 { Cnv.reset with state := 1 }).flag F.cnvSeqCtlCont = true ∧ ({ Cnv.reset with state := 1 } : Cnv).state = 1) ∧
    ((site 1 1 (cnv 1)).flag F.cnvSeqCtlCont = true ∧ (site 1 1 (cnv 1)).firing = some 99000000) ∧
    ((site 1 0 (cnv 1)).cnv.state = 1 ∧ (site 1 0 (cnv 1)).refWait = false ∧ (site 1 0 (cnv 1)).firing = some 99000000 ∧
      Cnv.reset.state = 0 ∧ opened.refWait = false ∧ opened.firing = none ∧ (cnv 2).due ≤ max opened.now 0 + 50 ∧
      max opened.now 0 + 50 < ({ cnv 2 with due := 100000051 } : Cnv).due) := by decide

theorem witness_SequencesAndWireBreaksRun_samples :
    let s := site 1 0 (cnv 3)
    let auto := s.setReg F.cnvEntCfgAuto 0 0 0
    let codes : List Int := List.replicate 64 (-131072)
    s.cnv.raws.length < s.chops 0 ∧ codes.length = 64 ∧ (∀ c ∈ codes, -131072 ≤ c ∧ c ≤ 131071) ∧
      s.dwellAt 0 0 + 32 * us * (s.cnv.raws.length + 1) ≤ max s.now 0 ∧ (∀ c ∈ List.replicate 64 (128450 : Int), nearFull c = false) ∧
      (∃ c ∈ codes, nearFull c = true) ∧ auto.autoGain 0 = false ∧
      (List.replicate 64 (128450 : Int)).foldl (fun (a : Int) c => a + c) 0 * 8388608 % (64 * 2 ^ (cnv 3).gain : Nat) = 0 ∧
      max s.now 0 < s.dwellAt 0 99964001 + 32 * us * (s.cnv.raws.length + 1) := by decide

theorem witness_SequencesAndWireBreaksRun_dwells :
    let s := site 1 0 { cnv 3 with raws := [raw] }
    let two := s.setReg F.cnvSeqCtlLen 0 0 2
    s.cnv.raws.length = s.chops 0 ∧ s.chops s.cnv.entry ≤ s.cnv.raws.length ∧ s.dwellEnd 0 0 ≤ max s.now 0 ∧
      two.cnv.entry + 1 < two.reg F.cnvSeqCtlLen ∧ s.reg F.cnvSeqCtlLen ≤ s.cnv.entry + 1 ∧
      max s.now 0 < s.dwellEnd 0 99964001 ∧ (cnv 1).state ≠ 3 := by decide

/-- Excitation 0 watched, from 10 to 20 tens of a unit, broken (or not) at 90000000. -/
def excited (broken : Bool) : State :=
  let s := ((site 1 0 (cnv 1)).setReg F.senExCfgEn 0 0 1).setReg F.senExCfgImin 0 0 10
  let s := (s.setReg F.senExCfgImax 0 0 20).setReg F.cnvEntCfgExc 3 0 0
  s.setCnv { s.cnv with excs := [(0, { broken := broken, lastBreak := 90000000, opens := [] })] }

theorem witness_SequencesAndWireBreaksRun_wires :
    let s := excited false
    let b := excited true
    let due (since : Nat) : Nat := max (b.exc 0).lastBreak since + max 1 (b.reg F.senBrkRecoverMs) * ms
    due 0 ≤ max b.now 0 ∧ max b.now 0 < due 99000001 ∧
    s.flag F.senExCfgEn 0 = true ∧ s.side 0 99 = 1 ∧ s.side 0 100 = 0 ∧ s.side 0 200 = 0 ∧ s.side 0 201 = 2 ∧
      (s.entryExc (s.reg F.lopLoCtlSrc 3) = 0 ∧ s.mapped 3 = true) ∧ opened.flag F.senExCfgEn 3 = false ∧ (b.exc 0).broken = true ∧
      (s.exc 0).broken = false ∧ (b.exc 0).lastBreak + max 1 (b.reg F.senBrkRecoverMs) * ms ≤ max b.now 0 ∧
      max b.now 0 < 90000001 + max 1 (b.reg F.senBrkRecoverMs) * ms := by decide

/-- Channel 0 with its first visit at 1 ms and eight later ones: the output of grid instant 1 ms is due. -/
def visit (at_ : Nat) : Visit := { inst := at_, fin := at_, value := 0, opened := false, beyond := false, chg := [] }
def chan (n : Nat) : Chan :=
  { Chan.init with first := some 1000000, visits := (List.range n).map (fun i => visit (9000001 + i)), steady := some 5 }
def filtered (n : Nat) : State :=
  let s := (opened.setReg F.fltChCfgFast 0 0 1).setChan 0 (chan n)
  s.setReg F.lopLoCtlSrc 0 0 0

theorem witness_OutputsReachResultsAndLoops_outputs :
    let s := filtered 8
    ((filtered 7).tick 0).outputDue 0 = false ∧ (s.tick 0).outputDue 0 = true ∧ s.nextG 0 = some (1000000, 0) ∧
      s.mapped 0 = true ∧ s.reg F.lopLoCtlSrc 0 = 0 ∧ s.flag F.fltStrmCtlEn = false ∧ (s.regs.com .fltCommit 0).pend = false ∧
      s.flag F.fltChCfgFast 0 = true ∧ s.reg F.fltChCfgDcb 0 = 0 ∧ (s.chan 0).steady = some 5 ∧ s.reg F.cnvEntCfgChan 0 < 16 ∧
      s.reg F.cnvEntLinCurve 0 = 0 := by decide

/-- The stream's ring at address 0 may be written whole. -/
theorem ring_ok : opened.strmOk = true := by
  have h : opened.strmBase = 0 ∧ opened.strmLen = 1024 ∧ opened.mem.ranges = State.reset.mem.ranges := by decide
  simp only [State.strmOk, h, firstBad, Option.isNone_map, Bool.and_eq_true, decide_eq_true_eq, Option.isNone_iff_eq_none,
    List.find?_eq_none, List.mem_range]
  refine ⟨trivial, fun i hi => ?_⟩
  have hr : regionOf (0 + i) = .dram := by unfold regionOf; rw [if_pos (by omega)]
  have hk : kindOf opened.mem (0 + i) = 0 := by
    unfold kindOf
    rw [h.2.2]
    have : ∀ r ∈ State.reset.mem.ranges, 32768 < r.base := by decide
    rw [List.find?_eq_none.mpr (fun r hr => by have := this r hr; simp; omega)]
  rw [mayWrite, hr]
  simp only [hk]
  decide

theorem witness_OutputsReachResultsAndLoops_stream :
    (opened.setReg F.fltStrmAddrLo 0 0 16).strmOk = false ∧ (opened.setReg F.fltStrmCtlEn 0 0 1).flag F.fltStrmCtlEn = true ∧
      opened.flag F.fltStrmCtlEn = false ∧ opened.strmBase % 32 = 0 := by decide

def looped (x : Loop) : State := opened.setLoop 0 x

theorem witness_OutputsReachResultsAndLoops_loops :
    let x : Loop := { Loop.reset with value := some 7 }
    let s := looped x
    let off := opened.setReg F.lopLoCtlEn 0 0 0
    let fired (t : Nat) : Loop := { x with fired := some t }
    s.mapped 0 = true ∧ x.stale = false ∧ x.lastOut + max 1 (s.reg F.lopLoCtlStaleMs 0) * ms ≤ max s.now (2 * sec) ∧
      max s.now 0 < x.lastOut + max 1 (s.reg F.lopLoCtlStaleMs 0) * ms ∧ off.mapped 0 = false ∧ x.opened = false ∧ x.range = false ∧
      s.v20 0 ≠ s.v4 0 ∧ x.value = some 7 ∧ x.fault = false ∧ s.flag F.lopLoCtlEn 0 = true ∧ x.fired = none ∧
      98976000 + 1024 * us ≤ max (looped (fired 98976000)).now 0 ∧ max (looped (fired 98976001)).now 0 < 98976001 + 1024 * us ∧
      off.flag F.lopLoCtlEn 0 = false := by decide

theorem witness_OutputsReachResultsAndLoops_streamed :
    let s := ((filtered 8).setReg F.fltStrmCtlEn 0 0 1).setReg F.fltStrmMaskMask 0 0 1
    s.flag F.fltStrmCtlEn = true ∧ bit (s.reg F.fltStrmMaskMask) 0 = true ∧ bit (s.reg F.fltStrmMaskMask) 1 = false ∧
      (s.tick 0).outputDue 0 = true ∧ (s.regs.com .fltCommit 0).pend = false ∧ s.mapped 0 = true ∧ s.reg F.lopLoCtlSrc 0 = 0 := by decide

/-- Four currents beyond the limits, or one that is not. -/
theorem witness_SequencesAndWireBreaksRun_currents :
    let s := excited false
    [99, 0, 201, 2850].length = 4 ∧ (∀ c ∈ [99, 0, 201, 2850], c ≤ 2850 ∧ s.side 0 c ≠ 0) ∧
      (∃ c ∈ [99, 0, 150, 2850], 2850 < c ∨ s.side 0 c = 0) ∧ (∃ c ∈ [2851], 2850 < c ∨ s.side 0 c = 0) := by decide

/-! ## Witnesses: invariants -/

theorem witness_MemoryStaysCanonical : opened.mem.wf = true ∧ step opened = .next opened.idle := ⟨rfl, rfl⟩

theorem witness_NumbersStayFresh :
    let s : State := { downs [airDown .queued] with stw := { opened.stw with flights := [flight], nextRef := 1 } }
    (∀ f ∈ s.stw.flights, f.ref < s.stw.nextRef) ∧ (s.stw.flights.map (·.ref)).Nodup ∧
      (∀ d ∈ s.air.downs, d.id < s.air.nextId) ∧ (s.air.downs.map (·.id)).Nodup ∧ s.pending = [] := by decide

end Sys2Proof.Tests
end

section
/-!
SUPPORT. The power-up count (02 R26): what each operation of the model does to TMB_EPOCH, and statement O4.

Of all the model's operations only `Lining.starts`, in the first steps of the start sequence, writes `Lining.epoch`. So there is one
rule for each operation that answers a state, in the order of the model's files: the epoch after it is the epoch before it. The rules
are simp rules, and each follows from those of the operations that it is made of, on every branch that it can take. `State.start_epoch`
is the exception, and `exec_keepsEpoch` and `execStartSequence_epoch` put them together for the commands.

Some proofs below name the states on the way and compare whole states, not their epochs. The kernel compares two epochs that are not the
same term by evaluating the states, with conditions such as `s.now < (n + 1) * sec` in them, which it cannot evaluate in practice.
-/

namespace Sys2Proof.Machine

open Sys2Proof

/-! ## Conditions and loops -/

@[simp] theorem epoch_ite (c : Prop) [Decidable c] (s t : State) :
    (if c then s else t).lin.epoch = if c then s.lin.epoch else t.lin.epoch :=
  apply_ite (fun s : State => s.lin.epoch) c s t

theorem epoch_of_ite {c : Prop} [Decidable c] {s t : State} {e : Nat} (hs : s.lin.epoch = e) (ht : t.lin.epoch = e) :
    (if c then s else t).lin.epoch = e := by
  split <;> assumption

/-- A loop whose steps keep the epoch keeps it. (The rules below that hold by `rfl` are proved `by rfl`, so that `simp` can use them
under the binders of this hypothesis.) -/
@[simp] theorem foldl_epoch {β : Type} (f : State → β → State) (h : ∀ s b, (f s b).lin.epoch = s.lin.epoch) (l : List β)
    (s : State) : (l.foldl f s).lin.epoch = s.lin.epoch :=
  foldl_keeps (fun t => t.lin.epoch = s.lin.epoch) f (fun t b ht => (h t b).trans ht) l s rfl

/-! ## Registers -/

@[simp] theorem State.setReg_epoch (s : State) (x : FRef) (i j v : Nat) : (s.setReg x i j v).lin.epoch = s.lin.epoch := by
  rfl

@[simp] theorem State.setCount_epoch (s : State) (x : FRef) (i v : Nat) : (s.setCount x i v).lin.epoch = s.lin.epoch := by rfl

/-! ## Shared operations -/

@[simp] theorem State.linWrite_epoch (s : State) (r : LinRec) (ref : Option Nat) :
    (s.linWrite r ref).lin.epoch = s.lin.epoch := by simp [State.linWrite]

@[simp] theorem State.kept_epoch (s old : State) (f : Fam) (i j : Nat) :
    (s.kept old f i j).lin.epoch = s.lin.epoch := by simp [State.kept]

@[simp] theorem State.keepSnap_epoch (s : State) (snap : List (Nat × Word)) :
    (s.keepSnap snap).lin.epoch = s.lin.epoch := by simp [State.keepSnap]

@[simp] theorem State.handedOver_epoch (s : State) (f : Fam) (i : Nat) :
    (s.handedOver f i).lin.epoch = s.lin.epoch := by simp [State.handedOver]

@[simp] theorem State.settleCarrier_epoch (s : State) : s.settleCarrier.lin.epoch = s.lin.epoch := by
  unfold State.settleCarrier
  split <;> simp

theorem State.place_epoch (s u : State) (c : Ctx) (h : s.place c = some u) : u.lin.epoch = s.lin.epoch := by
  obtain ⟨_, _, _, _, _, hlin, _⟩ := s.place_frame u c h
  rw [hlin]

@[simp] theorem State.place_getD_epoch (s t : State) (c : Ctx) (h : s.lin.epoch = t.lin.epoch) :
    ((s.place c).getD t).lin.epoch = t.lin.epoch := by
  cases hp : s.place c with
  | none => rfl
  | some u => exact (s.place_epoch u c hp).trans h

@[simp] theorem State.spoolMoved_epoch (s : State) (n bytes : Nat) : (s.spoolMoved n bytes).lin.epoch = s.lin.epoch := by rfl

@[simp] theorem State.putCtx_epoch (s : State) (e : Ctx × CtxData) : (s.putCtx e).lin.epoch = s.lin.epoch := by
  unfold State.putCtx
  split <;> simp

@[simp] theorem State.putCtxs_epoch (s : State) (n : Nat) (l : List (Ctx × CtxData)) :
    (s.putCtxs n l).lin.epoch = s.lin.epoch := by simp [State.putCtxs]

@[simp] theorem State.input_epoch (s : State) (c : Ctx) (i : Input) (f : State → State)
    (h : ∀ s, (f s).lin.epoch = s.lin.epoch) : (s.input c i f).lin.epoch = s.lin.epoch := by
  obtain ⟨x, y, e | e⟩ := s.input_cases c i f <;> simp [e, h]

/-! ## Mailboxes -/

@[simp] theorem State.reply_epoch (s : State) (m : Inbound) (session : Bool) (opcode flags status slot gen : Nat)
    (operand : List Byte) (head : Bool) :
    (s.reply m session opcode flags status slot gen operand head).lin.epoch = s.lin.epoch := by rfl

@[simp] theorem State.reject_epoch (s : State) (m : Inbound) (session : Bool) (opcode status : Nat) (operand : List Byte) :
    (s.reject m session opcode status operand).lin.epoch = s.lin.epoch := by rfl

@[simp] theorem State.strayFrame_epoch (s : State) (m : Inbound) :
    (s.strayFrame m).lin.epoch = s.lin.epoch := by simp [State.strayFrame]

@[simp] theorem State.heard_epoch (s : State) (m : Inbound) : (s.heard m).lin.epoch = s.lin.epoch := by
  unfold State.heard
  split <;> simp

theorem State.tagChecks_epoch (s u : State) (m : Inbound) (opcode : Nat) (x : Session) (h : s.tagChecks m opcode x = some u) :
    u.lin.epoch = s.lin.epoch := by
  revert h
  unfold State.tagChecks
  (repeat' split) <;> rintro ⟨⟩ <;> simp

@[simp] theorem State.enter_epoch (s : State) (m : Inbound) (opcode : Nat) (x : Session) (st : Stage) :
    (s.enter m opcode x st).1.lin.epoch = s.lin.epoch := by rfl

@[simp] theorem State.accept_epoch (s : State) (m : Inbound) (opcode need : Nat) (direct : Bool) (st : Stage) :
    (s.accept m opcode need direct st).1.lin.epoch = s.lin.epoch := by
  simp only [State.accept]
  split; · simp
  split; · simp
  split; · simp
  split; · simp
  split
  next u h => simpa using State.tagChecks_epoch _ u _ _ _ h
  next => (repeat' split) <;> simp

@[simp] theorem State.arriveFw_epoch (s : State) (m : Inbound) (opcode need : Nat) :
    (s.arriveFw m opcode need).lin.epoch = s.lin.epoch := by simp [State.arriveFw]

@[simp] theorem State.openSession_epoch (s : State) (m : Inbound) : (s.openSession m).lin.epoch = s.lin.epoch := by
  unfold State.openSession
  (repeat' split) <;> simp

@[simp] theorem State.closeSession_epoch (s : State) (k : Nat) (x : Session) :
    (s.closeSession k x).lin.epoch = s.lin.epoch := by rfl

@[simp] theorem State.sessionMsg_epoch (s : State) (m : Inbound) (opcode : Nat) (f : State → Session → State)
    (h : ∀ s x, (f s x).lin.epoch = s.lin.epoch) : (s.sessionMsg m opcode f).lin.epoch = s.lin.epoch := by
  simp only [State.sessionMsg]
  (repeat' split) <;> simp [h]

@[simp] theorem State.acknowledge_epoch (s : State) (k : Nat) (x : Session) (stream upto : Nat) :
    (s.acknowledge k x stream upto).lin.epoch = s.lin.epoch := by simp [State.acknowledge]

@[simp] theorem State.answerAddress_epoch (s : State) (kind : FrameKind) (port mac ip : Nat) (body : List Byte) :
    (s.answerAddress kind port mac ip body).lin.epoch = s.lin.epoch := by rfl

/-! ## Keys, alarms and cipher jobs (14) -/

@[simp] theorem State.reserveTo_epoch (s : State) (slot val : Nat) :
    (s.reserveTo slot val).lin.epoch = s.lin.epoch := by simp [State.reserveTo]

@[simp] theorem State.takeCounter_epoch (s : State) (slot : Nat) : (s.takeCounter slot).1.lin.epoch = s.lin.epoch := by
  simp only [State.takeCounter]
  (repeat' split) <;> simp

@[simp] theorem State.dropErased_epoch (s : State) : s.dropErased.lin.epoch = s.lin.epoch :=
  foldl_epoch _ (fun s w => by split <;> simp) _ _

@[simp] theorem State.alarm_epoch (s : State) (source detail : Nat) (stays : Bool) :
    (s.alarm source detail stays).lin.epoch = s.lin.epoch := by simp [State.alarm]

@[simp] theorem State.supplyBack_epoch (s : State) (n : Nat) : (s.supplyBack n).lin.epoch = s.lin.epoch := by rfl

@[simp] theorem State.supplyAt_epoch (s : State) (n uv : Nat) :
    (s.supplyAt n uv).lin.epoch = s.lin.epoch := by simp [State.supplyAt]

@[simp] theorem State.clearWrapped_epoch (s : State) : s.clearWrapped.lin.epoch = s.lin.epoch := by rfl

@[simp] theorem State.serveKeyDelete_epoch (s : State) (f : Flight) : (s.serveKeyDelete f).lin.epoch = s.lin.epoch := by
  simp only [State.serveKeyDelete]
  (repeat' split) <;> simp

@[simp] theorem State.serveKeyStatus_epoch (s : State) (f : Flight) :
    (s.serveKeyStatus f).lin.epoch = s.lin.epoch := by simp [State.serveKeyStatus]

@[simp] theorem State.serveRootProvision_epoch (s : State) (f : Flight) : (s.serveRootProvision f).lin.epoch = s.lin.epoch := by
  unfold State.serveRootProvision
  (repeat' split) <;> simp

@[simp] theorem State.serveKeyAlarm_epoch (s : State) (f : Flight) :
    (s.serveKeyAlarm f).lin.epoch = s.lin.epoch := by simp [State.serveKeyAlarm]

@[simp] theorem State.nonceJob_epoch (s : State) (j : Job) : (s.nonceJob j).1.lin.epoch = s.lin.epoch := by
  unfold State.nonceJob
  split
  next k _ =>
    have h := s.takeCounter_epoch (slotOf k.handle)
    split
    · split <;> simp_all
    · rfl
  next => rfl

@[simp] theorem State.submitJob_epoch (s : State) (d : List Byte) (ring : Option Nat) (own : Option (List Byte)) (use : JobUse) :
    (s.submitJob d ring own use).lin.epoch = s.lin.epoch := by simp [State.submitJob]

@[simp] theorem State.offerJob_epoch (s : State) (w : JobWait) :
    (s.offerJob w).lin.epoch = s.lin.epoch := by simp [State.offerJob]

@[simp] theorem State.admitJobs_epoch (s : State) : s.admitJobs.lin.epoch = s.lin.epoch := by simp [State.admitJobs]

@[simp] theorem State.serveKeyLoad_epoch (s : State) (f : Flight) :
    (s.serveKeyLoad f).lin.epoch = s.lin.epoch := by simp [State.serveKeyLoad]

@[simp] theorem State.keyLoaded_epoch (s : State) (ref handle : Nat) (wrapped plain : List Byte) :
    (s.keyLoaded ref handle wrapped plain).lin.epoch = s.lin.epoch := by
  unfold State.keyLoaded
  split <;> simp

@[simp] theorem State.fillCache_epoch (s : State) : s.fillCache.lin.epoch = s.lin.epoch := by simp [State.fillCache]

@[simp] theorem State.filled_epoch (s : State) (slot : Nat) (wrapped plain : List Byte) :
    (s.filled slot wrapped plain).lin.epoch = s.lin.epoch := by simp [State.filled]

@[simp] theorem State.deliverRec_epoch (s : State) (r : RecvRec) (untrusted : Bool) (p : List Byte) :
    (s.deliverRec r untrusted p).lin.epoch = s.lin.epoch := by simp [State.deliverRec]

@[simp] theorem State.deliverFrame_epoch (s : State) (air sec : Bool) (a0 p : List Byte) (ext : Option Nat) (short : Nat)
    (r : RecvRec) :
    (s.deliverFrame air sec a0 p ext short r).lin.epoch = s.lin.epoch := by
  unfold State.deliverFrame
  (repeat' split) <;> simp

@[simp] theorem State.retryJobs_epoch (s : State) : s.retryJobs.lin.epoch = s.lin.epoch := by simp [State.retryJobs]

@[simp] theorem State.putDone_epoch (s : State) (a : Nat) (c : List Byte) :
    (s.putDone a c).lin.epoch = s.lin.epoch := by simp [State.putDone]

theorem epoch_of_cip {s u : State} {y : Cip} (h : u = { s with cip := y }) : u.lin.epoch = s.lin.epoch := by
  rw [h]

theorem epoch_of_ite_cip {c : Prop} [Decidable c] {s : State} {y : Cip} {e : Nat} (h : s.lin.epoch = e) :
    (if c then s else { s with cip := y }).lin.epoch = e :=
  epoch_of_ite h h

/-- A recursion on fuel, one round at a time: the epoch is kept if a round keeps it whose recursive call keeps it. `State.readRing` is
taken apart by this rule, because the kernel cannot check its equation lemma. -/
theorem brecOn_epoch (F : (n : Nat) → Nat.below (motive := fun _ => State → State) n → State → State)
    (zero : ∀ x s, (F 0 x s).lin.epoch = s.lin.epoch)
    (succ : ∀ n x s, (∀ s, (x.1 s).lin.epoch = s.lin.epoch) → (F (n + 1) x s).lin.epoch = s.lin.epoch) (s : State) (n : Nat) :
    (Nat.brecOn (motive := fun _ => State → State) n F s).lin.epoch = s.lin.epoch := by
  induction n generalizing s with
  | zero => exact zero _ s
  | succ n ih => exact succ n _ s ih

@[simp] theorem State.flushRing_epoch (s : State) (n : Nat) : (s.flushRing n).lin.epoch = s.lin.epoch := by
  induction n generalizing s with
  | zero => rfl
  | succ n ih =>
    simp only [State.flushRing]
    split
    · rfl
    next c _ =>
      rw [ih, State.setReg_epoch]
      exact (epoch_of_cip rfl).trans (s.putDone_epoch _ c)

@[simp] theorem State.readRing_epoch (s : State) (n : Nat) : (s.readRing n).lin.epoch = s.lin.epoch := by
  delta State.readRing
  refine brecOn_epoch _ (fun _ _ => ?_) (fun n x s ih => ?_) s n
  · rfl
  refine epoch_of_ite ?_ rfl
  extract_lets a here ok d s₁ src₁ s₂ s₃ rotten src₃ s₄
  have e₁ : s₁ = if here then s.consume 0x40 a 64 else s := rfl
  have e₂ : ∃ y : Cip, s₂ = { s₁ with cip := y } := ⟨_, rfl⟩
  have e₃ : s₃ = s₂.submitJob d (some s.cip.ringTaken) := rfl
  have e₄ : ∃ (c : Bool) (y : Cip), s₄ = if c then s₃ else { s₃ with cip := y } := ⟨_, _, rfl⟩
  clear_value s₄ s₃ s₂ s₁
  obtain ⟨_, e₂⟩ := e₂
  obtain ⟨_, _, e₄⟩ := e₄
  have h₁ : s₁.lin.epoch = s.lin.epoch := by rw [e₁]; exact epoch_of_ite (by simp) rfl
  rw [ih, e₄, epoch_of_ite_cip rfl, e₃, State.submitJob_epoch, epoch_of_cip e₂, h₁]

@[simp] theorem State.runJob_epoch (s : State) (j : Job) : (s.runJob j).1.lin.epoch = s.lin.epoch := by
  simp only [State.runJob]
  (repeat' split) <;> simp

@[simp] theorem State.completeJob_epoch (s : State) (j : Job) (core status : Nat) :
    (s.completeJob j core status).lin.epoch = s.lin.epoch := by
  unfold State.completeJob
  (repeat' split) <;> simp

@[simp] theorem State.ringEnable_epoch (s : State) : s.ringEnable.lin.epoch = s.lin.epoch := by rfl

@[simp] theorem State.ringTail_epoch (s : State) (tail : Nat) :
    (s.ringTail tail).lin.epoch = s.lin.epoch := by simp [State.ringTail]

@[simp] theorem State.checkDone_epoch (s : State) (v : Nat) (want : Option Nat) :
    (s.checkDone v want).lin.epoch = s.lin.epoch := by
  unfold State.checkDone
  split <;> simp

/-! ## Mains and pleats (05) -/

@[simp] theorem State.fixNext_epoch (s : State) (n : Nat) : (s.fixNext n).lin.epoch = s.lin.epoch := by simp [State.fixNext]

@[simp] theorem State.fixPhase_epoch (s : State) (ph : Nat) : (s.fixPhase ph).lin.epoch = s.lin.epoch := by simp [State.fixPhase]

@[simp] theorem State.markPhase_epoch (s : State) (ph : Nat) :
    (s.markPhase ph).lin.epoch = s.lin.epoch := by simp [State.markPhase]

@[simp] theorem State.phaseEvent_epoch (s : State) (code x : Nat) :
    (s.phaseEvent code x).lin.epoch = s.lin.epoch := by simp [State.phaseEvent]

@[simp] theorem State.toState_epoch (s : State) (x st ref : Nat) :
    (s.toState x st ref).lin.epoch = s.lin.epoch := by simp [State.toState]

@[simp] theorem State.fallBack_epoch (s : State) (x : Nat) : (s.fallBack x).lin.epoch = s.lin.epoch := by
  unfold State.fallBack
  split <;> simp

@[simp] theorem State.losePhase_epoch (s : State) (x : Nat) : (s.losePhase x).lin.epoch = s.lin.epoch := by simp [State.losePhase]

@[simp] theorem State.noteApart_epoch (s : State) (x y : Nat) :
    (s.noteApart x y).lin.epoch = s.lin.epoch := by simp [State.noteApart]

@[simp] theorem State.measureAngles_epoch (s : State) : s.measureAngles.lin.epoch = s.lin.epoch := by simp [State.measureAngles]

@[simp] theorem State.derive_epoch (s : State) (ref : Nat) : (s.derive ref).lin.epoch = s.lin.epoch := by simp [State.derive]

@[simp] theorem State.supplied_epoch (s : State) (x : Nat) : (s.supplied x).lin.epoch = s.lin.epoch := by simp [State.supplied]

@[simp] theorem State.rejectCrossing_epoch (s : State) (x : Nat) (p : Phase) (dev : Option Int) :
    (s.rejectCrossing x p dev).lin.epoch = s.lin.epoch := by simp [State.rejectCrossing]

@[simp] theorem State.acceptCrossing_epoch (s : State) (x : Nat) (p : Phase) (m : Nat) (jump : Bool) :
    (s.acceptCrossing x p m jump).lin.epoch = s.lin.epoch := by simp [State.acceptCrossing]

@[simp] theorem State.lockedCrossing_epoch (s : State) (x m : Nat) : (s.lockedCrossing x m).lin.epoch = s.lin.epoch := by
  simp only [State.lockedCrossing]
  (repeat' split) <;> simp

@[simp] theorem State.tryLock_epoch (s : State) (x m : Nat) : (s.tryLock x m).lin.epoch = s.lin.epoch := by
  simp only [State.tryLock]
  (repeat' split) <;> simp

@[simp] theorem State.markMet_epoch (s : State) : s.markMet.lin.epoch = s.lin.epoch := by rfl

@[simp] theorem State.crossing_epoch (s : State) (phase : Nat) (seen : Option Nat) (ampl : Nat) :
    (s.crossing phase seen ampl).lin.epoch = s.lin.epoch := by
  unfold State.crossing
  split <;> simp

@[simp] theorem State.mnsEnable_epoch (s : State) : s.mnsEnable.lin.epoch = s.lin.epoch := by rfl

@[simp] theorem State.mnsDisable_epoch (s : State) : s.mnsDisable.lin.epoch = s.lin.epoch := by simp [State.mnsDisable]

@[simp] theorem State.newNominal_epoch (s : State) : s.newNominal.lin.epoch = s.lin.epoch := by simp [State.newNominal]

@[simp] theorem State.applyOffset_epoch (s : State) (n : Nat) : (s.applyOffset n).lin.epoch = s.lin.epoch := by
  simp only [State.applyOffset]
  (repeat' split) <;> simp

@[simp] theorem State.newSource_epoch (s : State) (n src : Nat) :
    (s.newSource n src).lin.epoch = s.lin.epoch := by simp [State.newSource]

@[simp] theorem State.noteCycle_epoch (s : State) (n : Nat) : (s.noteCycle n).lin.epoch = s.lin.epoch := by rfl

@[simp] theorem State.newCycle_epoch (s : State) (n : Nat) : (s.newCycle n).lin.epoch = s.lin.epoch := by simp [State.newCycle]

@[simp] theorem State.nextPleat_epoch (s : State) (n : Nat) : (s.nextPleat n).lin.epoch = s.lin.epoch := by rfl

@[simp] theorem State.fireTriggers_epoch (s : State) (n : Nat) :
    (s.fireTriggers n).lin.epoch = s.lin.epoch := by simp [State.fireTriggers]

@[simp] theorem State.pleatEvent_epoch (s : State) (n : Nat) :
    (s.pleatEvent n).lin.epoch = s.lin.epoch := by simp [State.pleatEvent]

/-! ## The seam (11) -/

@[simp] theorem State.nextSeq_epoch (s : State) : s.nextSeq.lin.epoch = s.lin.epoch := by rfl

@[simp] theorem State.castOn_epoch (s : State) (port q pcp : Nat) (bytes : List Byte) :
    (s.castOn port q pcp bytes).lin.epoch = s.lin.epoch := by simp [State.castOn]

@[simp] theorem State.castAll_epoch (s : State) (typ : Nat) (body : List Byte) :
    (s.castAll typ body).lin.epoch = s.lin.epoch := by simp [State.castAll]

@[simp] theorem State.castOne_epoch (s : State) (typ : Nat) (body : List Byte) :
    (s.castOne typ body).lin.epoch = s.lin.epoch := by simp [State.castOne]

@[simp] theorem State.sendTo_epoch (s : State) (station typ : Nat) (body : List Byte) :
    (s.sendTo station typ body).lin.epoch = s.lin.epoch := by
  simp only [State.sendTo]
  (repeat' split) <;> simp

@[simp] theorem State.noteSeam_epoch (s : State) (m : SeamMsg) : (s.noteSeam m).lin.epoch = s.lin.epoch := by rfl

@[simp] theorem State.dropWaits_epoch (s : State) : s.dropWaits.lin.epoch = s.lin.epoch :=
  (foldl_epoch _ (fun s w => by split <;> simp) _ _).trans (by simp)

@[simp] theorem State.toRole_epoch (s : State) (role reason : Nat) :
    (s.toRole role reason).lin.epoch = s.lin.epoch := by simp [State.toRole]

@[simp] theorem State.stationLeft_epoch (s : State) (station reason : Nat) :
    (s.stationLeft station reason).lin.epoch = s.lin.epoch := by simp [State.stationLeft]

@[simp] theorem State.toListening_epoch (s : State) (reason : Nat) :
    (s.toListening reason).lin.epoch = s.lin.epoch := by simp [State.toListening]

@[simp] theorem State.toElecting_epoch (s : State) : s.toElecting.lin.epoch = s.lin.epoch := by simp [State.toElecting]

@[simp] theorem State.toManager_epoch (s : State) (reason : Nat) :
    (s.toManager reason).lin.epoch = s.lin.epoch := by simp [State.toManager]

@[simp] theorem State.takeOver_epoch (s : State) : s.takeOver.lin.epoch = s.lin.epoch := by simp [State.takeOver]

@[simp] theorem State.regChange_epoch (s : State) (ext : Nat) (e : RegEntry) : (s.regChange ext e).lin.epoch = s.lin.epoch := by
  simp only [State.regChange]
  (repeat' split) <;> simp

@[simp] theorem State.releaseWait_epoch (s : State) (w : MirrorFor) : (s.releaseWait w).lin.epoch = s.lin.epoch := by
  unfold State.releaseWait
  split <;> simp

@[simp] theorem State.whenMirrored_epoch (s : State) (n : Nat) (w : MirrorFor) :
    (s.whenMirrored n w).lin.epoch = s.lin.epoch := by simp [State.whenMirrored]

@[simp] theorem State.releaseMirrored_epoch (s : State) :
    s.releaseMirrored.lin.epoch = s.lin.epoch := by simp [State.releaseMirrored]

@[simp] theorem State.claimAt_epoch (s : State) (k ext : Nat) (e : RegEntry) (ack : Bool) :
    (s.claimAt k ext e ack).lin.epoch = s.lin.epoch := by
  unfold State.claimAt
  split <;> simp

@[simp] theorem State.sendClaim_epoch (s : State) (c : Claim) : (s.sendClaim c).lin.epoch = s.lin.epoch := by
  unfold State.sendClaim
  (repeat' split) <;> simp

@[simp] theorem State.resendClaims_epoch (s : State) : s.resendClaims.lin.epoch = s.lin.epoch := by simp [State.resendClaims]

@[simp] theorem State.claim_epoch (s : State) (ext kind flags short port : Nat) (release : Bool) :
    (s.claim ext kind flags short port release).lin.epoch = s.lin.epoch := by simp [State.claim]

@[simp] theorem State.followStation_epoch (s : State) (k : Nat) : (s.followStation k).lin.epoch = s.lin.epoch := by rfl

@[simp] theorem State.toJoining_epoch (s : State) (k reason : Nat) :
    (s.toJoining k reason).lin.epoch = s.lin.epoch := by simp [State.toJoining]

@[simp] theorem State.seaEnable_epoch (s : State) : s.seaEnable.lin.epoch = s.lin.epoch := by simp [State.seaEnable]

@[simp] theorem State.sendLeave_epoch (s : State) : s.sendLeave.lin.epoch = s.lin.epoch := by
  unfold State.sendLeave
  (repeat' split) <;> simp

@[simp] theorem State.seaLeave_epoch (s : State) : s.seaLeave.lin.epoch = s.lin.epoch := by simp [State.seaLeave]

@[simp] theorem State.seaDisable_epoch (s : State) : s.seaDisable.lin.epoch = s.lin.epoch := by simp [State.seaDisable]

@[simp] theorem State.appoint_epoch (s : State) : s.appoint.lin.epoch = s.lin.epoch := by
  unfold State.appoint
  (repeat' split) <;> simp

@[simp] theorem State.takePrio_epoch (s : State) : s.takePrio.lin.epoch = s.lin.epoch := by simp [State.takePrio]

@[simp] theorem State.dropMember_epoch (s : State) (k reason : Nat) :
    (s.dropMember k reason).lin.epoch = s.lin.epoch := by simp [State.dropMember]

@[simp] theorem State.noteStation_epoch (s : State) (m : SeamMsg) : (s.noteStation m).lin.epoch = s.lin.epoch := by rfl

@[simp] theorem State.yielded_epoch (s : State) : s.yielded.lin.epoch = s.lin.epoch := by simp [State.yielded]

@[simp] theorem State.steer_epoch (s : State) (cepoch cns : Nat) : (s.steer cepoch cns).lin.epoch = s.lin.epoch := by
  simp only [State.steer]
  (repeat' split) <;> simp

@[simp] theorem State.takeBeacon_epoch (s : State) (b : List Byte) :
    (s.takeBeacon b).lin.epoch = s.lin.epoch := by simp [State.takeBeacon]

@[simp] theorem State.validBeacon_epoch (s : State) (m : SeamMsg) :
    (s.validBeacon m).lin.epoch = s.lin.epoch := by simp [State.validBeacon]

@[simp] theorem State.joinBeacon_epoch (s : State) (m : SeamMsg) (reason : Nat) :
    (s.joinBeacon m reason).lin.epoch = s.lin.epoch := by simp [State.joinBeacon]

@[simp] theorem State.serveCluStatus_epoch (s : State) (f : Flight) :
    (s.serveCluStatus f).lin.epoch = s.lin.epoch := by simp [State.serveCluStatus]

@[simp] theorem State.serveRegGet_epoch (s : State) (f : Flight) : (s.serveRegGet f).lin.epoch = s.lin.epoch := by
  simp only [State.serveRegGet]
  (repeat' split) <;> simp

@[simp] theorem State.serveRegPut_epoch (s : State) (f : Flight) :
    (s.serveRegPut f).lin.epoch = s.lin.epoch := by simp [State.serveRegPut]

@[simp] theorem State.serveStations_epoch (s : State) (f : Flight) :
    (s.serveStations f).lin.epoch = s.lin.epoch := by simp [State.serveStations]

@[simp] theorem State.serveCluLeave_epoch (s : State) (f : Flight) :
    (s.serveCluLeave f).lin.epoch = s.lin.epoch := by simp [State.serveCluLeave]

/-! ## Line ports: queues and results -/

@[simp] theorem State.retone_epoch (s : State) (n : Nat) : (s.retone n).lin.epoch = s.lin.epoch := by rfl

@[simp] theorem State.settleIdle_epoch (s : State) (n m fin : Nat) : (s.settleIdle n m fin).lin.epoch = s.lin.epoch := by rfl

@[simp] theorem State.contend_epoch (s : State) (n m at_ : Nat) : (s.contend n m at_).lin.epoch = s.lin.epoch := by
  simp only [State.contend]
  (repeat' split) <;> simp

@[simp] theorem State.queueLineAt_epoch (s : State) (n m at_ : Nat) (f : LineFrame) :
    (s.queueLineAt n m at_ f).lin.epoch = s.lin.epoch := by
  simp [State.queueLineAt]

@[simp] theorem State.queueLine_epoch (s : State) (n m : Nat) (f : LineFrame) :
    (s.queueLine n m f).lin.epoch = s.lin.epoch := by simp [State.queueLine]

@[simp] theorem State.newSeq_epoch (s : State) (dst : Nat) : (s.newSeq dst).1.lin.epoch = s.lin.epoch := by rfl

@[simp] theorem State.setNode_epoch (s : State) (short : Nat) (n : Option Node) :
    (s.setNode short n).lin.epoch = s.lin.epoch := by simp [State.setNode]

@[simp] theorem State.nodeJoined_epoch (s : State) (short : Nat) (x : Node) :
    (s.nodeJoined short x).lin.epoch = s.lin.epoch := by simp [State.nodeJoined]

@[simp] theorem State.lineResult_epoch (s : State) (ref : Nat) (f : LineFrame) (result : Nat) :
    (s.lineResult ref f result).lin.epoch = s.lin.epoch := by simp [State.lineResult]

/-! ## Line ports: census and pleat maps (07) -/

@[simp] theorem State.includeCycle_epoch (s : State) (n : Nat) : (s.includeCycle n).lin.epoch = s.lin.epoch := by rfl

@[simp] theorem State.stepLink_epoch (s : State) (n m : Nat) :
    (s.stepLink n m).lin.epoch = s.lin.epoch := by simp [State.stepLink]

@[simp] theorem State.census_epoch (s : State) (n : Nat) (o : ChanOut) :
    (s.census n o).lin.epoch = s.lin.epoch := by simp [State.census]

@[simp] theorem State.takeOut_epoch (s : State) (n : Nat) (o : ChanOut) :
    (s.takeOut n o).lin.epoch = s.lin.epoch := by simp [State.takeOut]

@[simp] theorem State.takeOuts_epoch (s : State) (n : Nat) (l : List ChanOut) :
    (s.takeOuts n l).lin.epoch = s.lin.epoch := by simp [State.takeOuts]

@[simp] theorem State.copyCensus_epoch (s : State) (n : Nat) :
    (s.copyCensus n).lin.epoch = s.lin.epoch := by simp [State.copyCensus]

@[simp] theorem State.sendOffer_epoch (s : State) (n m node : Nat) (p : PMap) :
    (s.sendOffer n m node p).lin.epoch = s.lin.epoch := by simp [State.sendOffer]

@[simp] theorem State.endOffer_epoch (s : State) (n m : Nat) : (s.endOffer n m).lin.epoch = s.lin.epoch := by
  simp only [State.endOffer]
  (repeat' split) <;> simp

@[simp] theorem State.startOffer_epoch (s : State) (n m : Nat) (p : PMap) :
    (s.startOffer n m p).lin.epoch = s.lin.epoch := by simp [State.startOffer]

@[simp] theorem State.nextOffer_epoch (s : State) (n m : Nat) : (s.nextOffer n m).lin.epoch = s.lin.epoch := by
  simp only [State.nextOffer]
  (repeat' split) <;> simp

@[simp] theorem State.offerDone_epoch (s : State) (n m node version : Nat) (ok : Bool) :
    (s.offerDone n m node version ok).lin.epoch = s.lin.epoch := by
  simp only [State.offerDone]
  (repeat' split) <;> simp

@[simp] theorem State.startRebuild_epoch (s : State) (n m : Nat) :
    (s.startRebuild n m).lin.epoch = s.lin.epoch := by simp [State.startRebuild]

@[simp] theorem State.rebuildNow_epoch (s : State) (n m : Nat) :
    (s.rebuildNow n m).lin.epoch = s.lin.epoch := by simp [State.rebuildNow]

@[simp] theorem State.rebuildDone_epoch (s : State) (n m : Nat) :
    (s.rebuildDone n m).lin.epoch = s.lin.epoch := by simp [State.rebuildDone]

@[simp] theorem State.rebuilt_epoch (s : State) (n m : Nat) : (s.rebuilt n m).lin.epoch = s.lin.epoch := by simp [State.rebuilt]

@[simp] theorem State.cycleEnd_epoch (s : State) (n : Nat) (x : PleatTimer) : (s.cycleEnd n x).lin.epoch = s.lin.epoch := by
  simp only [State.cycleEnd]
  split
  · exact (foldl_epoch _ (fun s m => by split <;> simp) _ _).trans (by simp)
  · simp

@[simp] theorem State.serveMapRead_epoch (s : State) (f : Flight) :
    (s.serveMapRead f).lin.epoch = s.lin.epoch := by simp [State.serveMapRead]

/-! ## Line ports: transmissions (08) -/

@[simp] theorem State.sendStarts_epoch (s : State) (n t : Nat) :
    (s.sendStarts n t).lin.epoch = s.lin.epoch := by simp [State.sendStarts]

@[simp] theorem State.sendEnds_epoch (s : State) (n : Nat) : (s.sendEnds n).lin.epoch = s.lin.epoch := by
  simp only [State.sendEnds]
  (repeat' split) <;> simp

@[simp] theorem State.linkQuiet_epoch (s : State) (n m : Nat) :
    (s.linkQuiet n m).lin.epoch = s.lin.epoch := by simp [State.linkQuiet]

@[simp] theorem State.joinNode_epoch (s : State) (short : Nat) : (s.joinNode short).lin.epoch = s.lin.epoch := by
  unfold State.joinNode
  split <;> simp

@[simp] theorem State.jobDone_epoch (s : State) (n m : Nat) (f : LineFrame) (ok : Bool) (result : Nat) :
    (s.jobDone n m f ok result).lin.epoch = s.lin.epoch := by
  unfold State.jobDone
  split <;> simp

@[simp] theorem State.countFail_epoch (s : State) (f : LineFrame) : (s.countFail f).lin.epoch = s.lin.epoch := by
  unfold State.countFail
  (repeat' split) <;> simp

@[simp] theorem State.popLine_epoch (s : State) (n m at_ : Nat) (ok : Bool) (result : Nat) :
    (s.popLine n m at_ ok result).lin.epoch = s.lin.epoch := by
  simp only [State.popLine]
  (repeat' split) <;> simp

@[simp] theorem State.tryFailed_epoch (s : State) (n m at_ : Nat) : (s.tryFailed n m at_).lin.epoch = s.lin.epoch := by
  simp only [State.tryFailed]
  (repeat' split) <;> simp

@[simp] theorem State.beginTry_epoch (s : State) (n m start : Nat) (f : LineFrame) (l : List LineFrame) :
    (s.beginTry n m start f l).lin.epoch = s.lin.epoch := by
  simp only [State.beginTry]
  (repeat' split) <;> simp

@[simp] theorem State.contended_epoch (s : State) (n m : Nat) : (s.contended n m).lin.epoch = s.lin.epoch := by
  unfold State.contended
  (repeat' split) <;> simp

@[simp] theorem State.defers_epoch (s : State) (n m : Nat) (level : Option Int) :
    (s.defers n m level).lin.epoch = s.lin.epoch := by simp [State.defers]

@[simp] theorem State.fallsIdle_epoch (s : State) (n m : Nat) : (s.fallsIdle n m).lin.epoch = s.lin.epoch := by
  simp only [State.fallsIdle]
  (repeat' split) <;> simp

@[simp] theorem State.txOver_epoch (s : State) (n m fin : Nat) (cut : Bool) :
    (s.txOver n m fin cut).lin.epoch = s.lin.epoch := by simp [State.txOver]

@[simp] theorem State.tryEnds_epoch (s : State) (n m fin : Nat) (cut : Bool) (x : LineTx) :
    (s.tryEnds n m fin cut x).lin.epoch = s.lin.epoch := by
  simp only [State.tryEnds]
  (repeat' split) <;> simp

@[simp] theorem State.ackLate_epoch (s : State) (n m : Nat) : (s.ackLate n m).lin.epoch = s.lin.epoch := by
  simp only [State.ackLate]
  (repeat' split) <;> simp

@[simp] theorem State.retries_epoch (s : State) (n m : Nat) : (s.retries n m).lin.epoch = s.lin.epoch := by
  simp only [State.retries]
  (repeat' split) <;> simp

@[simp] theorem State.txlimOff_epoch (s : State) (n : Nat) : (s.txlimOff n).lin.epoch = s.lin.epoch := by rfl

@[simp] theorem State.lineDownlink_epoch (s : State) (f : Flight) (short : Nat) (x : Node) :
    (s.lineDownlink f short x).lin.epoch = s.lin.epoch := by
  simp only [State.lineDownlink]
  (repeat' split) <;> simp

@[simp] theorem State.lineSealed_epoch (s : State) (ref status : Nat) (nonce out : List Byte) :
    (s.lineSealed ref status nonce out).lin.epoch = s.lin.epoch := by
  unfold State.lineSealed
  split <;> simp

@[simp] theorem State.serveLineDownlink_epoch (s : State) (f : Flight) : (s.serveLineDownlink f).lin.epoch = s.lin.epoch := by
  simp only [State.serveLineDownlink]
  (repeat' split) <;> simp

@[simp] theorem State.expireLine_epoch (s : State) (ref : Nat) : (s.expireLine ref).lin.epoch = s.lin.epoch := by
  simp only [State.expireLine]
  (repeat' split) <;> simp

@[simp] theorem State.endQueue_epoch (s : State) (n m : Nat) :
    (s.endQueue n m).lin.epoch = s.lin.epoch := by simp [State.endQueue]

@[simp] theorem State.dropFrames_epoch (s : State) (n m short : Nat) :
    (s.dropFrames n m short).lin.epoch = s.lin.epoch := by simp [State.dropFrames]

@[simp] theorem State.dropNode_epoch (s : State) (short : Nat) :
    (s.dropNode short).lin.epoch = s.lin.epoch := by simp [State.dropNode]

@[simp] theorem State.endSlot_epoch (s : State) (n m : Nat) : (s.endSlot n m).lin.epoch = s.lin.epoch := by simp [State.endSlot]

/-! ## Line ports: hand-overs and service -/

@[simp] theorem State.applyLink_epoch (s : State) (n m : Nat) :
    (s.applyLink n m).lin.epoch = s.lin.epoch := by simp [State.applyLink]

@[simp] theorem State.plxBoundary_epoch (s : State) (n : Nat) :
    (s.plxBoundary n).lin.epoch = s.lin.epoch := by simp [State.plxBoundary]

@[simp] theorem State.plxGo_epoch (s : State) (n : Nat) : (s.plxGo n).lin.epoch = s.lin.epoch := by simp [State.plxGo]

@[simp] theorem State.plxStart_epoch (s : State) (n : Nat) : (s.plxStart n).lin.epoch = s.lin.epoch := by rfl

@[simp] theorem State.plxStop_epoch (s : State) (n : Nat) : (s.plxStop n).lin.epoch = s.lin.epoch := by simp [State.plxStop]

@[simp] theorem State.calRestart_epoch (s : State) (n : Nat) :
    (s.calRestart n).lin.epoch = s.lin.epoch := by simp [State.calRestart]

@[simp] theorem State.calFreeze_epoch (s : State) (n : Nat) (on : Bool) :
    (s.calFreeze n on).lin.epoch = s.lin.epoch := by simp [State.calFreeze]

@[simp] theorem State.enterService_epoch (s : State) (n : Nat) :
    (s.enterService n).lin.epoch = s.lin.epoch := by simp [State.enterService]

/-! ## Line ports: receptions (06, 08) -/

@[simp] theorem State.dropCand_epoch (s : State) (n m : Nat) (c : LineCand) : (s.dropCand n m c).lin.epoch = s.lin.epoch := by rfl

@[simp] theorem State.holdCand_epoch (s : State) (n m : Nat) (c : LineCand) : (s.holdCand n m c).lin.epoch = s.lin.epoch := by rfl

@[simp] theorem State.preempt_epoch (s : State) (n m : Nat) (old : List LineCand) (c : LineCand) :
    (s.preempt n m old c).lin.epoch = s.lin.epoch := by simp [State.preempt]

@[simp] theorem State.newCand_epoch (s : State) (n m : Nat) (c : LineCand) : (s.newCand n m c).lin.epoch = s.lin.epoch := by
  unfold State.newCand
  split
  next u h => simp [s.place_epoch u _ h]
  next => simp

@[simp] theorem State.linePeak_epoch (s : State) (n m : Nat) (metric : Nat × Nat) (start : Nat) :
    (s.linePeak n m metric start).lin.epoch = s.lin.epoch := by
  simp only [State.linePeak]
  (repeat' split) <;> simp

@[simp] theorem State.candFails_epoch (s : State) (n m : Nat) (c : LineCand) :
    (s.candFails n m c).lin.epoch = s.lin.epoch := by rfl

@[simp] theorem State.lineDelim_epoch (s : State) (n m place : Nat) (soft : List Int) :
    (s.lineDelim n m place soft).lin.epoch = s.lin.epoch := by
  unfold State.lineDelim
  split <;> simp

@[simp] theorem State.offerAgain_epoch (s : State) (n m short : Nat) (y : Node) :
    (s.offerAgain n m short y).lin.epoch = s.lin.epoch := by
  simp only [State.offerAgain]
  (repeat' split) <;> simp

@[simp] theorem State.nodeHeard_epoch (s : State) (n m short start margin : Nat) (energy : Option Nat) :
    (s.nodeHeard n m short start margin energy).lin.epoch = s.lin.epoch := by
  unfold State.nodeHeard
  split <;> simp

@[simp] theorem State.answerJoin_epoch (s : State) (n m : Nat) (job : LineJob) (prio node : Nat) (route : List Nat)
    (p : List Byte) :
    (s.answerJoin n m job prio node route p).lin.epoch = s.lin.epoch := by simp [State.answerJoin]

@[simp] theorem State.joinReq_epoch (s : State) (n m ext caps : Nat) (route : List Nat) :
    (s.joinReq n m ext caps route).lin.epoch = s.lin.epoch := by simp [State.joinReq]

@[simp] theorem State.noiseReport_epoch (s : State) (n m short : Nat) (p : List Byte) :
    (s.noiseReport n m short p).lin.epoch = s.lin.epoch := by
  unfold State.noiseReport
  split <;> simp

@[simp] theorem State.lineControl_epoch (s : State) (n m src : Nat) (p : List Byte) :
    (s.lineControl n m src p).lin.epoch = s.lin.epoch := by
  unfold State.lineControl
  (repeat' split) <;> simp

@[simp] theorem State.deliverLine_epoch (s : State) (n m short seq start margin hops : Nat) (sec relayed : Bool)
    (a0 p : List Byte) :
    (s.deliverLine n m short seq start margin hops sec relayed a0 p).lin.epoch = s.lin.epoch := by
  unfold State.deliverLine
  split <;> simp

@[simp] theorem State.lineRelay_epoch (s : State) (n m src start margin : Nat) (p : List Byte) :
    (s.lineRelay n m src start margin p).lin.epoch = s.lin.epoch := by
  simp only [State.lineRelay]
  (repeat' split) <;> simp

@[simp] theorem State.lineFrame_epoch (s : State) (n m : Nat) (r : LineRx) (p : List Byte) (energy : Nat) (snr : Int) :
    (s.lineFrame n m r p energy snr).lin.epoch = s.lin.epoch := by
  simp only [State.lineFrame]
  (repeat' split) <;> simp

@[simp] theorem State.rxOver_epoch (s : State) (n m : Nat) (r : LineRx) : (s.rxOver n m r).lin.epoch = s.lin.epoch := by rfl

@[simp] theorem State.ackKnown_epoch (s : State) (n m : Nat) (ok : Bool) : (s.ackKnown n m ok).lin.epoch = s.lin.epoch := by
  simp only [State.ackKnown]
  (repeat' split) <;> simp

@[simp] theorem State.joinRx_epoch (s : State) (n m : Nat) : (s.joinRx n m).lin.epoch = s.lin.epoch := by
  simp only [State.joinRx]
  split <;> simp

@[simp] theorem State.headPassed_epoch (s : State) (n m : Nat) (r : LineRx) : (s.headPassed n m r).lin.epoch = s.lin.epoch := by
  simp [State.headPassed]

@[simp] theorem State.windowMissed_epoch (s : State) (n m : Nat) (c : LineCand) :
    (s.windowMissed n m c).lin.epoch = s.lin.epoch := by
  simp only [State.windowMissed]
  (repeat' split) <;> simp

@[simp] theorem State.countErased_epoch (s : State) (n m mode start : Nat) (map : Option PMap) (d : Int) (l : List DataSlot) :
    (s.countErased n m mode start map d l).lin.epoch = s.lin.epoch := by rfl

@[simp] theorem State.headFails_epoch (s : State) (n m : Nat) (c : LineCand) : (s.headFails n m c).lin.epoch = s.lin.epoch := by
  simp only [State.headFails]
  (repeat' split) <;> simp

@[simp] theorem State.headWins_epoch (s : State) (n m : Nat) (r : LineRx) (energy : Nat) (snr : Int) :
    (s.headWins n m r energy snr).lin.epoch = s.lin.epoch := by simp [State.headWins]

@[simp] theorem State.headsDone_epoch (s : State) (n m : Nat) (l : List (LineCand × Option LineRx)) (energy : Nat) (snr : Int) :
    (s.headsDone n m l energy snr).lin.epoch = s.lin.epoch := by
  unfold State.headsDone
  split <;> simp

@[simp] theorem State.lineHead_epoch (s : State) (n m place : Nat) (soft : List (List SlotSoft)) (rival : Option (List
    (List SlotSoft))) (energy : Nat) (snr : Int) :
    (s.lineHead n m place soft rival energy snr).lin.epoch = s.lin.epoch := by
  unfold State.lineHead
  split <;> simp

@[simp] theorem State.linePayload_epoch (s : State) (n m : Nat) (soft : List SlotSoft) (energy : Nat) (snr : Int) :
    (s.linePayload n m soft energy snr).lin.epoch = s.lin.epoch := by
  simp only [State.linePayload]
  (repeat' split) <;> simp

@[simp] theorem State.serveNodeList_epoch (s : State) (f : Flight) :
    (s.serveNodeList f).lin.epoch = s.lin.epoch := by simp [State.serveNodeList]

@[simp] theorem State.serveNodeGet_epoch (s : State) (f : Flight) : (s.serveNodeGet f).lin.epoch = s.lin.epoch := by
  unfold State.serveNodeGet
  (repeat' split) <;> simp

@[simp] theorem State.removeNode_epoch (s : State) (short : Nat) (y : Node) :
    (s.removeNode short y).lin.epoch = s.lin.epoch := by simp [State.removeNode]

@[simp] theorem State.serveNodeRemove_epoch (s : State) (f : Flight) : (s.serveNodeRemove f).lin.epoch = s.lin.epoch := by
  simp only [State.serveNodeRemove]
  (repeat' split) <;> simp

@[simp] theorem State.servePortStats_epoch (s : State) (f : Flight) :
    (s.servePortStats f).lin.epoch = s.lin.epoch := by simp [State.servePortStats]

/-! ## Air ports: the physical layer (09) -/

@[simp] theorem State.takeAir_epoch (s : State) (n m : Nat) (outs : List AirOut) :
    (s.takeAir n m outs).lin.epoch = s.lin.epoch := by simp [State.takeAir]

/-! ## Air ports: duty and links (09, 10) -/

@[simp] theorem State.writeDuty_epoch (s : State) (a : Nat) (waiter : Option Nat) :
    (s.writeDuty a waiter).lin.epoch = s.lin.epoch := by rfl

@[simp] theorem State.chargeDuty_epoch (s : State) (a us : Nat) : (s.chargeDuty a us).lin.epoch = s.lin.epoch := by rfl

@[simp] theorem State.dutyCheck_epoch (s : State) (n m us : Nat) (ack : Bool) (waiter : Option Nat) :
    (s.dutyCheck n m us ack waiter).1.lin.epoch = s.lin.epoch := by
  simp only [State.dutyCheck]
  (repeat' split) <;> simp

@[simp] theorem State.applyChan_epoch (s : State) (n m : Nat) :
    (s.applyChan n m).lin.epoch = s.lin.epoch := by simp [State.applyChan]

@[simp] theorem State.airBoundary_epoch (s : State) (n : Nat) :
    (s.airBoundary n).lin.epoch = s.lin.epoch := by simp [State.airBoundary]

@[simp] theorem State.airGo_epoch (s : State) (n : Nat) : (s.airGo n).lin.epoch = s.lin.epoch := by simp [State.airGo]

@[simp] theorem State.endReceptions_epoch (s : State) (n : Nat) :
    (s.endReceptions n).lin.epoch = s.lin.epoch := by simp [State.endReceptions]

@[simp] theorem State.bringFails_epoch (s : State) (n reason : Nat) : (s.bringFails n reason).lin.epoch = s.lin.epoch := by rfl

@[simp] theorem State.airEnters_epoch (s : State) (n : Nat) : (s.airEnters n).lin.epoch = s.lin.epoch := by simp [State.airEnters]

/-! ## Air ports: transmissions (10) -/

@[simp] theorem State.setSensor_epoch (s : State) (short : Nat) (x : Option Sensor) :
    (s.setSensor short x).lin.epoch = s.lin.epoch := by simp [State.setSensor]

@[simp] theorem State.dropDown_epoch (s : State) (id : Nat) : (s.dropDown id).lin.epoch = s.lin.epoch := by rfl

@[simp] theorem State.addDown_epoch (s : State) (d : AirDown) : (s.addDown d).lin.epoch = s.lin.epoch := by rfl

@[simp] theorem State.airSeq_epoch (s : State) : (s.airSeq).1.lin.epoch = s.lin.epoch := by rfl

@[simp] theorem State.airResult_epoch (s : State) (d : AirDown) (status : Nat) (result : Option Nat) :
    (s.airResult d status result).lin.epoch = s.lin.epoch := by
  unfold State.airResult
  split <;> simp

@[simp] theorem State.noteFail_epoch (s : State) (d : AirDown) : (s.noteFail d).lin.epoch = s.lin.epoch := by
  unfold State.noteFail
  (repeat' split) <;> simp

@[simp] theorem State.setPlan_epoch (s : State) (d : AirDown) (p : AirPlan) : (s.setPlan d p).1.lin.epoch = s.lin.epoch := by
  unfold State.setPlan
  split <;> simp

@[simp] theorem State.nextDown_epoch (s : State) (ext fuel : Nat) : (s.nextDown ext fuel).lin.epoch = s.lin.epoch := by
  induction fuel generalizing s with
  | zero => rfl
  | succ fuel ih =>
    simp only [State.nextDown]
    (repeat' split) <;> simp [ih]

@[simp] theorem State.endDown_epoch (s : State) (d : AirDown) (status : Nat) (result : Option Nat) :
    (s.endDown d status result).lin.epoch = s.lin.epoch := by simp [State.endDown]

@[simp] theorem State.dutyRefused_epoch (s : State) (d : AirDown) : (s.dutyRefused d).lin.epoch = s.lin.epoch := by
  unfold State.dutyRefused
  split <;> simp

@[simp] theorem State.planTry_epoch (s : State) (d : AirDown) : (s.planTry d).lin.epoch = s.lin.epoch := by
  unfold State.planTry
  split <;> simp

@[simp] theorem State.airFailed_epoch (s : State) (d : AirDown) :
    (s.airFailed d).lin.epoch = s.lin.epoch := by simp [State.airFailed]

@[simp] theorem State.cutReceptions_epoch (s : State) (n m : Nat) :
    (s.cutReceptions n m).lin.epoch = s.lin.epoch := by simp [State.cutReceptions]

@[simp] theorem State.airBegin_epoch (s : State) (n m : Nat) (what : AirWhat) (start pre : Nat) (four dw : Bool)
    (mac : List Byte) :
    (s.airBegin n m what start pre four dw mac).lin.epoch = s.lin.epoch := by simp [State.airBegin]

@[simp] theorem State.sendDown_epoch (s : State) (d : AirDown) (p : AirPlan) :
    (s.sendDown d p).lin.epoch = s.lin.epoch := by simp [State.sendDown]

@[simp] theorem State.relisten_epoch (s : State) (n : Nat) : (s.relisten n).lin.epoch = s.lin.epoch :=
  foldl_epoch _ (fun s d => by split <;> simp) _ _

@[simp] theorem State.nextCopy_epoch (s : State) (d : AirDown) (p : AirPlan) (fin : Nat) :
    (s.nextCopy d p fin).lin.epoch = s.lin.epoch := by
  simp only [State.nextCopy]
  (repeat' split) <;> simp

@[simp] theorem State.nextWake_epoch (s : State) (d : AirDown) : (s.nextWake d).lin.epoch = s.lin.epoch := by
  unfold State.nextWake
  split <;> simp

@[simp] theorem State.skipCopy_epoch (s : State) (d : AirDown) (p : AirPlan) :
    (s.skipCopy d p).lin.epoch = s.lin.epoch := by simp [State.skipCopy]

@[simp] theorem State.skipBeacons_epoch (s : State) (n : Nat) (p : AirDown → Bool) :
    (s.skipBeacons n p).lin.epoch = s.lin.epoch := by simp [State.skipBeacons]

@[simp] theorem State.staleBeacons_epoch (s : State) (n : Nat) :
    (s.staleBeacons n).lin.epoch = s.lin.epoch := by simp [State.staleBeacons]

@[simp] theorem State.startDown_epoch (s : State) (n : Nat) (d : AirDown) (p : AirPlan) :
    (s.startDown n d p).lin.epoch = s.lin.epoch := by
  simp only [State.startDown]
  (repeat' split) <;> simp

@[simp] theorem State.openWindow_epoch (s : State) (ext short n m at_ : Nat) :
    (s.openWindow ext short n m at_).lin.epoch = s.lin.epoch := by
  simp only [State.openWindow]
  split <;> simp

@[simp] theorem State.downSent_epoch (s : State) (id start fin : Nat) : (s.downSent id start fin).lin.epoch = s.lin.epoch := by
  simp only [State.downSent]
  (repeat' split) <;> simp

@[simp] theorem State.airDownlink_epoch (s : State) (f : Flight) (short : Nat) (x : Sensor) :
    (s.airDownlink f short x).lin.epoch = s.lin.epoch := by simp [State.airDownlink]

@[simp] theorem State.airSealed_epoch (s : State) (id status : Nat) (nonce out : List Byte) :
    (s.airSealed id status nonce out).lin.epoch = s.lin.epoch := by
  unfold State.airSealed
  split <;> simp

@[simp] theorem State.serveAirDownlink_epoch (s : State) (f : Flight) : (s.serveAirDownlink f).lin.epoch = s.lin.epoch := by
  simp only [State.serveAirDownlink]
  (repeat' split) <;> simp

@[simp] theorem State.expireAir_epoch (s : State) (ref : Nat) : (s.expireAir ref).lin.epoch = s.lin.epoch := by
  unfold State.expireAir
  (repeat' split) <;> simp

@[simp] theorem State.cutSends_epoch (s : State) (n : Nat) (sent : Bool) : (s.cutSends n sent).lin.epoch = s.lin.epoch := by
  unfold State.cutSends
  extract_lets p tails s1 copied s2 s3
  have h2 : s2.lin.epoch = s1.lin.epoch := foldl_epoch _ (fun s x => by (repeat' split) <;> simp) _ _
  simp [s3, h2, s1]

@[simp] theorem State.airStart_epoch (s : State) (n : Nat) : (s.airStart n).lin.epoch = s.lin.epoch := by rfl

@[simp] theorem State.airStop_epoch (s : State) (n : Nat) : (s.airStop n).lin.epoch = s.lin.epoch := by simp [State.airStop]

/-! ## Air ports: frames and sensors (10) -/

@[simp] theorem State.airDeliver_epoch (s : State) (kind port chan epoch ns margin : Nat) (f : MacFrame) :
    (s.airDeliver kind port chan epoch ns margin f).lin.epoch = s.lin.epoch := by simp [State.airDeliver]

@[simp] theorem State.sensorHeard_epoch (s : State) (n m ts margin : Nat) (f : MacFrame) :
    (s.sensorHeard n m ts margin f).lin.epoch = s.lin.epoch := by
  unfold State.sensorHeard
  split <;> simp

@[simp] theorem State.answerAssoc_epoch (s : State) (n m ext short status : Nat) :
    (s.answerAssoc n m ext short status).lin.epoch = s.lin.epoch := by rfl

@[simp] theorem State.assocReq_epoch (s : State) (n m ext : Nat) (sleepy : Bool) (wake clk : Nat) :
    (s.assocReq n m ext sleepy wake clk).lin.epoch = s.lin.epoch := by simp [State.assocReq]

@[simp] theorem State.freeEntry_epoch (s : State) (short : Nat) (x : Sensor) :
    (s.freeEntry short x).lin.epoch = s.lin.epoch := by simp [State.freeEntry]

@[simp] theorem State.associated_epoch (s : State) (short ext : Nat) : (s.associated short ext).lin.epoch = s.lin.epoch := by
  unfold State.associated
  split <;> simp

@[simp] theorem State.airCommand_epoch (s : State) (short : Nat) (body : List Byte) :
    (s.airCommand short body).lin.epoch = s.lin.epoch := by
  unfold State.airCommand
  split <;> simp

@[simp] theorem State.airOrder_epoch (s : State) (f : MacFrame) : (s.airOrder f).lin.epoch = s.lin.epoch := by
  unfold State.airOrder
  (repeat' split) <;> simp

@[simp] theorem State.ackDue_epoch (s : State) (n m phr fin margin : Nat) (f : MacFrame) :
    (s.ackDue n m phr fin margin f).lin.epoch = s.lin.epoch := by simp [State.ackDue]

@[simp] theorem State.downAcked_epoch (s : State) (d : AirDown) (fin : Nat) : (s.downAcked d fin).lin.epoch = s.lin.epoch := by
  unfold State.downAcked
  split <;> simp

@[simp] theorem State.airAccepted_epoch (s : State) (n m phr ts fin margin : Nat) (f : MacFrame) :
    (s.airAccepted n m phr ts fin margin f).lin.epoch = s.lin.epoch := by
  unfold State.airAccepted
  split <;> simp

@[simp] theorem State.airFrame_epoch (s : State) (n m phr ts fin margin : Nat) (mac : List Byte) :
    (s.airFrame n m phr ts fin margin mac).lin.epoch = s.lin.epoch := by
  unfold State.airFrame
  (repeat' split) <;> simp

@[simp] theorem State.serveSensorGet_epoch (s : State) (f : Flight) : (s.serveSensorGet f).lin.epoch = s.lin.epoch := by
  simp only [State.serveSensorGet]
  (repeat' split) <;> simp

@[simp] theorem State.serveDisassociate_epoch (s : State) (f : Flight) : (s.serveDisassociate f).lin.epoch = s.lin.epoch := by
  simp only [State.serveDisassociate]
  (repeat' split) <;> simp

@[simp] theorem State.servePendingSet_epoch (s : State) (f : Flight) :
    (s.servePendingSet f).lin.epoch = s.lin.epoch := by simp [State.servePendingSet]

@[simp] theorem State.serveDutyRead_epoch (s : State) (f : Flight) :
    (s.serveDutyRead f).lin.epoch = s.lin.epoch := by simp [State.serveDutyRead]

@[simp] theorem State.serveDigestSet_epoch (s : State) (f : Flight) : (s.serveDigestSet f).lin.epoch = s.lin.epoch := by
  simp only [State.serveDigestSet]
  (repeat' split) <;> simp

/-! ## Soft combining (12) -/

@[simp] theorem State.deliverNoHome_epoch (s : State) (cepoch cns margin : Nat) (mac : List Byte) :
    (s.deliverNoHome cepoch cns margin mac).lin.epoch = s.lin.epoch := by
  unfold State.deliverNoHome
  split <;> simp

@[simp] theorem State.addDigest_epoch (s : State) (short : Nat) (x : Sensor) (seq margin : Nat) :
    (s.addDigest short x seq margin).lin.epoch = s.lin.epoch := by
  simp only [State.addDigest]
  (repeat' split) <;> simp

@[simp] theorem State.deliverHome_epoch (s : State) (cepoch cns ext margin : Nat) (mac : List Byte) :
    (s.deliverHome cepoch cns ext margin mac).1.lin.epoch = s.lin.epoch := by
  simp only [State.deliverHome]
  (repeat' split) <;> simp

@[simp] theorem State.resultNoHome_epoch (s : State) (b : List Byte) :
    (s.resultNoHome b).lin.epoch = s.lin.epoch := by simp [State.resultNoHome]

@[simp] theorem State.resultHome_epoch (s : State) (b : List Byte) :
    (s.resultHome b).1.lin.epoch = s.lin.epoch := by simp [State.resultHome]

@[simp] theorem State.sendResult_epoch (s : State) (g : Machine.Group) (mac : List Byte) :
    (s.sendResult g mac).lin.epoch = s.lin.epoch := by
  unfold State.sendResult
  split <;> simp

@[simp] theorem State.checkGroup_epoch (s : State) (g : Machine.Group) :
    (s.checkGroup g).lin.epoch = s.lin.epoch := by simp [State.checkGroup]

@[simp] theorem State.tryGroup_epoch (s : State) (g : Machine.Group) : (s.tryGroup g).lin.epoch = s.lin.epoch := by
  simp only [State.tryGroup]
  (repeat' split) <;> simp

@[simp] theorem State.attemptDue_epoch (s : State) (num : Nat) : (s.attemptDue num).lin.epoch = s.lin.epoch := by
  unfold State.attemptDue
  split <;> simp

@[simp] theorem State.copyGone_epoch (s : State) (station rxid : Nat) :
    (s.copyGone station rxid).lin.epoch = s.lin.epoch := by rfl

@[simp] theorem State.enterCopy_epoch (s : State) (station : Nat) (h : ScHead) :
    (s.enterCopy station h).1.lin.epoch = s.lin.epoch := by
  simp only [State.enterCopy]
  (repeat' split) <;> simp

@[simp] theorem State.putPlane_epoch (s : State) (num station rxid plane off : Nat) (data : List Byte) :
    (s.putPlane num station rxid plane off data).lin.epoch = s.lin.epoch := by
  unfold State.putPlane
  split <;> simp

@[simp] theorem State.fragment_epoch (s : State) (station : Nat) (b : List Byte) :
    (s.fragment station b).lin.epoch = s.lin.epoch := by
  simp only [State.fragment]
  have h := s.enterCopy_epoch station (scHead b)
  (repeat' split) <;> simp_all

@[simp] theorem State.dropResult_epoch (s : State) (r : ScSend) : (s.dropResult r).lin.epoch = s.lin.epoch := by rfl

@[simp] theorem State.scForward_epoch (s : State) (n m phr ts : Nat) (soft : List Int) (snr : Int) :
    (s.scForward n m phr ts soft snr).lin.epoch = s.lin.epoch := by
  unfold State.scForward
  extract_lets minSnr len raw hard planes rxid phy head sc u v h
  have hv : v.lin.epoch = s.lin.epoch := by simp [v, u]
  have he := v.enterCopy_epoch v.station h
  split; · rfl
  split
  · split <;> simp_all
  · split <;> simp [hv]

/-! ## Air ports: receptions (09) -/

@[simp] theorem State.holdAir_epoch (s : State) (n m : Nat) (c : AirCand) : (s.holdAir n m c).lin.epoch = s.lin.epoch := by rfl

@[simp] theorem State.dropAir_epoch (s : State) (n m : Nat) (c : AirCand) : (s.dropAir n m c).lin.epoch = s.lin.epoch := by rfl

@[simp] theorem State.preemptAir_epoch (s : State) (n m : Nat) (old : List AirCand) (c : AirCand) :
    (s.preemptAir n m old c).lin.epoch = s.lin.epoch := by simp [State.preemptAir]

@[simp] theorem State.newAir_epoch (s : State) (n m : Nat) (c : AirCand) : (s.newAir n m c).lin.epoch = s.lin.epoch := by
  unfold State.newAir
  split
  next u h => simp [s.place_epoch u _ h]
  next => simp

@[simp] theorem State.airPeak_epoch (s : State) (n m : Nat) (metric : Nat × Nat) (ts : Nat) :
    (s.airPeak n m metric ts).lin.epoch = s.lin.epoch := by
  simp only [State.airPeak]
  (repeat' split) <;> simp

@[simp] theorem State.phrsDone_epoch (s : State) (n m : Nat) (l : List (AirCand × Nat)) :
    (s.phrsDone n m l).lin.epoch = s.lin.epoch := by
  simp only [State.phrsDone]
  split <;> simp

@[simp] theorem State.airPhr_epoch (s : State) (n m place phr : Nat) (rival : Option Nat) :
    (s.airPhr n m place phr rival).lin.epoch = s.lin.epoch := by
  unfold State.airPhr
  split <;> simp

@[simp] theorem State.airFcs_epoch (s : State) (n m : Nat) (soft : List Int) (snr : Int) :
    (s.airFcs n m soft snr).lin.epoch = s.lin.epoch := by
  unfold State.airFcs
  (repeat' split) <;> simp

/-! ## Ethernet ports (18) -/

@[simp] theorem State.ethTake_epoch (s : State) (p : Nat) : (s.ethTake p).lin.epoch = s.lin.epoch := by rfl

@[simp] theorem State.moveSessions_epoch (s : State) (p : Nat) : (s.moveSessions p).lin.epoch = s.lin.epoch := by rfl

@[simp] theorem State.moveQueues_epoch (s : State) (p : Nat) : (s.moveQueues p).lin.epoch = s.lin.epoch := by rfl

@[simp] theorem State.linkEvent_epoch (s : State) (code p reason : Nat) :
    (s.linkEvent code p reason).lin.epoch = s.lin.epoch := by simp [State.linkEvent]

@[simp] theorem State.failover_epoch (s : State) (p detect moved interrupt : Nat) :
    (s.failover p detect moved interrupt).lin.epoch = s.lin.epoch := by simp [State.failover]

@[simp] theorem State.bothDown_epoch (s : State) (p detect : Nat) :
    (s.bothDown p detect).lin.epoch = s.lin.epoch := by simp [State.bothDown]

@[simp] theorem State.portDown_epoch (s : State) (p reason detect interrupt : Nat) :
    (s.portDown p reason detect interrupt).lin.epoch = s.lin.epoch := by simp [State.portDown]

@[simp] theorem State.sendWaiting_epoch (s : State) : s.sendWaiting.lin.epoch = s.lin.epoch := by simp [State.sendWaiting]

@[simp] theorem State.unmasked_epoch (s : State) (block inst kind detect ctxs index : Nat) :
    (s.unmasked block inst kind detect ctxs index).lin.epoch = s.lin.epoch := by simp [State.unmasked]

@[simp] theorem State.portsBack_epoch (s : State) : s.portsBack.lin.epoch = s.lin.epoch := by
  unfold State.portsBack
  split <;> simp

@[simp] theorem State.seamBack_epoch (s : State) : s.seamBack.lin.epoch = s.lin.epoch := by simp [State.seamBack]

@[simp] theorem State.portUp_epoch (s : State) (p : Nat) : (s.portUp p).lin.epoch = s.lin.epoch := by simp [State.portUp]

@[simp] theorem State.ethEnable_epoch (s : State) (p : Nat) : (s.ethEnable p).lin.epoch = s.lin.epoch := by rfl

@[simp] theorem State.ethDisable_epoch (s : State) (p : Nat) :
    (s.ethDisable p).lin.epoch = s.lin.epoch := by simp [State.ethDisable]

@[simp] theorem State.sendPause_epoch (s : State) (port prio quanta : Nat) :
    (s.sendPause port prio quanta).lin.epoch = s.lin.epoch := by rfl

/-! ## Captures (04) -/

@[simp] theorem State.serveCapStart_epoch (s : State) (f : Flight) : (s.serveCapStart f).lin.epoch = s.lin.epoch := by
  unfold State.serveCapStart
  split <;> simp

@[simp] theorem State.serveCapStop_epoch (s : State) (f : Flight) : (s.serveCapStop f).lin.epoch = s.lin.epoch := by
  unfold State.serveCapStop
  (repeat' split) <;> simp

@[simp] theorem State.captureBlock_epoch (s : State) (c : Capture) (x : Session) (ns : Nat) (samples : List Byte) :
    (s.captureBlock c x ns samples).lin.epoch = s.lin.epoch := by simp [State.captureBlock]

/-! ## Fault masking (13) -/

@[simp] theorem State.endCtx_epoch (s : State) (c : Ctx) : (s.endCtx c).lin.epoch = s.lin.epoch := by
  simp only [State.endCtx]
  (repeat' split) <;> simp

@[simp] theorem State.failEngine_epoch (s : State) (n by_ : Nat) : (s.failEngine n by_).lin.epoch = s.lin.epoch := by rfl

@[simp] theorem State.loseEngine_epoch (s : State) (n detect target : Nat) (cs : List Ctx) :
    (s.loseEngine n detect target cs).lin.epoch = s.lin.epoch := by simp [State.loseEngine]

@[simp] theorem State.patchIn_epoch (s : State) (e : Engine) (j : Nat) (p : Patch) (c old : Option Ckpt) :
    (s.patchIn e j p c old).lin.epoch = s.lin.epoch := by simp [State.patchIn]

@[simp] theorem State.engineFault_epoch (s : State) (n detect fault : Nat) (bad : Bool) :
    (s.engineFault n detect fault bad).lin.epoch = s.lin.epoch := by
  simp only [State.engineFault]
  (repeat' split) <;> simp

@[simp] theorem Input.run_epoch (i : Input) (s : State) : (Input.run i s).lin.epoch = s.lin.epoch := by
  unfold Input.run
  split <;> simp

@[simp] theorem State.replay_epoch (n : Nat) (s : State) (h : HeldInput) : (State.replay n s h).lin.epoch = s.lin.epoch := by
  unfold State.replay
  split <;> simp

@[simp] theorem State.drainOne_epoch (s : State) : s.drainOne.lin.epoch = s.lin.epoch := by
  unfold State.drainOne
  split <;> simp

@[simp] theorem State.undrainOne_epoch (s : State) : s.undrainOne.lin.epoch = s.lin.epoch := by
  unfold State.undrainOne
  (repeat' split) <;> simp

@[simp] theorem State.meetTarget_epoch (s : State) : s.meetTarget.lin.epoch = s.lin.epoch := by simp [State.meetTarget]

@[simp] theorem State.powerTest_epoch (s : State) (failed : List Nat) :
    (s.powerTest failed).lin.epoch = s.lin.epoch := by simp [State.powerTest]

@[simp] theorem State.testPair_epoch (s : State) (n : Nat) : (s.testPair n).lin.epoch = s.lin.epoch := by rfl

@[simp] theorem State.takeFlight_epoch (s : State) (f : Flight) : (s.takeFlight f).lin.epoch = s.lin.epoch := by
  unfold State.takeFlight
  split <;> simp

@[simp] theorem State.pairTakes_epoch (s : State) (n : Nat) : (s.pairTakes n).lin.epoch = s.lin.epoch := by simp [State.pairTakes]

@[simp] theorem State.pairFault_epoch (s : State) (n detect interrupt : Nat) :
    (s.pairFault n detect interrupt).lin.epoch = s.lin.epoch := by
  simp only [State.pairFault]
  (repeat' split) <;> simp

@[simp] theorem State.standbyFault_epoch (s : State) (n detect : Nat) :
    (s.standbyFault n detect).lin.epoch = s.lin.epoch := by simp [State.standbyFault]

@[simp] theorem State.pairBack_epoch (s : State) (n : Nat) : (s.pairBack n).lin.epoch = s.lin.epoch := by
  simp only [State.pairBack]
  (repeat' split) <;> simp

@[simp] theorem State.retireCore_epoch (s : State) (n : Nat) : (s.retireCore n).lin.epoch = s.lin.epoch := by rfl

@[simp] theorem State.corrected_epoch (s : State) (a : Nat) : (s.corrected a).lin.epoch = s.lin.epoch := by simp [State.corrected]

@[simp] theorem State.logMerged_epoch (s : State) : s.logMerged.lin.epoch = s.lin.epoch := by simp [State.logMerged]

@[simp] theorem State.serveFaultLog_epoch (s : State) (f : Flight) :
    (s.serveFaultLog f).lin.epoch = s.lin.epoch := by simp [State.serveFaultLog]

@[simp] theorem State.serveEngine_epoch (s : State) (f : Flight) :
    (s.serveEngine f).lin.epoch = s.lin.epoch := by simp [State.serveEngine]

@[simp] theorem State.serveMemdesc_epoch (s : State) (f : Flight) :
    (s.serveMemdesc f).lin.epoch = s.lin.epoch := by simp [State.serveMemdesc]

@[simp] theorem State.injectEngine_epoch (s : State) (n : Nat) :
    (s.injectEngine n).lin.epoch = s.lin.epoch := by simp [State.injectEngine]

@[simp] theorem State.injectPair_epoch (s : State) (n : Nat) : (s.injectPair n).lin.epoch = s.lin.epoch := by
  unfold State.injectPair
  split <;> simp

@[simp] theorem State.injectPort_epoch (s : State) (n : Nat) :
    (s.injectPort n).lin.epoch = s.lin.epoch := by simp [State.injectPort]

@[simp] theorem State.inject_epoch (s : State) (kind target : Nat) : (s.inject kind target).lin.epoch = s.lin.epoch := by
  unfold State.inject
  split <;> simp

/-! ## Jobs of frames (14) -/

@[simp] theorem State.jobUsed_epoch (s : State) (j : Job) (st : Nat) (out : List Byte) :
    (s.jobUsed j st out).lin.epoch = s.lin.epoch := by
  unfold State.jobUsed
  split <;> simp

/-! ## Current loops (16) -/

@[simp] theorem State.loopFault_epoch (s : State) (n state cause : Nat) :
    (s.loopFault n state cause).lin.epoch = s.lin.epoch := by simp [State.loopFault]

@[simp] theorem State.loopEval_epoch (s : State) (n : Nat) : (s.loopEval n).lin.epoch = s.lin.epoch := by simp [State.loopEval]

@[simp] theorem State.loopFollow_epoch (s : State) (n : Nat) :
    (s.loopFollow n).lin.epoch = s.lin.epoch := by simp [State.loopFollow]

@[simp] theorem State.loopWritten_epoch (s old : State) (n : Nat) :
    (s.loopWritten old n).lin.epoch = s.lin.epoch := by simp [State.loopWritten]

@[simp] theorem State.loopsBreak_epoch (s : State) (x : Nat) :
    (s.loopsBreak x).lin.epoch = s.lin.epoch := by simp [State.loopsBreak]

@[simp] theorem State.loopsOutput_epoch (s : State) (e : Nat) (opened range : Bool) :
    (s.loopsOutput e opened range).lin.epoch = s.lin.epoch := by simp [State.loopsOutput]

@[simp] theorem State.serveLoopSet_epoch (s : State) (f : Flight) :
    (s.serveLoopSet f).lin.epoch = s.lin.epoch := by simp [State.serveLoopSet]

@[simp] theorem State.serveCurveInfo_epoch (s : State) (f : Flight) : (s.serveCurveInfo f).lin.epoch = s.lin.epoch := by
  simp only [State.serveCurveInfo]
  (repeat' split) <;> simp

/-! ## The filter chain (17) -/

@[simp] theorem State.restartChan_epoch (s : State) (e : Nat) (counted : Bool) :
    (s.restartChan e counted).lin.epoch = s.lin.epoch := by simp [State.restartChan]

@[simp] theorem State.visitIn_epoch (s : State) (e : Nat) (v : Visit) :
    (s.visitIn e v).lin.epoch = s.lin.epoch := by simp [State.visitIn]

@[simp] theorem State.chanBoundary_epoch (s : State) (e : Nat) :
    (s.chanBoundary e).lin.epoch = s.lin.epoch := by simp [State.chanBoundary]

@[simp] theorem State.idleChans_epoch (s : State) : s.idleChans.lin.epoch = s.lin.epoch := by simp [State.idleChans]

@[simp] theorem State.fltGo_epoch (s : State) : s.fltGo.lin.epoch = s.lin.epoch := by simp [State.fltGo]

@[simp] theorem State.strmStart_epoch (s : State) : s.strmStart.lin.epoch = s.lin.epoch := by rfl

@[simp] theorem State.strmPut_epoch (s : State) (e q g : Nat) (v x : Int) :
    (s.strmPut e q g v x).lin.epoch = s.lin.epoch := by simp [State.strmPut]

@[simp] theorem State.prune_epoch (s : State) (e : Nat) : (s.prune e).lin.epoch = s.lin.epoch := by
  simp only [State.prune]
  (repeat' split) <;> simp

@[simp] theorem State.output_epoch (s : State) (e g p : Nat) : (s.output e g p).lin.epoch = s.lin.epoch := by simp [State.output]

@[simp] theorem State.serveResults_epoch (s : State) (f : Flight) :
    (s.serveResults f).lin.epoch = s.lin.epoch := by simp [State.serveResults]

/-! ## The site front end (16) -/

@[simp] theorem State.startVisit_epoch (s : State) (e v : Nat) : (s.startVisit e v).lin.epoch = s.lin.epoch := by rfl

@[simp] theorem State.forgetTriggers_epoch (s : State) : s.forgetTriggers.lin.epoch = s.lin.epoch := by rfl

@[simp] theorem State.cnvBoundary_epoch (s : State) : s.cnvBoundary.lin.epoch = s.lin.epoch := by simp [State.cnvBoundary]

@[simp] theorem State.cnvGo_epoch (s : State) : s.cnvGo.lin.epoch = s.lin.epoch := by simp [State.cnvGo]

@[simp] theorem State.cnvEnable_epoch (s : State) : s.cnvEnable.lin.epoch = s.lin.epoch := by simp [State.cnvEnable]

@[simp] theorem State.cnvDisable_epoch (s : State) : s.cnvDisable.lin.epoch = s.lin.epoch := by simp [State.cnvDisable]

@[simp] theorem State.trigger_epoch (s : State) (f : Nat) : (s.trigger f).lin.epoch = s.lin.epoch := by simp [State.trigger]

@[simp] theorem State.refEnable_epoch (s : State) : s.refEnable.lin.epoch = s.lin.epoch := by rfl

@[simp] theorem State.rawSample_epoch (s : State) (codes : List Int) :
    (s.rawSample codes).lin.epoch = s.lin.epoch := by simp [State.rawSample]

@[simp] theorem State.sequenceEnd_epoch (s : State) (fin : Nat) :
    (s.sequenceEnd fin).lin.epoch = s.lin.epoch := by simp [State.sequenceEnd]

@[simp] theorem State.dwellDone_epoch (s : State) : s.dwellDone.lin.epoch = s.lin.epoch := by simp [State.dwellDone]

@[simp] theorem State.wireEvent_epoch (s : State) (n state side cur : Nat) :
    (s.wireEvent n state side cur).lin.epoch = s.lin.epoch := by simp [State.wireEvent]

@[simp] theorem State.markOpen_epoch (s : State) (n a : Nat) :
    (s.markOpen n a).lin.epoch = s.lin.epoch := by simp [State.markOpen]

@[simp] theorem State.wireBreak_epoch (s : State) (n side cur : Nat) :
    (s.wireBreak n side cur).lin.epoch = s.lin.epoch := by simp [State.wireBreak]

/-! ## Spools (15) -/

@[simp] theorem State.foldJobs_epoch (s : State) (d : SpoolDesc) :
    (s.foldJobs d).lin.epoch = s.lin.epoch := by simp [State.foldJobs]

@[simp] theorem State.putSp_epoch (s : State) (n : Nat) (x : Spool) (read write : Bool) :
    (s.putSp n x read write).lin.epoch = s.lin.epoch := by rfl

@[simp] theorem State.splBoundary_epoch (s : State) (n : Nat) :
    (s.splBoundary n).lin.epoch = s.lin.epoch := by simp [State.splBoundary]

@[simp] theorem State.splGo_epoch (s : State) (n : Nat) : (s.splGo n).lin.epoch = s.lin.epoch := by simp [State.splGo]

@[simp] theorem State.spoolStopped_epoch (s : State) (n stop : Nat) :
    (s.spoolStopped n stop).lin.epoch = s.lin.epoch := by simp [State.spoolStopped]

@[simp] theorem State.readDesc_epoch (s : State) (n : Nat) : (s.readDesc n).lin.epoch = s.lin.epoch := by simp [State.readDesc]

@[simp] theorem State.spoolStart_epoch (s : State) (n : Nat) :
    (s.spoolStart n).lin.epoch = s.lin.epoch := by simp [State.spoolStart]

@[simp] theorem State.laidRing_epoch (s : State) (n : Nat) : (s.laidRing n).lin.epoch = s.lin.epoch := by simp [State.laidRing]

@[simp] theorem State.spoolStop_epoch (s : State) (n : Nat) : (s.spoolStop n).lin.epoch = s.lin.epoch := by simp [State.spoolStop]

@[simp] theorem State.land_epoch (s : State) (l : List (Nat × List Byte)) :
    (s.land l).lin.epoch = s.lin.epoch := by simp [State.land]

@[simp] theorem State.writeDesc_epoch (s : State) (a : Nat) (tail ctrl : List Byte) :
    (s.writeDesc a tail ctrl).lin.epoch = s.lin.epoch := by rfl

@[simp] theorem State.putBack_epoch (s : State) (n : Nat) (d : SpoolDesc) (status : Nat) (check : List Byte) :
    (s.putBack n d status check).lin.epoch = s.lin.epoch := by simp [State.putBack]

@[simp] theorem State.spoolKill_epoch (s : State) (n : Nat) : (s.spoolKill n).lin.epoch = s.lin.epoch := by simp [State.spoolKill]

@[simp] theorem State.doorbell_epoch (s : State) (n : Nat) : (s.doorbell n).lin.epoch = s.lin.epoch := by simp [State.doorbell]

@[simp] theorem State.readBurst_epoch (s : State) (n : Nat) : (s.readBurst n).lin.epoch = s.lin.epoch := by
  simp only [State.readBurst]
  (repeat' split) <;> simp

@[simp] theorem State.writeBurst_epoch (s : State) (n : Nat) : (s.writeBurst n).lin.epoch = s.lin.epoch := by
  simp only [State.writeBurst]
  (repeat' split) <;> simp

@[simp] theorem State.spoolSignal_epoch (s : State) (n idx status : Nat) :
    (s.spoolSignal n idx status).lin.epoch = s.lin.epoch := by simp [State.spoolSignal]

@[simp] theorem State.spoolError_epoch (s : State) (n status stop : Nat) :
    (s.spoolError n status stop).lin.epoch = s.lin.epoch := by simp [State.spoolError]

@[simp] theorem State.writeBack_epoch (s : State) (n : Nat) (d : SpoolDesc) (status : Nat) (check : List Byte) :
    (s.writeBack n d status check).lin.epoch = s.lin.epoch := by simp [State.writeBack]

/-! ## Reset, the lining and the start sequence (02) -/

@[simp] theorem Lining.store_epoch (l : Lining) (r : LinRec) : (l.store r).epoch = l.epoch := by
  cases r <;> rfl

@[simp] theorem State.storeRec_epoch (s : State) (r : LinRec) : (s.storeRec r).lin.epoch = s.lin.epoch := Lining.store_epoch _ _

@[simp] theorem State.recDone_epoch (s : State) (w : LinWrite) : (s.recDone w).lin.epoch = s.lin.epoch := by
  simp only [State.recDone]
  (repeat' split) <;> simp

@[simp] theorem State.undriven_epoch (s : State) : s.undriven.lin.epoch = s.lin.epoch := by rfl

@[simp] theorem State.halt_epoch (s : State) : s.halt.lin.epoch = s.lin.epoch := by
  unfold State.halt
  split <;> simp

@[simp] theorem State.restartDue_epoch (s : State) : s.restartDue.lin.epoch = s.lin.epoch := by simp [State.restartDue]

@[simp] theorem State.askRestart_epoch (s : State) : s.askRestart.lin.epoch = s.lin.epoch := by simp [State.askRestart]

@[simp] theorem State.wears_epoch (s : State) (wear : Nat) : (s.wears wear).lin.epoch = s.lin.epoch := by simp [State.wears]

@[simp] theorem State.writeDone_epoch (s : State) : s.writeDone.lin.epoch = s.lin.epoch := by
  unfold State.writeDone
  split <;> simp

@[simp] theorem State.armFactory_epoch (s : State) (on : Bool) :
    (s.armFactory on).lin.epoch = s.lin.epoch := by simp [State.armFactory]

@[simp] theorem State.bankGo_epoch (s : State) (bank : Nat) : (s.bankGo bank).lin.epoch = s.lin.epoch := by rfl

@[simp] theorem State.bankDone_epoch (s : State) (w : BankWrite) :
    (s.bankDone w).lin.epoch = s.lin.epoch := by simp [State.bankDone]

@[simp] theorem State.bare_lin (s : State) (l : Lining) : (s.bare l).lin = l := rfl

@[simp] theorem State.checkBank_epoch (s : State) (b : Bank) :
    (s.checkBank b).lin.epoch = s.lin.epoch := by simp [State.checkBank]

@[simp] theorem State.boot_epoch (s : State) : s.boot.lin.epoch = s.lin.epoch := by simp [State.boot]

@[simp] theorem State.startAlarms_epoch (s : State) (mesh sealBad : Bool) :
    (s.startAlarms mesh sealBad).lin.epoch = s.lin.epoch := by simp [State.startAlarms]

@[simp] theorem State.loadKeys_epoch (s : State) : s.loadKeys.lin.epoch = s.lin.epoch := by simp [State.loadKeys]

@[simp] theorem State.loadDuty_epoch (s : State) (a : Nat) : (s.loadDuty a).lin.epoch = s.lin.epoch := by simp [State.loadDuty]

@[simp] theorem State.mnsStart_epoch (s : State) : s.mnsStart.lin.epoch = s.lin.epoch := by simp [State.mnsStart]

@[simp] theorem State.startBlocks_epoch (s : State) : s.startBlocks.lin.epoch = s.lin.epoch := by
  unfold State.startBlocks
  simp

@[simp] theorem State.running_epoch (s : State) : s.running.lin.epoch = s.lin.epoch := by simp [State.running]

theorem Lining.starts_epoch (l : Lining) : l.starts.epoch = min (l.epoch + 1) 0xFFFFFFFF := by
  unfold Lining.starts
  split <;> rfl

theorem Lining.wiped_epoch (l : Lining) : l.wiped.epoch = l.epoch := by
  unfold Lining.wiped
  split <;> rfl

theorem epoch_of_power {s u : State} {t : Nat} {p : Power} (h : u = { s with now := t, pow := p }) :
    u.lin.epoch = s.lin.epoch := by
  rw [h]

theorem State.start_epoch (s : State) (mesh sealBad : Bool) :
    (s.start mesh sealBad).lin.epoch = min (s.lin.epoch + 1) 0xFFFFFFFF := by
  unfold State.start
  extract_lets first factory s₁ s₂ s₃ pow s₄ s₅ s₆ s₇
  have e₁ : s₁ = s.bare s.lin.starts.wiped := rfl
  have e₂ : ∃ t p, s₂ = { s₁ with now := t, pow := p } := ⟨_, _, rfl⟩
  have e₃ : s₃ = (s₂.startAlarms mesh sealBad).boot := rfl
  have e₄ : ∃ t p, s₄ = { s₃ with now := t, pow := p } := ⟨_, _, rfl⟩
  have e₅ : s₅ = (List.range 16).foldl (fun s a => s.loadDuty a) s₄.loadKeys := rfl
  have e₆ : s₆ = s₅.startBlocks := rfl
  have e₇ : ∃ t p, s₇ = { s₆ with now := t, pow := p } := ⟨_, _, rfl⟩
  clear_value s₇ s₆ s₅ s₄ s₃ s₂ s₁
  obtain ⟨_, _, e₂⟩ := e₂
  obtain ⟨_, _, e₄⟩ := e₄
  obtain ⟨_, _, e₇⟩ := e₇
  rw [State.ethTake_epoch, State.ethTake_epoch, epoch_of_power e₇, e₆, State.startBlocks_epoch, e₅,
    foldl_epoch _ State.loadDuty_epoch, State.loadKeys_epoch, epoch_of_power e₄, e₃, State.boot_epoch,
    State.startAlarms_epoch, epoch_of_power e₂, e₁, State.bare_lin, Lining.wiped_epoch, Lining.starts_epoch]

/-! ## The configuration space and memory (04) -/

@[simp] theorem State.readReg_epoch (s : State) (slot gen arrived : Nat) (r : Fam × Nat × Nat) :
    (s.readReg slot gen arrived r).1.lin.epoch = s.lin.epoch := by
  unfold State.readReg
  split <;> simp

@[simp] theorem State.mnsGo_epoch (s : State) : s.mnsGo.lin.epoch = s.lin.epoch := by simp [State.mnsGo]

@[simp] theorem State.startHandOver_epoch (s : State) (c : Fam) (i : Nat) : (s.startHandOver c i).lin.epoch = s.lin.epoch := by
  unfold State.startHandOver
  split <;> simp

@[simp] theorem State.commitGo_epoch (s : State) (c : Fam) (i : Nat) :
    (s.commitGo c i).lin.epoch = s.lin.epoch := by simp [State.commitGo]

@[simp] theorem State.commitDiscard_epoch (s : State) (c : Fam) (i : Nat) :
    (s.commitDiscard c i).lin.epoch = s.lin.epoch := by rfl

@[simp] theorem State.commitBoundary_epoch (s : State) (c : Fam) (i : Nat) : (s.commitBoundary c i).lin.epoch = s.lin.epoch := by
  unfold State.commitBoundary
  split <;> simp

@[simp] theorem State.spoolCtl_epoch (s : State) (w : RegWrite) :
    (s.spoolCtl w).lin.epoch = s.lin.epoch := by simp [State.spoolCtl]

@[simp] theorem State.commitWrite_epoch (s : State) (w : RegWrite) :
    (s.commitWrite w).lin.epoch = s.lin.epoch := by simp [State.commitWrite]

@[simp] theorem State.discoverAnew_epoch (s : State) (n : Nat) : (s.discoverAnew n).lin.epoch = s.lin.epoch := by rfl

@[simp] theorem State.hookPorts_epoch (s old : State) (w : RegWrite) : (s.hookPorts old w).lin.epoch = s.lin.epoch := by
  unfold State.hookPorts
  split <;> simp

@[simp] theorem State.hookUnits_epoch (s old : State) (w : RegWrite) : (s.hookUnits old w).lin.epoch = s.lin.epoch := by
  unfold State.hookUnits
  split <;> simp

@[simp] theorem State.writeCarrier_epoch (s : State) (w : RegWrite) : (s.writeCarrier w).lin.epoch = s.lin.epoch := by rfl

@[simp] theorem State.writeReg_epoch (s : State) (w : RegWrite) :
    (s.writeReg w).lin.epoch = s.lin.epoch := by simp [State.writeReg]

@[simp] theorem State.writeAll_epoch (s : State) (l : List RegWrite) :
    (s.writeAll l).lin.epoch = s.lin.epoch := by simp [State.writeAll]

@[simp] theorem State.landOne_epoch (s : State) (p : Posted) : (s.landOne p).lin.epoch = s.lin.epoch := by simp [State.landOne]

@[simp] theorem State.landAll_epoch (s : State) (slot gen : Nat) :
    (s.landAll slot gen).lin.epoch = s.lin.epoch := by simp [State.landAll]

@[simp] theorem State.settle_epoch (s : State) : s.settle.lin.epoch = s.lin.epoch := by simp [State.settle]

@[simp] theorem State.readAll_epoch (s : State) (slot gen arrived : Nat) (l : List (Fam × Nat × Nat)) :
    (s.readAll slot gen arrived l).1.lin.epoch = s.lin.epoch := by
  induction l generalizing s with
  | nil => rfl
  | cons r l ih => simp [State.readAll, ih]

@[simp] theorem State.cfgRead_epoch (s : State) (f : Flight) : (s.cfgRead f).lin.epoch = s.lin.epoch := by
  simp only [State.cfgRead]
  (repeat' split) <;> simp

@[simp] theorem State.applyWrites_epoch (s : State) (f : Flight) (l : List RegWrite) (operand : List Byte) :
    (s.applyWrites f l operand).lin.epoch = s.lin.epoch := by
  simp only [State.applyWrites]
  (repeat' split) <;> simp

@[simp] theorem State.cfgWrite_epoch (s : State) (f : Flight) : (s.cfgWrite f).lin.epoch = s.lin.epoch := by
  simp only [State.cfgWrite]
  (repeat' split) <;> simp

@[simp] theorem State.cfgModify_epoch (s : State) (f : Flight) : (s.cfgModify f).lin.epoch = s.lin.epoch := by
  simp only [State.cfgModify]
  (repeat' split) <;> simp

@[simp] theorem State.waitAnswer_epoch (s : State) (f : Flight) (v : Word) (met : Bool) :
    (s.waitAnswer f v met).lin.epoch = s.lin.epoch := by simp [State.waitAnswer]

@[simp] theorem State.cfgWait_epoch (s : State) (f : Flight) : (s.cfgWait f).lin.epoch = s.lin.epoch := by
  simp only [State.cfgWait]
  (repeat' split) <;> simp

@[simp] theorem State.memRead_epoch (s : State) (fixed : List Nat) (f : Flight) :
    (s.memRead fixed f).lin.epoch = s.lin.epoch := by
  simp only [State.memRead]
  (repeat' split) <;> simp

@[simp] theorem State.memWrite_epoch (s : State) (f : Flight) : (s.memWrite f).lin.epoch = s.lin.epoch := by
  simp only [State.memWrite]
  (repeat' split) <;> simp

@[simp] theorem State.memFence_epoch (s : State) (f : Flight) : (s.memFence f).lin.epoch = s.lin.epoch := by simp [State.memFence]

@[simp] theorem State.runDirect_epoch (s : State) (fixed : List Nat) (f : Flight) :
    (s.runDirect fixed f).lin.epoch = s.lin.epoch := by
  unfold State.runDirect
  split <;> simp

@[simp] theorem State.arriveDirect_epoch (s : State) (m : Inbound) (opcode need : Nat) (fixed : List Nat) :
    (s.arriveDirect m opcode need fixed).lin.epoch = s.lin.epoch := by
  unfold State.arriveDirect
  extract_lets hold
  have h := s.accept_epoch m opcode need true (if hold then .held else .waiting)
  split <;> simp_all

@[simp] theorem State.runHeld_epoch (s : State) (slot gen : Nat) (fixed : List Nat) :
    (s.runHeld slot gen fixed).lin.epoch = s.lin.epoch := by simp [State.runHeld]

@[simp] theorem State.waitRead_epoch (s : State) (w : Wait) (f : Flight) (fixed : List Nat) :
    (s.waitRead w f fixed).lin.epoch = s.lin.epoch := by
  unfold State.waitRead
  split <;> simp

@[simp] theorem State.readRow_epoch (s : State) (slot arrived : Nat) (f : Fam) :
    (s.readRow slot arrived f).lin.epoch = s.lin.epoch := by simp [State.readRow]

/-! ## The steward pair (03) -/

@[simp] theorem State.serve_epoch (s : State) (f : Flight) : (s.serve f).lin.epoch = s.lin.epoch := by
  unfold State.serve
  split <;> simp

/-! ## Commands -/

/-- A command that answers a next state has kept the epoch. -/
def KeepsEpoch (s : State) (r : Host.Outcome State Fault Refusal) : Prop := ∀ u, r = .next u → u.lin.epoch = s.lin.epoch

@[simp] theorem keepsEpoch_next (s u : State) : KeepsEpoch s (.next u) ↔ u.lin.epoch = s.lin.epoch :=
  ⟨fun h => h u rfl, fun h _ e => Host.Outcome.next.inj e ▸ h⟩

theorem whenOn_keepsEpoch (t : Nat) (f : State → State) (s : State) (h : ∀ s, (f s).lin.epoch = s.lin.epoch) :
    KeepsEpoch s (whenOn t f s) := by
  simp [whenOn, h]

theorem seamRx_keepsEpoch (t : Nat) (m : SeamMsg) (f : State → State) (s : State)
    (h : ∀ s, (f s).lin.epoch = s.lin.epoch) : KeepsEpoch s (seamRx t m f s) :=
  whenOn_keepsEpoch _ _ _ fun s => by
    split
    · simp
    · split <;> simp [h]

theorem execDutyBinAdvance_keepsEpoch (t : Nat) (s : State) : KeepsEpoch s (execDutyBinAdvance t s) := by
  have body : ∀ (f : State → State), (∀ s u, f s = u → u.lin.epoch = s.lin.epoch) → KeepsEpoch s (whenOn t f s) :=
    fun f h => whenOn_keepsEpoch _ _ _ fun s => h s _ rfl
  refine body _ fun s u h => ?_
  dsimp only at h
  split at h
  · rw [h]
  · rw [← h, foldl_epoch _ fun s a => by rfl]

theorem execUndefinedCommand_keepsEpoch (t : Nat) (m : Inbound) (session : Bool) (opcode : Nat) (s : State) :
    KeepsEpoch s (execUndefinedCommand t m session opcode s) := by
  refine whenOn_keepsEpoch _ _ _ fun s => ?_
  dsimp only
  split
  · split <;> simp
  split; · simp
  split; · simp
  split; · simp
  split; · simp
  split; · simp
  split
  next u h => simpa using State.tagChecks_epoch _ u _ _ _ h
  next => simp

theorem execSupplyAlarm_keepsEpoch (t supply : Nat) (reading : SupplyReading) (s : State) :
    KeepsEpoch s (execSupplyAlarm t supply reading s) := by
  simp [execSupplyAlarm]

theorem execAlarmCauseRemoved_keepsEpoch (t source : Nat) (s : State) : KeepsEpoch s (execAlarmCauseRemoved t source s) := by
  simp [execAlarmCauseRemoved]

theorem execPorstAssert_keepsEpoch (t : Nat) (s : State) : KeepsEpoch s (execPorstAssert t s) := by
  simp only [execPorstAssert, keepsEpoch_next]
  split <;> simp

/-- Every command but START_SEQUENCE keeps the epoch. Those not named are operations in sequence, each with its rule above. -/
theorem exec_keepsEpoch (c : Instr) (s : State) (hc : ∀ t pins sealBad, c = .startSequence t pins sealBad → False) :
    KeepsEpoch s (exec c s) := by
  cases c <;> dsimp only [exec]
  case startSequence t pins sealBad => exact (hc t pins sealBad rfl).elim
  case cipherJobComplete => exact whenOn_keepsEpoch _ _ _ fun s => by split <;> simp
  case porstAssert => exact execPorstAssert_keepsEpoch _ _
  case dutyBinAdvance => exact execDutyBinAdvance_keepsEpoch _ _
  case undefinedCommand => exact execUndefinedCommand_keepsEpoch _ _ _ _ _
  case supplyAlarm => exact execSupplyAlarm_keepsEpoch _ _ _ _
  case alarmCauseRemoved => exact execAlarmCauseRemoved_keepsEpoch _ _ _
  case bankWriteDone | registerWrite | sessionIdleExpiry | pendingTimeout | cfgWaitComplete | captureDurationEnd |
      captureBlock | commitGo | commitDiscard | commitApply | discoverDue | joinLapse | nodeLost | jesdSyncTimeout |
      airAckWindowEnd | pendingWindowEnd | assocLapse | downlinkExpiry | memberSilent | seamJoinReqDue | mirrorResend |
      mirrorTimeout | delayReqDue | scResultResend | pairFault | standbyFault | cipherJobStart | spoolBurst |
      pfcPauseExpiry | ethFrameDiscard | eventResend | recordResend | stewardDispatch | airAckSend | phaseTargetCheck |
      lbtListenEnd | lbtBackoffEnd | claimResend | faultLogWrite | sequenceTrigger | filterOutput | pfcPauseRefresh =>
    exact whenOn_keepsEpoch _ _ _ fun s => by (repeat' split) <;> simp
  case ackMessage | lineAckStart | lineAckDecision | lineTxEnd | jesdCodeGroupSync | jesdIlas | jesdTxsyncRelease | jesdLinkUp
      | airTxStart | airTxEnd | airBeaconDue | pendingWindowSend | clusterBeaconDue | groupClose | patchCaughtUp |
      descriptorComplete | barWriteback | checkpointComplete =>
    refine whenOn_keepsEpoch _ _ _ fun s => ?_
    dsimp only
    (repeat' split) <;> simp
  case joinAck | deputyAppoint | mirrorAck | clusterBeaconRx | homeClaim | claimAck | electRx | delayReq | scMetrics |
      scResult =>
    exact seamRx_keepsEpoch _ _ _ _ fun s => by simp
  case delayResp | seamJoinReq | seamLeave | scResultAck =>
    exact seamRx_keepsEpoch _ _ _ _ fun s => by (repeat' split) <;> simp
  case mirror =>
    refine seamRx_keepsEpoch _ _ _ _ fun s => ?_
    dsimp only
    (repeat' split) <;> simp
  all_goals exact whenOn_keepsEpoch _ _ _ fun s => by simp

/-- START_SEQUENCE counts one more power-up where it begins, and otherwise leaves the count. -/
theorem execStartSequence_epoch (t : Nat) (pins : StartPins) (sealBad : Bool) (s u : State)
    (h : execStartSequence t pins sealBad s = .next u) :
    u.lin.epoch =
      if s.pow.on = false ∧ s.mayBegin pins = true then min (s.lin.epoch + 1) 0xFFFFFFFF else s.lin.epoch := by
  have hs := ({ s with free := s.free + 1 } : State).start_epoch pins.mesh sealBad
  rw [show ({ s with free := s.free + 1 } : State).lin.epoch = s.lin.epoch from rfl] at hs
  unfold execStartSequence at h
  generalize ({ s with free := s.free + 1 } : State).start pins.mesh sealBad = b at h hs
  have hu := Host.Outcome.next.inj h
  clear h
  cases hon : s.pow.on with
  | true =>
    simp only [hon, Bool.not_true, Bool.false_and, Bool.false_eq_true, if_false, if_true] at hu
    rw [if_neg (by simp)]
    split at hu
    · rw [← hu, State.running_epoch, State.tick_lin]
    · rw [hu]
  | false =>
    cases hb : s.mayBegin pins with
    | false => simp [← hu, hon, hb]
    | true =>
      simp only [hon, hb, Bool.not_true, Bool.and_false, Bool.false_eq_true, if_false] at hu
      have hub : u.lin.epoch = b.lin.epoch := by
        split at hu
        · rw [← hu, State.running_epoch, State.tick_lin]
        · rw [← hu, State.tick_lin]
      rw [hub, hs, if_pos ⟨rfl, rfl⟩]

theorem exec_epoch (c : Instr) (s u : State) : exec c s = .next u →
    u.lin.epoch =
      match c with
      | .startSequence _ pins _ =>
        if s.pow.on = false ∧ s.mayBegin pins = true then min (s.lin.epoch + 1) 0xFFFFFFFF else s.lin.epoch
      | _ => s.lin.epoch := by
  intro h
  split
  next t pins sealBad => exact execStartSequence_epoch t pins sealBad s u h
  next hc => exact exec_keepsEpoch c s hc u h

/-- Settles O4: only a start that begins raises the epoch, by one, and never past its greatest value. -/
theorem onlyAStartRaisesTheEpoch : Obligations.OnlyAStartRaisesTheEpoch := by
  refine ⟨exec_epoch, fun t pins sealBad s hoff hbegin => ?_⟩
  obtain ⟨u, hu⟩ : ∃ u, execStartSequence t pins sealBad s = .next u := ⟨_, rfl⟩
  have h := execStartSequence_epoch t pins sealBad s u hu
  rw [if_pos ⟨hoff, hbegin⟩] at h
  exact ⟨u, hu, by omega, by omega, by omega⟩

end Sys2Proof.Machine
end

section
/-!
SUPPORT. Triggers of the site front end (16 R367, R368): what a trigger does while the sequencer is busy, and statement O55.

A busy sequencer counts a trigger and does nothing else (`State.trigger_busy`). That none is kept is the other half: the firing that
SEQUENCE_TRIGGER takes stands as used, and a used firing fires no more (`State.firing_of_used`).
-/

namespace Sys2Proof.Safety

open Sys2Proof.Machine

/-! ## Frames in sequence -/

theorem Same.trans {s u v : State} {b : Block} (h : Same s u b) (h' : Same u v b) : Same s v b := by
  cases b <;> exact Eq.trans h' h

theorem Only.trans {s u v : State} {parts parts' : List Block} (h : Only parts s u) (h' : Only parts' u v) :
    Only (parts ++ parts') s v := by
  intro b hb
  rw [List.mem_append, not_or] at hb
  exact (h b hb.1).trans (h' b hb.2)

end Sys2Proof.Safety

namespace Sys2Proof.Machine

open Sys2Proof Sys2Proof.Safety

/-! ## Frames of single operations -/

theorem State.tick_only (s : State) (t : Nat) : Only [] s (s.tick t) := by
  intro b _
  cases b <;> rfl

theorem State.setCnv_only (s : State) (c : Cnv) : Only [.cnv] s (s.setCnv c) := by
  intro b hb
  cases b <;> simp_all [Same]

theorem State.bump_only (s : State) (x : FRef) (i : Nat) : Only [.regs] s (s.bump x i) := by
  intro b hb
  cases b <;> simp_all [Same]

/-! ## Counters -/

/-- A counter advanced leaves every other register. -/
theorem State.reg_bump_ne (s : State) (x y : FRef) (i k l : Nat) (h : famAddr y.fam k l ≠ famAddr x.fam i 0) :
    (s.bump x i).reg y k l = s.reg y k l :=
  State.reg_setReg_ne _ x y i 0 k l _ h

/-! ## Triggers -/

/-- The sequencer takes no trigger (16 R368): it is delayed, converts, or waits for the reference. -/
def State.busy (s : State) : Prop := s.cnv.state = 2 ∨ s.cnv.state = 3 ∨ s.refWait = true

theorem State.trigger_busy (s : State) (f : Nat) (h : s.busy) : s.trigger f = s.bump F.cnvCntTrigmiss := by
  obtain h | h | h := h <;> simp [State.trigger, h]

/-- CNV_CNT_TRIGMISS after a trigger that a busy sequencer missed. -/
theorem State.reg_trigmiss_bump (s : State) :
    (s.bump F.cnvCntTrigmiss).reg F.cnvCntTrigmiss = min (s.reg F.cnvCntTrigmiss + 1) 0xFFFFFFFF :=
  s.reg_bump F.cnvCntTrigmiss 0 (by decide) (by decide)

/-- A firing that stands as used fires no more, while TSRC and its sources stay as they are. -/
theorem State.firing_of_used {s u : State} {f : Nat} (hf : s.firing = some f)
    (htsrc : u.reg F.cnvSeqCtlTsrc = s.reg F.cnvSeqCtlTsrc) (hmns : u.mns = s.mns) (hloops : u.loops = s.loops)
    (hused : tget? u.cnv.used (s.reg F.cnvSeqCtlTsrc) = some f) : u.firing = none := by
  simp only [State.firing, State.loop, htsrc, hmns, hloops] at hf ⊢
  split at hf
  next x hx =>
    have hxf : x = f := by simpa using (Option.ite_none_left_eq_some.1 hf).2
    simp [hused, hxf]
  next => cases hf

/-- The state after SEQUENCE_TRIGGER has taken firing `f`, before the sequencer sees it. -/
def State.takeFiring (s : State) (f : Nat) : State :=
  s.setCnv { s.cnv with used := tset s.cnv.used (s.reg F.cnvSeqCtlTsrc) f }

theorem State.takeFiring_busy {s : State} (f : Nat) (h : s.busy) : (s.takeFiring f).busy := h

theorem State.firing_takeFiring_bump {s : State} {f : Nat} (hf : s.firing = some f) :
    ((s.takeFiring f).bump F.cnvCntTrigmiss).firing = none := by
  refine State.firing_of_used hf (State.reg_bump_ne _ _ _ _ _ _ (by decide)) ?_ ?_ ?_ <;> simp [State.takeFiring]

theorem execSwtrig_busy (t : Nat) {s : State} (hon : s.pow.on = true) (h : s.busy) :
    execSwtrig t s = .next ((s.tick t).bump F.cnvCntTrigmiss) := by
  rw [execSwtrig, whenOn_on _ _ _ hon, (s.tick t).trigger_busy _ h]

theorem execSequenceTrigger_busy (t : Nat) {s : State} {f : Nat} (hon : s.pow.on = true) (h : s.busy)
    (hcont : s.flag F.cnvSeqCtlCont = false) (hf : s.firing = some f) :
    execSequenceTrigger t s = .next (((s.tick t).takeFiring f).bump F.cnvCntTrigmiss) := by
  have hcont' : (s.tick t).flag F.cnvSeqCtlCont = false := hcont
  have hf' : (s.tick t).firing = some f := hf
  have htake := State.trigger_busy ((s.tick t).takeFiring f) f (State.takeFiring_busy f h)
  rw [execSequenceTrigger, whenOn_on _ _ _ hon]
  simp only [hcont', hf', Bool.false_eq_true, if_false]
  exact congrArg _ htake

/-- Settles O55: a busy sequencer counts the trigger, and SEQUENCE_TRIGGER leaves no firing behind. -/
theorem triggersAreMissedWhileBusy : Obligations.TriggersAreMissedWhileBusy := by
  refine fun t s hon hbusy => ⟨⟨_, execSwtrig_busy t hon hbusy, ?_⟩, fun f hcont hf =>
    ⟨_, execSequenceTrigger_busy t hon hbusy hcont hf, ?_⟩⟩
  · exact ⟨(s.tick t).reg_trigmiss_bump, by simp, (s.tick_only t).trans (State.bump_only _ _ _)⟩
  · refine ⟨((s.tick t).takeFiring f).reg_trigmiss_bump, by simp [State.takeFiring],
      State.firing_takeFiring_bump (s := s.tick t) hf, ?_⟩
    exact (s.tick_only t).trans ((State.setCnv_only _ _).trans (State.bump_only _ _ _))

end Sys2Proof.Machine
end

section
/-!
SUPPORT. What each operation of the model leaves unchanged of State.

`Leaves` names the parts that an operation may change, and keeps the others. There is one frame `op_leaves` for each operation that
answers a state, in the order of the model's files. The frames are simp rules, and each follows from those of the operations that it is
made of, on every branch that it can take: so `simp` reads a part of the state straight through a chain of operations that keep it.
`foldl_…`, `ite_fields` and `brecOn_keeps` carry them through loops, conditionals and structural recursion.
-/

namespace Sys2Proof.Machine

-- Proofs one after another: the text is long, and is checked in bounded memory.
set_option Elab.async false

open Sys2Proof

/-! ## Frames -/

/-- A part of State that an update keeps. -/
abbrev keep (p : Prop) : Prop := p

/-- A part of State that an update may change. -/
abbrev may (_ : Prop) : Prop := True

/-- `t` differs from `s` in the parts marked `may` alone; `clock` stands for the clock and the free-value counter. A statement of this
form is a simp rule for each part that is kept. -/
abbrev Leaves (s t : State)
    (clock regs pow lin stw mem eth fau cip caps mns sea plx air sc spl cnv chans loops : Prop → Prop := keep) : Prop :=
  t.pending = s.pending ∧ clock (t.free = s.free) ∧ clock (t.now = s.now) ∧ regs (t.regs = s.regs) ∧ pow (t.pow = s.pow) ∧
  lin (t.lin = s.lin) ∧ stw (t.stw = s.stw) ∧ mem (t.mem = s.mem) ∧ eth (t.eth = s.eth) ∧ fau (t.fau = s.fau) ∧
  cip (t.cip = s.cip) ∧ caps (t.caps = s.caps) ∧ mns (t.mns = s.mns) ∧ sea (t.sea = s.sea) ∧ plx (t.plx = s.plx) ∧
  air (t.air = s.air) ∧ sc (t.sc = s.sc) ∧ spl (t.spl = s.spl) ∧ cnv (t.cnv = s.cnv) ∧ chans (t.chans = s.chans) ∧
  loops (t.loops = s.loops)

theorem ite_fields (c : Prop) [Decidable c] (s t : State) :
    (if c then s else t).pending = (if c then s.pending else t.pending) ∧
    (if c then s else t).free = (if c then s.free else t.free) ∧
    (if c then s else t).now = (if c then s.now else t.now) ∧
    (if c then s else t).regs = (if c then s.regs else t.regs) ∧
    (if c then s else t).pow = (if c then s.pow else t.pow) ∧
    (if c then s else t).lin = (if c then s.lin else t.lin) ∧
    (if c then s else t).stw = (if c then s.stw else t.stw) ∧
    (if c then s else t).mem = (if c then s.mem else t.mem) ∧
    (if c then s else t).eth = (if c then s.eth else t.eth) ∧
    (if c then s else t).fau = (if c then s.fau else t.fau) ∧
    (if c then s else t).cip = (if c then s.cip else t.cip) ∧
    (if c then s else t).caps = (if c then s.caps else t.caps) ∧
    (if c then s else t).mns = (if c then s.mns else t.mns) ∧
    (if c then s else t).sea = (if c then s.sea else t.sea) ∧
    (if c then s else t).plx = (if c then s.plx else t.plx) ∧
    (if c then s else t).air = (if c then s.air else t.air) ∧
    (if c then s else t).sc = (if c then s.sc else t.sc) ∧
    (if c then s else t).spl = (if c then s.spl else t.spl) ∧
    (if c then s else t).cnv = (if c then s.cnv else t.cnv) ∧
    (if c then s else t).chans = (if c then s.chans else t.chans) ∧
    (if c then s else t).loops = (if c then s.loops else t.loops) := by
  split <;> simp

@[simp] theorem foldl_pending {β : Type} (f : State → β → State) (h : ∀ s b, (f s b).pending = s.pending) (l : List β) (s : State) :
    (l.foldl f s).pending = s.pending :=
  foldl_keeps (fun t => t.pending = s.pending) f (fun t b ht => (h t b).trans ht) l s rfl

@[simp] theorem foldl_free {β : Type} (f : State → β → State) (h : ∀ s b, (f s b).free = s.free) (l : List β) (s : State) :
    (l.foldl f s).free = s.free :=
  foldl_keeps (fun t => t.free = s.free) f (fun t b ht => (h t b).trans ht) l s rfl

@[simp] theorem foldl_now {β : Type} (f : State → β → State) (h : ∀ s b, (f s b).now = s.now) (l : List β) (s : State) :
    (l.foldl f s).now = s.now :=
  foldl_keeps (fun t => t.now = s.now) f (fun t b ht => (h t b).trans ht) l s rfl

@[simp] theorem foldl_regs {β : Type} (f : State → β → State) (h : ∀ s b, (f s b).regs = s.regs) (l : List β) (s : State) :
    (l.foldl f s).regs = s.regs :=
  foldl_keeps (fun t => t.regs = s.regs) f (fun t b ht => (h t b).trans ht) l s rfl

@[simp] theorem foldl_pow {β : Type} (f : State → β → State) (h : ∀ s b, (f s b).pow = s.pow) (l : List β) (s : State) :
    (l.foldl f s).pow = s.pow :=
  foldl_keeps (fun t => t.pow = s.pow) f (fun t b ht => (h t b).trans ht) l s rfl

@[simp] theorem foldl_lin {β : Type} (f : State → β → State) (h : ∀ s b, (f s b).lin = s.lin) (l : List β) (s : State) :
    (l.foldl f s).lin = s.lin :=
  foldl_keeps (fun t => t.lin = s.lin) f (fun t b ht => (h t b).trans ht) l s rfl

@[simp] theorem foldl_stw {β : Type} (f : State → β → State) (h : ∀ s b, (f s b).stw = s.stw) (l : List β) (s : State) :
    (l.foldl f s).stw = s.stw :=
  foldl_keeps (fun t => t.stw = s.stw) f (fun t b ht => (h t b).trans ht) l s rfl

@[simp] theorem foldl_mem {β : Type} (f : State → β → State) (h : ∀ s b, (f s b).mem = s.mem) (l : List β) (s : State) :
    (l.foldl f s).mem = s.mem :=
  foldl_keeps (fun t => t.mem = s.mem) f (fun t b ht => (h t b).trans ht) l s rfl

@[simp] theorem foldl_eth {β : Type} (f : State → β → State) (h : ∀ s b, (f s b).eth = s.eth) (l : List β) (s : State) :
    (l.foldl f s).eth = s.eth :=
  foldl_keeps (fun t => t.eth = s.eth) f (fun t b ht => (h t b).trans ht) l s rfl

@[simp] theorem foldl_fau {β : Type} (f : State → β → State) (h : ∀ s b, (f s b).fau = s.fau) (l : List β) (s : State) :
    (l.foldl f s).fau = s.fau :=
  foldl_keeps (fun t => t.fau = s.fau) f (fun t b ht => (h t b).trans ht) l s rfl

@[simp] theorem foldl_cip {β : Type} (f : State → β → State) (h : ∀ s b, (f s b).cip = s.cip) (l : List β) (s : State) :
    (l.foldl f s).cip = s.cip :=
  foldl_keeps (fun t => t.cip = s.cip) f (fun t b ht => (h t b).trans ht) l s rfl

@[simp] theorem foldl_caps {β : Type} (f : State → β → State) (h : ∀ s b, (f s b).caps = s.caps) (l : List β) (s : State) :
    (l.foldl f s).caps = s.caps :=
  foldl_keeps (fun t => t.caps = s.caps) f (fun t b ht => (h t b).trans ht) l s rfl

@[simp] theorem foldl_mns {β : Type} (f : State → β → State) (h : ∀ s b, (f s b).mns = s.mns) (l : List β) (s : State) :
    (l.foldl f s).mns = s.mns :=
  foldl_keeps (fun t => t.mns = s.mns) f (fun t b ht => (h t b).trans ht) l s rfl

@[simp] theorem foldl_sea {β : Type} (f : State → β → State) (h : ∀ s b, (f s b).sea = s.sea) (l : List β) (s : State) :
    (l.foldl f s).sea = s.sea :=
  foldl_keeps (fun t => t.sea = s.sea) f (fun t b ht => (h t b).trans ht) l s rfl

@[simp] theorem foldl_plx {β : Type} (f : State → β → State) (h : ∀ s b, (f s b).plx = s.plx) (l : List β) (s : State) :
    (l.foldl f s).plx = s.plx :=
  foldl_keeps (fun t => t.plx = s.plx) f (fun t b ht => (h t b).trans ht) l s rfl

@[simp] theorem foldl_air {β : Type} (f : State → β → State) (h : ∀ s b, (f s b).air = s.air) (l : List β) (s : State) :
    (l.foldl f s).air = s.air :=
  foldl_keeps (fun t => t.air = s.air) f (fun t b ht => (h t b).trans ht) l s rfl

@[simp] theorem foldl_sc {β : Type} (f : State → β → State) (h : ∀ s b, (f s b).sc = s.sc) (l : List β) (s : State) :
    (l.foldl f s).sc = s.sc :=
  foldl_keeps (fun t => t.sc = s.sc) f (fun t b ht => (h t b).trans ht) l s rfl

@[simp] theorem foldl_spl {β : Type} (f : State → β → State) (h : ∀ s b, (f s b).spl = s.spl) (l : List β) (s : State) :
    (l.foldl f s).spl = s.spl :=
  foldl_keeps (fun t => t.spl = s.spl) f (fun t b ht => (h t b).trans ht) l s rfl

@[simp] theorem foldl_cnv {β : Type} (f : State → β → State) (h : ∀ s b, (f s b).cnv = s.cnv) (l : List β) (s : State) :
    (l.foldl f s).cnv = s.cnv :=
  foldl_keeps (fun t => t.cnv = s.cnv) f (fun t b ht => (h t b).trans ht) l s rfl

@[simp] theorem foldl_chans {β : Type} (f : State → β → State) (h : ∀ s b, (f s b).chans = s.chans) (l : List β) (s : State) :
    (l.foldl f s).chans = s.chans :=
  foldl_keeps (fun t => t.chans = s.chans) f (fun t b ht => (h t b).trans ht) l s rfl

@[simp] theorem foldl_loops {β : Type} (f : State → β → State) (h : ∀ s b, (f s b).loops = s.loops) (l : List β) (s : State) :
    (l.foldl f s).loops = s.loops :=
  foldl_keeps (fun t => t.loops = s.loops) f (fun t b ht => (h t b).trans ht) l s rfl

@[simp] theorem State.setCount_leaves (s : State) (x : FRef) (i v : Nat) : Leaves (regs := may) s (s.setCount x i v) := by
  simp [Leaves, State.setCount]

@[simp] theorem State.tick_leaves (s : State) (t : Nat) : Leaves (clock := may) s (s.tick t) := by simp [Leaves, State.tick]

@[simp] theorem State.recordFinal_leaves (s : State) (f : Flight) (status : Nat) (operand : List Byte) :
    Leaves (stw := may) s (s.recordFinal f status operand) := by
  simp [Leaves, State.recordFinal]

@[simp] theorem State.settleCarrier_leaves (s : State) : Leaves (regs := may) (lin := may) (stw := may) s (s.settleCarrier) := by
  simp only [State.settleCarrier]
  (repeat' split) <;> simp [Leaves]

@[simp] theorem State.spoolMoved_leaves (s : State) (n bytes : Nat) :
    Leaves (regs := may) (spl := may) s (s.spoolMoved n bytes) := by
  simp [Leaves, State.spoolMoved]

@[simp] theorem State.putCtx_leaves (s : State) (e : Ctx × CtxData) : Leaves (plx := may) (air := may) s (s.putCtx e) := by
  unfold State.putCtx
  split <;> simp [Leaves]

@[simp] theorem State.putCtxs_leaves (s : State) (n : Nat) (l : List (Ctx × CtxData)) :
    Leaves (plx := may) (air := may) s (s.putCtxs n l) := by
  simp [Leaves, State.putCtxs]

@[simp] theorem State.setEngine_leaves (s : State) (n : Nat) (e : Engine) : Leaves (fau := may) s (s.setEngine n e) := by
  simp [Leaves, State.setEngine]

@[simp] theorem State.holdInput_leaves (s : State) (h : HeldInput) : Leaves (fau := may) s (s.holdInput h) := by
  unfold State.holdInput
  split <;> simp [Leaves]

@[simp] theorem State.reply_leaves (s : State) (m : Inbound) (session : Bool) (opcode flags status slot gen : Nat) (operand : List Byte) (head : optParam Bool false) :
    Leaves (eth := may) s (s.reply m session opcode flags status slot gen operand head) := by
  simp [Leaves, State.reply]

@[simp] theorem State.reject_leaves (s : State) (m : Inbound) (session : Bool) (opcode status : Nat) (operand : List Byte) :
    Leaves (eth := may) s (s.reject m session opcode status operand) := by
  simp [Leaves, State.reject]

@[simp] theorem State.strayFrame_leaves (s : State) (m : Inbound) : Leaves (regs := may) s (s.strayFrame m) := by
  simp [Leaves, State.strayFrame, ite_fields]

@[simp] theorem State.heard_leaves (s : State) (m : Inbound) : Leaves (stw := may) s (s.heard m) := by
  unfold State.heard
  split <;> simp [Leaves]

@[simp] theorem State.enter_leaves (s : State) (m : Inbound) (opcode : Nat) (x : Session) (st : Stage) :
    Leaves (stw := may) s (s.enter m opcode x st).1 := by
  simp [Leaves, State.enter]

theorem State.tagChecks_leaves {s u : State} {m : Inbound} {opcode : Nat} {x : Session} (h : s.tagChecks m opcode x = some u) :
    Leaves (eth := may) s u := by
  revert h
  simp only [State.tagChecks]
  (repeat' split) <;> rintro ⟨⟩ <;> simp [Leaves]

@[simp] theorem State.accept_leaves (s : State) (m : Inbound) (opcode need : Nat) (direct : Bool) (st : Stage) :
    Leaves (regs := may) (stw := may) (eth := may) s (s.accept m opcode need direct st).1 := by
  simp only [State.accept]
  split; · simp [Leaves]
  split; · simp [Leaves]
  split; · simp [Leaves]
  split; · simp [Leaves]
  split
  next u h =>
    have hu := State.tagChecks_leaves h
    simp_all [Leaves]
  next => (repeat' split) <;> simp [Leaves]

@[simp] theorem State.arriveFw_leaves (s : State) (m : Inbound) (opcode need : Nat) :
    Leaves (regs := may) (stw := may) (eth := may) s (s.arriveFw m opcode need) := by
  simp [Leaves, State.arriveFw]

@[simp] theorem State.openSession_leaves (s : State) (m : Inbound) : Leaves (stw := may) (eth := may) s (s.openSession m) := by
  simp only [State.openSession]
  (repeat' split) <;> simp [Leaves]

@[simp] theorem State.closeSession_leaves (s : State) (k : Nat) (x : Session) :
    Leaves (stw := may) (caps := may) s (s.closeSession k x) := by
  simp [Leaves, State.closeSession]

@[simp] theorem State.acknowledge_leaves (s : State) (k : Nat) (x : Session) (stream upto : Nat) :
    Leaves (stw := may) (eth := may) s (s.acknowledge k x stream upto) := by
  simp [Leaves, State.acknowledge, ite_fields]

@[simp] theorem State.answerAddress_leaves (s : State) (kind : FrameKind) (port mac ip : Nat) (body : List Byte) :
    Leaves (eth := may) s (s.answerAddress kind port mac ip body) := by
  simp [Leaves, State.answerAddress]

@[simp] theorem State.reserveTo_leaves (s : State) (slot val : Nat) : Leaves (lin := may) s (s.reserveTo slot val) := by
  simp [Leaves, State.reserveTo, ite_fields]

@[simp] theorem State.takeCounter_leaves (s : State) (slot : Nat) :
    Leaves (lin := may) (cip := may) s (s.takeCounter slot).1 := by
  simp only [State.takeCounter]
  (repeat' split) <;> simp [Leaves]

@[simp] theorem State.dropErased_leaves (s : State) : Leaves (lin := may) (stw := may) (eth := may) s s.dropErased := by
  unfold State.dropErased
  refine foldl_keeps (Leaves (lin := may) (stw := may) (eth := may) s) _ (fun t w h => ?_) _ _ (by simp [Leaves])
  split <;> simp_all [Leaves]

@[simp] theorem State.alarm_leaves (s : State) (source detail : Nat) (stays : Bool) :
    Leaves (regs := may) (lin := may) (stw := may) (eth := may) (fau := may) (cip := may) s (s.alarm source detail stays) := by
  simp [Leaves, State.alarm]

@[simp] theorem State.supplyBack_leaves (s : State) (n : Nat) : Leaves (cip := may) s (s.supplyBack n) := by
  simp [Leaves, State.supplyBack]

@[simp] theorem State.supplyAt_leaves (s : State) (n uv : Nat) :
    Leaves (regs := may) (pow := may) (lin := may) (stw := may) (eth := may) (fau := may) (cip := may) s (s.supplyAt n uv) := by
  simp [Leaves, State.supplyAt, ite_fields]

@[simp] theorem State.clearWrapped_leaves (s : State) : Leaves (lin := may) (cip := may) s (s.clearWrapped) := by
  simp [Leaves, State.clearWrapped]

@[simp] theorem State.serveKeyDelete_leaves (s : State) (f : Flight) :
    Leaves (lin := may) (stw := may) (eth := may) (cip := may) s (s.serveKeyDelete f) := by
  simp only [State.serveKeyDelete]
  (repeat' split) <;> simp [Leaves]

@[simp] theorem State.serveKeyStatus_leaves (s : State) (f : Flight) :
    Leaves (stw := may) (eth := may) s (s.serveKeyStatus f) := by
  simp [Leaves, State.serveKeyStatus, ite_fields]

@[simp] theorem State.serveRootProvision_leaves (s : State) (f : Flight) :
    Leaves (lin := may) (stw := may) (eth := may) (cip := may) s (s.serveRootProvision f) := by
  simp only [State.serveRootProvision]
  (repeat' split) <;> simp [Leaves]

@[simp] theorem State.serveKeyAlarm_leaves (s : State) (f : Flight) :
    Leaves (regs := may) (lin := may) (stw := may) (eth := may) (fau := may) (cip := may) s (s.serveKeyAlarm f) := by
  simp [Leaves, State.serveKeyAlarm, ite_fields]

@[simp] theorem State.nonceJob_leaves (s : State) (j : Job) : Leaves (lin := may) (cip := may) s (s.nonceJob j).1 := by
  unfold State.nonceJob
  split
  next k _ =>
    have h := s.takeCounter_leaves (slotOf k.handle)
    split
    · split <;> simp_all [Leaves]
    · simp [Leaves]
  next => simp [Leaves]

@[simp] theorem State.submitJob_leaves (s : State) (d : List Byte) (ring : Option Nat) (use : optParam JobUse JobUse.memory) :
    Leaves (lin := may) (cip := may) s (s.submitJob d ring own use) := by
  simp [Leaves, State.submitJob]

@[simp] theorem State.offerJob_leaves (s : State) (w : JobWait) : Leaves (lin := may) (cip := may) s (s.offerJob w) := by
  simp [Leaves, State.offerJob, ite_fields]

@[simp] theorem State.admitJobs_leaves (s : State) : Leaves (lin := may) (cip := may) s (s.admitJobs) := by
  simp [Leaves, State.admitJobs]

@[simp] theorem State.serveKeyLoad_leaves (s : State) (f : Flight) :
    Leaves (lin := may) (stw := may) (eth := may) (cip := may) s (s.serveKeyLoad f) := by
  simp [Leaves, State.serveKeyLoad, ite_fields]

@[simp] theorem State.keyLoaded_leaves (s : State) (ref handle : Nat) (wrapped plain : List Byte) :
    Leaves (lin := may) (stw := may) (eth := may) (cip := may) s (s.keyLoaded ref handle wrapped plain) := by
  simp only [State.keyLoaded]
  (repeat' split) <;> simp [Leaves]

@[simp] theorem State.fillCache_leaves (s : State) : Leaves (lin := may) (cip := may) s (s.fillCache) := by
  simp [Leaves, State.fillCache]

@[simp] theorem State.filled_leaves (s : State) (slot : Nat) (wrapped plain : List Byte) :
    Leaves (cip := may) s (s.filled slot wrapped plain) := by
  simp [Leaves, State.filled, ite_fields]

@[simp] theorem State.deliverRec_leaves (s : State) (r : RecvRec) (untrusted : Bool) (p : List Byte) :
    Leaves (regs := may) (stw := may) (eth := may) s (s.deliverRec r untrusted p) := by
  simp [Leaves, State.deliverRec, ite_fields]

@[simp] theorem State.deliverFrame_leaves (s : State) (air sec : Bool) (a0 p : List Byte) (ext : Option Nat) (short : Nat) (r : RecvRec) :
    Leaves (regs := may) (lin := may) (stw := may) (eth := may) (cip := may) s (s.deliverFrame air sec a0 p ext short r) := by
  simp only [State.deliverFrame]
  (repeat' split) <;> simp [Leaves]

@[simp] theorem State.retryJobs_leaves (s : State) : Leaves (lin := may) (cip := may) s (s.retryJobs) := by
  simp [Leaves, State.retryJobs, ite_fields]

@[simp] theorem State.putDone_leaves (s : State) (a : Nat) (c : List Byte) :
    Leaves (regs := may) (stw := may) (mem := may) (eth := may) (fau := may) s (s.putDone a c) := by
  simp [Leaves, State.putDone, ite_fields]

/-- Handing finished jobs to the host ring is made of octets put, a register written and changes of the cipher block. -/
theorem State.flushRing_rel (P : State → State → Prop) (refl : ∀ s, P s s) (trans : ∀ s t u, P s t → P t u → P s u)
    (put : ∀ s a c, P s (State.putDone s a c)) (reg : ∀ s v, P s (State.setReg s F.cipHrHeadHead 0 0 v))
    (cip : ∀ (s : State) y, P s { s with cip := y }) (s : State) (n : Nat) : P s (s.flushRing n) := by
  induction n generalizing s with
  | zero => exact refl s
  | succ n ih =>
    simp only [State.flushRing]
    split
    · exact refl s
    next c _ => exact trans _ _ _ (trans _ _ _ (put s _ c) (cip _ _)) (trans _ _ _ (reg _ _) (ih _))

@[simp] theorem State.flushRing_leaves (s : State) (n : Nat) :
    Leaves (regs := may) (stw := may) (mem := may) (eth := may) (fau := may) (cip := may) s (s.flushRing n) := by
  refine State.flushRing_rel (Leaves (regs := may) (stw := may) (mem := may) (eth := may) (fau := may) (cip := may))
    ?_ ?_ ?_ ?_ ?_ s n
  case refine_2 => exact fun s t u h h' => by simp_all [Leaves]
  all_goals simp [Leaves]

/-- A recursion on fuel, one round at a time: what a round keeps whose recursive call keeps it is kept. -/
theorem brecOn_keeps (P : State → State → Prop)
    (F : (n : Nat) → Nat.below (motive := fun _ => State → State) n → State → State)
    (zero : ∀ x s, P s (F 0 x s)) (succ : ∀ n x s, (∀ s, P s (x.1 s)) → P s (F (n + 1) x s)) (s : State) (n : Nat) :
    P s (Nat.brecOn (motive := fun _ => State → State) n F s) := by
  induction n generalizing s with
  | zero => exact zero _ s
  | succ n ih => exact succ n _ s ih

theorem rel_ite {P : State → State → Prop} {s t u : State} {c : Prop} [Decidable c] (h : P s t) (h' : P s u) :
    P s (if c then t else u) := by
  split <;> assumption

/-- Reading the host ring is made of consumed memory, submitted jobs and changes of the cipher block. (`State.readRing` is taken apart
by `brecOn_keeps`, because the kernel cannot check its equation lemma.) -/
theorem State.readRing_rel (P : State → State → Prop) (refl : ∀ s, P s s) (trans : ∀ s t u, P s t → P t u → P s u)
    (consume : ∀ s a, P s (State.consume s 0x40 a 64)) (submit : ∀ s d n, P s (State.submitJob s d n))
    (cip : ∀ (s : State) y, P s { s with cip := y }) (s : State) (n : Nat) : P s (s.readRing n) := by
  delta State.readRing
  refine brecOn_keeps P _ (fun _ s => ?_) (fun n x s ih => ?_) s n
  · exact refl s
  refine rel_ite ?_ (refl s)
  extract_lets a here ok d s₁ src₁ s₂ s₃ rotten src₃ s₄
  have e₁ : s₁ = if here then s.consume 0x40 a 64 else s := rfl
  have e₂ : ∃ y : Cip, s₂ = { s₁ with cip := y } := ⟨_, rfl⟩
  have e₃ : s₃ = s₂.submitJob d (some s.cip.ringTaken) := rfl
  have e₄ : ∃ (c : Bool) (y : Cip), s₄ = if c then s₃ else { s₃ with cip := y } := ⟨_, _, rfl⟩
  clear_value s₄ s₃ s₂ s₁
  obtain ⟨y, e₂⟩ := e₂
  obtain ⟨c, z, e₄⟩ := e₄
  have h₁ : P s s₁ := by
    rw [e₁]
    exact rel_ite (consume s a) (refl s)
  have h₂ : P s₁ s₂ := by
    rw [e₂]
    exact cip s₁ y
  have h₃ : P s₂ s₃ := by
    rw [e₃]
    exact submit s₂ d _
  have h₄ : P s₃ s₄ := by
    rw [e₄]
    exact rel_ite (refl s₃) (cip s₃ z)
  exact trans _ _ _ (trans _ _ _ (trans _ _ _ h₁ h₂) (trans _ _ _ h₃ h₄)) (ih s₄)

@[simp] theorem State.readRing_leaves (s : State) (n : Nat) :
    Leaves (regs := may) (lin := may) (stw := may) (mem := may) (eth := may) (fau := may) (cip := may) s (s.readRing n) := by
  refine State.readRing_rel (Leaves (regs := may) (lin := may) (stw := may) (mem := may) (eth := may) (fau := may) (cip := may))
    ?_ ?_ ?_ ?_ ?_ s n
  case refine_2 => exact fun s t u h h' => by simp_all [Leaves]
  all_goals simp [Leaves]

@[simp] theorem State.runJob_leaves (s : State) (j : Job) :
    Leaves (regs := may) (stw := may) (mem := may) (eth := may) (fau := may) s (s.runJob j).1 := by
  simp only [State.runJob]
  (repeat' split) <;> simp [Leaves]

@[simp] theorem State.completeJob_leaves (s : State) (j : Job) (core status : Nat) :
    Leaves (regs := may) (lin := may) (stw := may) (mem := may) (eth := may) (fau := may) (cip := may)
      s (s.completeJob j core status) := by
  simp only [State.completeJob]
  (repeat' split) <;> simp [Leaves]

@[simp] theorem State.ringEnable_leaves (s : State) : Leaves (regs := may) (cip := may) s (s.ringEnable) := by
  simp [Leaves, State.ringEnable]

@[simp] theorem State.ringTail_leaves (s : State) (tail : Nat) :
    Leaves (regs := may) (lin := may) (stw := may) (mem := may) (eth := may) (fau := may) (cip := may) s (s.ringTail tail) := by
  simp [Leaves, State.ringTail, ite_fields]

@[simp] theorem State.checkDone_leaves (s : State) (v : Nat) (want : Option Nat) :
    Leaves (regs := may) (cip := may) s (s.checkDone v want) := by
  simp only [State.checkDone]
  (repeat' split) <;> simp [Leaves]

@[simp] theorem State.fixNext_leaves (s : State) (n : Nat) : Leaves (mns := may) s (s.fixNext n) := by
  simp [Leaves, State.fixNext, ite_fields]

@[simp] theorem State.fixPhase_leaves (s : State) (ph : Nat) : Leaves (mns := may) s (s.fixPhase ph) := by
  simp [Leaves, State.fixPhase]

@[simp] theorem State.markPhase_leaves (s : State) (ph : Nat) : Leaves (mns := may) s (s.markPhase ph) := by
  simp [Leaves, State.markPhase]

@[simp] theorem State.phaseEvent_leaves (s : State) (code x : Nat) :
    Leaves (stw := may) (eth := may) s (s.phaseEvent code x) := by
  simp [Leaves, State.phaseEvent]

@[simp] theorem State.toState_leaves (s : State) (x st ref : Nat) :
    Leaves (stw := may) (eth := may) (mns := may) s (s.toState x st ref) := by
  simp [Leaves, State.toState, ite_fields]

@[simp] theorem State.fallBack_leaves (s : State) (x : Nat) : Leaves (stw := may) (eth := may) (mns := may) s (s.fallBack x) := by
  unfold State.fallBack
  split <;> simp [Leaves]

@[simp] theorem State.losePhase_leaves (s : State) (x : Nat) :
    Leaves (stw := may) (eth := may) (mns := may) s (s.losePhase x) := by
  simp [Leaves, State.losePhase]

@[simp] theorem State.noteApart_leaves (s : State) (x y : Nat) : Leaves (mns := may) s (s.noteApart x y) := by
  simp [Leaves, State.noteApart, ite_fields]

@[simp] theorem State.measureAngles_leaves (s : State) : Leaves (mns := may) s (s.measureAngles) := by
  simp [Leaves, State.measureAngles, ite_fields]

@[simp] theorem State.derive_leaves (s : State) (ref : Nat) : Leaves (mns := may) s (s.derive ref) := by
  simp [Leaves, State.derive]

@[simp] theorem State.supplied_leaves (s : State) (x : Nat) : Leaves (mns := may) s (s.supplied x) := by
  simp [Leaves, State.supplied]

@[simp] theorem State.rejectCrossing_leaves (s : State) (x : Nat) (p : Phase) (dev : Option Int) :
    Leaves (stw := may) (eth := may) (mns := may) s (s.rejectCrossing x p dev) := by
  simp [Leaves, State.rejectCrossing, ite_fields]

@[simp] theorem State.acceptCrossing_leaves (s : State) (x : Nat) (p : Phase) (m : Nat) (jump : Bool) :
    Leaves (regs := may) (stw := may) (eth := may) (mns := may) s (s.acceptCrossing x p m jump) := by
  simp [Leaves, State.acceptCrossing, ite_fields]

@[simp] theorem State.lockedCrossing_leaves (s : State) (x m : Nat) :
    Leaves (regs := may) (stw := may) (eth := may) (mns := may) s (s.lockedCrossing x m) := by
  simp only [State.lockedCrossing]
  (repeat' split) <;> simp [Leaves]

@[simp] theorem State.tryLock_leaves (s : State) (x m : Nat) :
    Leaves (stw := may) (eth := may) (mns := may) s (s.tryLock x m) := by
  simp only [State.tryLock]
  (repeat' split) <;> simp [Leaves]

@[simp] theorem State.markMet_leaves (s : State) : Leaves (plx := may) s (s.markMet) := by simp [Leaves, State.markMet]

@[simp] theorem State.crossing_leaves (s : State) (phase : Nat) (seen : Option Nat) (ampl : Nat) :
    Leaves (regs := may) (stw := may) (eth := may) (mns := may) s (s.crossing phase seen ampl) := by
  simp only [State.crossing]
  (repeat' split) <;> simp [Leaves]

@[simp] theorem State.mnsEnable_leaves (s : State) : Leaves (regs := may) (mns := may) s (s.mnsEnable) := by
  simp [Leaves, State.mnsEnable]

@[simp] theorem State.mnsDisable_leaves (s : State) :
    Leaves (regs := may) (stw := may) (eth := may) (mns := may) s (s.mnsDisable) := by
  simp [Leaves, State.mnsDisable, ite_fields]

@[simp] theorem State.newNominal_leaves (s : State) : Leaves (mns := may) s (s.newNominal) := by
  simp [Leaves, State.newNominal, ite_fields]

@[simp] theorem State.applyOffset_leaves (s : State) (n : Nat) : Leaves (regs := may) (lin := may) s (s.applyOffset n) := by
  simp only [State.applyOffset]
  (repeat' split) <;> simp [Leaves]

@[simp] theorem State.newSource_leaves (s : State) (n src : Nat) :
    Leaves (regs := may) (lin := may) (mns := may) s (s.newSource n src) := by
  simp [Leaves, State.newSource, ite_fields]

@[simp] theorem State.noteCycle_leaves (s : State) (n : Nat) : Leaves (chans := may) s (s.noteCycle n) := by
  simp [Leaves, State.noteCycle]

@[simp] theorem State.newCycle_leaves (s : State) (n : Nat) :
    Leaves (regs := may) (lin := may) (mns := may) (chans := may) s (s.newCycle n) := by
  simp [Leaves, State.newCycle, ite_fields]

@[simp] theorem State.nextPleat_leaves (s : State) (n : Nat) : Leaves (mns := may) s (s.nextPleat n) := by
  simp [Leaves, State.nextPleat]

@[simp] theorem State.fireTriggers_leaves (s : State) (n : Nat) : Leaves (mns := may) s (s.fireTriggers n) := by
  simp [Leaves, State.fireTriggers, ite_fields]

@[simp] theorem State.pleatEvent_leaves (s : State) (n : Nat) :
    Leaves (regs := may) (lin := may) (mns := may) (chans := may) s (s.pleatEvent n) := by
  simp [Leaves, State.pleatEvent, ite_fields]

@[simp] theorem State.nextSeq_leaves (s : State) : Leaves (sea := may) s (s.nextSeq) := by simp [Leaves, State.nextSeq]

@[simp] theorem State.castOn_leaves (s : State) (port q pcp : Nat) (bytes : List Byte) :
    Leaves (eth := may) s (s.castOn port q pcp bytes) := by
  simp [Leaves, State.castOn, ite_fields]

@[simp] theorem State.castAll_leaves (s : State) (typ : Nat) (body : List Byte) :
    Leaves (eth := may) (sea := may) s (s.castAll typ body) := by
  simp [Leaves, State.castAll, ite_fields]

@[simp] theorem State.castOne_leaves (s : State) (typ : Nat) (body : List Byte) :
    Leaves (eth := may) (sea := may) s (s.castOne typ body) := by
  simp [Leaves, State.castOne, ite_fields]

@[simp] theorem State.sendTo_leaves (s : State) (station typ : Nat) (body : List Byte) :
    Leaves (eth := may) (sea := may) s (s.sendTo station typ body) := by
  simp only [State.sendTo]
  (repeat' split) <;> simp [Leaves]

@[simp] theorem State.noteSeam_leaves (s : State) (m : SeamMsg) : Leaves (sea := may) s (s.noteSeam m) := by
  simp [Leaves, State.noteSeam]

@[simp] theorem State.dropWaits_leaves (s : State) : Leaves (stw := may) (eth := may) (sea := may) s s.dropWaits := by
  unfold State.dropWaits
  refine foldl_keeps (Leaves (stw := may) (eth := may) (sea := may) s) _ (fun t w h => ?_) _ _ (by simp [Leaves])
  split <;> simp_all [Leaves]

@[simp] theorem State.toRole_leaves (s : State) (role reason : Nat) :
    Leaves (stw := may) (eth := may) (sea := may) (sc := may) s (s.toRole role reason) := by
  simp [Leaves, State.toRole, ite_fields]

@[simp] theorem State.stationLeft_leaves (s : State) (station reason : Nat) :
    Leaves (stw := may) (eth := may) s (s.stationLeft station reason) := by
  simp [Leaves, State.stationLeft]

@[simp] theorem State.toListening_leaves (s : State) (reason : Nat) :
    Leaves (stw := may) (eth := may) (sea := may) (sc := may) s (s.toListening reason) := by
  simp [Leaves, State.toListening]

@[simp] theorem State.toElecting_leaves (s : State) :
    Leaves (stw := may) (eth := may) (sea := may) (sc := may) s (s.toElecting) := by
  simp [Leaves, State.toElecting, ite_fields]

@[simp] theorem State.toManager_leaves (s : State) (reason : Nat) :
    Leaves (regs := may) (lin := may) (stw := may) (eth := may) (sea := may) (sc := may) s (s.toManager reason) := by
  simp [Leaves, State.toManager, ite_fields]

@[simp] theorem State.takeOver_leaves (s : State) :
    Leaves (regs := may) (lin := may) (stw := may) (eth := may) (sea := may) (sc := may) s (s.takeOver) := by
  simp [Leaves, State.takeOver, ite_fields]

@[simp] theorem State.regChange_leaves (s : State) (ext : Nat) (e : RegEntry) :
    Leaves (eth := may) (sea := may) s (s.regChange ext e) := by
  simp only [State.regChange]
  (repeat' split) <;> simp [Leaves]

@[simp] theorem State.releaseWait_leaves (s : State) (w : MirrorFor) :
    Leaves (stw := may) (eth := may) (sea := may) s (s.releaseWait w) := by
  unfold State.releaseWait
  split <;> simp [Leaves]

@[simp] theorem State.whenMirrored_leaves (s : State) (n : Nat) (w : MirrorFor) :
    Leaves (stw := may) (eth := may) (sea := may) s (s.whenMirrored n w) := by
  simp [Leaves, State.whenMirrored, ite_fields]

@[simp] theorem State.releaseMirrored_leaves (s : State) :
    Leaves (stw := may) (eth := may) (sea := may) s (s.releaseMirrored) := by
  simp [Leaves, State.releaseMirrored]

@[simp] theorem State.claimAt_leaves (s : State) (k ext : Nat) (e : RegEntry) (ack : Bool) :
    Leaves (stw := may) (eth := may) (sea := may) s (s.claimAt k ext e ack) := by
  simp only [State.claimAt]
  (repeat' split) <;> simp [Leaves]

@[simp] theorem State.sendClaim_leaves (s : State) (c : Claim) :
    Leaves (stw := may) (eth := may) (sea := may) s (s.sendClaim c) := by
  simp only [State.sendClaim]
  (repeat' split) <;> simp [Leaves]

@[simp] theorem State.resendClaims_leaves (s : State) : Leaves (stw := may) (eth := may) (sea := may) s (s.resendClaims) := by
  simp [Leaves, State.resendClaims]

@[simp] theorem State.claim_leaves (s : State) (ext kind flags short port : Nat) (release : Bool) :
    Leaves (stw := may) (eth := may) (sea := may) s (s.claim ext kind flags short port release) := by
  simp [Leaves, State.claim]

@[simp] theorem State.followStation_leaves (s : State) (k : Nat) : Leaves (sea := may) s (s.followStation k) := by
  simp [Leaves, State.followStation]

@[simp] theorem State.toJoining_leaves (s : State) (k reason : Nat) :
    Leaves (stw := may) (eth := may) (sea := may) (sc := may) s (s.toJoining k reason) := by
  simp [Leaves, State.toJoining]

@[simp] theorem State.seaEnable_leaves (s : State) :
    Leaves (regs := may) (stw := may) (eth := may) (sea := may) (sc := may) s (s.seaEnable) := by
  simp [Leaves, State.seaEnable]

@[simp] theorem State.sendLeave_leaves (s : State) : Leaves (eth := may) (sea := may) s (s.sendLeave) := by
  simp only [State.sendLeave]
  (repeat' split) <;> simp [Leaves]

@[simp] theorem State.seaLeave_leaves (s : State) : Leaves (stw := may) (eth := may) (sea := may) (sc := may) s (s.seaLeave) := by
  simp [Leaves, State.seaLeave, ite_fields]

@[simp] theorem State.seaDisable_leaves (s : State) :
    Leaves (regs := may) (stw := may) (eth := may) (sea := may) (sc := may) s (s.seaDisable) := by
  simp [Leaves, State.seaDisable]

@[simp] theorem State.appoint_leaves (s : State) : Leaves (eth := may) (sea := may) s (s.appoint) := by
  simp only [State.appoint]
  (repeat' split) <;> simp [Leaves]

@[simp] theorem State.takePrio_leaves (s : State) : Leaves (stw := may) (eth := may) (sea := may) (sc := may) s (s.takePrio) := by
  simp [Leaves, State.takePrio, ite_fields]

@[simp] theorem State.dropMember_leaves (s : State) (k reason : Nat) :
    Leaves (stw := may) (eth := may) (sea := may) s (s.dropMember k reason) := by
  simp [Leaves, State.dropMember, ite_fields]

@[simp] theorem State.noteStation_leaves (s : State) (m : SeamMsg) : Leaves (sea := may) s (s.noteStation m) := by
  simp [Leaves, State.noteStation]

@[simp] theorem State.copyGoesOn_leaves (s : State) : Leaves (sea := may) s (s.copyGoesOn) := by
  simp [Leaves, State.copyGoesOn, ite_fields]

@[simp] theorem State.yielded_leaves (s : State) : Leaves (stw := may) (eth := may) (sea := may) (sc := may) s (s.yielded) := by
  simp [Leaves, State.yielded]

@[simp] theorem State.steer_leaves (s : State) (cepoch cns : Nat) : Leaves (sea := may) s (s.steer cepoch cns) := by
  simp only [State.steer]
  (repeat' split) <;> simp [Leaves]

@[simp] theorem State.takeBeacon_leaves (s : State) (b : List Byte) : Leaves (sea := may) s (s.takeBeacon b) := by
  simp [Leaves, State.takeBeacon]

@[simp] theorem State.validBeacon_leaves (s : State) (m : SeamMsg) :
    Leaves (stw := may) (eth := may) (sea := may) (sc := may) s (s.validBeacon m) := by
  simp [Leaves, State.validBeacon, ite_fields]

@[simp] theorem State.joinBeacon_leaves (s : State) (m : SeamMsg) (reason : Nat) :
    Leaves (stw := may) (eth := may) (sea := may) (sc := may) s (s.joinBeacon m reason) := by
  simp [Leaves, State.joinBeacon, ite_fields]

@[simp] theorem State.serveCluStatus_leaves (s : State) (f : Flight) :
    Leaves (stw := may) (eth := may) s (s.serveCluStatus f) := by
  simp [Leaves, State.serveCluStatus, ite_fields]

@[simp] theorem State.serveRegGet_leaves (s : State) (f : Flight) : Leaves (stw := may) (eth := may) s (s.serveRegGet f) := by
  simp only [State.serveRegGet]
  (repeat' split) <;> simp [Leaves]

@[simp] theorem State.serveRegPut_leaves (s : State) (f : Flight) :
    Leaves (stw := may) (eth := may) (sea := may) s (s.serveRegPut f) := by
  simp [Leaves, State.serveRegPut, ite_fields]

@[simp] theorem State.serveStations_leaves (s : State) (f : Flight) : Leaves (stw := may) (eth := may) s (s.serveStations f) := by
  simp [Leaves, State.serveStations, ite_fields]

@[simp] theorem State.serveCluLeave_leaves (s : State) (f : Flight) :
    Leaves (stw := may) (eth := may) (sea := may) (sc := may) s (s.serveCluLeave f) := by
  simp [Leaves, State.serveCluLeave, ite_fields]

@[simp] theorem State.retone_leaves (s : State) (n : Nat) : Leaves (plx := may) s (s.retone n) := by simp [Leaves, State.retone]

@[simp] theorem State.settleIdle_leaves (s : State) (n m fin : Nat) : Leaves (plx := may) s (s.settleIdle n m fin) := by
  simp [Leaves, State.settleIdle]

@[simp] theorem State.contend_leaves (s : State) (n m at_ : Nat) : Leaves (plx := may) s (s.contend n m at_) := by
  simp only [State.contend]
  (repeat' split) <;> simp [Leaves]

/-- A placement that may find no engine. -/
theorem State.place_getD_leaves (s t : State) (c : Ctx) : ∃ x, (s.place c).getD t = { s with fau := x } ∨ (s.place c).getD t = t := by
  simp only [State.place]
  (repeat' split)
  · exact ⟨s.fau, .inl rfl⟩
  · exact ⟨s.fau, .inr rfl⟩
  · exact ⟨_, .inl rfl⟩

@[simp] theorem State.place_getD_self (s : State) (c : Ctx) : Leaves (fau := may) s ((s.place c).getD s) := by
  obtain ⟨x, h | h⟩ := s.place_getD_leaves s c <;> rw [h] <;> simp [Leaves]

@[simp] theorem State.queueLineAt_leaves (s : State) (n m at_ : Nat) (f : LineFrame) :
    Leaves (fau := may) (plx := may) s (s.queueLineAt n m at_ f) := by
  simp [Leaves, State.queueLineAt, ite_fields]

@[simp] theorem State.queueLine_leaves (s : State) (n m : Nat) (f : LineFrame) :
    Leaves (fau := may) (plx := may) s (s.queueLine n m f) := by
  simp [Leaves, State.queueLine]

@[simp] theorem State.newSeq_leaves (s : State) (dst : Nat) : Leaves (plx := may) s (s.newSeq dst).1 := by
  simp [Leaves, State.newSeq]

@[simp] theorem State.nodeJoined_leaves (s : State) (short : Nat) (x : Node) :
    Leaves (stw := may) (eth := may) (sea := may) s (s.nodeJoined short x) := by
  simp [Leaves, State.nodeJoined]

@[simp] theorem State.lineResult_leaves (s : State) (ref : Nat) (f : LineFrame) (result : Nat) :
    Leaves (stw := may) (eth := may) s (s.lineResult ref f result) := by
  simp [Leaves, State.lineResult]

@[simp] theorem State.includeCycle_leaves (s : State) (n : Nat) : Leaves (plx := may) s (s.includeCycle n) := by
  simp [Leaves, State.includeCycle]

@[simp] theorem State.stepLink_leaves (s : State) (n m : Nat) : Leaves (plx := may) s (s.stepLink n m) := by
  simp [Leaves, State.stepLink, ite_fields]

@[simp] theorem State.census_leaves (s : State) (n : Nat) (o : ChanOut) : Leaves (plx := may) s (s.census n o) := by
  simp [Leaves, State.census]

@[simp] theorem State.takeOut_leaves (s : State) (n : Nat) (o : ChanOut) : Leaves (plx := may) s (s.takeOut n o) := by
  simp [Leaves, State.takeOut, ite_fields]

@[simp] theorem State.takeOuts_leaves (s : State) (n : Nat) (l : List ChanOut) : Leaves (plx := may) s (s.takeOuts n l) := by
  simp [Leaves, State.takeOuts]

@[simp] theorem State.copyCensus_leaves (s : State) (n : Nat) :
    Leaves (regs := may) (mem := may) (spl := may) s (s.copyCensus n) := by
  unfold State.copyCensus
  extract_lets a0 done buf a ok r t
  split
  · have hr : Leaves (mem := may) s r := by simp [r, Leaves, State.put]
    have ht : Leaves (regs := may) (spl := may) r t := State.spoolMoved_leaves _ _ _
    clear_value t r
    simp_all [Leaves]
  · simp [Leaves]

@[simp] theorem State.sendOffer_leaves (s : State) (n m node : Nat) (p : PMap) :
    Leaves (fau := may) (plx := may) s (s.sendOffer n m node p) := by
  simp [Leaves, State.sendOffer]

@[simp] theorem State.endOffer_leaves (s : State) (n m : Nat) : Leaves (plx := may) s (s.endOffer n m) := by
  simp only [State.endOffer]
  (repeat' split) <;> simp [Leaves]

@[simp] theorem State.startOffer_leaves (s : State) (n m : Nat) (p : PMap) :
    Leaves (regs := may) (fau := may) (plx := may) s (s.startOffer n m p) := by
  simp [Leaves, State.startOffer]

@[simp] theorem State.nextOffer_leaves (s : State) (n m : Nat) :
    Leaves (regs := may) (fau := may) (plx := may) s (s.nextOffer n m) := by
  simp only [State.nextOffer]
  (repeat' split) <;> simp [Leaves]

@[simp] theorem State.offerDone_leaves (s : State) (n m node version : Nat) (ok : Bool) :
    Leaves (regs := may) (lin := may) (fau := may) (plx := may) s (s.offerDone n m node version ok) := by
  simp only [State.offerDone]
  (repeat' split) <;> simp [Leaves]

@[simp] theorem State.startRebuild_leaves (s : State) (n m : Nat) : Leaves (plx := may) s (s.startRebuild n m) := by
  simp [Leaves, State.startRebuild, ite_fields]

@[simp] theorem State.rebuildNow_leaves (s : State) (n m : Nat) : Leaves (plx := may) s (s.rebuildNow n m) := by
  simp [Leaves, State.rebuildNow, ite_fields]

@[simp] theorem State.rebuildDone_leaves (s : State) (n m : Nat) :
    Leaves (regs := may) (fau := may) (plx := may) s (s.rebuildDone n m) := by
  simp [Leaves, State.rebuildDone, ite_fields]

@[simp] theorem State.rebuilt_leaves (s : State) (n m : Nat) :
    Leaves (regs := may) (fau := may) (plx := may) s (s.rebuilt n m) := by
  simp [Leaves, State.rebuilt, ite_fields]

@[simp] theorem State.cycleEnd_leaves (s : State) (n : Nat) (x : PleatTimer) :
    Leaves (regs := may) (mem := may) (plx := may) (spl := may) s (s.cycleEnd n x) := by
  simp only [State.cycleEnd]
  split
  · refine foldl_keeps (Leaves (regs := may) (mem := may) (plx := may) (spl := may) s) _ (fun t m h => ?_) _ _ ?_
    · (repeat' split) <;> simp_all [Leaves]
    · simp [Leaves, ite_fields]
  · simp [Leaves]

@[simp] theorem State.serveMapRead_leaves (s : State) (f : Flight) : Leaves (stw := may) (eth := may) s (s.serveMapRead f) := by
  simp [Leaves, State.serveMapRead, ite_fields]

@[simp] theorem State.sendStarts_leaves (s : State) (n t : Nat) : Leaves (plx := may) s (s.sendStarts n t) := by
  simp [Leaves, State.sendStarts, ite_fields]

@[simp] theorem State.sendEnds_leaves (s : State) (n : Nat) : Leaves (plx := may) s (s.sendEnds n) := by
  simp only [State.sendEnds]
  (repeat' split) <;> simp [Leaves]

@[simp] theorem State.linkQuiet_leaves (s : State) (n m : Nat) : Leaves (fau := may) s (s.linkQuiet n m) := by
  simp [Leaves, State.linkQuiet, ite_fields]

@[simp] theorem State.joinNode_leaves (s : State) (short : Nat) :
    Leaves (lin := may) (stw := may) (eth := may) (sea := may) (plx := may) s (s.joinNode short) := by
  simp only [State.joinNode]
  (repeat' split) <;> simp [Leaves]

@[simp] theorem State.jobDone_leaves (s : State) (n m : Nat) (f : LineFrame) (ok : Bool) (result : Nat) :
    Leaves (regs := may) (lin := may) (stw := may) (eth := may) (fau := may) (sea := may) (plx := may)
      s (s.jobDone n m f ok result) := by
  simp only [State.jobDone]
  (repeat' split) <;> simp [Leaves]

@[simp] theorem State.countFail_leaves (s : State) (f : LineFrame) : Leaves (lin := may) (plx := may) s (s.countFail f) := by
  simp only [State.countFail]
  (repeat' split) <;> simp [Leaves]

@[simp] theorem State.popLine_leaves (s : State) (n m at_ : Nat) (ok : Bool) (result : Nat) :
    Leaves (regs := may) (lin := may) (stw := may) (eth := may) (fau := may) (sea := may) (plx := may)
      s (s.popLine n m at_ ok result) := by
  simp only [State.popLine]
  (repeat' split) <;> simp [Leaves]

@[simp] theorem State.tryFailed_leaves (s : State) (n m at_ : Nat) :
    Leaves (regs := may) (lin := may) (stw := may) (eth := may) (fau := may) (sea := may) (plx := may)
      s (s.tryFailed n m at_) := by
  simp only [State.tryFailed]
  (repeat' split) <;> simp [Leaves]

@[simp] theorem State.beginTry_leaves (s : State) (n m start : Nat) (f : LineFrame) (l : List LineFrame) :
    Leaves (regs := may) (lin := may) (plx := may) s (s.beginTry n m start f l) := by
  simp only [State.beginTry]
  (repeat' split) <;> simp [Leaves]

@[simp] theorem State.contended_leaves (s : State) (n m : Nat) :
    Leaves (regs := may) (lin := may) (plx := may) s (s.contended n m) := by
  simp only [State.contended]
  (repeat' split) <;> simp [Leaves]

@[simp] theorem State.defers_leaves (s : State) (n m : Nat) (level : Option Int) :
    Leaves (regs := may) (plx := may) s (s.defers n m level) := by
  simp [Leaves, State.defers, ite_fields]

@[simp] theorem State.fallsIdle_leaves (s : State) (n m : Nat) : Leaves (plx := may) s (s.fallsIdle n m) := by
  simp only [State.fallsIdle]
  (repeat' split) <;> simp [Leaves]

@[simp] theorem State.txOver_leaves (s : State) (n m fin : Nat) (cut : Bool) : Leaves (plx := may) s (s.txOver n m fin cut) := by
  simp [Leaves, State.txOver]

@[simp] theorem State.tryEnds_leaves (s : State) (n m fin : Nat) (cut : Bool) (x : LineTx) :
    Leaves (regs := may) (lin := may) (stw := may) (eth := may) (fau := may) (sea := may) (plx := may)
      s (s.tryEnds n m fin cut x) := by
  simp only [State.tryEnds]
  (repeat' split) <;> simp [Leaves]

@[simp] theorem State.ackLate_leaves (s : State) (n m : Nat) :
    Leaves (regs := may) (lin := may) (stw := may) (eth := may) (fau := may) (sea := may) (plx := may) s (s.ackLate n m) := by
  simp only [State.ackLate]
  (repeat' split) <;> simp [Leaves]

@[simp] theorem State.retries_leaves (s : State) (n m : Nat) : Leaves (plx := may) s (s.retries n m) := by
  simp only [State.retries]
  (repeat' split) <;> simp [Leaves]

@[simp] theorem State.txlimOff_leaves (s : State) (n : Nat) : Leaves (regs := may) (plx := may) s (s.txlimOff n) := by
  simp [Leaves, State.txlimOff]

@[simp] theorem State.lineDownlink_leaves (s : State) (f : Flight) (short : Nat) (x : Node) :
    Leaves (lin := may) (stw := may) (eth := may) (fau := may) (cip := may) (plx := may) s (s.lineDownlink f short x) := by
  simp only [State.lineDownlink]
  (repeat' split) <;> simp [Leaves]

@[simp] theorem State.lineSealed_leaves (s : State) (ref status : Nat) (nonce out : List Byte) :
    Leaves (stw := may) (eth := may) (fau := may) (plx := may) s (s.lineSealed ref status nonce out) := by
  simp only [State.lineSealed]
  (repeat' split) <;> simp [Leaves]

@[simp] theorem State.serveLineDownlink_leaves (s : State) (f : Flight) :
    Leaves (lin := may) (stw := may) (eth := may) (fau := may) (cip := may) (plx := may) s (s.serveLineDownlink f) := by
  simp only [State.serveLineDownlink]
  (repeat' split) <;> simp [Leaves]

@[simp] theorem State.expireLine_leaves (s : State) (ref : Nat) :
    Leaves (lin := may) (stw := may) (eth := may) (fau := may) (plx := may) s (s.expireLine ref) := by
  simp only [State.expireLine]
  (repeat' split) <;> simp [Leaves]

@[simp] theorem State.endQueue_leaves (s : State) (n m : Nat) :
    Leaves (regs := may) (lin := may) (stw := may) (eth := may) (fau := may) (sea := may) (plx := may) s (s.endQueue n m) := by
  simp [Leaves, State.endQueue, ite_fields]

@[simp] theorem State.dropFrames_leaves (s : State) (n m short : Nat) :
    Leaves (regs := may) (lin := may) (stw := may) (eth := may) (fau := may) (sea := may) (plx := may)
      s (s.dropFrames n m short) := by
  simp [Leaves, State.dropFrames, ite_fields]

@[simp] theorem State.dropNode_leaves (s : State) (short : Nat) :
    Leaves (regs := may) (lin := may) (stw := may) (eth := may) (fau := may) (sea := may) (plx := may) s (s.dropNode short) := by
  simp [Leaves, State.dropNode]

@[simp] theorem State.endSlot_leaves (s : State) (n m : Nat) :
    Leaves (regs := may) (lin := may) (stw := may) (eth := may) (fau := may) (sea := may) (plx := may) s (s.endSlot n m) := by
  simp [Leaves, State.endSlot, ite_fields]

@[simp] theorem State.applyLink_leaves (s : State) (n m : Nat) :
    Leaves (regs := may) (lin := may) (stw := may) (eth := may) (fau := may) (sea := may) (plx := may) s (s.applyLink n m) := by
  simp [Leaves, State.applyLink, ite_fields]

@[simp] theorem State.plxBoundary_leaves (s : State) (n : Nat) :
    Leaves (regs := may) (lin := may) (stw := may) (eth := may) (fau := may) (sea := may) (plx := may) s (s.plxBoundary n) := by
  simp [Leaves, State.plxBoundary, ite_fields]

@[simp] theorem State.plxGo_leaves (s : State) (n : Nat) :
    Leaves (regs := may) (lin := may) (stw := may) (eth := may) (fau := may) (sea := may) (plx := may) s (s.plxGo n) := by
  simp [Leaves, State.plxGo, ite_fields]

@[simp] theorem State.plxStart_leaves (s : State) (n : Nat) : Leaves (regs := may) (plx := may) s (s.plxStart n) := by
  simp [Leaves, State.plxStart]

@[simp] theorem State.plxStop_leaves (s : State) (n : Nat) :
    Leaves (regs := may) (lin := may) (stw := may) (eth := may) (fau := may) (sea := may) (plx := may) s (s.plxStop n) := by
  simp [Leaves, State.plxStop, ite_fields]

@[simp] theorem State.calRestart_leaves (s : State) (n : Nat) : Leaves (plx := may) s (s.calRestart n) := by
  simp [Leaves, State.calRestart, ite_fields]

@[simp] theorem State.calFreeze_leaves (s : State) (n : Nat) (on : Bool) :
    Leaves (regs := may) (plx := may) s (s.calFreeze n on) := by
  simp [Leaves, State.calFreeze, ite_fields]

@[simp] theorem State.enterService_leaves (s : State) (n : Nat) :
    Leaves (stw := may) (eth := may) (plx := may) s (s.enterService n) := by
  simp [Leaves, State.enterService, ite_fields]

@[simp] theorem State.dropCand_leaves (s : State) (n m : Nat) (c : LineCand) :
    Leaves (fau := may) (plx := may) s (s.dropCand n m c) := by
  simp [Leaves, State.dropCand]

@[simp] theorem State.holdCand_leaves (s : State) (n m : Nat) (c : LineCand) :
    Leaves (regs := may) (plx := may) s (s.holdCand n m c) := by
  simp [Leaves, State.holdCand]

@[simp] theorem State.preempt_leaves (s : State) (n m : Nat) (old : List LineCand) (c : LineCand) :
    Leaves (regs := may) (fau := may) (plx := may) s (s.preempt n m old c) := by
  simp [Leaves, State.preempt, ite_fields]

@[simp] theorem State.newCand_leaves (s : State) (n m : Nat) (c : LineCand) :
    Leaves (regs := may) (fau := may) (plx := may) s (s.newCand n m c) := by
  simp only [State.newCand]
  split
  next u h =>
    have hu := State.place_frame _ _ _ h
    simp only [ButFau] at hu
    simp [Leaves, hu]
  next => simp [Leaves]

@[simp] theorem State.linePeak_leaves (s : State) (n m : Nat) (metric : Nat × Nat) (start : Nat) :
    Leaves (regs := may) (fau := may) (plx := may) s (s.linePeak n m metric start) := by
  simp only [State.linePeak]
  (repeat' split) <;> simp [Leaves]

@[simp] theorem State.candFails_leaves (s : State) (n m : Nat) (c : LineCand) :
    Leaves (regs := may) (fau := may) (plx := may) s (s.candFails n m c) := by
  simp [Leaves, State.candFails]

@[simp] theorem State.lineDelim_leaves (s : State) (n m place : Nat) (soft : List Int) :
    Leaves (regs := may) (fau := may) (plx := may) s (s.lineDelim n m place soft) := by
  simp only [State.lineDelim]
  (repeat' split) <;> simp [Leaves]

@[simp] theorem State.offerAgain_leaves (s : State) (n m short : Nat) (y : Node) :
    Leaves (fau := may) (plx := may) s (s.offerAgain n m short y) := by
  simp only [State.offerAgain]
  (repeat' split) <;> simp [Leaves]

@[simp] theorem State.nodeHeard_leaves (s : State) (n m short start margin : Nat) (energy : Option Nat) :
    Leaves (lin := may) (stw := may) (eth := may) (fau := may) (sea := may) (plx := may)
      s (s.nodeHeard n m short start margin energy) := by
  simp only [State.nodeHeard]
  (repeat' split) <;> simp [Leaves]

@[simp] theorem State.answerJoin_leaves (s : State) (n m : Nat) (job : LineJob) (prio node : Nat) (route : List Nat) (p : List Byte) :
    Leaves (fau := may) (plx := may) s (s.answerJoin n m job prio node route p) := by
  simp [Leaves, State.answerJoin, ite_fields]

@[simp] theorem State.joinReq_leaves (s : State) (n m ext caps : Nat) (route : List Nat) :
    Leaves (lin := may) (fau := may) (plx := may) s (s.joinReq n m ext caps route) := by
  simp [Leaves, State.joinReq, ite_fields]

@[simp] theorem State.noiseReport_leaves (s : State) (n m short : Nat) (p : List Byte) :
    Leaves (lin := may) (plx := may) s (s.noiseReport n m short p) := by
  simp only [State.noiseReport]
  (repeat' split) <;> simp [Leaves]

@[simp] theorem State.lineControl_leaves (s : State) (n m src : Nat) (p : List Byte) :
    Leaves (lin := may) (fau := may) (plx := may) s (s.lineControl n m src p) := by
  simp only [State.lineControl]
  (repeat' split) <;> simp [Leaves]

@[simp] theorem State.deliverLine_leaves (s : State) (n m short seq start margin hops : Nat) (sec relayed : Bool) (a0 p : List Byte) :
    Leaves (regs := may) (lin := may) (stw := may) (eth := may) (cip := may)
      s (s.deliverLine n m short seq start margin hops sec relayed a0 p) := by
  simp only [State.deliverLine]
  (repeat' split) <;> simp [Leaves]

@[simp] theorem State.lineRelay_leaves (s : State) (n m src start margin : Nat) (p : List Byte) :
    Leaves (regs := may) (lin := may) (stw := may) (eth := may) (fau := may) (cip := may) (sea := may) (plx := may)
      s (s.lineRelay n m src start margin p) := by
  simp only [State.lineRelay]
  (repeat' split) <;> simp [Leaves]

@[simp] theorem State.lineFrame_leaves (s : State) (n m : Nat) (r : LineRx) (p : List Byte) (energy : Nat) (snr : Int) :
    Leaves (regs := may) (lin := may) (stw := may) (eth := may) (fau := may) (cip := may) (sea := may) (plx := may)
      s (s.lineFrame n m r p energy snr) := by
  simp only [State.lineFrame]
  (repeat' split) <;> simp [Leaves]

@[simp] theorem State.rxOver_leaves (s : State) (n m : Nat) (r : LineRx) :
    Leaves (fau := may) (plx := may) s (s.rxOver n m r) := by
  simp [Leaves, State.rxOver]

@[simp] theorem State.ackKnown_leaves (s : State) (n m : Nat) (ok : Bool) : Leaves (plx := may) s (s.ackKnown n m ok) := by
  simp only [State.ackKnown]
  (repeat' split) <;> simp [Leaves]

@[simp] theorem State.joinRx_leaves (s : State) (n m : Nat) : Leaves (fau := may) s (s.joinRx n m) := by
  simp only [State.joinRx]
  split
  · obtain ⟨x, h | h⟩ := (s.unplace (.lineTx n m)).place_getD_leaves s (.lineTx n m) <;> rw [h] <;> simp [Leaves]
  · simp [Leaves]

@[simp] theorem State.headPassed_leaves (s : State) (n m : Nat) (r : LineRx) :
    Leaves (fau := may) (plx := may) s (s.headPassed n m r) := by
  simp only [State.headPassed]
  (repeat' split) <;> simp [Leaves]

@[simp] theorem State.windowMissed_leaves (s : State) (n m : Nat) (c : LineCand) :
    Leaves (regs := may) (lin := may) (stw := may) (eth := may) (fau := may) (sea := may) (plx := may)
      s (s.windowMissed n m c) := by
  simp only [State.windowMissed]
  (repeat' split) <;> simp [Leaves]

@[simp] theorem State.countErased_leaves (s : State) (n m mode start : Nat) (map : Option PMap) (d : Int) (l : List DataSlot) :
    Leaves (regs := may) s (s.countErased n m mode start map d l) := by
  simp [Leaves, State.countErased]

@[simp] theorem State.headFails_leaves (s : State) (n m : Nat) (c : LineCand) :
    Leaves (regs := may) (lin := may) (stw := may) (eth := may) (fau := may) (sea := may) (plx := may) s (s.headFails n m c) := by
  simp only [State.headFails]
  (repeat' split) <;> simp [Leaves]

@[simp] theorem State.headWins_leaves (s : State) (n m : Nat) (r : LineRx) (energy : Nat) (snr : Int) :
    Leaves (regs := may) (lin := may) (stw := may) (eth := may) (fau := may) (cip := may) (sea := may) (plx := may)
      s (s.headWins n m r energy snr) := by
  simp [Leaves, State.headWins, ite_fields]

@[simp] theorem State.headsDone_leaves (s : State) (n m : Nat) (l : List (LineCand × Option LineRx)) (energy : Nat) (snr : Int) :
    Leaves (regs := may) (lin := may) (stw := may) (eth := may) (fau := may) (cip := may) (sea := may) (plx := may)
      s (s.headsDone n m l energy snr) := by
  unfold State.headsDone
  split <;> simp [Leaves]

@[simp] theorem State.lineHead_leaves (s : State) (n m place : Nat) (soft : List (List SlotSoft)) (energy : Nat) (snr : Int) :
    Leaves (regs := may) (lin := may) (stw := may) (eth := may) (fau := may) (cip := may) (sea := may) (plx := may)
      s (s.lineHead n m place soft rival energy snr) := by
  simp only [State.lineHead]
  (repeat' split) <;> simp [Leaves]

@[simp] theorem State.linePayload_leaves (s : State) (n m : Nat) (soft : List SlotSoft) (energy : Nat) (snr : Int) :
    Leaves (regs := may) (lin := may) (stw := may) (eth := may) (fau := may) (cip := may) (sea := may) (plx := may)
      s (s.linePayload n m soft energy snr) := by
  simp only [State.linePayload]
  (repeat' split) <;> simp [Leaves]

@[simp] theorem State.serveNodeList_leaves (s : State) (f : Flight) : Leaves (stw := may) (eth := may) s (s.serveNodeList f) := by
  simp [Leaves, State.serveNodeList, ite_fields]

@[simp] theorem State.serveNodeGet_leaves (s : State) (f : Flight) : Leaves (stw := may) (eth := may) s (s.serveNodeGet f) := by
  simp only [State.serveNodeGet]
  (repeat' split) <;> simp [Leaves]

@[simp] theorem State.removeNode_leaves (s : State) (short : Nat) (y : Node) :
    Leaves (regs := may) (lin := may) (stw := may) (eth := may) (fau := may) (sea := may) (plx := may)
      s (s.removeNode short y) := by
  simp [Leaves, State.removeNode]

@[simp] theorem State.serveNodeRemove_leaves (s : State) (f : Flight) :
    Leaves (regs := may) (lin := may) (stw := may) (eth := may) (fau := may) (sea := may) (plx := may)
      s (s.serveNodeRemove f) := by
  simp only [State.serveNodeRemove]
  (repeat' split) <;> simp [Leaves]

@[simp] theorem State.servePortStats_leaves (s : State) (f : Flight) :
    Leaves (stw := may) (eth := may) s (s.servePortStats f) := by
  simp [Leaves, State.servePortStats, ite_fields]

@[simp] theorem State.takeAir_leaves (s : State) (n m : Nat) (outs : List AirOut) :
    Leaves (air := may) s (s.takeAir n m outs) := by
  simp [Leaves, State.takeAir, ite_fields]

@[simp] theorem State.writeDuty_leaves (s : State) (a : Nat) (waiter : Option Nat) :
    Leaves (lin := may) s (s.writeDuty a waiter) := by
  simp [Leaves, State.writeDuty]

@[simp] theorem State.chargeDuty_leaves (s : State) (a us : Nat) : Leaves (air := may) s (s.chargeDuty a us) := by
  simp [Leaves, State.chargeDuty]

@[simp] theorem State.dutyCheck_leaves (s : State) (n m us : Nat) (ack : Bool) (waiter : Option Nat) :
    Leaves (regs := may) (lin := may) (air := may) s (s.dutyCheck n m us ack waiter).1 := by
  simp only [State.dutyCheck]
  (repeat' split) <;> simp [Leaves]

@[simp] theorem State.applyChan_leaves (s : State) (n m : Nat) : Leaves (regs := may) s (s.applyChan n m) := by
  simp [Leaves, State.applyChan]

@[simp] theorem State.airBoundary_leaves (s : State) (n : Nat) : Leaves (regs := may) (lin := may) s (s.airBoundary n) := by
  simp [Leaves, State.airBoundary, ite_fields]

@[simp] theorem State.airGo_leaves (s : State) (n : Nat) : Leaves (regs := may) (lin := may) s (s.airGo n) := by
  simp [Leaves, State.airGo]

@[simp] theorem State.endReceptions_leaves (s : State) (n : Nat) :
    Leaves (regs := may) (fau := may) (air := may) s (s.endReceptions n) := by
  simp [Leaves, State.endReceptions]

@[simp] theorem State.bringFails_leaves (s : State) (n reason : Nat) : Leaves (air := may) s (s.bringFails n reason) := by
  simp [Leaves, State.bringFails]

@[simp] theorem State.airEnters_leaves (s : State) (n : Nat) : Leaves (air := may) s (s.airEnters n) := by
  simp [Leaves, State.airEnters, ite_fields]

@[simp] theorem State.dropDown_leaves (s : State) (id : Nat) : Leaves (air := may) s (s.dropDown id) := by
  simp [Leaves, State.dropDown]

@[simp] theorem State.addDown_leaves (s : State) (d : AirDown) : Leaves (air := may) s (s.addDown d) := by
  simp [Leaves, State.addDown]

@[simp] theorem State.airSeq_leaves (s : State) : Leaves (air := may) s (s.airSeq).1 := by simp [Leaves, State.airSeq]

@[simp] theorem State.airResult_leaves (s : State) (d : AirDown) (status : Nat) (result : Option Nat) :
    Leaves (stw := may) (eth := may) s (s.airResult d status result) := by
  unfold State.airResult
  split <;> simp [Leaves]

@[simp] theorem State.noteFail_leaves (s : State) (d : AirDown) : Leaves (lin := may) (air := may) s (s.noteFail d) := by
  simp only [State.noteFail]
  (repeat' split) <;> simp [Leaves]

@[simp] theorem State.setPlan_leaves (s : State) (d : AirDown) (p : AirPlan) :
    Leaves (regs := may) (lin := may) (air := may) s (s.setPlan d p).1 := by
  unfold State.setPlan
  split <;> simp [Leaves]

@[simp] theorem State.nextDown_leaves (s : State) (ext n : Nat) :
    Leaves (regs := may) (lin := may) (stw := may) (eth := may) (air := may) s (s.nextDown ext n) := by
  induction n generalizing s with
  | zero => simp [Leaves, State.nextDown]
  | succ n ih =>
    simp only [State.nextDown]
    (repeat' split) <;> simp [Leaves, ih]

@[simp] theorem State.endDown_leaves (s : State) (d : AirDown) (status : Nat) (result : Option Nat) :
    Leaves (regs := may) (lin := may) (stw := may) (eth := may) (air := may) s (s.endDown d status result) := by
  simp [Leaves, State.endDown, ite_fields]

@[simp] theorem State.dutyRefused_leaves (s : State) (d : AirDown) :
    Leaves (regs := may) (lin := may) (stw := may) (eth := may) (air := may) s (s.dutyRefused d) := by
  unfold State.dutyRefused
  split <;> simp [Leaves]

@[simp] theorem State.planTry_leaves (s : State) (d : AirDown) :
    Leaves (regs := may) (lin := may) (stw := may) (eth := may) (air := may) s (s.planTry d) := by
  simp only [State.planTry]
  (repeat' split) <;> simp [Leaves]

@[simp] theorem State.airFailed_leaves (s : State) (d : AirDown) :
    Leaves (regs := may) (lin := may) (stw := may) (eth := may) (air := may) s (s.airFailed d) := by
  simp [Leaves, State.airFailed, ite_fields]

@[simp] theorem State.cutReceptions_leaves (s : State) (n m : Nat) :
    Leaves (regs := may) (fau := may) (air := may) s (s.cutReceptions n m) := by
  simp [Leaves, State.cutReceptions]

@[simp] theorem State.airBegin_leaves (s : State) (n m : Nat) (what : AirWhat) (start pre : Nat) (four dw : Bool) (mac : List Byte) :
    Leaves (regs := may) (fau := may) (air := may) s (s.airBegin n m what start pre four dw mac) := by
  simp [Leaves, State.airBegin]

@[simp] theorem State.sendDown_leaves (s : State) (d : AirDown) (p : AirPlan) :
    Leaves (regs := may) (fau := may) (air := may) s (s.sendDown d p) := by
  simp [Leaves, State.sendDown]

@[simp] theorem State.relisten_leaves (s : State) (n : Nat) : Leaves (air := may) s (s.relisten n) := by
  unfold State.relisten
  refine foldl_keeps (Leaves (air := may) s) _ (fun t d h => ?_) _ _ (by simp [Leaves])
  dsimp only
  (repeat' split) <;> simp_all [Leaves]

@[simp] theorem State.nextCopy_leaves (s : State) (d : AirDown) (p : AirPlan) (fin : Nat) :
    Leaves (regs := may) (lin := may) (stw := may) (eth := may) (air := may) s (s.nextCopy d p fin) := by
  simp only [State.nextCopy]
  (repeat' split) <;> simp [Leaves]

@[simp] theorem State.nextWake_leaves (s : State) (d : AirDown) :
    Leaves (regs := may) (lin := may) (stw := may) (eth := may) (air := may) s (s.nextWake d) := by
  unfold State.nextWake
  split <;> simp [Leaves]

@[simp] theorem State.skipCopy_leaves (s : State) (d : AirDown) (p : AirPlan) :
    Leaves (regs := may) (lin := may) (stw := may) (eth := may) (air := may) s (s.skipCopy d p) := by
  simp [Leaves, State.skipCopy, ite_fields]

@[simp] theorem State.skipBeacons_leaves (s : State) (n : Nat) (p : AirDown → Bool) :
    Leaves (regs := may) (air := may) s (s.skipBeacons n p) := by
  simp [Leaves, State.skipBeacons]

@[simp] theorem State.staleBeacons_leaves (s : State) (n : Nat) : Leaves (regs := may) (air := may) s (s.staleBeacons n) := by
  simp [Leaves, State.staleBeacons]

@[simp] theorem State.startDown_leaves (s : State) (n : Nat) (d : AirDown) (p : AirPlan) :
    Leaves (regs := may) (lin := may) (stw := may) (eth := may) (fau := may) (air := may) s (s.startDown n d p) := by
  simp only [State.startDown]
  (repeat' split) <;> simp [Leaves]

@[simp] theorem State.openWindow_leaves (s : State) (ext short n m at_ : Nat) :
    Leaves (regs := may) (lin := may) (stw := may) (eth := may) (air := may) s (s.openWindow ext short n m at_) := by
  unfold State.openWindow
  extract_lets w air s1 capable dg q body mac s2 free mine order first s3
  have h1 : Leaves (air := may) s s1 := by simp [s1, Leaves]
  have h2 : Leaves (air := may) s1 s2 := by
    simp only [s2, q]
    split <;> simp [Leaves]
  have h3 : Leaves (regs := may) (lin := may) (stw := may) (eth := may) (air := may) s2 s3 := by simp [s3, Leaves]
  clear_value s3 first order mine s2 mac body q dg capable s1
  split
  · simp_all [Leaves]
  · extract_lets r
    have hr : Leaves (regs := may) (lin := may) (stw := may) (eth := may) (air := may) s3 r.1 := by simp [r, Leaves]
    clear_value r
    split <;> simp_all [Leaves]

@[simp] theorem State.downSent_leaves (s : State) (id start fin : Nat) :
    Leaves (regs := may) (lin := may) (stw := may) (eth := may) (air := may) s (s.downSent id start fin) := by
  simp only [State.downSent]
  (repeat' split) <;> simp [Leaves]

@[simp] theorem State.airDownlink_leaves (s : State) (f : Flight) (short : Nat) (x : Sensor) :
    Leaves (regs := may) (lin := may) (stw := may) (eth := may) (cip := may) (air := may) s (s.airDownlink f short x) := by
  simp [Leaves, State.airDownlink, ite_fields]

@[simp] theorem State.airSealed_leaves (s : State) (id status : Nat) (nonce out : List Byte) :
    Leaves (regs := may) (lin := may) (stw := may) (eth := may) (air := may) s (s.airSealed id status nonce out) := by
  simp only [State.airSealed]
  (repeat' split) <;> simp [Leaves]

@[simp] theorem State.serveAirDownlink_leaves (s : State) (f : Flight) :
    Leaves (regs := may) (lin := may) (stw := may) (eth := may) (cip := may) (air := may) s (s.serveAirDownlink f) := by
  simp only [State.serveAirDownlink]
  (repeat' split) <;> simp [Leaves]

@[simp] theorem State.expireAir_leaves (s : State) (ref : Nat) :
    Leaves (regs := may) (lin := may) (stw := may) (eth := may) (air := may) s (s.expireAir ref) := by
  simp only [State.expireAir]
  (repeat' split) <;> simp [Leaves]

@[simp] theorem State.cutSends_leaves (s : State) (n : Nat) (sent : Bool) :
    Leaves (regs := may) (lin := may) (stw := may) (eth := may) (air := may) s (s.cutSends n sent) := by
  unfold State.cutSends
  extract_lets p tails t copied u v
  have hu : Leaves (regs := may) (lin := may) (stw := may) (eth := may) (air := may) s u := by
    refine foldl_keeps (Leaves (regs := may) (lin := may) (stw := may) (eth := may) (air := may) s) _ (fun t x h => ?_) _ _ ?_
    · (repeat' split) <;> simp_all [Leaves]
    · simp [t, Leaves]
  clear_value u
  simp_all [Leaves, v]

@[simp] theorem State.airStart_leaves (s : State) (n : Nat) :
    Leaves (regs := may) (caps := may) (air := may) s (s.airStart n) := by
  simp [Leaves, State.airStart]

@[simp] theorem State.airStop_leaves (s : State) (n : Nat) :
    Leaves (regs := may) (lin := may) (stw := may) (eth := may) (fau := may) (caps := may) (air := may) s (s.airStop n) := by
  simp [Leaves, State.airStop]

@[simp] theorem State.airDeliver_leaves (s : State) (kind port chan epoch ns margin : Nat) (f : MacFrame) :
    Leaves (regs := may) (lin := may) (stw := may) (eth := may) (cip := may)
      s (s.airDeliver kind port chan epoch ns margin f) := by
  simp [Leaves, State.airDeliver]

@[simp] theorem State.sensorHeard_leaves (s : State) (n m ts margin : Nat) (f : MacFrame) :
    Leaves (lin := may) (air := may) s (s.sensorHeard n m ts margin f) := by
  unfold State.sensorHeard
  split <;> simp [Leaves]

@[simp] theorem State.answerAssoc_leaves (s : State) (n m ext short status : Nat) :
    Leaves (air := may) s (s.answerAssoc n m ext short status) := by
  simp [Leaves, State.answerAssoc]

@[simp] theorem State.assocReq_leaves (s : State) (n m ext : Nat) (sleepy : Bool) (wake clk : Nat) :
    Leaves (lin := may) (air := may) s (s.assocReq n m ext sleepy wake clk) := by
  simp [Leaves, State.assocReq, ite_fields]

@[simp] theorem State.freeEntry_leaves (s : State) (short : Nat) (x : Sensor) :
    Leaves (lin := may) (stw := may) (eth := may) (sea := may) (air := may) s (s.freeEntry short x) := by
  simp [Leaves, State.freeEntry]

@[simp] theorem State.associated_leaves (s : State) (short ext : Nat) :
    Leaves (lin := may) (stw := may) (eth := may) (sea := may) (air := may) s (s.associated short ext) := by
  simp only [State.associated]
  (repeat' split) <;> simp [Leaves]

@[simp] theorem State.airCommand_leaves (s : State) (short : Nat) (body : List Byte) :
    Leaves (lin := may) (stw := may) (eth := may) (sea := may) (air := may) s (s.airCommand short body) := by
  simp only [State.airCommand]
  (repeat' split) <;> simp [Leaves]

@[simp] theorem State.airOrder_leaves (s : State) (f : MacFrame) :
    Leaves (lin := may) (stw := may) (eth := may) (cip := may) (sea := may) (air := may) s (s.airOrder f) := by
  simp only [State.airOrder]
  (repeat' split) <;> simp [Leaves]

@[simp] theorem State.ackDue_leaves (s : State) (n m phr fin margin : Nat) (f : MacFrame) :
    Leaves (regs := may) (lin := may) (air := may) s (s.ackDue n m phr fin margin f) := by
  simp [Leaves, State.ackDue, ite_fields]

@[simp] theorem State.downAcked_leaves (s : State) (d : AirDown) (fin : Nat) :
    Leaves (regs := may) (lin := may) (stw := may) (eth := may) (sea := may) (air := may) (sc := may) s (s.downAcked d fin) := by
  simp only [State.downAcked]
  (repeat' split) <;> simp [Leaves]

@[simp] theorem State.airAccepted_leaves (s : State) (n m phr ts fin margin : Nat) (f : MacFrame) :
    Leaves (regs := may) (lin := may) (stw := may) (eth := may) (cip := may) (sea := may) (air := may)
      s (s.airAccepted n m phr ts fin margin f) := by
  simp only [State.airAccepted]
  (repeat' split) <;> simp [Leaves]

@[simp] theorem State.airFrame_leaves (s : State) (n m phr ts fin margin : Nat) (mac : List Byte) :
    Leaves (regs := may) (lin := may) (stw := may) (eth := may) (cip := may) (sea := may) (air := may) (sc := may)
      s (s.airFrame n m phr ts fin margin mac) := by
  simp only [State.airFrame]
  (repeat' split) <;> simp [Leaves]

@[simp] theorem State.serveSensorGet_leaves (s : State) (f : Flight) :
    Leaves (stw := may) (eth := may) s (s.serveSensorGet f) := by
  simp only [State.serveSensorGet]
  (repeat' split) <;> simp [Leaves]

@[simp] theorem State.serveDisassociate_leaves (s : State) (f : Flight) :
    Leaves (regs := may) (lin := may) (stw := may) (eth := may) (sea := may) (air := may) s (s.serveDisassociate f) := by
  simp only [State.serveDisassociate]
  (repeat' split) <;> simp [Leaves]

@[simp] theorem State.servePendingSet_leaves (s : State) (f : Flight) :
    Leaves (stw := may) (eth := may) (air := may) s (s.servePendingSet f) := by
  simp [Leaves, State.servePendingSet, ite_fields]

@[simp] theorem State.serveDutyRead_leaves (s : State) (f : Flight) : Leaves (stw := may) (eth := may) s (s.serveDutyRead f) := by
  simp [Leaves, State.serveDutyRead, ite_fields]

@[simp] theorem State.serveDigestSet_leaves (s : State) (f : Flight) :
    Leaves (lin := may) (stw := may) (eth := may) (air := may) s (s.serveDigestSet f) := by
  simp only [State.serveDigestSet]
  (repeat' split) <;> simp [Leaves]

@[simp] theorem State.deliverNoHome_leaves (s : State) (cepoch cns margin : Nat) (mac : List Byte) :
    Leaves (regs := may) (lin := may) (stw := may) (eth := may) (cip := may) (sea := may) (air := may)
      s (s.deliverNoHome cepoch cns margin mac) := by
  simp only [State.deliverNoHome]
  (repeat' split) <;> simp [Leaves]

@[simp] theorem State.addDigest_leaves (s : State) (short : Nat) (x : Sensor) (seq margin : Nat) :
    Leaves (regs := may) (lin := may) (stw := may) (eth := may) (air := may) (sc := may) s (s.addDigest short x seq margin) := by
  simp only [State.addDigest]
  (repeat' split) <;> simp [Leaves]

@[simp] theorem State.deliverHome_leaves (s : State) (cepoch cns ext margin : Nat) (mac : List Byte) :
    Leaves (regs := may) (lin := may) (stw := may) (eth := may) (cip := may) (sea := may) (air := may) (sc := may)
      s (s.deliverHome cepoch cns ext margin mac).1 := by
  simp only [State.deliverHome]
  (repeat' split) <;> simp [Leaves]

@[simp] theorem State.resultNoHome_leaves (s : State) (b : List Byte) :
    Leaves (regs := may) (lin := may) (stw := may) (eth := may) (cip := may) (sea := may) (air := may) s (s.resultNoHome b) := by
  simp [Leaves, State.resultNoHome]

@[simp] theorem State.resultHome_leaves (s : State) (b : List Byte) :
    Leaves (regs := may) (lin := may) (stw := may) (eth := may) (cip := may) (sea := may) (air := may) (sc := may)
      s (s.resultHome b).1 := by
  simp [Leaves, State.resultHome]

@[simp] theorem State.sendResult_leaves (s : State) (g : Machine.Group) (mac : List Byte) :
    Leaves (regs := may) (lin := may) (stw := may) (eth := may) (cip := may) (sea := may) (air := may) (sc := may)
      s (s.sendResult g mac) := by
  simp only [State.sendResult]
  (repeat' split) <;> simp [Leaves]

@[simp] theorem State.checkGroup_leaves (s : State) (g : Machine.Group) :
    Leaves (regs := may) (cip := may) s (s.checkGroup g) := by
  simp [Leaves, State.checkGroup]

@[simp] theorem State.tryGroup_leaves (s : State) (g : Machine.Group) :
    Leaves (regs := may) (lin := may) (stw := may) (eth := may) (cip := may) (sea := may) (air := may) (sc := may)
      s (s.tryGroup g) := by
  simp only [State.tryGroup]
  (repeat' split) <;> simp [Leaves]

@[simp] theorem State.attemptDue_leaves (s : State) (num : Nat) :
    Leaves (regs := may) (lin := may) (stw := may) (eth := may) (cip := may) (sea := may) (air := may) (sc := may)
      s (s.attemptDue num) := by
  simp only [State.attemptDue]
  (repeat' split) <;> simp [Leaves]

@[simp] theorem State.copyGone_leaves (s : State) (station rxid : Nat) :
    Leaves (regs := may) (sc := may) s (s.copyGone station rxid) := by
  simp [Leaves, State.copyGone]

@[simp] theorem State.enterCopy_leaves (s : State) (station : Nat) (h : ScHead) :
    Leaves (regs := may) (sc := may) s (s.enterCopy station h).1 := by
  simp only [State.enterCopy]
  (repeat' split) <;> simp [Leaves]

@[simp] theorem State.putPlane_leaves (s : State) (num station rxid plane off : Nat) (data : List Byte) :
    Leaves (sc := may) s (s.putPlane num station rxid plane off data) := by
  unfold State.putPlane
  split <;> simp [Leaves]

@[simp] theorem State.fragment_leaves (s : State) (station : Nat) (b : List Byte) :
    Leaves (regs := may) (lin := may) (stw := may) (eth := may) (cip := may) (sea := may) (air := may) (sc := may)
      s (s.fragment station b) := by
  simp only [State.fragment]
  split; · simp [Leaves]
  split; · (repeat' split) <;> simp [Leaves]
  split; · simp [Leaves]
  have h := s.enterCopy_leaves station (scHead b)
  split
  next u k e =>
    rw [e] at h
    simp_all [Leaves]
  next u e =>
    rw [e] at h
    simp_all [Leaves]

@[simp] theorem State.dropResult_leaves (s : State) (r : ScSend) : Leaves (sc := may) s (s.dropResult r) := by
  simp [Leaves, State.dropResult]

@[simp] theorem State.scForward_leaves (s : State) (n m phr ts : Nat) (soft : List Int) (snr : Int) :
    Leaves (regs := may) (lin := may) (stw := may) (eth := may) (cip := may) (sea := may) (air := may) (sc := may) (spl := may)
      s (s.scForward n m phr ts soft snr) := by
  unfold State.scForward
  extract_lets minSnr len raw hard planes rxid phy head sc t u h
  have hu : Leaves (regs := may) (spl := may) (sc := may) s u := by simp [u, t, Leaves]
  split; · simp [Leaves]
  split
  · have h' := u.enterCopy_leaves u.station h
    split
    next v k e =>
      rw [e] at h'
      simp_all [Leaves]
    next v e =>
      rw [e] at h'
      simp_all [Leaves]
  · split <;> simp_all [Leaves]

@[simp] theorem State.holdAir_leaves (s : State) (n m : Nat) (c : AirCand) :
    Leaves (regs := may) (air := may) s (s.holdAir n m c) := by
  simp [Leaves, State.holdAir]

@[simp] theorem State.dropAir_leaves (s : State) (n m : Nat) (c : AirCand) :
    Leaves (fau := may) (air := may) s (s.dropAir n m c) := by
  simp [Leaves, State.dropAir]

@[simp] theorem State.preemptAir_leaves (s : State) (n m : Nat) (old : List AirCand) (c : AirCand) :
    Leaves (regs := may) (fau := may) (air := may) s (s.preemptAir n m old c) := by
  simp [Leaves, State.preemptAir, ite_fields]

@[simp] theorem State.newAir_leaves (s : State) (n m : Nat) (c : AirCand) :
    Leaves (regs := may) (fau := may) (air := may) s (s.newAir n m c) := by
  simp only [State.newAir]
  split
  next u h =>
    have hu := State.place_frame _ _ _ h
    simp only [ButFau] at hu
    simp [Leaves, hu]
  next => simp [Leaves]

@[simp] theorem State.airPeak_leaves (s : State) (n m : Nat) (metric : Nat × Nat) (ts : Nat) :
    Leaves (regs := may) (fau := may) (air := may) s (s.airPeak n m metric ts) := by
  simp only [State.airPeak]
  (repeat' split) <;> simp [Leaves]

@[simp] theorem State.phrsDone_leaves (s : State) (n m : Nat) (l : List (AirCand × Nat)) :
    Leaves (regs := may) (lin := may) (fau := may) (air := may) s (s.phrsDone n m l) := by
  simp only [State.phrsDone]
  (repeat' split) <;> simp [Leaves]

@[simp] theorem State.airPhr_leaves (s : State) (n m place phr : Nat) (rival : Option Nat) :
    Leaves (regs := may) (lin := may) (fau := may) (air := may) s (s.airPhr n m place phr rival) := by
  simp only [State.airPhr]
  (repeat' split) <;> simp [Leaves]

@[simp] theorem State.airFcs_leaves (s : State) (n m : Nat) (soft : List Int) (snr : Int) :
    Leaves (regs := may) (lin := may) (stw := may) (eth := may) (fau := may) (cip := may) (sea := may) (air := may) (sc := may)
      (spl := may)
      s (s.airFcs n m soft snr) := by
  simp only [State.airFcs]
  (repeat' split) <;> simp [Leaves]

@[simp] theorem State.ethTake_leaves (s : State) (p : Nat) : Leaves (eth := may) s (s.ethTake p) := by
  simp [Leaves, State.ethTake]

@[simp] theorem State.moveSessions_leaves (s : State) (p : Nat) : Leaves (stw := may) s (s.moveSessions p) := by
  simp [Leaves, State.moveSessions]

@[simp] theorem State.moveQueues_leaves (s : State) (p : Nat) : Leaves (eth := may) s (s.moveQueues p) := by
  simp [Leaves, State.moveQueues]

@[simp] theorem State.linkEvent_leaves (s : State) (code p reason : Nat) :
    Leaves (stw := may) (eth := may) s (s.linkEvent code p reason) := by
  simp [Leaves, State.linkEvent]

@[simp] theorem State.failover_leaves (s : State) (p detect moved interrupt : Nat) :
    Leaves (regs := may) (stw := may) (eth := may) (fau := may) s (s.failover p detect moved interrupt) := by
  simp [Leaves, State.failover]

@[simp] theorem State.bothDown_leaves (s : State) (p detect : Nat) :
    Leaves (regs := may) (fau := may) s (s.bothDown p detect) := by
  simp [Leaves, State.bothDown]

@[simp] theorem State.portDown_leaves (s : State) (p reason detect interrupt : Nat) :
    Leaves (regs := may) (stw := may) (eth := may) (fau := may) (caps := may) s (s.portDown p reason detect interrupt) := by
  simp [Leaves, State.portDown, ite_fields]

@[simp] theorem State.sendWaiting_leaves (s : State) : Leaves (stw := may) (eth := may) s (s.sendWaiting) := by
  simp [Leaves, State.sendWaiting]

@[simp] theorem State.unmasked_leaves (s : State) (block inst kind detect ctxs index : Nat) :
    Leaves (stw := may) (eth := may) s (s.unmasked block inst kind detect ctxs index) := by
  simp [Leaves, State.unmasked]

@[simp] theorem State.portsBack_leaves (s : State) : Leaves (stw := may) (eth := may) (fau := may) s (s.portsBack) := by
  unfold State.portsBack
  split <;> simp [Leaves]

@[simp] theorem State.seamBack_leaves (s : State) :
    Leaves (regs := may) (stw := may) (eth := may) (sea := may) (sc := may) s (s.seamBack) := by
  simp [Leaves, State.seamBack, ite_fields]

@[simp] theorem State.portUp_leaves (s : State) (p : Nat) :
    Leaves (regs := may) (stw := may) (eth := may) (fau := may) (sea := may) (sc := may) s (s.portUp p) := by
  simp [Leaves, State.portUp, ite_fields]

@[simp] theorem State.ethEnable_leaves (s : State) (p : Nat) : Leaves (regs := may) (eth := may) s (s.ethEnable p) := by
  simp [Leaves, State.ethEnable]

@[simp] theorem State.ethDisable_leaves (s : State) (p : Nat) :
    Leaves (regs := may) (stw := may) (eth := may) (fau := may) (caps := may) s (s.ethDisable p) := by
  simp [Leaves, State.ethDisable, ite_fields]

@[simp] theorem State.sendPause_leaves (s : State) (port prio quanta : Nat) :
    Leaves (eth := may) s (s.sendPause port prio quanta) := by
  simp [Leaves, State.sendPause]

@[simp] theorem State.carried_leaves (s : State) (f : Frame) : Leaves (regs := may) (spl := may) s (s.carried f) := by
  unfold State.carried
  split <;> simp [Leaves]

@[simp] theorem State.sendFrom_leaves (s : State) (p : Nat) :
    Leaves (regs := may) (eth := may) (spl := may) s (s.sendFrom p) := by
  simp only [State.sendFrom]
  (repeat' split) <;> simp [Leaves]

@[simp] theorem State.fecWorks_leaves (s : State) (p : Nat) : Leaves (regs := may) s (s.fecWorks p) := by
  simp [Leaves, State.fecWorks, ite_fields]

@[simp] theorem State.idle_leaves (s : State) :
    Leaves (clock := may) (regs := may) (lin := may) (stw := may) (eth := may) (sea := may) (spl := may) s (s.idle) := by
  simp [Leaves, State.idle, ite_fields]

@[simp] theorem State.serveCapStart_leaves (s : State) (f : Flight) :
    Leaves (stw := may) (eth := may) (caps := may) s (s.serveCapStart f) := by
  simp only [State.serveCapStart]
  (repeat' split) <;> simp [Leaves]

@[simp] theorem State.serveCapStop_leaves (s : State) (f : Flight) :
    Leaves (stw := may) (eth := may) (caps := may) s (s.serveCapStop f) := by
  simp only [State.serveCapStop]
  (repeat' split) <;> simp [Leaves]

@[simp] theorem State.captureBlock_leaves (s : State) (c : Capture) (x : Session) (ns : Nat) (samples : List Byte) :
    Leaves (regs := may) (eth := may) (caps := may) s (s.captureBlock c x ns samples) := by
  simp [Leaves, State.captureBlock, ite_fields]

@[simp] theorem State.endCtx_leaves (s : State) (c : Ctx) :
    Leaves (regs := may) (lin := may) (stw := may) (eth := may) (fau := may) (sea := may) (plx := may) (air := may)
      s (s.endCtx c) := by
  simp only [State.endCtx]
  (repeat' split) <;> simp [Leaves]

@[simp] theorem State.failEngine_leaves (s : State) (n by_ : Nat) : Leaves (fau := may) s (s.failEngine n by_) := by
  simp [Leaves, State.failEngine]

@[simp] theorem State.loseEngine_leaves (s : State) (n detect target : Nat) (cs : List Ctx) :
    Leaves (regs := may) (lin := may) (stw := may) (eth := may) (fau := may) (sea := may) (plx := may) (air := may)
      s (s.loseEngine n detect target cs) := by
  simp [Leaves, State.loseEngine]

@[simp] theorem State.patchIn_leaves (s : State) (e : Engine) (j : Nat) (p : Patch) (c old : Option Ckpt) :
    Leaves (regs := may) (lin := may) (stw := may) (eth := may) (fau := may) (sea := may) (plx := may) (air := may)
      s (s.patchIn e j p c old) := by
  simp [Leaves, State.patchIn, ite_fields]

@[simp] theorem State.engineFault_leaves (s : State) (n detect fault : Nat) (bad : Bool) :
    Leaves (regs := may) (lin := may) (stw := may) (eth := may) (fau := may) (sea := may) (plx := may) (air := may)
      s (s.engineFault n detect fault bad) := by
  simp only [State.engineFault]
  (repeat' split) <;> simp [Leaves]

@[simp] theorem Input.run_leaves (i : Input) (s : State) :
    Leaves (regs := may) (lin := may) (stw := may) (eth := may) (fau := may) (cip := may) (sea := may) (plx := may) (air := may)
      (sc := may) (spl := may)
      s (i.run s) := by
  unfold Input.run
  split <;> simp [Leaves]

@[simp] theorem State.input_leaves_run (s : State) (c : Ctx) (i j : Input) :
    Leaves (regs := may) (lin := may) (stw := may) (eth := may) (fau := may) (cip := may) (sea := may) (plx := may) (air := may)
      (sc := may) (spl := may) s (s.input c i j.run) := by
  obtain ⟨x, y, h | h⟩ := s.input_cases c i j.run <;> rw [h] <;> simp [Leaves]

@[simp] theorem State.replay_leaves (n : Nat) (s : State) (h : HeldInput) :
    Leaves (regs := may) (lin := may) (stw := may) (eth := may) (fau := may) (cip := may) (sea := may) (plx := may) (air := may)
      (sc := may) (spl := may) s (s.replay n h) := by
  simp only [State.replay]
  (repeat' split) <;> simp [Leaves]

@[simp] theorem State.drainOne_leaves (s : State) : Leaves (fau := may) s (s.drainOne) := by
  unfold State.drainOne
  split <;> simp [Leaves]

@[simp] theorem State.undrainOne_leaves (s : State) : Leaves (fau := may) s (s.undrainOne) := by
  simp only [State.undrainOne]
  (repeat' split) <;> simp [Leaves]

@[simp] theorem State.meetTarget_leaves (s : State) : Leaves (fau := may) s (s.meetTarget) := by
  simp [Leaves, State.meetTarget, ite_fields]

@[simp] theorem State.powerTest_leaves (s : State) (failed : List Nat) :
    Leaves (regs := may) (fau := may) (air := may) s (s.powerTest failed) := by
  simp [Leaves, State.powerTest, ite_fields]

@[simp] theorem State.testPair_leaves (s : State) (n : Nat) : Leaves (fau := may) s (s.testPair n) := by
  simp [Leaves, State.testPair]

@[simp] theorem State.takeFlight_leaves (s : State) (f : Flight) : Leaves (stw := may) (eth := may) s (s.takeFlight f) := by
  unfold State.takeFlight
  split <;> simp [Leaves]

@[simp] theorem State.pairTakes_leaves (s : State) (n : Nat) :
    Leaves (stw := may) (eth := may) (fau := may) s (s.pairTakes n) := by
  simp [Leaves, State.pairTakes]

@[simp] theorem State.pairFault_leaves (s : State) (n detect interrupt : Nat) :
    Leaves (regs := may) (stw := may) (eth := may) (fau := may) s (s.pairFault n detect interrupt) := by
  simp only [State.pairFault]
  (repeat' split) <;> simp [Leaves]

@[simp] theorem State.standbyFault_leaves (s : State) (n detect : Nat) :
    Leaves (regs := may) (fau := may) s (s.standbyFault n detect) := by
  simp [Leaves, State.standbyFault]

@[simp] theorem State.pairBack_leaves (s : State) (n : Nat) : Leaves (stw := may) (eth := may) (fau := may) s (s.pairBack n) := by
  simp only [State.pairBack]
  (repeat' split) <;> simp [Leaves]

@[simp] theorem State.retireCore_leaves (s : State) (n : Nat) : Leaves (cip := may) s (s.retireCore n) := by
  simp [Leaves, State.retireCore]

@[simp] theorem State.corrected_leaves (s : State) (a : Nat) :
    Leaves (regs := may) (stw := may) (eth := may) (fau := may) s (s.corrected a) := by
  simp [Leaves, State.corrected, ite_fields]

@[simp] theorem State.logMerged_leaves (s : State) : Leaves (regs := may) (fau := may) s (s.logMerged) := by
  simp [Leaves, State.logMerged]

@[simp] theorem State.serveFaultLog_leaves (s : State) (f : Flight) : Leaves (stw := may) (eth := may) s (s.serveFaultLog f) := by
  simp [Leaves, State.serveFaultLog, ite_fields]

@[simp] theorem State.serveEngine_leaves (s : State) (f : Flight) : Leaves (stw := may) (eth := may) s (s.serveEngine f) := by
  simp [Leaves, State.serveEngine, ite_fields]

@[simp] theorem State.serveMemdesc_leaves (s : State) (f : Flight) : Leaves (stw := may) (eth := may) s (s.serveMemdesc f) := by
  simp [Leaves, State.serveMemdesc, ite_fields]

@[simp] theorem State.injectEngine_leaves (s : State) (n : Nat) :
    Leaves (regs := may) (lin := may) (stw := may) (eth := may) (fau := may) (sea := may) (plx := may) (air := may)
      s (s.injectEngine n) := by
  simp [Leaves, State.injectEngine, ite_fields]

@[simp] theorem State.injectPair_leaves (s : State) (n : Nat) :
    Leaves (regs := may) (stw := may) (eth := may) (fau := may) s (s.injectPair n) := by
  unfold State.injectPair
  split <;> simp [Leaves]

@[simp] theorem State.injectPort_leaves (s : State) (n : Nat) :
    Leaves (regs := may) (stw := may) (eth := may) (fau := may) (caps := may) s (s.injectPort n) := by
  simp [Leaves, State.injectPort, ite_fields]

@[simp] theorem State.inject_leaves (s : State) (kind target : Nat) :
    Leaves (regs := may) (lin := may) (stw := may) (eth := may) (fau := may) (caps := may) (sea := may) (plx := may) (air := may)
      s (s.inject kind target) := by
  unfold State.inject
  split <;> simp [Leaves]

@[simp] theorem State.jobUsed_leaves (s : State) (j : Job) (st : Nat) (out : List Byte) :
    Leaves (regs := may) (lin := may) (stw := may) (eth := may) (fau := may) (cip := may) (sea := may) (plx := may) (air := may)
      s (s.jobUsed j st out) := by
  simp only [State.jobUsed]
  (repeat' split) <;> simp [Leaves]

@[simp] theorem State.loopFault_leaves (s : State) (n state cause : Nat) :
    Leaves (stw := may) (eth := may) s (s.loopFault n state cause) := by
  simp [Leaves, State.loopFault]

@[simp] theorem State.loopEval_leaves (s : State) (n : Nat) :
    Leaves (regs := may) (stw := may) (eth := may) (loops := may) s (s.loopEval n) := by
  simp [Leaves, State.loopEval, ite_fields]

@[simp] theorem State.loopFollow_leaves (s : State) (n : Nat) :
    Leaves (regs := may) (stw := may) (eth := may) (loops := may) s (s.loopFollow n) := by
  simp [Leaves, State.loopFollow]

@[simp] theorem State.loopWritten_leaves (s old : State) (n : Nat) :
    Leaves (regs := may) (stw := may) (eth := may) (loops := may) s (s.loopWritten old n) := by
  simp [Leaves, State.loopWritten, ite_fields]

@[simp] theorem State.loopsBreak_leaves (s : State) (x : Nat) :
    Leaves (regs := may) (stw := may) (eth := may) (loops := may) s (s.loopsBreak x) := by
  simp [Leaves, State.loopsBreak, ite_fields]

@[simp] theorem State.loopsOutput_leaves (s : State) (e : Nat) (opened range : Bool) :
    Leaves (regs := may) (stw := may) (eth := may) (loops := may) s (s.loopsOutput e opened range) := by
  simp [Leaves, State.loopsOutput, ite_fields]

@[simp] theorem State.serveLoopSet_leaves (s : State) (f : Flight) :
    Leaves (regs := may) (lin := may) (stw := may) (eth := may) (loops := may) s (s.serveLoopSet f) := by
  simp [Leaves, State.serveLoopSet, ite_fields]

@[simp] theorem State.serveCurveInfo_leaves (s : State) (f : Flight) :
    Leaves (stw := may) (eth := may) s (s.serveCurveInfo f) := by
  simp only [State.serveCurveInfo]
  (repeat' split) <;> simp [Leaves]

@[simp] theorem State.restartChan_leaves (s : State) (e : Nat) (counted : Bool) :
    Leaves (regs := may) (chans := may) s (s.restartChan e counted) := by
  simp [Leaves, State.restartChan, ite_fields]

@[simp] theorem State.visitIn_leaves (s : State) (e : Nat) (v : Visit) :
    Leaves (regs := may) (chans := may) s (s.visitIn e v) := by
  simp [Leaves, State.visitIn, ite_fields]

@[simp] theorem State.chanBoundary_leaves (s : State) (e : Nat) :
    Leaves (regs := may) (lin := may) (chans := may) s (s.chanBoundary e) := by
  simp [Leaves, State.chanBoundary, ite_fields]

@[simp] theorem State.idleChans_leaves (s : State) : Leaves (regs := may) (lin := may) (chans := may) s (s.idleChans) := by
  simp [Leaves, State.idleChans, ite_fields]

@[simp] theorem State.fltGo_leaves (s : State) : Leaves (regs := may) (lin := may) (chans := may) s (s.fltGo) := by
  simp [Leaves, State.fltGo]

@[simp] theorem State.strmStart_leaves (s : State) : Leaves (regs := may) s (s.strmStart) := by simp [Leaves, State.strmStart]

@[simp] theorem State.strmPut_leaves (s : State) (e q g : Nat) (v x : Int) :
    Leaves (regs := may) (stw := may) (mem := may) (eth := may) (fau := may) (spl := may) s (s.strmPut e q g v x) := by
  simp [Leaves, State.strmPut, ite_fields]

@[simp] theorem State.prune_leaves (s : State) (e : Nat) : Leaves (chans := may) s (s.prune e) := by
  simp only [State.prune]
  (repeat' split) <;> simp [Leaves]

@[simp] theorem State.output_leaves (s : State) (e g p : Nat) :
    Leaves (regs := may) (lin := may) (stw := may) (mem := may) (eth := may) (fau := may) (spl := may) (chans := may)
      (loops := may)
      s (s.output e g p) := by
  simp [Leaves, State.output]

@[simp] theorem State.serveResults_leaves (s : State) (f : Flight) : Leaves (stw := may) (eth := may) s (s.serveResults f) := by
  simp [Leaves, State.serveResults, ite_fields]

@[simp] theorem State.startVisit_leaves (s : State) (e v : Nat) : Leaves (cnv := may) s (s.startVisit e v) := by
  simp [Leaves, State.startVisit]

@[simp] theorem State.forgetTriggers_leaves (s : State) : Leaves (cnv := may) s (s.forgetTriggers) := by
  simp [Leaves, State.forgetTriggers]

@[simp] theorem State.cnvBoundary_leaves (s : State) :
    Leaves (regs := may) (lin := may) (cnv := may) (chans := may) s (s.cnvBoundary) := by
  simp [Leaves, State.cnvBoundary, ite_fields]

@[simp] theorem State.cnvGo_leaves (s : State) : Leaves (regs := may) (lin := may) (cnv := may) (chans := may) s (s.cnvGo) := by
  simp [Leaves, State.cnvGo, ite_fields]

@[simp] theorem State.cnvEnable_leaves (s : State) : Leaves (regs := may) (cnv := may) (chans := may) s (s.cnvEnable) := by
  simp [Leaves, State.cnvEnable, ite_fields]

@[simp] theorem State.cnvDisable_leaves (s : State) :
    Leaves (regs := may) (lin := may) (cnv := may) (chans := may) s (s.cnvDisable) := by
  simp [Leaves, State.cnvDisable]

@[simp] theorem State.trigger_leaves (s : State) (f : Nat) : Leaves (regs := may) (cnv := may) s (s.trigger f) := by
  simp [Leaves, State.trigger, ite_fields]

@[simp] theorem State.refEnable_leaves (s : State) : Leaves (regs := may) (cnv := may) s (s.refEnable) := by
  simp [Leaves, State.refEnable]

@[simp] theorem State.rawSample_leaves (s : State) (codes : List Int) :
    Leaves (regs := may) (cnv := may) s (s.rawSample codes) := by
  simp [Leaves, State.rawSample, ite_fields]

@[simp] theorem State.sequenceEnd_leaves (s : State) (fin : Nat) :
    Leaves (regs := may) (lin := may) (cnv := may) (chans := may) s (s.sequenceEnd fin) := by
  simp [Leaves, State.sequenceEnd, ite_fields]

@[simp] theorem State.dwellDone_leaves (s : State) :
    Leaves (regs := may) (lin := may) (cnv := may) (chans := may) s (s.dwellDone) := by
  simp [Leaves, State.dwellDone, ite_fields]

@[simp] theorem State.wireEvent_leaves (s : State) (n state side cur : Nat) :
    Leaves (stw := may) (eth := may) s (s.wireEvent n state side cur) := by
  simp [Leaves, State.wireEvent]

@[simp] theorem State.markOpen_leaves (s : State) (n a : Nat) : Leaves (cnv := may) (chans := may) s (s.markOpen n a) := by
  simp [Leaves, State.markOpen, ite_fields]

@[simp] theorem State.wireBreak_leaves (s : State) (n side cur : Nat) :
    Leaves (regs := may) (stw := may) (eth := may) (cnv := may) (chans := may) (loops := may) s (s.wireBreak n side cur) := by
  simp [Leaves, State.wireBreak, ite_fields]

@[simp] theorem State.foldJobs_leaves (s : State) (d : SpoolDesc) : Leaves (regs := may) (cip := may) s (s.foldJobs d) := by
  simp [Leaves, State.foldJobs, ite_fields]

@[simp] theorem State.putSp_leaves (s : State) (n : Nat) (x : Spool) (read write : Bool) :
    Leaves (spl := may) s (s.putSp n x read write) := by
  simp [Leaves, State.putSp]

@[simp] theorem State.splBoundary_leaves (s : State) (n : Nat) : Leaves (regs := may) (lin := may) s (s.splBoundary n) := by
  simp [Leaves, State.splBoundary, ite_fields]

@[simp] theorem State.splGo_leaves (s : State) (n : Nat) : Leaves (regs := may) (lin := may) s (s.splGo n) := by
  simp [Leaves, State.splGo, ite_fields]

@[simp] theorem State.spoolStopped_leaves (s : State) (n stop : Nat) :
    Leaves (regs := may) (lin := may) (spl := may) s (s.spoolStopped n stop) := by
  simp [Leaves, State.spoolStopped]

@[simp] theorem State.readDesc_leaves (s : State) (n : Nat) :
    Leaves (regs := may) (lin := may) (stw := may) (mem := may) (eth := may) (fau := may) (spl := may) s (s.readDesc n) := by
  simp [Leaves, State.readDesc, ite_fields]

@[simp] theorem State.spoolStart_leaves (s : State) (n : Nat) :
    Leaves (regs := may) (lin := may) (spl := may) s (s.spoolStart n) := by
  simp [Leaves, State.spoolStart]

@[simp] theorem State.laidRing_leaves (s : State) (n : Nat) : Leaves (regs := may) s (s.laidRing n) := by
  simp [Leaves, State.laidRing, ite_fields]

@[simp] theorem State.spoolStop_leaves (s : State) (n : Nat) :
    Leaves (regs := may) (lin := may) (spl := may) s (s.spoolStop n) := by
  simp [Leaves, State.spoolStop, ite_fields]

@[simp] theorem State.put_leaves (s : State) (a : Nat) (d : List Byte) : Leaves (mem := may) s (s.put a d) := by
  simp [Leaves, State.put]

@[simp] theorem State.land_leaves (s : State) (l : List (Nat × List Byte)) : Leaves (mem := may) s (s.land l) := by
  simp [Leaves, State.land]

@[simp] theorem State.writeDesc_leaves (s : State) (a : Nat) (tail ctrl : List Byte) :
    Leaves (mem := may) s (s.writeDesc a tail ctrl) := by
  simp [Leaves, State.writeDesc]

@[simp] theorem State.putBack_leaves (s : State) (n : Nat) (d : SpoolDesc) (status : Nat) (check : List Byte) :
    Leaves (mem := may) s (s.putBack n d status check) := by
  simp [Leaves, State.putBack, ite_fields]

@[simp] theorem State.spoolKill_leaves (s : State) (n : Nat) :
    Leaves (regs := may) (lin := may) (mem := may) (spl := may) s (s.spoolKill n) := by
  simp [Leaves, State.spoolKill]

@[simp] theorem State.doorbell_leaves (s : State) (n : Nat) :
    Leaves (regs := may) (lin := may) (stw := may) (mem := may) (eth := may) (fau := may) (spl := may) s (s.doorbell n) := by
  simp [Leaves, State.doorbell, ite_fields]

@[simp] theorem State.readBurst_leaves (s : State) (n : Nat) :
    Leaves (regs := may) (lin := may) (stw := may) (mem := may) (eth := may) (fau := may) (spl := may) s (s.readBurst n) := by
  simp only [State.readBurst]
  (repeat' split) <;> simp [Leaves]

@[simp] theorem State.writeBurst_leaves (s : State) (n : Nat) :
    Leaves (regs := may) (stw := may) (mem := may) (eth := may) (fau := may) (spl := may) s (s.writeBurst n) := by
  simp only [State.writeBurst]
  (repeat' split) <;> simp [Leaves]

@[simp] theorem State.spoolSignal_leaves (s : State) (n idx status : Nat) :
    Leaves (spl := may) s (s.spoolSignal n idx status) := by
  simp [Leaves, State.spoolSignal, ite_fields]

@[simp] theorem State.spoolError_leaves (s : State) (n status stop : Nat) :
    Leaves (regs := may) (lin := may) (spl := may) s (s.spoolError n status stop) := by
  simp [Leaves, State.spoolError, ite_fields]

@[simp] theorem State.writeBack_leaves (s : State) (n : Nat) (d : SpoolDesc) (status : Nat) (check : List Byte) :
    Leaves (regs := may) (lin := may) (stw := may) (mem := may) (eth := may) (fau := may) (spl := may)
      s (s.writeBack n d status check) := by
  simp [Leaves, State.writeBack, ite_fields]

@[simp] theorem State.storeRec_leaves (s : State) (r : LinRec) : Leaves (lin := may) s (s.storeRec r) := by
  simp [Leaves, State.storeRec]

@[simp] theorem State.recDone_leaves (s : State) (w : LinWrite) :
    Leaves (stw := may) (eth := may) (air := may) s (s.recDone w) := by
  simp only [State.recDone]
  (repeat' split) <;> simp [Leaves]

@[simp] theorem State.undriven_leaves (s : State) :
    Leaves (eth := may) (plx := may) (air := may) (loops := may) s (s.undriven) := by
  simp [Leaves, State.undriven]

@[simp] theorem State.halt_leaves (s : State) :
    Leaves (pow := may) (lin := may) (eth := may) (caps := may) (plx := may) (air := may) (loops := may) s (s.halt) := by
  simp only [State.halt]
  (repeat' split) <;> simp [Leaves]

@[simp] theorem State.restartDue_leaves (s : State) :
    Leaves (pow := may) (lin := may) (eth := may) (caps := may) (plx := may) (air := may) (loops := may) s (s.restartDue) := by
  simp [Leaves, State.restartDue, ite_fields]

@[simp] theorem State.askRestart_leaves (s : State) :
    Leaves (pow := may) (lin := may) (eth := may) (caps := may) (plx := may) (air := may) (loops := may) s (s.askRestart) := by
  simp [Leaves, State.askRestart]

@[simp] theorem State.wears_leaves (s : State) (wear : Nat) : Leaves (lin := may) (stw := may) (eth := may) s (s.wears wear) := by
  simp [Leaves, State.wears, ite_fields]

@[simp] theorem State.writeDone_leaves (s : State) :
    Leaves (lin := may) (stw := may) (eth := may) (cip := may) (air := may) s (s.writeDone) := by
  unfold State.writeDone
  split <;> simp [Leaves]

@[simp] theorem State.armFactory_leaves (s : State) (on : Bool) : Leaves (lin := may) s (s.armFactory on) := by
  simp [Leaves, State.armFactory, ite_fields]

@[simp] theorem State.bankGo_leaves (s : State) (bank : Nat) : Leaves (regs := may) (lin := may) s (s.bankGo bank) := by
  simp [Leaves, State.bankGo]

@[simp] theorem State.bankDone_leaves (s : State) (w : BankWrite) :
    Leaves (regs := may) (lin := may) (stw := may) (mem := may) (eth := may) (fau := may) (cip := may) s (s.bankDone w) := by
  simp [Leaves, State.bankDone, ite_fields]

@[simp] theorem State.checkBank_leaves (s : State) (b : Bank) : Leaves (regs := may) (cip := may) s (s.checkBank b) := by
  simp [Leaves, State.checkBank]

@[simp] theorem State.boot_leaves (s : State) :
    Leaves (regs := may) (pow := may) (lin := may) (fau := may) (cip := may) s (s.boot) := by
  simp [Leaves, State.boot, ite_fields]

@[simp] theorem State.startAlarms_leaves (s : State) (mesh sealBad : Bool) :
    Leaves (regs := may) (lin := may) (stw := may) (eth := may) (fau := may) (cip := may) s (s.startAlarms mesh sealBad) := by
  simp [Leaves, State.startAlarms, ite_fields]

@[simp] theorem State.loadKeys_leaves (s : State) : Leaves (lin := may) (cip := may) s (s.loadKeys) := by
  simp [Leaves, State.loadKeys, ite_fields]

@[simp] theorem State.loadDuty_leaves (s : State) (a : Nat) : Leaves (air := may) s (s.loadDuty a) := by
  simp [Leaves, State.loadDuty, ite_fields]

@[simp] theorem State.mnsStart_leaves (s : State) : Leaves (mns := may) s (s.mnsStart) := by simp [Leaves, State.mnsStart]

@[simp] theorem State.startBlocks_leaves (s : State) :
    Leaves (regs := may) (stw := may) (eth := may) (caps := may) (mns := may) (sea := may) (plx := may) (air := may) (cnv := may)
      (chans := may) (loops := may)
      s (s.startBlocks) := by
  simp [Leaves, State.startBlocks, ite_fields]

@[simp] theorem State.running_leaves (s : State) :
    Leaves (pow := may) (lin := may) (stw := may) (eth := may) (cip := may) s (s.running) := by
  simp [Leaves, State.running, ite_fields]

@[simp] theorem State.readReg_leaves (s : State) (slot gen arrived : Nat) (r : Fam × Nat × Nat) :
    Leaves (stw := may) s (s.readReg slot gen arrived r).1 := by
  unfold State.readReg
  split <;> simp [Leaves]

@[simp] theorem State.mnsGo_leaves (s : State) : Leaves (regs := may) (lin := may) s (s.mnsGo) := by
  simp [Leaves, State.mnsGo, ite_fields]

@[simp] theorem State.startHandOver_leaves (s : State) (c : Fam) (i : Nat) :
    Leaves (regs := may) (lin := may) (stw := may) (eth := may) (fau := may) (sea := may) (plx := may) (cnv := may) (chans := may)
      s (s.startHandOver c i) := by
  unfold State.startHandOver
  split <;> simp [Leaves]

@[simp] theorem State.commitGo_leaves (s : State) (c : Fam) (i : Nat) :
    Leaves (regs := may) (lin := may) (stw := may) (eth := may) (fau := may) (sea := may) (plx := may) (cnv := may) (chans := may)
      s (s.commitGo c i) := by
  simp [Leaves, State.commitGo]

@[simp] theorem State.commitDiscard_leaves (s : State) (c : Fam) (i : Nat) : Leaves (regs := may) s (s.commitDiscard c i) := by
  simp [Leaves, State.commitDiscard]

@[simp] theorem State.commitBoundary_leaves (s : State) (c : Fam) (i : Nat) :
    Leaves (regs := may) (lin := may) (stw := may) (eth := may) (fau := may) (sea := may) (plx := may) (cnv := may) (chans := may)
      s (s.commitBoundary c i) := by
  simp only [State.commitBoundary]
  (repeat' split) <;> simp [Leaves]

@[simp] theorem State.spoolCtl_leaves (s : State) (w : RegWrite) :
    Leaves (regs := may) (lin := may) (mem := may) (spl := may) s (s.spoolCtl w) := by
  simp [Leaves, State.spoolCtl, ite_fields]

@[simp] theorem State.commitWrite_leaves (s : State) (w : RegWrite) :
    Leaves (regs := may) (lin := may) (stw := may) (eth := may) (fau := may) (sea := may) (plx := may) (cnv := may) (chans := may)
      s (s.commitWrite w) := by
  simp [Leaves, State.commitWrite, ite_fields]

@[simp] theorem State.discoverAnew_leaves (s : State) (n : Nat) : Leaves (plx := may) s (s.discoverAnew n) := by
  simp [Leaves, State.discoverAnew]

@[simp] theorem State.hookPorts_leaves (s old : State) (w : RegWrite) :
    Leaves (regs := may) (pow := may) (lin := may) (stw := may) (eth := may) (fau := may) (caps := may) (sea := may) (plx := may)
      (air := may) (loops := may)
      s (s.hookPorts old w) := by
  simp only [State.hookPorts]
  (repeat' split) <;> simp [Leaves]

@[simp] theorem State.hookUnits_leaves (s old : State) (w : RegWrite) :
    Leaves (regs := may) (lin := may) (stw := may) (mem := may) (eth := may) (fau := may) (cip := may) (caps := may) (mns := may)
      (sea := may) (plx := may) (sc := may) (spl := may) (cnv := may) (chans := may)
      s (s.hookUnits old w) := by
  simp only [State.hookUnits]
  (repeat' split) <;> simp [Leaves]

@[simp] theorem State.writeCarrier_leaves (s : State) (w : RegWrite) : Leaves (stw := may) s (s.writeCarrier w) := by
  simp [Leaves, State.writeCarrier]

@[simp] theorem State.writeReg_leaves (s : State) (w : RegWrite) :
    Leaves (regs := may) (pow := may) (lin := may) (stw := may) (mem := may) (eth := may) (fau := may) (cip := may) (caps := may)
      (mns := may) (sea := may) (plx := may) (air := may) (sc := may) (spl := may) (cnv := may) (chans := may) (loops := may)
      s (s.writeReg w) := by
  simp [Leaves, State.writeReg, ite_fields]

@[simp] theorem State.writeAll_leaves (s : State) (l : List RegWrite) :
    Leaves (regs := may) (pow := may) (lin := may) (stw := may) (mem := may) (eth := may) (fau := may) (cip := may) (caps := may)
      (mns := may) (sea := may) (plx := may) (air := may) (sc := may) (spl := may) (cnv := may) (chans := may) (loops := may)
      s (s.writeAll l) := by
  simp [Leaves, State.writeAll, ite_fields]

@[simp] theorem State.landOne_leaves (s : State) (p : Posted) :
    Leaves (regs := may) (stw := may) (mem := may) (eth := may) (fau := may) s (s.landOne p) := by
  simp [Leaves, State.landOne]

@[simp] theorem State.landAll_leaves (s : State) (slot gen : Nat) :
    Leaves (regs := may) (stw := may) (mem := may) (eth := may) (fau := may) s (s.landAll slot gen) := by
  simp [Leaves, State.landAll]

@[simp] theorem State.settle_leaves (s : State) :
    Leaves (regs := may) (stw := may) (mem := may) (eth := may) (fau := may) s (s.settle) := by
  simp [Leaves, State.settle]

@[simp] theorem State.readAll_leaves (s : State) (slot gen arrived : Nat) (l : List (Fam × Nat × Nat)) :
    Leaves (stw := may) s (s.readAll slot gen arrived l).1 := by
  induction l generalizing s with
  | nil => simp [Leaves, State.readAll]
  | cons r l ih => simp [Leaves, State.readAll, ih]

@[simp] theorem State.cfgRead_leaves (s : State) (f : Flight) : Leaves (stw := may) (eth := may) s (s.cfgRead f) := by
  simp only [State.cfgRead]
  (repeat' split) <;> simp [Leaves]

@[simp] theorem State.applyWrites_leaves (s : State) (f : Flight) (l : List RegWrite) (operand : List Byte) :
    Leaves (regs := may) (pow := may) (lin := may) (stw := may) (mem := may) (eth := may) (fau := may) (cip := may) (caps := may)
      (mns := may) (sea := may) (plx := may) (air := may) (sc := may) (spl := may) (cnv := may) (chans := may) (loops := may)
      s (s.applyWrites f l operand) := by
  simp only [State.applyWrites]
  (repeat' split) <;> simp [Leaves]

@[simp] theorem State.cfgWrite_leaves (s : State) (f : Flight) :
    Leaves (regs := may) (pow := may) (lin := may) (stw := may) (mem := may) (eth := may) (fau := may) (cip := may) (caps := may)
      (mns := may) (sea := may) (plx := may) (air := may) (sc := may) (spl := may) (cnv := may) (chans := may) (loops := may)
      s (s.cfgWrite f) := by
  simp only [State.cfgWrite]
  (repeat' split) <;> simp [Leaves]

@[simp] theorem State.cfgModify_leaves (s : State) (f : Flight) :
    Leaves (regs := may) (pow := may) (lin := may) (stw := may) (mem := may) (eth := may) (fau := may) (cip := may) (caps := may)
      (mns := may) (sea := may) (plx := may) (air := may) (sc := may) (spl := may) (cnv := may) (chans := may) (loops := may)
      s (s.cfgModify f) := by
  simp only [State.cfgModify]
  (repeat' split) <;> simp [Leaves]

@[simp] theorem State.waitAnswer_leaves (s : State) (f : Flight) (v : Word) (met : Bool) :
    Leaves (stw := may) (eth := may) s (s.waitAnswer f v met) := by
  simp [Leaves, State.waitAnswer]

@[simp] theorem State.cfgWait_leaves (s : State) (f : Flight) : Leaves (stw := may) (eth := may) s (s.cfgWait f) := by
  simp only [State.cfgWait]
  (repeat' split) <;> simp [Leaves]

@[simp] theorem State.memRead_leaves (s : State) (fixed : List Nat) (f : Flight) :
    Leaves (regs := may) (stw := may) (mem := may) (eth := may) (fau := may) s (s.memRead fixed f) := by
  simp only [State.memRead]
  (repeat' split) <;> simp [Leaves]

@[simp] theorem State.memWrite_leaves (s : State) (f : Flight) :
    Leaves (regs := may) (stw := may) (mem := may) (eth := may) (fau := may) s (s.memWrite f) := by
  simp only [State.memWrite]
  (repeat' split) <;> simp [Leaves]

@[simp] theorem State.memFence_leaves (s : State) (f : Flight) :
    Leaves (regs := may) (stw := may) (mem := may) (eth := may) (fau := may) s (s.memFence f) := by
  simp [Leaves, State.memFence, ite_fields]

@[simp] theorem State.runDirect_leaves (s : State) (fixed : List Nat) (f : Flight) :
    Leaves (regs := may) (pow := may) (lin := may) (stw := may) (mem := may) (eth := may) (fau := may) (cip := may) (caps := may)
      (mns := may) (sea := may) (plx := may) (air := may) (sc := may) (spl := may) (cnv := may) (chans := may) (loops := may)
      s (s.runDirect fixed f) := by
  unfold State.runDirect
  split <;> simp [Leaves]

@[simp] theorem State.arriveDirect_leaves (s : State) (m : Inbound) (opcode need : Nat) (fixed : List Nat) :
    Leaves (regs := may) (pow := may) (lin := may) (stw := may) (mem := may) (eth := may) (fau := may) (cip := may) (caps := may)
      (mns := may) (sea := may) (plx := may) (air := may) (sc := may) (spl := may) (cnv := may) (chans := may) (loops := may)
      s (s.arriveDirect m opcode need fixed) := by
  unfold State.arriveDirect
  extract_lets hold
  have h := s.accept_leaves m opcode need true (if hold then .held else .waiting)
  split
  next r f e =>
    rw [e] at h
    split <;> simp_all [Leaves]
  next r e =>
    rw [e] at h
    simp_all [Leaves]

@[simp] theorem State.runHeld_leaves (s : State) (slot gen : Nat) (fixed : List Nat) :
    Leaves (regs := may) (pow := may) (lin := may) (stw := may) (mem := may) (eth := may) (fau := may) (cip := may) (caps := may)
      (mns := may) (sea := may) (plx := may) (air := may) (sc := may) (spl := may) (cnv := may) (chans := may) (loops := may)
      s (s.runHeld slot gen fixed) := by
  simp [Leaves, State.runHeld, ite_fields]

@[simp] theorem State.waitRead_leaves (s : State) (w : Wait) (f : Flight) (fixed : List Nat) :
    Leaves (regs := may) (pow := may) (lin := may) (stw := may) (mem := may) (eth := may) (fau := may) (cip := may) (caps := may)
      (mns := may) (sea := may) (plx := may) (air := may) (sc := may) (spl := may) (cnv := may) (chans := may) (loops := may)
      s (s.waitRead w f fixed) := by
  simp only [State.waitRead]
  (repeat' split) <;> simp [Leaves]

@[simp] theorem State.readRow_leaves (s : State) (slot arrived : Nat) (f : Fam) :
    Leaves (regs := may) (stw := may) s (s.readRow slot arrived f) := by
  simp [Leaves, State.readRow]

@[simp] theorem State.serve_leaves (s : State) (f : Flight) :
    Leaves (regs := may) (lin := may) (stw := may) (eth := may) (fau := may) (cip := may) (caps := may) (sea := may) (plx := may)
      (air := may) (sc := may) (loops := may)
      s (s.serve f) := by
  unfold State.serve
  split <;> simp [Leaves]

@[simp] theorem State.takeFiring_leaves (s : State) (f : Nat) : Leaves (cnv := may) s (s.takeFiring f) := by
  simp [Leaves, State.takeFiring]

end Sys2Proof.Machine
end

section
/-!
SUPPORT. What each operation leaves unchanged within the mailbox engine, the air block and device memory.

The same as the frames of State, for the fields of the three parts that the invariants of statements O58 and O59 speak of; an operation
that keeps the whole part has its frame above.
-/

namespace Sys2Proof.Machine

-- Proofs one after another: the text is long, and is checked in bounded memory.
set_option Elab.async false

open Sys2Proof

/-! ## Frames within the mailbox engine -/

/-- `b` differs from `a` in the parts marked `may` alone. -/
abbrev StwLeaves (a b : Stw) (sess closing genCtr flights nextRef waits svc area nextArea areaDrops carrier : Prop → Prop := keep) : Prop :=
  sess (b.sess = a.sess) ∧ closing (b.closing = a.closing) ∧ genCtr (b.genCtr = a.genCtr) ∧ flights (b.flights = a.flights) ∧ nextRef (b.nextRef = a.nextRef) ∧ waits (b.waits = a.waits) ∧ svc (b.svc = a.svc) ∧ area (b.area = a.area) ∧ nextArea (b.nextArea = a.nextArea) ∧ areaDrops (b.areaDrops = a.areaDrops) ∧ carrier (b.carrier = a.carrier)

theorem ite_stw_fields (c : Prop) [Decidable c] (a b : Stw) :
    (if c then a else b).sess = (if c then a.sess else b.sess) ∧
    (if c then a else b).closing = (if c then a.closing else b.closing) ∧
    (if c then a else b).genCtr = (if c then a.genCtr else b.genCtr) ∧
    (if c then a else b).flights = (if c then a.flights else b.flights) ∧
    (if c then a else b).nextRef = (if c then a.nextRef else b.nextRef) ∧
    (if c then a else b).waits = (if c then a.waits else b.waits) ∧
    (if c then a else b).svc = (if c then a.svc else b.svc) ∧
    (if c then a else b).area = (if c then a.area else b.area) ∧
    (if c then a else b).nextArea = (if c then a.nextArea else b.nextArea) ∧
    (if c then a else b).areaDrops = (if c then a.areaDrops else b.areaDrops) ∧
    (if c then a else b).carrier = (if c then a.carrier else b.carrier) := by
  split <;> simp

@[simp] theorem foldl_stw_sess {β : Type} (f : State → β → State) (h : ∀ s b, (f s b).stw.sess = s.stw.sess) (l : List β)
    (s : State) : (l.foldl f s).stw.sess = s.stw.sess :=
  foldl_keeps (fun t => t.stw.sess = s.stw.sess) f (fun t b ht => (h t b).trans ht) l s rfl

@[simp] theorem foldl_stw_closing {β : Type} (f : State → β → State) (h : ∀ s b, (f s b).stw.closing = s.stw.closing) (l : List β)
    (s : State) : (l.foldl f s).stw.closing = s.stw.closing :=
  foldl_keeps (fun t => t.stw.closing = s.stw.closing) f (fun t b ht => (h t b).trans ht) l s rfl

@[simp] theorem foldl_stw_genCtr {β : Type} (f : State → β → State) (h : ∀ s b, (f s b).stw.genCtr = s.stw.genCtr) (l : List β)
    (s : State) : (l.foldl f s).stw.genCtr = s.stw.genCtr :=
  foldl_keeps (fun t => t.stw.genCtr = s.stw.genCtr) f (fun t b ht => (h t b).trans ht) l s rfl

@[simp] theorem foldl_stw_flights {β : Type} (f : State → β → State) (h : ∀ s b, (f s b).stw.flights = s.stw.flights) (l : List β)
    (s : State) : (l.foldl f s).stw.flights = s.stw.flights :=
  foldl_keeps (fun t => t.stw.flights = s.stw.flights) f (fun t b ht => (h t b).trans ht) l s rfl

@[simp] theorem foldl_stw_nextRef {β : Type} (f : State → β → State) (h : ∀ s b, (f s b).stw.nextRef = s.stw.nextRef) (l : List β)
    (s : State) : (l.foldl f s).stw.nextRef = s.stw.nextRef :=
  foldl_keeps (fun t => t.stw.nextRef = s.stw.nextRef) f (fun t b ht => (h t b).trans ht) l s rfl

@[simp] theorem foldl_stw_waits {β : Type} (f : State → β → State) (h : ∀ s b, (f s b).stw.waits = s.stw.waits) (l : List β)
    (s : State) : (l.foldl f s).stw.waits = s.stw.waits :=
  foldl_keeps (fun t => t.stw.waits = s.stw.waits) f (fun t b ht => (h t b).trans ht) l s rfl

@[simp] theorem foldl_stw_svc {β : Type} (f : State → β → State) (h : ∀ s b, (f s b).stw.svc = s.stw.svc) (l : List β)
    (s : State) : (l.foldl f s).stw.svc = s.stw.svc :=
  foldl_keeps (fun t => t.stw.svc = s.stw.svc) f (fun t b ht => (h t b).trans ht) l s rfl

@[simp] theorem foldl_stw_area {β : Type} (f : State → β → State) (h : ∀ s b, (f s b).stw.area = s.stw.area) (l : List β)
    (s : State) : (l.foldl f s).stw.area = s.stw.area :=
  foldl_keeps (fun t => t.stw.area = s.stw.area) f (fun t b ht => (h t b).trans ht) l s rfl

@[simp] theorem foldl_stw_nextArea {β : Type} (f : State → β → State) (h : ∀ s b, (f s b).stw.nextArea = s.stw.nextArea) (l : List β)
    (s : State) : (l.foldl f s).stw.nextArea = s.stw.nextArea :=
  foldl_keeps (fun t => t.stw.nextArea = s.stw.nextArea) f (fun t b ht => (h t b).trans ht) l s rfl

@[simp] theorem foldl_stw_areaDrops {β : Type} (f : State → β → State) (h : ∀ s b, (f s b).stw.areaDrops = s.stw.areaDrops) (l : List β)
    (s : State) : (l.foldl f s).stw.areaDrops = s.stw.areaDrops :=
  foldl_keeps (fun t => t.stw.areaDrops = s.stw.areaDrops) f (fun t b ht => (h t b).trans ht) l s rfl

@[simp] theorem foldl_stw_carrier {β : Type} (f : State → β → State) (h : ∀ s b, (f s b).stw.carrier = s.stw.carrier) (l : List β)
    (s : State) : (l.foldl f s).stw.carrier = s.stw.carrier :=
  foldl_keeps (fun t => t.stw.carrier = s.stw.carrier) f (fun t b ht => (h t b).trans ht) l s rfl

@[simp] theorem State.setSess_stw (s : State) (k : Nat) (x : Session) : StwLeaves (sess := may) s.stw (s.setSess k x).stw := by
  simp [StwLeaves, keep, may, State.setSess]

@[simp] theorem State.postEvent_stw (s : State) (k : Nat) (x : Session) (body : List Byte) :
    StwLeaves (sess := may) s.stw (s.postEvent k x body).stw := by
  simp [StwLeaves, keep, may, State.postEvent, ite_fields, ite_stw_fields]

@[simp] theorem State.raiseAt_stw (s : State) (at_ code block inst : Nat) (data : List Byte) :
    StwLeaves (sess := may) s.stw (s.raiseAt at_ code block inst data).stw := by
  simp only [State.raiseAt]
  split
  · simp [StwLeaves, keep, may]
  · refine foldl_keeps (fun t => StwLeaves (sess := may) s.stw t.stw) _ (fun t e h => ?_) _ _ (by simp [StwLeaves, keep, may])
    (repeat' split) <;> simp_all [StwLeaves, keep, may]

@[simp] theorem State.raise_stw (s : State) (code block inst : Nat) (data : List Byte) :
    StwLeaves (sess := may) s.stw (s.raise code block inst data).stw := by
  simp [StwLeaves, keep, may, State.raise]

@[simp] theorem State.eventsLost_stw (s : State) (k : Nat) : StwLeaves (sess := may) s.stw (s.eventsLost k).stw := by
  simp only [State.eventsLost]
  (repeat' split) <;> simp [StwLeaves, keep, may]

@[simp] theorem State.recordsLost_stw (s : State) (k : Nat) : StwLeaves (sess := may) s.stw (s.recordsLost k).stw := by
  simp only [State.recordsLost]
  (repeat' split) <;> simp [StwLeaves, keep, may]

@[simp] theorem State.deliverTo_stw (s : State) (k : Nat) (x : Session) (id : Nat) (full : Bool) (body : List Byte) :
    StwLeaves (sess := may) s.stw (s.deliverTo k x id full body).stw := by
  simp [StwLeaves, keep, may, State.deliverTo, ite_fields, ite_stw_fields]

@[simp] theorem State.deliver_stw (s : State) (kind : Nat) (body : List Byte) :
    StwLeaves (sess := may) (area := may) (nextArea := may) (areaDrops := may) s.stw (s.deliver kind body).stw := by
  unfold State.deliver
  extract_lets full takers fits id w t u
  have ht : StwLeaves (sess := may) (area := may) (nextArea := may) (areaDrops := may) s.stw t.stw := by
    simp only [t]
    (repeat' split) <;> simp [StwLeaves, keep, may, w]
  have hu : StwLeaves (sess := may) (area := may) (nextArea := may) (areaDrops := may) t.stw u.stw := by
    refine foldl_keeps (fun v => StwLeaves (sess := may) (area := may) (nextArea := may) (areaDrops := may) t.stw v.stw) _ (fun v e h => ?_) _ _ (by simp [StwLeaves, keep, may])
    split <;> simp_all [StwLeaves, keep, may]
  clear_value u t
  simp_all [StwLeaves, keep, may]

@[simp] theorem State.setFlight_stw (s : State) (f : Flight) : StwLeaves (flights := may) s.stw (s.setFlight f).stw := by
  simp [StwLeaves, keep, may, State.setFlight]

@[simp] theorem Stw.sweep_stw (w : Stw) : StwLeaves (area := may) w w.sweep := by simp [StwLeaves, keep, may, Stw.sweep]

@[simp] theorem Stw.reap_stw (w : Stw) : StwLeaves (closing := may) w w.reap := by simp [StwLeaves, keep, may, Stw.reap]

@[simp] theorem Stw.served_stw (w : Stw) (mb took : Nat) : StwLeaves (svc := may) w (w.served mb took) := by
  simp [StwLeaves, keep, may, Stw.served]

@[simp] theorem State.answer_stw (s : State) (f : Flight) (direct : Bool) (status : Nat) (operand : List Byte) (settles : optParam Bool false) :
    StwLeaves (sess := may) (closing := may) (flights := may) s.stw (s.answer f direct status operand settles).stw := by
  simp only [State.answer]
  split <;> simp [StwLeaves, keep, may]

@[simp] theorem State.recordFinal_stw (s : State) (f : Flight) (status : Nat) (operand : List Byte) :
    StwLeaves (flights := may) s.stw (s.recordFinal f status operand).stw := by
  simp [StwLeaves, keep, may, State.recordFinal]

@[simp] theorem State.finish_stw (s : State) (f : Flight) (direct : Bool) (status : Nat) (operand : List Byte) (settles : optParam Bool false) :
    StwLeaves (sess := may) (closing := may) (flights := may) s.stw (s.finish f direct status operand settles).stw := by
  simp [StwLeaves, keep, may, State.finish, ite_fields, ite_stw_fields]

@[simp] theorem State.finishRef_stw (s : State) (ref status : Nat) (operand : List Byte) :
    StwLeaves (sess := may) (closing := may) (flights := may) s.stw (s.finishRef ref status operand).stw := by
  unfold State.finishRef
  split <;> simp [StwLeaves, keep, may]

@[simp] theorem State.foundRotten_stw (s : State) (block c : Nat) :
    StwLeaves (sess := may) s.stw (s.foundRotten block c).stw := by
  simp [StwLeaves, keep, may, State.foundRotten]

@[simp] theorem State.consume_stw (s : State) (block a n : Nat) : StwLeaves (sess := may) s.stw (s.consume block a n).stw := by
  simp [StwLeaves, keep, may, State.consume]

@[simp] theorem State.consumePart_stw (s : State) (block a n : Nat) :
    StwLeaves (sess := may) s.stw (s.consumePart block a n).stw := by
  simp [StwLeaves, keep, may, State.consumePart]

@[simp] theorem State.writeMem_stw (s : State) (block a : Nat) (d : List Byte) :
    StwLeaves (sess := may) s.stw (s.writeMem block a d).1.stw := by
  simp [StwLeaves, keep, may, State.writeMem]

@[simp] theorem State.settleCarrier_stw (s : State) : StwLeaves (carrier := may) s.stw (s.settleCarrier).stw := by
  simp only [State.settleCarrier]
  (repeat' split) <;> simp [StwLeaves, keep, may]

@[simp] theorem State.heard_stw (s : State) (m : Inbound) : StwLeaves (sess := may) s.stw (s.heard m).stw := by
  unfold State.heard
  split <;> simp [StwLeaves, keep, may]

@[simp] theorem State.enter_stw (s : State) (m : Inbound) (opcode : Nat) (x : Session) (st : Stage) :
    StwLeaves (sess := may) (flights := may) (nextRef := may) s.stw (s.enter m opcode x st).1.stw := by
  simp [StwLeaves, keep, may, State.enter]

theorem State.tagChecks_stw {s u : State} {m : Inbound} {opcode : Nat} {x : Session} (h : s.tagChecks m opcode x = some u) :
    u.stw = s.stw := by
  have := State.tagChecks_leaves h
  simp_all [Leaves, keep, may]

@[simp] theorem State.accept_stw (s : State) (m : Inbound) (opcode need : Nat) (direct : Bool) (st : Stage) :
    StwLeaves (sess := may) (flights := may) (nextRef := may) s.stw (s.accept m opcode need direct st).1.stw := by
  simp only [State.accept]
  split; · simp [StwLeaves, keep, may]
  split; · simp [StwLeaves, keep, may]
  split; · simp [StwLeaves, keep, may]
  split; · simp [StwLeaves, keep, may]
  split
  next u h => simp [StwLeaves, keep, may, State.tagChecks_stw h]
  next => (repeat' split) <;> simp [StwLeaves, keep, may]

@[simp] theorem State.arriveFw_stw (s : State) (m : Inbound) (opcode need : Nat) :
    StwLeaves (sess := may) (flights := may) (nextRef := may) s.stw (s.arriveFw m opcode need).stw := by
  simp [StwLeaves, keep, may, State.arriveFw]

@[simp] theorem State.openSession_stw (s : State) (m : Inbound) :
    StwLeaves (sess := may) (genCtr := may) s.stw (s.openSession m).stw := by
  simp only [State.openSession]
  (repeat' split) <;> simp [StwLeaves, keep, may]

@[simp] theorem State.closeSession_stw (s : State) (k : Nat) (x : Session) :
    StwLeaves (sess := may) (closing := may) (area := may) s.stw (s.closeSession k x).stw := by simp [StwLeaves, keep, may, State.closeSession]

@[simp] theorem State.acknowledge_stw (s : State) (k : Nat) (x : Session) (stream upto : Nat) :
    StwLeaves (sess := may) (area := may) s.stw (s.acknowledge k x stream upto).stw := by
  simp only [State.acknowledge]
  split <;> simp [StwLeaves, keep, may]

@[simp] theorem State.dropErased_stw (s : State) :
    StwLeaves (sess := may) (closing := may) (flights := may) s.stw (s.dropErased).stw := by
  unfold State.dropErased
  refine foldl_keeps (fun t => StwLeaves (sess := may) (closing := may) (flights := may) s.stw t.stw) _ (fun t w h => ?_) _ _
    (by simp [StwLeaves, keep, may])
  split <;> simp_all [StwLeaves, keep, may]

@[simp] theorem State.alarm_stw (s : State) (source detail : Nat) (stays : Bool) :
    StwLeaves (sess := may) (closing := may) (flights := may) s.stw (s.alarm source detail stays).stw := by
  simp [StwLeaves, keep, may, State.alarm]

@[simp] theorem State.supplyAt_stw (s : State) (n uv : Nat) :
    StwLeaves (sess := may) (closing := may) (flights := may) s.stw (s.supplyAt n uv).stw := by
  simp [StwLeaves, keep, may, State.supplyAt, ite_fields, ite_stw_fields]

@[simp] theorem State.serveKeyDelete_stw (s : State) (f : Flight) :
    StwLeaves (sess := may) (closing := may) (flights := may) s.stw (s.serveKeyDelete f).stw := by
  simp only [State.serveKeyDelete]
  (repeat' split) <;> simp [StwLeaves, keep, may]

@[simp] theorem State.serveKeyStatus_stw (s : State) (f : Flight) :
    StwLeaves (sess := may) (closing := may) (flights := may) s.stw (s.serveKeyStatus f).stw := by
  simp [StwLeaves, keep, may, State.serveKeyStatus, ite_fields, ite_stw_fields]

@[simp] theorem State.serveRootProvision_stw (s : State) (f : Flight) :
    StwLeaves (sess := may) (closing := may) (flights := may) s.stw (s.serveRootProvision f).stw := by
  simp only [State.serveRootProvision]
  (repeat' split) <;> simp [StwLeaves, keep, may]

@[simp] theorem State.serveKeyAlarm_stw (s : State) (f : Flight) :
    StwLeaves (sess := may) (closing := may) (flights := may) s.stw (s.serveKeyAlarm f).stw := by
  simp [StwLeaves, keep, may, State.serveKeyAlarm, ite_fields, ite_stw_fields]

@[simp] theorem State.serveKeyLoad_stw (s : State) (f : Flight) :
    StwLeaves (sess := may) (closing := may) (flights := may) s.stw (s.serveKeyLoad f).stw := by
  simp [StwLeaves, keep, may, State.serveKeyLoad, ite_fields, ite_stw_fields]

@[simp] theorem State.keyLoaded_stw (s : State) (ref handle : Nat) (wrapped plain : List Byte) :
    StwLeaves (sess := may) (closing := may) (flights := may) s.stw (s.keyLoaded ref handle wrapped plain).stw := by
  simp only [State.keyLoaded]
  (repeat' split) <;> simp [StwLeaves, keep, may]

@[simp] theorem State.deliverRec_stw (s : State) (r : RecvRec) (untrusted : Bool) (p : List Byte) :
    StwLeaves (sess := may) (area := may) (nextArea := may) (areaDrops := may) s.stw (s.deliverRec r untrusted p).stw := by
  simp [StwLeaves, keep, may, State.deliverRec, ite_fields, ite_stw_fields]

@[simp] theorem State.deliverFrame_stw (s : State) (air sec : Bool) (a0 p : List Byte) (ext : Option Nat) (short : Nat) (r : RecvRec) :
    StwLeaves (sess := may) (area := may) (nextArea := may) (areaDrops := may)
      s.stw (s.deliverFrame air sec a0 p ext short r).stw := by
  simp only [State.deliverFrame]
  (repeat' split) <;> simp [StwLeaves, keep, may]

@[simp] theorem State.putDone_stw (s : State) (a : Nat) (c : List Byte) : StwLeaves (sess := may) s.stw (s.putDone a c).stw := by
  simp [StwLeaves, keep, may, State.putDone, ite_fields, ite_stw_fields]

@[simp] theorem State.flushRing_stw (s : State) (n : Nat) : StwLeaves (sess := may) s.stw (s.flushRing n).stw := by
  refine State.flushRing_rel (fun s t => StwLeaves (sess := may) s.stw t.stw) ?_ ?_ ?_ ?_ ?_ s n
  case refine_2 => exact fun s t u h h' => by simp_all [StwLeaves, keep, may]
  all_goals simp [StwLeaves, keep, may]

@[simp] theorem State.readRing_stw (s : State) (n : Nat) : StwLeaves (sess := may) s.stw (s.readRing n).stw := by
  refine State.readRing_rel (fun s t => StwLeaves (sess := may) s.stw t.stw) ?_ ?_ ?_ ?_ ?_ s n
  case refine_2 => exact fun s t u h h' => by simp_all [StwLeaves, keep, may]
  all_goals simp [StwLeaves, keep, may]

@[simp] theorem State.runJob_stw (s : State) (j : Job) : StwLeaves (sess := may) s.stw (s.runJob j).1.stw := by
  simp only [State.runJob]
  (repeat' split) <;> simp [StwLeaves, keep, may]

@[simp] theorem State.completeJob_stw (s : State) (j : Job) (core status : Nat) :
    StwLeaves (sess := may) s.stw (s.completeJob j core status).stw := by
  simp only [State.completeJob]
  (repeat' split) <;> simp [StwLeaves, keep, may]

@[simp] theorem State.ringTail_stw (s : State) (tail : Nat) : StwLeaves (sess := may) s.stw (s.ringTail tail).stw := by
  simp [StwLeaves, keep, may, State.ringTail, ite_fields, ite_stw_fields]

@[simp] theorem State.phaseEvent_stw (s : State) (code x : Nat) : StwLeaves (sess := may) s.stw (s.phaseEvent code x).stw := by
  simp [StwLeaves, keep, may, State.phaseEvent]

@[simp] theorem State.toState_stw (s : State) (x st ref : Nat) : StwLeaves (sess := may) s.stw (s.toState x st ref).stw := by
  simp [StwLeaves, keep, may, State.toState, ite_fields, ite_stw_fields]

@[simp] theorem State.fallBack_stw (s : State) (x : Nat) : StwLeaves (sess := may) s.stw (s.fallBack x).stw := by
  unfold State.fallBack
  split <;> simp [StwLeaves, keep, may]

@[simp] theorem State.losePhase_stw (s : State) (x : Nat) : StwLeaves (sess := may) s.stw (s.losePhase x).stw := by
  simp [StwLeaves, keep, may, State.losePhase]

@[simp] theorem State.rejectCrossing_stw (s : State) (x : Nat) (p : Phase) (dev : Option Int) :
    StwLeaves (sess := may) s.stw (s.rejectCrossing x p dev).stw := by
  simp [StwLeaves, keep, may, State.rejectCrossing, ite_fields, ite_stw_fields]

@[simp] theorem State.acceptCrossing_stw (s : State) (x : Nat) (p : Phase) (m : Nat) (jump : Bool) :
    StwLeaves (sess := may) s.stw (s.acceptCrossing x p m jump).stw := by
  simp [StwLeaves, keep, may, State.acceptCrossing, ite_fields, ite_stw_fields]

@[simp] theorem State.lockedCrossing_stw (s : State) (x m : Nat) : StwLeaves (sess := may) s.stw (s.lockedCrossing x m).stw := by
  simp only [State.lockedCrossing]
  (repeat' split) <;> simp [StwLeaves, keep, may]

@[simp] theorem State.tryLock_stw (s : State) (x m : Nat) : StwLeaves (sess := may) s.stw (s.tryLock x m).stw := by
  simp only [State.tryLock]
  (repeat' split) <;> simp [StwLeaves, keep, may]

@[simp] theorem State.crossing_stw (s : State) (phase : Nat) (seen : Option Nat) (ampl : Nat) :
    StwLeaves (sess := may) s.stw (s.crossing phase seen ampl).stw := by
  simp only [State.crossing]
  (repeat' split) <;> simp [StwLeaves, keep, may]

@[simp] theorem State.mnsDisable_stw (s : State) : StwLeaves (sess := may) s.stw (s.mnsDisable).stw := by
  simp [StwLeaves, keep, may, State.mnsDisable, ite_fields, ite_stw_fields]

@[simp] theorem State.dropWaits_stw (s : State) :
    StwLeaves (sess := may) (closing := may) (flights := may) s.stw (s.dropWaits).stw := by
  unfold State.dropWaits
  refine foldl_keeps (fun t => StwLeaves (sess := may) (closing := may) (flights := may) s.stw t.stw) _ (fun t w h => ?_) _ _
    (by simp [StwLeaves, keep, may])
  split <;> simp_all [StwLeaves, keep, may]

@[simp] theorem State.toRole_stw (s : State) (role reason : Nat) :
    StwLeaves (sess := may) (closing := may) (flights := may) s.stw (s.toRole role reason).stw := by
  simp [StwLeaves, keep, may, State.toRole, ite_fields, ite_stw_fields]

@[simp] theorem State.stationLeft_stw (s : State) (station reason : Nat) :
    StwLeaves (sess := may) s.stw (s.stationLeft station reason).stw := by
  simp [StwLeaves, keep, may, State.stationLeft]

@[simp] theorem State.toListening_stw (s : State) (reason : Nat) :
    StwLeaves (sess := may) (closing := may) (flights := may) s.stw (s.toListening reason).stw := by
  simp [StwLeaves, keep, may, State.toListening]

@[simp] theorem State.toElecting_stw (s : State) :
    StwLeaves (sess := may) (closing := may) (flights := may) s.stw (s.toElecting).stw := by
  simp [StwLeaves, keep, may, State.toElecting, ite_fields, ite_stw_fields]

@[simp] theorem State.toManager_stw (s : State) (reason : Nat) :
    StwLeaves (sess := may) (closing := may) (flights := may) s.stw (s.toManager reason).stw := by
  simp [StwLeaves, keep, may, State.toManager, ite_fields, ite_stw_fields]

@[simp] theorem State.takeOver_stw (s : State) :
    StwLeaves (sess := may) (closing := may) (flights := may) s.stw (s.takeOver).stw := by
  simp [StwLeaves, keep, may, State.takeOver, ite_fields, ite_stw_fields]

@[simp] theorem State.releaseWait_stw (s : State) (w : MirrorFor) :
    StwLeaves (sess := may) (closing := may) (flights := may) s.stw (s.releaseWait w).stw := by
  unfold State.releaseWait
  split <;> simp [StwLeaves, keep, may]

@[simp] theorem State.whenMirrored_stw (s : State) (n : Nat) (w : MirrorFor) :
    StwLeaves (sess := may) (closing := may) (flights := may) s.stw (s.whenMirrored n w).stw := by
  simp [StwLeaves, keep, may, State.whenMirrored, ite_fields, ite_stw_fields]

@[simp] theorem State.releaseMirrored_stw (s : State) :
    StwLeaves (sess := may) (closing := may) (flights := may) s.stw (s.releaseMirrored).stw := by
  simp [StwLeaves, keep, may, State.releaseMirrored]

@[simp] theorem State.claimAt_stw (s : State) (k ext : Nat) (e : RegEntry) (ack : Bool) :
    StwLeaves (sess := may) (closing := may) (flights := may) s.stw (s.claimAt k ext e ack).stw := by
  simp only [State.claimAt]
  (repeat' split) <;> simp [StwLeaves, keep, may]

@[simp] theorem State.sendClaim_stw (s : State) (c : Claim) :
    StwLeaves (sess := may) (closing := may) (flights := may) s.stw (s.sendClaim c).stw := by
  simp only [State.sendClaim]
  (repeat' split) <;> simp [StwLeaves, keep, may]

@[simp] theorem State.resendClaims_stw (s : State) :
    StwLeaves (sess := may) (closing := may) (flights := may) s.stw (s.resendClaims).stw := by
  simp [StwLeaves, keep, may, State.resendClaims]

@[simp] theorem State.claim_stw (s : State) (ext kind flags short port : Nat) (release : Bool) :
    StwLeaves (sess := may) (closing := may) (flights := may) s.stw (s.claim ext kind flags short port release).stw := by
  simp [StwLeaves, keep, may, State.claim]

@[simp] theorem State.toJoining_stw (s : State) (k reason : Nat) :
    StwLeaves (sess := may) (closing := may) (flights := may) s.stw (s.toJoining k reason).stw := by
  simp [StwLeaves, keep, may, State.toJoining]

@[simp] theorem State.seaEnable_stw (s : State) :
    StwLeaves (sess := may) (closing := may) (flights := may) s.stw (s.seaEnable).stw := by
  simp [StwLeaves, keep, may, State.seaEnable]

@[simp] theorem State.seaLeave_stw (s : State) :
    StwLeaves (sess := may) (closing := may) (flights := may) s.stw (s.seaLeave).stw := by
  simp [StwLeaves, keep, may, State.seaLeave, ite_fields, ite_stw_fields]

@[simp] theorem State.seaDisable_stw (s : State) :
    StwLeaves (sess := may) (closing := may) (flights := may) s.stw (s.seaDisable).stw := by
  simp [StwLeaves, keep, may, State.seaDisable]

@[simp] theorem State.takePrio_stw (s : State) :
    StwLeaves (sess := may) (closing := may) (flights := may) s.stw (s.takePrio).stw := by
  simp [StwLeaves, keep, may, State.takePrio, ite_fields, ite_stw_fields]

@[simp] theorem State.dropMember_stw (s : State) (k reason : Nat) :
    StwLeaves (sess := may) (closing := may) (flights := may) s.stw (s.dropMember k reason).stw := by
  simp [StwLeaves, keep, may, State.dropMember, ite_fields, ite_stw_fields]

@[simp] theorem State.yielded_stw (s : State) :
    StwLeaves (sess := may) (closing := may) (flights := may) s.stw (s.yielded).stw := by
  simp [StwLeaves, keep, may, State.yielded]

@[simp] theorem State.validBeacon_stw (s : State) (m : SeamMsg) :
    StwLeaves (sess := may) (closing := may) (flights := may) s.stw (s.validBeacon m).stw := by
  simp [StwLeaves, keep, may, State.validBeacon, ite_fields, ite_stw_fields]

@[simp] theorem State.joinBeacon_stw (s : State) (m : SeamMsg) (reason : Nat) :
    StwLeaves (sess := may) (closing := may) (flights := may) s.stw (s.joinBeacon m reason).stw := by
  simp [StwLeaves, keep, may, State.joinBeacon, ite_fields, ite_stw_fields]

@[simp] theorem State.serveCluStatus_stw (s : State) (f : Flight) :
    StwLeaves (sess := may) (closing := may) (flights := may) s.stw (s.serveCluStatus f).stw := by
  simp [StwLeaves, keep, may, State.serveCluStatus, ite_fields, ite_stw_fields]

@[simp] theorem State.serveRegGet_stw (s : State) (f : Flight) :
    StwLeaves (sess := may) (closing := may) (flights := may) s.stw (s.serveRegGet f).stw := by
  simp only [State.serveRegGet]
  (repeat' split) <;> simp [StwLeaves, keep, may]

@[simp] theorem State.serveRegPut_stw (s : State) (f : Flight) :
    StwLeaves (sess := may) (closing := may) (flights := may) s.stw (s.serveRegPut f).stw := by
  simp [StwLeaves, keep, may, State.serveRegPut, ite_fields, ite_stw_fields]

@[simp] theorem State.serveStations_stw (s : State) (f : Flight) :
    StwLeaves (sess := may) (closing := may) (flights := may) s.stw (s.serveStations f).stw := by
  simp [StwLeaves, keep, may, State.serveStations, ite_fields, ite_stw_fields]

@[simp] theorem State.serveCluLeave_stw (s : State) (f : Flight) :
    StwLeaves (sess := may) (closing := may) (flights := may) s.stw (s.serveCluLeave f).stw := by
  simp [StwLeaves, keep, may, State.serveCluLeave, ite_fields, ite_stw_fields]

@[simp] theorem State.nodeJoined_stw (s : State) (short : Nat) (x : Node) :
    StwLeaves (sess := may) (closing := may) (flights := may) s.stw (s.nodeJoined short x).stw := by
  simp [StwLeaves, keep, may, State.nodeJoined]

@[simp] theorem State.lineResult_stw (s : State) (ref : Nat) (f : LineFrame) (result : Nat) :
    StwLeaves (sess := may) (closing := may) (flights := may) s.stw (s.lineResult ref f result).stw := by
  simp [StwLeaves, keep, may, State.lineResult]

@[simp] theorem State.serveMapRead_stw (s : State) (f : Flight) :
    StwLeaves (sess := may) (closing := may) (flights := may) s.stw (s.serveMapRead f).stw := by
  simp [StwLeaves, keep, may, State.serveMapRead, ite_fields, ite_stw_fields]

@[simp] theorem State.joinNode_stw (s : State) (short : Nat) :
    StwLeaves (sess := may) (closing := may) (flights := may) s.stw (s.joinNode short).stw := by
  simp only [State.joinNode]
  (repeat' split) <;> simp [StwLeaves, keep, may]

@[simp] theorem State.jobDone_stw (s : State) (n m : Nat) (f : LineFrame) (ok : Bool) (result : Nat) :
    StwLeaves (sess := may) (closing := may) (flights := may) s.stw (s.jobDone n m f ok result).stw := by
  simp only [State.jobDone]
  (repeat' split) <;> simp [StwLeaves, keep, may]

@[simp] theorem State.popLine_stw (s : State) (n m at_ : Nat) (ok : Bool) (result : Nat) :
    StwLeaves (sess := may) (closing := may) (flights := may) s.stw (s.popLine n m at_ ok result).stw := by
  simp only [State.popLine]
  (repeat' split) <;> simp [StwLeaves, keep, may]

@[simp] theorem State.tryFailed_stw (s : State) (n m at_ : Nat) :
    StwLeaves (sess := may) (closing := may) (flights := may) s.stw (s.tryFailed n m at_).stw := by
  simp only [State.tryFailed]
  (repeat' split) <;> simp [StwLeaves, keep, may]

@[simp] theorem State.tryEnds_stw (s : State) (n m fin : Nat) (cut : Bool) (x : LineTx) :
    StwLeaves (sess := may) (closing := may) (flights := may) s.stw (s.tryEnds n m fin cut x).stw := by
  simp only [State.tryEnds]
  (repeat' split) <;> simp [StwLeaves, keep, may]

@[simp] theorem State.ackLate_stw (s : State) (n m : Nat) :
    StwLeaves (sess := may) (closing := may) (flights := may) s.stw (s.ackLate n m).stw := by
  simp only [State.ackLate]
  (repeat' split) <;> simp [StwLeaves, keep, may]

@[simp] theorem State.lineDownlink_stw (s : State) (f : Flight) (short : Nat) (x : Node) :
    StwLeaves (sess := may) (closing := may) (flights := may) s.stw (s.lineDownlink f short x).stw := by
  simp only [State.lineDownlink]
  (repeat' split) <;> simp [StwLeaves, keep, may]

@[simp] theorem State.lineSealed_stw (s : State) (ref status : Nat) (nonce out : List Byte) :
    StwLeaves (sess := may) (closing := may) (flights := may) s.stw (s.lineSealed ref status nonce out).stw := by
  simp only [State.lineSealed]
  (repeat' split) <;> simp [StwLeaves, keep, may]

@[simp] theorem State.serveLineDownlink_stw (s : State) (f : Flight) :
    StwLeaves (sess := may) (closing := may) (flights := may) s.stw (s.serveLineDownlink f).stw := by
  simp only [State.serveLineDownlink]
  (repeat' split) <;> simp [StwLeaves, keep, may]

@[simp] theorem State.expireLine_stw (s : State) (ref : Nat) :
    StwLeaves (sess := may) (closing := may) (flights := may) s.stw (s.expireLine ref).stw := by
  simp only [State.expireLine]
  (repeat' split) <;> simp [StwLeaves, keep, may]

@[simp] theorem State.endQueue_stw (s : State) (n m : Nat) :
    StwLeaves (sess := may) (closing := may) (flights := may) s.stw (s.endQueue n m).stw := by
  simp [StwLeaves, keep, may, State.endQueue, ite_fields, ite_stw_fields]

@[simp] theorem State.dropFrames_stw (s : State) (n m short : Nat) :
    StwLeaves (sess := may) (closing := may) (flights := may) s.stw (s.dropFrames n m short).stw := by
  simp [StwLeaves, keep, may, State.dropFrames, ite_fields, ite_stw_fields]

@[simp] theorem State.dropNode_stw (s : State) (short : Nat) :
    StwLeaves (sess := may) (closing := may) (flights := may) s.stw (s.dropNode short).stw := by
  simp [StwLeaves, keep, may, State.dropNode]

@[simp] theorem State.endSlot_stw (s : State) (n m : Nat) :
    StwLeaves (sess := may) (closing := may) (flights := may) s.stw (s.endSlot n m).stw := by
  simp [StwLeaves, keep, may, State.endSlot, ite_fields, ite_stw_fields]

@[simp] theorem State.applyLink_stw (s : State) (n m : Nat) :
    StwLeaves (sess := may) (closing := may) (flights := may) s.stw (s.applyLink n m).stw := by
  simp [StwLeaves, keep, may, State.applyLink, ite_fields, ite_stw_fields]

@[simp] theorem State.plxBoundary_stw (s : State) (n : Nat) :
    StwLeaves (sess := may) (closing := may) (flights := may) s.stw (s.plxBoundary n).stw := by
  simp [StwLeaves, keep, may, State.plxBoundary, ite_fields, ite_stw_fields]

@[simp] theorem State.plxGo_stw (s : State) (n : Nat) :
    StwLeaves (sess := may) (closing := may) (flights := may) s.stw (s.plxGo n).stw := by
  simp [StwLeaves, keep, may, State.plxGo, ite_fields, ite_stw_fields]

@[simp] theorem State.plxStop_stw (s : State) (n : Nat) :
    StwLeaves (sess := may) (closing := may) (flights := may) s.stw (s.plxStop n).stw := by
  simp [StwLeaves, keep, may, State.plxStop, ite_fields, ite_stw_fields]

@[simp] theorem State.enterService_stw (s : State) (n : Nat) : StwLeaves (sess := may) s.stw (s.enterService n).stw := by
  simp [StwLeaves, keep, may, State.enterService, ite_fields, ite_stw_fields]

@[simp] theorem State.nodeHeard_stw (s : State) (n m short start margin : Nat) (energy : Option Nat) :
    StwLeaves (sess := may) (closing := may) (flights := may) s.stw (s.nodeHeard n m short start margin energy).stw := by
  simp only [State.nodeHeard]
  (repeat' split) <;> simp [StwLeaves, keep, may]

@[simp] theorem State.deliverLine_stw (s : State) (n m short seq start margin hops : Nat) (sec relayed : Bool) (a0 p : List Byte) :
    StwLeaves (sess := may) (area := may) (nextArea := may) (areaDrops := may)
      s.stw (s.deliverLine n m short seq start margin hops sec relayed a0 p).stw := by
  simp only [State.deliverLine]
  (repeat' split) <;> simp [StwLeaves, keep, may]

@[simp] theorem State.lineRelay_stw (s : State) (n m src start margin : Nat) (p : List Byte) :
    StwLeaves (sess := may) (closing := may) (flights := may) (area := may) (nextArea := may) (areaDrops := may)
      s.stw (s.lineRelay n m src start margin p).stw := by
  simp only [State.lineRelay]
  (repeat' split) <;> simp [StwLeaves, keep, may]

@[simp] theorem State.lineFrame_stw (s : State) (n m : Nat) (r : LineRx) (p : List Byte) (energy : Nat) (snr : Int) :
    StwLeaves (sess := may) (closing := may) (flights := may) (area := may) (nextArea := may) (areaDrops := may)
      s.stw (s.lineFrame n m r p energy snr).stw := by
  simp only [State.lineFrame]
  (repeat' split) <;> simp [StwLeaves, keep, may]

@[simp] theorem State.windowMissed_stw (s : State) (n m : Nat) (c : LineCand) :
    StwLeaves (sess := may) (closing := may) (flights := may) s.stw (s.windowMissed n m c).stw := by
  simp only [State.windowMissed]
  (repeat' split) <;> simp [StwLeaves, keep, may]

@[simp] theorem State.headFails_stw (s : State) (n m : Nat) (c : LineCand) :
    StwLeaves (sess := may) (closing := may) (flights := may) s.stw (s.headFails n m c).stw := by
  simp only [State.headFails]
  (repeat' split) <;> simp [StwLeaves, keep, may]

@[simp] theorem State.headWins_stw (s : State) (n m : Nat) (r : LineRx) (energy : Nat) (snr : Int) :
    StwLeaves (sess := may) (closing := may) (flights := may) (area := may) (nextArea := may) (areaDrops := may)
      s.stw (s.headWins n m r energy snr).stw := by
  simp [StwLeaves, keep, may, State.headWins, ite_fields, ite_stw_fields]

@[simp] theorem State.headsDone_stw (s : State) (n m : Nat) (l : List (LineCand × Option LineRx)) (energy : Nat) (snr : Int) :
    StwLeaves (sess := may) (closing := may) (flights := may) (area := may) (nextArea := may) (areaDrops := may)
      s.stw (s.headsDone n m l energy snr).stw := by
  unfold State.headsDone
  split <;> simp [StwLeaves, keep, may]

@[simp] theorem State.lineHead_stw (s : State) (n m place : Nat) (soft : List (List SlotSoft)) (energy : Nat) (snr : Int) :
    StwLeaves (sess := may) (closing := may) (flights := may) (area := may) (nextArea := may) (areaDrops := may)
      s.stw (s.lineHead n m place soft rival energy snr).stw := by
  simp only [State.lineHead]
  (repeat' split) <;> simp [StwLeaves, keep, may]

@[simp] theorem State.linePayload_stw (s : State) (n m : Nat) (soft : List SlotSoft) (energy : Nat) (snr : Int) :
    StwLeaves (sess := may) (closing := may) (flights := may) (area := may) (nextArea := may) (areaDrops := may)
      s.stw (s.linePayload n m soft energy snr).stw := by
  simp only [State.linePayload]
  (repeat' split) <;> simp [StwLeaves, keep, may]

@[simp] theorem State.serveNodeList_stw (s : State) (f : Flight) :
    StwLeaves (sess := may) (closing := may) (flights := may) s.stw (s.serveNodeList f).stw := by
  simp [StwLeaves, keep, may, State.serveNodeList, ite_fields, ite_stw_fields]

@[simp] theorem State.serveNodeGet_stw (s : State) (f : Flight) :
    StwLeaves (sess := may) (closing := may) (flights := may) s.stw (s.serveNodeGet f).stw := by
  simp only [State.serveNodeGet]
  (repeat' split) <;> simp [StwLeaves, keep, may]

@[simp] theorem State.removeNode_stw (s : State) (short : Nat) (y : Node) :
    StwLeaves (sess := may) (closing := may) (flights := may) s.stw (s.removeNode short y).stw := by
  simp [StwLeaves, keep, may, State.removeNode]

@[simp] theorem State.serveNodeRemove_stw (s : State) (f : Flight) :
    StwLeaves (sess := may) (closing := may) (flights := may) s.stw (s.serveNodeRemove f).stw := by
  simp only [State.serveNodeRemove]
  (repeat' split) <;> simp [StwLeaves, keep, may]

@[simp] theorem State.servePortStats_stw (s : State) (f : Flight) :
    StwLeaves (sess := may) (closing := may) (flights := may) s.stw (s.servePortStats f).stw := by
  simp [StwLeaves, keep, may, State.servePortStats, ite_fields, ite_stw_fields]

@[simp] theorem State.airResult_stw (s : State) (d : AirDown) (status : Nat) (result : Option Nat) :
    StwLeaves (sess := may) (closing := may) (flights := may) s.stw (s.airResult d status result).stw := by
  unfold State.airResult
  split <;> simp [StwLeaves, keep, may]

@[simp] theorem State.nextDown_stw (s : State) (ext n : Nat) :
    StwLeaves (sess := may) (closing := may) (flights := may) s.stw (s.nextDown ext n).stw := by
  induction n generalizing s with
  | zero => simp [StwLeaves, keep, may, State.nextDown]
  | succ n ih =>
    simp only [State.nextDown]
    (repeat' split) <;> simp [StwLeaves, keep, may, ih]

@[simp] theorem State.endDown_stw (s : State) (d : AirDown) (status : Nat) (result : Option Nat) :
    StwLeaves (sess := may) (closing := may) (flights := may) s.stw (s.endDown d status result).stw := by
  simp [StwLeaves, keep, may, State.endDown, ite_fields, ite_stw_fields]

@[simp] theorem State.dutyRefused_stw (s : State) (d : AirDown) :
    StwLeaves (sess := may) (closing := may) (flights := may) s.stw (s.dutyRefused d).stw := by
  unfold State.dutyRefused
  split <;> simp [StwLeaves, keep, may]

@[simp] theorem State.planTry_stw (s : State) (d : AirDown) :
    StwLeaves (sess := may) (closing := may) (flights := may) s.stw (s.planTry d).stw := by
  simp only [State.planTry]
  (repeat' split) <;> simp [StwLeaves, keep, may]

@[simp] theorem State.airFailed_stw (s : State) (d : AirDown) :
    StwLeaves (sess := may) (closing := may) (flights := may) s.stw (s.airFailed d).stw := by
  simp [StwLeaves, keep, may, State.airFailed, ite_fields, ite_stw_fields]

@[simp] theorem State.nextCopy_stw (s : State) (d : AirDown) (p : AirPlan) (fin : Nat) :
    StwLeaves (sess := may) (closing := may) (flights := may) s.stw (s.nextCopy d p fin).stw := by
  simp only [State.nextCopy]
  (repeat' split) <;> simp [StwLeaves, keep, may]

@[simp] theorem State.nextWake_stw (s : State) (d : AirDown) :
    StwLeaves (sess := may) (closing := may) (flights := may) s.stw (s.nextWake d).stw := by
  unfold State.nextWake
  split <;> simp [StwLeaves, keep, may]

@[simp] theorem State.skipCopy_stw (s : State) (d : AirDown) (p : AirPlan) :
    StwLeaves (sess := may) (closing := may) (flights := may) s.stw (s.skipCopy d p).stw := by
  simp [StwLeaves, keep, may, State.skipCopy, ite_fields, ite_stw_fields]

@[simp] theorem State.startDown_stw (s : State) (n : Nat) (d : AirDown) (p : AirPlan) :
    StwLeaves (sess := may) (closing := may) (flights := may) s.stw (s.startDown n d p).stw := by
  simp only [State.startDown]
  (repeat' split) <;> simp [StwLeaves, keep, may]

@[simp] theorem State.openWindow_stw (s : State) (ext short n m at_ : Nat) :
    StwLeaves (sess := may) (closing := may) (flights := may) s.stw (s.openWindow ext short n m at_).stw := by
  unfold State.openWindow
  extract_lets w air s1 capable dg q body mac s2 free mine order first s3
  have h1 : StwLeaves (sess := may) (closing := may) (flights := may) s.stw s1.stw := by simp [s1, StwLeaves, keep, may]
  have h2 : StwLeaves (sess := may) (closing := may) (flights := may) s1.stw s2.stw := by
    simp only [s2, q]
    split <;> simp [StwLeaves, keep, may]
  have h3 : StwLeaves (sess := may) (closing := may) (flights := may) s2.stw s3.stw := by simp [s3, StwLeaves, keep, may]
  clear_value s3 first order mine s2 mac body q dg capable s1
  split
  · simp_all [StwLeaves, keep, may]
  · extract_lets r
    have hr : StwLeaves (sess := may) (closing := may) (flights := may) s3.stw r.1.stw := by simp [r, StwLeaves, keep, may]
    clear_value r
    split <;> simp_all [StwLeaves, keep, may]

@[simp] theorem State.downSent_stw (s : State) (id start fin : Nat) :
    StwLeaves (sess := may) (closing := may) (flights := may) s.stw (s.downSent id start fin).stw := by
  simp only [State.downSent]
  (repeat' split) <;> simp [StwLeaves, keep, may]

@[simp] theorem State.airDownlink_stw (s : State) (f : Flight) (short : Nat) (x : Sensor) :
    StwLeaves (sess := may) (closing := may) (flights := may) s.stw (s.airDownlink f short x).stw := by
  simp [StwLeaves, keep, may, State.airDownlink, ite_fields, ite_stw_fields]

@[simp] theorem State.airSealed_stw (s : State) (id status : Nat) (nonce out : List Byte) :
    StwLeaves (sess := may) (closing := may) (flights := may) s.stw (s.airSealed id status nonce out).stw := by
  simp only [State.airSealed]
  (repeat' split) <;> simp [StwLeaves, keep, may]

@[simp] theorem State.serveAirDownlink_stw (s : State) (f : Flight) :
    StwLeaves (sess := may) (closing := may) (flights := may) s.stw (s.serveAirDownlink f).stw := by
  simp only [State.serveAirDownlink]
  (repeat' split) <;> simp [StwLeaves, keep, may]

@[simp] theorem State.expireAir_stw (s : State) (ref : Nat) :
    StwLeaves (sess := may) (closing := may) (flights := may) s.stw (s.expireAir ref).stw := by
  simp only [State.expireAir]
  (repeat' split) <;> simp [StwLeaves, keep, may]

@[simp] theorem State.cutSends_stw (s : State) (n : Nat) (sent : Bool) :
    StwLeaves (sess := may) (closing := may) (flights := may) s.stw (s.cutSends n sent).stw := by
  unfold State.cutSends
  extract_lets p tails t copied u v
  have hu : StwLeaves (sess := may) (closing := may) (flights := may) s.stw u.stw := by
    refine foldl_keeps (fun t => StwLeaves (sess := may) (closing := may) (flights := may) s.stw t.stw) _ (fun t x h => ?_) _ _ ?_
    · (repeat' split) <;> simp_all [StwLeaves, keep, may]
    · simp [t, StwLeaves, keep, may]
  clear_value u
  simp_all [StwLeaves, keep, may, v]

@[simp] theorem State.airStop_stw (s : State) (n : Nat) :
    StwLeaves (sess := may) (closing := may) (flights := may) s.stw (s.airStop n).stw := by
  simp [StwLeaves, keep, may, State.airStop]

@[simp] theorem State.airDeliver_stw (s : State) (kind port chan epoch ns margin : Nat) (f : MacFrame) :
    StwLeaves (sess := may) (area := may) (nextArea := may) (areaDrops := may)
      s.stw (s.airDeliver kind port chan epoch ns margin f).stw := by
  simp [StwLeaves, keep, may, State.airDeliver]

@[simp] theorem State.freeEntry_stw (s : State) (short : Nat) (x : Sensor) :
    StwLeaves (sess := may) (closing := may) (flights := may) s.stw (s.freeEntry short x).stw := by
  simp [StwLeaves, keep, may, State.freeEntry]

@[simp] theorem State.associated_stw (s : State) (short ext : Nat) :
    StwLeaves (sess := may) (closing := may) (flights := may) s.stw (s.associated short ext).stw := by
  simp only [State.associated]
  (repeat' split) <;> simp [StwLeaves, keep, may]

@[simp] theorem State.airCommand_stw (s : State) (short : Nat) (body : List Byte) :
    StwLeaves (sess := may) (closing := may) (flights := may) s.stw (s.airCommand short body).stw := by
  simp only [State.airCommand]
  (repeat' split) <;> simp [StwLeaves, keep, may]

@[simp] theorem State.airOrder_stw (s : State) (f : MacFrame) :
    StwLeaves (sess := may) (closing := may) (flights := may) s.stw (s.airOrder f).stw := by
  simp only [State.airOrder]
  (repeat' split) <;> simp [StwLeaves, keep, may]

@[simp] theorem State.downAcked_stw (s : State) (d : AirDown) (fin : Nat) :
    StwLeaves (sess := may) (closing := may) (flights := may) s.stw (s.downAcked d fin).stw := by
  simp only [State.downAcked]
  (repeat' split) <;> simp [StwLeaves, keep, may]

@[simp] theorem State.airAccepted_stw (s : State) (n m phr ts fin margin : Nat) (f : MacFrame) :
    StwLeaves (sess := may) (closing := may) (flights := may) (area := may) (nextArea := may) (areaDrops := may)
      s.stw (s.airAccepted n m phr ts fin margin f).stw := by
  simp only [State.airAccepted]
  (repeat' split) <;> simp [StwLeaves, keep, may]

@[simp] theorem State.airFrame_stw (s : State) (n m phr ts fin margin : Nat) (mac : List Byte) :
    StwLeaves (sess := may) (closing := may) (flights := may) (area := may) (nextArea := may) (areaDrops := may)
      s.stw (s.airFrame n m phr ts fin margin mac).stw := by
  simp only [State.airFrame]
  (repeat' split) <;> simp [StwLeaves, keep, may]

@[simp] theorem State.serveSensorGet_stw (s : State) (f : Flight) :
    StwLeaves (sess := may) (closing := may) (flights := may) s.stw (s.serveSensorGet f).stw := by
  simp only [State.serveSensorGet]
  (repeat' split) <;> simp [StwLeaves, keep, may]

@[simp] theorem State.serveDisassociate_stw (s : State) (f : Flight) :
    StwLeaves (sess := may) (closing := may) (flights := may) s.stw (s.serveDisassociate f).stw := by
  simp only [State.serveDisassociate]
  (repeat' split) <;> simp [StwLeaves, keep, may]

@[simp] theorem State.servePendingSet_stw (s : State) (f : Flight) :
    StwLeaves (sess := may) (closing := may) (flights := may) s.stw (s.servePendingSet f).stw := by
  simp [StwLeaves, keep, may, State.servePendingSet, ite_fields, ite_stw_fields]

@[simp] theorem State.serveDutyRead_stw (s : State) (f : Flight) :
    StwLeaves (sess := may) (closing := may) (flights := may) s.stw (s.serveDutyRead f).stw := by
  simp [StwLeaves, keep, may, State.serveDutyRead, ite_fields, ite_stw_fields]

@[simp] theorem State.serveDigestSet_stw (s : State) (f : Flight) :
    StwLeaves (sess := may) (closing := may) (flights := may) s.stw (s.serveDigestSet f).stw := by
  simp only [State.serveDigestSet]
  (repeat' split) <;> simp [StwLeaves, keep, may]

@[simp] theorem State.deliverNoHome_stw (s : State) (cepoch cns margin : Nat) (mac : List Byte) :
    StwLeaves (sess := may) (closing := may) (flights := may) (area := may) (nextArea := may) (areaDrops := may)
      s.stw (s.deliverNoHome cepoch cns margin mac).stw := by
  simp only [State.deliverNoHome]
  (repeat' split) <;> simp [StwLeaves, keep, may]

@[simp] theorem State.addDigest_stw (s : State) (short : Nat) (x : Sensor) (seq margin : Nat) :
    StwLeaves (sess := may) (closing := may) (flights := may) s.stw (s.addDigest short x seq margin).stw := by
  simp only [State.addDigest]
  (repeat' split) <;> simp [StwLeaves, keep, may]

@[simp] theorem State.deliverHome_stw (s : State) (cepoch cns ext margin : Nat) (mac : List Byte) :
    StwLeaves (sess := may) (closing := may) (flights := may) (area := may) (nextArea := may) (areaDrops := may)
      s.stw (s.deliverHome cepoch cns ext margin mac).1.stw := by
  simp only [State.deliverHome]
  (repeat' split) <;> simp [StwLeaves, keep, may]

@[simp] theorem State.resultNoHome_stw (s : State) (b : List Byte) :
    StwLeaves (sess := may) (closing := may) (flights := may) (area := may) (nextArea := may) (areaDrops := may)
      s.stw (s.resultNoHome b).stw := by
  simp [StwLeaves, keep, may, State.resultNoHome]

@[simp] theorem State.resultHome_stw (s : State) (b : List Byte) :
    StwLeaves (sess := may) (closing := may) (flights := may) (area := may) (nextArea := may) (areaDrops := may)
      s.stw (s.resultHome b).1.stw := by
  simp [StwLeaves, keep, may, State.resultHome]

@[simp] theorem State.sendResult_stw (s : State) (g : Machine.Group) (mac : List Byte) :
    StwLeaves (sess := may) (closing := may) (flights := may) (area := may) (nextArea := may) (areaDrops := may)
      s.stw (s.sendResult g mac).stw := by
  simp only [State.sendResult]
  (repeat' split) <;> simp [StwLeaves, keep, may]

@[simp] theorem State.tryGroup_stw (s : State) (g : Machine.Group) :
    StwLeaves (sess := may) (closing := may) (flights := may) (area := may) (nextArea := may) (areaDrops := may)
      s.stw (s.tryGroup g).stw := by
  simp only [State.tryGroup]
  (repeat' split) <;> simp [StwLeaves, keep, may]

@[simp] theorem State.attemptDue_stw (s : State) (num : Nat) :
    StwLeaves (sess := may) (closing := may) (flights := may) (area := may) (nextArea := may) (areaDrops := may)
      s.stw (s.attemptDue num).stw := by
  simp only [State.attemptDue]
  (repeat' split) <;> simp [StwLeaves, keep, may]

@[simp] theorem State.fragment_stw (s : State) (station : Nat) (b : List Byte) :
    StwLeaves (sess := may) (closing := may) (flights := may) (area := may) (nextArea := may) (areaDrops := may)
      s.stw (s.fragment station b).stw := by
  simp only [State.fragment]
  split; · simp [StwLeaves, keep, may]
  split; · (repeat' split) <;> simp [StwLeaves, keep, may]
  split; · simp [StwLeaves, keep, may]
  have h := s.enterCopy_leaves station (scHead b)
  split
  next u k e =>
    rw [e] at h
    simp_all [Leaves, StwLeaves, keep, may]
  next u e =>
    rw [e] at h
    simp_all [Leaves, StwLeaves, keep, may]

@[simp] theorem State.scForward_stw (s : State) (n m phr ts : Nat) (soft : List Int) (snr : Int) :
    StwLeaves (sess := may) (closing := may) (flights := may) (area := may) (nextArea := may) (areaDrops := may)
      s.stw (s.scForward n m phr ts soft snr).stw := by
  unfold State.scForward
  extract_lets minSnr len raw hard planes rxid phy head sc t u h
  have hu : StwLeaves (sess := may) (closing := may) (flights := may) (area := may) (nextArea := may) (areaDrops := may) s.stw u.stw := by simp [u, t, StwLeaves, keep, may]
  split; · simp [StwLeaves, keep, may]
  split
  · have h' := u.enterCopy_leaves u.station h
    split
    next v k e =>
      rw [e] at h'
      simp_all [Leaves, StwLeaves, keep, may]
    next v e =>
      rw [e] at h'
      simp_all [Leaves, StwLeaves, keep, may]
  · split <;> simp_all [StwLeaves, keep, may]

@[simp] theorem State.airFcs_stw (s : State) (n m : Nat) (soft : List Int) (snr : Int) :
    StwLeaves (sess := may) (closing := may) (flights := may) (area := may) (nextArea := may) (areaDrops := may)
      s.stw (s.airFcs n m soft snr).stw := by
  simp only [State.airFcs]
  (repeat' split) <;> simp [StwLeaves, keep, may]

@[simp] theorem State.moveSessions_stw (s : State) (p : Nat) :
    StwLeaves (sess := may) (flights := may) s.stw (s.moveSessions p).stw := by
  simp [StwLeaves, keep, may, State.moveSessions]

@[simp] theorem State.linkEvent_stw (s : State) (code p reason : Nat) :
    StwLeaves (sess := may) s.stw (s.linkEvent code p reason).stw := by
  simp [StwLeaves, keep, may, State.linkEvent]

@[simp] theorem State.failover_stw (s : State) (p detect moved interrupt : Nat) :
    StwLeaves (sess := may) s.stw (s.failover p detect moved interrupt).stw := by
  simp [StwLeaves, keep, may, State.failover]

@[simp] theorem State.portDown_stw (s : State) (p reason detect interrupt : Nat) :
    StwLeaves (sess := may) (flights := may) s.stw (s.portDown p reason detect interrupt).stw := by
  simp [StwLeaves, keep, may, State.portDown, ite_fields, ite_stw_fields]

@[simp] theorem State.sendWaiting_stw (s : State) : StwLeaves (sess := may) s.stw (s.sendWaiting).stw := by
  simp [StwLeaves, keep, may, State.sendWaiting]

@[simp] theorem State.unmasked_stw (s : State) (block inst kind detect ctxs index : Nat) :
    StwLeaves (sess := may) s.stw (s.unmasked block inst kind detect ctxs index).stw := by
  simp [StwLeaves, keep, may, State.unmasked]

@[simp] theorem State.portsBack_stw (s : State) : StwLeaves (sess := may) s.stw (s.portsBack).stw := by
  unfold State.portsBack
  split <;> simp [StwLeaves, keep, may]

@[simp] theorem State.seamBack_stw (s : State) :
    StwLeaves (sess := may) (closing := may) (flights := may) s.stw (s.seamBack).stw := by
  simp [StwLeaves, keep, may, State.seamBack, ite_fields, ite_stw_fields]

@[simp] theorem State.portUp_stw (s : State) (p : Nat) :
    StwLeaves (sess := may) (closing := may) (flights := may) s.stw (s.portUp p).stw := by
  simp [StwLeaves, keep, may, State.portUp, ite_fields, ite_stw_fields]

@[simp] theorem State.ethDisable_stw (s : State) (p : Nat) :
    StwLeaves (sess := may) (flights := may) s.stw (s.ethDisable p).stw := by
  simp [StwLeaves, keep, may, State.ethDisable, ite_fields, ite_stw_fields]

@[simp] theorem State.idle_stw (s : State) : StwLeaves (carrier := may) s.stw (s.idle).stw := by
  simp [StwLeaves, keep, may, State.idle, ite_fields, ite_stw_fields]

@[simp] theorem State.serveCapStart_stw (s : State) (f : Flight) :
    StwLeaves (sess := may) (closing := may) (flights := may) s.stw (s.serveCapStart f).stw := by
  simp only [State.serveCapStart]
  (repeat' split) <;> simp [StwLeaves, keep, may]

@[simp] theorem State.serveCapStop_stw (s : State) (f : Flight) :
    StwLeaves (sess := may) (closing := may) (flights := may) s.stw (s.serveCapStop f).stw := by
  simp only [State.serveCapStop]
  (repeat' split) <;> simp [StwLeaves, keep, may]

@[simp] theorem State.endCtx_stw (s : State) (c : Ctx) :
    StwLeaves (sess := may) (closing := may) (flights := may) s.stw (s.endCtx c).stw := by
  simp only [State.endCtx]
  (repeat' split) <;> simp [StwLeaves, keep, may]

@[simp] theorem State.loseEngine_stw (s : State) (n detect target : Nat) (cs : List Ctx) :
    StwLeaves (sess := may) (closing := may) (flights := may) s.stw (s.loseEngine n detect target cs).stw := by
  simp [StwLeaves, keep, may, State.loseEngine]

@[simp] theorem State.patchIn_stw (s : State) (e : Engine) (j : Nat) (p : Patch) (c old : Option Ckpt) :
    StwLeaves (sess := may) (closing := may) (flights := may) s.stw (s.patchIn e j p c old).stw := by
  simp [StwLeaves, keep, may, State.patchIn, ite_fields, ite_stw_fields]

@[simp] theorem State.engineFault_stw (s : State) (n detect fault : Nat) (bad : Bool) :
    StwLeaves (sess := may) (closing := may) (flights := may) s.stw (s.engineFault n detect fault bad).stw := by
  simp only [State.engineFault]
  (repeat' split) <;> simp [StwLeaves, keep, may]

@[simp] theorem Input.run_stw (i : Input) (s : State) :
    StwLeaves (sess := may) (closing := may) (flights := may) (area := may) (nextArea := may) (areaDrops := may)
      s.stw (i.run s).stw := by
  unfold Input.run
  split <;> simp [StwLeaves, keep, may]

@[simp] theorem State.input_stw_run (s : State) (c : Ctx) (i j : Input) :
    StwLeaves (sess := may) (closing := may) (flights := may) (area := may) (nextArea := may) (areaDrops := may) s.stw (s.input c i j.run).stw := by
  obtain ⟨x, y, h | h⟩ := s.input_cases c i j.run <;> rw [h] <;> simp [StwLeaves, keep, may]

@[simp] theorem State.replay_stw (n : Nat) (s : State) (h : HeldInput) :
    StwLeaves (sess := may) (closing := may) (flights := may) (area := may) (nextArea := may) (areaDrops := may)
      s.stw (s.replay n h).stw := by
  simp only [State.replay]
  (repeat' split) <;> simp [StwLeaves, keep, may]

@[simp] theorem State.takeFlight_stw (s : State) (f : Flight) :
    StwLeaves (sess := may) (closing := may) (flights := may) s.stw (s.takeFlight f).stw := by
  unfold State.takeFlight
  split <;> simp [StwLeaves, keep, may]

@[simp] theorem State.pairTakes_stw (s : State) (n : Nat) :
    StwLeaves (sess := may) (closing := may) (flights := may) s.stw (s.pairTakes n).stw := by
  simp [StwLeaves, keep, may, State.pairTakes]

@[simp] theorem State.pairFault_stw (s : State) (n detect interrupt : Nat) :
    StwLeaves (sess := may) (closing := may) (flights := may) s.stw (s.pairFault n detect interrupt).stw := by
  simp only [State.pairFault]
  (repeat' split) <;> simp [StwLeaves, keep, may]

@[simp] theorem State.pairBack_stw (s : State) (n : Nat) :
    StwLeaves (sess := may) (closing := may) (flights := may) s.stw (s.pairBack n).stw := by
  simp only [State.pairBack]
  (repeat' split) <;> simp [StwLeaves, keep, may]

@[simp] theorem State.corrected_stw (s : State) (a : Nat) : StwLeaves (sess := may) s.stw (s.corrected a).stw := by
  simp [StwLeaves, keep, may, State.corrected, ite_fields, ite_stw_fields]

@[simp] theorem State.serveFaultLog_stw (s : State) (f : Flight) :
    StwLeaves (sess := may) (closing := may) (flights := may) s.stw (s.serveFaultLog f).stw := by
  simp [StwLeaves, keep, may, State.serveFaultLog, ite_fields, ite_stw_fields]

@[simp] theorem State.serveEngine_stw (s : State) (f : Flight) :
    StwLeaves (sess := may) (closing := may) (flights := may) s.stw (s.serveEngine f).stw := by
  simp [StwLeaves, keep, may, State.serveEngine, ite_fields, ite_stw_fields]

@[simp] theorem State.serveMemdesc_stw (s : State) (f : Flight) :
    StwLeaves (sess := may) (closing := may) (flights := may) s.stw (s.serveMemdesc f).stw := by
  simp [StwLeaves, keep, may, State.serveMemdesc, ite_fields, ite_stw_fields]

@[simp] theorem State.injectEngine_stw (s : State) (n : Nat) :
    StwLeaves (sess := may) (closing := may) (flights := may) s.stw (s.injectEngine n).stw := by
  simp [StwLeaves, keep, may, State.injectEngine, ite_fields, ite_stw_fields]

@[simp] theorem State.injectPair_stw (s : State) (n : Nat) :
    StwLeaves (sess := may) (closing := may) (flights := may) s.stw (s.injectPair n).stw := by
  unfold State.injectPair
  split <;> simp [StwLeaves, keep, may]

@[simp] theorem State.injectPort_stw (s : State) (n : Nat) :
    StwLeaves (sess := may) (flights := may) s.stw (s.injectPort n).stw := by
  simp [StwLeaves, keep, may, State.injectPort, ite_fields, ite_stw_fields]

@[simp] theorem State.inject_stw (s : State) (kind target : Nat) :
    StwLeaves (sess := may) (closing := may) (flights := may) s.stw (s.inject kind target).stw := by
  unfold State.inject
  split <;> simp [StwLeaves, keep, may]

@[simp] theorem State.jobUsed_stw (s : State) (j : Job) (st : Nat) (out : List Byte) :
    StwLeaves (sess := may) (closing := may) (flights := may) (area := may) (nextArea := may) (areaDrops := may)
      s.stw (s.jobUsed j st out).stw := by
  simp only [State.jobUsed]
  (repeat' split) <;> simp [StwLeaves, keep, may]

@[simp] theorem State.loopFault_stw (s : State) (n state cause : Nat) :
    StwLeaves (sess := may) s.stw (s.loopFault n state cause).stw := by
  simp [StwLeaves, keep, may, State.loopFault]

@[simp] theorem State.loopEval_stw (s : State) (n : Nat) : StwLeaves (sess := may) s.stw (s.loopEval n).stw := by
  simp [StwLeaves, keep, may, State.loopEval, ite_fields, ite_stw_fields]

@[simp] theorem State.loopFollow_stw (s : State) (n : Nat) : StwLeaves (sess := may) s.stw (s.loopFollow n).stw := by
  simp [StwLeaves, keep, may, State.loopFollow]

@[simp] theorem State.loopWritten_stw (s old : State) (n : Nat) : StwLeaves (sess := may) s.stw (s.loopWritten old n).stw := by
  simp [StwLeaves, keep, may, State.loopWritten, ite_fields, ite_stw_fields]

@[simp] theorem State.loopsBreak_stw (s : State) (x : Nat) : StwLeaves (sess := may) s.stw (s.loopsBreak x).stw := by
  simp [StwLeaves, keep, may, State.loopsBreak, ite_fields, ite_stw_fields]

@[simp] theorem State.loopsOutput_stw (s : State) (e : Nat) (opened range : Bool) :
    StwLeaves (sess := may) s.stw (s.loopsOutput e opened range).stw := by
  simp [StwLeaves, keep, may, State.loopsOutput, ite_fields, ite_stw_fields]

@[simp] theorem State.serveLoopSet_stw (s : State) (f : Flight) :
    StwLeaves (sess := may) (closing := may) (flights := may) s.stw (s.serveLoopSet f).stw := by
  simp [StwLeaves, keep, may, State.serveLoopSet, ite_fields, ite_stw_fields]

@[simp] theorem State.serveCurveInfo_stw (s : State) (f : Flight) :
    StwLeaves (sess := may) (closing := may) (flights := may) s.stw (s.serveCurveInfo f).stw := by
  simp only [State.serveCurveInfo]
  (repeat' split) <;> simp [StwLeaves, keep, may]

@[simp] theorem State.strmPut_stw (s : State) (e q g : Nat) (v x : Int) :
    StwLeaves (sess := may) s.stw (s.strmPut e q g v x).stw := by
  simp [StwLeaves, keep, may, State.strmPut, ite_fields, ite_stw_fields]

@[simp] theorem State.output_stw (s : State) (e g p : Nat) : StwLeaves (sess := may) s.stw (s.output e g p).stw := by
  simp [StwLeaves, keep, may, State.output]

@[simp] theorem State.serveResults_stw (s : State) (f : Flight) :
    StwLeaves (sess := may) (closing := may) (flights := may) s.stw (s.serveResults f).stw := by
  simp [StwLeaves, keep, may, State.serveResults, ite_fields, ite_stw_fields]

@[simp] theorem State.wireEvent_stw (s : State) (n state side cur : Nat) :
    StwLeaves (sess := may) s.stw (s.wireEvent n state side cur).stw := by
  simp [StwLeaves, keep, may, State.wireEvent]

@[simp] theorem State.wireBreak_stw (s : State) (n side cur : Nat) :
    StwLeaves (sess := may) s.stw (s.wireBreak n side cur).stw := by
  simp [StwLeaves, keep, may, State.wireBreak, ite_fields, ite_stw_fields]

@[simp] theorem State.readDesc_stw (s : State) (n : Nat) : StwLeaves (sess := may) s.stw (s.readDesc n).stw := by
  simp [StwLeaves, keep, may, State.readDesc, ite_fields, ite_stw_fields]

@[simp] theorem State.doorbell_stw (s : State) (n : Nat) : StwLeaves (sess := may) s.stw (s.doorbell n).stw := by
  simp [StwLeaves, keep, may, State.doorbell, ite_fields, ite_stw_fields]

@[simp] theorem State.readBurst_stw (s : State) (n : Nat) : StwLeaves (sess := may) s.stw (s.readBurst n).stw := by
  simp only [State.readBurst]
  (repeat' split) <;> simp [StwLeaves, keep, may]

@[simp] theorem State.writeBurst_stw (s : State) (n : Nat) : StwLeaves (sess := may) s.stw (s.writeBurst n).stw := by
  simp only [State.writeBurst]
  (repeat' split) <;> simp [StwLeaves, keep, may]

@[simp] theorem State.writeBack_stw (s : State) (n : Nat) (d : SpoolDesc) (status : Nat) (check : List Byte) :
    StwLeaves (sess := may) s.stw (s.writeBack n d status check).stw := by
  simp [StwLeaves, keep, may, State.writeBack, ite_fields, ite_stw_fields]

@[simp] theorem State.recDone_stw (s : State) (w : LinWrite) :
    StwLeaves (sess := may) (closing := may) (flights := may) s.stw (s.recDone w).stw := by
  simp only [State.recDone]
  (repeat' split) <;> simp [StwLeaves, keep, may]

@[simp] theorem State.wears_stw (s : State) (wear : Nat) : StwLeaves (sess := may) s.stw (s.wears wear).stw := by
  simp [StwLeaves, keep, may, State.wears, ite_fields, ite_stw_fields]

@[simp] theorem State.writeDone_stw (s : State) :
    StwLeaves (sess := may) (closing := may) (flights := may) s.stw (s.writeDone).stw := by
  unfold State.writeDone
  split <;> simp [StwLeaves, keep, may]

@[simp] theorem State.bankDone_stw (s : State) (w : BankWrite) : StwLeaves (sess := may) s.stw (s.bankDone w).stw := by
  simp [StwLeaves, keep, may, State.bankDone, ite_fields, ite_stw_fields]

@[simp] theorem State.startAlarms_stw (s : State) (mesh sealBad : Bool) :
    StwLeaves (sess := may) (closing := may) (flights := may) s.stw (s.startAlarms mesh sealBad).stw := by
  simp [StwLeaves, keep, may, State.startAlarms, ite_fields, ite_stw_fields]

@[simp] theorem State.startBlocks_stw (s : State) : StwLeaves (sess := may) s.stw (s.startBlocks).stw := by
  simp [StwLeaves, keep, may, State.startBlocks, ite_fields, ite_stw_fields]

@[simp] theorem State.running_stw (s : State) : StwLeaves (sess := may) s.stw (s.running).stw := by
  simp [StwLeaves, keep, may, State.running, ite_fields, ite_stw_fields]

@[simp] theorem State.readReg_stw (s : State) (slot gen arrived : Nat) (r : Fam × Nat × Nat) :
    StwLeaves (sess := may) s.stw (s.readReg slot gen arrived r).1.stw := by
  unfold State.readReg
  split <;> simp [StwLeaves, keep, may]

@[simp] theorem State.startHandOver_stw (s : State) (c : Fam) (i : Nat) :
    StwLeaves (sess := may) (closing := may) (flights := may) s.stw (s.startHandOver c i).stw := by
  unfold State.startHandOver
  split <;> simp [StwLeaves, keep, may]

@[simp] theorem State.commitGo_stw (s : State) (c : Fam) (i : Nat) :
    StwLeaves (sess := may) (closing := may) (flights := may) s.stw (s.commitGo c i).stw := by
  simp [StwLeaves, keep, may, State.commitGo]

@[simp] theorem State.commitBoundary_stw (s : State) (c : Fam) (i : Nat) :
    StwLeaves (sess := may) (closing := may) (flights := may) s.stw (s.commitBoundary c i).stw := by
  simp only [State.commitBoundary]
  (repeat' split) <;> simp [StwLeaves, keep, may]

@[simp] theorem State.commitWrite_stw (s : State) (w : RegWrite) :
    StwLeaves (sess := may) (closing := may) (flights := may) s.stw (s.commitWrite w).stw := by
  simp [StwLeaves, keep, may, State.commitWrite, ite_fields, ite_stw_fields]

@[simp] theorem State.hookPorts_stw (s old : State) (w : RegWrite) :
    StwLeaves (sess := may) (closing := may) (flights := may) s.stw (s.hookPorts old w).stw := by
  simp only [State.hookPorts]
  (repeat' split) <;> simp [StwLeaves, keep, may]

@[simp] theorem State.hookUnits_stw (s old : State) (w : RegWrite) :
    StwLeaves (sess := may) (closing := may) (flights := may) s.stw (s.hookUnits old w).stw := by
  simp only [State.hookUnits]
  (repeat' split) <;> simp [StwLeaves, keep, may]

@[simp] theorem State.writeCarrier_stw (s : State) (w : RegWrite) : StwLeaves (carrier := may) s.stw (s.writeCarrier w).stw := by
  simp [StwLeaves, keep, may, State.writeCarrier]

@[simp] theorem State.writeReg_stw (s : State) (w : RegWrite) :
    StwLeaves (sess := may) (closing := may) (flights := may) (carrier := may) s.stw (s.writeReg w).stw := by
  simp [StwLeaves, keep, may, State.writeReg, ite_fields, ite_stw_fields]

@[simp] theorem State.writeAll_stw (s : State) (l : List RegWrite) :
    StwLeaves (sess := may) (closing := may) (flights := may) (carrier := may) s.stw (s.writeAll l).stw := by
  simp [StwLeaves, keep, may, State.writeAll, ite_fields, ite_stw_fields]

@[simp] theorem State.landOne_stw (s : State) (p : Posted) : StwLeaves (sess := may) s.stw (s.landOne p).stw := by
  simp [StwLeaves, keep, may, State.landOne]

@[simp] theorem State.landAll_stw (s : State) (slot gen : Nat) : StwLeaves (sess := may) s.stw (s.landAll slot gen).stw := by
  simp [StwLeaves, keep, may, State.landAll]

@[simp] theorem State.settle_stw (s : State) : StwLeaves (sess := may) s.stw (s.settle).stw := by
  simp [StwLeaves, keep, may, State.settle]

@[simp] theorem State.readAll_stw (s : State) (slot gen arrived : Nat) (l : List (Fam × Nat × Nat)) :
    StwLeaves (sess := may) s.stw (s.readAll slot gen arrived l).1.stw := by
  induction l generalizing s with
  | nil => simp [StwLeaves, keep, may, State.readAll]
  | cons r l ih => simp [StwLeaves, keep, may, State.readAll, ih]

@[simp] theorem State.cfgRead_stw (s : State) (f : Flight) :
    StwLeaves (sess := may) (closing := may) (flights := may) s.stw (s.cfgRead f).stw := by
  simp only [State.cfgRead]
  (repeat' split) <;> simp [StwLeaves, keep, may]

@[simp] theorem State.applyWrites_stw (s : State) (f : Flight) (l : List RegWrite) (operand : List Byte) :
    StwLeaves (sess := may) (closing := may) (flights := may) (carrier := may) s.stw (s.applyWrites f l operand).stw := by
  simp only [State.applyWrites]
  (repeat' split) <;> simp [StwLeaves, keep, may]

@[simp] theorem State.cfgWrite_stw (s : State) (f : Flight) :
    StwLeaves (sess := may) (closing := may) (flights := may) (carrier := may) s.stw (s.cfgWrite f).stw := by
  simp only [State.cfgWrite]
  (repeat' split) <;> simp [StwLeaves, keep, may]

@[simp] theorem State.cfgModify_stw (s : State) (f : Flight) :
    StwLeaves (sess := may) (closing := may) (flights := may) (carrier := may) s.stw (s.cfgModify f).stw := by
  simp only [State.cfgModify]
  (repeat' split) <;> simp [StwLeaves, keep, may]

@[simp] theorem State.waitAnswer_stw (s : State) (f : Flight) (v : Word) (met : Bool) :
    StwLeaves (sess := may) (closing := may) (flights := may) s.stw (s.waitAnswer f v met).stw := by
  simp [StwLeaves, keep, may, State.waitAnswer]

@[simp] theorem State.cfgWait_stw (s : State) (f : Flight) :
    StwLeaves (sess := may) (closing := may) (flights := may) (waits := may) s.stw (s.cfgWait f).stw := by
  simp only [State.cfgWait]
  (repeat' split) <;> simp [StwLeaves, keep, may]

@[simp] theorem State.memRead_stw (s : State) (fixed : List Nat) (f : Flight) :
    StwLeaves (sess := may) (closing := may) (flights := may) s.stw (s.memRead fixed f).stw := by
  simp only [State.memRead]
  (repeat' split) <;> simp [StwLeaves, keep, may]

@[simp] theorem State.memWrite_stw (s : State) (f : Flight) :
    StwLeaves (sess := may) (closing := may) (flights := may) s.stw (s.memWrite f).stw := by
  simp only [State.memWrite]
  (repeat' split) <;> simp [StwLeaves, keep, may]

@[simp] theorem State.memFence_stw (s : State) (f : Flight) :
    StwLeaves (sess := may) (closing := may) (flights := may) s.stw (s.memFence f).stw := by
  simp [StwLeaves, keep, may, State.memFence, ite_fields, ite_stw_fields]

@[simp] theorem State.runDirect_stw (s : State) (fixed : List Nat) (f : Flight) :
    StwLeaves (sess := may) (closing := may) (flights := may) (waits := may) (carrier := may)
      s.stw (s.runDirect fixed f).stw := by
  unfold State.runDirect
  split <;> simp [StwLeaves, keep, may]

@[simp] theorem State.arriveDirect_stw (s : State) (m : Inbound) (opcode need : Nat) (fixed : List Nat) :
    StwLeaves (sess := may) (closing := may) (flights := may) (nextRef := may) (waits := may) (carrier := may)
      s.stw (s.arriveDirect m opcode need fixed).stw := by
  unfold State.arriveDirect
  extract_lets hold
  have h := s.accept_stw m opcode need true (if hold then .held else .waiting)
  split
  next r f e =>
    rw [e] at h
    split <;> simp_all [Leaves, StwLeaves, keep, may]
  next r e =>
    rw [e] at h
    simp_all [Leaves, StwLeaves, keep, may]

@[simp] theorem State.runHeld_stw (s : State) (slot gen : Nat) (fixed : List Nat) :
    StwLeaves (sess := may) (closing := may) (flights := may) (waits := may) (carrier := may)
      s.stw (s.runHeld slot gen fixed).stw := by
  simp [StwLeaves, keep, may, State.runHeld, ite_fields, ite_stw_fields]

@[simp] theorem State.waitRead_stw (s : State) (w : Wait) (f : Flight) (fixed : List Nat) :
    StwLeaves (sess := may) (closing := may) (flights := may) (waits := may) (carrier := may)
      s.stw (s.waitRead w f fixed).stw := by
  simp only [State.waitRead]
  (repeat' split) <;> simp [StwLeaves, keep, may]

@[simp] theorem State.readRow_stw (s : State) (slot arrived : Nat) (f : Fam) :
    StwLeaves (sess := may) s.stw (s.readRow slot arrived f).stw := by
  simp [StwLeaves, keep, may, State.readRow]

@[simp] theorem State.serve_stw (s : State) (f : Flight) :
    StwLeaves (sess := may) (closing := may) (flights := may) s.stw (s.serve f).stw := by
  unfold State.serve
  split <;> simp [StwLeaves, keep, may]

/-! ## Frames within the air block -/

/-- `b` differs from `a` in the parts marked `may` alone. -/
abbrev AirLeaves (a b : Air) (ports sensors host duty secs downs nextId seq windows : Prop → Prop := keep) : Prop :=
  ports (b.ports = a.ports) ∧ sensors (b.sensors = a.sensors) ∧ host (b.host = a.host) ∧ duty (b.duty = a.duty) ∧ secs (b.secs = a.secs) ∧ downs (b.downs = a.downs) ∧ nextId (b.nextId = a.nextId) ∧ seq (b.seq = a.seq) ∧ windows (b.windows = a.windows)

theorem ite_air_fields (c : Prop) [Decidable c] (a b : Air) :
    (if c then a else b).ports = (if c then a.ports else b.ports) ∧
    (if c then a else b).sensors = (if c then a.sensors else b.sensors) ∧
    (if c then a else b).host = (if c then a.host else b.host) ∧
    (if c then a else b).duty = (if c then a.duty else b.duty) ∧
    (if c then a else b).secs = (if c then a.secs else b.secs) ∧
    (if c then a else b).downs = (if c then a.downs else b.downs) ∧
    (if c then a else b).nextId = (if c then a.nextId else b.nextId) ∧
    (if c then a else b).seq = (if c then a.seq else b.seq) ∧
    (if c then a else b).windows = (if c then a.windows else b.windows) := by
  split <;> simp

@[simp] theorem foldl_air_ports {β : Type} (f : State → β → State) (h : ∀ s b, (f s b).air.ports = s.air.ports) (l : List β)
    (s : State) : (l.foldl f s).air.ports = s.air.ports :=
  foldl_keeps (fun t => t.air.ports = s.air.ports) f (fun t b ht => (h t b).trans ht) l s rfl

@[simp] theorem foldl_air_sensors {β : Type} (f : State → β → State) (h : ∀ s b, (f s b).air.sensors = s.air.sensors) (l : List β)
    (s : State) : (l.foldl f s).air.sensors = s.air.sensors :=
  foldl_keeps (fun t => t.air.sensors = s.air.sensors) f (fun t b ht => (h t b).trans ht) l s rfl

@[simp] theorem foldl_air_host {β : Type} (f : State → β → State) (h : ∀ s b, (f s b).air.host = s.air.host) (l : List β)
    (s : State) : (l.foldl f s).air.host = s.air.host :=
  foldl_keeps (fun t => t.air.host = s.air.host) f (fun t b ht => (h t b).trans ht) l s rfl

@[simp] theorem foldl_air_duty {β : Type} (f : State → β → State) (h : ∀ s b, (f s b).air.duty = s.air.duty) (l : List β)
    (s : State) : (l.foldl f s).air.duty = s.air.duty :=
  foldl_keeps (fun t => t.air.duty = s.air.duty) f (fun t b ht => (h t b).trans ht) l s rfl

@[simp] theorem foldl_air_secs {β : Type} (f : State → β → State) (h : ∀ s b, (f s b).air.secs = s.air.secs) (l : List β)
    (s : State) : (l.foldl f s).air.secs = s.air.secs :=
  foldl_keeps (fun t => t.air.secs = s.air.secs) f (fun t b ht => (h t b).trans ht) l s rfl

@[simp] theorem foldl_air_downs {β : Type} (f : State → β → State) (h : ∀ s b, (f s b).air.downs = s.air.downs) (l : List β)
    (s : State) : (l.foldl f s).air.downs = s.air.downs :=
  foldl_keeps (fun t => t.air.downs = s.air.downs) f (fun t b ht => (h t b).trans ht) l s rfl

@[simp] theorem foldl_air_nextId {β : Type} (f : State → β → State) (h : ∀ s b, (f s b).air.nextId = s.air.nextId) (l : List β)
    (s : State) : (l.foldl f s).air.nextId = s.air.nextId :=
  foldl_keeps (fun t => t.air.nextId = s.air.nextId) f (fun t b ht => (h t b).trans ht) l s rfl

@[simp] theorem foldl_air_seq {β : Type} (f : State → β → State) (h : ∀ s b, (f s b).air.seq = s.air.seq) (l : List β)
    (s : State) : (l.foldl f s).air.seq = s.air.seq :=
  foldl_keeps (fun t => t.air.seq = s.air.seq) f (fun t b ht => (h t b).trans ht) l s rfl

@[simp] theorem foldl_air_windows {β : Type} (f : State → β → State) (h : ∀ s b, (f s b).air.windows = s.air.windows) (l : List β)
    (s : State) : (l.foldl f s).air.windows = s.air.windows :=
  foldl_keeps (fun t => t.air.windows = s.air.windows) f (fun t b ht => (h t b).trans ht) l s rfl

@[simp] theorem State.putCtx_air (s : State) (e : Ctx × CtxData) : AirLeaves (ports := may) s.air (s.putCtx e).air := by
  unfold State.putCtx
  split <;> simp [AirLeaves, keep, may]

@[simp] theorem State.putCtxs_air (s : State) (n : Nat) (l : List (Ctx × CtxData)) :
    AirLeaves (ports := may) s.air (s.putCtxs n l).air := by
  simp [AirLeaves, keep, may, State.putCtxs]

@[simp] theorem State.setAp_air (s : State) (n : Nat) (p : AirPort) : AirLeaves (ports := may) s.air (s.setAp n p).air := by
  simp [AirLeaves, keep, may, State.setAp]

@[simp] theorem State.setAc_air (s : State) (n m : Nat) (x : AirChan) : AirLeaves (ports := may) s.air (s.setAc n m x).air := by
  simp [AirLeaves, keep, may, State.setAc]

@[simp] theorem State.takeAir_air (s : State) (n m : Nat) (outs : List AirOut) :
    AirLeaves (ports := may) s.air (s.takeAir n m outs).air := by
  simp [AirLeaves, keep, may, State.takeAir, ite_fields, ite_air_fields]

@[simp] theorem State.setAcct_air (s : State) (a : Nat) (x : Duty) : AirLeaves (duty := may) s.air (s.setAcct a x).air := by
  simp [AirLeaves, keep, may, State.setAcct]

@[simp] theorem State.chargeDuty_air (s : State) (a us : Nat) : AirLeaves (duty := may) s.air (s.chargeDuty a us).air := by
  simp [AirLeaves, keep, may, State.chargeDuty]

@[simp] theorem State.dutyCheck_air (s : State) (n m us : Nat) (ack : Bool) (waiter : Option Nat) :
    AirLeaves (duty := may) s.air (s.dutyCheck n m us ack waiter).1.air := by
  simp only [State.dutyCheck]
  (repeat' split) <;> simp [AirLeaves, keep, may]

@[simp] theorem State.endReceptions_air (s : State) (n : Nat) : AirLeaves (ports := may) s.air (s.endReceptions n).air := by
  simp [AirLeaves, keep, may, State.endReceptions]

@[simp] theorem State.bringFails_air (s : State) (n reason : Nat) :
    AirLeaves (ports := may) s.air (s.bringFails n reason).air := by
  simp [AirLeaves, keep, may, State.bringFails]

@[simp] theorem State.airEnters_air (s : State) (n : Nat) :
    AirLeaves (ports := may) (sensors := may) s.air (s.airEnters n).air := by
  simp [AirLeaves, keep, may, State.airEnters, ite_fields, ite_air_fields]

@[simp] theorem State.setSensor_air (s : State) (short : Nat) (x : Option Sensor) :
    AirLeaves (sensors := may) s.air (s.setSensor short x).air := by
  simp [AirLeaves, keep, may, State.setSensor]

@[simp] theorem State.setDown_air (s : State) (d : AirDown) : AirLeaves (downs := may) s.air (s.setDown d).air := by
  simp [AirLeaves, keep, may, State.setDown]

@[simp] theorem State.dropDown_air (s : State) (id : Nat) : AirLeaves (downs := may) s.air (s.dropDown id).air := by
  simp [AirLeaves, keep, may, State.dropDown]

@[simp] theorem State.addDown_air (s : State) (d : AirDown) :
    AirLeaves (downs := may) (nextId := may) s.air (s.addDown d).air := by
  simp [AirLeaves, keep, may, State.addDown]

@[simp] theorem State.airSeq_air (s : State) : AirLeaves (seq := may) s.air (s.airSeq).1.air := by
  simp [AirLeaves, keep, may, State.airSeq]

@[simp] theorem State.noteFail_air (s : State) (d : AirDown) : AirLeaves (sensors := may) s.air (s.noteFail d).air := by
  simp only [State.noteFail]
  (repeat' split) <;> simp [AirLeaves, keep, may]

@[simp] theorem State.setPlan_air (s : State) (d : AirDown) (p : AirPlan) :
    AirLeaves (duty := may) (downs := may) (windows := may) s.air (s.setPlan d p).1.air := by
  unfold State.setPlan
  split <;> simp [AirLeaves, keep, may]

@[simp] theorem State.nextDown_air (s : State) (ext n : Nat) :
    AirLeaves (duty := may) (downs := may) (windows := may) s.air (s.nextDown ext n).air := by
  induction n generalizing s with
  | zero => simp [AirLeaves, keep, may, State.nextDown]
  | succ n ih =>
    simp only [State.nextDown]
    (repeat' split) <;> simp [AirLeaves, keep, may, ih]

@[simp] theorem State.endDown_air (s : State) (d : AirDown) (status : Nat) (result : Option Nat) :
    AirLeaves (sensors := may) (duty := may) (downs := may) (windows := may) s.air (s.endDown d status result).air := by
  simp [AirLeaves, keep, may, State.endDown, ite_fields, ite_air_fields]

@[simp] theorem State.dutyRefused_air (s : State) (d : AirDown) :
    AirLeaves (sensors := may) (duty := may) (downs := may) (windows := may) s.air (s.dutyRefused d).air := by
  unfold State.dutyRefused
  split <;> simp [AirLeaves, keep, may]

@[simp] theorem State.planTry_air (s : State) (d : AirDown) :
    AirLeaves (sensors := may) (duty := may) (downs := may) (windows := may) s.air (s.planTry d).air := by
  simp only [State.planTry]
  (repeat' split) <;> simp [AirLeaves, keep, may]

@[simp] theorem State.airFailed_air (s : State) (d : AirDown) :
    AirLeaves (sensors := may) (duty := may) (downs := may) (windows := may) s.air (s.airFailed d).air := by
  simp [AirLeaves, keep, may, State.airFailed, ite_fields, ite_air_fields]

@[simp] theorem State.cutReceptions_air (s : State) (n m : Nat) : AirLeaves (ports := may) s.air (s.cutReceptions n m).air := by
  simp [AirLeaves, keep, may, State.cutReceptions]

@[simp] theorem State.airBegin_air (s : State) (n m : Nat) (what : AirWhat) (start pre : Nat) (four dw : Bool) (mac : List Byte) :
    AirLeaves (ports := may) s.air (s.airBegin n m what start pre four dw mac).air := by
  simp [AirLeaves, keep, may, State.airBegin]

@[simp] theorem State.sendDown_air (s : State) (d : AirDown) (p : AirPlan) :
    AirLeaves (ports := may) (downs := may) s.air (s.sendDown d p).air := by
  simp [AirLeaves, keep, may, State.sendDown]

@[simp] theorem State.relisten_air (s : State) (n : Nat) : AirLeaves (downs := may) s.air (s.relisten n).air := by
  unfold State.relisten
  refine foldl_keeps (fun t => AirLeaves (downs := may) s.air t.air) _ (fun t d h => ?_) _ _ (by simp [AirLeaves, keep, may])
  (repeat' split) <;> simp_all [AirLeaves, keep, may]

@[simp] theorem State.nextCopy_air (s : State) (d : AirDown) (p : AirPlan) (fin : Nat) :
    AirLeaves (sensors := may) (duty := may) (downs := may) (windows := may) s.air (s.nextCopy d p fin).air := by
  simp only [State.nextCopy]
  (repeat' split) <;> simp [AirLeaves, keep, may]

@[simp] theorem State.nextWake_air (s : State) (d : AirDown) :
    AirLeaves (sensors := may) (duty := may) (downs := may) (windows := may) s.air (s.nextWake d).air := by
  unfold State.nextWake
  split <;> simp [AirLeaves, keep, may]

@[simp] theorem State.skipCopy_air (s : State) (d : AirDown) (p : AirPlan) :
    AirLeaves (sensors := may) (duty := may) (downs := may) (windows := may) s.air (s.skipCopy d p).air := by
  simp [AirLeaves, keep, may, State.skipCopy, ite_fields, ite_air_fields]

@[simp] theorem State.skipBeacons_air (s : State) (n : Nat) (p : AirDown → Bool) :
    AirLeaves (downs := may) s.air (s.skipBeacons n p).air := by
  simp [AirLeaves, keep, may, State.skipBeacons]

@[simp] theorem State.staleBeacons_air (s : State) (n : Nat) : AirLeaves (downs := may) s.air (s.staleBeacons n).air := by
  simp [AirLeaves, keep, may, State.staleBeacons]

@[simp] theorem State.startDown_air (s : State) (n : Nat) (d : AirDown) (p : AirPlan) :
    AirLeaves (ports := may) (sensors := may) (duty := may) (downs := may) (windows := may) s.air (s.startDown n d p).air := by
  simp only [State.startDown]
  (repeat' split) <;> simp [AirLeaves, keep, may]

@[simp] theorem State.openWindow_air (s : State) (ext short n m at_ : Nat) :
    AirLeaves (sensors := may) (duty := may) (downs := may) (nextId := may) (seq := may) (windows := may)
      s.air (s.openWindow ext short n m at_).air := by
  unfold State.openWindow
  extract_lets w air s1 capable dg q body mac s2 free mine order first s3
  have h1 : AirLeaves (sensors := may) (duty := may) (downs := may) (nextId := may) (seq := may) (windows := may) s.air s1.air := by simp [s1, air, AirLeaves, keep, may]
  have h2 : AirLeaves (sensors := may) (duty := may) (downs := may) (nextId := may) (seq := may) (windows := may) s1.air s2.air := by
    simp only [s2, q]
    split <;> simp [AirLeaves, keep, may]
  have h3 : AirLeaves (sensors := may) (duty := may) (downs := may) (nextId := may) (seq := may) (windows := may) s2.air s3.air := by simp [s3, AirLeaves, keep, may]
  clear_value s3 first order mine s2 mac body q dg capable s1
  split
  · simp_all [AirLeaves, keep, may]
  · extract_lets r
    have hr : AirLeaves (sensors := may) (duty := may) (downs := may) (nextId := may) (seq := may) (windows := may) s3.air r.1.air := by simp [r, AirLeaves, keep, may]
    clear_value r
    split <;> simp_all [AirLeaves, keep, may]

@[simp] theorem State.downSent_air (s : State) (id start fin : Nat) :
    AirLeaves (sensors := may) (duty := may) (downs := may) (windows := may) s.air (s.downSent id start fin).air := by
  simp only [State.downSent]
  (repeat' split) <;> simp [AirLeaves, keep, may]

@[simp] theorem State.airDownlink_air (s : State) (f : Flight) (short : Nat) (x : Sensor) :
    AirLeaves (duty := may) (downs := may) (nextId := may) (seq := may) (windows := may) s.air (s.airDownlink f short x).air := by
  simp [AirLeaves, keep, may, State.airDownlink, ite_fields, ite_air_fields]

@[simp] theorem State.airSealed_air (s : State) (id status : Nat) (nonce out : List Byte) :
    AirLeaves (sensors := may) (duty := may) (downs := may) (windows := may) s.air (s.airSealed id status nonce out).air := by
  simp only [State.airSealed]
  (repeat' split) <;> simp [AirLeaves, keep, may]

@[simp] theorem State.serveAirDownlink_air (s : State) (f : Flight) :
    AirLeaves (duty := may) (downs := may) (nextId := may) (seq := may) (windows := may) s.air (s.serveAirDownlink f).air := by
  simp only [State.serveAirDownlink]
  (repeat' split) <;> simp [AirLeaves, keep, may]

@[simp] theorem State.expireAir_air (s : State) (ref : Nat) :
    AirLeaves (sensors := may) (duty := may) (downs := may) (windows := may) s.air (s.expireAir ref).air := by
  simp only [State.expireAir]
  (repeat' split) <;> simp [AirLeaves, keep, may]

@[simp] theorem State.cutSends_air (s : State) (n : Nat) (sent : Bool) :
    AirLeaves (ports := may) (sensors := may) (duty := may) (downs := may) (windows := may) s.air (s.cutSends n sent).air := by
  unfold State.cutSends
  extract_lets p tails t copied u v
  have hu : AirLeaves (ports := may) (sensors := may) (duty := may) (downs := may) (windows := may) s.air u.air := by
    refine foldl_keeps (fun t => AirLeaves (ports := may) (sensors := may) (duty := may) (downs := may) (windows := may) s.air t.air) _ (fun t x h => ?_) _ _ ?_
    · (repeat' split) <;> simp_all [AirLeaves, keep, may]
    · simp [t, AirLeaves, keep, may]
  clear_value u
  simp_all [AirLeaves, keep, may, v]

@[simp] theorem State.airStart_air (s : State) (n : Nat) : AirLeaves (ports := may) s.air (s.airStart n).air := by
  simp [AirLeaves, keep, may, State.airStart]

@[simp] theorem State.airStop_air (s : State) (n : Nat) :
    AirLeaves (ports := may) (sensors := may) (duty := may) (downs := may) (windows := may) s.air (s.airStop n).air := by
  simp [AirLeaves, keep, may, State.airStop]

@[simp] theorem State.sensorHeard_air (s : State) (n m ts margin : Nat) (f : MacFrame) :
    AirLeaves (sensors := may) s.air (s.sensorHeard n m ts margin f).air := by
  unfold State.sensorHeard
  split <;> simp [AirLeaves, keep, may]

@[simp] theorem State.answerAssoc_air (s : State) (n m ext short status : Nat) :
    AirLeaves (downs := may) (nextId := may) (seq := may) s.air (s.answerAssoc n m ext short status).air := by
  simp [AirLeaves, keep, may, State.answerAssoc]

@[simp] theorem State.assocReq_air (s : State) (n m ext : Nat) (sleepy : Bool) (wake clk : Nat) :
    AirLeaves (sensors := may) (downs := may) (nextId := may) (seq := may) s.air (s.assocReq n m ext sleepy wake clk).air := by
  simp [AirLeaves, keep, may, State.assocReq, ite_fields, ite_air_fields]

@[simp] theorem State.freeEntry_air (s : State) (short : Nat) (x : Sensor) :
    AirLeaves (sensors := may) s.air (s.freeEntry short x).air := by
  simp [AirLeaves, keep, may, State.freeEntry]

@[simp] theorem State.associated_air (s : State) (short ext : Nat) :
    AirLeaves (sensors := may) s.air (s.associated short ext).air := by
  simp only [State.associated]
  (repeat' split) <;> simp [AirLeaves, keep, may]

@[simp] theorem State.airCommand_air (s : State) (short : Nat) (body : List Byte) :
    AirLeaves (sensors := may) s.air (s.airCommand short body).air := by
  simp only [State.airCommand]
  (repeat' split) <;> simp [AirLeaves, keep, may]

@[simp] theorem State.airOrder_air (s : State) (f : MacFrame) : AirLeaves (sensors := may) s.air (s.airOrder f).air := by
  simp only [State.airOrder]
  (repeat' split) <;> simp [AirLeaves, keep, may]

@[simp] theorem State.ackDue_air (s : State) (n m phr fin margin : Nat) (f : MacFrame) :
    AirLeaves (ports := may) (duty := may) s.air (s.ackDue n m phr fin margin f).air := by
  simp [AirLeaves, keep, may, State.ackDue, ite_fields, ite_air_fields]

@[simp] theorem State.downAcked_air (s : State) (d : AirDown) (fin : Nat) :
    AirLeaves (sensors := may) (duty := may) (downs := may) (nextId := may) (seq := may) (windows := may)
      s.air (s.downAcked d fin).air := by
  simp only [State.downAcked]
  (repeat' split) <;> simp [AirLeaves, keep, may]

@[simp] theorem State.airAccepted_air (s : State) (n m phr ts fin margin : Nat) (f : MacFrame) :
    AirLeaves (ports := may) (sensors := may) (duty := may) (downs := may) (nextId := may) (seq := may)
      s.air (s.airAccepted n m phr ts fin margin f).air := by
  simp only [State.airAccepted]
  (repeat' split) <;> simp [AirLeaves, keep, may]

@[simp] theorem State.airFrame_air (s : State) (n m phr ts fin margin : Nat) (mac : List Byte) :
    AirLeaves (ports := may) (sensors := may) (duty := may) (downs := may) (nextId := may) (seq := may) (windows := may)
      s.air (s.airFrame n m phr ts fin margin mac).air := by
  simp only [State.airFrame]
  (repeat' split) <;> simp [AirLeaves, keep, may]

@[simp] theorem State.serveDisassociate_air (s : State) (f : Flight) :
    AirLeaves (sensors := may) (duty := may) (downs := may) (nextId := may) (seq := may) (windows := may)
      s.air (s.serveDisassociate f).air := by
  simp only [State.serveDisassociate]
  (repeat' split) <;> simp [AirLeaves, keep, may]

@[simp] theorem State.servePendingSet_air (s : State) (f : Flight) : AirLeaves (host := may) s.air (s.servePendingSet f).air := by
  simp [AirLeaves, keep, may, State.servePendingSet, ite_fields, ite_air_fields]

@[simp] theorem State.serveDigestSet_air (s : State) (f : Flight) :
    AirLeaves (sensors := may) s.air (s.serveDigestSet f).air := by
  simp only [State.serveDigestSet]
  (repeat' split) <;> simp [AirLeaves, keep, may]

@[simp] theorem State.deliverNoHome_air (s : State) (cepoch cns margin : Nat) (mac : List Byte) :
    AirLeaves (sensors := may) s.air (s.deliverNoHome cepoch cns margin mac).air := by
  simp only [State.deliverNoHome]
  (repeat' split) <;> simp [AirLeaves, keep, may]

@[simp] theorem State.addDigest_air (s : State) (short : Nat) (x : Sensor) (seq margin : Nat) :
    AirLeaves (sensors := may) (duty := may) (downs := may) (nextId := may) (seq := may) (windows := may)
      s.air (s.addDigest short x seq margin).air := by
  simp only [State.addDigest]
  (repeat' split) <;> simp [AirLeaves, keep, may]

@[simp] theorem State.deliverHome_air (s : State) (cepoch cns ext margin : Nat) (mac : List Byte) :
    AirLeaves (sensors := may) (duty := may) (downs := may) (nextId := may) (seq := may) (windows := may)
      s.air (s.deliverHome cepoch cns ext margin mac).1.air := by
  simp only [State.deliverHome]
  (repeat' split) <;> simp [AirLeaves, keep, may]

@[simp] theorem State.resultNoHome_air (s : State) (b : List Byte) : AirLeaves (sensors := may) s.air (s.resultNoHome b).air := by
  simp [AirLeaves, keep, may, State.resultNoHome]

@[simp] theorem State.resultHome_air (s : State) (b : List Byte) :
    AirLeaves (sensors := may) (duty := may) (downs := may) (nextId := may) (seq := may) (windows := may)
      s.air (s.resultHome b).1.air := by
  simp [AirLeaves, keep, may, State.resultHome]

@[simp] theorem State.sendResult_air (s : State) (g : Machine.Group) (mac : List Byte) :
    AirLeaves (sensors := may) (duty := may) (downs := may) (nextId := may) (seq := may) (windows := may)
      s.air (s.sendResult g mac).air := by
  simp only [State.sendResult]
  (repeat' split) <;> simp [AirLeaves, keep, may]

@[simp] theorem State.tryGroup_air (s : State) (g : Machine.Group) :
    AirLeaves (sensors := may) (duty := may) (downs := may) (nextId := may) (seq := may) (windows := may)
      s.air (s.tryGroup g).air := by
  simp only [State.tryGroup]
  (repeat' split) <;> simp [AirLeaves, keep, may]

@[simp] theorem State.attemptDue_air (s : State) (num : Nat) :
    AirLeaves (sensors := may) (duty := may) (downs := may) (nextId := may) (seq := may) (windows := may)
      s.air (s.attemptDue num).air := by
  simp only [State.attemptDue]
  (repeat' split) <;> simp [AirLeaves, keep, may]

@[simp] theorem State.fragment_air (s : State) (station : Nat) (b : List Byte) :
    AirLeaves (sensors := may) (duty := may) (downs := may) (nextId := may) (seq := may) (windows := may)
      s.air (s.fragment station b).air := by
  simp only [State.fragment]
  split; · simp [AirLeaves, keep, may]
  split; · (repeat' split) <;> simp [AirLeaves, keep, may]
  split; · simp [AirLeaves, keep, may]
  have h := s.enterCopy_leaves station (scHead b)
  split
  next u k e =>
    rw [e] at h
    simp_all [Leaves, AirLeaves, keep, may]
  next u e =>
    rw [e] at h
    simp_all [Leaves, AirLeaves, keep, may]

@[simp] theorem State.scForward_air (s : State) (n m phr ts : Nat) (soft : List Int) (snr : Int) :
    AirLeaves (sensors := may) (duty := may) (downs := may) (nextId := may) (seq := may) (windows := may)
      s.air (s.scForward n m phr ts soft snr).air := by
  unfold State.scForward
  extract_lets minSnr len raw hard planes rxid phy head sc t u h
  have hu : AirLeaves (sensors := may) (duty := may) (downs := may) (nextId := may) (seq := may) (windows := may) s.air u.air := by simp [u, t, AirLeaves, keep, may]
  split; · simp [AirLeaves, keep, may]
  split
  · have h' := u.enterCopy_leaves u.station h
    split
    next v k e =>
      rw [e] at h'
      simp_all [Leaves, AirLeaves, keep, may]
    next v e =>
      rw [e] at h'
      simp_all [Leaves, AirLeaves, keep, may]
  · split <;> simp_all [AirLeaves, keep, may]

@[simp] theorem State.holdAir_air (s : State) (n m : Nat) (c : AirCand) :
    AirLeaves (ports := may) s.air (s.holdAir n m c).air := by
  simp [AirLeaves, keep, may, State.holdAir]

@[simp] theorem State.dropAir_air (s : State) (n m : Nat) (c : AirCand) :
    AirLeaves (ports := may) s.air (s.dropAir n m c).air := by
  simp [AirLeaves, keep, may, State.dropAir]

@[simp] theorem State.preemptAir_air (s : State) (n m : Nat) (old : List AirCand) (c : AirCand) :
    AirLeaves (ports := may) s.air (s.preemptAir n m old c).air := by
  simp [AirLeaves, keep, may, State.preemptAir, ite_fields, ite_air_fields]

@[simp] theorem State.newAir_air (s : State) (n m : Nat) (c : AirCand) : AirLeaves (ports := may) s.air (s.newAir n m c).air := by
  simp only [State.newAir]
  split
  next u h =>
    have hu := State.place_frame _ _ _ h
    simp only [ButFau] at hu
    simp [AirLeaves, keep, may, hu]
  next => simp [AirLeaves, keep, may]

@[simp] theorem State.airPeak_air (s : State) (n m : Nat) (metric : Nat × Nat) (ts : Nat) :
    AirLeaves (ports := may) s.air (s.airPeak n m metric ts).air := by
  simp only [State.airPeak]
  (repeat' split) <;> simp [AirLeaves, keep, may]

@[simp] theorem State.phrsDone_air (s : State) (n m : Nat) (l : List (AirCand × Nat)) :
    AirLeaves (ports := may) s.air (s.phrsDone n m l).air := by
  simp only [State.phrsDone]
  (repeat' split) <;> simp [AirLeaves, keep, may]

@[simp] theorem State.airPhr_air (s : State) (n m place phr : Nat) (rival : Option Nat) :
    AirLeaves (ports := may) s.air (s.airPhr n m place phr rival).air := by
  simp only [State.airPhr]
  (repeat' split) <;> simp [AirLeaves, keep, may]

@[simp] theorem State.airFcs_air (s : State) (n m : Nat) (soft : List Int) (snr : Int) :
    AirLeaves (ports := may) (sensors := may) (duty := may) (downs := may) (nextId := may) (seq := may) (windows := may)
      s.air (s.airFcs n m soft snr).air := by
  simp only [State.airFcs]
  (repeat' split) <;> simp [AirLeaves, keep, may]

@[simp] theorem State.endCtx_air (s : State) (c : Ctx) : AirLeaves (ports := may) s.air (s.endCtx c).air := by
  simp only [State.endCtx]
  (repeat' split) <;> simp [AirLeaves, keep, may]

@[simp] theorem State.loseEngine_air (s : State) (n detect target : Nat) (cs : List Ctx) :
    AirLeaves (ports := may) s.air (s.loseEngine n detect target cs).air := by
  simp [AirLeaves, keep, may, State.loseEngine]

@[simp] theorem State.patchIn_air (s : State) (e : Engine) (j : Nat) (p : Patch) (c old : Option Ckpt) :
    AirLeaves (ports := may) s.air (s.patchIn e j p c old).air := by
  simp [AirLeaves, keep, may, State.patchIn, ite_fields, ite_air_fields]

@[simp] theorem State.engineFault_air (s : State) (n detect fault : Nat) (bad : Bool) :
    AirLeaves (ports := may) s.air (s.engineFault n detect fault bad).air := by
  simp only [State.engineFault]
  (repeat' split) <;> simp [AirLeaves, keep, may]

@[simp] theorem Input.run_air (i : Input) (s : State) :
    AirLeaves (ports := may) (sensors := may) (duty := may) (downs := may) (nextId := may) (seq := may) (windows := may)
      s.air (i.run s).air := by
  unfold Input.run
  split <;> simp [AirLeaves, keep, may]

@[simp] theorem State.input_air_run (s : State) (c : Ctx) (i j : Input) :
    AirLeaves (ports := may) (sensors := may) (duty := may) (downs := may) (nextId := may) (seq := may) (windows := may) s.air (s.input c i j.run).air := by
  obtain ⟨x, y, h | h⟩ := s.input_cases c i j.run <;> rw [h] <;> simp [AirLeaves, keep, may]

@[simp] theorem State.replay_air (n : Nat) (s : State) (h : HeldInput) :
    AirLeaves (ports := may) (sensors := may) (duty := may) (downs := may) (nextId := may) (seq := may) (windows := may)
      s.air (s.replay n h).air := by
  simp only [State.replay]
  (repeat' split) <;> simp [AirLeaves, keep, may]

@[simp] theorem State.powerTest_air (s : State) (failed : List Nat) :
    AirLeaves (ports := may) (sensors := may) s.air (s.powerTest failed).air := by
  simp [AirLeaves, keep, may, State.powerTest, ite_fields, ite_air_fields]

@[simp] theorem State.injectEngine_air (s : State) (n : Nat) : AirLeaves (ports := may) s.air (s.injectEngine n).air := by
  simp [AirLeaves, keep, may, State.injectEngine, ite_fields, ite_air_fields]

@[simp] theorem State.inject_air (s : State) (kind target : Nat) : AirLeaves (ports := may) s.air (s.inject kind target).air := by
  unfold State.inject
  split <;> simp [AirLeaves, keep, may]

@[simp] theorem State.jobUsed_air (s : State) (j : Job) (st : Nat) (out : List Byte) :
    AirLeaves (sensors := may) (duty := may) (downs := may) (windows := may) s.air (s.jobUsed j st out).air := by
  simp only [State.jobUsed]
  (repeat' split) <;> simp [AirLeaves, keep, may]

@[simp] theorem State.recDone_air (s : State) (w : LinWrite) :
    AirLeaves (duty := may) (downs := may) s.air (s.recDone w).air := by
  simp only [State.recDone]
  (repeat' split) <;> simp [AirLeaves, keep, may]

@[simp] theorem State.undriven_air (s : State) : AirLeaves (ports := may) s.air (s.undriven).air := by
  simp [AirLeaves, keep, may, State.undriven]

@[simp] theorem State.halt_air (s : State) : AirLeaves (ports := may) s.air (s.halt).air := by
  simp only [State.halt]
  (repeat' split) <;> simp [AirLeaves, keep, may]

@[simp] theorem State.restartDue_air (s : State) : AirLeaves (ports := may) s.air (s.restartDue).air := by
  simp [AirLeaves, keep, may, State.restartDue, ite_fields, ite_air_fields]

@[simp] theorem State.askRestart_air (s : State) : AirLeaves (ports := may) s.air (s.askRestart).air := by
  simp [AirLeaves, keep, may, State.askRestart]

@[simp] theorem State.writeDone_air (s : State) : AirLeaves (duty := may) (downs := may) s.air (s.writeDone).air := by
  unfold State.writeDone
  split <;> simp [AirLeaves, keep, may]

@[simp] theorem State.loadDuty_air (s : State) (a : Nat) : AirLeaves (duty := may) s.air (s.loadDuty a).air := by
  simp [AirLeaves, keep, may, State.loadDuty, ite_fields, ite_air_fields]

@[simp] theorem State.startBlocks_air (s : State) : AirLeaves (ports := may) s.air (s.startBlocks).air := by
  simp [AirLeaves, keep, may, State.startBlocks, ite_fields, ite_air_fields]

@[simp] theorem State.hookPorts_air (s old : State) (w : RegWrite) :
    AirLeaves (ports := may) (sensors := may) (duty := may) (downs := may) (windows := may) s.air (s.hookPorts old w).air := by
  simp only [State.hookPorts]
  (repeat' split) <;> simp [AirLeaves, keep, may]

@[simp] theorem State.writeReg_air (s : State) (w : RegWrite) :
    AirLeaves (ports := may) (sensors := may) (duty := may) (downs := may) (windows := may) s.air (s.writeReg w).air := by
  simp [AirLeaves, keep, may, State.writeReg, ite_fields, ite_air_fields]

@[simp] theorem State.writeAll_air (s : State) (l : List RegWrite) :
    AirLeaves (ports := may) (sensors := may) (duty := may) (downs := may) (windows := may) s.air (s.writeAll l).air := by
  simp [AirLeaves, keep, may, State.writeAll, ite_fields, ite_air_fields]

@[simp] theorem State.applyWrites_air (s : State) (f : Flight) (l : List RegWrite) (operand : List Byte) :
    AirLeaves (ports := may) (sensors := may) (duty := may) (downs := may) (windows := may)
      s.air (s.applyWrites f l operand).air := by
  simp only [State.applyWrites]
  (repeat' split) <;> simp [AirLeaves, keep, may]

@[simp] theorem State.cfgWrite_air (s : State) (f : Flight) :
    AirLeaves (ports := may) (sensors := may) (duty := may) (downs := may) (windows := may) s.air (s.cfgWrite f).air := by
  simp only [State.cfgWrite]
  (repeat' split) <;> simp [AirLeaves, keep, may]

@[simp] theorem State.cfgModify_air (s : State) (f : Flight) :
    AirLeaves (ports := may) (sensors := may) (duty := may) (downs := may) (windows := may) s.air (s.cfgModify f).air := by
  simp only [State.cfgModify]
  (repeat' split) <;> simp [AirLeaves, keep, may]

@[simp] theorem State.runDirect_air (s : State) (fixed : List Nat) (f : Flight) :
    AirLeaves (ports := may) (sensors := may) (duty := may) (downs := may) (windows := may) s.air (s.runDirect fixed f).air := by
  unfold State.runDirect
  split <;> simp [AirLeaves, keep, may]

@[simp] theorem State.arriveDirect_air (s : State) (m : Inbound) (opcode need : Nat) (fixed : List Nat) :
    AirLeaves (ports := may) (sensors := may) (duty := may) (downs := may) (windows := may)
      s.air (s.arriveDirect m opcode need fixed).air := by
  unfold State.arriveDirect
  extract_lets hold
  have h := s.accept_leaves m opcode need true (if hold then .held else .waiting)
  split
  next r f e =>
    rw [e] at h
    split <;> simp_all [Leaves, AirLeaves, keep, may]
  next r e =>
    rw [e] at h
    simp_all [Leaves, AirLeaves, keep, may]

@[simp] theorem State.runHeld_air (s : State) (slot gen : Nat) (fixed : List Nat) :
    AirLeaves (ports := may) (sensors := may) (duty := may) (downs := may) (windows := may)
      s.air (s.runHeld slot gen fixed).air := by
  simp [AirLeaves, keep, may, State.runHeld, ite_fields, ite_air_fields]

@[simp] theorem State.waitRead_air (s : State) (w : Wait) (f : Flight) (fixed : List Nat) :
    AirLeaves (ports := may) (sensors := may) (duty := may) (downs := may) (windows := may) s.air (s.waitRead w f fixed).air := by
  simp only [State.waitRead]
  (repeat' split) <;> simp [AirLeaves, keep, may]

@[simp] theorem State.serve_air (s : State) (f : Flight) :
    AirLeaves (sensors := may) (host := may) (duty := may) (downs := may) (nextId := may) (seq := may) (windows := may)
      s.air (s.serve f).air := by
  unfold State.serve
  split <;> simp [AirLeaves, keep, may]

/-! ## Frames within device memory -/

/-- `b` differs from `a` in the parts marked `may` alone. -/
abbrev MemLeaves (a b : Mem) (cells poison rot posted ranges spoilt : Prop → Prop := keep) : Prop :=
  cells (b.cells = a.cells) ∧ poison (b.poison = a.poison) ∧ rot (b.rot = a.rot) ∧ posted (b.posted = a.posted) ∧ ranges (b.ranges = a.ranges) ∧ spoilt (b.spoilt = a.spoilt)

theorem ite_mem_fields (c : Prop) [Decidable c] (a b : Mem) :
    (if c then a else b).cells = (if c then a.cells else b.cells) ∧
    (if c then a else b).poison = (if c then a.poison else b.poison) ∧
    (if c then a else b).rot = (if c then a.rot else b.rot) ∧
    (if c then a else b).posted = (if c then a.posted else b.posted) ∧
    (if c then a else b).ranges = (if c then a.ranges else b.ranges) ∧
    (if c then a else b).spoilt = (if c then a.spoilt else b.spoilt) := by
  split <;> simp

@[simp] theorem foldl_mem_cells {β : Type} (f : State → β → State) (h : ∀ s b, (f s b).mem.cells = s.mem.cells) (l : List β)
    (s : State) : (l.foldl f s).mem.cells = s.mem.cells :=
  foldl_keeps (fun t => t.mem.cells = s.mem.cells) f (fun t b ht => (h t b).trans ht) l s rfl

@[simp] theorem foldl_mem_poison {β : Type} (f : State → β → State) (h : ∀ s b, (f s b).mem.poison = s.mem.poison) (l : List β)
    (s : State) : (l.foldl f s).mem.poison = s.mem.poison :=
  foldl_keeps (fun t => t.mem.poison = s.mem.poison) f (fun t b ht => (h t b).trans ht) l s rfl

@[simp] theorem foldl_mem_rot {β : Type} (f : State → β → State) (h : ∀ s b, (f s b).mem.rot = s.mem.rot) (l : List β)
    (s : State) : (l.foldl f s).mem.rot = s.mem.rot :=
  foldl_keeps (fun t => t.mem.rot = s.mem.rot) f (fun t b ht => (h t b).trans ht) l s rfl

@[simp] theorem foldl_mem_posted {β : Type} (f : State → β → State) (h : ∀ s b, (f s b).mem.posted = s.mem.posted) (l : List β)
    (s : State) : (l.foldl f s).mem.posted = s.mem.posted :=
  foldl_keeps (fun t => t.mem.posted = s.mem.posted) f (fun t b ht => (h t b).trans ht) l s rfl

@[simp] theorem foldl_mem_ranges {β : Type} (f : State → β → State) (h : ∀ s b, (f s b).mem.ranges = s.mem.ranges) (l : List β)
    (s : State) : (l.foldl f s).mem.ranges = s.mem.ranges :=
  foldl_keeps (fun t => t.mem.ranges = s.mem.ranges) f (fun t b ht => (h t b).trans ht) l s rfl

@[simp] theorem foldl_mem_spoilt {β : Type} (f : State → β → State) (h : ∀ s b, (f s b).mem.spoilt = s.mem.spoilt) (l : List β)
    (s : State) : (l.foldl f s).mem.spoilt = s.mem.spoilt :=
  foldl_keeps (fun t => t.mem.spoilt = s.mem.spoilt) f (fun t b ht => (h t b).trans ht) l s rfl

@[simp] theorem State.foundRotten_mem (s : State) (block c : Nat) :
    MemLeaves (poison := may) (rot := may) s.mem (s.foundRotten block c).mem := by
  simp [MemLeaves, keep, may, State.foundRotten]

@[simp] theorem State.consume_mem (s : State) (block a n : Nat) :
    MemLeaves (poison := may) (rot := may) s.mem (s.consume block a n).mem := by
  simp [MemLeaves, keep, may, State.consume]

@[simp] theorem State.consumePart_mem (s : State) (block a n : Nat) :
    MemLeaves (poison := may) (rot := may) s.mem (s.consumePart block a n).mem := by
  simp [MemLeaves, keep, may, State.consumePart]

@[simp] theorem State.put_mem (s : State) (a : Nat) (d : List Byte) :
    MemLeaves (cells := may) (poison := may) (rot := may) (spoilt := may) s.mem (s.put a d).mem := by
  simp [MemLeaves, keep, may, State.put]

@[simp] theorem State.writeMem_mem (s : State) (block a : Nat) (d : List Byte) :
    MemLeaves (cells := may) (poison := may) (rot := may) (spoilt := may) s.mem (s.writeMem block a d).1.mem := by
  simp [MemLeaves, keep, may, State.writeMem]

@[simp] theorem State.putDone_mem (s : State) (a : Nat) (c : List Byte) :
    MemLeaves (cells := may) (poison := may) (rot := may) (spoilt := may) s.mem (s.putDone a c).mem := by
  simp [MemLeaves, keep, may, State.putDone, ite_fields, ite_mem_fields]

@[simp] theorem State.flushRing_mem (s : State) (n : Nat) :
    MemLeaves (cells := may) (poison := may) (rot := may) (spoilt := may) s.mem (s.flushRing n).mem := by
  refine State.flushRing_rel (fun s t => MemLeaves (cells := may) (poison := may) (rot := may) (spoilt := may) s.mem t.mem) ?_ ?_ ?_ ?_ ?_ s n
  case refine_2 => exact fun s t u h h' => by simp_all [MemLeaves, keep, may]
  all_goals simp [MemLeaves, keep, may]

@[simp] theorem State.readRing_mem (s : State) (n : Nat) : MemLeaves (poison := may) (rot := may) s.mem (s.readRing n).mem := by
  refine State.readRing_rel (fun s t => MemLeaves (poison := may) (rot := may) s.mem t.mem) ?_ ?_ ?_ ?_ ?_ s n
  case refine_2 => exact fun s t u h h' => by simp_all [MemLeaves, keep, may]
  all_goals simp [MemLeaves, keep, may]

@[simp] theorem State.runJob_mem (s : State) (j : Job) :
    MemLeaves (cells := may) (poison := may) (rot := may) (spoilt := may) s.mem (s.runJob j).1.mem := by
  simp only [State.runJob]
  (repeat' split) <;> simp [MemLeaves, keep, may]

@[simp] theorem State.completeJob_mem (s : State) (j : Job) (core status : Nat) :
    MemLeaves (cells := may) (poison := may) (rot := may) (spoilt := may) s.mem (s.completeJob j core status).mem := by
  simp only [State.completeJob]
  (repeat' split) <;> simp [MemLeaves, keep, may]

@[simp] theorem State.ringTail_mem (s : State) (tail : Nat) :
    MemLeaves (poison := may) (rot := may) s.mem (s.ringTail tail).mem := by
  simp [MemLeaves, keep, may, State.ringTail, ite_fields, ite_mem_fields]

@[simp] theorem State.copyCensus_mem (s : State) (n : Nat) :
    MemLeaves (cells := may) (poison := may) (rot := may) (spoilt := may) s.mem (s.copyCensus n).mem := by
  simp [MemLeaves, keep, may, State.copyCensus, ite_fields, ite_mem_fields]

@[simp] theorem State.cycleEnd_mem (s : State) (n : Nat) (x : PleatTimer) :
    MemLeaves (cells := may) (poison := may) (rot := may) (spoilt := may) s.mem (s.cycleEnd n x).mem := by
  simp only [State.cycleEnd]
  split
  · refine foldl_keeps (fun t => MemLeaves (cells := may) (poison := may) (rot := may) (spoilt := may) s.mem t.mem) _ (fun t m h => ?_) _ _ ?_
    · (repeat' split) <;> simp_all [MemLeaves, keep, may]
    · simp [MemLeaves, keep, may, ite_fields, ite_mem_fields]
  · simp [MemLeaves, keep, may]

@[simp] theorem State.strmPut_mem (s : State) (e q g : Nat) (v x : Int) :
    MemLeaves (cells := may) (poison := may) (rot := may) (spoilt := may) s.mem (s.strmPut e q g v x).mem := by
  simp [MemLeaves, keep, may, State.strmPut, ite_fields, ite_mem_fields]

@[simp] theorem State.output_mem (s : State) (e g p : Nat) :
    MemLeaves (cells := may) (poison := may) (rot := may) (spoilt := may) s.mem (s.output e g p).mem := by
  simp [MemLeaves, keep, may, State.output]

@[simp] theorem State.readDesc_mem (s : State) (n : Nat) : MemLeaves (poison := may) (rot := may) s.mem (s.readDesc n).mem := by
  simp [MemLeaves, keep, may, State.readDesc, ite_fields, ite_mem_fields]

@[simp] theorem State.land_mem (s : State) (l : List (Nat × List Byte)) :
    MemLeaves (cells := may) (poison := may) (rot := may) (spoilt := may) s.mem (s.land l).mem := by
  simp [MemLeaves, keep, may, State.land]

@[simp] theorem State.writeDesc_mem (s : State) (a : Nat) (tail ctrl : List Byte) :
    MemLeaves (cells := may) (poison := may) (rot := may) (spoilt := may) s.mem (s.writeDesc a tail ctrl).mem := by
  simp [MemLeaves, keep, may, State.writeDesc]

@[simp] theorem State.putBack_mem (s : State) (n : Nat) (d : SpoolDesc) (status : Nat) (check : List Byte) :
    MemLeaves (cells := may) (poison := may) (rot := may) (spoilt := may) s.mem (s.putBack n d status check).mem := by
  simp [MemLeaves, keep, may, State.putBack, ite_fields, ite_mem_fields]

@[simp] theorem State.spoolKill_mem (s : State) (n : Nat) :
    MemLeaves (cells := may) (poison := may) (rot := may) (spoilt := may) s.mem (s.spoolKill n).mem := by
  simp [MemLeaves, keep, may, State.spoolKill]

@[simp] theorem State.doorbell_mem (s : State) (n : Nat) : MemLeaves (poison := may) (rot := may) s.mem (s.doorbell n).mem := by
  simp [MemLeaves, keep, may, State.doorbell, ite_fields, ite_mem_fields]

@[simp] theorem State.readBurst_mem (s : State) (n : Nat) : MemLeaves (poison := may) (rot := may) s.mem (s.readBurst n).mem := by
  simp only [State.readBurst]
  (repeat' split) <;> simp [MemLeaves, keep, may]

@[simp] theorem State.writeBurst_mem (s : State) (n : Nat) :
    MemLeaves (cells := may) (poison := may) (rot := may) (spoilt := may) s.mem (s.writeBurst n).mem := by
  simp only [State.writeBurst]
  (repeat' split) <;> simp [MemLeaves, keep, may]

@[simp] theorem State.writeBack_mem (s : State) (n : Nat) (d : SpoolDesc) (status : Nat) (check : List Byte) :
    MemLeaves (cells := may) (poison := may) (rot := may) (spoilt := may) s.mem (s.writeBack n d status check).mem := by
  simp [MemLeaves, keep, may, State.writeBack, ite_fields, ite_mem_fields]

@[simp] theorem State.bankDone_mem (s : State) (w : BankWrite) :
    MemLeaves (poison := may) (rot := may) s.mem (s.bankDone w).mem := by
  simp [MemLeaves, keep, may, State.bankDone, ite_fields, ite_mem_fields]

@[simp] theorem State.spoolCtl_mem (s : State) (w : RegWrite) :
    MemLeaves (cells := may) (poison := may) (rot := may) (spoilt := may) s.mem (s.spoolCtl w).mem := by
  simp [MemLeaves, keep, may, State.spoolCtl, ite_fields, ite_mem_fields]

@[simp] theorem State.hookUnits_mem (s old : State) (w : RegWrite) :
    MemLeaves (cells := may) (poison := may) (rot := may) (spoilt := may) s.mem (s.hookUnits old w).mem := by
  simp only [State.hookUnits]
  (repeat' split) <;> simp [MemLeaves, keep, may]

@[simp] theorem State.writeReg_mem (s : State) (w : RegWrite) :
    MemLeaves (cells := may) (poison := may) (rot := may) (spoilt := may) s.mem (s.writeReg w).mem := by
  simp [MemLeaves, keep, may, State.writeReg, ite_fields, ite_mem_fields]

@[simp] theorem State.writeAll_mem (s : State) (l : List RegWrite) :
    MemLeaves (cells := may) (poison := may) (rot := may) (spoilt := may) s.mem (s.writeAll l).mem := by
  simp [MemLeaves, keep, may, State.writeAll, ite_fields, ite_mem_fields]

@[simp] theorem State.landOne_mem (s : State) (p : Posted) :
    MemLeaves (cells := may) (poison := may) (rot := may) (spoilt := may) s.mem (s.landOne p).mem := by
  simp [MemLeaves, keep, may, State.landOne]

@[simp] theorem State.landAll_mem (s : State) (slot gen : Nat) :
    MemLeaves (cells := may) (poison := may) (rot := may) (posted := may) (spoilt := may) s.mem (s.landAll slot gen).mem := by
  simp [MemLeaves, keep, may, State.landAll]

@[simp] theorem State.settle_mem (s : State) :
    MemLeaves (cells := may) (poison := may) (rot := may) (posted := may) (spoilt := may) s.mem (s.settle).mem := by
  simp [MemLeaves, keep, may, State.settle]

@[simp] theorem State.applyWrites_mem (s : State) (f : Flight) (l : List RegWrite) (operand : List Byte) :
    MemLeaves (cells := may) (poison := may) (rot := may) (posted := may) (spoilt := may)
      s.mem (s.applyWrites f l operand).mem := by
  simp only [State.applyWrites]
  (repeat' split) <;> simp [MemLeaves, keep, may]

@[simp] theorem State.cfgWrite_mem (s : State) (f : Flight) :
    MemLeaves (cells := may) (poison := may) (rot := may) (posted := may) (spoilt := may) s.mem (s.cfgWrite f).mem := by
  simp only [State.cfgWrite]
  (repeat' split) <;> simp [MemLeaves, keep, may]

@[simp] theorem State.cfgModify_mem (s : State) (f : Flight) :
    MemLeaves (cells := may) (poison := may) (rot := may) (posted := may) (spoilt := may) s.mem (s.cfgModify f).mem := by
  simp only [State.cfgModify]
  (repeat' split) <;> simp [MemLeaves, keep, may]

@[simp] theorem State.memRead_mem (s : State) (fixed : List Nat) (f : Flight) :
    MemLeaves (cells := may) (poison := may) (rot := may) s.mem (s.memRead fixed f).mem := by
  simp only [State.memRead]
  (repeat' split) <;> simp [MemLeaves, keep, may]

@[simp] theorem State.memWrite_mem (s : State) (f : Flight) :
    MemLeaves (cells := may) (poison := may) (rot := may) (posted := may) (spoilt := may) s.mem (s.memWrite f).mem := by
  simp only [State.memWrite]
  (repeat' split) <;> simp [MemLeaves, keep, may]

@[simp] theorem State.memFence_mem (s : State) (f : Flight) :
    MemLeaves (cells := may) (poison := may) (rot := may) (posted := may) (spoilt := may) s.mem (s.memFence f).mem := by
  simp [MemLeaves, keep, may, State.memFence, ite_fields, ite_mem_fields]

@[simp] theorem State.runDirect_mem (s : State) (fixed : List Nat) (f : Flight) :
    MemLeaves (cells := may) (poison := may) (rot := may) (posted := may) (spoilt := may) s.mem (s.runDirect fixed f).mem := by
  unfold State.runDirect
  split <;> simp [MemLeaves, keep, may]

@[simp] theorem State.arriveDirect_mem (s : State) (m : Inbound) (opcode need : Nat) (fixed : List Nat) :
    MemLeaves (cells := may) (poison := may) (rot := may) (posted := may) (spoilt := may)
      s.mem (s.arriveDirect m opcode need fixed).mem := by
  unfold State.arriveDirect
  extract_lets hold
  have h := s.accept_leaves m opcode need true (if hold then .held else .waiting)
  split
  next r f e =>
    rw [e] at h
    split <;> simp_all [Leaves, MemLeaves, keep, may]
  next r e =>
    rw [e] at h
    simp_all [Leaves, MemLeaves, keep, may]

@[simp] theorem State.runHeld_mem (s : State) (slot gen : Nat) (fixed : List Nat) :
    MemLeaves (cells := may) (poison := may) (rot := may) (posted := may) (spoilt := may)
      s.mem (s.runHeld slot gen fixed).mem := by
  simp [MemLeaves, keep, may, State.runHeld, ite_fields, ite_mem_fields]

@[simp] theorem State.waitRead_mem (s : State) (w : Wait) (f : Flight) (fixed : List Nat) :
    MemLeaves (cells := may) (poison := may) (rot := may) (posted := may) (spoilt := may) s.mem (s.waitRead w f fixed).mem := by
  simp only [State.waitRead]
  (repeat' split) <;> simp [MemLeaves, keep, may]

end Sys2Proof.Machine
end

section
/-!
SUPPORT. The model's invariants (statements O58 and O59): every operation keeps the canonical form of device memory, the numbers of
commands in flight and those of the air's downlinks.

Where an operation keeps the part that an invariant speaks of, its frame says all; the rules here are for those that change it. Memory is
written by `Mem.store` alone, which keeps the canonical form; a command in flight and a downlink get the next number when they enter their
list, and no other operation renumbers one.
-/

namespace Sys2Proof.Machine

-- Proofs one after another: the text is long, and is checked in bounded memory.
set_option Elab.async false

open Sys2Proof

/-! ## The canonical form of device memory -/

/-- The canonical form of memory cells: ascending addresses, and no blank octet listed. -/
def Canon (l : List Host.Cell) : Prop := ascending l = true ∧ ∀ c ∈ l, c.2 ≠ Mem.blankByte

theorem Mem.wf_iff_canon (m : Mem) : m.wf = true ↔ Canon m.cells := m.wf_iff

theorem foldl_canon {β : Type} (f : State → β → State) (h : ∀ s b, Canon s.mem.cells → Canon (f s b).mem.cells) (l : List β)
    (s : State) (hs : Canon s.mem.cells) : Canon (l.foldl f s).mem.cells :=
  foldl_keeps (fun t => Canon t.mem.cells) f h l s hs

theorem Mem.store_canon (m : Mem) (a : Nat) (d : List Byte) (h : Canon m.cells) : Canon (m.store a d).cells :=
  (Mem.wf_iff _).1 (Mem.store_wf m a d ((Mem.wf_iff _).2 h))

@[simp] theorem State.put_canon (s : State) (a : Nat) (d : List Byte) (hs : Canon s.mem.cells) : Canon (s.put a d).mem.cells :=
  Mem.store_canon s.mem a d hs

@[simp] theorem State.writeMem_canon (s : State) (block a : Nat) (d : List Byte) (hs : Canon s.mem.cells) :
    Canon (s.writeMem block a d).1.mem.cells := by
  simp [State.writeMem, hs]

@[simp] theorem State.putDone_canon (s : State) (a : Nat) (c : List Byte) (hs : Canon s.mem.cells) :
    Canon (s.putDone a c).mem.cells := by
  unfold State.putDone
  split <;> simp [hs]

@[simp] theorem State.flushRing_canon (s : State) (n : Nat) (hs : Canon s.mem.cells) : Canon (s.flushRing n).mem.cells := by
  revert hs
  refine State.flushRing_rel (fun s t => Canon s.mem.cells → Canon t.mem.cells) ?_ ?_ ?_ ?_ ?_ s n
  case refine_2 => exact fun s t u h h' hs => h' (h hs)
  all_goals simp +contextual

@[simp] theorem State.runJob_canon (s : State) (j : Job) (hs : Canon s.mem.cells) : Canon (s.runJob j).1.mem.cells := by
  simp only [State.runJob]
  (repeat' split) <;> simp [hs]

@[simp] theorem State.completeJob_canon (s : State) (j : Job) (core status : Nat) (hs : Canon s.mem.cells) :
    Canon (s.completeJob j core status).mem.cells := by
  simp only [State.completeJob]
  (repeat' split) <;> simp [hs]

@[simp] theorem State.copyCensus_canon (s : State) (n : Nat) (hs : Canon s.mem.cells) : Canon (s.copyCensus n).mem.cells := by
  simp only [State.copyCensus]
  (repeat' split) <;> simp [hs]

@[simp] theorem State.cycleEnd_canon (s : State) (n : Nat) (x : PleatTimer) (hs : Canon s.mem.cells) :
    Canon (s.cycleEnd n x).mem.cells := by
  simp only [State.cycleEnd]
  split
  · refine foldl_canon _ (fun t m ht => ?_) _ _ ?_
    · (repeat' split) <;> simp [ht]
    · split <;> simp [hs]
  · simp [hs]

@[simp] theorem State.strmPut_canon (s : State) (e q g : Nat) (v x : Int) (hs : Canon s.mem.cells) :
    Canon (s.strmPut e q g v x).mem.cells := by
  unfold State.strmPut
  split <;> simp [hs]

@[simp] theorem State.output_canon (s : State) (e g p : Nat) (hs : Canon s.mem.cells) : Canon (s.output e g p).mem.cells := by
  simp [State.output, hs]

@[simp] theorem State.land_canon (s : State) (l : List (Nat × List Byte)) (hs : Canon s.mem.cells) :
    Canon (s.land l).mem.cells := by
  simp only [State.land]
  (repeat' split) <;> simp +contextual [foldl_canon, hs]

@[simp] theorem State.writeDesc_canon (s : State) (a : Nat) (tail ctrl : List Byte) (hs : Canon s.mem.cells) :
    Canon (s.writeDesc a tail ctrl).mem.cells :=
  Mem.store_canon _ _ _ (Mem.store_canon _ _ _ hs)

@[simp] theorem State.putBack_canon (s : State) (n : Nat) (d : SpoolDesc) (status : Nat) (check : List Byte)
    (hs : Canon s.mem.cells) :
    Canon (s.putBack n d status check).mem.cells := by
  simp only [State.putBack]
  (repeat' split) <;> simp [hs]

@[simp] theorem State.spoolKill_canon (s : State) (n : Nat) (hs : Canon s.mem.cells) : Canon (s.spoolKill n).mem.cells := by
  simp [State.spoolKill, hs]

@[simp] theorem State.writeBurst_canon (s : State) (n : Nat) (hs : Canon s.mem.cells) : Canon (s.writeBurst n).mem.cells := by
  simp only [State.writeBurst]
  (repeat' split) <;> simp [hs]

@[simp] theorem State.writeBack_canon (s : State) (n : Nat) (d : SpoolDesc) (status : Nat) (check : List Byte)
    (hs : Canon s.mem.cells) :
    Canon (s.writeBack n d status check).mem.cells := by
  simp only [State.writeBack]
  (repeat' split) <;> simp [hs]

@[simp] theorem State.spoolCtl_canon (s : State) (w : RegWrite) (hs : Canon s.mem.cells) : Canon (s.spoolCtl w).mem.cells := by
  simp only [State.spoolCtl]
  (repeat' split) <;> simp [hs]

@[simp] theorem State.hookUnits_canon (s old : State) (w : RegWrite) (hs : Canon s.mem.cells) :
    Canon (s.hookUnits old w).mem.cells := by
  simp only [State.hookUnits]
  (repeat' split) <;> simp [hs]

@[simp] theorem State.writeReg_canon (s : State) (w : RegWrite) (hs : Canon s.mem.cells) : Canon (s.writeReg w).mem.cells := by
  simp only [State.writeReg]
  (repeat' split) <;> simp [hs]

@[simp] theorem State.writeAll_canon (s : State) (l : List RegWrite) (hs : Canon s.mem.cells) :
    Canon (s.writeAll l).mem.cells := by
  unfold State.writeAll
  extract_lets old t
  have ht : Canon t.mem.cells := by
    refine foldl_canon _ (fun t w ht => ?_) _ _ hs
    split <;> simp [ht]
  refine foldl_canon _ (fun t n ht => ?_) _ _ ht
  split <;> simp [ht]

@[simp] theorem State.landOne_canon (s : State) (p : Posted) (hs : Canon s.mem.cells) : Canon (s.landOne p).mem.cells := by
  simp [State.landOne, hs]

@[simp] theorem State.landAll_canon (s : State) (slot gen : Nat) (hs : Canon s.mem.cells) :
    Canon (s.landAll slot gen).mem.cells := by
  simp only [State.landAll]
  (repeat' split) <;> simp +contextual [foldl_canon, hs]

@[simp] theorem State.settle_canon (s : State) (hs : Canon s.mem.cells) : Canon (s.settle).mem.cells := by
  simp only [State.settle]
  (repeat' split) <;> simp +contextual [foldl_canon, hs]

@[simp] theorem State.applyWrites_canon (s : State) (f : Flight) (l : List RegWrite) (operand : List Byte)
    (hs : Canon s.mem.cells) :
    Canon (s.applyWrites f l operand).mem.cells := by
  simp only [State.applyWrites]
  (repeat' split) <;> simp [hs]

@[simp] theorem State.cfgWrite_canon (s : State) (f : Flight) (hs : Canon s.mem.cells) : Canon (s.cfgWrite f).mem.cells := by
  simp only [State.cfgWrite]
  (repeat' split) <;> simp [hs]

@[simp] theorem State.cfgModify_canon (s : State) (f : Flight) (hs : Canon s.mem.cells) : Canon (s.cfgModify f).mem.cells := by
  simp only [State.cfgModify]
  (repeat' split) <;> simp [hs]

@[simp] theorem State.memRead_canon (s : State) (fixed : List Nat) (f : Flight) (hs : Canon s.mem.cells) :
    Canon (s.memRead fixed f).mem.cells := by
  simp only [State.memRead]
  (repeat' split) <;> simp [hs]

@[simp] theorem State.memWrite_canon (s : State) (f : Flight) (hs : Canon s.mem.cells) : Canon (s.memWrite f).mem.cells := by
  simp only [State.memWrite]
  (repeat' split) <;> simp [hs]

@[simp] theorem State.memFence_canon (s : State) (f : Flight) (hs : Canon s.mem.cells) : Canon (s.memFence f).mem.cells := by
  unfold State.memFence
  split <;> simp [hs]

@[simp] theorem State.runDirect_canon (s : State) (fixed : List Nat) (f : Flight) (hs : Canon s.mem.cells) :
    Canon (s.runDirect fixed f).mem.cells := by
  unfold State.runDirect
  split <;> simp [hs]

@[simp] theorem State.arriveDirect_canon (s : State) (m : Inbound) (opcode need : Nat) (fixed : List Nat)
    (hs : Canon s.mem.cells) :
    Canon (s.arriveDirect m opcode need fixed).mem.cells := by
  unfold State.arriveDirect
  extract_lets hold
  have h := s.accept_leaves m opcode need true (if hold then .held else .waiting)
  split
  next r f e =>
    rw [e] at h
    split <;> simp_all [Leaves, keep]
  next r e =>
    rw [e] at h
    simp_all [Leaves, keep]

@[simp] theorem State.runHeld_canon (s : State) (slot gen : Nat) (fixed : List Nat) (hs : Canon s.mem.cells) :
    Canon (s.runHeld slot gen fixed).mem.cells := by
  unfold State.runHeld
  refine foldl_canon _ (fun t b ht => ?_) _ _ (by simp [hs])
  (repeat' split) <;> simp [ht]

@[simp] theorem State.waitRead_canon (s : State) (w : Wait) (f : Flight) (fixed : List Nat) (hs : Canon s.mem.cells) :
    Canon (s.waitRead w f fixed).mem.cells := by
  simp only [State.waitRead]
  (repeat' split) <;> simp [hs]

/-! ## The numbers of commands in flight -/

/-- The numbers of commands in flight lie below `r`, and are distinct. -/
def FreshRefs (l : List Flight) (r : Nat) : Prop := (∀ f ∈ l, f.ref < r) ∧ (l.map (·.ref)).Nodup

theorem foldl_refs {β : Type} (f : State → β → State) {r : Nat}
    (h : ∀ s b, FreshRefs s.stw.flights r → FreshRefs (f s b).stw.flights r) (l : List β) (s : State)
    (hs : FreshRefs s.stw.flights r) : FreshRefs (l.foldl f s).stw.flights r :=
  foldl_keeps (fun t => FreshRefs t.stw.flights r) f h l s hs

theorem FreshRefs.map {l : List Flight} {lim : Nat} (h : FreshRefs l lim) (g : Flight → Flight) (hg : ∀ f, (g f).ref = f.ref) :
    FreshRefs (l.map g) lim := by
  simp only [FreshRefs, List.mem_map, forall_exists_index, and_imp, forall_apply_eq_imp_iff₂, List.map_map,
    Function.comp_def, hg] at h ⊢
  exact h

theorem FreshRefs.filter {l : List Flight} {lim : Nat} (h : FreshRefs l lim) (p : Flight → Bool) :
    FreshRefs (l.filter p) lim :=
  ⟨fun f hf => h.1 f (List.mem_of_mem_filter hf), h.2.sublist (List.filter_sublist.map _)⟩

@[simp] theorem State.setFlight_refs (s : State) (f : Flight) {lim : Nat} (hs : FreshRefs s.stw.flights lim) :
    FreshRefs (s.setFlight f).stw.flights lim := 
  hs.map _ fun g => by split <;> simp_all

@[simp] theorem State.answer_refs (s : State) (f : Flight) (direct : Bool) (status : Nat) (operand : List Byte) (settles : optParam Bool false) {lim : Nat}
    (hs : FreshRefs s.stw.flights lim) :
    FreshRefs (s.answer f direct status operand settles).stw.flights lim := by
  rw [State.answer_flights]
  exact hs.filter _

@[simp] theorem State.recordFinal_refs (s : State) (f : Flight) (status : Nat) (operand : List Byte) {lim : Nat}
    (hs : FreshRefs s.stw.flights lim) :
    FreshRefs (s.recordFinal f status operand).stw.flights lim := by
  simp [State.recordFinal, hs]

@[simp] theorem State.finish_refs (s : State) (f : Flight) (direct : Bool) (status : Nat) (operand : List Byte) (settles : optParam Bool false) {lim : Nat}
    (hs : FreshRefs s.stw.flights lim) :
    FreshRefs (s.finish f direct status operand settles).stw.flights lim := by
  unfold State.finish
  split <;> simp [hs]

@[simp] theorem State.finishRef_refs (s : State) (ref status : Nat) (operand : List Byte) {lim : Nat}
    (hs : FreshRefs s.stw.flights lim) :
    FreshRefs (s.finishRef ref status operand).stw.flights lim := by
  unfold State.finishRef
  split <;> simp [hs]

/-- A command that enters under the next number. -/
theorem FreshRefs.append {l : List Flight} {n : Nat} (h : FreshRefs l n) {f : Flight} (hf : f.ref = n) :
    FreshRefs (l ++ [f]) (n + 1) := by
  obtain ⟨hlt, hnd⟩ := h
  refine ⟨fun g hg => ?_, ?_⟩
  · rcases List.mem_append.1 hg with hg | hg
    · exact Nat.lt_succ_of_lt (hlt g hg)
    · rw [List.mem_singleton.1 hg, hf]
      exact Nat.lt_succ_self n
  · rw [List.map_append, List.nodup_append]
    refine ⟨hnd, List.nodup_singleton _, fun a ha b hb => ?_⟩
    obtain ⟨g, hg, rfl⟩ := List.mem_map.1 ha
    simp only [List.mem_singleton.1 hb, hf]
    exact (hlt g hg).ne

@[simp] theorem State.enter_refs (s : State) (m : Inbound) (opcode : Nat) (x : Session) (st : Stage)
    (hs : FreshRefs s.stw.flights s.stw.nextRef) :
    FreshRefs (s.enter m opcode x st).1.stw.flights (s.enter m opcode x st).1.stw.nextRef :=
  hs.append rfl

@[simp] theorem State.accept_refs (s : State) (m : Inbound) (opcode need : Nat) (direct : Bool) (st : Stage)
    (hs : FreshRefs s.stw.flights s.stw.nextRef) :
    FreshRefs (s.accept m opcode need direct st).1.stw.flights (s.accept m opcode need direct st).1.stw.nextRef := by
  simp only [State.accept]
  split; · simp [hs]
  split; · simp [hs]
  split; · simp [hs]
  split; · simp [hs]
  split
  next u h => simpa [State.tagChecks_stw h] using hs
  next => (repeat' split) <;> simp [hs]

@[simp] theorem State.arriveFw_refs (s : State) (m : Inbound) (opcode need : Nat) (hs : FreshRefs s.stw.flights s.stw.nextRef) :
    FreshRefs (s.arriveFw m opcode need).stw.flights (s.arriveFw m opcode need).stw.nextRef := by
  simp [State.arriveFw, hs]

@[simp] theorem State.dropErased_refs (s : State) {lim : Nat} (hs : FreshRefs s.stw.flights lim) :
    FreshRefs (s.dropErased).stw.flights lim := by
  unfold State.dropErased
  refine foldl_refs _ (fun t b ht => ?_) _ _ (by simp [hs])
  (repeat' split) <;> simp [ht]

@[simp] theorem State.alarm_refs (s : State) (source detail : Nat) (stays : Bool) {lim : Nat} (hs : FreshRefs s.stw.flights lim) :
    FreshRefs (s.alarm source detail stays).stw.flights lim := by
  simp [State.alarm, hs]

@[simp] theorem State.supplyAt_refs (s : State) (n uv : Nat) {lim : Nat} (hs : FreshRefs s.stw.flights lim) :
    FreshRefs (s.supplyAt n uv).stw.flights lim := by
  simp only [State.supplyAt]
  (repeat' split) <;> simp [hs]

@[simp] theorem State.serveKeyDelete_refs (s : State) (f : Flight) {lim : Nat} (hs : FreshRefs s.stw.flights lim) :
    FreshRefs (s.serveKeyDelete f).stw.flights lim := by
  simp only [State.serveKeyDelete]
  (repeat' split) <;> simp [hs]

@[simp] theorem State.serveKeyStatus_refs (s : State) (f : Flight) {lim : Nat} (hs : FreshRefs s.stw.flights lim) :
    FreshRefs (s.serveKeyStatus f).stw.flights lim := by
  unfold State.serveKeyStatus
  split <;> simp [hs]

@[simp] theorem State.serveRootProvision_refs (s : State) (f : Flight) {lim : Nat} (hs : FreshRefs s.stw.flights lim) :
    FreshRefs (s.serveRootProvision f).stw.flights lim := by
  simp only [State.serveRootProvision]
  (repeat' split) <;> simp [hs]

@[simp] theorem State.serveKeyAlarm_refs (s : State) (f : Flight) {lim : Nat} (hs : FreshRefs s.stw.flights lim) :
    FreshRefs (s.serveKeyAlarm f).stw.flights lim := by
  simp only [State.serveKeyAlarm]
  (repeat' split) <;> simp [hs]

@[simp] theorem State.serveKeyLoad_refs (s : State) (f : Flight) {lim : Nat} (hs : FreshRefs s.stw.flights lim) :
    FreshRefs (s.serveKeyLoad f).stw.flights lim := by
  simp only [State.serveKeyLoad]
  (repeat' split) <;> simp [hs]

@[simp] theorem State.keyLoaded_refs (s : State) (ref handle : Nat) (wrapped plain : List Byte) {lim : Nat}
    (hs : FreshRefs s.stw.flights lim) :
    FreshRefs (s.keyLoaded ref handle wrapped plain).stw.flights lim := by
  simp only [State.keyLoaded]
  (repeat' split) <;> simp [hs]

@[simp] theorem State.dropWaits_refs (s : State) {lim : Nat} (hs : FreshRefs s.stw.flights lim) :
    FreshRefs (s.dropWaits).stw.flights lim := by
  unfold State.dropWaits
  refine foldl_refs _ (fun t b ht => ?_) _ _ (by simp [hs])
  (repeat' split) <;> simp [ht]

@[simp] theorem State.toRole_refs (s : State) (role reason : Nat) {lim : Nat} (hs : FreshRefs s.stw.flights lim) :
    FreshRefs (s.toRole role reason).stw.flights lim := by
  simp only [State.toRole]
  (repeat' split) <;> simp [hs]

@[simp] theorem State.toListening_refs (s : State) (reason : Nat) {lim : Nat} (hs : FreshRefs s.stw.flights lim) :
    FreshRefs (s.toListening reason).stw.flights lim := by
  simp [State.toListening, hs]

@[simp] theorem State.toElecting_refs (s : State) {lim : Nat} (hs : FreshRefs s.stw.flights lim) :
    FreshRefs (s.toElecting).stw.flights lim := by
  unfold State.toElecting
  split <;> simp [hs]

@[simp] theorem State.toManager_refs (s : State) (reason : Nat) {lim : Nat} (hs : FreshRefs s.stw.flights lim) :
    FreshRefs (s.toManager reason).stw.flights lim := by
  simp only [State.toManager]
  (repeat' split) <;> simp [hs]

@[simp] theorem State.takeOver_refs (s : State) {lim : Nat} (hs : FreshRefs s.stw.flights lim) :
    FreshRefs (s.takeOver).stw.flights lim := by
  unfold State.takeOver
  split <;> simp [hs]

@[simp] theorem State.releaseWait_refs (s : State) (w : MirrorFor) {lim : Nat} (hs : FreshRefs s.stw.flights lim) :
    FreshRefs (s.releaseWait w).stw.flights lim := by
  unfold State.releaseWait
  split <;> simp [hs]

@[simp] theorem State.whenMirrored_refs (s : State) (n : Nat) (w : MirrorFor) {lim : Nat} (hs : FreshRefs s.stw.flights lim) :
    FreshRefs (s.whenMirrored n w).stw.flights lim := by
  unfold State.whenMirrored
  split <;> simp [hs]

@[simp] theorem State.releaseMirrored_refs (s : State) {lim : Nat} (hs : FreshRefs s.stw.flights lim) :
    FreshRefs (s.releaseMirrored).stw.flights lim := by
  simp only [State.releaseMirrored]
  (repeat' split) <;> simp +contextual [foldl_refs, hs]

@[simp] theorem State.claimAt_refs (s : State) (k ext : Nat) (e : RegEntry) (ack : Bool) {lim : Nat}
    (hs : FreshRefs s.stw.flights lim) :
    FreshRefs (s.claimAt k ext e ack).stw.flights lim := by
  simp only [State.claimAt]
  (repeat' split) <;> simp [hs]

@[simp] theorem State.sendClaim_refs (s : State) (c : Claim) {lim : Nat} (hs : FreshRefs s.stw.flights lim) :
    FreshRefs (s.sendClaim c).stw.flights lim := by
  simp only [State.sendClaim]
  (repeat' split) <;> simp [hs]

@[simp] theorem State.resendClaims_refs (s : State) {lim : Nat} (hs : FreshRefs s.stw.flights lim) :
    FreshRefs (s.resendClaims).stw.flights lim := by
  simp only [State.resendClaims]
  (repeat' split) <;> simp +contextual [foldl_refs, hs]

@[simp] theorem State.claim_refs (s : State) (ext kind flags short port : Nat) (release : Bool) {lim : Nat}
    (hs : FreshRefs s.stw.flights lim) :
    FreshRefs (s.claim ext kind flags short port release).stw.flights lim := by
  simp [State.claim, hs]

@[simp] theorem State.toJoining_refs (s : State) (k reason : Nat) {lim : Nat} (hs : FreshRefs s.stw.flights lim) :
    FreshRefs (s.toJoining k reason).stw.flights lim := by
  simp [State.toJoining, hs]

@[simp] theorem State.seaEnable_refs (s : State) {lim : Nat} (hs : FreshRefs s.stw.flights lim) :
    FreshRefs (s.seaEnable).stw.flights lim := by
  simp [State.seaEnable, hs]

@[simp] theorem State.seaLeave_refs (s : State) {lim : Nat} (hs : FreshRefs s.stw.flights lim) :
    FreshRefs (s.seaLeave).stw.flights lim := by
  unfold State.seaLeave
  split <;> simp [hs]

@[simp] theorem State.seaDisable_refs (s : State) {lim : Nat} (hs : FreshRefs s.stw.flights lim) :
    FreshRefs (s.seaDisable).stw.flights lim := by
  simp [State.seaDisable, hs]

@[simp] theorem State.takePrio_refs (s : State) {lim : Nat} (hs : FreshRefs s.stw.flights lim) :
    FreshRefs (s.takePrio).stw.flights lim := by
  simp only [State.takePrio]
  (repeat' split) <;> simp [hs]

@[simp] theorem State.dropMember_refs (s : State) (k reason : Nat) {lim : Nat} (hs : FreshRefs s.stw.flights lim) :
    FreshRefs (s.dropMember k reason).stw.flights lim := by
  simp only [State.dropMember]
  (repeat' split) <;> simp [hs]

@[simp] theorem State.yielded_refs (s : State) {lim : Nat} (hs : FreshRefs s.stw.flights lim) :
    FreshRefs (s.yielded).stw.flights lim := by
  simp [State.yielded, hs]

@[simp] theorem State.validBeacon_refs (s : State) (m : SeamMsg) {lim : Nat} (hs : FreshRefs s.stw.flights lim) :
    FreshRefs (s.validBeacon m).stw.flights lim := by
  simp only [State.validBeacon]
  (repeat' split) <;> simp [hs]

@[simp] theorem State.joinBeacon_refs (s : State) (m : SeamMsg) (reason : Nat) {lim : Nat} (hs : FreshRefs s.stw.flights lim) :
    FreshRefs (s.joinBeacon m reason).stw.flights lim := by
  simp only [State.joinBeacon]
  (repeat' split) <;> simp [hs]

@[simp] theorem State.serveCluStatus_refs (s : State) (f : Flight) {lim : Nat} (hs : FreshRefs s.stw.flights lim) :
    FreshRefs (s.serveCluStatus f).stw.flights lim := by
  unfold State.serveCluStatus
  split <;> simp [hs]

@[simp] theorem State.serveRegGet_refs (s : State) (f : Flight) {lim : Nat} (hs : FreshRefs s.stw.flights lim) :
    FreshRefs (s.serveRegGet f).stw.flights lim := by
  simp only [State.serveRegGet]
  (repeat' split) <;> simp [hs]

@[simp] theorem State.serveRegPut_refs (s : State) (f : Flight) {lim : Nat} (hs : FreshRefs s.stw.flights lim) :
    FreshRefs (s.serveRegPut f).stw.flights lim := by
  simp only [State.serveRegPut]
  (repeat' split) <;> simp [hs]

@[simp] theorem State.serveStations_refs (s : State) (f : Flight) {lim : Nat} (hs : FreshRefs s.stw.flights lim) :
    FreshRefs (s.serveStations f).stw.flights lim := by
  simp only [State.serveStations]
  (repeat' split) <;> simp [hs]

@[simp] theorem State.serveCluLeave_refs (s : State) (f : Flight) {lim : Nat} (hs : FreshRefs s.stw.flights lim) :
    FreshRefs (s.serveCluLeave f).stw.flights lim := by
  unfold State.serveCluLeave
  split <;> simp [hs]

@[simp] theorem State.nodeJoined_refs (s : State) (short : Nat) (x : Node) {lim : Nat} (hs : FreshRefs s.stw.flights lim) :
    FreshRefs (s.nodeJoined short x).stw.flights lim := by
  simp [State.nodeJoined, hs]

@[simp] theorem State.lineResult_refs (s : State) (ref : Nat) (f : LineFrame) (result : Nat) {lim : Nat}
    (hs : FreshRefs s.stw.flights lim) :
    FreshRefs (s.lineResult ref f result).stw.flights lim := by
  simp [State.lineResult, hs]

@[simp] theorem State.serveMapRead_refs (s : State) (f : Flight) {lim : Nat} (hs : FreshRefs s.stw.flights lim) :
    FreshRefs (s.serveMapRead f).stw.flights lim := by
  simp only [State.serveMapRead]
  (repeat' split) <;> simp [hs]

@[simp] theorem State.joinNode_refs (s : State) (short : Nat) {lim : Nat} (hs : FreshRefs s.stw.flights lim) :
    FreshRefs (s.joinNode short).stw.flights lim := by
  simp only [State.joinNode]
  (repeat' split) <;> simp [hs]

@[simp] theorem State.jobDone_refs (s : State) (n m : Nat) (f : LineFrame) (ok : Bool) (result : Nat) {lim : Nat}
    (hs : FreshRefs s.stw.flights lim) :
    FreshRefs (s.jobDone n m f ok result).stw.flights lim := by
  simp only [State.jobDone]
  (repeat' split) <;> simp [hs]

@[simp] theorem State.popLine_refs (s : State) (n m at_ : Nat) (ok : Bool) (result : Nat) {lim : Nat}
    (hs : FreshRefs s.stw.flights lim) :
    FreshRefs (s.popLine n m at_ ok result).stw.flights lim := by
  simp only [State.popLine]
  (repeat' split) <;> simp [hs]

@[simp] theorem State.tryFailed_refs (s : State) (n m at_ : Nat) {lim : Nat} (hs : FreshRefs s.stw.flights lim) :
    FreshRefs (s.tryFailed n m at_).stw.flights lim := by
  simp only [State.tryFailed]
  (repeat' split) <;> simp [hs]

@[simp] theorem State.tryEnds_refs (s : State) (n m fin : Nat) (cut : Bool) (x : LineTx) {lim : Nat}
    (hs : FreshRefs s.stw.flights lim) :
    FreshRefs (s.tryEnds n m fin cut x).stw.flights lim := by
  simp only [State.tryEnds]
  (repeat' split) <;> simp [hs]

@[simp] theorem State.ackLate_refs (s : State) (n m : Nat) {lim : Nat} (hs : FreshRefs s.stw.flights lim) :
    FreshRefs (s.ackLate n m).stw.flights lim := by
  simp only [State.ackLate]
  (repeat' split) <;> simp [hs]

@[simp] theorem State.lineDownlink_refs (s : State) (f : Flight) (short : Nat) (x : Node) {lim : Nat}
    (hs : FreshRefs s.stw.flights lim) :
    FreshRefs (s.lineDownlink f short x).stw.flights lim := by
  simp only [State.lineDownlink]
  (repeat' split) <;> simp [hs]

@[simp] theorem State.lineSealed_refs (s : State) (ref status : Nat) (nonce out : List Byte) {lim : Nat}
    (hs : FreshRefs s.stw.flights lim) :
    FreshRefs (s.lineSealed ref status nonce out).stw.flights lim := by
  simp only [State.lineSealed]
  (repeat' split) <;> simp [hs]

@[simp] theorem State.serveLineDownlink_refs (s : State) (f : Flight) {lim : Nat} (hs : FreshRefs s.stw.flights lim) :
    FreshRefs (s.serveLineDownlink f).stw.flights lim := by
  simp only [State.serveLineDownlink]
  (repeat' split) <;> simp [hs]

@[simp] theorem State.expireLine_refs (s : State) (ref : Nat) {lim : Nat} (hs : FreshRefs s.stw.flights lim) :
    FreshRefs (s.expireLine ref).stw.flights lim := by
  simp only [State.expireLine]
  (repeat' split) <;> simp [hs]

@[simp] theorem State.endQueue_refs (s : State) (n m : Nat) {lim : Nat} (hs : FreshRefs s.stw.flights lim) :
    FreshRefs (s.endQueue n m).stw.flights lim := by
  unfold State.endQueue
  refine foldl_refs _ (fun t b ht => ?_) _ _ (by simp [hs])
  (repeat' split) <;> simp [ht]

@[simp] theorem State.dropFrames_refs (s : State) (n m short : Nat) {lim : Nat} (hs : FreshRefs s.stw.flights lim) :
    FreshRefs (s.dropFrames n m short).stw.flights lim := by
  unfold State.dropFrames
  refine foldl_refs _ (fun t f ht => ?_) _ _ ?_
  · split <;> simp [ht]
  · dsimp only
    split <;> simp [hs]

@[simp] theorem State.dropNode_refs (s : State) (short : Nat) {lim : Nat} (hs : FreshRefs s.stw.flights lim) :
    FreshRefs (s.dropNode short).stw.flights lim := by
  simp only [State.dropNode]
  (repeat' split) <;> simp +contextual [foldl_refs, hs]

@[simp] theorem State.endSlot_refs (s : State) (n m : Nat) {lim : Nat} (hs : FreshRefs s.stw.flights lim) :
    FreshRefs (s.endSlot n m).stw.flights lim := by
  simp only [State.endSlot]
  (repeat' split) <;> simp [hs]

@[simp] theorem State.applyLink_refs (s : State) (n m : Nat) {lim : Nat} (hs : FreshRefs s.stw.flights lim) :
    FreshRefs (s.applyLink n m).stw.flights lim := by
  simp only [State.applyLink]
  (repeat' split) <;> simp [hs]

@[simp] theorem State.plxBoundary_refs (s : State) (n : Nat) {lim : Nat} (hs : FreshRefs s.stw.flights lim) :
    FreshRefs (s.plxBoundary n).stw.flights lim := by
  simp only [State.plxBoundary]
  (repeat' split) <;> simp +contextual [foldl_refs, hs]

@[simp] theorem State.plxGo_refs (s : State) (n : Nat) {lim : Nat} (hs : FreshRefs s.stw.flights lim) :
    FreshRefs (s.plxGo n).stw.flights lim := by
  simp only [State.plxGo]
  (repeat' split) <;> simp [hs]

@[simp] theorem State.plxStop_refs (s : State) (n : Nat) {lim : Nat} (hs : FreshRefs s.stw.flights lim) :
    FreshRefs (s.plxStop n).stw.flights lim := by
  simp only [State.plxStop]
  refine State.plxBoundary_refs _ _ ?_
  simp only [State.setLp_frame, State.sendEnds_leaves]
  refine foldl_refs _ (fun t m ht => ?_) _ _ (by simp [hs])
  split <;> simp [ht]

@[simp] theorem State.nodeHeard_refs (s : State) (n m short start margin : Nat) (energy : Option Nat) {lim : Nat}
    (hs : FreshRefs s.stw.flights lim) :
    FreshRefs (s.nodeHeard n m short start margin energy).stw.flights lim := by
  simp only [State.nodeHeard]
  (repeat' split) <;> simp [hs]

@[simp] theorem State.lineRelay_refs (s : State) (n m src start margin : Nat) (p : List Byte) {lim : Nat}
    (hs : FreshRefs s.stw.flights lim) :
    FreshRefs (s.lineRelay n m src start margin p).stw.flights lim := by
  simp only [State.lineRelay]
  (repeat' split) <;> simp [hs]

@[simp] theorem State.lineFrame_refs (s : State) (n m : Nat) (r : LineRx) (p : List Byte) (energy : Nat) (snr : Int) {lim : Nat}
    (hs : FreshRefs s.stw.flights lim) :
    FreshRefs (s.lineFrame n m r p energy snr).stw.flights lim := by
  simp only [State.lineFrame]
  (repeat' split) <;> simp [hs]

@[simp] theorem State.windowMissed_refs (s : State) (n m : Nat) (c : LineCand) {lim : Nat} (hs : FreshRefs s.stw.flights lim) :
    FreshRefs (s.windowMissed n m c).stw.flights lim := by
  simp only [State.windowMissed]
  (repeat' split) <;> simp [hs]

@[simp] theorem State.headFails_refs (s : State) (n m : Nat) (c : LineCand) {lim : Nat} (hs : FreshRefs s.stw.flights lim) :
    FreshRefs (s.headFails n m c).stw.flights lim := by
  simp only [State.headFails]
  (repeat' split) <;> simp [hs]

@[simp] theorem State.headWins_refs (s : State) (n m : Nat) (r : LineRx) (energy : Nat) (snr : Int) {lim : Nat}
    (hs : FreshRefs s.stw.flights lim) :
    FreshRefs (s.headWins n m r energy snr).stw.flights lim := by
  simp only [State.headWins]
  (repeat' split) <;> simp [hs]

@[simp] theorem State.headsDone_refs (s : State) (n m : Nat) (l : List (LineCand × Option LineRx)) (energy : Nat) (snr : Int) {lim : Nat}
    (hs : FreshRefs s.stw.flights lim) :
    FreshRefs (s.headsDone n m l energy snr).stw.flights lim := by
  unfold State.headsDone
  extract_lets t
  have ht : FreshRefs t.stw.flights lim := foldl_refs _ (fun t e ht => by simp [ht]) _ _ hs
  split <;> simp [ht]

@[simp] theorem State.lineHead_refs (s : State) (n m place : Nat) (soft : List (List SlotSoft)) (energy : Nat) (snr : Int) {lim : Nat}
    (hs : FreshRefs s.stw.flights lim) :
    FreshRefs (s.lineHead n m place soft rival energy snr).stw.flights lim := by
  simp only [State.lineHead]
  (repeat' split) <;> simp [hs]

@[simp] theorem State.linePayload_refs (s : State) (n m : Nat) (soft : List SlotSoft) (energy : Nat) (snr : Int) {lim : Nat}
    (hs : FreshRefs s.stw.flights lim) :
    FreshRefs (s.linePayload n m soft energy snr).stw.flights lim := by
  simp only [State.linePayload]
  (repeat' split) <;> simp [hs]

@[simp] theorem State.serveNodeList_refs (s : State) (f : Flight) {lim : Nat} (hs : FreshRefs s.stw.flights lim) :
    FreshRefs (s.serveNodeList f).stw.flights lim := by
  simp only [State.serveNodeList]
  (repeat' split) <;> simp [hs]

@[simp] theorem State.serveNodeGet_refs (s : State) (f : Flight) {lim : Nat} (hs : FreshRefs s.stw.flights lim) :
    FreshRefs (s.serveNodeGet f).stw.flights lim := by
  simp only [State.serveNodeGet]
  (repeat' split) <;> simp [hs]

@[simp] theorem State.removeNode_refs (s : State) (short : Nat) (y : Node) {lim : Nat} (hs : FreshRefs s.stw.flights lim) :
    FreshRefs (s.removeNode short y).stw.flights lim := by
  simp [State.removeNode, hs]

@[simp] theorem State.serveNodeRemove_refs (s : State) (f : Flight) {lim : Nat} (hs : FreshRefs s.stw.flights lim) :
    FreshRefs (s.serveNodeRemove f).stw.flights lim := by
  simp only [State.serveNodeRemove]
  (repeat' split) <;> simp [hs]

@[simp] theorem State.servePortStats_refs (s : State) (f : Flight) {lim : Nat} (hs : FreshRefs s.stw.flights lim) :
    FreshRefs (s.servePortStats f).stw.flights lim := by
  simp only [State.servePortStats]
  (repeat' split) <;> simp [hs]

@[simp] theorem State.airResult_refs (s : State) (d : AirDown) (status : Nat) (result : Option Nat) {lim : Nat}
    (hs : FreshRefs s.stw.flights lim) :
    FreshRefs (s.airResult d status result).stw.flights lim := by
  unfold State.airResult
  split <;> simp [hs]

@[simp] theorem State.nextDown_refs (s : State) (ext n : Nat) {lim : Nat} (hs : FreshRefs s.stw.flights lim) :
    FreshRefs (s.nextDown ext n).stw.flights lim := by
  induction n generalizing s with
  | zero => exact hs
  | succ n ih =>
    simp only [State.nextDown]
    (repeat' split) <;> simp [ih, hs]

@[simp] theorem State.endDown_refs (s : State) (d : AirDown) (status : Nat) (result : Option Nat) {lim : Nat}
    (hs : FreshRefs s.stw.flights lim) :
    FreshRefs (s.endDown d status result).stw.flights lim := by
  unfold State.endDown
  split <;> simp [hs]

@[simp] theorem State.dutyRefused_refs (s : State) (d : AirDown) {lim : Nat} (hs : FreshRefs s.stw.flights lim) :
    FreshRefs (s.dutyRefused d).stw.flights lim := by
  unfold State.dutyRefused
  split <;> simp [hs]

@[simp] theorem State.planTry_refs (s : State) (d : AirDown) {lim : Nat} (hs : FreshRefs s.stw.flights lim) :
    FreshRefs (s.planTry d).stw.flights lim := by
  simp only [State.planTry]
  (repeat' split) <;> simp [hs]

@[simp] theorem State.airFailed_refs (s : State) (d : AirDown) {lim : Nat} (hs : FreshRefs s.stw.flights lim) :
    FreshRefs (s.airFailed d).stw.flights lim := by
  simp only [State.airFailed]
  (repeat' split) <;> simp [hs]

@[simp] theorem State.nextCopy_refs (s : State) (d : AirDown) (p : AirPlan) (fin : Nat) {lim : Nat}
    (hs : FreshRefs s.stw.flights lim) :
    FreshRefs (s.nextCopy d p fin).stw.flights lim := by
  simp only [State.nextCopy]
  (repeat' split) <;> simp [hs]

@[simp] theorem State.nextWake_refs (s : State) (d : AirDown) {lim : Nat} (hs : FreshRefs s.stw.flights lim) :
    FreshRefs (s.nextWake d).stw.flights lim := by
  unfold State.nextWake
  split <;> simp [hs]

@[simp] theorem State.skipCopy_refs (s : State) (d : AirDown) (p : AirPlan) {lim : Nat} (hs : FreshRefs s.stw.flights lim) :
    FreshRefs (s.skipCopy d p).stw.flights lim := by
  simp only [State.skipCopy]
  (repeat' split) <;> simp [hs]

@[simp] theorem State.startDown_refs (s : State) (n : Nat) (d : AirDown) (p : AirPlan) {lim : Nat}
    (hs : FreshRefs s.stw.flights lim) :
    FreshRefs (s.startDown n d p).stw.flights lim := by
  simp only [State.startDown]
  (repeat' split) <;> simp [hs]

@[simp] theorem State.openWindow_refs (s : State) (ext short n m at_ : Nat) {lim : Nat} (hs : FreshRefs s.stw.flights lim) :
    FreshRefs (s.openWindow ext short n m at_).stw.flights lim := by
  unfold State.openWindow
  extract_lets w air s1 capable dg q body mac s2 free mine order first s3
  have h1 : FreshRefs s1.stw.flights lim := by simpa [s1, air] using hs
  have h2 : FreshRefs s2.stw.flights lim := by
    simp only [s2, q]
    split <;> simp [h1]
  have h3 : FreshRefs s3.stw.flights lim := by
    refine foldl_keeps (fun t => FreshRefs t.stw.flights lim) _ (fun t d ht => ?_) _ _ h2
    simp [ht]
  clear_value s3 first order mine s2 mac body q dg capable s1
  split
  · exact h3
  · extract_lets r
    have hr : FreshRefs r.1.stw.flights lim := by simp [r, h3]
    clear_value r
    split <;> simp [hr]

@[simp] theorem State.downSent_refs (s : State) (id start fin : Nat) {lim : Nat} (hs : FreshRefs s.stw.flights lim) :
    FreshRefs (s.downSent id start fin).stw.flights lim := by
  simp only [State.downSent]
  (repeat' split) <;> simp [hs]

@[simp] theorem State.airDownlink_refs (s : State) (f : Flight) (short : Nat) (x : Sensor) {lim : Nat}
    (hs : FreshRefs s.stw.flights lim) :
    FreshRefs (s.airDownlink f short x).stw.flights lim := by
  simp only [State.airDownlink]
  (repeat' split) <;> simp [hs]

@[simp] theorem State.airSealed_refs (s : State) (id status : Nat) (nonce out : List Byte) {lim : Nat}
    (hs : FreshRefs s.stw.flights lim) :
    FreshRefs (s.airSealed id status nonce out).stw.flights lim := by
  simp only [State.airSealed]
  (repeat' split) <;> simp [hs]

@[simp] theorem State.serveAirDownlink_refs (s : State) (f : Flight) {lim : Nat} (hs : FreshRefs s.stw.flights lim) :
    FreshRefs (s.serveAirDownlink f).stw.flights lim := by
  simp only [State.serveAirDownlink]
  (repeat' split) <;> simp [hs]

@[simp] theorem State.expireAir_refs (s : State) (ref : Nat) {lim : Nat} (hs : FreshRefs s.stw.flights lim) :
    FreshRefs (s.expireAir ref).stw.flights lim := by
  simp only [State.expireAir]
  (repeat' split) <;> simp [hs]

@[simp] theorem State.cutSends_refs (s : State) (n : Nat) (sent : Bool) {lim : Nat} (hs : FreshRefs s.stw.flights lim) :
    FreshRefs (s.cutSends n sent).stw.flights lim := by
  unfold State.cutSends
  extract_lets p tails t copied u v
  have hu : FreshRefs u.stw.flights lim := by
    refine foldl_refs _ (fun t x ht => ?_) _ _ (by simp [t, hs])
    (repeat' split) <;> simp [ht]
  exact foldl_refs _ (fun t d ht => by simp [ht]) _ _ (by simp [v, hu])

@[simp] theorem State.airStop_refs (s : State) (n : Nat) {lim : Nat} (hs : FreshRefs s.stw.flights lim) :
    FreshRefs (s.airStop n).stw.flights lim := by
  simp [State.airStop, hs]

@[simp] theorem State.freeEntry_refs (s : State) (short : Nat) (x : Sensor) {lim : Nat} (hs : FreshRefs s.stw.flights lim) :
    FreshRefs (s.freeEntry short x).stw.flights lim := by
  simp [State.freeEntry, hs]

@[simp] theorem State.associated_refs (s : State) (short ext : Nat) {lim : Nat} (hs : FreshRefs s.stw.flights lim) :
    FreshRefs (s.associated short ext).stw.flights lim := by
  simp only [State.associated]
  (repeat' split) <;> simp [hs]

@[simp] theorem State.airCommand_refs (s : State) (short : Nat) (body : List Byte) {lim : Nat}
    (hs : FreshRefs s.stw.flights lim) :
    FreshRefs (s.airCommand short body).stw.flights lim := by
  simp only [State.airCommand]
  (repeat' split) <;> simp [hs]

@[simp] theorem State.airOrder_refs (s : State) (f : MacFrame) {lim : Nat} (hs : FreshRefs s.stw.flights lim) :
    FreshRefs (s.airOrder f).stw.flights lim := by
  simp only [State.airOrder]
  (repeat' split) <;> simp [hs]

@[simp] theorem State.downAcked_refs (s : State) (d : AirDown) (fin : Nat) {lim : Nat} (hs : FreshRefs s.stw.flights lim) :
    FreshRefs (s.downAcked d fin).stw.flights lim := by
  unfold State.downAcked
  extract_lets t sc u v
  have hu : FreshRefs u.stw.flights lim := by
    simp only [u, t]
    (repeat' split) <;> simp [hs]
  have hv : FreshRefs v.stw.flights lim := by
    simp only [v]
    split <;> simp [hu]
  simp [hv]

@[simp] theorem State.airAccepted_refs (s : State) (n m phr ts fin margin : Nat) (f : MacFrame) {lim : Nat}
    (hs : FreshRefs s.stw.flights lim) :
    FreshRefs (s.airAccepted n m phr ts fin margin f).stw.flights lim := by
  simp only [State.airAccepted]
  (repeat' split) <;> simp [hs]

@[simp] theorem State.airFrame_refs (s : State) (n m phr ts fin margin : Nat) (mac : List Byte) {lim : Nat}
    (hs : FreshRefs s.stw.flights lim) :
    FreshRefs (s.airFrame n m phr ts fin margin mac).stw.flights lim := by
  simp only [State.airFrame]
  (repeat' split) <;> simp [hs]

@[simp] theorem State.serveSensorGet_refs (s : State) (f : Flight) {lim : Nat} (hs : FreshRefs s.stw.flights lim) :
    FreshRefs (s.serveSensorGet f).stw.flights lim := by
  simp only [State.serveSensorGet]
  (repeat' split) <;> simp [hs]

@[simp] theorem State.serveDisassociate_refs (s : State) (f : Flight) {lim : Nat} (hs : FreshRefs s.stw.flights lim) :
    FreshRefs (s.serveDisassociate f).stw.flights lim := by
  simp only [State.serveDisassociate]
  split; · simp [hs]
  split; · simp [hs]
  exact State.nextDown_refs _ _ _ (by simp [hs])

@[simp] theorem State.servePendingSet_refs (s : State) (f : Flight) {lim : Nat} (hs : FreshRefs s.stw.flights lim) :
    FreshRefs (s.servePendingSet f).stw.flights lim := by
  simp only [State.servePendingSet]
  (repeat' split) <;> simp [hs]

@[simp] theorem State.serveDutyRead_refs (s : State) (f : Flight) {lim : Nat} (hs : FreshRefs s.stw.flights lim) :
    FreshRefs (s.serveDutyRead f).stw.flights lim := by
  simp only [State.serveDutyRead]
  (repeat' split) <;> simp [hs]

@[simp] theorem State.serveDigestSet_refs (s : State) (f : Flight) {lim : Nat} (hs : FreshRefs s.stw.flights lim) :
    FreshRefs (s.serveDigestSet f).stw.flights lim := by
  simp only [State.serveDigestSet]
  (repeat' split) <;> simp [hs]

@[simp] theorem State.deliverNoHome_refs (s : State) (cepoch cns margin : Nat) (mac : List Byte) {lim : Nat}
    (hs : FreshRefs s.stw.flights lim) :
    FreshRefs (s.deliverNoHome cepoch cns margin mac).stw.flights lim := by
  simp only [State.deliverNoHome]
  (repeat' split) <;> simp [hs]

@[simp] theorem State.addDigest_refs (s : State) (short : Nat) (x : Sensor) (seq margin : Nat) {lim : Nat}
    (hs : FreshRefs s.stw.flights lim) :
    FreshRefs (s.addDigest short x seq margin).stw.flights lim := by
  simp only [State.addDigest]
  (repeat' split) <;> simp [hs]

@[simp] theorem State.deliverHome_refs (s : State) (cepoch cns ext margin : Nat) (mac : List Byte) {lim : Nat}
    (hs : FreshRefs s.stw.flights lim) :
    FreshRefs (s.deliverHome cepoch cns ext margin mac).1.stw.flights lim := by
  simp only [State.deliverHome]
  (repeat' split) <;> simp [hs]

@[simp] theorem State.resultNoHome_refs (s : State) (b : List Byte) {lim : Nat} (hs : FreshRefs s.stw.flights lim) :
    FreshRefs (s.resultNoHome b).stw.flights lim := by
  simp [State.resultNoHome, hs]

@[simp] theorem State.resultHome_refs (s : State) (b : List Byte) {lim : Nat} (hs : FreshRefs s.stw.flights lim) :
    FreshRefs (s.resultHome b).1.stw.flights lim := by
  simp [State.resultHome, hs]

@[simp] theorem State.sendResult_refs (s : State) (g : Machine.Group) (mac : List Byte) {lim : Nat}
    (hs : FreshRefs s.stw.flights lim) :
    FreshRefs (s.sendResult g mac).stw.flights lim := by
  simp only [State.sendResult]
  (repeat' split) <;> simp [hs]

@[simp] theorem State.tryGroup_refs (s : State) (g : Machine.Group) {lim : Nat} (hs : FreshRefs s.stw.flights lim) :
    FreshRefs (s.tryGroup g).stw.flights lim := by
  simp only [State.tryGroup]
  (repeat' split) <;> simp [hs]

@[simp] theorem State.attemptDue_refs (s : State) (num : Nat) {lim : Nat} (hs : FreshRefs s.stw.flights lim) :
    FreshRefs (s.attemptDue num).stw.flights lim := by
  simp only [State.attemptDue]
  (repeat' split) <;> simp [hs]

@[simp] theorem State.fragment_refs (s : State) (station : Nat) (b : List Byte) {lim : Nat} (hs : FreshRefs s.stw.flights lim) :
    FreshRefs (s.fragment station b).stw.flights lim := by
  simp only [State.fragment]
  split; · simp [hs]
  split; · (repeat' split) <;> simp [hs]
  split; · simp [hs]
  have h := s.enterCopy_leaves station (scHead b)
  split
  next u k e =>
    rw [e] at h
    simp only [Leaves, keep] at h
    simp [h, hs]
  next u e =>
    rw [e] at h
    simp only [Leaves, keep] at h
    simp [h, hs]

@[simp] theorem State.scForward_refs (s : State) (n m phr ts : Nat) (soft : List Int) (snr : Int) {lim : Nat}
    (hs : FreshRefs s.stw.flights lim) :
    FreshRefs (s.scForward n m phr ts soft snr).stw.flights lim := by
  unfold State.scForward
  extract_lets minSnr len raw hard planes rxid phy head sc t u h
  have hu : FreshRefs u.stw.flights lim := by simp [u, t, hs]
  split; · exact hs
  split
  · have h' := u.enterCopy_leaves u.station h
    split
    next v k e =>
      rw [e] at h'
      simp only [Leaves, keep] at h'
      simp [h', hu]
    next v e =>
      rw [e] at h'
      simp only [Leaves, keep] at h'
      simp [h', hu]
  · split
    · exact hu
    · exact foldl_keeps (fun t => FreshRefs t.stw.flights lim) _ (fun t p ht => by simp [ht]) _ _ hu

@[simp] theorem State.airFcs_refs (s : State) (n m : Nat) (soft : List Int) (snr : Int) {lim : Nat}
    (hs : FreshRefs s.stw.flights lim) :
    FreshRefs (s.airFcs n m soft snr).stw.flights lim := by
  simp only [State.airFcs]
  (repeat' split) <;> simp [hs]

@[simp] theorem State.moveSessions_refs (s : State) (p : Nat) {lim : Nat} (hs : FreshRefs s.stw.flights lim) :
    FreshRefs (s.moveSessions p).stw.flights lim :=
  hs.map _ fun f => by split <;> rfl

@[simp] theorem State.portDown_refs (s : State) (p reason detect interrupt : Nat) {lim : Nat} (hs : FreshRefs s.stw.flights lim) :
    FreshRefs (s.portDown p reason detect interrupt).stw.flights lim := by
  simp only [State.portDown]
  (repeat' split) <;> simp [hs]

@[simp] theorem State.seamBack_refs (s : State) {lim : Nat} (hs : FreshRefs s.stw.flights lim) :
    FreshRefs (s.seamBack).stw.flights lim := by
  simp only [State.seamBack]
  (repeat' split) <;> simp [hs]

@[simp] theorem State.portUp_refs (s : State) (p : Nat) {lim : Nat} (hs : FreshRefs s.stw.flights lim) :
    FreshRefs (s.portUp p).stw.flights lim := by
  simp only [State.portUp]
  (repeat' split) <;> simp [hs]

@[simp] theorem State.ethDisable_refs (s : State) (p : Nat) {lim : Nat} (hs : FreshRefs s.stw.flights lim) :
    FreshRefs (s.ethDisable p).stw.flights lim := by
  simp only [State.ethDisable]
  (repeat' split) <;> simp [hs]

@[simp] theorem State.serveCapStart_refs (s : State) (f : Flight) {lim : Nat} (hs : FreshRefs s.stw.flights lim) :
    FreshRefs (s.serveCapStart f).stw.flights lim := by
  simp only [State.serveCapStart]
  (repeat' split) <;> simp [hs]

@[simp] theorem State.serveCapStop_refs (s : State) (f : Flight) {lim : Nat} (hs : FreshRefs s.stw.flights lim) :
    FreshRefs (s.serveCapStop f).stw.flights lim := by
  simp only [State.serveCapStop]
  (repeat' split) <;> simp [hs]

@[simp] theorem State.endCtx_refs (s : State) (c : Ctx) {lim : Nat} (hs : FreshRefs s.stw.flights lim) :
    FreshRefs (s.endCtx c).stw.flights lim := by
  simp only [State.endCtx]
  (repeat' split) <;> simp [hs]

@[simp] theorem State.loseEngine_refs (s : State) (n detect target : Nat) (cs : List Ctx) {lim : Nat}
    (hs : FreshRefs s.stw.flights lim) :
    FreshRefs (s.loseEngine n detect target cs).stw.flights lim := by
  simp only [State.loseEngine]
  (repeat' split) <;> simp +contextual [foldl_refs, hs]

@[simp] theorem State.patchIn_refs (s : State) (e : Engine) (j : Nat) (p : Patch) (c old : Option Ckpt) {lim : Nat}
    (hs : FreshRefs s.stw.flights lim) :
    FreshRefs (s.patchIn e j p c old).stw.flights lim := by
  unfold State.patchIn
  split <;> simp [hs]

@[simp] theorem State.engineFault_refs (s : State) (n detect fault : Nat) (bad : Bool) {lim : Nat}
    (hs : FreshRefs s.stw.flights lim) :
    FreshRefs (s.engineFault n detect fault bad).stw.flights lim := by
  simp only [State.engineFault]
  (repeat' split) <;> simp [hs]

@[simp] theorem Input.run_refs (i : Input) (s : State) {lim : Nat} (hs : FreshRefs s.stw.flights lim) :
    FreshRefs (i.run s).stw.flights lim := by
  unfold Input.run
  split <;> simp [hs]

@[simp] theorem State.input_refs (s : State) (c : Ctx) (i j : Input) {lim : Nat} (hs : FreshRefs s.stw.flights lim) :
    FreshRefs (s.input c i j.run).stw.flights lim := by
  obtain ⟨x, y, h | h⟩ := s.input_cases c i j.run <;> rw [h] <;> simp [hs]

@[simp] theorem State.replay_refs (n : Nat) (s : State) (h : HeldInput) {lim : Nat} (hs : FreshRefs s.stw.flights lim) :
    FreshRefs (s.replay n h).stw.flights lim := by
  simp only [State.replay]
  (repeat' split) <;> simp [hs]

@[simp] theorem State.takeFlight_refs (s : State) (f : Flight) {lim : Nat} (hs : FreshRefs s.stw.flights lim) :
    FreshRefs (s.takeFlight f).stw.flights lim := by
  unfold State.takeFlight
  split <;> simp [hs]

@[simp] theorem State.pairTakes_refs (s : State) (n : Nat) {lim : Nat} (hs : FreshRefs s.stw.flights lim) :
    FreshRefs (s.pairTakes n).stw.flights lim := by
  simp only [State.pairTakes]
  (repeat' split) <;> simp +contextual [foldl_refs, hs]

@[simp] theorem State.pairFault_refs (s : State) (n detect interrupt : Nat) {lim : Nat} (hs : FreshRefs s.stw.flights lim) :
    FreshRefs (s.pairFault n detect interrupt).stw.flights lim := by
  simp only [State.pairFault]
  (repeat' split) <;> simp [hs]

@[simp] theorem State.pairBack_refs (s : State) (n : Nat) {lim : Nat} (hs : FreshRefs s.stw.flights lim) :
    FreshRefs (s.pairBack n).stw.flights lim := by
  simp only [State.pairBack]
  (repeat' split) <;> simp [hs]

@[simp] theorem State.serveFaultLog_refs (s : State) (f : Flight) {lim : Nat} (hs : FreshRefs s.stw.flights lim) :
    FreshRefs (s.serveFaultLog f).stw.flights lim := by
  simp only [State.serveFaultLog]
  (repeat' split) <;> simp [hs]

@[simp] theorem State.serveEngine_refs (s : State) (f : Flight) {lim : Nat} (hs : FreshRefs s.stw.flights lim) :
    FreshRefs (s.serveEngine f).stw.flights lim := by
  simp only [State.serveEngine]
  (repeat' split) <;> simp [hs]

@[simp] theorem State.serveMemdesc_refs (s : State) (f : Flight) {lim : Nat} (hs : FreshRefs s.stw.flights lim) :
    FreshRefs (s.serveMemdesc f).stw.flights lim := by
  unfold State.serveMemdesc
  split <;> simp [hs]

@[simp] theorem State.injectEngine_refs (s : State) (n : Nat) {lim : Nat} (hs : FreshRefs s.stw.flights lim) :
    FreshRefs (s.injectEngine n).stw.flights lim := by
  unfold State.injectEngine
  split <;> simp [hs]

@[simp] theorem State.injectPair_refs (s : State) (n : Nat) {lim : Nat} (hs : FreshRefs s.stw.flights lim) :
    FreshRefs (s.injectPair n).stw.flights lim := by
  unfold State.injectPair
  split <;> simp [hs]

@[simp] theorem State.injectPort_refs (s : State) (n : Nat) {lim : Nat} (hs : FreshRefs s.stw.flights lim) :
    FreshRefs (s.injectPort n).stw.flights lim := by
  unfold State.injectPort
  split <;> simp [hs]

@[simp] theorem State.inject_refs (s : State) (kind target : Nat) {lim : Nat} (hs : FreshRefs s.stw.flights lim) :
    FreshRefs (s.inject kind target).stw.flights lim := by
  unfold State.inject
  split <;> simp [hs]

@[simp] theorem State.jobUsed_refs (s : State) (j : Job) (st : Nat) (out : List Byte) {lim : Nat}
    (hs : FreshRefs s.stw.flights lim) :
    FreshRefs (s.jobUsed j st out).stw.flights lim := by
  simp only [State.jobUsed]
  (repeat' split) <;> simp [hs]

@[simp] theorem State.serveLoopSet_refs (s : State) (f : Flight) {lim : Nat} (hs : FreshRefs s.stw.flights lim) :
    FreshRefs (s.serveLoopSet f).stw.flights lim := by
  simp only [State.serveLoopSet]
  (repeat' split) <;> simp [hs]

@[simp] theorem State.serveCurveInfo_refs (s : State) (f : Flight) {lim : Nat} (hs : FreshRefs s.stw.flights lim) :
    FreshRefs (s.serveCurveInfo f).stw.flights lim := by
  simp only [State.serveCurveInfo]
  (repeat' split) <;> simp [hs]

@[simp] theorem State.serveResults_refs (s : State) (f : Flight) {lim : Nat} (hs : FreshRefs s.stw.flights lim) :
    FreshRefs (s.serveResults f).stw.flights lim := by
  simp only [State.serveResults]
  (repeat' split) <;> simp [hs]

@[simp] theorem State.recDone_refs (s : State) (w : LinWrite) {lim : Nat} (hs : FreshRefs s.stw.flights lim) :
    FreshRefs (s.recDone w).stw.flights lim := by
  simp only [State.recDone]
  (repeat' split) <;> simp [hs]

@[simp] theorem State.writeDone_refs (s : State) {lim : Nat} (hs : FreshRefs s.stw.flights lim) :
    FreshRefs (s.writeDone).stw.flights lim := by
  unfold State.writeDone
  split <;> simp [hs]

@[simp] theorem State.startAlarms_refs (s : State) (mesh sealBad : Bool) {lim : Nat} (hs : FreshRefs s.stw.flights lim) :
    FreshRefs (s.startAlarms mesh sealBad).stw.flights lim := by
  simp only [State.startAlarms]
  (repeat' split) <;> simp [hs]

@[simp] theorem State.startHandOver_refs (s : State) (c : Fam) (i : Nat) {lim : Nat} (hs : FreshRefs s.stw.flights lim) :
    FreshRefs (s.startHandOver c i).stw.flights lim := by
  unfold State.startHandOver
  split <;> simp [hs]

@[simp] theorem State.commitGo_refs (s : State) (c : Fam) (i : Nat) {lim : Nat} (hs : FreshRefs s.stw.flights lim) :
    FreshRefs (s.commitGo c i).stw.flights lim := by
  simp [State.commitGo, hs]

@[simp] theorem State.commitBoundary_refs (s : State) (c : Fam) (i : Nat) {lim : Nat} (hs : FreshRefs s.stw.flights lim) :
    FreshRefs (s.commitBoundary c i).stw.flights lim := by
  simp only [State.commitBoundary]
  (repeat' split) <;> simp [hs]

@[simp] theorem State.commitWrite_refs (s : State) (w : RegWrite) {lim : Nat} (hs : FreshRefs s.stw.flights lim) :
    FreshRefs (s.commitWrite w).stw.flights lim := by
  simp only [State.commitWrite]
  (repeat' split) <;> simp [hs]

@[simp] theorem State.hookPorts_refs (s old : State) (w : RegWrite) {lim : Nat} (hs : FreshRefs s.stw.flights lim) :
    FreshRefs (s.hookPorts old w).stw.flights lim := by
  simp only [State.hookPorts]
  (repeat' split) <;> simp [hs]

@[simp] theorem State.hookUnits_refs (s old : State) (w : RegWrite) {lim : Nat} (hs : FreshRefs s.stw.flights lim) :
    FreshRefs (s.hookUnits old w).stw.flights lim := by
  simp only [State.hookUnits]
  (repeat' split) <;> simp [hs]

@[simp] theorem State.writeReg_refs (s : State) (w : RegWrite) {lim : Nat} (hs : FreshRefs s.stw.flights lim) :
    FreshRefs (s.writeReg w).stw.flights lim := by
  simp only [State.writeReg]
  (repeat' split) <;> simp [hs]

@[simp] theorem State.writeAll_refs (s : State) (l : List RegWrite) {lim : Nat} (hs : FreshRefs s.stw.flights lim) :
    FreshRefs (s.writeAll l).stw.flights lim := by
  unfold State.writeAll
  extract_lets old t
  have ht : FreshRefs t.stw.flights lim := by
    refine foldl_refs _ (fun t w ht => ?_) _ _ hs
    split <;> simp [ht]
  refine foldl_refs _ (fun t n ht => ?_) _ _ ht
  split <;> simp [ht]

@[simp] theorem State.cfgRead_refs (s : State) (f : Flight) {lim : Nat} (hs : FreshRefs s.stw.flights lim) :
    FreshRefs (s.cfgRead f).stw.flights lim := by
  simp only [State.cfgRead]
  (repeat' split) <;> simp [hs]

@[simp] theorem State.applyWrites_refs (s : State) (f : Flight) (l : List RegWrite) (operand : List Byte) {lim : Nat}
    (hs : FreshRefs s.stw.flights lim) :
    FreshRefs (s.applyWrites f l operand).stw.flights lim := by
  simp only [State.applyWrites]
  (repeat' split) <;> simp [hs]

@[simp] theorem State.cfgWrite_refs (s : State) (f : Flight) {lim : Nat} (hs : FreshRefs s.stw.flights lim) :
    FreshRefs (s.cfgWrite f).stw.flights lim := by
  simp only [State.cfgWrite]
  (repeat' split) <;> simp [hs]

@[simp] theorem State.cfgModify_refs (s : State) (f : Flight) {lim : Nat} (hs : FreshRefs s.stw.flights lim) :
    FreshRefs (s.cfgModify f).stw.flights lim := by
  simp only [State.cfgModify]
  (repeat' split) <;> simp [hs]

@[simp] theorem State.waitAnswer_refs (s : State) (f : Flight) (v : Word) (met : Bool) {lim : Nat}
    (hs : FreshRefs s.stw.flights lim) :
    FreshRefs (s.waitAnswer f v met).stw.flights lim := by
  simp [State.waitAnswer, hs]

@[simp] theorem State.cfgWait_refs (s : State) (f : Flight) {lim : Nat} (hs : FreshRefs s.stw.flights lim) :
    FreshRefs (s.cfgWait f).stw.flights lim := by
  simp only [State.cfgWait]
  (repeat' split) <;> simp [hs]

@[simp] theorem State.memRead_refs (s : State) (fixed : List Nat) (f : Flight) {lim : Nat} (hs : FreshRefs s.stw.flights lim) :
    FreshRefs (s.memRead fixed f).stw.flights lim := by
  simp only [State.memRead]
  (repeat' split) <;> simp [hs]

@[simp] theorem State.memWrite_refs (s : State) (f : Flight) {lim : Nat} (hs : FreshRefs s.stw.flights lim) :
    FreshRefs (s.memWrite f).stw.flights lim := by
  simp only [State.memWrite]
  (repeat' split) <;> simp [hs]

@[simp] theorem State.memFence_refs (s : State) (f : Flight) {lim : Nat} (hs : FreshRefs s.stw.flights lim) :
    FreshRefs (s.memFence f).stw.flights lim := by
  unfold State.memFence
  split <;> simp [hs]

@[simp] theorem State.runDirect_refs (s : State) (fixed : List Nat) (f : Flight) {lim : Nat} (hs : FreshRefs s.stw.flights lim) :
    FreshRefs (s.runDirect fixed f).stw.flights lim := by
  unfold State.runDirect
  split <;> simp [hs]

@[simp] theorem State.arriveDirect_refs (s : State) (m : Inbound) (opcode need : Nat) (fixed : List Nat)
    (hs : FreshRefs s.stw.flights s.stw.nextRef) :
    FreshRefs (s.arriveDirect m opcode need fixed).stw.flights (s.arriveDirect m opcode need fixed).stw.nextRef := by
  unfold State.arriveDirect
  extract_lets hold
  have ha := s.accept_refs m opcode need true (if hold then .held else .waiting) hs
  split
  next r f e =>
    rw [e] at ha
    split <;> simp_all [Leaves, keep]
  next r e =>
    rw [e] at ha
    simp_all [Leaves, keep]

@[simp] theorem State.runHeld_refs (s : State) (slot gen : Nat) (fixed : List Nat) {lim : Nat}
    (hs : FreshRefs s.stw.flights lim) :
    FreshRefs (s.runHeld slot gen fixed).stw.flights lim := by
  unfold State.runHeld
  refine foldl_refs _ (fun t b ht => ?_) _ _ (by simp [hs])
  (repeat' split) <;> simp [ht]

@[simp] theorem State.waitRead_refs (s : State) (w : Wait) (f : Flight) (fixed : List Nat) {lim : Nat}
    (hs : FreshRefs s.stw.flights lim) :
    FreshRefs (s.waitRead w f fixed).stw.flights lim := by
  simp only [State.waitRead]
  (repeat' split) <;> simp [hs]

@[simp] theorem State.serve_refs (s : State) (f : Flight) {lim : Nat} (hs : FreshRefs s.stw.flights lim) :
    FreshRefs (s.serve f).stw.flights lim := by
  unfold State.serve
  split <;> simp [hs]

/-! ## The numbers of the air's downlinks -/

/-- The numbers of the air's downlinks lie below `n`, and are distinct. -/
def FreshIds (l : List AirDown) (n : Nat) : Prop := (∀ d ∈ l, d.id < n) ∧ (l.map (·.id)).Nodup

theorem foldl_ids {β : Type} (f : State → β → State) {r : Nat}
    (h : ∀ s b, FreshIds s.air.downs r → FreshIds (f s b).air.downs r) (l : List β) (s : State)
    (hs : FreshIds s.air.downs r) : FreshIds (l.foldl f s).air.downs r :=
  foldl_keeps (fun t => FreshIds t.air.downs r) f h l s hs

theorem FreshIds.map {l : List AirDown} {lim : Nat} (h : FreshIds l lim) (g : AirDown → AirDown) (hg : ∀ d, (g d).id = d.id) :
    FreshIds (l.map g) lim := by
  simp only [FreshIds, List.mem_map, forall_exists_index, and_imp, forall_apply_eq_imp_iff₂, List.map_map,
    Function.comp_def, hg] at h ⊢
  exact h

theorem FreshIds.filter {l : List AirDown} {lim : Nat} (h : FreshIds l lim) (p : AirDown → Bool) : FreshIds (l.filter p) lim :=
  ⟨fun f hf => h.1 f (List.mem_of_mem_filter hf), h.2.sublist (List.filter_sublist.map _)⟩

/-- A downlink added under the next number. -/
theorem FreshIds.append {l : List AirDown} {n : Nat} (h : FreshIds l n) {d : AirDown} (hd : d.id = n) :
    FreshIds (l ++ [d]) (n + 1) := by
  obtain ⟨hlt, hnd⟩ := h
  refine ⟨fun e he => ?_, ?_⟩
  · rcases List.mem_append.1 he with he | he
    · exact Nat.lt_succ_of_lt (hlt e he)
    · rw [List.mem_singleton.1 he, hd]
      exact Nat.lt_succ_self n
  · rw [List.map_append, List.nodup_append]
    refine ⟨hnd, List.nodup_singleton _, fun a ha b hb => ?_⟩
    obtain ⟨e, he, rfl⟩ := List.mem_map.1 ha
    simp only [List.mem_singleton.1 hb, hd]
    exact (hlt e he).ne

@[simp] theorem State.setDown_ids (s : State) (d : AirDown) {lim : Nat} (hs : FreshIds s.air.downs lim) :
    FreshIds (s.setDown d).air.downs lim :=
  hs.map _ fun e => by split <;> simp_all

@[simp] theorem State.dropDown_ids (s : State) (id : Nat) {lim : Nat} (hs : FreshIds s.air.downs lim) :
    FreshIds (s.dropDown id).air.downs lim :=
  hs.filter _

@[simp] theorem State.addDown_ids (s : State) (d : AirDown) (hs : FreshIds s.air.downs s.air.nextId) :
    FreshIds (s.addDown d).air.downs (s.addDown d).air.nextId :=
  hs.append rfl

@[simp] theorem State.setPlan_ids (s : State) (d : AirDown) (p : AirPlan) {lim : Nat} (hs : FreshIds s.air.downs lim) :
    FreshIds (s.setPlan d p).1.air.downs lim := by
  unfold State.setPlan
  split <;> simp [hs]

@[simp] theorem State.nextDown_ids (s : State) (ext n : Nat) {lim : Nat} (hs : FreshIds s.air.downs lim) :
    FreshIds (s.nextDown ext n).air.downs lim := by
  induction n generalizing s with
  | zero => exact hs
  | succ n ih =>
    simp only [State.nextDown]
    split; · exact hs
    next d _ _ =>
      split; · exact hs
      split
      next p _ =>
        have hp := State.setPlan_ids s d p hs
        split <;> simp [ih, hp]
      next => simp [ih, hs]

@[simp] theorem State.endDown_ids (s : State) (d : AirDown) (status : Nat) (result : Option Nat) {lim : Nat}
    (hs : FreshIds s.air.downs lim) :
    FreshIds (s.endDown d status result).air.downs lim := by
  unfold State.endDown
  split <;> simp [hs]

@[simp] theorem State.dutyRefused_ids (s : State) (d : AirDown) {lim : Nat} (hs : FreshIds s.air.downs lim) :
    FreshIds (s.dutyRefused d).air.downs lim := by
  unfold State.dutyRefused
  split <;> simp [hs]

@[simp] theorem State.planTry_ids (s : State) (d : AirDown) {lim : Nat} (hs : FreshIds s.air.downs lim) :
    FreshIds (s.planTry d).air.downs lim := by
  simp only [State.planTry]
  (repeat' split) <;> simp [hs]

@[simp] theorem State.airFailed_ids (s : State) (d : AirDown) {lim : Nat} (hs : FreshIds s.air.downs lim) :
    FreshIds (s.airFailed d).air.downs lim := by
  simp only [State.airFailed]
  (repeat' split) <;> simp [hs]

@[simp] theorem State.sendDown_ids (s : State) (d : AirDown) (p : AirPlan) {lim : Nat} (hs : FreshIds s.air.downs lim) :
    FreshIds (s.sendDown d p).air.downs lim := by
  simp [State.sendDown, hs]

@[simp] theorem State.relisten_ids (s : State) (n : Nat) {lim : Nat} (hs : FreshIds s.air.downs lim) :
    FreshIds (s.relisten n).air.downs lim := by
  unfold State.relisten
  refine foldl_ids _ (fun t b ht => ?_) _ _ (by simp [hs])
  (repeat' split) <;> simp [ht]

@[simp] theorem State.nextCopy_ids (s : State) (d : AirDown) (p : AirPlan) (fin : Nat) {lim : Nat}
    (hs : FreshIds s.air.downs lim) :
    FreshIds (s.nextCopy d p fin).air.downs lim := by
  simp only [State.nextCopy]
  (repeat' split) <;> simp [hs]

@[simp] theorem State.nextWake_ids (s : State) (d : AirDown) {lim : Nat} (hs : FreshIds s.air.downs lim) :
    FreshIds (s.nextWake d).air.downs lim := by
  unfold State.nextWake
  split <;> simp [hs]

@[simp] theorem State.skipCopy_ids (s : State) (d : AirDown) (p : AirPlan) {lim : Nat} (hs : FreshIds s.air.downs lim) :
    FreshIds (s.skipCopy d p).air.downs lim := by
  simp only [State.skipCopy]
  (repeat' split) <;> simp [hs]

@[simp] theorem State.skipBeacons_ids (s : State) (n : Nat) (p : AirDown → Bool) {lim : Nat} (hs : FreshIds s.air.downs lim) :
    FreshIds (s.skipBeacons n p).air.downs lim := by
  simp only [State.skipBeacons]
  (repeat' split) <;> simp +contextual [foldl_ids, hs]

@[simp] theorem State.staleBeacons_ids (s : State) (n : Nat) {lim : Nat} (hs : FreshIds s.air.downs lim) :
    FreshIds (s.staleBeacons n).air.downs lim := by
  simp [State.staleBeacons, hs]

@[simp] theorem State.startDown_ids (s : State) (n : Nat) (d : AirDown) (p : AirPlan) {lim : Nat}
    (hs : FreshIds s.air.downs lim) :
    FreshIds (s.startDown n d p).air.downs lim := by
  simp only [State.startDown]
  (repeat' split) <;> simp [hs]

@[simp] theorem State.openWindow_ids (s : State) (ext short n m at_ : Nat) (hs : FreshIds s.air.downs s.air.nextId) :
    FreshIds (s.openWindow ext short n m at_).air.downs (s.openWindow ext short n m at_).air.nextId := by
  unfold State.openWindow
  extract_lets w air s1 capable dg q body mac s2 free mine order first s3
  have h1 : FreshIds s1.air.downs s1.air.nextId := by simpa [s1, air] using hs
  have h2 : FreshIds s2.air.downs s2.air.nextId := by
    simp only [s2, q]
    split <;> simp [h1]
  have h3 : FreshIds s3.air.downs s3.air.nextId := by
    refine foldl_keeps (fun t => FreshIds t.air.downs t.air.nextId) _ (fun t d ht => ?_) _ _ h2
    simp [ht]
  clear_value s3 first order mine s2 mac body q dg capable s1
  split
  · exact h3
  · extract_lets r
    have hr : FreshIds r.1.air.downs r.1.air.nextId := by simp [r, h3]
    clear_value r
    split <;> simp [hr]

@[simp] theorem State.downSent_ids (s : State) (id start fin : Nat) {lim : Nat} (hs : FreshIds s.air.downs lim) :
    FreshIds (s.downSent id start fin).air.downs lim := by
  simp only [State.downSent]
  (repeat' split) <;> simp [hs]

@[simp] theorem State.airDownlink_ids (s : State) (f : Flight) (short : Nat) (x : Sensor)
    (hs : FreshIds s.air.downs s.air.nextId) :
    FreshIds (s.airDownlink f short x).air.downs (s.airDownlink f short x).air.nextId := by
  simp only [State.airDownlink]
  (repeat' split) <;> simp [hs]

@[simp] theorem State.airSealed_ids (s : State) (id status : Nat) (nonce out : List Byte) {lim : Nat}
    (hs : FreshIds s.air.downs lim) :
    FreshIds (s.airSealed id status nonce out).air.downs lim := by
  simp only [State.airSealed]
  (repeat' split) <;> simp [hs]

@[simp] theorem State.serveAirDownlink_ids (s : State) (f : Flight) (hs : FreshIds s.air.downs s.air.nextId) :
    FreshIds (s.serveAirDownlink f).air.downs (s.serveAirDownlink f).air.nextId := by
  simp only [State.serveAirDownlink]
  (repeat' split) <;> simp [hs]

@[simp] theorem State.expireAir_ids (s : State) (ref : Nat) {lim : Nat} (hs : FreshIds s.air.downs lim) :
    FreshIds (s.expireAir ref).air.downs lim := by
  simp only [State.expireAir]
  (repeat' split) <;> simp [hs]

@[simp] theorem State.cutSends_ids (s : State) (n : Nat) (sent : Bool) {lim : Nat} (hs : FreshIds s.air.downs lim) :
    FreshIds (s.cutSends n sent).air.downs lim := by
  unfold State.cutSends
  extract_lets p tails t copied u v
  have hu : FreshIds u.air.downs lim := by
    refine foldl_ids _ (fun t x ht => ?_) _ _ (by simp [t, hs])
    (repeat' split) <;> simp [ht]
  exact foldl_ids _ (fun t d ht => by simp [ht]) _ _ (by simp [v, hu])

@[simp] theorem State.airStop_ids (s : State) (n : Nat) {lim : Nat} (hs : FreshIds s.air.downs lim) :
    FreshIds (s.airStop n).air.downs lim := by
  simp [State.airStop, hs]

@[simp] theorem State.answerAssoc_ids (s : State) (n m ext short status : Nat) (hs : FreshIds s.air.downs s.air.nextId) :
    FreshIds (s.answerAssoc n m ext short status).air.downs (s.answerAssoc n m ext short status).air.nextId := by
  have h := hs.filter fun d => !(decide (d.ext = ext) && decide (d.job = .assoc) && decide (d.stage = .queued))
  simp only [State.answerAssoc]
  exact State.addDown_ids _ _ (by simpa using h)

@[simp] theorem State.assocReq_ids (s : State) (n m ext : Nat) (sleepy : Bool) (wake clk : Nat)
    (hs : FreshIds s.air.downs s.air.nextId) :
    FreshIds (s.assocReq n m ext sleepy wake clk).air.downs (s.assocReq n m ext sleepy wake clk).air.nextId := by
  simp only [State.assocReq]
  (repeat' split) <;> simp [hs]

@[simp] theorem State.downAcked_ids (s : State) (d : AirDown) (fin : Nat) (hs : FreshIds s.air.downs s.air.nextId) :
    FreshIds (s.downAcked d fin).air.downs (s.downAcked d fin).air.nextId := by
  unfold State.downAcked
  extract_lets t sc u v
  have hu : FreshIds u.air.downs u.air.nextId := by
    simp only [u, t]
    (repeat' split) <;> simp [hs]
  have hv : FreshIds v.air.downs v.air.nextId := by
    simp only [v]
    split <;> simp [hu]
  simp [hv]

@[simp] theorem State.airAccepted_ids (s : State) (n m phr ts fin margin : Nat) (f : MacFrame)
    (hs : FreshIds s.air.downs s.air.nextId) :
    FreshIds (s.airAccepted n m phr ts fin margin f).air.downs (s.airAccepted n m phr ts fin margin f).air.nextId := by
  simp only [State.airAccepted]
  (repeat' split) <;> simp [hs]

@[simp] theorem State.airFrame_ids (s : State) (n m phr ts fin margin : Nat) (mac : List Byte)
    (hs : FreshIds s.air.downs s.air.nextId) :
    FreshIds (s.airFrame n m phr ts fin margin mac).air.downs (s.airFrame n m phr ts fin margin mac).air.nextId := by
  simp only [State.airFrame]
  (repeat' split) <;> simp [hs]

@[simp] theorem State.serveDisassociate_ids (s : State) (f : Flight) (hs : FreshIds s.air.downs s.air.nextId) :
    FreshIds (s.serveDisassociate f).air.downs (s.serveDisassociate f).air.nextId := by
  simp only [State.serveDisassociate]
  (repeat' split) <;> simp [hs]

@[simp] theorem State.addDigest_ids (s : State) (short : Nat) (x : Sensor) (seq margin : Nat)
    (hs : FreshIds s.air.downs s.air.nextId) :
    FreshIds (s.addDigest short x seq margin).air.downs (s.addDigest short x seq margin).air.nextId := by
  simp only [State.addDigest]
  (repeat' split) <;> simp [hs]

@[simp] theorem State.deliverHome_ids (s : State) (cepoch cns ext margin : Nat) (mac : List Byte)
    (hs : FreshIds s.air.downs s.air.nextId) :
    FreshIds (s.deliverHome cepoch cns ext margin mac).1.air.downs (s.deliverHome cepoch cns ext margin mac).1.air.nextId := by
  simp only [State.deliverHome]
  (repeat' split) <;> simp [hs]

@[simp] theorem State.resultHome_ids (s : State) (b : List Byte) (hs : FreshIds s.air.downs s.air.nextId) :
    FreshIds (s.resultHome b).1.air.downs (s.resultHome b).1.air.nextId := by
  simp [State.resultHome, hs]

@[simp] theorem State.sendResult_ids (s : State) (g : Machine.Group) (mac : List Byte) (hs : FreshIds s.air.downs s.air.nextId) :
    FreshIds (s.sendResult g mac).air.downs (s.sendResult g mac).air.nextId := by
  simp only [State.sendResult]
  (repeat' split) <;> simp [hs]

@[simp] theorem State.tryGroup_ids (s : State) (g : Machine.Group) (hs : FreshIds s.air.downs s.air.nextId) :
    FreshIds (s.tryGroup g).air.downs (s.tryGroup g).air.nextId := by
  simp only [State.tryGroup]
  (repeat' split) <;> simp [hs]

@[simp] theorem State.attemptDue_ids (s : State) (num : Nat) (hs : FreshIds s.air.downs s.air.nextId) :
    FreshIds (s.attemptDue num).air.downs (s.attemptDue num).air.nextId := by
  simp only [State.attemptDue]
  (repeat' split) <;> simp [hs]

@[simp] theorem State.fragment_ids (s : State) (station : Nat) (b : List Byte) (hs : FreshIds s.air.downs s.air.nextId) :
    FreshIds (s.fragment station b).air.downs (s.fragment station b).air.nextId := by
  simp only [State.fragment]
  split; · simp [hs]
  split; · (repeat' split) <;> simp [hs]
  split; · simp [hs]
  have h := s.enterCopy_leaves station (scHead b)
  split
  next u k e =>
    rw [e] at h
    simp only [Leaves, keep] at h
    simp [h, hs]
  next u e =>
    rw [e] at h
    simp only [Leaves, keep] at h
    simp [h, hs]

@[simp] theorem State.scForward_ids (s : State) (n m phr ts : Nat) (soft : List Int) (snr : Int)
    (hs : FreshIds s.air.downs s.air.nextId) :
    FreshIds (s.scForward n m phr ts soft snr).air.downs (s.scForward n m phr ts soft snr).air.nextId := by
  unfold State.scForward
  extract_lets minSnr len raw hard planes rxid phy head sc t u h
  have hu : FreshIds u.air.downs u.air.nextId := by simp [u, t, hs]
  split; · exact hs
  split
  · have h' := u.enterCopy_leaves u.station h
    split
    next v k e =>
      rw [e] at h'
      simp only [Leaves, keep] at h'
      simp [h', hu]
    next v e =>
      rw [e] at h'
      simp only [Leaves, keep] at h'
      simp [h', hu]
  · split
    · exact hu
    · exact foldl_keeps (fun t => FreshIds t.air.downs t.air.nextId) _ (fun t p ht => by simp [ht]) _ _ hu

@[simp] theorem State.airFcs_ids (s : State) (n m : Nat) (soft : List Int) (snr : Int) (hs : FreshIds s.air.downs s.air.nextId) :
    FreshIds (s.airFcs n m soft snr).air.downs (s.airFcs n m soft snr).air.nextId := by
  simp only [State.airFcs]
  (repeat' split) <;> simp [hs]

@[simp] theorem Input.run_ids (i : Input) (s : State) (hs : FreshIds s.air.downs s.air.nextId) :
    FreshIds (i.run s).air.downs (i.run s).air.nextId := by
  unfold Input.run
  split <;> simp [hs]

@[simp] theorem State.input_ids (s : State) (c : Ctx) (i j : Input) (hs : FreshIds s.air.downs s.air.nextId) :
    FreshIds (s.input c i j.run).air.downs (s.input c i j.run).air.nextId := by
  obtain ⟨x, y, h | h⟩ := s.input_cases c i j.run <;> rw [h] <;> simp [hs]

@[simp] theorem State.replay_ids (n : Nat) (s : State) (h : HeldInput) (hs : FreshIds s.air.downs s.air.nextId) :
    FreshIds (s.replay n h).air.downs (s.replay n h).air.nextId := by
  simp only [State.replay]
  (repeat' split) <;> simp [hs]

@[simp] theorem State.jobUsed_ids (s : State) (j : Job) (st : Nat) (out : List Byte) {lim : Nat} (hs : FreshIds s.air.downs lim) :
    FreshIds (s.jobUsed j st out).air.downs lim := by
  simp only [State.jobUsed]
  (repeat' split) <;> simp [hs]

@[simp] theorem State.recDone_ids (s : State) (w : LinWrite) {lim : Nat} (hs : FreshIds s.air.downs lim) :
    FreshIds (s.recDone w).air.downs lim := by
  simp only [State.recDone]
  (repeat' split) <;> simp [hs]

@[simp] theorem State.writeDone_ids (s : State) {lim : Nat} (hs : FreshIds s.air.downs lim) :
    FreshIds (s.writeDone).air.downs lim := by
  unfold State.writeDone
  split <;> simp [hs]

@[simp] theorem State.hookPorts_ids (s old : State) (w : RegWrite) {lim : Nat} (hs : FreshIds s.air.downs lim) :
    FreshIds (s.hookPorts old w).air.downs lim := by
  simp only [State.hookPorts]
  (repeat' split) <;> simp [hs]

@[simp] theorem State.writeReg_ids (s : State) (w : RegWrite) {lim : Nat} (hs : FreshIds s.air.downs lim) :
    FreshIds (s.writeReg w).air.downs lim := by
  simp only [State.writeReg]
  (repeat' split) <;> simp [hs]

@[simp] theorem State.writeAll_ids (s : State) (l : List RegWrite) {lim : Nat} (hs : FreshIds s.air.downs lim) :
    FreshIds (s.writeAll l).air.downs lim := by
  unfold State.writeAll
  extract_lets old t
  have ht : FreshIds t.air.downs lim := by
    refine foldl_ids _ (fun t w ht => ?_) _ _ hs
    split <;> simp [ht]
  refine foldl_ids _ (fun t n ht => ?_) _ _ ht
  split <;> simp [ht]

@[simp] theorem State.applyWrites_ids (s : State) (f : Flight) (l : List RegWrite) (operand : List Byte) {lim : Nat}
    (hs : FreshIds s.air.downs lim) :
    FreshIds (s.applyWrites f l operand).air.downs lim := by
  simp only [State.applyWrites]
  (repeat' split) <;> simp [hs]

@[simp] theorem State.cfgWrite_ids (s : State) (f : Flight) {lim : Nat} (hs : FreshIds s.air.downs lim) :
    FreshIds (s.cfgWrite f).air.downs lim := by
  simp only [State.cfgWrite]
  (repeat' split) <;> simp [hs]

@[simp] theorem State.cfgModify_ids (s : State) (f : Flight) {lim : Nat} (hs : FreshIds s.air.downs lim) :
    FreshIds (s.cfgModify f).air.downs lim := by
  simp only [State.cfgModify]
  (repeat' split) <;> simp [hs]

@[simp] theorem State.runDirect_ids (s : State) (fixed : List Nat) (f : Flight) {lim : Nat} (hs : FreshIds s.air.downs lim) :
    FreshIds (s.runDirect fixed f).air.downs lim := by
  unfold State.runDirect
  split <;> simp [hs]

@[simp] theorem State.arriveDirect_ids (s : State) (m : Inbound) (opcode need : Nat) (fixed : List Nat) {lim : Nat}
    (hs : FreshIds s.air.downs lim) :
    FreshIds (s.arriveDirect m opcode need fixed).air.downs lim := by
  unfold State.arriveDirect
  extract_lets hold
  have h := s.accept_leaves m opcode need true (if hold then .held else .waiting)
  split
  next r f e =>
    rw [e] at h
    split <;> simp_all [Leaves, keep]
  next r e =>
    rw [e] at h
    simp_all [Leaves, keep]

@[simp] theorem State.runHeld_ids (s : State) (slot gen : Nat) (fixed : List Nat) {lim : Nat} (hs : FreshIds s.air.downs lim) :
    FreshIds (s.runHeld slot gen fixed).air.downs lim := by
  unfold State.runHeld
  refine foldl_ids _ (fun t b ht => ?_) _ _ (by simp [hs])
  (repeat' split) <;> simp [ht]

@[simp] theorem State.waitRead_ids (s : State) (w : Wait) (f : Flight) (fixed : List Nat) {lim : Nat}
    (hs : FreshIds s.air.downs lim) :
    FreshIds (s.waitRead w f fixed).air.downs lim := by
  simp only [State.waitRead]
  (repeat' split) <;> simp [hs]

@[simp] theorem State.serve_ids (s : State) (f : Flight) (hs : FreshIds s.air.downs s.air.nextId) :
    FreshIds (s.serve f).air.downs (s.serve f).air.nextId := by
  unfold State.serve
  split <;> simp [hs]

end Sys2Proof.Machine
end

section
/-!
SUPPORT. Every command as a step: the queue, the clock and the invariants; statements O1, O2, O58, O59 and O60.

`StepsOn` holds of each command but START_SEQUENCE, which lays the device out anew: after it the clock starts again and the invariants
hold of empty lists (`State.start_ready`).
-/

namespace Sys2Proof.Machine

-- Proofs one after another: the text is long, and is checked in bounded memory.
set_option Elab.async false

open Sys2Proof

/-- What every operation keeps: the queue of commands, the clock, and the invariants. -/
def Steady (s u : State) : Prop :=
  u.pending = s.pending ∧ u.now = s.now ∧ (Canon s.mem.cells → Canon u.mem.cells) ∧
  (FreshRefs s.stw.flights s.stw.nextRef → FreshRefs u.stw.flights u.stw.nextRef) ∧
  (FreshIds s.air.downs s.air.nextId → FreshIds u.air.downs u.air.nextId)

theorem Steady.trans {s u v : State} (h : Steady s u) (k : Steady u v) : Steady s v := by
  obtain ⟨hp, hn, hc, hr, hi⟩ := h
  obtain ⟨kp, kn, kc, kr, ki⟩ := k
  exact ⟨kp.trans hp, kn.trans hn, kc ∘ hc, kr ∘ hr, ki ∘ hi⟩

theorem foldl_steady {α : Type} (f : State → α → State) (xs : List α) (s : State) (h : ∀ s x, Steady s (f s x)) :
    Steady s (xs.foldl f s) := by
  induction xs generalizing s with
  | nil => simp [Steady]
  | cons x xs ih => exact (h s x).trans (ih (f s x))

theorem ite_steady {s u v : State} {c : Prop} [Decidable c] (h : Steady s u) (k : Steady s v) :
    Steady s (if c then u else v) := by
  split
  · exact h
  · exact k

/-- A command that answers a next state keeps the queue and the invariants, and does not turn the clock back. -/
def StepsOn (s : State) (r : Host.Outcome State Fault Refusal) : Prop :=
  ∃ u, r = .next u ∧ u.pending = s.pending ∧ s.now ≤ u.now ∧ (Canon s.mem.cells → Canon u.mem.cells) ∧
    (FreshRefs s.stw.flights s.stw.nextRef → FreshRefs u.stw.flights u.stw.nextRef) ∧
    (FreshIds s.air.downs s.air.nextId → FreshIds u.air.downs u.air.nextId)

theorem whenOn_stepsOn (t : Nat) (f : State → State) (s : State) (h : ∀ s, Steady s (f s)) : StepsOn s (whenOn t f s) := by
  refine ⟨_, rfl, ?_⟩
  split
  · obtain ⟨hp, hn, hc, hr, hi⟩ := h (s.tick t)
    refine ⟨by simpa using hp, ?_, by simpa using hc, by simpa using hr, by simpa using hi⟩
    rw [hn]
    exact le_max_left _ _
  · simp

theorem sessionMsg_steady (s : State) (m : Inbound) (opcode : Nat) (f : State → Session → State)
    (h : ∀ s x, Steady s (f s x)) : Steady s (s.sessionMsg m opcode f) := by
  unfold State.sessionMsg
  split; · simp [Steady]
  split; · simp [Steady]
  split; · simp [Steady]
  dsimp only
  split
  next x _ => simpa [Steady] using h (s.heard m) x
  next => simp [Steady]

theorem input_steady (s : State) (c : Ctx) (i : Input) (f : State → State)
    (h : ∀ s, Steady s (f s)) : Steady s (s.input c i f) := by
  obtain ⟨x, y, e | e⟩ := s.input_cases c i f <;> rw [e]
  · exact h { s with fau := x }
  · simp [Steady]

theorem seamRx_stepsOn (t : Nat) (m : SeamMsg) (f : State → State) (s : State)
    (h : ∀ s, Steady s (f s)) : StepsOn s (seamRx t m f s) :=
  whenOn_stepsOn _ _ _ fun s => by
    split
    · simp [Steady]
    · split
      · simpa [Steady] using h (s.noteSeam m)
      · simp [Steady]

@[simp] theorem execSessionOpen_stepsOn (t : Nat) (m : Inbound) (s : State) : StepsOn s (execSessionOpen t m s) := by
  refine whenOn_stepsOn _ _ _ fun s => ?_
  (repeat' split) <;> simp +contextual [Steady]

@[simp] theorem execSessionClose_stepsOn (t : Nat) (m : Inbound) (s : State) : StepsOn s (execSessionClose t m s) := by
  refine whenOn_stepsOn _ _ _ fun s => ?_
  exact sessionMsg_steady _ _ _ _ fun s x => by simp +contextual [Steady]

@[simp] theorem execSessionKeepalive_stepsOn (t : Nat) (m : Inbound) (s : State) : StepsOn s (execSessionKeepalive t m s) := by
  refine whenOn_stepsOn _ _ _ fun s => ?_
  exact sessionMsg_steady _ _ _ _ fun s x => by simp +contextual [Steady]

@[simp] theorem execAckMessage_stepsOn (t : Nat) (m : Inbound) (s : State) : StepsOn s (execAckMessage t m s) := by
  refine whenOn_stepsOn _ _ _ fun s => ?_
  dsimp only
  (repeat' split) <;> simp +contextual [Steady]

@[simp] theorem execSessionIdleExpiry_stepsOn (t slot : Nat) (s : State) : StepsOn s (execSessionIdleExpiry t slot s) := by
  refine whenOn_stepsOn _ _ _ fun s => ?_
  (repeat' split) <;> simp +contextual [Steady]

@[simp] theorem execPendingTimeout_stepsOn (t slot tag : Nat) (s : State) : StepsOn s (execPendingTimeout t slot tag s) := by
  refine whenOn_stepsOn _ _ _ fun s => ?_
  (repeat' split) <;> simp +contextual [Steady]

@[simp] theorem execEventResend_stepsOn (t slot seq : Nat) (s : State) : StepsOn s (execEventResend t slot seq s) := by
  refine whenOn_stepsOn _ _ _ fun s => ?_
  (repeat' split) <;> simp +contextual [Steady]

@[simp] theorem execRecordResend_stepsOn (t slot seq : Nat) (s : State) : StepsOn s (execRecordResend t slot seq s) := by
  refine whenOn_stepsOn _ _ _ fun s => ?_
  (repeat' split) <;> simp +contextual [Steady]

@[simp] theorem execUndefinedCommand_stepsOn (t : Nat) (m : Inbound) (session : Bool) (opcode : Nat) (s : State) :
    StepsOn s (execUndefinedCommand t m session opcode s) := by
  refine whenOn_stepsOn _ _ _ fun s => ?_
  dsimp only
  (repeat' split) <;> try simp +contextual [Steady]
  · exact sessionMsg_steady _ _ _ _ fun s x => by simp +contextual [Steady]
  next h => simp [State.tagChecks_leaves h]

@[simp] theorem execEthFrameDiscard_stepsOn (t : Nat) (f : EthFrame) (s : State) : StepsOn s (execEthFrameDiscard t f s) := by
  refine whenOn_stepsOn _ _ _ fun s => ?_
  (repeat' split) <;> simp +contextual [Steady]

@[simp] theorem execArpRequest_stepsOn (t port mac ip target : Nat) (s : State) :
    StepsOn s (execArpRequest t port mac ip target s) := by
  refine whenOn_stepsOn _ _ _ fun s => ?_
  dsimp only
  (repeat' split) <;> simp +contextual [Steady]

@[simp] theorem execNeighbourSolicitation_stepsOn (t port mac ip target : Nat) (s : State) :
    StepsOn s (execNeighbourSolicitation t port mac ip target s) := by
  refine whenOn_stepsOn _ _ _ fun s => ?_
  dsimp only
  (repeat' split) <;> simp +contextual [Steady]

@[simp] theorem execTamperMeshOpen_stepsOn (t : Nat) (s : State) : StepsOn s (execTamperMeshOpen t s) := by
  refine whenOn_stepsOn _ _ _ fun s => ?_
  (repeat' split) <;> simp +contextual [Steady]

@[simp] theorem execSupplyAlarm_stepsOn (t supply : Nat) (reading : SupplyReading) (s : State) :
    StepsOn s (execSupplyAlarm t supply reading s) := by
  refine ⟨_, rfl, ?_⟩
  have h (s : State) : Steady s (s.supplyAt supply reading.uv) := by simp +contextual [Steady]
  dsimp only
  split; · simp
  split
  · simpa [Steady] using h (s.tick t)
  · simpa [Steady] using h s

@[simp] theorem execTemperatureAlarm_stepsOn (t : Nat) (celsius : Int) (s : State) :
    StepsOn s (execTemperatureAlarm t celsius s) := by
  refine whenOn_stepsOn _ _ _ fun s => ?_
  (repeat' split) <;> simp +contextual [Steady]

@[simp] theorem execLiningTamperCheck_stepsOn (t : Nat) (sealOk : Bool) (s : State) :
    StepsOn s (execLiningTamperCheck t sealOk s) := by
  refine whenOn_stepsOn _ _ _ fun s => ?_
  (repeat' split) <;> simp +contextual [Steady]

@[simp] theorem execAlarmWrappedKeyClear_stepsOn (t : Nat) (s : State) : StepsOn s (execAlarmWrappedKeyClear t s) := by
  refine whenOn_stepsOn _ _ _ fun s => ?_
  (repeat' split) <;> simp +contextual [Steady]

@[simp] theorem execAlarmCauseRemoved_stepsOn (t source : Nat) (s : State) : StepsOn s (execAlarmCauseRemoved t source s) := by
  exact ⟨_, rfl, by simp⟩

@[simp] theorem execKeyLoad_stepsOn (t : Nat) (m : Inbound) (s : State) : StepsOn s (execKeyLoad t m s) := by
  refine whenOn_stepsOn _ _ _ fun s => ?_
  simp +contextual [Steady]

@[simp] theorem execKeyDelete_stepsOn (t : Nat) (m : Inbound) (s : State) : StepsOn s (execKeyDelete t m s) := by
  refine whenOn_stepsOn _ _ _ fun s => ?_
  simp +contextual [Steady]

@[simp] theorem execKeyStatus_stepsOn (t : Nat) (m : Inbound) (s : State) : StepsOn s (execKeyStatus t m s) := by
  refine whenOn_stepsOn _ _ _ fun s => ?_
  simp +contextual [Steady]

@[simp] theorem execKeyRootProvision_stepsOn (t : Nat) (m : Inbound) (s : State) : StepsOn s (execKeyRootProvision t m s) := by
  refine whenOn_stepsOn _ _ _ fun s => ?_
  simp +contextual [Steady]

@[simp] theorem execKeyAlarm_stepsOn (t : Nat) (m : Inbound) (s : State) : StepsOn s (execKeyAlarm t m s) := by
  refine whenOn_stepsOn _ _ _ fun s => ?_
  simp +contextual [Steady]

@[simp] theorem execCipherJobSubmit_stepsOn (t : Nat) (desc : List Byte) (s : State) :
    StepsOn s (execCipherJobSubmit t desc s) := by
  refine whenOn_stepsOn _ _ _ fun s => ?_
  simp +contextual [Steady]

@[simp] theorem execCipherJobStart_stepsOn (t : Nat) (s : State) : StepsOn s (execCipherJobStart t s) := by
  refine whenOn_stepsOn _ _ _ fun s => ?_
  (repeat' split) <;> simp +contextual [Steady]

@[simp] theorem execHostRingEnable_stepsOn (t : Nat) (s : State) : StepsOn s (execHostRingEnable t s) := by
  refine whenOn_stepsOn _ _ _ fun s => ?_
  (repeat' split) <;> simp +contextual [Steady]

@[simp] theorem execHostRingDisable_stepsOn (t : Nat) (s : State) : StepsOn s (execHostRingDisable t s) := by
  refine whenOn_stepsOn _ _ _ fun s => ?_
  simp +contextual [Steady]

@[simp] theorem execHostRingDoorbell_stepsOn (t tail : Nat) (s : State) : StepsOn s (execHostRingDoorbell t tail s) := by
  refine whenOn_stepsOn _ _ _ fun s => ?_
  (repeat' split) <;> simp +contextual [Steady]

@[simp] theorem execCheckJob_stepsOn (t poly : Nat) (fold data : List Byte) (want : Option Nat) (s : State) :
    StepsOn s (execCheckJob t poly fold data want s) := by
  refine whenOn_stepsOn _ _ _ fun s => ?_
  (repeat' split) <;> simp +contextual [Steady]

@[simp] theorem execMainsCrossing_stepsOn (t phase : Nat) (seen : Option Nat) (ampl : Nat) (s : State) :
    StepsOn s (execMainsCrossing t phase seen ampl s) := by
  refine whenOn_stepsOn _ _ _ fun s => ?_
  (repeat' split) <;> simp +contextual [Steady]

@[simp] theorem execMnsEnable_stepsOn (t : Nat) (s : State) : StepsOn s (execMnsEnable t s) := by
  refine whenOn_stepsOn _ _ _ fun s => ?_
  (repeat' split) <;> simp +contextual [Steady]

@[simp] theorem execMnsDisable_stepsOn (t : Nat) (s : State) : StepsOn s (execMnsDisable t s) := by
  refine whenOn_stepsOn _ _ _ fun s => ?_
  (repeat' split) <;> simp +contextual [Steady]

@[simp] theorem execMnsSrcChange_stepsOn (t port src : Nat) (s : State) : StepsOn s (execMnsSrcChange t port src s) := by
  refine whenOn_stepsOn _ _ _ fun s => ?_
  dsimp only
  exact ite_steady (by simp [Steady]) (by simp +contextual [Steady])

@[simp] theorem execSeaEnable_stepsOn (t : Nat) (s : State) : StepsOn s (execSeaEnable t s) := by
  refine whenOn_stepsOn _ _ _ fun s => ?_
  (repeat' split) <;> simp +contextual [Steady]

@[simp] theorem execSeaDisable_stepsOn (t : Nat) (s : State) : StepsOn s (execSeaDisable t s) := by
  refine whenOn_stepsOn _ _ _ fun s => ?_
  (repeat' split) <;> simp +contextual [Steady]

@[simp] theorem execHelloDue_stepsOn (t : Nat) (s : State) : StepsOn s (execHelloDue t s) := by
  refine whenOn_stepsOn _ _ _ fun s => ?_
  (repeat' split) <;> simp +contextual [Steady]

@[simp] theorem execHelloRx_stepsOn (t : Nat) (m : SeamMsg) (s : State) : StepsOn s (execHelloRx t m s) := by
  refine whenOn_stepsOn _ _ _ fun s => ?_
  dsimp only
  (repeat' split) <;> simp +contextual [Steady]

@[simp] theorem execMemberSilent_stepsOn (t station : Nat) (s : State) : StepsOn s (execMemberSilent t station s) := by
  refine whenOn_stepsOn _ _ _ fun s => ?_
  (repeat' split) <;> simp +contextual [Steady]

@[simp] theorem execListenTimeout_stepsOn (t : Nat) (s : State) : StepsOn s (execListenTimeout t s) := by
  refine whenOn_stepsOn _ _ _ fun s => ?_
  (repeat' split) <;> simp +contextual [Steady]

@[simp] theorem execSeamJoinReqDue_stepsOn (t : Nat) (s : State) : StepsOn s (execSeamJoinReqDue t s) := by
  refine whenOn_stepsOn _ _ _ fun s => ?_
  (repeat' split) <;> simp +contextual [Steady]

@[simp] theorem execSeamJoinReq_stepsOn (t : Nat) (m : SeamMsg) (s : State) : StepsOn s (execSeamJoinReq t m s) := by
  refine seamRx_stepsOn _ _ _ _ fun s => ?_
  dsimp only
  (repeat' split) <;> simp +contextual [Steady]

@[simp] theorem execJoinAck_stepsOn (t : Nat) (m : SeamMsg) (s : State) : StepsOn s (execJoinAck t m s) := by
  refine seamRx_stepsOn _ _ _ _ fun s => ?_
  dsimp only
  (repeat' split) <;> simp +contextual [Steady]

@[simp] theorem execSeamLeave_stepsOn (t : Nat) (m : SeamMsg) (s : State) : StepsOn s (execSeamLeave t m s) := by
  refine seamRx_stepsOn _ _ _ _ fun s => ?_
  (repeat' split) <;> simp +contextual [Steady]

@[simp] theorem execDeputyAppoint_stepsOn (t : Nat) (m : SeamMsg) (s : State) : StepsOn s (execDeputyAppoint t m s) := by
  refine seamRx_stepsOn _ _ _ _ fun s => ?_
  (repeat' split) <;> simp +contextual [Steady]

@[simp] theorem execDeputySyncDone_stepsOn (t last : Nat) (copy : List Byte) (s : State) :
    StepsOn s (execDeputySyncDone t last copy s) := by
  refine whenOn_stepsOn _ _ _ fun s => ?_
  (repeat' split) <;> simp +contextual [Steady]

@[simp] theorem execMirror_stepsOn (t : Nat) (m : SeamMsg) (s : State) : StepsOn s (execMirror t m s) := by
  refine seamRx_stepsOn _ _ _ _ fun s => ?_
  dsimp only
  (repeat' split) <;> simp +contextual [Steady]

@[simp] theorem execMirrorAck_stepsOn (t : Nat) (m : SeamMsg) (s : State) : StepsOn s (execMirrorAck t m s) := by
  refine seamRx_stepsOn _ _ _ _ fun s => ?_
  (repeat' split) <;> simp +contextual [Steady]

@[simp] theorem execMirrorResend_stepsOn (t : Nat) (s : State) : StepsOn s (execMirrorResend t s) := by
  refine whenOn_stepsOn _ _ _ fun s => ?_
  dsimp only
  (repeat' split) <;> simp +contextual [Steady]

@[simp] theorem execMirrorTimeout_stepsOn (t : Nat) (s : State) : StepsOn s (execMirrorTimeout t s) := by
  refine whenOn_stepsOn _ _ _ fun s => ?_
  (repeat' split) <;> simp +contextual [Steady]

@[simp] theorem execClusterBeaconDue_stepsOn (t : Nat) (s : State) : StepsOn s (execClusterBeaconDue t s) := by
  refine whenOn_stepsOn _ _ _ fun s => ?_
  dsimp only
  (repeat' split) <;> simp +contextual [Steady]

@[simp] theorem execClusterBeaconRx_stepsOn (t : Nat) (m : SeamMsg) (s : State) : StepsOn s (execClusterBeaconRx t m s) := by
  refine seamRx_stepsOn _ _ _ _ fun s => ?_
  dsimp only
  (repeat' split) <;> simp +contextual [Steady]

@[simp] theorem execBeaconMiss_stepsOn (t : Nat) (s : State) : StepsOn s (execBeaconMiss t s) := by
  refine whenOn_stepsOn _ _ _ fun s => ?_
  dsimp only
  (repeat' split) <;> simp +contextual [Steady]

@[simp] theorem execTakeoverTimeout_stepsOn (t : Nat) (s : State) : StepsOn s (execTakeoverTimeout t s) := by
  refine whenOn_stepsOn _ _ _ fun s => ?_
  (repeat' split) <;> simp +contextual [Steady]

@[simp] theorem execHomeClaim_stepsOn (t : Nat) (m : SeamMsg) (s : State) : StepsOn s (execHomeClaim t m s) := by
  refine seamRx_stepsOn _ _ _ _ fun s => ?_
  (repeat' split) <;> simp +contextual [Steady]

@[simp] theorem execClaimAck_stepsOn (t : Nat) (m : SeamMsg) (s : State) : StepsOn s (execClaimAck t m s) := by
  refine seamRx_stepsOn _ _ _ _ fun s => ?_
  (repeat' split) <;> simp +contextual [Steady]

@[simp] theorem execClaimResend_stepsOn (t ext : Nat) (s : State) : StepsOn s (execClaimResend t ext s) := by
  refine whenOn_stepsOn _ _ _ fun s => ?_
  (repeat' split) <;> simp +contextual [Steady]

@[simp] theorem execElectDue_stepsOn (t : Nat) (s : State) : StepsOn s (execElectDue t s) := by
  refine whenOn_stepsOn _ _ _ fun s => ?_
  (repeat' split) <;> simp +contextual [Steady]

@[simp] theorem execElectRx_stepsOn (t : Nat) (m : SeamMsg) (s : State) : StepsOn s (execElectRx t m s) := by
  refine seamRx_stepsOn _ _ _ _ fun s => ?_
  (repeat' split) <;> simp +contextual [Steady]

@[simp] theorem execElectionClose_stepsOn (t : Nat) (s : State) : StepsOn s (execElectionClose t s) := by
  refine whenOn_stepsOn _ _ _ fun s => ?_
  dsimp only
  (repeat' split) <;> simp +contextual [Steady]

@[simp] theorem execDelayReqDue_stepsOn (t : Nat) (s : State) : StepsOn s (execDelayReqDue t s) := by
  refine whenOn_stepsOn _ _ _ fun s => ?_
  (repeat' split) <;> simp +contextual [Steady]

@[simp] theorem execDelayReq_stepsOn (t : Nat) (m : SeamMsg) (s : State) : StepsOn s (execDelayReq t m s) := by
  refine seamRx_stepsOn _ _ _ _ fun s => ?_
  (repeat' split) <;> simp +contextual [Steady]

@[simp] theorem execDelayResp_stepsOn (t : Nat) (m : SeamMsg) (s : State) : StepsOn s (execDelayResp t m s) := by
  refine seamRx_stepsOn _ _ _ _ fun s => ?_
  (repeat' split) <;> simp +contextual [Steady]

@[simp] theorem execClusterTimeLapse_stepsOn (t : Nat) (s : State) : StepsOn s (execClusterTimeLapse t s) := by
  refine whenOn_stepsOn _ _ _ fun s => ?_
  (repeat' split) <;> simp +contextual [Steady]

@[simp] theorem execCluStatus_stepsOn (t : Nat) (m : Inbound) (s : State) : StepsOn s (execCluStatus t m s) := by
  refine whenOn_stepsOn _ _ _ fun s => ?_
  simp +contextual [Steady]

@[simp] theorem execCluRegGet_stepsOn (t : Nat) (m : Inbound) (s : State) : StepsOn s (execCluRegGet t m s) := by
  refine whenOn_stepsOn _ _ _ fun s => ?_
  simp +contextual [Steady]

@[simp] theorem execCluRegPut_stepsOn (t : Nat) (m : Inbound) (s : State) : StepsOn s (execCluRegPut t m s) := by
  refine whenOn_stepsOn _ _ _ fun s => ?_
  simp +contextual [Steady]

@[simp] theorem execCluStations_stepsOn (t : Nat) (m : Inbound) (s : State) : StepsOn s (execCluStations t m s) := by
  refine whenOn_stepsOn _ _ _ fun s => ?_
  simp +contextual [Steady]

@[simp] theorem execCluLeave_stepsOn (t : Nat) (m : Inbound) (s : State) : StepsOn s (execCluLeave t m s) := by
  refine whenOn_stepsOn _ _ _ fun s => ?_
  simp +contextual [Steady]

@[simp] theorem execMapRebuildDone_stepsOn (t port slot : Nat) (s : State) : StepsOn s (execMapRebuildDone t port slot s) := by
  refine whenOn_stepsOn _ _ _ fun s => ?_
  exact input_steady _ _ _ _ fun s => by simp +contextual [Steady]

@[simp] theorem execPleatStart_stepsOn (t port : Nat) (outs : List ChanOut) (s : State) :
    StepsOn s (execPleatStart t port outs s) := by
  refine whenOn_stepsOn _ _ _ fun s => ?_
  dsimp only
  (repeat' split) <;> simp +contextual [Steady]

@[simp] theorem execLinkMapRead_stepsOn (t : Nat) (m : Inbound) (s : State) : StepsOn s (execLinkMapRead t m s) := by
  refine whenOn_stepsOn _ _ _ fun s => ?_
  simp +contextual [Steady]

@[simp] theorem execLineContentionEnd_stepsOn (t port slot : Nat) (s : State) :
    StepsOn s (execLineContentionEnd t port slot s) := by
  refine whenOn_stepsOn _ _ _ fun s => ?_
  exact input_steady _ _ _ _ fun s => by simp +contextual [Steady]

@[simp] theorem execLineDefer_stepsOn (t port slot : Nat) (level : Option Int) (s : State) :
    StepsOn s (execLineDefer t port slot level s) := by
  refine whenOn_stepsOn _ _ _ fun s => ?_
  split; · simp [Steady]
  exact input_steady _ _ _ _ fun s => by simp +contextual [Steady]

@[simp] theorem execLinkSlotIdle_stepsOn (t port slot : Nat) (s : State) : StepsOn s (execLinkSlotIdle t port slot s) := by
  refine whenOn_stepsOn _ _ _ fun s => ?_
  split; · simp [Steady]
  exact input_steady _ _ _ _ fun s => by simp +contextual [Steady]

@[simp] theorem execLineTxEnd_stepsOn (t port slot : Nat) (s : State) : StepsOn s (execLineTxEnd t port slot s) := by
  refine whenOn_stepsOn _ _ _ fun s => ?_
  dsimp only
  (repeat' split) <;> simp +contextual [Steady]

@[simp] theorem execLineAckTimeout_stepsOn (t port slot : Nat) (s : State) : StepsOn s (execLineAckTimeout t port slot s) := by
  refine whenOn_stepsOn _ _ _ fun s => ?_
  exact input_steady _ _ _ _ fun s => by simp +contextual [Steady]

@[simp] theorem execLineRetryDelayEnd_stepsOn (t port slot : Nat) (s : State) :
    StepsOn s (execLineRetryDelayEnd t port slot s) := by
  refine whenOn_stepsOn _ _ _ fun s => ?_
  exact input_steady _ _ _ _ fun s => by simp +contextual [Steady]

@[simp] theorem execLineAckStart_stepsOn (t port slot : Nat) (s : State) : StepsOn s (execLineAckStart t port slot s) := by
  refine whenOn_stepsOn _ _ _ fun s => ?_
  dsimp only
  (repeat' split) <;> simp +contextual [Steady]

@[simp] theorem execLineAckDecision_stepsOn (t port slot : Nat) (s : State) :
    StepsOn s (execLineAckDecision t port slot s) := by
  refine whenOn_stepsOn _ _ _ fun s => ?_
  dsimp only
  (repeat' split) <;> simp +contextual [Steady]

@[simp] theorem execTxlimStep_stepsOn (t port : Nat) (s : State) : StepsOn s (execTxlimStep t port s) := by
  refine whenOn_stepsOn _ _ _ fun s => ?_
  dsimp only
  (repeat' split) <;> simp +contextual [Steady]

@[simp] theorem execTxlimRecover_stepsOn (t port : Nat) (s : State) : StepsOn s (execTxlimRecover t port s) := by
  refine whenOn_stepsOn _ _ _ fun s => ?_
  dsimp only
  (repeat' split) <;> simp +contextual [Steady]

@[simp] theorem execTxlimDisable_stepsOn (t port : Nat) (s : State) : StepsOn s (execTxlimDisable t port s) := by
  refine whenOn_stepsOn _ _ _ fun s => ?_
  (repeat' split) <;> simp +contextual [Steady]

@[simp] theorem execDiscoverDue_stepsOn (t port slot : Nat) (s : State) : StepsOn s (execDiscoverDue t port slot s) := by
  refine whenOn_stepsOn _ _ _ fun s => ?_
  (repeat' split) <;> simp +contextual [Steady]

@[simp] theorem execLinkDownlink_stepsOn (t : Nat) (m : Inbound) (s : State) : StepsOn s (execLinkDownlink t m s) := by
  refine whenOn_stepsOn _ _ _ fun s => ?_
  simp +contextual [Steady]

@[simp] theorem execPlxEnable_stepsOn (t port : Nat) (s : State) : StepsOn s (execPlxEnable t port s) := by
  refine whenOn_stepsOn _ _ _ fun s => ?_
  (repeat' split) <;> simp +contextual [Steady]

@[simp] theorem execPlxDisable_stepsOn (t port : Nat) (s : State) : StepsOn s (execPlxDisable t port s) := by
  refine whenOn_stepsOn _ _ _ fun s => ?_
  (repeat' split) <;> simp +contextual [Steady]

@[simp] theorem execCalRestart_stepsOn (t port : Nat) (s : State) : StepsOn s (execCalRestart t port s) := by
  refine whenOn_stepsOn _ _ _ fun s => ?_
  (repeat' split) <;> simp +contextual [Steady]

@[simp] theorem execCalFreeze_stepsOn (t port : Nat) (s : State) : StepsOn s (execCalFreeze t port s) := by
  refine whenOn_stepsOn _ _ _ fun s => ?_
  (repeat' split) <;> simp +contextual [Steady]

@[simp] theorem execCalResume_stepsOn (t port : Nat) (s : State) : StepsOn s (execCalResume t port s) := by
  refine whenOn_stepsOn _ _ _ fun s => ?_
  (repeat' split) <;> simp +contextual [Steady]

@[simp] theorem execCalConverged_stepsOn (t port spur : Nat) (s : State) : StepsOn s (execCalConverged t port spur s) := by
  refine whenOn_stepsOn _ _ _ fun s => ?_
  dsimp only
  (repeat' split) <;> simp +contextual [Steady]

@[simp] theorem execLineReady_stepsOn (t port : Nat) (s : State) : StepsOn s (execLineReady t port s) := by
  refine whenOn_stepsOn _ _ _ fun s => ?_
  (repeat' split) <;> simp +contextual [Steady]

@[simp] theorem execLinePreamblePeak_stepsOn (t port slot : Nat) (peak : LinePeak) (start : Nat) (s : State) :
    StepsOn s (execLinePreamblePeak t port slot peak start s) := by
  refine whenOn_stepsOn _ _ _ fun s => ?_
  dsimp only
  split; · simp [Steady]
  exact input_steady _ _ _ _ fun s => by simp +contextual [Steady]

@[simp] theorem execLineDelimiterCheck_stepsOn (t port slot place : Nat) (soft : List Int) (s : State) :
    StepsOn s (execLineDelimiterCheck t port slot place soft s) := by
  refine whenOn_stepsOn _ _ _ fun s => ?_
  exact input_steady _ _ _ _ fun s => by simp +contextual [Steady]

@[simp] theorem execLineHeaderCheck_stepsOn (t port slot place : Nat) (head : HeadSoft) (energy : Nat) (snr : Int) (s : State) :
    StepsOn s (execLineHeaderCheck t port slot place head rival energy snr s) := by
  refine whenOn_stepsOn _ _ _ fun s => ?_
  exact .trans (by simp +contextual [Steady]) (input_steady _ _ _ _ fun s => by simp +contextual [Steady])

@[simp] theorem execLinePayloadCheck_stepsOn (t port slot : Nat) (outs : List ChanOut) (soft : List SlotSoft) (energy : Nat) (snr : Int) (s : State) :
    StepsOn s (execLinePayloadCheck t port slot outs soft energy snr s) := by
  refine whenOn_stepsOn _ _ _ fun s => ?_
  exact .trans (by simp +contextual [Steady]) (input_steady _ _ _ _ fun s => by simp +contextual [Steady])

@[simp] theorem execJoinLapse_stepsOn (t short : Nat) (s : State) : StepsOn s (execJoinLapse t short s) := by
  refine whenOn_stepsOn _ _ _ fun s => ?_
  (repeat' split) <;> simp +contextual [Steady]

@[simp] theorem execNodeLost_stepsOn (t short : Nat) (s : State) : StepsOn s (execNodeLost t short s) := by
  refine whenOn_stepsOn _ _ _ fun s => ?_
  (repeat' split) <;> simp +contextual [Steady]

@[simp] theorem execLinkNodeList_stepsOn (t : Nat) (m : Inbound) (s : State) : StepsOn s (execLinkNodeList t m s) := by
  refine whenOn_stepsOn _ _ _ fun s => ?_
  simp +contextual [Steady]

@[simp] theorem execLinkNodeGet_stepsOn (t : Nat) (m : Inbound) (s : State) : StepsOn s (execLinkNodeGet t m s) := by
  refine whenOn_stepsOn _ _ _ fun s => ?_
  simp +contextual [Steady]

@[simp] theorem execLinkNodeRemove_stepsOn (t : Nat) (m : Inbound) (s : State) : StepsOn s (execLinkNodeRemove t m s) := by
  refine whenOn_stepsOn _ _ _ fun s => ?_
  simp +contextual [Steady]

@[simp] theorem execLinkPortStats_stepsOn (t : Nat) (m : Inbound) (s : State) : StepsOn s (execLinkPortStats t m s) := by
  refine whenOn_stepsOn _ _ _ fun s => ?_
  simp +contextual [Steady]

@[simp] theorem execDutyBinAdvance_stepsOn (t : Nat) (s : State) : StepsOn s (execDutyBinAdvance t s) := by
  refine whenOn_stepsOn _ _ _ fun s => ?_
  (repeat' split) <;> simp +contextual [Steady]

@[simp] theorem execJesdAttempt_stepsOn (t port : Nat) (s : State) : StepsOn s (execJesdAttempt t port s) := by
  refine whenOn_stepsOn _ _ _ fun s => ?_
  dsimp only
  (repeat' split) <;> simp +contextual [Steady]

@[simp] theorem execJesdCodeGroupSync_stepsOn (t port : Nat) (s : State) : StepsOn s (execJesdCodeGroupSync t port s) := by
  refine whenOn_stepsOn _ _ _ fun s => ?_
  dsimp only
  (repeat' split) <;> simp +contextual [Steady]

@[simp] theorem execJesdIlas_stepsOn (t port : Nat) (ilas : List Ilas) (s : State) :
    StepsOn s (execJesdIlas t port ilas s) := by
  refine whenOn_stepsOn _ _ _ fun s => ?_
  dsimp only
  (repeat' split) <;> simp +contextual [Steady]

@[simp] theorem execJesdTxsyncRelease_stepsOn (t port : Nat) (s : State) : StepsOn s (execJesdTxsyncRelease t port s) := by
  refine whenOn_stepsOn _ _ _ fun s => ?_
  dsimp only
  (repeat' split) <;> simp +contextual [Steady]

@[simp] theorem execJesdSyncTimeout_stepsOn (t port : Nat) (s : State) : StepsOn s (execJesdSyncTimeout t port s) := by
  refine whenOn_stepsOn _ _ _ fun s => ?_
  (repeat' split) <;> simp +contextual [Steady]

@[simp] theorem execJesdLinkUp_stepsOn (t port : Nat) (s : State) : StepsOn s (execJesdLinkUp t port s) := by
  refine whenOn_stepsOn _ _ _ fun s => ?_
  dsimp only
  (repeat' split) <;> simp +contextual [Steady]

@[simp] theorem execPaceOverrun_stepsOn (t : Nat) (air : Bool) (port lost : Nat) (s : State) :
    StepsOn s (execPaceOverrun t air port lost s) := by
  refine whenOn_stepsOn _ _ _ fun s => ?_
  (repeat' split) <;> simp +contextual [Steady]

@[simp] theorem execAirTxStart_stepsOn (t port : Nat) (s : State) : StepsOn s (execAirTxStart t port s) := by
  refine whenOn_stepsOn _ _ _ fun s => ?_
  dsimp only
  split; · simp [Steady]
  have h : Steady s ((s.staleBeacons port).relisten port) := by simp +contextual [Steady]
  split
  · exact h.trans (by simp +contextual [Steady])
  · exact h

@[simp] theorem execAirBeaconDue_stepsOn (t port : Nat) (s : State) : StepsOn s (execAirBeaconDue t port s) := by
  refine whenOn_stepsOn _ _ _ fun s => ?_
  dsimp only
  split; · simp [Steady]
  split; · simp [Steady]
  have h : Steady s (s.staleBeacons port) := by simp +contextual [Steady]
  have hadd (u : State) (h : Steady s u) (d : AirDown) : Steady s (u.addDown d) := h.trans (by simp +contextual [Steady])
  have hset (u : State) (h : Steady s u) (d : AirDown) : Steady s (u.setDown d) := h.trans (by simp +contextual [Steady])
  have hstart (u : State) (h : Steady s u) (d : AirDown) (p : AirPlan) : Steady s (u.startDown port d p) :=
    h.trans (by simp +contextual [Steady])
  split
  · exact h.trans (by simp +contextual [Steady])
  split
  · exact hadd _ (h.trans (by simp [Steady])) _
  · split
    · exact hstart _ (hset _ (hadd _ (h.trans (by simp [Steady])) _) _) _ _
    · exact hset _ (hadd _ (h.trans (by simp [Steady])) _) _

@[simp] theorem execPendingWindowSend_stepsOn (t ext : Nat) (s : State) : StepsOn s (execPendingWindowSend t ext s) := by
  refine whenOn_stepsOn _ _ _ fun s => ?_
  dsimp only
  (repeat' split) <;> simp +contextual [Steady]

@[simp] theorem execPendingWindowEnd_stepsOn (t ext : Nat) (s : State) : StepsOn s (execPendingWindowEnd t ext s) := by
  refine whenOn_stepsOn _ _ _ fun s => ?_
  dsimp only
  split; · simp [Steady]
  split; · simp [Steady]
  refine .trans (?_ : Steady s _) (foldl_steady _ _ _ fun s d => ?_)
  · simp +contextual [Steady]
  · split <;> simp +contextual [Steady]

@[simp] theorem execAirTxEnd_stepsOn (t port chan : Nat) (s : State) : StepsOn s (execAirTxEnd t port chan s) := by
  refine whenOn_stepsOn _ _ _ fun s => ?_
  dsimp only
  (repeat' split) <;> simp +contextual [Steady]

@[simp] theorem execAirAckWindowEnd_stepsOn (t id : Nat) (s : State) : StepsOn s (execAirAckWindowEnd t id s) := by
  refine whenOn_stepsOn _ _ _ fun s => ?_
  dsimp only
  (repeat' split) <;> simp +contextual [Steady]

@[simp] theorem execPhaseTargetCheck_stepsOn (t id : Nat) (s : State) : StepsOn s (execPhaseTargetCheck t id s) := by
  refine whenOn_stepsOn _ _ _ fun s => ?_
  dsimp only
  (repeat' split) <;> simp +contextual [Steady]

@[simp] theorem execLbtListenEnd_stepsOn (t id : Nat) (outs : List AirOut) (s : State) :
    StepsOn s (execLbtListenEnd t id outs s) := by
  refine whenOn_stepsOn _ _ _ fun s => ?_
  dsimp only
  (repeat' split) <;> simp +contextual [Steady]

@[simp] theorem execLbtBackoffEnd_stepsOn (t id : Nat) (s : State) : StepsOn s (execLbtBackoffEnd t id s) := by
  refine whenOn_stepsOn _ _ _ fun s => ?_
  (repeat' split) <;> simp +contextual [Steady]

@[simp] theorem execDownlinkExpiry_stepsOn (t slot tag : Nat) (s : State) : StepsOn s (execDownlinkExpiry t slot tag s) := by
  refine whenOn_stepsOn _ _ _ fun s => ?_
  (repeat' split) <;> simp +contextual [Steady]

@[simp] theorem execAirDownlink_stepsOn (t : Nat) (m : Inbound) (s : State) : StepsOn s (execAirDownlink t m s) := by
  refine whenOn_stepsOn _ _ _ fun s => ?_
  simp +contextual [Steady]

@[simp] theorem execAirEnable_stepsOn (t port : Nat) (s : State) : StepsOn s (execAirEnable t port s) := by
  refine whenOn_stepsOn _ _ _ fun s => ?_
  (repeat' split) <;> simp +contextual [Steady]

@[simp] theorem execAirDisable_stepsOn (t port : Nat) (s : State) : StepsOn s (execAirDisable t port s) := by
  refine whenOn_stepsOn _ _ _ fun s => ?_
  (repeat' split) <;> simp +contextual [Steady]

@[simp] theorem execJesdLinkDown_stepsOn (t port reason : Nat) (s : State) : StepsOn s (execJesdLinkDown t port reason s) := by
  refine whenOn_stepsOn _ _ _ fun s => ?_
  (repeat' split) <;> simp +contextual [Steady]

@[simp] theorem execAssocLapse_stepsOn (t short : Nat) (s : State) : StepsOn s (execAssocLapse t short s) := by
  refine whenOn_stepsOn _ _ _ fun s => ?_
  (repeat' split) <;> simp +contextual [Steady]

@[simp] theorem execAirAckSend_stepsOn (t port chan : Nat) (s : State) : StepsOn s (execAirAckSend t port chan s) := by
  refine whenOn_stepsOn _ _ _ fun s => ?_
  dsimp only
  split; · simp [Steady]
  split; · simp [Steady]
  split
  · have h : Steady s (s.setAc port chan { s.ac port chan with ack := none }) := by simp +contextual [Steady]
    exact h.trans (by split <;> simp +contextual [Steady])
  · have hdrop (ds : List AirDown) (s : State) : Steady s (ds.foldl (fun s d => s.dropDown d.id) s) :=
      foldl_steady _ _ _ fun s d => by simp +contextual [Steady]
    have hedge (s : State) : Steady s (s.airBoundary port) := by simp +contextual [Steady]
    refine .trans ?_ ((hdrop _ _).trans (hedge _))
    simp [Steady]

@[simp] theorem execAirSensorGet_stepsOn (t : Nat) (m : Inbound) (s : State) : StepsOn s (execAirSensorGet t m s) := by
  refine whenOn_stepsOn _ _ _ fun s => ?_
  simp +contextual [Steady]

@[simp] theorem execAirDisassociate_stepsOn (t : Nat) (m : Inbound) (s : State) : StepsOn s (execAirDisassociate t m s) := by
  refine whenOn_stepsOn _ _ _ fun s => ?_
  simp +contextual [Steady]

@[simp] theorem execAirPendingSet_stepsOn (t : Nat) (m : Inbound) (s : State) : StepsOn s (execAirPendingSet t m s) := by
  refine whenOn_stepsOn _ _ _ fun s => ?_
  simp +contextual [Steady]

@[simp] theorem execAirDutyRead_stepsOn (t : Nat) (m : Inbound) (s : State) : StepsOn s (execAirDutyRead t m s) := by
  refine whenOn_stepsOn _ _ _ fun s => ?_
  simp +contextual [Steady]

@[simp] theorem execAirDigestSet_stepsOn (t : Nat) (m : Inbound) (s : State) : StepsOn s (execAirDigestSet t m s) := by
  refine whenOn_stepsOn _ _ _ fun s => ?_
  simp +contextual [Steady]

@[simp] theorem execScMetrics_stepsOn (t : Nat) (m : SeamMsg) (s : State) : StepsOn s (execScMetrics t m s) := by
  refine seamRx_stepsOn _ _ _ _ fun s => ?_
  (repeat' split) <;> simp +contextual [Steady]

@[simp] theorem execGroupClose_stepsOn (t num : Nat) (s : State) : StepsOn s (execGroupClose t num s) := by
  refine whenOn_stepsOn _ _ _ fun s => ?_
  dsimp only
  (repeat' split) <;> simp +contextual [Steady]

@[simp] theorem execScResult_stepsOn (t : Nat) (m : SeamMsg) (s : State) : StepsOn s (execScResult t m s) := by
  refine seamRx_stepsOn _ _ _ _ fun s => ?_
  (repeat' split) <;> simp +contextual [Steady]

@[simp] theorem execScResultAck_stepsOn (t : Nat) (m : SeamMsg) (s : State) : StepsOn s (execScResultAck t m s) := by
  refine seamRx_stepsOn _ _ _ _ fun s => ?_
  (repeat' split) <;> simp +contextual [Steady]

@[simp] theorem execScResultResend_stepsOn (t num : Nat) (s : State) : StepsOn s (execScResultResend t num s) := by
  refine whenOn_stepsOn _ _ _ fun s => ?_
  (repeat' split) <;> simp +contextual [Steady]

@[simp] theorem execDigestExpiry_stepsOn (t short seq : Nat) (s : State) : StepsOn s (execDigestExpiry t short seq s) := by
  refine whenOn_stepsOn _ _ _ fun s => ?_
  simp +contextual [Steady]

@[simp] theorem execAirPreamblePeak_stepsOn (t port chan : Nat) (peak : AirPeak) (inst : Nat) (s : State) :
    StepsOn s (execAirPreamblePeak t port chan peak inst s) := by
  refine whenOn_stepsOn _ _ _ fun s => ?_
  dsimp only
  split; · simp +contextual [Steady]
  exact .trans (by simp +contextual [Steady]) (input_steady _ _ _ _ fun s => by simp +contextual [Steady])

@[simp] theorem execAirPhrCheck_stepsOn (t port chan place : Nat) (head : AirHead) (s : State) :
    StepsOn s (execAirPhrCheck t port chan place head s) := by
  refine whenOn_stepsOn _ _ _ fun s => ?_
  exact input_steady _ _ _ _ fun s => by simp +contextual [Steady]

@[simp] theorem execAirFcsCheck_stepsOn (t port chan : Nat) (outs : List AirOut) (soft : List Int) (snr : Int) (s : State) :
    StepsOn s (execAirFcsCheck t port chan outs soft snr s) := by
  refine whenOn_stepsOn _ _ _ fun s => ?_
  exact .trans (by simp +contextual [Steady]) (input_steady _ _ _ _ fun s => by simp +contextual [Steady])

@[simp] theorem execEthLinkUp_stepsOn (t port : Nat) (s : State) : StepsOn s (execEthLinkUp t port s) := by
  refine whenOn_stepsOn _ _ _ fun s => ?_
  (repeat' split) <;> simp +contextual [Steady]

@[simp] theorem execEthLinkDown_stepsOn (t port reason detect interrupt : Nat) (s : State) :
    StepsOn s (execEthLinkDown t port reason detect interrupt s) := by
  refine whenOn_stepsOn _ _ _ fun s => ?_
  (repeat' split) <;> simp +contextual [Steady]

@[simp] theorem execEthPortEnable_stepsOn (t port : Nat) (s : State) : StepsOn s (execEthPortEnable t port s) := by
  refine whenOn_stepsOn _ _ _ fun s => ?_
  (repeat' split) <;> simp +contextual [Steady]

@[simp] theorem execEthPortDisable_stepsOn (t port : Nat) (s : State) : StepsOn s (execEthPortDisable t port s) := by
  refine whenOn_stepsOn _ _ _ fun s => ?_
  (repeat' split) <;> simp +contextual [Steady]

@[simp] theorem execEthPortReconfigure_stepsOn (t port : Nat) (s : State) : StepsOn s (execEthPortReconfigure t port s) := by
  refine whenOn_stepsOn _ _ _ fun s => ?_
  (repeat' split) <;> simp +contextual [Steady]

@[simp] theorem execPfcPauseRx_stepsOn (t port : Nat) (quanta : List (Nat × Nat)) (s : State) :
    StepsOn s (execPfcPauseRx t port quanta s) := by
  refine whenOn_stepsOn _ _ _ fun s => ?_
  (repeat' split) <;> simp +contextual [Steady]

@[simp] theorem execPfcPauseExpiry_stepsOn (t port prio : Nat) (s : State) : StepsOn s (execPfcPauseExpiry t port prio s) := by
  refine whenOn_stepsOn _ _ _ fun s => ?_
  (repeat' split) <;> simp +contextual [Steady]

@[simp] theorem execPfcPauseRefresh_stepsOn (t port prio level : Nat) (s : State) :
    StepsOn s (execPfcPauseRefresh t port prio level s) := by
  refine whenOn_stepsOn _ _ _ fun s => ?_
  (repeat' split) <;> simp +contextual [Steady]

@[simp] theorem execCapStart_stepsOn (t : Nat) (m : Inbound) (s : State) : StepsOn s (execCapStart t m s) := by
  refine whenOn_stepsOn _ _ _ fun s => ?_
  simp +contextual [Steady]

@[simp] theorem execCapStop_stepsOn (t : Nat) (m : Inbound) (s : State) : StepsOn s (execCapStop t m s) := by
  refine whenOn_stepsOn _ _ _ fun s => ?_
  simp +contextual [Steady]

@[simp] theorem execCaptureDurationEnd_stepsOn (t slot stream : Nat) (s : State) :
    StepsOn s (execCaptureDurationEnd t slot stream s) := by
  refine whenOn_stepsOn _ _ _ fun s => ?_
  (repeat' split) <;> simp +contextual [Steady]

@[simp] theorem execCaptureBlock_stepsOn (t slot stream ns : Nat) (samples : List Byte) (s : State) :
    StepsOn s (execCaptureBlock t slot stream ns samples s) := by
  refine whenOn_stepsOn _ _ _ fun s => ?_
  dsimp only
  (repeat' split) <;> simp +contextual [Steady]

@[simp] theorem execCheckpoint_stepsOn (t n : Nat) (s : State) : StepsOn s (execCheckpoint t n s) := by
  refine whenOn_stepsOn _ _ _ fun s => ?_
  dsimp only
  (repeat' split) <;> simp +contextual [Steady]

@[simp] theorem execCheckpointComplete_stepsOn (t n : Nat) (s : State) : StepsOn s (execCheckpointComplete t n s) := by
  refine whenOn_stepsOn _ _ _ fun s => ?_
  dsimp only
  (repeat' split) <;> simp +contextual [Steady]

@[simp] theorem execEngineFault_stepsOn (t n detect fault : Nat) (bad : Bool) (s : State) :
    StepsOn s (execEngineFault t n detect fault bad s) := by
  refine whenOn_stepsOn _ _ _ fun s => ?_
  (repeat' split) <;> simp +contextual [Steady]

@[simp] theorem execPatchCaughtUp_stepsOn (t n load : Nat) (s : State) : StepsOn s (execPatchCaughtUp t n load s) := by
  refine whenOn_stepsOn _ _ _ fun s => ?_
  dsimp only
  have hraise (u : State) (h : Steady s u) (at_ code block inst : Nat) (x : List Byte) :
      Steady s (u.raiseAt at_ code block inst x) :=
    h.trans (by simp +contextual [Steady])
  split
  · split
    · refine .trans (?_ : Steady s _) (foldl_steady _ _ _ fun s d => ?_)
      · exact hraise _ (by simp +contextual [Steady]) _ _ _ _ _
      · simp +contextual [Steady]
    · simp [Steady]
  · simp [Steady]

@[simp] theorem execSparesTargetWrite_stepsOn (t n : Nat) (s : State) : StepsOn s (execSparesTargetWrite t n s) := by
  refine whenOn_stepsOn _ _ _ fun s => ?_
  simp +contextual [Steady]

@[simp] theorem execEngineSelfTestDone_stepsOn (t n : Nat) (failed : List Nat) (s : State) :
    StepsOn s (execEngineSelfTestDone t n failed s) := by
  refine whenOn_stepsOn _ _ _ fun s => ?_
  dsimp only
  (repeat' split) <;> simp +contextual [Steady]

@[simp] theorem execContextEnd_stepsOn (t kind port slot place : Nat) (s : State) :
    StepsOn s (execContextEnd t kind port slot place s) := by
  refine whenOn_stepsOn _ _ _ fun s => ?_
  dsimp only
  (repeat' split) <;> simp +contextual [Steady]

@[simp] theorem execPairFault_stepsOn (t detect interrupt : Nat) (s : State) :
    StepsOn s (execPairFault t detect interrupt s) := by
  refine whenOn_stepsOn _ _ _ fun s => ?_
  (repeat' split) <;> simp +contextual [Steady]

@[simp] theorem execStandbyFault_stepsOn (t detect : Nat) (s : State) : StepsOn s (execStandbyFault t detect s) := by
  refine whenOn_stepsOn _ _ _ fun s => ?_
  (repeat' split) <;> simp +contextual [Steady]

@[simp] theorem execPairSelfTestDone_stepsOn (t pair : Nat) (pass : Bool) (s : State) :
    StepsOn s (execPairSelfTestDone t pair pass s) := by
  refine whenOn_stepsOn _ _ _ fun s => ?_
  (repeat' split) <;> simp +contextual [Steady]

@[simp] theorem execUnitFault_stepsOn (t : Nat) (check : Bool) (unit detect jobs interrupt : Nat) (s : State) :
    StepsOn s (execUnitFault t check unit detect jobs interrupt s) := by
  refine whenOn_stepsOn _ _ _ fun s => ?_
  (repeat' split) <;> simp +contextual [Steady]

@[simp] theorem execVote_stepsOn (t block inst : Nat) (ecc : Bool) (s : State) : StepsOn s (execVote t block inst ecc s) := by
  refine whenOn_stepsOn _ _ _ fun s => ?_
  simp +contextual [Steady]

@[simp] theorem execMemoryPatrol_stepsOn (t lo n : Nat) (fixed bad : List Nat) (s : State) :
    StepsOn s (execMemoryPatrol t lo n fixed bad s) := by
  refine whenOn_stepsOn _ _ _ fun s => ?_
  simp +contextual [Steady]

@[simp] theorem execFaultLogWrite_stepsOn (t : Nat) (s : State) : StepsOn s (execFaultLogWrite t s) := by
  refine whenOn_stepsOn _ _ _ fun s => ?_
  (repeat' split) <;> simp +contextual [Steady]

@[simp] theorem execDiagMemdesc_stepsOn (t : Nat) (m : Inbound) (s : State) : StepsOn s (execDiagMemdesc t m s) := by
  refine whenOn_stepsOn _ _ _ fun s => ?_
  simp +contextual [Steady]

@[simp] theorem execDiagFaultLog_stepsOn (t : Nat) (m : Inbound) (s : State) : StepsOn s (execDiagFaultLog t m s) := by
  refine whenOn_stepsOn _ _ _ fun s => ?_
  simp +contextual [Steady]

@[simp] theorem execDiagEngine_stepsOn (t : Nat) (m : Inbound) (s : State) : StepsOn s (execDiagEngine t m s) := by
  refine whenOn_stepsOn _ _ _ fun s => ?_
  simp +contextual [Steady]

@[simp] theorem execInjectEngineFault_stepsOn (t target : Nat) (s : State) : StepsOn s (execInjectEngineFault t target s) := by
  refine whenOn_stepsOn _ _ _ fun s => ?_
  simp +contextual [Steady]

@[simp] theorem execInjectPairFault_stepsOn (t target : Nat) (s : State) : StepsOn s (execInjectPairFault t target s) := by
  refine whenOn_stepsOn _ _ _ fun s => ?_
  simp +contextual [Steady]

@[simp] theorem execInjectPortFault_stepsOn (t target : Nat) (s : State) : StepsOn s (execInjectPortFault t target s) := by
  refine whenOn_stepsOn _ _ _ fun s => ?_
  simp +contextual [Steady]

@[simp] theorem execCipherJobComplete_stepsOn (t core : Nat) (s : State) : StepsOn s (execCipherJobComplete t core s) := by
  refine whenOn_stepsOn _ _ _ fun s => ?_
  dsimp only
  (repeat' split) <;> simp +contextual [Steady]

@[simp] theorem execLoopStale_stepsOn (t n : Nat) (s : State) : StepsOn s (execLoopStale t n s) := by
  refine whenOn_stepsOn _ _ _ fun s => ?_
  dsimp only
  (repeat' split) <;> simp +contextual [Steady]

@[simp] theorem execLoopRegulationFault_stepsOn (t n : Nat) (on : Bool) (s : State) :
    StepsOn s (execLoopRegulationFault t n on s) := by
  refine whenOn_stepsOn _ _ _ fun s => ?_
  (repeat' split) <;> simp +contextual [Steady]

@[simp] theorem execLoopPwmEvent_stepsOn (t n : Nat) (s : State) : StepsOn s (execLoopPwmEvent t n s) := by
  refine whenOn_stepsOn _ _ _ fun s => ?_
  (repeat' split) <;> simp +contextual [Steady]

@[simp] theorem execStreamEnable_stepsOn (t : Nat) (s : State) : StepsOn s (execStreamEnable t s) := by
  refine whenOn_stepsOn _ _ _ fun s => ?_
  (repeat' split) <;> simp +contextual [Steady]

@[simp] theorem execFilterOutput_stepsOn (t e : Nat) (s : State) : StepsOn s (execFilterOutput t e s) := by
  refine whenOn_stepsOn _ _ _ fun s => ?_
  (repeat' split) <;> simp +contextual [Steady]

@[simp] theorem execRefEnable_stepsOn (t : Nat) (s : State) : StepsOn s (execRefEnable t s) := by
  refine whenOn_stepsOn _ _ _ fun s => ?_
  (repeat' split) <;> simp +contextual [Steady]

@[simp] theorem execRefReady_stepsOn (t : Nat) (s : State) : StepsOn s (execRefReady t s) := by
  refine whenOn_stepsOn _ _ _ fun s => ?_
  dsimp only
  (repeat' split) <;> simp +contextual [Steady]

@[simp] theorem execCnvEnable_stepsOn (t : Nat) (s : State) : StepsOn s (execCnvEnable t s) := by
  refine whenOn_stepsOn _ _ _ fun s => ?_
  (repeat' split) <;> simp +contextual [Steady]

@[simp] theorem execCnvDisable_stepsOn (t : Nat) (s : State) : StepsOn s (execCnvDisable t s) := by
  refine whenOn_stepsOn _ _ _ fun s => ?_
  (repeat' split) <;> simp +contextual [Steady]

@[simp] theorem execCnvCalConverged_stepsOn (t : Nat) (s : State) : StepsOn s (execCnvCalConverged t s) := by
  refine whenOn_stepsOn _ _ _ fun s => ?_
  (repeat' split) <;> simp +contextual [Steady]

@[simp] theorem execSwtrig_stepsOn (t : Nat) (s : State) : StepsOn s (execSwtrig t s) := by
  refine whenOn_stepsOn _ _ _ fun s => ?_
  simp +contextual [Steady]

@[simp] theorem execSequenceTrigger_stepsOn (t : Nat) (s : State) : StepsOn s (execSequenceTrigger t s) := by
  refine whenOn_stepsOn _ _ _ fun s => ?_
  (repeat' split) <;> simp +contextual [Steady]

@[simp] theorem execSequenceStart_stepsOn (t : Nat) (s : State) : StepsOn s (execSequenceStart t s) := by
  refine whenOn_stepsOn _ _ _ fun s => ?_
  (repeat' split) <;> simp +contextual [Steady]

@[simp] theorem execRawSample_stepsOn (t : Nat) (codes : List Int) (s : State) : StepsOn s (execRawSample t codes s) := by
  refine whenOn_stepsOn _ _ _ fun s => ?_
  dsimp only
  (repeat' split) <;> simp +contextual [Steady]

@[simp] theorem execDwellEnd_stepsOn (t : Nat) (s : State) : StepsOn s (execDwellEnd t s) := by
  refine whenOn_stepsOn _ _ _ fun s => ?_
  (repeat' split) <;> simp +contextual [Steady]

@[simp] theorem execWireBreak_stepsOn (t n : Nat) (curs : List Nat) (s : State) : StepsOn s (execWireBreak t n curs s) := by
  refine whenOn_stepsOn _ _ _ fun s => ?_
  (repeat' split) <;> simp +contextual [Steady]

@[simp] theorem execWireRestore_stepsOn (t n : Nat) (cur : InWindow) (s : State) : StepsOn s (execWireRestore t n cur s) := by
  refine whenOn_stepsOn _ _ _ fun s => ?_
  dsimp only
  (repeat' split) <;> simp +contextual [Steady]

@[simp] theorem execSensResults_stepsOn (t : Nat) (m : Inbound) (s : State) : StepsOn s (execSensResults t m s) := by
  refine whenOn_stepsOn _ _ _ fun s => ?_
  simp +contextual [Steady]

@[simp] theorem execSensLoopSet_stepsOn (t : Nat) (m : Inbound) (s : State) : StepsOn s (execSensLoopSet t m s) := by
  refine whenOn_stepsOn _ _ _ fun s => ?_
  simp +contextual [Steady]

@[simp] theorem execSensCurveInfo_stepsOn (t : Nat) (m : Inbound) (s : State) : StepsOn s (execSensCurveInfo t m s) := by
  refine whenOn_stepsOn _ _ _ fun s => ?_
  simp +contextual [Steady]

@[simp] theorem execDescriptorStart_stepsOn (t spool : Nat) (s : State) : StepsOn s (execDescriptorStart t spool s) := by
  refine whenOn_stepsOn _ _ _ fun s => ?_
  dsimp only
  (repeat' split) <;> simp +contextual [Steady]

@[simp] theorem execSpoolEnable_stepsOn (t spool : Nat) (s : State) : StepsOn s (execSpoolEnable t spool s) := by
  refine whenOn_stepsOn _ _ _ fun s => ?_
  dsimp only
  (repeat' split) <;> simp +contextual [Steady]

@[simp] theorem execSpoolStopRequest_stepsOn (t spool : Nat) (s : State) : StepsOn s (execSpoolStopRequest t spool s) := by
  refine whenOn_stepsOn _ _ _ fun s => ?_
  (repeat' split) <;> simp +contextual [Steady]

@[simp] theorem execSpoolDisable_stepsOn (t spool : Nat) (s : State) : StepsOn s (execSpoolDisable t spool s) := by
  refine whenOn_stepsOn _ _ _ fun s => ?_
  (repeat' split) <;> simp +contextual [Steady]

@[simp] theorem execSpoolDoorbell_stepsOn (t spool : Nat) (s : State) : StepsOn s (execSpoolDoorbell t spool s) := by
  refine whenOn_stepsOn _ _ _ fun s => ?_
  (repeat' split) <;> simp +contextual [Steady]

@[simp] theorem execSpoolBurst_stepsOn (t : Nat) (write : Bool) (s : State) : StepsOn s (execSpoolBurst t write s) := by
  refine whenOn_stepsOn _ _ _ fun s => ?_
  (repeat' split) <;> simp +contextual [Steady]

@[simp] theorem execDescriptorComplete_stepsOn (t spool : Nat) (s : State) : StepsOn s (execDescriptorComplete t spool s) := by
  refine whenOn_stepsOn _ _ _ fun s => ?_
  dsimp only
  (repeat' split) <;> simp +contextual [Steady]

@[simp] theorem execBarWriteback_stepsOn (t spool : Nat) (s : State) : StepsOn s (execBarWriteback t spool s) := by
  refine whenOn_stepsOn _ _ _ fun s => ?_
  dsimp only
  (repeat' split) <;> simp +contextual [Steady]

@[simp] theorem execSpoolDone_stepsOn (t spool : Nat) (s : State) : StepsOn s (execSpoolDone t spool s) := by
  refine whenOn_stepsOn _ _ _ fun s => ?_
  dsimp only
  (repeat' split) <;> simp +contextual [Steady]

@[simp] theorem execPorstAssert_stepsOn (t : Nat) (s : State) : StepsOn s (execPorstAssert t s) := by
  refine ⟨_, rfl, ?_⟩
  dsimp only
  split <;> simp +contextual

@[simp] theorem execRefclkLoss_stepsOn (t : Nat) (s : State) : StepsOn s (execRefclkLoss t s) := by
  refine whenOn_stepsOn _ _ _ fun s => ?_
  (repeat' split) <;> simp +contextual [Steady]

@[simp] theorem execRestart_stepsOn (t : Nat) (s : State) : StepsOn s (execRestart t s) := by
  refine whenOn_stepsOn _ _ _ fun s => ?_
  simp +contextual [Steady]

@[simp] theorem execLiningWriteDone_stepsOn (t wear : Nat) (s : State) : StepsOn s (execLiningWriteDone t wear s) := by
  refine whenOn_stepsOn _ _ _ fun s => ?_
  (repeat' split) <;> simp +contextual [Steady]

@[simp] theorem execFactoryArm_stepsOn (t : Nat) (s : State) : StepsOn s (execFactoryArm t s) := by
  refine whenOn_stepsOn _ _ _ fun s => ?_
  simp +contextual [Steady]

@[simp] theorem execFactoryDisarm_stepsOn (t : Nat) (s : State) : StepsOn s (execFactoryDisarm t s) := by
  refine whenOn_stepsOn _ _ _ fun s => ?_
  simp +contextual [Steady]

@[simp] theorem execBankWrite_stepsOn (t bank : Nat) (s : State) : StepsOn s (execBankWrite t bank s) := by
  refine whenOn_stepsOn _ _ _ fun s => ?_
  (repeat' split) <;> simp +contextual [Steady]

@[simp] theorem execBankWriteDone_stepsOn (t : Nat) (s : State) : StepsOn s (execBankWriteDone t s) := by
  refine whenOn_stepsOn _ _ _ fun s => ?_
  (repeat' split) <;> simp +contextual [Steady]

@[simp] theorem execCfgRead_stepsOn (t : Nat) (m : Inbound) (s : State) : StepsOn s (execCfgRead t m s) := by
  refine whenOn_stepsOn _ _ _ fun s => ?_
  simp +contextual [Steady]

@[simp] theorem execCfgWrite_stepsOn (t : Nat) (m : Inbound) (s : State) : StepsOn s (execCfgWrite t m s) := by
  refine whenOn_stepsOn _ _ _ fun s => ?_
  simp +contextual [Steady]

@[simp] theorem execCfgModify_stepsOn (t : Nat) (m : Inbound) (s : State) : StepsOn s (execCfgModify t m s) := by
  refine whenOn_stepsOn _ _ _ fun s => ?_
  simp +contextual [Steady]

@[simp] theorem execCfgWait_stepsOn (t : Nat) (m : Inbound) (s : State) : StepsOn s (execCfgWait t m s) := by
  refine whenOn_stepsOn _ _ _ fun s => ?_
  simp +contextual [Steady]

@[simp] theorem execCfgWaitComplete_stepsOn (t ref : Nat) (fixed : List Nat) (s : State) :
    StepsOn s (execCfgWaitComplete t ref fixed s) := by
  refine whenOn_stepsOn _ _ _ fun s => ?_
  (repeat' split) <;> simp +contextual [Steady]

@[simp] theorem execMemRead_stepsOn (t : Nat) (m : Inbound) (fixed : List Nat) (s : State) :
    StepsOn s (execMemRead t m fixed s) := by
  refine whenOn_stepsOn _ _ _ fun s => ?_
  simp +contextual [Steady]

@[simp] theorem execMemWrite_stepsOn (t : Nat) (m : Inbound) (s : State) : StepsOn s (execMemWrite t m s) := by
  refine whenOn_stepsOn _ _ _ fun s => ?_
  simp +contextual [Steady]

@[simp] theorem execMemFence_stepsOn (t : Nat) (m : Inbound) (s : State) : StepsOn s (execMemFence t m s) := by
  refine whenOn_stepsOn _ _ _ fun s => ?_
  simp +contextual [Steady]

@[simp] theorem execElapsedLatchRead_stepsOn (t slot : Nat) (s : State) : StepsOn s (execElapsedLatchRead t slot s) := by
  refine whenOn_stepsOn _ _ _ fun s => ?_
  simp +contextual [Steady]

@[simp] theorem execClusterTimeLatchRead_stepsOn (t slot : Nat) (s : State) :
    StepsOn s (execClusterTimeLatchRead t slot s) := by
  refine whenOn_stepsOn _ _ _ fun s => ?_
  simp +contextual [Steady]

@[simp] theorem execRxTimestampRead_stepsOn (t slot arrived : Nat) (s : State) :
    StepsOn s (execRxTimestampRead t slot arrived s) := by
  refine whenOn_stepsOn _ _ _ fun s => ?_
  simp +contextual [Steady]

@[simp] theorem execRegisterWrite_stepsOn (t slot addr : Nat) (value : Word) (s : State) :
    StepsOn s (execRegisterWrite t slot addr value s) := by
  refine whenOn_stepsOn _ _ _ fun s => ?_
  dsimp only
  (repeat' split) <;> simp +contextual [Steady]

@[simp] theorem execCommitGo_stepsOn (t addr : Nat) (s : State) : StepsOn s (execCommitGo t addr s) := by
  refine whenOn_stepsOn _ _ _ fun s => ?_
  (repeat' split) <;> simp +contextual [Steady]

@[simp] theorem execCommitDiscard_stepsOn (t addr : Nat) (s : State) : StepsOn s (execCommitDiscard t addr s) := by
  refine whenOn_stepsOn _ _ _ fun s => ?_
  (repeat' split) <;> simp +contextual [Steady]

@[simp] theorem execCommitApply_stepsOn (t addr : Nat) (s : State) : StepsOn s (execCommitApply t addr s) := by
  refine whenOn_stepsOn _ _ _ fun s => ?_
  (repeat' split) <;> simp +contextual [Steady]

@[simp] theorem execStewardDispatch_stepsOn (t took : Nat) (s : State) : StepsOn s (execStewardDispatch t took s) := by
  refine whenOn_stepsOn _ _ _ fun s => ?_
  (repeat' split) <;> simp +contextual [Steady]

theorem exec_stepsOn (c : Instr) (s : State) (hc : ∀ t pins sealBad, c ≠ .startSequence t pins sealBad) :
    StepsOn s (exec c s) := by
  cases c <;> dsimp only [exec]
  case startSequence t pins sealBad => exact (hc t pins sealBad rfl).elim
  all_goals simp

theorem State.idle_steady (s : State) : Steady s s.idle := by
  unfold State.idle
  split
  · have h : Steady s (((s.tick s.now).sendFrom 0).sendFrom 1) := by simp +contextual [Steady]
    exact h.trans (by simp +contextual [Steady])
  · simp [Steady]

/-- What holds of the queue and of the invariants once a start has laid the device out anew. -/
def Ready (q : List Instr) (s : State) : Prop :=
  s.pending = q ∧ Canon s.mem.cells ∧ FreshRefs s.stw.flights s.stw.nextRef ∧ FreshIds s.air.downs s.air.nextId

theorem Ready.steady {q : List Instr} {s u : State} (h : Ready q s) (k : Steady s u) : Ready q u := by
  obtain ⟨hp, hc, hr, hi⟩ := h
  obtain ⟨kp, -, kc, kr, ki⟩ := k
  exact ⟨kp.trans hp, kc hc, kr hr, ki hi⟩

theorem State.bare_ready (s : State) (l : Lining) : Ready s.pending (s.bare l) := by
  simp [Ready, State.bare, Stw.init, Canon, FreshRefs, FreshIds, ascending]

theorem Ready.at {q : List Instr} {s : State} (h : Ready q s) (now : Nat) (pow : Power) :
    Ready q { s with now := now, pow := pow } := h

theorem State.start_ready (s : State) (mesh sealBad : Bool) : Ready s.pending (s.start mesh sealBad) := by
  have halarms (s : State) : Steady s (s.startAlarms mesh sealBad) := by simp +contextual [Steady]
  have hboot (s : State) : Steady s s.boot := by simp +contextual [Steady]
  have hkeys (s : State) : Steady s s.loadKeys := by simp +contextual [Steady]
  have hduty (s : State) : Steady s ((List.range 16).foldl (fun s a => s.loadDuty a) s) :=
    foldl_steady _ _ _ fun s a => by simp +contextual [Steady]
  have hblocks (s : State) : Steady s s.startBlocks := by simp +contextual [Steady]
  have heth (s : State) (p : Nat) : Steady s (s.ethTake p) := by simp +contextual [Steady]
  exact (((((s.bare_ready s.lin.starts.wiped).at _ _).steady ((halarms _).trans (hboot _))).at _ _).steady
    ((hkeys _).trans ((hduty _).trans (hblocks _)))).at _ _ |>.steady ((heth _ 0).trans (heth _ 1))

/-- Keeping the queue and each of the invariants, whatever the clock does. -/
def Keeps (s u : State) : Prop :=
  u.pending = s.pending ∧ (Canon s.mem.cells → Canon u.mem.cells) ∧
  (FreshRefs s.stw.flights s.stw.nextRef → FreshRefs u.stw.flights u.stw.nextRef) ∧
  (FreshIds s.air.downs s.air.nextId → FreshIds u.air.downs u.air.nextId)

theorem Steady.keeps {s u : State} (h : Steady s u) : Keeps s u :=
  ⟨h.1, h.2.2⟩

theorem Ready.keeps {s u : State} (h : Ready s.pending u) : Keeps s u := by
  obtain ⟨hp, hc, hr, hi⟩ := h
  exact ⟨hp, fun _ => hc, fun _ => hr, fun _ => hi⟩

theorem Keeps.trans {s u v : State} (h : Keeps s u) (k : Keeps u v) : Keeps s v := by
  obtain ⟨hp, hc, hr, hi⟩ := h
  obtain ⟨kp, kc, kr, ki⟩ := k
  exact ⟨kp.trans hp, kc ∘ hc, kr ∘ hr, ki ∘ hi⟩

theorem State.tick_keeps (s : State) (t : Nat) : Keeps s (s.tick t) := by
  simp [Keeps]

theorem State.running_steady (s : State) : Steady s s.running := by
  simp +contextual [Steady]

theorem execStartSequence_keeps (t : Nat) (pins : StartPins) (sealBad : Bool) (s : State) :
    ∃ u, execStartSequence t pins sealBad s = .next u ∧ Keeps s u := by
  have hrun (u : State) (h : Keeps s u) : Keeps s (u.tick t).running :=
    h.trans ((State.tick_keeps _ _).trans (State.running_steady _).keeps)
  refine ⟨_, rfl, ?_⟩
  cases hon : s.pow.on
  · have hbegun : Keeps s (({ s with free := s.free + 1 } : State).start pins.mesh sealBad) :=
      (State.start_ready { s with free := s.free + 1 } pins.mesh sealBad).keeps
    generalize ({ s with free := s.free + 1 } : State).start pins.mesh sealBad = begun at hbegun ⊢
    simp only [Bool.false_eq_true, ↓reduceIte]
    split
    · simp [Keeps]
    split
    · exact hrun _ hbegun
    · exact hbegun.trans (State.tick_keeps _ _)
  · simp only [Bool.not_true, Bool.false_and, Bool.false_eq_true, ↓reduceIte]
    split
    · exact hrun _ (by simp [Keeps])
    · simp [Keeps]

theorem StepsOn.keeps {s : State} {r : Host.Outcome State Fault Refusal} (h : StepsOn s r) : ∃ u, r = .next u ∧ Keeps s u := by
  obtain ⟨u, e, hp, -, h⟩ := h
  exact ⟨u, e, hp, h⟩

theorem exec_keeps (c : Instr) (s : State) : ∃ u, exec c s = .next u ∧ Keeps s u := by
  by_cases hc : ∀ t pins sealBad, c ≠ .startSequence t pins sealBad
  · exact (exec_stepsOn c s hc).keeps
  · push Not at hc
    obtain ⟨t, pins, sealBad, rfl⟩ := hc
    exact execStartSequence_keeps t pins sealBad s

theorem step_keeps (s : State) : ∃ u, step s = .next u ∧ (Canon s.mem.cells → Canon u.mem.cells) ∧
    (FreshRefs s.stw.flights s.stw.nextRef → FreshRefs u.stw.flights u.stw.nextRef) ∧
    (FreshIds s.air.downs s.air.nextId → FreshIds u.air.downs u.air.nextId) := by
  unfold step
  split
  next c rest _ =>
    obtain ⟨u, e, -, h⟩ := exec_keeps c { s with pending := rest }
    exact ⟨u, e, h⟩
  next => exact ⟨_, rfl, s.idle_steady.keeps.2⟩

/-- Settles O2, from the frame of each command (`exec_stepsOn`) and of a start (`execStartSequence_keeps`). -/
theorem everyCommandCompletesAndKeepsTheQueue : Obligations.EveryCommandCompletesAndKeepsTheQueue := by
  intro c s
  by_cases hc : ∀ t pins sealBad, c ≠ .startSequence t pins sealBad
  · obtain ⟨u, e, hp, hn, -⟩ := exec_stepsOn c s hc
    exact ⟨u, e, hp, fun _ => hn⟩
  · obtain ⟨u, e, hp, -⟩ := exec_keeps c s
    exact ⟨u, e, hp, fun h => absurd h hc⟩

/-- Settles O58: every operation writes memory through the canonical store, and a start empties it. -/
theorem memoryStaysCanonical : Obligations.MemoryStaysCanonical := by
  intro s t hs ht
  obtain ⟨u, e, hc, -⟩ := step_keeps s
  obtain rfl : u = t := by simpa [e] using ht
  rw [Mem.wf_iff_canon] at hs ⊢
  exact hc hs

/-- Settles O59: every operation that adds a command or a downlink takes the next number, and a start empties both lists. -/
theorem numbersStayFresh : Obligations.NumbersStayFresh := by
  intro s t hflights hrefs hdowns hids ht
  obtain ⟨u, e, -, hr, hi⟩ := step_keeps s
  obtain rfl : u = t := by simpa [e] using ht
  obtain ⟨hr, hr'⟩ := hr ⟨hflights, hrefs⟩
  exact ⟨hr, hr', hi ⟨hdowns, hids⟩⟩

/-- Settles O1: the step's equation on a queue that is not empty. -/
theorem stepRunsTheFrontCommand : Obligations.StepRunsTheFrontCommand :=
  fun _ _ _ => rfl

/-- Settles O60: the reset state evaluates to these values. -/
theorem resetMeetsTheInvariants : Obligations.ResetMeetsTheInvariants :=
  ⟨by decide, rfl, rfl, rfl, rfl, rfl, rfl, rfl, rfl, rfl, rfl, rfl⟩

end Sys2Proof.Machine
end

section
/-!
SUPPORT. Rules that the statements about commands share: what a command leaves (`Only`), the frames that stand in transmit queues, the events
that are raised, and messages of an open session.
-/

namespace Sys2Proof.Machine

-- Proofs one after another: the text is long, and is checked in bounded memory.
set_option Elab.async false

open Sys2Proof Sys2Proof.Safety

/-! ## Statements about commands -/

theorem only_iff (parts : List Block) (s u : State) : Only parts s u ↔
    (.regs ∉ parts → u.regs = s.regs) ∧ (.pow ∉ parts → u.pow = s.pow) ∧ (.lin ∉ parts → u.lin = s.lin) ∧
    (.stw ∉ parts → u.stw = s.stw) ∧ (.mem ∉ parts → u.mem = s.mem) ∧ (.eth ∉ parts → u.eth = s.eth) ∧
    (.fau ∉ parts → u.fau = s.fau) ∧ (.cip ∉ parts → u.cip = s.cip) ∧ (.caps ∉ parts → u.caps = s.caps) ∧
    (.mns ∉ parts → u.mns = s.mns) ∧ (.sea ∉ parts → u.sea = s.sea) ∧ (.plx ∉ parts → u.plx = s.plx) ∧
    (.air ∉ parts → u.air = s.air) ∧ (.sc ∉ parts → u.sc = s.sc) ∧ (.spl ∉ parts → u.spl = s.spl) ∧
    (.cnv ∉ parts → u.cnv = s.cnv) ∧ (.chans ∉ parts → u.chans = s.chans) ∧ (.loops ∉ parts → u.loops = s.loops) := by
  constructor
  · intro h
    exact ⟨h .regs, h .pow, h .lin, h .stw, h .mem, h .eth, h .fau, h .cip, h .caps, h .mns, h .sea, h .plx, h .air, h .sc,
      h .spl, h .cnv, h .chans, h .loops⟩
  · rintro ⟨h1, h2, h3, h4, h5, h6, h7, h8, h9, h10, h11, h12, h13, h14, h15, h16, h17, h18⟩ b hb
    cases b
    exacts [h1 hb, h2 hb, h3 hb, h4 hb, h5 hb, h6 hb, h7 hb, h8 hb, h9 hb, h10 hb, h11 hb, h12 hb, h13 hb, h14 hb, h15 hb,
      h16 hb, h17 hb, h18 hb]

/-- A command built on `whenOn` does, in a state that is on, what its body does at the command's instant. -/
theorem does_whenOn {c : Instr} {s : State} {t : Nat} {f : State → State} {effect : State → Prop} (hon : s.pow.on = true)
    (h : effect (f (s.tick t))) (hc : exec c s = whenOn t f s := by unfold exec; rfl) : Does c s effect :=
  ⟨_, hc.trans (whenOn_on t f s hon), h⟩

theorem tget?_map {α β : Type} (f : α → β) (l : Tab α) (k : Nat) :
    tget? (l.map fun e => (e.1, f e.2)) k = (tget? l k).map f := by
  induction l with
  | nil => rfl
  | cons e l ih =>
    obtain ⟨a, v⟩ := e
    simp only [List.map_cons, tget?_cons, ih]
    split <;> rfl

@[simp] theorem State.tick_anyUp (s : State) (t : Nat) : (s.tick t).anyUp = s.anyUp := rfl
@[simp] theorem State.tick_pairActive (s : State) (t : Nat) : (s.tick t).pairActive = s.pairActive := rfl
@[simp] theorem State.tick_reaches (s : State) (t : Nat) (m : Inbound) : (s.tick t).reaches m = s.reaches m := rfl
@[simp] theorem State.tick_takes (s : State) (t : Nat) (m : Inbound) : (s.tick t).takes m = s.takes m := rfl
@[simp] theorem State.tick_headChecks (s : State) (t : Nat) (m : Inbound) : (s.tick t).headChecks m = s.headChecks m := rfl

/-! ## Transmit queues -/

/-- Every frame that stands in a transmit queue stays in it, and the ports keep their links. -/
def FramesStay (s u : State) : Prop :=
  ∀ p, (u.ep p).up = (s.ep p).up ∧ ∀ q, ∀ f ∈ tget [] (s.ep p).queues q, f ∈ tget [] (u.ep p).queues q

theorem FramesStay.of_eth {s u : State} (e : u.eth = s.eth) : FramesStay s u := by
  simp [FramesStay, State.ep, e]

theorem FramesStay.trans {s u v : State} (h : FramesStay s u) (k : FramesStay u v) : FramesStay s v :=
  fun p => ⟨(k p).1.trans (h p).1, fun q f hf => (k p).2 q f ((h p).2 q f hf)⟩

theorem State.queueFrame_stay (s : State) (p q : Nat) (head : Bool) (f : Frame) : FramesStay s (s.queueFrame p q head f) := by
  intro p'
  rw [State.queueFrame_ep]
  split
  · refine ⟨rfl, fun q' g hg => ?_⟩
    simp only [tget_tset]
    split
    next e => subst e; split <;> simp [hg]
    next => exact hg
  · exact ⟨rfl, fun _ _ hg => hg⟩

theorem queued_stay {q : Nat} {f : Frame} {s u : State} (h : Queued q f s) (k : FramesStay s u) : Queued q f u := by
  obtain ⟨p, g, hg, hf⟩ := h
  exact ⟨p, g, (k p).2 q g hg, hf⟩

theorem queued_of_eth {q : Nat} {f : Frame} {s u : State} (h : Queued q f s) (e : u.eth = s.eth) : Queued q f u :=
  queued_stay h (.of_eth e)

theorem State.queueFrame_queuedAs (s : State) (p q : Nat) (head : Bool) (f : Frame) :
    QueuedAs q f (s.protoOf f) (s.queueFrame p q head f) := by
  refine ⟨s.txPort p, { f with proto := s.protoOf f }, ?_, rfl, rfl, rfl, rfl⟩
  rw [State.queueFrame_ep, if_pos rfl]
  simp only [tget_tset_self]
  split <;> simp

theorem queuedAs_queued {q : Nat} {f : Frame} {n : Nat} {s : State} (h : QueuedAs q f n s) : Queued q f s := by
  obtain ⟨p, g, hg, hk, hd, hb, -⟩ := h
  exact ⟨p, g, hg, hk, hd, hb⟩

theorem State.queueFrame_queued (s : State) (p q : Nat) (head : Bool) (f : Frame) : Queued q f (s.queueFrame p q head f) :=
  queuedAs_queued (s.queueFrame_queuedAs p q head f)

theorem State.reject_session_queued (s : State) (m : Inbound) (opcode status : Nat) (o : List Byte) :
    Queued 2 (sessionReply m opcode status m.slot m.gen o) (s.reject m true opcode status o) :=
  State.queueFrame_queued _ _ _ _ _

/-! ## Sessions and events -/

/-- A session goes on: nothing of it moves but its events and records, and no event leaves it. -/
structure Session.Grown (x y : Session) : Prop where
  same : y = { x with evSeq := y.evSeq, events := y.events, evLost := y.evLost, recSeq := y.recSeq, recs := y.recs,
                      recLost := y.recLost, recWhy := y.recWhy }
  events : ∀ e ∈ x.events, e ∈ y.events

theorem Session.Grown.refl (x : Session) : x.Grown x := ⟨rfl, fun _ h => h⟩

theorem Session.Grown.trans {x y z : Session} (h : x.Grown y) (k : y.Grown z) : x.Grown z := by
  refine ⟨?_, fun e he => k.events e (h.events e he)⟩
  rw [k.same, h.same]

/-- Every session goes on. -/
def SessionsGrow (s u : State) : Prop :=
  ∀ k x, tget? s.stw.sess k = some x → ∃ y, tget? u.stw.sess k = some y ∧ x.Grown y

theorem SessionsGrow.of_sess {s u : State} (e : u.stw.sess = s.stw.sess) : SessionsGrow s u :=
  fun _ x h => ⟨x, e ▸ h, .refl x⟩

theorem SessionsGrow.trans {s u v : State} (h : SessionsGrow s u) (k : SessionsGrow u v) : SessionsGrow s v := by
  intro n x hx
  obtain ⟨y, hy, hxy⟩ := h n x hx
  obtain ⟨z, hz, hyz⟩ := k n y hy
  exact ⟨z, hz, hxy.trans hyz⟩

theorem foldl_sessionsGrow {β : Type} (f : State → β → State) (h : ∀ s b, SessionsGrow s (f s b)) (l : List β) (s : State) :
    SessionsGrow s (l.foldl f s) :=
  foldl_keeps (SessionsGrow s) f (fun u b k => k.trans (h u b)) l s (.of_sess rfl)

/-- The session once an event has been put to it, or counted as lost. -/
def Session.posted (x : Session) (now : Nat) (sent : Bool) (body : List Byte) : Session :=
  if 1024 ≤ x.events.length then { x with evSeq := (x.evSeq + 1) % 2 ^ 32, evLost := x.evLost + 1 }
  else { x with
    evSeq := (x.evSeq + 1) % 2 ^ 32
    events := x.events ++ [{ seq := x.evSeq, time := now, sent := sent, resends := 0, body := body }] }

theorem Session.posted_grown (x : Session) (now : Nat) (sent : Bool) (body : List Byte) : x.Grown (x.posted now sent body) := by
  unfold Session.posted
  split
  · exact ⟨rfl, fun _ h => h⟩
  · exact ⟨rfl, fun _ h => List.mem_append_left _ h⟩

theorem State.postEvent_posted (s : State) (k : Nat) (x : Session) (b : List Byte) :
    (s.postEvent k x b).stw = { s.stw with sess := tset s.stw.sess k (x.posted s.now s.anyUp b) } := by
  unfold State.postEvent Session.posted
  dsimp only
  (repeat' split) <;> simp

theorem State.postEvent_grows (s : State) (k : Nat) (x : Session) (b : List Byte) (h : tget? s.stw.sess k = some x) :
    SessionsGrow s (s.postEvent k x b) := by
  intro n y hy
  rw [State.postEvent_posted, tget?_tset]
  split
  next e =>
    subst e
    obtain rfl : x = y := by simpa [h] using hy
    exact ⟨_, rfl, x.posted_grown _ _ _⟩
  next => exact ⟨y, hy, .refl y⟩

theorem State.raiseAt_grows (s : State) (at_ code block inst : Nat) (data : List Byte) :
    SessionsGrow s (s.raiseAt at_ code block inst data) := by
  unfold State.raiseAt
  split; · exact .of_sess rfl
  refine foldl_sessionsGrow _ (fun s e => ?_) _ _
  split
  next x hx =>
    split
    · exact s.postEvent_grows _ _ _ hx
    · exact .of_sess rfl
  next => exact .of_sess rfl

theorem State.raise_grows (s : State) (code block inst : Nat) (data : List Byte) :
    SessionsGrow s (s.raise code block inst data) :=
  s.raiseAt_grows _ _ _ _ _

theorem State.sendEvent_stay (s : State) (k : Nat) (x : Session) (e : StoredEvent) : FramesStay s (s.sendEvent k x e) :=
  State.queueFrame_stay _ _ _ _ _

theorem State.postEvent_stay (s : State) (k : Nat) (x : Session) (b : List Byte) : FramesStay s (s.postEvent k x b) := by
  unfold State.postEvent
  dsimp only
  split; · exact .of_eth rfl
  split
  · exact FramesStay.trans (.of_eth rfl) (State.sendEvent_stay _ _ _ _)
  · exact .of_eth rfl

theorem foldl_framesStay {β : Type} (f : State → β → State) (h : ∀ s b, FramesStay s (f s b)) (l : List β) (s : State) :
    FramesStay s (l.foldl f s) :=
  foldl_keeps (FramesStay s) f (fun u b k => k.trans (h u b)) l s (.of_eth rfl)

theorem State.raiseAt_stay (s : State) (at_ code block inst : Nat) (data : List Byte) :
    FramesStay s (s.raiseAt at_ code block inst data) := by
  unfold State.raiseAt
  split; · exact .of_eth rfl
  refine foldl_framesStay _ (fun s e => ?_) _ _
  split
  · split
    · exact State.postEvent_stay _ _ _ _
    · exact .of_eth rfl
  · exact .of_eth rfl

theorem State.raise_stay (s : State) (code block inst : Nat) (data : List Byte) : FramesStay s (s.raise code block inst data) :=
  s.raiseAt_stay _ _ _ _ _

theorem State.eventsLost_stay (s : State) (k : Nat) : FramesStay s (s.eventsLost k) := by
  unfold State.eventsLost
  split
  · split
    · exact State.postEvent_stay _ _ _ _
    · exact .of_eth rfl
  · exact .of_eth rfl

theorem State.recordsLost_stay (s : State) (k : Nat) : FramesStay s (s.recordsLost k) := by
  unfold State.recordsLost
  split
  · split
    · exact State.postEvent_stay _ _ _ _
    · exact .of_eth rfl
  · exact .of_eth rfl

/-- The loop of `State.raiseAt` reaches a session that is in its list. -/
theorem foldl_posts (body : State → List Byte) (b : List Byte) (code k : Nat) (x : Session) (l : List (Nat × Session)) (s : State)
    (hbody : ∀ u : State, u.lin = s.lin → body u = b) (hk : ∃ e ∈ l, e.1 = k) (hx : tget? s.stw.sess k = some x)
    (hg : bit x.groups (code / 256) = true) (hroom : x.events.length < 1024) :
    ∃ y e, tget? (l.foldl (fun (s : State) e =>
        match tget? s.stw.sess e.1 with
        | some x => if bit x.groups (code / 256) then s.postEvent e.1 x (body s) else s
        | none => s) s).stw.sess k = some y ∧ e ∈ y.events ∧ e.seq = x.evSeq ∧ e.body = b := by
  induction l generalizing s with
  | nil => simp at hk
  | cons a l ih =>
    rw [List.foldl_cons]
    by_cases ha : a.1 = k
    · subst ha
      have hgrow : SessionsGrow (s.postEvent a.1 x (body s)) (l.foldl (fun (s : State) e =>
          match tget? s.stw.sess e.1 with
          | some x => if bit x.groups (code / 256) then s.postEvent e.1 x (body s) else s
          | none => s) (s.postEvent a.1 x (body s))) := by
        refine foldl_sessionsGrow _ (fun s e => ?_) _ _
        split
        next x hx =>
          split
          · exact s.postEvent_grows _ _ _ hx
          · exact .of_sess rfl
        next => exact .of_sess rfl
      obtain ⟨y, hy, hxy⟩ := hgrow a.1 (x.posted s.now s.anyUp (body s)) (by simp [State.postEvent_posted])
      refine ⟨y, { seq := x.evSeq, time := s.now, sent := s.anyUp, resends := 0, body := body s }, ?_, hxy.events _ ?_, rfl, ?_⟩
      · simpa [hx, hg] using hy
      · simp [Session.posted, Nat.not_le.2 hroom]
      · exact hbody s rfl
    · have hk' : ∃ e ∈ l, e.1 = k := by
        obtain ⟨e, he, rfl⟩ := hk
        obtain rfl | he := List.mem_cons.1 he
        · exact absurd rfl ha
        · exact ⟨e, he, rfl⟩
      refine ih _ (fun u hu => hbody u (hu.trans ?_)) hk' ?_
      · split
        · split <;> simp
        · rfl
      · split
        · split
          · simpa [State.postEvent_posted, tget?_tset, Ne.symm ha] using hx
          · exact hx
        · exact hx

theorem tget?_mem {α : Type} (l : Tab α) (k : Nat) (v : α) (h : tget? l k = some v) : (k, v) ∈ l := by
  induction l with
  | nil => simp at h
  | cons e l ih =>
    obtain ⟨a, w⟩ := e
    rw [tget?_cons] at h
    split at h
    next e => subst e; simp_all
    next => exact List.mem_cons_of_mem _ (ih h)

/-- An event that is raised is put to every session subscribed to its group that has room; octets past those stated may follow. -/
theorem State.raiseAt_raised (s : State) (at_ code block inst : Nat) (data rest : List Byte) :
    Raised s (s.raiseAt at_ code block inst (data ++ rest)) at_ code block inst data := by
  intro hfw k x hx hg hroom
  unfold State.raiseAt
  rw [if_neg (by simp [hfw])]
  obtain ⟨y, e, hy, he, hseq, hbody⟩ := foldl_posts (fun s => s.eventBodyAt at_ code block inst (data ++ rest))
    (s.eventBodyAt at_ code block inst (data ++ rest)) code k x s.stw.sess s (fun u hu => by simp [State.eventBodyAt, hu])
    ⟨_, tget?_mem _ _ _ hx, rfl⟩ hx hg hroom
  exact ⟨y, e, rest, hy, he, hseq, by simpa [State.eventBodyAt] using hbody⟩

/-- An event stays raised where sessions only go on, and was raised before where nothing that it says has moved. -/
theorem raised_congr {s s' u u' : State} {at_ code block inst : Nat} {data : List Byte}
    (h : Raised s u at_ code block inst data) (hsess : s'.stw.sess = s.stw.sess) (hfw : s'.fwRuns = s.fwRuns)
    (hlin : s'.lin.epoch = s.lin.epoch) (hu : SessionsGrow u u') : Raised s' u' at_ code block inst data := by
  intro hf k x hx hg hroom
  obtain ⟨y, e, rest, hy, he, hseq, hbody⟩ := h (hfw ▸ hf) k x (hsess ▸ hx) hg hroom
  obtain ⟨z, hz, hyz⟩ := hu k y hy
  exact ⟨z, e, rest, hz, hyz.events e he, hseq, by simpa [State.eventBodyAt, hlin] using hbody⟩

/-! ## Messages of an open session -/

theorem good_moved {s : State} {m : Inbound} {x : Session} (hx : s.sessOf m.slot m.gen = some x) (t : Nat) :
    x.gen = m.gen ∧ tget? s.stw.sess m.slot = some x ∧ (s.tick t).heard m = (s.tick t).setSess m.slot (x.moved (max s.now t) m) ∧
      ((s.tick t).heard m).sessOf m.slot m.gen = some (x.moved (max s.now t) m) := by
  obtain ⟨hg, hs⟩ : x.gen = m.gen ∧ tget? s.stw.sess m.slot = some x := by
    revert hx
    unfold State.sessOf
    split
    · split
      · rintro ⟨⟩
        exact ⟨‹_›, ‹_›⟩
      · simp
    · simp
  have e : (s.tick t).heard m = (s.tick t).setSess m.slot (x.moved (max s.now t) m) := by
    simp [State.heard, hx, Session.moved]
  exact ⟨hg, hs, e, e ▸ State.sessOf_eq _ _ _ _ (by simp) hg⟩

theorem good_sessionMsg {s : State} {m : Inbound} {x : Session} (h : Good s m) (hx : s.sessOf m.slot m.gen = some x) (t opcode : Nat)
    (f : State → Session → State) :
    (s.tick t).sessionMsg m opcode f =
      f ((s.tick t).setSess m.slot (x.moved (max s.now t) m)) (x.moved (max s.now t) m) := by
  obtain ⟨-, -, e, e'⟩ := good_moved hx t
  obtain ⟨-, hreach, htake, hhead⟩ := h
  have h1 : (s.tick t).reaches m = true := hreach
  have h2 : (s.tick t).takes m = true := htake
  have h3 : (s.tick t).headChecks m = none := hhead
  rw [State.sessionMsg, if_neg (by simp [h1]), if_neg (by simp [h2]), h3]
  dsimp only
  rw [e', e]

end Sys2Proof.Machine
end

section
/-!
SUPPORT. Reset (02 R23, R29, R31): what a halt leaves of the lining and of the outputs, and statement O3.
-/

namespace Sys2Proof.Machine

-- Proofs one after another: the text is long, and is checked in bounded memory.
set_option Elab.async false

open Sys2Proof Sys2Proof.Safety

theorem Lining.store_banks (l : Lining) (r : LinRec) : (l.store r).banks = l.banks ∧ (l.store r).bankWrite = l.bankWrite := by
  cases r <;> exact ⟨rfl, rfl⟩

/-- The banks as a reset leaves them: one that is being written fails its check. -/
def Lining.struckBanks (l : Lining) : Tab Bank :=
  match l.bankWrite with
  | some b => tset l.banks b.bank { image := [], crc := 1, valid := false }
  | none => l.banks

/-- The state that a reset leaves, with lining `l` in which the record being written is whole or not at all. -/
def State.haltedOn (s : State) (l : Lining) : State :=
  ({ s with
    lin := { l with writes := [], banks := l.struckBanks, bankWrite := none }
    caps := []
    pow := { s.pow with on := false, phase := 0, restart := false } } : State).undriven

theorem State.halt_eq (s : State) :
    ∃ l, (l = s.lin ∨ ∃ w rest, s.lin.writes = w :: rest ∧ l = s.lin.store w.what) ∧ s.halt = s.haltedOn l := by
  unfold State.halt
  cases hw : s.lin.writes with
  | nil => exact ⟨s.lin, .inl rfl, rfl⟩
  | cons w rest =>
    dsimp only
    split
    · exact ⟨s.lin.store w.what, .inr ⟨w, rest, rfl, rfl⟩, rfl⟩
    · exact ⟨s.lin, .inl rfl, rfl⟩

theorem State.halt_stopped (s : State) : Stopped s s.halt := by
  obtain ⟨l, hl, e⟩ := s.halt_eq
  have hb : l.banks = s.lin.banks ∧ l.bankWrite = s.lin.bankWrite := by
    obtain rfl | ⟨w, rest, -, rfl⟩ := hl
    · exact ⟨rfl, rfl⟩
    · exact Lining.store_banks _ _
  rw [e]
  refine ⟨rfl, rfl, rfl, rfl, ?_, fun p => ?_, ?_, rfl, ?_, rfl, ?_, l, hl, rfl, fun h => ?_, fun b k h => ?_⟩
  · simp [only_iff, State.haltedOn]
  · simp only [State.haltedOn, State.undriven, State.ep, tget]
    have h := tget?_map (fun e : EthPort => { e with up := false, queues := [] }) s.eth p
    rw [h]
    cases tget? s.eth p <;> exact ⟨rfl, rfl⟩
  · exact List.forall_mem_map.2 fun e _ => rfl
  · exact List.forall_mem_map.2 fun e _ => ⟨rfl, List.forall_mem_map.2 fun x _ => ⟨rfl, rfl⟩⟩
  · exact List.forall_mem_map.2 fun e _ => ⟨rfl, rfl, rfl, rfl⟩
  · simp [State.haltedOn, State.undriven, Lining.struckBanks, hb, h]
  · simp [State.haltedOn, State.undriven, Lining.struckBanks, hb, h, tget?_tset]

/-- Neither the clock nor the power's record before, nor what else the power's record says after it, is part of `Stopped`. -/
theorem stopped_congr {s u : State} (h : Stopped s u) (free now : Nat) (p q : Power) (hq : q.on = false) :
    Stopped { s with free := free, now := now, pow := p } { u with pow := q } := by
  obtain ⟨-, hcaps, hwrites, hbank, honly, h⟩ := h
  refine ⟨hq, hcaps, hwrites, hbank, ?_, h⟩
  simp [only_iff] at honly ⊢
  simp [honly]

theorem State.halt_pow (s : State) : s.halt.pow = { s.pow with on := false, phase := 0, restart := false } := by
  obtain ⟨l, -, e⟩ := s.halt_eq
  rw [e]
  rfl

/-- What halting leaves is a stop, wherever the clock stood and whatever else the power's record says. -/
theorem State.halt_stopped_at (s : State) (free now : Nat) (p q : Power) (hq : q.on = false) :
    Stopped s { ({ s with free := free, now := now, pow := p } : State).halt with pow := q } :=
  stopped_congr (State.halt_stopped { s with free := free, now := now, pow := p }) s.free s.now s.pow q hq

theorem State.askRestart_now (s : State) (h : s.pendingWrites = false) :
    s.askRestart = ({ s with pow := { s.pow with restart := true } } : State).halt := by
  refine if_pos ?_
  have : ({ s with pow := { s.pow with restart := true } } : State).pendingWrites = false := h
  rw [this]
  rfl

theorem State.askRestart_later (s : State) (h : s.pendingWrites = true) :
    s.askRestart = { s with pow := { s.pow with restart := true } } := by
  refine if_neg ?_
  have : ({ s with pow := { s.pow with restart := true } } : State).pendingWrites = true := h
  rw [this]
  simp

/-- Settles O3: each of the three commands halts the block, or a RESTART waits for the lining. -/
theorem resetStopsTheBlock : Obligations.ResetStopsTheBlock := by
  intro t s hon
  have hstop (p : Power) : Stopped s ({ s.tick t with pow := p } : State).halt :=
    State.halt_stopped_at s _ (max s.now t) p _ (by simp)
  refine ⟨⟨_, rfl, ?_⟩, fun hp => does_whenOn hon ?_, fun hw => does_whenOn hon ?_, fun hw => does_whenOn hon ?_⟩
  · dsimp only
    rw [if_pos (by simpa using hon)]
    exact ⟨State.halt_stopped_at s _ (max s.now t) s.pow _ (by simp [State.halt_pow]), rfl⟩
  · rw [if_pos (by simpa using hp)]
    exact ⟨hstop s.pow, by simp [State.halt_pow, hp]⟩
  · rw [(s.tick t).askRestart_now hw]
    exact ⟨hstop _, by simp [State.halt_pow]⟩
  · rw [(s.tick t).askRestart_later hw]
    simp [only_iff, hon]

end Sys2Proof.Machine
end

section
/-!
SUPPORT. Mailboxes (03): sessions, acknowledgements, timers, the answers to unwanted frames and the arrival of firmware commands;
statements O7, O8, O9, O10, O11 and O12.
-/

namespace Sys2Proof.Machine

-- Proofs one after another: the text is long, and is checked in bounded memory.
set_option Elab.async false

open Sys2Proof Sys2Proof.Safety

/-! ## Answers of the mailbox engine -/

theorem State.reject_direct (s : State) (m : Inbound) (opcode status : Nat) (o : List Byte) :
    Direct m opcode status o (s.reject (cleanTag m) false opcode status o) :=
  State.queueFrame_queued _ _ _ _ _

theorem State.reject_only (s : State) (m : Inbound) (session : Bool) (opcode status : Nat) (o : List Byte) :
    Only [.eth] s (s.reject m session opcode status o) := by
  simp [only_iff]

/-! ## Sessions -/

/-- Settles O7, along the checks of `State.openSession`. -/
theorem sessionOpenGrantsASession : Obligations.SessionOpenGrantsASession := by
  intro t m s hon hreach htake hver hlen hsize hwant hmin hmax
  have hbody : ∀ P : State → Prop, P ((s.tick t).openSession m) → Does (.sessionOpen t m) s P := by
    refine fun P h => does_whenOn hon ?_
    have h1 : (s.tick t).reaches m = true := hreach
    have h2 : (s.tick t).takes m = true := htake
    simpa [h1, h2, hver, hlen] using h
  have hargs : ¬(m.operand.length ≠ 8 ∨ beAt m.operand 0 2 < 256 ∨ beAt m.operand 2 2 = 0 ∨ 4096 < beAt m.operand 2 2) := by omega
  refine ⟨fun k rights hk hr hfree => hbody _ ?_, fun rights hr hfull => hbody _ ?_, fun hr => hbody _ ?_⟩
  all_goals have hr' : (s.tick t).aclRights m.src = _ := hr
  · have hk' : firstBelow 16 (fun k => (tget? (s.tick t).stw.sess k).isNone) = some k := hk
    have hgrant : min (beAt m.operand 2 2) (s.tick t).stw.freeCredits ≠ 0 := by
      have : 0 < (s.tick t).stw.freeCredits := hfree
      omega
    rw [State.openSession, if_neg hargs, hr']
    dsimp only
    rw [hk']
    dsimp only
    rw [if_neg hgrant]
    refine ⟨(s.tick t).newSession m (min (beAt m.operand 2 2) (s.tick t).stw.freeCredits) rights, ?_, rfl, ?_, rfl, rfl, rfl, rfl,
      rfl, rfl, rfl, rfl, rfl, ?_, (s.tick t).open8s 930 3, by simp [State.open8s], State.queueFrame_queued _ _ _ _ _⟩
    · simp
    · exact Nat.succ_ne_zero _
    · simp [only_iff]
  · rw [State.openSession, if_neg hargs, hr']
    dsimp only
    have hbusy : Only [.eth] s ((s.tick t).reject m true 1 Status.busy ((s.tick t).busyOperand 3 (s.tick t).expiryHint)) ∧
        ∃ o, Queued 2 (sessionReply m 1 Status.busy m.slot m.gen o)
          ((s.tick t).reject m true 1 Status.busy ((s.tick t).busyOperand 3 (s.tick t).expiryHint)) :=
      ⟨by simp [only_iff], _, State.reject_session_queued _ _ _ _ _⟩
    split
    · rw [if_pos]
      · exact hbusy
      · have : (s.tick t).stw.freeCredits = 0 := by simp_all
        omega
    · exact hbusy
  · rw [State.openSession, if_neg hargs, hr']
    exact ⟨by simp [only_iff], State.reject_session_queued _ _ _ _ _⟩

theorem State.closeSession_sess (s : State) (k : Nat) (x : Session) : (s.closeSession k x).stw.sess = tdel s.stw.sess k := rfl
theorem State.closeSession_eth (s : State) (k : Nat) (x : Session) : (s.closeSession k x).eth = s.eth := rfl

/-- Settles O8. -/
theorem sessionsEndAndStayAlive : Obligations.SessionsEndAndStayAlive := by
  refine ⟨fun t m x s h hx => ?_, fun t slot x s hon hx => ?_⟩
  · obtain ⟨hgen, hs, -, -⟩ := good_moved hx t
    have hother (k : Nat) (hk : k ≠ m.slot) (y : Session) : tget? (tset s.stw.sess m.slot y) k = tget? s.stw.sess k :=
      tget?_tset_ne _ _ hk
    refine ⟨does_whenOn h.1 ?_, does_whenOn h.1 ?_⟩ <;> rw [good_sessionMsg h hx]
    · refine ⟨?_, fun k hk => ?_, ?_, ?_, queued_of_eth (State.reject_session_queued _ _ _ _ _) (State.closeSession_eth _ _ _), ?_⟩
      · simp [State.closeSession_sess]
      · simp [State.closeSession_sess, tget?_tdel_ne _ hk, hother k hk]
      · simp [State.closeSession, Session.moved, hgen]
      · simp
      · simp [only_iff]
    · refine ⟨?_, fun k hk => ?_, ?_, ?_⟩
      · simp [Session.moved]
      · simp [hother k hk]
      · exact State.queueFrame_queuedAs _ _ _ _ _
      · simp [only_iff]
  · refine ⟨fun hlate => does_whenOn hon ?_, fun hearly => does_whenOn hon ?_⟩
    · simp only [State.tick_stw, hx]
      rw [if_pos (by simpa [State.idleNs] using hlate)]
      simp [State.closeSession_sess, only_iff]
    · simp only [State.tick_stw, hx]
      rw [if_neg (by simpa [State.idleNs] using hearly)]
      simp [only_iff]

/-! ## Acknowledgement -/

theorem Session.posted_fields (x : Session) (now : Nat) (sent : Bool) (b : List Byte) :
    (x.posted now sent b).recs = x.recs ∧ (x.posted now sent b).recLost = x.recLost ∧
      ∃ more, (x.posted now sent b).events = x.events ++ more := by
  unfold Session.posted
  split
  · exact ⟨rfl, rfl, [], by simp⟩
  · exact ⟨rfl, rfl, _, rfl⟩

/-- A notice of lost events goes into the session's events, and only where some were lost. -/
theorem State.eventsLost_session (s : State) (k : Nat) (x : Session) (hx : tget? s.stw.sess k = some x) :
    ∃ y more, tget? (s.eventsLost k).stw.sess k = some y ∧ y.recs = x.recs ∧ y.events = x.events ++ more ∧
      y.recLost = x.recLost ∧ (x.evLost = 0 → more = []) := by
  unfold State.eventsLost
  rw [hx]
  dsimp only
  split
  next h =>
    obtain ⟨h1, h2, more, h3⟩ := Session.posted_fields { x with evLost := 0 } s.now s.anyUp (s.eventBody 2 0 0 (be 4 x.evLost))
    exact ⟨_, more, by simp [State.postEvent_posted], h1, h3, h2, fun h0 => absurd h0 (by omega)⟩
  next => exact ⟨x, [], hx, rfl, by simp, rfl, fun _ => rfl⟩

/-- The same for a notice of lost records. -/
theorem State.recordsLost_session (s : State) (k : Nat) (x : Session) (hx : tget? s.stw.sess k = some x) :
    ∃ y more, tget? (s.recordsLost k).stw.sess k = some y ∧ y.recs = x.recs ∧ y.events = x.events ++ more ∧
      (x.recLost = 0 → more = []) := by
  unfold State.recordsLost
  rw [hx]
  dsimp only
  split
  next h =>
    obtain ⟨h1, h2, more, h3⟩ := Session.posted_fields { x with recLost := 0, recWhy := 0 } s.now s.anyUp
      (s.eventBody 3 0 0 (be 4 x.recLost ++ be 1 x.recWhy ++ s.open8s 900 3))
    exact ⟨_, more, by simp [State.postEvent_posted], h1, h3, fun h0 => absurd h0 (by omega)⟩
  next => exact ⟨x, [], hx, rfl, by simp, fun _ => rfl⟩

theorem tget?_of_mem {α : Type} (l : Tab α) (h : ascending l = true) (e : Nat × α) (he : e ∈ l) : tget? l e.1 = some e.2 := by
  induction l with
  | nil => simp at he
  | cons a l ih =>
    obtain ⟨k, v⟩ := a
    obtain ⟨hlt, hasc⟩ := (ascending_cons k v l).1 h
    obtain rfl | he := List.mem_cons.1 he
    · simp
    · have : k ≠ e.1 := (hlt e he).ne
      simp [this, ih hasc he]

theorem tset_mem {α : Type} (l : Tab α) (k : Nat) (v : α) (h : ascending l = true) (e : Nat × α) (he : e ∈ tset l k v) :
    e = (k, v) ∨ (e ∈ l ∧ e.1 ≠ k) := by
  by_cases hk : e.1 = k
  · have := tget?_of_mem _ (ascending_tset l k v h) e he
    rw [hk, tget?_tset_self] at this
    exact .inl (Prod.ext hk (Option.some.inj this).symm)
  · exact (tset_keys l k v e he).imp_right fun h => ⟨h, hk⟩

/-- Settles O9: the two streams of `State.acknowledge`. -/
theorem acknowledgedEventsAndRecordsAreReleased : Obligations.AcknowledgedEventsAndRecordsAreReleased := by
  intro t m x s h hx hlen
  obtain ⟨hgen, hs, e, e'⟩ := good_moved hx t
  obtain ⟨hon, hreach, htake, hhead⟩ := h
  have hbody (n : Nat) (hn : octet m.operand 0 = n) (h1 : n ≤ 1) (P : State → Prop)
      (hP : P (((s.tick t).setSess m.slot (x.moved (max s.now t) m)).acknowledge m.slot (x.moved (max s.now t) m) n
        (beAt m.operand 4 4))) : Does (.ackMessage t m) s P := by
    refine does_whenOn hon ?_
    have h1' : (s.tick t).reaches m = true := hreach
    have h2' : (s.tick t).takes m = true := htake
    have h3' : (s.tick t).headChecks m = none := hhead
    rw [if_neg (by simp [h1']), if_neg (by simp [h2']), h3']
    dsimp only
    rw [e', e]
    simpa [hlen, hn, h1] using hP
  refine ⟨fun h0 => hbody 0 h0 (by omega) _ ?_, fun h1 => hbody 1 h1 (by omega) _ ?_⟩
  · unfold State.acknowledge
    rw [if_pos rfl]
    generalize hv : ((s.tick t).setSess m.slot (x.moved (max s.now t) m)).setSess m.slot _ = v
    have hvx : tget? v.stw.sess m.slot = some { x.moved (max s.now t) m with
        events := x.events.filter fun e => !covered (beAt m.operand 4 4) e.seq } := by
      rw [← hv]; simp [Session.moved]
    obtain ⟨y, more, hy, hrecs, hev, hlost, hmore⟩ := v.eventsLost_session _ _ hvx
    obtain ⟨z, more', hz, hrecs', hev', hmore'⟩ := (v.eventsLost m.slot).recordsLost_session _ _ hy
    refine ⟨z, more ++ more', hz, hrecs'.trans hrecs, by simp [hev', hev], fun h0 h0' => ?_, ?_, ?_⟩
    · simp [hmore h0, hmore' (hlost.trans h0')]
    · rw [← hv]; simp
    · rw [← hv]; simp [only_iff]
  · unfold State.acknowledge
    rw [if_neg (by decide)]
    dsimp only
    generalize hr : ((s.tick t).setSess m.slot (x.moved (max s.now t) m)).setSess m.slot _ = r
    have hrx : tget? r.stw.sess m.slot = some { x.moved (max s.now t) m with
        recs := x.recs.filter fun r => !covered (beAt m.operand 4 4) r.seq } := by
      rw [← hr]; simp [Session.moved]
    obtain ⟨y, more, hy, hrecs, -, -⟩ := ({ r with stw := r.stw.sweep } : State).recordsLost_session m.slot _ hrx
    have harea (a : AreaRec) : a ∈ (({ r with stw := r.stw.sweep } : State).recordsLost m.slot).stw.area ↔
        a ∈ s.stw.area ∧ ∃ e ∈ r.stw.sess, ∃ q ∈ e.2.recs, q.id = a.id := by
      simp [Stw.sweep, ← hr]
    refine ⟨y, hy, hrecs, fun a ha => ((harea a).1 ha).1, fun a _ hasc hothers hown ha => ?_, ?_⟩
    · obtain ⟨-, e, he, q, hq, hid⟩ := (harea a).1 ha
      rw [← hr] at he
      obtain rfl | ⟨he, hne⟩ := tset_mem _ _ _ (ascending_tset _ _ _ hasc) e he
      · exact hown q (hrecs ▸ hq) hid
      · obtain rfl | ⟨he, -⟩ := tset_mem _ _ _ hasc e he
        · exact hne rfl
        · exact hothers e he hne q hq hid
    · rw [← hr]
      simp [only_iff]

/-! ## Timers of the mailbox engine (03 R61, R64, R67) -/

theorem State.queueFrame_head (s : State) (p q : Nat) (f : Frame) :
    (tget [] ((s.queueFrame p q true f).ep (s.txPort p)).queues q).head? = some { f with proto := s.protoOf f } := by
  rw [State.queueFrame_ep, if_pos rfl]
  simp

theorem State.sendPending_head (s : State) (f : Flight) (x : Session) (hx : s.sessOf f.slot f.gen = some x) :
    ∃ p g, (tget [] ((s.sendPending f 4).ep p).queues 2).head? = some g ∧ g.kind = .response ∧ g.dst = f.src ∧
      g.body = message 1 4 f.mb f.tag f.opcode f.seq f.slot f.gen Status.pending [] := by
  unfold State.sendPending
  rw [hx]
  exact ⟨_, _, State.queueFrame_head _ _ _ _, rfl, rfl, rfl⟩

/-- A record's message of its own. -/
def State.recordFrame (s : State) (k : Nat) (x : Session) (r : StoredRec) (b : List Byte) : Frame :=
  { kind := .records, dst := x.addr (s.reg F.ethPrioRecPcp), body := message 4 0 0 0 0 r.seq k x.gen 0 b, recs := 1 }

theorem State.sendRecord_eth (s : State) (k : Nat) (x : Session) (r : StoredRec) (b : List Byte) :
    ∃ p f, f ∈ tget [] ((s.sendRecord k x r b).ep p).queues 3 ∧ f.kind = .records ∧
      (f.body = message 4 0 0 0 0 r.seq k x.gen 0 b ∨
        ∃ g ∈ tget [] (s.ep p).queues 3, g.kind = .records ∧ g.dst = f.dst ∧ g.body.length + b.length ≤ x.maxmsg ∧
          (beAt g.body 8 4 + g.recs) % 2 ^ 32 = r.seq ∧
          f.body = message 4 0 0 0 0 (beAt g.body 8 4) k x.gen 0 (g.body.drop 16 ++ b)) := by
  obtain ⟨p, f, hf, hk, -, hb⟩ := s.queueFrame_queued x.port 3 false (s.recordFrame k x r b)
  unfold State.sendRecord
  dsimp only
  split
  next g hg =>
    split
    next hpacks =>
      simp only [Frame.packs, Bool.and_eq_true, decide_eq_true_eq] at hpacks
      obtain ⟨⟨⟨⟨hkind, hdst⟩, -⟩, hseq⟩, hfit⟩ := hpacks
      refine ⟨s.txPort x.port, g.pack k x b, ?_, hkind, .inr ⟨g, List.mem_of_getLast? hg, hkind, rfl, hfit, hseq, rfl⟩⟩
      simp [State.ep_setEp]
    next => exact ⟨p, f, hf, hk, .inl hb⟩
  next => exact ⟨p, f, hf, hk, .inl hb⟩

/-- What `find?` gives satisfies its test and stands in its list. -/
theorem find?_spec {α : Type} {l : List α} {p : α → Bool} {x : α} (h : l.find? p = some x) : p x = true ∧ x ∈ l :=
  ⟨List.find?_some h, List.mem_of_find?_eq_some h⟩

/-- Settles O10. -/
theorem mailboxTimersResend : Obligations.MailboxTimersResend := by
  refine ⟨fun t slot tag f x s hon hf hx => does_whenOn hon ?_, fun t slot seq e x s hon hup hx he => ⟨fun hr => does_whenOn hon ?_,
    fun hr => does_whenOn hon ?_⟩, fun t slot seq r a x s hon hup hx hr ha => does_whenOn hon ?_⟩
  · split
    next f' h' =>
      obtain rfl : f' = f := Option.some.inj (h'.symm.trans hf)
      obtain ⟨p, g, hg, hk, hd, hb⟩ := (s.tick t).sendPending_head f' x hx
      exact ⟨⟨p, g, hg, hk, hd, hb⟩, by simp [State.setFlight], by simp, by simp [only_iff]⟩
    next h' => exact absurd (h'.symm.trans hf) (by simp)
  · rw [show tget? (s.tick t).stw.sess slot = some x from hx]
    dsimp only
    split
    next h' => exact absurd (h'.symm.trans he) (by simp)
    next e' h' =>
      obtain rfl : e' = e := Option.some.inj (h'.symm.trans he)
      rw [if_neg (by simpa using hup), if_pos hr]
      refine ⟨_, by simp; rfl, ?_, by simp, by simp [only_iff]⟩
      obtain ⟨hp, hm⟩ := find?_spec he
      simp only [Bool.and_eq_true, decide_eq_true_eq] at hp
      exact List.mem_map.2 ⟨e', hm, by simp [hp]⟩
  · rw [show tget? (s.tick t).stw.sess slot = some x from hx]
    dsimp only
    split
    next h' => exact absurd (h'.symm.trans he) (by simp)
    next e' h' =>
      obtain rfl : e' = e := Option.some.inj (h'.symm.trans he)
      rw [if_neg (by simpa using hup), if_neg (Nat.not_lt.2 hr)]
      generalize hv : (s.tick t).setSess slot _ = v
      have hvx : tget? v.stw.sess slot = some { x with events := x.events.filter (fun y => decide (y.seq ≠ seq)), evLost := x.evLost + 1 } := by
        rw [← hv]; simp
      obtain ⟨y, more, hy, -, hev, -⟩ := v.eventsLost_session _ _ hvx
      refine ⟨y, more, hy, hev, ?_⟩
      rw [← hv]
      simp [only_iff]
  · rw [show tget? (s.tick t).stw.sess slot = some x from hx]
    dsimp only
    split
    next h' => exact absurd (h'.symm.trans hr) (by simp)
    next r' h' =>
      obtain rfl : r' = r := Option.some.inj (h'.symm.trans hr)
      rw [show (s.tick t).stw.area.find? (fun a => decide (a.id = r'.id)) = some a from ha]
      dsimp only
      rw [if_neg (by simpa using hup)]
      obtain ⟨p, f, hf, hk, hb⟩ := State.sendRecord_eth ((s.tick t).setSess slot { x with recs := x.recs.map fun y =>
        if y.seq = seq then { r' with time := (s.tick t).now } else y }) slot x { r' with time := (s.tick t).now } a.body
      refine ⟨_, by simp; rfl, ?_, by simp, ⟨p, f, hf, hk, hb⟩, by simp [only_iff]⟩
      obtain ⟨hp, hm⟩ := find?_spec hr
      simp only [Bool.and_eq_true, decide_eq_true_eq] at hp
      exact List.mem_map.2 ⟨r', hm, by simp [hp]⟩

/-! ## Frames that are no wanted command (03 R57; 18 R410, R413) -/

theorem State.sessionMsg_refused (s : State) (m : Inbound) (opcode e : Nat) (f : State → Session → State)
    (hr : s.reaches m = true) (ht : s.takes m = true) (he : s.headChecks m = some e) :
    s.sessionMsg m opcode f = s.reject m true opcode e [] := by
  rw [State.sessionMsg, if_neg (by simp [hr]), if_neg (by simp [ht]), he]

theorem State.headChecks_version (s : State) (m : Inbound) (h : m.version ≠ 1) : s.headChecks m = some Status.badOpcode := by
  simp [State.headChecks, h]

/-- Settles O11. -/
theorem unwantedFramesAreAnsweredOrDropped : Obligations.UnwantedFramesAreAnsweredOrDropped := by
  refine ⟨fun t opcode m s h hop => does_whenOn h.1 ?_, fun t opcode m x s h hop => does_whenOn h.on ?_,
    fun t opcode m s hon hr ht hv => ⟨does_whenOn hon ?_, does_whenOn hon ?_⟩, fun t f s hon hup => ?_, fun t port mac ip s hon hup => ?_⟩
  · have hx : ∃ x, s.sessOf m.slot m.gen = some x := by
      obtain ⟨-, -, -, hhead⟩ := h
      revert hhead
      unfold State.headChecks
      (repeat' split) <;> simp_all
    obtain ⟨x, hx⟩ := hx
    dsimp only
    rw [if_neg (by simp [hop]), if_pos rfl, good_sessionMsg (m := cleanTag m) h hx]
    exact ⟨State.reject_session_queued _ _ _ _ _, by simp [only_iff]⟩
  · have e1 : (s.tick t).reaches (cleanTag m) = true := h.reaches
    have e2 : (s.tick t).takes (cleanTag m) = true := (show s.takes m = true from sound_takes h)
    have e3 : (s.tick t).headChecks (cleanTag m) = none := (show s.headChecks m = none from sound_headChecks h)
    have e4 : (s.tick t).heard (cleanTag m) = (s.tick t).setSess m.slot (x.moved (max s.now t) m) :=
      (show (s.tick t).heard m = _ from sound_heard (sound_tick h t))
    have hs : ((s.tick t).setSess m.slot (x.moved (max s.now t) m)).sessOf (cleanTag m).slot (cleanTag m).gen =
        some (x.moved (max s.now t) m) :=
      State.sessOf_eq _ _ _ _ (by simp [cleanTag]) (by simp [Session.moved, h.gen, cleanTag])
    have ht := sound_tagChecks h opcode ((s.tick t).setSess m.slot (x.moved (max s.now t) m)) (x.moved (max s.now t) m) rfl rfl
    dsimp only
    rw [if_neg (by simp [hop]), if_neg (by simp), if_neg (by simp [e1]), if_neg (by simp [e2]), e3]
    dsimp only
    rw [e4, hs]
    dsimp only
    rw [ht]
    exact ⟨State.reject_direct _ _ _ _ _, by simp, by simp [only_iff]⟩
  · dsimp only
    rw [if_neg (by simp [cleanTag, hv]), if_pos rfl, (s.tick t).sessionMsg_refused (cleanTag m) _ _ _ hr ht (State.headChecks_version _ _ hv)]
    exact ⟨State.reject_session_queued _ _ _ _ _, by simp [only_iff]⟩
  · have e1 : (s.tick t).reaches (cleanTag m) = true := hr
    have e2 : (s.tick t).takes (cleanTag m) = true := ht
    dsimp only
    rw [if_neg (by simp [cleanTag, hv]), if_neg (by simp), if_neg (by simp [e1]), if_neg (by simp [e2]),
      State.headChecks_version _ _ (show (cleanTag m).version ≠ 1 from hv)]
    exact ⟨State.reject_direct _ _ _ _ _, by simp [only_iff]⟩
  · refine ⟨fun hf => does_whenOn hon ?_, fun hf => does_whenOn hon ?_, fun hf => does_whenOn hon ?_⟩
    all_goals
      have hf' : (s.tick t).fateOf f = _ := hf
      rw [if_neg (by simpa using hup), hf']
    simp [only_iff]
  · refine ⟨fun h0 => does_whenOn hon ?_, fun h0 => does_whenOn hon ?_⟩ <;> dsimp only <;>
      rw [if_pos ⟨by simpa using hup, h0, rfl⟩]
    · exact ⟨by simp [only_iff], _, State.queueFrame_queued _ _ _ _ _, rfl, rfl, rfl⟩
    · exact ⟨by simp [only_iff], _, State.queueFrame_queued _ _ _ _ _, rfl, rfl, rfl, rfl⟩

/-! ## Firmware commands on arrival (03 R54 to R57) -/

theorem exec_firmwareRow {c : Instr} {t : Nat} {m : Inbound} {opcode need : Nat} (h : firmwareRow c = some (t, m, opcode, need))
    (s : State) : exec c s = whenOn t (fun s => s.arriveFw m opcode need) s := by
  cases c <;> simp only [firmwareRow, Option.some.injEq, Prod.mk.injEq, reduceCtorEq] at h <;>
    (obtain ⟨rfl, rfl, rfl, rfl⟩ := h; unfold exec; rfl)


theorem State.arriveFw_refused (s : State) (m : Inbound) (opcode need e : Nat) (hr : s.reaches m = true) (ht : s.takes m = true)
    (he : s.headChecks m = some e) : s.arriveFw m opcode need = s.reject (cleanTag m) false opcode e [] := by
  have e1 : s.reaches (cleanTag m) = true := hr
  have e2 : s.takes (cleanTag m) = true := ht
  have e3 : s.headChecks (cleanTag m) = some e := he
  simp only [State.arriveFw, State.accept, e1, e2, e3, Bool.not_true, Bool.false_eq_true, if_false]

/-- Checks 1 to 4 of 03 R57 pass for session `x`. -/
structure Opened (s : State) (m : Inbound) (x : Session) : Prop where
  reaches : s.reaches m = true
  takes : s.takes m = true
  version : m.version = 1
  length : lenOk m = true
  session : s.sessOf m.slot m.gen = some x

theorem Opened.headChecks {s : State} {m : Inbound} {x : Session} (h : Opened s m x) : s.headChecks m = none := by
  simp [State.headChecks, h.version, h.length, h.session]

/-- What is left of an arrival once checks 1 to 4 have passed: checks 5 to 10, on the state in which the session is active. -/
theorem Opened.arriveFw {s : State} {m : Inbound} {x : Session} (h : Opened s m x) (opcode need : Nat) :
    let v := s.setSess m.slot (x.moved s.now m)
    (∀ u, v.tagChecks (cleanTag m) opcode (x.moved s.now m) = some u → s.arriveFw m opcode need = u) ∧
    (v.tagChecks (cleanTag m) opcode (x.moved s.now m) = none →
      (x.rights &&& need ≠ need → s.arriveFw m opcode need = v.reject (cleanTag m) false opcode Status.notPermitted []) ∧
      ∀ why retry, x.rights &&& need = need → s.busyWith m.mb = some (why, retry) →
        s.arriveFw m opcode need = v.reject (cleanTag m) false opcode Status.busy (v.busyOperand why retry)) := by
  intro v
  have e1 : s.reaches (cleanTag m) = true := h.reaches
  have e2 : s.takes (cleanTag m) = true := h.takes
  have e3 : s.headChecks (cleanTag m) = none := h.headChecks
  obtain ⟨hgen, -, -⟩ := good_moved h.session 0
  have e4 : s.heard (cleanTag m) = v := by simp [v, State.heard, cleanTag, h.session, Session.moved]
  have hs : v.sessOf (cleanTag m).slot (cleanTag m).gen = some (x.moved s.now m) :=
    State.sessOf_eq _ _ _ _ (by simp [v, cleanTag]) (by simp [Session.moved, hgen, cleanTag])
  refine ⟨fun u hu => ?_, fun hn => ⟨fun hrights => ?_, fun why retry hrights hb => ?_⟩⟩
  · simp only [State.arriveFw, State.accept, e1, e2, e3, e4, hs, hu, Bool.not_true, Bool.false_eq_true, if_false]
  · have hr : (x.moved s.now m).rights &&& need ≠ need := hrights
    simp only [State.arriveFw, State.accept, e1, e2, e3, e4, hs, hn, if_pos hr, Bool.not_true, Bool.false_eq_true, if_false]
  · have hr : ¬ (x.moved s.now m).rights &&& need ≠ need := not_not.2 hrights
    have hb' : v.busyWith (cleanTag m).mb = some (why, retry) := hb
    simp only [State.arriveFw, State.accept, e1, e2, e3, e4, hs, hn, if_neg hr, hb', Bool.not_true, Bool.false_eq_true, if_false]

theorem State.tagChecks_flights {s u : State} {m : Inbound} {opcode : Nat} {x : Session} (h : s.tagChecks m opcode x = some u) :
    u.stw = s.stw := by
  have := State.tagChecks_leaves h
  simp [this]

/-- A message adds to the commands in flight at most the command that it makes. -/
theorem State.arriveFw_flights (s : State) (m : Inbound) (opcode need : Nat) :
    (s.arriveFw m opcode need).stw.flights = s.stw.flights ∨
      (s.arriveFw m opcode need).stw.flights = s.stw.flights ++ [flightOf s m opcode s.now .queued] := by
  unfold State.arriveFw State.accept
  dsimp only
  split; · simp
  split; · simp
  split; · simp
  split; · simp
  split
  next h => simp [State.tagChecks_flights h]
  split; · simp
  rw [if_neg (by decide)]
  split; · simp
  simp [State.enter, flightOf, cleanTag]

/-- Settles O12. -/
theorem firmwareCommandsQueueOrAreRejected : Obligations.FirmwareCommandsQueueOrAreRejected := by
  refine ⟨fun c t m opcode need s hc => ⟨fun x h => ?_, ?_⟩, fun c t m opcode need s hc hon => ?_⟩
  · have hon := h.on
    refine does_whenOn h.on ?_ (exec_firmwareRow hc s)
    rw [served_arrives h]
    obtain hf := entered_frame s m opcode t x .queued
    refine ⟨_, entered_flights s m opcode t x .queued, entered_sess s m opcode t x .queued, ?_, rfl, ?_⟩
    · simp [Session.busyWith]
    · simp [only_iff, hf]
  · rw [Does, exec_firmwareRow hc]
    refine ⟨_, rfl, ?_⟩
    split
    · refine ⟨by simp [only_iff], ?_⟩
      have := (s.tick t).arriveFw_flights m opcode need
      simpa [flightOf] using this
    · simp [only_iff]
  · have hdoes (P : State → Prop) (h : P ((s.tick t).arriveFw m opcode need)) : Does c s P :=
      does_whenOn hon h (exec_firmwareRow hc s)
    refine ⟨fun hr hup hvid => hdoes _ ?_, fun hvid => hdoes _ ?_, fun hr ht => hdoes _ ?_, fun hr ht => ?_⟩
    · have e1 : (s.tick t).reaches (cleanTag m) = false := hr
      have e2 : (s.tick t).strayFrame (cleanTag m) = (s.tick t).bump F.ethEpCntRxdrop m.port := by
        refine if_pos (show ((s.ep m.port).up && (s.strangeTag m.src.tag || !s.seamMarked m)) = true from ?_)
        simpa [hup] using hvid
      simp [State.arriveFw, State.accept, e1, e2]
    · have hstray : ((s.ep m.port).up && (s.strangeTag m.src.tag || !s.seamMarked m)) = false := by
        rcases hvid with h | ⟨h, h'⟩ <;> simp [*]
      have e1 : (s.tick t).reaches (cleanTag m) = false := by
        show s.reaches m = false
        rcases hvid with h | ⟨h, h'⟩ <;> simp [State.reaches, *]
      have e2 : (s.tick t).strayFrame (cleanTag m) = s.tick t := by
        refine if_neg (show ¬((s.ep m.port).up && (s.strangeTag m.src.tag || !s.seamMarked m)) = true from ?_)
        rw [hstray]
        exact Bool.false_ne_true
      simp [State.arriveFw, State.accept, e1, e2, only_iff]
    · have e1 : (s.tick t).reaches (cleanTag m) = true := hr
      have e2 : (s.tick t).takes (cleanTag m) = false := ht
      simp [State.arriveFw, State.accept, e1, e2]
    · dsimp only
      have hrefused (e : Nat) (he : s.headChecks m = some e) : Does c s fun u =>
          Direct m opcode e [] u ∧ u.stw.flights = s.stw.flights ∧ Only [.stw, .eth] s u := by
        refine hdoes _ ?_
        rw [(s.tick t).arriveFw_refused _ _ _ _ hr ht he]
        exact ⟨State.reject_direct _ _ _ _ _, by simp, by simp [only_iff]⟩
      refine ⟨fun hv => hrefused _ ?_, fun hv hl => hrefused _ ?_, fun hv hl hn => hrefused _ ?_, fun x hv hl hx => ?_⟩
      · simp [State.headChecks, hv]
      · simp [State.headChecks, hv, hl]
      · simp [State.headChecks, hv, hl, hn]
      · have h : Opened (s.tick t) m x := ⟨hr, ht, hv, hl, hx⟩
        obtain ⟨hanswer, hrest⟩ := h.arriveFw opcode need
        have htags (now : Nat) : (x.moved now m).tags = x.tags := rfl
        have hin (now : Nat) : (x.moved now m).inFlight = x.inFlight := rfl
        have hgrant (now : Nat) : (x.moved now m).grant = x.grant := rfl
        have htag : (cleanTag m).tag = m.tag % 4096 := rfl
        have hseq : (cleanTag m).seq = m.seq := rfl
        refine ⟨fun r h1 h2 h3 => hdoes _ ?_, fun h1 h2 => hdoes _ ?_, fun h1 h2 h3 => hdoes _ ?_,
          fun why retry h1 h2 h3 h4 => hdoes _ ?_, fun r h1 h2 => hdoes _ ?_⟩
        · rw [hanswer _ (by rw [State.tagChecks, htags, htag, h1]; simp [hseq, h2, h3]; rfl)]
          exact ⟨State.reject_direct _ _ _ _ _, by simp, by simp [only_iff]⟩
        · rw [hanswer _ (by rw [State.tagChecks, htags, htag, h1]; simp [hgrant, hin, h2]; rfl)]
          exact ⟨State.reject_direct _ _ _ _ _, by simp, by simp [only_iff]⟩
        · rw [(hrest (by rw [State.tagChecks, htags, htag, h1]; simp [hgrant, hin, h2])).1 h3]
          exact ⟨State.reject_direct _ _ _ _ _, by simp, by simp [only_iff]⟩
        · rw [(hrest (by rw [State.tagChecks, htags, htag, h1]; simp [hgrant, hin, h2])).2 why retry h3 h4]
          exact ⟨by simp, by simp [only_iff], _, by simp [State.open8s], State.reject_direct _ _ _ _ _⟩
        · rw [hanswer _ (by rw [State.tagChecks, htags, htag, h1]; simp [hseq, h2]; rfl)]
          split
          · exact ⟨by simp, State.queueFrame_queued _ _ _ _ _⟩
          · exact ⟨by simp, State.queueFrame_queued _ _ _ _ _⟩

end Sys2Proof.Machine
end

section
/-!
SUPPORT. The start sequence (02 R24, R34, R36), the records of the lining and the firmware banks (02 R30 to R32, R35, R37); statements O5
and O6.

The kernel cannot evaluate a bank's check in practice: the proofs name whether a bank passes before they compare what follows from it.
-/

namespace Sys2Proof.Machine

-- Proofs one after another: the text is long, and is checked in bounded memory.
set_option Elab.async false

open Sys2Proof Sys2Proof.Safety

/-! ## Events that nobody takes -/

theorem State.raise_nobody (s : State) (code block inst : Nat) (data : List Byte) (h : s.stw.sess = []) :
    s.raise code block inst data = s := by
  unfold State.raise State.raiseAt
  split
  · rfl
  · simp [h]

theorem State.finishRef_none (s : State) (ref status : Nat) (o : List Byte) (h : s.stw.flights = []) :
    s.finishRef ref status o = s := by
  simp [State.finishRef, State.flight?, h]

theorem State.dropErased_none (s : State) (h : s.stw.flights = []) :
    s.dropErased = { s with lin := { s.lin with writes := s.lin.writes.filter fun w => !w.what.erased } } := by
  unfold State.dropErased
  generalize s.lin.writes.filter (fun w => w.what.erased) = l
  generalize hr : ({ s with lin := _ } : State) = r
  have hr' : r.stw.flights = [] := by rw [← hr]; exact h
  clear hr
  induction l with
  | nil => rfl
  | cons w l ih =>
    rw [List.foldl_cons]
    split
    · rwa [State.finishRef_none _ _ _ _ hr']
    · exact ih

/-! ## The register of the next bank -/

theorem State.setReg_bootNext (s : State) (x : FRef) (i j v : Nat) (h : famAddr .linBoot 0 0 ≠ famAddr x.fam i j) :
    (s.setReg x i j v).reg F.linBootNext = s.reg F.linBootNext :=
  State.reg_setReg_ne _ _ _ _ _ _ _ _ h

theorem State.bump_bootNext (s : State) (x : FRef) (i : Nat) (h : famAddr .linBoot 0 0 ≠ famAddr x.fam i 0) :
    (s.bump x i).reg F.linBootNext = s.reg F.linBootNext :=
  State.reg_bump_ne _ _ _ _ _ _ h

theorem State.plxStart_bootNext (s : State) (n : Nat) : (s.plxStart n).reg F.linBootNext = s.reg F.linBootNext := by
  refine State.setReg_bootNext s F.plxCtlEn n 0 1 ?_
  simp [famAddr, famInfo, F.plxCtlEn]
  omega

theorem State.airStart_bootNext (s : State) (n : Nat) : (s.airStart n).reg F.linBootNext = s.reg F.linBootNext := by
  refine State.setReg_bootNext s F.airCtlEn n 0 1 ?_
  simp [famAddr, famInfo, F.airCtlEn]
  omega

theorem State.restartChan_bootNext (s : State) (e : Nat) (counted : Bool) :
    (s.restartChan e counted).reg F.linBootNext = s.reg F.linBootNext := by
  have hval (e : Nat) : famAddr .linBoot 0 0 ≠ famAddr F.cnvResValue.fam e 0 := by
    simp [famAddr, famInfo, F.cnvResValue]
    omega
  have hqual (e : Nat) : famAddr .linBoot 0 0 ≠ famAddr F.cnvResQuality.fam e 0 := by
    simp [famAddr, famInfo, F.cnvResQuality]
    omega
  unfold State.restartChan
  dsimp only
  split
  · rw [State.bump_bootNext _ F.fltCntRestart 0 (by decide), State.setReg_bootNext _ _ _ _ _ (hqual e),
      State.setReg_bootNext _ _ _ _ _ (hval e)]
    rfl
  · rw [State.setReg_bootNext _ _ _ _ _ (hqual e), State.setReg_bootNext _ _ _ _ _ (hval e)]
    rfl

theorem foldl_bootNext {β : Type} (f : State → β → State) (h : ∀ s b, (f s b).reg F.linBootNext = s.reg F.linBootNext)
    (l : List β) (s : State) : (l.foldl f s).reg F.linBootNext = s.reg F.linBootNext :=
  foldl_keeps (fun u => u.reg F.linBootNext = s.reg F.linBootNext) f (fun u b k => (h u b).trans k) l s rfl

theorem reg_of_regs {s u : State} (h : u.regs = s.regs) (x : FRef) (i j : Nat) : u.reg x i j = s.reg x i j := by
  simp [State.reg, h]

theorem State.refEnable_bootNext (s : State) : s.refEnable.reg F.linBootNext = s.reg F.linBootNext :=
  State.setReg_bootNext s F.senRefEn 0 0 1 (by decide)

theorem State.loopFault_regs (s : State) (n state cause : Nat) : (s.loopFault n state cause).regs = s.regs := by
  simp [State.loopFault]

theorem State.loopEval_bootNext (s : State) (n : Nat) : (s.loopEval n).reg F.linBootNext = s.reg F.linBootNext := by
  unfold State.loopEval
  dsimp only
  split
  · rw [reg_of_regs (State.loopFault_regs _ _ _ _), State.bump_bootNext _ F.lopCntFault 0 (by decide)]
    rfl
  split
  · rw [reg_of_regs (State.loopFault_regs _ _ _ _)]
    rfl
  · rfl

theorem State.loopFollow_bootNext (s : State) (n : Nat) : (s.loopFollow n).reg F.linBootNext = s.reg F.linBootNext :=
  (State.loopEval_bootNext _ n).trans rfl

theorem State.cnvEnable_bootNext (s : State) : s.cnvEnable.reg F.linBootNext = s.reg F.linBootNext := by
  have h (u : State) : ((List.range 32).foldl (fun s e => s.restartChan e true) u).reg F.linBootNext = u.reg F.linBootNext :=
    foldl_bootNext _ (fun s e => s.restartChan_bootNext e true) _ _
  unfold State.cnvEnable
  dsimp only
  split
  all_goals exact ((reg_of_regs (by simp) _ _ _).trans (h _)).trans (State.setReg_bootNext s F.cnvCtlEn 0 0 1 (by decide))

theorem ite_bootNext (c : Prop) [Decidable c] (s u : State) : (if c then u else s).reg F.linBootNext =
    if c then u.reg F.linBootNext else s.reg F.linBootNext :=
  apply_ite (fun s : State => s.reg F.linBootNext) c u s

theorem State.startBlocks_bootNext (s : State) : s.startBlocks.reg F.linBootNext = s.reg F.linBootNext := by
  unfold State.startBlocks
  extract_lets sea s₁ s₂ s₃ s₄ s₅ s₆
  have h₁ : s₁.regs = s.regs := rfl
  have e₂ : s₂ = s₁.mnsStart := rfl
  have e₃ : s₃ = ((List.range 24).filter fun n => s₂.flag F.plxCtlEn n).foldl (fun s n => s.plxStart n) s₂ := rfl
  have e₄ : s₄ = ((List.range 16).filter fun n => s₃.flag F.airCtlEn n).foldl (fun s n => s.airStart n) s₃ := rfl
  have e₅ : s₅ = if s₄.flag F.senRefEn then s₄.refEnable else s₄ := rfl
  have e₆ : s₆ = if s₅.flag F.cnvCtlEn then s₅.cnvEnable else s₅ := rfl
  clear_value s₆ s₅ s₄ s₃ s₂ s₁
  have h₂ : s₂.regs = s.regs := by simp [e₂, h₁]
  rw [foldl_bootNext _ State.loopFollow_bootNext, e₆, ite_bootNext, State.cnvEnable_bootNext, ite_self, e₅, ite_bootNext,
    State.refEnable_bootNext, ite_self, e₄, foldl_bootNext _ State.airStart_bootNext, e₃,
    foldl_bootNext _ State.plxStart_bootNext, reg_of_regs h₂]

theorem State.checkDone_bootNext (s : State) (v : Nat) (want : Option Nat) :
    (s.checkDone v want).reg F.linBootNext = s.reg F.linBootNext := by
  have hjobs (s : State) : (s.bump F.chkCntJobs).reg F.linBootNext = s.reg F.linBootNext :=
    State.bump_bootNext _ _ _ (by decide)
  have hbad (s : State) : (s.bump F.chkCntMismatch).reg F.linBootNext = s.reg F.linBootNext :=
    State.bump_bootNext _ _ _ (by decide)
  unfold State.checkDone
  dsimp only
  (repeat' split) <;> simp only [hjobs, hbad] <;> exact reg_of_regs rfl _ _ _

theorem State.checkBank_bootNext (s : State) (b : Bank) : (s.checkBank b).reg F.linBootNext = s.reg F.linBootNext :=
  s.checkDone_bootNext _ _

theorem State.logFault_bootNext (s : State) (k b i o d t c n e : Nat) (g : Option Nat) :
    (s.logFault k b i o d t c n e g).reg F.linBootNext = s.reg F.linBootNext := by
  unfold State.logFault State.logFaultAt
  dsimp only
  split
  · exact State.bump_bootNext _ F.fauCntLoglost 0 (by decide)
  · rfl

/-! ## The start sequence -/

/-- An alarm while no session is open and nothing is in flight. -/
theorem State.alarm_quiet (s : State) (source detail : Nat) (stays : Bool) (hs : s.stw.sess = []) (hf : s.stw.flights = []) :
    let u := s.alarm source detail stays
    u.stw = s.stw ∧ u.pow = s.pow ∧ u.lin = { s.lin with cells := u.lin.cells, writes := u.lin.writes } ∧
      u.reg F.linBootNext = s.reg F.linBootNext := by
  intro u
  have hu : u = s.alarm source detail stays := rfl
  unfold State.alarm at hu
  dsimp only at hu
  rw [State.raise_nobody _ _ _ _ _ (by simpa using hs), State.dropErased_none _ (by simpa using hf)] at hu
  refine ⟨by simp [hu], by simp [hu], by simp [hu], ?_⟩
  rw [hu]
  exact (reg_of_regs (s := State.bump _ F.fauCntUnmasked 0) rfl _ _ _).trans
    ((State.bump_bootNext _ F.fauCntUnmasked 0 (by decide)).trans
      ((State.logFault_bootNext _ _ _ _ _ _ _ _ _ _ _).trans ((State.bump_bootNext _ F.cipCntAlarm 0 (by decide)).trans rfl)))

theorem State.startAlarms_quiet (s : State) (mesh sealBad : Bool) (hs : s.stw.sess = []) (hf : s.stw.flights = []) :
    let u := s.startAlarms mesh sealBad
    u.stw = s.stw ∧ u.pow = s.pow ∧ u.lin = { s.lin with cells := u.lin.cells, writes := u.lin.writes } ∧
      u.reg F.linBootNext = s.reg F.linBootNext := by
  intro u
  have hu : u = s.startAlarms mesh sealBad := rfl
  obtain ⟨h1, h2, h3, h4⟩ := s.alarm_quiet 1 0 true hs hf
  unfold State.startAlarms at hu
  dsimp only at hu
  split at hu <;> split at hu
  · obtain ⟨k1, k2, k3, k4⟩ := (s.alarm 1 0 true).alarm_quiet 4 0 false (by rw [h1, hs]) (by rw [h1, hf])
    rw [hu]
    exact ⟨k1.trans h1, k2.trans h2, by rw [k3, h3], k4.trans h4⟩
  · rw [hu]
    exact s.alarm_quiet 4 0 false hs hf
  · rw [hu]
    exact ⟨h1, h2, h3, h4⟩
  · rw [hu]
    exact ⟨rfl, rfl, rfl, rfl⟩

/-! ## The start sequence, step by step -/

/-- What booting changes, given the bank named and which of the two banks pass. -/
theorem State.boot_facts (s : State) (n : Nat) (own other : Bool) (hn : s.reg F.linBootNext = n) (hown : (s.lin.bank n).passes = own)
    (hother : (s.lin.bank (1 - n)).passes = other) :
    s.boot.pow = { s.pow with booted := own || other, phase := 2, bankFallback := (own || other) && !own, bootNext := n } ∧
    (∃ banks, s.boot.lin = { s.lin with banks := banks, activeBank := if own || !(own || other) then n else 1 - n }) ∧
    s.boot.reg F.linBootNext = n := by
  unfold State.boot
  dsimp only
  rw [hn, hown, hother]
  generalize hs : (if own = true then s.checkBank (s.lin.bank n)
    else (s.checkBank (s.lin.bank n)).checkBank (s.lin.bank (1 - n))) = v
  have hv : v.pow = s.pow ∧ v.lin = s.lin ∧ v.reg F.linBootNext = n := by
    rw [← hs]
    split <;> simp [State.checkBank_bootNext, hn]
  clear hs
  obtain ⟨hpow, hlin, hreg⟩ := hv
  exact ⟨by rw [hpow], ⟨_, by rw [hlin]⟩, hreg⟩

theorem State.bare_lin' (s : State) (l : Lining) : (s.bare l).lin = l ∧ (s.bare l).stw = Stw.init := ⟨rfl, rfl⟩

theorem Lining.starts_kept (l : Lining) : l.starts.wiped.log = l.log ∧ l.starts.wiped.macs = l.macs ∧ l.starts.wiped.armed = false ∧
    l.starts.wiped.blank = false ∧ l.starts.wiped.banks = l.banks := by
  unfold Lining.starts Lining.wiped
  split <;> split <;> simp_all

theorem State.reserveTo_lin (s : State) (slot val : Nat) :
    (s.reserveTo slot val).lin = { s.lin with writes := (s.reserveTo slot val).lin.writes } := by
  unfold State.reserveTo
  split <;> rfl

theorem State.loadKeys_lin (s : State) : s.loadKeys.lin = { s.lin with writes := s.loadKeys.lin.writes } := by
  unfold State.loadKeys
  refine foldl_keeps (fun u => u.lin = { s.lin with writes := u.lin.writes }) _ (fun u e h => ?_) _ _ rfl
  dsimp only
  split
  · exact h
  · rw [State.reserveTo_lin, h]

theorem State.loopFollow_nobody (s : State) (n : Nat) (h : s.stw.sess = []) : (s.loopFollow n).stw = s.stw := by
  have hraise (s : State) (n state cause : Nat) (h : s.stw.sess = []) : (s.loopFault n state cause).stw = s.stw := by
    rw [State.loopFault, State.raise_nobody _ _ _ _ _ h]
  have heval (s : State) (n : Nat) (h : s.stw.sess = []) : (s.loopEval n).stw = s.stw := by
    unfold State.loopEval
    dsimp only
    split
    · exact (hraise _ _ _ _ (by simpa using h)).trans (by simp)
    split
    · exact (hraise _ _ _ _ (by simpa using h)).trans (by simp)
    · simp
  exact heval _ n h

theorem State.startBlocks_nobody (s : State) (h : s.stw.sess = []) : s.startBlocks.stw.sess = [] := by
  unfold State.startBlocks
  dsimp only
  exact foldl_keeps (fun u => u.stw.sess = []) _ (fun u n hu => by rw [State.loopFollow_nobody u n hu, hu]) _ _
    (by simp [ite_fields, h])

/-- The power's record after a start, given the bank named and which of the two banks pass. -/
def Power.started (p : Power) (l : Lining) (n : Nat) (own other : Bool) : Power :=
  { porstHigh := true, on := true, phase := if own || other then 3 else 2, booted := own || other, restart := false,
    firstStart := l.blank || l.armed, factoryDone := l.armed, bankFallback := (own || other) && !own, bootNext := n, volts := p.volts }

/-- What a start leaves: of the lining the log and the addresses, no session, and the bank that boots. -/
def State.StartedFrom (s u : State) : Prop :=
  let n := u.reg F.linBootNext
  let own := (s.lin.bank n).passes
  let other := (s.lin.bank (1 - n)).passes
  u.pow = s.pow.started s.lin n own other ∧
    u.lin.armed = false ∧ u.lin.blank = false ∧ u.lin.log = s.lin.log ∧ u.lin.macs = s.lin.macs ∧
    u.lin.activeBank = (if own || !(own || other) then n else 1 - n) ∧ u.stw.sess = []

/-- The steps of a start, each named. -/
theorem startedFrom_of_steps (s s₁ s₂ s₃ s₄ s₅ s₆ s₇ u : State) (mesh sealBad : Bool) (now₂ now₄ now₇ : Nat)
    (hu : u = (s₇.ethTake 0).ethTake 1)
    (e₁ : s₁ = s.bare s.lin.starts.wiped)
    (e₂ : s₂ = { s₁ with now := now₂, pow := ⟨true, true, 1, false, false, s.lin.blank || s.lin.armed, s.lin.armed, false, 0, s₁.pow.volts⟩ })
    (e₃ : s₃ = (s₂.startAlarms mesh sealBad).boot)
    (e₄ : s₄ = { s₃ with now := now₄, pow := { s₃.pow with phase := if s₃.pow.booted then 3 else 2 } })
    (e₅ : s₅ = (List.range 16).foldl (fun s a => s.loadDuty a) s₄.loadKeys)
    (e₆ : s₆ = s₅.startBlocks)
    (e₇ : s₇ = { s₆ with now := now₇ }) : s.StartedFrom u := by
  have h₂ : s₂.stw = Stw.init ∧ s₂.lin = s.lin.starts.wiped := by rw [e₂, e₁]; exact ⟨rfl, rfl⟩
  obtain ⟨hstw, hlin⟩ := h₂
  obtain ⟨a₁, a₂, a₃, -⟩ := s₂.startAlarms_quiet mesh sealBad (by rw [hstw]; rfl) (by rw [hstw]; rfl)
  generalize s₂.startAlarms mesh sealBad = a at e₃ a₁ a₂ a₃
  obtain ⟨hlog, hmacs, harmed, hblank, hbanks⟩ := s.lin.starts_kept
  have hbank (n : Nat) : a.lin.bank n = s.lin.bank n := by
    rw [a₃, hlin]
    exact congrArg (tget _ · n) hbanks
  obtain ⟨b₁, ⟨banks, b₂⟩, b₃⟩ := a.boot_facts _ _ _ rfl rfl rfl
  rw [hbank, hbank] at b₁ b₂
  generalize a.reg F.linBootNext = n at b₁ b₂ b₃
  have hn : u.reg F.linBootNext = n := by
    have h₇ : u.regs = s₆.regs := by simp [hu, e₇]
    have h₅ : s₅.regs = s₃.regs := by simp [e₅, e₄]
    calc u.reg F.linBootNext = s₆.reg F.linBootNext := reg_of_regs h₇ _ _ _
      _ = s₅.reg F.linBootNext := by rw [e₆, State.startBlocks_bootNext]
      _ = s₃.reg F.linBootNext := reg_of_regs h₅ _ _ _
      _ = n := by rw [e₃, b₃]
  have hpow : u.pow = s₄.pow := by simp [hu, e₇, e₆, e₅]
  have hlin' : u.lin = s₄.loadKeys.lin := by simp [hu, e₇, e₆, e₅]
  obtain ⟨w, hw⟩ : ∃ w, u.lin = { s₄.lin with writes := w } := ⟨_, hlin'.trans (State.loadKeys_lin _)⟩
  obtain ⟨w', c, ha⟩ : ∃ w c, a.lin = { s.lin.starts.wiped with cells := c, writes := w } := ⟨_, _, hlin ▸ a₃⟩
  unfold State.StartedFrom
  dsimp only
  rw [hn]
  generalize (s.lin.bank n).passes = own at b₁ b₂ ⊢
  generalize (s.lin.bank (1 - n)).passes = other at b₁ b₂ ⊢
  have h₄ : s₄.lin = a.boot.lin ∧ s₄.pow = { a.boot.pow with phase := if a.boot.pow.booted then 3 else 2 } := by
    rw [e₄, e₃]
    exact ⟨rfl, rfl⟩
  rw [h₄.1, b₂, ha] at hw
  refine ⟨?_, by simp [hw, harmed], by simp [hw, hblank], by simp [hw, hlog], by simp [hw, hmacs], by simp only [hw], ?_⟩
  · rw [hpow, h₄.2, b₁, a₂, e₂, show s₁.pow = s.pow by rw [e₁]; rfl]
    rfl
  · have h₅ : s₅.stw = s₃.stw := by simp [e₅, e₄]
    have h₆ : s₆.stw.sess = [] := by
      rw [e₆]
      refine s₅.startBlocks_nobody ?_
      rw [h₅, e₃, show a.boot.stw = a.stw by simp, a₁, hstw]
      rfl
    simp [hu, e₇, h₆]

theorem State.start_facts (s : State) (mesh sealBad : Bool) : s.StartedFrom (s.start mesh sealBad) := by
  unfold State.start
  exact startedFrom_of_steps s _ _ _ _ _ _ _ _ mesh sealBad (4 * ms) (70 * ms) (80 * ms) rfl rfl rfl rfl rfl rfl rfl rfl

/-! ## Step 8 -/

theorem State.running_pow (s : State) (h : s.pow.booted = true) : s.running.pow = { s.pow with phase := 4 } := by
  unfold State.running
  rw [if_neg (by simp [h])]
  dsimp only
  split <;> simp

/-! ## Step 8: the cache's background fill -/

theorem unwrapJob_desc (rec : List Byte) (use : JobUse) :
    jHandle (unwrapJob rec use).desc = 0 ∧ bit (jFlags (unwrapJob rec use).desc) 1 = false :=
  have h : jFlags (unwrapJob rec use).desc = 0 := rfl
  ⟨rfl, by rw [h]; decide⟩

/-- A job under the root key, whose nonce is not the hardware's: its submission is a matter of the scheduler alone. -/
theorem State.submitJob_root (s : State) (d : List Byte) (own : Option (List Byte)) (use : JobUse) (hh : jHandle d = 0)
    (hf : bit (jFlags d) 1 = false) : ∃ j, s.submitJob d none own use =
      { s with cip := { s.cip with jobs := s.cip.jobs ++ [j], nextJob := s.cip.nextJob + 1 } } := by
  have hused (j : Option KeyRec) (h : ∀ k, j = some k → k.handle = 0) : s.cip.used j = s.cip := by
    unfold Cip.used
    split
    next k => rw [if_pos (h k rfl)]
    next => rfl
  have hkey (bad : Nat) (k : KeyRec) : (if bad = 0 then s.jobKey d false else none) = some k → k.handle = 0 := by
    unfold State.jobKey
    rw [if_pos hh]
    (repeat' split) <;> simp only [Option.some.injEq, reduceCtorEq, false_implies]
    rintro rfl
    rfl
  have hnonce (r : State) (j : Job) (h : j.desc = d) : r.nonceJob j = (r, { j with stage := .queued }) := by
    unfold State.nonceJob
    split
    · rw [h, hf]
      rfl
    · rfl
  unfold State.submitJob
  dsimp only
  rw [hnonce _ _ rfl]
  dsimp only
  rw [show (none : Option Nat).isSome = false from rfl, hused _ (hkey _)]
  exact ⟨_, rfl⟩

/-- `u` is `s` with `n` more jobs, accepted or waiting for a place. -/
def MoreJobs (n : Nat) (s u : State) : Prop :=
  u = { s with cip := { s.cip with jobs := u.cip.jobs, waits := u.cip.waits, nextJob := u.cip.nextJob } } ∧
    u.cip.jobs.length + u.cip.waits.length = s.cip.jobs.length + s.cip.waits.length + n

theorem MoreJobs.trans {n m : Nat} {s u v : State} (h : MoreJobs n s u) (k : MoreJobs m u v) : MoreJobs (n + m) s v := by
  obtain ⟨h, hn⟩ := h
  obtain ⟨k, km⟩ := k
  exact ⟨by rw [k, h], by omega⟩

theorem State.offerJob_unwrap (s : State) (rec : List Byte) (use : JobUse) : MoreJobs 1 s (s.offerJob (unwrapJob rec use)) := by
  unfold State.offerJob
  split
  · obtain ⟨j, e⟩ := s.submitJob_root (unwrapJob rec use).desc (unwrapJob rec use).own (unwrapJob rec use).use
      (unwrapJob_desc rec use).1 (unwrapJob_desc rec use).2
    rw [e]
    refine ⟨rfl, ?_⟩
    simp
    omega
  · refine ⟨rfl, ?_⟩
    simp
    omega

theorem State.fillCache_moreJobs (s : State) : MoreJobs s.cip.dram.length s s.fillCache := by
  have h (l : Tab (List Byte)) (s : State) :
      MoreJobs l.length s (l.foldl (fun s e => s.offerJob (unwrapJob e.2 (.fill e.1))) s) := by
    induction l generalizing s with
    | nil => exact ⟨rfl, rfl⟩
    | cons e l ih =>
      rw [List.length_cons, Nat.add_comm]
      exact (s.offerJob_unwrap _ _).trans (ih _)
  exact h _ _

/-- Step 8 in its parts: PHASE, the cache's fill, START, and BANK_FALLBACK where the other bank has booted. -/
theorem State.running_eq (s : State) (h : s.pow.booted = true) : ∃ data r, r = (({ s with pow := { s.pow with phase := 4 } } : State).fillCache) ∧
    (s.running = r.raise 0x001 0x02 0 data ∨
      ∃ inst more, s.running = (r.raise 0x001 0x02 0 data).raise 0x101 0x02 inst more) := by
  unfold State.running
  rw [if_neg (by simp [h])]
  dsimp only
  split
  · exact ⟨_, _, rfl, .inr ⟨_, _, rfl⟩⟩
  · exact ⟨_, _, rfl, .inl rfl⟩

/-- What step 8 leaves. -/
structure Phase4 (s u : State) : Prop where
  pow : u.pow = { s.pow with phase := 4 }
  only : Only [.pow, .stw, .eth, .cip] s u
  cip : u.cip = { s.cip with jobs := u.cip.jobs, waits := u.cip.waits, nextJob := u.cip.nextJob }
  jobs : u.cip.jobs.length + u.cip.waits.length = s.cip.jobs.length + s.cip.waits.length + s.cip.dram.length
  nobody : s.stw.sess = [] → u.stw.sess = []
  started : s.pairActive = true → ∀ k x, tget? s.stw.sess k = some x → bit x.groups 0 = true → x.events.length < 1024 →
    ∃ y e, tget? u.stw.sess k = some y ∧ e ∈ y.events ∧ e.seq = x.evSeq ∧
      e.body.take 16 = be 2 1 ++ be 1 2 ++ be 1 0 ++ be 4 s.lin.epoch ++ be 8 s.now

theorem State.running_phase4 (s : State) (h : s.pow.booted = true) : Phase4 s s.running := by
  obtain ⟨data, r, hr, hrun⟩ := s.running_eq h
  have hmore := ({ s with pow := { s.pow with phase := 4 } } : State).fillCache_moreJobs
  rw [← hr] at hmore
  obtain ⟨he, hn⟩ := hmore
  obtain ⟨jobs, waits, next, he⟩ : ∃ jobs waits next, r = { s with
      pow := { s.pow with phase := 4 }
      cip := { s.cip with jobs := jobs, waits := waits, nextJob := next } } := ⟨_, _, _, he⟩
  have hraised := r.raiseAt_raised r.now 0x001 0x02 0 [] data
  have hstart : s.pairActive = true → ∀ k x, tget? s.stw.sess k = some x → bit x.groups 0 = true → x.events.length < 1024 →
      ∃ y e, tget? (r.raise 0x001 0x02 0 data).stw.sess k = some y ∧ e ∈ y.events ∧ e.seq = x.evSeq ∧
        e.body.take 16 = be 2 1 ++ be 1 2 ++ be 1 0 ++ be 4 s.lin.epoch ++ be 8 s.now := by
    intro hpair k x hx hg hroom
    have hfw : (decide (4 = 4) && s.pairActive) = true := by simp [hpair]
    obtain ⟨y, e, rest, hy, hmem, hseq, hbody⟩ := hraised (by rw [he]; exact hfw) k x (by rw [he]; exact hx) hg hroom
    refine ⟨y, e, hy, hmem, hseq, ?_⟩
    rw [hbody, he]
    rfl
  rcases hrun with hrun | ⟨inst, more, hrun⟩ <;> rw [hrun]
  · exact ⟨by simp [he], by simp [only_iff, he], by simp [he], by simpa using hn,
      fun h0 => by rw [State.raise_nobody _ _ _ _ _ (by rw [he]; exact h0), he]; exact h0, hstart⟩
  · refine ⟨by simp [he], by simp [only_iff, he], by simp [he], by simpa using hn, fun h0 => ?_, fun hp k x hx hg hroom => ?_⟩
    · rw [State.raise_nobody r _ _ _ _ (by rw [he]; exact h0), State.raise_nobody r _ _ _ _ (by rw [he]; exact h0), he]
      exact h0
    · obtain ⟨y, e, hy, hmem, hseq, hbody⟩ := hstart hp k x hx hg hroom
      obtain ⟨z, hz, hyz⟩ := (r.raise 0x001 0x02 0 data).raise_grows 0x101 0x02 inst more k y hy
      exact ⟨z, e, hz, hyz.events e hmem, hseq, hbody⟩

/-! ## The start sequence as a whole (02 R24, R34, R36) -/

theorem State.start_now (s : State) (mesh sealBad : Bool) : (s.start mesh sealBad).now = 80 * ms := by
  simp [State.start]

theorem started_phase (own other : Bool) (late : Prop) [Decidable late] :
    (if (if own || other then 3 else 2) = 3 ∧ late then 4 else if own || other then 3 else 2) =
      if own || other then (if late then 4 else 3) else 2 := by
  by_cases h : late <;> cases own <;> cases other <;> simp [h]

theorem started_booted (b : Bool) (h : (if b then 3 else 2) = 3) : b = true := by
  cases b
  · simp at h
  · rfl

/-- The start sequence on a device in reset: the start, and step 8 where its time has come. -/
theorem execStartSequence_begins (t : Nat) (pins : StartPins) (sealBad : Bool) (s : State) (hoff : s.pow.on = false)
    (hbegin : s.mayBegin pins = true) :
    let u := ({ s with free := s.free + 1 } : State).start pins.mesh sealBad
    ∃ v, execStartSequence t pins sealBad s = .next v ∧
      (((u.pow.phase = 3 ∧ 100 * ms ≤ max u.now t) ∧ v = (u.tick t).running) ∨
        (¬(u.pow.phase = 3 ∧ 100 * ms ≤ max u.now t) ∧ v = u.tick t)) := by
  refine ⟨_, rfl, ?_⟩
  simp only [hoff, hbegin, Bool.not_false, Bool.not_true, Bool.and_false, Bool.false_eq_true, ↓reduceIte]
  split
  next h => exact .inl ⟨h, rfl⟩
  next h => exact .inr ⟨h, rfl⟩

/-- Step 8, done or not, on a state that a start has left: `late` says whether its time has come. -/
theorem begun_kept {u v : State} {t : Nat} {due late : Prop} [Decidable late]
    (hv : ((u.pow.phase = 3 ∧ due) ∧ v = (u.tick t).running) ∨ (¬(u.pow.phase = 3 ∧ due) ∧ v = u.tick t)) (hlate : due ↔ late)
    (hb : u.pow.phase = 3 → u.pow.booted = true) (hsess : u.stw.sess = []) :
    v.pow = { u.pow with phase := if u.pow.phase = 3 ∧ late then 4 else u.pow.phase } ∧ v.lin = u.lin ∧ v.regs = u.regs ∧
      v.stw.sess = [] := by
  rcases hv with ⟨h, rfl⟩ | ⟨h, rfl⟩
  · rw [if_pos (h.imp_right hlate.1)]
    obtain ⟨hpow', honly, -, -, hnobody, -⟩ := (u.tick t).running_phase4 (hb h.1)
    exact ⟨hpow', honly .lin (by decide), honly .regs (by decide), hnobody hsess⟩
  · rw [if_neg fun h' => h (h'.imp_right hlate.2)]
    exact ⟨rfl, rfl, rfl, hsess⟩

/-- Settles O5, from what a start leaves (`State.start_facts`) and what its step 8 does. -/
theorem startSequenceBootsABank : Obligations.StartSequenceBootsABank := by
  refine ⟨fun t pins sealBad s hoff => ⟨fun hwait => ?_, ?_, fun hbegin => ?_⟩, fun t pins sealBad s hon => ⟨fun hphase hbooted hlate => ?_,
    fun hearly => ?_⟩⟩
  · refine ⟨_, rfl, ?_⟩
    simp only [hoff, hwait, Bool.not_false, Bool.and_self, if_true]
  · simp [State.mayBegin, and_assoc]
  · have hstarted := ({ s with free := s.free + 1 } : State).start_facts pins.mesh sealBad
    have hnow := ({ s with free := s.free + 1 } : State).start_now pins.mesh sealBad
    obtain ⟨v, hexec, hv⟩ := execStartSequence_begins t pins sealBad s hoff hbegin
    refine ⟨v, hexec, ?_⟩
    clear hexec
    generalize ({ s with free := s.free + 1 } : State).start pins.mesh sealBad = u at hstarted hnow hv
    unfold State.StartedFrom at hstarted
    dsimp only at hstarted
    obtain ⟨hpow, harmed, hblank, hlog, hmacs, hbank, hsess⟩ := hstarted
    rw [show ({ s with free := s.free + 1 } : State).lin = s.lin from rfl] at *
    obtain ⟨own, hown⟩ : ∃ own, (s.lin.bank (u.reg F.linBootNext)).passes = own := ⟨_, rfl⟩
    obtain ⟨other, hother⟩ : ∃ other, (s.lin.bank (1 - u.reg F.linBootNext)).passes = other := ⟨_, rfl⟩
    rw [hown, hother] at hpow hbank
    have hlate : 100 * ms ≤ max u.now t ↔ 100 * ms ≤ t := by
      rw [hnow]
      unfold ms
      omega
    have hkept := begun_kept hv hlate (fun hp => by rw [hpow] at hp ⊢; exact started_booted _ hp) hsess
    obtain ⟨hpow', hlin', hregs', hsess'⟩ := hkept
    dsimp only
    rw [reg_of_regs hregs', hlin', hpow', hpow, hsess', hown, hother]
    refine ⟨rfl, rfl, harmed, hblank, rfl, rfl, hlog, hmacs, rfl, started_phase _ _ _, ?_, fun h => ?_, fun h h' => ?_⟩
    · cases own <;> cases other <;> rfl
    · simp [hbank, h]
    · simp [hbank, h, h']
  · refine ⟨_, rfl, ?_⟩
    dsimp only
    rw [if_neg (by simp [hon]), if_pos hon, if_pos ⟨hphase, hlate⟩]
    obtain ⟨hpow, honly, hcip, hjobs, -, hstart⟩ := (s.tick t).running_phase4 hbooted
    exact ⟨hpow, (s.tick_only t).trans honly, hcip, hjobs, hstart⟩
  · refine ⟨_, rfl, ?_⟩
    dsimp only
    rw [if_neg (by simp [hon]), if_pos hon, if_neg hearly, if_pos hon]
    simp [only_iff]

/-! ## Records of the lining (02 R30 to R32, R37) -/

/-- `l'` is `l` but for the records that wait to be written. -/
def Lining.Queues (l l' : Lining) : Prop := ∃ w, l' = { l with writes := w }

theorem Lining.Queues.refl (l : Lining) : l.Queues l := ⟨l.writes, rfl⟩

theorem Lining.Queues.trans {l l' l'' : Lining} (h : l.Queues l') (k : l'.Queues l'') : l.Queues l'' := by
  obtain ⟨w, rfl⟩ := h
  obtain ⟨w', rfl⟩ := k
  exact ⟨w', rfl⟩

theorem State.reserveTo_queues (s : State) (slot val : Nat) : s.lin.Queues (s.reserveTo slot val).lin :=
  ⟨_, s.reserveTo_lin slot val⟩

theorem State.takeCounter_queues (s : State) (slot : Nat) : s.lin.Queues (s.takeCounter slot).1.lin := by
  unfold State.takeCounter
  dsimp only
  split
  · exact .refl _
  split
  · exact s.reserveTo_queues _ _
  · dsimp only
    split
    · exact State.reserveTo_queues { s with cip := _ } _ _
    · exact .refl _

theorem State.nonceJob_queues (s : State) (j : Job) : s.lin.Queues (s.nonceJob j).1.lin := by
  unfold State.nonceJob
  split
  next k _ =>
    split
    · have := s.takeCounter_queues (slotOf k.handle)
      split <;> simp_all
    · exact .refl _
  · exact .refl _

theorem State.retryJobs_queues (s : State) : s.lin.Queues s.retryJobs.lin := by
  unfold State.retryJobs
  refine foldl_keeps (fun u => s.lin.Queues u.lin) _ (fun u j h => ?_) _ _ (.refl _)
  split
  · exact h.trans (u.nonceJob_queues j)
  · exact h

/-- A record done is in the lining; what waits besides may have changed. -/
theorem State.writeDone_lin (s : State) (w : LinWrite) (rest : List LinWrite) (h : s.lin.writes = w :: rest) :
    ∃ more, s.writeDone.lin = { s.lin.store w.what with writes := more } := by
  unfold State.writeDone
  rw [h]
  dsimp only
  obtain ⟨more, e⟩ := State.retryJobs_queues
    ((({ s with lin := { s.lin with writes := rest } } : State).recDone w).storeRec w.what)
  refine ⟨more, e.trans ?_⟩
  simp only [State.storeRec, State.recDone_leaves]
  cases w.what <;> rfl

theorem State.wears_lin (s : State) (wear : Nat) :
    ∃ next, (s.wears wear).lin = { s.lin with wear := min 1000 (max s.lin.wear wear), wearNext := next } := by
  unfold State.wears
  dsimp only
  split
  · exact ⟨(min 1000 (max s.lin.wear wear) / 50 + 1) * 50, by simp⟩
  · exact ⟨s.lin.wearNext, rfl⟩

theorem tget?_storeOpt {α : Type} (l : Tab α) (k : Nat) (x : Option α) : tget? (storeOpt l k x) k = x := by
  cases x <;> simp [storeOpt]

theorem State.restartDue_idle (s : State) (h : s.pow.restart = false ∨ s.pendingWrites = true) : s.restartDue = s := by
  unfold State.restartDue
  rcases h with h | h <;> simp [h]

theorem State.restartDue_now (s : State) (h : s.pow.restart = true) (hw : s.pendingWrites = false) : s.restartDue = s.halt := by
  simp [State.restartDue, h, hw]

theorem State.armFactory_facts (s : State) (b : Bool) : (s.armFactory b).factoryArmed = b ∧ Only [.lin] s (s.armFactory b) ∧
    (s.armFactory b).lin = { s.lin with writes := (s.armFactory b).lin.writes } := by
  unfold State.armFactory
  split
  next h => exact ⟨h, by simp [only_iff], rfl⟩
  next => exact ⟨by simp [State.factoryArmed, State.linWrite], by simp [only_iff], rfl⟩

/-! ## Firmware banks (02 R35) -/

theorem State.consume_clean (s : State) (block a n : Nat) (h : s.mem.rot.filter (touches a n) = []) : s.consume block a n = s := by
  simp [State.consume, h]

/-- Memory that is neither host space of kind 3 or more nor an engine's own reads as it holds. -/
theorem State.memOctets_plain (s : State) (m : Mem) (a n : Nat)
    (h : ∀ x, a ≤ x → x < a + n → kindOf m x < 3 ∧ ∀ e, regionOf x ≠ .engine e) :
    ((List.range n).map fun i => s.memOctet m (a + i)) = m.reads a n := by
  refine List.map_congr_left fun i hi => ?_
  obtain ⟨hk, hr⟩ := h (a + i) (by omega) (by have := List.mem_range.1 hi; omega)
  unfold State.memOctet
  split
  next e he => exact absurd he (hr e)
  next => rw [if_neg (by omega)]

theorem State.raise_regs (s : State) (code block inst : Nat) (data : List Byte) : (s.raise code block inst data).regs = s.regs := by
  simp

theorem State.reg_setReg_apart (s : State) (x y : FRef) (i j v : Nat) (hf : y.fam = x.fam) (hh : y.lo ≤ y.hi) (h : y.hi < 32)
    (apart : x.hi < y.lo ∨ y.hi < x.lo) : (s.setReg x i j v).reg y i j = s.reg y i j :=
  Regs.get_put_apart _ _ _ _ _ _ hf hh h apart

theorem State.checkDone_reg (s : State) (v : Nat) (want : Option Nat) (x : FRef) (i j : Nat)
    (hjobs : famAddr x.fam i j ≠ famAddr F.chkCntJobs.fam 0 0) (hbad : famAddr x.fam i j ≠ famAddr F.chkCntMismatch.fam 0 0) :
    (s.checkDone v want).reg x i j = s.reg x i j := by
  have h1 (s : State) : (s.bump F.chkCntJobs).reg x i j = s.reg x i j := State.reg_bump_ne _ _ _ _ _ _ hjobs
  have h2 (s : State) : (s.bump F.chkCntMismatch).reg x i j = s.reg x i j := State.reg_bump_ne _ _ _ _ _ _ hbad
  unfold State.checkDone
  dsimp only
  (repeat' split) <;> simp only [h1, h2] <;> exact reg_of_regs rfl _ _ _

/-- A bank whose source has no faulty codeword is written with the image as memory holds it. -/
theorem State.bankDone_clean (s : State) (w : BankWrite) (data : List Byte) (v : Nat) (hpoison : s.mem.poisonIn w.src w.len = [])
    (hrot : s.mem.rot.filter (touches w.src w.len) = [])
    (hdata : ((List.range w.len).map fun i => s.memOctet s.mem (w.src + i)) = data) (hv : crc 4 [] data = v) :
    let u := s.bankDone w
    u.lin = { s.lin with banks := tset s.lin.banks w.bank { image := data, crc := w.crc, valid := decide (v = w.crc) }, bankWrite := none } ∧
      u.reg F.linBankWrDone = b2n (decide (v = w.crc)) ∧ u.reg F.linBankWrErr = b2n (decide (v ≠ w.crc)) ∧
      Only [.lin, .regs, .cip, .stw, .eth] s u := by
  intro u
  have hu : u = s.bankDone w := rfl
  clear_value u
  unfold State.bankDone at hu
  rw [State.consume_clean _ _ _ _ hrot] at hu
  simp only [hpoison, hdata, List.isEmpty_nil, Bool.not_true, Bool.false_eq_true, ↓reduceIte] at hu
  rw [hv] at hu
  have hres : decide ((if v = w.crc then 0 else 1) = 0) = decide (v = w.crc) ∧
      decide ((if v = w.crc then 0 else 1) ≠ 0) = decide (v ≠ w.crc) := by
    split <;> simp [*]
  rw [hres.1, hres.2] at hu
  have hb2n (b : Bool) (n : Nat) : b2n b % 2 ^ (n + 1 - n) = b2n b := by
    rw [Nat.add_sub_cancel_left]
    cases b <;> rfl
  refine ⟨by simp [hu], ?_, ?_, by simp [hu, only_iff]⟩
  · rw [hu, reg_of_regs (State.raise_regs _ _ _ _ _), State.checkDone_reg _ _ _ _ _ _ (by decide) (by decide),
      State.reg_setReg_apart _ F.linBankWrErr F.linBankWrDone _ _ _ rfl (by decide) (by decide) (by decide),
      State.reg_setReg_self _ F.linBankWrDone _ _ _ (by decide) (by decide)]
    exact hb2n _ 2
  · rw [hu, reg_of_regs (State.raise_regs _ _ _ _ _), State.checkDone_reg _ _ _ _ _ _ (by decide) (by decide),
      State.reg_setReg_self _ F.linBankWrErr _ _ _ (by decide) (by decide)]
    exact hb2n _ 3

/-- Settles O6. -/
theorem liningRecordsAndBanksAreWritten : Obligations.LiningRecordsAndBanksAreWritten := by
  refine ⟨⟨fun t wear w rest s hon hr hw => does_whenOn hon ?_, fun t wear s hon hr hw => ?_, fun t s hon => ⟨does_whenOn hon ?_,
    does_whenOn hon ?_⟩⟩, fun t bank s hon hb hok => does_whenOn hon ?_, fun t bank e s hon he => does_whenOn hon ?_,
    fun t w s hon hw hpoison hrot hkind => ?_⟩
  · obtain ⟨more, h⟩ := (s.tick t).writeDone_lin w rest hw
    obtain ⟨next, h'⟩ := (s.tick t).writeDone.wears_lin wear
    rw [if_neg (by simp [hw]), State.restartDue_idle _ (.inl (by simpa using hr)), h', h]
    refine ⟨?_, fun vals e => ?_, fun b e => ?_, fun k v e => ?_, fun k n e => ?_, fun k x e => ?_⟩
    · cases w.what <;> rfl
    all_goals simp [e, Lining.store, tget?_storeOpt]
  · obtain ⟨w, rest, hw'⟩ := List.exists_cons_of_ne_nil hw
    obtain ⟨more, h⟩ := (s.tick t).writeDone_lin w rest hw'
    obtain ⟨next, h'⟩ := (s.tick t).writeDone.wears_lin wear
    intro v
    have hpow : v.pow = s.pow := by simp [v]
    refine ⟨hpow, ?_, fun hp => does_whenOn hon ?_, fun hp => does_whenOn hon ?_⟩
    · rw [h', h]
      cases w.what <;> rfl
    · rw [if_neg (by simpa using hw)]
      exact State.restartDue_idle _ (.inr hp)
    · rw [if_neg (by simpa using hw), State.restartDue_now _ (by rw [← hr, ← hpow]) hp]
      exact ⟨v.halt_stopped, by rw [State.halt_pow, hpow]⟩
  · exact (s.tick t).armFactory_facts true
  · exact (s.tick t).armFactory_facts false
  · rw [if_pos ⟨hb, hok⟩]
    refine ⟨rfl, ?_, by simp [only_iff], rfl⟩
    refine (State.reg_setReg_self _ _ _ _ _ (by decide) (by decide)).trans ?_
    exact Nat.mod_eq_of_lt hb
  · rw [if_neg fun h => by simp [show s.bankRefused bank = none from h.2] at he]
    exact s.tick_only t
  · have hw' : (s.tick t).lin.bankWrite = some w := hw
    intro data
    refine ⟨fun hc => does_whenOn hon ?_, fun hc => does_whenOn hon ?_⟩ <;> rw [hw'] <;> dsimp only
    · rw [if_pos (show (s.tick t).checkUnit = true from hc)]
      generalize hv : crc 4 [] data = v
      obtain ⟨hlin, hdone, herr, honly⟩ := (s.tick t).bankDone_clean w data v hpoison hrot (State.memOctets_plain _ _ _ _ hkind) hv
      rw [hlin, hdone, herr]
      exact ⟨rfl, by simp, fun h => by simp [h, b2n], fun h => by simp [h, b2n], (s.tick_only t).trans honly⟩
    · rw [if_neg (by rw [show (s.tick t).checkUnit = false from hc]; exact Bool.false_ne_true)]
      exact s.tick_only t

end Sys2Proof.Machine
end

section
/-!
SUPPORT. What every statement about a command uses besides: a refutation's form and its state, and the lengths of octet strings.
-/

namespace Sys2Proof.Machine

-- Proofs one after another: the text is long, and is checked in bounded memory.
set_option Elab.async false

open Sys2Proof Sys2Proof.Safety

/-- What a command built on `whenOn` does in a state that is on, read off its body: the form a refutation needs. -/
theorem of_does_whenOn {c : Instr} {s : State} {t : Nat} (f : State → State) {effect : State → Prop} (h : Does c s effect)
    (hon : s.pow.on = true) (hc : exec c s = whenOn t f s := by unfold exec; rfl) : effect (f (s.tick t)) := by
  obtain ⟨u, hu, he⟩ := h
  obtain rfl : f (s.tick t) = u := Host.Outcome.next.inj ((hc.trans (whenOn_on t f s hon)).symm.trans hu)
  exact he

theorem only_refl (parts : List Block) (s : State) : Only parts s s := by simp [only_iff]

theorem only_mono {parts parts' : List Block} {s u : State} (h : Only parts s u) (sub : ∀ b ∈ parts, b ∈ parts') :
    Only parts' s u := fun b hb => h b fun hp => hb (sub b hp)

@[simp] theorem be_length (n v : Nat) : (be n v).length = n := by simp [be]

@[simp] theorem zeros_length (n : Nat) : (zeros n).length = n := by simp [zeros]

@[simp] theorem State.open8s_length (s : State) (k n : Nat) : (s.open8s k n).length = n := by simp [State.open8s]

/-! ## States that refute -/

/-- A session with every right, subscribed to everything. -/
def anySession : Session :=
  { gen := 1, maxmsg := 8208, grant := 8, rights := 0xFF, groups := 0xFFFF, kinds := 7,
    src := { mac := 2, udp := false, v6 := false, ip := 0, uport := 0, tag := none }, port := 0, last := 0, evSeq := 0, events := [],
    evLost := 0, recSeq := 0, recs := [], recLost := 0, recWhy := 0, tags := [], latElapsed := 0, latCluster := 0, latRx := 0,
    latRxc := 0 }

/-- The block after reset, with both Ethernet ports up and session 0 open. -/
def sessionOpen : State :=
  { State.reset with
    stw := { Stw.reset with sess := [(0, anySession)] }
    eth := [(0, { EthPort.reset with up := true }), (1, { EthPort.reset with up := true })] }

end Sys2Proof.Machine
end

section
/-!
SUPPORT. Registers: the latched reads, the access classes and quiet writes; statements O27, O19 and O20.
-/

namespace Sys2Proof.Machine

-- Proofs one after another: the text is long, and is checked in bounded memory.
set_option Elab.async false

open Sys2Proof Sys2Proof.Safety

/-! ## The latched reads -/

/-- A state whose cluster time has its base ahead of the device's clock: at its instant 0 the cluster time of 2^40 ns is 2^40 ns
and at 2^40 ns it is 0, since no time has passed since the base. -/
def seamAhead : State := { sessionOpen with now := 0, sea := { Sea.reset with valid := true, cat := 2 ^ 40 } }

theorem seamAhead_ctimeAt : seamAhead.ctimeAt (2 ^ 40) = 2 ^ 40 := by decide +kernel

theorem seamAhead_rxTimestampRead :
    (tget? ((((seamAhead.tick (2 ^ 40)).readRow 0 (2 ^ 40) .ethRxctsLo).readRow 0 (2 ^ 40) .ethRxtsLo)).stw.sess 0).map
      (·.latRxc) = some 0 := by
  decide +kernel

/-- Refutes O27: the statement takes the cluster time of the frame's arrival by the clock before the command. In a state whose
cluster time has a base ahead of the clock, which the statement does not rule out, the command's own instant gives another. -/
theorem not_lowReadsLatchTheHighPart : ¬ Obligations.LowReadsLatchTheHighPart := by
  unfold Obligations.LowReadsLatchTheHighPart
  rintro ⟨-, h⟩
  obtain ⟨-, -, hread⟩ := h (2 ^ 40) 0 (2 ^ 40) anySession seamAhead rfl rfl
  obtain ⟨-, hlat, -⟩ := of_does_whenOn (fun s => (s.readRow 0 (2 ^ 40) .ethRxctsLo).readRow 0 (2 ^ 40) .ethRxtsLo) hread rfl
  have hlatch := seamAhead_rxTimestampRead
  simp only [hlat, Option.map_some, Option.some_inj, if_pos (show seamAhead.sea.valid = true from rfl), seamAhead_ctimeAt] at hlatch
  exact absurd hlatch (by decide)

/-! ## The fields of a register -/

set_option maxRecDepth 4000 in
/-- The fields of the register table do not overlap. -/
theorem fields_apart (f : Fam) : ∀ x ∈ (famInfo f).flds, ∀ y ∈ (famInfo f).flds, x ≠ y → fldMask x &&& fldMask y = 0 := by
  cases f <;> decide +kernel

theorem foldl_mask_bit (p : Fld → Bool) (l : List Fld) (a : Word) (i : Nat) :
    (l.foldl (fun a x => if p x then a ||| fldMask x else a) a).getLsbD i =
      (a.getLsbD i || l.any fun x => p x && (fldMask x).getLsbD i) := by
  induction l generalizing a with
  | nil => simp
  | cons x l ih => rw [List.foldl_cons, ih]; cases h : p x <;> simp [h, Bool.or_assoc]

/-- A bit of a field is in the mask of the fields that satisfy `p` if the field does. -/
theorem maskOf_bit {f : Fam} {x : Fld} {i : Nat} (p : Fld → Bool) (hx : x ∈ (famInfo f).flds) (hi : (fldMask x).getLsbD i = true) :
    (maskOf f p).getLsbD i = p x := by
  rw [maskOf, foldl_mask_bit]
  simp only [BitVec.ofNat_eq_ofNat, BitVec.getLsbD_zero, Bool.false_or]
  rw [Bool.eq_iff_iff, List.any_eq_true]
  refine ⟨fun ⟨y, hy, h⟩ => ?_, fun h => ⟨x, hx, by simp [h, hi]⟩⟩
  simp only [Bool.and_eq_true] at h
  by_cases e : x = y
  · exact e ▸ h.1
  · have apart := congrArg (·.getLsbD i) (fields_apart f x hx y hy e)
    simp [hi, h.2] at apart

/-- Words that agree on the bits of a mask. -/
theorem and_mask_eq {a b m : Word} (h : ∀ i, m.getLsbD i = true → a.getLsbD i = b.getLsbD i) : a &&& m = b &&& m := by
  refine BitVec.eq_of_getLsbD_eq fun i _ => ?_
  rw [BitVec.getLsbD_and, BitVec.getLsbD_and]
  cases hm : m.getLsbD i with
  | false => simp
  | true => rw [h i hm]

theorem bit_of_disjoint {a b : Word} {i : Nat} (h : a &&& b = 0) (hi : a.getLsbD i = true) : b.getLsbD i = false := by
  have := congrArg (·.getLsbD i) h
  simpa [hi] using this

theorem storeMask_quiet {f : Fam} (h : hooked f = false) : storeMask f = plainMask f := by
  unfold storeMask
  split
  · simp [hooked] at h
  · simp [hooked] at h
  · simp [hooked] at h
  · rfl

/-! ## One register written -/

/-- The word that a write stores: fields with no effect of their own take it, and a W1C bit clears. -/
def RegWrite.stored (w : RegWrite) (old : Word) : Word :=
  ((old &&& ~~~storeMask w.fam) ||| (w.value &&& storeMask w.fam)) &&& ~~~(w.value &&& classMask w.fam .w1c)

theorem regWord_setShadow (r : Regs) (f g : Fam) (i j k l : Nat) (v : Word) :
    regWord (setShadow r f i j v) g k l = regWord r g k l := rfl

theorem shadowWord_setShadow_self (r : Regs) (f : Fam) (i j : Nat) (v : Word) : shadowWord (setShadow r f i j v) f i j = v := by
  simp [shadowWord, setShadow, regWord]

theorem Regs.write_word (r : Regs) (w : RegWrite) :
    regWord (r.write w) w.fam w.i w.j = w.stored (regWord r w.fam w.i w.j) := by
  have h := regWord_setWord_self r w.fam w.i w.j (w.stored (regWord r w.fam w.i w.j))
  unfold Regs.write
  dsimp only
  (repeat' split) <;> exact h

theorem Regs.write_shadow (r : Regs) (w : RegWrite) (hrs : classMask w.fam .rs ≠ 0) :
    shadowWord (r.write w) w.fam w.i w.j =
      (w.stored (regWord r w.fam w.i w.j) &&& ~~~classMask w.fam .rs) |||
        (((shadowWord r w.fam w.i w.j &&& ~~~w.mask) ||| (w.value &&& w.mask)) &&& classMask w.fam .rs) := by
  unfold Regs.write
  dsimp only
  rw [if_neg hrs]
  (repeat' split) <;> exact shadowWord_setShadow_self _ _ _ _ _

section
variable (r : Regs) (w : RegWrite) {x : Fld} {i : Nat}

theorem Regs.write_word_bit (hx : x ∈ (famInfo w.fam).flds) (hi : (fldMask x).getLsbD i = true) (hq : hooked w.fam = false) :
    (regWord (r.write w) w.fam w.i w.j).getLsbD i =
      ((if x.acc = .rw ∨ x.acc = .rl ∨ x.acc = .lv then w.value.getLsbD i else (regWord r w.fam w.i w.j).getLsbD i) &&
        !(w.value.getLsbD i && decide (x.acc = .w1c))) := by
  have hlt : i < 32 := BitVec.lt_of_getLsbD hi
  have hplain := maskOf_bit (fun y => decide (y.acc = .rw) || decide (y.acc = .rl) || decide (y.acc = .lv)) hx hi
  have hclear := maskOf_bit (fun y => decide (y.acc = .w1c)) hx hi
  rw [Regs.write_word, RegWrite.stored, storeMask_quiet hq]
  simp only [BitVec.getLsbD_and, BitVec.getLsbD_or, BitVec.getLsbD_not, hlt, decide_true, Bool.true_and, plainMask, classMask,
    hplain, hclear]
  cases hacc : x.acc <;> simp

theorem Regs.write_shadow_bit (hx : x ∈ (famInfo w.fam).flds) (hi : (fldMask x).getLsbD i = true) (ha : x.acc = .rs) :
    (shadowWord (r.write w) w.fam w.i w.j).getLsbD i =
      if w.mask.getLsbD i then w.value.getLsbD i else (shadowWord r w.fam w.i w.j).getLsbD i := by
  have hlt : i < 32 := BitVec.lt_of_getLsbD hi
  have hrs := maskOf_bit (fun y => decide (y.acc = .rs)) hx hi
  simp only [ha, decide_true] at hrs
  rw [Regs.write_shadow _ _ fun h => by simp [show maskOf w.fam _ = 0 from h] at hrs]
  simp only [BitVec.getLsbD_and, BitVec.getLsbD_or, BitVec.getLsbD_not, hlt, decide_true, Bool.true_and, classMask, hrs]
  cases w.mask.getLsbD i <;> simp

end

theorem readWord_bit (s : State) (x : Option Session) (arrived : Nat) (f : Fam) (k j : Nat) {y : Fld} {i : Nat}
    (hy : y ∈ (famInfo f).flds) (hi : (fldMask y).getLsbD i = true) :
    (s.readWord x arrived f k j).getLsbD i =
      (((s.live x arrived f k).foldl (fun v e => withBits v e.1.hi e.1.lo e.2) (regWord s.regs f k j)).getLsbD i &&
        !decide (y.acc = .wo)) := by
  have hlt : i < 32 := BitVec.lt_of_getLsbD hi
  have hdef := maskOf_bit (fun _ => true) hy hi
  have hwo := maskOf_bit (fun z => decide (z.acc = .wo)) hy hi
  simp only [State.readWord, BitVec.getLsbD_and, BitVec.getLsbD_or, BitVec.getLsbD_not, hlt, decide_true, Bool.true_and, classMask,
    definedMask, hdef, hwo]
  simp

/-- Settles O19, bit by bit: a bit of a field is in the masks of the field's own class and in no other. -/
theorem fieldsFollowTheirAccessClass : Obligations.FieldsFollowTheirAccessClass := by
  unfold Obligations.FieldsFollowTheirAccessClass
  refine ⟨fun r w x hq hx => ⟨fun ha => ?_, fun ha => ?_, fun ha => ?_, fun ha hm => ?_, fun ha hm => ?_⟩,
    fun s x arrived k j f y hy => ⟨fun ha => ?_, fun ha hl => ?_⟩⟩
  · refine and_mask_eq fun i hi => ?_
    rw [Regs.write_word_bit r w hx hi hq, if_pos ha]
    rcases ha with ha | ha | ha <;> simp [ha]
  · refine and_mask_eq fun i hi => ?_
    have hlt : i < 32 := BitVec.lt_of_getLsbD hi
    rw [Regs.write_word_bit r w hx hi hq]
    simp [ha, hlt]
  · refine and_mask_eq fun i hi => ?_
    rw [Regs.write_word_bit r w hx hi hq]
    rcases ha with ha | ha | ha <;> simp [ha]
  · refine and_mask_eq fun i hi => ?_
    rw [Regs.write_shadow_bit r w hx hi ha]
    have hlt : i < 32 := BitVec.lt_of_getLsbD hi
    have hin := bit_of_disjoint hm hi
    simp only [BitVec.getLsbD_not, hlt, decide_true, Bool.true_and, Bool.not_eq_false'] at hin
    simp [hin]
  · refine and_mask_eq fun i hi => ?_
    rw [Regs.write_shadow_bit r w hx hi ha]
    simp [bit_of_disjoint hm hi]
  · refine (and_mask_eq (b := 0#32) fun i hi => ?_).trans BitVec.zero_and
    rw [readWord_bit s x arrived f k j hy hi]
    simp [ha]
  · refine and_mask_eq fun i hi => ?_
    rw [readWord_bit s x arrived f k j hy hi]
    simp [ha, hl]

/-! ## Writes of registers without side effects -/

theorem State.tick_checkAll (s : State) (t slot : Nat) (l : List RegWrite) (r : Regs) :
    (s.tick t).checkAll slot r l = s.checkAll slot r l := by
  induction l generalizing r with
  | nil => rfl
  | cons w l ih => simp only [State.checkAll, ih, show (s.tick t).checkWrite slot (r.write w) w = s.checkWrite slot (r.write w) w from rfl]

theorem State.hookPorts_quiet (s old : State) {w : RegWrite} (h : hooked w.fam = false) : s.hookPorts old w = s := by
  unfold State.hookPorts
  split <;> simp_all [hooked]

theorem State.hookUnits_quiet (s old : State) {w : RegWrite} (h : hooked w.fam = false) : s.hookUnits old w = s := by
  unfold State.hookUnits
  split <;> simp_all [hooked]

theorem carrierReg_iff (f : Fam) : carrierReg f = true ↔ f = .stwXport ∨ f = .stwUdp := by simp [carrierReg]

theorem hooked_of_carrierReg {f : Fam} (h : carrierReg f = true) : hooked f = false := by
  rcases (carrierReg_iff f).1 h with rfl | rfl <;> rfl

theorem RegWrite.ofLoop_quiet {w : RegWrite} (n : Nat) (h : hooked w.fam = false) : w.ofLoop n = false := by
  unfold RegWrite.ofLoop
  split <;> simp_all [hooked]

/-- Writes none of which is of a loop output: no loop follows them. -/
theorem State.writeAll_noLoop (s : State) (l : List RegWrite) (h : ∀ w ∈ l, ∀ n, w.ofLoop n = false) :
    s.writeAll l = l.foldl (fun s w => if s.pow.on then s.writeReg w else s) s := by
  have none (n : Nat) : l.any (·.ofLoop n) = false := by
    simp only [List.any_eq_false]
    exact fun w hw => by simp [h w hw n]
  simp [State.writeAll, none]

theorem State.writeAll_quiet (s : State) {w : RegWrite} (hon : s.pow.on = true) (h : hooked w.fam = false) :
    s.writeAll [w] = s.writeReg w := by
  rw [s.writeAll_noLoop [w] (by simpa using fun n => RegWrite.ofLoop_quiet n h)]
  simp [hon]

theorem State.writeReg_quiet (s : State) {w : RegWrite} (hon : s.pow.on = true) (h : hooked w.fam = false)
    (hc : carrierReg w.fam = false) :
    s.writeReg w = ({ s with regs := (s.regs.write w).recount s.now w } : State).kept s w.fam w.i w.j := by
  rw [State.writeReg, if_neg fun e => by simp [(carrierReg_iff w.fam).2 e] at hc]
  dsimp only
  rw [State.hookPorts_quiet _ _ h, State.hookUnits_quiet _ _ h]
  exact if_pos hon

theorem State.writeReg_carrier (s : State) {w : RegWrite} (hc : carrierReg w.fam = true) : s.writeReg w = s.writeCarrier w :=
  if_pos ((carrierReg_iff w.fam).1 hc)

/-- The carrier registers as they are held, or as they stand. -/
def State.heldCarrier (s : State) : Word × Word := s.stw.carrier.getD (regWord s.regs .stwXport 0 0, regWord s.regs .stwUdp 0 0)

theorem State.writeCarrier_xport (s : State) {w : RegWrite} (h : w.fam = .stwXport) :
    s.writeCarrier w = { s with
      stw := { s.stw with
        carrier := some ((s.heldCarrier.1 &&& ~~~storeMask w.fam) ||| (w.value &&& storeMask w.fam), s.heldCarrier.2) } } := by
  rw [State.writeCarrier, if_pos h]
  rfl

theorem State.writeCarrier_udp (s : State) {w : RegWrite} (h : w.fam = .stwUdp) :
    s.writeCarrier w = { s with
      stw := { s.stw with
        carrier := some (s.heldCarrier.1, (s.heldCarrier.2 &&& ~~~storeMask w.fam) ||| (w.value &&& storeMask w.fam)) } } := by
  rw [State.writeCarrier, if_neg (by simp [h])]
  rfl

theorem RegWrite.stored_carrier {w : RegWrite} (hc : carrierReg w.fam = true) (old : Word) :
    ((old &&& ~~~storeMask w.fam) ||| (w.value &&& storeMask w.fam)) &&& plainMask w.fam = w.value &&& plainMask w.fam := by
  rw [storeMask_quiet (hooked_of_carrierReg hc)]
  refine and_mask_eq fun i hi => ?_
  simp [hi]

theorem Regs.write_hits (r : Regs) (w : RegWrite) : (r.write w).hitAt = r.hitAt ∧ (r.write w).hits = r.hits := by
  unfold Regs.write
  dsimp only
  (repeat' split) <;> exact ⟨rfl, rfl⟩

/-- Where no count has recorded an event at this instant, a write counts none anew. -/
theorem Regs.recount_vals (r : Regs) (now : Nat) (w : RegWrite) (h : r.hitsAt now = []) :
    ((r.write w).recount now w).vals = (r.write w).vals := by
  obtain ⟨hat, hhits⟩ := r.write_hits w
  have : (r.write w).hitsAt now = [] := by rwa [Regs.hitsAt, hat, hhits]
  simp [Regs.recount, this]

/-- Settles O20. -/
theorem quietRegistersAloneChange : Obligations.QuietRegistersAloneChange := by
  unfold Obligations.QuietRegistersAloneChange
  refine ⟨fun s w hon hc => ?_, fun s w hon hq hc => ?_, fun t slot addr value s hon => ⟨fun f i j hreg => ⟨fun hok => ?_, fun hbad => ?_⟩,
    fun hreg => ?_⟩⟩
  · have hw := RegWrite.stored_carrier hc
    rw [State.writeAll_quiet s hon (hooked_of_carrierReg hc), State.writeReg_carrier s hc]
    rcases (carrierReg_iff w.fam).1 hc with hf | hf
    · rw [State.writeCarrier_xport s hf]
      rw [hf] at hw
      exact ⟨by simp [only_iff], rfl, _, _, rfl, fun _ => ⟨rfl, by rw [hf, hw]⟩, fun h => by simp [hf] at h⟩
    · rw [State.writeCarrier_udp s hf]
      rw [hf] at hw
      exact ⟨by simp [only_iff], rfl, _, _, rfl, fun h => by simp [hf] at h, fun _ => ⟨rfl, by rw [hf, hw]⟩⟩
  · rw [State.writeAll_quiet s hon hq, State.writeReg_quiet s hon hq hc]
    unfold State.kept
    split
    next same => exact ⟨rfl, s.regs.recount_vals s.now w, by simp [only_iff], rfl, fun hd => absurd same hd⟩
    next => exact ⟨rfl, s.regs.recount_vals s.now w, by simp [only_iff, State.linWrite], rfl, fun _ => rfl⟩
  · refine does_whenOn hon ⟨s.tick t, s.tick_only t, rfl, ?_⟩
    simp only [hreg, State.tick_checkAll, State.tick_regs, hok]
    simp [only_iff]
  · refine does_whenOn hon ?_
    simp only [hreg, State.tick_checkAll, State.tick_regs, hbad, if_true]
    exact s.tick_only t
  · refine does_whenOn hon ?_
    simp only [hreg]
    exact s.tick_only t

end Sys2Proof.Machine
end

section
/-!
SUPPORT. The commands of the direct window, CFG and MEM (04 R73 to R81, R434); statements O21, O22, O23, O24 and O25.
-/

namespace Sys2Proof.Machine

-- Proofs one after another: the text is long, and is checked in bounded memory.
set_option Elab.async false

open Sys2Proof Sys2Proof.Safety

/-! ## Commands of the direct window -/

/-- The final response of a command whose session is open and takes its length: its frame, its session and its flight. -/
theorem State.finish_given (s : State) (f : Flight) (d : Bool) (status : Nat) (o : List Byte) (e : Bool) {x : Session}
    (h : f.opcode < 0x300 ∨ s.pairActive = true) (hx : tget? s.stw.sess f.slot = some x) (hg : x.gen = f.gen)
    (hl : 16 + o.length ≤ x.maxmsg) :
    Queued 2 { kind := .response, dst := f.src,
               body := message 1 (if d then 6 else 2) f.mb f.tag f.opcode f.seq f.slot f.gen status o } (s.finish f d status o e) ∧
      tget? (s.finish f d status o e).stw.sess f.slot =
        some { x with tags := tset x.tags f.tag { seq := f.seq, status := status, busy := false } } := by
  rw [State.finish_answer _ _ _ _ _ _ h]
  unfold State.answer
  extract_lets w0 w s1
  have hs : s1.sessOf f.slot f.gen = some x := State.sessOf_eq _ _ _ x (by simpa [s1, w, Stw.reap] using hx) hg
  simp only [hs, show ¬ x.maxmsg < 16 + o.length by omega, decide_false, Bool.false_eq_true, if_false]
  exact ⟨State.queueFrame_queued _ _ _ _ _, by simp [State.setSess]⟩

theorem State.finish_only (s : State) (f : Flight) (d : Bool) (status : Nat) (o : List Byte) (e : Bool) :
    Only [.stw, .eth] s (s.finish f d status o e) := by
  simp [only_iff]

theorem State.settle_none {s : State} (h : s.mem.posted = []) : s.settle = s := by
  simp only [State.settle, h, List.take_nil, List.drop_nil, List.foldl_nil]
  rw [← h]

theorem State.landAll_none {s : State} (h : s.mem.posted = []) (slot gen : Nat) : s.landAll slot gen = s := by
  simp only [State.landAll, h, List.filter_nil, List.foldl_nil]
  rw [← h]

/-- A sound command of the direct window runs in the state it has entered. -/
theorem sound_arriveDirect {s : State} {m : Inbound} {need : Nat} {x : Session} (h : Sound s m need x)
    (hw : s.waitOf m.slot m.gen = none) (opcode t : Nat) (fixed : List Nat) :
    (s.tick t).arriveDirect m opcode need fixed =
      (entered s m opcode t x .waiting).runDirect fixed (flightOf s m opcode t .waiting) := by
  have hw' : ((s.tick t).waitOf m.slot m.gen).isSome = false := by
    rw [show (s.tick t).waitOf m.slot m.gen = s.waitOf m.slot m.gen from rfl, hw]
    rfl
  simp only [State.arriveDirect, hw', Bool.false_eq_true, if_false]
  rw [sound_accept (sound_tick h t) opcode true _ (.inl rfl)]
  rfl

theorem tset_tset {α : Type} (l : Tab α) (k : Nat) (a b : α) : tset (tset l k a) k b = tset l k b := by
  induction l with
  | nil => simp [tset]
  | cons e l ih =>
    obtain ⟨c, w⟩ := e
    simp only [tset]
    split
    · simp [tset]
    · split
      · simp [tset]
      next h1 h2 => simp [tset, h1, h2, ih]

/-! ## What a register reads while its command is in hand -/

theorem tset_map_congr {α β : Type} (g : Nat × α → β) (l : Tab α) (k : Nat) {a b : α} (h : g (k, a) = g (k, b)) :
    (tset l k a).map g = (tset l k b).map g := by
  induction l with
  | nil => simp [tset, h]
  | cons e l ih =>
    obtain ⟨c, w⟩ := e
    simp only [tset]
    (repeat' split) <;> simp [h, ih]

section
variable (v : State) (l : Tab Session) (k : Nat) {y y' : Session} (hl : v.stw.sess = tset l k y) (hg : y'.grant = y.grant)
  (hp : y'.port = y.port)
include hl hg hp

/-- What a register reads does not turn on the latches of the sessions. -/
theorem State.readWord_latched (z : Option Session) (arrived : Nat) (f : Fam) (i j : Nat) :
    ({ v with stw := { v.stw with sess := tset l k y' } } : State).readWord z arrived f i j = v.readWord z arrived f i j := by
  have hkeys : (tset l k y').map (·.1) = v.stw.sess.map (·.1) := hl ▸ tset_map_congr _ l k rfl
  have hgrants : (tset l k y').map (·.2.grant) = v.stw.sess.map (·.2.grant) := hl ▸ tset_map_congr _ l k hg
  have hports : (tset l k y').map (·.2.port) = v.stw.sess.map (·.2.port) := hl ▸ tset_map_congr _ l k hp
  have hcore : ({ v with stw := { v.stw with sess := tset l k y' } } : State).liveCore z f i = v.liveCore z f i := by
    unfold State.liveCore
    split
    · have := congrArg (List.foldl (· + ·) 0) hgrants
      simp only [List.foldl_map] at this
      simp only [Stw.freeCredits, this]
    · have := congrArg (List.foldl (fun (a : Nat) e => a + 2 ^ e) 0) hkeys
      simp only [List.foldl_map] at this
      simp only [this]
    all_goals rfl
  have hon (p : Nat) : ({ v with stw := { v.stw with sess := tset l k y' } } : State).sessionsOn p = v.sessionsOn p := by
    have := congrArg (fun l => (l.filter fun q => decide (q = p)).length) hports
    simpa only [State.sessionsOn, List.filter_map, List.length_map, Function.comp_def] using this
  have hnet : ({ v with stw := { v.stw with sess := tset l k y' } } : State).liveNet z arrived f i = v.liveNet z arrived f i := by
    unfold State.liveNet
    split
    case h_7 => simp only [hon]; rfl
    all_goals rfl
  simp only [State.readWord, State.live, hcore, hnet]
  rfl

end

/-- A state in which a command of the direct window is being carried out: it has arrived, and its session is open. -/
structure InHand (s : State) (m : Inbound) (opcode t : Nat) (x : Session) (v : State) : Prop where
  arrived : Arrived s m opcode t v
  posted : v.mem.posted = s.mem.posted
  session : ∃ y, v.stw.sess = tset s.stw.sess m.slot y ∧ y.gen = m.gen ∧ y.maxmsg = x.maxmsg

theorem entered_inHand {s : State} {m : Inbound} {need : Nat} {x : Session} (h : Sound s m need x) (opcode t : Nat) :
    InHand s m opcode t x (entered s m opcode t x .waiting) where
  arrived := by
    have frame := entered_frame s m opcode t x .waiting
    refine ⟨?_, ?_, entered_flights s m opcode t x .waiting, fun k => ?_, rfl, rfl⟩
    · simp [only_iff, entered, State.enter]
    · simp [entered, State.enter]
    · simp only [entered, State.enter, State.setSess, tget?_tset, State.tick_stw, cleanTag]
      split
      next e => simp [e, h.session]
      next => rfl
  posted := by simp [entered, State.enter]
  session := by
    refine ⟨x.busyWith (max s.now t) m, ?_, h.gen, rfl⟩
    exact tset_tset _ _ _ _

theorem InHand.found {s v : State} {m : Inbound} {opcode t : Nat} {x : Session} (h : InHand s m opcode t x v) :
    ∃ y, tget? v.stw.sess m.slot = some y ∧ y.gen = m.gen ∧ y.maxmsg = x.maxmsg := by
  obtain ⟨y, hy, hg, hm⟩ := h.session
  exact ⟨y, by simp [hy], hg, hm⟩

section
variable {s v : State} {m : Inbound} {opcode t : Nat} {x : Session} (h : InHand s m opcode t x v)
include h

/-- The response of the command in hand. -/
theorem InHand.answer (hop : opcode < 0x300) (status : Nat) (o : List Byte) (e : Bool) (hl : 16 + o.length ≤ x.maxmsg) :
    Direct m opcode status o (v.finish (flightOf s m opcode t .waiting) true status o e) := by
  obtain ⟨y, hy, hg, hm⟩ := h.found
  exact (v.finish_given (flightOf s m opcode t .waiting) true status o e (.inl hop) hy hg (hm ▸ hl)).1

theorem InHand.only (status : Nat) (o : List Byte) (e : Bool) :
    Only [.stw, .eth] s (v.finish (flightOf s m opcode t .waiting) true status o e) :=
  only_mono (h.arrived.1.trans (v.finish_only _ true status o e)) (by simp)

/-- A register read leaves the command in hand, and reads what the registers hold there. -/
theorem InHand.readReg (arrived : Nat) (r : Fam × Nat × Nat) :
    InHand s m opcode t x (v.readReg m.slot m.gen arrived r).1 ∧
      ∃ y, (v.readReg m.slot m.gen arrived r).2 = v.readWord (some y) arrived r.1 r.2.1 r.2.2 ∧
        (v.readReg m.slot m.gen arrived r).1.readWord (some y) arrived r.1 r.2.1 r.2.2 =
          v.readWord (some y) arrived r.1 r.2.1 r.2.2 := by
  obtain ⟨⟨honly, hnow, hflights, hopen, hwaits, hcarrier⟩, hposted, y, hsess, hg, hm⟩ := h
  have hy : tget? v.stw.sess m.slot = some y := by simp [hsess]
  simp only [State.readReg, State.sessOf_eq v _ _ y hy hg]
  refine ⟨⟨⟨?_, hnow, hflights, fun k => ?_, hwaits, hcarrier⟩, hposted, ?_⟩, v.latched arrived r.1 y, rfl, ?_⟩
  · exact only_mono (honly.trans (parts' := [.stw]) (by simp [only_iff, State.setSess])) (by simp)
  · rw [← hopen k]
    simp only [State.setSess, tget?_tset]
    split
    next e => simp [e, hy]
    next => rfl
  · refine ⟨v.latched arrived r.1 y, by simp only [State.setSess, hsess, tset_tset], ?_⟩
    unfold State.latched
    split <;> exact ⟨hg, hm⟩
  · rw [State.setSess, hsess, tset_tset]
    exact v.readWord_latched _ _ hsess (by unfold State.latched; split <;> rfl) (by unfold State.latched; split <;> rfl) _ _ _ _ _

theorem InHand.readAll (arrived : Nat) (l : List (Fam × Nat × Nat)) :
    InHand s m opcode t x (v.readAll m.slot m.gen arrived l).1 ∧ (v.readAll m.slot m.gen arrived l).2.length = l.length ∧
      ∀ (k : Nat) (r : Fam × Nat × Nat), l[k]? = some r → ∃ v' y, Arrived s m opcode t v' ∧
        (v.readAll m.slot m.gen arrived l).2[k]? = some (v'.readWord (some y) arrived r.1 r.2.1 r.2.2) := by
  induction l generalizing v with
  | nil => exact ⟨h, rfl, by simp⟩
  | cons r l ih =>
    obtain ⟨hread, y, hvalue, -⟩ := h.readReg arrived r
    obtain ⟨hrest, hlen, hall⟩ := ih hread
    refine ⟨hrest, by simp [State.readAll, hlen], fun k q hq => ?_⟩
    cases k with
    | zero =>
      obtain rfl : r = q := by simpa using hq
      exact ⟨v, y, h.arrived, by simp [State.readAll, hvalue]⟩
    | succ k => exact hall k q (by simpa using hq)

end

theorem flatMap_be_length (vals : List Word) : (vals.flatMap fun v => be 4 v.toNat).length = 4 * vals.length := by
  induction vals with
  | nil => rfl
  | cons v vals ih => simp only [List.flatMap_cons, List.length_append, ih, be_length, List.length_cons]; omega

theorem except_map_ok {ε α β : Type} {f : α → β} {e : Except ε α} {b : β} (h : e.map f = .ok b) : ∃ a, e = .ok a ∧ f a = b := by
  cases e with
  | error => cases h
  | ok a => exact ⟨a, rfl, Except.ok.inj h⟩

theorem foldr_ok_length {ε α β : Type} (g : α → Except ε (List β) → Except ε (List β))
    (hg : ∀ k e l, g k e = .ok l → ∃ l', e = .ok l' ∧ l.length = l'.length + 1) (ks : List α) (l : List β)
    (h : ks.foldr g (.ok []) = .ok l) : l.length = ks.length := by
  induction ks generalizing l with
  | nil => cases h; rfl
  | cons k ks ih =>
    obtain ⟨l', hl', hlen⟩ := hg k _ l h
    simp [hlen, ih l' hl']

theorem regsFrom_length {a n : Nat} {l : List (Fam × Nat × Nat)} (h : regsFrom a n = .ok l) : l.length = n := by
  refine (foldr_ok_length _ (fun k e l h => ?_) _ l h).trans List.length_range
  split at h
  · obtain ⟨l', hl', rfl⟩ := except_map_ok h
    exact ⟨l', hl', rfl⟩
  · cases h

theorem State.tooLong_iff (s : State) (f : Flight) (n : Nat) {x : Session} (hx : tget? s.stw.sess f.slot = some x)
    (hg : x.gen = f.gen) : s.tooLong f n = decide (x.maxmsg < 16 + n) := by
  simp [State.tooLong, State.sessOf_eq s _ _ x hx hg]

/-- A refusal of the command in hand that names a register or an address (04 R78). -/
theorem InHand.refuses {s v : State} {m : Inbound} {opcode t : Nat} {x : Session} (h : InHand s m opcode t x v)
    (hop : opcode < 0x300) (hmax : 256 ≤ x.maxmsg) (status addr reason : Nat) :
    Only [.stw, .eth] s (v.finish (flightOf s m opcode t .waiting) true status (v.refusal addr reason)) ∧
    ∃ o, Direct m opcode status (be 4 addr ++ be 1 reason ++ o)
      (v.finish (flightOf s m opcode t .waiting) true status (v.refusal addr reason)) :=
  ⟨h.only _ _ _, _, h.answer hop status (v.refusal addr reason) false (by simp [State.refusal]; omega)⟩

/-- Settles O21. -/
theorem cfgReadReturnsTheRegisters : Obligations.CfgReadReturnsTheRegisters := by
  unfold Obligations.CfgReadReturnsTheRegisters
  intro t a n m x s hs hclear hmax hlen ha hn hn1 hn2
  obtain ⟨hwait, hposted⟩ := hclear
  have hin := entered_inHand hs 0x101 t
  obtain ⟨y, hy, hg, hm⟩ := hin.found
  have hrun : (s.tick t).arriveDirect m 0x101 Right.read [] =
      (entered s m 0x101 t x .waiting).cfgRead (flightOf s m 0x101 t .waiting) := by
    rw [sound_arriveDirect hs hwait, State.runDirect, State.settle_none (hin.posted.trans hposted)]
    rfl
  have hgood : ¬ (m.operand.length ≠ 8 ∨ n = 0 ∨ 2048 < n) := by omega
  have hlong : (entered s m 0x101 t x .waiting).tooLong (flightOf s m 0x101 t .waiting) (4 * n) = decide (x.maxmsg < 16 + 4 * n) := by
    rw [State.tooLong_iff _ _ _ hy hg, hm]
  refine ⟨fun l hl => ⟨fun hfit => does_whenOn hs.on ?_, fun hover => does_whenOn hs.on ?_⟩, fun b hb => does_whenOn hs.on ?_⟩
  all_goals
    simp only [hrun, State.cfgRead, show (flightOf s m 0x101 t .waiting).operand = m.operand from rfl, ← ha, ← hn, if_neg hgood]
  · simp only [hl, hlong, show ¬ x.maxmsg < 16 + 4 * n by omega, decide_false, Bool.false_eq_true, if_false]
    obtain ⟨hafter, hcount, hall⟩ := hin.readAll (max s.now t) l
    have hlen : ((entered s m 0x101 t x .waiting).readAll m.slot m.gen (max s.now t) l).2.length = n := hcount.trans (regsFrom_length hl)
    exact ⟨_, hlen, hafter.only _ _ _,
      hafter.answer (by decide) Status.ok _ false (by rw [flatMap_be_length, hlen]; exact hfit), hall⟩
  · simp only [hl, hlong, hover, decide_true, if_true]
    refine ⟨hin.answer (by decide) _ _ _ (by simp; omega), hin.only _ _ _, _,
      (State.finish_given _ (flightOf s m 0x101 t .waiting) true _ _ _ (.inl (by simp [flightOf])) (entered_sess _ _ _ _ _ _) hs.gen ?_).2, rfl, rfl, rfl, rfl⟩
    show 16 + 0 ≤ x.maxmsg
    omega
  · simp only [hb]
    obtain ⟨honly, o, hdirect⟩ := hin.refuses (by decide) hmax Status.badAddress b 0
    exact ⟨o, hdirect, honly⟩

/-! ## Addresses of registers -/

theorem locate_addr {x : FamInfo} {a i j : Nat} (h : locate x a = some (i, j)) : x.base + i * x.s1 + j * x.s2 = a := by
  unfold locate at h
  split at h
  · cases h
  next hbase =>
    extract_lets o i' o1 j' o2 at h
    split at h
    next hgood =>
      obtain ⟨rfl, rfl⟩ : i' = i ∧ j' = j := by simpa using h
      have h1 : i' * x.s1 + o1 = o := by
        by_cases e : x.s1 = 0
        · simp [i', o1, e]
        · simp only [i', o1, e, if_false]
          exact Nat.div_add_mod' o x.s1
      have h2 : j' * x.s2 + o2 = o1 := by
        by_cases e : x.s2 = 0
        · simp [j', o2, e]
        · simp only [j', o2, e, if_false]
          exact Nat.div_add_mod' o1 x.s2
      obtain ⟨-, -, hzero⟩ := hgood
      simp only [o] at h1
      omega
    next => cases h

theorem findFam_locate {fs : List Fam} {a i j : Nat} {f : Fam} (h : findFam fs a = some (f, i, j)) :
    locate (famInfo f) a = some (i, j) := by
  induction fs with
  | nil => cases h
  | cons g fs ih =>
    unfold findFam at h
    split at h
    next i' j' hl =>
      obtain ⟨rfl, rfl, rfl⟩ : g = f ∧ i' = i ∧ j' = j := by simpa using h
      exact hl
    next => exact ih h

/-- The register named by an address lies at it. -/
theorem regOf_addr {a i j : Nat} {f : Fam} (h : regOf a = some (f, i, j)) : famAddr f i j = a := by
  unfold regOf at h
  split at h
  · cases h
  · split at h
    · exact locate_addr (findFam_locate h)
    · cases h

theorem foldr_ok_mem {ε α β : Type} (g : α → Except ε (List β) → Except ε (List β)) (P : α → β → Prop)
    (hg : ∀ k e l, g k e = .ok l → ∃ r l', e = .ok l' ∧ l = r :: l' ∧ P k r) (ks : List α) (l : List β)
    (h : ks.foldr g (.ok []) = .ok l) : (∀ k ∈ ks, ∃ r, P k r) ∧ ∀ r ∈ l, ∃ k ∈ ks, P k r := by
  induction ks generalizing l with
  | nil => cases h; simp
  | cons k ks ih =>
    obtain ⟨r, l', hl', rfl, hr⟩ := hg k _ l h
    obtain ⟨hks, hl⟩ := ih l' hl'
    refine ⟨List.forall_mem_cons.2 ⟨⟨r, hr⟩, hks⟩, List.forall_mem_cons.2 ⟨⟨k, List.mem_cons_self, hr⟩, fun q hq => ?_⟩⟩
    obtain ⟨k', hk', h'⟩ := hl q hq
    exact ⟨k', List.mem_cons_of_mem _ hk', h'⟩

/-- The registers of a command are those at its addresses, of which each names one. -/
theorem regsFrom_mem {a n : Nat} {l : List (Fam × Nat × Nat)} (h : regsFrom a n = .ok l) :
    (∀ k < n, ∃ r, regOf (a + 4 * k) = some r) ∧ ∀ r ∈ l, ∃ k < n, regOf (a + 4 * k) = some r := by
  simpa using foldr_ok_mem _ (fun k r => regOf (a + 4 * k) = some r) (fun k e l h => by
    split at h
    next r hr =>
      obtain ⟨l', hl', rfl⟩ := except_map_ok h
      exact ⟨r, l', hl', rfl, hr⟩
    next => cases h) (List.range n) l h

theorem regOf_stw : regOf 20 = none ∧ ∀ k < 5, (regOf (4 * k)).any (fun r => hooked r.1) = false := by decide

/-- A command that writes a carrier register writes the block's first registers, which are quiet. -/
theorem regsFrom_carrier_quiet {a n : Nat} {l : List (Fam × Nat × Nat)} (h : regsFrom a n = .ok l)
    (hc : ∃ r ∈ l, carrierReg r.1 = true) : ∀ r ∈ l, hooked r.1 = false := by
  obtain ⟨hall, hmem⟩ := regsFrom_mem h
  obtain ⟨⟨f, i, j⟩, hr, hcr⟩ := hc
  obtain ⟨k, hk, hreg⟩ := hmem _ hr
  have hat : famAddr f i j = 0 ∨ famAddr f i j = 4 := by
    rcases (carrierReg_iff f).1 hcr with rfl | rfl <;> simp [famAddr, famInfo]
  rw [regOf_addr hreg] at hat
  intro r' hr'
  obtain ⟨k', hk', hreg'⟩ := hmem r' hr'
  have hsmall : a / 4 + k' < 5 := by
    by_contra hbig
    obtain ⟨r5, h5⟩ := hall (5 - a / 4) (by omega)
    rw [show a + 4 * (5 - a / 4) = 20 by omega, regOf_stw.1] at h5
    cases h5
  have hquiet := regOf_stw.2 (a / 4 + k') hsmall
  rw [show 4 * (a / 4 + k') = a + 4 * k' by omega, hreg'] at hquiet
  exact hquiet

/-! ## Quiet writes, and the response that follows them -/

/-- What a quiet write leaves of the sessions, the power and the transmit queues. -/
def Calm (s u : State) : Prop := u.stw = { s.stw with carrier := u.stw.carrier } ∧ u.pow = s.pow ∧ u.eth = s.eth

theorem Calm.trans {s u v : State} (h : Calm s u) (k : Calm u v) : Calm s v := by
  obtain ⟨h1, h2, h3⟩ := h
  obtain ⟨k1, k2, k3⟩ := k
  refine ⟨?_, k2.trans h2, k3.trans h3⟩
  rw [k1, h1]

theorem not_carrierReg {f : Fam} (h : carrierReg f = false) : ¬ (f = .stwXport ∨ f = .stwUdp) :=
  fun e => by simp [(carrierReg_iff f).2 e] at h

theorem State.writeReg_calm (s : State) {w : RegWrite} (h : hooked w.fam = false) : Calm s (s.writeReg w) := by
  cases hc : carrierReg w.fam with
  | true => rw [s.writeReg_carrier hc]; exact ⟨rfl, rfl, rfl⟩
  | false =>
    simp only [State.writeReg, if_neg (not_carrierReg hc), State.hookPorts_quiet _ _ h,
      State.hookUnits_quiet _ _ h]
    split
    · unfold State.kept
      split <;> exact ⟨rfl, rfl, rfl⟩
    · exact ⟨rfl, rfl, rfl⟩

theorem State.writeAll_calm (s : State) {l : List RegWrite} (h : ∀ w ∈ l, hooked w.fam = false) : Calm s (s.writeAll l) := by
  rw [s.writeAll_noLoop l fun w hw n => RegWrite.ofLoop_quiet n (h w hw)]
  induction l generalizing s with
  | nil => exact ⟨rfl, rfl, rfl⟩
  | cons w l ih =>
    obtain ⟨hw, hl⟩ := List.forall_mem_cons.1 h
    rw [List.foldl_cons]
    split
    · exact (s.writeReg_calm hw).trans (ih _ hl)
    · exact ih s hl

theorem State.writeAll_keepsCarrier (s : State) {l : List RegWrite} (h : ∀ w ∈ l, carrierReg w.fam = false) :
    (s.writeAll l).stw.carrier = s.stw.carrier := by
  have one (u : State) (w : RegWrite) (hw : carrierReg w.fam = false) : (u.writeReg w).stw.carrier = u.stw.carrier := by
    rw [State.writeReg, if_neg (not_carrierReg hw)]
    dsimp only
    split <;> simp
  have all (l : List RegWrite) (h : ∀ w ∈ l, carrierReg w.fam = false) (u : State) :
      (l.foldl (fun s w => if s.pow.on then s.writeReg w else s) u).stw.carrier = u.stw.carrier := by
    induction l generalizing u with
    | nil => rfl
    | cons w l ih =>
      obtain ⟨hw, hl⟩ := List.forall_mem_cons.1 h
      rw [List.foldl_cons, ih hl]
      split
      · exact one u w hw
      · rfl
  rw [← all l h s, State.writeAll]
  refine foldl_keeps (fun v : State => v.stw.carrier = _) _ (fun v n hv => ?_) _ _ rfl
  split
  · simpa using hv
  · exact hv

theorem State.settleCarrier_none {s : State} (h : s.stw.carrier = none) : s.settleCarrier = s := by simp [State.settleCarrier, h]

/-- A carrier that waits for a response goes on waiting while the response stands in a queue. -/
theorem State.settleCarrier_waits {s : State} {p : Nat} (hp : p < 2) (h : (tget [] (s.ep p).queues 2).any (·.settles) = true) :
    s.settleCarrier = s := by
  have : [0, 1].any (fun p => (tget [] (s.ep p).queues 2).any (·.settles)) = true :=
    List.any_eq_true.2 ⟨p, by interval_cases p <;> simp, h⟩
  unfold State.settleCarrier
  split
  · rfl
  · rw [if_pos this]

theorem State.txPort_lt (s : State) {p : Nat} (h : p < 2) : s.txPort p < 2 := by
  unfold State.txPort
  (repeat' split) <;> omega

/-- A final response that settles the carrier stands in a queue of one of the two ports. -/
theorem State.finish_settles (s : State) (f : Flight) (d : Bool) (status : Nat) (o : List Byte) {x : Session}
    (h : f.opcode < 0x300 ∨ s.pairActive = true) (hx : tget? s.stw.sess f.slot = some x) (hg : x.gen = f.gen) (hp : f.port < 2) :
    ∃ p < 2, (tget [] ((s.finish f d status o true).ep p).queues 2).any (·.settles) = true := by
  rw [State.finish_answer _ _ _ _ _ _ h]
  unfold State.answer
  extract_lets w0 w s1
  have hs : s1.sessOf f.slot f.gen = some x := State.sessOf_eq _ _ _ x (by simpa [s1, w, Stw.reap] using hx) hg
  simp only [hs]
  generalize s1.setSess _ _ = r
  refine ⟨r.txPort f.port, r.txPort_lt hp, ?_⟩
  rw [State.queueFrame_ep, if_pos rfl]
  simp

/-! ## CFG WRITE and CFG MODIFY -/

/-- The writes of the command in hand: refused whole, or carried out with the response behind them. -/
theorem InHand.applyWrites {s v : State} {m : Inbound} {opcode t : Nat} {x : Session} (h : InHand s m opcode t x v)
    (hposted : s.mem.posted = []) (hop : opcode < 0x300) (hmax : 256 ≤ x.maxmsg) (ws : List RegWrite) (o : List Byte)
    (ho : 16 + o.length ≤ x.maxmsg) (hcq : (∃ w ∈ ws, carrierReg w.fam = true) → ∀ w ∈ ws, hooked w.fam = false) :
    let u := v.applyWrites (flightOf s m opcode t .waiting) ws o
    (∀ e, v.checkAll m.slot v.regs ws = some e → Only [.stw, .eth] s u ∧
      ∃ o', Direct m opcode e.status (be 4 e.addr ++ be 1 e.reason ++ o') u) ∧
    (v.checkAll m.slot v.regs ws = none →
      (s.stw.carrier = none → (m.port < 2 ∨ ∀ w ∈ ws, carrierReg w.fam = false) → Only [.stw, .eth] (v.writeAll ws) u) ∧
      ((v.writeAll ws).pow.on = false → u = v.writeAll ws) ∧
      ((∀ w ∈ ws, hooked w.fam = false) → v.pow.on = true → Direct m opcode Status.ok o u)) := by
  extract_lets u
  obtain ⟨y, hy, hg, hm⟩ := h.found
  have hcar : v.stw.carrier = s.stw.carrier := h.arrived.2.2.2.2.2
  have hu : u = match v.checkAll m.slot v.regs ws with
      | some e => v.finish (flightOf s m opcode t .waiting) true e.status (v.refusal e.addr e.reason)
      | none =>
        if (v.writeAll ws).pow.on then
          ((v.writeAll ws).finish (flightOf s m opcode t .waiting) true Status.ok o
            (decide ((v.writeAll ws).stw.carrier ≠ v.stw.carrier))).settleCarrier
        else v.writeAll ws := by
    simp only [u, State.applyWrites, State.landAll_none (h.posted.trans hposted)]
    rfl
  refine ⟨fun e he => ?_, fun hok => ⟨fun hnone hcase => ?_, fun hoff => ?_, fun hq hon => ?_⟩⟩
  · rw [hu, he]
    exact h.refuses hop hmax e.status e.addr e.reason
  · rw [hu, hok]
    dsimp only
    split
    next =>
      have hkeep (e : Bool) : ((v.writeAll ws).finish (flightOf s m opcode t .waiting) true Status.ok o e).stw.carrier =
          (v.writeAll ws).stw.carrier := by simp
      have hsettled : ∀ e, e = decide ((v.writeAll ws).stw.carrier ≠ v.stw.carrier) →
          ((v.writeAll ws).finish (flightOf s m opcode t .waiting) true Status.ok o e).settleCarrier =
            (v.writeAll ws).finish (flightOf s m opcode t .waiting) true Status.ok o e := by
        intro e he
        by_cases hw : (v.writeAll ws).stw.carrier = none
        · exact State.settleCarrier_none ((hkeep e).trans hw)
        · have hsome : ∃ w ∈ ws, carrierReg w.fam = true := by
            by_contra hno
            push Not at hno
            exact hw ((v.writeAll_keepsCarrier fun w hm => by simpa using hno w hm).trans (hcar.trans hnone))
          have hport : m.port < 2 := hcase.resolve_right fun hall => by
            obtain ⟨w, hin, hc⟩ := hsome
            simp [hall w hin] at hc
          obtain ⟨hstw, -, -⟩ := v.writeAll_calm (hcq hsome)
          have hsess : tget? (v.writeAll ws).stw.sess m.slot = some y := by rw [hstw]; exact hy
          obtain rfl : e = true := by simp [he, hcar, hnone, hw]
          obtain ⟨p, hp, hwait⟩ := (v.writeAll ws).finish_settles (flightOf s m opcode t .waiting) true Status.ok o
            (.inl hop) hsess hg hport
          exact State.settleCarrier_waits hp hwait
      rw [hsettled _ rfl]
      exact State.finish_only _ _ _ _ _ _
    next => exact only_refl _ _
  · rw [hu, hok]
    simp [hoff]
  · obtain ⟨hstw, hpow, heth⟩ := v.writeAll_calm hq
    rw [hu, hok]
    simp only [hpow, hon, if_true]
    have hsess : tget? (v.writeAll ws).stw.sess m.slot = some y := by rw [hstw]; exact hy
    exact queued_of_eth ((v.writeAll ws).finish_given (flightOf s m opcode t .waiting) true Status.ok o
      (decide ((v.writeAll ws).stw.carrier ≠ v.stw.carrier)) (.inl hop) hsess hg (hm ▸ ho)).1 (by simp)

theorem InHand.on {s v : State} {m : Inbound} {opcode t : Nat} {x : Session} (h : InHand s m opcode t x v) : v.pow = s.pow :=
  h.arrived.1 .pow (by simp)

/-- Settles O22. -/
theorem cfgWriteWritesAllOrNothing : Obligations.CfgWriteWritesAllOrNothing := by
  unfold Obligations.CfgWriteWritesAllOrNothing
  intro t a n m x s hs hclear hmax ha hn hn1 hn2 hlen
  obtain ⟨hwait, hposted⟩ := hclear
  have hin := entered_inHand hs 0x102 t
  have hrun : (s.tick t).arriveDirect m 0x102 (writeRights a n) [] =
      (entered s m 0x102 t x .waiting).cfgWrite (flightOf s m 0x102 t .waiting) := by
    rw [sound_arriveDirect hs hwait, State.runDirect, State.settle_none (hin.posted.trans hposted)]
    rfl
  have hgood : ¬ (m.operand.length < 8 ∨ n = 0 ∨ 2046 < n ∨ m.operand.length ≠ 8 + 4 * n) := by omega
  refine ⟨fun l hl => ?_, fun b hb => does_whenOn hs.on ?_⟩
  · intro ws
    refine does_whenOn hs.on ?_
    have hfam : ∀ w ∈ ws, ∃ r ∈ l, w.fam = r.1 := fun w hw => by
      obtain ⟨z, hz, rfl⟩ := List.mem_map.1 hw
      exact ⟨z.1, List.fst_mem_of_mem_zipIdx hz, rfl⟩
    have hcq : (∃ w ∈ ws, carrierReg w.fam = true) → ∀ w ∈ ws, hooked w.fam = false := by
      rintro ⟨w, hw, hc⟩ w' hw'
      obtain ⟨r, hr, hf⟩ := hfam w hw
      obtain ⟨r', hr', hf'⟩ := hfam w' hw'
      exact hf' ▸ regsFrom_carrier_quiet hl ⟨r, hr, hf ▸ hc⟩ r' hr'
    obtain ⟨hbad, hok⟩ := hin.applyWrites hposted (by decide) hmax ws [] (by simp; omega) hcq
    simp only [hrun, State.cfgWrite, show (flightOf s m 0x102 t .waiting).operand = m.operand from rfl, ← ha, ← hn, if_neg hgood, hl]
    refine ⟨_, hin.arrived, hbad, fun hnone => ?_⟩
    obtain ⟨honly, hoff, hdirect⟩ := hok hnone
    exact ⟨fun hc hp => honly hc (.inl hp), hoff, fun hq => hdirect hq (hin.on ▸ hs.on)⟩
  · simp only [hrun, State.cfgWrite, show (flightOf s m 0x102 t .waiting).operand = m.operand from rfl, ← ha, ← hn, if_neg hgood, hb]
    obtain ⟨honly, o, hdirect⟩ := hin.refuses (by decide) hmax Status.badAddress b 0
    exact ⟨o, hdirect, honly⟩

/-! ## The live fields of a quiet register -/

/-- A live field lies clear of the fields that a write of its register sets. -/
def clearOfPlain (f : Fam) (r : FRef) : Bool :=
  (List.range 32).all fun i => !(plainMask f).getLsbD i || !(decide (r.lo ≤ i) && decide (i < r.hi + 1))

theorem live_clear (s : State) (x : Option Session) (arrived : Nat) (f : Fam) (k : Nat) (hq : hooked f = false) :
    ∀ e ∈ s.live x arrived f k, clearOfPlain f e.1 = true := by
  have hcore : ((s.liveCore x f k).all (fun e => clearOfPlain f e.1) || hooked f) = true := by
    unfold State.liveCore
    split <;> rfl
  have hports : ((s.livePorts f k).all (fun e => clearOfPlain f e.1) || hooked f) = true := by
    unfold State.livePorts
    split <;> rfl
  have hunits : ((s.liveUnits f k).all (fun e => clearOfPlain f e.1) || hooked f) = true := by
    unfold State.liveUnits
    split <;> rfl
  have hsite : ((s.liveSite f k).all (fun e => clearOfPlain f e.1) || hooked f) = true := by
    unfold State.liveSite
    split <;> rfl
  have hnet : ((s.liveNet x arrived f k).all (fun e => clearOfPlain f e.1) || hooked f) = true := by
    unfold State.liveNet
    split <;> rfl
  have hscope : scopeFams f = [] := by
    unfold scopeFams
    split <;> simp_all [hooked]
  simp only [hq, Bool.or_false, List.all_eq_true] at hcore hports hunits hsite hnet
  simp only [State.live, hscope, List.isEmpty_nil, Bool.not_true, Bool.false_eq_true, if_false, List.mem_append]
  rintro e ((((h | h) | h) | h) | h)
  exacts [hcore e h, hports e h, hunits e h, hsite e h, hnet e h]

theorem foldl_withBits_bit (l : List (FRef × Nat)) (v : Word) {i : Nat} (hi : i < 32)
    (h : ∀ e ∈ l, ¬ (e.1.lo ≤ i ∧ i < e.1.hi + 1)) :
    (l.foldl (fun v e => withBits v e.1.hi e.1.lo e.2) v).getLsbD i = v.getLsbD i := by
  induction l generalizing v with
  | nil => rfl
  | cons e l ih =>
    obtain ⟨he, hl⟩ := List.forall_mem_cons.1 h
    rw [List.foldl_cons, ih _ hl]
    have := withBits_testBit v e.1.hi e.1.lo e.2 i hi
    rwa [if_neg he] at this

/-- A field that a write sets reads as its register holds it, in a quiet register. -/
theorem readWord_plain_bit (s : State) (x : Option Session) (arrived k j : Nat) {f : Fam} {y : Fld} {i : Nat} (hq : hooked f = false)
    (hy : y ∈ (famInfo f).flds) (hi : (fldMask y).getLsbD i = true) (ha : y.acc = .rw ∨ y.acc = .rl ∨ y.acc = .lv) :
    (s.readWord x arrived f k j).getLsbD i = (regWord s.regs f k j).getLsbD i := by
  have hlt : i < 32 := BitVec.lt_of_getLsbD hi
  have hplain : (plainMask f).getLsbD i = true := by
    rw [plainMask, maskOf_bit _ hy hi]
    rcases ha with ha | ha | ha <;> simp [ha]
  have hclear : ∀ e ∈ s.live x arrived f k, ¬ (e.1.lo ≤ i ∧ i < e.1.hi + 1) := fun e he => by
    have := live_clear s x arrived f k hq e he
    rw [clearOfPlain, List.all_eq_true] at this
    have hapart := this i (List.mem_range.2 hlt)
    simp only [hplain, Bool.not_true, Bool.false_or, Bool.not_eq_true', Bool.and_eq_false_iff, decide_eq_false_iff_not] at hapart
    omega
  rw [readWord_bit s x arrived f k j hy hi, foldl_withBits_bit _ _ hlt hclear]
  rcases ha with ha | ha | ha <;> simp [ha]

/-! ## CFG MODIFY -/

section
variable (s : State) (f : Fam) (i j : Nat) (read mask value : Word) {z : Fld} {b : Nat} (hz : z ∈ (famInfo f).flds)
  (hb : (fldMask z).getLsbD b = true)
include hz hb

/-- The bit of a field that a MODIFY writes. -/
theorem State.modifyWrite_bit : ((s.modifyWrite (f, i, j) read mask value).value).getLsbD b =
    if mask.getLsbD b then value.getLsbD b
    else (if z.acc = .rs then (shadowWord s.regs f i j).getLsbD b else read.getLsbD b) && !(decide (z.acc = .w1c) || decide (z.acc = .wo)) := by
  have hlt : b < 32 := BitVec.lt_of_getLsbD hb
  have h1 := maskOf_bit (fun y => decide (y.acc = .rs)) hz hb
  have h2 := maskOf_bit (fun y => decide (y.acc = .w1c)) hz hb
  have h3 := maskOf_bit (fun y => decide (y.acc = .wo)) hz hb
  simp only [State.modifyWrite, BitVec.getLsbD_and, BitVec.getLsbD_or, BitVec.getLsbD_not, hlt, decide_true, Bool.true_and, classMask,
    h1, h2, h3]
  cases mask.getLsbD b <;> cases hacc : z.acc <;> simp

end

theorem regWord_vals {r r' : Regs} (h : r'.vals = r.vals) (f : Fam) (i j : Nat) : regWord r' f i j = regWord r f i j := by
  simp only [regWord, h]

theorem shadowWord_vals {r r' : Regs} (h : r'.vals = r.vals) (h' : r'.shad = r.shad) (f : Fam) (i j : Nat) :
    shadowWord r' f i j = shadowWord r f i j := by
  simp only [shadowWord, regWord, h, h']

/-- A quiet register written, where no count has recorded an event at the instant: the register and its shadow. -/
theorem State.writeAll_quiet_words (v : State) {w : RegWrite} (hon : v.pow.on = true) (hq : hooked w.fam = false)
    (hc : carrierReg w.fam = false) (hhits : v.regs.hitsAt v.now = []) :
    regWord (v.writeAll [w]).regs w.fam w.i w.j = regWord (v.regs.write w) w.fam w.i w.j ∧
      shadowWord (v.writeAll [w]).regs w.fam w.i w.j = shadowWord (v.regs.write w) w.fam w.i w.j := by
  have hregs : (v.writeAll [w]).regs = (v.regs.write w).recount v.now w := by
    rw [v.writeAll_quiet hon hq, v.writeReg_quiet hon hq hc]
    unfold State.kept
    split <;> rfl
  obtain ⟨hat, hh⟩ := v.regs.write_hits w
  have hnone : (v.regs.write w).hitsAt v.now = [] := by rwa [Regs.hitsAt, hat, hh]
  rw [hregs]
  exact ⟨regWord_vals (v.regs.recount_vals v.now w hhits) _ _ _,
    shadowWord_vals (v.regs.recount_vals v.now w hhits) (by simp [Regs.recount, hnone]) _ _ _⟩

section
variable {s v : State} {f : Fam} {i j arrived : Nat} {y : Session} {mask value : Word} {z : Fld} (hz : z ∈ (famInfo f).flds)
  (hq : hooked f = false)
include hz hq

/-- What a MODIFY writes in the fields that its mask leaves out: what they hold. -/
theorem modify_outside (hm : fldMask z &&& mask = 0) :
    let w := v.modifyWrite (f, i, j) (v.readWord (some y) arrived f i j) mask value
    regWord (v.regs.write w) f i j &&& fldMask z = regWord v.regs f i j &&& fldMask z ∧
      (z.acc = .rs → shadowWord (v.regs.write w) f i j &&& fldMask z = shadowWord v.regs f i j &&& fldMask z) := by
  intro w
  refine ⟨and_mask_eq fun b hb => ?_, fun ha => and_mask_eq fun b hb => ?_⟩
  · have hbit := v.modifyWrite_bit f i j (v.readWord (some y) arrived f i j) mask value hz hb
    rw [bit_of_disjoint hm hb] at hbit
    have hread := readWord_plain_bit v (some y) arrived i j hq hz hb
    have hword : (regWord (v.regs.write w) f i j).getLsbD b = _ := v.regs.write_word_bit w hz hb hq
    rw [hword, show w.value.getLsbD b = _ from hbit]
    cases ha : z.acc <;> simp [hread, ha, w, State.modifyWrite]
  · exact (v.regs.write_shadow_bit w hz hb ha).trans (if_neg (by simp [w, State.modifyWrite, bit_of_disjoint hm hb]))

/-- What it writes in the fields that its mask names. -/
theorem modify_inside (read : Word) (hm : fldMask z &&& ~~~mask = 0) :
    let w := v.modifyWrite (f, i, j) read mask value
    ((z.acc = .rw ∨ z.acc = .rl ∨ z.acc = .lv) → regWord (v.regs.write w) f i j &&& fldMask z = value &&& fldMask z) ∧
    (z.acc = .w1c → regWord (v.regs.write w) f i j &&& fldMask z = regWord v.regs f i j &&& ~~~value &&& fldMask z) ∧
    (z.acc = .rs → shadowWord (v.regs.write w) f i j &&& fldMask z = value &&& fldMask z) ∧
    ((z.acc = .rs ∨ z.acc = .ro ∨ z.acc = .wo) →
      regWord (v.regs.write w) f i j &&& fldMask z = regWord v.regs f i j &&& fldMask z) := by
  intro w
  have hin (b : Nat) (hb : (fldMask z).getLsbD b = true) : mask.getLsbD b = true ∧ w.value.getLsbD b = value.getLsbD b := by
    have hlt : b < 32 := BitVec.lt_of_getLsbD hb
    have hmask : mask.getLsbD b = true := by simpa [hlt] using bit_of_disjoint hm hb
    exact ⟨hmask, by rw [v.modifyWrite_bit f i j read mask value hz hb, hmask, if_pos rfl]⟩
  refine ⟨fun ha => and_mask_eq fun b hb => ?_, fun ha => and_mask_eq fun b hb => ?_, fun ha => and_mask_eq fun b hb => ?_,
    fun ha => and_mask_eq fun b hb => ?_⟩
  · refine (v.regs.write_word_bit w hz hb hq).trans ?_
    rw [if_pos ha, (hin b hb).2]
    rcases ha with ha | ha | ha <;> simp [ha]
  · have hlt : b < 32 := BitVec.lt_of_getLsbD hb
    refine (v.regs.write_word_bit w hz hb hq).trans ?_
    rw [(hin b hb).2]
    simp [ha, hlt, w, State.modifyWrite]
  · refine (v.regs.write_shadow_bit w hz hb ha).trans ?_
    rw [(hin b hb).2]
    exact if_pos (hin b hb).1
  · refine (v.regs.write_word_bit w hz hb hq).trans ?_
    rcases ha with ha | ha | ha <;> simp [ha, w, State.modifyWrite]

end

/-- Settles O23. -/
theorem cfgModifyWritesUnderTheMask : Obligations.CfgModifyWritesUnderTheMask := by
  unfold Obligations.CfgModifyWritesUnderTheMask
  intro t a i j f m x s hs hclear hmax hlen ha hreg mask value
  obtain ⟨hwait, hposted⟩ := hclear
  have hent := entered_inHand hs 0x103 t
  obtain ⟨hin, y, hvalue, hsame⟩ := hent.readReg (max s.now t) (f, i, j)
  generalize hv : ((entered s m 0x103 t x .waiting).readReg m.slot m.gen (max s.now t) (f, i, j)).1 = v at hin hsame
  have hread := hvalue.trans hsame.symm
  have hrun : (s.tick t).arriveDirect m 0x103 (writeRights a 1) [] =
      v.applyWrites (flightOf s m 0x103 t .waiting)
        [v.modifyWrite (f, i, j) (v.readWord (some y) (max s.now t) f i j) mask value]
        (be 4 (v.readWord (some y) (max s.now t) f i j).toNat) := by
    rw [sound_arriveDirect hs hwait, State.runDirect, State.settle_none (hent.posted.trans hposted)]
    simp only [flightOf, State.cfgModify, hlen, ne_eq, not_true_eq_false, if_false, ← ha, hreg,
      State.landAll_none (hent.posted.trans hposted), hv, hread]
    rfl
  refine does_whenOn hs.on ?_
  simp only [← ha, hrun]
  refine ⟨v, y, hin.arrived, ?_⟩
  set read := v.readWord (some y) (max s.now t) f i j with hreadw
  set w := v.modifyWrite (f, i, j) read mask value
  obtain ⟨hbad, hok⟩ := hin.applyWrites hposted (by decide) hmax [w] (be 4 read.toNat) (by simp; omega)
    (by simpa using hooked_of_carrierReg)
  refine ⟨hbad, fun hnone => ?_⟩
  obtain ⟨honly, hoff, hdirect⟩ := hok hnone
  have hon : v.pow.on = true := hin.on ▸ hs.on
  refine ⟨fun hc hp => honly hc (.inl hp), hoff, fun hq => hdirect (List.forall_mem_singleton.2 hq) hon, fun hq hcr hc hhits z hz => ?_⟩
  have hregs : v.regs = s.regs := hin.arrived.1 .regs (by simp)
  have hu := honly hc (.inr (List.forall_mem_singleton.2 hcr)) .regs (by simp)
  obtain ⟨hword, hshadow⟩ := v.writeAll_quiet_words (w := w) hon hq hcr (by rw [hregs, hin.arrived.2.1]; exact hhits)
  have hout := modify_outside (v := v) (i := i) (j := j) (arrived := max s.now t) (y := y) (mask := mask) (value := value) hz hq
  have hins := modify_inside (v := v) (i := i) (j := j) (mask := mask) (value := value) hz hq read
  rw [hu]
  refine ⟨fun hm => ?_, fun hm hrs => ?_, fun hm => ?_⟩
  · exact hregs ▸ (congrArg (· &&& fldMask z) hword).trans (hout hm).1
  · exact hregs ▸ (congrArg (· &&& fldMask z) hshadow).trans ((hout hm).2 hrs)
  · obtain ⟨hplain, hclear, hrs, hkeep⟩ := hins hm
    rw [show regWord (v.writeAll [w]).regs f i j = _ from hword, show shadowWord (v.writeAll [w]).regs f i j = _ from hshadow, ← hregs]
    exact ⟨hplain, hclear, hrs, hkeep⟩

/-! ## CFG WAIT -/

/-- A WAIT whose command bears a firmware opcode, in a state where no steward pair runs: its time is over. -/
def strayWait : Wait := { ref := 0, slot := 0, addr := 8, mask := 0, want := 1, due := 0 }

def strayFlight : Flight :=
  { ref := 0, slot := 0, gen := 1, tag := 1, seq := 0, mb := 7, opcode := 0x301, time := 0, src := anySession.src, port := 0,
    operand := [], pend := false, stage := .waiting }

def strayWaiting : State :=
  { sessionOpen with
    stw := { sessionOpen.stw with waits := [strayWait], flights := [strayFlight] }
    fau := { Fau.reset with pairs := [] } }

theorem strayWaiting_ends : ((strayWaiting.tick 0).waitRead strayWait strayFlight []).eth = strayWaiting.eth := by
  unfold State.waitRead
  rw [show regOf strayWait.addr = some (.stwCredit, 0, 0) by decide]
  dsimp only
  split <;> rfl

theorem strayWaiting_queues : ∀ p, tget [] (strayWaiting.ep p).queues 2 = [] := by
  intro p
  match p with
  | 0 => rfl
  | 1 => rfl
  | p + 2 => rfl

/-- Refutes O24: the clause of CFG_WAIT_COMPLETE leaves the opcode of the waiting command open. Where it is a firmware one and no
pair runs, its result is recorded and no response goes out. -/
theorem not_cfgWaitAnswersOnceMetOrLate : ¬ Obligations.CfgWaitAnswersOnceMetOrLate := by
  unfold Obligations.CfgWaitAnswersOnceMetOrLate
  rintro ⟨-, h⟩
  have hdoes := h 0 0 0 .stwCredit strayWait strayFlight anySession strayWaiting rfl (by decide) (by decide) (by decide) (by decide)
    (by decide) (by decide)
  obtain ⟨-, v, y, -, hnow, -, hcase⟩ := of_does_whenOn _ hdoes rfl
  dsimp only at hcase
  rw [if_pos (Or.inr (show strayWait.due ≤ max strayWaiting.now 0 from Nat.zero_le _))] at hcase
  obtain ⟨-, o, p, g, hg, -⟩ := hcase
  change g ∈ tget [] (tget EthPort.init ((strayWaiting.tick 0).waitRead strayWait strayFlight []).eth p).queues 2 at hg
  rw [strayWaiting_ends, show tget EthPort.init strayWaiting.eth p = strayWaiting.ep p from rfl, strayWaiting_queues p] at hg
  simp at hg

/-! ## MEM commands -/

theorem State.raiseIf_grows (s : State) (p : Prop) [Decidable p] (code block inst : Nat) (data : List Byte) :
    SessionsGrow s (if p then s.raise code block inst data else s) := by
  split
  · exact s.raise_grows _ _ _ _
  · exact .of_sess rfl

theorem State.corrected_grows (s : State) (a : Nat) : SessionsGrow s (s.corrected a) := by
  unfold State.corrected
  refine SessionsGrow.trans (.of_sess ?_) (State.raiseIf_grows _ _ _ _ _ _)
  split <;> simp

theorem State.foundRotten_grows (s : State) (block c : Nat) : SessionsGrow s (s.foundRotten block c) := by
  unfold State.foundRotten
  exact SessionsGrow.trans (.of_sess (by simp)) (State.raise_grows _ _ _ _ _)

theorem State.landOne_grows (s : State) (p : Posted) : SessionsGrow s (s.landOne p) :=
  (foldl_sessionsGrow _ (fun s c => s.foundRotten_grows 0 c) _ s).trans (.of_sess rfl)

theorem State.landOne_read (s : State) (p : Posted) (a : Nat) : (s.landOne p).mem.read a =
    if p.addr ≤ a ∧ a < p.addr + p.data.length then p.data.getD (a - p.addr) 0 else s.mem.read a := by
  have hcells : (s.consumePart 0x00 p.addr p.data.length).mem.cells = s.mem.cells := by simp
  have hread : (s.consumePart 0x00 p.addr p.data.length).mem.read a = s.mem.read a := by simp only [Mem.read, hcells]
  rw [← hread]
  exact Mem.read_store _ p.addr a p.data

/-- What landing posted writes leaves: those that still wait, the ranges, and every octet that none of them covers. -/
structure Landed (l : List Posted) (s u : State) : Prop where
  only : Only [.regs, .stw, .mem, .eth, .fau] s u
  posted : u.mem.posted = s.mem.posted
  ranges : u.mem.ranges = s.mem.ranges
  grows : SessionsGrow s u
  outside : ∀ a, (∀ p ∈ l, a < p.addr ∨ p.addr + p.data.length ≤ a) → u.mem.read a = s.mem.read a

theorem State.landOne_landed (s : State) (p : Posted) : Landed [p] s (s.landOne p) where
  only := by simp [only_iff]
  posted := by simp
  ranges := by simp
  grows := s.landOne_grows p
  outside a h := by
    have := h p List.mem_cons_self
    rw [s.landOne_read, if_neg (by omega)]

theorem Landed.trans {l l' : List Posted} {s u v : State} (h : Landed l s u) (k : Landed l' u v) : Landed (l ++ l') s v where
  only := only_mono (h.only.trans k.only) (by simp)
  posted := k.posted.trans h.posted
  ranges := k.ranges.trans h.ranges
  grows := h.grows.trans k.grows
  outside a ha := (k.outside a fun p hp => ha p (by simp [hp])).trans (h.outside a fun p hp => ha p (by simp [hp]))

theorem State.lands_landed (s : State) (l : List Posted) : Landed l s (l.foldl (fun s p => s.landOne p) s) := by
  induction l generalizing s with
  | nil => exact ⟨only_refl _ s, rfl, rfl, .of_sess rfl, fun _ _ => rfl⟩
  | cons p l ih => exact (s.landOne_landed p).trans (ih _)

theorem State.settle_landed (s : State) (l : List Posted) (hl : l = s.mem.posted.take (s.draw 1020 (s.mem.posted.length + 1))) :
    Landed l { s with mem := { s.mem with posted := s.mem.posted.drop (s.draw 1020 (s.mem.posted.length + 1)) } } s.settle :=
  hl ▸ State.lands_landed _ _

theorem State.landAll_landed (s : State) (slot gen : Nat) :
    Landed (s.mem.posted.filter (Posted.of slot gen))
      { s with mem := { s.mem with posted := s.mem.posted.filter fun p => !p.of slot gen } } (s.landAll slot gen) :=
  State.lands_landed _ _

/-- A session that goes on still takes what its command's response needs. -/
theorem InHand.grown {s v u : State} {m : Inbound} {opcode t : Nat} {x : Session} (h : InHand s m opcode t x v)
    (hgrow : SessionsGrow v u) : ∃ y, tget? u.stw.sess m.slot = some y ∧ y.gen = m.gen ∧ y.maxmsg = x.maxmsg := by
  obtain ⟨y, hy, hg, hm⟩ := h.found
  obtain ⟨z, hz, hsame, -⟩ := hgrow m.slot y hy
  exact ⟨z, hz, by rw [hsame]; exact hg, by rw [hsame]; exact hm⟩

theorem InHand.answerAfter {s v u : State} {m : Inbound} {opcode t : Nat} {x : Session} (h : InHand s m opcode t x v)
    (hgrow : SessionsGrow v u) (hop : opcode < 0x300) (status : Nat) (o : List Byte) (e : Bool) (hl : 16 + o.length ≤ x.maxmsg) :
    Direct m opcode status o (u.finish (flightOf s m opcode t .waiting) true status o e) := by
  obtain ⟨y, hy, hg, hm⟩ := h.grown hgrow
  exact (u.finish_given (flightOf s m opcode t .waiting) true status o e (.inl hop) hy hg (hm ▸ hl)).1

theorem InHand.mem {s : State} {m : Inbound} {opcode t : Nat} {x : Session} {v : State} (h : InHand s m opcode t x v) : v.mem = s.mem :=
  h.arrived.1 .mem (by simp)

/-- The corrections a MEM READ makes: memory, and what any session is owed, stay. -/
theorem State.corrects (s : State) (l : List Nat) (f : Nat → Nat) :
    Only [.regs, .stw, .eth, .fau] s (l.foldl (fun s c => s.corrected (f c)) s) ∧
      SessionsGrow s (l.foldl (fun s c => s.corrected (f c)) s) ∧ (l.foldl (fun s c => s.corrected (f c)) s).free = s.free :=
  ⟨by simp [only_iff], foldl_sessionsGrow _ (fun s c => s.corrected_grows (f c)) l s, by simp⟩

section
variable {s : State} {m : Inbound} {x : Session} (hposted : s.mem.posted = []) (hmax : 256 ≤ x.maxmsg)

theorem Mem.seenBy_none {M : Mem} (h : M.posted = []) (slot gen : Nat) : M.seenBy slot gen = M := by simp [Mem.seenBy, h]

section
variable {t a n : Nat} (fixed : List Nat) (hs : Sound s m Right.read x) (hwait : s.waitOf m.slot m.gen = none)
  (hlen : m.operand.length = 16) (ha : a = beAt m.operand 0 8) (hn : n = beAt m.operand 8 4) (hn1 : 1 ≤ n) (hn2 : n ≤ 8192)
include hs hwait hlen ha hn hn1 hn2 hposted

/-- MEM READ, by what it finds: an octet that may not be read, an answer too long, or memory without latent codewords. -/
theorem memRead_runs :
    let v := entered s m 0x201 t x .waiting
    let f := flightOf s m 0x201 t .waiting
    let u := (s.tick t).arriveDirect m 0x201 Right.read fixed
    (∀ b, firstBad (mayRead s.mem) a n = some b → u = v.finish f true Status.badAddress (v.refusal (b % 2 ^ 32) 0)) ∧
    (firstBad (mayRead s.mem) a n = none → x.maxmsg < 16 + n → u = v.finish f true Status.badLength []) ∧
    (firstBad (mayRead s.mem) a n = none → 16 + n ≤ x.maxmsg → s.mem.rot = [] → ∃ w, Only [.regs, .stw, .eth, .fau] v w ∧
      SessionsGrow v w ∧
      u = if (s.mem.poisonIn a n).isEmpty then w.finish f true Status.ok ((List.range n).map fun i => w.memOctet s.mem (a + i))
        else w.finish f true Status.memError []) := by
  intro v f u
  have hin := entered_inHand hs 0x201 t
  obtain ⟨y, hy, hg, hm⟩ := hin.found
  have hmem : v.mem = s.mem := hin.mem
  have hgood : ¬ (m.operand.length ≠ 16 ∨ n = 0 ∨ 8192 < n) := by omega
  have hu : u = v.memRead fixed f := by
    simp only [u]
    rw [sound_arriveDirect hs hwait, State.runDirect, State.settle_none (hin.posted.trans hposted)]
    rfl
  have hlong : v.tooLong f n = decide (x.maxmsg < 16 + n) := by rw [State.tooLong_iff v f n hy hg, hm]
  rw [hu]
  simp only [State.memRead, show f.operand = m.operand from rfl, ← ha, ← hn, if_neg hgood, hmem, hlong]
  refine ⟨fun b hb => by simp only [hb], fun hok hover => by simp only [hok, hover, decide_true, if_true], fun hok hfit hrot => ?_⟩
  obtain ⟨honly, hgrow, -⟩ := v.corrects (fixed.filter fun c => inMemory c && touches a n (codeword c)) codeword
  refine ⟨_, honly, hgrow, ?_⟩
  have hkept : (List.foldl (fun s c => s.corrected (codeword c)) v
      (fixed.filter fun c => inMemory c && touches a n (codeword c))).mem = v.mem := honly .mem (by simp)
  have hstill := hkept.trans hmem
  simp only [hok, show ¬ x.maxmsg < 16 + n by omega, decide_false, Bool.false_eq_true, if_false]
  simp only [hstill, Mem.seenBy_none hposted, hrot, List.filter_nil, List.foldl_nil]

end

section
variable {t a : Nat} {d : List Byte} (hs : Sound s m Right.write x) (hwait : s.waitOf m.slot m.gen = none)
  (hlen : 17 ≤ m.operand.length) (hlen2 : m.operand.length ≤ 8192) (ha : a = beAt m.operand 0 8) (hd : d = m.operand.drop 16)
include hs hwait hlen hlen2 ha hd hposted

/-- MEM WRITE, by what it finds: an octet that may not be written, a posted write, or one that lands. -/
theorem memWrite_runs :
    let v := entered s m 0x202 t x .waiting
    let f := flightOf s m 0x202 t .waiting
    let u := (s.tick t).arriveDirect m 0x202 Right.write []
    (∀ b, firstBad (mayWrite s.mem) a d.length = some b → u = v.finish f true Status.badAddress (v.refusal (b % 2 ^ 32) 0)) ∧
    (firstBad (mayWrite s.mem) a d.length = none → bit (octet m.operand 8) 0 = true → ∃ st,
      u = ({ v with mem := { s.mem with posted := [{ slot := m.slot, gen := m.gen, addr := a, data := d }] } } : State).finish f true st [] ∧
      (s.mem.poison = [] → st = Status.ok)) ∧
    (firstBad (mayWrite s.mem) a d.length = none → bit (octet m.operand 8) 0 = false → s.mem.rot = [] →
      u = (v.put a d).finish f true (if (s.mem.poisonPart a d.length).isEmpty then Status.ok else Status.memError) []) := by
  intro v f u
  have hin := entered_inHand hs 0x202 t
  have hmem : v.mem = s.mem := hin.mem
  have hgood : ¬ (m.operand.length < 17 ∨ 8192 < m.operand.length) := by omega
  have hu : u = v.memWrite f := by
    simp only [u]
    rw [sound_arriveDirect hs hwait, State.runDirect, State.settle_none (hin.posted.trans hposted)]
    rfl
  have hland : v.landAll f.slot f.gen = v := State.landAll_none (hin.posted.trans hposted) _ _
  rw [hu]
  simp only [State.memWrite, show f.operand = m.operand from rfl, ← ha, ← hd, if_neg hgood, hmem]
  refine ⟨fun b hb => by simp only [hb], fun hok hp => ?_, fun hok hp hrot => ?_⟩
  · simp only [hok, hp, if_true, hposted, List.nil_append]
    refine ⟨_, rfl, fun hpoison => ?_⟩
    simp [Mem.seenBy_none hposted, Mem.poisonPart, Mem.poisonIn, hpoison]
  · have hwrite : v.writeMem 0x00 a d = (v.put a d, !(s.mem.poisonPart a d.length).isEmpty) := by
      have hpart : v.consumePart 0x00 a d.length = v := by simp [State.consumePart, hmem, hrot]
      simp only [State.writeMem, hpart, hmem]
    simp only [hok, hp, Bool.false_eq_true, if_false, hland, hwrite]
    cases (s.mem.poisonPart a d.length).isEmpty <;> rfl

end
end

theorem read_of_cells {M N : Mem} (h : N.cells = M.cells) (a : Nat) : N.read a = M.read a := by simp only [Mem.read, h]

theorem getElem?_of_read {d : List Byte} {k : Nat} {v : Byte} (hk : k < d.length) (h : v = d.getD k 0) : d[k]? = some v := by
  rw [h, List.getD_eq_getElem?_getD, List.getElem?_eq_getElem hk]
  rfl

/-- What a MEM FENCE does: it ends with no write of its session posted, and no octet changes but where one lands. -/
theorem memFence_runs {s : State} {m : Inbound} {x : Session} (t : Nat) (hs : Sound s m 0 x) (hwait : s.waitOf m.slot m.gen = none)
    (hempty : m.operand = []) :
    let u := (s.tick t).arriveDirect m 0x203 0 []
    let f := flightOf s m 0x203 t .waiting
    ∃ w, u = w.finish f true Status.ok [] ∧ Only [.regs, .stw, .mem, .eth, .fau] s w ∧
      SessionsGrow (entered s m 0x203 t x .waiting) w ∧
      (∀ p ∈ w.mem.posted, p ∈ s.mem.posted ∧ p.of m.slot m.gen = false) ∧ w.mem.ranges = s.mem.ranges ∧
      (∀ a, (∀ p ∈ s.mem.posted, a < p.addr ∨ p.addr + p.data.length ≤ a) → w.mem.read a = s.mem.read a) ∧
      (∀ p, s.mem.posted = [p] → p.of m.slot m.gen = true → ∀ k, k < p.data.length → p.data[k]? = some (w.mem.read (p.addr + k))) := by
  intro u f
  have hin := entered_inHand hs 0x203 t
  generalize hv : entered s m 0x203 t x .waiting = v at hin
  have hmem : v.mem = s.mem := hin.mem
  have hu : u = (v.settle.landAll m.slot m.gen).finish f true Status.ok [] := by
    simp only [u]
    rw [sound_arriveDirect hs hwait, hv, State.runDirect]
    simp [State.memFence, flightOf, hempty, f]
  set n := v.draw 1020 (v.mem.posted.length + 1) with hn
  have hposted : v.mem.posted = s.mem.posted := congrArg Mem.posted hmem
  have hsettle := v.settle_landed _ rfl
  have hland := v.settle.landAll_landed m.slot m.gen
  have hleft : v.settle.mem.posted = s.mem.posted.drop n := hposted ▸ hsettle.posted
  refine ⟨_, hu, ?_, ?_, fun p hp => ?_, ?_, fun a ha => ?_, fun p hp hmine k hk => ?_⟩
  · have h1 : Only [.mem] v { v with mem := { v.mem with posted := v.mem.posted.drop n } } := by simp [only_iff]
    have h2 : Only [.mem] v.settle { v.settle with
        mem := { v.settle.mem with posted := v.settle.mem.posted.filter fun p => !p.of m.slot m.gen } } := by simp [only_iff]
    exact only_mono (hin.arrived.1.trans (h1.trans (hsettle.only.trans (h2.trans hland.only)))) (by simp)
  · exact (SessionsGrow.of_sess rfl).trans (hsettle.grows.trans ((SessionsGrow.of_sess rfl).trans hland.grows))
  · rw [hland.posted] at hp
    obtain ⟨hin', hof⟩ := List.mem_filter.1 hp
    exact ⟨List.mem_of_mem_drop (hleft ▸ hin'), by simpa using hof⟩
  · exact hland.ranges.trans (hsettle.ranges.trans (show v.mem.ranges = s.mem.ranges from congrArg Mem.ranges hmem))
  · rw [hland.outside a fun p hp => ha p (List.mem_of_mem_drop (hleft ▸ (List.mem_filter.1 hp).1))]
    exact (hsettle.outside a fun p hp => ha p (hposted ▸ List.mem_of_mem_take hp)).trans (read_of_cells (show v.mem.cells = s.mem.cells from congrArg Mem.cells hmem) a)
  · have hn2 : n < 2 := by
      rw [hn, hposted, hp]
      exact Nat.mod_lt _ Nat.two_pos
    have hhit : p.addr ≤ p.addr + k ∧ p.addr + k < p.addr + p.data.length := by omega
    refine getElem?_of_read hk ?_
    obtain h0 | h1 : n = 0 ∨ n = 1 := by omega
    · have hmine' : v.settle.mem.posted.filter (Posted.of m.slot m.gen) = [p] := by rw [hleft, h0, hp]; simp [hmine]
      unfold State.landAll
      simp only [hmine', List.foldl_cons, List.foldl_nil, State.landOne_read, if_pos hhit, Nat.add_sub_cancel_left]
    · have hnone : v.settle.mem.posted = [] := by rw [hleft, h1, hp]; rfl
      rw [hland.outside _ (by simp [hnone])]
      change v.settle.mem.read (p.addr + k) = _
      have htake : v.mem.posted.take (v.draw 1020 (v.mem.posted.length + 1)) = [p] := by rw [← hn, h1, hposted, hp]; rfl
      unfold State.settle
      simp only [htake, List.foldl_cons, List.foldl_nil, State.landOne_read, if_pos hhit, Nat.add_sub_cancel_left]

theorem State.finish_mem (s : State) (f : Flight) (d : Bool) (status : Nat) (o : List Byte) (e : Bool) :
    (s.finish f d status o e).mem = s.mem := s.finish_only f d status o e .mem (by simp)

/-- Settles O25. -/
theorem memCommandsReachMemory : Obligations.MemCommandsReachMemory := by
  unfold Obligations.MemCommandsReachMemory
  refine ⟨fun t a n fixed m x s hs hclear hmax hlen ha hn hn1 hn2 => ?_, fun t a d m x s hs hclear hmax hlen hlen2 ha hd => ?_,
    fun t m x s hs hwait hmax hempty => ?_⟩
  · obtain ⟨hwait, hposted⟩ := hclear
    have hin := entered_inHand hs 0x201 t
    obtain ⟨hbad, hlong, hgood⟩ := memRead_runs hposted fixed hs hwait hlen ha hn hn1 hn2
    refine ⟨fun hok hrot hclean hfit => does_whenOn hs.on ?_, fun hok hover => does_whenOn hs.on ?_,
      fun hok hrot hpoison hfit => does_whenOn hs.on ?_, fun b hb => does_whenOn hs.on ?_⟩
    · obtain ⟨w, honly, hgrow, hu⟩ := hgood hok hfit hrot
      rw [hclean, if_pos (by rfl)] at hu
      rw [hu]
      refine ⟨only_mono (hin.arrived.1.trans (honly.trans (w.finish_only _ _ _ _ _))) (by simp), _, ?_,
        hin.answerAfter hgrow (by decide) Status.ok _ false ?_, fun k hk hkind heng => ?_⟩
      · simp
      · simpa using hfit
      · rw [List.getElem?_map, List.getElem?_range hk, Option.map_some, State.memOctet]
        split
        next e he => exact absurd he (heng e)
        next => rw [if_neg (by omega)]
    · rw [hlong hok hover]
      exact ⟨hin.only _ _ _, hin.answer (by decide) _ _ _ (by simp; omega)⟩
    · obtain ⟨w, honly, hgrow, hu⟩ := hgood hok hfit hrot
      rw [if_neg (by simpa using hpoison)] at hu
      rw [hu]
      exact ⟨only_mono (hin.arrived.1.trans (honly.trans (w.finish_only _ _ _ _ _))) (by simp),
        hin.answerAfter hgrow (by decide) _ _ _ (by simp; omega)⟩
    · rw [hbad b hb]
      exact hin.refuses (by decide) hmax _ _ _
  · obtain ⟨hwait, hposted⟩ := hclear
    have hin := entered_inHand hs 0x202 t
    obtain ⟨hbad, hpost, hland⟩ := memWrite_runs hposted hs hwait hlen hlen2 ha hd
    refine ⟨fun hok hrot hp => does_whenOn hs.on ?_, fun hok hp => does_whenOn hs.on ?_, fun b hb => does_whenOn hs.on ?_⟩
    · rw [hland hok hp hrot]
      generalize hst : (if (s.mem.poisonPart a d.length).isEmpty then Status.ok else Status.memError) = st
      have hput : Only [.mem] (entered s m 0x202 t x .waiting) ((entered s m 0x202 t x .waiting).put a d) := by simp [only_iff]
      have hafter (b : Nat) : (((entered s m 0x202 t x .waiting).put a d).finish (flightOf s m 0x202 t .waiting) true st []).mem.read b =
          if a ≤ b ∧ b < a + d.length then d.getD (b - a) 0 else s.mem.read b := by
        rw [State.finish_mem, State.put_read, hin.mem]
      refine ⟨only_mono (hin.arrived.1.trans (hput.trans (State.finish_only _ _ _ _ _ _))) (by simp), fun k hk => ?_, fun b hb => ?_, ?_,
        hin.answerAfter (.of_sess (by simp)) (by decide) st _ _ (by simp; omega)⟩
      · exact getElem?_of_read hk (by rw [hafter, if_pos (by omega), Nat.add_sub_cancel_left])
      · rw [hafter, if_neg (by omega)]
      · simp [State.put, hin.mem]
    · obtain ⟨st, hu, hst⟩ := hpost hok hp
      rw [hu]
      refine ⟨only_mono (hin.arrived.1.trans (Only.trans (parts := [.mem]) (by simp [only_iff]) (State.finish_only _ _ _ _ _ _))) (by simp),
        by rw [State.finish_mem], fun hpoison => ?_⟩
      obtain rfl := hst hpoison
      refine hin.answerAfter ?_ (by decide) Status.ok [] false (by simp; omega)
      exact .of_sess rfl
    · rw [hbad b hb]
      exact hin.refuses (by decide) hmax _ _ _
  · refine does_whenOn hs.on ?_
    obtain ⟨w, hu, honly, hgrow, hposted, hranges, hout, hone⟩ := memFence_runs t hs hwait hempty
    have hin := entered_inHand hs 0x203 t
    rw [hu, State.finish_mem]
    exact ⟨hposted, hout, hone, hranges, only_mono (honly.trans (State.finish_only _ _ _ _ _ _)) (by simp),
      fun _ => hin.answerAfter hgrow (by decide) _ _ _ (by simp; omega)⟩

end Sys2Proof.Machine
end

section
/-!
SUPPORT. Capture streams, the steward's choice, checkpoints, priority flow control, pleats, and unit faults, votes, the memory patrol and the fault log; statements O29, O30, O34, O40, O42 and O38.
-/

namespace Sys2Proof.Machine

-- Proofs one after another: the text is long, and is checked in bounded memory.
set_option Elab.async false

open Sys2Proof Sys2Proof.Safety

/-! ## Capture streams -/

theorem map_replace_mem {α : Type} [DecidableEq α] {l : List α} {c : α} (h : c ∈ l) (d : α) :
    d ∈ l.map fun e => if e = c then d else e := List.mem_map.2 ⟨c, h, if_pos rfl⟩

/-- Settles O29. -/
theorem captureStreamsSendAndEnd : Obligations.CaptureStreamsSendAndEnd := by
  unfold Obligations.CaptureStreamsSendAndEnd
  refine ⟨fun t slot stream c s hon hc => ⟨fun hd hend => does_whenOn hon ?_, fun hno => does_whenOn hon ?_⟩,
    fun t slot stream lane ns samples c x s hon hc hx hlen hpos hns hstart hup => ?_⟩
  · rw [show (s.tick t).capture? slot stream = some c from hc]
    simp [only_iff, hd, hend]
  · rw [show (s.tick t).capture? slot stream = some c from hc]
    have : ¬ (c.dur ≠ 0 ∧ c.start + c.dur ≤ (s.tick t).now) := by
      rw [State.tick_now]
      rintro ⟨h1, h2⟩
      rcases hno with h | h <;> omega
    simp only [if_neg this]
    exact s.tick_only t
  · intro n
    have hmem : c ∈ s.caps := List.mem_of_find?_eq_some hc
    have hrun : exec (.captureBlock t slot stream lane samples) s = .next ((s.tick t).captureBlock c x ns samples) := by
      obtain ⟨u, hu, rfl⟩ : Does (.captureBlock t slot stream lane samples) s fun u => (s.tick t).captureBlock c x ns samples = u := by
        refine does_whenOn hon ?_
        rw [show (s.tick t).capture? slot stream = some c from hc, show tget? (s.tick t).stw.sess slot = some x from hx]
        simp only [State.tick_reg, ← hns]
        rw [if_pos ⟨hlen, hpos, hstart, hup⟩]
      exact hu
    refine ⟨fun hroom => ⟨_, hrun, ?_⟩, fun hfull => ⟨_, hrun, ?_⟩⟩
    · have hr : ¬ queueSamples c.source < (s.tick t).capQueued c + samples.length / sampleLen c.source := by
        rw [show (s.tick t).capQueued c = s.capQueued c from rfl]
        omega
      simp only [State.captureBlock, if_neg hr]
      refine ⟨by simpa using map_replace_mem hmem _, by simp, by simp [only_iff], _, _, State.queueFrame_queued _ _ _ _ _, rfl, rfl⟩
    · have hr : queueSamples c.source < (s.tick t).capQueued c + samples.length / sampleLen c.source := hfull
      simp only [State.captureBlock, if_pos hr]
      refine ⟨by simpa using map_replace_mem hmem _, by simp, by simp [only_iff], ?_⟩
      exact State.reg_bump _ F.ethEpCntCapdrop (s.txPort x.port) (by decide) (by decide)

/-! ## What the steward pair takes waits no longer -/

/-- No command of number `r` waits in a mailbox queue. -/
def Idle (r : Nat) (l : List Flight) : Prop := ∀ f ∈ l, f.ref = r → f.stage ≠ .queued

theorem foldl_idle {β : Type} (f : State → β → State) {r : Nat}
    (h : ∀ s b, Idle r s.stw.flights → Idle r (f s b).stw.flights) (l : List β) (s : State)
    (hs : Idle r s.stw.flights) : Idle r (l.foldl f s).stw.flights :=
  foldl_keeps (fun t => Idle r t.stw.flights) f h l s hs

theorem Idle.filter {r : Nat} {l : List Flight} (h : Idle r l) (p : Flight → Bool) : Idle r (l.filter p) :=
  fun f hf => h f (List.mem_of_mem_filter hf)

@[simp] theorem State.setFlight_idle (s : State) (f : Flight) {r : Nat} (hf : f.stage ≠ .queued) (hs : Idle r s.stw.flights) :
    Idle r (s.setFlight f).stw.flights := by
  intro g hg hr
  obtain ⟨g', hg', rfl⟩ := List.mem_map.1 hg
  by_cases e : g'.ref = f.ref
  · rw [if_pos e]
    exact hf
  · rw [if_neg e] at hr ⊢
    exact hs g' hg' hr

@[simp] theorem State.answer_idle (s : State) (f : Flight) (direct : Bool) (status : Nat) (operand : List Byte)
    (settles : optParam Bool false) {r : Nat} (hs : Idle r s.stw.flights) :
    Idle r (s.answer f direct status operand settles).stw.flights := by
  rw [State.answer_flights]
  exact hs.filter _

@[simp] theorem State.recordFinal_idle (s : State) (f : Flight) (status : Nat) (operand : List Byte) {r : Nat}
    (hs : Idle r s.stw.flights) : Idle r (s.recordFinal f status operand).stw.flights := by
  refine s.setFlight_idle _ ?_ hs
  dsimp only
  split <;> simp

@[simp] theorem State.finish_idle (s : State) (f : Flight) (direct : Bool) (status : Nat) (operand : List Byte) (settles : optParam Bool false) {r : Nat}
    (hs : Idle r s.stw.flights) :
    Idle r (s.finish f direct status operand settles).stw.flights := by
  unfold State.finish
  split <;> simp [hs]

@[simp] theorem State.finishRef_idle (s : State) (ref status : Nat) (operand : List Byte) {r : Nat}
    (hs : Idle r s.stw.flights) :
    Idle r (s.finishRef ref status operand).stw.flights := by
  unfold State.finishRef
  split <;> simp [hs]

@[simp] theorem State.dropErased_idle (s : State) {r : Nat} (hs : Idle r s.stw.flights) :
    Idle r (s.dropErased).stw.flights := by
  unfold State.dropErased
  refine foldl_idle _ (fun t b ht => ?_) _ _ (by simp [hs])
  (repeat' split) <;> simp [ht]

@[simp] theorem State.alarm_idle (s : State) (source detail : Nat) (stays : Bool) {r : Nat} (hs : Idle r s.stw.flights) :
    Idle r (s.alarm source detail stays).stw.flights := by
  simp [State.alarm, hs]

@[simp] theorem State.serveKeyDelete_idle (s : State) (f : Flight) {r : Nat} (hs : Idle r s.stw.flights) :
    Idle r (s.serveKeyDelete f).stw.flights := by
  simp only [State.serveKeyDelete]
  (repeat' split) <;> simp [hs]

@[simp] theorem State.serveKeyStatus_idle (s : State) (f : Flight) {r : Nat} (hs : Idle r s.stw.flights) :
    Idle r (s.serveKeyStatus f).stw.flights := by
  unfold State.serveKeyStatus
  split <;> simp [hs]

@[simp] theorem State.serveRootProvision_idle (s : State) (f : Flight) {r : Nat} (hs : Idle r s.stw.flights) :
    Idle r (s.serveRootProvision f).stw.flights := by
  simp only [State.serveRootProvision]
  (repeat' split) <;> simp [hs]

@[simp] theorem State.serveKeyAlarm_idle (s : State) (f : Flight) {r : Nat} (hs : Idle r s.stw.flights) :
    Idle r (s.serveKeyAlarm f).stw.flights := by
  simp only [State.serveKeyAlarm]
  (repeat' split) <;> simp [hs]

@[simp] theorem State.serveKeyLoad_idle (s : State) (f : Flight) {r : Nat} (hs : Idle r s.stw.flights) :
    Idle r (s.serveKeyLoad f).stw.flights := by
  simp only [State.serveKeyLoad]
  (repeat' split) <;> simp [hs]

@[simp] theorem State.dropWaits_idle (s : State) {r : Nat} (hs : Idle r s.stw.flights) :
    Idle r (s.dropWaits).stw.flights := by
  unfold State.dropWaits
  refine foldl_idle _ (fun t b ht => ?_) _ _ (by simp [hs])
  (repeat' split) <;> simp [ht]

@[simp] theorem State.toRole_idle (s : State) (role reason : Nat) {r : Nat} (hs : Idle r s.stw.flights) :
    Idle r (s.toRole role reason).stw.flights := by
  simp only [State.toRole]
  (repeat' split) <;> simp [hs]

@[simp] theorem State.releaseWait_idle (s : State) (w : MirrorFor) {r : Nat} (hs : Idle r s.stw.flights) :
    Idle r (s.releaseWait w).stw.flights := by
  unfold State.releaseWait
  split <;> simp [hs]

@[simp] theorem State.whenMirrored_idle (s : State) (n : Nat) (w : MirrorFor) {r : Nat} (hs : Idle r s.stw.flights) :
    Idle r (s.whenMirrored n w).stw.flights := by
  unfold State.whenMirrored
  split <;> simp [hs]

@[simp] theorem State.claimAt_idle (s : State) (k ext : Nat) (e : RegEntry) (ack : Bool) {r : Nat}
    (hs : Idle r s.stw.flights) :
    Idle r (s.claimAt k ext e ack).stw.flights := by
  simp only [State.claimAt]
  (repeat' split) <;> simp [hs]

@[simp] theorem State.sendClaim_idle (s : State) (c : Claim) {r : Nat} (hs : Idle r s.stw.flights) :
    Idle r (s.sendClaim c).stw.flights := by
  simp only [State.sendClaim]
  (repeat' split) <;> simp [hs]

@[simp] theorem State.claim_idle (s : State) (ext kind flags short port : Nat) (release : Bool) {r : Nat}
    (hs : Idle r s.stw.flights) :
    Idle r (s.claim ext kind flags short port release).stw.flights := by
  simp [State.claim, hs]

@[simp] theorem State.seaLeave_idle (s : State) {r : Nat} (hs : Idle r s.stw.flights) :
    Idle r (s.seaLeave).stw.flights := by
  unfold State.seaLeave
  split <;> simp [hs]

@[simp] theorem State.serveCluStatus_idle (s : State) (f : Flight) {r : Nat} (hs : Idle r s.stw.flights) :
    Idle r (s.serveCluStatus f).stw.flights := by
  unfold State.serveCluStatus
  split <;> simp [hs]

@[simp] theorem State.serveRegGet_idle (s : State) (f : Flight) {r : Nat} (hs : Idle r s.stw.flights) :
    Idle r (s.serveRegGet f).stw.flights := by
  simp only [State.serveRegGet]
  (repeat' split) <;> simp [hs]

@[simp] theorem State.serveRegPut_idle (s : State) (f : Flight) {r : Nat} (hs : Idle r s.stw.flights) :
    Idle r (s.serveRegPut f).stw.flights := by
  simp only [State.serveRegPut]
  (repeat' split) <;> simp [hs]

@[simp] theorem State.serveStations_idle (s : State) (f : Flight) {r : Nat} (hs : Idle r s.stw.flights) :
    Idle r (s.serveStations f).stw.flights := by
  simp only [State.serveStations]
  (repeat' split) <;> simp [hs]

@[simp] theorem State.serveCluLeave_idle (s : State) (f : Flight) {r : Nat} (hs : Idle r s.stw.flights) :
    Idle r (s.serveCluLeave f).stw.flights := by
  unfold State.serveCluLeave
  split <;> simp [hs]

@[simp] theorem State.nodeJoined_idle (s : State) (short : Nat) (x : Node) {r : Nat} (hs : Idle r s.stw.flights) :
    Idle r (s.nodeJoined short x).stw.flights := by
  simp [State.nodeJoined, hs]

@[simp] theorem State.lineResult_idle (s : State) (ref : Nat) (f : LineFrame) (result : Nat) {r : Nat}
    (hs : Idle r s.stw.flights) :
    Idle r (s.lineResult ref f result).stw.flights := by
  simp [State.lineResult, hs]

@[simp] theorem State.serveMapRead_idle (s : State) (f : Flight) {r : Nat} (hs : Idle r s.stw.flights) :
    Idle r (s.serveMapRead f).stw.flights := by
  simp only [State.serveMapRead]
  (repeat' split) <;> simp [hs]

@[simp] theorem State.joinNode_idle (s : State) (short : Nat) {r : Nat} (hs : Idle r s.stw.flights) :
    Idle r (s.joinNode short).stw.flights := by
  simp only [State.joinNode]
  (repeat' split) <;> simp [hs]

@[simp] theorem State.jobDone_idle (s : State) (n m : Nat) (f : LineFrame) (ok : Bool) (result : Nat) {r : Nat}
    (hs : Idle r s.stw.flights) :
    Idle r (s.jobDone n m f ok result).stw.flights := by
  simp only [State.jobDone]
  (repeat' split) <;> simp [hs]

@[simp] theorem State.lineDownlink_idle (s : State) (f : Flight) (short : Nat) (x : Node) {r : Nat}
    (hs : Idle r s.stw.flights) :
    Idle r (s.lineDownlink f short x).stw.flights := by
  simp only [State.lineDownlink]
  (repeat' split) <;> simp [hs]

@[simp] theorem State.serveLineDownlink_idle (s : State) (f : Flight) {r : Nat} (hs : Idle r s.stw.flights) :
    Idle r (s.serveLineDownlink f).stw.flights := by
  simp only [State.serveLineDownlink]
  (repeat' split) <;> simp [hs]

@[simp] theorem State.dropFrames_idle (s : State) (n m short : Nat) {r : Nat} (hs : Idle r s.stw.flights) :
    Idle r (s.dropFrames n m short).stw.flights := by
  unfold State.dropFrames
  refine foldl_idle _ (fun t f ht => ?_) _ _ ?_
  · split <;> simp [ht]
  · dsimp only
    split <;> simp [hs]

@[simp] theorem State.dropNode_idle (s : State) (short : Nat) {r : Nat} (hs : Idle r s.stw.flights) :
    Idle r (s.dropNode short).stw.flights := by
  simp only [State.dropNode]
  (repeat' split) <;> simp +contextual [foldl_idle, hs]

@[simp] theorem State.serveNodeList_idle (s : State) (f : Flight) {r : Nat} (hs : Idle r s.stw.flights) :
    Idle r (s.serveNodeList f).stw.flights := by
  simp only [State.serveNodeList]
  (repeat' split) <;> simp [hs]

@[simp] theorem State.serveNodeGet_idle (s : State) (f : Flight) {r : Nat} (hs : Idle r s.stw.flights) :
    Idle r (s.serveNodeGet f).stw.flights := by
  simp only [State.serveNodeGet]
  (repeat' split) <;> simp [hs]

@[simp] theorem State.removeNode_idle (s : State) (short : Nat) (y : Node) {r : Nat} (hs : Idle r s.stw.flights) :
    Idle r (s.removeNode short y).stw.flights := by
  simp [State.removeNode, hs]

@[simp] theorem State.serveNodeRemove_idle (s : State) (f : Flight) {r : Nat} (hs : Idle r s.stw.flights) :
    Idle r (s.serveNodeRemove f).stw.flights := by
  simp only [State.serveNodeRemove]
  (repeat' split) <;> simp [hs]

@[simp] theorem State.servePortStats_idle (s : State) (f : Flight) {r : Nat} (hs : Idle r s.stw.flights) :
    Idle r (s.servePortStats f).stw.flights := by
  simp only [State.servePortStats]
  (repeat' split) <;> simp [hs]

@[simp] theorem State.airResult_idle (s : State) (d : AirDown) (status : Nat) (result : Option Nat) {r : Nat}
    (hs : Idle r s.stw.flights) :
    Idle r (s.airResult d status result).stw.flights := by
  unfold State.airResult
  split <;> simp [hs]

@[simp] theorem State.nextDown_idle (s : State) (ext n : Nat) {r : Nat} (hs : Idle r s.stw.flights) :
    Idle r (s.nextDown ext n).stw.flights := by
  induction n generalizing s with
  | zero => exact hs
  | succ n ih =>
    simp only [State.nextDown]
    (repeat' split) <;> simp [ih, hs]

@[simp] theorem State.airDownlink_idle (s : State) (f : Flight) (short : Nat) (x : Sensor) {r : Nat}
    (hs : Idle r s.stw.flights) :
    Idle r (s.airDownlink f short x).stw.flights := by
  simp only [State.airDownlink]
  (repeat' split) <;> simp [hs]

@[simp] theorem State.serveAirDownlink_idle (s : State) (f : Flight) {r : Nat} (hs : Idle r s.stw.flights) :
    Idle r (s.serveAirDownlink f).stw.flights := by
  simp only [State.serveAirDownlink]
  (repeat' split) <;> simp [hs]

@[simp] theorem State.freeEntry_idle (s : State) (short : Nat) (x : Sensor) {r : Nat} (hs : Idle r s.stw.flights) :
    Idle r (s.freeEntry short x).stw.flights := by
  simp [State.freeEntry, hs]

@[simp] theorem State.serveSensorGet_idle (s : State) (f : Flight) {r : Nat} (hs : Idle r s.stw.flights) :
    Idle r (s.serveSensorGet f).stw.flights := by
  simp only [State.serveSensorGet]
  (repeat' split) <;> simp [hs]

@[simp] theorem State.serveDisassociate_idle (s : State) (f : Flight) {r : Nat} (hs : Idle r s.stw.flights) :
    Idle r (s.serveDisassociate f).stw.flights := by
  simp only [State.serveDisassociate]
  split; · simp [hs]
  split; · simp [hs]
  exact State.nextDown_idle _ _ _ (by simp [hs])

@[simp] theorem State.servePendingSet_idle (s : State) (f : Flight) {r : Nat} (hs : Idle r s.stw.flights) :
    Idle r (s.servePendingSet f).stw.flights := by
  simp only [State.servePendingSet]
  (repeat' split) <;> simp [hs]

@[simp] theorem State.serveDutyRead_idle (s : State) (f : Flight) {r : Nat} (hs : Idle r s.stw.flights) :
    Idle r (s.serveDutyRead f).stw.flights := by
  simp only [State.serveDutyRead]
  (repeat' split) <;> simp [hs]

@[simp] theorem State.serveDigestSet_idle (s : State) (f : Flight) {r : Nat} (hs : Idle r s.stw.flights) :
    Idle r (s.serveDigestSet f).stw.flights := by
  simp only [State.serveDigestSet]
  (repeat' split) <;> simp [hs]

@[simp] theorem State.serveCapStart_idle (s : State) (f : Flight) {r : Nat} (hs : Idle r s.stw.flights) :
    Idle r (s.serveCapStart f).stw.flights := by
  simp only [State.serveCapStart]
  (repeat' split) <;> simp [hs]

@[simp] theorem State.serveCapStop_idle (s : State) (f : Flight) {r : Nat} (hs : Idle r s.stw.flights) :
    Idle r (s.serveCapStop f).stw.flights := by
  simp only [State.serveCapStop]
  (repeat' split) <;> simp [hs]

@[simp] theorem State.serveFaultLog_idle (s : State) (f : Flight) {r : Nat} (hs : Idle r s.stw.flights) :
    Idle r (s.serveFaultLog f).stw.flights := by
  simp only [State.serveFaultLog]
  (repeat' split) <;> simp [hs]

@[simp] theorem State.serveEngine_idle (s : State) (f : Flight) {r : Nat} (hs : Idle r s.stw.flights) :
    Idle r (s.serveEngine f).stw.flights := by
  simp only [State.serveEngine]
  (repeat' split) <;> simp [hs]

@[simp] theorem State.serveMemdesc_idle (s : State) (f : Flight) {r : Nat} (hs : Idle r s.stw.flights) :
    Idle r (s.serveMemdesc f).stw.flights := by
  unfold State.serveMemdesc
  split <;> simp [hs]

@[simp] theorem State.serveLoopSet_idle (s : State) (f : Flight) {r : Nat} (hs : Idle r s.stw.flights) :
    Idle r (s.serveLoopSet f).stw.flights := by
  simp only [State.serveLoopSet]
  (repeat' split) <;> simp [hs]

@[simp] theorem State.serveCurveInfo_idle (s : State) (f : Flight) {r : Nat} (hs : Idle r s.stw.flights) :
    Idle r (s.serveCurveInfo f).stw.flights := by
  simp only [State.serveCurveInfo]
  (repeat' split) <;> simp [hs]

@[simp] theorem State.serveResults_idle (s : State) (f : Flight) {r : Nat} (hs : Idle r s.stw.flights) :
    Idle r (s.serveResults f).stw.flights := by
  simp only [State.serveResults]
  (repeat' split) <;> simp [hs]

@[simp] theorem State.serve_idle (s : State) (f : Flight) {r : Nat} (hs : Idle r s.stw.flights) :
    Idle r (s.serve f).stw.flights := by
  unfold State.serve
  split <;> simp [hs]

theorem Stw.mem_queued {w : Stw} {k : Nat} {f : Flight} : f ∈ w.queued k ↔ f ∈ w.flights ∧ f.stage = .queued ∧ f.mb = k := by
  simp [Stw.queued]

/-- The command served next is the oldest of the lowest-numbered mailbox that holds one. -/
theorem Stw.next_lowest {w : Stw} {f : Flight} (h : w.next = some f) :
    (w.queued f.mb).head? = some f ∧ f ∈ w.flights ∧ ∀ g ∈ w.flights, g.stage = .queued → f.mb ≤ g.mb := by
  obtain ⟨l1, k, l2, hsplit, hk, hbefore⟩ := List.findSome?_eq_some_iff.1 h
  obtain ⟨hin, -, hmb⟩ := Stw.mem_queued.1 (List.mem_of_head? hk)
  refine ⟨hmb ▸ hk, hin, fun g hg hq => ?_⟩
  by_contra hlt
  have hsorted : (l1 ++ k :: l2).Pairwise (· < ·) := hsplit ▸ List.pairwise_lt_range
  have hmem : g.mb ∈ l1 ++ k :: l2 := by
    have hk8 : k ∈ List.range 8 := by simp [hsplit]
    rw [← hsplit, List.mem_range]
    have := List.mem_range.1 hk8
    omega
  rcases List.mem_append.1 hmem with hg1 | hg2
  · have := hbefore _ hg1
    rw [List.head?_eq_none_iff] at this
    exact absurd (Stw.mem_queued.2 ⟨hg, hq, rfl⟩) (this ▸ List.not_mem_nil)
  · have hle : k ≤ g.mb := by
      rcases List.mem_cons.1 hg2 with e | hg2
      · omega
      · exact (List.rel_of_pairwise_cons (List.pairwise_append.1 hsorted).2.1 hg2).le
    omega

theorem Stw.next_none {w : Stw} (h : w.next = none) : ∀ g ∈ w.flights, g.stage = .queued → 8 ≤ g.mb := by
  intro g hg hq
  by_contra hlt
  have := List.findSome?_eq_none_iff.1 h g.mb (List.mem_range.2 (by omega))
  rw [List.head?_eq_none_iff] at this
  exact absurd (Stw.mem_queued.2 ⟨hg, hq, rfl⟩) (this ▸ List.not_mem_nil)

theorem Stw.served_last (w : Stw) (mb took : Nat) : (tget [] (w.served mb took).svc mb).getLast? = some took := by
  simp only [Stw.served, tget_tset_self]
  rw [List.getLast?_drop, if_neg (by simp)]
  simp

/-- Settles O30. -/
theorem stewardTakesTheLowestMailbox : Obligations.StewardTakesTheLowestMailbox := by
  unfold Obligations.StewardTakesTheLowestMailbox
  refine fun t took s hon => ⟨fun hno => does_whenOn hon ?_, fun g hg hruns hq hmb => does_whenOn hon ?_⟩
  · have hidle : s.fwRuns = true → s.stw.next = none := fun hr => by
      rcases hno with hno | hno
      · simp [hno] at hr
      · refine List.findSome?_eq_none_iff.2 fun k hk => ?_
        rw [List.head?_eq_none_iff, List.eq_nil_iff_forall_not_mem]
        intro g hgk
        obtain ⟨hg, hq, rfl⟩ := Stw.mem_queued.1 hgk
        exact absurd (hno g hg hq) (by have := List.mem_range.1 hk; omega)
    by_cases hr : s.fwRuns = true
    · simp only [State.tick_fwRuns, State.tick_stw, hr, Bool.not_true, Bool.false_eq_true, if_false, hidle hr]
      exact s.tick_only t
    · simp only [State.tick_fwRuns, hr, Bool.not_false, if_true]
      exact s.tick_only t
  · simp only [State.tick_fwRuns, State.tick_stw, hruns, Bool.not_true, Bool.false_eq_true, if_false]
    cases hnext : s.stw.next with
    | none => exact absurd (Stw.next_none hnext g hg hq) (by omega)
    | some f =>
      obtain ⟨hhead, hin, hlow⟩ := Stw.next_lowest hnext
      refine ⟨f, hhead, hlow, fun k hk => ?_, ?_, State.serve_idle _ _ fun h hh hr => ?_⟩
      · simp [State.setFlight, Stw.served, tget?_tset, hk]
      · simpa [State.setFlight] using Stw.served_last s.stw f.mb took
      · obtain ⟨g', -, rfl⟩ := List.mem_map.1 hh
        by_cases e : g'.ref = f.ref
        · simp [e]
        · rw [if_neg e] at hr
          exact absurd hr e

/-! ## Checkpoints -/

/-- Settles O34. -/
theorem enginesKeepTwoCheckpoints : Obligations.EnginesKeepTwoCheckpoints := by
  unfold Obligations.EnginesKeepTwoCheckpoints
  refine fun t n s hon hn hact => ⟨fun hat => does_whenOn hon ?_, fun hat => does_whenOn hon ?_,
    fun c hc => does_whenOn hon ?_, fun hc => does_whenOn hon ?_⟩
  all_goals
    have heng : (s.tick t).eng n = s.eng n := rfl
    simp only [heng, State.tick_now, hn, hact, true_and]
  · rw [if_pos hat]
    exact ⟨rfl, by simp [only_iff]⟩
  · rw [if_neg hat]
    exact s.tick_only t
  · simp only [hc, if_true]
    exact ⟨rfl, by simp [only_iff]⟩
  · simp only [hc]
    exact s.tick_only t

/-! ## Priority flow control -/

theorem State.setEp_ep (s : State) (p : Nat) (e : EthPort) (k : Nat) : (s.setEp p e).ep k = if k = p then e else s.ep k := by
  simp [State.ep, State.setEp, tget_tset]

/-- What is sent to a port's peer: a pause frame behind what its highest queue holds. -/
theorem State.sendPause_ep (s : State) (p prio quanta k : Nat) : ∃ f : Frame, f.kind = .pause ∧ f.body = pauseBody prio quanta ∧
    (s.sendPause p prio quanta).ep k =
      if k = p then { s.ep p with queues := tset (s.ep p).queues 5 (tget [] (s.ep p).queues 5 ++ [f]) } else s.ep k :=
  ⟨_, rfl, rfl, s.setEp_ep p _ k⟩

/-- A pause frame sent by a port, with what it remembers of the pauses it sends. -/
theorem State.pauses (s : State) (p prio quanta : Nat) (hp : p < 2) (l : Tab Nat) :
    let u := (s.setEp p { s.ep p with pausing := l }).sendPause p prio quanta
    (Only [.eth] s u ∧ u.ep (1 - p) = s.ep (1 - p)) ∧ (∀ q, q ≠ 5 → tget [] (u.ep p).queues q = tget [] (s.ep p).queues q) ∧
      (∃ f, tget [] (u.ep p).queues 5 = tget [] (s.ep p).queues 5 ++ [f] ∧ f.kind = .pause ∧ f.body = pauseBody prio quanta) ∧
      (u.ep p).pausing = l := by
  intro u
  obtain ⟨f, hkind, hbody, hep⟩ := (s.setEp p { s.ep p with pausing := l }).sendPause_ep p prio quanta p
  obtain ⟨f', -, -, hother⟩ := (s.setEp p { s.ep p with pausing := l }).sendPause_ep p prio quanta (1 - p)
  rw [if_pos rfl, State.setEp_ep, if_pos rfl] at hep
  rw [if_neg (by omega), State.setEp_ep, if_neg (by omega)] at hother
  refine ⟨⟨by simp [only_iff, u], hother⟩, fun q hq => ?_, ⟨f, ?_, hkind, hbody⟩, ?_⟩
  · simp only [u, hep, tget_tset, if_neg hq]
  · simp only [u, hep, tget_tset_self]
  · simp only [u, hep]

/-- Settles O40. -/
theorem pausesHoldAndRelease : Obligations.PausesHoldAndRelease := by
  unfold Obligations.PausesHoldAndRelease
  intro t p prio s hon hp now rest
  have hother : ¬ 1 - p = p := by omega
  have hset (e : EthPort) : rest ((s.tick t).setEp p e) := ⟨by simp [only_iff], by rw [State.setEp_ep, if_neg hother]; rfl⟩
  have hstay : rest (s.tick t) := ⟨by simp [only_iff], rfl⟩
  refine ⟨fun quanta hup hprio hen hq => does_whenOn hon ?_, fun quanta hen => does_whenOn hon ?_,
    fun z hz => ⟨fun hend => does_whenOn hon ?_, fun hend => does_whenOn hon ?_⟩, fun level hup hprio hen => ?_⟩
  · simp only [State.tick_ep, State.tick_reg, State.tick_now, hp, hup, and_self, if_true, bit, hen, hprio, decide_true, Bool.and_self,
      List.filter_cons, List.filter_nil, List.foldl_cons, List.foldl_nil]
    refine ⟨hset _, ?_, fun k hk => ?_, ?_⟩
    · simp only [State.setEp_ep, if_pos]
    · simp only [State.setEp_ep, if_pos]
      split <;> simp [tget?_tdel, tget?_tset, hk]
    · simp only [State.setEp_ep, if_pos]
      split <;> simp [now, show min quanta 65535 = quanta by omega]
  · simp only [State.tick_ep, State.tick_reg, bit, hen, Bool.and_false, List.filter_cons, List.filter_nil, Bool.false_eq_true, if_false,
      List.foldl_nil]
    split
    · exact ⟨hset _, by rw [State.setEp_ep, if_pos rfl]⟩
    · exact ⟨hstay, rfl⟩
  · simp only [State.tick_ep, State.tick_now, hz, show z ≤ max s.now t from hend, if_true]
    exact ⟨hset _, by rw [State.setEp_ep, if_pos rfl]⟩
  · simp only [State.tick_ep, State.tick_now, hz, show ¬ z ≤ max s.now t from Nat.not_le.2 hend, if_false]
    exact s.tick_only t
  · intro sent
    have hgo : ¬ (2 ≤ p ∨ 8 ≤ prio ∨ (s.ep p).up = false ∨ (s.reg F.ethPfcTxEn).testBit prio = false) := by
      simp [hup, hen]
      omega
    have hsent (l : Tab Nat) (quanta : Nat) :
        sent (((s.tick t).setEp p { s.ep p with pausing := l }).sendPause p prio quanta) quanta ∧
          ((((s.tick t).setEp p { s.ep p with pausing := l }).sendPause p prio quanta).ep p).pausing = l := by
      obtain ⟨hrest, hqueues, hframe, hpausing⟩ := (s.tick t).pauses p prio quanta hp l
      exact ⟨⟨⟨only_mono ((s.tick_only t).trans hrest.1) (by simp), hrest.2⟩, hqueues, hframe⟩, hpausing⟩
    refine ⟨fun hnone hlevel => does_whenOn hon ?_, fun hnone hlevel => does_whenOn hon ?_, fun last hlast =>
      ⟨fun hlevel => does_whenOn hon ?_, fun hlevel hdue => does_whenOn hon ?_, fun hlevel hdue => does_whenOn hon ?_⟩⟩
    all_goals
      simp only [State.tick_ep, State.tick_reg, State.tick_now, bit, hgo, if_false]
    · simp only [hnone, if_pos hlevel]
      obtain ⟨hs, hl⟩ := hsent (tset (s.ep p).pausing prio now) 0xFFFF
      exact ⟨hs, by rw [hl, tget?_tset_self]⟩
    · simp only [hnone, if_neg (show ¬ 1048576 < level by omega)]
      exact s.tick_only t
    · simp only [hlast, if_pos hlevel]
      obtain ⟨hs, hl⟩ := hsent (tdel (s.ep p).pausing prio) 0
      exact ⟨hs, by rw [hl, tget?_tdel_self]⟩
    · simp only [hlast, show ¬ level ≤ 524288 by omega, if_false, show last + 2600 ≤ max s.now t from hdue, if_true]
      obtain ⟨hs, hl⟩ := hsent (tset (s.ep p).pausing prio now) 0xFFFF
      exact ⟨hs, by rw [hl, tget?_tset_self]⟩
    · simp only [hlast, show ¬ level ≤ 524288 by omega, if_false, show ¬ last + 2600 ≤ max s.now t from Nat.not_le.2 hdue]
      exact s.tick_only t

/-! ## What a pleat leaves of the registers -/

theorem State.reg_wrapBy_ne (s : State) (x y : FRef) (i n k l : Nat) (h : famAddr y.fam k l ≠ famAddr x.fam i 0) :
    (s.wrapBy x i n).reg y k l = s.reg y k l := by
  rw [State.wrapBy]
  exact (State.reg_setReg_ne _ _ _ _ _ _ _ _ h).trans (reg_of_regs rfl _ _ _)

/-- The registers from block MNS on are none of the spools'. -/
theorem State.spoolMoved_reg (s : State) (n bytes : Nat) (x : FRef) (i j : Nat) (hn : n < 384) (hx : 0x640000 ≤ famAddr x.fam i j) :
    (s.spoolMoved n bytes).reg x i j = s.reg x i j := by
  have away (f : Fam) (hf : famAddr f n 0 < 0x640000) : famAddr x.fam i j ≠ famAddr f n 0 := by omega
  unfold State.spoolMoved
  dsimp only
  rw [State.reg_wrapBy_ne _ F.splChCntBytes x n _ _ _ (away _ (by simp [F.splChCntBytes, famAddr, famInfo]; omega)),
    State.reg_wrapBy_ne _ F.splChCntDesc x n _ _ _ (away _ (by simp [F.splChCntDesc, famAddr, famInfo]; omega)),
    State.reg_setReg_ne _ F.splChCtlEn x n 0 _ _ _ (away _ (by simp [F.splChCtlEn, famAddr, famInfo]; omega))]
  exact reg_of_regs rfl _ _ _

theorem State.copyCensus_reg (s : State) (n : Nat) (x : FRef) (i j : Nat) (hn : n < 24) (hx : 0x640000 ≤ famAddr x.fam i j) :
    (s.copyCensus n).reg x i j = s.reg x i j := by
  have away : famAddr x.fam i j ≠ famAddr .plxCenCtl n 0 := by simp [famAddr, famInfo] at hx ⊢; omega
  unfold State.copyCensus
  dsimp only
  split
  · rw [State.reg_setReg_ne _ F.plxCenCtlLast x n 0 _ _ _ away, State.reg_setReg_ne _ F.plxCenCtlCopies x n 0 _ _ _ away,
      State.spoolMoved_reg _ _ _ _ _ _ ?_ hx]
    · exact reg_of_regs (by simp) _ _ _
    · have spool (v : Nat) : 96 + v % 96 < 384 := by omega
      exact spool _
  · rw [State.reg_setReg_ne _ F.plxCenCtlErr x n 0 _ _ _ away]

theorem State.cycleEnd_reg (s : State) (n : Nat) (p : PleatTimer) (x : FRef) (i j : Nat) (hn : n < 24)
    (hx : 0x640000 ≤ famAddr x.fam i j) : (s.cycleEnd n p).reg x i j = s.reg x i j := by
  unfold State.cycleEnd
  split
  · refine (foldl_keeps (fun u : State => u.reg x i j = s.reg x i j) _ (fun u m hu => ?_) _ _ ?_)
    · dsimp only
      (repeat' split) <;> exact (reg_of_regs (by simp) _ _ _).trans hu
    · split
      · rw [State.copyCensus_reg _ _ _ _ _ hn hx]
        exact reg_of_regs (by simp) _ _ _
      · exact reg_of_regs (by simp) _ _ _
  · exact reg_of_regs (by simp) _ _ _

/-! ## A pending OFFSET taken at an anchor -/

theorem Regs.setCom_get (r : Regs) (c : Fam) (k : Nat) (v : Commit) (x : FRef) (i j : Nat) : (r.setCom c k v).get x i j = r.get x i j := rfl

/-- A snapshot's value applied to a register: its RS bits alone take it. -/
theorem Regs.applyReg_get (r : Regs) (v : Word) {f : Fam} {i j : Nat} (hreg : regOf (famAddr f i j) = some (f, i, j)) (x : FRef) (k l : Nat)
    (h : famAddr x.fam k l ≠ famAddr f i j ∨ x.fam = f ∧ k = i ∧ l = j ∧ x.lo ≤ x.hi ∧ x.hi < 32 ∧
      ∀ b, x.lo ≤ b → b < x.hi + 1 → (classMask f .rs).getLsbD b = false) :
    (r.applyReg (famAddr f i j) v).get x k l = r.get x k l := by
  have key (w : Word) (hw : w = (regWord r f i j &&& ~~~classMask f .rs) ||| (v &&& classMask f .rs)) :
      (setShadow (setWord r f i j w) f i j (shadowWord r f i j)).get x k l = r.get x k l := by
    rcases h with h | ⟨rfl, rfl, rfl, hle, hlt, hb⟩
    · simp only [Regs.get, regWord_setShadow, regWord_setWord_ne _ _ _ _ _ _ _ _ h]
    · simp only [Regs.get, regWord_setShadow, regWord_setWord_self]
      refine Nat.eq_of_testBit_eq fun n => ?_
      rw [wordBits_testBit _ _ _ _ hle, wordBits_testBit _ _ _ _ hle]
      by_cases hn : n + x.lo < x.hi + 1
      · have hclear := hb (x.lo + n) (by omega) (by omega)
        have hin : x.lo + n < 32 := by omega
        have : w.getLsbD (x.lo + n) = (regWord r x.fam k l).getLsbD (x.lo + n) := by
          rw [hw]
          simp only [BitVec.getLsbD_or, BitVec.getLsbD_and, BitVec.getLsbD_not, hclear, hin]
          simp
        rw [show w.toNat.testBit (x.lo + n) = _ from this]
        rfl
      · simp [hn]
  unfold Regs.applyReg
  simp only [hreg]
  (repeat' split) <;> exact key _ rfl

theorem regOf_mnsPortCfg : ∀ n < 24, regOf (famAddr .mnsPortCfg n 0) = some (.mnsPortCfg, n, 0) := by decide

/-- What an OFFSET handed over at an anchor leaves of the registers: all but the port's OFFSET. -/
theorem State.applyOffset_reg (s : State) (n : Nat) (hn : n < 24) (x : FRef) (k l : Nat)
    (h : famAddr x.fam k l ≠ famAddr .mnsPortCfg n 0 ∨ x = F.mnsPortCfgSrc ∧ k = n ∧ l = 0) :
    (s.applyOffset n).reg x k l = s.reg x k l := by
  have hreg := regOf_mnsPortCfg n hn
  have hmask : ∀ b, 16 ≤ b → b < 18 → (classMask .mnsPortCfg .rs).getLsbD b = false := by
    intro b h1 h2
    interval_cases b <;> rfl
  have happly (v : Word) : (s.regs.applyReg (famAddr .mnsPortCfg n 0) v).get x k l = s.regs.get x k l := by
    refine Regs.applyReg_get _ _ hreg _ _ _ (h.imp_right ?_)
    rintro ⟨rfl, rfl, rfl⟩
    exact ⟨rfl, rfl, rfl, by decide, by decide, hmask⟩
  unfold State.applyOffset
  dsimp only
  split
  · cases hf : (s.regs.com .mnsCommit 0).snap.find? fun e => decide (e.1 = famAddr .mnsPortCfg n 0) with
    | none => split <;> rfl
    | some e =>
      have hat : e.1 = famAddr .mnsPortCfg n 0 := by simpa using List.find?_some hf
      simp only [hat]
      split <;> exact happly e.2
  · rfl

/-! ## Pleats -/

theorem State.setTimer_timer (s : State) (n k : Nat) (x : PleatTimer) : (s.setTimer n x).timer k = if k = n then x else s.timer k := by
  simp [State.timer, State.setTimer, tget_tset]

theorem State.timer_of_mns {s u : State} (h : u.mns = s.mns) (k : Nat) : u.timer k = s.timer k := by simp only [State.timer, h]

/-- What the trigger lines that fire with a pleat leave of the tracker. -/
theorem State.fireTriggers_mns (s : State) (n : Nat) :
    (s.fireTriggers n).mns = { s.mns with fired := (s.fireTriggers n).mns.fired } := by
  unfold State.fireTriggers
  refine foldl_keeps (fun u : State => u.mns = { s.mns with fired := u.mns.fired }) _ (fun u m hu => ?_) _ _ rfl
  split
  · dsimp only
    rw [hu]
  · exact hu

/-- A trigger line that names the pleat fires at its start. -/
theorem State.fireTriggers_fires (s : State) (n m : Nat) (hm : m < 4) (hen : s.flag F.mnsTrgCfgEn m = true)
    (hsrc : s.reg F.mnsTrgCfgSrc m = n) (hmask : (s.reg F.mnsTrgCfgMask m).testBit ((s.timer n).pleat - 1) = true) :
    tget? (s.fireTriggers n).mns.fired m = some (s.timer n).start := by
  have key (l : List Nat) (u : State) (hu : u.regs = s.regs) (h : m ∈ l ∨ tget? u.mns.fired m = some (s.timer n).start) :
      tget? (l.foldl (fun s' k =>
        if s'.flag F.mnsTrgCfgEn k && decide (s'.reg F.mnsTrgCfgSrc k = n) && bit (s'.reg F.mnsTrgCfgMask k) ((s.timer n).pleat - 1) then
          { s' with mns := { s'.mns with fired := tset s'.mns.fired k (s.timer n).start } }
        else s') u).mns.fired m = some (s.timer n).start := by
    induction l generalizing u with
    | nil => simpa using h
    | cons k l ih =>
      rw [List.foldl_cons]
      refine ih _ (by split <;> exact hu) ?_
      by_cases hk : m = k
      · subst hk
        right
        rw [if_pos (by simp [State.flag, reg_of_regs hu, hsrc, bit, hmask, decide_eq_true_iff.1 hen])]
        simp
      · refine h.imp (fun h => (List.mem_cons.1 h).resolve_left hk) fun h => ?_
        split
        · simpa [tget?_tset, hk] using h
        · exact h
  exact key _ s rfl (.inl (List.mem_range.2 hm))

theorem State.fixNext_timer (s : State) (n k : Nat) : ∃ next irregular, (s.fixNext n).timer k =
    if k = n then { s.timer n with next := next, irregular := irregular } else s.timer k := by
  unfold State.fixNext
  dsimp only
  split
  · exact ⟨(s.timer n).next, (s.timer n).irregular, by split <;> simp [*]⟩
  · split
    · exact ⟨_, _, s.setTimer_timer n k _⟩
    · exact ⟨_, _, s.setTimer_timer n k _⟩

/-- The period a timer takes does not turn on registers but its source's. -/
theorem State.timerPeriod_congr {s u : State} {n : Nat} (hm : u.mns = s.mns) (hs : n < 24 → u.reg F.mnsPortCfgSrc n = s.reg F.mnsPortCfgSrc n)
    (hnom : u.reg F.mnsCtlNominal = s.reg F.mnsCtlNominal) : u.timerPeriod n = s.timerPeriod n := by
  have hsrc : u.timerSrc n = s.timerSrc n := by
    unfold State.timerSrc
    split
    next h => exact hs h
    next => rfl
  simp only [State.timerPeriod, hsrc, State.phase, hm, State.nominal, State.flag, hnom]
  rfl

theorem mnsPortCfg_apart {n : Nat} (hn : n < 24) (x : FRef) (k : Nat) (hx : famAddr x.fam k 0 < 0x640100 ∨ 0x640160 ≤ famAddr x.fam k 0) :
    famAddr x.fam k 0 ≠ famAddr .mnsPortCfg n 0 := by
  have : famAddr .mnsPortCfg n 0 = 0x640100 + n * 4 := by simp [famAddr, famInfo]
  omega

/-- A timer whose cycle begins, before its next anchor is fixed. -/
def PleatTimer.turned (x : PleatTimer) (p off : Nat) (moved : Bool) : PleatTimer :=
  { x with
    anchor := x.next
    start := x.next
    period := p
    off := off
    cycle := (x.cycle + 1) % 2 ^ 32
    pleat := 1
    irregular := moved
    fresh := false
    noA := false
    next := x.next + p
    grid := (x.next, 0) :: x.grid
    prev := if x.fresh then none else some (x.anchor, x.period) }

/-- The state in which a new cycle's period is taken. -/
def State.atCycle (s : State) (n : Nat) : State := if n < 24 then s.applyOffset n else s

theorem State.newCycle_eq (s : State) (n : Nat) : ∃ off moved, s.newCycle n =
    (((s.atCycle n).setTimer n ((s.timer n).turned ((s.atCycle n).timerPeriod n) off moved)).fixNext n).noteCycle n := ⟨_, _, rfl⟩

/-- The timer that a new cycle leaves. -/
theorem State.newCycle_timer (s : State) (n k : Nat) :
    let x := s.timer n
    let y := (s.newCycle n).timer k
    (k ≠ n → y = s.timer k) ∧ (k = n → y.anchor = x.next ∧ y.start = x.next ∧ y.pleat = 1 ∧
      y.cycle = (x.cycle + 1) % 2 ^ 32 ∧ y.fresh = false ∧ y.noA = false ∧ y.period = s.timerPeriod n) := by
  intro x y
  have hmns : (s.atCycle n).mns = s.mns := by
    unfold State.atCycle
    split <;> simp
  have hperiod : (s.atCycle n).timerPeriod n = s.timerPeriod n := by
    unfold State.atCycle
    split
    next hn =>
      exact State.timerPeriod_congr (by simp) (fun _ => s.applyOffset_reg n hn _ _ _ (.inr ⟨rfl, rfl, rfl⟩))
        (s.applyOffset_reg n hn _ _ _ (.inl (mnsPortCfg_apart hn F.mnsCtlNominal 0 (.inl (by decide)))))
    next => rfl
  obtain ⟨off, moved, heq⟩ := s.newCycle_eq n
  obtain ⟨next, irregular, hfix⟩ :=
    ((s.atCycle n).setTimer n ((s.timer n).turned ((s.atCycle n).timerPeriod n) off moved)).fixNext_timer n k
  have hy : y = _ := ((congrArg (State.timer · k) heq).trans (State.timer_of_mns (by simp) k)).trans hfix
  simp only [State.setTimer_timer, if_true, hperiod] at hy
  refine ⟨fun hk => ?_, fun hk => ?_⟩
  · rw [hy, if_neg hk, if_neg hk, State.timer_of_mns hmns]
  · rw [hy, if_pos hk]
    exact ⟨rfl, rfl, rfl, rfl, rfl, rfl, rfl⟩

/-- The state in which a pleat has begun, before it fires the trigger lines. -/
def State.begun (s : State) (n : Nat) : State := if (s.timer n).atAnchor then s.newCycle n else s.nextPleat n

theorem State.pleatEvent_eq (s : State) (n : Nat) : s.pleatEvent n = (s.begun n).fireTriggers n := rfl

theorem State.fixNext_phases (s : State) (n : Nat) : (s.fixNext n).mns.phases = s.mns.phases := by
  unfold State.fixNext
  dsimp only
  (repeat' split) <;> rfl

theorem State.begun_phases (s : State) (n : Nat) : (s.begun n).mns.phases = s.mns.phases := by
  unfold State.begun
  split
  · obtain ⟨off, moved, heq⟩ := s.newCycle_eq n
    have hmns : (s.atCycle n).mns = s.mns := by
      unfold State.atCycle
      split <;> simp
    rw [heq]
    exact (State.fixNext_phases _ n).trans (show (s.atCycle n).mns.phases = s.mns.phases from congrArg Mns.phases hmns)
  · rfl

/-- The trigger lines' registers are none of those that a cycle's beginning writes. -/
theorem State.begun_reg (s : State) (n m : Nat) (x : FRef) (hx : 0x640200 ≤ famAddr x.fam m 0) : (s.begun n).reg x m = s.reg x m := by
  unfold State.begun
  split
  · obtain ⟨off, moved, heq⟩ := s.newCycle_eq n
    refine (reg_of_regs (show (s.newCycle n).regs = (s.atCycle n).regs by rw [heq]; simp) _ _ _).trans ?_
    unfold State.atCycle
    split
    next hn => exact s.applyOffset_reg n hn _ _ _ (.inl (mnsPortCfg_apart hn x m (.inr (by omega))))
    next => rfl
  · rfl

/-- The timer of a pleat event, at an anchor or within its cycle. -/
theorem State.pleatEvent_timer (s : State) (n k : Nat) :
    let x := s.timer n
    let y := (s.pleatEvent n).timer k
    (k ≠ n → y = s.timer k) ∧ (k = n → x.atAnchor = true → y.anchor = x.next ∧ y.start = x.next ∧ y.pleat = 1 ∧
      y.cycle = (x.cycle + 1) % 2 ^ 32 ∧ y.fresh = false ∧ y.noA = false ∧ y.period = s.timerPeriod n) ∧
    (k = n → x.atAnchor = false → y.anchor = x.anchor ∧ y.next = x.next ∧ y.pleat = x.pleat + 1 ∧
      y.start = x.anchor + x.pleat * x.period / 16 ∧ y.cycle = x.cycle) := by
  intro x y
  have hfire (u : State) : (u.fireTriggers n).timer k = u.timer k := by
    simp only [State.timer]
    rw [u.fireTriggers_mns n]
  have hy : y = (if x.atAnchor then s.newCycle n else s.nextPleat n).timer k := hfire _
  obtain ⟨hother, hself⟩ := s.newCycle_timer n k
  cases hat : x.atAnchor with
  | true =>
    rw [hat] at hy
    exact ⟨fun hk => hy.trans (hother hk), fun hk _ => hy ▸ hself hk, fun _ h => absurd h (by decide)⟩
  | false =>
    rw [hat] at hy
    have hnext : y = if k = n then { x with pleat := x.pleat + 1, start := x.anchor + x.pleat * x.period / 16,
                                            grid := (x.anchor + x.pleat * x.period / 16, x.pleat) :: x.grid } else s.timer k :=
      hy.trans (s.setTimer_timer n k _)
    refine ⟨fun hk => by rw [hnext, if_neg hk], fun _ h => absurd h (by decide), fun hk _ => ?_⟩
    rw [hnext, if_pos hk]
    exact ⟨rfl, rfl, rfl, rfl, rfl⟩

/-- The state a pleat event finds, once the outputs before it and the cycle that ends with it have been taken. -/
def State.beforePleat (s : State) (port : Nat) (outs : List ChanOut) : State :=
  let x := s.timer port
  let s := s.takeOuts port outs
  let s := if x.atAnchor ∧ port < 24 then s.cycleEnd port x else s
  if x.atAnchor ∧ 24 ≤ port then s.wrapBy F.mnsPhCyclesCycles (port - 24) 1 else s

theorem State.beforePleat_mns (s : State) (n : Nat) (outs : List ChanOut) : (s.beforePleat n outs).mns = s.mns := by
  unfold State.beforePleat
  dsimp only
  (repeat' split) <;> simp

theorem State.beforePleat_reg (s : State) (n : Nat) (outs : List ChanOut) (x : FRef) (i : Nat) (hx : 0x640000 ≤ famAddr x.fam i 0)
    (hne : ∀ k, k < 3 → famAddr x.fam i 0 ≠ famAddr .mnsPhCycles k 0) (hn : n < 27) :
    (s.beforePleat n outs).reg x i = s.reg x i := by
  have houts : (s.takeOuts n outs).reg x i = s.reg x i := reg_of_regs (by simp) _ _ _
  unfold State.beforePleat
  dsimp only
  split
  · rw [State.reg_wrapBy_ne _ F.mnsPhCyclesCycles x (n - 24) _ _ _ (hne _ (by omega)), if_neg (by omega)]
    exact houts
  · split
    next h => rw [State.cycleEnd_reg _ _ _ _ _ _ h.2 hx, houts]
    next => exact houts

/-- The pleat event itself, and what is pruned and laid anew behind it. -/
def State.afterPleat (s : State) (port : Nat) : State :=
  let s := s.pleatEvent port
  let y := s.timer port
  let s := s.setTimer port { y with grid := pruneGrid (s.oldestFrame port) y.grid }
  if port < 24 then (s.setLp port { s.lp port with lives := pruneLives (s.oldestHeard port) (s.lp port).lives }).retone port else s

theorem State.afterPleat_mns (s : State) (n : Nat) : ∃ grid, (s.afterPleat n).mns =
    ((s.pleatEvent n).setTimer n { (s.pleatEvent n).timer n with grid := grid }).mns := by
  refine ⟨pruneGrid ((s.pleatEvent n).oldestFrame n) ((s.pleatEvent n).timer n).grid, ?_⟩
  unfold State.afterPleat
  dsimp only
  split
  · simp
  · rfl

theorem State.afterPleat_only (s : State) (n : Nat) : Only [.regs, .lin, .mns, .chans, .plx] s (s.afterPleat n) := by
  simp [only_iff, State.afterPleat, ite_fields]

theorem State.beforePleat_only (s : State) (n : Nat) (outs : List ChanOut) : Only [.regs, .mem, .plx, .spl] s (s.beforePleat n outs) := by
  simp [only_iff, State.beforePleat, ite_fields]

/-- Settles O42. -/
theorem pleatsStartAndFireTriggers : Obligations.PleatsStartAndFireTriggers := by
  unfold Obligations.PleatsStartAndFireTriggers
  refine fun t n outs s hon hn => ⟨fun hdue => ?_, fun hdue => does_whenOn hon ?_⟩
  · have hgo : ¬ (27 ≤ n ∨ (s.tick t).now < ((s.tick t).timer n).due) := by
      rw [State.tick_now, show (s.tick t).timer n = s.timer n from rfl]
      omega
    obtain ⟨u, hu, rfl⟩ : Does (.pleatStart t n outs) s fun u => ((s.tick t).beforePleat n outs).afterPleat n = u :=
      does_whenOn hon (if_neg hgo).symm
    refine ⟨_, hu, ?_⟩
    clear hu
    beta_reduce
    have hb : ((s.tick t).beforePleat n outs).mns = s.mns := State.beforePleat_mns _ _ _
    have hreg (x : FRef) (i : Nat) (hx : 0x640000 ≤ famAddr x.fam i 0) (hne : ∀ k, k < 3 → famAddr x.fam i 0 ≠ famAddr .mnsPhCycles k 0) :
        ((s.tick t).beforePleat n outs).reg x i = s.reg x i := State.beforePleat_reg _ n outs x i hx hne hn
    have hbefore := (s.tick_only t).trans (State.beforePleat_only (s.tick t) n outs)
    generalize (s.tick t).beforePleat n outs = b at hb hreg hbefore ⊢
    have hperiod : b.timerPeriod n = s.timerPeriod n :=
      State.timerPeriod_congr hb (fun h => hreg _ _ (by simp [famAddr, famInfo, F.mnsPortCfgSrc]; omega)
        (by simp [famAddr, famInfo, F.mnsPortCfgSrc]; omega)) (hreg _ _ (by decide) (by decide))
    obtain ⟨grid, hmns⟩ := b.afterPleat_mns n
    have htimer (k : Nat) : (b.afterPleat n).timer k =
        if k = n then { (b.pleatEvent n).timer n with grid := grid } else (b.pleatEvent n).timer k :=
      (State.timer_of_mns hmns k).trans (State.setTimer_timer _ _ _ _)
    have hfired : (b.afterPleat n).mns.fired = (b.pleatEvent n).mns.fired := by rw [hmns]; rfl
    have hphases : (b.afterPleat n).mns.phases = (b.pleatEvent n).mns.phases := by rw [hmns]; rfl
    have hx (k : Nat) : b.timer k = s.timer k := State.timer_of_mns hb k
    obtain ⟨-, hanchor, hwithin⟩ := b.pleatEvent_timer n n
    rw [htimer n, if_pos rfl, ← hx n, ← hperiod]
    refine ⟨hanchor rfl, hwithin rfl, fun m hm hen hsrc hmask => ?_, fun k hk => ?_, ?_, only_mono (hbefore.trans (b.afterPleat_only n)) (by simp)⟩
    · have hcfg (x : FRef) (hfam : x.fam = .mnsTrgCfg) : (b.begun n).reg x m = s.reg x m := by
        have hat : famAddr x.fam m 0 = 0x640200 + m * 4 := by simp [hfam, famAddr, famInfo]
        rw [State.begun_reg b n m x (by omega), hreg x m (by omega) fun k hk => by
          rw [hat, show famAddr .mnsPhCycles k 0 = 0x64001c + k * 16 by simp [famAddr, famInfo]]
          omega]
      have hbegun : (b.pleatEvent n).timer n = (b.begun n).timer n := by
        simp only [State.pleatEvent_eq, State.timer]
        rw [State.fireTriggers_mns]
      rw [hfired]
      rw [hbegun] at hmask ⊢
      exact (b.begun n).fireTriggers_fires n m hm (by simpa [State.flag, hcfg F.mnsTrgCfgEn rfl] using hen)
        (by rw [hcfg F.mnsTrgCfgSrc rfl, hsrc]) (by rw [hcfg F.mnsTrgCfgMask rfl]; exact hmask)
    · rw [htimer k, if_neg hk, (b.pleatEvent_timer n k).1 hk, hx]
    · rw [hphases, State.pleatEvent_eq, State.fireTriggers_mns, State.begun_phases, hb]
  · have hgo : 27 ≤ n ∨ (s.tick t).now < ((s.tick t).timer n).due := .inr hdue
    dsimp only
    rw [if_pos hgo]
    exact s.tick_only t

/-! ## Octets of a message, and the fault log -/

theorem octet_append (a l : List Byte) (i : Nat) (h : a.length ≤ i) : octet (a ++ l) i = octet l (i - a.length) := by
  simp [octet, beAt, cut, List.drop_append, List.drop_eq_nil_of_le h]

theorem octet_append_left (a l : List Byte) (i : Nat) (h : i < a.length) : octet (a ++ l) i = octet a i := by
  simp only [octet, beAt, cut, List.drop_append, show i - a.length = 0 by omega, List.drop_zero]
  rw [List.take_append_of_le_length (by simp; omega)]

theorem octet_be_one (v : Nat) : octet (be 1 v) 0 = v % 256 := by
  simp [octet, beAt, cut, be, ofBe]

/-- An octet field in front of a message's rest. -/
theorem octet_be_front (v : Nat) (l : List Byte) : octet (be 1 v ++ l) 0 = v % 256 := by
  rw [octet_append_left _ _ _ (by simp), octet_be_one]

/-- Every entry of the fault log's queue stays in it. -/
def LogStays (s u : State) : Prop := ∀ w ∈ s.fau.queue, w ∈ u.fau.queue

theorem logged_stays {s u : State} {kind block inst outcome detect target : Nat} (h : Logged s kind block inst outcome detect target)
    (k : LogStays s u) : Logged u kind block inst outcome detect target := by
  obtain ⟨w, hw, h⟩ := h
  exact ⟨w, k w hw, h⟩

theorem LogStays.of_fau {s u : State} (h : u.fau = s.fau) : LogStays s u := fun _ hw => h ▸ hw

theorem State.logFaultAt_queue (s : State) (at_ kind block inst outcome detect target ctxs interrupt detail : Nat) (e : Option Nat)
    (hroom : LogRoom s) : (s.logFaultAt at_ kind block inst outcome detect target ctxs interrupt detail e).fau.queue = s.fau.queue ++
      [{ body := be 1 kind ++ be 1 block ++ be 1 inst ++ be 1 outcome ++ be 4 s.lin.epoch ++ be 8 at_ ++ be 1 detect ++
           be 1 target ++ be 2 ctxs ++ be 4 interrupt ++ be 4 detail, engine := e }] := by
  rw [State.logFaultAt, if_neg (by unfold LogRoom at hroom; omega)]

/-- A fault that finds room is in the queue of the fault log. -/
theorem State.logFaultAt_logged (s : State) (at_ kind block inst outcome detect target ctxs interrupt detail : Nat) (e : Option Nat)
    (hroom : LogRoom s) (hk : kind < 256) (ho : outcome < 256) (hd : detect < 256) (ht : target < 256) :
    Logged (s.logFaultAt at_ kind block inst outcome detect target ctxs interrupt detail e) kind block inst outcome detect target := by
  refine ⟨_, by rw [State.logFaultAt_queue _ _ _ _ _ _ _ _ _ _ _ _ hroom]; exact List.mem_append_right _ List.mem_cons_self, ?_⟩
  simp only [List.append_assoc]
  refine ⟨?_, ?_, ?_, ?_, ?_, ?_⟩
  · rw [octet_be_front, Nat.mod_eq_of_lt hk]
  · rw [octet_append _ _ _ (by simp), be_length, octet_be_front]
  · simp only [octet_append, octet_be_front, be_length, Nat.reduceLeDiff, Nat.reduceSub]
  · simp only [octet_append, octet_be_front, be_length, Nat.reduceLeDiff, Nat.reduceSub, Nat.mod_eq_of_lt ho]
  · simp only [octet_append, octet_be_front, be_length, Nat.reduceLeDiff, Nat.reduceSub, Nat.mod_eq_of_lt hd]
  · simp only [octet_append, octet_be_front, be_length, Nat.reduceLeDiff, Nat.reduceSub, Nat.mod_eq_of_lt ht]

theorem State.logFault_logged (s : State) (kind block inst outcome detect target ctxs interrupt detail : Nat) (e : Option Nat)
    (hroom : LogRoom s) (hk : kind < 256) (ho : outcome < 256) (hd : detect < 256) (ht : target < 256) :
    Logged (s.logFault kind block inst outcome detect target ctxs interrupt detail e) kind block inst outcome detect target :=
  s.logFaultAt_logged _ _ _ _ _ _ _ _ _ _ _ hroom hk ho hd ht

/-- A fault that finds none is counted. -/
theorem State.logFaultAt_full (s : State) (at_ kind block inst outcome detect target ctxs interrupt detail : Nat) (e : Option Nat)
    (hroom : ¬ LogRoom s) : s.logFaultAt at_ kind block inst outcome detect target ctxs interrupt detail e = s.bump F.fauCntLoglost :=
  if_pos (by unfold LogRoom at hroom; omega)

theorem State.logFaultAt_stays (s : State) (at_ kind block inst outcome detect target ctxs interrupt detail : Nat) (e : Option Nat) :
    LogStays s (s.logFaultAt at_ kind block inst outcome detect target ctxs interrupt detail e) := by
  by_cases h : LogRoom s
  · intro w hw
    rw [State.logFaultAt_queue _ _ _ _ _ _ _ _ _ _ _ _ h]
    exact List.mem_append_left _ hw
  · exact .of_fau (by rw [State.logFaultAt_full _ _ _ _ _ _ _ _ _ _ _ _ h]; simp)

/-- A logged fault moves no register but the count of those that are lost. -/
theorem State.logFaultAt_reg (s : State) (at_ kind block inst outcome detect target ctxs interrupt detail : Nat) (e : Option Nat)
    (x : FRef) (i j : Nat) (h : famAddr x.fam i j ≠ famAddr F.fauCntLoglost.fam 0 0) :
    (s.logFaultAt at_ kind block inst outcome detect target ctxs interrupt detail e).reg x i j = s.reg x i j := by
  unfold State.logFaultAt
  split
  · exact State.reg_bump_ne _ _ _ _ _ _ h
  · rfl

/-! ## Votes, unit faults and the memory patrol -/

/-- A unit's fault reported: logged, counted and told. -/
theorem State.unitReported (s : State) (kind block unit detect jobs int : Nat) (hd : detect = 1 ∨ detect = 2) :
    let u := (((s.logFault 0x40 block unit 0 detect 255 jobs int 0).bump F.fauCntPatch).raise 0x201 block unit
      (be 1 kind ++ be 1 255 ++ be 2 jobs ++ be 4 int))
    (LogRoom s → Logged u 0x40 block unit 0 detect 255) ∧ u.reg F.fauCntPatch = min (s.reg F.fauCntPatch + 1) 0xFFFFFFFF ∧
      Only [.fau, .regs, .stw, .eth] s u := by
  intro u
  refine ⟨fun hroom => logged_stays (s.logFault_logged 0x40 block unit 0 detect 255 jobs int 0 none hroom (by decide) (by decide)
    (by omega) (by decide)) (.of_fau (by simp [u])), ?_, by simp [only_iff, u]⟩
  rw [reg_of_regs (State.raise_regs _ _ _ _ _), State.reg_bump _ _ _ (by decide) (by decide), State.logFault,
    State.logFaultAt_reg _ _ _ _ _ _ _ _ _ _ _ _ _ _ _ (by decide)]
  rfl

theorem State.corrects_mem (s : State) (l : List Nat) (f : Nat → Nat) : (l.foldl (fun s c => s.corrected (f c)) s).mem = s.mem := by simp

/-- Codewords found rotten one after the other: they are poisoned, and rot no longer. -/
theorem State.consumes (s : State) (block : Nat) (l : List Nat) :
    let u := l.foldl (fun s c => s.foundRotten block c) s
    (∀ c, c ∈ u.mem.rot ↔ c ∈ s.mem.rot ∧ c ∉ l) ∧ (∀ c, c ∈ u.mem.poison ↔ c ∈ s.mem.poison ∨ c ∈ l) ∧
      u.mem = { s.mem with poison := u.mem.poison, rot := u.mem.rot } := by
  induction l generalizing s with
  | nil => simp
  | cons d l ih =>
    obtain ⟨hrot, hpoison, hmem⟩ := ih (s.foundRotten block d)
    have hstep : (s.foundRotten block d).mem = { s.mem with
        rot := s.mem.rot.filter (fun x => decide (x ≠ d))
        poison := d :: s.mem.poison.filter fun x => decide (x ≠ d) } := by
      simp [State.foundRotten]
    refine ⟨fun c => ?_, fun c => ?_, ?_⟩
    · rw [List.foldl_cons, hrot, hstep]
      simp only [List.mem_filter, decide_eq_true_eq, List.mem_cons, not_or]
      tauto
    · rw [List.foldl_cons, hpoison, hstep]
      simp only [List.mem_cons, List.mem_filter, decide_eq_true_eq]
      tauto
    · rw [List.foldl_cons, hmem, hstep]

/-- Settles O38. -/
theorem unitsVotesMemoryAndLog : Obligations.UnitsVotesMemoryAndLog := by
  unfold Obligations.UnitsVotesMemoryAndLog
  refine ⟨fun t unit detect jobs interrupt s hon hd => ⟨fun hu hin => ?_, fun hu hin => ?_⟩, fun t block inst ecc s hon => ?_,
    fun t lo n fixed bad s hon => ?_, fun t s hon => ⟨fun w l hq hpair => ?_, fun hno => ?_⟩⟩
  · refine does_whenOn hon ?_
    have hgo : unit < 16 ∧ unit ∉ (s.tick t).cip.coresOut := ⟨hu, hin⟩
    simp only [hd, not_true_eq_false, if_false, Bool.false_eq_true, hgo, not_false_eq_true, and_self, if_true]
    have hreport (k int : Nat) := ((s.tick t).retireCore unit).unitReported 1 0x40 unit detect k int hd
    refine ⟨by simp [State.retireCore], fun j hj => ?_, ?_, (hreport _ _).1, (hreport _ _).2.1,
      only_mono ((s.tick_only t).trans (Only.trans (parts := [.cip]) (by simp [only_iff]) (hreport _ _).2.2)) (by simp)⟩
    · obtain ⟨j', -, rfl⟩ : ∃ j' ∈ s.cip.jobs, (if j'.stage = .running unit then { j' with stage := .queued } else j') = j := by
        simpa [State.retireCore] using hj
      split <;> simp_all
    · simp [State.retireCore]
      intro j _
      split <;> exact ⟨rfl, rfl⟩
  · refine does_whenOn hon ?_
    have hgo : unit < 8 ∧ unit ∉ (s.tick t).cip.unitsOut := ⟨hu, hin⟩
    simp only [hd, not_true_eq_false, if_false, hgo, not_false_eq_true, and_self, if_true]
    obtain ⟨hlog, -, honly⟩ := ({ s.tick t with cip := { (s.tick t).cip with unitsOut := unit :: (s.tick t).cip.unitsOut } } :
      State).unitReported 2 0x41 unit detect jobs (min interrupt 10000) hd
    exact ⟨by simp, fun hroom => hlog hroom,
      only_mono ((s.tick_only t).trans (Only.trans (parts := [.cip]) (by simp [only_iff]) honly)) (by simp)⟩
  · refine does_whenOn hon ?_
    refine ⟨fun hroom => ?_, fun hroom => ?_, by simp [only_iff]⟩
    · exact State.logFault_logged _ _ _ _ _ _ _ _ _ _ _ hroom (by decide) (by decide) (by split <;> decide) (by decide)
    · rw [State.logFault, State.logFaultAt_full (s.tick t) _ _ _ _ _ _ _ _ _ _ _ hroom]
      exact ⟨by simp, State.reg_bump _ _ _ (by decide) (by decide)⟩
  · refine does_whenOn hon ?_
    extract_lets new src s1 here s2
    have hmem : s2.mem = { s.mem with rot := new.eraseDups ++ s.mem.rot } := by simp [s2, s1, src]
    obtain ⟨hrot, hpoison, hkeep⟩ := s2.consumes 0x04 (s2.mem.rot.filter (touches lo n))
    have hfinal : s2.consume 0x04 lo n = (s2.mem.rot.filter (touches lo n)).foldl (fun s c => s.foundRotten 0x04 c) s2 := rfl
    rw [hfinal]
    refine ⟨fun a ha hin => ?_, fun c hc => ?_, fun c hc => ?_, ?_, ?_⟩
    · have hfound : codeword a ∈ s2.mem.rot ∨ codeword a ∈ s2.mem.poison := by
        rw [hmem]
        by_cases hp : codeword a ∈ s.mem.poison
        · exact .inr hp
        · by_cases hr : codeword a ∈ s.mem.rot
          · exact .inl (List.mem_append_right _ hr)
          · refine .inl (List.mem_append_left _ (List.mem_eraseDups.2 (List.mem_filter.2 ⟨?_, by simp [hp, hr]⟩)))
            exact List.mem_map.2 ⟨a, List.mem_filter.2 ⟨ha, hin⟩, rfl⟩
      rw [hrot, hpoison]
      by_cases htouch : codeword a ∈ s2.mem.rot.filter (touches lo n)
      · exact .inl (.inr htouch)
      · exact hfound.symm.imp .inl fun h => ⟨h, htouch⟩
    · obtain ⟨hin, hout⟩ := (hrot c).1 hc
      by_contra htouch
      exact hout (List.mem_filter.2 ⟨hin, by simpa using htouch⟩)
    · exact (hpoison c).2 (.inl (by rw [hmem]; exact hc))
    · rw [hkeep, hmem]
    · rw [← hfinal]
      simp [only_iff, s2, s1]
  · refine does_whenOn hon ?_
    simp only [State.tick_fau, hq, show (s.tick t).pairActive = true from hpair, Bool.not_true, Bool.false_eq_true, if_false]
    have hlog (k : Nat) (hk : k ≠ s.lin.logNext) : tget? (tset (if 32768 ≤ s.lin.logNext then tdel s.lin.log (s.lin.logNext - 32768)
        else s.lin.log) s.lin.logNext (w.body ++ be 4 s.lin.logNext)) k = if k + 32768 = s.lin.logNext then none else tget? s.lin.log k := by
      rw [tget?_tset, if_neg hk]
      split
      · rw [tget?_tdel]
        exact if_congr (by omega) rfl rfl
      · rw [if_neg (by omega)]
    split
    next n hn => exact ⟨by simp [State.setEng, State.setEngine], by simp, by simp, hlog, by simp [hn, State.eng, Fau.eng, State.setEng, State.setEngine], by simp [only_iff], by simp⟩
    next hn => exact ⟨by simp, by simp, by simp, hlog, by simp [hn], by simp [only_iff], by simp⟩
  · refine does_whenOn hon ?_
    rcases hno with hno | hno
    · simp only [State.tick_fau, hno]
      exact s.tick_only t
    · simp only [State.tick_fau, show (s.tick t).pairActive = false from hno]
      split
      · exact s.tick_only t
      · exact s.tick_only t

end Sys2Proof.Machine
end

section
/-!
SUPPORT. Ethernet ports, and what the SENS, CAP, DIAG, CLU and KEY commands do once the steward serves them; statements O39, O15, O18, O17 and O16.
-/

namespace Sys2Proof.Machine

-- Proofs one after another: the text is long, and is checked in bounded memory.
set_option Elab.async false

open Sys2Proof Sys2Proof.Safety

/-! ## Ethernet ports: what an event leaves of them -/

@[simp] theorem State.kept_leaves (s old : State) (f : Fam) (i j : Nat) : Leaves (lin := may) s (s.kept old f i j) := by
  unfold State.kept
  split <;> simp [Leaves]

/-- An event changes nothing of a port but its queues. -/
def PortsHold (s u : State) : Prop := ∀ p, ∃ q, u.ep p = { s.ep p with queues := q }

theorem PortsHold.of_eth {s u : State} (h : u.eth = s.eth) : PortsHold s u :=
  fun p => ⟨(s.ep p).queues, by simp [State.ep, h]⟩

theorem PortsHold.trans {s u v : State} (h : PortsHold s u) (k : PortsHold u v) : PortsHold s v := by
  intro p
  obtain ⟨q, hq⟩ := h p
  obtain ⟨r, hr⟩ := k p
  exact ⟨r, by rw [hr, hq]⟩

theorem foldl_portsHold {β : Type} (f : State → β → State) (h : ∀ s b, PortsHold s (f s b)) (l : List β) (s : State) :
    PortsHold s (l.foldl f s) :=
  foldl_keeps (PortsHold s) f (fun u b k => k.trans (h u b)) l s (.of_eth rfl)

theorem State.queueFrame_holds (s : State) (p q : Nat) (head : Bool) (f : Frame) : PortsHold s (s.queueFrame p q head f) := by
  intro k
  rw [State.queueFrame_ep]
  split
  · exact ⟨_, rfl⟩
  · exact ⟨_, rfl⟩

theorem State.postEvent_holds (s : State) (k : Nat) (x : Session) (b : List Byte) : PortsHold s (s.postEvent k x b) := by
  unfold State.postEvent
  dsimp only
  split; · exact .of_eth rfl
  split
  · exact PortsHold.trans (.of_eth rfl) (State.queueFrame_holds _ _ _ _ _)
  · exact .of_eth rfl

theorem State.raiseAt_holds (s : State) (at_ code block inst : Nat) (data : List Byte) :
    PortsHold s (s.raiseAt at_ code block inst data) := by
  unfold State.raiseAt
  split; · exact .of_eth rfl
  refine foldl_portsHold _ (fun s e => ?_) _ _
  split
  · split
    · exact State.postEvent_holds _ _ _ _
    · exact .of_eth rfl
  · exact .of_eth rfl

theorem State.raise_holds (s : State) (code block inst : Nat) (data : List Byte) : PortsHold s (s.raise code block inst data) :=
  s.raiseAt_holds _ _ _ _ _

/-- A port without a link that no session uses: an event puts nothing in its queues. -/
structure Idles (s : State) (p : Nat) : Prop where
  down : (s.ep p).up = false
  unused : ∀ k x, tget? s.stw.sess k = some x → x.port ≠ p

theorem State.queueFrame_idle (s : State) (p k q : Nat) (head : Bool) (f : Frame) (hdown : (s.ep p).up = false) (hk : k ≠ p) :
    (s.queueFrame k q head f).ep p = s.ep p := by
  rw [State.queueFrame_ep, if_neg]
  unfold State.txPort
  split
  next h => exact hk.symm
  next =>
    split
    next h =>
      rintro rfl
      simp [hdown] at h
    next => exact hk.symm

theorem State.postEvent_idle (s : State) (p k : Nat) (x : Session) (b : List Byte) (h : Idles s p) (hx : tget? s.stw.sess k = some x) :
    Idles (s.postEvent k x b) p ∧ (s.postEvent k x b).ep p = s.ep p := by
  have hep : (s.postEvent k x b).ep p = s.ep p := by
    unfold State.postEvent
    dsimp only
    split; · rfl
    split
    · exact (State.queueFrame_idle _ _ _ _ _ _ h.down (h.unused k x hx)).trans rfl
    · rfl
  refine ⟨⟨hep ▸ h.down, fun n y hy => ?_⟩, hep⟩
  rw [State.postEvent_posted, tget?_tset] at hy
  split at hy
  · obtain rfl := Option.some.inj hy
    have hport : (x.posted s.now s.anyUp b).port = x.port := by unfold Session.posted; split <;> rfl
    exact hport ▸ h.unused k x hx
  · exact h.unused n y hy

theorem State.raise_idle (s : State) (p code block inst : Nat) (data : List Byte) (h : Idles s p) :
    Idles (s.raise code block inst data) p ∧ (s.raise code block inst data).ep p = s.ep p := by
  unfold State.raise State.raiseAt
  split; · exact ⟨h, rfl⟩
  refine foldl_keeps (fun u : State => Idles u p ∧ u.ep p = s.ep p) _ (fun u e hu => ?_) _ s ⟨h, rfl⟩
  split
  next x hx =>
    split
    · obtain ⟨hidle, hep⟩ := u.postEvent_idle p e.1 x _ hu.1 hx
      exact ⟨hidle, hep.trans hu.2⟩
    · exact hu
  next => exact hu

/-! ## A port whose link goes down -/

theorem State.moveSessions_found (s : State) (p k : Nat) :
    tget? (s.moveSessions p).stw.sess k = (tget? s.stw.sess k).map fun x => if x.port = p then { x with port := 1 - p } else x := by
  rw [← tget?_map]
  simp only [State.moveSessions]
  congr 2
  funext e
  split <;> rfl

theorem State.moveQueues_ep (s : State) (p : Nat) (hp : p < 2) : (s.moveQueues p).ep p = { s.ep p with queues := [] } := by
  unfold State.moveQueues
  rw [State.setEp_ep, if_neg (by omega), State.setEp_ep, if_pos rfl]

/-- A port that has gone down, as its link left it. -/
def EthPort.ended (e : EthPort) (reason now : Nat) : EthPort :=
  { e with up := false, reason := reason, paused := [], pausing := [], since := now }

/-- A port goes down while the other has its link: what used it moves there, and LINK_DOWN says so. -/
def State.handed (s : State) (p reason : Nat) : State := ((s.moveSessions p).moveQueues p).linkEvent 0x802 p reason

theorem State.handed_idle (s : State) (p reason : Nat) (hp : p < 2) (hdown : (s.ep p).up = false) :
    Idles (s.handed p reason) p ∧ (s.handed p reason).ep p = { s.ep p with queues := [] } := by
  have hempty := (s.moveSessions p).moveQueues_ep p hp
  have hidle : Idles ((s.moveSessions p).moveQueues p) p := by
    refine ⟨by rw [hempty]; exact hdown, fun k x hx => ?_⟩
    have hx' : tget? (s.moveSessions p).stw.sess k = some x := by simpa using hx
    rw [State.moveSessions_found] at hx'
    obtain ⟨y, -, rfl⟩ := Option.map_eq_some_iff.1 hx'
    split
    · show 1 - p ≠ p
      omega
    · assumption
  obtain ⟨hidle', hep⟩ := State.raise_idle _ p 0x802 0x80 p
    (be 1 (((s.moveSessions p).moveQueues p).ep p).code ++ be 1 reason ++ ((s.moveSessions p).moveQueues p).open8s 950 2) hidle
  exact ⟨hidle', hep.trans hempty⟩

theorem State.failover_idle (s : State) (p detect moved interrupt : Nat) (h : Idles s p) :
    (s.failover p detect moved interrupt).ep p = s.ep p := by
  have hsame : Idles ((s.logFault 0x20 0x80 p 0 detect (1 - p) 0 interrupt 0).bump F.fauCntFailover) p :=
    ⟨by simpa [State.ep] using h.down, fun k x hx => h.unused k x (by simpa using hx)⟩
  refine (State.raise_idle _ _ _ _ _ _ hsame).2.trans ?_
  simp [State.ep]

/-- Every session that uses a port uses the other one then. -/
def Moved (p : Nat) (s u : State) : Prop :=
  ∀ k x, tget? s.stw.sess k = some x → x.port = p → ∃ y, tget? u.stw.sess k = some y ∧ y.port = 1 - p

theorem Session.Grown.port {x y : Session} (h : x.Grown y) : y.port = x.port := by rw [h.same]

theorem Moved.grown {p : Nat} {s u v : State} (h : Moved p s u) (k : SessionsGrow u v) : Moved p s v := by
  intro n x hx hport
  obtain ⟨y, hy, hyport⟩ := h n x hx hport
  obtain ⟨z, hz, hyz⟩ := k n y hy
  exact ⟨z, hz, hyz.port.trans hyport⟩

theorem State.handed_moved (s : State) (p reason : Nat) : Moved p s (s.handed p reason) := by
  have hmoved : Moved p s ((s.moveSessions p).moveQueues p) := by
    intro n x hx hport
    refine ⟨{ x with port := 1 - p }, ?_, rfl⟩
    have hfound := s.moveSessions_found p n
    rw [hx, Option.map_some, if_pos hport] at hfound
    simpa using hfound
  exact hmoved.grown (State.raise_grows _ _ _ _ _)

theorem State.failover_grows (s : State) (p detect moved interrupt : Nat) : SessionsGrow s (s.failover p detect moved interrupt) :=
  SessionsGrow.trans (.of_sess (by simp)) (State.raise_grows _ _ _ _ _)

/-- The port's part of a port's going down. -/
def State.fallen (s : State) (p reason : Nat) : State :=
  s.setEp p ((s.ep p).ended reason s.now)

/-- The captures that a port's going down may break. -/
def State.gapped (s : State) (p : Nat) (c : Capture) : Bool :=
  decide (s.draw 954 2 = 1) && (match tget? s.stw.sess c.slot with
    | some x => decide (x.port = p)
    | none => false)

theorem State.portDown_eq (s : State) (p reason detect interrupt : Nat) (hp : p < 2) :
    s.portDown p reason detect interrupt =
      let v := (s.fallen p reason).gapCaptures (s.gapped p)
      if (s.ep (1 - p)).up then
        if reason = 5 then v.handed p reason else (v.handed p reason).failover p detect (s.sessionsOn p) interrupt
      else if reason = 5 then v.linkEvent 0x802 p reason else (v.linkEvent 0x802 p reason).bothDown p detect := by
  have hother : ((s.fallen p reason).gapCaptures (s.gapped p)).ep (1 - p) = s.ep (1 - p) :=
    (State.setEp_ep _ _ _ _).trans (if_neg (by omega))
  dsimp only
  rw [← hother]
  rfl

theorem State.fallen_ep (s : State) (p reason : Nat) (c : Capture → Bool) :
    ((s.fallen p reason).gapCaptures c).ep p = (s.ep p).ended reason s.now :=
  (State.setEp_ep _ _ _ _).trans (if_pos rfl)

/-- A port that goes down leaves nothing in its queues where the other port has its link. -/
theorem State.portDown_ep (s : State) (p reason detect interrupt : Nat) (hp : p < 2) :
    ∃ q, (s.portDown p reason detect interrupt).ep p = { (s.ep p).ended reason s.now with queues := q } ∧
      ((s.ep (1 - p)).up = true → q = []) := by
  rw [State.portDown_eq _ _ _ _ _ hp]
  dsimp only
  have hself := s.fallen_ep p reason (s.gapped p)
  set v := (s.fallen p reason).gapCaptures (s.gapped p)
  have hdown : (v.ep p).up = false := by rw [hself]; rfl
  split
  · obtain ⟨hidle, hep⟩ := v.handed_idle p reason hp hdown
    refine ⟨[], ?_, fun _ => rfl⟩
    split
    · rw [hep, hself]
    · rw [State.failover_idle _ _ _ _ _ hidle, hep, hself]
  next hup =>
    obtain ⟨q, hq⟩ := v.raise_holds 0x802 0x80 p (be 1 (v.ep p).code ++ be 1 reason ++ v.open8s 950 2) p
    refine ⟨q, ?_, fun h => absurd h hup⟩
    replace hq := hq.trans (congrArg (fun e : EthPort => { e with queues := q }) hself)
    split
    · exact hq
    · refine Eq.trans ?_ hq
      simp [State.ep, State.bothDown, State.linkEvent]

/-- The sessions that used it then use the other one. -/
theorem State.portDown_moved (s : State) (p reason detect interrupt : Nat) (hp : p < 2) (hup : (s.ep (1 - p)).up = true) :
    Moved p s (s.portDown p reason detect interrupt) := by
  rw [State.portDown_eq _ _ _ _ _ hp]
  dsimp only
  rw [if_pos hup]
  have hmoved := ((s.fallen p reason).gapCaptures (s.gapped p)).handed_moved p reason
  split
  · exact hmoved
  · exact hmoved.grown (State.failover_grows _ _ _ _ _)

theorem State.linkEvent_only (s : State) (code p reason : Nat) : Only [.stw, .eth] s (s.linkEvent code p reason) := by
  simp [only_iff]

/-- A port taken down in order loses nothing that is logged. -/
theorem State.portDown_ordered (s : State) (p : Nat) (hp : p < 2) : Only [.eth, .stw, .caps] s (s.portDown p 5 0 0) := by
  rw [State.portDown_eq _ _ _ _ _ hp]
  dsimp only
  split
  · simp [only_iff, State.handed, State.fallen]
  · simp [only_iff, State.fallen]

/-- A port that fails is logged, and counted as a failover or reported at the next link. -/
theorem State.portDown_failed (s : State) (p reason detect interrupt : Nat) (hp : p < 2) (hr : reason ≠ 5) (hd : detect < 256) :
    let u := s.portDown p reason detect interrupt
    ((s.ep (1 - p)).up = true → (LogRoom s → Logged u 0x20 0x80 p 0 detect (1 - p)) ∧
      u.reg F.fauCntFailover = min (s.reg F.fauCntFailover + 1) 0xFFFFFFFF) ∧
    ((s.ep (1 - p)).up = false → (LogRoom s → Logged u 0x21 0x80 p 1 detect 255) ∧
      u.fau.unmaskedPort = some (p, detect, s.logIndex)) ∧
    Only [.eth, .stw, .caps, .fau, .regs] s u := by
  intro u
  have hu : u = _ := s.portDown_eq p reason detect interrupt hp
  dsimp only at hu
  rw [if_neg hr, if_neg hr] at hu
  refine ⟨fun hup => ?_, fun hup => ?_, ?_⟩
  · rw [if_pos hup] at hu
    set v := ((s.fallen p reason).gapCaptures (s.gapped p)).handed p reason with hv
    have hfau : v.fau = s.fau := by simp [hv, State.handed, State.fallen]
    have hregs : v.regs = s.regs := by simp [hv, State.handed, State.fallen]
    refine ⟨fun hroom => ?_, ?_⟩
    · refine logged_stays (v.logFault_logged 0x20 0x80 p 0 detect (1 - p) 0 interrupt 0 none (by rwa [LogRoom, hfau]) (by decide)
        (by decide) hd (by omega)) (.of_fau (by simp [hu, State.failover]))
    · rw [hu, State.failover, reg_of_regs (State.raise_regs _ _ _ _ _), State.reg_bump _ _ _ (by decide) (by decide), State.logFault,
        State.logFaultAt_reg _ _ _ _ _ _ _ _ _ _ _ _ _ _ _ (by decide), reg_of_regs hregs]
      rfl
  · rw [if_neg (by simp [hup])] at hu
    set v := ((s.fallen p reason).gapCaptures (s.gapped p)).linkEvent 0x802 p reason with hv
    have hfau : v.fau = s.fau := by simp [hv, State.fallen]
    have hlin : v.lin = s.lin := by simp [hv, State.fallen]
    refine ⟨fun hroom => ?_, ?_⟩
    · refine logged_stays (v.logFault_logged 0x21 0x80 p 1 detect 255 0 0 0 none (by rwa [LogRoom, hfau]) (by decide)
        (by decide) hd (by decide)) (fun w hw => ?_)
      simpa [hu, State.bothDown] using hw
    · simp [hu, State.bothDown, State.logIndex, hfau, hlin]
  · rw [hu]
    split <;> simp [only_iff, State.handed, State.fallen]

/-! ## A port whose link comes up -/

theorem State.finishRef_holds (s : State) (ref status : Nat) (operand : List Byte) : PortsHold s (s.finishRef ref status operand) := by
  have hanswer (f : Flight) : PortsHold s (s.answer f false status operand) := by
    unfold State.answer
    dsimp only
    split
    · exact .of_eth rfl
    · exact PortsHold.trans (.of_eth rfl) (State.queueFrame_holds _ _ _ _ _)
  unfold State.finishRef
  split
  · unfold State.finish
    split
    · exact .of_eth rfl
    · exact hanswer _
  · exact .of_eth rfl

theorem State.dropWaits_holds (s : State) : PortsHold s s.dropWaits := by
  unfold State.dropWaits
  refine PortsHold.trans (.of_eth rfl) (foldl_portsHold _ (fun u w => ?_) _ _)
  split
  · exact u.finishRef_holds _ _ _
  · exact .of_eth rfl

theorem State.toListening_holds (s : State) (reason : Nat) : PortsHold s (s.toListening reason) := by
  unfold State.toListening State.toRole
  dsimp only
  refine PortsHold.trans (.trans (.of_eth (u := State.setSea _ _) rfl) ?_) (State.raise_holds _ _ _ _ _)
  refine PortsHold.trans ?_ (.of_eth rfl)
  split
  · exact PortsHold.trans (.of_eth rfl) (State.dropWaits_holds _)
  · exact .of_eth rfl

theorem State.seamBack_holds (s : State) : PortsHold s s.seamBack := by
  unfold State.seamBack
  split
  · exact PortsHold.trans (.of_eth rfl) (State.toListening_holds _ _)
  · split
    · exact .of_eth rfl
    · exact s.toListening_holds _

theorem State.portsBack_holds (s : State) : PortsHold s s.portsBack := by
  unfold State.portsBack
  split
  · exact PortsHold.trans (.of_eth rfl) (State.raise_holds _ _ _ _ _)
  · exact .of_eth rfl

theorem State.sendWaiting_holds (s : State) : PortsHold s s.sendWaiting := by
  refine foldl_portsHold _ (fun u e => ?_) _ _
  exact PortsHold.trans (.of_eth rfl) (foldl_portsHold _ (fun w v => State.queueFrame_holds _ _ _ _ _) _ _)

theorem PortsHold.up {s u : State} (h : PortsHold s u) {p : Nat} (hup : (s.ep p).up = true) : (u.ep p).up = true := by
  obtain ⟨q, hq⟩ := h p
  rw [hq]
  exact hup

theorem State.moveQueues_holds_other (s : State) (p : Nat) (hp : p < 2) :
    ∃ q, (s.moveQueues (1 - p)).ep p = { s.ep p with queues := q } := by
  have hback : 1 - (1 - p) = p := by omega
  unfold State.moveQueues
  exact ⟨_, (State.setEp_ep _ _ _ _).trans (by rw [hback, if_pos rfl])⟩

theorem State.portUp_up (s : State) (p : Nat) (hp : p < 2) : ((s.portUp p).ep p).up = true := by
  unfold State.portUp
  dsimp only
  have hset : ((s.setEp p { s.ep p with up := true }).ep p).up = true := by rw [State.setEp_ep, if_pos rfl]
  set v := s.setEp p { s.ep p with up := true }
  have hmoved : (((v.moveSessions (1 - p)).moveQueues (1 - p)).ep p).up = true := by
    obtain ⟨q, hq⟩ := (v.moveSessions (1 - p)).moveQueues_holds_other p hp
    rw [hq]
    exact hset
  split
  · refine PortsHold.up ?_ hmoved
    exact (State.sendWaiting_holds _).trans ((State.raise_holds _ _ _ _ _).trans ((State.portsBack_holds _).trans
      (State.seamBack_holds _)))
  · exact (State.raise_holds _ _ _ _ _).up hset

theorem State.tick_linkReady (s : State) (t p : Nat) : (s.tick t).linkReady p =
    (s.flag F.ethEpCtlEn p && !(s.ep p).up && decide ((s.ep p).since + 10 * ms ≤ max s.now t)) := rfl

/-- A port's setting written, and kept in the lining. -/
theorem State.setEn_flag (s : State) (p v : Nat) : (s.setReg F.ethEpCtlEn p 0 v).reg F.ethEpCtlEn p = v % 2 :=
  State.reg_setReg_self _ _ _ _ _ (by decide) (by decide)

/-- Settles O39. -/
theorem ethernetPortsComeAndGo : Obligations.EthernetPortsComeAndGo := by
  unfold Obligations.EthernetPortsComeAndGo
  intro t p s hon hp took moved
  have hother : ¬ 1 - p = p := by omega
  have hquiet (u : State) (h : u = s.tick t) : Only [] s u := h ▸ s.tick_only t
  have htick {parts : List Block} {u : State} (h : Only parts (s.tick t) u) : Only parts s u := by
    exact only_mono ((s.tick_only t).trans h) (by simp)
  refine ⟨fun hen => does_whenOn hon ?_, fun hen => does_whenOn hon ?_, fun hch hgone => does_whenOn hon ?_,
    fun hen hdown hdue => does_whenOn hon ?_, fun hno => does_whenOn hon ?_,
    fun detect interrupt hup hfec => does_whenOn hon ?_,
    fun reason detect interrupt hup hr hfec => does_whenOn hon ?_, fun hup => does_whenOn hon ?_⟩
  · rw [if_pos (show p < 2 ∧ (s.tick t).flag F.ethEpCtlEn p = false from ⟨hp, hen⟩)]
    refine ⟨?_, ?_, ?_, ?_⟩
    · simp [State.flag, State.reg, State.ethEnable]
      exact (s.tick t).setEn_flag p 1
    · simp only [State.ep, State.kept_leaves]
      exact (State.setEp_ep _ _ _ _).trans (if_pos rfl)
    · simp only [State.ep, State.kept_leaves]
      exact (State.setEp_ep _ _ _ _).trans (if_neg hother)
    · simp [only_iff, State.ethEnable]
  · rw [if_pos (show p < 2 ∧ (s.tick t).flag F.ethEpCtlEn p = true from ⟨hp, hen⟩)]
    have hflag (u : State) (hu : u.regs = ((s.tick t).setReg F.ethEpCtlEn p 0 0).regs) : u.flag F.ethEpCtlEn p = false := by
      simp only [State.flag, reg_of_regs hu, State.setEn_flag]
      rfl
    unfold State.ethDisable
    set v := (s.tick t).setReg F.ethEpCtlEn p 0 0
    have hep : v.ep = s.ep := rfl
    dsimp only
    by_cases hup : (s.ep p).up = true
    · rw [if_pos (show (v.ep p).up = true from hup)]
      obtain ⟨q, hq, -⟩ := v.portDown_ep p 5 0 0 hp
      have honly := v.portDown_ordered p hp
      obtain ⟨hregs, hfau⟩ : (v.portDown p 5 0 0).regs = v.regs ∧ (v.portDown p 5 0 0).fau = s.fau :=
        ⟨honly .regs (by decide), honly .fau (by decide)⟩
      refine ⟨hflag _ (by simpa using hregs), ?_, fun _ => ⟨?_, fun hotherup k x hx hport => ?_⟩, by simpa using hfau, ?_⟩
      · simp only [State.ep, State.kept_leaves]
        exact congrArg EthPort.up hq
      · simp only [State.ep, State.kept_leaves]
        exact congrArg EthPort.reason hq
      · simpa using v.portDown_moved p 5 0 0 hp hotherup k x hx hport
      · have hset : Only [.regs] (s.tick t) v := by simp [only_iff, v]
        have hkept : Only [.lin] (v.portDown p 5 0 0) ((v.portDown p 5 0 0).kept (s.tick t) .ethEpCtl p 0) := by simp [only_iff]
        exact only_mono ((s.tick_only t).trans (hset.trans (honly.trans hkept))) (by simp)
    · rw [if_neg (show ¬(v.ep p).up = true from hup)]
      refine ⟨hflag _ (by simp [v]), ?_, fun h => absurd h hup, by simp [v], by simp [only_iff, v]⟩
      simp only [State.ep, State.kept_leaves]
      exact Bool.eq_false_iff.2 hup
  · rw [if_pos (show p < 2 ∧ (s.tick t).ethChanged p = true ∧ (s.tick t).responsesGone = true from ⟨hp, hch, hgone⟩)]
    have htake (u : State) (hregs : u.regs = s.regs) (hdown : (u.ep p).up = false) :
        took (u.ethTake p) ∧ ((u.ethTake p).ep p).up = false := by
      have hep : (u.ethTake p).ep p = { u.ep p with
          type := u.reg F.ethEpCtlType p
          an := u.reg F.ethEpCtlAn p
          fec := u.reg F.ethEpCtlFec p
          since := u.now } := (State.setEp_ep _ _ _ _).trans (if_pos rfl)
      simp only [took, hep, reg_of_regs hregs]
      exact ⟨⟨trivial, trivial, trivial⟩, hdown⟩
    have honly (u : State) : Only [.eth] u (u.ethTake p) := by simp [only_iff, State.ethTake]
    by_cases hup : (s.ep p).up = true
    · dsimp only
      rw [if_pos (show ((s.tick t).ep p).up = true from hup)]
      obtain ⟨q, hq, -⟩ := (s.tick t).portDown_ep p 5 0 0 hp
      have hdown := (s.tick t).portDown_ordered p hp
      obtain ⟨htook, hlink⟩ := htake _ (hdown .regs (by decide)) (congrArg EthPort.up hq)
      exact ⟨htook, hlink, (honly _ .fau (by decide)).trans (hdown .fau (by decide)),
        only_mono (htick (hdown.trans (honly _))) (by simp)⟩
    · dsimp only
      rw [if_neg (show ¬((s.tick t).ep p).up = true from hup)]
      obtain ⟨htook, hlink⟩ := htake (s.tick t) rfl (Bool.eq_false_iff.2 hup)
      exact ⟨htook, hlink, rfl, only_mono (htick (honly _)) (by simp)⟩
  · rw [if_pos (show p < 2 ∧ (s.tick t).linkReady p = true from ⟨hp, by rw [State.tick_linkReady, hen, hdown, decide_eq_true hdue]; rfl⟩)]
    refine ⟨State.portUp_up _ _ hp, fun hup => ?_⟩
    have hany : (s.tick t).anyUp = true := by
      unfold State.anyUp
      obtain rfl | rfl : p = 0 ∨ p = 1 := by omega
      · rw [show ((s.tick t).ep 1).up = true from hup, Bool.or_true]
      · rw [show ((s.tick t).ep 0).up = true from hup, Bool.true_or]
    unfold State.portUp
    simp only [hany, Bool.not_true, Bool.false_eq_true, if_false]
    set v := (s.tick t).setEp p { (s.tick t).ep p with up := true }
    have hcode : (v.ep p).code = (s.ep p).code := by
      rw [State.setEp_ep, if_pos rfl]
      rfl
    refine ⟨raised_congr (s := v) ?_ rfl rfl rfl (.of_sess rfl), htick ?_⟩
    · rw [← hcode]
      exact v.raiseAt_raised _ 0x801 0x80 p _ _
    · simp [only_iff, v]
  · refine hquiet _ (if_neg ?_)
    rw [State.tick_linkReady]
    rcases hno with h | h
    · simp [h]
    · simp [Nat.not_le.2 h]
  · exact hquiet _ (if_neg (by simp [EthPort.mayFail, hfec]))
  · have hmay : (s.ep p).mayFail reason = true := by
      simp only [EthPort.mayFail, Bool.or_eq_true, Bool.and_eq_true, decide_eq_true_eq]
      rcases hr with ⟨hlow, hhigh⟩ | hsix
      · refine Or.inl ⟨⟨hlow, hhigh⟩, ?_⟩
        by_cases htwo : reason = 2
        · exact Or.inr (hfec htwo)
        · exact Or.inl htwo
      · exact Or.inr hsix
    rw [if_pos (show p < 2 ∧ ((s.tick t).ep p).up = true ∧ ((s.tick t).ep p).mayFail reason = true from ⟨hp, hup, hmay⟩)]
    set how := if reason = 6 then clamp 1 2 detect else 6 with hhow
    have hlt : how < 256 := by
      rw [hhow]
      unfold clamp
      split <;> omega
    obtain ⟨q, hq, hempty⟩ := (s.tick t).portDown_ep p reason how (min interrupt 40000) hp
    obtain ⟨hfail, hlast, honly⟩ := (s.tick t).portDown_failed p reason how (min interrupt 40000) hp (by omega) hlt
    refine ⟨congrArg EthPort.up hq, congrArg EthPort.reason hq, fun hotherup => ⟨?_, ?_, hfail hotherup⟩, hlast, htick honly⟩
    · exact (s.tick t).portDown_moved p reason how (min interrupt 40000) hp hotherup
    · rw [← hempty hotherup]
      exact congrArg EthPort.queues hq
  · unfold State.injectPort
    rw [if_pos (show p < 2 ∧ ((s.tick t).ep p).up = true from ⟨hp, hup⟩)]
    obtain ⟨q, hq, -⟩ := (s.tick t).portDown_ep p 6 1 ((s.tick t).draw 997 40001) hp
    obtain ⟨hfail, -, honly⟩ := (s.tick t).portDown_failed p 6 1 ((s.tick t).draw 997 40001) hp (by decide) (by decide)
    exact ⟨congrArg EthPort.up hq, congrArg EthPort.reason hq, fun hroom hotherup => (hfail hotherup).1 hroom, htick honly⟩

/-! ## Firmware commands that the steward serves -/

@[simp] theorem taken_leaves (s : State) (m : Inbound) (opcode t : Nat) (x : Session) (at_ took : Nat) :
    Leaves (clock := may) (stw := may) s (taken s m opcode t x at_ took) := by
  have h := taken_frame s m opcode t x at_ took
  simp only [ButStw] at h
  simp [Leaves, h, State.tick]

theorem taken_only (s : State) (m : Inbound) (opcode t : Nat) (x : Session) (at_ took : Nat) :
    Only [.stw] s (taken s m opcode t x at_ took) := by
  simp [only_iff]

theorem taken_now (s : State) (m : Inbound) (opcode t : Nat) (x : Session) (at_ took : Nat) :
    (taken s m opcode t x at_ took).now = max (max s.now t) at_ := by
  have h := taken_frame s m opcode t x at_ took
  simp only [ButStw] at h
  simp [h, State.tick]

@[simp] theorem taken_reg (s : State) (m : Inbound) (opcode t : Nat) (x : Session) (at_ took : Nat) (y : FRef) (i j : Nat) :
    (taken s m opcode t x at_ took).reg y i j = s.reg y i j :=
  reg_of_regs (by simp) _ _ _

@[simp] theorem taken_flag (s : State) (m : Inbound) (opcode t : Nat) (x : Session) (at_ took : Nat) (y : FRef) (i j : Nat) :
    (taken s m opcode t x at_ took).flag y i j = s.flag y i j := by
  simp [State.flag]

@[simp] theorem flightOf_operand (s : State) (m : Inbound) (opcode t : Nat) (st : Stage) : (flightOf s m opcode t st).operand = m.operand := rfl
@[simp] theorem flightOf_slot (s : State) (m : Inbound) (opcode t : Nat) (st : Stage) : (flightOf s m opcode t st).slot = m.slot := rfl
@[simp] theorem flightOf_gen (s : State) (m : Inbound) (opcode t : Nat) (st : Stage) : (flightOf s m opcode t st).gen = m.gen := rfl

/-- A state in which the steward still has a message's command to answer: its session is open, and a pair runs. -/
structure Serving (m : Inbound) (x : Session) (v : State) : Prop where
  session : ∃ y, tget? v.stw.sess m.slot = some y ∧ y.gen = m.gen ∧ y.maxmsg = x.maxmsg
  pair : v.pairActive = true

theorem served_pair {s : State} {m : Inbound} {need : Nat} {x : Session} (h : Served s m need x) : s.pairActive = true := by
  have hfirm := h.firmware
  rw [State.fwRuns, Bool.and_eq_true] at hfirm
  exact hfirm.2

theorem served_serving {s : State} {m : Inbound} {need : Nat} {x : Session} (h : Served s m need x) (opcode t at_ took : Nat) :
    Serving m x (taken s m opcode t x at_ took) where
  session := ⟨_, taken_sess s m opcode t x at_ took, h.gen, rfl⟩
  pair := by simpa [State.pairActive] using served_pair h

/-- What is done to serve the command ends no session. -/
theorem Serving.goes {m : Inbound} {x : Session} {u v : State} (h : Serving m x u) (hgrow : SessionsGrow u v)
    (hpair : v.fau.pairs = u.fau.pairs) : Serving m x v where
  session := by
    obtain ⟨y, hy, hgen, hmax⟩ := h.session
    obtain ⟨z, hz, hyz⟩ := hgrow _ _ hy
    exact ⟨z, hz, by rw [hyz.same]; exact hgen, by rw [hyz.same]; exact hmax⟩
  pair := by simpa [State.pairActive, hpair] using h.pair

/-- The final response is queued, if it fits. -/
theorem Serving.answered {m : Inbound} {x : Session} {v : State} (h : Serving m x v) (s : State) (opcode t status : Nat) (o : List Byte)
    (hl : 16 + o.length ≤ x.maxmsg) :
    Answered m opcode status o (v.finish (flightOf s m opcode t .waiting) false status o) := by
  obtain ⟨y, hy, hgen, hmax⟩ := h.session
  exact State.finish_answers v (flightOf s m opcode t .waiting) y status o (Or.inr h.pair) hy hgen (by omega)

/-- A command that is answered at once changes the mailbox engine and the transmit queues alone. -/
theorem served_answers {s : State} {m : Inbound} {need : Nat} {x : Session} (h : Served s m need x) (opcode t at_ took status : Nat)
    (o : List Byte) (hl : 16 + o.length ≤ x.maxmsg) :
    let v := (taken s m opcode t x at_ took).finish (flightOf s m opcode t .waiting) false status o
    Answered m opcode status o v ∧ Only [.stw, .eth] s v :=
  ⟨(served_serving h opcode t at_ took).answered s opcode t status o hl,
    only_mono ((taken_only s m opcode t x at_ took).trans (State.finish_only _ _ _ _ _ _)) (by simp)⟩

/-- A firmware command is handled as its steward's routine says. -/
theorem served_does {s : State} {m : Inbound} {need : Nat} {x : Session} (h : Served s m need x) {c : Instr} {at_ took : Nat}
    {P : State → Prop} (opcode t : Nat) {u : State}
    (hserve : (taken s m opcode t x at_ took).serve (flightOf s m opcode t .waiting) = u) (hP : P u)
    (hc : exec c s = whenOn t (fun s => s.arriveFw m opcode need) s := by rfl) : Handled c at_ took s P :=
  served_handled h c opcode t hc at_ took P (hserve ▸ hP)

/-- One that is answered at once, with nothing else done. -/
theorem served_replies {s : State} {m : Inbound} {need : Nat} {x : Session} (h : Served s m need x) {c : Instr} {at_ took : Nat}
    (opcode t : Nat) {status : Nat} {o o' : List Byte}
    (hserve : (taken s m opcode t x at_ took).serve (flightOf s m opcode t .waiting) =
      (taken s m opcode t x at_ took).finish (flightOf s m opcode t .waiting) false status o') (ho : o' = o)
    (hl : 16 + o.length ≤ x.maxmsg) (hc : exec c s = whenOn t (fun s => s.arriveFw m opcode need) s := by rfl) :
    Handled c at_ took s fun v => Answered m opcode status o v ∧ Only [.stw, .eth] s v :=
  served_does h opcode t hserve (ho ▸ served_answers h opcode t at_ took status _ (ho ▸ hl)) hc

theorem handled_mono {c : Instr} {at_ took : Nat} {s : State} {P Q : State → Prop} (h : Handled c at_ took s P) (hpq : ∀ v, P v → Q v) :
    Handled c at_ took s Q := by
  obtain ⟨u, v, hu, hv, hp⟩ := h
  exact ⟨u, v, hu, hv, hpq v hp⟩

/-! ## SENS -/

theorem length_flatMap_const {α : Type} (l : List α) (f : α → List Byte) (n : Nat) (h : ∀ a, (f a).length = n) :
    (l.flatMap f).length = n * l.length := by
  simp [List.length_flatMap, h, Nat.mul_comm]

theorem State.loopEval_loop (s : State) (n : Nat) : (s.loopEval n).loop n =
    { s.loop n with fault := decide (s.loopCause n ≠ 0), cause := s.loopCause n, ua := s.loopUa n } := by
  have hset (x : Loop) : (s.setLoop n x).loop n = x := tget_tset_self _ _ _ _
  unfold State.loopEval
  dsimp only
  split
  · simpa [State.loop, State.loopFault] using hset _
  · split
    · simpa [State.loop, State.loopFault] using hset _
    · exact hset _

theorem State.loopEval_reg (s : State) (n : Nat) (x : FRef) (i j : Nat) (h : famAddr x.fam i j ≠ famAddr .lopCntFault 0 0) :
    (s.loopEval n).reg x i j = s.reg x i j := by
  unfold State.loopEval
  dsimp only
  split
  · exact (reg_of_regs (State.raise_regs _ _ _ _ _) _ _ _).trans (State.reg_bump_ne _ _ _ _ _ _ h)
  · split
    · exact reg_of_regs (State.raise_regs _ _ _ _ _) _ _ _
    · rfl

theorem State.loopEval_grows (s : State) (n : Nat) : SessionsGrow s (s.loopEval n) := by
  unfold State.loopEval
  dsimp only
  split
  · exact SessionsGrow.trans (.of_sess (by simp)) (State.raise_grows _ _ _ _ _)
  · split
    · exact SessionsGrow.trans (.of_sess (by simp)) (State.raise_grows _ _ _ _ _)
    · exact .of_sess (by simp)

/-- A loop drives the current of its registers and causes. -/
theorem State.loopEval_ua (s : State) (n : Nat) (hn : n < 4) :
    ((s.loopEval n).loop n).ua = s.loopUa n ∧ (s.loopEval n).loopUa n = s.loopUa n := by
  refine ⟨by rw [State.loopEval_loop], ?_⟩
  have hreg (x : FRef) (h : x.fam = .lopLoCtl ∨ x.fam = .lopLoFixed ∨ x.fam = .lopLoV4 ∨ x.fam = .lopLoV20) :
      (s.loopEval n).reg x n = s.reg x n := by
    refine s.loopEval_reg n x n 0 ?_
    rcases h with h | h | h | h <;> simp [h, famAddr, famInfo] <;> omega
  have hflag (x : FRef) (h : x.fam = .lopLoCtl) : (s.loopEval n).flag x n = s.flag x n := by
    simp only [State.flag, hreg x (Or.inl h)]
  simp only [State.loopUa, State.loopCause, State.mapped, State.v20, State.v4, State.loopEval_loop, hflag F.lopLoCtlEn rfl,
    hflag F.lopLoCtlFaultDir rfl, hreg F.lopLoCtlMode (by decide), hreg F.lopLoFixedUa (by decide), hreg F.lopLoV4 (by decide),
    hreg F.lopLoV20 (by decide)]
  rfl

theorem State.loopUa_congr {s u : State} (n : Nat) (hregs : u.regs = s.regs) (hloops : u.loops = s.loops) : u.loopUa n = s.loopUa n := by
  simp only [State.loopUa, State.loopCause, State.mapped, State.flag, State.v20, State.v4, State.loop, reg_of_regs hregs, hloops]
  rfl

/-- The current of a loop that no source drives. -/
theorem State.loopUa_fixed (s : State) (n : Nat) (hen : s.flag F.lopLoCtlEn n = true) (hone : 1 ≤ s.reg F.lopLoCtlMode n)
    (hmode : s.reg F.lopLoCtlMode n ≤ 3) : s.loopUa n = if s.reg F.lopLoCtlMode n = 1 then clamp 3600 21000 (s.reg F.lopLoFixedUa n)
      else if s.reg F.lopLoCtlMode n = 2 then 3600 else 21000 := by
  unfold State.loopUa
  rw [hen]
  obtain h | h | h : s.reg F.lopLoCtlMode n = 1 ∨ s.reg F.lopLoCtlMode n = 2 ∨ s.reg F.lopLoCtlMode n = 3 := by omega
  all_goals simp only [h]; rfl

theorem State.loopWritten_evaluates (s old : State) (n : Nat) : ∃ w, s.loopWritten old n = w.loopEval n ∧ Only [.loops] s w := by
  unfold State.loopWritten State.loopFollow
  dsimp only
  split <;> split <;> exact ⟨_, rfl, by simp [only_iff]⟩

/-- What LOOP_SET writes. -/
def State.loopSet (s : State) (n mode uA : Nat) : State :=
  let s1 := s.setReg F.lopLoCtlMode n 0 mode
  let s1 := if mode = 1 then (s1.setReg F.lopLoFixedUa n 0 uA).kept s .lopLoFixed n else s1
  (s1.kept s .lopLoCtl n).loopWritten s n

theorem State.loopSet_does (s : State) (n mode uA : Nat) (hn : n < 4) (hmode : mode ≤ 3) (hfix : mode = 1 → uA ≤ 21000) :
    let u := s.loopSet n mode uA
    u.reg F.lopLoCtlMode n = mode ∧ (mode = 1 → u.reg F.lopLoFixedUa n = uA) ∧ (u.loop n).ua = u.loopUa n ∧
      u.flag F.lopLoCtlEn n = s.flag F.lopLoCtlEn n ∧ SessionsGrow s u ∧ u.fau = s.fau := by
  intro u
  have haddr : famAddr .lopLoCtl n 0 ≠ famAddr .lopLoFixed n 0 := by simp [famAddr, famInfo]
  have hctl : famAddr .lopLoCtl n 0 ≠ famAddr .lopCntFault 0 0 := by simp [famAddr, famInfo]; omega
  have hfixed : famAddr .lopLoFixed n 0 ≠ famAddr .lopCntFault 0 0 := by simp [famAddr, famInfo]; omega
  obtain ⟨v, hv, hmodev, huA, hen, hstw, hfau⟩ : ∃ v : State, u = v.loopWritten s n ∧ v.reg F.lopLoCtlMode n = mode ∧
      (mode = 1 → v.reg F.lopLoFixedUa n = uA) ∧ v.reg F.lopLoCtlEn n = s.reg F.lopLoCtlEn n ∧ v.stw = s.stw ∧ v.fau = s.fau := by
    have hreg (a : State) : ((a.kept s .lopLoCtl n 0).reg F.lopLoCtlMode n = a.reg F.lopLoCtlMode n ∧
        (a.kept s .lopLoCtl n 0).reg F.lopLoFixedUa n = a.reg F.lopLoFixedUa n ∧
        (a.kept s .lopLoCtl n 0).reg F.lopLoCtlEn n = a.reg F.lopLoCtlEn n) ∧ (a.kept s .lopLoCtl n 0).stw = a.stw ∧
        (a.kept s .lopLoCtl n 0).fau = a.fau := by simp [State.reg]
    set a := s.setReg F.lopLoCtlMode n 0 mode with ha
    have hamode : a.reg F.lopLoCtlMode n = mode := by
      rw [ha, State.reg_setReg_self _ _ _ _ _ (by decide) (by decide)]
      exact Nat.mod_eq_of_lt (Nat.lt_succ_of_le hmode)
    have haen : a.reg F.lopLoCtlEn n = s.reg F.lopLoCtlEn n := State.reg_setReg_apart _ _ _ _ _ _ rfl (by decide) (by decide) (by decide)
    by_cases h1 : mode = 1
    · set b := (a.setReg F.lopLoFixedUa n 0 uA).kept s .lopLoFixed n 0 with hb
      have hbregs : b.regs = (a.setReg F.lopLoFixedUa n 0 uA).regs := by simp [hb]
      have hbua : b.reg F.lopLoFixedUa n = uA := by
        rw [reg_of_regs hbregs, State.reg_setReg_self _ _ _ _ _ (by decide) (by decide)]
        exact Nat.mod_eq_of_lt ((hfix h1).trans_lt (by decide))
      have hbctl (x : FRef) (h : x.fam = .lopLoCtl) : b.reg x n = a.reg x n := by
        rw [reg_of_regs hbregs]
        exact State.reg_setReg_ne _ _ _ _ _ _ _ _ (h ▸ haddr)
      obtain ⟨⟨hm, hf, he⟩, hw, hu⟩ := hreg b
      exact ⟨b.kept s .lopLoCtl n 0, by simp only [u, State.loopSet, if_pos h1, hb, ha], hm.trans ((hbctl _ rfl).trans hamode),
        fun _ => hf.trans hbua, he.trans ((hbctl _ rfl).trans haen), by rw [hw]; simp [hb, ha], by rw [hu]; simp [hb, ha]⟩
    · obtain ⟨⟨hm, hf, he⟩, hw, hu⟩ := hreg a
      exact ⟨a.kept s .lopLoCtl n 0, by simp only [u, State.loopSet, if_neg h1, ha], hm.trans hamode, fun h => absurd h h1,
        he.trans haen, by rw [hw]; simp [ha], by rw [hu]; simp [ha]⟩
  obtain ⟨w, hw, honly⟩ := v.loopWritten_evaluates s n
  have hregs (x : FRef) (h : famAddr x.fam n 0 ≠ famAddr .lopCntFault 0 0) : u.reg x n = v.reg x n := by
    rw [hv, hw, State.loopEval_reg _ _ _ _ _ h]
    exact reg_of_regs (honly .regs (by decide)) _ _ _
  refine ⟨(hregs _ hctl).trans hmodev, fun h => (hregs _ hfixed).trans (huA h), ?_, ?_, ?_, ?_⟩
  · obtain ⟨hua, heq⟩ := w.loopEval_ua n hn
    rw [hv, hw, hua, heq]
  · rw [State.flag, State.flag, hregs _ hctl, hen]
  · rw [hv, hw]
    exact SessionsGrow.trans (.of_sess (by rw [honly .stw (by decide), hstw])) (w.loopEval_grows n)
  · rw [hv, hw, (w.loopEval_leaves n).2.2.2.2.2.2.2.2.2.1, honly .fau (by decide), hfau]

theorem State.serveLoopSet_sets (s : State) (f : Flight) (hlen : f.operand.length = 8) (hn : octet f.operand 0 < 4)
    (hmode : octet f.operand 1 ≤ 3) (hfix : octet f.operand 1 = 1 → 3600 ≤ beAt f.operand 4 4 ∧ beAt f.operand 4 4 ≤ 21000) :
    s.serveLoopSet f = (s.loopSet (octet f.operand 0) (octet f.operand 1) (beAt f.operand 4 4)).finish f false Status.ok [] := by
  unfold State.serveLoopSet
  dsimp only
  rw [if_neg (by omega), if_neg (by omega), if_neg fun h => by have := hfix h.1; omega]
  rfl

/-- What RESULTS answers for an entry: its result register, with the instant of its last output, or octets that nothing fixes. -/
def State.resultBytes (s : State) (e : Nat) (o : List Byte) : List Byte :=
  be 3 (s.reg F.cnvResValue e) ++ be 1 (s.reg F.cnvResQuality e) ++
    (if bit (s.reg F.cnvResQuality e) 7 then be 4 (s.chan e).epoch ++ be 8 (s.chan e).ns else o)

theorem State.serveResults_answers (s : State) (f : Flight) (hlen : f.operand.length = 2) (hone : 1 ≤ octet f.operand 1)
    (hlast : octet f.operand 0 + octet f.operand 1 ≤ 32) : s.serveResults f = s.finish f false Status.ok
      ((List.range (octet f.operand 1)).flatMap fun i => s.resultBytes (octet f.operand 0 + i) (s.open8s (12 * i) 12)) := by
  unfold State.serveResults
  dsimp only
  rw [if_neg (by omega), if_neg (by omega)]
  rfl

theorem State.resultBytes_length (s : State) (e : Nat) (o : List Byte) (ho : o.length = 12) : (s.resultBytes e o).length = 16 := by
  unfold State.resultBytes
  split <;> simp [ho]

theorem State.serveCurveInfo_answers (s : State) (f : Flight) {c unit req : Nat} {lo hi : Int} (hlen : f.operand.length = 1)
    (hc : c = octet f.operand 0) (hcurve : curveInfo c = some (unit, req, lo, hi)) : s.serveCurveInfo f = s.finish f false Status.ok
      (be 1 c ++ be 1 unit ++ be 1 req ++ s.open8s 940 1 ++ be 4 (twos 32 lo) ++ be 4 (twos 32 hi) ++ s.open8s 941 4) := by
  unfold State.serveCurveInfo
  dsimp only
  rw [if_neg (by omega), ← hc, hcurve]

/-- Settles O15. -/
theorem sensCommandsAreServed : Obligations.SensCommandsAreServed := by
  unfold Obligations.SensCommandsAreServed
  intro t at_ took m x s h hmax
  refine ⟨fun hlen hone hlast => ?_, fun n mode uA hlen hn hmode hua hn4 hmode3 hfix => ?_, fun c unit req lo hi hlen hc hcurve => ?_⟩
  · refine handled_mono (served_replies h 0x501 t (State.serveResults_answers _ _ hlen hone hlast) rfl ?_) fun v ⟨hans, honly⟩ =>
      ⟨⟨fun i => (taken s m 0x501 t x at_ took).open8s (12 * i) 12, fun i => by simp, ?_⟩, honly⟩
    · rw [length_flatMap_const _ _ 16 fun i => State.resultBytes_length _ _ _ (by simp), List.length_range]
      rw [flightOf_operand]
      omega
    · simpa [State.resultBytes, State.chan] using hans
  · refine served_does h 0x502 t (State.serveLoopSet_sets _ _ hlen (hn ▸ hn4) (hmode ▸ hmode3) (hmode ▸ hua ▸ hfix)) ?_
    obtain ⟨hm, hu, hua', hen, hgrow, hfau⟩ := (taken s m 0x502 t x at_ took).loopSet_does n mode uA hn4 hmode3 fun h => (hfix h).2
    have hserving := (served_serving h 0x502 t at_ took).goes hgrow (congrArg Fau.pairs hfau)
    have hans := hserving.answered s 0x502 t Status.ok [] (by simp; omega)
    rw [flightOf_operand, ← hn, ← hmode, ← hua]
    set u := (taken s m 0x502 t x at_ took).loopSet n mode uA
    have hdone := State.finish_only u (flightOf s m 0x502 t .waiting) false Status.ok [] false
    set v := u.finish (flightOf s m 0x502 t .waiting) false Status.ok []
    have hreg (y : FRef) (i : Nat) : v.reg y i = u.reg y i := reg_of_regs (hdone .regs (by decide)) _ _ _
    have hloop : v.loop n = u.loop n := by
      rw [State.loop, State.loop, show v.loops = u.loops from hdone .loops (by decide)]
    have hdrive : v.loopUa n = u.loopUa n := State.loopUa_congr n (hdone .regs (by decide)) (hdone .loops (by decide))
    refine ⟨hans, (hreg _ _).trans hm, fun h => (hreg _ _).trans (hu h), by rw [hloop, hdrive, hua'], fun hrun hone => ?_⟩
    rw [hloop, hua', State.loopUa_fixed _ _ (by rw [hen, taken_flag, hrun]) (hm ▸ hone) (hm ▸ hmode3), hm]
    by_cases h1 : mode = 1
    · rw [if_pos h1, if_pos h1, hu h1]
      have := hfix h1
      unfold clamp
      omega
    · rw [if_neg h1, if_neg h1]
  · exact handled_mono (served_replies h 0x503 t (State.serveCurveInfo_answers _ _ hlen hc hcurve) rfl (by simp; omega))
      fun v ⟨hans, honly⟩ => ⟨⟨_, _, by simp, by simp, hans⟩, honly⟩

/-! ## CAP and DIAG -/

theorem State.draw_lt (s : State) (k n : Nat) (hn : 0 < n) : s.draw k n < n := Nat.mod_lt _ hn

/-- The capture that CAP START begins. -/
def State.captureOf (s : State) (f : Flight) : Capture :=
  { source := octet f.operand 0, port := octet f.operand 1, slot := f.slot, gen := f.gen, stream := beAt f.operand 8 4,
    start := s.now + s.draw 998 1000, dur := beAt f.operand 4 4 * ms, sent := 0, gap := false }

/-- A source that captures, with a port it has. -/
def CaptureSource (o : List Byte) : Prop := octet o 0 = 1 ∧ octet o 1 < 24 ∨ octet o 0 = 2 ∧ octet o 1 < 16

theorem State.serveCapStart_starts (s : State) (f : Flight) {y : Session} (hlen : f.operand.length = 12) (hsrc : CaptureSource f.operand)
    (hown : ∀ c ∈ s.caps, capturesOf (octet f.operand 0) (octet f.operand 1) c = true → c.slot = f.slot ∧ c.gen = f.gen)
    (hy : s.sessOf f.slot f.gen = some y) : s.serveCapStart f =
      ({ s with caps := s.caps ++ [s.captureOf f] } : State).finish f false Status.ok
        (be 4 s.lin.epoch ++ be 8 (s.captureOf f).start) := by
  unfold CaptureSource at hsrc
  unfold State.serveCapStart
  dsimp only
  rw [if_neg (by omega), if_neg (by omega), if_neg ?_, hy]
  · rfl
  · simp only [List.any_eq_true, Bool.and_eq_true, Bool.not_eq_true', Bool.and_eq_false_iff, decide_eq_false_iff_not]
    rintro ⟨c, hc, hcap, hother⟩
    obtain ⟨hslot, hgen⟩ := hown c hc hcap
    exact hother.elim (· hslot) (· hgen)

theorem State.serveCapStart_locked (s : State) (f : Flight) {c : Capture} (hlen : f.operand.length = 12) (hsrc : CaptureSource f.operand)
    (hc : c ∈ s.caps) (hcap : capturesOf (octet f.operand 0) (octet f.operand 1) c = true) (hother : c.slot ≠ f.slot) :
    s.serveCapStart f = s.finish f false Status.lockedRunning [] := by
  unfold CaptureSource at hsrc
  unfold State.serveCapStart
  dsimp only
  rw [if_neg (by omega), if_neg (by omega), if_pos]
  exact List.any_eq_true.2 ⟨c, hc, by simp [hcap, hother]⟩

theorem State.serveCapStop_stops (s : State) (f : Flight) {c : Capture} (hlen : f.operand.length = 4)
    (hc : s.caps.find? (fun c => decide (c.slot = f.slot) && decide (c.gen = f.gen) && decide (c.stream = beAt f.operand 0 4)) = some c) :
    s.serveCapStop f =
      ({ s with caps := s.caps.filter fun d => decide (d ≠ c) } : State).finish f false Status.ok (be 4 c.sent) := by
  unfold State.serveCapStop
  rw [if_neg (by omega), hc]

theorem served_captures {s : State} {m : Inbound} {need : Nat} {x : Session} (h : Served s m need x) (opcode t at_ took : Nat)
    (l : List Capture) (o : List Byte) (hl : 16 + o.length ≤ x.maxmsg) :
    let v := ({ taken s m opcode t x at_ took with caps := l } : State).finish (flightOf s m opcode t .waiting) false Status.ok o
    v.caps = l ∧ Answered m opcode Status.ok o v ∧ Only [.stw, .eth, .caps] s v := by
  intro v
  have hserving := (served_serving h opcode t at_ took).goes (v := { taken s m opcode t x at_ took with caps := l }) (.of_sess rfl) rfl
  refine ⟨by simp [v], hserving.answered s opcode t Status.ok o hl, by simp [only_iff, v]⟩

/-- What DIAG MEMDESC says of a range, with two octets that nothing fixes. -/
def rangeBytes (r : MemRange) (o : List Byte) : List Byte :=
  be 8 r.base ++ be 4 (r.size / 1024) ++ be 1 r.kind ++ be 1 (if r.kind = 1 then 3 else if r.kind = 2 then 0 else 1) ++ o

theorem rangeBytes_length (r : MemRange) (o : List Byte) (ho : o.length = 2) : (rangeBytes r o).length = 16 := by
  simp [rangeBytes, ho]

theorem State.serveMemdesc_answers (s : State) (f : Flight) (hop : f.operand = []) : s.serveMemdesc f = s.finish f false Status.ok
    (be 2 s.mem.ranges.length ++ s.open8s 995 6 ++ s.mem.ranges.flatMap fun r => rangeBytes r (s.open8s (r.base / 1024) 2)) := by
  unfold State.serveMemdesc rangeBytes
  rw [hop, if_neg (by simp)]
  dsimp only
  congr 3
  funext r
  split <;> simp_all

theorem State.serveFaultLog_answers (s : State) (f : Flight) (hlen : f.operand.length = 6) (hone : 1 ≤ beAt f.operand 4 2)
    (hn : beAt f.operand 4 2 ≤ 255) (hfirst : s.lin.logNext ≤ beAt f.operand 0 4 + 32768) : s.serveFaultLog f =
      s.finish f false Status.ok ((List.range (beAt f.operand 4 2)).flatMap fun i => tget (zeros 32) s.lin.log (beAt f.operand 0 4 + i)) := by
  unfold State.serveFaultLog
  dsimp only
  rw [if_neg (by omega), if_neg (by omega)]

theorem State.serveEngine_answers (s : State) (f : Flight) (hlen : f.operand.length = 1) (hn : octet f.operand 0 < 64) :
    s.serveEngine f = s.finish f false Status.ok (be 1 (octet f.operand 0) ++ be 1 (match (s.eng (octet f.operand 0)).st with
      | .active => 0
      | .spare => 1
      | .selfTest => 2
      | .retired => 3) ++ be 2 (s.eng (octet f.operand 0)).load ++ be 1 (s.eng (octet f.operand 0)).replacedBy ++ s.open8s 992 3 ++
      be 4 (s.eng (octet f.operand 0)).faults ++ be 4 (s.eng (octet f.operand 0)).lastIndex) := by
  unfold State.serveEngine
  dsimp only
  rw [if_neg (by omega), if_neg (by omega)] <;> rfl

/-- Settles O18. -/
theorem captureAndDiagCommandsAreServed : Obligations.CaptureAndDiagCommandsAreServed := by
  unfold Obligations.CaptureAndDiagCommandsAreServed
  refine ⟨fun t at_ took m x s h hmax => ⟨fun hlen hsrc hown => ?_, fun c hc hlen hsrc hcap hother => ?_, fun c hlen hc => ?_⟩,
    fun t at_ took m x s h => ⟨fun hop hfit => ?_, fun first n hlen hfirst hn hone hcount hlog hnext => ?_, fun n hlen hn hlt hfit => ?_⟩⟩
  · have hsess : (taken s m 0x801 t x at_ took).sessOf m.slot m.gen = some (x.busyWith (max s.now t) m) :=
      State.sessOf_eq _ _ _ _ (taken_sess s m 0x801 t x at_ took) h.gen
    refine served_does h 0x801 t (State.serveCapStart_starts _ (flightOf s m 0x801 t .waiting) hlen hsrc (by simpa using hown) hsess) ?_
    obtain ⟨hcaps, hans, honly⟩ := served_captures h 0x801 t at_ took
      ((taken s m 0x801 t x at_ took).caps ++ [(taken s m 0x801 t x at_ took).captureOf (flightOf s m 0x801 t .waiting)])
      (be 4 (taken s m 0x801 t x at_ took).lin.epoch ++
        be 8 ((taken s m 0x801 t x at_ took).captureOf (flightOf s m 0x801 t .waiting)).start) (by simp; omega)
    have hdraw := (taken s m 0x801 t x at_ took).draw_lt 998 1000 (by decide)
    have hnow := taken_now s m 0x801 t x at_ took
    refine ⟨(taken s m 0x801 t x at_ took).captureOf (flightOf s m 0x801 t .waiting), by simp, rfl, rfl, rfl, rfl, rfl, rfl, rfl, rfl, ?_, ?_, by simpa using hans, honly⟩
    · simp only [State.captureOf, hnow]
      omega
    · simp only [State.captureOf, hnow, us]
      omega
  · exact served_replies h 0x801 t (State.serveCapStart_locked _ _ hlen hsrc (c := c) (by simpa using hc) hcap hother) rfl (by simp; omega)
  · refine served_does h 0x802 t (State.serveCapStop_stops _ _ (c := c) hlen (by simp only [taken_leaves]; exact hc)) ?_
    obtain ⟨hcaps, hans, honly⟩ := served_captures h 0x802 t at_ took
      ((taken s m 0x802 t x at_ took).caps.filter fun d => decide (d ≠ c)) (be 4 c.sent) (by simp; omega)
    refine ⟨hans, ?_, fun d hd => ?_, honly⟩
    · rw [hcaps]
      simp
    · rw [hcaps]
      simp [hd]
  · refine handled_mono (served_replies h 0x901 t (State.serveMemdesc_answers _ _ hop) rfl ?_) fun v ⟨hans, honly⟩ =>
      ⟨⟨(taken s m 0x901 t x at_ took).open8s 995 6, fun r => (taken s m 0x901 t x at_ took).open8s (r.base / 1024) 2,
        by simp, fun r => State.open8s_length _ _ _, ?_⟩, honly⟩
    · rw [List.length_append, List.length_append, length_flatMap_const _ _ 16 fun r => rangeBytes_length r _ (by simp)]
      simp
      omega
    · simp only [taken_leaves] at hans
      exact hans
  · intro hfit
    subst hfirst hn
    refine handled_mono (served_replies h 0x902 t (State.serveFaultLog_answers _ _ hlen hone hcount (by simpa using hlog)) rfl ?_)
      fun v ⟨hans, honly⟩ => ⟨by simpa using hans, honly⟩
    have hlen32 (l : List Nat) (hl : ∀ i ∈ l, i < beAt m.operand 4 2) :
        (l.flatMap fun i => tget (zeros 32) s.lin.log (beAt m.operand 0 4 + i)).length = 32 * l.length := by
      induction l with
      | nil => rfl
      | cons i l ih =>
        rw [List.flatMap_cons, List.length_append, hnext _ (hl i List.mem_cons_self), ih fun k hk => hl k (List.mem_cons_of_mem _ hk),
          List.length_cons]
        omega
    simp only [flightOf_operand, taken_leaves]
    rw [hlen32 _ fun i hi => List.mem_range.1 hi, List.length_range]
    exact hfit
  · subst hn
    refine handled_mono (served_replies h 0x903 t (State.serveEngine_answers _ _ hlen hlt) rfl (by simp; omega))
      fun v ⟨hans, honly⟩ => ⟨⟨(taken s m 0x903 t x at_ took).open8s 992 3, by simp, ?_⟩, honly⟩
    simp only [State.eng, taken_leaves] at hans
    exact hans

/-! ## CLU -/

/-- Every session stays open, with the events it holds. -/
def SessionsHold (s u : State) : Prop :=
  ∀ k x, tget? s.stw.sess k = some x →
    ∃ y, tget? u.stw.sess k = some y ∧ (y.gen = x.gen ∧ y.maxmsg = x.maxmsg) ∧ ∀ e ∈ x.events, e ∈ y.events

theorem SessionsHold.of_sess {s u : State} (e : u.stw.sess = s.stw.sess) : SessionsHold s u :=
  fun _ x h => ⟨x, e ▸ h, ⟨rfl, rfl⟩, fun _ he => he⟩

theorem SessionsHold.trans {s u v : State} (h : SessionsHold s u) (k : SessionsHold u v) : SessionsHold s v := by
  intro n x hx
  obtain ⟨y, hy, ⟨hgen, hmax⟩, he⟩ := h n x hx
  obtain ⟨z, hz, ⟨hgen', hmax'⟩, he'⟩ := k n y hy
  exact ⟨z, hz, ⟨hgen'.trans hgen, hmax'.trans hmax⟩, fun e hev => he' e (he e hev)⟩

theorem SessionsGrow.hold {s u : State} (h : SessionsGrow s u) : SessionsHold s u := by
  intro n x hx
  obtain ⟨y, hy, hxy⟩ := h n x hx
  exact ⟨y, hy, ⟨by rw [hxy.same], by rw [hxy.same]⟩, hxy.events⟩

/-- An event that has been raised stays so while the sessions hold what they have. -/
theorem raised_holds {s u v : State} {at_ code block inst : Nat} {data : List Byte} (h : Raised s u at_ code block inst data)
    (hhold : SessionsHold u v) : Raised s v at_ code block inst data := by
  intro hfw k x hx hg hroom
  obtain ⟨y, e, rest, hy, he, hseq, hbody⟩ := h hfw k x hx hg hroom
  obtain ⟨z, hz, -, hev⟩ := hhold k y hy
  exact ⟨z, e, rest, hz, hev e he, hseq, hbody⟩

theorem Serving.holds {m : Inbound} {x : Session} {u v : State} (h : Serving m x u) (hhold : SessionsHold u v)
    (hpair : v.fau.pairs = u.fau.pairs) : Serving m x v where
  session := by
    obtain ⟨y, hy, hgen, hmax⟩ := h.session
    obtain ⟨z, hz, ⟨hgen', hmax'⟩, -⟩ := hhold _ _ hy
    exact ⟨z, hz, hgen'.trans hgen, hmax'.trans hmax⟩
  pair := by simpa [State.pairActive, hpair] using h.pair

theorem State.sessOf_found {s : State} {k g : Nat} {x : Session} (h : s.sessOf k g = some x) : tget? s.stw.sess k = some x ∧ x.gen = g := by
  unfold State.sessOf at h
  split at h
  next y hy =>
    split at h
    next hg =>
      obtain rfl := Option.some.inj h
      exact ⟨hy, hg⟩
    next => simp at h
  next => simp at h

theorem State.answer_holds (s : State) (f : Flight) (d : Bool) (status : Nat) (o : List Byte) (e : Bool) :
    SessionsHold s (s.answer f d status o e) := by
  unfold State.answer
  extract_lets w v u
  split
  next => exact .of_sess rfl
  next x hx =>
    intro n y hy
    have hfound : tget? s.stw.sess f.slot = some x := (State.sessOf_found hx).1
    dsimp only
    by_cases hn : n = f.slot
    · subst hn
      obtain rfl : x = y := Option.some.inj (hfound.symm.trans hy)
      have hqueue (v : State) (g : Frame) : (v.queueFrame f.port 2 false g).stw = v.stw := by simp
      exact ⟨_, (congrArg (fun w : Stw => tget? w.sess f.slot) (hqueue _ _)).trans (tget?_tset_self _ _ _), ⟨rfl, rfl⟩, fun _ he => he⟩
    · exact ⟨y, by simpa [tget?_tset, hn, u, v, w, Stw.reap] using hy, ⟨rfl, rfl⟩, fun _ he => he⟩

theorem State.finishRef_sessions (s : State) (ref status : Nat) (o : List Byte) : SessionsHold s (s.finishRef ref status o) := by
  unfold State.finishRef
  split
  · unfold State.finish
    split
    · exact .of_sess rfl
    · exact s.answer_holds _ _ _ _ _
  · exact .of_sess rfl

theorem State.dropWaits_sessions (s : State) : SessionsHold s s.dropWaits := by
  unfold State.dropWaits
  refine SessionsHold.trans (.of_sess rfl) (foldl_keeps (SessionsHold (s.setSea { s.sea with mwaits := [] })) _ (fun u w hu => ?_) _ _ (.of_sess rfl))
  split
  · exact hu.trans (u.finishRef_sessions _ _ _)
  · exact hu

/-- A seam message sent changes nothing of the cluster's state but its sequence. -/
theorem State.sendTo_sea (s : State) (station typ : Nat) (body : List Byte) : ∃ q, (s.sendTo station typ body).sea = { s.sea with seq := q } := by
  have hnext (u : State) (h : u.sea = s.nextSeq.sea) : ∃ q, u.sea = { s.sea with seq := q } := ⟨_, h⟩
  unfold State.sendTo
  split; · exact ⟨s.sea.seq, rfl⟩
  dsimp only
  split; · exact ⟨s.sea.seq, rfl⟩
  split; · exact ⟨s.sea.seq, rfl⟩
  refine hnext _ ?_
  (repeat' split) <;> simp

theorem State.sendTo_does (s : State) (station typ : Nat) (body : List Byte) : ∃ q, (s.sendTo station typ body).sea = { s.sea with seq := q } ∧
    SessionsHold s (s.sendTo station typ body) := by
  obtain ⟨q, hq⟩ := s.sendTo_sea station typ body
  exact ⟨q, hq, .of_sess (by simp)⟩

theorem State.dropWaits_sea (s : State) : s.dropWaits.sea = { s.sea with mwaits := [] } := by
  refine foldl_keeps (fun u : State => u.sea = { s.sea with mwaits := [] }) _ (fun u w hu => ?_) _ _ rfl
  split
  · simpa using hu
  · exact hu

/-- Where a station's role changes, all else it knows of the cluster goes on but what it no longer holds as manager. -/
theorem State.toRole_does (s : State) (role reason : Nat) : SessionsHold s (s.toRole role reason) ∧
    ∃ valid waits, (s.toRole role reason).sea = { s.sea with role := role, entered := s.now, valid := valid, mwaits := waits } := by
  unfold State.toRole
  dsimp only
  constructor
  · refine SessionsHold.trans ?_ (State.raise_grows _ _ _ _ _).hold
    refine SessionsHold.trans ?_ (.of_sess rfl)
    split
    · refine SessionsHold.trans ?_ (State.dropWaits_sessions _)
      exact .of_sess rfl
    · exact .of_sess rfl
  · split
    · refine ⟨s.sea.fresh s.now, [], ?_⟩
      simp [State.dropWaits_sea]
    · exact ⟨s.sea.valid, s.sea.mwaits, by simp⟩

theorem State.seaLeave_does (s : State) (h : s.sea.role ≠ 0) :
    (s.seaLeave.sea.role = 0 ∧ s.seaLeave.sea.follow = none ∧ s.seaLeave.sea.deputy = none ∧ s.seaLeave.sea.list = []) ∧
      SessionsHold s s.seaLeave ∧ s.seaLeave.fau = s.fau := by
  refine ⟨?_, ?_, by simp⟩
  · unfold State.seaLeave
    rw [if_neg h]
    dsimp only
    obtain ⟨-, valid, waits, hsea⟩ := State.toRole_does (s.sendLeave.setSea _) 0 6
    rw [hsea]
    exact ⟨rfl, rfl, rfl, rfl⟩
  · unfold State.seaLeave
    rw [if_neg h]
    refine SessionsHold.trans ?_ (State.toRole_does _ _ _).1
    exact .of_sess (by simp)

theorem State.serveRegPut_puts (s : State) (f : Flight) {old : RegEntry} (hlen : f.operand.length = 32) (hrole : s.sea.role = 6)
    (hkind : (Machine.entryOf f.operand).2.kind = 1 ∨ (Machine.entryOf f.operand).2.kind = 2)
    (hold : tget? s.sea.registry (Machine.entryOf f.operand).1 = some old) :
    let e := Machine.entryOf f.operand
    let u := s.regChange e.1 { old with kind := e.2.kind, flags := e.2.flags, key := e.2.key }
    s.serveRegPut f = (u.setFlight { f with stage := .waiting }).whenMirrored u.sea.change (.put f.ref) := by
  intro e u
  unfold State.serveRegPut
  dsimp only
  rw [if_neg (by omega), if_neg (by omega), if_neg (by omega), if_neg (by simp [State.regFull, hold]), hold]
  rfl

theorem State.serveCluStatus_answers (s : State) (f : Flight) (hop : f.operand = []) : s.serveCluStatus f = s.finish f false Status.ok
    (be 1 s.sea.role ++ s.open8s 960 1 ++ be 2 s.station ++ be 2 (orNone s.managerOf) ++ be 2 (orNone s.sea.deputy) ++
      be 4 (if s.managerOf.isSome then s.sea.cepoch else 0)) := by
  unfold State.serveCluStatus
  rw [if_neg (by simp [hop])]

theorem State.serveRegGet_refuses (s : State) (f : Flight) (hlen : f.operand.length = 8) (hrole : s.sea.role ≠ 6) :
    s.serveRegGet f = s.finish f false Status.notManager [] := by
  unfold State.serveRegGet
  rw [if_neg (by omega), if_pos hrole]

theorem State.serveRegGet_answers (s : State) (f : Flight) {e : RegEntry} (hlen : f.operand.length = 8) (hrole : s.sea.role = 6)
    (he : tget? s.sea.registry (beAt f.operand 0 8) = some e) :
    s.serveRegGet f = s.finish f false Status.ok (entryBytes (beAt f.operand 0 8) e (s.open8s 960 1)) := by
  unfold State.serveRegGet
  dsimp only
  rw [if_neg (by omega), if_neg (by omega), he]

/-- The station's own entry in the list of a manager's stations. -/
def State.ownStation (s : State) : Station :=
  { role := 6, prio := s.prio, mac0 := s.macOf 0, mac1 := s.macOf 1, heard := s.now, addrs := [] }

/-- What CLU STATIONS answers of the stations from a number on: where the list goes on, and those that fit the count. -/
def State.stationsFrom (s : State) (first n : Nat) : Tab Station :=
  ((tset s.sea.list s.station s.ownStation).filter fun e => decide (first ≤ e.1)).take n

theorem State.serveStations_answers (s : State) (f : Flight) (hlen : f.operand.length = 4) (hrole : s.sea.role = 6)
    (hone : 1 ≤ beAt f.operand 2 2) (hn : beAt f.operand 2 2 ≤ 511) : ∃ next, s.serveStations f = s.finish f false Status.ok
      (be 2 next ++ s.open8s 960 2 ++ (s.stationsFrom (beAt f.operand 0 2) (beAt f.operand 2 2)).flatMap fun e => stationBody e.1 e.2) := by
  unfold State.serveStations
  dsimp only
  rw [if_neg (by omega), if_neg (by omega)]
  exact ⟨_, rfl⟩

theorem State.serveCluLeave_ends (s : State) (f : Flight) (hop : f.operand = []) :
    s.serveCluLeave f = s.seaLeave.finish f false Status.ok [] := by
  unfold State.serveCluLeave
  rw [if_neg (by simp [hop])]

/-- A change of the registry, sent to the deputy where there is one. -/
theorem State.regChange_does (s : State) (ext : Nat) (e : RegEntry) (hkind : e.kind ≠ 0) :
    let u := s.regChange ext e
    u.sea.registry = tset s.sea.registry ext e ∧ u.sea.change = s.sea.change + 1 ∧ u.sea.synced = s.sea.synced ∧
      (s.sea.deputy = none → u.sea.mirrors = s.sea.mirrors) ∧
      (∀ d, s.sea.deputy = some d → ∃ i ∈ u.sea.mirrors, i.num = s.sea.change + 1 ∧ i.ext = ext) := by
  intro u
  have hput : putEntry s.sea.registry ext e = tset s.sea.registry ext e := if_neg hkind
  simp only [u, State.regChange, State.setSea, hput]
  cases hd : s.sea.deputy with
  | none => simp
  | some d =>
    dsimp only
    obtain ⟨q, hq⟩ := State.sendTo_sea _ d 7 _
    rw [hq]
    simp

theorem State.whenMirrored_sea (s : State) (n ref : Nat) : ∃ l, (s.whenMirrored n (.put ref)).sea = { s.sea with mwaits := l } := by
  unfold State.whenMirrored
  split
  · exact ⟨_, rfl⟩
  · exact ⟨s.sea.mwaits, by simp [State.releaseWait]⟩

theorem State.setFlight_found (s : State) (f : Flight) (ref : Nat) :
    (s.setFlight f).flight? ref = (s.flight? ref).map fun g => if g.ref = f.ref then f else g := by
  simp only [State.flight?, State.setFlight, List.find?_map]
  congr 2
  funext g
  simp only [Function.comp]
  split
  next h => rw [h]
  next => rfl

/-- The command that the steward has taken is found by its number. -/
theorem served_flight {s : State} {m : Inbound} {need : Nat} {x : Session} (h : Served s m need x) (opcode t at_ took : Nat) :
    (taken s m opcode t x at_ took).flight? s.stw.nextRef = some (flightOf s m opcode t .waiting) := by
  have hnew : s.stw.flights.find? (fun f => decide (f.ref = s.stw.nextRef)) = none := by
    simp only [List.find?_eq_none, decide_eq_true_eq]
    exact fun f hf => Nat.ne_of_lt (h.refs f hf)
  have hfound : (entered s m opcode t x .queued).flight? s.stw.nextRef = some (flightOf s m opcode t .queued) := by
    rw [State.flight?, entered_flights, List.find?_append, hnew]
    simp [flightOf]
  unfold taken
  rw [State.setFlight_found]
  refine (congrArg _ hfound).trans ?_
  simp [flightOf]

/-- Settles O17. -/
theorem clusterCommandsAreServed : Obligations.ClusterCommandsAreServed := by
  unfold Obligations.ClusterCommandsAreServed
  intro t at_ took m x s h hmax
  refine ⟨fun hop => ?_, fun hlen hrole => ?_, fun e hlen hrole he => ?_, fun e old hlen hrole he hkind hold => ?_,
    fun n hlen hrole hn hone hcount => ?_, fun hop hrole => ?_⟩
  · refine handled_mono (served_replies h 0x701 t (State.serveCluStatus_answers _ _ hop) rfl (by simp; omega)) fun v ⟨hans, honly⟩ =>
      ⟨⟨(taken s m 0x701 t x at_ took).open8s 960 1, by simp, ?_⟩, honly⟩
    simp only [State.managerOf, State.station, taken_leaves, taken_reg] at hans
    exact hans
  · exact served_replies h 0x702 t (State.serveRegGet_refuses _ _ hlen (by simpa using hrole)) rfl (by simp; omega)
  · exact handled_mono (served_replies h 0x702 t (State.serveRegGet_answers _ _ (e := e) hlen (by simpa using hrole) (by simpa using he)) rfl
      (by simp [entryBytes]; omega)) fun v ⟨hans, honly⟩ => ⟨⟨(taken s m 0x702 t x at_ took).open8s 960 1, by simp, hans⟩, honly⟩
  · refine served_does h 0x703 t (State.serveRegPut_puts _ (flightOf s m 0x703 t .waiting) (old := old) hlen (by simpa using hrole)
      (by simpa [he] using hkind) (by simpa [he] using hold)) ?_
    set f := flightOf s m 0x703 t .waiting with hf
    set v := taken s m 0x703 t x at_ took with hv
    have hop : Machine.entryOf f.operand = e := he
    rw [hop]
    set put : RegEntry := { old with kind := e.2.kind, flags := e.2.flags, key := e.2.key }
    have hne : put.kind ≠ 0 := by
      show e.2.kind ≠ 0
      omega
    obtain ⟨hreg, hchange, hsynced, hnone, hsome⟩ := v.regChange_does e.1 put hne
    set u := v.regChange e.1 put with hu
    have hvsea : v.sea = s.sea := by simp [hv]
    rw [hvsea] at hreg hchange hsynced hnone hsome
    have hfound : (u.setFlight { f with stage := .waiting }).flight? f.ref = some f := by
      rw [State.setFlight_found, State.flight?, show u.stw = v.stw by simp [hu]]
      refine (congrArg _ (served_flight h 0x703 t at_ took)).trans ?_
      simp [hf, flightOf]
    have hserving : Serving m x (u.setFlight { f with stage := .waiting }) :=
      (served_serving h 0x703 t at_ took).holds (.of_sess (by simp [hu, hv])) (by simp [hu, hv])
    have honly : Only [.stw, .eth, .sea] s ((u.setFlight { f with stage := .waiting }).whenMirrored u.sea.change (.put f.ref)) := by
      simp [only_iff, hu, hv]
    obtain ⟨l, hl⟩ := (u.setFlight { f with stage := .waiting }).whenMirrored_sea u.sea.change f.ref
    have hsea : (u.setFlight { f with stage := .waiting }).sea = u.sea := rfl
    refine ⟨?_, fun k hk => ?_, ?_, fun hd hm => ?_, fun d hd hs => ?_, honly⟩
    · rw [hl, hsea, hreg, tget?_tset_self]
    · rw [hl, hsea, hreg, tget?_tset, if_neg hk]
    · rw [hl, hsea, hchange]
    · unfold State.whenMirrored
      rw [if_neg (by simp [hnone hd, hm]), State.releaseWait, State.finishRef, hfound]
      exact hserving.answered s 0x703 t Status.ok [] (by simp; omega)
    · obtain ⟨i, hi, hnum, hext⟩ := hsome d hd
      have hany : (u.sea.mirrors.any fun x => decide (x.num = u.sea.change)) = true :=
        List.any_eq_true.2 ⟨i, hi, by simp [hnum, hchange]⟩
      refine ⟨?_, i, by rw [hl]; exact hi, hnum, hext⟩
      unfold State.whenMirrored
      rw [if_pos (by simp only [hsea, hsynced, hs, hany, Bool.and_self])]
      simp [hchange, hf, flightOf]
  · subst hn
    obtain ⟨next, hnext⟩ := State.serveStations_answers (taken s m 0x704 t x at_ took) (flightOf s m 0x704 t .waiting) hlen
      (by simpa using hrole) hone (by simpa using hcount.trans (by decide))
    refine handled_mono (served_replies h 0x704 t hnext rfl ?_) fun v ⟨hans, honly⟩ =>
      ⟨⟨(taken s m 0x704 t x at_ took).open8s 960 2, next, (taken s m 0x704 t x at_ took).ownStation, by simp, rfl, ?_, ?_, ?_, ?_⟩, honly⟩
    · rw [List.length_append, List.length_append, length_flatMap_const _ _ 16 fun e => by simp [stationBody]]
      have hfew : ((taken s m 0x704 t x at_ took).stationsFrom (beAt m.operand 0 2) (beAt m.operand 2 2)).length ≤ beAt m.operand 2 2 :=
        (List.length_take_le _ _)
      simp
      omega
    · simp [State.ownStation, State.prio]
    · simp [State.ownStation, State.macOf]
    · simp [State.ownStation, State.macOf]
    · have hsea : (taken s m 0x704 t x at_ took).sea = s.sea := by simp
      rw [State.stationsFrom, State.station, taken_reg, hsea] at hans
      exact hans
  · refine served_does h 0x705 t (State.serveCluLeave_ends _ _ hop) ?_
    obtain ⟨⟨hr, hf, hd, hl⟩, hhold, hfau⟩ := (taken s m 0x705 t x at_ took).seaLeave_does (by simpa using hrole)
    have hserving := (served_serving h 0x705 t at_ took).holds hhold (congrArg Fau.pairs hfau)
    exact ⟨by simpa using hr, by simpa using hf, by simpa using hd, by simpa using hl,
      hserving.answered s 0x705 t Status.ok [] (by simp; omega)⟩

/-! ## A cipher job offered -/

theorem State.takeCounter_jobs (s : State) (slot : Nat) : (s.takeCounter slot).1.cip.jobs = s.cip.jobs := by
  unfold State.takeCounter
  dsimp only
  (repeat' split) <;> simp

/-- The nonce decided on for a job changes nothing that the job was asked for. -/
theorem State.nonceJob_job (s : State) (j : Job) : (s.nonceJob j).1.cip.jobs = s.cip.jobs ∧ (s.nonceJob j).2.desc = j.desc ∧
    (s.nonceJob j).2.own = j.own ∧ (s.nonceJob j).2.use = j.use := by
  unfold State.nonceJob
  split
  next k hk =>
    split
    · have h := s.takeCounter_jobs (slotOf k.handle)
      split <;> simp_all
    · simp
  next => simp

theorem State.submitJob_job (s : State) (d : List Byte) (ring : Option Nat) (own : Option (List Byte)) (use : JobUse) :
    ∃ j, (s.submitJob d ring own use).cip.jobs = s.cip.jobs ++ [j] ∧ j.desc = d ∧ j.own = own ∧ j.use = use := by
  unfold State.submitJob
  extract_lets host bad nonce j
  obtain ⟨hjobs, hdesc, hown, huse⟩ := ({ s with cip := s.cip.used j.key } : State).nonceJob_job j
  have hused : (s.cip.used j.key).jobs = s.cip.jobs := by
    unfold Cip.used
    (repeat' split) <;> simp
  dsimp only
  exact ⟨_, by rw [hjobs, hused], hdesc, hown, huse⟩

/-- A job offered is accepted, or waits. -/
theorem State.offerJob_offered (s : State) (w : JobWait) : Offered w (s.offerJob w) := by
  unfold State.offerJob
  split
  · obtain ⟨j, hjobs, hdesc, hown, huse⟩ := s.submitJob_job w.desc none w.own w.use
    exact Or.inl ⟨j, by rw [hjobs]; simp, hdesc, hown, huse⟩
  · exact Or.inr (by simp)

/-! ## KEY -/

theorem State.serveKeyLoad_offers (s : State) (f : Flight) (hlen : f.operand.length = 52) (hroot : s.cip.root.isSome = true)
    (hne : beAt f.operand 0 4 ≠ 0) : s.serveKeyLoad f =
      (s.setFlight { f with stage := .waiting }).offerJob (unwrapJob (f.operand.drop 4) (.unwrap f.ref (beAt f.operand 0 4))) := by
  unfold State.serveKeyLoad
  dsimp only
  rw [if_neg (by omega), if_neg (by simp [Option.isSome_iff_ne_none.1 hroot]), if_neg hne]

theorem State.serveKeyLoad_refuses (s : State) (f : Flight) (hlen : f.operand.length = 52) (hroot : s.cip.root = none) :
    s.serveKeyLoad f = s.finish f false Status.keyErased [] := by
  unfold State.serveKeyLoad
  rw [if_neg (by omega), if_pos (by simp [hroot])]

theorem State.serveKeyDelete_deletes (s : State) (f : Flight) {k : KeyRec} (hlen : f.operand.length = 4)
    (hk : s.keyFor (beAt f.operand 0 4) = some k) :
    let slot := slotOf (beAt f.operand 0 4)
    s.serveKeyDelete f = (({ s with cip := { s.cip with cache := tdel s.cip.cache slot, dram := tdel s.cip.dram slot } } : State).linWrite
      (.key slot none false)).finish f false Status.ok [] := by
  intro slot
  unfold State.serveKeyDelete
  dsimp only
  rw [if_neg (by omega), hk]

theorem State.serveKeyStatus_answers (s : State) (f : Flight) (hlen : f.operand.length = 4) :
    s.serveKeyStatus f = s.finish f false Status.ok
      (be 4 (if s.keyState (beAt f.operand 0 4) = 0 then 0 else s.counter (slotOf (beAt f.operand 0 4))) ++
        be 4 (tget 0 s.lin.nonces (slotOf (beAt f.operand 0 4))) ++ be 1 (s.keyState (beAt f.operand 0 4)) ++ s.open8s 940 3) := by
  unfold State.serveKeyStatus
  rw [if_neg (by omega)]

/-- The secure cells that a provisioning blob writes. -/
def cellsOf (p : List Byte) : Cells := { root := some (p.drop 8), rootId := beAt p 4 4, station := beAt p 0 2, mark := false }

theorem State.serveRootProvision_provisions (s : State) (f : Flight) {p : List Byte} (hlen : f.operand.length = 52)
    (hpresent : s.cip.present = []) (hroot : s.cip.root = none) (hp : kwUnwrap s.cip.otp (f.operand.drop 4) = some p)
    (hstation : beAt p 0 2 = beAt f.operand 0 2) (hzero : beAt p 2 2 = 0) : s.serveRootProvision f =
      (({ s with cip := { s.cip with root := some (p.drop 8), erasing := false } } : State).setFlight { f with stage := .waiting }).linWrite
        (.cells (cellsOf p)) (some f.ref) := by
  unfold State.serveRootProvision
  rw [if_neg (by omega), if_neg (by simp [hpresent]), hp]
  dsimp only
  rw [if_neg (by simp [hstation, hzero]), hroot]
  rfl

theorem State.serveKeyAlarm_alarms (s : State) (f : Flight) (hlen : f.operand.length = 4) (hw : beAt f.operand 0 4 = 0xA1A40000) :
    s.serveKeyAlarm f = (s.alarm 5 0 false).finish f false Status.ok [] := by
  unfold State.serveKeyAlarm
  rw [if_neg (by omega), if_neg (not_not.2 hw)]

theorem State.serveKeyAlarm_refuses (s : State) (f : Flight) (hlen : f.operand.length = 4) (hw : beAt f.operand 0 4 ≠ 0xA1A40000) :
    s.serveKeyAlarm f = s.finish f false Status.badOpcode [] := by
  unfold State.serveKeyAlarm
  rw [if_neg (by omega), if_pos hw]

/-! ## An alarm -/

theorem State.finishRef_flights (s : State) (ref status : Nat) (o : List Byte) :
    (∀ f ∈ (s.finishRef ref status o).stw.flights, ∃ g ∈ s.stw.flights, g.ref = f.ref) ∧
      (s.pairActive = true → ∀ f ∈ (s.finishRef ref status o).stw.flights, f.ref ≠ ref) := by
  have hgone (f : Flight) (hf : f.ref = ref) : ∀ g ∈ (s.answer f false status o).stw.flights, g ∈ s.stw.flights ∧ g.ref ≠ ref := by
    have hflights : (s.answer f false status o).stw.flights = s.stw.flights.filter fun g => decide (g.ref ≠ f.ref) := by
      unfold State.answer
      dsimp only
      split <;> simp [Stw.reap]
    intro g hg
    rw [hflights, List.mem_filter, decide_eq_true_eq, hf] at hg
    exact hg
  unfold State.finishRef
  split
  next f hf =>
    have href : f.ref = ref := by simpa using List.find?_some hf
    unfold State.finish
    split
    next hno =>
      refine ⟨fun g hg => ?_, fun hpair => by simp [hpair] at hno⟩
      simp only [State.recordFinal, State.setFlight, List.mem_map] at hg
      obtain ⟨a, ha, rfl⟩ := hg
      refine ⟨a, ha, ?_⟩
      split <;> simp_all
    next => exact ⟨fun g hg => ⟨g, (hgone f href g hg).1, rfl⟩, fun _ g hg => (hgone f href g hg).2⟩
  next hnone =>
    refine ⟨fun g hg => ⟨g, hg, rfl⟩, fun _ g hg hr => ?_⟩
    have := List.find?_eq_none.1 hnone g hg
    simp [hr] at this

/-- Commands whose record an erasure overtakes, answered one after the other. -/
def State.dropWrites (s : State) (l : List LinWrite) : State :=
  l.foldl (fun s w => match w.ref with
    | some ref => s.finishRef ref Status.keyErased []
    | none => s) s

theorem State.dropErased_eq (s : State) : s.dropErased =
    ({ s with lin := { s.lin with writes := s.lin.writes.filter fun w => !w.what.erased } } : State).dropWrites
      (s.lin.writes.filter fun w => w.what.erased) := rfl

theorem State.dropWrites_does (s : State) (l : List LinWrite) :
    Only [.stw, .eth] s (s.dropWrites l) ∧ SessionsHold s (s.dropWrites l) ∧
      (∀ f ∈ (s.dropWrites l).stw.flights, ∃ g ∈ s.stw.flights, g.ref = f.ref) ∧
      (s.pairActive = true → ∀ w ∈ l, ∀ r, w.ref = some r → ∀ f ∈ (s.dropWrites l).stw.flights, f.ref ≠ r) := by
  induction l generalizing s with
  | nil => exact ⟨only_refl _ _, .of_sess rfl, fun f hf => ⟨f, hf, rfl⟩, fun _ w hw => absurd hw List.not_mem_nil⟩
  | cons w l ih =>
    have hstep : s.dropWrites (w :: l) = State.dropWrites (match w.ref with
        | some ref => s.finishRef ref Status.keyErased []
        | none => s) l := rfl
    rw [hstep]
    cases hw : w.ref with
    | none =>
      obtain ⟨honly, hhold, hsub, hgone⟩ := ih s
      refine ⟨honly, hhold, hsub, fun hp v hv r hr => ?_⟩
      rcases List.mem_cons.1 hv with rfl | hv
      · simp [hw] at hr
      · exact hgone hp v hv r hr
    | some ref =>
      dsimp only
      obtain ⟨honly, hhold, hsub, hgone⟩ := ih (s.finishRef ref Status.keyErased [])
      obtain ⟨hsub', hgone'⟩ := s.finishRef_flights ref Status.keyErased []
      have hfirst : Only [.stw, .eth] s (s.finishRef ref Status.keyErased []) := by simp [only_iff]
      have hpairs : (s.finishRef ref Status.keyErased []).pairActive = s.pairActive := by simp [State.pairActive]
      refine ⟨only_mono (hfirst.trans honly) (by simp), (s.finishRef_sessions _ _ _).trans hhold, fun f hf => ?_, fun hp v hv r hr f hf => ?_⟩
      · obtain ⟨g, hg, hgf⟩ := hsub f hf
        obtain ⟨k, hk, hkg⟩ := hsub' g hg
        exact ⟨k, hk, hkg.trans hgf⟩
      · rcases List.mem_cons.1 hv with rfl | hv
        · obtain rfl : ref = r := Option.some.inj (hw.symm.trans hr)
          obtain ⟨g, hg, hgf⟩ := hsub f hf
          exact hgf ▸ hgone' hp g hg
        · exact hgone (hpairs.trans hp) v hv r hr f hf

/-- What an alarm leaves: no key, and of the lining no cells and no record that held one. -/
structure Erased (s u : State) (source detail : Nat) (stays : Bool) : Prop where
  cip : u.cip = { s.cip with
    root := none
    gone := s.cip.gone ++ s.heldKeys.map (fun e => e.2.handle)
    cache := []
    erasing := true
    clearDue := true
    lastSource := source
    present := if stays && !s.cip.present.contains source then s.cip.present ++ [source] else s.cip.present
    jobs := eraseJobs s.cip.jobs }
  lin : u.lin = { s.lin with
    cells := { root := none, rootId := 0, station := 0xFFFF, mark := true }
    writes := s.lin.writes.filter fun w => !w.what.erased }
  dropped : s.pairActive = true → ∀ w ∈ s.lin.writes, ∀ r, w.what.erased = true → w.ref = some r → ∀ f ∈ u.stw.flights, f.ref ≠ r
  counted : u.reg F.cipCntAlarm = min (s.reg F.cipCntAlarm + 1) 0xFFFFFFFF
  logged : LogRoom s → Logged u 0x70 0x40 0 1 10 255
  raised : Raised s u s.now 0x301 0x40 0 (be 1 source ++ be 1 detail ++ be 2 (min s.heldKeys.length 0xFFFF))
  pairs : u.fau.pairs = s.fau.pairs
  held : SessionsHold s u
  only : Only [.cip, .lin, .regs, .fau, .stw, .eth] s u

@[simp] theorem State.logFault_pairs (s : State) (kind block inst outcome detect target ctxs interrupt detail : Nat) (e : Option Nat) :
    (s.logFault kind block inst outcome detect target ctxs interrupt detail e).fau.pairs = s.fau.pairs := by
  unfold State.logFault State.logFaultAt
  split <;> simp

/-- The keys gone, and the alarm counted. -/
def State.keysGone (s : State) (source : Nat) (stays : Bool) : State :=
  ({ s with
     cip := { s.cip with
       root := none
       gone := s.cip.gone ++ s.heldKeys.map (fun e => e.2.handle)
       cache := []
       erasing := true
       clearDue := true
       lastSource := source
       present := if stays && !s.cip.present.contains source then s.cip.present ++ [source] else s.cip.present
       jobs := eraseJobs s.cip.jobs }
     lin := { s.lin with cells := { root := none, rootId := 0, station := 0xFFFF, mark := true } } } : State).bump F.cipCntAlarm

/-- The alarm before the commands that its erasure overtakes are answered. -/
def State.alarmed (s : State) (source detail : Nat) (stays : Bool) : State :=
  let u := s.keysGone source stays
  ((u.logFault 0x70 0x40 0 1 10 255 0 0 0).bump F.fauCntUnmasked).raise 0x301 0x40 0
    (be 1 source ++ be 1 detail ++ be 2 (min s.heldKeys.length 0xFFFF) ++ be 4 u.logIndex)

theorem State.alarm_eq (s : State) (source detail : Nat) (stays : Bool) : s.alarm source detail stays = (s.alarmed source detail stays).dropErased :=
  rfl

theorem State.alarmed_grows (s : State) (source detail : Nat) (stays : Bool) : SessionsGrow s (s.alarmed source detail stays) := by
  unfold State.alarmed
  refine SessionsGrow.trans ?_ (State.raise_grows _ _ _ _ _)
  exact .of_sess (by simp [State.keysGone])

theorem State.alarm_erases (s : State) (source detail : Nat) (stays : Bool) : Erased s (s.alarm source detail stays) source detail stays := by
  rw [State.alarm_eq, State.dropErased_eq]
  have hgrow := s.alarmed_grows source detail stays
  set v := s.alarmed source detail stays with hv
  have hlin : v.lin = { s.lin with cells := { root := none, rootId := 0, station := 0xFFFF, mark := true } } := by
    simp [hv, State.alarmed, State.keysGone]
  have hpair : v.pairActive = s.pairActive := by simp [State.pairActive, hv, State.alarmed, State.keysGone]
  set w : State := { v with lin := { v.lin with writes := v.lin.writes.filter fun w => !w.what.erased } } with hw
  obtain ⟨honly, hhold, -, hgone⟩ := w.dropWrites_does (v.lin.writes.filter fun w => w.what.erased)
  have hregs : (w.dropWrites (v.lin.writes.filter fun w => w.what.erased)).regs = v.regs := honly .regs (by decide)
  have hfau : (w.dropWrites (v.lin.writes.filter fun w => w.what.erased)).fau = v.fau := honly .fau (by decide)
  have hvw : SessionsHold v w := .of_sess rfl
  refine ⟨?_, ?_, fun hp x hx r hr href => ?_, ?_, fun hroom => ?_, ?_, ?_, hgrow.hold.trans (hvw.trans hhold), ?_⟩
  · rw [honly .cip (by decide)]
    simp [hw, hv, State.alarmed, State.keysGone]
  · rw [honly .lin (by decide)]
    simp [hw, hlin]
  · exact hgone (hpair.trans hp) x (List.mem_filter.2 ⟨by rw [hlin]; exact hx, hr⟩) r href
  · rw [reg_of_regs hregs, hv, State.alarmed]
    rw [reg_of_regs (State.raise_regs _ _ _ _ _), State.reg_bump_ne _ _ _ _ _ _ (by decide), State.logFault,
      State.logFaultAt_reg _ _ _ _ _ _ _ _ _ _ _ _ _ _ _ (by decide), State.keysGone, State.reg_bump _ _ _ (by decide) (by decide)]
    rfl
  · refine logged_stays ((s.keysGone source stays).logFault_logged 0x70 0x40 0 1 10 255 0 0 0 none (by simpa [LogRoom, State.keysGone] using hroom)
      (by decide) (by decide) (by decide) (by decide)) (.of_fau (hfau.trans (by simp [hv, State.alarmed])))
  · refine raised_holds ?_ (hvw.trans hhold)
    set u := ((s.keysGone source stays).logFault 0x70 0x40 0 1 10 255 0 0 0).bump F.fauCntUnmasked with hu
    have hnow : u.now = s.now := by simp [hu, State.keysGone]
    refine raised_congr (s := u) (hnow ▸ u.raiseAt_raised u.now 0x301 0x40 0 _ _) ?_ ?_ ?_ (.of_sess rfl)
    · simp [hu, State.keysGone]
    · simp [hu, State.keysGone, State.fwRuns, State.pairActive]
    · simp [hu, State.keysGone]
  · rw [hfau]
    simp [hv, State.alarmed, State.keysGone]
  · have hv : Only [.cip, .lin, .regs, .fau, .stw, .eth] s v := by simp [only_iff, hv, State.alarmed, State.keysGone]
    have hw : Only [.lin] v w := by simp [only_iff, hw]
    exact only_mono (hv.trans (hw.trans honly)) (by simp)

/-! ## A job that ends -/

/-- The host's ring holds nothing that the device may read. -/
def RingQuiet (s : State) : Prop := s.flag F.cipHrCtlEn = false ∨ s.cip.ringTaken = s.reg F.cipHrTailTail

theorem State.readRing_quiet {s : State} (h : RingQuiet s) (n : Nat) : s.readRing n = s := by
  revert h
  delta State.readRing
  refine brecOn_keeps (fun s u => RingQuiet s → u = s) _ (fun _ s _ => rfl) (fun n x s _ h => ?_) s n
  refine if_neg ?_
  rcases h with h | h <;> simp [h]

/-- A job out of the queues, with its completion and its counts. -/
def State.jobEnded (s : State) (j : Job) (core status : Nat) : State :=
  let u := ({ s with cip := { s.cip with
    jobs := s.cip.jobs.filter (fun x => decide (x.id ≠ j.id))
    lastDone := s.completion j core status } } : State).bump F.cipCntJobs
  if status = 1 then u.bump F.cipCntAuthfail else u

theorem State.completeJob_eq (s : State) (j : Job) (core status : Nat) (hring : j.ring = none) :
    s.completeJob j core status = (s.jobEnded j core status).admitJobs.readRing 256 := by
  unfold State.completeJob
  rw [hring]
  rfl

theorem State.jobEnded_does (s : State) (j : Job) (core status : Nat) :
    let u := s.jobEnded j core status
    u.cip = { s.cip with jobs := s.cip.jobs.filter (fun x => decide (x.id ≠ j.id)), lastDone := s.completion j core status } ∧
      Only [.cip, .regs] s u ∧ u.now = s.now ∧
      (∀ x i, famAddr x.fam i 0 ≠ famAddr .cipCntJobs 0 0 → famAddr x.fam i 0 ≠ famAddr .cipCntAuthfail 0 0 → u.reg x i = s.reg x i) ∧
      u.reg F.cipCntJobs = min (s.reg F.cipCntJobs + 1) 0xFFFFFFFF := by
  unfold State.jobEnded
  refine ⟨?_, ?_, ?_, fun x i hjobs hauth => ?_, ?_⟩
  · dsimp only
    split <;> simp
  · dsimp only
    split <;> simp [only_iff]
  · dsimp only
    split <;> simp
  · dsimp only
    split
    · rw [State.reg_bump_ne _ _ _ _ _ _ hauth, State.reg_bump_ne _ _ _ _ _ _ hjobs]
      rfl
    · rw [State.reg_bump_ne _ _ _ _ _ _ hjobs]
      rfl
  · dsimp only
    split
    · rw [State.reg_bump_ne _ _ _ _ _ _ (by decide), State.reg_bump _ _ _ (by decide) (by decide)]
      rfl
    · rw [State.reg_bump _ _ _ (by decide) (by decide)]
      rfl

theorem State.admitJobs_none {s : State} (h : s.cip.waits = []) : s.admitJobs = s := by
  unfold State.admitJobs
  rw [h]
  simp only [List.foldl_nil]
  rw [← h]

theorem RingQuiet.jobEnded {s : State} (h : RingQuiet s) (j : Job) (core status : Nat) : RingQuiet (s.jobEnded j core status) := by
  obtain ⟨hcip, -, -, hreg, -⟩ := s.jobEnded_does j core status
  unfold RingQuiet at h ⊢
  rw [State.flag, hreg _ _ (by decide) (by decide), hreg _ _ (by decide) (by decide), hcip]
  exact h

/-- One that nothing waits behind. -/
theorem State.completeJob_alone (s : State) (j : Job) (core status : Nat) (hring : j.ring = none) (hwaits : s.cip.waits = [])
    (hquiet : RingQuiet s) : s.completeJob j core status = s.jobEnded j core status := by
  rw [State.completeJob_eq _ _ _ _ hring, State.admitJobs_none, State.readRing_quiet (hquiet.jobEnded _ _ _)]
  rw [(s.jobEnded_does j core status).1]
  exact hwaits

/-- A job of the device's own touches no memory. -/
theorem State.runJob_own (s : State) (j : Job) {k : KeyRec} {l : List Byte} (hkey : j.key = some k) (hown : j.own = some l) (hbad : j.bad = 0) :
    s.runJob j = (s, if (jobOutput j k l).2 then 0 else 1, (jobOutput j k l).1) := by
  unfold State.runJob State.jobSource
  rw [hkey, hown, hbad]
  simp

theorem jobOutput_unwrap (j : Job) (k : KeyRec) {rec : List Byte} {use : JobUse} (hrec : rec.length = 48)
    (hdesc : j.desc = (unwrapJob rec use).desc) : jobOutput j k rec = match kwUnwrap k.key rec with
      | some p => (p, true)
      | none => ([], false) := by
  have hmode : jMode j.desc = 6 := by rw [hdesc]; rfl
  have hflags : jFlags j.desc = 0 := by rw [hdesc]; rfl
  have hfront : jA j.desc = 0 := by rw [hdesc]; rfl
  have hcount : jM j.desc = 48 := by
    rw [hdesc, unwrapJob, hrec]
    rfl
  unfold jobOutput
  simp only [hmode, hflags, hfront, hcount]
  have hsrc : cut rec 0 48 = rec := by simp [cut, ← hrec]
  rw [hsrc]
  cases kwUnwrap k.key rec <;> simp [bit]

theorem State.keyLoaded_stores (s : State) (ref handle : Nat) (wrapped : List Byte) {plain : List Byte} {k : KeyRec}
    (hk : keyOfPlain plain = some k) (hh : k.handle = handle) :
    let slot := slotOf handle
    let same := decide (s.keyAt slot = some k)
    s.keyLoaded ref handle wrapped plain = ({ s with cip := { s.cip with
      cache := tset s.cip.cache slot k
      dram := tset s.cip.dram slot wrapped
      ctr := if same then s.cip.ctr else tset s.cip.ctr slot s.lin.floor
      gone := s.cip.gone.filter fun h => decide (slotOf h ≠ slot) } } : State).linWrite (.key slot (some wrapped) (!same)) (some ref) := by
  intro slot same
  unfold State.keyLoaded
  rw [hk]
  dsimp only
  rw [if_neg (not_not.2 hh)]

theorem State.keyLoaded_refuses (s : State) (ref handle : Nat) (wrapped : List Byte) {plain : List Byte}
    (h : ∀ k, keyOfPlain plain = some k → k.handle ≠ handle) : s.keyLoaded ref handle wrapped plain = s.finishRef ref Status.authFail [] := by
  unfold State.keyLoaded
  split
  next => rfl
  next k hk => exact if_pos (h k hk)

/-- The end of an unwrapping: the key found is loaded, and where none is, the command that waits fails. -/
theorem does_unwrap {s : State} {t core ref handle : Nat} {j : Job} {rec : List Byte} {r : KeyRec} {effect : State → Prop}
    (hon : s.pow.on = true) (hrec : rec.length = 48) (hfind : s.cip.jobs.find? (fun j => decide (j.stage = .running core)) = some j)
    (huse : j.use = .unwrap ref handle) (hdesc : j.desc = (unwrapJob rec (.unwrap ref handle)).desc) (hown : j.own = some rec)
    (hkey : j.key = some r) (hbad : j.bad = 0) (hring : j.ring = none) (hwaits : s.cip.waits = []) (hen : s.flag F.cipHrCtlEn = false)
    (hp : ∀ p, kwUnwrap r.key rec = some p → effect (((s.tick t).jobEnded j core 0).keyLoaded ref handle rec p))
    (hnone : kwUnwrap r.key rec = none → effect (((s.tick t).jobEnded j core 1).finishRef ref Status.authFail [])) :
    Does (.cipherJobComplete t core) s effect := by
  refine does_whenOn hon ?_
  simp only [State.tick_cip, hfind, State.runJob_own _ j hkey hown hbad, jobOutput_unwrap j r hrec hdesc]
  cases h : kwUnwrap r.key rec with
  | none =>
    simp only [Bool.false_eq_true, if_false]
    rw [State.completeJob_alone (s.tick t) _ _ _ hring hwaits (Or.inl hen), State.jobUsed, huse]
    exact hnone h
  | some p =>
    simp only [if_true]
    rw [State.completeJob_alone (s.tick t) _ _ _ hring hwaits (Or.inl hen), State.jobUsed, huse, hown]
    exact hp p h

/-- Settles O16. -/
theorem keyCommandsAreServed : Obligations.KeyCommandsAreServed := by
  unfold Obligations.KeyCommandsAreServed
  intro t at_ took m x s h hmax
  refine ⟨fun hlen hroot hne => ?_, fun core ref handle j root rec r hrec hr hfind huse hdesc hown hkey hbad hring hwaits hen =>
      ⟨fun k hk hh => ?_, fun f y hno hf hop hpair hy hfit => ?_⟩,
    fun hlen hroot => ?_, fun k hlen hk => ?_, fun hlen => ?_, fun p hlen hpresent hroot hp hstation hzero => ?_, fun hlen hw => ?_,
    fun hlen hw => ?_⟩
  · refine served_does h 0x601 t (State.serveKeyLoad_offers _ (flightOf s m 0x601 t .waiting) hlen (by simpa using hroot) hne) ?_
    set f := flightOf s m 0x601 t .waiting with hf
    set v := (taken s m 0x601 t x at_ took).setFlight { f with stage := .waiting } with hv
    have hoffer := v.offerJob_offered (unwrapJob (m.operand.drop 4) (.unwrap s.stw.nextRef (beAt m.operand 0 4)))
    obtain ⟨hmore, -⟩ := v.offerJob_unwrap (m.operand.drop 4) (.unwrap s.stw.nextRef (beAt m.operand 0 4))
    have hvcip : v.cip = s.cip := by simp [hv]
    have hfound : v.flight? s.stw.nextRef = some f := by
      rw [hv, State.setFlight_found, served_flight h]
      simp [hf, flightOf]
    refine ⟨hoffer, ⟨f, ?_, rfl, rfl⟩, ?_, ?_⟩
    · have hstw : (v.offerJob (unwrapJob (m.operand.drop 4) (.unwrap s.stw.nextRef (beAt m.operand 0 4)))).stw = v.stw := by simp
      exact hstw ▸ List.mem_of_find?_eq_some hfound
    · rw [← hvcip]
      exact congrArg State.cip hmore
    · have hstw : Only [.stw] s v := by simp [only_iff, hv]
      have hcip : Only [.cip] v (v.offerJob (unwrapJob (m.operand.drop 4) (.unwrap s.stw.nextRef (beAt m.operand 0 4)))) := by
        rw [hmore]
        simp [only_iff]
      exact only_mono (hstw.trans hcip) (by simp)
  · intro slot
    subst hr
    refine does_unwrap h.on hrec hfind huse hdesc hown hkey hbad hring hwaits hen (fun p hp => ?_) (fun hp => ?_)
    · have hplain : keyOfPlain p = some k := by simpa [unwrapKey, hp] using hk
      obtain ⟨hcip, honly, -, -, -⟩ := (s.tick t).jobEnded_does j core 0
      rw [State.keyLoaded_stores _ ref handle rec hplain hh]
      set v := (s.tick t).jobEnded j core 0 with hv
      have hat : v.keyAt slot = s.keyAt slot := by simp [State.keyAt, hcip]
      have hlin : v.lin = s.lin := honly .lin (by decide)
      refine ⟨?_, ?_, fun hne => ?_, fun heq => ?_, fun i hi => ?_, ⟨_, List.mem_append_right _ List.mem_cons_self⟩, ?_⟩
      · exact tget?_tset_self _ _ _
      · exact tget?_tset_self _ _ _
      · simp [State.counter, State.linWrite, hat, hne, hlin, slot]
      · simp [State.counter, State.linWrite, hat, heq, hcip, slot]
      · constructor
        · simp [State.linWrite, tget?_tset, hi, hcip, slot]
        · simp only [State.counter, State.linWrite, hcip]
          split
          · rfl
          · exact (tget_tset _ _ _ _ _).trans (if_neg hi)
      · have hlast : Only [.cip, .lin] v (({ v with cip := { v.cip with
            cache := tset v.cip.cache (slotOf handle) k
            dram := tset v.cip.dram (slotOf handle) rec
            ctr := if decide (v.keyAt (slotOf handle) = some k) then v.cip.ctr else tset v.cip.ctr (slotOf handle) v.lin.floor
            gone := v.cip.gone.filter fun h => decide (slotOf h ≠ slotOf handle) } } : State).linWrite
              (.key (slotOf handle) (some rec) (!decide (v.keyAt (slotOf handle) = some k))) (some ref)) := by
          simp [only_iff]
        exact only_mono (((s.tick_only t).trans honly).trans hlast) (by simp)
    · simp [unwrapKey, hp] at hk
  · subst hr
    have hfails (v : State) (hv : ∃ st, v = (s.tick t).jobEnded j core st) :
        Queued 2 { kind := .response, dst := f.src,
                   body := message 1 2 f.mb f.tag f.opcode f.seq f.slot f.gen Status.authFail [] } (v.finishRef ref Status.authFail []) ∧
          (v.finishRef ref Status.authFail []).cip.cache = s.cip.cache ∧ (v.finishRef ref Status.authFail []).cip.dram = s.cip.dram ∧
          Only [.stw, .eth, .cip, .regs] s (v.finishRef ref Status.authFail []) := by
      obtain ⟨st, rfl⟩ := hv
      obtain ⟨hcip, honly, -, -, -⟩ := (s.tick t).jobEnded_does j core st
      set v := (s.tick t).jobEnded j core st
      have hstw : v.stw = s.stw := honly .stw (by decide)
      obtain ⟨hfound, hgen⟩ := State.sessOf_found hy
      refine ⟨?_, by simp [hcip], by simp [hcip], ?_⟩
      · rw [State.finishRef, State.flight?, hstw, show s.stw.flights.find? _ = some f from hf]
        refine State.finish_answers v f y Status.authFail [] (Or.inr ?_) (by rwa [hstw]) hgen hfit
        rw [State.pairActive, show v.fau = s.fau from honly .fau (by decide)]
        exact hpair
      · have hlast : Only [.stw, .eth] v (v.finishRef ref Status.authFail []) := by simp [only_iff]
        exact only_mono (((s.tick_only t).trans honly).trans hlast) (by simp)
    refine does_unwrap h.on hrec hfind huse hdesc hown hkey hbad hring hwaits hen (fun p hp => ?_) (fun hp => ?_)
    · rw [State.keyLoaded_refuses _ _ _ _ fun k hk => hno k (by simpa [unwrapKey, hp] using hk)]
      exact hfails _ ⟨_, rfl⟩
    · exact hfails _ ⟨_, rfl⟩
  · exact served_replies h 0x601 t (State.serveKeyLoad_refuses _ _ hlen (by simpa using hroot)) rfl (by simp; omega)
  · have hkey : (taken s m 0x602 t x at_ took).keyFor (beAt m.operand 0 4) = some k := by
      simpa [State.keyFor, State.keyAt] using hk
    refine served_does h 0x602 t (State.serveKeyDelete_deletes _ (flightOf s m 0x602 t .waiting) hlen hkey) ?_
    set v := taken s m 0x602 t x at_ took with hv
    have hserving (u : State) (hstw : u.stw = v.stw) (hfau : u.fau = v.fau) : Serving m x u :=
      (served_serving h 0x602 t at_ took).holds (.of_sess (by rw [hstw])) (by rw [hfau])
    refine ⟨Serving.answered (x := x) ?_ s 0x602 t Status.ok [] (by simp; omega), ?_, ?_, ?_, ?_, ?_⟩
    · exact hserving _ rfl rfl
    · simp [State.linWrite, tget?_tdel_self]
    · simp [State.linWrite, tget?_tdel_self]
    · simp [State.linWrite, hv]
    · simp [State.linWrite, hv]
    · simp [only_iff, hv]
  · refine handled_mono (served_replies h 0x603 t (State.serveKeyStatus_answers _ _ hlen) rfl (by simp; omega)) fun v ⟨hans, honly⟩ =>
      ⟨⟨(taken s m 0x603 t x at_ took).open8s 940 3, by simp, ?_⟩, honly⟩
    simp only [State.keyState, State.keyFor, State.keyAt, State.exhausted, State.counter, taken_leaves] at hans
    exact hans
  · refine served_does h 0x604 t (State.serveRootProvision_provisions _ (flightOf s m 0x604 t .waiting) hlen (by simpa using hpresent)
      (by simpa using hroot) (by simpa using hp) hstation hzero) ?_
    refine ⟨rfl, rfl, ?_, ?_⟩
    · exact List.mem_append_right _ List.mem_cons_self
    · simp [only_iff]
  · refine served_does h 0x605 t (State.serveKeyAlarm_alarms _ _ hlen hw) ?_
    have he := (taken s m 0x605 t x at_ took).alarm_erases 5 0 false
    have hserving := (served_serving h 0x605 t at_ took).holds he.held he.pairs
    refine ⟨?_, ?_, ?_, ?_, ?_, hserving.answered s 0x605 t Status.ok [] (by simp; omega)⟩
    · simp [he.cip]
    · simp [he.cip]
    · simp [he.lin]
    · simp [he.lin]
    · simp [he.cip]
  · exact served_replies h 0x605 t (State.serveKeyAlarm_refuses _ _ hlen hw) rfl (by simp; omega)

end Sys2Proof.Machine
end

section
/-!
SUPPORT. Alarms, and the cipher's jobs; statements O31 and O32.
-/

namespace Sys2Proof.Machine

-- Proofs one after another: the text is long, and is checked in bounded memory.
set_option Elab.async false

open Sys2Proof Sys2Proof.Safety

/-! ## Alarms -/

theorem eraseJobs_bad (l : List Job) : ∀ j ∈ eraseJobs l, j.bad ≠ 0 := by
  intro j hj
  simp only [eraseJobs, List.mem_map] at hj
  obtain ⟨k, -, rfl⟩ := hj
  split
  · exact Nat.succ_ne_zero 1
  · assumption

/-- What an erasure leaves of the cipher block's jobs and conditions. -/
theorem Erased.cipher {s u : State} {source detail : Nat} {stays : Bool} (h : Erased s u source detail stays) :
    (u.cip.root = none ∧ u.cip.cache = [] ∧ u.cip.erasing = true ∧ u.cip.clearDue = true ∧ u.cip.lastSource = source) ∧
      ((∀ j ∈ u.cip.jobs, j.bad ≠ 0) ∧ u.cip.jobs.length = s.cip.jobs.length ∧ u.cip.dram = s.cip.dram ∧ u.cip.otp = s.cip.otp) ∧
      (stays = true → source ∈ u.cip.present) ∧ (stays = false → u.cip.present = s.cip.present) := by
  rw [h.cip]
  refine ⟨⟨rfl, rfl, rfl, rfl, rfl⟩, ⟨eraseJobs_bad _, by simp [eraseJobs], rfl, rfl⟩, fun hs => ?_, fun hs => ?_⟩
  · by_cases hin : source ∈ s.cip.present <;> simp [hs, hin]
  · simp [hs]

/-- What the statement says of an alarm. -/
def Alarms (s u : State) (now source detail : Nat) (stays : Bool) (more : List Block) : Prop :=
  u.cip.root = none ∧ u.cip.cache = [] ∧ u.cip.erasing = true ∧ u.cip.clearDue = true ∧ u.cip.lastSource = source ∧
  (∀ j ∈ u.cip.jobs, j.bad ≠ 0) ∧ u.cip.jobs.length = s.cip.jobs.length ∧ u.cip.dram = s.cip.dram ∧ u.cip.otp = s.cip.otp ∧
  (stays = true → source ∈ u.cip.present) ∧ (stays = false → u.cip.present = s.cip.present) ∧
  u.lin = { s.lin with cells := { root := none, rootId := 0, station := 0xFFFF, mark := true }
                       writes := s.lin.writes.filter fun w => !w.what.erased } ∧
  (∀ w ∈ s.lin.writes, ∀ r, w.what.erased = true → w.ref = some r → s.pairActive = true → ∀ f ∈ u.stw.flights, f.ref ≠ r) ∧
  u.reg F.cipCntAlarm = min (s.reg F.cipCntAlarm + 1) 0xFFFFFFFF ∧
  (LogRoom s → Logged u 0x70 0x40 0 1 10 255) ∧
  Raised s u now 0x301 0x40 0 (be 1 source ++ be 1 detail ++ be 2 (min s.heldKeys.length 0xFFFF)) ∧
  (s.pow.on = true → u.supplyOut 2 = false → u.alarmPinLow = true) ∧
  Only ([.cip, .lin, .regs, .fau, .stw, .eth] ++ more) s u

/-- An alarm raised where the clock and a supply alone have moved, after which the supplies in alarm alone move. -/
theorem Erased.alarms {a v : State} {source detail : Nat} {stays : Bool} (h : Erased a v source detail stays) {s u : State}
    (more : List Block) (volts : Tab Nat) (l : List Nat) (ha : a = { s with now := a.now, free := a.free, pow := { s.pow with volts := volts } })
    (hu : u = { v with cip := { v.cip with supplies := l } }) (hmore : Only more s a) : Alarms s u a.now source detail stays more := by
  obtain ⟨⟨hroot, hcache, herasing, hclear, hlast⟩, ⟨hbad, hlen, hdram, hotp⟩, hstays, hgoes⟩ := h.cipher
  have hcip : a.cip = s.cip := by rw [ha]
  have hlin : a.lin = s.lin := by rw [ha]
  have hfau : a.fau = s.fau := by rw [ha]
  have hvpow : v.pow = a.pow := h.only .pow (by decide)
  rw [hcip] at hlen hdram hotp hgoes
  subst hu
  refine ⟨hroot, hcache, herasing, hclear, hlast, hbad, hlen, hdram, hotp, hstays, hgoes, hlin ▸ h.lin,
    fun w hw r hr href hp => h.dropped ?_ w (hlin ▸ hw) r hr href, ?_, fun hroom => ?_, ?_, fun hon hvio => ?_, ?_⟩
  · rw [State.pairActive, hfau]
    exact hp
  · rw [← show a.reg F.cipCntAlarm = s.reg F.cipCntAlarm from reg_of_regs (by rw [ha]) _ _ _]
    exact h.counted
  · obtain ⟨w, hw⟩ := h.logged (by rwa [LogRoom, hfau])
    exact ⟨w, hw⟩
  · have hheld : a.heldKeys = s.heldKeys := by simp only [State.heldKeys, State.keyAt, hcip]
    refine raised_congr (hheld ▸ h.raised) (by rw [ha]) (by rw [ha]; rfl) (by rw [ha]) (.of_sess rfl)
  · have hon' : v.pow.on = true := by
      rw [hvpow, ha]
      exact hon
    have hmark : v.lin.cells.mark = true := by rw [h.lin]
    unfold State.alarmPinLow
    rw [hvio]
    show (!false && if v.pow.on then v.lin.cells.mark || !_ else _) = true
    rw [hon', hmark]
    rfl
  · have hlast : Only [.cip] v { v with cip := { v.cip with supplies := l } } := by simp [only_iff]
    exact only_mono ((hmore.trans h.only).trans hlast) (by simp; tauto)

/-- The windows of the five supplies. -/
theorem supplyWindows_getD {n : Nat} (hn : n < 5) : (supplyWindows.getD n (0, 0)).1 = [620000, 1140000, 1710000, 3135000, 1045000].getD n 0 ∧
    (supplyWindows.getD n (0, 0)).2 = [900000, 1260000, 1890000, 3465000, 1155000].getD n 0 := by
  interval_cases n <;> exact ⟨rfl, rfl⟩

/-- With the last supply in alarm, the supplies' condition ends. -/
theorem conditions_back (l p : List Nat) :
    let q := if l.isEmpty then p.filter (fun x => decide (x ≠ 2)) else p
    (l = [] → 2 ∉ q) ∧ (l ≠ [] → q = p) ∧ ∀ x, x ≠ 2 → (x ∈ q ↔ x ∈ p) := by
  cases l with
  | nil => simp +contextual
  | cons a l => simp

theorem tget?_filter_keys {α : Type} (l : Tab α) (k : List Nat) (n : Nat) :
    tget? (l.filter fun e => !k.contains e.1) n = if n ∈ k then none else tget? l n := by
  induction l with
  | nil => simp
  | cons e l ih =>
    obtain ⟨a, v⟩ := e
    rw [List.filter_cons, tget?_cons]
    by_cases ha : a ∈ k <;> by_cases hna : a = n <;> simp_all [tget?_cons]

/-- Settles O31. -/
theorem alarmsEraseTheKeys : Obligations.AlarmsEraseTheKeys := by
  unfold Obligations.AlarmsEraseTheKeys
  intro erased
  have herased : erased = Alarms := rfl
  clear_value erased
  subst herased
  have alarm (s : State) (t source detail : Nat) (stays : Bool) :
      Alarms s ((s.tick t).alarm source detail stays) (max s.now t) source detail stays [] :=
    ((s.tick t).alarm_erases source detail stays).alarms [] s.pow.volts _ rfl rfl (s.tick_only t)
  refine ⟨fun t celsius sealOk s hon => ⟨fun hen => does_whenOn hon ?_, fun hen => does_whenOn hon ?_, fun hc => does_whenOn hon ?_,
      fun hlo hhi => does_whenOn hon ?_, does_whenOn hon ?_⟩, fun t n r s hn => ?_, fun t n r s hn => ⟨_, rfl, ?_⟩,
    fun t s hon => ⟨fun hdue => does_whenOn hon ?_, fun hno => does_whenOn hon ?_⟩, fun t source s => ⟨_, rfl, ?_⟩⟩
  · rw [if_pos (show (s.tick t).flag F.cipAlarmCfgMeshEn = true from hen)]
    exact alarm s t 1 0 true
  · rw [if_neg (by simp [hen])]
    exact s.tick_only t
  · rw [if_pos hc]
    exact alarm s t 3 0 true
  · rw [if_neg (by omega)]
    exact s.tick_only t
  · cases sealOk with
    | true => exact s.tick_only t
    | false => exact alarm s t 4 0 false
  · intro low high inside alarms
    have hlow (uv : Nat) : supplyLow n uv = decide (low uv) := by
      rw [supplyLow, (supplyWindows_getD hn).1]
    have hhigh (uv : Nat) : supplyHigh n uv = decide (high uv) := by
      rw [supplyHigh, (supplyWindows_getD hn).2]
    have hout (uv : Nat) : (supplyLow n uv || supplyHigh n uv) = decide (¬inside uv) := by
      simp only [hlow, hhigh, inside]
      by_cases h1 : low uv <;> by_cases h2 : high uv <;> simp [h1, h2]
    have halarms : s.supplyAlarms n r.uv = decide alarms := by
      simp only [State.supplyAlarms, State.supplyOut, hlow, hhigh, alarms, inside]
      by_cases h1 : high r.uv <;> by_cases h2 : high (s.volts n) <;> by_cases h3 : low r.uv <;> by_cases h4 : low (s.volts n) <;>
        simp [h1, h2, h3, h4]
    have hset (u : State) (h : u.pow.volts = tset s.pow.volts n r.uv) : u.volts n = r.uv := by
      rw [State.volts, h]
      exact tget_tset_self _ _ _ _
    have hpin (u : State) (h : u.volts n = r.uv) (hno : ¬inside r.uv) (htwo : n = 2) : u.alarmPinLow = false := by
      subst htwo
      rw [State.alarmPinLow, State.supplyOut, h, hout, decide_eq_true hno]
      rfl
    have hcalm (u : State) (hu : u = s ∨ u = s.tick t) (hal : ¬alarms) : u.pow = s.pow ∧ u.supplyAlarms n r.uv = false := by
      refine ⟨by rcases hu with rfl | rfl <;> rfl, ?_⟩
      rw [← decide_eq_false hal, ← halarms]
      rcases hu with rfl | rfl <;> rfl
    refine ⟨fun hno hns => ⟨_, rfl, ?_⟩, fun hns hal => ⟨_, rfl, ?_⟩, fun hns hno hal => ⟨_, rfl, ?_⟩, fun hin => ⟨_, rfl, ?_⟩⟩
    · rw [hout, if_pos (Or.inr ⟨decide_eq_true hno, hns⟩)]
    · have hgo : ¬(5 ≤ n ∨ decide (¬inside r.uv) = true ∧ r.ns < 200) := by omega
      have hsup : (s.tick t).supplyAlarms n r.uv = true := by
        rw [show (s.tick t).supplyAlarms n r.uv = s.supplyAlarms n r.uv from rfl, halarms, decide_eq_true hal]
      rw [hout, if_neg hgo, halarms, decide_eq_true hal, Bool.or_true, if_pos rfl, State.supplyAt, if_pos hsup]
      set a : State := { s.tick t with pow := { (s.tick t).pow with volts := tset (s.tick t).pow.volts n r.uv } } with ha
      have halarm := a.alarm_erases 2 n true
      have hvolts := hset { a.alarm 2 n true with cip := { (a.alarm 2 n true).cip with
        supplies := n :: (a.alarm 2 n true).cip.supplies.filter fun x => decide (x ≠ n) } }
        (congrArg (fun p => p.volts) (halarm.only .pow (by decide)))
      have hno : ¬inside r.uv := by
        rcases hal with ⟨hh, -⟩ | ⟨hl, -⟩
        · exact fun h => h.2 hh
        · exact fun h => h.1 hl
      exact ⟨halarm.alarms [.pow] _ _ rfl rfl (by simp [only_iff, ha]), List.mem_cons_self, hvolts, hpin _ hvolts hno⟩
    · have hgo : ¬(5 ≤ n ∨ decide (¬inside r.uv) = true ∧ r.ns < 200) := by omega
      have hat (u : State) (hu : u = s ∨ u = s.tick t) : (u.supplyAt n r.uv).volts n = r.uv ∧ Only [.pow] s (u.supplyAt n r.uv) := by
        obtain ⟨hpow, hsup⟩ := hcalm u hu hal
        have hstill : State.supplyOut { u with pow := { u.pow with volts := tset u.pow.volts n r.uv } } n = true := by
          rw [State.supplyOut, hset _ (by rw [hpow]), hout, decide_eq_true hno]
        have honly : Only [.pow] s { u with pow := { u.pow with volts := tset u.pow.volts n r.uv } } := by
          rcases hu with rfl | rfl <;> simp [only_iff]
        unfold State.supplyAt
        dsimp only
        rw [if_neg (by simp [hsup]), if_pos hstill]
        exact ⟨hset _ (by rw [hpow]), honly⟩
      rw [hout, if_neg hgo]
      split
      · exact ⟨(hat _ (Or.inr rfl)).1, hpin _ (hat _ (Or.inr rfl)).1 hno, (hat _ (Or.inr rfl)).2⟩
      · exact ⟨(hat _ (Or.inl rfl)).1, hpin _ (hat _ (Or.inl rfl)).1 hno, (hat _ (Or.inl rfl)).2⟩
    · have hgo : ¬(5 ≤ n ∨ decide (¬inside r.uv) = true ∧ r.ns < 200) := by
        rw [decide_eq_false (not_not.2 hin)]
        rintro (h | ⟨h, -⟩)
        · exact absurd hn (Nat.not_lt.2 h)
        · exact Bool.false_ne_true h
      have hal : ¬alarms := by
        rintro (⟨hh, -⟩ | ⟨hl, -⟩)
        · exact hin.2 hh
        · exact hin.1 hl
      rw [hout, if_neg hgo]
      have hat (u : State) (hu : u = s ∨ u = s.tick t) : (u.supplyAt n r.uv).volts n = r.uv ∧ (u.supplyAt n r.uv).supplyOut n = false ∧
          (u.supplyAt n r.uv).cip = { s.cip with
            supplies := s.cip.supplies.filter (fun x => decide (x ≠ n))
            present := if (s.cip.supplies.filter (fun x => decide (x ≠ n))).isEmpty then s.cip.present.filter (fun x => decide (x ≠ 2))
              else s.cip.present } ∧ Only [.cip, .pow] s (u.supplyAt n r.uv) := by
        obtain ⟨hpow, hsup⟩ := hcalm u hu hal
        have hback : State.supplyOut { u with pow := { u.pow with volts := tset u.pow.volts n r.uv } } n = false := by
          rw [State.supplyOut, hset _ (by rw [hpow]), hout, decide_eq_false (not_not.2 hin)]
        unfold State.supplyAt
        dsimp only
        rw [if_neg (by simp [hsup]), if_neg (by simp [hback])]
        refine ⟨hset _ (by rw [← hpow]; rfl), hback, ?_, ?_⟩
        · rcases hu with rfl | rfl <;> rfl
        · rcases hu with rfl | rfl <;> simp [only_iff]
      have hall (w : State) (hw : w = s.supplyAt n r.uv ∨ w = (s.tick t).supplyAt n r.uv) : w.volts n = r.uv ∧ w.supplyOut n = false ∧
          w.cip = { s.cip with supplies := s.cip.supplies.filter (fun x => decide (x ≠ n)), present := w.cip.present } ∧
          (w.cip.supplies = [] → 2 ∉ w.cip.present) ∧ (w.cip.supplies ≠ [] → w.cip.present = s.cip.present) ∧
          (∀ x, x ≠ 2 → (x ∈ w.cip.present ↔ x ∈ s.cip.present)) ∧ Only [.cip, .pow] s w := by
        obtain ⟨hv, ho, hcip, honly⟩ : _ ∧ _ ∧ _ ∧ _ := hw.elim (fun e => e ▸ hat _ (Or.inl rfl)) (fun e => e ▸ hat _ (Or.inr rfl))
        obtain ⟨hnone, hsome, hother⟩ := conditions_back (s.cip.supplies.filter (fun x => decide (x ≠ n))) s.cip.present
        exact ⟨hv, ho, by rw [hcip], by rw [hcip]; exact hnone, by rw [hcip]; exact hsome, by rw [hcip]; exact hother, honly⟩
      split
      · exact hall _ (Or.inr rfl)
      · exact hall _ (Or.inl rfl)
  · exact if_pos (Or.inl hn)
  · rw [if_pos (show (s.tick t).cip.clearDue = true from hdue)]
    exact ⟨rfl, rfl, by simp [only_iff]⟩
  · rw [if_neg (by simp [hno])]
    exact s.tick_only t
  · refine ⟨rfl, fun n hn => ?_, rfl, by simp [only_iff]⟩
    have hnom : supplyNominal.getD n 0 = [750000, 1200000, 1800000, 3300000, 1100000].getD n 0 := rfl
    refine ⟨fun ⟨hsrc, hin⟩ => ?_, fun hno => ?_⟩
    · simp only [State.volts, tget, if_pos hsrc, State.tick_pow, State.tick_cip, tget?_filter_keys, if_pos hin]
      exact hnom
    · by_cases hsrc : source = 2
      · have hin : n ∉ s.cip.supplies := hno.resolve_left (not_not.2 hsrc)
        simp only [State.volts, tget, if_pos hsrc, State.tick_pow, State.tick_cip, tget?_filter_keys, if_neg hin]
      · simp only [State.volts, tget, if_neg hsrc, State.tick_pow]

/-! ## Cipher jobs that are submitted -/

theorem Cip.used_same (c : Cip) (k : Option KeyRec) : c.used k = { c with cache := (c.used k).cache } := by
  unfold Cip.used
  (repeat' split) <;> rfl

@[simp] theorem Cip.used_jobs (c : Cip) (k : Option KeyRec) : (c.used k).jobs = c.jobs := by rw [Cip.used_same]
@[simp] theorem Cip.used_nextJob (c : Cip) (k : Option KeyRec) : (c.used k).nextJob = c.nextJob := by rw [Cip.used_same]
@[simp] theorem Cip.used_ctr (c : Cip) (k : Option KeyRec) : (c.used k).ctr = c.ctr := by rw [Cip.used_same]

/-- The job that a submission makes, before a nonce is taken for it. -/
def State.newJob (s : State) (d : List Byte) : Job :=
  { id := s.cip.nextJob, desc := d, ring := none, own := none, use := .memory, time := s.now,
    key := if s.jobBad d false false = 0 then s.jobKey d false else none, bad := s.jobBad d false false,
    nonce := if bit (jFlags d) 1 then zeros 13 else if jMode d = 2 ∨ jMode d = 3 then cut d 32 13 else zeros 13,
    iv := if bit (jFlags d) 1 then s.open8s (100000 + 16 * s.cip.nextJob) 16 else cut d 32 16, stage := .queued }

/-- A state in which a key has been put in the cache for its use. -/
def State.cached (s : State) (k : Option KeyRec) : State := { s with cip := s.cip.used k }

@[simp] theorem State.cached_cip (s : State) (k : Option KeyRec) : (s.cached k).cip = s.cip.used k := rfl

theorem State.submitJob_eq (s : State) (d : List Byte) : s.submitJob d none =
    let r := (s.cached (s.newJob d).key).nonceJob (s.newJob d)
    { r.1 with cip := { r.1.cip with jobs := r.1.cip.jobs ++ [r.2], nextJob := r.1.cip.nextJob + 1 } } := by
  unfold State.submitJob State.newJob State.cached
  rw [show (none : Option Nat).isSome = false from rfl, show (none : Option (List Byte)).isSome = false from rfl]

/-- No nonce is taken for a job that asks for none, or that has failed its checks. -/
theorem State.nonceJob_none (s : State) (j : Job) (h : bit (jFlags j.desc) 1 = false ∨ j.bad ≠ 0) :
    s.nonceJob j = (s, { j with stage := .queued }) := by
  unfold State.nonceJob
  split
  · rw [if_neg (by rcases h with h | h <;> simp [h])]
  · rfl

/-- The nonce of a job that asks for one, from its key's counter. -/
theorem State.nonceJob_takes (s : State) (j : Job) {k : KeyRec} (hkey : j.key = some k) (hflag : bit (jFlags j.desc) 1 = true)
    (hbad : j.bad = 0) : s.nonceJob j = match s.takeCounter (slotOf k.handle) with
      | (s', .got fc) => (s', { j with nonce := frameNonce s.extAddr fc (octet j.desc 48), stage := .queued })
      | (s', .wait) => (s', { j with stage := .reserve })
      | (s', .none) => (s', { j with bad := 7, stage := .queued }) := by
  unfold State.nonceJob
  split
  next k' hk =>
    obtain rfl : k = k' := Option.some.inj (hkey.symm.trans hk)
    exact if_pos (by simp [hflag, hbad])
  next hk => simp [hkey] at hk

theorem State.takeCounter_got (s : State) (slot : Nat) (h : s.counter slot < s.bound slot) (hlast : s.counter slot ≤ 0xFFFFFFFE) :
    ∃ u, s.takeCounter slot = (u, .got (s.counter slot)) ∧ u.cip = { s.cip with ctr := tset s.cip.ctr slot (s.counter slot + 1) } ∧
      Only [.cip, .lin] s u := by
  unfold State.takeCounter
  dsimp only
  rw [if_neg (by simp [State.exhausted]; omega), if_neg (by omega)]
  refine ⟨_, rfl, ?_, ?_⟩
  · split <;> simp
  · split <;> simp [only_iff]

theorem State.takeCounter_waits (s : State) (slot : Nat) (h : s.bound slot ≤ s.counter slot) (hlast : s.counter slot ≤ 0xFFFFFFFE)
    (hdue : s.nonceDue slot = false) : s.takeCounter slot = (s.linWrite (.nonce slot (blockAfter (s.counter slot))), .wait) := by
  unfold State.takeCounter
  dsimp only
  rw [if_neg (by simp [State.exhausted]; omega), if_pos h, State.reserveTo, if_neg (by simp [hdue])]

/-! ## The scheduler -/

/-- The next job among those that wait: the first of the least rank. -/
theorem foldl_least (rank : Job → Nat) (l : List Job) (b : Job) :
    ∃ c, l.foldl (fun best j => match best with
      | none => some j
      | some b => if rank j < rank b then some j else some b) (some b) = some c ∧
      (c = b ∨ c ∈ l) ∧ rank c ≤ rank b ∧ ∀ a ∈ l, rank c ≤ rank a := by
  induction l generalizing b with
  | nil => exact ⟨b, rfl, .inl rfl, le_rfl, fun a ha => absurd ha List.not_mem_nil⟩
  | cons j l ih =>
    rw [List.foldl_cons]
    dsimp only
    by_cases hj : rank j < rank b
    · rw [if_pos hj]
      obtain ⟨c, hc, hin, hle, hall⟩ := ih j
      refine ⟨c, hc, .inr ?_, hle.trans hj.le, fun a ha => ?_⟩
      · exact hin.elim (fun h => h ▸ List.mem_cons_self) (List.mem_cons_of_mem _)
      · exact (List.mem_cons.1 ha).elim (fun h => h ▸ hle) (hall a)
    · rw [if_neg hj]
      obtain ⟨c, hc, hin, hle, hall⟩ := ih b
      refine ⟨c, hc, hin.imp id (List.mem_cons_of_mem _), hle, fun a ha => ?_⟩
      exact (List.mem_cons.1 ha).elim (fun h => h ▸ hle.trans (Nat.not_lt.1 hj)) (hall a)

theorem State.nextJob_none {s : State} (h : ∀ j ∈ s.cip.jobs, j.stage ≠ .queued) : s.nextJob = none := by
  unfold State.nextJob
  rw [List.filter_eq_nil_iff.2 fun j hj => by simp [h j hj]]
  rfl

theorem State.nextJob_some {s : State} {k : Job} (hk : k ∈ s.cip.jobs) (hq : k.stage = .queued) : ∃ j ∈ s.cip.jobs, s.nextJob = some j ∧
    j.stage = .queued ∧ ∀ i ∈ s.cip.jobs, i.stage = .queued → s.jobRank j ≤ s.jobRank i := by
  unfold State.nextJob
  cases hl : s.cip.jobs.filter fun j => decide (j.stage = .queued) with
  | nil => exact absurd hq (by simpa using List.filter_eq_nil_iff.1 hl k hk)
  | cons b l =>
    obtain ⟨c, hc, hin, hle, hall⟩ := foldl_least s.jobRank l b
    have hmem : ∀ i, i ∈ b :: l ↔ i ∈ s.cip.jobs ∧ i.stage = .queued := by simp [← hl]
    obtain ⟨hcin, hcq⟩ := (hmem c).1 (hin.elim (fun h => h ▸ List.mem_cons_self) (List.mem_cons_of_mem _))
    refine ⟨c, hcin, hc, hcq, fun i hi hiq => ?_⟩
    exact (List.mem_cons.1 ((hmem i).2 ⟨hi, hiq⟩)).elim (fun h => h ▸ hle) (hall i)

/-! ## Jobs that end -/

/-- A job on clean memory: its output is written where its descriptor says. -/
theorem State.runJob_memory (s : State) (j : Job) {k : KeyRec} (hkey : j.key = some k) (hown : j.own = none) (hbad : j.bad = 0)
    (hrot : s.mem.rot = []) (hpoison : s.mem.poison = []) :
    let r := jobOutput j k (s.mem.reads (jSrc j.desc) (jobReads j.desc))
    s.runJob j = (s.put (jDst j.desc) r.1, if r.2 then 0 else 1, r.1) := by
  intro r
  have hconsume (a n : Nat) : s.consume 0x40 a n = s := State.consume_clean _ _ _ _ (by simp [hrot])
  have hpart (a n : Nat) : s.consumePart 0x40 a n = s := by simp [State.consumePart, hrot]
  unfold State.runJob State.jobSource
  rw [hkey, hown, hbad]
  simp [hconsume, hpart, State.poisoned, Mem.poisonIn, Mem.poisonPart, hpoison, State.writeMem, r]

theorem State.runJob_keyless (s : State) (j : Job) (hkey : j.key = none) : s.runJob j = (s, j.bad, []) := by
  unfold State.runJob
  rw [hkey]

/-- One that has failed its checks, but for a key that was erased. -/
theorem State.runJob_failed (s : State) (j : Job) {k : KeyRec} (hkey : j.key = some k) (hbad : 2 < j.bad) : s.runJob j = (s, j.bad, []) := by
  unfold State.runJob
  rw [hkey]
  exact if_pos (by omega)

theorem does_complete {s : State} {t core : Nat} {j : Job} {effect : State → Prop} (hon : s.pow.on = true)
    (hfind : s.cip.jobs.find? (fun j => decide (j.stage = .running core)) = some j) {v : State} {st : Nat} {out : List Byte}
    (hrun : (s.tick t).runJob j = (v, st, out)) (h : effect ((v.completeJob j core st).jobUsed j st out)) :
    Does (.cipherJobComplete t core) s effect := by
  refine does_whenOn hon ?_
  simp only [State.tick_cip, hfind, hrun]
  exact h

theorem octet_completion (s : State) (j : Job) (core status : Nat) (h : status < 256) : octet (s.completion j core status) 0 = status := by
  unfold State.completion
  simp only [List.append_assoc]
  rw [octet_be_front, Nat.mod_eq_of_lt h]

/-- A submission moves nothing of the ring, nor of the jobs that wait for a place. -/
theorem State.submitJob_ring (s : State) (d : List Byte) (ring : Option Nat) (own : Option (List Byte)) (use : JobUse) :
    (s.submitJob d ring own use).cip.waits = s.cip.waits ∧ (s.submitJob d ring own use).cip.ringTaken = s.cip.ringTaken := by
  have htake (u : State) (slot : Nat) : (u.takeCounter slot).1.cip.waits = u.cip.waits ∧
      (u.takeCounter slot).1.cip.ringTaken = u.cip.ringTaken := by
    unfold State.takeCounter
    dsimp only
    (repeat' split) <;> simp
  have hnonce (u : State) (j : Job) : (u.nonceJob j).1.cip.waits = u.cip.waits ∧ (u.nonceJob j).1.cip.ringTaken = u.cip.ringTaken := by
    unfold State.nonceJob
    split
    next k _ =>
      split
      · have h := htake u (slotOf k.handle)
        split <;> simp_all
      · simp
    next => simp
  have hused (c : Cip) (k : Option KeyRec) : (c.used k).waits = c.waits ∧ (c.used k).ringTaken = c.ringTaken := by rw [Cip.used_same]; simp
  unfold State.submitJob
  extract_lets host bad nonce j
  dsimp only
  rw [(hnonce _ _).1, (hnonce _ _).2, (hused _ _).1, (hused _ _).2]
  exact ⟨rfl, rfl⟩

/-- What has just been stored is read. -/
theorem Mem.reads_store (m : Mem) (a : Nat) (d : List Byte) : (m.store a d).reads a d.length = d := by
  refine List.ext_getElem (by simp [Mem.reads]) fun i hi hi' => ?_
  simp only [Mem.reads, List.getElem_map, List.getElem_range]
  rw [Mem.read_store, if_pos (by omega)]
  simp [hi']

/-- Settles O32. -/
theorem cipherJobsQueueRunAndWrite : Obligations.CipherJobsQueueRunAndWrite := by
  unfold Obligations.CipherJobsQueueRunAndWrite
  intro quiet
  refine ⟨⟨fun t d s hon hplace => ?_, fun t d s hon hplace => does_whenOn hon ?_, fun t n s hon hcore => ⟨fun hno => does_whenOn hon ?_,
      fun k hk hq => does_whenOn hon ?_⟩⟩,
    fun t core j k s hon hfind hring hown huse hkey hbad hrot hpoison hwaits hquiet => ?_,
    fun t core j s hon hfind hring huse hkey hbad hbad1 hquiet => ⟨fun hwaits => ?_, fun w hwaits hroom => ?_⟩,
    fun t core skip j k l r s hon hfind hring hown huse hkey hwaits hquiet hbad => ?_, fun t core s hon hno => does_whenOn hon ?_⟩
  · have hdo {effect : State → Prop} (h : effect ((s.tick t).submitJob d none)) : Does (.cipherJobSubmit t d) s effect := by
      refine does_whenOn hon ?_
      rw [State.offerJob, if_pos (show (s.tick t).cip.place (jQueue d) false = true from hplace)]
      exact h
    intro bad
    have hdesc : ((s.tick t).newJob d).desc = d := rfl
    have hbad : ((s.tick t).newJob d).bad = bad := rfl
    set c := (s.tick t).cached ((s.tick t).newJob d).key with hc
    have honly : Only [.cip] s c :=
      only_mono ((s.tick_only t).trans (show Only [.cip] (s.tick t) c by simp [only_iff, hc, State.cached])) (by simp)
    have hcounter (k : Nat) : c.counter k = s.counter k := by simp [State.counter, hc]
    have hbound (k : Nat) : c.bound k = s.bound k := by rw [State.bound, show c.lin = s.lin from honly .lin (by decide)]; rfl
    have hmore (u : State) (y : Cip) : Only [.cip] u { u with cip := y } := by simp [only_iff]
    refine ⟨fun hno => hdo ?_, fun k hflag hgood hkey hlt hlast => hdo ?_, fun k hflag hgood hkey hge hlast hdue => hdo ?_⟩
    · rw [State.submitJob_eq, State.nonceJob_none _ _ hno]
      refine ⟨{ (s.tick t).newJob d with stage := .queued }, ?_, ?_, fun hflag => ⟨?_, fun hm => ?_⟩, rfl, rfl, rfl, rfl, rfl, rfl, rfl, rfl,
        fun hb => if_pos hb, fun hb => if_neg hb⟩
      · show ({ s.cip.used _ with jobs := (s.cip.used _).jobs ++ [_], nextJob := (s.cip.used _).nextJob + 1 } : Cip) = _
        rw [Cip.used_jobs, Cip.used_nextJob]
      · exact only_mono (honly.trans (hmore _ _)) (by simp)
      · exact if_neg (by simp [hflag])
      · exact (if_neg (by simp [hflag])).trans (if_pos hm)
    · have hk : ((s.tick t).newJob d).key = some k := (if_pos hgood).trans hkey
      obtain ⟨u, hu, hucip, huonly⟩ := c.takeCounter_got (slotOf k.handle) (by rw [hcounter, hbound]; exact hlt) (by rw [hcounter]; exact hlast)
      rw [State.submitJob_eq, State.nonceJob_takes _ _ hk hflag hgood, hu]
      have hmacs : c.extAddr = s.extAddr := by rw [State.extAddr, show c.lin = s.lin from honly .lin (by decide)]; rfl
      refine ⟨_, congrArg (· ++ _) ?_, hk, rfl, hgood, ?_, ?_, ?_⟩
      · rw [hucip]
        simp [hc]
      · rw [← hmacs, ← hcounter]
        rfl
      · simp [State.counter, hucip, hc]
      · exact only_mono ((honly.trans huonly).trans (hmore _ _)) (by simp)
    · have hk : ((s.tick t).newJob d).key = some k := (if_pos hgood).trans hkey
      have hlin : c.lin = s.lin := honly .lin (by decide)
      have hdue' : c.nonceDue (slotOf k.handle) = false := by rw [State.nonceDue, hlin]; exact hdue
      rw [State.submitJob_eq, State.nonceJob_takes _ _ hk hflag hgood, State.takeCounter_waits c (slotOf k.handle)
        (by rw [hcounter, hbound]; exact hge) (by rw [hcounter]; exact hlast) hdue', hcounter]
      refine ⟨_, congrArg (· ++ _) ?_, rfl, ?_, ?_, ?_⟩
      · simp [State.linWrite, hc]
      · simp [State.linWrite, hlin]
      · simp [State.linWrite, hc]
      · have hwrite : Only [.lin] c (c.linWrite (.nonce (slotOf k.handle) (blockAfter (s.counter (slotOf k.handle))))) := by simp [only_iff]
        exact only_mono ((honly.trans hwrite).trans (hmore _ _)) (by simp)
  · rw [State.offerJob, if_neg (by simp [hplace])]
    exact ⟨by simp [only_iff], rfl⟩
  · have hcore' : (s.tick t).cip.freeCore = some n := hcore
    rw [hcore', State.nextJob_none (s := s.tick t) hno]
    exact s.tick_only t
  · have hcore' : (s.tick t).cip.freeCore = some n := hcore
    obtain ⟨j, hj, hnext, hjq, hleast⟩ := State.nextJob_some (s := s.tick t) hk hq
    rw [hcore', hnext]
    exact ⟨j, hj, hjq, hleast, rfl, by simp [only_iff]⟩
  · intro r
    refine does_complete (v := (s.tick t).put (jDst j.desc) r.1) (st := if r.2 then 0 else 1) (out := r.1) hon hfind
      (State.runJob_memory (s.tick t) j hkey hown hbad hrot hpoison) ?_
    set v := (s.tick t).put (jDst j.desc) r.1 with hv
    set st := if r.2 then 0 else 1 with hst
    rw [State.completeJob_alone v j core st hring hwaits hquiet, State.jobUsed, huse]
    obtain ⟨hcip, honly, -, -, hcount⟩ := v.jobEnded_does j core st
    set u := v.jobEnded j core st
    have hmem : u.mem = v.mem := honly .mem (by decide)
    refine ⟨?_, fun a ha => ?_, by rw [hcip]; rfl, ?_, by rw [hcip]; rfl, hcount, ?_⟩
    · rw [hmem]
      exact Mem.reads_store _ _ _
    · rw [hmem]
      exact (Mem.read_store _ _ _ _).trans (if_neg (by omega))
    · rw [hcip]
      refine octet_completion v j core st ?_
      rw [hst]
      split <;> omega
    · have hput : Only [.mem] s v := by simp [only_iff, hv]
      exact only_mono (hput.trans honly) (by simp)
  · refine does_complete hon hfind (State.runJob_keyless (s.tick t) j hkey) ?_
    rw [State.completeJob_alone (s.tick t) j core j.bad hring hwaits hquiet, State.jobUsed, huse]
    obtain ⟨hcip, honly, -, -, -⟩ := (s.tick t).jobEnded_does j core j.bad
    refine ⟨by rw [hcip]; rfl, by rw [hcip]; exact octet_completion _ _ _ _ (by omega), ?_⟩
    exact only_mono ((s.tick_only t).trans honly) (by simp)
  · refine does_complete hon hfind (State.runJob_keyless (s.tick t) j hkey) ?_
    rw [State.completeJob_eq _ _ _ _ hring, State.jobUsed, huse]
    obtain ⟨hcip, honly, -, hreg, -⟩ := (s.tick t).jobEnded_does j core j.bad
    set v := (s.tick t).jobEnded j core j.bad
    set v' : State := { v with cip := { v.cip with waits := [] } } with hv'
    have hplace : v'.cip.place (jQueue w.desc) false = true := by
      rw [hv', hcip]
      exact hroom
    have hadmit : v.admitJobs = v'.submitJob w.desc none w.own w.use := by
      unfold State.admitJobs
      rw [show v.cip.waits = [w] by rw [hcip]; exact hwaits, List.foldl_cons, List.foldl_nil, State.offerJob, if_pos hplace]
    obtain ⟨i, hjobs, hidesc, hiown, hiuse⟩ := v'.submitJob_job w.desc none w.own w.use
    set u := v'.submitJob w.desc none w.own w.use with hu
    obtain ⟨hwaitsSame, htaken⟩ : u.cip.waits = v'.cip.waits ∧ u.cip.ringTaken = v'.cip.ringTaken := v'.submitJob_ring _ _ _ _
    have hstill : RingQuiet u := by
      have hregs : u.regs = v.regs := by simp [hu, hv']
      unfold RingQuiet
      rw [State.flag, reg_of_regs hregs, reg_of_regs hregs, hreg _ _ (by decide) (by decide), hreg _ _ (by decide) (by decide), htaken, hv', hcip]
      exact hquiet
    rw [hadmit, State.readRing_quiet hstill]
    refine ⟨hwaitsSame, i, hidesc, hiuse, hiown, ?_, ?_⟩
    · rw [hjobs, hv', hcip]
      rfl
    · have hsubmit : Only [.cip, .lin] v u := by simp [only_iff, hu, hv']
      exact only_mono (((s.tick_only t).trans honly).trans hsubmit) (by simp)
  · intro o
    have hrun : (s.tick t).runJob j = (s.tick t, if j.bad = 0 then (if o.2 then 0 else 1) else j.bad, o.1) := by
      rcases hbad with hb | hb
      · rw [State.runJob_own _ j hkey hown hb, if_pos hb]
        simp [o, hb]
      · have hne : j.bad ≠ 0 := by omega
        rw [State.runJob_failed _ j hkey hb, if_neg hne]
        simp [o, hne]
    refine does_complete hon hfind hrun ?_
    set st := if j.bad = 0 then (if o.2 then 0 else 1) else j.bad with hst
    rw [State.completeJob_alone (s.tick t) j core st hring hwaits hquiet, State.jobUsed, huse]
    obtain ⟨hcip, honly, hnow, -, -⟩ := (s.tick t).jobEnded_does j core st
    have hok : decide (st ≠ 0) = !o.2 := by
      rw [hst]
      by_cases hb : j.bad = 0
      · cases ho : o.2 <;> simp [hb]
      · simp [hb, o]
    refine ⟨(s.tick t).jobEnded j core st, only_mono ((s.tick_only t).trans honly) (by simp), hnow, by rw [hcip]; rfl, ?_⟩
    rw [← hok]
    exact only_refl _ _
  · rw [show (s.tick t).cip.jobs.find? _ = none from List.find?_eq_none.2 fun j hj => by simp [hno j hj]]
    exact s.tick_only t

end Sys2Proof.Machine
end

section
/-!
SUPPORT. Line ports, their limit, maps and nodes, and radio head links; statements O43, O44, O47 and O48.
-/

namespace Sys2Proof.Machine

-- Proofs one after another: the text is long, and is checked in bounded memory.
set_option Elab.async false

open Sys2Proof Sys2Proof.Safety

/-! ## Line ports (06 R115 to R118) -/

theorem Regs.applyReg_apart (r : Regs) (a : Nat) (v : Word) (x : FRef) (k l : Nat) (h : famAddr x.fam k l ≠ a) :
    (r.applyReg a v).get x k l = r.get x k l := by
  obtain hnone | ⟨⟨f, i, j⟩, hreg⟩ := Option.eq_none_or_eq_some (regOf a)
  · simp only [Regs.applyReg, hnone]
  · have ha := regOf_addr hreg
    rw [← ha] at hreg h ⊢
    exact Regs.applyReg_get _ _ hreg _ _ _ (.inl h)

/-- A link on which nothing is received or sent, and nothing waits. -/
def LineSlot.shut (x : LineSlot) : Prop := x.cands = [] ∧ x.rx = none ∧ x.ack = none ∧ x.tx = none ∧ x.queue = []

/-- Two links in which the same is received and sent, and the same waits. -/
def LineSlot.works (x y : LineSlot) : Prop :=
  y.cands = x.cands ∧ y.rx = x.rx ∧ y.ack = x.ack ∧ y.tx = x.tx ∧ y.queue = x.queue

/-- From `s` to `u` line port `n` at most shuts links of its own. -/
structure Shuts (n : Nat) (s u : State) : Prop where
  others : ∀ k, k ≠ n → u.lp k = s.lp k
  service : (u.lp n).service = (s.lp n).service
  en : u.flag F.plxCtlEn n = s.flag F.plxCtlEn n
  links : ∀ m, (s.ls n m).works (u.ls n m) ∨ (u.ls n m).shut

theorem LineSlot.works_refl (x : LineSlot) : x.works x := ⟨rfl, rfl, rfl, rfl, rfl⟩

theorem LineSlot.works_shut {x y : LineSlot} (h : x.works y) (k : x.shut) : y.shut := by
  obtain ⟨h₁, h₂, h₃, h₄, h₅⟩ := h
  rw [LineSlot.shut, h₁, h₂, h₃, h₄, h₅]
  exact k

theorem LineSlot.works_trans {x y z : LineSlot} (h : x.works y) (k : y.works z) : x.works z := by
  obtain ⟨h₁, h₂, h₃, h₄, h₅⟩ := h
  rw [LineSlot.works, ← h₁, ← h₂, ← h₃, ← h₄, ← h₅]
  exact k

namespace Shuts

variable {n : Nat} {s u v : State}

theorem of_ports (hports : u.plx.ports = s.plx.ports) (hregs : u.regs = s.regs) : Shuts n s u := by
  have hlp (k : Nat) : u.lp k = s.lp k := congrArg (tget LinePort.init · k) hports
  refine ⟨fun k _ => hlp k, by rw [hlp], by rw [State.flag, State.flag, State.reg, State.reg, hregs], fun m => .inl ?_⟩
  rw [State.ls, State.ls, hlp]
  exact LineSlot.works_refl _

theorem refl (s : State) : Shuts n s s := of_ports rfl rfl

theorem trans (h : Shuts n s u) (k : Shuts n u v) : Shuts n s v := by
  refine ⟨fun i hi => (k.others i hi).trans (h.others i hi), k.service.trans h.service, k.en.trans h.en, fun m => ?_⟩
  rcases k.links m with hk | hk
  · exact (h.links m).imp (LineSlot.works_trans · hk) (LineSlot.works_shut hk)
  · exact .inr hk

theorem setLs (s : State) (n m : Nat) (x : LineSlot) (h : (s.ls n m).works x ∨ x.shut) : Shuts n s (s.setLs n m x) := by
  refine ⟨fun k hk => ?_, ?_, rfl, fun k => ?_⟩
  · rw [State.setLs, State.lp_setLp, if_neg hk]
  · rw [State.setLs, State.lp_setLp, if_pos rfl]
  · rw [State.ls_setLs]
    split
    next hk => exact hk ▸ h
    next => exact .inl (LineSlot.works_refl _)

theorem setLp (s : State) (n : Nat) (p : LinePort) (hservice : p.service = (s.lp n).service) (hslots : p.slots = (s.lp n).slots) :
    Shuts n s (s.setLp n p) := by
  refine ⟨fun k hk => ?_, ?_, rfl, fun k => .inl ?_⟩
  · rw [State.lp_setLp, if_neg hk]
  · rw [State.lp_setLp, if_pos rfl, hservice]
  · rw [State.ls, State.ls, State.lp_setLp, if_pos rfl, hslots]
    exact LineSlot.works_refl _

theorem foldl {β : Type} (f : State → β → State) (hf : ∀ u b, (u.lp n).service = (s.lp n).service → Shuts n u (f u b)) (l : List β) :
    Shuts n s (l.foldl f s) :=
  foldl_keeps (Shuts n s) f (fun u b h => h.trans (hf u b h.service)) l s (refl s)

end Shuts

theorem State.countFail_shuts (s : State) (n : Nat) (f : LineFrame) : Shuts n s (s.countFail f) := by
  unfold State.countFail
  (repeat' split) <;> exact .of_ports rfl rfl

theorem State.endOffer_shuts (s : State) (n m : Nat) : Shuts n s (s.endOffer n m) := by
  unfold State.endOffer
  dsimp only
  (repeat' split) <;> first | exact .setLs _ _ _ _ (.inl ⟨rfl, rfl, rfl, rfl, rfl⟩) | exact .refl _

/-- On a port out of service no offer begins. -/
theorem State.nextOffer_shuts (s : State) (n m : Nat) (h : (s.lp n).service = false) : Shuts n s (s.nextOffer n m) := by
  unfold State.nextOffer
  dsimp only
  split
  · split
    · exact .setLs _ _ _ _ (.inl ⟨rfl, rfl, rfl, rfl, rfl⟩)
    · rw [if_pos (by simp [State.linkOn, h])]
      exact .refl _
  · exact .refl _

theorem State.offerDone_shuts (s : State) (n m node version : Nat) (ok : Bool) (h : (s.lp n).service = false) :
    Shuts n s (s.offerDone n m node version ok) := by
  unfold State.offerDone
  extract_lets s₁ x
  have hnode : Shuts n s s₁ := by
    unfold s₁
    split
    · exact .of_ports rfl rfl
    · exact .refl _
  clear_value s₁
  split
  next o _ =>
    split
    · have hset : Shuts n s₁ (s₁.setLs n m { x with offer := some { o with left := o.left.filter fun k => decide (k ≠ node) } }) :=
        .setLs _ _ _ _ (.inl ⟨rfl, rfl, rfl, rfl, rfl⟩)
      have hend := (hnode.trans hset).trans (State.endOffer_shuts _ n m)
      exact hend.trans (State.nextOffer_shuts _ _ _ (hend.service.trans h))
    · exact hnode
  next => exact hnode

/-- A frame that ends unsent on a port out of service ends its job, and begins nothing on the line. -/
theorem State.jobDone_shuts (s : State) (n m : Nat) (f : LineFrame) (result : Nat) (h : (s.lp n).service = false) :
    Shuts n s (s.jobDone n m f false result) := by
  unfold State.jobDone
  split
  · split <;> exact .of_ports (by simp) (by simp)
  · exact s.offerDone_shuts _ _ _ _ _ h
  · rw [if_neg (by simp)]
    exact .refl _
  · exact .refl _
  · exact .refl _

theorem State.sendEnds_shuts (s : State) (n : Nat) : Shuts n s (s.sendEnds n) := by
  unfold State.sendEnds
  dsimp only
  (repeat' split) <;> first | exact .setLp _ _ _ rfl rfl | exact .refl _

theorem State.unplace_shuts (s : State) (n : Nat) (c : Ctx) : Shuts n s (s.unplace c) := .of_ports rfl rfl

theorem Shuts.replace {n m : Nat} {s u : State} {x : LineSlot} (h : Shuts n (s.setLs n m x) u) (hm : (u.ls n m).shut) : Shuts n s u := by
  obtain ⟨hothers, hservice, hen, hlinks⟩ := h
  refine ⟨fun k hk => ?_, ?_, hen, fun k => ?_⟩
  · rw [hothers k hk, State.setLs, State.lp_setLp, if_neg hk]
  · rw [hservice, State.setLs, State.lp_setLp, if_pos rfl]
  · by_cases hk : k = m
    · exact .inr (hk ▸ hm)
    · have := hlinks k
      rwa [State.ls_setLs, if_neg hk] at this

theorem Shuts.serviceOff {n m : Nat} {s u : State} {x : LineSlot} (h : Shuts n (s.setLs n m x) u) : (u.lp n).service = (s.lp n).service := by
  rw [h.service, State.setLs, State.lp_setLp, if_pos rfl]

/-- What an ended queue leaves: the link without it. -/
theorem State.endQueue_shuts (s : State) (n m : Nat) (h : (s.lp n).service = false) :
    Shuts n (s.setLs n m { s.ls n m with queue := [], draw := none, await := none }) (s.endQueue n m) := by
  refine Shuts.foldl _ (fun u f hu => ?_) _
  dsimp only
  have hlp : (u.lp n).service = false := by
    rw [hu, State.setLs, State.lp_setLp, if_pos rfl]
    exact h
  have hcount := u.countFail_shuts n f
  split
  · exact hcount
  · exact hcount.trans (State.jobDone_shuts _ _ _ _ _ (hcount.service.trans hlp))

theorem State.txOver_shuts (s : State) (n m fin : Nat) (cut : Bool) : ∃ y : LineSlot, y.cands = (s.ls n m).cands ∧
    y.rx = (s.ls n m).rx ∧ y.ack = (s.ls n m).ack ∧ y.tx = none ∧ Shuts n (s.setLs n m y) (s.txOver n m fin cut) := by
  refine ⟨_, ?_, ?_, ?_, ?_, (State.sendEnds_shuts _ n).trans (.setLs _ _ _ _ (.inl ⟨rfl, rfl, rfl, rfl, rfl⟩))⟩ <;> cases h : (s.ls n m).tx <;>
    simp [h]

/-- A link that receives nothing is shut once its transmission, if one runs, has ended and its queue has. -/
theorem State.sent_shuts (s : State) (n m fin : Nat) (b : Bool) (h : (s.lp n).service = false) (hcands : (s.ls n m).cands = [])
    (hrx : (s.ls n m).rx = none) (hack : (s.ls n m).ack = none) (htx : b = false → (s.ls n m).tx = none) :
    Shuts n s ((if b then s.txOver n m fin true else s).endQueue n m) ∧
      (((if b then s.txOver n m fin true else s).endQueue n m).ls n m).shut := by
  have hshut (v : State) (hv : (v.lp n).service = false) (hc : (v.ls n m).cands = []) (hr : (v.ls n m).rx = none)
      (ha : (v.ls n m).ack = none) (ht : (v.ls n m).tx = none) :
      Shuts n v (v.endQueue n m) ∧ ((v.endQueue n m).ls n m).shut := by
    have hend := v.endQueue_shuts n m hv
    have hm := hend.links m
    rw [State.ls_setLs, if_pos rfl] at hm
    have hshut : ((v.endQueue n m).ls n m).shut := hm.elim (LineSlot.works_shut · ⟨hc, hr, ha, ht, rfl⟩) id
    exact ⟨hend.replace hshut, hshut⟩
  cases b with
  | false => exact hshut s h hcands hrx hack (htx rfl)
  | true =>
    obtain ⟨y, hc, hr, ha, hy, hover⟩ := s.txOver_shuts n m fin true
    rw [if_pos rfl]
    generalize s.txOver n m fin true = v at hover
    have hm := hover.links m
    rw [State.ls_setLs, if_pos rfl] at hm
    have hv : (v.ls n m).cands = [] ∧ (v.ls n m).rx = none ∧ (v.ls n m).ack = none ∧ (v.ls n m).tx = none := by
      rcases hm with ⟨h₁, h₂, h₃, h₄, -⟩ | ⟨h₁, h₂, h₃, h₄, -⟩
      · exact ⟨(h₁.trans hc).trans hcands, (h₂.trans hr).trans hrx, (h₃.trans ha).trans hack, h₄.trans hy⟩
      · exact ⟨h₁, h₂, h₃, h₄⟩
    obtain ⟨hc, hr, ha, ht⟩ := hv
    obtain ⟨hend, hshut⟩ := hshut v (hover.serviceOff.trans h) hc hr ha ht
    exact ⟨(hover.trans hend).replace hshut, hshut⟩

/-- A link slot ended is shut, and the port's other links are as they were or shut. -/
theorem State.endSlot_shuts (s : State) (n m : Nat) (h : (s.lp n).service = false) :
    Shuts n s (s.endSlot n m) ∧ ((s.endSlot n m).ls n m).shut := by
  unfold State.endSlot
  extract_lets x q s₁ s₂
  have h₁ : s₁.ls n m = { x with cands := [], rx := none, ack := none, queue := q, hot := false, reserved := 0 } :=
    (s.ls_setLs n m _ m).trans (if_pos rfl)
  have htx : x.tx.isSome = false → (s₁.ls n m).tx = none := fun hnone => by rw [h₁]; simpa using hnone
  have hback {u : State} (hu : Shuts n s₁ u) (hm : (u.ls n m).shut) : Shuts n s u := hu.replace hm
  have hservice : (s₁.lp n).service = false := (Shuts.refl s₁).serviceOff.trans h
  obtain ⟨hend, hshut⟩ : Shuts n s₁ s₂ ∧ (s₂.ls n m).shut :=
    s₁.sent_shuts n m s₁.now x.tx.isSome hservice (by rw [h₁]) (by rw [h₁]) (by rw [h₁]) htx
  clear_value s₂
  exact ⟨(hback hend hshut).trans
    (((State.unplace_shuts _ _ _).trans (State.unplace_shuts _ _ _)).trans (State.unplace_shuts _ _ _)), hshut⟩

/-- Registers of a port's links that take a snapshot leave its EN. -/
theorem State.applyReg_shuts (s : State) (n m : Nat) (e : Nat × Word) (he : e.1 = famAddr .plxLsRegion n m ∨ e.1 = famAddr .plxLsTx n m) :
    Shuts n s (s.applyReg e.1 e.2) := by
  obtain ⟨hothers, hservice, -, hlinks⟩ : Shuts n s s := .refl s
  have hen : (s.applyReg e.1 e.2).reg F.plxCtlEn n = s.reg F.plxCtlEn n := by
    refine Regs.applyReg_apart _ _ _ _ _ _ ?_
    rcases he with he | he <;> rw [he] <;> simp [famAddr, famInfo, F.plxCtlEn] <;> omega
  exact ⟨hothers, hservice, by rw [State.flag, hen]; rfl, hlinks⟩

theorem State.stillWait_shuts (s : State) (n : Nat) (f : Fam) (i : Nat) (w : List Nat) : Shuts n s (s.stillWait f i w) := by
  obtain ⟨hothers, hservice, -, hlinks⟩ : Shuts n s s := .refl s
  exact ⟨hothers, hservice, rfl, hlinks⟩

theorem State.handedOver_shuts (s : State) (n : Nat) (f : Fam) (i : Nat) : Shuts n s (s.handedOver f i) := by
  obtain ⟨hothers, hservice, -, hlinks⟩ : Shuts n s s := .refl s
  exact ⟨hothers, hservice, rfl, hlinks⟩

/-- A link of a port out of service takes the snapshot, and begins nothing with it. -/
theorem State.applyLink_shuts (s : State) (n m : Nat) (h : (s.lp n).service = false) : Shuts n s (s.applyLink n m) := by
  unfold State.applyLink
  extract_lets c mine old s₁ s₂ was is moved x s₃
  have h₁ : Shuts n s s₁ := List.foldlRecOn mine _ (.refl s) fun u hu e he =>
    hu.trans (u.applyReg_shuts n m e (by simpa [mine] using (List.mem_filter.1 he).2))
  have h₂ : Shuts n s s₂ := h₁.trans (s₁.stillWait_shuts _ _ _ _)
  have h₃ : Shuts n s s₃ := by
    refine h₂.trans ?_
    unfold s₃
    split
    · exact (s₂.endSlot_shuts n m (h₂.service.trans h)).1
    split
    · exact .setLs _ _ _ _ (.inl ⟨rfl, rfl, rfl, rfl, rfl⟩)
    · exact .refl _
  rw [if_neg (by simp [State.linkOn, h₃.service, h])]
  exact h₃

theorem State.plxBoundary_shuts (s : State) (n : Nat) (h : (s.lp n).service = false) : Shuts n s (s.plxBoundary n) := by
  unfold State.plxBoundary
  extract_lets c s₁
  split
  · exact .refl _
  · have h₁ : Shuts n s s₁ := .foldl _ (fun u m hu => u.applyLink_shuts n m (hu.trans h)) _
    split
    · exact h₁.trans (s₁.handedOver_shuts _ _ _)
    · exact h₁

/-- A port that stops is out of service, and every link of it is shut. -/
theorem State.plxStop_stops (s : State) (n : Nat) : (s.plxStop n).flag F.plxCtlEn n = false ∧ ((s.plxStop n).lp n).service = false ∧
    (∀ m, m < 64 → ((s.plxStop n).ls n m).shut) ∧ ∀ k, k ≠ n → (s.plxStop n).lp k = s.lp k := by
  unfold State.plxStop
  extract_lets p₀ s₁ s₂ s₃ p s₄
  have hs₁ : (s₁.lp n).service = false := by
    unfold s₁
    rw [State.lp_setLp, if_pos rfl]
  have hreg : s₁.reg F.plxCtlEn n = 0 := State.reg_setReg_self s F.plxCtlEn n 0 0 (by decide) (by decide)
  have hen₁ : s₁.flag F.plxCtlEn n = false := by rw [State.flag, hreg]; rfl
  have hothers₁ (k : Nat) (hk : k ≠ n) : s₁.lp k = s.lp k := (State.lp_setLp _ _ _ _).trans (if_neg hk)
  clear_value s₁
  have hstep (u : State) (m : Nat) (hu : (u.lp n).service = false) :
      Shuts n u (if (tget? (u.lp n).slots m).isSome then u.endSlot n m else u) ∧
        ((if (tget? (u.lp n).slots m).isSome then u.endSlot n m else u).ls n m).shut := by
    split
    next => exact u.endSlot_shuts n m hu
    next hm =>
      refine ⟨.refl _, ?_⟩
      rw [State.ls, tget, Option.not_isSome_iff_eq_none.1 hm]
      exact ⟨rfl, rfl, rfl, rfl, rfl⟩
  have hlinks : ∀ j, Shuts n s₁ ((List.range j).foldl (fun s m => if (tget? (s.lp n).slots m).isSome then s.endSlot n m else s) s₁) ∧
      ∀ m < j, (((List.range j).foldl (fun s m => if (tget? (s.lp n).slots m).isSome then s.endSlot n m else s) s₁).ls n m).shut := by
    intro j
    induction j with
    | zero => exact ⟨.refl _, fun m hm => absurd hm (by omega)⟩
    | succ j ih =>
      obtain ⟨hj, hshut⟩ := ih
      rw [List.range_succ, List.foldl_append]
      generalize (List.range j).foldl _ s₁ = u at hj hshut
      obtain ⟨hk, hkshut⟩ := hstep u j (hj.service.trans hs₁)
      refine ⟨hj.trans hk, fun m hm => ?_⟩
      rcases Nat.lt_succ_iff_lt_or_eq.1 hm with hm | rfl
      · exact (hk.links m).elim (LineSlot.works_shut · (hshut m hm)) id
      · exact hkshut
  obtain ⟨h₂, hshut⟩ : Shuts n s₁ s₂ ∧ ∀ m < 64, (s₂.ls n m).shut := hlinks 64
  clear_value s₂
  have hend : Shuts n s₂ (s₄.plxBoundary n) := by
    have h₄ : Shuts n s₂ s₄ := (s₂.sendEnds_shuts n).trans (.setLp _ _ _ rfl rfl)
    exact h₄.trans (s₄.plxBoundary_shuts n (h₄.service.trans (h₂.service.trans hs₁)))
  have hall : Shuts n s₁ (s₄.plxBoundary n) := h₂.trans hend
  refine ⟨hall.en.trans hen₁, hall.service.trans hs₁, fun m hm => ?_, fun k hk => (hall.others k hk).trans (hothers₁ k hk)⟩
  exact (hend.links m).elim (LineSlot.works_shut · (hshut m hm)) id

theorem State.phaseMet_congr {s u : State} {n : Nat} (hm : u.mns = s.mns) (hs : n < 24 → u.reg F.mnsPortCfgSrc n = s.reg F.mnsPortCfgSrc n) :
    u.phaseMet n = s.phaseMet n := by
  have hsrc : u.timerSrc n = s.timerSrc n := by
    unfold State.timerSrc
    split
    next hn => exact hs hn
    next => rfl
  have hphase (x : Nat) : u.phase x = s.phase x := by rw [State.phase, State.phase, hm]
  rw [State.phaseMet, State.phaseMet, hsrc, hphase]

theorem State.plxStart_starts (s : State) (n : Nat) : (s.plxStart n).flag F.plxCtlEn n = true ∧ ((s.plxStart n).lp n).service = false ∧
    ((s.plxStart n).lp n).conv = false ∧ ((s.plxStart n).lp n).met = s.phaseMet n ∧ ∀ k, k ≠ n → (s.plxStart n).lp k = s.lp k := by
  unfold State.plxStart
  extract_lets s₁ p
  have hreg : s₁.reg F.plxCtlEn n = 1 := State.reg_setReg_self s F.plxCtlEn n 0 1 (by decide) (by decide)
  have hmet : s₁.phaseMet n = s.phaseMet n := by
    refine State.phaseMet_congr rfl fun hn => State.reg_setReg_ne _ _ _ _ _ _ _ _ ?_
    simp [famAddr, famInfo, F.plxCtlEn, F.mnsPortCfgSrc]
    omega
  have hothers (k : Nat) : s₁.lp k = s.lp k := rfl
  clear_value s₁
  refine ⟨?_, ?_, ?_, ?_, fun k hk => ?_⟩
  · rw [State.flag, show (s₁.setLp n _).reg F.plxCtlEn n = s₁.reg F.plxCtlEn n from rfl, hreg]
    rfl
  · rw [State.lp_setLp, if_pos rfl]
  · rw [State.lp_setLp, if_pos rfl]
  · rw [State.lp_setLp, if_pos rfl, hmet]
  · rw [State.lp_setLp, if_neg hk, hothers]

theorem State.setLp_other (s : State) (n : Nat) (p : LinePort) (k : Nat) (hk : k ≠ n) : (s.setLp n p).lp k = s.lp k :=
  (State.lp_setLp _ _ _ _).trans (if_neg hk)

theorem State.setLp_same (s : State) (n : Nat) (p : LinePort) : (s.setLp n p).lp n = p := (State.lp_setLp _ _ _ _).trans (if_pos rfl)

/-- FREEZE written: the register holds it, and a running port's estimate is held or goes on. -/
theorem State.calFreeze_does (s : State) (n : Nat) (on : Bool) : (s.calFreeze n on).flag F.plxCalFreeze n = on ∧
    (∀ k, k ≠ n → (s.calFreeze n on).lp k = s.lp k) ∧ ∃ v, ((s.lp n).frozen = true → v = (s.lp n).spur) ∧
      (s.calFreeze n on).lp n =
        if s.flag F.plxCtlEn n = true then { s.lp n with frozen := on, spur := v, spurAt := s.now } else s.lp n := by
  unfold State.calFreeze
  extract_lets s₁
  have hreg : s₁.reg F.plxCalFreeze n = b2n on := by
    rw [show s₁.reg F.plxCalFreeze n = b2n on % 2 ^ 1 from State.reg_setReg_self s F.plxCalFreeze n 0 (b2n on) (by decide) (by decide)]
    cases on <;> rfl
  have hfreeze : s₁.flag F.plxCalFreeze n = on := by
    rw [State.flag, hreg]
    cases on <;> rfl
  have hen : s₁.flag F.plxCtlEn n = s.flag F.plxCtlEn n := by
    rw [State.flag, State.flag, show s₁.reg F.plxCtlEn n = s.reg F.plxCtlEn n from State.reg_setReg_ne _ _ _ _ _ _ _ _ (by
      simp [famAddr, famInfo, F.plxCtlEn, F.plxCalFreeze])]
  have hlp (k : Nat) : s₁.lp k = s.lp k := rfl
  have hnow : s₁.now = s.now := rfl
  rw [hen]
  have hspur : (s.lp n).frozen = true → s₁.spurNow n = (s.lp n).spur := fun h => by simp [State.spurNow, hlp, h]
  split
  next =>
    refine ⟨hfreeze, fun k hk => State.setLp_other _ _ _ _ hk, s₁.spurNow n, hspur, ?_⟩
    exact State.setLp_same _ _ _
  next => exact ⟨hfreeze, fun k _ => hlp k, (s.lp n).spur, fun _ => rfl, hlp n⟩

/-- A port enters service: an empty census, and its settings reported. -/
theorem State.enterService_does (s : State) (n : Nat) : ((s.enterService n).lp n).service = true ∧
    ((s.enterService n).lp n).serviceAt = s.now ∧ ((s.enterService n).lp n).ordinal = 0 ∧ ((s.enterService n).lp n).cells = [] ∧
    Raised s (s.enterService n) s.now 0x403 0x10 n (be 1 (s.reg F.plxCfgPlan n)) ∧ ∀ k, k ≠ n → (s.enterService n).lp k = s.lp k := by
  unfold State.enterService
  extract_lets first p s₁ plx s₂ st
  have hports : s₂.plx.ports = s₁.plx.ports := by
    unfold s₂
    split <;> rfl
  have hraise (k : Nat) (data : List Byte) : (s₂.raise 0x403 0x10 n data).lp k = s₁.lp k := by
    rw [State.lp, State.lp, ← hports]
    simp
  have hsame : s₂.stw = s.stw ∧ s₂.regs = s.regs ∧ s₂.fwRuns = s.fwRuns ∧ s₂.lin = s.lin ∧ s₂.now = s.now := by
    unfold s₂
    split <;> exact ⟨rfl, rfl, rfl, rfl, rfl⟩
  obtain ⟨hstw, hregs, hfw, hlin, hnow⟩ := hsame
  have hp : s₁.lp n = _ := State.setLp_same s n _
  have hothers (k : Nat) (hk : k ≠ n) : s₁.lp k = s.lp k := State.setLp_other _ _ _ _ hk
  clear_value s₂
  refine ⟨?_, ?_, ?_, ?_, ?_, fun k hk => by rw [hraise, hothers k hk]⟩
  · rw [hraise, hp]
  · rw [hraise, hp]
  · rw [hraise, hp]
  · rw [hraise, hp]
  · rw [List.append_assoc, reg_of_regs hregs, ← hnow]
    exact raised_congr (s₂.raiseAt_raised _ _ _ _ _ _) (by rw [hstw]) hfw.symm (by rw [hlin]) (.of_sess rfl)

/-- Settles O43. -/
theorem linePortsRunAndStop : Obligations.LinePortsRunAndStop := by
  unfold Obligations.LinePortsRunAndStop
  intro t n s hon hn others
  have hquiet (u : State) (h : u = s.tick t) : Only [] s u := h ▸ s.tick_only t
  have htick {parts : List Block} {u : State} (h : Only parts (s.tick t) u) : Only parts s u := by
    exact only_mono ((s.tick_only t).trans h) (by simp)
  refine ⟨fun hen => does_whenOn hon ?_, fun hen => does_whenOn hon ?_, fun hen => does_whenOn hon ?_,
    fun hen => does_whenOn hon ?_, does_whenOn hon ?_, does_whenOn hon ?_, does_whenOn hon ?_,
    fun spur v hv => ⟨fun hen h90 => does_whenOn hon ?_, fun hno => does_whenOn hon ?_⟩,
    fun hready hout => does_whenOn hon ?_, fun hno => does_whenOn hon ?_, does_whenOn hon ?_⟩
  · rw [if_pos (show n < 24 ∧ (s.tick t).flag F.plxCtlEn n = false from ⟨hn, hen⟩)]
    obtain ⟨hflag, hservice, hconv, hmet, hothers⟩ := (s.tick t).plxStart_starts n
    simp only [others, State.flag, State.reg, State.lp, State.kept_leaves]
    exact ⟨hflag, hservice, hconv, hmet, hothers, htick (by simp [only_iff])⟩
  · rw [if_pos (show n < 24 ∧ (s.tick t).flag F.plxCtlEn n = true from ⟨hn, hen⟩)]
    obtain ⟨hflag, hservice, hshut, hothers⟩ := (s.tick t).plxStop_stops n
    simp only [others, State.flag, State.reg, State.lp, State.ls, State.kept_leaves]
    exact ⟨hflag, hservice, hshut, hothers, htick (by simp [only_iff])⟩
  · exact hquiet _ (if_neg (by simp [hen]))
  · exact hquiet _ (if_neg (by simp [hen]))
  · rw [if_pos hn]
    unfold State.calRestart
    split
    next hen =>
      refine ⟨fun k hk => State.setLp_other _ _ _ _ hk, htick (by simp [only_iff]), ?_⟩
      rw [State.setLp_same, if_pos (show s.flag F.plxCtlEn n = true from hen)]
      rfl
    next hen =>
      refine ⟨fun k _ => rfl, htick (only_refl _ _), ?_⟩
      rw [if_neg (show ¬ s.flag F.plxCtlEn n = true from hen)]
      rfl
  · rw [if_pos hn]
    obtain ⟨hflag, hothers, hheld⟩ := (s.tick t).calFreeze_does n true
    exact ⟨hflag, hothers, htick (by simp [only_iff]), hheld⟩
  · rw [if_pos hn]
    obtain ⟨hflag, hothers, hheld⟩ := (s.tick t).calFreeze_does n false
    exact ⟨hflag, hothers, htick (by simp [only_iff]), hheld⟩
  · dsimp only
    rw [show (s.tick t).lp n = s.lp n from rfl, ← hv, if_pos ⟨hn, hen, h90⟩]
    exact ⟨State.setLp_same _ _ _, fun k hk => State.setLp_other _ _ _ _ hk, htick (by simp [only_iff])⟩
  · refine hquiet _ ?_
    dsimp only
    rw [show (s.tick t).lp n = s.lp n from rfl, ← hv, if_neg]
    rintro ⟨-, hen, h90⟩
    rcases hno with hno | hno
    · exact absurd (hen.symm.trans hno) (by simp)
    · omega
  · rw [if_pos (show (s.tick t).lineReady n = true ∧ ((s.tick t).lp n).service = false from ⟨hready, hout⟩)]
    obtain ⟨hservice, hat, hord, hcells, hraised, hothers⟩ := (s.tick t).enterService_does n
    exact ⟨hservice, hat, hord, hcells, raised_congr hraised rfl rfl rfl (.of_sess rfl), hothers, htick (by simp [only_iff])⟩
  · refine hquiet _ (if_neg ?_)
    rintro ⟨hready, hout⟩
    rcases hno with hno | hno
    · exact absurd (hready.symm.trans hno) (by simp)
    · exact absurd (hout.symm.trans hno) (by simp)
  · rw [if_pos hn]
    have hlp : ((s.tick t).txlimOff n).lp n = (s.lp n).setScale 0 (s.tick t).now := State.setLp_same _ _ _
    have hflag : ((s.tick t).txlimOff n).reg F.plxTxlimEn n = 0 := State.reg_setReg_self (s.tick t) F.plxTxlimEn n 0 0 (by decide) (by decide)
    have hothers (k : Nat) (hk : k ≠ n) : ((s.tick t).txlimOff n).lp k = s.lp k := State.setLp_other _ _ _ _ hk
    have hkept : ((((s.tick t).txlimOff n).kept (s.tick t) .plxTxlim n).lp) = ((s.tick t).txlimOff n).lp := by
      funext k
      simp [State.lp]
    refine ⟨?_, ?_, fun k hk => by rw [hkept, hothers k hk], ?_, fun r hr => ?_, htick (by simp [only_iff])⟩
    · rw [State.flag, reg_of_regs (s := (s.tick t).txlimOff n) (by simp), hflag]
      rfl
    · rw [hkept, hlp]
      rfl
    · rw [hkept, hlp]
      exact LinePort.setScale_gain _ _ _
    · rw [hkept, hlp]
      exact LinePort.setScale_gain_after _ _ _ _ hr

/-! ## The transmit-current limit, and nodes that lapse or are lost (08 R171, R175, R176) -/

theorem setScale_ramps (p : LinePort) (k now : Nat) : (p.setScale k now).gain now = p.gain now ∧
    ∀ r, now + 20000 ≤ r → (p.setScale k now).gain r = scaleGain k :=
  ⟨LinePort.setScale_gain _ _ _, fun _ hr => LinePort.setScale_gain_after _ _ _ _ hr⟩

/-- A frame to a SHORT, or by way of it, that has not ended. -/
def LineFrame.bound (f : LineFrame) (short : Nat) : Prop := (f.node = short ∨ f.dst = short) ∧ f.done = false

/-- From `s` to `u` a SHORT stays without an entry: other entries move in their counts of failure and their maps alone, the lining
record of the entry's end stays, and no new frame is bound for it. -/
structure Gone (short : Nat) (s u : State) : Prop where
  free : ∀ e ∈ u.plx.nodes, e.1 ≠ short
  others : ∀ k z, u.node? k = some z → ∃ x, s.node? k = some x ∧ z = { x with txFail := z.txFail, mapver := z.mapver, spent := z.spent }
  stay : ∀ k, (s.node? k).isSome = true → (u.node? k).isSome = true
  record : ({ what := .node short none, ref := none } : LinWrite) ∈ s.lin.writes →
    ({ what := .node short none, ref := none } : LinWrite) ∈ u.lin.writes
  sea : u.sea = s.sea
  queues : ∀ n m, ∀ f ∈ (u.ls n m).queue, f.bound short → f ∈ (s.ls n m).queue

namespace Gone

variable {short : Nat} {s u v : State}

theorem of_parts (hfree : ∀ e ∈ s.plx.nodes, e.1 ≠ short) (hnodes : u.plx.nodes = s.plx.nodes) (hports : u.plx.ports = s.plx.ports)
    (hlin : u.lin = s.lin) (hsea : u.sea = s.sea) : Gone short s u := by
  have hnode (k : Nat) : u.node? k = s.node? k := congrArg (tget? · k) hnodes
  have hls (n m : Nat) : u.ls n m = s.ls n m := congrArg (fun p => tget LineSlot.init (tget LinePort.init p n).slots m) hports
  exact ⟨hnodes ▸ hfree, fun k z hz => ⟨z, hnode k ▸ hz, rfl⟩, fun k => by rw [hnode]; exact id, by rw [hlin]; exact id, hsea,
    fun n m f hf _ => hls n m ▸ hf⟩

theorem refl (hfree : ∀ e ∈ s.plx.nodes, e.1 ≠ short) : Gone short s s := of_parts hfree rfl rfl rfl rfl

theorem trans (h : Gone short s u) (k : Gone short u v) : Gone short s v := by
  refine ⟨k.free, fun i z hz => ?_, fun i hi => k.stay i (h.stay i hi), fun hr => k.record (h.record hr), k.sea.trans h.sea,
    fun n m f hf hb => h.queues n m f (k.queues n m f hf hb) hb⟩
  obtain ⟨y, hy, hyz⟩ := k.others i z hz
  obtain ⟨x, hx, hxy⟩ := h.others i y hy
  rw [hxy] at hyz
  exact ⟨x, hx, hyz⟩

theorem setLs (hfree : ∀ e ∈ s.plx.nodes, e.1 ≠ short) (n m : Nat) (x : LineSlot)
    (h : ∀ f ∈ x.queue, f.bound short → f ∈ (s.ls n m).queue) : Gone short s (s.setLs n m x) := by
  obtain ⟨-, hothers, hstay, hrecord, -, -⟩ := refl hfree
  refine ⟨hfree, hothers, hstay, hrecord, rfl, fun i j f hf hb => ?_⟩
  by_cases hi : i = n
  · subst hi
    rw [State.ls_setLs] at hf
    split at hf
    next hj => exact hj ▸ h f hf hb
    next => exact hf
  · rwa [State.ls, State.setLs, State.lp_setLp, if_neg hi] at hf

theorem setNode (hfree : ∀ e ∈ s.plx.nodes, e.1 ≠ short) (k : Nat) (x y : Node) (hx : s.node? k = some x)
    (hy : y = { x with txFail := y.txFail, mapver := y.mapver, spent := y.spent }) : Gone short s (s.setNode k (some y)) := by
  have hk : k ≠ short := hfree _ (tget?_mem _ _ _ hx)
  have hnode (i : Nat) : (s.setNode k (some y)).node? i = if i = k then some y else s.node? i := tget?_tset _ _ _ _
  refine ⟨fun e he => ?_, fun i z hz => ?_, fun i hi => ?_, fun hr => ?_, rfl, fun n m f hf _ => hf⟩
  · rcases tset_keys _ _ _ e he with rfl | he
    · exact hk
    · exact hfree e he
  · rw [hnode] at hz
    split at hz
    next hi =>
      cases hz
      exact ⟨x, hi ▸ hx, hy⟩
    next => exact ⟨z, hz, rfl⟩
  · rw [hnode]
    split
    · rfl
    · exact hi
  · exact List.mem_append_left _ (List.mem_filter.2 ⟨hr, by simpa using Ne.symm hk⟩)

theorem foldl {β : Type} (f : State → β → State) (l : List β) (hfree : ∀ e ∈ s.plx.nodes, e.1 ≠ short)
    (hf : ∀ u, ∀ b ∈ l, Gone short s u → Gone short u (f u b)) : Gone short s (l.foldl f s) :=
  List.foldlRecOn l f (refl hfree) fun u hu b hb => hu.trans (hf u b hb hu)

end Gone

theorem mem_insertFrame {f g : LineFrame} {l : List LineFrame} (h : g ∈ insertFrame f l) : g = f ∨ g ∈ l := by
  induction l with
  | nil => simpa [insertFrame] using h
  | cons x l ih =>
    simp only [insertFrame] at h
    split at h
    · simpa using h
    · rcases List.mem_cons.1 h with rfl | h
      · exact .inr List.mem_cons_self
      · exact (ih h).imp id (List.mem_cons_of_mem _)

theorem State.contend_gone (s : State) (short n m at_ : Nat) (hfree : ∀ e ∈ s.plx.nodes, e.1 ≠ short) : Gone short s (s.contend n m at_) := by
  unfold State.contend
  dsimp only
  (repeat' split) <;> first | exact .setLs hfree _ _ _ fun _ hf _ => hf | exact .refl hfree

theorem State.linkQuiet_gone (s : State) (short n m : Nat) (hfree : ∀ e ∈ s.plx.nodes, e.1 ≠ short) : Gone short s (s.linkQuiet n m) := by
  unfold State.linkQuiet
  dsimp only
  split
  · exact .of_parts hfree rfl rfl rfl rfl
  · exact .refl hfree

theorem State.countFail_gone (s : State) (short : Nat) (f : LineFrame) (hfree : ∀ e ∈ s.plx.nodes, e.1 ≠ short) :
    Gone short s (s.countFail f) := by
  unfold State.countFail
  split
  · split
    next y hy => exact .setNode hfree _ y _ hy rfl
    next => exact .refl hfree
  · exact .refl hfree

theorem State.queueLine_gone (s : State) (short n m : Nat) (f : LineFrame) (hfree : ∀ e ∈ s.plx.nodes, e.1 ≠ short)
    (hf : ¬ f.bound short) : Gone short s (s.queueLine n m f) := by
  unfold State.queueLine State.queueLineAt
  extract_lets x q s₁ s₂
  have h₁ : Gone short s s₁ := .setLs hfree _ _ _ fun g hg hb => (mem_insertFrame hg).resolve_left fun e => hf (e ▸ hb)
  have h₂ : Gone short s s₂ := h₁.trans (.of_parts h₁.free (by simp [s₂]) (by simp [s₂]) (by simp [s₂]) (by simp [s₂]))
  split
  · exact h₂
  · exact h₂.trans (s₂.contend_gone _ _ _ _ h₂.free)

theorem State.endOffer_gone (s : State) (short n m : Nat) (hfree : ∀ e ∈ s.plx.nodes, e.1 ≠ short) : Gone short s (s.endOffer n m) := by
  unfold State.endOffer
  dsimp only
  (repeat' split) <;> first | exact .setLs hfree _ _ _ fun _ hf _ => hf | exact .refl hfree

/-- A map is offered to nodes that have entries, and so not to a SHORT without one. -/
theorem State.startOffer_gone (s : State) (short n m : Nat) (p : PMap) (hfree : ∀ e ∈ s.plx.nodes, e.1 ≠ short) :
    Gone short s (s.startOffer n m p) := by
  unfold State.startOffer
  extract_lets x v p nodes s₁ s₂
  have hnodes : ∀ k ∈ nodes, k ≠ short := by
    intro k hk
    obtain ⟨e, he, rfl⟩ := List.mem_map.1 hk
    exact hfree e (List.mem_filter.1 he).1
  have h₁ : Gone short s s₁ := .setLs hfree _ _ _ fun _ hf _ => hf
  have h₂ : Gone short s s₂ := h₁.trans (.of_parts h₁.free rfl rfl rfl rfl)
  have h₃ := h₂.trans (.foldl (fun s k => s.sendOffer n m k p) nodes h₂.free fun u k hk hu => by
    have hseq : Gone short u (u.newSeq k).1 := .of_parts hu.free rfl rfl rfl rfl
    exact hseq.trans (State.queueLine_gone _ _ _ _ _ hseq.free fun hb => hb.1.elim (hnodes k hk) (hnodes k hk)))
  exact h₃.trans (State.endOffer_gone _ _ _ _ h₃.free)

theorem State.nextOffer_gone (s : State) (short n m : Nat) (hfree : ∀ e ∈ s.plx.nodes, e.1 ≠ short) : Gone short s (s.nextOffer n m) := by
  unfold State.nextOffer
  dsimp only
  split
  · split
    · exact .setLs hfree _ _ _ fun _ hf _ => hf
    split
    · exact .refl hfree
    · exact s.startOffer_gone _ _ _ _ hfree
  · exact .refl hfree

theorem State.offerDone_gone (s : State) (short n m node version : Nat) (ok : Bool) (hfree : ∀ e ∈ s.plx.nodes, e.1 ≠ short) :
    Gone short s (s.offerDone n m node version ok) := by
  unfold State.offerDone
  extract_lets s₁ x
  have h₁ : Gone short s s₁ := by
    unfold s₁
    split
    next y hy => exact .setNode hfree _ y _ hy rfl
    next => exact .refl hfree
  clear_value s₁
  split
  next o _ =>
    split
    · have hset : Gone short s₁ (s₁.setLs n m { x with offer := some { o with left := o.left.filter fun k => decide (k ≠ node) } }) :=
        .setLs h₁.free _ _ _ fun _ hf _ => hf
      have hend := (h₁.trans hset).trans (State.endOffer_gone _ _ n m hset.free)
      exact hend.trans (State.nextOffer_gone _ _ _ _ hend.free)
    · exact h₁
  next => exact h₁

theorem State.jobDone_gone (s : State) (short n m : Nat) (f : LineFrame) (result : Nat) (hfree : ∀ e ∈ s.plx.nodes, e.1 ≠ short) :
    Gone short s (s.jobDone n m f false result) := by
  unfold State.jobDone
  split
  · split <;> exact .of_parts hfree (by simp) (by simp) (by simp) (by simp)
  · exact s.offerDone_gone _ _ _ _ _ _ hfree
  · rw [if_neg (by simp)]
    exact .refl hfree
  · exact .refl hfree
  · exact .refl hfree

/-- The frames bound for a SHORT without an entry leave a link, and none comes to another. -/
theorem State.dropFrames_gone (s : State) (short n m : Nat) (hfree : ∀ e ∈ s.plx.nodes, e.1 ≠ short) :
    Gone short s (s.dropFrames n m short) ∧ ∀ f ∈ ((s.dropFrames n m short).ls n m).queue, ¬ f.bound short := by
  unfold State.dropFrames
  extract_lets x hit air gone stay s₁ y s₂
  have hstay : ∀ f ∈ stay, ¬ f.bound short := by
    have hhit (f : LineFrame) (hno : hit f = false) : ¬ f.bound short := fun hb => by simp [hit] at hno; exact hb.1.elim hno.1 hno.2
    intro f hf
    unfold stay at hf
    split at hf
    next g l _ =>
      rcases List.mem_append.1 hf with hf | hf
      · split at hf
        · split at hf
          · cases List.mem_singleton.1 hf
            exact fun hb => absurd hb.2 (by simp)
          · cases hf
        next hno =>
          cases List.mem_singleton.1 hf
          exact hhit f (by simpa using hno)
      · exact hhit f (by simpa using (List.mem_filter.1 hf).2)
    next => cases hf
  have h₁ : Gone short s s₁ := .setLs hfree _ _ _ fun f hf hb => absurd hb (hstay f hf)
  have h₂ : Gone short s₁ s₂ := by
    unfold s₂
    split
    · have hset : Gone short s₁ (s₁.setLs n m { s₁.ls n m with await := none, draw := none }) := .setLs h₁.free _ _ _ fun _ hf _ => hf
      have hcontend := hset.trans (State.contend_gone _ _ n m s.now hset.free)
      exact hcontend.trans (State.linkQuiet_gone _ _ _ _ hcontend.free)
    · exact s₁.linkQuiet_gone _ _ _ h₁.free
  have h₃ := h₂.trans (.foldl (fun s f => (if air = true ∧ x.queue.head? = some f then s else s.countFail f).jobDone n m f false 2) gone
    h₂.free fun u f _ hu => by
      have hcount : Gone short u (if air = true ∧ x.queue.head? = some f then u else u.countFail f) := by
        split
        · exact .refl hu.free
        · exact u.countFail_gone _ _ hu.free
      exact hcount.trans (State.jobDone_gone _ _ _ _ _ _ hcount.free))
  refine ⟨h₁.trans h₃, fun f hf hb => ?_⟩
  have := h₃.queues n m f hf hb
  rw [show (s₁.ls n m).queue = stay from congrArg LineSlot.queue ((s.ls_setLs n m _ m).trans (if_pos rfl))] at this
  exact hstay f this hb

theorem tdel_keys {α : Type} (l : Tab α) (k : Nat) : ∀ e ∈ tdel l k, e.1 ≠ k ∧ e ∈ l := by
  induction l with
  | nil => simp [tdel]
  | cons a l ih =>
    intro e he
    simp only [tdel] at he
    split at he
    next => exact ⟨(ih e he).1, List.mem_cons_of_mem _ (ih e he).2⟩
    next ha =>
      rcases List.mem_cons.1 he with rfl | he
      · exact ⟨ha, List.mem_cons_self⟩
      · exact ⟨(ih e he).1, List.mem_cons_of_mem _ (ih e he).2⟩

/-- With a node's entry its frames leave every link. -/
theorem State.dropNode_gone (s : State) (short : Nat) (hfree : ∀ e ∈ s.plx.nodes, e.1 ≠ short) :
    Gone short s (s.dropNode short) ∧ ∀ n m, ∀ f ∈ ((s.dropNode short).ls n m).queue, ¬ f.bound short := by
  unfold State.dropNode
  generalize hkeys : (s.plx.ports.flatMap fun p => p.2.slots.map fun e => (p.1, e.1)) = keys
  have hall : ∀ (l : List (Nat × Nat)) (u : State), (∀ e ∈ u.plx.nodes, e.1 ≠ short) →
      Gone short u (l.foldl (fun s k => s.dropFrames k.1 k.2 short) u) ∧
        ∀ k ∈ l, ∀ f ∈ ((l.foldl (fun s k => s.dropFrames k.1 k.2 short) u).ls k.1 k.2).queue, ¬ f.bound short := by
    intro l
    induction l with
    | nil => exact fun u hu => ⟨.refl hu, fun k hk => absurd hk (by simp)⟩
    | cons a l ih =>
      intro u hu
      obtain ⟨ha, hqueue⟩ := u.dropFrames_gone short a.1 a.2 hu
      obtain ⟨hl, hqueues⟩ := ih _ ha.free
      refine ⟨ha.trans hl, fun k hk => ?_⟩
      rcases List.mem_cons.1 hk with rfl | hk
      · exact fun f hf hb => hqueue f (hl.queues _ _ f hf hb) hb
      · exact hqueues k hk
  obtain ⟨hgone, hqueues⟩ := hall keys s hfree
  refine ⟨hgone, fun n m f hf hb => ?_⟩
  by_cases hmem : (n, m) ∈ keys
  · exact hqueues _ hmem f hf hb
  · have hs := hgone.queues n m f hf hb
    have hnone : s.ls n m = LineSlot.init := by
      rw [State.ls, State.lp, tget, tget]
      cases hp : tget? s.plx.ports n with
      | none => rfl
      | some p =>
        cases hm : tget? p.slots m with
        | none => simp [hm]
        | some x =>
          refine absurd ?_ hmem
          rw [← hkeys]
          exact List.mem_flatMap.2 ⟨(n, p), tget?_mem _ _ _ hp, List.mem_map.2 ⟨(m, x), tget?_mem _ _ _ hm, rfl⟩⟩
    rw [hnone] at hs
    cases hs

/-- Settles O47. -/
theorem lineLimitsAndLosses : Obligations.LineLimitsAndLosses := by
  unfold Obligations.LineLimitsAndLosses
  constructor
  · intro t n s hon hn ramps
    have hquiet (u : State) (h : u = s.tick t) : Only [] s u := h ▸ s.tick_only t
    have htick {parts : List Block} {u : State} (h : Only parts (s.tick t) u) : Only parts s u := by
      exact only_mono ((s.tick_only t).trans h) (by simp)
    refine ⟨fun hen hsends hfree hscale => does_whenOn hon ?_, fun hno => does_whenOn hon ?_, fun hscale hclean => does_whenOn hon ?_,
      fun hsoon => does_whenOn hon ?_⟩
    · extract_lets p₀ free s₁ p slots q s₂
      rw [if_pos (by simpa using ⟨⟨hen, hsends⟩, hn⟩)]
      have hfree' : free = true := by
        unfold free
        split
        next u hu => exact decide_eq_true (hfree u hu)
        next => rfl
      rw [if_pos (by rw [Bool.and_eq_true]; exact ⟨hfree', decide_eq_true hscale⟩)]
      have hp : p = { p₀ with clean := 0, sending := some (s.tick t).now } := State.setLp_same _ _ _
      have hlp : s₂.lp n = { p.setScale (p.scale + 1) (s.tick t).now with stepped := some (s.tick t).now, slots := slots } :=
        State.setLp_same _ _ _
      obtain ⟨hgain, hafter⟩ := setScale_ramps p (p.scale + 1) (s.tick t).now
      have hramp : (s₂.lp n).scale = (s.lp n).scale + 1 ∧ (s₂.lp n).stepped = some (max s.now t) ∧ (s₂.lp n).clean = 0 ∧ ramps s₂ := by
        simp only [ramps, hlp]
        refine ⟨?_, rfl, ?_, ?_, hafter⟩
        · simp only [hp]
          rfl
        · simp only [hp]
          rfl
        · refine Eq.trans (b := p.gain (s.tick t).now) hgain ?_
          rw [hp]
          rfl
      have honly : Only [.plx, .stw, .eth] s s₂ := htick (by simp [only_iff, s₂, s₁])
      have hraise (u : State) (hu : u.plx = s₂.plx) : (u.lp n).scale = (s.lp n).scale + 1 ∧ (u.lp n).stepped = some (max s.now t) ∧
          (u.lp n).clean = 0 ∧ ramps u := by
        have hulp : u.lp n = s₂.lp n := congrArg (fun x : Plx => tget LinePort.init x.ports n) hu
        simp only [ramps, hulp]
        exact hramp
      have hfresh : p.scale = (s.lp n).scale := by rw [hp]; rfl
      have hsess : s₂.stw = s.stw ∧ s₂.fwRuns = s.fwRuns ∧ s₂.lin = s.lin ∧ s₂.now = max s.now t := ⟨rfl, rfl, rfl, rfl⟩
      obtain ⟨hstw, hfw, hlin, hnow⟩ := hsess
      clear_value s₂
      split
      next hzero =>
        obtain ⟨hscale', hstepped, hclean, hramps⟩ := hraise (s₂.raise 0x406 0x10 n
          (be 1 1 ++ be 1 (slots.filter fun e => e.2.tx.isSome).length ++ s₂.open8s 120 2)) (by simp)
        refine ⟨hscale', hstepped, hclean, hramps, fun _ => ?_, only_mono (honly.trans (parts' := [.stw, .eth]) ?_) (by simp)⟩
        swap
        · simp [only_iff]
        rw [List.append_assoc, ← hnow]
        exact raised_congr (s₂.raiseAt_raised _ _ _ _ _ _) (congrArg (·.sess) hstw.symm) hfw.symm (congrArg (·.epoch) hlin.symm) (.of_sess rfl)
      next hzero =>
        obtain ⟨hscale', hstepped, hclean, hramps⟩ := hraise s₂ rfl
        exact ⟨hscale', hstepped, hclean, hramps, fun h => absurd (hfresh.trans h) hzero, honly⟩
    · refine hquiet _ (if_neg ?_)
      have hen : (s.tick t).flag F.plxTxlimEn n = s.flag F.plxTxlimEn n := rfl
      have hsends : (s.tick t).portSends n = s.portSends n := rfl
      rw [hen, hsends]
      rcases hno with hno | hno <;> simp [hno]
    · dsimp only
      rw [if_pos ⟨hscale, hclean⟩]
      obtain ⟨hgain, hafter⟩ := setScale_ramps (s.lp n) ((s.lp n).scale - 1) (s.tick t).now
      simp only [ramps, State.setLp_same]
      exact ⟨rfl, trivial, ⟨hgain, hafter⟩, htick (by simp [only_iff])⟩
    · exact hquiet _ (if_neg fun h => absurd h.2 (Nat.not_le.2 hsoon))
  · intro t short y s hon hy hserved
    have hquiet (u : State) (h : u = s.tick t) : Only [] s u := h ▸ s.tick_only t
    have htick {parts : List Block} {u : State} (h : Only parts (s.tick t) u) : Only parts s u := by
      exact only_mono ((s.tick_only t).trans h) (by simp)
    have hy' : (s.tick t).node? short = some y := hy
    refine ⟨fun hstate hsince => does_whenOn hon ?_, fun hno => does_whenOn hon ?_, fun hstate hsince => does_whenOn hon ?_,
      fun hno => does_whenOn hon ?_⟩
    · rw [hy']
      dsimp only
      rw [if_pos ⟨hstate, hsince, hserved⟩]
      generalize hu : ((s.tick t).setNode short none) = u
      have hnodes : u.plx.nodes = tdel s.plx.nodes short := hu ▸ rfl
      have hfree : ∀ e ∈ u.plx.nodes, e.1 ≠ short := fun e he => (tdel_keys _ _ e (hnodes ▸ he)).1
      have hnode (k : Nat) (hk : k ≠ short) : u.node? k = s.node? k := by
        rw [State.node?, hnodes, tget?_tdel, if_neg hk]
        rfl
      have hrecord : ({ what := .node short none, ref := none } : LinWrite) ∈ u.lin.writes := by
        rw [← hu]
        exact List.mem_append_right _ List.mem_cons_self
      have honly : Only [.plx, .lin, .fau, .stw, .eth, .regs] (s.tick t) u := by
        rw [← hu]
        simp [only_iff]
      obtain ⟨⟨hgone, hothers, hstay, hrec, hsea, -⟩, hqueues⟩ := u.dropNode_gone short hfree
      refine ⟨?_, fun k z hk hz => ?_, fun k hk hs => hstay k (by rw [hnode k hk]; exact hs), hrec hrecord,
        fun n m _ _ f hf hb => ?_, htick (only_mono (honly.trans (parts' := [.plx, .lin, .fau, .stw, .eth, .regs]) ?_) (by simp))⟩
      · cases h : (u.dropNode short).node? short with
        | none => rfl
        | some z => exact absurd rfl (hgone _ (tget?_mem _ _ _ h))
      · rw [← hnode k hk]
        exact hothers k z hz
      · by_contra hdone
        exact hqueues n m f hf ⟨hb, by simpa using hdone⟩
      · simp [only_iff, hsea]
    · refine hquiet _ ?_
      rw [hy']
      refine if_neg fun ⟨hstate, hsince, _⟩ => ?_
      rcases hno with hno | hno
      · exact hno hstate
      · exact absurd hsince (Nat.not_le.2 hno)
    · rw [hy']
      dsimp only
      rw [if_pos ⟨hstate, by rw [State.silentFor, Bool.and_eq_true]; exact ⟨decide_eq_true hserved, decide_eq_true hsince⟩⟩]
      generalize hu : (s.tick t).setNode short (some { y with state := 2 }) = u
      have hnode (k : Nat) : u.node? k = if k = short then some { y with state := 2 } else s.node? k := by
        rw [← hu]
        exact tget?_tset _ _ _ _
      have hraise (k : Nat) (l : List Byte) : (u.raise 0x405 0x10 y.port l).node? k = u.node? k := by
        simp [State.node?]
      have hpart : u.stw = s.stw ∧ u.fwRuns = s.fwRuns ∧ u.lin.epoch = s.lin.epoch ∧ u.now = max s.now t := hu ▸ ⟨rfl, rfl, rfl, rfl⟩
      obtain ⟨hstw, hfw, hlin, hnow⟩ := hpart
      have honly : Only [.plx, .lin, .stw, .eth] (s.tick t) u := by
        rw [← hu]
        simp [only_iff]
      refine ⟨?_, fun k hk => ?_, ?_, htick (only_mono (honly.trans (parts' := [.stw, .eth]) ?_) (by simp))⟩
      · rw [hraise, hnode, if_pos rfl]
      · rw [hraise, hnode, if_neg hk]
      · rw [← hnow]
        exact raised_congr (u.raiseAt_raised _ _ _ _ _ _) (congrArg (·.sess) hstw.symm) hfw.symm hlin.symm (.of_sess rfl)
      · simp [only_iff]
    · refine hquiet _ ?_
      rw [hy']
      refine if_neg fun ⟨hstate, hsilent⟩ => ?_
      rw [State.silentFor, Bool.and_eq_true] at hsilent
      rcases hno with hno | hno
      · exact hno hstate
      · exact absurd (of_decide_eq_true hsilent.2) (Nat.not_le.2 hno)

/-! ## Radio head links (09 R183 to R187) -/

/-- Sessions go on but for the tags of commands that have been answered. -/
def Answered (s u : State) : Prop :=
  ∀ k x, tget? s.stw.sess k = some x → ∃ y, tget? u.stw.sess k = some y ∧ y = { x with tags := y.tags }

namespace Answered

variable {s u v : State}

theorem of_sess (e : u.stw.sess = s.stw.sess) : Answered s u := fun _ x h => ⟨x, e ▸ h, rfl⟩

theorem trans (h : Answered s u) (k : Answered u v) : Answered s v := by
  intro n x hx
  obtain ⟨y, hy, hxy⟩ := h n x hx
  obtain ⟨z, hz, hyz⟩ := k n y hy
  rw [hxy] at hyz
  exact ⟨z, hz, hyz⟩

/-- An event raised after commands have been answered is raised from before them too. -/
theorem raised {at_ code block inst : Nat} {data : List Byte} (h : Answered s u) (hfw : u.fwRuns = s.fwRuns)
    (hlin : u.lin.epoch = s.lin.epoch) (hraised : Raised u v at_ code block inst data) : Raised s v at_ code block inst data := by
  intro hf k x hx hg hroom
  obtain ⟨y, hy, hxy⟩ := h k x hx
  obtain ⟨z, e, rest, hz, he, hseq, hbody⟩ := hraised (hfw.trans hf) k y hy (by rw [hxy]; exact hg) (by rw [hxy]; exact hroom)
  exact ⟨z, e, rest, hz, he, by rw [hseq, hxy], by rw [hbody, State.eventBodyAt, State.eventBodyAt, hlin]⟩

end Answered

theorem State.answer_answered (s : State) (f : Flight) (d : Bool) (status : Nat) (o : List Byte) (e : Bool) :
    Answered s (s.answer f d status o e) := by
  unfold State.answer
  extract_lets w v u
  split
  next => exact .of_sess rfl
  next x hx =>
    intro n y hy
    have hfound : tget? s.stw.sess f.slot = some x := (State.sessOf_found hx).1
    dsimp only
    by_cases hn : n = f.slot
    · subst hn
      obtain rfl : x = y := Option.some.inj (hfound.symm.trans hy)
      have hqueue (v : State) (g : Frame) : (v.queueFrame f.port 2 false g).stw = v.stw := by simp
      exact ⟨_, (congrArg (fun w : Stw => tget? w.sess f.slot) (hqueue _ _)).trans (tget?_tset_self _ _ _), rfl⟩
    · exact ⟨y, by simpa [tget?_tset, hn, u, v, w, Stw.reap] using hy, rfl⟩

theorem State.finishRef_answered (s : State) (ref status : Nat) (o : List Byte) : Answered s (s.finishRef ref status o) := by
  unfold State.finishRef
  split
  · unfold State.finish
    split
    · exact .of_sess rfl
    · exact s.answer_answered _ _ _ _ _
  · exact .of_sess rfl

/-- From `s` to `u` downlinks of the air are planned or end: commands are answered, radio ports stay as they are, and of the registers
the counts of skipped beacons and of refused duty checks alone move. -/
structure Settles (s u : State) : Prop where
  answered : Answered s u
  ports : u.air.ports = s.air.ports
  reg : ∀ (x : FRef) (i j : Nat), (∀ p, famAddr x.fam i j ≠ famAddr F.airCntDuty.fam p 0) →
    (∀ p, famAddr x.fam i j ≠ famAddr F.airCntBcnSkip.fam p 0) → u.reg x i j = s.reg x i j

namespace Settles

variable {s u v : State}

theorem of_parts (hsess : u.stw.sess = s.stw.sess) (hports : u.air.ports = s.air.ports) (hregs : u.regs = s.regs) : Settles s u :=
  ⟨.of_sess hsess, hports, fun _ _ _ _ _ => reg_of_regs hregs _ _ _⟩

theorem refl (s : State) : Settles s s := of_parts rfl rfl rfl

theorem trans (h : Settles s u) (k : Settles u v) : Settles s v :=
  ⟨h.answered.trans k.answered, k.ports.trans h.ports, fun x i j hd hb => (k.reg x i j hd hb).trans (h.reg x i j hd hb)⟩

theorem foldl {β : Type} (f : State → β → State) (hf : ∀ u b, Settles u (f u b)) (l : List β) (s : State) : Settles s (l.foldl f s) :=
  foldl_keeps (Settles s) f (fun u b h => h.trans (hf u b)) l s (refl s)

end Settles

theorem State.bumpDuty_settles (s : State) (n : Nat) : Settles s (s.bump F.airCntDuty n) :=
  ⟨.of_sess rfl, rfl, fun _ _ _ hd _ => State.reg_bump_ne _ _ _ _ _ _ (hd n)⟩

theorem State.bumpSkip_settles (s : State) (n : Nat) : Settles s (s.bump F.airCntBcnSkip n) :=
  ⟨.of_sess rfl, rfl, fun _ _ _ _ hb => State.reg_bump_ne _ _ _ _ _ _ (hb n)⟩

theorem State.dropDown_settles (s : State) (id : Nat) : Settles s (s.dropDown id) := .of_parts rfl rfl rfl

theorem State.dutyCheck_settles (s : State) (n m us : Nat) (ack : Bool) (waiter : Option Nat) : Settles s (s.dutyCheck n m us ack waiter).1 := by
  have hcharge (a : Nat) : Settles s (s.chargeDuty a us) := .of_parts rfl rfl rfl
  unfold State.dutyCheck
  dsimp only
  (repeat' split) <;> first | exact .refl _ | exact s.bumpDuty_settles _ | exact hcharge _ | exact .of_parts rfl rfl rfl

theorem State.setPlan_settles (s : State) (d : AirDown) (p : AirPlan) : Settles s (s.setPlan d p).1 := by
  unfold State.setPlan
  dsimp only
  split
  · exact (s.dutyCheck_settles _ _ _ _ _).trans (.of_parts rfl rfl rfl)
  · exact .of_parts rfl rfl rfl

theorem State.airResult_settles (s : State) (d : AirDown) (status : Nat) (result : Option Nat) : Settles s (s.airResult d status result) := by
  unfold State.airResult
  split
  · exact ⟨s.finishRef_answered _ _ _, by simp, fun _ _ _ _ _ => reg_of_regs (by simp) _ _ _⟩
  · exact .refl _

theorem State.nextDown_settles (s : State) (ext n : Nat) : Settles s (s.nextDown ext n) := by
  induction n generalizing s with
  | zero => exact .refl _
  | succ n ih =>
    simp only [State.nextDown]
    split
    · exact .refl _
    next d _ _ =>
      have hdrop (u : State) (status : Nat) : Settles u (((u.dropDown d.id).airResult d status none).nextDown ext n) :=
        ((u.dropDown_settles d.id).trans (State.airResult_settles _ _ _ _)).trans (ih _)
      split
      · exact .refl _
      split
      next p _ =>
        split
        · exact (s.setPlan_settles d p).trans (hdrop _ _)
        · exact s.setPlan_settles d p
      next => exact hdrop s _

theorem State.endDown_settles (s : State) (d : AirDown) (status : Nat) (result : Option Nat) : Settles s (s.endDown d status result) := by
  unfold State.endDown
  extract_lets u
  have hu : Settles s u := by
    unfold u State.noteFail
    (repeat' split) <;> exact .of_parts rfl rfl rfl
  refine (hu.trans ?_).trans (State.nextDown_settles _ _ _)
  split
  · exact .refl _
  · exact u.airResult_settles _ _ _

theorem State.planTry_settles (s : State) (d : AirDown) : Settles s (s.planTry d) := by
  unfold State.planTry
  split
  next p _ =>
    dsimp only
    split
    · refine (s.setPlan_settles d p).trans ?_
      unfold State.dutyRefused
      split
      · exact (State.dropDown_settles _ d.id).trans (State.bumpSkip_settles _ _)
      · exact State.endDown_settles _ _ _ _
    · exact s.setPlan_settles d p
  next => split <;> exact s.endDown_settles _ _ _

theorem State.airFailed_settles (s : State) (d : AirDown) : Settles s (s.airFailed d) := by
  unfold State.airFailed
  dsimp only
  split
  · exact s.planTry_settles d
  · exact s.endDown_settles _ _ _

theorem State.skipBeacons_settles (s : State) (n : Nat) (p : AirDown → Bool) : Settles s (s.skipBeacons n p) :=
  .foldl _ (fun u (d : AirDown) => (u.dropDown_settles d.id).trans (State.bumpSkip_settles _ _)) _ _

/-- A port's transmissions end, with its beacons; what they leave to do ends or is planned anew. -/
theorem State.cutSends_settles (s : State) (n : Nat) (sent : Bool) : ∃ tails,
    Settles (s.setAp n { s.ap n with sends := [], bcnAt := none, tails := tails }) (s.cutSends n sent) := by
  unfold State.cutSends
  extract_lets p tails t copied u v
  refine ⟨tails, ?_⟩
  have hu : Settles t u := by
    refine .foldl _ (fun u x => ?_) _ _
    split
    · exact .refl _
    split
    · exact .refl _
    split
    · exact .of_parts rfl rfl rfl
    split
    · exact State.airFailed_settles _ _
    split
    · exact State.airFailed_settles _ _
    · exact State.planTry_settles _ _
  exact (hu.trans (u.skipBeacons_settles _ _)).trans (.foldl _ (fun u (d : AirDown) => u.dropDown_settles d.id) _ _)

theorem State.ap_of_ports {s u : State} (h : u.air.ports = s.air.ports) (k : Nat) : u.ap k = s.ap k := congrArg (tget AirPort.init · k) h

/-- A channel with nothing received on it, and no acknowledgement to send. -/
def AirChan.cleared (x : AirChan) : AirChan := { x with cands := [], rx := none, ack := none }

/-- What an air port's receptions leave when they end: its channels empty, and the skipped acknowledgements counted. -/
theorem State.endReceptions_does (s : State) (n : Nat) : (∀ k, k ≠ n → (s.endReceptions n).ap k = s.ap k) ∧
    (s.endReceptions n).ap n = { s.ap n with chans := (s.ap n).chans.map fun e => (e.1, e.2.cleared) } ∧
    (s.endReceptions n).stw = s.stw ∧
    ∀ (x : FRef) (i j : Nat), famAddr x.fam i j ≠ famAddr F.airCntAckSkip.fam n 0 → (s.endReceptions n).reg x i j = s.reg x i j := by
  unfold State.endReceptions
  extract_lets p s₁ s₂
  have hlast : ∀ u : State, u = p.chans.foldl (fun s e => (s.unplace (.airRx n e.1 0)).unplace (.airRx n e.1 1)) s₂ →
      u.air = s₂.air ∧ u.regs = s₂.regs ∧ u.stw = s₂.stw := by
    rintro u rfl
    exact ⟨by simp, by simp, by simp⟩
  obtain ⟨hair, hregs, hstw⟩ := hlast _ rfl
  have hap (k : Nat) : State.ap (p.chans.foldl (fun s e => (s.unplace (.airRx n e.1 0)).unplace (.airRx n e.1 1)) s₂) k = s₁.ap k :=
    congrArg (fun a : Air => tget AirPort.init a.ports k) hair
  refine ⟨fun k hk => (hap k).trans ((State.ap_setAp _ _ _ _).trans (if_neg hk)), (hap n).trans ((State.ap_setAp _ _ _ _).trans (if_pos rfl)),
    hstw, fun x i j h => ?_⟩
  rw [reg_of_regs hregs]
  exact Regs.get_put_ne _ _ _ _ _ _ _ _ h

/-- An air port's boundary writes registers of its channels alone. -/
theorem State.airBoundary_reg (s : State) (n : Nat) (x : FRef) (i j : Nat) (hcfg : ∀ m, famAddr x.fam i j ≠ famAddr .airChCfg n m)
    (hlim : ∀ m, famAddr x.fam i j ≠ famAddr .airChLim n m) : (s.airBoundary n).reg x i j = s.reg x i j := by
  have happly (u : State) (m : Nat) : (u.applyChan n m).reg x i j = u.reg x i j := by
    refine List.foldlRecOn (motive := fun v : State => v.reg x i j = u.reg x i j) _ _ rfl fun v hv e he => ?_
    refine (Regs.applyReg_apart _ _ _ _ _ _ ?_).trans hv
    have := (List.mem_filter.1 he).2
    rcases (by simpa using this : e.1 = famAddr .airChCfg n m ∨ e.1 = famAddr .airChLim n m) with h | h
    · exact h ▸ hcfg m
    · exact h ▸ hlim m
  have hfold (l : List Nat) : (l.foldl (fun s m => s.applyChan n m) s).reg x i j = s.reg x i j :=
    foldl_keeps (fun v : State => v.reg x i j = s.reg x i j) _ (fun v m hv => (happly v m).trans hv) _ _ rfl
  unfold State.airBoundary
  dsimp only
  split
  · rfl
  split
  · exact hfold _
  · exact hfold _

/-- The registers that speak of an air port's link, apart from what its downlinks and its boundary move. -/
theorem linkReg_apart (n : Nat) (x : FRef) (hx : famAddr x.fam n 0 < 0x300100 + n * 0x1000) (hx' : 0x300000 + n * 0x1000 ≤ famAddr x.fam n 0) :
    (∀ p, famAddr x.fam n 0 ≠ famAddr F.airCntDuty.fam p 0) ∧ (∀ p, famAddr x.fam n 0 ≠ famAddr F.airCntBcnSkip.fam p 0) ∧
    famAddr x.fam n 0 ≠ famAddr F.airCntAckSkip.fam n 0 ∧ (∀ m, famAddr x.fam n 0 ≠ famAddr .airChCfg n m) ∧
    ∀ m, famAddr x.fam n 0 ≠ famAddr .airChLim n m := by
  simp only [famAddr, famInfo, F.airCntDuty, F.airCntBcnSkip, F.airCntAckSkip] at *
  refine ⟨fun p => ?_, fun p => ?_, ?_, fun m => ?_, fun m => ?_⟩ <;> omega

/-- A port's channels with nothing received on them, and no acknowledgement to send. -/
theorem ac_cleared {s : State} {n : Nat} {l : Tab AirChan}
    (h : (s.ap n).chans = l.map fun e => (e.1, e.2.cleared)) (m : Nat) :
    (s.ac n m).cands = [] ∧ (s.ac n m).rx = none ∧ (s.ac n m).ack = none := by
  rw [State.ac, h, tget, tget?_map]
  cases tget? l m <;> exact ⟨rfl, rfl, rfl⟩

/-- What a port's work leaves when it is cut: no reception, no transmission and no beacon, and the rest of the port as `p` has it. -/
structure CutTo (n : Nat) (p : AirPort) (s u : State) : Prop where
  others : ∀ k, k ≠ n → u.ap k = s.ap k
  port : ∃ tails, u.ap n = { p with sends := [], bcnAt := none, tails := tails, chans := (u.ap n).chans }
  chans : ∀ m, (u.ac n m).cands = [] ∧ (u.ac n m).rx = none ∧ (u.ac n m).ack = none
  answered : Answered s u

/-- Receptions end, the port becomes `p` but for its channels, and its transmissions are cut. -/
theorem State.cut_does (s : State) (n : Nat) (sent : Bool) (p : AirPort → AirPort) (hp : ∀ x, (p x).chans = x.chans) {u : State}
    (hu : u = (((s.endReceptions n).setAp n (p ((s.endReceptions n).ap n))).gapCaptures (capturesOf 2 n)).cutSends n sent) :
    CutTo n (p ((s.endReceptions n).ap n)) s u ∧
      ∀ x : FRef, famAddr x.fam n 0 < 0x300100 + n * 0x1000 → 0x300000 + n * 0x1000 ≤ famAddr x.fam n 0 → u.reg x n = s.reg x n := by
  obtain ⟨hothers, hport, hstw, hreg⟩ := s.endReceptions_does n
  generalize s.endReceptions n = v at hothers hport hstw hreg hu
  obtain ⟨tails, hanswered, hports, hregs⟩ := State.cutSends_settles ((v.setAp n (p (v.ap n))).gapCaptures (capturesOf 2 n)) n sent
  rw [← hu] at hanswered hports hregs
  generalize hw : ((v.setAp n (p (v.ap n))).gapCaptures (capturesOf 2 n)) = w at hanswered hports hregs
  have hwp (k : Nat) : w.ap k = if k = n then p (v.ap n) else v.ap k := by
    rw [← hw]
    exact State.ap_setAp _ _ _ _
  have hwsess : w.stw = s.stw := by
    rw [← hw]
    exact hstw
  have hwreg (x : FRef) : w.reg x n = v.reg x n := by
    rw [← hw]
    rfl
  have hup (k : Nat) : u.ap k = if k = n then { w.ap n with sends := [], bcnAt := none, tails := tails } else w.ap k :=
    (State.ap_of_ports hports k).trans (State.ap_setAp _ _ _ _)
  have hchans : (u.ap n).chans = (s.ap n).chans.map fun e => (e.1, e.2.cleared) := by
    rw [hup, if_pos rfl]
    dsimp only
    rw [hwp, if_pos rfl, hp, hport]
  refine ⟨⟨fun k hk => ?_, ⟨tails, ?_⟩, ac_cleared hchans, ?_⟩, fun x hx hx' => ?_⟩
  · rw [hup, if_neg hk, hwp, if_neg hk, hothers k hk]
  · rw [hup, if_pos rfl, hwp, if_pos rfl]
  · exact (Answered.of_sess (by rw [show (w.setAp n _).stw = w.stw from rfl, hwsess])).trans hanswered
  · obtain ⟨hduty, hskip, hack, -, -⟩ := linkReg_apart n x hx hx'
    rw [hregs x n 0 hduty hskip]
    exact (hwreg x).trans (hreg x n 0 hack)

theorem State.airBoundary_ap (s : State) (n k : Nat) : (s.airBoundary n).ap k = s.ap k := congrArg (fun a : Air => tget AirPort.init a.ports k) (by simp)

theorem State.airBoundary_ac (s : State) (n k m : Nat) : (s.airBoundary n).ac k m = s.ac k m :=
  congrArg (fun a : Air => tget AirChan.init (tget AirPort.init a.ports k).chans m) (by simp)

theorem State.airStop_does (s : State) (n : Nat) : (s.airStop n).flag F.airCtlEn n = false ∧ ((s.airStop n).ap n).dclk = none ∧
    ((s.airStop n).ap n).attempt = none ∧ ((s.airStop n).ap n).up = false ∧ (∀ k, k ≠ n → (s.airStop n).ap k = s.ap k) ∧
    ((s.airStop n).ap n).sends = [] ∧ ((s.airStop n).ap n).bcnAt = none ∧
    ∀ m, ((s.airStop n).ac n m).cands = [] ∧ ((s.airStop n).ac n m).rx = none ∧ ((s.airStop n).ac n m).ack = none := by
  unfold State.airStop
  extract_lets s₁ s₂ p s₃ s₄
  obtain ⟨⟨hothers, ⟨tails, hport⟩, hchans, -⟩, hreg⟩ := s₁.cut_does n true
    (fun x => { x with attempt := none, up := false, dclk := none, sysref := x.sysref.filter fun t => decide (t ≤ s₂.now) })
    (fun _ => rfl) (u := s₄.cutSends n true) rfl
  have hen₁ : s₁.reg F.airCtlEn n = 0 := State.reg_setReg_self s F.airCtlEn n 0 0 (by decide) (by decide)
  have hothers₁ (k : Nat) : s₁.ap k = s.ap k := rfl
  clear_value s₁
  generalize s₄.cutSends n true = u at *
  have hlow : famAddr F.airCtlEn.fam n 0 = 0x300000 + n * 0x1000 := by simp [famAddr, famInfo, F.airCtlEn]
  obtain ⟨-, -, -, hcfg, hlim⟩ := linkReg_apart n F.airCtlEn (by omega) (by omega)
  refine ⟨?_, ?_, ?_, ?_, fun k hk => ?_, ?_, ?_, fun m => ?_⟩
  · rw [State.flag, State.airBoundary_reg _ _ _ _ _ hcfg hlim, hreg _ (by omega) (by omega), hen₁]
    rfl
  · rw [State.airBoundary_ap, hport]
  · rw [State.airBoundary_ap, hport]
  · rw [State.airBoundary_ap, hport]
  · rw [State.airBoundary_ap, hothers k hk, hothers₁]
  · rw [State.airBoundary_ap, hport]
  · rw [State.airBoundary_ap, hport]
  · rw [State.airBoundary_ac]
    exact hchans m

theorem gapCaptures_gaps (s : State) (p : Capture → Bool) (c : Capture) (hc : c ∈ s.caps) (hp : p c = true) :
    { c with gap := true } ∈ (s.gapCaptures p).caps :=
  List.mem_map.2 ⟨c, hc, by rw [if_pos hp]⟩

theorem State.endReceptions_pairs (s : State) (n : Nat) : (s.endReceptions n).fau.pairs = s.fau.pairs := by
  unfold State.endReceptions
  exact foldl_keeps (fun u : State => u.fau.pairs = s.fau.pairs)
    (fun s (e : Nat × AirChan) => (s.unplace (.airRx n e.1 0)).unplace (.airRx n e.1 1)) (fun u e hu => hu) _ _ rfl

/-- A link lost: its port's work is cut, the loss counted and reported. -/
theorem State.linkLost_does (s : State) (n why : Nat) {w v u : State}
    (hw : w = (((s.endReceptions n).setAp n { (s.endReceptions n).ap n with
      up := false, attempt := none, next := (s.endReceptions n).now + 10 * ms, reason := why }).gapCaptures (capturesOf 2 n)).cutSends n false)
    (hv : v = w.bump F.airCntLinkdown n) (hu : u = (v.raise 0x502 0x30 n (be 1 why ++ v.open8s 520 3)).airBoundary n) :
    (u.ap n).attempt = none ∧ (u.ap n).up = false ∧ (∀ k, k ≠ n → u.ap k = s.ap k) ∧ (u.ap n).sends = [] ∧ (u.ap n).bcnAt = none ∧
    (∀ m, (u.ac n m).cands = [] ∧ (u.ac n m).rx = none ∧ (u.ac n m).ack = none) ∧ (u.ap n).next = s.now + 10 * ms ∧
    (u.ap n).reason = why ∧ u.reg F.airCntLinkdown n = min (s.reg F.airCntLinkdown n + 1) 0xFFFFFFFF ∧
    Raised s u s.now 0x502 0x30 n (be 1 why) := by
  obtain ⟨⟨hothers, ⟨tails, hport⟩, hchans, hanswered⟩, hreg⟩ := s.cut_does n false
    (fun x => { x with up := false, attempt := none, next := (s.endReceptions n).now + 10 * ms, reason := why }) (fun _ => rfl) hw
  have hnow : (s.endReceptions n).now = s.now := by simp
  have hfw : w.fwRuns = s.fwRuns := by
    rw [hw]
    simp [State.fwRuns, State.pairActive, State.endReceptions_pairs]
  have hepoch : w.lin.epoch = s.lin.epoch := by
    rw [hw]
    simp
  have hnow' : w.now = s.now := by
    rw [hw]
    simp
  clear hw
  have hair : u.air = w.air := by
    rw [hu, hv]
    simp
  have hap (k : Nat) : u.ap k = w.ap k := congrArg (fun a : Air => tget AirPort.init a.ports k) hair
  have hac (m : Nat) : u.ac n m = w.ac n m := by rw [State.ac, State.ac, hap]
  have hlow : famAddr F.airCntLinkdown.fam n 0 = 0x300044 + n * 0x1000 := by simp [famAddr, famInfo, F.airCntLinkdown]
  obtain ⟨-, -, -, hcfg, hlim⟩ := linkReg_apart n F.airCntLinkdown (by omega) (by omega)
  refine ⟨?_, ?_, fun k hk => ?_, ?_, ?_, fun m => ?_, ?_, ?_, ?_, ?_⟩
  · rw [hap, hport]
  · rw [hap, hport]
  · rw [hap, hothers k hk]
  · rw [hap, hport]
  · rw [hap, hport]
  · rw [hac]
    exact hchans m
  · rw [hap, hport, hnow]
  · rw [hap, hport]
  · rw [hu, State.airBoundary_reg _ _ _ _ _ hcfg hlim, reg_of_regs (State.raise_regs _ _ _ _ _), hv,
      State.reg_bump _ _ _ (by decide) (by decide), hreg _ (by omega) (by omega)]
    rfl
  · have hraise := v.raiseAt_raised v.now 0x502 0x30 n (be 1 why) (v.open8s 520 3)
    have hvsess : v.stw = w.stw := by rw [hv]; rfl
    have hvfw : v.fwRuns = w.fwRuns := by rw [hv]; rfl
    have hvlin : v.lin = w.lin := by rw [hv]; rfl
    have hvnow : v.now = s.now := by rw [hv]; exact hnow'
    rw [hvnow] at hraise
    refine hanswered.raised hfw hepoch ?_
    refine raised_congr hraise (congrArg (·.sess) hvsess.symm) hvfw.symm (congrArg (·.epoch) hvlin.symm) (.of_sess ?_)
    rw [hu, State.raise, hvnow]
    simp

theorem State.airEnters_does (s : State) (n : Nat) :
    (s.airEnters n).ap n = { s.ap n with served := true, bcnAt := if s.flag F.airBcnEn n then some s.now else none } ∧
    ∀ k, k ≠ n → (s.airEnters n).ap k = s.ap k := by
  have hset (p : AirPort) (k : Nat) : (s.setAp n p).ap k = if k = n then p else s.ap k := State.ap_setAp _ _ _ _
  unfold State.airEnters
  dsimp only
  split
  · exact ⟨(hset _ n).trans (if_pos rfl), fun k hk => (hset _ k).trans (if_neg hk)⟩
  · exact ⟨(hset _ n).trans (if_pos rfl), fun k hk => (hset _ k).trans (if_neg hk)⟩

/-- A link that has come up: its port is up, sends beacons if it may, and has reported the head's identity. -/
theorem State.linkUp_does (s : State) (n : Nat) (hn : n < 16) {v w u : State}
    (hv : v = if (s.ap n).hadLink then (s.setAp n { s.ap n with attempt := none, up := true, hadLink := true }).gapCaptures (capturesOf 2 n)
      else s.setAp n { s.ap n with attempt := none, up := true, hadLink := true })
    (hw : w = if v.airServes n then v.airEnters n else v)
    (hu : u = w.raise 0x501 0x30 n (be 1 (s.ap n).did ++ be 1 (s.ap n).bid ++ be 1 (w.jesdRate n) ++ w.open8s 500 1)) :
    (u.ap n).up = true ∧ (u.ap n).attempt = none ∧ Raised s u s.now 0x501 0x30 n (be 1 (s.ap n).did ++ be 1 (s.ap n).bid ++ be 1 (s.jesdRate n)) ∧
    (∀ k, k ≠ n → u.ap k = s.ap k) ∧
    (s.flag F.airCtlEn n = true → s.fau.testing = false → s.flag F.airBcnEn n = true → (u.ap n).bcnAt = some s.now) ∧
    ((s.ap n).hadLink = true → ∀ c ∈ s.caps, capturesOf 2 n c = true → { c with gap := true } ∈ u.caps) := by
  have hvp (k : Nat) : v.ap k = if k = n then { s.ap n with attempt := none, up := true, hadLink := true } else s.ap k := by
    rw [hv]
    split <;> exact State.ap_setAp _ _ _ _
  have hvparts : v.regs = s.regs ∧ v.fau = s.fau ∧ v.now = s.now ∧ v.stw = s.stw ∧ v.fwRuns = s.fwRuns ∧ v.lin = s.lin := by
    rw [hv]
    split <;> exact ⟨rfl, rfl, rfl, rfl, rfl, rfl⟩
  obtain ⟨hregs, hfau, hnow, hstw, hfw, hlin⟩ := hvparts
  have hvcaps : (s.ap n).hadLink = true → ∀ c ∈ s.caps, capturesOf 2 n c = true → { c with gap := true } ∈ v.caps := by
    intro hhad c hc hcap
    rw [hv, if_pos hhad]
    exact gapCaptures_gaps _ _ c hc hcap
  clear hv
  obtain ⟨henters, hapart⟩ := v.airEnters_does n
  have hwparts : w.regs = v.regs ∧ w.now = v.now ∧ w.stw = v.stw ∧ w.fwRuns = v.fwRuns ∧ w.lin = v.lin ∧ w.caps = v.caps := by
    rw [hw]
    split
    · exact ⟨by simp, by simp, by simp, by simp [State.fwRuns, State.pairActive], by simp, by simp⟩
    · exact ⟨rfl, rfl, rfl, rfl, rfl, rfl⟩
  obtain ⟨hregs', hnow', hstw', hfw', hlin', hcaps'⟩ := hwparts
  have hwother (k : Nat) (hk : k ≠ n) : w.ap k = s.ap k := by
    rw [hw]
    split
    · rw [hapart k hk, hvp, if_neg hk]
    · rw [hvp, if_neg hk]
  have hwup : (w.ap n).up = true ∧ (w.ap n).attempt = none := by
    rw [hw]
    split
    · rw [henters, hvp, if_pos rfl]
      exact ⟨rfl, rfl⟩
    · rw [hvp, if_pos rfl]
      exact ⟨rfl, rfl⟩
  have hwbcn : v.airServes n = true → v.flag F.airBcnEn n = true → (w.ap n).bcnAt = some v.now := by
    intro hserves hen
    rw [hw, if_pos hserves, henters]
    exact if_pos hen
  clear hw
  have hair : u.air = w.air := by rw [hu]; simp
  have hup (k : Nat) : u.ap k = w.ap k := congrArg (fun a : Air => tget AirPort.init a.ports k) hair
  have hucaps : u.caps = w.caps := by rw [hu]; simp
  have hflag (x : FRef) : v.flag x n = s.flag x n := by rw [State.flag, State.flag, reg_of_regs hregs]
  rw [hup]
  refine ⟨hwup.1, hwup.2, ?_, fun k hk => (hup k).trans (hwother k hk), fun hen htest hbcn => ?_, fun hhad c hc hcap => ?_⟩
  · rw [hu, State.jesdRate, State.jesdRate, reg_of_regs (hregs'.trans hregs), ← hnow, ← hnow']
    exact raised_congr (w.raiseAt_raised _ _ _ _ _ _) (congrArg (·.sess) (hstw'.trans hstw).symm) (hfw'.trans hfw).symm
      (congrArg (·.epoch) (hlin'.trans hlin).symm) (.of_sess rfl)
  · rw [← hnow]
    refine hwbcn ?_ ((hflag _).trans hbcn)
    rw [State.airServes, hflag, hfau, htest, hen, hvp, if_pos rfl]
    simp [hn]
  · rw [hucaps, hcaps']
    exact hvcaps hhad c hc hcap

/-- An event raised in `w`, which has the sessions of `s`, is raised from `s`. -/
theorem State.raise_raised {s w : State} (code block inst : Nat) (hstw : w.stw = s.stw) (hpow : w.pow = s.pow) (hfau : w.fau = s.fau)
    (hlin : w.lin = s.lin) : Raised s (w.raise code block inst []) w.now code block inst [] := by
  have h := w.raiseAt_raised w.now code block inst [] []
  rw [List.append_nil] at h
  exact raised_congr h (congrArg (·.sess) hstw.symm) (by rw [State.fwRuns, State.fwRuns, State.pairActive, State.pairActive, hpow, hfau])
    (congrArg (·.epoch) hlin.symm) (.of_sess rfl)

/-- Samples lost on an air port: counted and reported, and what is being received broken. -/
theorem State.airOverrun_does (s : State) (n lost : Nat) {w u : State}
    (hw : w = (s.setAp n { s.ap n with
      overrun := (s.ap n).overrun + lost, chans := (s.ap n).chans.map fun e => (e.1, e.2.breaks) }).gapCaptures (capturesOf 2 n))
    (hu : u = w.raise 0x206 0x30 n []) :
    (u.ap n).overrun = (s.ap n).overrun + lost ∧ (∀ k, k ≠ n → u.ap k = s.ap k) ∧
    (∀ m r, (s.ac n m).rx = some r → (u.ac n m).rx = some { r with cand := { r.cand with broken := true } }) ∧
    Raised s u s.now 0x206 0x30 n [] ∧ Only [.air, .caps, .eth, .stw] s u := by
  have hw' (k : Nat) : w.ap k = if k = n then { s.ap n with
      overrun := (s.ap n).overrun + lost, chans := (s.ap n).chans.map fun e => (e.1, e.2.breaks) } else s.ap k := by
    rw [hw]
    exact State.ap_setAp _ _ _ _
  have honly : Only [.air, .caps] s w := by
    rw [hw]
    simp [only_iff]
  have hnow : w.now = s.now := by rw [hw]; rfl
  clear hw
  have hair : u.air = w.air := by rw [hu]; simp
  have hap (k : Nat) : u.ap k = w.ap k := congrArg (fun a : Air => tget AirPort.init a.ports k) hair
  refine ⟨?_, fun k hk => ?_, fun m r hr => ?_, ?_, only_mono (honly.trans (parts' := [.eth, .stw]) ?_) (by simp)⟩
  · rw [hap, hw', if_pos rfl]
  · rw [hap, hw', if_neg hk]
  · rw [State.ac, hap, hw', if_pos rfl, tget, tget?_map]
    rw [State.ac, tget] at hr
    cases hm : tget? (s.ap n).chans m with
    | none => rw [hm] at hr; exact absurd hr (by simp [AirChan.init])
    | some x =>
      rw [hm] at hr
      exact congrArg (Option.map _) hr
  · rw [hu, ← hnow]
    exact State.raise_raised _ _ _ (honly .stw (by simp)) (honly .pow (by simp)) (honly .fau (by simp)) (honly .lin (by simp))
  · rw [hu]
    simp [only_iff]

/-- Samples lost on a line port. -/
theorem State.lineOverrun_does (s : State) (n lost : Nat) {w u : State}
    (hw : w = (s.setLp n { s.lp n with
      overrun := (s.lp n).overrun + lost, slots := (s.lp n).slots.map fun e => (e.1, e.2.breaks) }).gapCaptures (capturesOf 1 n))
    (hu : u = w.raise 0x206 0x10 n []) :
    (u.lp n).overrun = (s.lp n).overrun + lost ∧ (∀ k, k ≠ n → u.lp k = s.lp k) ∧
    (∀ m r, (s.ls n m).rx = some r → (u.ls n m).rx = some { r with cand := { r.cand with broken := true } }) ∧
    (∀ c ∈ s.caps, capturesOf 1 n c = true → { c with gap := true } ∈ u.caps) ∧
    Raised s u s.now 0x206 0x10 n [] ∧ Only [.plx, .caps, .eth, .stw] s u := by
  have hw' (k : Nat) : w.lp k = if k = n then { s.lp n with
      overrun := (s.lp n).overrun + lost, slots := (s.lp n).slots.map fun e => (e.1, e.2.breaks) } else s.lp k := by
    rw [hw]
    exact State.lp_setLp _ _ _ _
  have honly : Only [.plx, .caps] s w := by
    rw [hw]
    simp [only_iff]
  have hnow : w.now = s.now := by rw [hw]; rfl
  have hgap : ∀ c ∈ s.caps, capturesOf 1 n c = true → { c with gap := true } ∈ w.caps := by
    rw [hw]
    exact fun c hc hcap => gapCaptures_gaps (s.setLp n _) _ c hc hcap
  clear hw
  have hplx : u.plx = w.plx := by rw [hu]; simp
  have hcaps : u.caps = w.caps := by rw [hu]; simp
  have hlp (k : Nat) : u.lp k = w.lp k := congrArg (fun a : Plx => tget LinePort.init a.ports k) hplx
  refine ⟨?_, fun k hk => ?_, fun m r hr => ?_, by rw [hcaps]; exact hgap, ?_, only_mono (honly.trans (parts' := [.eth, .stw]) ?_) (by simp)⟩
  · rw [hlp, hw', if_pos rfl]
  · rw [hlp, hw', if_neg hk]
  · rw [State.ls, hlp, hw', if_pos rfl, tget, tget?_map]
    rw [State.ls, tget] at hr
    cases hm : tget? (s.lp n).slots m with
    | none => rw [hm] at hr; exact absurd hr (by simp [LineSlot.init])
    | some x =>
      rw [hm] at hr
      exact congrArg (Option.map _) hr
  · rw [hu, ← hnow]
    exact State.raise_raised _ _ _ (honly .stw (by simp)) (honly .pow (by simp)) (honly .fau (by simp)) (honly .lin (by simp))
  · rw [hu]
    simp [only_iff]

/-- An event raised after the clock has been set is raised. -/
theorem Raised.untick {s u : State} {t at_ code block inst : Nat} {data : List Byte} (h : Raised (s.tick t) u at_ code block inst data) :
    Raised s u at_ code block inst data := raised_congr h rfl rfl rfl (.of_sess rfl)

/-- Settles O48. -/
theorem airLinksComeUpAndGo : Obligations.AirLinksComeUpAndGo := by
  unfold Obligations.AirLinksComeUpAndGo
  constructor
  · intro t n s hon hn now others fails idle l cut
    have hquiet (u : State) (h : u = s.tick t) : Only [] s u := h ▸ s.tick_only t
    have htick {parts : List Block} {u : State} (h : Only parts (s.tick t) u) : Only parts s u := by
      exact only_mono ((s.tick_only t).trans h) (by simp)
    have hset (p : AirPort) : ((s.tick t).setAp n p).ap n = p := (State.ap_setAp _ _ _ _).trans (if_pos rfl)
    have hrest (p : AirPort) (k : Nat) (hk : k ≠ n) : ((s.tick t).setAp n p).ap k = s.ap k := (State.ap_setAp _ _ _ _).trans (if_neg hk)
    refine ⟨fun hen => does_whenOn hon ?_, fun hen => does_whenOn hon ?_, fun hen => does_whenOn hon ?_, fun hen => does_whenOn hon ?_,
      fun hen hdown hidle hnext => does_whenOn hon ?_, fun hno => does_whenOn hon ?_,
      fun a ha => ⟨fun hcgs hsoon => does_whenOn hon ?_, fun x r sync hcgs hsync hdue => does_whenOn hon ?_,
        fun hsent hsoon => does_whenOn hon ?_, fun hlate => does_whenOn hon ?_, fun hearly => does_whenOn hon ?_,
        fun hilas hsent hdue => does_whenOn hon ?_, fun hno => does_whenOn hon ?_⟩,
      fun why hwhy hup => does_whenOn hon ?_, fun why hdown => does_whenOn hon ?_, fun lost => does_whenOn hon ?_⟩
    · rw [if_pos (show n < 16 ∧ (s.tick t).flag F.airCtlEn n = false from ⟨hn, hen⟩)]
      have hap (k : Nat) : (((s.tick t).airStart n).kept (s.tick t) .airCtl n).ap k =
          if k = n then { s.ap n with attempt := none, up := false, next := now } else s.ap k := by
        simp only [State.ap, State.kept_leaves]
        exact State.ap_setAp _ _ _ _
      have hflag : ((s.tick t).airStart n).reg F.airCtlEn n = 1 := State.reg_setReg_self (s.tick t) F.airCtlEn n 0 1 (by decide) (by decide)
      refine ⟨?_, ⟨?_, ?_, fun k hk => ?_⟩, ?_, htick (by simp [only_iff])⟩
      · rw [State.flag, reg_of_regs (s := (s.tick t).airStart n) (by simp), hflag]
        rfl
      · rw [hap, if_pos rfl]
      · rw [hap, if_pos rfl]
      · rw [hap, if_neg hk]
      · rw [hap, if_pos rfl]
    · exact hquiet _ (if_neg (by simp [hen]))
    · rw [if_pos (show n < 16 ∧ (s.tick t).flag F.airCtlEn n = true from ⟨hn, hen⟩)]
      obtain ⟨hflag, hdclk, hattempt, hup, hothers, hsends, hbcn, hchans⟩ := (s.tick t).airStop_does n
      simp only [idle, cut, others, State.flag, State.reg, State.ap, State.ac, State.kept_leaves]
      exact ⟨hflag, hdclk, ⟨hattempt, hup, hothers⟩, hsends, hbcn, hchans, htick (by simp [only_iff])⟩
    · exact hquiet _ (if_neg (by simp [hen]))
    · extract_lets e
      rw [if_pos ⟨hn, hen, hdown, hidle, hnext⟩]
      exact ⟨hrest _, htick (by simp [only_iff]), hset _⟩
    · refine hquiet _ (if_neg ?_)
      rintro ⟨-, hen, hdown, hidle, hnext⟩
      rcases hno with hno | hno | hno | hno
      · exact absurd (hen.symm.trans hno) (by simp)
      · exact absurd (hdown.symm.trans hno) (by simp)
      · rw [show (s.ap n).attempt = none from hidle] at hno
        exact absurd hno (by simp)
      · exact absurd hnext (Nat.not_le.2 hno)
    · dsimp only
      rw [show ((s.tick t).ap n).attempt = some a from ha]
      dsimp only
      rw [if_pos ⟨hcgs, hsoon⟩]
      exact ⟨hrest _, htick (by simp [only_iff]), hset _⟩
    · dsimp only
      rw [show ((s.tick t).ap n).attempt = some a from ha]
      dsimp only
      rw [if_pos ⟨hcgs, by rw [show ((s.tick t).ap n).rxsync = some sync from hsync]; exact decide_eq_true hdue⟩]
      generalize hp : ({ (s.tick t).ap n with attempt := some a, did := x.did % 256, bid := x.bid % 16 } : AirPort) = p
      have hok : ((s.tick t).setAp n p).ilasOk n (x :: r) = s.ilasOk n (x :: r) := rfl
      have hdone (v : State) (q : AirPort) (hv : v = ((s.tick t).setAp n p).setAp n q) : v.ap n = q ∧ others v ∧ Only [.air] s v := by
        subst hv
        refine ⟨(State.ap_setAp _ _ _ _).trans (if_pos rfl), fun k hk => ?_, htick (by simp [only_iff])⟩
        rw [State.ap_setAp, if_neg hk, hrest _ k hk]
      rw [hok]
      split
      next hgood =>
        obtain ⟨hap, hothers, honly⟩ := hdone _ _ rfl
        subst hp
        rw [hap]
        exact ⟨rfl, rfl, hothers, honly, fun _ => rfl, fun h => absurd (hgood.symm.trans h) (by simp)⟩
      next hbad =>
        obtain ⟨hap, hothers, honly⟩ := hdone (((s.tick t).setAp n p).bringFails n 2) _ rfl
        subst hp
        simp only [fails, hap, hset]
        exact ⟨trivial, trivial, hothers, honly, fun h => absurd h hbad, fun _ => ⟨trivial, rfl, trivial, rfl, hothers, honly⟩⟩
    · dsimp only
      rw [show ((s.tick t).ap n).attempt = some a from ha]
      dsimp only
      rw [if_pos ⟨hsent, hsoon⟩]
      exact ⟨hrest _, htick (by simp [only_iff]), hset _⟩
    · rw [show ((s.tick t).ap n).attempt = some a from ha]
      dsimp only
      rw [if_pos (show a.start + ms ≤ (s.tick t).now ∧ a.cgs = false ∨ a.start + 2 * ms ≤ (s.tick t).now ∧ a.sent = false from hlate)]
      have hap : ((s.tick t).bringFails n 4).ap n = _ := hset _
      simp only [fails, hap]
      exact ⟨trivial, rfl, trivial, rfl, hrest _, htick (by simp [only_iff])⟩
    · refine hquiet _ ?_
      rw [show ((s.tick t).ap n).attempt = some a from ha]
      refine if_neg fun h => ?_
      have hnow : (s.tick t).now < a.start + ms := hearly
      omega
    · dsimp only
      rw [show ((s.tick t).ap n).attempt = some a from ha]
      dsimp only
      rw [if_pos (by rw [hilas, hsent]; exact decide_eq_true hdue)]
      obtain ⟨hup, hattempt, hraised, hothers, hbcn, hgap⟩ := (s.tick t).linkUp_does n hn rfl rfl rfl
      refine ⟨hup, hattempt, Raised.untick hraised, hothers, hbcn, hgap, htick ?_⟩
      split <;> split <;> simp [only_iff]
    · refine hquiet _ ?_
      dsimp only
      rw [show ((s.tick t).ap n).attempt = some a from ha]
      refine if_neg fun h => ?_
      simp only [Bool.and_eq_true, decide_eq_true_eq] at h
      obtain ⟨⟨hilas, hsent⟩, hdue⟩ := h
      rcases hno with hno | hno | hno
      · exact absurd (hilas.symm.trans hno) (by simp)
      · exact absurd (hsent.symm.trans hno) (by simp)
      · exact absurd hdue (Nat.not_le.2 hno)
    · rw [if_pos (show n < 16 ∧ ((s.tick t).ap n).up = true ∧ (why = 1 ∨ why = 3) from ⟨hn, hup, hwhy⟩)]
      obtain ⟨hattempt, hup, hothers, hsends, hbcn, hchans, hnext, hreason, hcount, hraised⟩ := (s.tick t).linkLost_does n why rfl rfl rfl
      exact ⟨⟨hattempt, hup, hothers⟩, ⟨hsends, hbcn, hchans, htick (by simp [only_iff])⟩, hnext, hreason, hcount,
        Raised.untick hraised⟩
    · exact hquiet _ (if_neg fun h => absurd (h.2.1.symm.trans hdown) (by simp))
    · rw [if_pos rfl, if_pos hn]
      obtain ⟨hlost, hothers, hbroken, hraised, honly⟩ := (s.tick t).airOverrun_does n lost rfl rfl
      exact ⟨hlost, hothers, hbroken, Raised.untick hraised, htick honly⟩
  · intro t n lost s hon hn
    refine does_whenOn hon ?_
    rw [if_neg (by simp), if_pos hn]
    obtain ⟨hlost, hothers, hbroken, hgap, hraised, honly⟩ := (s.tick t).lineOverrun_does n lost rfl rfl
    exact ⟨hlost, hothers, hbroken, hgap, Raised.untick hraised, only_mono ((s.tick_only t).trans honly) (by simp)⟩

/-! ## Maps rebuilt and DISCOVER sent (07 R154, R155, R159; 08 R174) -/

/-- An input of a context that no spare is catching up with: its effects, beside what the fault manager holds of it. -/
theorem State.input_free (s : State) (c : Ctx) (i : Input) (f : State → State) (h : ∀ e, s.fau.holder c = some e → (s.fau.eng e).patch = none) :
    ∃ acc y, s.input c i f = { f { s with fau := { s.fau with accepted := acc } } with fau := y } := by
  simp only [State.input]
  split
  · split
    · exact ⟨s.fau.accepted, _, rfl⟩
    · obtain ⟨y, hy⟩ := ((f s).accepts c ((f s).fau.taken c + 1)).holdInput_fau _
      exact ⟨s.fau.accepted, y, hy.trans rfl⟩
  next n hn =>
    rw [if_neg (by rw [h n hn]; simp)]
    obtain ⟨y, hy⟩ := (f (s.accepts c (s.fau.numberOf (s.fau.eng n) c + 1))).holdInput_fau _
    exact ⟨_, y, hy.trans rfl⟩

section

variable (s : State) (n m : Nat)

theorem State.rebuilt_reg (x : FRef) (j : Nat) (h : famAddr x.fam n j ≠ famAddr F.plxCntRebuild.fam n 0) :
    (s.bump F.plxCntRebuild n).reg x n j = s.reg x n j :=
  State.reg_bump_ne _ _ _ _ _ _ h

theorem planTones_le (p : Nat) : (planTones p).2 ≤ 627 := by
  unfold planTones
  split <;> decide

/-- The counts of a port's rebuilds are no setting of its maps. -/
theorem State.rebuilt_settings (hm : m < 64) :
    (s.bump F.plxCntRebuild n).reg F.plxLsRegionLo n m = s.reg F.plxLsRegionLo n m ∧
    (s.bump F.plxCntRebuild n).reg F.plxLsRegionHi n m = s.reg F.plxLsRegionHi n m ∧
    (s.bump F.plxCntRebuild n).reg F.plxLsTxHome n m = s.reg F.plxLsTxHome n m ∧
    (s.bump F.plxCntRebuild n).reg F.plxMapcfgMargin n = s.reg F.plxMapcfgMargin n ∧
    (s.bump F.plxCntRebuild n).reg F.plxMapcfgHyst n = s.reg F.plxMapcfgHyst n ∧
    (s.bump F.plxCntRebuild n).reg F.plxMapholdHoldS n = s.reg F.plxMapholdHoldS n ∧
    (s.bump F.plxCntRebuild n).reg F.plxCfgPlan n = s.reg F.plxCfgPlan n ∧
    (s.bump F.plxCntRebuild n).reg F.plxMapcfgFreeze n = s.reg F.plxMapcfgFreeze n ∧
    ∀ q < 20, (s.bump F.plxCntRebuild n).reg F.plxNotchMask n q = s.reg F.plxNotchMask n q := by
  refine ⟨?_, ?_, ?_, ?_, ?_, ?_, ?_, ?_, fun q hq => ?_⟩ <;> refine s.rebuilt_reg n _ _ ?_ <;>
    simp [famAddr, famInfo, F.plxLsRegionLo, F.plxLsRegionHi, F.plxLsTxHome, F.plxMapcfgMargin, F.plxMapcfgHyst, F.plxMapholdHoldS,
      F.plxCfgPlan, F.plxMapcfgFreeze, F.plxNotchMask, F.plxCntRebuild] <;> omega

theorem State.rebuilt_toneOk (t : Nat) : (s.bump F.plxCntRebuild n).toneOk n t = s.toneOk n t := by
  obtain ⟨-, -, -, -, -, -, hplan, -, hnotch⟩ := s.rebuilt_settings n 0 (by decide)
  simp only [State.toneOk, hplan]
  by_cases ht : t ≤ (planTones (s.reg F.plxCfgPlan n)).2
  · have := planTones_le (s.reg F.plxCfgPlan n)
    rw [Regs.masked, Regs.masked, show (s.bump F.plxCntRebuild n).regs.get F.plxNotchMask n (t / 32) = s.regs.get F.plxNotchMask n (t / 32) from
      hnotch (t / 32) (by omega)]
  · simp [ht]

theorem State.rebuilt_bases (hm : m < 64) (c : Nat → Option Int) (i : Nat) : (s.bump F.plxCntRebuild n).bases n m c i = s.bases n m c i := by
  obtain ⟨hlo, hhi, -⟩ := s.rebuilt_settings n m hm
  simp only [State.bases, hlo, hhi, s.rebuilt_toneOk n]

theorem State.rebuilt_buildMap (hm : m < 64) : (s.bump F.plxCntRebuild n).buildMap n m = s.buildMap n m := by
  obtain ⟨-, -, -, hmargin, -⟩ := s.rebuilt_settings n m hm
  have hpick (c : Nat → Option Int) : (s.bump F.plxCntRebuild n).pickPleat n m c = s.pickPleat n m c := by
    simp only [State.pickPleat, hmargin, s.rebuilt_bases n m hm]
  have hfloor (c : Nat → Option Int) : (s.bump F.plxCntRebuild n).floorPick n m c = s.floorPick n m c := by
    simp only [State.floorPick, s.rebuilt_bases n m hm]
  have hnodes : (s.bump F.plxCntRebuild n).linkNodes n m = s.linkNodes n m := rfl
  have hsnr (p g : Nat) : (s.bump F.plxCntRebuild n).cellSnr n (s.linkNodes n m) p g = s.cellSnr n (s.linkNodes n m) p g := rfl
  simp only [State.buildMap, hpick, hfloor, hnodes, hsnr]

theorem State.rebuilt_canBuild (hm : m < 64) : (s.bump F.plxCntRebuild n).canBuild n m = s.canBuild n m := by
  obtain ⟨hlo, hhi, -⟩ := s.rebuilt_settings n m hm
  have hnodes : (s.bump F.plxCntRebuild n).linkNodes n m = s.linkNodes n m := rfl
  have hlp : (s.bump F.plxCntRebuild n).lp n = s.lp n := rfl
  simp only [State.canBuild, hlo, hhi, hnodes, hlp]

theorem State.rebuilt_strong (hm : m < 64) (x : Pick) : (s.bump F.plxCntRebuild n).strong n x = s.strong n x := by
  obtain ⟨-, -, -, hmargin, hhyst, -⟩ := s.rebuilt_settings n m hm
  simp only [State.strong, hmargin, hhyst]

theorem State.rebuilt_newEntry (hm : m < 64) (c : Nat → Option Int) (pick : Option Pick) (old last : Nat) :
    (s.bump F.plxCntRebuild n).newEntry n m c pick old last = s.newEntry n m c pick old last := by
  obtain ⟨hlo, hhi, hhome, hmargin, hhyst, hhold, -⟩ := s.rebuilt_settings n m hm
  have hout : (s.bump F.plxCntRebuild n).entryOut n m old = s.entryOut n m old := by
    simp only [State.entryOut, hlo, hhi, s.rebuilt_toneOk n]
  have hnow : (s.bump F.plxCntRebuild n).now = s.now := rfl
  simp only [State.newEntry, hhome, hmargin, hhyst, hhold, hout, hnow]

end

/-- A frame queued joins its link's queue; whether it contends anew is the draw's business. -/
theorem State.queueLineAt_does (s : State) (n m at_ : Nat) (f : LineFrame) :
    (∃ draw ready, (s.queueLineAt n m at_ f).ls n m = { s.ls n m with queue := insertFrame f (s.ls n m).queue, draw := draw, ready := ready }) ∧
    (s.queueLineAt n m at_ f).regs = s.regs := by
  unfold State.queueLineAt
  extract_lets x q s₁ s₂
  have h₁ : s₁.ls n m = { x with queue := q } := (s.ls_setLs n m _ m).trans (if_pos rfl)
  have h₂ : s₂.ls n m = s₁.ls n m := by
    have hplx : s₂.plx = s₁.plx := by simp [s₂]
    exact congrArg (fun p : Plx => tget LineSlot.init (tget LinePort.init p.ports n).slots m) hplx
  have hregs : s₂.regs = s.regs := by simp [s₂, s₁]
  have hls (v : State) (hv : v.ls n m = s₂.ls n m) : ∃ draw ready, v.ls n m = { x with queue := q, draw := draw, ready := ready } :=
    ⟨x.draw, x.ready, by rw [hv, h₂, h₁]⟩
  split
  · exact ⟨hls s₂ rfl, hregs⟩
  · refine ⟨?_, by simp [hregs]⟩
    unfold State.contend
    have hq : (s₂.ls n m).queue = q := by rw [h₂, h₁]
    dsimp only
    split
    · exact ⟨none, x.ready, ((s₂.ls_setLs n m _ m).trans (if_pos rfl)).trans (by rw [h₂, h₁])⟩
    · split
      · exact hls s₂ rfl
      · exact ⟨_, at_, ((s₂.ls_setLs n m _ m).trans (if_pos rfl)).trans (by rw [h₂, h₁])⟩

theorem insertFrame_mem (f : LineFrame) (l : List LineFrame) : f ∈ insertFrame f l ∧ ∀ g ∈ l, g ∈ insertFrame f l := by
  induction l with
  | nil => simp [insertFrame]
  | cons a l ih =>
    simp only [insertFrame]
    split
    · exact ⟨List.mem_cons_self, fun g hg => List.mem_cons_of_mem _ hg⟩
    · refine ⟨List.mem_cons_of_mem _ ih.1, fun g hg => ?_⟩
      rcases List.mem_cons.1 hg with rfl | hg
      · exact List.mem_cons_self
      · exact List.mem_cons_of_mem _ (ih.2 g hg)

theorem insertFrame_length (f : LineFrame) (l : List LineFrame) : (insertFrame f l).length = l.length + 1 := by
  induction l with
  | nil => rfl
  | cons a l ih =>
    simp only [insertFrame]
    split
    · rfl
    · simp [ih]

/-- An offer's frame to a node. -/
def LineFrame.offers (f : LineFrame) (k : Nat) (p : PMap) : Prop :=
  f.job = .offer k ∧ f.dst = k ∧ f.typ = 2 ∧ f.ackReq = true ∧ f.prio = 0 ∧ f.payload = offerBody p

/-- A map offered to nodes: each has its frame in the queue, and the rest of the link is as it was. -/
theorem State.sendOffers_does (s : State) (n m : Nat) (p : PMap) (l : List Nat) {u : State}
    (hu : u = l.foldl (fun s k => s.sendOffer n m k p) s) :
    (∃ q draw ready, u.ls n m = { s.ls n m with queue := q, draw := draw, ready := ready } ∧ (∀ f ∈ (s.ls n m).queue, f ∈ q) ∧
      ∀ k ∈ l, ∃ f ∈ q, f.offers k p) ∧ u.regs = s.regs := by
  induction l generalizing s with
  | nil =>
    subst hu
    exact ⟨⟨_, _, _, rfl, fun _ hf => hf, fun k hk => absurd hk (by simp)⟩, rfl⟩
  | cons k l ih =>
    obtain ⟨⟨draw, ready, hls⟩, hregs⟩ := (s.newSeq k).1.queueLineAt_does n m (s.newSeq k).1.now
      (ownFrame (.offer k) 0 2 k k (s.newSeq k).2 true (offerBody p))
    have hsame : (s.newSeq k).1.ls n m = s.ls n m := rfl
    rw [hsame] at hls
    obtain ⟨⟨q, draw', ready', hq, hold, hnew⟩, hregs'⟩ := ih (s.sendOffer n m k p) hu
    obtain ⟨hmem, hmems⟩ := insertFrame_mem (ownFrame (.offer k) 0 2 k k (s.newSeq k).2 true (offerBody p)) (s.ls n m).queue
    have hfirst : (s.sendOffer n m k p).ls n m = _ := hls
    rw [hfirst] at hold hq
    refine ⟨⟨q, draw', ready', hq, fun f hf => hold f (hmems f hf), fun j hj => ?_⟩, hregs'.trans hregs⟩
    rcases List.mem_cons.1 hj with rfl | hj
    · exact ⟨_, hold _ hmem, rfl, rfl, rfl, rfl, rfl, rfl⟩
    · exact hnew j hj

theorem State.linkNodes_of_plx {s u : State} (h : u.plx.nodes = s.plx.nodes) (n m : Nat) : u.linkNodes n m = s.linkNodes n m := by
  rw [State.linkNodes, State.linkNodes, h]

/-- An offer begun: a new version for every node of the link, or in force at once where it has none. -/
theorem State.startOffer_does (s : State) (n m : Nat) (p : PMap) {x : LineSlot} {v : Nat} {y : PMap} {u : State} (hx : s.ls n m = x)
    (hv : v = nextVersion x.version) (hy : y = { p with version := v }) (hu : u = s.startOffer n m p) :
    (u.ls n m).version = v ∧ (u.ls n m).choices = x.choices ∧ (u.ls n m).rebuild = x.rebuild ∧ (u.ls n m).lastRebuild = x.lastRebuild ∧
    u.regs = (s.bump F.plxCntOffer n).regs ∧
    (s.linkNodes n m = [] → (u.ls n m).map = some y ∧ (u.ls n m).offer = none) ∧
    (s.linkNodes n m ≠ [] → (u.ls n m).map = x.map ∧ (u.ls n m).offer = some { map := y, left := (s.linkNodes n m).map (·.1) } ∧
      ∀ k ∈ (s.linkNodes n m).map (·.1), ∃ f ∈ (u.ls n m).queue, f.offers k y) := by
  subst hx hy hv hu
  unfold State.startOffer
  extract_lets x v p' nodes s₁ s₂
  have h₂ : s₂.ls n m = { x with version := v, offer := some { map := p', left := nodes }, want := none } :=
    (s.ls_setLs n m _ m).trans (if_pos rfl)
  have hregs₂ : s₂.regs = (s.bump F.plxCntOffer n).regs := rfl
  clear_value s₂
  obtain ⟨⟨q, draw, ready, hls, -, hoffers⟩, hregs⟩ := s₂.sendOffers_does n m p' nodes rfl
  generalize nodes.foldl (fun s k => s.sendOffer n m k p') s₂ = w at *
  rw [h₂] at hls
  have hset (z : LineSlot) : (w.setLs n m z).ls n m = z := (w.ls_setLs n m _ m).trans (if_pos rfl)
  have hend : w.endOffer n m = if nodes.isEmpty then w.setLs n m { w.ls n m with map := some p', offer := none } else w := by
    unfold State.endOffer
    rw [hls]
  rw [hend]
  have hmap : nodes = (s.linkNodes n m).map (·.1) := rfl
  clear_value nodes
  by_cases hnone : s.linkNodes n m = []
  · rw [hnone] at hmap
    rw [if_pos (by rw [hmap]; rfl), hset, hls]
    exact ⟨rfl, rfl, rfl, rfl, hregs.trans hregs₂, fun _ => ⟨rfl, rfl⟩, fun h => absurd hnone h⟩
  · rw [if_neg (by rw [hmap]; simpa using hnone), hls]
    exact ⟨rfl, rfl, rfl, rfl, hregs.trans hregs₂, fun h => absurd h hnone, fun _ => ⟨rfl, by rw [hmap], hmap ▸ hoffers⟩⟩

/-- Since when a pleat's entry has been strong, or another than the one it would now be. -/
def State.choiceAt (s : State) (n m p : Nat) : Nat × Nat :=
  let pick := (s.buildMap n m).getD p none
  let e := pickEntry (s.reg F.plxLsTxHome n m) pick
  let x := s.ls n m
  (e, if (match pick with
    | some y => s.strong n y
    | none => false) = false then s.now
    else if (tget (0, 0) x.choices p).1 = e then (tget (0, 0) x.choices p).2
    else x.lastRebuild)

/-- The entries of a new map, that of the map in force being `old`. -/
def State.newEntries (s : State) (n m : Nat) (old : PMap) (choices : Tab (Nat × Nat)) : List Nat :=
  (List.range 16).map fun p => s.newEntry n m (fun g => s.cellSnr n (s.linkNodes n m) p g) ((s.buildMap n m).getD p none)
    (old.entries.getD p 1) (tget (0, 0) choices p).2

/-- A new version is on offer, and counted. -/
def OfferedNext (n m : Nat) (s u : State) : Prop :=
  u.reg F.plxCntOffer n = min (s.reg F.plxCntOffer n + 1) 0xFFFFFFFF ∧ (u.ls n m).version = nextVersion (s.ls n m).version

/-- What a rebuild done leaves of a link. -/
structure Rebuilt (n m : Nat) (s u : State) : Prop where
  done : (u.ls n m).rebuild = none ∧ (u.ls n m).lastRebuild = s.now
  counted : u.reg F.plxCntRebuild n = min (s.reg F.plxCntRebuild n + 1) 0xFFFFFFFF
  unbuilt : (s.ls n m).map = none → s.canBuild n m = false → (u.ls n m).map = none ∧ (u.ls n m).offer = (s.ls n m).offer
  waits : (s.ls n m).map ≠ none ∨ s.canBuild n m = true → ∀ o, (s.ls n m).offer = some o →
    (u.ls n m).offer = some o ∧ (u.ls n m).map = (s.ls n m).map ∧ (u.ls n m).version = (s.ls n m).version ∧ (u.ls n m).want.isSome = true
  first : (s.ls n m).map = none → s.canBuild n m = true → (s.ls n m).offer = none → s.linkNodes n m ≠ [] → OfferedNext n m s u ∧
    ∃ o, (u.ls n m).offer = some o ∧ o.map.version = nextVersion (s.ls n m).version ∧ o.left = (s.linkNodes n m).map (·.1) ∧
      o.map.entries = (s.buildMap n m).map (pickEntry (s.reg F.plxLsTxHome n m)) ∧ ∀ k ∈ o.left, ∃ f ∈ (u.ls n m).queue, f.offers k o.map
  choices : ∀ old, (s.ls n m).map = some old → (s.ls n m).offer = none → ∀ p, p < 16 → tget (0, 0) (u.ls n m).choices p = s.choiceAt n m p
  same : ∀ old, (s.ls n m).map = some old → (s.ls n m).offer = none → s.newEntries n m old (u.ls n m).choices = old.entries →
    (u.ls n m).map = some old ∧ (u.ls n m).offer = none ∧ (u.ls n m).version = (s.ls n m).version ∧
      u.reg F.plxCntOffer n = s.reg F.plxCntOffer n
  new : ∀ old, (s.ls n m).map = some old → (s.ls n m).offer = none → s.newEntries n m old (u.ls n m).choices ≠ old.entries →
    OfferedNext n m s u ∧ ∃ p : PMap, p.version = nextVersion (s.ls n m).version ∧ p.entries = s.newEntries n m old (u.ls n m).choices ∧
      (s.linkNodes n m = [] → (u.ls n m).map = some p ∧ (u.ls n m).offer = none) ∧
      (s.linkNodes n m ≠ [] → (u.ls n m).map = some old ∧ (u.ls n m).offer = some { map := p, left := (s.linkNodes n m).map (·.1) })

theorem tget_range_map {α : Type} (d : α) (f : Nat → α) (N p : Nat) (hp : p < N) :
    tget d ((List.range N).map fun p => (p, f p)) p = f p := by
  have key : ∀ j N, p < j + N → j ≤ p → tget? ((List.range' j N).map fun p => (p, f p)) p = some (f p) := by
    intro j N
    induction N generalizing j with
    | zero => intro h h'; omega
    | succ N ih =>
      intro h h'
      rw [List.range'_succ, List.map_cons, tget?_cons]
      split
      next e => rw [e]
      next e => exact ih (j + 1) (by omega) (by omega)
  rw [tget, List.range_eq_range', key 0 N (by omega) (by omega)]
  rfl

/-- What a map wanted on a link does: it waits while an offer is in progress, is dropped where it says nothing new, and is offered. -/
theorem State.nextOffer_does (s : State) (n m : Nat) (p : PMap) (hwant : (s.ls n m).want = some p)
    (hon : s.linkOn n m = true) (hfreeze : s.flag F.plxMapcfgFreeze n = false) :
    ((s.ls n m).offer ≠ none → s.nextOffer n m = s) ∧
    ((s.ls n m).offer = none → (s.ls n m).map.map (·.entries) = some p.entries → s.nextOffer n m = s.setLs n m { s.ls n m with want := none }) ∧
    ((s.ls n m).offer = none → (s.ls n m).map.map (·.entries) ≠ some p.entries → s.nextOffer n m = s.startOffer n m p) := by
  unfold State.nextOffer
  dsimp only
  rw [hwant]
  refine ⟨fun h => ?_, fun h hsame => ?_, fun h hnew => ?_⟩
  · cases ho : (s.ls n m).offer with
    | none => exact absurd ho h
    | some o => rfl
  · rw [h]
    exact if_pos hsame
  · rw [h]
    refine (if_neg hnew).trans (if_neg ?_)
    simp [hon, hfreeze]

/-- A rebuild that is not given up is done. -/
theorem State.rebuildDone_does (s : State) (n m : Nat) (hm : m < 64) (hon : s.linkOn n m = true) (hfreeze : s.flag F.plxMapcfgFreeze n = false)
    (hinc : s.included n (s.timer n) = true) : Rebuilt n m s (s.rebuildDone n m) := by
  unfold State.rebuildDone
  extract_lets x s₁ home nodes picks choices entries basis p s₂
  rw [if_neg (by simp [hfreeze, hinc])]
  obtain ⟨-, -, hhome, -, -, -, -, hfreeze₁, -⟩ := s.rebuilt_settings n m hm
  have hcount : s₁.reg F.plxCntRebuild n = min (s.reg F.plxCntRebuild n + 1) 0xFFFFFFFF := State.reg_bump _ _ _ (by decide) (by decide)
  have hoffer₁ : s₁.reg F.plxCntOffer n = s.reg F.plxCntOffer n := s.rebuilt_reg n _ _ (by simp [famAddr, famInfo, F.plxCntOffer, F.plxCntRebuild])
  have hcan : s₁.canBuild n m = s.canBuild n m := s.rebuilt_canBuild n m hm
  have hbuild : picks = s.buildMap n m := s.rebuilt_buildMap n m hm
  have hset (v : State) (y : LineSlot) : (v.setLs n m y).ls n m = y := (v.ls_setLs n m y m).trans (if_pos rfl)
  by_cases hunbuilt : (x.map.isNone && !s₁.canBuild n m) = true
  · rw [if_pos hunbuilt]
    have hu : (s₁.setLs n m { x with rebuild := none, lastRebuild := s₁.now }).ls n m = { x with rebuild := none, lastRebuild := s₁.now } := hset _ _
    have hnone : (s.ls n m).map = none := by
      have := (Bool.and_eq_true _ _ ▸ hunbuilt).1
      simpa [x] using this
    have hno : s.canBuild n m = false := by
      rw [← hcan]
      have := (Bool.and_eq_true _ _ ▸ hunbuilt).2
      simpa using this
    refine ⟨by rw [hu]; exact ⟨rfl, rfl⟩, hcount, fun _ _ => by rw [hu]; exact ⟨hnone, rfl⟩, fun h => ?_, fun _ h => ?_, fun old h => ?_,
      fun old h => ?_, fun old h => ?_⟩
    · rcases h with h | h
      · exact absurd hnone h
      · exact absurd (h.symm.trans hno) (by simp)
    · exact absurd (h.symm.trans hno) (by simp)
    · exact absurd (hnone.symm.trans h) (by simp)
    · exact absurd (hnone.symm.trans h) (by simp)
    · exact absurd (hnone.symm.trans h) (by simp)
  · rw [if_neg hunbuilt]
    have hbuilt : (s.ls n m).map = none → s.canBuild n m ≠ false := by
      intro hnone hno
      exact hunbuilt (by rw [show x.map = none from hnone, hcan, hno]; rfl)
    have hls₂ : s₂.ls n m = { x with rebuild := none, lastRebuild := s₁.now, choices := choices, want := some p } := hset _ _
    have hregs₂ : s₂.regs = s₁.regs := rfl
    have hnodes₂ : s₂.linkNodes n m = s.linkNodes n m := rfl
    have hon₂ : s₂.linkOn n m = true := by
      have hservice : (s₂.lp n).service = (s.lp n).service := (congrArg LinePort.service (State.setLp_same s₁ n _)).trans rfl
      have hen : s₂.flag F.plxLsRegionEn n m = s.flag F.plxLsRegionEn n m := by
        rw [State.flag, State.flag, reg_of_regs hregs₂, s.rebuilt_reg n F.plxLsRegionEn m (by
          simp [famAddr, famInfo, F.plxLsRegionEn, F.plxCntRebuild]
          omega)]
      rw [State.linkOn, hservice, hen]
      exact hon
    have hfreeze₂ : s₂.flag F.plxMapcfgFreeze n = false := by
      rw [State.flag, reg_of_regs hregs₂, hfreeze₁]
      exact hfreeze
    have hchoice (q : Nat) (hq : q < 16) : tget (0, 0) choices q = s.choiceAt n m q := by
      unfold choices
      rw [tget_range_map _ _ _ _ hq, hbuild, show home = s.reg F.plxLsTxHome n m from hhome]
      unfold State.choiceAt
      dsimp only
      cases (s.buildMap n m).getD q none with
      | none => rfl
      | some y =>
        dsimp only
        simp only [show s₁.strong n y = s.strong n y from s.rebuilt_strong n m hm y, Bool.not_eq_true']
        rfl
    have hentries (old : PMap) (hold : x.map = some old) : p.entries = s.newEntries n m old choices := by
      have : entries = s.newEntries n m old choices := by
        unfold entries State.newEntries
        rw [hold, hbuild]
        simp only [s₁, s.rebuilt_newEntry n m hm]
        rfl
      exact this
    have hfirst (hnone : x.map = none) : p.entries = (s.buildMap n m).map (pickEntry (s.reg F.plxLsTxHome n m)) := by
      have : entries = (s.buildMap n m).map (pickEntry (s.reg F.plxLsTxHome n m)) := by
        unfold entries
        rw [hnone, hbuild, show home = s.reg F.plxLsTxHome n m from hhome]
      exact this
    have hnow : s₁.now = s.now := rfl
    obtain ⟨hwaits, hsame, hnew⟩ := s₂.nextOffer_does n m p (by rw [hls₂]) hon₂ hfreeze₂
    have hreg (u : State) (hu : u.regs = s₂.regs) : u.reg F.plxCntRebuild n = min (s.reg F.plxCntRebuild n + 1) 0xFFFFFFFF ∧
        u.reg F.plxCntOffer n = s.reg F.plxCntOffer n := by
      rw [reg_of_regs (hu.trans hregs₂), reg_of_regs (hu.trans hregs₂)]
      exact ⟨hcount, hoffer₁⟩
    have hx : s.ls n m = x := rfl
    clear_value s₂ p choices x
    rw [hls₂] at hwaits hsame hnew
    dsimp only at hwaits hsame hnew
    cases hoffer : x.offer with
    | some o =>
      rw [hwaits (by simp [hoffer])]
      refine ⟨by rw [hls₂]; exact ⟨rfl, hnow⟩, (hreg _ rfl).1, fun h h' => absurd h' (hbuilt h), fun _ o' ho' => ?_, fun _ _ h => ?_,
        fun old _ h => ?_, fun old _ h => ?_, fun old _ h => ?_⟩
      · rw [hls₂, hx]
        exact ⟨by rw [← ho', hx], rfl, rfl, rfl⟩
      all_goals
        rw [hx, hoffer] at h
        cases h
    | none =>
      by_cases hentry : x.map.map (·.entries) = some p.entries
      · rw [hsame hoffer hentry]
        have hu := hset s₂ { s₂.ls n m with want := none }
        rw [hls₂] at hu
        dsimp only at hu
        have hsome : (s.ls n m).map ≠ none := by
          rw [hx]
          intro h
          rw [h] at hentry
          cases hentry
        refine ⟨by rw [hu]; exact ⟨rfl, hnow⟩, (hreg _ rfl).1, fun h => absurd h hsome, fun _ o ho => ?_, fun h => absurd h hsome,
          fun old _ _ q hq => ?_, fun old hold _ _ => ?_, fun old hold _ hne => ?_⟩
        · rw [hx, hoffer] at ho
          cases ho
        · rw [hu]
          exact hchoice q hq
        · rw [hu, hx]
          exact ⟨by rw [← hold, hx], hoffer, rfl, (hreg _ rfl).2⟩
        · refine absurd ?_ hne
          rw [hu]
          rw [hx] at hold
          rw [hold] at hentry
          exact (hentries old hold).symm.trans (Option.some.inj hentry).symm
      · rw [hnew hoffer hentry]
        obtain ⟨hversion, hchoices, hrebuild, hlast, hregs, hempty, hnodes⟩ := s₂.startOffer_does n m p hls₂ rfl rfl rfl
        have hreg' (y : FRef) (h : famAddr y.fam n 0 ≠ famAddr F.plxCntOffer.fam n 0) : (s₂.startOffer n m p).reg y n = s₂.reg y n := by
          rw [reg_of_regs hregs]
          exact State.reg_bump_ne _ _ _ _ _ _ h
        have hrebuilds : (s₂.startOffer n m p).reg F.plxCntRebuild n = min (s.reg F.plxCntRebuild n + 1) 0xFFFFFFFF :=
          (hreg' _ (by simp [famAddr, famInfo, F.plxCntOffer, F.plxCntRebuild])).trans (hreg s₂ rfl).1
        have hoffered : OfferedNext n m s (s₂.startOffer n m p) := by
          refine ⟨?_, by rw [hversion, hx]⟩
          rw [reg_of_regs hregs, State.reg_bump _ _ _ (by decide) (by decide), (hreg s₂ rfl).2]
          rfl
        rw [hnodes₂] at hempty hnodes
        generalize s₂.startOffer n m p = u at *
        refine ⟨⟨hrebuild, hlast.trans hnow⟩, hrebuilds, fun h h' => absurd h' (hbuilt h), fun _ o ho => ?_, fun hnone _ _ hne => ?_,
          fun old _ _ q hq => ?_, fun old hold _ heq => ?_, fun old hold _ _ => ?_⟩
        · rw [hx, hoffer] at ho
          cases ho
        · obtain ⟨-, ho, hframes⟩ := hnodes hne
          exact ⟨hoffered, _, ho, by rw [hx], rfl, hfirst (hx ▸ hnone), hframes⟩
        · rw [hchoices]
          exact hchoice q hq
        · refine absurd ?_ hentry
          rw [hx] at hold
          rw [hold, hentries old hold]
          exact congrArg some ((congrArg (s.newEntries n m old) hchoices).symm.trans heq).symm
        · rw [hx] at hold
          refine ⟨hoffered, _, by rw [hx], ?_, hempty, fun hne => ?_⟩
          · rw [hchoices]
            exact hentries old hold
          · obtain ⟨hmap, ho, -⟩ := hnodes hne
            exact ⟨hmap.trans hold, ho⟩

/-- Maps are built without regard to the fault manager. -/
theorem State.fau_maps (s : State) (f : Fau) (n m : Nat) : ({ s with fau := f } : State).canBuild n m = s.canBuild n m ∧
    ({ s with fau := f } : State).linkNodes n m = s.linkNodes n m ∧ ({ s with fau := f } : State).buildMap n m = s.buildMap n m ∧
    (∀ p, ({ s with fau := f } : State).choiceAt n m p = s.choiceAt n m p) ∧
    ∀ old choices, ({ s with fau := f } : State).newEntries n m old choices = s.newEntries n m old choices := by
  have hbuild : ({ s with fau := f } : State).buildMap n m = s.buildMap n m := rfl
  have hnew : ({ s with fau := f } : State).newEntry n m = s.newEntry n m := rfl
  have hsnr : ({ s with fau := f } : State).cellSnr n = s.cellSnr n := rfl
  have hnodes : ({ s with fau := f } : State).linkNodes n m = s.linkNodes n m := rfl
  refine ⟨rfl, hnodes, hbuild, fun p => ?_, fun old choices => ?_⟩
  · unfold State.choiceAt
    rw [hbuild]
    rfl
  · unfold State.newEntries
    rw [hbuild, hnew, hsnr, hnodes]

/-- A DISCOVER that is due joins its link's queue. -/
theorem State.discover_does (s : State) (n m d : Nat) {v u : State} (hv : v = s.setLs n m { s.ls n m with disc := some d })
    (hu : u = (v.newSeq 0xFFFF).1.queueLineAt n m d (ownFrame .discover 3 2 0 0xFFFF (v.newSeq 0xFFFF).2 false ((v.newSeq 0xFFFF).1.discoverBody n m))) :
    (u.ls n m).disc = some d ∧ (u.ls n m).queue.length = (s.ls n m).queue.length + 1 ∧
    ∃ f ∈ (u.ls n m).queue, f.job = .discover ∧ f.dst = 0xFFFF ∧ f.prio = 3 ∧ f.typ = 2 ∧ f.ackReq = false ∧ f.mode = 1 ∧
      f.payload = s.discoverBody n m := by
  have hls : (v.newSeq 0xFFFF).1.ls n m = { s.ls n m with disc := some d } := by
    rw [hv]
    exact (s.ls_setLs n m _ m).trans (if_pos rfl)
  have hbody : (v.newSeq 0xFFFF).1.discoverBody n m = s.discoverBody n m := by
    rw [hv]
    rfl
  obtain ⟨⟨draw, ready, hq⟩, -⟩ := (v.newSeq 0xFFFF).1.queueLineAt_does n m d
    (ownFrame .discover 3 2 0 0xFFFF (v.newSeq 0xFFFF).2 false ((v.newSeq 0xFFFF).1.discoverBody n m))
  rw [← hu, hls] at hq
  rw [hq]
  exact ⟨rfl, insertFrame_length _ _, _, (insertFrame_mem _ _).1, rfl, rfl, rfl, rfl, rfl, rfl, hbody⟩

/-- Settles O44. -/
theorem mapsRebuildAndDiscoverIsSent : Obligations.MapsRebuildAndDiscoverIsSent := by
  unfold Obligations.MapsRebuildAndDiscoverIsSent
  constructor
  · intro t n m s hon hn hpatch x now nodes c pick offered
    have htick {parts : List Block} {u : State} (h : Only parts (s.tick t) u) : Only parts s u := by
      exact only_mono ((s.tick_only t).trans h) (by simp)
    obtain ⟨acc, y, hinput⟩ := (s.tick t).input_free (.lineTx n m) (.lineRebuilt n m) (fun s => s.rebuilt n m) hpatch
    generalize hv : ({ s.tick t with fau := { (s.tick t).fau with accepted := acc } } : State) = v at hinput
    have hls : v.ls n m = x := by rw [← hv]; rfl
    have hparts : v.flag F.plxMapcfgFreeze n = s.flag F.plxMapcfgFreeze n ∧ v.included n (v.timer n) = s.included n (s.timer n) ∧
        v.linkOn n m = s.linkOn n m := by
      rw [← hv]
      exact ⟨rfl, rfl, rfl⟩
    obtain ⟨hfreeze, hinc, hlink⟩ := hparts
    have honly : Only [.fau] s v := by
      rw [← hv]
      exact htick (by simp [only_iff])
    have hfau (u : State) : Only [.fau] u { u with fau := y } := by simp [only_iff]
    refine ⟨fun hen hreb => ⟨fun hgiven => does_whenOn hon ?_, fun hfree hgo => does_whenOn hon ?_⟩, fun hno => does_whenOn hon ?_⟩
    · rw [hinput]
      unfold State.rebuilt
      rw [if_pos ⟨hlink.trans hen, by rw [hls]; exact hreb⟩]
      unfold State.rebuildDone
      dsimp only
      rw [if_pos (by rw [hfreeze, hinc]; rcases hgiven with h | h <;> simp [h]), hls]
      refine ⟨(v.ls_setLs n m _ m).trans (if_pos rfl), only_mono (honly.trans (parts' := [.plx, .fau]) ?_) (by simp)⟩
      simp [only_iff]
    · rw [hinput]
      unfold State.rebuilt
      have hm : m < 64 := by
        simp only [State.linkOn, Bool.and_eq_true, decide_eq_true_eq] at hen
        exact hen.1.1.2
      rw [if_pos ⟨hlink.trans hen, by rw [hls]; exact hreb⟩]
      have hdone := v.rebuildDone_does n m hm (hlink.trans hen) (hfreeze.trans hfree) (hinc.trans hgo)
      have honly' : Only [.plx, .regs, .fau] s { v.rebuildDone n m with fau := y } := by
        refine only_mono (honly.trans (parts' := [.plx, .regs, .fau]) ?_) (by simp)
        simp [only_iff]
      obtain ⟨hreb', hcount, hunbuilt, hwaits, hfirst, hchoices, hsame, hnew⟩ := hdone
      generalize v.rebuildDone n m = u at *
      obtain ⟨hcan, hnodes, hbuild, hchoice, hentries⟩ := (s.tick t).fau_maps { (s.tick t).fau with accepted := acc } n m
      rw [hv] at hcan hnodes hbuild
      simp only [hv] at hchoice hentries
      have hnodes' : v.linkNodes n m = nodes := hnodes.trans rfl
      have hcan' : v.canBuild n m = s.canBuild n m := hcan.trans rfl
      have hregs : v.regs = s.regs := honly .regs (by simp)
      have hnow : v.now = now := by rw [← hv]; rfl
      simp only [hls, hnodes', hcan', hbuild, hnow, hchoice, hentries, OfferedNext, reg_of_regs hregs] at hreb' hcount hunbuilt hwaits hfirst hchoices hsame hnew
      refine ⟨hreb'.1, hreb'.2, hcount, hunbuilt, hwaits, hfirst, fun old hold hoffer => ?_, honly'⟩
      have hsame' := hsame old hold hoffer
      have hnew' := hnew old hold hoffer
      exact ⟨hchoices old hold hoffer, hsame', hnew'⟩
    · rw [hinput]
      unfold State.rebuilt
      rw [if_neg (by rw [hlink, hls]; rintro ⟨h, h'⟩; rcases hno with hno | hno <;> simp_all)]
      exact only_mono (honly.trans (hfau v)) (by simp)
  · intro t n m s hon after
    have htick {parts : List Block} {u : State} (h : Only parts (s.tick t) u) : Only parts s u := by
      exact only_mono ((s.tick_only t).trans h) (by simp)
    have hls : (s.tick t).ls n m = s.ls n m := rfl
    refine ⟨fun d hlink hen hd => does_whenOn hon ?_, fun hno => does_whenOn hon ?_⟩
    · have hdue : (s.tick t).discoverDue n m = some d := by
        unfold State.discoverDue
        rw [if_pos (by rw [Bool.and_eq_true]; exact ⟨hlink, hen⟩), hls]
        rcases hd with ⟨hnone, rfl⟩ | ⟨⟨u, hu, rfl⟩, hle⟩
        · rw [hnone]
          rfl
        · rw [hu]
          exact if_pos hle
      rw [hdue]
      obtain ⟨hdisc, hlen, hframe⟩ := (s.tick t).discover_does n m d rfl rfl
      refine ⟨hdisc, htick ?_, hlen, hframe⟩
      simp [only_iff]
    · have hdue : (s.tick t).discoverDue n m = none := by
        unfold State.discoverDue
        split
        next hgo =>
          rw [Bool.and_eq_true] at hgo
          rcases hno with hno | hno | ⟨d, ⟨u, hu, rfl⟩, hlt⟩
          · exact absurd (hgo.1.symm.trans hno) (by simp)
          · exact absurd (hgo.2.symm.trans hno) (by simp)
          · rw [hls, hu]
            exact if_neg (Nat.not_le.2 hlt)
        next => rfl
      rw [hdue]
      exact s.tick_only t

end Sys2Proof.Machine
end

section
/-!
SUPPORT. The site front end: the sequencer, wire breaks, outputs, the stream and the loops; statements O56 and O57.
-/

namespace Sys2Proof.Machine

-- Proofs one after another: the text is long, and is checked in bounded memory.
set_option Elab.async false

open Sys2Proof Sys2Proof.Safety

/-! ## Events behind other events -/

/-- At most `n` events have been put to each session. -/
def PostsUpTo (n : Nat) (s u : State) : Prop :=
  ascending s.stw.sess = true → ascending u.stw.sess = true ∧
    ∀ k x, tget? s.stw.sess k = some x → ∃ y, tget? u.stw.sess k = some y ∧ y.groups = x.groups ∧ y.events.length ≤ x.events.length + n

theorem PostsUpTo.of_sess {s u : State} (h : u.stw.sess = s.stw.sess) : PostsUpTo 0 s u :=
  fun hasc => ⟨h ▸ hasc, fun _ x hx => ⟨x, h ▸ hx, rfl, le_rfl⟩⟩

theorem PostsUpTo.trans {n m : Nat} {s u v : State} (h : PostsUpTo n s u) (k : PostsUpTo m u v) : PostsUpTo (n + m) s v := by
  intro hasc
  obtain ⟨hu, hsu⟩ := h hasc
  obtain ⟨hv, huv⟩ := k hu
  refine ⟨hv, fun i x hx => ?_⟩
  obtain ⟨y, hy, hxy, hlen⟩ := hsu i x hx
  obtain ⟨z, hz, hyz, hlen'⟩ := huv i y hy
  exact ⟨z, hz, hyz.trans hxy, by omega⟩

theorem PostsUpTo.mono {n m : Nat} {s u : State} (h : PostsUpTo n s u) (hnm : n ≤ m) : PostsUpTo m s u := by
  intro hasc
  obtain ⟨hu, hsu⟩ := h hasc
  refine ⟨hu, fun i x hx => ?_⟩
  obtain ⟨y, hy, hxy, hlen⟩ := hsu i x hx
  exact ⟨y, hy, hxy, by omega⟩

theorem Session.posted_length (x : Session) (now : Nat) (sent : Bool) (body : List Byte) :
    (x.posted now sent body).groups = x.groups ∧ (x.posted now sent body).events.length ≤ x.events.length + 1 := by
  unfold Session.posted
  split
  · exact ⟨rfl, Nat.le_succ _⟩
  · exact ⟨rfl, by simp⟩

theorem State.postEvent_posts (s : State) (k : Nat) (x : Session) (b : List Byte) (hx : tget? s.stw.sess k = some x)
    (hasc : ascending s.stw.sess = true) : ascending (s.postEvent k x b).stw.sess = true ∧
    ∀ j y, tget? s.stw.sess j = some y → ∃ z, tget? (s.postEvent k x b).stw.sess j = some z ∧ z.groups = y.groups ∧
      z.events.length ≤ y.events.length + if j = k then 1 else 0 := by
  rw [State.postEvent_posted]
  refine ⟨ascending_tset _ _ _ hasc, fun j y hy => ?_⟩
  rw [tget?_tset]
  split
  next hj =>
    subst hj
    obtain rfl : x = y := Option.some.inj (hx.symm.trans hy)
    obtain ⟨hgroups, hlen⟩ := x.posted_length s.now s.anyUp b
    exact ⟨_, rfl, hgroups, hlen⟩
  next => exact ⟨y, hy, rfl, Nat.le_add_right _ _⟩

/-- The loop of `State.raiseAt` over sessions with different keys. -/
theorem foldl_posts_once (body : State → List Byte) (code : Nat) (l : List (Nat × Session)) (u : State) (hl : ascending l = true)
    (hasc : ascending u.stw.sess = true) {w : State} (hw : w = l.foldl (fun (s : State) e => match tget? s.stw.sess e.1 with
      | some x => if bit x.groups (code / 256) then s.postEvent e.1 x (body s) else s
      | none => s) u) : ascending w.stw.sess = true ∧
    ∀ k x, tget? u.stw.sess k = some x → ∃ y, tget? w.stw.sess k = some y ∧ y.groups = x.groups ∧
      y.events.length ≤ x.events.length + if ∃ e ∈ l, e.1 = k then 1 else 0 := by
  induction l generalizing u with
  | nil =>
    subst hw
    exact ⟨hasc, fun k x hx => ⟨x, hx, rfl, Nat.le_add_right _ _⟩⟩
  | cons a l ih =>
    obtain ⟨hlt, hl⟩ := (ascending_cons a.1 a.2 l).1 hl
    rw [List.foldl_cons] at hw
    generalize hv : (match tget? u.stw.sess a.1 with
      | some x => if bit x.groups (code / 256) then u.postEvent a.1 x (body u) else u
      | none => u) = v at hw
    have hstep : ascending v.stw.sess = true ∧ ∀ k x, tget? u.stw.sess k = some x → ∃ y, tget? v.stw.sess k = some y ∧
        y.groups = x.groups ∧ y.events.length ≤ x.events.length + if k = a.1 then 1 else 0 := by
      have hsame : ascending u.stw.sess = true ∧ ∀ k x, tget? u.stw.sess k = some x → ∃ y, tget? u.stw.sess k = some y ∧
          y.groups = x.groups ∧ y.events.length ≤ x.events.length + if k = a.1 then 1 else 0 :=
        ⟨hasc, fun k x hx => ⟨x, hx, rfl, Nat.le_add_right _ _⟩⟩
      subst hv
      split
      next x hx =>
        split
        · exact u.postEvent_posts _ _ _ hx hasc
        · exact hsame
      next => exact hsame
    obtain ⟨hascv, huv⟩ := hstep
    obtain ⟨hascw, hvw⟩ := ih v hl hascv hw
    refine ⟨hascw, fun k x hx => ?_⟩
    obtain ⟨y, hy, hxy, hlen⟩ := huv k x hx
    obtain ⟨z, hz, hyz, hlen'⟩ := hvw k y hy
    refine ⟨z, hz, hyz.trans hxy, ?_⟩
    by_cases hk : k = a.1
    · have hout : ¬ ∃ e ∈ l, e.1 = k := by
        rintro ⟨e, he, rfl⟩
        exact absurd (hlt e he) (by omega)
      rw [if_pos hk] at hlen
      rw [if_neg hout] at hlen'
      rw [if_pos ⟨a, List.mem_cons_self, hk.symm⟩]
      omega
    · rw [if_neg hk] at hlen
      by_cases hin : ∃ e ∈ l, e.1 = k
      · obtain ⟨e, he, hek⟩ := hin
        rw [if_pos ⟨e, he, hek⟩] at hlen'
        rw [if_pos ⟨e, List.mem_cons_of_mem _ he, hek⟩]
        omega
      · rw [if_neg hin] at hlen'
        omega

/-- An event raised is put to each session once at most. -/
theorem State.raiseAt_posts (s : State) (at_ code block inst : Nat) (data : List Byte) : PostsUpTo 1 s (s.raiseAt at_ code block inst data) := by
  intro hasc
  unfold State.raiseAt
  split
  · exact ⟨hasc, fun k x hx => ⟨x, hx, rfl, Nat.le_succ _⟩⟩
  · obtain ⟨hu, hsu⟩ := foldl_posts_once (fun s => s.eventBodyAt at_ code block inst data) code s.stw.sess s hasc hasc rfl
    refine ⟨hu, fun k x hx => ?_⟩
    obtain ⟨y, hy, hxy, hlen⟩ := hsu k x hx
    refine ⟨y, hy, hxy, hlen.trans ?_⟩
    split <;> omega

theorem State.raise_posts (s : State) (code block inst : Nat) (data : List Byte) : PostsUpTo 1 s (s.raise code block inst data) :=
  s.raiseAt_posts _ _ _ _ _

/-- An event raised behind others is reported. -/
theorem PostsUpTo.reported {n at_ code block inst : Nat} {data : List Byte} {s u v : State} (h : PostsUpTo n s u)
    (hfw : u.fwRuns = s.fwRuns) (hlin : u.lin.epoch = s.lin.epoch) (hraised : Raised u v at_ code block inst data) :
    Reported s v n at_ code block inst data := by
  intro hf hasc k x hx hg hroom
  obtain ⟨-, hsu⟩ := h hasc
  obtain ⟨y, hy, hxy, hlen⟩ := hsu k x hx
  obtain ⟨z, e, rest, hz, he, -, hbody⟩ := hraised (hfw.trans hf) k y hy (by rw [hxy]; exact hg) (by omega)
  exact ⟨z, e, rest, hz, he, by rw [hbody, State.eventBodyAt, State.eventBodyAt, hlin]⟩

/-! ## The site front end's sequencer (16 R359, R365 to R372) -/

/-- A channel restarted, with the mains cycles that it knows. -/
def Chan.restarted (c : Chan) (cycles : List (Nat × Nat)) : Chan :=
  { c with first := none, visits := [], steady := none, interval := none, longest := 0, cycles := cycles, mean := 0, good := none }

theorem State.chan_restartChan (s : State) (e : Nat) (counted : Bool) (k : Nat) :
    (s.restartChan e counted).chan k = if k = e then (s.chan e).restarted (s.cyclesNow e) else s.chan k := by
  have hset (c : Chan) (u : State) (hu : u.chans = (s.setChan e c).chans) : u.chan k = if k = e then c else s.chan k := by
    rw [State.chan, hu]
    exact tget_tset _ _ _ _ _
  unfold State.restartChan
  dsimp only
  split <;> exact hset _ _ rfl

theorem State.restartChan_reg (s : State) (e : Nat) (counted : Bool) (x : FRef) (i j : Nat) (hres : famAddr x.fam i j ≠ famAddr .cnvRes e 0)
    (hcount : famAddr x.fam i j ≠ famAddr .fltCntRestart 0 0) : (s.restartChan e counted).reg x i j = s.reg x i j := by
  have hset (u : State) : ((u.setReg F.cnvResValue e 0 0).setReg F.cnvResQuality e 0 0).reg x i j = u.reg x i j :=
    (State.reg_setReg_ne _ _ _ _ _ _ _ _ hres).trans (State.reg_setReg_ne _ _ _ _ _ _ _ _ hres)
  unfold State.restartChan
  dsimp only
  split
  · exact (State.reg_bump_ne _ _ _ _ _ _ hcount).trans (hset _)
  · exact hset _

/-- A channel restarted has no result. -/
theorem State.restartChan_res (s : State) (e : Nat) (counted : Bool) (he : e < 32) :
    (s.restartChan e counted).reg F.cnvResValue e = 0 ∧ (s.restartChan e counted).reg F.cnvResQuality e = 0 := by
  have hset (u : State) : ((u.setReg F.cnvResValue e 0 0).setReg F.cnvResQuality e 0 0).reg F.cnvResValue e = 0 ∧
      ((u.setReg F.cnvResValue e 0 0).setReg F.cnvResQuality e 0 0).reg F.cnvResQuality e = 0 := by
    constructor
    · rw [State.reg_setReg_apart _ F.cnvResQuality F.cnvResValue e 0 0 rfl (by decide) (by decide) (by decide),
        State.reg_setReg_self _ _ _ _ _ (by decide) (by decide)]
      exact Nat.zero_mod _
    · rw [State.reg_setReg_self _ _ _ _ _ (by decide) (by decide)]
      exact Nat.zero_mod _
  unfold State.restartChan
  extract_lets c s₁ s₂
  obtain ⟨hvalue, hquality⟩ := hset s₁
  have haddr : famAddr .cnvRes e 0 ≠ famAddr .fltCntRestart 0 0 := by simp [famAddr, famInfo]; omega
  split
  · exact ⟨(State.reg_bump_ne s₂ F.fltCntRestart F.cnvResValue 0 e 0 haddr).trans hvalue,
      (State.reg_bump_ne s₂ F.fltCntRestart F.cnvResQuality 0 e 0 haddr).trans hquality⟩
  · exact ⟨hvalue, hquality⟩

/-- Registers other than results and the count of restarts. -/
def OffResults (x : FRef) (i j : Nat) : Prop := (∀ e, famAddr x.fam i j ≠ famAddr .cnvRes e 0) ∧ famAddr x.fam i j ≠ famAddr .fltCntRestart 0 0

theorem offResults_low (x : FRef) (i j : Nat) (h : famAddr x.fam i j < 0x610300) : OffResults x i j := by
  constructor
  · intro e
    simp only [famAddr, famInfo] at *
    omega
  · simp only [famAddr, famInfo] at *
    omega

/-- Every channel restarted: none has a result, and the other registers are as they were. -/
theorem State.restartAll_does (s : State) {u : State} (hu : u = (List.range 32).foldl (fun s e => s.restartChan e true) s) :
    (∀ e, e < 32 → (u.chan e).first = none ∧ (u.chan e).visits = [] ∧ (u.chan e).good = none ∧ u.reg F.cnvResValue e = 0 ∧
      u.reg F.cnvResQuality e = 0) ∧ ∀ (x : FRef) (i j : Nat), OffResults x i j → u.reg x i j = s.reg x i j := by
  have key : ∀ N ≤ 32, ∀ u : State, u = (List.range N).foldl (fun s e => s.restartChan e true) s →
      (∀ e, e < N → (u.chan e).first = none ∧ (u.chan e).visits = [] ∧ (u.chan e).good = none ∧ u.reg F.cnvResValue e = 0 ∧
        u.reg F.cnvResQuality e = 0) ∧ ∀ (x : FRef) (i j : Nat), OffResults x i j → u.reg x i j = s.reg x i j := by
    intro N
    induction N with
    | zero =>
      rintro - u rfl
      exact ⟨fun e he => absurd he (by omega), fun _ _ _ _ => rfl⟩
    | succ N ih =>
      intro hN u hu
      rw [List.range_succ, List.foldl_append] at hu
      obtain ⟨hdone, hreg⟩ := ih (by omega) _ rfl
      generalize (List.range N).foldl (fun s e => s.restartChan e true) s = v at hdone hreg hu
      obtain rfl : u = v.restartChan N true := hu
      refine ⟨fun e he => ?_, fun x i j hx => (v.restartChan_reg N true x i j (hx.1 N) hx.2).trans (hreg x i j hx)⟩
      by_cases heN : e = N
      · subst heN
        rw [State.chan_restartChan, if_pos rfl]
        obtain ⟨hvalue, hquality⟩ := v.restartChan_res e true (by omega)
        exact ⟨rfl, rfl, rfl, hvalue, hquality⟩
      · have hapart (y : FRef) (hy : y.fam = .cnvRes) : (v.restartChan N true).reg y e = v.reg y e :=
          v.restartChan_reg N true y e 0 (by simp [hy, famAddr, famInfo]; omega) (by simp [hy, famAddr, famInfo]; omega)
        rw [State.chan_restartChan, if_neg heN, hapart _ rfl, hapart _ rfl]
        exact hdone e (by omega)
  exact key 32 le_rfl u hu

/-- A snapshot's registers leave a field that no snapshot holds. -/
theorem State.applyReg_direct (s : State) (a : Nat) (v : Word) (x : FRef) {i j : Nat} (hreg : regOf (famAddr x.fam i j) = some (x.fam, i, j))
    (hlo : x.lo ≤ x.hi) (hhi : x.hi < 32) (hrs : ∀ b, x.lo ≤ b → b < x.hi + 1 → (classMask x.fam .rs).getLsbD b = false) :
    (s.applyReg a v).reg x i j = s.reg x i j := by
  by_cases ha : famAddr x.fam i j = a
  · subst ha
    exact Regs.applyReg_get _ _ hreg _ _ _ (.inr ⟨rfl, rfl, rfl, hlo, hhi, hrs⟩)
  · exact Regs.applyReg_apart _ _ _ _ _ _ ha

theorem State.applyRegs_en (s : State) (l : List (Nat × Word)) : (l.foldl (fun s x => s.applyReg x.1 x.2) s).reg F.cnvCtlEn = s.reg F.cnvCtlEn :=
  foldl_keeps (fun u : State => u.reg F.cnvCtlEn = s.reg F.cnvCtlEn) (fun s (x : Nat × Word) => s.applyReg x.1 x.2)
    (fun u x hu => (u.applyReg_direct x.1 x.2 F.cnvCtlEn (by decide) (by decide) (by decide) (by decide)).trans hu) _ _ rfl

/-- From `s` to `u` a snapshot reaches the entries: the sequencer stays where it is, and EN as it is. -/
structure SeqStays (s u : State) : Prop where
  cnv : ∃ gains falls used, u.cnv = { s.cnv with gains := gains, falls := falls, used := used }
  en : u.reg F.cnvCtlEn = s.reg F.cnvCtlEn

namespace SeqStays

variable {s u v : State}

theorem of_parts (hcnv : u.cnv = s.cnv) (hen : u.reg F.cnvCtlEn = s.reg F.cnvCtlEn) : SeqStays s u :=
  ⟨⟨s.cnv.gains, s.cnv.falls, s.cnv.used, hcnv⟩, hen⟩

theorem refl (s : State) : SeqStays s s := of_parts rfl rfl

theorem trans (h : SeqStays s u) (k : SeqStays u v) : SeqStays s v := by
  obtain ⟨g, f, w, hu⟩ := h.cnv
  obtain ⟨g', f', w', hv⟩ := k.cnv
  exact ⟨⟨g', f', w', by rw [hv, hu]⟩, k.en.trans h.en⟩

end SeqStays

theorem State.restartChan_stays (s : State) (e : Nat) (counted : Bool) : SeqStays s (s.restartChan e counted) := by
  obtain ⟨hres, hcount⟩ := offResults_low F.cnvCtlEn 0 0 (by decide)
  exact .of_parts (by simp) (s.restartChan_reg e counted _ _ _ (hres e) hcount)

theorem State.applyRegs_stays (s : State) (l : List (Nat × Word)) : SeqStays s (l.foldl (fun s x => s.applyReg x.1 x.2) s) :=
  .of_parts (by simp) (s.applyRegs_en l)

theorem State.handedOver_stays (s : State) (f : Fam) (i : Nat) : SeqStays s (s.handedOver f i) := .of_parts rfl rfl

theorem State.chanBoundary_stays (s : State) (e : Nat) : SeqStays s (s.chanBoundary e) := by
  unfold State.chanBoundary
  extract_lets c old w s₁ s₂
  have h₂ : SeqStays s s₂ := by
    refine (s.applyRegs_stays (chanSnap c.snap e)).trans ?_
    unfold s₂
    split
    · exact .refl _
    · exact s₁.restartChan_stays _ _
  split
  · split
    · exact h₂.trans (s₂.handedOver_stays _ _)
    · exact h₂.trans (.of_parts rfl rfl)
  · exact .refl _

theorem State.idleChans_stays (s : State) : SeqStays s s.idleChans := by
  refine foldl_keeps (SeqStays s) _ (fun u e hu => ?_) _ _ (.refl s)
  split
  · exact hu
  · exact hu.trans (u.chanBoundary_stays e)

theorem State.cnvBoundary_stays (s : State) : SeqStays s s.cnvBoundary := by
  unfold State.cnvBoundary
  extract_lets c old s₁ s₂ s₃
  split
  · have h₁ : SeqStays s s₁ := (s.applyRegs_stays _).trans (State.handedOver_stays _ _ _)
    have h₂ : SeqStays s s₂ := by
      refine h₁.trans (foldl_keeps (SeqStays s₁) _ (fun u e hu => ?_) _ _ (.refl _))
      split
      · exact hu
      · refine hu.trans (SeqStays.trans ?_ (State.restartChan_stays _ e true))
        exact ⟨⟨tdel u.cnv.gains e, tdel u.cnv.falls e, u.cnv.used, rfl⟩, rfl⟩
    have h₃ : SeqStays s s₃ := by
      refine h₂.trans ?_
      unfold s₃
      split
      · exact .refl _
      · exact ⟨⟨s₂.cnv.gains, s₂.cnv.falls, _, rfl⟩, rfl⟩
    split
    · exact h₃
    · exact h₃.trans s₃.idleChans_stays
  · exact .refl _

theorem tget?_append {α : Type} (l r : Tab α) (k : Nat) : tget? (l ++ r) k = (tget? l k).or (tget? r k) := by
  induction l with
  | nil => rfl
  | cons a l ih =>
    rw [List.cons_append, tget?_cons, tget?_cons, ih]
    split <;> rfl

theorem tget?_sources (f : Nat → Option Nat) (a N k : Nat) :
    tget? ((List.range N).filterMap fun n => (f n).map fun t => (n + a, t)) k = if a ≤ k ∧ k < N + a then f (k - a) else none := by
  have key : ∀ j N, tget? ((List.range' j N).filterMap fun n => (f n).map fun t => (n + a, t)) k =
      if j + a ≤ k ∧ k < j + N + a then f (k - a) else none := by
    intro j N
    induction N generalizing j with
    | zero => exact (if_neg (by omega)).symm
    | succ N ih =>
      rw [List.range'_succ, List.filterMap_cons]
      by_cases hk : k = j + a
      · subst hk
        rw [if_pos (by omega), Nat.add_sub_cancel]
        cases hj : f j with
        | none => exact (ih (j + 1)).trans (if_neg (by omega))
        | some t => exact if_pos rfl
      · have hrest : (if j + 1 + a ≤ k ∧ k < j + 1 + N + a then f (k - a) else none) =
            if j + a ≤ k ∧ k < j + (N + 1) + a then f (k - a) else none := by
          by_cases h : j + 1 + a ≤ k ∧ k < j + 1 + N + a
          · rw [if_pos h, if_pos (by omega)]
          · rw [if_neg h, if_neg (by omega)]
        cases hj : f j with
        | none => exact (ih (j + 1)).trans hrest
        | some t => exact (if_neg (fun h => hk h.symm)).trans ((ih (j + 1)).trans hrest)
  rw [List.range_eq_range', key 0 N]
  simp

/-- Once what has fired is forgotten, no trigger source has fired. -/
theorem State.forgetTriggers_firing (s : State) : s.forgetTriggers.firing = none := by
  have hused (k : Nat) : tget? s.forgetTriggers.cnv.used k = (if 1 ≤ k ∧ k < 5 then tget? s.mns.fired (k - 1) else none).or
      (if 5 ≤ k ∧ k < 9 then (s.loop (k - 5)).fired else none) := by
    rw [← tget?_sources (fun n => tget? s.mns.fired n) 1 4 k, ← tget?_sources (fun n => (s.loop n).fired) 5 4 k]
    exact tget?_append _ _ _
  unfold State.firing
  dsimp only
  have hmns : s.forgetTriggers.mns = s.mns := rfl
  have hloop (n : Nat) : s.forgetTriggers.loop n = s.loop n := rfl
  rw [hused, hmns, hloop]
  generalize s.forgetTriggers.reg F.cnvSeqCtlTsrc = n
  by_cases h₁ : 1 ≤ n ∧ n ≤ 4
  · rw [if_pos h₁, if_pos (show 1 ≤ n ∧ n < 5 by omega)]
    cases h : tget? s.mns.fired (n - 1) with
    | none => rfl
    | some t => exact if_pos rfl
  · rw [if_neg h₁, if_neg (show ¬ (1 ≤ n ∧ n < 5) by omega)]
    by_cases h₂ : 5 ≤ n ∧ n ≤ 8
    · rw [if_pos h₂, if_pos (show 5 ≤ n ∧ n < 9 by omega)]
      cases h : (s.loop (n - 5)).fired with
      | none => rfl
      | some t => exact if_pos rfl
    · rw [if_neg h₂]

theorem State.cnvEnable_does (s : State) : s.cnvEnable.flag F.cnvCtlEn = true ∧ s.cnvEnable.cnv.cal = false ∧ s.cnvEnable.cnv.enAt = s.now ∧
    s.cnvEnable.cnv.gains = [] ∧
    (if s.cnv.ready = true ∧ s.flag F.cnvSeqCtlCont = true then s.cnvEnable.cnv.state = 3 ∧ s.cnvEnable.cnv.entry = 0 ∧
      s.cnvEnable.cnv.visit = s.now ∧ s.cnvEnable.cnv.raws = [] ∧ s.cnvEnable.cnv.peak = 0 else s.cnvEnable.cnv.state = 1) ∧
    ∀ e, e < 32 → (s.cnvEnable.chan e).first = none ∧ (s.cnvEnable.chan e).visits = [] ∧ (s.cnvEnable.chan e).good = none ∧
      s.cnvEnable.reg F.cnvResValue e = 0 ∧ s.cnvEnable.reg F.cnvResQuality e = 0 := by
  unfold State.cnvEnable
  extract_lets s₁ s₂ x s₃ s₄
  obtain ⟨hdone, hreg⟩ := s₁.restartAll_does (u := s₂) rfl
  have hen : s₂.reg F.cnvCtlEn = 1 := (hreg _ _ _ (offResults_low _ _ _ (by decide))).trans
    (State.reg_setReg_self s F.cnvCtlEn 0 0 1 (by decide) (by decide))
  have hcont : s₂.reg F.cnvSeqCtlCont = s.reg F.cnvSeqCtlCont := (hreg _ _ _ (offResults_low _ _ _ (by decide))).trans
    (State.reg_setReg_ne _ _ _ _ _ _ _ _ (by decide))
  have hcnv : s₂.cnv = s.cnv ∧ s₂.now = s.now := by
    have : s₂.cnv = s₁.cnv ∧ s₂.now = s₁.now := by
      unfold s₂
      simp
    exact this
  clear_value s₂
  have hnow : s₄.now = s.now := hcnv.2
  have hcnv₄ : s₄.cnv = { s.cnv with state := 1, cal := false, enAt := s.now, gains := [], falls := [], raws := [], used := s₄.cnv.used } := by
    rw [← hcnv.2, ← hcnv.1]
    rfl
  have hregs : s₄.regs = s₂.regs := rfl
  have hchans : s₄.chans = s₂.chans := rfl
  clear_value s₄
  have hready : (s₄.cnv.ready && s₄.flag F.cnvSeqCtlCont) = decide (s.cnv.ready = true ∧ s.flag F.cnvSeqCtlCont = true) := by
    rw [hcnv₄, State.flag, reg_of_regs hregs, hcont, ← State.flag]
    simp
  rw [hready]
  have hres (u : State) (hr : u.regs = s₂.regs) (hc : u.chans = s₂.chans) : u.flag F.cnvCtlEn = true ∧
      ∀ e, e < 32 → (u.chan e).first = none ∧ (u.chan e).visits = [] ∧ (u.chan e).good = none ∧ u.reg F.cnvResValue e = 0 ∧
        u.reg F.cnvResQuality e = 0 := by
    refine ⟨by rw [State.flag, reg_of_regs hr, hen]; rfl, fun e he => ?_⟩
    rw [State.chan, hc, reg_of_regs hr, reg_of_regs hr]
    exact hdone e he
  by_cases hgo : s.cnv.ready = true ∧ s.flag F.cnvSeqCtlCont = true
  · rw [if_pos (decide_eq_true hgo), if_pos hgo]
    obtain ⟨hflag, hchan⟩ := hres (s₄.startVisit 0 s₄.now) hregs hchans
    have hstart : (s₄.startVisit 0 s₄.now).cnv = { s₄.cnv with state := 3, entry := 0, visit := s₄.now, raws := [], gain := s₄.startGain 0, peak := 0 } := rfl
    rw [hcnv₄] at hstart
    rw [hstart]
    exact ⟨hflag, rfl, rfl, rfl, ⟨rfl, rfl, hnow, rfl, rfl⟩, hchan⟩
  · rw [if_neg (by simpa using hgo), if_neg hgo]
    obtain ⟨hflag, hchan⟩ := hres s₄ hregs hchans
    rw [hcnv₄]
    exact ⟨hflag, rfl, rfl, rfl, rfl, hchan⟩

/-- A chop period without overload, or with the gain held, keeps its gain and forms its raw sample of every code. -/
theorem chop_held (auto : Bool) (l : List Int) (at_ g : Nat) (kept : List Int) (beyond : Bool) (fall : Option Nat) (peak : Nat)
    (h : auto = false ∨ ∀ c ∈ l, nearFull c = false) : (chop auto l at_ g kept beyond fall peak).1 = g ∧
    (chop auto l at_ g kept beyond fall peak).2.1 = kept ++ l ∧ (chop auto l at_ g kept beyond fall peak).2.2.1 = (beyond || l.any nearFull) := by
  induction l generalizing at_ kept beyond peak with
  | nil => exact ⟨rfl, (List.append_nil _).symm, (Bool.or_false _).symm⟩
  | cons c l ih =>
    unfold chop
    dsimp only
    rw [if_neg (by rcases h with h | h <;> simp [h])]
    obtain ⟨hg, hkept, hbeyond⟩ := ih (at_ + 500) (kept ++ [c]) (beyond || nearFull c) (max peak (c.natAbs * 2 ^ (7 - g)))
      (h.imp id fun h d hd => h d (List.mem_cons_of_mem _ hd))
    refine ⟨hg, hkept.trans (by simp), hbeyond.trans ?_⟩
    rw [List.any_cons, Bool.or_assoc]

/-- A raw sample joins the visit: what its codes say, at the gain that they were taken with. -/
theorem State.rawSample_does (s : State) (codes : List Int) (h : s.autoGain s.cnv.entry = false ∨ ∀ c ∈ codes, nearFull c = false) :
    (s.rawSample codes).cnv.gain = s.cnv.gain ∧ (∃ r : Raw, (s.rawSample codes).cnv.raws = s.cnv.raws ++ [r] ∧ r.beyond = codes.any nearFull ∧
      r.value = s.rawValue codes s.cnv.gain ∧ r.centre = s.dwellAt s.cnv.entry s.cnv.visit + 32 * us * s.cnv.raws.length + 16 * us ∧
      r.fin = s.dwellAt s.cnv.entry s.cnv.visit + 32 * us * s.cnv.raws.length + 32 * us) ∧
    (s.rawSample codes).reg F.cnvCntOver = (if codes.any nearFull then min (s.reg F.cnvCntOver + 1) 0xFFFFFFFF else s.reg F.cnvCntOver) ∧
    Only (if codes.any nearFull then [.cnv, .regs] else [.cnv]) s (s.rawSample codes) := by
  unfold State.rawSample
  extract_lets c e start fin r g fall falls chg raw t
  obtain ⟨hg, hkept, hbeyond⟩ := chop_held (s.autoGain e) codes start c.gain [] false none c.peak h
  have hbeyond' : r.2.2.1 = codes.any nearFull := hbeyond.trans (Bool.false_or _)
  have hraw : raw.beyond = codes.any nearFull ∧ raw.value = s.rawValue codes c.gain := by
    refine ⟨hbeyond', ?_⟩
    unfold raw
    rw [show g = c.gain from hg, show r.2.1 = codes from hkept]
  rw [hbeyond']
  have hcnv (v : State) (hv : v.cnv = t.cnv) : v.cnv.gain = s.cnv.gain ∧ ∃ r : Raw, v.cnv.raws = s.cnv.raws ++ [r] ∧ r.beyond = codes.any nearFull ∧
      r.value = s.rawValue codes s.cnv.gain ∧ r.centre = s.dwellAt s.cnv.entry s.cnv.visit + 32 * us * s.cnv.raws.length + 16 * us ∧
      r.fin = s.dwellAt s.cnv.entry s.cnv.visit + 32 * us * s.cnv.raws.length + 32 * us := by
    rw [hv]
    exact ⟨hg, raw, rfl, hraw.1, hraw.2, rfl, rfl⟩
  have hreg : (t.bump F.cnvCntOver).reg F.cnvCntOver = min (s.reg F.cnvCntOver + 1) 0xFFFFFFFF :=
    State.reg_bump t _ _ (by decide) (by decide)
  have honly : Only [.cnv] s t := by simp [only_iff, t]
  clear_value t
  split
  · obtain ⟨hgain, hraws⟩ := hcnv (t.bump F.cnvCntOver) (by simp)
    exact ⟨hgain, hraws, hreg, only_mono (honly.trans (parts' := [.regs]) (by simp [only_iff])) (by simp)⟩
  · obtain ⟨hgain, hraws⟩ := hcnv t rfl
    exact ⟨hgain, hraws, reg_of_regs (honly .regs (by simp)) _ _ _, honly⟩

/-- The value of a raw sample whose mean is exact. -/
theorem State.rawValue_exact (s : State) (codes : List Int) (g n : Nat) (hn : n = codes.length * 2 ^ g) (hpos : codes.length ≠ 0)
    (h : codes.foldl (fun (a : Int) c => a + c) 0 * 8388608 % n = 0) :
    s.rawValue codes g = codes.foldl (fun (a : Int) c => a + c) 0 * 8388608 / n := by
  subst hn
  unfold State.rawValue
  dsimp only
  rw [if_neg (by positivity), if_pos h]

/-- A visit's sample reaches its channel. -/
theorem State.visitIn_does (s : State) (e : Nat) (v : Visit) : ((s.visitIn e v).chan e).seen = true ∧ v ∈ ((s.visitIn e v).chan e).visits ∧
    (∀ k, k ≠ e → (s.visitIn e v).chan k = s.chan k) ∧ (s.visitIn e v).cnv = s.cnv ∧
    ∀ (x : FRef) (i j : Nat), OffResults x i j → (s.visitIn e v).reg x i j = s.reg x i j := by
  unfold State.visitIn
  extract_lets c gap late t d
  have ht : (∀ k, k ≠ e → t.chan k = s.chan k) ∧ t.cnv = s.cnv ∧ ∀ (x : FRef) (i j : Nat), OffResults x i j → t.reg x i j = s.reg x i j := by
    have hrestart (b : Bool) : (∀ k, k ≠ e → (s.restartChan e b).chan k = s.chan k) ∧ (s.restartChan e b).cnv = s.cnv ∧
        ∀ (x : FRef) (i j : Nat), OffResults x i j → (s.restartChan e b).reg x i j = s.reg x i j :=
      ⟨fun k hk => (s.chan_restartChan e b k).trans (if_neg hk), by simp, fun x i j h => s.restartChan_reg e b x i j (h.1 e) h.2⟩
    unfold t
    split
    · exact hrestart false
    split
    · exact hrestart true
    · exact ⟨fun _ _ => rfl, rfl, fun _ _ _ _ => rfl⟩
  obtain ⟨hothers, hcnv, hreg⟩ := ht
  refine ⟨?_, ?_, fun k hk => ?_, hcnv, hreg⟩
  · rw [State.chan_setChan, if_pos rfl]
  · rw [State.chan_setChan, if_pos rfl]
    exact List.mem_append_right _ List.mem_cons_self
  · rw [State.chan_setChan, if_neg hk, hothers k hk]

theorem State.cnvDisable_does (s : State) : s.cnvDisable.flag F.cnvCtlEn = false ∧ s.cnvDisable.cnv.state = 0 ∧ s.cnvDisable.cnv.raws = [] := by
  unfold State.cnvDisable
  extract_lets t
  have hen : t.reg F.cnvCtlEn = 0 := State.reg_setReg_self s F.cnvCtlEn 0 0 0 (by decide) (by decide)
  obtain ⟨⟨g, f, w, hcnv⟩, hstay⟩ := (State.cnvBoundary_stays (t.setCnv { t.cnv with state := 0, raws := [] })).trans (State.idleChans_stays _)
  rw [State.flag, hstay, hcnv, show (t.setCnv { t.cnv with state := 0, raws := [] }).reg F.cnvCtlEn = t.reg F.cnvCtlEn from rfl, hen]
  exact ⟨rfl, rfl, rfl⟩

/-- A sequence ends: another begins where CONT says so, or the sequencer waits. -/
theorem State.sequenceEnd_does (s : State) (fin : Nat) : (s.sequenceEnd fin).cnv.seqs = (s.cnv.seqs + 1) % 65536 ∧
    ((s.sequenceEnd fin).flag F.cnvSeqCtlCont = true → (s.sequenceEnd fin).cnv.state = 3 ∧ (s.sequenceEnd fin).cnv.entry = 0 ∧
      (s.sequenceEnd fin).cnv.visit = fin ∧ (s.sequenceEnd fin).cnv.raws = [] ∧ (s.sequenceEnd fin).cnv.peak = 0) ∧
    ((s.sequenceEnd fin).flag F.cnvSeqCtlCont = false → (s.sequenceEnd fin).cnv.state = 1 ∧ (s.sequenceEnd fin).cnv.raws = []) := by
  unfold State.sequenceEnd
  extract_lets x t u
  obtain ⟨⟨g, f, w, hcnv⟩, -⟩ : SeqStays t u := t.cnvBoundary_stays
  clear_value u
  split
  next hcont =>
    refine ⟨?_, fun _ => ⟨rfl, rfl, rfl, rfl, rfl⟩, fun h => absurd (hcont.symm.trans h) (by simp)⟩
    exact (congrArg Cnv.seqs hcnv).trans rfl
  next hcont =>
    rw [hcnv]
    exact ⟨rfl, fun h => absurd h hcont, fun _ => ⟨rfl, rfl⟩⟩

/-! ## Wire breaks (16 R373 to R376) -/

theorem State.reg_lt (s : State) (x : FRef) (i j : Nat) : s.reg x i j < 2 ^ (x.hi + 1 - x.lo) := Nat.mod_lt _ (by positivity)

theorem PostsUpTo.after {n : Nat} {s u v : State} (h : u.stw.sess = s.stw.sess) (k : PostsUpTo n u v) : PostsUpTo n s v := by
  have := (PostsUpTo.of_sess h).trans k
  rwa [Nat.zero_add] at this

theorem State.loopEval_other (s : State) (n k : Nat) (hk : k ≠ n) : (s.loopEval n).loop k = s.loop k := by
  have hset (x : Loop) : (s.setLoop n x).loop k = s.loop k := (State.loop_setLoop _ _ _ _).trans (if_neg hk)
  unfold State.loopEval
  dsimp only
  split
  · simpa [State.loop, State.loopFault] using hset _
  · split
    · simpa [State.loop, State.loopFault] using hset _
    · exact hset _

theorem State.loopEval_posts (s : State) (n : Nat) : PostsUpTo 1 s (s.loopEval n) := by
  unfold State.loopEval
  dsimp only
  generalize s.loopUa n = ua
  generalize s.loopCause n = c
  generalize s.loop n = l
  split
  · exact .after (u := (s.setLoop n { l with fault := decide (c ≠ 0), cause := c, ua := ua }).bump F.lopCntFault) rfl
      (State.raise_posts _ _ _ _ _)
  · split
    · exact .after (u := s.setLoop n { l with fault := decide (c ≠ 0), cause := c, ua := ua }) rfl (State.raise_posts _ _ _ _ _)
    · exact (PostsUpTo.of_sess rfl).mono (Nat.zero_le _)

/-- Registers other than the count of loop faults. -/
def OffFaults (x : FRef) (i j : Nat) : Prop := famAddr x.fam i j ≠ famAddr .lopCntFault 0 0

/-- Of what a loop's evaluation reads, its own state apart, nothing changes, and no hand-over moves. -/
structure LoopsRun (s u : State) : Prop where
  reg (y : FRef) (i j : Nat) : OffFaults y i j → u.reg y i j = s.reg y i j
  now : u.now = s.now
  cnv : u.cnv = s.cnv
  coms : u.regs.coms = s.regs.coms

theorem State.loopEval_coms (s : State) (n : Nat) : (s.loopEval n).regs.coms = s.regs.coms := by
  unfold State.loopEval
  dsimp only
  split
  · exact (congrArg Regs.coms (State.raise_regs _ _ _ _ _)).trans rfl
  · split
    · exact (congrArg Regs.coms (State.raise_regs _ _ _ _ _)).trans rfl
    · rfl

/-- What loop `m` becomes where it is given `x` and evaluated. -/
def State.loopIn (s : State) (m : Nat) (x : Loop) : Loop :=
  { x with
    fault := decide ((s.setLoop m x).loopCause m ≠ 0)
    cause := (s.setLoop m x).loopCause m
    ua := (s.setLoop m x).loopUa m }

theorem State.loopEval_setLoop (s : State) (m : Nat) (x : Loop) : ((s.setLoop m x).loopEval m).loop m = s.loopIn m x := by
  rw [State.loopEval_loop, show (s.setLoop m x).loop m = x from tget_tset_self _ _ _ _]
  rfl

/-- Loop `m` has the registers that it had. -/
def LoopRegs (s u : State) (m : Nat) : Prop :=
  ∀ y : FRef, (y.fam = .lopLoCtl ∨ y.fam = .lopLoFixed ∨ y.fam = .lopLoV4 ∨ y.fam = .lopLoV20) → u.reg y m = s.reg y m

namespace LoopRegs

variable {s u : State} {m : Nat}

theorem mapped (h : LoopRegs s u m) : u.mapped m = s.mapped m := by
  rw [State.mapped, State.mapped, State.flag, State.flag, h F.lopLoCtlEn (by decide), h F.lopLoCtlMode (by decide)]

theorem v4 (h : LoopRegs s u m) : u.v4 m = s.v4 m := congrArg (signed 24) (h F.lopLoV4 (by decide))

theorem v20 (h : LoopRegs s u m) : u.v20 m = s.v20 m := congrArg (signed 24) (h F.lopLoV20 (by decide))

theorem cause (h : LoopRegs s u m) (hl : u.loop m = s.loop m) : u.loopCause m = s.loopCause m := by
  rw [State.loopCause, State.loopCause, hl, h.mapped, h.v20, h.v4]

theorem ua (h : LoopRegs s u m) (hl : u.loop m = s.loop m) : u.loopUa m = s.loopUa m := by
  rw [State.loopUa, State.loopUa, h.cause hl, hl, State.flag, State.flag, State.flag, State.flag, h.v20, h.v4,
    h F.lopLoCtlEn (by decide), h F.lopLoCtlMode (by decide), h F.lopLoCtlFaultDir (by decide), h F.lopLoFixedUa (by decide)]

theorem loopIn (h : LoopRegs s u m) (x : Loop) : u.loopIn m x = s.loopIn m x := by
  have hset : LoopRegs (s.setLoop m x) (u.setLoop m x) m := h
  have hl : (u.setLoop m x).loop m = (s.setLoop m x).loop m := by
    rw [State.loop_setLoop, State.loop_setLoop, if_pos rfl, if_pos rfl]
  rw [State.loopIn, State.loopIn, hset.cause hl, hset.ua hl]

theorem loopIn_cause (h : LoopRegs s u m) {x : Loop} (hl : u.loop m = s.loopIn m x) : u.loopCause m = (s.setLoop m x).loopCause m := by
  have hx : (s.setLoop m x).loop m = x := (State.loop_setLoop _ _ _ _).trans (if_pos rfl)
  rw [State.loopCause, State.loopCause, hl, hx, h.mapped, h.v20, h.v4]
  rfl

end LoopRegs

theorem LoopsRun.ctl {s u : State} (h : LoopsRun s u) (m : Nat) (hm : m < 4) : LoopRegs s u m := by
  intro y hy
  refine h.reg y m 0 ?_
  rcases hy with hy | hy | hy | hy <;> simp [OffFaults, hy, famAddr, famInfo] <;> omega

theorem LoopsRun.step {s u : State} (h : LoopsRun s u) (n : Nat) (x : Loop) : LoopsRun s ((u.setLoop n x).loopEval n) := by
  exact ⟨fun y i j hy => (State.loopEval_reg _ _ _ _ _ hy).trans (h.reg y i j hy), (show _ = u.now by simp).trans h.now,
    (show _ = u.cnv by simp).trans h.cnv, (State.loopEval_coms _ _).trans h.coms⟩

/-- The loops that are given something new, one after another. -/
theorem loops_fold (s : State) (p : Nat → Bool) (f : Nat → Loop) (body : State → Nat → State)
    (hbody : ∀ u n, n < 4 → LoopsRun s u → u.loop n = s.loop n → body u n = if p n then (u.setLoop n (f n)).loopEval n else u) {u : State}
    (hu : u = (List.range 4).foldl body s) :
    (∀ m, m < 4 → u.loop m = if p m then s.loopIn m (f m) else s.loop m) ∧ LoopsRun s u ∧ PostsUpTo 4 s u := by
  have key : ∀ N ≤ 4, ∀ u : State, u = (List.range N).foldl body s →
      (∀ m, u.loop m = if m < N ∧ p m then s.loopIn m (f m) else s.loop m) ∧ LoopsRun s u ∧ PostsUpTo N s u := by
    intro N
    induction N with
    | zero =>
      rintro - u rfl
      exact ⟨fun m => by simp, ⟨fun _ _ _ _ => rfl, rfl, rfl, rfl⟩, .of_sess rfl⟩
    | succ N ih =>
      intro hN u hu
      rw [List.range_succ, List.foldl_append] at hu
      obtain ⟨hloop, hrun, hposts⟩ := ih (by omega) _ rfl
      generalize (List.range N).foldl body s = v at hu hloop hrun hposts
      have hN' : v.loop N = s.loop N := by rw [hloop, if_neg (by omega)]
      have hif : u = if p N then (v.setLoop N (f N)).loopEval N else v := hu.trans (hbody v N (by omega) hrun hN')
      subst hif
      by_cases hp : p N = true
      · rw [if_pos hp]
        refine ⟨fun m => ?_, hrun.step N _, hposts.trans (.after (u := v.setLoop N (f N)) rfl (State.loopEval_posts _ _))⟩
        by_cases hm : m = N
        · subst hm
          rw [State.loopEval_setLoop, if_pos ⟨Nat.lt_succ_self _, hp⟩, (hrun.ctl m (by omega)).loopIn]
        · rw [State.loopEval_other _ _ _ hm, State.loop_setLoop, if_neg hm, hloop]
          congr 1
          exact propext (and_congr_left fun _ => by omega)
      · rw [if_neg hp]
        refine ⟨fun m => ?_, hrun, hposts.mono (Nat.le_succ _)⟩
        rw [hloop]
        congr 1
        refine propext (and_congr_left fun hpm => ?_)
        have : m ≠ N := fun h => hp (h ▸ hpm)
        omega
  obtain ⟨hloop, hrest⟩ := key 4 le_rfl u hu
  exact ⟨fun m hm => by rw [hloop]; simp [hm], hrest⟩

theorem LoopsRun.entryExc {s u : State} (h : LoopsRun s u) (n : Nat) : u.entryExc (s.reg F.lopLoCtlSrc n) = s.entryExc (s.reg F.lopLoCtlSrc n) := by
  have hsrc : s.reg F.lopLoCtlSrc n < 32 := State.reg_lt s F.lopLoCtlSrc n 0
  exact h.reg _ _ _ (by simp [OffFaults, famAddr, famInfo, F.cnvEntCfgExc]; omega)

/-- The loops that follow an excitation's entries fault when it breaks. -/
theorem State.loopsBreak_does (s : State) (x : Nat) : (∀ m, m < 4 → s.mapped m = true → s.entryExc (s.reg F.lopLoCtlSrc m) = x →
      ((s.loopsBreak x).loop m).fault = true ∧ ((s.loopsBreak x).loop m).cause = 1) ∧
    (∀ (y : FRef) (i j : Nat), OffFaults y i j → (s.loopsBreak x).reg y i j = s.reg y i j) ∧ PostsUpTo 4 s (s.loopsBreak x) := by
  obtain ⟨hloop, hrun, hposts⟩ := loops_fold s (fun n => s.mapped n && decide (s.entryExc (s.reg F.lopLoCtlSrc n) = x))
    (fun n => { s.loop n with opened := true }) (u := s.loopsBreak x)
    (fun u n => if u.mapped n && decide (u.entryExc (u.reg F.lopLoCtlSrc n) = x) then (u.setLoop n { u.loop n with opened := true }).loopEval n
      else u) (fun u n hn hrun hl => by
        dsimp only
        rw [(hrun.ctl n hn).mapped, hrun.ctl n hn F.lopLoCtlSrc (by decide), hrun.entryExc, hl]) rfl
  refine ⟨fun m hm hmapped hexc => ?_, hrun.reg, hposts⟩
  have hcause : (s.setLoop m { s.loop m with opened := true }).loopCause m = 1 := by
    have hm' : (s.setLoop m { s.loop m with opened := true }).mapped m = true := hmapped
    rw [State.loopCause, State.loop_setLoop, if_pos rfl, hm']
    rfl
  rw [hloop m hm, if_pos (by rw [hmapped, hexc]; simp), State.loopIn, hcause]
  exact ⟨rfl, rfl⟩

/-- The samples of a break carry OPEN: the sequencer and the channels alone change. -/
theorem State.markOpen_does (s : State) (n a : Nat) : (s.markOpen n a).cnv.excs = s.cnv.excs ∧ Only [.chans, .cnv] s (s.markOpen n a) := by
  unfold State.markOpen
  extract_lets c t
  have ht : t.cnv.excs = s.cnv.excs ∧ Only [.cnv] s t := by
    unfold t
    split
    · exact ⟨rfl, by simp [only_iff]⟩
    · exact ⟨rfl, only_refl _ _⟩
  exact ⟨ht.1, only_mono (ht.2.trans (parts' := [.chans]) (by simp [only_iff])) (by simp)⟩

theorem State.excEntries_congr {s u : State} (n : Nat) (hlen : u.reg F.cnvSeqCtlLen = s.reg F.cnvSeqCtlLen)
    (h : ∀ e, e < 32 → u.entryExc e = s.entryExc e) : u.excEntries n = s.excEntries n := by
  unfold State.excEntries
  rw [hlen]
  refine List.foldl_ext _ _ _ fun a e he => ?_
  rw [h e (by rw [List.mem_range] at he; omega)]

/-- A wire break: the excitation is broken, its loops fault, and WIRE_BREAK tells it. -/
theorem State.wireBreak_does (s : State) (n side cur : Nat) (hn : n < 4) {u : State} (hu : u = s.wireBreak n side cur) :
    (u.exc n).broken = true ∧ (u.exc n).lastBreak = s.now ∧ u.flag F.senExStatSeen n = true ∧
    u.reg F.senCntBreak = min (s.reg F.senCntBreak + 1) 0xFFFFFFFF ∧
    (∀ m, m < 4 → s.mapped m = true → s.entryExc (s.reg F.lopLoCtlSrc m) = n → (u.loop m).fault = true ∧ (u.loop m).cause = 1) ∧
    Reported s u 4 s.now 0x701 0x60 n (be 1 1 ++ be 1 side ++ be 2 cur ++ be 4 (s.excEntries n)) ∧
    (∀ k, k ≠ n → u.exc k = s.exc k) ∧ Only [.chans, .cnv, .eth, .loops, .regs, .stw] s u := by
  unfold State.wireBreak at hu
  extract_lets x a s₁ s₂ s₃ at hu
  have hexc (k : Nat) : s₁.exc k = if k = n then ⟨true, s.now, if x.broken then x.opens else (a, none) :: x.opens.take 3⟩ else s.exc k :=
    s.exc_setExc n _ k
  have hnow : s₃.now = s.now := by
    unfold s₃ State.markOpen
    split
    · rfl
    · dsimp only
      split <;> rfl
  have honly₁ : Only [.cnv] s s₁ := by simp [only_iff, s₁]
  clear_value s₁
  have honly₂ : Only [.regs] s₁ s₂ := by simp [only_iff, s₂]
  have hregs₁ (y : FRef) (i j : Nat) : s₁.reg y i j = s.reg y i j := reg_of_regs (honly₁ .regs (by simp)) _ _ _
  have hseen : s₂.reg F.senExStatSeen n = 1 := by
    refine (State.reg_bump_ne (s₁.setReg F.senExStatSeen n 0 1) F.senCntBreak F.senExStatSeen 0 n 0 ?_).trans
      (State.reg_setReg_self s₁ F.senExStatSeen n 0 1 (by decide) (by decide))
    simp [famAddr, famInfo, F.senExStatSeen, F.senCntBreak]
    omega
  have hcnt : s₂.reg F.senCntBreak = min (s.reg F.senCntBreak + 1) 0xFFFFFFFF := by
    refine (State.reg_bump _ _ _ (by decide) (by decide)).trans ?_
    rw [State.reg_setReg_ne s₁ F.senExStatSeen F.senCntBreak n 0 0 0 1, hregs₁]
    · rfl
    · simp [famAddr, famInfo, F.senExStatSeen, F.senCntBreak]
      omega
  have hrest (y : FRef) (i j : Nat) (hy : famAddr y.fam i j ≠ famAddr .senExStat n 0) (hy' : famAddr y.fam i j ≠ famAddr .senCntBreak 0 0) :
      s₂.reg y i j = s.reg y i j :=
    (State.reg_bump_ne _ F.senCntBreak y 0 i j hy').trans ((State.reg_setReg_ne s₁ F.senExStatSeen y n 0 i j 1 hy).trans (hregs₁ y i j))
  clear_value s₂
  have h₃ : s₃.cnv.excs = s₂.cnv.excs ∧ Only [.chans, .cnv] s₂ s₃ := by
    unfold s₃
    split
    · exact ⟨rfl, only_refl _ _⟩
    · exact s₂.markOpen_does n a
  clear_value s₃
  obtain ⟨hexcs, honly₃⟩ := h₃
  have honly : Only [.chans, .cnv, .regs] s s₃ := only_mono (honly₁.trans (honly₂.trans honly₃)) (by simp)
  have hregs₃ (y : FRef) (i j : Nat) : s₃.reg y i j = s₂.reg y i j := reg_of_regs (honly₃ .regs (by simp)) _ _ _
  obtain ⟨hloops, hregs, hposts⟩ := s₃.loopsBreak_does n
  have hnow₄ : (s₃.loopsBreak n).now = s.now := (show _ = s₃.now by simp).trans hnow
  have honly₄ : Only [.eth, .loops, .regs, .stw] s₃ (s₃.loopsBreak n) := by simp [only_iff]
  have hkept (y : FRef) (i j : Nat) (hoff : OffFaults y i j) (hy : famAddr y.fam i j ≠ famAddr .senExStat n 0)
      (hy' : famAddr y.fam i j ≠ famAddr .senCntBreak 0 0) : (s₃.loopsBreak n).reg y i j = s.reg y i j :=
    (hregs y i j hoff).trans ((hregs₃ y i j).trans (hrest y i j hy hy'))
  generalize s₃.loopsBreak n = v at hu hloops hregs hposts hnow₄ honly₄ hkept
  have honly₅ : Only [.eth, .stw] v u := by
    rw [hu, State.wireEvent]
    simp [only_iff]
  have hregs₅ (y : FRef) (i j : Nat) : u.reg y i j = v.reg y i j := reg_of_regs (honly₅ .regs (by simp)) _ _ _
  have hctl (m : Nat) (y : FRef) (hy : y.fam = .lopLoCtl) : s₃.reg y m = s.reg y m :=
    (hregs₃ y m 0).trans (hrest y m 0 (by simp [hy, famAddr, famInfo]; omega) (by simp [hy, famAddr, famInfo]; omega))
  have hexc₅ (k : Nat) : u.exc k = s₁.exc k := by
    rw [State.exc, State.exc, honly₅ .cnv (by simp), honly₄ .cnv (by simp), hexcs, honly₂ .cnv (by simp)]
  have hentries : v.excEntries n = s.excEntries n := by
    refine State.excEntries_congr n (hkept _ _ _ ?_ ?_ ?_) fun e he => hkept _ _ _ ?_ ?_ ?_
    all_goals simp [OffFaults, famAddr, famInfo, F.cnvSeqCtlLen, F.cnvEntCfgExc]
    all_goals omega
  have hraised : Raised v u s.now 0x701 0x60 n (be 1 1 ++ be 1 side ++ be 2 cur ++ be 4 (s.excEntries n)) := by
    have := v.raiseAt_raised v.now 0x701 0x60 n (be 1 1 ++ be 1 side ++ be 2 cur ++ be 4 (s.excEntries n)) []
    rw [hu, State.wireEvent, hentries, State.raise, ← hnow₄]
    rwa [List.append_nil] at this
  have hself : u.exc n = ⟨true, s.now, if x.broken then x.opens else (a, none) :: x.opens.take 3⟩ := by
    rw [hexc₅, hexc, if_pos rfl]
  refine ⟨by rw [hself], by rw [hself], ?_, ?_, fun m hm hmapped hexc' => ?_, ?_, fun k hk => by rw [hexc₅, hexc, if_neg hk],
    only_mono (honly.trans (honly₄.trans honly₅)) (by simp)⟩
  · rw [State.flag, hregs₅, hregs _ _ _ ?_, hregs₃, hseen]
    · rfl
    · simp [OffFaults, famAddr, famInfo, F.senExStatSeen]
      omega
  · rw [hregs₅, hregs _ _ _ ?_, hregs₃, hcnt]
    simp [OffFaults, famAddr, famInfo, F.senCntBreak]
  · have hl : u.loops = v.loops := honly₅ .loops (by simp)
    rw [State.loop, hl, ← State.loop]
    refine hloops m hm ?_ ?_
    · rw [← hmapped, State.mapped, State.mapped, State.flag, State.flag, hctl m F.lopLoCtlEn rfl, hctl m F.lopLoCtlMode rfl]
    · have hsrc : s.reg F.lopLoCtlSrc m < 32 := State.reg_lt s F.lopLoCtlSrc m 0
      rw [hctl m F.lopLoCtlSrc rfl, State.entryExc, hregs₃, hrest, ← State.entryExc, hexc']
      all_goals simp [famAddr, famInfo, F.cnvEntCfgExc]
      all_goals omega
  · have hsv : Only [.chans, .cnv, .eth, .loops, .regs, .stw] s v := only_mono (honly.trans honly₄) (by simp)
    refine (PostsUpTo.after (show s₃.stw.sess = s.stw.sess from congrArg (·.sess) (honly .stw (by simp))) hposts).reported ?_
      (congrArg (·.epoch) (hsv .lin (by simp))) hraised
    rw [State.fwRuns, State.fwRuns, State.pairActive, State.pairActive, show v.pow = s.pow from hsv .pow (by simp),
      show v.fau = s.fau from hsv .fau (by simp)]

theorem State.trigger_waiting (s : State) (f : Nat) (hstate : s.cnv.state = 1) (hwait : s.refWait = false) :
    s.trigger f = s.setCnv { s.cnv with state := 2, due := f + s.reg F.cnvTrigDlyDelay * 100 } := by
  rw [State.trigger, if_neg (by rw [hwait, hstate]; decide), if_neg (by rw [hstate]; decide)]

theorem State.trigger_off (s : State) (f : Nat) (hstate : s.cnv.state = 0) (hwait : s.refWait = false) : s.trigger f = s := by
  rw [State.trigger, if_neg (by rw [hwait, hstate]; decide), if_pos hstate]

/-- A dwell ends within its sequence: its sample joins its channel, and the next entry's visit starts. -/
theorem State.dwellDone_goesOn (s : State) (hmore : s.cnv.entry + 1 < s.reg F.cnvSeqCtlLen) {u : State} (hu : u = s.dwellDone) :
    (u.cnv.state = 3 ∧ u.cnv.entry = s.cnv.entry + 1 ∧ u.cnv.visit = s.dwellEnd s.cnv.entry s.cnv.visit ∧ u.cnv.raws = [] ∧ u.cnv.peak = 0) ∧
      u.cnv.seqs = s.cnv.seqs ∧ (u.chan s.cnv.entry).seen = true ∧ (∀ e, e ≠ s.cnv.entry → u.chan e = s.chan e) ∧
      Only [.chans, .cnv, .regs] s u ∧
      ∃ w ∈ (u.chan s.cnv.entry).visits, w.inst = s.dwellAt s.cnv.entry s.cnv.visit + 16 * us * s.chops s.cnv.entry ∧
        w.fin = s.dwellEnd s.cnv.entry s.cnv.visit ∧ w.opened = s.cnv.raws.any (·.opened) ∧ w.beyond = s.cnv.raws.any (·.beyond) := by
  unfold State.dwellDone at hu
  extract_lets c fin v s₁ s₂ at hu
  have hvisited := s₁.visitIn_does c.entry v
  rw [show s₁.visitIn c.entry v = s₂ from rfl] at hvisited
  obtain ⟨hseen, hvisit, hothers, hcnv, hreg⟩ := hvisited
  have honly : Only [.chans, .cnv, .regs] s s₂ := only_mono ((show Only [.cnv] s s₁ by simp [only_iff, s₁]).trans
    (parts' := [.chans, .regs]) (by simp [only_iff, s₂])) (by simp)
  have hlen : s₂.reg F.cnvSeqCtlLen = s.reg F.cnvSeqCtlLen := hreg _ _ _ (offResults_low _ _ _ (by decide))
  have hseqs : s₂.cnv.seqs = s.cnv.seqs := (congrArg Cnv.seqs hcnv).trans rfl
  have hch (k : Nat) : s₁.chan k = s.chan k := rfl
  rw [if_pos (show c.entry + 1 < s₂.reg F.cnvSeqCtlLen from hlen ▸ hmore)] at hu
  change (s₂.chan s.cnv.entry).seen = true at hseen
  clear_value s₂
  subst hu
  exact ⟨⟨rfl, rfl, rfl, rfl, rfl⟩, hseqs, hseen, fun e he => (hothers e he).trans (hch e),
    only_mono (honly.trans (parts' := [.cnv]) (by simp [only_iff])) (by simp), v, hvisit, rfl, rfl, rfl, rfl⟩

theorem State.dwellDone_ends (s : State) (hlast : s.reg F.cnvSeqCtlLen ≤ s.cnv.entry + 1) {u : State} (hu : u = s.dwellDone) :
    u.cnv.seqs = (s.cnv.seqs + 1) % 65536 ∧
      (u.flag F.cnvSeqCtlCont = true → u.cnv.state = 3 ∧ u.cnv.entry = 0 ∧ u.cnv.visit = s.dwellEnd s.cnv.entry s.cnv.visit ∧ u.cnv.raws = [] ∧
        u.cnv.peak = 0) ∧
      (u.flag F.cnvSeqCtlCont = false → u.cnv.state = 1 ∧ u.cnv.raws = []) ∧ Only [.chans, .cnv, .lin, .regs] s u := by
  unfold State.dwellDone at hu
  extract_lets c fin v s₁ s₂ at hu
  have hvisited := s₁.visitIn_does c.entry v
  rw [show s₁.visitIn c.entry v = s₂ from rfl] at hvisited
  obtain ⟨-, -, -, hcnv, hreg⟩ := hvisited
  have honly : Only [.chans, .cnv, .regs] s s₂ := only_mono ((show Only [.cnv] s s₁ by simp [only_iff, s₁]).trans
    (parts' := [.chans, .regs]) (by simp [only_iff, s₂])) (by simp)
  have hlen : s₂.reg F.cnvSeqCtlLen = s.reg F.cnvSeqCtlLen := hreg _ _ _ (offResults_low _ _ _ (by decide))
  have hseqs : s₂.cnv.seqs = s.cnv.seqs := (congrArg Cnv.seqs hcnv).trans rfl
  rw [if_neg (show ¬c.entry + 1 < s₂.reg F.cnvSeqCtlLen from hlen ▸ Nat.not_lt.2 hlast)] at hu
  clear_value s₂
  obtain ⟨hcount, hcont, hsingle⟩ := s₂.sequenceEnd_does fin
  subst hu
  exact ⟨hseqs ▸ hcount, hcont, hsingle, only_mono (honly.trans (parts' := [.chans, .cnv, .lin, .regs]) (by simp [only_iff])) (by simp)⟩

theorem State.wireRestore_does (s : State) (n cur : Nat) (x : Exc) (hx : x.broken = false) {u : State}
    (hu : u = (s.setExc n x).wireEvent n 0 0 cur) : (u.exc n).broken = false ∧ (∀ k, k ≠ n → u.exc k = s.exc k) ∧
      Raised s u s.now 0x701 0x60 n (be 1 0 ++ be 1 0 ++ be 2 cur ++ be 4 (s.excEntries n)) ∧ Only [.cnv, .eth, .stw] s u := by
  have hcnv : u.cnv = (s.setExc n x).cnv := by
    rw [hu, State.wireEvent]
    simp
  have hexc (k : Nat) : u.exc k = if k = n then x else s.exc k := by
    rw [State.exc, hcnv, ← State.exc, State.exc_setExc]
  refine ⟨by rw [hexc, if_pos rfl, hx], fun k hk => by rw [hexc, if_neg hk], ?_, ?_⟩
  · have := (s.setExc n x).raiseAt_raised s.now 0x701 0x60 n (be 1 0 ++ be 1 0 ++ be 2 cur ++ be 4 (s.excEntries n)) []
    rw [List.append_nil] at this
    rw [hu]
    exact raised_congr this rfl rfl rfl (.of_sess rfl)
  · rw [hu, State.wireEvent]
    simp [only_iff]

/-- Settles O56. -/
theorem sequencesAndWireBreaksRun : Obligations.SequencesAndWireBreaksRun := by
  unfold Obligations.SequencesAndWireBreaksRun
  refine ⟨fun t s hon => ?_, fun t n cur curs s hon hn => ?_⟩
  · intro now x quiet en cont starts
    have hquiet (u : State) (h : u = s.tick t) : Only [] s u := h ▸ s.tick_only t
    refine ⟨fun href hen => does_whenOn hon ?_, fun h => does_whenOn hon (hquiet _ (if_neg ?_)), fun href hready hat => does_whenOn hon ?_,
      fun h => does_whenOn hon (hquiet _ (if_neg ?_)), fun hen => does_whenOn hon ?_, fun hen => does_whenOn hon (hquiet _ ?_),
      fun hen => does_whenOn hon ?_, fun hen => does_whenOn hon (hquiet _ (if_neg ?_)), fun hen => does_whenOn hon ?_,
      fun hen => does_whenOn hon (hquiet _ (if_neg ?_)), fun hx hwait => ⟨does_whenOn hon ?_, fun f hcont hf => does_whenOn hon ?_⟩,
      fun hx hwait => does_whenOn hon (hquiet _ ?_), fun hcont hf => does_whenOn hon (hquiet _ ?_), fun hcont => does_whenOn hon ?_,
      fun hx hdue => does_whenOn hon ?_, fun h => does_whenOn hon (hquiet _ (if_neg ?_)),
      fun codes hx hlen hcodes hrange hat => ⟨fun hfull => does_whenOn hon ?_, fun hfull hauto => does_whenOn hon ?_⟩,
      fun codes h => does_whenOn hon (hquiet _ (if_neg ?_)),
      fun hx hlen hat => ⟨fun hmore => does_whenOn hon ?_, fun hlast => does_whenOn hon ?_⟩,
      fun h => does_whenOn hon (hquiet _ (if_neg ?_))⟩
    · rw [if_pos ⟨href, hen⟩]
      refine ⟨?_, ?_, ?_⟩
      · rw [State.flag, reg_of_regs (show _ = (s.tick t).refEnable.regs by simp)]
        exact decide_eq_true (State.reg_setReg_self (s.tick t) F.senRefEn 0 0 1 (by decide) (by decide))
      · exact (show _ = (s.tick t).refEnable.cnv by simp).trans rfl
      · simp [only_iff, State.refEnable]
    · rintro ⟨href, hen⟩
      exact h.elim (fun h => absurd (h.symm.trans href) (by simp)) fun h => absurd (h.symm.trans hen) (by simp)
    · rw [if_pos ⟨href, hready, hat⟩]
      dsimp only
      by_cases h : x.state = 1 ∧ cont = true
      · rw [if_pos h, if_pos (show ((s.tick t).setCnv { (s.tick t).cnv with ready := true }).cnv.state = 1 ∧
          ((s.tick t).setCnv { (s.tick t).cnv with ready := true }).flag F.cnvSeqCtlCont = true from h)]
        exact ⟨rfl, ⟨rfl, rfl, rfl, rfl, rfl⟩, by simp [only_iff]⟩
      · rw [if_neg h, if_neg (show ¬(((s.tick t).setCnv { (s.tick t).cnv with ready := true }).cnv.state = 1 ∧
          ((s.tick t).setCnv { (s.tick t).cnv with ready := true }).flag F.cnvSeqCtlCont = true) from h)]
        exact ⟨rfl, rfl, by simp [only_iff]⟩
    · rintro ⟨href, hready, hat⟩
      rcases h with h | h | h
      · exact absurd (href.symm.trans h) (by simp)
      · exact absurd (hready.symm.trans h) (by simp)
      · exact absurd hat (Nat.not_le.2 h)
    · rw [if_neg (by rw [show (s.tick t).flag F.cnvCtlEn = false from hen]; simp)]
      obtain ⟨hflag, hcal, hat, hgains, hgo, hchans⟩ := (s.tick t).cnvEnable_does
      have hcnv : ((s.tick t).cnvEnable.kept (s.tick t) .cnvCtl 0).cnv = (s.tick t).cnvEnable.cnv := by simp
      have hregs : ((s.tick t).cnvEnable.kept (s.tick t) .cnvCtl 0).regs = (s.tick t).cnvEnable.regs := by simp
      have hch : ((s.tick t).cnvEnable.kept (s.tick t) .cnvCtl 0).chans = (s.tick t).cnvEnable.chans := by simp
      simp only [starts, State.flag, reg_of_regs hregs, hcnv, State.chan, hch]
      exact ⟨hflag, hcal, hat, hgains, hgo, hchans, by simp [only_iff]⟩
    · exact if_pos hen
    · rw [if_pos (show (s.tick t).flag F.cnvCtlEn = true from hen)]
      obtain ⟨hflag, hstate, hraws⟩ := (s.tick t).cnvDisable_does
      have hcnv : ((s.tick t).cnvDisable.kept (s.tick t) .cnvCtl 0).cnv = (s.tick t).cnvDisable.cnv := by simp
      have hregs : ((s.tick t).cnvDisable.kept (s.tick t) .cnvCtl 0).regs = (s.tick t).cnvDisable.regs := by simp
      simp only [State.flag, reg_of_regs hregs, hcnv]
      exact ⟨hflag, hstate, hraws, by simp [only_iff]⟩
    · exact fun h => absurd (h.symm.trans hen) (by simp)
    · rw [if_pos (show (s.tick t).flag F.cnvCtlEn = true from hen)]
      exact ⟨rfl, by simp [only_iff]⟩
    · exact fun h => absurd (h.symm.trans hen) (by simp)
    · rw [(s.tick t).trigger_waiting _ hx hwait]
      exact ⟨by simp [only_iff], rfl⟩
    · rw [if_neg (by simp [show (s.tick t).flag F.cnvSeqCtlCont = false from hcont]), show (s.tick t).firing = some f from hf]
      dsimp only
      generalize hv : (s.tick t).setCnv _ = v
      rw [v.trigger_waiting f (by rw [← hv]; exact hx) (by rw [← hv]; exact hwait), ← hv]
      exact ⟨by simp [only_iff], rfl⟩
    · exact (s.tick t).trigger_off _ hx hwait
    · rw [if_neg (by simp [show (s.tick t).flag F.cnvSeqCtlCont = false from hcont]), show (s.tick t).firing = none from hf]
    · rw [if_pos (show (s.tick t).flag F.cnvSeqCtlCont = true from hcont)]
      exact ⟨rfl, State.forgetTriggers_firing _, by simp [only_iff]⟩
    · rw [if_pos ⟨hx, hdue⟩]
      exact ⟨⟨rfl, rfl, rfl, rfl, rfl⟩, rfl, by simp [only_iff]⟩
    · rintro ⟨hx, hdue⟩
      exact h.elim (fun h => h hx) fun h => absurd hdue (Nat.not_le.2 h)
    · dsimp only
      rw [if_pos ⟨hx, hlen, hcodes, by simpa using hrange, hat⟩]
      have hany : codes.any nearFull = false := by simpa using hfull
      obtain ⟨hgain, ⟨r, hraws, hbeyond, hvalue, hcentre, hfin⟩, -, honly⟩ := (s.tick t).rawSample_does codes (.inr hfull)
      rw [hany] at honly
      refine ⟨(s.tick_only t).trans honly, hgain, r, hraws, hbeyond.trans hany, hcentre, ?_, fun h => ?_⟩
      · exact hfin.trans ((Nat.add_assoc _ (16 * us) (16 * us)).symm.trans (congrArg (· + 16 * us) hcentre.symm))
      · rw [hvalue]
        exact State.rawValue_exact _ _ _ _ (by rw [hcodes]; rfl) (by rw [hcodes]; decide) h
    · dsimp only
      rw [if_pos ⟨hx, hlen, hcodes, by simpa using hrange, hat⟩]
      have hany : codes.any nearFull = true := by simpa using hfull
      obtain ⟨hgain, ⟨r, hraws, hbeyond, -, -, -⟩, hcnt, honly⟩ := (s.tick t).rawSample_does codes (.inl hauto)
      rw [hany] at honly hcnt
      exact ⟨hcnt, hgain, ⟨r, hraws, hbeyond.trans hany⟩, (s.tick_only t).trans honly⟩
    · rintro ⟨hx, hlen, -, -, hat⟩
      rcases h with h | h | h
      · exact h hx
      · exact absurd hlen (Nat.not_lt.2 h)
      · exact absurd hat (Nat.not_le.2 h)
    · rw [if_pos ⟨hx, hlen, hat⟩]
      exact (s.tick t).dwellDone_goesOn hmore rfl
    · rw [if_pos ⟨hx, hlen, hat⟩]
      exact (s.tick t).dwellDone_ends hlast rfl
    · rintro ⟨hx, hlen, hat⟩
      rcases h with h | h | h
      · exact h hx
      · exact h hlen
      · exact absurd hat (Nat.not_le.2 h)
  · intro now last
    refine ⟨fun hen hlen hcurs => does_whenOn hon ?_, fun h => does_whenOn hon ?_, fun hen hbroken hside hat => does_whenOn hon ?_,
      fun h => does_whenOn hon ?_⟩
    · have hb : (s.tick t).breaks n curs = true := by
        have hdrive : (s.tick t).excDrive n ≠ 0 := by
          rw [State.excDrive, if_pos (by rw [show (s.tick t).pow.on = true from hon, show (s.tick t).flag F.senExCfgEn n = true from hen]; rfl), clamp]
          omega
        simp only [State.breaks, hdrive, hlen, ne_eq, not_false_eq_true, decide_true, Bool.and_self, Bool.true_and, List.all_eq_true,
          Bool.and_eq_true, decide_eq_true_eq]
        exact hcurs
      dsimp only
      rw [if_pos ⟨hn, hb⟩]
      obtain ⟨hbroken, hlast, hseen, hcnt, hloops, hrep, hothers, honly⟩ := (s.tick t).wireBreak_does n ((s.tick t).side n last) last hn rfl
      exact ⟨hbroken, hlast, hseen, hcnt, hloops, fun hf hasc => hrep hf hasc, hothers, (s.tick_only t).trans honly⟩
    · dsimp only
      rw [if_neg]
      · exact s.tick_only t
      rintro ⟨-, hb⟩
      simp only [State.breaks, Bool.and_eq_true, List.all_eq_true, decide_eq_true_eq] at hb
      obtain ⟨⟨hdrive, hlen⟩, hall⟩ := hb
      rcases h with h | h | ⟨c, hc, h⟩
      · refine hdrive (if_neg ?_)
        rw [show (s.tick t).flag F.senExCfgEn n = false from h]
        simp
      · exact h hlen
      · obtain ⟨hle, hside⟩ := hall c hc
        exact h.elim (fun h => absurd hle (by omega)) hside
    · dsimp only
      rw [if_pos ⟨hn, hen, hbroken, hside, hat⟩]
      exact (s.tick t).wireRestore_does n cur.cur _ rfl rfl
    · dsimp only
      rw [if_neg]
      · exact s.tick_only t
      rintro ⟨-, hen, hbroken, hside, hat⟩
      rcases h with h | h | h | h
      · exact absurd (hen.symm.trans h) (by simp)
      · exact absurd (hbroken.symm.trans h) (by simp)
      · exact h hside
      · exact absurd hat (Nat.not_le.2 h)

/-! ## Filter outputs, the stream and the loops (16 R377 to R387; 17 R397 to R404) -/

/-- What becomes of a channel whose settings an output's boundary applies. -/
theorem State.chanBoundary_does (s : State) (e : Nat) {u : State} (hu : u = s.chanBoundary e) :
    (∀ j, j ≠ e → u.chan j = s.chan j) ∧ ((u.chan e).lastG = (s.chan e).lastG ∧ (u.chan e).ns = (s.chan e).ns ∧
      (u.chan e).epoch = (s.chan e).epoch ∧ (u.chan e).dcb = (s.chan e).dcb) ∧
    (∀ (x : FRef) (i j : Nat), famAddr x.fam i j ≠ famAddr .cnvRes e 0 → famAddr x.fam i j ≠ famAddr .fltCntRestart 0 0 →
      famAddr x.fam i j ≠ famAddr .fltChCfg e 0 → famAddr x.fam i j ≠ famAddr .fltChRate e 0 →
      famAddr x.fam i j ≠ famAddr .fltChPhase e 0 → u.reg x i j = s.reg x i j) ∧
    ((s.regs.com .fltCommit 0).pend = false → u = s) := by
  unfold State.chanBoundary at hu
  extract_lets c old w s₁ s₂ at hu
  have h₁ : s₁.chans = s.chans := by
    unfold s₁
    simp
  have hregs₁ (x : FRef) (i j : Nat) (hc : famAddr x.fam i j ≠ famAddr .fltChCfg e 0) (hr : famAddr x.fam i j ≠ famAddr .fltChRate e 0)
      (hp : famAddr x.fam i j ≠ famAddr .fltChPhase e 0) : s₁.reg x i j = s.reg x i j := by
    refine List.foldlRecOn (motive := fun u : State => u.reg x i j = s.reg x i j) _ _ rfl fun u hu a ha => ?_
    refine Eq.trans (Regs.applyReg_apart _ _ _ _ _ _ ?_) hu
    simp only [chanSnap, List.mem_filter, Bool.or_eq_true, decide_eq_true_eq] at ha
    rcases ha.2 with (h | h) | h <;> rw [h] <;> assumption
  have h₂ : (∀ j, j ≠ e → s₂.chan j = s₁.chan j) ∧ ((s₂.chan e).lastG = (s₁.chan e).lastG ∧ (s₂.chan e).ns = (s₁.chan e).ns ∧
      (s₂.chan e).epoch = (s₁.chan e).epoch ∧ (s₂.chan e).dcb = (s₁.chan e).dcb) ∧
      ∀ (x : FRef) (i j : Nat), famAddr x.fam i j ≠ famAddr .cnvRes e 0 → famAddr x.fam i j ≠ famAddr .fltCntRestart 0 0 →
        s₂.reg x i j = s₁.reg x i j := by
    unfold s₂
    split
    · exact ⟨fun _ _ => rfl, ⟨rfl, rfl, rfl, rfl⟩, fun _ _ _ _ _ => rfl⟩
    · refine ⟨fun j hj => (s₁.chan_restartChan e true j).trans (if_neg hj), ?_, fun x i j hres hcount => s₁.restartChan_reg e true x i j hres hcount⟩
      rw [s₁.chan_restartChan e true e, if_pos rfl]
      exact ⟨rfl, rfl, rfl, rfl⟩
  clear_value s₁
  clear_value s₂
  obtain ⟨hothers, hsame, hregs₂⟩ := h₂
  have hch (j : Nat) : s₁.chan j = s.chan j := by rw [State.chan, h₁, State.chan]
  by_cases hp : c.pend && c.waiting.contains e
  · rw [if_pos hp] at hu
    have huc : u.chans = s₂.chans ∧ ∀ (x : FRef) (i j : Nat), u.reg x i j = s₂.reg x i j := by
      rw [hu]
      split
      · exact ⟨rfl, fun _ _ _ => rfl⟩
      · exact ⟨rfl, fun _ _ _ => rfl⟩
    refine ⟨fun j hj => ?_, ?_, fun x i j hres hcount hc hr hp => ?_, fun h => ?_⟩
    · rw [State.chan, huc.1, ← State.chan, hothers j hj, hch]
    · rw [State.chan, huc.1, ← State.chan, ← hch]
      exact hsame
    · rw [huc.2, hregs₂ x i j hres hcount, hregs₁ x i j hc hr hp]
    · rw [show c.pend = false from h] at hp
      exact absurd hp (by simp)
  · rw [if_neg hp] at hu
    subst hu
    exact ⟨fun _ _ => rfl, ⟨rfl, rfl, rfl, rfl⟩, fun _ _ _ _ _ _ _ _ => rfl, fun _ => rfl⟩

theorem State.prune_chan (s : State) (e : Nat) : (∀ j, j ≠ e → (s.prune e).chan j = s.chan j) ∧ ((s.prune e).chan e).lastG = (s.chan e).lastG ∧
    ((s.prune e).chan e).ns = (s.chan e).ns ∧ ((s.prune e).chan e).epoch = (s.chan e).epoch ∧ ((s.prune e).chan e).dcb = (s.chan e).dcb := by
  unfold State.prune
  dsimp only
  split
  · exact ⟨fun _ _ => rfl, rfl, rfl, rfl, rfl⟩
  · refine ⟨fun j hj => (State.chan_setChan _ _ _ _).trans (if_neg hj), ?_⟩
    rw [State.chan_setChan, if_pos rfl]
    exact ⟨rfl, rfl, rfl, rfl⟩

theorem State.reg_wrapBy (s : State) (x : FRef) (i n : Nat) (hh : x.lo ≤ x.hi) (h : x.hi < 32) :
    (s.wrapBy x i n).reg x i = (s.reg x i + n) % 2 ^ (x.hi + 1 - x.lo) :=
  (State.reg_setReg_self _ _ _ _ _ hh h).trans (Nat.mod_mod _ _)

/-- The registers above block SPL are none of the spools'. -/
theorem State.spoolMoved_reg_above (s : State) (n bytes : Nat) (x : FRef) (i j : Nat) (hn : n < 384) (hx : 0x600000 ≤ famAddr x.fam i j) :
    (s.spoolMoved n bytes).reg x i j = s.reg x i j := by
  have away (f : Fam) (hf : famAddr f n 0 < 0x600000) : famAddr x.fam i j ≠ famAddr f n 0 := by omega
  unfold State.spoolMoved
  dsimp only
  rw [State.reg_wrapBy_ne _ F.splChCntBytes x n _ _ _ (away _ (by simp [F.splChCntBytes, famAddr, famInfo]; omega)),
    State.reg_wrapBy_ne _ F.splChCntDesc x n _ _ _ (away _ (by simp [F.splChCntDesc, famAddr, famInfo]; omega)),
    State.reg_setReg_ne _ F.splChCtlEn x n 0 _ _ _ (away _ (by simp [F.splChCtlEn, famAddr, famInfo]; omega))]
  exact reg_of_regs rfl _ _ _

/-- The registers above block FAU say nothing of memory. -/
theorem State.writeMem_reg (s : State) (block a : Nat) (d : List Byte) (x : FRef) (i j : Nat) (hx : 0x50000 ≤ famAddr x.fam i j) :
    (s.writeMem block a d).1.reg x i j = s.reg x i j := by
  have hlost : famAddr x.fam i j ≠ famAddr F.fauCntLoglost.fam 0 0 := by simp [famAddr, famInfo, F.fauCntLoglost] at *; omega
  have hunmasked : famAddr x.fam i j ≠ famAddr F.fauCntUnmasked.fam 0 0 := by simp [famAddr, famInfo, F.fauCntUnmasked] at *; omega
  refine foldl_keeps (fun u : State => u.reg x i j = s.reg x i j) _ (fun u c hu => ?_) _ _ rfl
  rw [State.foundRotten, reg_of_regs (State.raise_regs _ _ _ _ _), State.reg_bump_ne _ _ _ _ _ _ hunmasked, State.logFault,
    State.logFaultAt_reg _ _ _ _ _ _ _ _ _ _ _ _ _ _ _ hlost, ← hu]
  rfl

/-- The spool that the stream and the census take is one of the device's. -/
theorem State.ownSpool_lt (s : State) (k : Nat) : 96 + s.draw k 96 < 384 := by
  have : s.draw k 96 < 96 := Nat.mod_lt _ (by decide)
  omega

/-- An output of a channel that the stream leaves out writes nothing. -/
theorem State.strmPut_off (s : State) (e q g : Nat) (v x : Int) (h : s.flag F.fltStrmCtlEn = false ∨ bit (s.reg F.fltStrmMaskMask) e = false) :
    s.strmPut e q g v x = s := by
  rw [State.strmPut, if_neg]
  rcases h with h | h <;> simp [h]

/-- A streamed output: 32 octets at the stream's index, which goes on by one. -/
theorem State.strmPut_does (s : State) (e q g : Nat) (v x : Int) (hen : s.flag F.fltStrmCtlEn = true) (hmask : bit (s.reg F.fltStrmMaskMask) e = true)
    {a : Nat} (ha : a = s.strmBase + 32 * (s.reg F.fltStrmWidxWidx % s.strmLen)) {u : State} (hu : u = s.strmPut e q g v x) :
    u.mem.read a = BitVec.ofNat 8 e ∧ u.reg F.fltStrmWidxWidx = (s.reg F.fltStrmWidxWidx + 1) % 2 ^ 32 ∧
      ∀ b, b < a ∨ a + 32 ≤ b → u.mem.read b = s.mem.read b := by
  rw [State.strmPut, if_pos (by rw [hen, hmask]; rfl)] at hu
  extract_lets k body s₁ at hu
  have hlen : body.length = 32 := by simp [body, be, State.open8s]
  have hread (b : Nat) : s₁.mem.read b = if a ≤ b ∧ b < a + body.length then body.getD (b - a) 0 else s.mem.read b := by
    rw [ha]
    exact s.writeMem_read _ _ _ _
  have hidx : s₁.reg F.fltStrmWidxWidx = k := s.writeMem_reg _ _ _ _ _ _ (by decide)
  have hbody : body.getD 0 0 = BitVec.ofNat 8 e := by simp [body, be]
  rw [hlen] at hread
  clear_value s₁
  have hmem : u.mem = s₁.mem := by
    rw [hu]
    simp
  rw [hmem]
  refine ⟨?_, ?_, fun b hb => ?_⟩
  · rw [hread, if_pos (by omega), Nat.sub_self, hbody]
  · rw [hu, State.reg_wrapBy _ _ _ _ (by decide) (by decide), State.spoolMoved_reg_above _ _ _ _ _ _ (State.ownSpool_lt _ _) (by decide), hidx]
    rfl
  · rw [hread, if_neg (by omega)]

theorem State.strmPut_reg (s : State) (e q g : Nat) (v x : Int) (y : FRef) (i j : Nat) (hy : 0x600000 ≤ famAddr y.fam i j)
    (h : famAddr y.fam i j ≠ famAddr .fltStrmWidx 0 0) : (s.strmPut e q g v x).reg y i j = s.reg y i j := by
  unfold State.strmPut
  split
  · extract_lets k body s₁
    refine (State.reg_wrapBy_ne _ _ _ _ _ _ _ h).trans ?_
    rw [State.spoolMoved_reg_above _ _ _ _ _ _ ?_ hy]
    · exact s.writeMem_reg _ _ _ _ _ _ (by omega)
    · exact State.ownSpool_lt _ _
  · rfl

theorem State.strmPut_chan (s : State) (e q g : Nat) (v x : Int) : (s.strmPut e q g v x).chans = s.chans ∧ (s.strmPut e q g v x).loops = s.loops := by
  simp

theorem quality_bits (a b c d f g : Bool) : bit (quality a b c d f g) 7 = true ∧ bit (quality a b c d f g) 6 = a ∧ bit (quality a b c d f g) 5 = b ∧
    bit (quality a b c d f g) 4 = c ∧ bit (quality a b c d f g) 1 = g ∧ quality a b c d f g < 2 ^ (F.cnvResQuality.hi + 1 - F.cnvResQuality.lo) := by
  revert a b c d f g
  decide

/-- The settings taken over before an output reach neither its samples nor what settles. -/
theorem State.contributing_dcb (s : State) (e d g : Nat) : (s.setChan e { s.chan e with dcb := d }).contributing e g = s.contributing e g := by
  have hgrid : (s.setChan e { s.chan e with dcb := d }).resampleGrid e = s.resampleGrid e := by
    rw [State.resampleGrid, State.resampleGrid, State.chan_setChan, if_pos rfl]
    rfl
  rw [State.contributing, State.contributing, hgrid, State.chan_setChan, if_pos rfl]
  rfl

theorem State.rangeSettling_dcb (s : State) (e d g p : Nat) : (s.setChan e { s.chan e with dcb := d }).rangeSettling e g p = s.rangeSettling e g p := by
  rw [State.rangeSettling, State.rangeSettling, State.chan_setChan, if_pos rfl]
  rfl

theorem State.filterSettling_dcb (s : State) (e d g p : Nat) : (s.setChan e { s.chan e with dcb := d }).filterSettling e g p = s.filterSettling e g p := by
  rw [State.filterSettling, State.filterSettling, State.chan_setChan, if_pos rfl]
  rfl

theorem State.chainOut_fast (s : State) (e g : Nat) {y : Int} (hfast : s.flag F.fltChCfgFast e = true) (hdcb : (s.chan e).dcb = 0)
    (hsteady : (s.chan e).steady = some y) : (s.chainOut e g).1 = y := by
  unfold State.chainOut
  dsimp only
  rw [hfast, hsteady]
  dsimp only
  rw [if_pos hdcb]

theorem State.linearise_plain (s : State) (e : Nat) (x : Int) (hchan : s.reg F.cnvEntCfgChan e < 16) (hcurve : s.reg F.cnvEntLinCurve e = 0) :
    (s.linearise e x).1 = clampI (-8388608) 8388607 (roundEven x 256) := by
  unfold State.linearise
  dsimp only
  rw [if_neg (by omega), if_neg (by omega), if_neg (by omega), if_neg (by omega), hcurve]
  rfl

/-- The loops that follow an entry take its result. -/
theorem State.loopsOutput_does (s : State) (e : Nat) (opened range : Bool) {x : Nat → Loop} (hx : x = fun n => { s.loop n with
      opened := opened || s.excBroken (s.entryExc e), range := range, stale := false, value := some (s.resValue e), lastOut := s.now })
    (he : e < 32) {u : State} (hu : u = s.loopsOutput e opened range) :
    (∀ m, m < 4 → u.loop m = if s.mapped m && decide (s.reg F.lopLoCtlSrc m = e) then s.loopIn m (x m) else s.loop m) ∧ LoopsRun s u := by
  have hval {u : State} (hrun : LoopsRun s u) : u.resValue e = s.resValue e :=
    congrArg (signed 24) (hrun.reg F.cnvResValue e 0 (by simp [OffFaults, famAddr, famInfo, F.cnvResValue]; omega))
  have hexc {u : State} (hrun : LoopsRun s u) : u.excBroken (u.entryExc e) = s.excBroken (s.entryExc e) := by
    rw [State.excBroken, State.excBroken, hrun.cnv, State.entryExc, State.entryExc,
      hrun.reg F.cnvEntCfgExc e 0 (by simp [OffFaults, famAddr, famInfo, F.cnvEntCfgExc]; omega)]
  obtain ⟨hloop, hrun, -⟩ := loops_fold s (fun n => s.mapped n && decide (s.reg F.lopLoCtlSrc n = e)) x _ (by
    intro u n hn hrun hl
    dsimp only
    rw [(hrun.ctl n hn).mapped, hrun.ctl n hn F.lopLoCtlSrc (by decide), hl, hval hrun, hexc hrun, hrun.now, hx]) hu
  exact ⟨hloop, hrun⟩

/-- The level of a fault, and the current of a result. -/
theorem State.loopIn_ua (s : State) (m : Nat) (x : Loop) (hmap : s.mapped m = true) :
    (∀ c, (s.setLoop m x).loopCause m = c → c ≠ 0 → (s.loopIn m x).ua = if s.flag F.lopLoCtlFaultDir m = true then 21000 else 3600) ∧
      ((s.setLoop m x).loopCause m = 0 → ∀ y, x.value = some y → (s.loopIn m x).ua = mappedUa (s.v4 m) (s.v20 m) y) := by
  have hctl : s.flag F.lopLoCtlEn m = true ∧ s.reg F.lopLoCtlMode m = 0 := by simpa [State.mapped] using hmap
  have hua : (s.loopIn m x).ua = if (s.setLoop m x).loopCause m ≠ 0 then (if s.flag F.lopLoCtlFaultDir m then 21000 else 3600) else
      match x.value with
      | some v => mappedUa (s.v4 m) (s.v20 m) v
      | none => 3600 := by
    have hx : (s.setLoop m x).loop m = x := (State.loop_setLoop _ _ _ _).trans (if_pos rfl)
    change (s.setLoop m x).loopUa m = _
    rw [State.loopUa, show (s.setLoop m x).flag F.lopLoCtlEn m = true from hctl.1, show (s.setLoop m x).reg F.lopLoCtlMode m = 0 from hctl.2, hx]
    rfl
  refine ⟨fun c hc hne => ?_, fun hc y hy => ?_⟩
  · rw [hua, if_pos (hc ▸ hne)]
  · rw [hua, if_neg (by simpa using hc), hy]

/-- What an output is formed of: the linearised value, the chain's output and the quality. -/
structure Formed (s w u : State) (e g p : Nat) : Prop where
  quality : let q := u.reg F.cnvResQuality e
    bit q 7 = true ∧ bit q 6 = (s.contributing e g).any (·.opened) ∧
      bit q 5 = ((s.contributing e g).any (·.beyond) || (outX (w.chainOut e g).1).2) ∧ bit q 4 = s.rangeSettling e g p ∧
      bit q 1 = s.filterSettling e g p
  value : u.reg F.cnvResValue e = twos 24 (w.linearise e (outX (w.chainOut e g).1).1).1

/-- An output's registers, channel and loops. -/
theorem State.output_forms (s : State) (e g p : Nat) (he : e < 32) {w : State} (hw : w = s.setChan e { s.chan e with dcb := s.reg F.fltChCfgDcb e }) :
    ∃ (q : Nat) (x y : Int) (r : State), s.output e g p = ((r.strmPut e q g x y).prune e).chanBoundary e ∧ Formed s w r e g p ∧
      ((r.chan e).lastG = some g ∧ (r.chan e).ns = g ∧ (r.chan e).epoch = s.lin.epoch ∧ (r.chan e).dcb = s.reg F.fltChCfgDcb e) ∧
      (∀ j, j ≠ e → r.chan j = s.chan j) ∧
      (∀ m, m < 4 → s.mapped m = true → s.reg F.lopLoCtlSrc m = e → (r.loop m).lastOut = s.now ∧ (r.loop m).stale = false ∧
        (r.loop m).value = some (r.resValue e) ∧ (r.loopCause m = 0 → (r.loop m).ua = mappedUa (s.v4 m) (s.v20 m) (r.resValue e))) ∧
      (∀ m, m < 4 → ¬(m < 4 ∧ s.mapped m = true ∧ s.reg F.lopLoCtlSrc m = e) → r.loop m = s.loop m) ∧
      (∀ (z : FRef) (i j : Nat), famAddr z.fam i j ≠ famAddr .cnvRes e 0 → OffFaults z i j → r.reg z i j = s.reg z i j) ∧
      (∀ f, r.regs.com f 0 = s.regs.com f 0) ∧ Only [.chans, .eth, .loops, .regs, .stw] s r := by
  subst hw
  unfold State.output
  extract_lets _ s₀ c vs y xo opened beyond v fs q s₁ s₂ s₃ s₄
  obtain ⟨b7, b6, b5, b4, b1, hq⟩ := quality_bits opened beyond (s₀.rangeSettling e g p) v.2.1 v.2.2 fs
  have hquality : s₂.reg F.cnvResQuality e = q :=
    (State.reg_setReg_self _ F.cnvResQuality e 0 q (by decide) (by decide)).trans (Nat.mod_eq_of_lt hq)
  have hvalue : s₂.reg F.cnvResValue e = twos 24 v.1 := by
    refine (State.reg_setReg_apart _ F.cnvResQuality F.cnvResValue e 0 q rfl (by decide) (by decide) (by decide)).trans
      ((State.reg_setReg_self s₀ F.cnvResValue e 0 _ (by decide) (by decide)).trans (Nat.mod_eq_of_lt ?_))
    rw [twos]
    have : v.1 % (2 ^ 24 : Int) < 2 ^ 24 := Int.emod_lt_of_pos _ (by decide)
    have hpow : (2 ^ (F.cnvResValue.hi + 1 - F.cnvResValue.lo) : Nat) = 2 ^ 24 := rfl
    rw [hpow]
    omega
  have hreg₂ (z : FRef) (i j : Nat) (h : famAddr z.fam i j ≠ famAddr .cnvRes e 0) : s₂.reg z i j = s.reg z i j :=
    (State.reg_setReg_ne _ F.cnvResQuality z e 0 i j q h).trans (State.reg_setReg_ne _ F.cnvResValue z e 0 i j _ h)
  have hchan₂ (k : Nat) : s₂.chan k = if k = e then { c with
      lastG := some g, settling := fs, epoch := s.lin.epoch, ns := g, mean := y.2, good := if goodQuality q then some v.1 else c.good } else s₁.chan k :=
    State.chan_setChan _ _ _ _
  have hchan₁ (k : Nat) : s₁.chan k = s₀.chan k := rfl
  have hdcb : c.dcb = s.reg F.fltChCfgDcb e := by
    unfold c
    rw [State.chan_setChan, if_pos rfl]
  have hloops₂ (m : Nat) : s₂.loop m = s.loop m := rfl
  have honly₂ : Only [.chans, .regs] s s₂ := by simp [only_iff, s₂, s₁, s₀]
  have hnow₂ : s₂.now = s.now := rfl
  have hcoms₂ : s₂.regs.coms = s.regs.coms := rfl
  have hgain : s₀.contributing e g = s.contributing e g := s.contributing_dcb _ _ _
  have hrange : s₀.rangeSettling e g p = s.rangeSettling e g p := s.rangeSettling_dcb _ _ _ _
  have hfilter : fs = s.filterSettling e g p := s.filterSettling_dcb _ _ _ _
  have hv : v = s₀.linearise e xo.1 := rfl
  clear_value s₂
  obtain ⟨hloop, hrun⟩ := s₂.loopsOutput_does e opened (beyond || v.2.1) rfl he (u := s₃) rfl
  have honly₃ : Only [.eth, .loops, .regs, .stw] s₂ s₃ := by simp [only_iff, s₃]
  have hres : s₃.reg F.cnvResQuality e = q ∧ s₃.reg F.cnvResValue e = twos 24 v.1 := by
    rw [hrun.reg F.cnvResQuality e 0 (by simp [OffFaults, famAddr, famInfo, F.cnvResQuality]; omega),
      hrun.reg F.cnvResValue e 0 (by simp [OffFaults, famAddr, famInfo, F.cnvResValue]; omega)]
    exact ⟨hquality, hvalue⟩
  have hval : s₃.resValue e = s₂.resValue e := by
    rw [State.resValue, State.resValue, hres.2, hvalue]
  have hreg₃ (z : FRef) (i j : Nat) (h : famAddr z.fam i j ≠ famAddr .cnvRes e 0) (hoff : OffFaults z i j) : s₃.reg z i j = s.reg z i j :=
    (hrun.reg z i j hoff).trans (hreg₂ z i j h)
  have hchan₃ (k : Nat) : s₃.chan k = s₂.chan k := by rw [State.chan, honly₃ .chans (by simp), State.chan]
  have hctl (m : Nat) (hm : m < 4) : LoopRegs s s₂ m := by
    intro z hz
    refine hreg₂ z m 0 ?_
    rcases hz with hz | hz | hz | hz <;> simp [hz, famAddr, famInfo] <;> omega
  refine ⟨q, v.1, xo.1, s₃, rfl, ⟨?_, hres.2⟩, ?_, fun j hj => ?_, fun m hm hmapped hsrc => ?_, fun m hm hno => ?_, hreg₃, fun f => ?_,
    only_mono (honly₂.trans honly₃) (by simp)⟩
  · dsimp only
    rw [hres.1]
    exact ⟨b7, b6.trans (congrArg (List.any · _) hgain), b5.trans (congrArg (fun l : List Visit => l.any (·.beyond) || xo.2) hgain), b4.trans hrange, b1.trans hfilter⟩
  · rw [hchan₃, hchan₂, if_pos rfl]
    exact ⟨rfl, rfl, rfl, hdcb⟩
  · rw [hchan₃, hchan₂, if_neg hj, hchan₁, State.chan_setChan, if_neg hj]
  · have hl := hloop m hm
    rw [if_pos (by rw [(hctl m hm).mapped, hctl m hm F.lopLoCtlSrc (by decide), hmapped, hsrc]; simp)] at hl
    refine ⟨by rw [hl]; exact hnow₂, by rw [hl]; rfl, by rw [hl, hval]; rfl, fun hc => ?_⟩
    rw [(hrun.ctl m hm).loopIn_cause hl] at hc
    rw [hl, hval, (s₂.loopIn_ua m _ ((hctl m hm).mapped.trans hmapped)).2 hc _ rfl, (hctl m hm).v4, (hctl m hm).v20]
  · rw [hloop m hm, if_neg, hloops₂]
    rw [(hctl m hm).mapped, hctl m hm F.lopLoCtlSrc (by decide)]
    exact fun h => hno ⟨hm, by simpa using h⟩
  · rw [Regs.com, Regs.com, hrun.coms, hcoms₂]

theorem State.writeMem_coms (s : State) (block a : Nat) (d : List Byte) : (s.writeMem block a d).1.regs.coms = s.regs.coms := by
  refine foldl_keeps (fun u : State => u.regs.coms = s.regs.coms) _ (fun u c hu => ?_) _ _ rfl
  refine Eq.trans ?_ hu
  rw [State.foundRotten, State.raise_regs]
  unfold State.logFault State.logFaultAt
  split <;> rfl

theorem State.wrapBy_coms (s : State) (x : FRef) (i n : Nat) : (s.wrapBy x i n).regs.coms = s.regs.coms := rfl

theorem State.spoolMoved_coms (s : State) (n bytes : Nat) : (s.spoolMoved n bytes).regs.coms = s.regs.coms := rfl

theorem State.strmPut_coms (s : State) (e q g : Nat) (v x : Int) : (s.strmPut e q g v x).regs.coms = s.regs.coms := by
  unfold State.strmPut
  split
  · extract_lets k body r
    have hr : r.regs.coms = s.regs.coms := s.writeMem_coms _ _ _
    clear_value r
    rw [State.wrapBy_coms, State.spoolMoved_coms, hr]
  · rfl

/-- Once an output is formed, the stream takes it and its channel is left at a boundary. -/
theorem State.streamed_does (s : State) (e q g : Nat) (x y : Int) (he : e < 32) {u : State} (hu : u = ((s.strmPut e q g x y).prune e).chanBoundary e) :
    (∀ j, j ≠ e → u.chan j = s.chan j) ∧ ((u.chan e).lastG = (s.chan e).lastG ∧ (u.chan e).ns = (s.chan e).ns ∧
      (u.chan e).epoch = (s.chan e).epoch ∧ (u.chan e).dcb = (s.chan e).dcb) ∧ u.loops = s.loops ∧
    (∀ (z : FRef) (i j : Nat), 0x620424 ≤ famAddr z.fam i j → u.reg z i j = s.reg z i j) ∧
    ((s.regs.com .fltCommit 0).pend = false → u.reg F.cnvResQuality e = s.reg F.cnvResQuality e ∧
      u.reg F.cnvResValue e = s.reg F.cnvResValue e) ∧
    (s.flag F.fltStrmCtlEn = false ∨ bit (s.reg F.fltStrmMaskMask) e = false → u.mem = s.mem ∧ u.spl = s.spl ∧
      u.reg F.fltStrmWidxWidx = s.reg F.fltStrmWidxWidx) ∧
    (s.flag F.fltStrmCtlEn = true → bit (s.reg F.fltStrmMaskMask) e = true → ∀ a, a = s.strmBase + 32 * (s.reg F.fltStrmWidxWidx % s.strmLen) →
      u.mem.read a = BitVec.ofNat 8 e ∧ u.reg F.fltStrmWidxWidx = (s.reg F.fltStrmWidxWidx + 1) % 2 ^ 32 ∧
        ∀ b, b < a ∨ a + 32 ≤ b → u.mem.read b = s.mem.read b) ∧
    Only [.chans, .eth, .fau, .lin, .mem, .regs, .spl, .stw] s u := by
  have hput₁ (h : s.flag F.fltStrmCtlEn = false ∨ bit (s.reg F.fltStrmMaskMask) e = false) := s.strmPut_off e q g x y h
  have hput₂ (h : s.flag F.fltStrmCtlEn = true) (h' : bit (s.reg F.fltStrmMaskMask) e = true) {a : Nat}
    (ha : a = s.strmBase + 32 * (s.reg F.fltStrmWidxWidx % s.strmLen)) := s.strmPut_does e q g x y h h' ha rfl
  have hregs₁ := s.strmPut_reg e q g x y
  obtain ⟨hchans₁, hloops₁⟩ := s.strmPut_chan e q g x y
  have hcoms₁ := s.strmPut_coms e q g x y
  have honly₁ : Only [.eth, .fau, .mem, .regs, .spl, .stw] s (s.strmPut e q g x y) := by simp [only_iff]
  generalize s.strmPut e q g x y = r at *
  obtain ⟨hothers₂, hlast₂, hns₂, hepoch₂, hdcb₂⟩ := r.prune_chan e
  have honly₂ : Only [.chans] r (r.prune e) := by simp [only_iff]
  generalize r.prune e = w at *
  obtain ⟨hothers, ⟨hlast, hns, hepoch, hdcb⟩, hregs, hpend⟩ := w.chanBoundary_does e hu
  have honly₃ : Only [.chans, .lin, .regs] w u := by
    rw [hu]
    simp [only_iff]
  have hregs₂ (z : FRef) (i j : Nat) : w.reg z i j = r.reg z i j := reg_of_regs (honly₂ .regs (by simp)) _ _ _
  have hch (j : Nat) : r.chan j = s.chan j := by rw [State.chan, hchans₁, State.chan]
  have hmem : u.mem = r.mem := by
    rw [show u.mem = w.mem from honly₃ .mem (by simp), show w.mem = r.mem from honly₂ .mem (by simp)]
  have hspl : u.spl = r.spl := by
    rw [show u.spl = w.spl from honly₃ .spl (by simp), show w.spl = r.spl from honly₂ .spl (by simp)]
  have hwidx : u.reg F.fltStrmWidxWidx = r.reg F.fltStrmWidxWidx := by
    rw [hregs, hregs₂]
    all_goals simp [famAddr, famInfo, F.fltStrmWidxWidx]
    all_goals omega
  refine ⟨fun j hj => (hothers j hj).trans ((hothers₂ j hj).trans (hch j)), ?_, ?_, fun z i j hz => ?_, fun hp => ?_, fun h => ?_, fun h h' a ha => ?_,
    only_mono (honly₁.trans (honly₂.trans honly₃)) (by simp)⟩
  · rw [hlast, hns, hepoch, hdcb, hlast₂, hns₂, hepoch₂, hdcb₂, hch]
    exact ⟨rfl, rfl, rfl, rfl⟩
  · rw [show u.loops = w.loops from honly₃ .loops (by simp), show w.loops = r.loops from honly₂ .loops (by simp), hloops₁]
  · rw [hregs, hregs₂, hregs₁]
    all_goals simp only [famAddr, famInfo] at hz ⊢
    all_goals omega
  · have hw : (w.regs.com .fltCommit 0).pend = false := by
      rwa [show w.regs = r.regs from honly₂ .regs (by simp), Regs.com, hcoms₁]
    have hres (z : FRef) (hz : z.fam = .cnvRes) : u.reg z e = s.reg z e := by
      rw [hpend hw, hregs₂, hregs₁]
      all_goals simp only [hz, famAddr, famInfo]
      all_goals omega
    exact ⟨hres _ rfl, hres _ rfl⟩
  · rw [hmem, hspl, hwidx, hput₁ h]
    exact ⟨rfl, rfl, rfl⟩
  · rw [hmem, hwidx]
    exact hput₂ h h' ha

/-- A loop that is given a cause of fault enters it, and tells it where it was in none. -/
theorem State.loopEnters (s : State) (n c : Nat) (x : Loop) (hn : n < 4) (hmap : s.mapped n = true) (hc : (s.setLoop n x).loopCause n = c) (hne : c ≠ 0)
    {u : State} (hu : u = (s.setLoop n x).loopEval n) : (u.loop n).fault = true ∧ (u.loop n).cause = c ∧
      (u.loop n).ua = (if s.flag F.lopLoCtlFaultDir n = true then 21000 else 3600) ∧
      (x.fault = false → u.reg F.lopCntFault = min (s.reg F.lopCntFault + 1) 0xFFFFFFFF ∧
        Raised s u s.now 0x702 0x63 n (be 1 1 ++ be 1 c ++ be 1 (s.reg F.lopLoCtlFaultDir n))) := by
  have hloop : u.loop n = s.loopIn n x := by rw [hu, State.loopEval_setLoop]
  refine ⟨by rw [hloop]; exact decide_eq_true (hc ▸ hne), by rw [hloop]; exact hc, by rw [hloop]; exact (s.loopIn_ua n x hmap).1 c hc hne,
    fun hx => ?_⟩
  rw [State.loopEval, hc, State.loop_setLoop, if_pos rfl, if_pos (by rw [hx, decide_eq_true hne]; rfl)] at hu
  obtain ⟨v, hv, hcount, hdir, hstw, hfw, hlin, hnow⟩ : ∃ v : State, u = v.loopFault n 1 c ∧
      v.reg F.lopCntFault = min (s.reg F.lopCntFault + 1) 0xFFFFFFFF ∧ v.reg F.lopLoCtlFaultDir n = s.reg F.lopLoCtlFaultDir n ∧
      v.stw = s.stw ∧ v.fwRuns = s.fwRuns ∧ v.lin = s.lin ∧ v.now = s.now :=
    ⟨_, hu, State.reg_bump _ F.lopCntFault 0 (by decide) (by decide), State.reg_bump_ne _ F.lopCntFault F.lopLoCtlFaultDir 0 n 0
      (by simp [famAddr, famInfo, F.lopLoCtlFaultDir, F.lopCntFault]; omega), rfl, rfl, rfl, rfl⟩
  rw [hv, State.loopFault, hdir]
  refine ⟨(reg_of_regs (State.raise_regs _ _ _ _ _) _ _ _).trans hcount, ?_⟩
  rw [← hnow]
  exact raised_congr (v.raiseAt_raised v.now 0x702 0x63 n _ _) (congrArg (·.sess) hstw.symm) hfw.symm (congrArg (·.epoch) hlin.symm) (.of_sess rfl)

theorem State.loopCause_setLoop (s : State) (n : Nat) (x : Loop) (hmap : s.mapped n = true) : (s.setLoop n x).loopCause n =
    if x.opened = true then 1 else if x.range = true then 2 else if x.stale = true then 3 else if s.v20 n = s.v4 n then 4 else
      if x.reg = true then 5 else 0 := by
  rw [State.loopCause, State.loop_setLoop, if_pos rfl, show (s.setLoop n x).mapped n = true from hmap]
  rfl

/-- The loop regulation alone is left to fault a loop whose result is good. -/
theorem State.loopCause_good (s : State) (n : Nat) (x : Loop) (hmap : s.mapped n = true) (ho : x.opened = false) (hr : x.range = false)
    (hs : x.stale = false) (hv : s.v20 n ≠ s.v4 n) : (s.setLoop n x).loopCause n = if x.reg = true then 5 else 0 := by
  rw [s.loopCause_setLoop n x hmap, ho, hr, hs, if_neg (by decide), if_neg (by decide), if_neg (by decide), if_neg hv]

theorem State.loopGiven_does (s : State) (n : Nat) (x : Loop) {u : State} (hu : u = (s.setLoop n x).loopEval n) :
    u.loop n = s.loopIn n x ∧ (∀ k, k ≠ n → u.loop k = s.loop k) ∧ Only [.eth, .loops, .regs, .stw] s u := by
  subst hu
  refine ⟨State.loopEval_setLoop _ _ _, fun k hk => ?_, by simp [only_iff]⟩
  rw [State.loopEval_other _ _ _ hk, State.loop_setLoop, if_neg hk]

/-- Settles O57. -/
theorem outputsReachResultsAndLoops : Obligations.OutputsReachResultsAndLoops := by
  unfold Obligations.OutputsReachResultsAndLoops
  refine ⟨fun t e s hon he => ?_, fun t s hon => ⟨fun hen hok => does_whenOn hon ?_, fun h => does_whenOn hon ?_⟩, fun t n s hon hn => ?_⟩
  · intro v
    refine ⟨fun hdue => does_whenOn hon ?_, fun g p hdue hg => ?_⟩
    · rw [if_neg (by rw [show (s.tick t).outputDue e = false from hdue]; simp)]
      exact s.tick_only t
    · intro used w x k a follows
      refine does_whenOn hon ?_
      rw [if_pos ⟨he, hdue⟩, show (s.tick t).nextG e = some (g, p) from hg]
      dsimp only
      obtain ⟨q, x', y', r, hu, ⟨hquality, hvalue⟩, hchan, hothers, hfollows, hrest, hreg, hcom, honly⟩ := v.output_forms e g p he (w := w) rfl
      obtain ⟨hothers', ⟨hlast, hns, hepoch, hdcb⟩, hloops, hregs, hres, hoff, hstream, honly'⟩ := r.streamed_does e q g x' y' he hu
      generalize v.output e g p = u at *
      obtain ⟨hlast', hns', hepoch', hdcb'⟩ := hchan
      have hr (z : FRef) (i : Nat) (hz : famAddr .cnvRes 31 0 < famAddr z.fam i 0) (hz' : famAddr z.fam i 0 ≠ famAddr .lopCntFault 0 0) :
          r.reg z i = s.reg z i := hreg z i 0 (by simp only [famAddr, famInfo] at hz ⊢; omega) hz'
      have hl (m : Nat) : u.loop m = r.loop m := by rw [State.loop, hloops, State.loop]
      have hctl (m : Nat) : LoopRegs r u m := by
        intro z hz
        refine hregs z m 0 ?_
        rcases hz with hz | hz | hz | hz <;> simp [hz, famAddr, famInfo] <;> omega
      have hen : r.flag F.fltStrmCtlEn = s.flag F.fltStrmCtlEn := by
        rw [State.flag, hr _ _ (by decide) (by decide), State.flag]
      have hmask : r.reg F.fltStrmMaskMask = s.reg F.fltStrmMaskMask := hr _ _ (by decide) (by decide)
      have hk : r.reg F.fltStrmWidxWidx = k := hr _ _ (by decide) (by decide)
      have ha : a = r.strmBase + 32 * (r.reg F.fltStrmWidxWidx % r.strmLen) := by
        rw [hk, State.strmBase, State.strmLen, hr F.fltStrmAddrHi _ (by decide) (by decide), hr F.fltStrmAddrLo _ (by decide) (by decide),
          hr F.fltStrmCtlLog2size _ (by decide) (by decide)]
        rfl
      have hmem : r.mem = s.mem ∧ r.spl = s.spl := ⟨honly .mem (by simp), honly .spl (by simp)⟩
      refine ⟨hlast.trans hlast', hns.trans hns', hepoch.trans hepoch', hdcb.trans hdcb', fun j hj => (hothers' j hj).trans (hothers j hj),
        fun m ⟨hm, hmap, hsrc⟩ => ?_, fun m hm hno => ?_, fun h => ?_, fun h h' => ?_, fun hp => ?_,
        only_mono ((s.tick_only t).trans (honly.trans honly')) (by simp)⟩
      · obtain ⟨hat, hstale, hval, -⟩ := hfollows m hm hmap hsrc
        rw [hl, hval]
        exact ⟨hat, hstale, rfl⟩
      · rw [hl]
        exact hrest m hm hno
      · rw [← hmem.1, ← hmem.2, ← hk]
        exact hoff (by rwa [hen, hmask])
      · rw [← hmem.1, ← hk]
        exact hstream (by rwa [hen]) (by rwa [hmask]) a ha
      · obtain ⟨hq, hv⟩ := hres (by rw [hcom]; exact hp)
        have hvalue' : u.resValue e = r.resValue e := by rw [State.resValue, hv, State.resValue]
        rw [hq]
        obtain ⟨b7, b6, b5, b4, b1⟩ := hquality
        refine ⟨b7, b6, b5, b4, b1, fun m ⟨hm, hmap, hsrc⟩ => ?_, fun hchan hcurve => ⟨?_, fun y hfast hdc hsteady => ?_⟩⟩
        · obtain ⟨-, -, hval, hua⟩ := hfollows m hm hmap hsrc
          rw [hl, hvalue', (hctl m).cause (hl m)]
          exact ⟨hval, hua⟩
        · rw [hv, hvalue, w.linearise_plain e _ hchan hcurve]
        · have hw : w.chan e = { s.chan e with dcb := s.reg F.fltChCfgDcb e } := (State.chan_setChan _ _ _ _).trans (if_pos rfl)
          rw [show x.1 = clampI (-2147483648) 2147483647 (roundEven (w.chainOut e g).1 512) from rfl,
            w.chainOut_fast e g hfast (by rw [hw, hdc]) (by rw [hw]; exact hsteady)]
  · rw [if_pos ⟨hen, hok⟩]
    have hregs : ((s.tick t).strmStart.kept (s.tick t) .fltStrmCtl 0).regs = (s.tick t).strmStart.regs := by simp
    refine ⟨?_, ?_, ?_⟩
    · rw [State.flag, reg_of_regs hregs]
      exact decide_eq_true ((State.reg_setReg_ne _ F.fltStrmWidxWidx F.fltStrmCtlEn 0 0 0 0 0 (by decide)).trans
        (State.reg_setReg_self (s.tick t) F.fltStrmCtlEn 0 0 1 (by decide) (by decide)))
    · rw [reg_of_regs hregs]
      exact (State.reg_setReg_self _ F.fltStrmWidxWidx 0 0 0 (by decide) (by decide))
    · simp [only_iff, State.strmStart]
  · rw [if_neg]
    · exact s.tick_only t
    · rintro ⟨hen, hok⟩
      exact h.elim (fun h => absurd (hen.symm.trans h) (by simp)) fun h => absurd (hok.symm.trans h) (by simp)
  · intro now x level others enters
    refine ⟨fun hmap hstale hat => does_whenOn hon ?_, fun h => does_whenOn hon ?_, fun on hmap => does_whenOn hon ?_,
      fun on hmap => does_whenOn hon ?_, fun hen hdue => does_whenOn hon ?_, fun h => does_whenOn hon ?_⟩
    · dsimp only
      rw [if_pos ⟨hn, hmap, hstale, hat⟩]
      obtain ⟨hloop, hothers, honly⟩ := (s.tick t).loopGiven_does n { (s.tick t).loop n with stale := true } rfl
      refine ⟨by rw [hloop]; rfl, hothers, (s.tick_only t).trans honly, ?_⟩
      refine (s.tick t).loopEnters n _ { (s.tick t).loop n with stale := true } hn hmap ?_ ?_ rfl
      · rw [(s.tick t).loopCause_setLoop n _ hmap]
        rfl
      · split
        · decide
        · split <;> decide
    · dsimp only
      rw [if_neg]
      · exact s.tick_only t
      rintro ⟨-, hmap, hstale, hat⟩
      rcases h with h | h | h
      · exact absurd (hmap.symm.trans h) (by simp)
      · exact absurd (hstale.symm.trans h) (by simp)
      · exact absurd hat (Nat.not_le.2 h)
    · rw [if_pos ⟨hn, hmap⟩]
      obtain ⟨hloop, hothers, honly⟩ := (s.tick t).loopGiven_does n { (s.tick t).loop n with reg := on } rfl
      refine ⟨by rw [hloop]; rfl, hothers, (s.tick_only t).trans honly, fun ho hr hs hv => ⟨fun hon => ?_, fun hoff => ?_⟩⟩
      · refine (s.tick t).loopEnters n 5 { (s.tick t).loop n with reg := on } hn hmap ?_ (by decide) rfl
        exact ((s.tick t).loopCause_good n { (s.tick t).loop n with reg := on } hmap ho hr hs hv).trans (if_pos hon)
      · have hc : ((s.tick t).setLoop n { (s.tick t).loop n with reg := on }).loopCause n = 0 :=
          ((s.tick t).loopCause_good n { (s.tick t).loop n with reg := on } hmap ho hr hs hv).trans (if_neg (Bool.eq_false_iff.1 hoff))
        rw [hloop]
        exact ⟨decide_eq_false (by rw [hc]; exact fun h => h rfl), fun y hy => ((s.tick t).loopIn_ua n _ hmap).2 hc y hy⟩
    · rw [if_neg fun h => absurd (h.2.symm.trans hmap) (by simp)]
      exact s.tick_only t
    · dsimp only
      have hpwm : (s.tick t).pwmDue n = (x.fired.map (· + 1024 * us)).getD now := by
        rw [State.pwmDue]
        cases h : x.fired with
        | none => rw [show ((s.tick t).loop n).fired = none from h]; rfl
        | some f => rw [show ((s.tick t).loop n).fired = some f from h]; rfl
      have hle : (s.tick t).pwmDue n ≤ now := by
        rw [hpwm]
        cases h : x.fired with
        | none => exact le_rfl
        | some f => exact hdue f h
      rw [if_pos ⟨hn, hen, hle⟩, hpwm]
      exact ⟨(State.loop_setLoop _ _ _ _).trans (if_pos rfl), fun k hk => (State.loop_setLoop _ _ _ _).trans (if_neg hk), by simp [only_iff]⟩
    · dsimp only
      rw [if_neg]
      · exact s.tick_only t
      rintro ⟨-, hen, hdue⟩
      rcases h with h | ⟨f, hf, hlt⟩
      · exact absurd (hen.symm.trans h) (by simp)
      · rw [State.pwmDue, show ((s.tick t).loop n).fired = some f from hf] at hdue
        exact absurd hdue (Nat.not_le.2 hlt)

end Sys2Proof.Machine
end

section
/-!
SUPPORT. The pool of spares, an engine's fault, and the mains tracker; statements O35, O36 and O41.
-/

namespace Sys2Proof.Machine

-- Proofs one after another: the text is long, and is checked in bounded memory.
set_option Elab.async false

open Sys2Proof Sys2Proof.Safety

/-! ## The pool of spares (13 R291) -/

/-- Eight engines at work, and a ready spare whose drain flag still stands. -/
def drainedSpare : State :=
  { State.reset with
    fau := { Fau.reset with
             engines := (List.range 8).map (fun n => (n, { Engine.init with drain := false })) ++ [(8, { Engine.init with st := .spare, drain := true })] } }

/-- The spare that goes back to work counts as draining, so that none is left to take from. -/
theorem drainedSpare_target : let u := ((drainedSpare.tick 0).setReg F.fauSparesSpares 0 0 (0 % 16)).meetTarget
    u.spares.length + u.draining.length = 1 := by
  decide

/-- Refutes O36: a spare that carries a drain flag goes back to work under it when the target falls, and still counts toward the target. -/
theorem not_enginesReturnToTheirPool : ¬ Obligations.EnginesReturnToTheirPool := by
  unfold Obligations.EnginesReturnToTheirPool
  rintro ⟨-, -, -, htarget, -⟩
  obtain ⟨-, hcount, -⟩ := of_does_whenOn (fun s => ((s.setReg F.fauSparesSpares 0 0 (0 % 16)).meetTarget).kept s .fauSpares 0)
    (htarget 0 0 drainedSpare rfl (by decide) (by decide)) rfl
  have hfau (u old : State) : (u.kept old .fauSpares 0).spares = u.spares ∧ (u.kept old .fauSpares 0).draining = u.draining := by
    simp [State.spares, State.draining]
  rw [(hfau _ _).1, (hfau _ _).2, drainedSpare_target] at hcount
  exact absurd hcount (by decide)

/-! ## An engine's fault (13 R286 to R290, R297) -/

/-- A failed engine begins its self-test, and no other engine changes. -/
theorem State.failEngine_does (s : State) (n by_ : Nat) {u : State} (hu : u = s.failEngine n by_) :
    ((u.eng n).st = .selfTest ∧ (u.eng n).faults = (s.eng n).faults + 1 ∧ (u.eng n).replacedBy = by_ ∧ (u.eng n).ctxs = [] ∧
      (u.eng n).testAt = s.now) ∧ (∀ k, k ≠ n → u.eng k = s.eng k) ∧ Only [.fau] s u := by
  obtain ⟨e, he, heng⟩ : ∃ e : Engine, (e.st = .selfTest ∧ e.faults = (s.eng n).faults + 1 ∧ e.replacedBy = by_ ∧ e.ctxs = [] ∧ e.testAt = s.now) ∧
      ∀ k, u.eng k = if k = n then e else s.eng k :=
    ⟨_, ⟨rfl, rfl, rfl, rfl, rfl⟩, fun k => (congrArg (fun v : State => v.eng k) hu).trans (State.eng_setEng _ _ _ _)⟩
  refine ⟨?_, fun k hk => by rw [heng, if_neg hk], ?_⟩
  · rw [heng, if_pos rfl]
    exact he
  · rw [hu]
    simp [only_iff, State.failEngine]

theorem tget?_map_at {β : Type} (l : Tab β) (k : Nat) (f : β → β) :
    tget? (l.map fun z => if z.1 = k then (k, f z.2) else z) k = (tget? l k).map f := by
  induction l with
  | nil => rfl
  | cons z l ih =>
    by_cases h : z.1 = k
    · simp [tget?, h]
    · simpa [tget?, h] using ih

theorem State.eng_of_engines {s u : State} (h : u.fau.engines = s.fau.engines) (k : Nat) : u.eng k = s.eng k := by
  rw [State.eng, Fau.eng, h]
  rfl

theorem State.logFaultAt_engines (s : State) (at_ kind block inst outcome detect target ctxs interrupt detail : Nat) (e : Option Nat) :
    (s.logFaultAt at_ kind block inst outcome detect target ctxs interrupt detail e).fau.engines = s.fau.engines := by
  unfold State.logFaultAt
  split
  · simp
  · rfl

theorem State.logFaultAt_fwRuns (s : State) (at_ kind block inst outcome detect target ctxs interrupt detail : Nat) (e : Option Nat) :
    (s.logFaultAt at_ kind block inst outcome detect target ctxs interrupt detail e).fwRuns = s.fwRuns := by
  unfold State.logFaultAt
  split <;> rfl

/-- A slot, and a port, whose candidate at a place is put back. -/
def LineSlot.putBack (q : Nat) (c : LineCand) (x : LineSlot) : LineSlot :=
  { x with cands := putCand x.cands q (some c), rx := x.rx.filter fun r => decide (r.cand.place ≠ q) }

def LinePort.putBack (m q : Nat) (c : LineCand) (x : LinePort) : LinePort :=
  { x with slots := x.slots.map fun y => if y.1 = m then (m, y.2.putBack q c) else y }

/-- What a candidate's slot holds once its checkpoint has been put back. -/
theorem State.putCtx_restored (s : State) (a m q : Nat) (c : LineCand) (h : HasSlot s a m) :
    Restored (s.putCtx (.lineRx a m q, .lineRx (some c) none)) a m q c := by
  have hmem (l : List LineCand) : c ∈ putCand l q (some c) ∧ ∀ d ∈ putCand l q (some c), d = c ∨ d.place ≠ q := by
    simp only [putCand, List.mem_mergeSort, List.mem_append, List.mem_filter, Option.mem_toList]
    exact ⟨.inr trivial, fun d hd => hd.elim (fun hd => .inr (by simpa using hd.2)) fun hd => .inl (Option.some.inj hd).symm⟩
  obtain ⟨x, hx⟩ := Option.isSome_iff_exists.1 h
  obtain ⟨port, hport, hslot⟩ := Option.bind_eq_some_iff.1 hx
  have hls : (s.putCtx (.lineRx a m q, .lineRx (some c) none)).ls a m = x.putBack q c := by
    change tget LineSlot.init (tget LinePort.init (s.plx.ports.map fun y => if y.1 = a then (a, y.2.putBack m q c) else y) a).slots m = _
    rw [tget, tget, tget?_map_at, hport, Option.map_some, Option.getD_some, LinePort.putBack]
    dsimp only
    rw [tget?_map_at, hslot]
    rfl
  rw [Restored, hls]
  exact hmem _

/-- The pool's lowest spare takes the engine's place, as the checkpoint has it. -/
theorem State.patchIn_does (s : State) (e : Engine) (j : Nat) (p : Patch) (k : Ckpt) (old : Option Ckpt) (hcov : s.coveredBy e (some k) = true)
    {u : State} (hu : u = s.patchIn e j p (some k) old) :
    ((u.eng j).st = .active ∧ (u.eng j).ctxs = e.ctxs ∧ (u.eng j).ckpt = k ∧ (u.eng j).fx = k.fx ∧ (u.eng j).inputs = e.inputs ∧
      (u.eng j).drain = e.drain ∧ (u.eng j).patch = some { p with ckpt := k.time }) ∧ (∀ i, i ≠ j → u.eng i = s.eng i) ∧
    (∀ a m q c, e.ctxs = [.lineRx a m q] → k.data = [(.lineRx a m q, .lineRx (some c) none)] → HasSlot s a m → Restored u a m q c) ∧
    Only [.fau, .plx, .air] s u := by
  rw [State.patchIn, if_pos hcov] at hu
  obtain ⟨d, hd, hst, hctxs, hckpt, hfx, hinputs, hdrain, hpatch⟩ : ∃ d : Engine, u = (s.setEng j d).putCtxs j k.data ∧ d.st = .active ∧
      d.ctxs = e.ctxs ∧ d.ckpt = k ∧ d.fx = k.fx ∧ d.inputs = e.inputs ∧ d.drain = e.drain ∧ d.patch = some { p with ckpt := k.time } :=
    ⟨_, hu, rfl, rfl, rfl, rfl, rfl, rfl, rfl⟩
  have heng (i : Nat) : u.eng i = if i = j then d else s.eng i := by
    rw [hd, State.eng_of_engines (congrArg Fau.engines (show _ = (s.setEng j d).fau by simp))]
    exact State.eng_setEng _ _ _ _
  refine ⟨?_, fun i hi => by rw [heng, if_neg hi], fun a m q c hc hdata hslot => ?_, ?_⟩
  · rw [heng, if_pos rfl]
    exact ⟨hst, hctxs, hckpt, hfx, hinputs, hdrain, hpatch⟩
  · have hin : ((s.setEng j d).fau.eng j).ctxs.contains (.lineRx a m q) = true := by
      rw [show (s.setEng j d).fau.eng j = d from (State.eng_setEng s j d j).trans (if_pos rfl), hctxs, hc]
      simp
    rw [hd, State.putCtxs, hdata, List.filter_cons_of_pos (p := fun e : Ctx × CtxData => ((s.setEng j d).fau.eng j).ctxs.contains e.1) hin]
    exact State.putCtx_restored _ _ _ _ _ hslot
  · rw [hd]
    simp [only_iff]

/-- A fault without a spare is not masked. -/
theorem State.loseEngine_none (s : State) (n detect : Nat) (hd : detect < 256) {u : State} (hu : u = s.loseEngine n detect 255 []) :
    (LogRoom s → Logged u 0x01 0x04 n 1 detect 255) ∧ u.reg F.fauCntUnmasked = min (s.reg F.fauCntUnmasked + 1) 0xFFFFFFFF ∧
      Raised s u s.now 0x207 0x04 n (be 1 1 ++ be 1 detect ++ be 2 0) ∧ (∀ k, u.eng k = s.eng k) ∧ Only [.fau, .regs, .stw, .eth] s u := by
  rw [State.loseEngine] at hu
  dsimp only [List.foldl_nil] at hu
  rw [hu, State.unmasked]
  refine ⟨fun hroom => logged_stays (s.logFault_logged 0x01 0x04 n 1 detect 255 (slotsOf []) 0 0 (some n) hroom (by decide) (by decide) hd (by decide)) (.of_fau (by simp)),
    ?_, ?_, fun k => ?_, by simp [only_iff]⟩
  · rw [reg_of_regs (State.raise_regs _ _ _ _ _), State.reg_bump _ _ _ (by decide) (by decide), State.logFault,
      State.logFaultAt_reg _ _ _ _ _ _ _ _ _ _ _ _ _ _ _ (by decide)]
    rfl
  · have := State.raiseAt_raised ((s.logFault 1 4 n 1 detect 255 (slotsOf []) 0 0 (some n)).bump F.fauCntUnmasked) s.now 0x207 0x04 n
      (be 1 1 ++ be 1 detect ++ be 2 0) (be 4 s.logIndex)
    have hnow : ((s.logFault 1 4 n 1 detect 255 (slotsOf []) 0 0 (some n)).bump F.fauCntUnmasked).now = s.now := by simp
    rw [State.raise, hnow]
    refine raised_congr this (by simp) ?_ (by simp) (.of_sess rfl)
    exact (s.logFaultAt_fwRuns _ _ _ _ _ _ _ _ _ _ _).symm
  · refine State.eng_of_engines ?_ k
    exact (congrArg Fau.engines (show _ = (s.logFault 1 4 n 1 detect 255 (slotsOf []) 0 0 (some n)).fau by simp)).trans
      (s.logFaultAt_engines _ _ _ _ _ _ _ _ _ _ _)

theorem State.engineFault_spared (s : State) (n detect fault j : Nat) (l : List Nat) (hst : (s.eng n).st = .active) (hspares : s.spares = j :: l)
    (hpatch : (s.eng n).patch = none) : s.engineFault n detect fault false = (s.failEngine n j).patchIn (s.eng n) j
      { failed := n, detect := detect, detected := s.now, fault := fault, ckpt := (s.eng n).ckpt.time } (some (s.eng n).ckpt) (s.eng n).ckptOld := by
  unfold State.engineFault
  dsimp only
  rw [hst, hspares, hpatch]
  rfl

theorem State.engineFault_unspared (s : State) (n detect fault of how : Nat) (hst : (s.eng n).st = .active) (hspares : s.spares = [])
    (hof : of = ((s.eng n).patch.map (·.failed)).getD n) (hhow : how = ((s.eng n).patch.map (·.detect)).getD detect) :
    s.engineFault n detect fault false = (s.failEngine n 255).loseEngine of how 255 (s.eng n).ctxs := by
  unfold State.engineFault
  dsimp only
  rw [hst, hspares, hof, hhow]
  cases (s.eng n).patch <;> rfl

theorem State.engineFault_ofSpare (s : State) (n detect fault : Nat) (hst : (s.eng n).st = .spare) :
    s.engineFault n detect fault false = (s.failEngine n 255).logFault 0x01 0x04 n 0 detect 255 0 0 0 (some n) := by
  unfold State.engineFault
  dsimp only
  rw [hst]

/-- Settles O35. -/
theorem engineFaultsArePatchedOrReported : Obligations.EngineFaultsArePatchedOrReported := by
  unfold Obligations.EngineFaultsArePatchedOrReported
  intro t n detect fault inject s hon hn hargs c e tested
  have hdoes (P : State → Prop) (h : P ((s.tick t).engineFault n detect fault false)) : Does c s P := by
    unfold c
    cases inject with
    | true =>
      obtain ⟨rfl, rfl⟩ := hargs
      refine does_whenOn hon ?_
      rw [State.injectEngine, if_pos hn]
      exact h
    | false =>
      refine does_whenOn hon ?_
      rw [if_pos ⟨hn, hargs⟩]
      exact h
  refine ⟨fun j l hst hspares hj hpatch hcov => hdoes _ ?_, fun of how hst hspares hctxs hof hhow hlt => hdoes _ ?_, fun hst => hdoes _ ?_,
    fun hst => hdoes _ ?_⟩
  · obtain ⟨⟨hst', hfaults, hby, hctxs', htest⟩, hothers, honly⟩ := (s.tick t).failEngine_does n j rfl
    have hcov' : ((s.tick t).failEngine n j).coveredBy e (some e.ckpt) = true := by
      rcases hcov with h | h
      · simp [State.coveredBy, h]
      · simp only [State.coveredBy, Bool.or_eq_true]
        exact .inr (decide_eq_true h)
    rw [(s.tick t).engineFault_spared n detect fault j l hst hspares hpatch]
    obtain ⟨hspare, hrest, hrestored, honly'⟩ := State.patchIn_does _ e j
      { failed := n, detect := detect, detected := max s.now t, fault := fault, ckpt := e.ckpt.time } e.ckpt e.ckptOld hcov' rfl
    have hslots (a m : Nat) (h : HasSlot s a m) : HasSlot ((s.tick t).failEngine n j) a m := h
    obtain ⟨hjst, hjctxs, hjckpt, hjfx, hjinputs, hjdrain, hjpatch⟩ := hspare
    refine ⟨?_, hjst, hjctxs, hjckpt, hjfx, hjinputs, hjdrain, hjpatch, fun k hkn hkj => (hrest k hkj).trans (hothers k hkn),
      fun a m q c hc hd hslot => hrestored a m q c hc hd (hslots a m hslot), only_mono ((s.tick_only t).trans (honly.trans honly')) (by simp)⟩
    have hn' := hrest n (Ne.symm hj)
    exact ⟨(congrArg Engine.st hn').trans hst', (congrArg Engine.faults hn').trans hfaults, (congrArg Engine.replacedBy hn').trans hby,
      (congrArg Engine.ctxs hn').trans hctxs', (congrArg Engine.testAt hn').trans htest⟩
  · rw [(s.tick t).engineFault_unspared n detect fault of how hst hspares hof hhow, show ((s.tick t).eng n).ctxs = [] from hctxs]
    obtain ⟨htested, hothers, honly⟩ := (s.tick t).failEngine_does n 255 rfl
    have hfw : ((s.tick t).failEngine n 255).fwRuns = s.fwRuns ∧ ((s.tick t).failEngine n 255).now = max s.now t := ⟨rfl, rfl⟩
    have hroom (h : LogRoom s) : LogRoom ((s.tick t).failEngine n 255) := h
    obtain ⟨hlogged, hcount, hraised, heng, honly'⟩ := State.loseEngine_none ((s.tick t).failEngine n 255) of how hlt rfl
    generalize (s.tick t).failEngine n 255 = v at *
    refine ⟨?_, fun k hk => (heng k).trans (hothers k hk), fun h => hlogged (hroom h), ?_, ?_, only_mono ((s.tick_only t).trans (honly.trans honly')) (by simp)⟩
    · unfold tested
      rw [heng n]
      exact htested
    · rw [hcount, reg_of_regs (honly .regs (by simp))]
      rfl
    · rw [← hfw.2]
      exact raised_congr hraised (congrArg (·.sess) (show s.stw = v.stw from (honly .stw (by simp) : v.stw = s.stw).symm)) hfw.1.symm
        (congrArg (·.epoch) (show s.lin = v.lin from (honly .lin (by simp) : v.lin = s.lin).symm)) (.of_sess rfl)
  · rw [(s.tick t).engineFault_ofSpare n detect fault hst]
    obtain ⟨htested, hothers, honly⟩ := (s.tick t).failEngine_does n 255 rfl
    have hroom (h : LogRoom s) : LogRoom ((s.tick t).failEngine n 255) := h
    generalize (s.tick t).failEngine n 255 = v at *
    have heng (k : Nat) : (v.logFault 0x01 0x04 n 0 detect 255 0 0 0 (some n)).eng k = v.eng k := State.eng_of_engines (v.logFaultAt_engines _ _ _ _ _ _ _ _ _ _ _) k
    have hdetect : detect < 256 := by
      cases inject
      · obtain ⟨h, -⟩ := hargs
        omega
      · obtain ⟨h, -⟩ := hargs
        omega
    refine ⟨?_, fun k hk => (heng k).trans (hothers k hk), fun h => v.logFault_logged _ _ _ _ _ _ _ _ _ _ (hroom h) (by decide) (by decide) hdetect (by decide),
      only_mono ((s.tick_only t).trans (honly.trans (parts' := [.fau, .regs]) (by simp [only_iff]))) (by simp)⟩
    unfold tested
    rw [heng n]
    exact htested
  · rw [State.engineFault, show (s.tick t).eng n = e from rfl]
    rcases hst with hst | hst <;> rw [hst] <;> exact s.tick_only t

/-! ## The mains tracker (05 R100 to R114) -/

/-- The mark of an irregular cycle, once made, stays. -/
def MarksStay (s u : State) : Prop := ∀ n, (s.timer n).irregular = true → (u.timer n).irregular = true

/-- From `s` to `u` a crossing reaches the timers and the other phases: a phase stays in its state, with its reference, and of one that
is LOCKED its angles alone change. -/
structure Supplies (s u : State) : Prop where
  state (y : Nat) : (u.phase y).state = (s.phase y).state
  ref (y : Nat) : (u.phase y).ref = (s.phase y).ref
  locked (y : Nat) : (s.phase y).state = 1 → ∃ angle apart, u.phase y = { s.phase y with angle := angle, apart := apart }
  marks : MarksStay s u
  only : Only [.mns] s u
  now : u.now = s.now

namespace Supplies

variable {s u v : State}

theorem refl (s : State) : Supplies s s := ⟨fun _ => rfl, fun _ => rfl, fun _ _ => ⟨_, _, rfl⟩, fun _ h => h, only_refl _ _, rfl⟩

theorem trans (h : Supplies s u) (k : Supplies u v) : Supplies s v := by
  refine ⟨fun y => (k.state y).trans (h.state y), fun y => (k.ref y).trans (h.ref y), fun y hy => ?_, fun n hn => k.marks n (h.marks n hn),
    only_mono (h.only.trans k.only) (by simp), k.now.trans h.now⟩
  obtain ⟨a, b, hu⟩ := h.locked y hy
  obtain ⟨c, d, hv⟩ := k.locked y ((h.state y).trans hy)
  exact ⟨c, d, by rw [hv, hu]⟩

theorem of_phases (h : u.mns.phases = s.mns.phases) (hmarks : MarksStay s u) (honly : Only [.mns] s u) (hnow : u.now = s.now) : Supplies s u := by
  have hp (y : Nat) : u.phase y = s.phase y := by rw [State.phase, h, State.phase]
  exact ⟨fun y => by rw [hp], fun y => by rw [hp], fun y _ => ⟨_, _, hp y⟩, hmarks, honly, hnow⟩

theorem foldl {β : Type} (f : State → β → State) (l : List β) (h : ∀ u, Supplies s u → ∀ b ∈ l, Supplies u (f u b)) :
    Supplies s (l.foldl f s) :=
  List.foldlRecOn (motive := fun u => Supplies s u) l f (.refl s) fun u hu b hb => hu.trans (h u hu b hb)

end Supplies

/-- A phase set to what differs from it in what a crossing of another may move. -/
theorem State.setPhase_supplies (s : State) (x : Nat) (p : Phase) (hstate : p.state = (s.phase x).state) (href : p.ref = (s.phase x).ref)
    (hlocked : (s.phase x).state = 1 → ∃ angle apart, p = { s.phase x with angle := angle, apart := apart }) : Supplies s (s.setPhase x p) := by
  have hset (y : Nat) : (s.setPhase x p).phase y = if y = x then p else s.phase y := s.phase_setPhase x p y
  refine ⟨fun y => ?_, fun y => ?_, fun y hy => ?_, fun _ h => h, by simp [only_iff], rfl⟩
  all_goals rw [hset]
  all_goals split
  · rw [hstate, ‹y = x›]
  · rfl
  · rw [href, ‹y = x›]
  · rfl
  · subst ‹y = x›
    exact hlocked hy
  · exact ⟨_, _, rfl⟩

theorem State.fixNext_supplies (s : State) (n : Nat) : Supplies s (s.fixNext n) := by
  refine .of_phases (s.fixNext_phases n) (fun k hk => ?_) (by simp [only_iff]) (by simp)
  unfold State.fixNext
  dsimp only
  split
  · exact hk
  · split
    all_goals rw [State.timer_setTimer]
    all_goals split
    · subst ‹k = n›
      exact hk
    · exact hk
    · subst ‹k = n›
      simp [hk]
    · exact hk

theorem State.fixPhase_supplies (s : State) (x : Nat) : Supplies s (s.fixPhase x) :=
  .foldl _ _ fun u _ n _ => u.fixNext_supplies n

theorem State.noteApart_supplies (s : State) (x y : Nat) (hxy : x ≠ y) : Supplies s (s.noteApart x y) := by
  unfold State.noteApart
  dsimp only
  split
  · refine Supplies.trans (u := s.setPhase x { s.phase x with
      apart := tset (s.phase x).apart y ((s.phase x).angle - (s.phase y).angle) }) ?_ ?_
    · exact s.setPhase_supplies x _ rfl rfl fun _ => ⟨_, _, rfl⟩
    · refine State.setPhase_supplies _ y _ ?_ ?_ fun _ => ?_
      all_goals rw [State.phase_setPhase, if_neg hxy.symm]
      exact ⟨_, _, rfl⟩
  · exact .refl s

theorem State.measureAngles_supplies (s : State) : Supplies s s.measureAngles := by
  unfold State.measureAngles
  dsimp only
  split
  · exact .refl s
  · refine Supplies.trans (.foldl _ _ fun u _ y _ => ?_) (.foldl _ _ fun u _ e he => ?_)
    · split
      · exact u.setPhase_supplies y _ rfl rfl fun _ => ⟨_, _, rfl⟩
      · exact .refl u
    · refine u.noteApart_supplies _ _ ?_
      revert e
      decide

theorem State.derive_supplies (s : State) (x : Nat) : Supplies s (s.derive x) := by
  unfold State.derive
  dsimp only
  refine .foldl _ _ fun u hu y hy => ?_
  have h2 : (u.phase y).state = 2 := by
    rw [hu.state]
    simp only [List.mem_filter, Bool.and_eq_true, decide_eq_true_eq] at hy
    exact hy.2.1
  refine Supplies.trans (u := u.setPhase y _) ?_ (State.fixPhase_supplies _ y)
  exact u.setPhase_supplies y _ rfl rfl fun h => absurd (h2.symm.trans h) (by decide)

/-- A new crossing reaches the timers and the phases that follow it. -/
theorem State.supplied_supplies (s : State) (x : Nat) : Supplies s (s.supplied x) :=
  ((s.fixPhase_supplies x).trans (State.measureAngles_supplies _)).trans (State.derive_supplies _ x)

/-! ## A phase changes its state -/

theorem State.setTimer_marks (s : State) (n : Nat) : ∀ k, ((s.setTimer n { s.timer n with irregular := true }).timer k) =
    { s.timer k with irregular := (s.timer k).irregular || decide (k = n) } := by
  intro k
  rw [State.setTimer_timer]
  split
  next h => simp [h]
  next h => simp [h]

/-- The cycles in progress on a phase are marked, and nothing else of a timer moves. -/
theorem State.markPhase_timer (s : State) (x k : Nat) : ∃ irregular, (s.markPhase x).timer k = { s.timer k with irregular := irregular } ∧
    ((s.timer k).irregular = true → irregular = true) ∧ (k < 27 → s.timerSrc k = x → irregular = true) := by
  have key (l : List Nat) (u : State) : ∃ irregular, (l.foldl (fun u n => u.setTimer n { u.timer n with irregular := true }) u).timer k =
      { u.timer k with irregular := irregular } ∧ ((u.timer k).irregular = true → irregular = true) ∧ (k ∈ l → irregular = true) := by
    induction l generalizing u with
    | nil => exact ⟨_, rfl, id, by simp⟩
    | cons n l ih =>
      obtain ⟨i, hi, hkept, hmem⟩ := ih (u.setTimer n { u.timer n with irregular := true })
      rw [State.setTimer_marks] at hi hkept
      refine ⟨i, hi, fun h => hkept (by simp [h]), fun h => ?_⟩
      rcases List.mem_cons.1 h with rfl | h
      · exact hkept (by simp)
      · exact hmem h
  obtain ⟨i, hi, hkept, hmem⟩ := key ((List.range 27).filter fun n => decide (s.timerSrc n = x)) s
  exact ⟨i, hi, hkept, fun hk hsrc => hmem (by simp [hk, hsrc])⟩

theorem State.markPhase_marks (s : State) (x : Nat) : MarksStay s (s.markPhase x) := by
  intro n hn
  obtain ⟨i, hi, hkept, -⟩ := s.markPhase_timer x n
  rw [hi]
  exact hkept hn

theorem State.markPhase_phases (s : State) (x : Nat) : (s.markPhase x).mns.phases = s.mns.phases :=
  foldl_keeps (fun u : State => u.mns.phases = s.mns.phases) (fun u n => u.setTimer n { u.timer n with irregular := true })
    (fun _ _ h => h) _ _ rfl

/-- From `s` to `u` phases change their states: each timer's cycles go on, the sessions do, and what is in neither stays. -/
structure Turns (s u : State) : Prop where
  timer (n : Nat) : ∃ irregular, u.timer n = { s.timer n with irregular := irregular } ∧ ((s.timer n).irregular = true → irregular = true)
  grows : SessionsGrow s u
  only : Only [.mns, .stw, .eth] s u
  now : u.now = s.now

theorem Turns.refl (s : State) : Turns s s := ⟨fun _ => ⟨_, rfl, id⟩, .of_sess rfl, only_refl _ _, rfl⟩

theorem Turns.trans {s u v : State} (h : Turns s u) (k : Turns u v) : Turns s v := by
  refine ⟨fun n => ?_, h.grows.trans k.grows, only_mono (h.only.trans k.only) (by simp), k.now.trans h.now⟩
  obtain ⟨i, hi, hkept⟩ := h.timer n
  obtain ⟨j, hj, hstay⟩ := k.timer n
  exact ⟨j, by rw [hj, hi], fun hn => hstay (by rw [hi]; exact hkept hn)⟩

theorem Turns.marks {s u : State} (h : Turns s u) : MarksStay s u := by
  intro n hn
  obtain ⟨i, hi, hkept⟩ := h.timer n
  rw [hi]
  exact hkept hn

/-- What MAINS_LOCK and MAINS_LOST say of a phase (05 R108). -/
def phaseData (period st ref : Nat) : List Byte := be 4 period ++ be 1 st ++ be 1 (if st = 2 then ref else 0xFF)

/-- An event raised where the tracker and registers alone have moved before. -/
theorem Raised.of_tracker {s w u v : State} {at_ code block inst : Nat} {data : List Byte} (h : Raised w u at_ code block inst data)
    (honly : Only [.mns, .regs] s w) (hgrow : SessionsGrow u v) : Raised s v at_ code block inst data := by
  have hstw : w.stw = s.stw := honly .stw (by simp)
  have hpow : w.pow = s.pow := honly .pow (by simp)
  have hfau : w.fau = s.fau := honly .fau (by simp)
  have hlin : w.lin = s.lin := honly .lin (by simp)
  exact raised_congr h (congrArg (·.sess) hstw.symm)
    (by rw [State.fwRuns, State.fwRuns, State.pairActive, State.pairActive, hpow, hfau]) (congrArg (·.epoch) hlin.symm) hgrow

/-- A phase enters a state, and its event is raised. -/
theorem State.toState_does (s : State) (x st ref : Nat) {per : Nat} {u : State} (hu : u = s.toState x st ref)
    (hper : per = if st = 2 then (s.phase ref).period else (s.phase x).period) :
    (∀ y, u.phase y = if y = x then { s.phase x with state := st, ref := ref, period := per, rejected := 0, outside := 0 } else s.phase y) ∧
    Raised s u s.now (if st = 1 then 0x401 else 0x402) 0x64 x (phaseData per st ref) ∧ PostsUpTo 1 s u ∧ Turns s u := by
  let v := s.setPhase x { s.phase x with state := st, ref := ref, period := per, rejected := 0, outside := 0 }
  let w := if (s.phase x).state = st then v else v.markPhase x
  have hv (y : Nat) : v.phase y = if y = x then { s.phase x with state := st, ref := ref, period := per, rejected := 0, outside := 0 }
    else s.phase y := s.phase_setPhase x _ y
  have hwv : w.mns.phases = v.mns.phases := by
    unfold w
    split
    · rfl
    · exact v.markPhase_phases x
  have hw (y : Nat) : w.phase y = v.phase y := congrArg (fun l : Tab Phase => tget (Phase.init 0 20000000) l y) hwv
  have hu : u = w.raise (if st = 1 then 0x401 else 0x402) 0x64 x (phaseData per st ref ++ w.open8s 100 2) := by
    have hwx : w.phase x = { s.phase x with state := st, ref := ref, period := per, rejected := 0, outside := 0 } := by
      rw [hw, hv, if_pos rfl]
    rw [hu, State.toState, ← hper, State.phaseEvent]
    change w.raise _ 0x64 x (phaseData (w.phase x).period (w.phase x).state (w.phase x).ref ++ _) = _
    rw [hwx]
  have hsw : Only [.mns] s w := by
    unfold w v
    split
    all_goals simp [only_iff]
  have hnow : w.now = s.now := by
    unfold w v
    split
    all_goals simp
  have hfrom : Turns s w := by
    refine ⟨fun n => ?_, .of_sess (congrArg (·.sess) (hsw .stw (by simp) : w.stw = s.stw)), only_mono hsw (by simp), hnow⟩
    unfold w
    split
    · exact ⟨_, rfl, id⟩
    · obtain ⟨i, hi, hkept, -⟩ := v.markPhase_timer x n
      exact ⟨i, hi, hkept⟩
  clear_value v w
  have hmns : u.mns = w.mns := by
    rw [hu]
    simp
  refine ⟨fun y => ?_, ?_, ?_, hfrom.trans ⟨fun n => ⟨_, State.timer_of_mns hmns n, id⟩, ?_, ?_, ?_⟩⟩
  · rw [← hv, ← hw, State.phase, hmns, State.phase]
  all_goals rw [hu]
  · rw [← hnow]
    exact Raised.of_tracker (w.raiseAt_raised _ _ _ _ _ _) (only_mono hsw (by simp)) (.of_sess rfl)
  · exact PostsUpTo.trans (n := 0) (.of_sess (congrArg (·.sess) (hsw .stw (by simp) : w.stw = s.stw))) (w.raise_posts _ _ _ _)
  · exact w.raise_grows _ _ _ _
  · simp [only_iff]
  · simp

/-- The reference of a phase that falls back turns on the states of the others alone. -/
theorem State.lockedRef_congr {s u : State} {x : Nat} (h : ∀ y, y ≠ x → (u.phase y).state = (s.phase y).state) :
    u.lockedRef x = s.lockedRef x := by
  unfold State.lockedRef firstBelow
  congr 1
  funext y
  by_cases hy : y = x
  · simp [hy]
  · rw [h y hy]

theorem State.lockedRef_locked {s : State} {x y : Nat} (h : s.lockedRef x = some y) : y ≠ x ∧ (s.phase y).state = 1 := by
  have := List.find?_some h
  simpa using this

/-- A phase falls back: to DERIVED behind a LOCKED one, else to FREE. -/
theorem State.fallBack_does (s : State) (x : Nat) {u : State} (hu : u = s.fallBack x) :
    (∀ y, y ≠ x → u.phase y = s.phase y) ∧ Turns s u ∧
    (∀ y, s.lockedRef x = some y → (u.phase x).state = 2 ∧ (u.phase x).ref = y ∧
      Raised s u s.now 0x402 0x64 x (phaseData (s.phase y).period 2 y)) ∧
    (s.lockedRef x = none → (u.phase x).state = 3 ∧ (u.phase x).ref = 255 ∧
      Raised s u s.now 0x402 0x64 x (phaseData (s.phase x).period 3 255)) := by
  unfold State.fallBack at hu
  cases hx : s.lockedRef x with
  | none =>
    obtain ⟨hp, hraised, -, hturns⟩ := s.toState_does x 3 255 (hu.trans (by rw [hx])) rfl
    have hpx := hp x
    rw [if_pos rfl] at hpx
    exact ⟨fun y hy => (hp y).trans (if_neg hy), hturns, nofun, fun _ => ⟨by rw [hpx], by rw [hpx], hraised⟩⟩
  | some y =>
    obtain ⟨hp, hraised, -, hturns⟩ := s.toState_does x 2 y (hu.trans (by rw [hx])) rfl
    have hpx := hp x
    rw [if_pos rfl] at hpx
    refine ⟨fun y hy => (hp y).trans (if_neg hy), hturns, fun z hz => ?_, nofun⟩
    obtain rfl : y = z := Option.some.inj hz
    exact ⟨by rw [hpx], by rw [hpx], hraised⟩

/-- A LOCKED phase is lost, and the phases DERIVED from it move on. -/
theorem State.losePhase_does (s : State) (x : Nat) {u : State} (hu : u = s.losePhase x) :
    Turns s u ∧
    (∀ y, s.lockedRef x = some y → (u.phase x).state = 2 ∧ (u.phase x).ref = y ∧
      Raised s u s.now 0x402 0x64 x (phaseData (s.phase y).period 2 y)) ∧
    (s.lockedRef x = none → (u.phase x).state = 3 ∧ Raised s u s.now 0x402 0x64 x (phaseData (s.phase x).period 3 255)) := by
  obtain ⟨-, hturns, hsome, hnone⟩ := s.fallBack_does x rfl
  unfold State.losePhase at hu
  dsimp only at hu
  generalize s.fallBack x = v at hu hturns hsome hnone
  have hrest : u.phase x = v.phase x ∧ Turns v u := by
    rw [hu]
    refine List.foldlRecOn (motive := fun w => w.phase x = v.phase x ∧ Turns v w) _ _ ⟨rfl, .refl v⟩ fun w hw y hy => ?_
    obtain ⟨hother, hwturns, -, -⟩ := w.fallBack_does y rfl
    refine ⟨(hother x ?_).trans hw.1, hw.2.trans hwturns⟩
    rintro rfl
    simp only [List.mem_filter, Bool.and_eq_true, decide_eq_true_eq] at hy
    obtain ⟨-, h2, href⟩ := hy
    cases hx : s.lockedRef x with
    | none =>
      obtain ⟨h3, -, -⟩ := hnone hx
      omega
    | some z =>
      obtain ⟨-, hz, -⟩ := hsome z hx
      exact (State.lockedRef_locked hx).1 (hz.symm.trans href)
  obtain ⟨hx, hvu⟩ := hrest
  refine ⟨hturns.trans hvu, fun y hy => ?_, fun hno => ?_⟩
  · obtain ⟨hst, href, hraised⟩ := hsome y hy
    exact ⟨by rw [hx, hst], by rw [hx, href], raised_congr hraised rfl rfl rfl hvu.grows⟩
  · obtain ⟨hst, -, hraised⟩ := hnone hno
    exact ⟨by rw [hx, hst], raised_congr hraised rfl rfl rfl hvu.grows⟩

/-! ## Crossings of a phase that is LOCKED -/

/-- A phase is lost: DERIVED behind the phase that was LOCKED, or FREE, and reported. -/
structure Lost (s u : State) (x : Nat) : Prop where
  derived (y : Nat) : s.lockedRef x = some y → (u.phase x).state = 2 ∧ (u.phase x).ref = y ∧
    Raised s u s.now 0x402 0x64 x (phaseData (s.phase y).period 2 y)
  free : s.lockedRef x = none → (u.phase x).state = 3 ∧ Raised s u s.now 0x402 0x64 x (phaseData (s.phase x).period 3 255)

/-- What a loss turns on stays while a crossing is taken. -/
structure Tracks (s u : State) (x : Nat) : Prop where
  others (y : Nat) : y ≠ x → (u.phase y).state = (s.phase y).state
  locked (y : Nat) : y ≠ x → (s.phase y).state = 1 → (u.phase y).period = (s.phase y).period
  period : (u.phase x).period = (s.phase x).period
  only : Only [.mns, .regs] s u
  now : u.now = s.now

theorem Tracks.setPhase (s : State) (x : Nat) (p : Phase) (h : p.period = (s.phase x).period) : Tracks s (s.setPhase x p) x := by
  have hset (y : Nat) (hy : y ≠ x) : (s.setPhase x p).phase y = s.phase y := (s.phase_setPhase x p y).trans (if_neg hy)
  refine ⟨fun y hy => by rw [hset y hy], fun y hy _ => by rw [hset y hy], ?_, by simp [only_iff], rfl⟩
  rw [State.phase_setPhase, if_pos rfl, h]

theorem Tracks.trans {s u v : State} {x : Nat} (h : Tracks s u x) (k : Tracks u v x) : Tracks s v x := by
  refine ⟨fun y hy => (k.others y hy).trans (h.others y hy), fun y hy h1 => ?_, k.period.trans h.period,
    only_mono (h.only.trans k.only) (by simp), k.now.trans h.now⟩
  exact (k.locked y hy ((h.others y hy).trans h1)).trans (h.locked y hy h1)

theorem Supplies.tracks {s u : State} (h : Supplies s u) {x : Nat} (hx : (s.phase x).state = 1) : Tracks s u x := by
  have hperiod (y : Nat) (hy : (s.phase y).state = 1) : (u.phase y).period = (s.phase y).period := by
    obtain ⟨_, _, hu⟩ := h.locked y hy
    rw [hu]
  exact ⟨fun y _ => h.state y, fun y _ hy => hperiod y hy, hperiod x hx, only_mono h.only (by simp), h.now⟩

theorem Tracks.lost {s u v : State} {x : Nat} (h : Tracks s u x) (k : Lost u v x) : Lost s v x := by
  have hlocked : u.lockedRef x = s.lockedRef x := State.lockedRef_congr h.others
  refine ⟨fun y hy => ?_, fun hno => ?_⟩
  · obtain ⟨hst, href, hraised⟩ := k.derived y (hlocked.trans hy)
    obtain ⟨hne, hy1⟩ := State.lockedRef_locked hy
    rw [h.locked y hne hy1, h.now] at hraised
    exact ⟨hst, href, Raised.of_tracker hraised h.only (.of_sess rfl)⟩
  · obtain ⟨hst, hraised⟩ := k.free (hlocked.trans hno)
    rw [h.period, h.now] at hraised
    exact ⟨hst, Raised.of_tracker hraised h.only (.of_sess rfl)⟩

theorem State.losePhase_lost (s : State) (x : Nat) : Lost s (s.losePhase x) x := by
  obtain ⟨-, hsome, hnone⟩ := s.losePhase_does x rfl
  exact ⟨hsome, hnone⟩

/-- A phase set to a LOCKED one and supplied: it changes in its angles alone from then on. -/
theorem State.setPhase_supplied (s : State) (x : Nat) (p : Phase) (hp : p.state = 1) :
    ∃ angle apart, ((s.setPhase x p).supplied x).phase x = { p with angle := angle, apart := apart } := by
  have hx : (s.setPhase x p).phase x = p := (s.phase_setPhase x p x).trans (if_pos rfl)
  obtain ⟨a, b, h⟩ := ((s.setPhase x p).supplied_supplies x).locked x (by rw [hx, hp])
  exact ⟨a, b, by rw [h, hx]⟩

/-- A LOCKED phase whose crossing is rejected or missing goes on at its period (05 R106). -/
def Phase.coasts (p : Phase) (dev : Option Int) : Phase :=
  { p with crossing := p.crossing + p.period, accepted := false, dev := dev, rejected := p.rejected + 1 }

theorem State.rejectCrossing_does (s : State) (x : Nat) (p : Phase) (dev : Option Int) (hp : p.state = 1) :
    (p.rejected < 7 → ∃ angle apart, (s.rejectCrossing x p dev).phase x = { p.coasts dev with angle := angle, apart := apart }) ∧
    (7 ≤ p.rejected → p.period = (s.phase x).period → Lost s (s.rejectCrossing x p dev) x) := by
  unfold State.rejectCrossing
  dsimp only
  refine ⟨fun h => ?_, fun h hper => ?_⟩
  · rw [if_neg (show ¬8 ≤ p.rejected + 1 by omega)]
    exact s.setPhase_supplied x (p.coasts dev) hp
  · rw [if_pos (show 8 ≤ p.rejected + 1 by omega)]
    have hx : (s.setPhase x (p.coasts dev)).phase x = p.coasts dev := (s.phase_setPhase x _ x).trans (if_pos rfl)
    exact ((Tracks.setPhase s x (p.coasts dev) hper).trans
      ((State.supplied_supplies _ x).tracks (by rw [hx]; exact hp))).lost (State.losePhase_lost _ x)

/-- A LOCKED phase takes a crossing (05 R103). -/
def Phase.takes (p : Phase) (m : Nat) : Phase :=
  { (if p.accepted then p.addPeriod (m - p.crossing) else p) with crossing := m, accepted := true, dev := none, rejected := 0 }

theorem Phase.addPeriod_state (p : Phase) (q : Nat) : (p.addPeriod q).state = p.state := rfl

theorem Phase.addPeriod_outside (p : Phase) (q : Nat) : (p.addPeriod q).outside ≤ p.outside + 1 := by
  change (if periodOk q then 0 else p.outside + 1) ≤ _
  split <;> omega

theorem Phase.takes_state (p : Phase) (m : Nat) : (p.takes m).state = p.state := by
  unfold Phase.takes
  dsimp only
  split <;> rfl

theorem Phase.takes_period {p : Phase} (m : Nat) (h : p.accepted = false) : (p.takes m).period = p.period := by
  unfold Phase.takes
  rw [if_neg (by simp [h])]

theorem Phase.takes_outside (p : Phase) (m : Nat) : (p.takes m).outside ≤ p.outside + 1 := by
  unfold Phase.takes
  dsimp only
  split
  · exact p.addPeriod_outside _
  · omega

/-- The state in which a confirmed jump is counted and its cycles are marked (05 R106). -/
def State.jumped (s : State) (x : Nat) : State :=
  ((s.bump F.mnsPhStatusJumps x).setReg F.mnsPhStatusJump x 0 1).markPhase x

theorem State.acceptCrossing_does (s : State) (x : Nat) (p : Phase) (m : Nat) (jump : Bool) (hp : p.state = 1) (hout : p.outside < 3) :
    ∃ u angle apart, s.acceptCrossing x p m jump = u.supplied x ∧
      u = (if jump then (s.setPhase x (p.takes m)).jumped x else s.setPhase x (p.takes m)) ∧
      (s.acceptCrossing x p m jump).phase x = { p.takes m with angle := angle, apart := apart } := by
  let w := if jump then (s.setPhase x (p.takes m)).jumped x else s.setPhase x (p.takes m)
  have hw : w.phase x = p.takes m := by
    have hset : (s.setPhase x (p.takes m)).phase x = p.takes m := (s.phase_setPhase x _ x).trans (if_pos rfl)
    unfold w
    split
    · refine (congrArg (fun l : Tab Phase => tget (Phase.init 0 20000000) l x) (State.markPhase_phases _ x)).trans hset
    · exact hset
  have hstate : (w.phase x).state = 1 := by rw [hw, p.takes_state, hp]
  have heq : s.acceptCrossing x p m jump = w.supplied x := by
    have hkeep : ¬4 ≤ (p.takes m).outside := by
      have := p.takes_outside m
      omega
    exact if_neg hkeep
  obtain ⟨a, b, h⟩ := (w.supplied_supplies x).locked x hstate
  exact ⟨w, a, b, heq, rfl, by rw [heq, h, hw]⟩

theorem State.supplied_regs (s : State) (x : Nat) : (s.supplied x).regs = s.regs := by simp

/-- What a confirmed jump leaves: it is counted, noted, and the cycles in progress on its phase are marked. -/
theorem State.jumped_does (s : State) (x : Nat) (hx : x < 3) {u : State} (hu : u = (s.jumped x).supplied x) :
    u.reg F.mnsPhStatusJumps x = min (s.reg F.mnsPhStatusJumps x + 1) 0xFFFF ∧ u.reg F.mnsPhStatusJump x = 1 ∧
    ∀ n, n < 27 → s.timerSrc n = x → (u.timer n).irregular = true := by
  let v := (s.bump F.mnsPhStatusJumps x).setReg F.mnsPhStatusJump x 0 1
  have hregs : u.regs = v.regs := by
    rw [hu, State.supplied_regs, State.jumped]
    simp [v]
  refine ⟨?_, ?_, fun n hn hsrc => ?_⟩
  · rw [reg_of_regs hregs]
    refine (State.reg_setReg_apart _ F.mnsPhStatusJump F.mnsPhStatusJumps _ _ _ rfl (by decide) (by decide) (by decide)).trans ?_
    exact State.reg_bump _ _ _ (by decide) (by decide)
  · rw [reg_of_regs hregs]
    exact State.reg_setReg_self _ _ _ _ _ (by decide) (by decide)
  · obtain ⟨i, hi, -, hmark⟩ := v.markPhase_timer x n
    have hv : v.timerSrc n = x := by
      rw [← hsrc, State.timerSrc, State.timerSrc]
      split
      next h =>
        have hne : famAddr F.mnsPortCfgSrc.fam n 0 ≠ famAddr F.mnsPhStatusJump.fam x 0 := by
          have hport : famAddr .mnsPortCfg n 0 = 0x640100 + n * 4 := by simp [famAddr, famInfo]
          have hphase : ∀ k < 3, famAddr .mnsPhStatus k 0 < 0x640100 := by decide
          have := hphase x hx
          change famAddr .mnsPortCfg n 0 ≠ famAddr .mnsPhStatus x 0
          omega
        rw [State.reg_setReg_ne _ _ _ _ _ _ _ _ hne]
        exact State.reg_bump_ne _ _ _ _ _ _ hne
      next => rfl
    rw [hu]
    refine ((v.markPhase x).supplied_supplies x).marks n ?_
    rw [hi]
    exact hmark hn hv

/-! ## The tracker's commands -/

/-- A phase once the amplitude and the crossing of its cycle have been noted (05 R102). -/
def State.measured (s : State) (x : Nat) (seen : Option Nat) (ampl : Nat) : Phase := ((s.phase x).level s.lockLevel ampl).seen seen

/-- What noting a cycle leaves of a phase. -/
theorem State.measured_does (s : State) (x : Nat) (seen : Option Nat) (ampl : Nat) : ∃ run low high a, s.measured x seen ampl =
    { s.phase x with run := run, low := low, high := high, ampl := a } := ⟨_, _, _, _, rfl⟩

/-- The state in which the phase's cycle has been noted. -/
def State.noted (s : State) (x : Nat) (seen : Option Nat) (ampl : Nat) : State := s.setPhase x (s.measured x seen ampl)

theorem State.noted_phase (s : State) (x : Nat) (seen : Option Nat) (ampl : Nat) : (s.noted x seen ampl).phase x = s.measured x seen ampl :=
  (s.phase_setPhase x _ x).trans (if_pos rfl)

/-- A crossing of a phase that is LOCKED, its cycle strong enough (05 R106). -/
theorem State.crossing_locked (s : State) (x : Nat) (seen : Option Nat) (ampl : Nat) (hstate : (s.phase x).state = 1)
    (hlow : (s.measured x seen ampl).low < 2) : s.crossing x seen ampl =
      match seen with
      | some m => (s.noted x seen ampl).lockedCrossing x m
      | none => (s.noted x seen ampl).rejectCrossing x (s.measured x seen ampl) none := by
  have hx := s.noted_phase x seen ampl
  rw [← hx] at hlow
  refine (if_pos (show ((s.noted x seen ampl).phase x).state = 1 by rw [hx]; exact hstate)).trans
    ((if_neg (show ¬2 ≤ ((s.noted x seen ampl).phase x).low by omega)).trans ?_)
  cases seen with
  | some m => rfl
  | none => exact congrArg (fun p => State.rejectCrossing _ x p none) hx

/-- A LOCKED phase of two weak cycles in a row is lost (05 R107). -/
theorem State.crossing_weak (s : State) (x : Nat) (seen : Option Nat) (ampl : Nat) (hstate : (s.phase x).state = 1)
    (hlow : 2 ≤ (s.measured x seen ampl).low) : Lost s (s.crossing x seen ampl) x := by
  have : s.crossing x seen ampl = (s.noted x seen ampl).losePhase x := by
    rw [← State.noted_phase] at hlow
    exact (if_pos (show ((s.noted x seen ampl).phase x).state = 1 by rw [State.noted_phase]; exact hstate)).trans (if_pos hlow)
  rw [this]
  exact (Tracks.setPhase s x (s.measured x seen ampl) rfl).lost (State.losePhase_lost _ x)

/-- A crossing of a phase that is not LOCKED goes to its lock test (05 R102). -/
theorem State.crossing_unlocked (s : State) (x m ampl : Nat) (hstate : (s.phase x).state ≠ 1) :
    s.crossing x (some m) ampl = (s.noted x (some m) ampl).tryLock x m :=
  if_neg (show ¬((s.noted x (some m) ampl).phase x).state = 1 by rw [State.noted_phase]; exact hstate)

/-- A phase that is not LOCKED locks on its ninth good crossing in a row (05 R102). -/
theorem State.crossing_locks (s : State) (x m ampl : Nat) {ps : List Nat} (hstate : (s.phase x).state ≠ 1)
    (hhigh : 8 ≤ (s.measured x (some m) ampl).high) (hrun : lockRun (s.measured x (some m) ampl).run = some ps) {u : State}
    (hu : u = s.crossing x (some m) ampl) : (u.phase x).state = 1 ∧ (u.phase x).crossing = m ∧
      (u.phase x).period = (lastN 4 ps).foldl (· + ·) 0 / 4 ∧
      Raised s u s.now 0x401 0x64 x (phaseData ((lastN 4 ps).foldl (· + ·) 0 / 4) 1 255) := by
  let q : Phase := { s.measured x (some m) ampl with
    crossing := m, periods := lastN 4 ps, period := (lastN 4 ps).foldl (· + ·) 0 / 4, odd := 0, accepted := true, dev := none }
  let w := (s.noted x (some m) ampl).setPhase x q
  have hwx : w.phase x = q := (State.phase_setPhase _ x _ x).trans (if_pos rfl)
  have hu : u = (w.toState x 1 255).supplied x := by
    rw [hu, s.crossing_unlocked x m ampl hstate, State.tryLock]
    simp only [State.noted_phase, hrun]
    exact if_pos hhigh
  have hsw : Only [.mns] s w := by simp [w, State.noted, only_iff]
  have hnow : w.now = s.now := rfl
  clear_value w
  obtain ⟨hphase, hraised, -, -⟩ := w.toState_does x 1 255 (per := q.period) rfl (by rw [hwx]; rfl)
  have hv := hphase x
  rw [if_pos rfl, hwx] at hv
  have hsup := State.supplied_supplies (w.toState x 1 255) x
  obtain ⟨a, b, hux⟩ := hsup.locked x (by rw [hv])
  rw [← hu] at hsup hux
  rw [hv] at hux
  refine ⟨by rw [hux], by rw [hux], by rw [hux], ?_⟩
  have honly := hsup.only
  rw [hnow] at hraised
  exact Raised.of_tracker hraised (only_mono hsw (by simp)) (.of_sess (congrArg (·.sess) (honly .stw (by simp))))

/-- A phase whose lock test starts anew. -/
def Phase.restarted (p : Phase) : Phase := { p with run := [], high := 0, low := 0 }

/-- The step of `State.mnsEnable` over the phases. -/
def State.restartPhase (s : State) (x : Nat) : State := s.setPhase x (s.phase x).restarted

/-- The tracker enabled: each phase may lock again, and the pleat timers run on (05 R114). -/
theorem State.mnsEnable_does (s : State) {u : State} (hu : u = s.mnsEnable) : u.flag F.mnsCtlEn = true ∧
    (∀ x, x < 3 → u.phase x = (s.phase x).restarted) ∧ u.mns.timers = s.mns.timers := by
  have hphase (v : State) (x y : Nat) : (v.restartPhase x).phase y = if y = x then (v.phase x).restarted else v.phase y :=
    v.phase_setPhase x _ y
  have hflag : (s.setReg F.mnsCtlEn 0 0 1).reg F.mnsCtlEn = 1 := State.reg_setReg_self _ _ _ _ _ (by decide) (by decide)
  have hset (x : Nat) : (s.setReg F.mnsCtlEn 0 0 1).phase x = s.phase x := rfl
  have hu : u = (((s.setReg F.mnsCtlEn 0 0 1).restartPhase 0).restartPhase 1).restartPhase 2 := hu
  have hregs : u.regs = (s.setReg F.mnsCtlEn 0 0 1).regs := by
    rw [hu]
    simp [State.restartPhase]
  refine ⟨?_, fun x hx => ?_, ?_⟩
  · rw [State.flag, reg_of_regs hregs, hflag]
    rfl
  · rw [hu]
    simp only [hphase, hset]
    interval_cases x <;> rfl
  · rw [hu]
    rfl

/-- A phase of a tracker that stops: LOCKED and DERIVED ones become FREE. -/
def freedState (st : Nat) : Nat := if st = 1 ∨ st = 2 then 3 else st

/-- The step of `State.mnsDisable` over the phases. -/
def State.freePhase (s : State) (x : Nat) : State := if (s.phase x).state = 1 ∨ (s.phase x).state = 2 then s.toState x 3 255 else s

theorem State.freePhase_does (s : State) (x : Nat) {u : State} (hu : u = s.freePhase x) :
    (∀ y, (u.phase y).state = if y = x then freedState (s.phase x).state else (s.phase y).state) ∧
    (∀ y, (u.phase y).period = (s.phase y).period) ∧
    ((s.phase x).state = 1 ∨ (s.phase x).state = 2 → Raised s u s.now 0x402 0x64 x (phaseData (s.phase x).period 3 255)) ∧
    PostsUpTo 1 s u ∧ Turns s u := by
  unfold State.freePhase at hu
  unfold freedState
  split at hu
  next h =>
    obtain ⟨hphase, hraised, hposts, hturns⟩ := s.toState_does x 3 255 hu rfl
    refine ⟨fun y => ?_, fun y => ?_, fun _ => hraised, hposts, hturns⟩
    all_goals rw [hphase]
    all_goals by_cases hy : y = x
    · rw [if_pos hy, if_pos hy, if_pos h]
    · rw [if_neg hy, if_neg hy]
    · rw [if_pos hy, hy]
      rfl
    · rw [if_neg hy]
  next h =>
    subst hu
    refine ⟨fun y => ?_, fun _ => rfl, fun h' => absurd h' h, (PostsUpTo.of_sess rfl).mono (Nat.zero_le _), .refl _⟩
    rw [if_neg h]
    split
    · rw [‹y = x›]
    · rfl

/-- The tracker stopped: what was LOCKED or DERIVED is FREE, each reported, and the pleat timers run on (05 R114). -/
theorem State.mnsDisable_does (s : State) {u : State} (hu : u = s.mnsDisable) : u.flag F.mnsCtlEn = false ∧
    (∀ x, x < 3 → (u.phase x).state = freedState (s.phase x).state) ∧
    (∀ x, x < 3 → (s.phase x).state = 1 ∨ (s.phase x).state = 2 →
      Reported s u 2 s.now 0x402 0x64 x (phaseData (s.phase x).period 3 255)) ∧
    (∀ n, (u.timer n).next = (s.timer n).next ∧ (u.timer n).anchor = (s.timer n).anchor) := by
  obtain ⟨hst0, hper0, hr0, hp0, ht0⟩ := (s.setReg F.mnsCtlEn 0 0 0).freePhase_does 0 rfl
  obtain ⟨hst1, hper1, hr1, hp1, ht1⟩ := State.freePhase_does ((s.setReg F.mnsCtlEn 0 0 0).freePhase 0) 1 rfl
  have hu : u = (((s.setReg F.mnsCtlEn 0 0 0).freePhase 0).freePhase 1).freePhase 2 := hu
  obtain ⟨hst2, hper2, hr2, hp2, ht2⟩ := State.freePhase_does _ 2 hu
  have hflag : (s.setReg F.mnsCtlEn 0 0 0).reg F.mnsCtlEn = 0 := State.reg_setReg_self _ _ _ _ _ (by decide) (by decide)
  have hset (x : Nat) : (s.setReg F.mnsCtlEn 0 0 0).phase x = s.phase x := rfl
  have hregs : Only [.regs] s (s.setReg F.mnsCtlEn 0 0 0) := by simp [only_iff]
  have hnow : (s.setReg F.mnsCtlEn 0 0 0).now = s.now := rfl
  have hposts : PostsUpTo 0 s (s.setReg F.mnsCtlEn 0 0 0) := .of_sess rfl
  have htimer (n : Nat) : (s.setReg F.mnsCtlEn 0 0 0).timer n = s.timer n := rfl
  generalize s.setReg F.mnsCtlEn 0 0 0 = a at *
  generalize a.freePhase 0 = b at *
  generalize b.freePhase 1 = c at *
  refine ⟨?_, fun x hx => ?_, fun x hx h => ?_, fun n => ?_⟩
  · have hb := ht0.only
    have hc := ht1.only
    have hd := ht2.only
    have hreg : u.regs = a.regs := (show u.regs = c.regs from hd .regs (by simp)).trans
      ((show c.regs = b.regs from hc .regs (by simp)).trans (hb .regs (by simp)))
    rw [State.flag, reg_of_regs hreg, hflag]
    rfl
  · rw [hst2, hst1, hst1, hst0, hst0, hst0, hset, hset, hset]
    interval_cases x <;> rfl
  · rw [← hset] at h ⊢
    have hwas {w : State} (k : Turns a w) : w.fwRuns = s.fwRuns ∧ w.lin.epoch = s.lin.epoch ∧ w.now = s.now := by
      have honly := hregs.trans k.only
      have hpow : w.pow = s.pow := honly .pow (by simp)
      have hfau : w.fau = s.fau := honly .fau (by simp)
      have hlin : w.lin = s.lin := honly .lin (by simp)
      exact ⟨by rw [State.fwRuns, State.fwRuns, State.pairActive, State.pairActive, hpow, hfau], by rw [hlin], k.now.trans hnow⟩
    have hsays {n y : Nat} {w v : State} (k : Turns a w) (kposts : PostsUpTo n a w) (hn : n ≤ 2) (hgrow : SessionsGrow v u)
        (hper : (w.phase y).period = (a.phase y).period)
        (hr : Raised w v w.now 0x402 0x64 y (phaseData (w.phase y).period 3 255)) :
        Reported s u 2 s.now 0x402 0x64 y (phaseData (a.phase y).period 3 255) := by
      obtain ⟨hfw, hepoch, hw⟩ := hwas k
      rw [hper, hw] at hr
      exact ((hposts.trans kposts).mono (by omega)).reported hfw hepoch (raised_congr hr rfl rfl rfl hgrow)
    interval_cases x
    · exact hsays (.refl a) (.of_sess rfl) (by omega) (ht1.grows.trans ht2.grows) rfl (hr0 h)
    · refine hsays ht0 hp0 (by omega) ht2.grows (hper0 1) (hr1 ?_)
      rw [hst0, if_neg (by decide)]
      exact h
    · refine hsays (ht0.trans ht1) (hp0.trans hp1) (by omega) (.of_sess rfl) ((hper1 2).trans (hper0 2)) (hr2 ?_)
      rw [hst1, if_neg (by decide), hst0, if_neg (by decide)]
      exact h
  · obtain ⟨i, hi, -⟩ := ((ht0.trans ht1).trans ht2).timer n
    rw [hi, htimer]
    exact ⟨rfl, rfl⟩

/-- SRC of a line port changed: there is no A, and the cycle that ends then is IRREGULAR (05 R110). -/
theorem State.newSource_does (s : State) (n src : Nat) (hn : n < 24) (hsrc : src < 4) {u : State} (hu : u = s.newSource n src) :
    u.reg F.mnsPortCfgSrc n = src ∧ (u.timer n).irregular = true ∧ (u.timer n).noA = decide (src ≠ 3) ∧
    (src = 3 → (u.timer n).next = s.now + s.nominal) ∧ (u.timer n).anchor = (s.timer n).anchor ∧
    (∀ k, k ≠ n → u.timer k = s.timer k) ∧ u.mns.phases = s.mns.phases := by
  have hreg : (s.setReg F.mnsPortCfgSrc n 0 src).reg F.mnsPortCfgSrc n = src := by
    rw [State.reg_setReg_self _ _ _ _ _ (by decide) (by decide)]
    exact Nat.mod_eq_of_lt hsrc
  have hnow : (s.setReg F.mnsPortCfgSrc n 0 src).now = s.now := rfl
  have hnom : (s.setReg F.mnsPortCfgSrc n 0 src).nominal = s.nominal := by
    have : (s.setReg F.mnsPortCfgSrc n 0 src).reg F.mnsCtlNominal = s.reg F.mnsCtlNominal :=
      State.reg_setReg_ne _ _ _ _ _ _ _ _ (mnsPortCfg_apart hn F.mnsCtlNominal 0 (by decide))
    rw [State.nominal, State.nominal, State.flag, this]
    rfl
  have hmns : (s.setReg F.mnsPortCfgSrc n 0 src).mns = s.mns := rfl
  unfold State.newSource at hu
  dsimp only at hu
  generalize s.setReg F.mnsPortCfgSrc n 0 src = v at *
  have hv (k : Nat) : v.timer k = s.timer k := State.timer_of_mns hmns k
  split at hu
  next h3 =>
    subst h3
    have htimer (k : Nat) : u.timer k = if k = n then { v.timer n with irregular := true, next := v.now + v.nominal, noA := false }
        else v.timer k := by
      rw [← State.setTimer_timer, hu]
      exact State.timer_of_mns (by simp) k
    have hat := htimer n
    rw [if_pos rfl] at hat
    refine ⟨?_, by rw [hat], by rw [hat]; rfl, fun _ => by rw [hat, hnow, hnom], by rw [hat, hv], fun k hk => by
      rw [htimer, if_neg hk, hv], ?_⟩
    · rw [hu, State.applyOffset_reg _ n hn _ _ _ (.inr ⟨rfl, rfl, rfl⟩)]
      exact hreg
    · rw [hu, ← hmns]
      simp [State.setTimer]
  next h3 =>
    have hset (k : Nat) := v.setTimer_timer n k { v.timer n with irregular := true, noA := true }
    have hphases : u.mns.phases = s.mns.phases := by
      rw [hu, State.fixNext_phases, ← hmns]
      rfl
    have hregs : u.regs = v.regs := by
      rw [hu]
      simp
    have hkeep := hset n
    have hmarks := (State.fixNext_supplies (v.setTimer n { v.timer n with irregular := true, noA := true }) n).marks n
    rw [if_pos rfl] at hkeep
    rw [← hu, hkeep] at hmarks
    have htimer (k : Nat) := State.fixNext_timer (v.setTimer n { v.timer n with irregular := true, noA := true }) n k
    rw [← hu] at htimer
    obtain ⟨_, _, hat⟩ := htimer n
    rw [if_pos rfl, hkeep] at hat
    refine ⟨by rw [reg_of_regs hregs, hreg], hmarks rfl, by rw [hat]; simp [h3], fun h => absurd h h3, by rw [hat, hv],
      fun k hk => ?_, hphases⟩
    obtain ⟨_, _, hk'⟩ := htimer k
    rw [hk', if_neg hk, hset, if_neg hk, hv]


/-! ### A strong cycle of a phase that is LOCKED (05 R106) -/

theorem State.measured_strong (s : State) (x : Nat) (seen : Option Nat) (ampl : Nat) (h : s.lockLevel ≤ ampl * 100) :
    (s.measured x seen ampl).low < 2 := by
  have : (s.measured x seen ampl).low = 0 := if_neg (show ¬2 * ampl * 100 < s.lockLevel by omega)
  omega

section
variable {s : State} {x ampl : Nat} (h1 : (s.phase x).state = 1) (hlevel : s.lockLevel ≤ ampl * 100)
include h1 hlevel

theorem State.crossing_strong (m : Nat) : s.crossing x (some m) ampl = (s.noted x (some m) ampl).lockedCrossing x m :=
  State.crossing_locked s x (some m) ampl h1 (s.measured_strong x _ ampl hlevel)

/-- A crossing within the jump limit is taken. -/
theorem State.crossing_near {m : Nat}
    (hnear : ((m : Int) - ((s.phase x).crossing + (s.phase x).period)).natAbs ≤ s.jumpLimit (s.phase x).period)
    (hout : (s.phase x).outside < 3) :
    ∃ angle apart, (s.crossing x (some m) ampl).phase x = { (s.measured x (some m) ampl).takes m with angle := angle, apart := apart } := by
  have heq : (s.noted x (some m) ampl).lockedCrossing x m =
      (s.noted x (some m) ampl).acceptCrossing x (s.measured x (some m) ampl) m false := by
    rw [← State.noted_phase]
    refine if_pos ?_
    rw [State.noted_phase]
    exact hnear
  obtain ⟨_, a, b, -, -, hat⟩ := (s.noted x (some m) ampl).acceptCrossing_does x (s.measured x (some m) ampl) m false h1 hout
  exact ⟨a, b, by rw [State.crossing_strong h1 hlevel, heq, hat]⟩

/-- An outlier that nothing before it confirms is rejected. -/
theorem State.crossing_outlier {m : Nat} {d : Int} (hd : d = (m : Int) - ((s.phase x).crossing + (s.phase x).period))
    (hfar : s.jumpLimit (s.phase x).period < d.natAbs)
    (hnot : (s.phase x).accepted = true ∨ (s.phase x).dev = none ∨
      ∃ e, (s.phase x).dev = some e ∧ s.jumpLimit (s.phase x).period < (d - e).natAbs) :
    s.crossing x (some m) ampl = (s.noted x (some m) ampl).rejectCrossing x (s.measured x (some m) ampl) (some d) := by
  have hq := s.noted_phase x (some m) ampl
  rw [State.crossing_strong h1 hlevel, ← hq]
  subst hd
  refine (if_neg (by rw [hq]; exact Nat.not_le.2 hfar)).trans ?_
  have hacc : ((s.noted x (some m) ampl).phase x).accepted = (s.phase x).accepted := by
    rw [hq]
    rfl
  have hdev : ((s.noted x (some m) ampl).phase x).dev = (s.phase x).dev := by
    rw [hq]
    rfl
  split
  · rw [hq]
    rfl
  next hno =>
    rcases hnot with h | h | ⟨e, h, hfar⟩
    · exact absurd (hacc.trans h) hno
    · rw [h] at hdev
      rw [hdev, hq]
      rfl
    · rw [h] at hdev
      rw [hdev]
      refine (if_neg ?_).trans ?_
      · rw [hq]
        exact Nat.not_le.2 hfar
      · rw [hq]
        rfl

/-- An outlier that agrees with the one before it is a jump. -/
theorem State.crossing_jump {m : Nat} {d e : Int} (hd : d = (m : Int) - ((s.phase x).crossing + (s.phase x).period))
    (hfar : s.jumpLimit (s.phase x).period < d.natAbs) (hacc : (s.phase x).accepted = false) (hdev : (s.phase x).dev = some e)
    (hclose : (d - e).natAbs ≤ s.jumpLimit (s.phase x).period) :
    s.crossing x (some m) ampl = (s.noted x (some m) ampl).acceptCrossing x (s.measured x (some m) ampl) m true := by
  have hq := s.noted_phase x (some m) ampl
  rw [State.crossing_strong h1 hlevel, ← hq]
  subst hd
  refine (if_neg (by rw [hq]; exact Nat.not_le.2 hfar)).trans ((if_neg ?_).trans ?_)
  · rw [hq, show (s.measured x (some m) ampl).accepted = false from hacc]
    decide
  · rw [show ((s.noted x (some m) ampl).phase x).dev = some e by rw [hq]; exact hdev]
    refine if_pos ?_
    rw [hq]
    exact hclose

/-- A missing crossing is rejected. -/
theorem State.crossing_missing : s.crossing x none ampl = (s.noted x none ampl).rejectCrossing x (s.measured x none ampl) none :=
  State.crossing_locked s x none ampl h1 (s.measured_strong x _ ampl hlevel)

omit hlevel in
/-- What a rejection does, early and late. -/
theorem State.crossing_rejected {seen : Option Nat} {dev : Option Int} {u : State}
    (hu : u = (s.noted x seen ampl).rejectCrossing x (s.measured x seen ampl) dev) :
    ((s.phase x).rejected < 7 → ∃ angle apart, u.phase x = { (s.measured x seen ampl).coasts dev with angle := angle, apart := apart }) ∧
    (7 ≤ (s.phase x).rejected → Lost s u x) := by
  obtain ⟨hfew, hmany⟩ := (s.noted x seen ampl).rejectCrossing_does x (s.measured x seen ampl) dev h1
  rw [← hu] at hfew hmany
  exact ⟨hfew, fun h => (Tracks.setPhase s x (s.measured x seen ampl) rfl).lost (hmany h (by rw [State.noted_phase]))⟩

end

theorem State.markMet_phase (s : State) (x : Nat) : s.markMet.phase x = s.phase x := rfl

/-- What a crossing of an enabled tracker changes at most. -/
theorem crossing_only (s : State) (t x : Nat) (seen : Option Nat) (ampl : Nat) :
    Only [.mns, .plx, .regs, .stw, .eth] s (((s.tick t).crossing x seen ampl).markMet) := by
  refine only_mono ((s.tick_only t).trans (parts' := [.mns, .plx, .regs, .stw, .eth]) ?_) (by simp)
  simp [only_iff]

/-- A new SRC of a line port that is not in service is taken (05 R110). -/
theorem does_mnsSrcChange {t port src : Nat} {s : State} {effect : State → Prop} (hon : s.pow.on = true) (hport : port < 24) (hsrc : src < 4)
    (hne : src ≠ s.reg F.mnsPortCfgSrc port) (hfree : ∀ p, tget? s.plx.ports port = some p → p.service = false)
    (h : effect (((s.tick t).newSource port src).markMet.kept (s.tick t) .mnsPortCfg port)) : Does (.mnsSrcChange t port src) s effect := by
  refine does_whenOn hon ?_
  have hgood {busy : Bool} (hb : busy = false) :
      ¬(24 ≤ port ∨ 4 ≤ src ∨ src = (s.tick t).reg F.mnsPortCfgSrc port ∨ busy = true) := by
    rintro (h | h | h | h)
    · omega
    · omega
    · exact hne h
    · exact absurd (hb.symm.trans h) (by decide)
  cases hp : tget? s.plx.ports port with
  | none =>
    rw [show tget? (s.tick t).plx.ports port = none from hp]
    exact (if_neg (hgood rfl)).symm ▸ h
  | some p =>
    rw [show tget? (s.tick t).plx.ports port = some p from hp]
    exact (if_neg (hgood (hfree p hp))).symm ▸ h

/-- Settles O41. -/
theorem mainsTrackerFollowsCrossings : Obligations.MainsTrackerFollowsCrossings := by
  unfold Obligations.MainsTrackerFollowsCrossings
  have hquiet (t : Nat) (s u : State) (h : u = s.tick t) : Only [] s u := h ▸ s.tick_only t
  have htick {parts : List Block} {s u : State} (t : Nat) (h : Only parts (s.tick t) u) : Only parts s u :=
    only_mono ((s.tick_only t).trans h) (by simp)
  refine ⟨fun t s hon => ⟨fun hen => does_whenOn hon ?_, fun hen => does_whenOn hon ?_, fun hen => does_whenOn hon ?_,
      fun hen => does_whenOn hon ?_⟩, fun t port src s hon hport hsrc hne hfree => ?_,
    fun t port src p s hon hp hservice => does_whenOn hon ?_, fun t x ampl s hon => ?_⟩
  · rw [if_neg (by rw [show (s.tick t).flag F.mnsCtlEn = false from hen]; simp)]
    obtain ⟨hflag, hphase, htimers⟩ := (s.tick t).mnsEnable_does rfl
    refine ⟨?_, fun x hx => ?_, ?_, htick t (by simp [only_iff])⟩
    · rw [← hflag, State.flag, State.flag, reg_of_regs (s := (s.tick t).mnsEnable) (by simp)]
    · refine Eq.trans ?_ (hphase x hx)
      simp only [State.phase, State.kept_leaves]
    · exact (congrArg (·.timers) (by simp : ((s.tick t).mnsEnable.kept (s.tick t) .mnsCtl 0).mns = (s.tick t).mnsEnable.mns)).trans htimers
  · rw [if_pos (show (s.tick t).flag F.mnsCtlEn = true from hen)]
    obtain ⟨hflag, hstate, hreported, htimer⟩ := (s.tick t).mnsDisable_does rfl
    have hkept (x : Nat) : ((s.tick t).mnsDisable.kept (s.tick t) .mnsCtl 0).phase x = (s.tick t).mnsDisable.phase x := by
      simp only [State.phase, State.kept_leaves]
    have hmns : ((s.tick t).mnsDisable.kept (s.tick t) .mnsCtl 0).mns = (s.tick t).mnsDisable.mns := by simp
    refine ⟨?_, fun x hx => ?_, fun x hx h => ?_, fun n => ?_, htick t (by simp [only_iff])⟩
    · rw [← hflag, State.flag, State.flag, reg_of_regs (s := (s.tick t).mnsDisable) (by simp)]
    · rw [hkept, hstate x hx]
      rfl
    · intro hf hasc k y hy hg hroom
      obtain ⟨z, e, rest, hz, he, hbody⟩ := hreported x hx h hf hasc k y hy hg hroom
      exact ⟨z, e, rest, by simpa using hz, he, hbody⟩
    · rw [State.timer_of_mns hmns]
      exact htimer n
  · exact hquiet _ _ _ (if_pos hen)
  · exact hquiet _ _ _ (if_neg (by rw [show (s.tick t).flag F.mnsCtlEn = false from hen]; simp))
  · refine does_mnsSrcChange hon hport hsrc hne hfree ?_
    obtain ⟨hreg, hirr, hnoA, hnext, hanchor, hothers, hphases⟩ := (s.tick t).newSource_does port src hport hsrc rfl
    have hmns : (((s.tick t).newSource port src).markMet.kept (s.tick t) .mnsPortCfg port).mns = ((s.tick t).newSource port src).mns := by
      simp
    have htimer (k : Nat) := State.timer_of_mns hmns k
    refine ⟨?_, by rw [htimer, hirr], by rw [htimer, hnoA], fun h => by rw [htimer]; exact hnext h, by rw [htimer]; exact hanchor,
      fun k hk => by rw [htimer]; exact hothers k hk, by rw [hmns]; exact hphases, htick t (by simp [only_iff])⟩
    exact (reg_of_regs (s := (s.tick t).newSource port src) (by simp) _ _ _).trans hreg
  · refine hquiet _ _ _ (if_pos ?_)
    rw [show tget? (s.tick t).plx.ports port = some p from hp]
    exact .inr (.inr (.inr hservice))
  · intro p lost
    have hgood (hx : x < 3) (hen : s.flag F.mnsCtlEn = true) : ¬(3 ≤ x ∨ (s.tick t).flag F.mnsCtlEn = false) := by
      rintro (h | h)
      · omega
      · exact absurd (h.symm.trans hen) (by decide)
    have hlost {seen : Option Nat} (h : Lost (s.tick t) ((s.tick t).crossing x seen ampl) x) : lost ((s.tick t).crossing x seen ampl).markMet := by
      refine ⟨fun y hy => ?_, fun hno => ?_, crossing_only s t x seen ampl⟩
      · obtain ⟨hst, href, hraised⟩ := h.derived y hy
        exact ⟨hst, href, raised_congr hraised rfl rfl rfl (.of_sess rfl)⟩
      · obtain ⟨hst, hraised⟩ := h.free hno
        exact ⟨hst, raised_congr hraised rfl rfl rfl (.of_sess rfl)⟩
    refine ⟨fun h seen => does_whenOn hon ?_, fun hx hen h1 hlevel => ?_, fun hx hen h1 hweak hlow seen => does_whenOn hon ?_,
      fun hx hen h1 hlevel hhigh m ps hrun => does_whenOn hon ?_⟩
    · exact hquiet _ _ _ (if_pos h)
    · have hw1 : ((s.tick t).phase x).state = 1 := h1
      have hwlevel : (s.tick t).lockLevel ≤ ampl * 100 := hlevel
      refine ⟨fun m hnear hout => does_whenOn hon ?_, fun m => ?_,
        fun hfew => does_whenOn hon ?_, fun hmany => does_whenOn hon ?_⟩
      · rw [if_neg (hgood hx hen)]
        obtain ⟨_, _, hat⟩ := State.crossing_near hw1 hwlevel hnear hout
        refine ⟨?_, ?_, ?_, crossing_only s t x _ ampl⟩
        all_goals rw [State.markMet_phase, hat]
        · exact (Phase.takes_state _ _).trans h1
        all_goals rfl
      · intro d hfar
        refine ⟨fun hnot => ?_, fun e hacc hdev hclose hout => does_whenOn hon ?_⟩
        · obtain ⟨hfew, hmany⟩ := State.crossing_rejected hw1 (State.crossing_outlier hw1 hwlevel rfl hfar hnot)
          refine ⟨fun h => does_whenOn hon ?_, fun h => does_whenOn hon ?_⟩
          · rw [if_neg (hgood hx hen)]
            obtain ⟨_, _, hat⟩ := hfew h
            refine ⟨?_, ?_, ?_, ?_, ?_, ?_, crossing_only s t x _ ampl⟩
            all_goals rw [State.markMet_phase, hat]
            · exact h1
            all_goals rfl
          · rw [if_neg (hgood hx hen)]
            exact hlost (hmany h)
        · rw [if_neg (hgood hx hen)]
          obtain ⟨_, _, _, heq, rfl, hat⟩ := ((s.tick t).noted x (some m) ampl).acceptCrossing_does x
            ((s.tick t).measured x (some m) ampl) m true hw1 hout
          rw [← State.crossing_jump hw1 hwlevel rfl hfar hacc hdev hclose] at heq hat
          obtain ⟨hjumps, hjump, hmarked⟩ := State.jumped_does _ x hx heq
          refine ⟨?_, ?_, ?_, ?_, ?_, hjumps, hjump, hmarked, crossing_only s t x _ ampl⟩
          all_goals rw [State.markMet_phase, hat]
          · exact (Phase.takes_state _ _).trans h1
          · rfl
          · rfl
          · rfl
          · exact Phase.takes_period (p := (s.tick t).measured x (some m) ampl) m hacc
      · rw [if_neg (hgood hx hen)]
        obtain ⟨_, _, hat⟩ := (State.crossing_rejected hw1 (State.crossing_missing hw1 hwlevel)).1 hfew
        refine ⟨?_, ?_, ?_, ?_, crossing_only s t x _ ampl⟩
        all_goals rw [State.markMet_phase, hat]
        · exact h1
        all_goals rfl
      · rw [if_neg (hgood hx hen)]
        exact hlost ((State.crossing_rejected hw1 (State.crossing_missing hw1 hwlevel)).2 hmany)
    · rw [if_neg (hgood hx hen)]
      refine hlost (State.crossing_weak _ _ _ _ h1 ?_)
      have : ((s.tick t).measured x seen ampl).low = (s.phase x).low + 1 := if_pos hweak
      rw [this]
      exact Nat.succ_le_succ hlow
    · rw [if_neg (hgood hx hen)]
      obtain ⟨hst, hcross, hper, hraised⟩ := (s.tick t).crossing_locks x m ampl h1
        (by rw [show ((s.tick t).measured x (some m) ampl).high = (s.phase x).high + 1 from if_pos hlevel]; omega) hrun rfl
      exact ⟨hst, hcross, hper, raised_congr hraised rfl rfl rfl (.of_sess rfl), crossing_only s t x _ ampl⟩

end Sys2Proof.Machine
end

section
/-!
SUPPORT. A step on an empty queue; statement O26.
-/

namespace Sys2Proof.Machine

-- Proofs one after another: the text is long, and is checked in bounded memory.
set_option Elab.async false

open Sys2Proof Sys2Proof.Safety

/-! ## A step on an empty queue (18 R414 to R418) -/

/-- The registers of `s` and `u` differ at the addresses of `P` alone, and in what is counted of this instant. -/
structure RegsApart (P : Nat → Prop) (s u : State) : Prop where
  vals (a : Nat) : ¬P a → tget? u.regs.vals a = tget? s.regs.vals a
  rest : u.regs = { s.regs with vals := u.regs.vals, hitAt := u.regs.hitAt, hits := u.regs.hits }

namespace RegsApart

variable {P : Nat → Prop} {s u v : State}

theorem of_regs (h : u.regs = s.regs) : RegsApart P s u := ⟨fun _ _ => by rw [h], by rw [h]⟩

theorem trans (h : RegsApart P s u) (k : RegsApart P u v) : RegsApart P s v :=
  ⟨fun a ha => (k.vals a ha).trans (h.vals a ha), by rw [k.rest, h.rest]⟩

theorem mono {Q : Nat → Prop} (h : RegsApart P s u) (hpq : ∀ a, P a → Q a) : RegsApart Q s u :=
  ⟨fun a ha => h.vals a fun hp => ha (hpq a hp), h.rest⟩

theorem word (h : RegsApart P s u) (f : Fam) (i j : Nat) (hf : ¬P (famAddr f i j)) : regWord u.regs f i j = regWord s.regs f i j := by
  simp only [regWord, tget, h.vals _ hf]

theorem reg (h : RegsApart P s u) (x : FRef) (i j : Nat) (hx : ¬P (famAddr x.fam i j)) : u.reg x i j = s.reg x i j := by
  simp only [State.reg, Regs.get, h.word _ _ _ hx]

theorem setWord {r : Regs} (f : Fam) (i j : Nat) (v : Word) (hr : s.regs = r) (hu : u.regs = setWord r f i j v) (hP : P (famAddr f i j)) :
    RegsApart P s u := by
  subst hr
  refine ⟨fun a ha => ?_, by rw [hu, Machine.setWord]⟩
  have hne : a ≠ famAddr f i j := fun h => ha (h ▸ hP)
  rw [hu, Machine.setWord, tput]
  dsimp only
  split
  · rw [tget?_tdel, if_neg hne]
  · rw [tget?_tset, if_neg hne]

theorem setReg (s : State) (x : FRef) (i j v : Nat) (hP : P (famAddr x.fam i j)) : RegsApart P s (s.setReg x i j v) :=
  setWord _ _ _ _ rfl rfl hP

theorem wrapBy (s : State) (x : FRef) (i n : Nat) (hP : P (famAddr x.fam i 0)) : RegsApart P s (s.wrapBy x i n) :=
  trans (u := { s with regs := s.regs.note s.now x i n true }) ⟨fun _ _ => rfl, rfl⟩ (setReg _ _ _ _ _ hP)

theorem bumpBy (s : State) (x : FRef) (i n : Nat) (hP : P (famAddr x.fam i 0)) : RegsApart P s (s.bumpBy x i n) :=
  trans (u := { s with regs := s.regs.note s.now x i n false }) ⟨fun _ _ => rfl, rfl⟩ (setReg _ _ _ _ _ hP)

end RegsApart

/-- The registers in which a spool shows that it moved a frame. -/
def spoolAddr (a : Nat) : Prop := ∃ n < 384, a = famAddr .splChCtl n 0 ∨ a = famAddr .splChCntDesc n 0 ∨ a = famAddr .splChCntBytes n 0

theorem octet_lt (l : List Byte) (i : Nat) : octet l i < 256 := by
  unfold octet beAt cut
  match l.drop i with
  | [] => decide
  | b :: _ => simpa [ofBe] using b.isLt

/-- The spool that brings a frame to its port moves it. -/
theorem State.carried_apart (s : State) (f : Frame) : RegsApart spoolAddr s (s.carried f) := by
  unfold State.carried
  split
  next => exact .of_regs rfl
  next n hn =>
    have hlt : n < 384 := by
      unfold State.spoolFor at hn
      have hoctet : octet f.body 17 < 256 := octet_lt _ _
      have hdraw (k m : Nat) (hm : 0 < m) : s.draw k m < m := Nat.mod_lt _ hm
      have h955 := hdraw 955 16 (by decide)
      have h956 := hdraw 956 8 (by decide)
      have h957 := hdraw 957 32 (by decide)
      split at hn
      all_goals cases hn
      all_goals first | omega | (split <;> omega)
    unfold State.spoolMoved
    dsimp only
    refine RegsApart.trans ?_ (.wrapBy _ F.splChCntBytes n _ ⟨n, hlt, .inr (.inr rfl)⟩)
    refine RegsApart.trans ?_ (.wrapBy _ F.splChCntDesc n _ ⟨n, hlt, .inr (.inl rfl)⟩)
    refine RegsApart.trans ?_ (.setReg _ F.splChCtlEn n 0 1 ⟨n, hlt, .inl rfl⟩)
    exact .of_regs rfl

/-! ### The frame that leaves a port -/

theorem State.serveQueue_eq_some {s : State} {p q : Nat} : s.serveQueue p = some q ↔ (s.ep p).up = true ∧ ∃ f l, NextFrame s p q f l := by
  unfold State.serveQueue NextFrame firstBelow
  by_cases hup : (s.ep p).up = true
  · rw [if_neg (by simp [hup])]
    cases h5 : tget [] (s.ep p).queues 5 with
    | cons f l =>
      rw [if_pos (by simp)]
      constructor
      · rintro ⟨⟩
        exact ⟨hup, f, l, h5, .inl rfl⟩
      · rintro ⟨-, g, r, -, rfl | ⟨-, h, -⟩⟩
        · rfl
        · cases h
    | nil =>
      rw [if_neg (by simp), List.find?_range_eq_some]
      constructor
      · rintro ⟨hgo, hq, hno⟩
        split at hgo
        next f l hqueue =>
          refine ⟨hup, f, l, hqueue, .inr ⟨by simpa using hq, rfl, hgo, fun k g r hk hg => ?_⟩⟩
          have := hno k hk
          rw [hg] at this
          simpa using this
        next => cases hgo
      · rintro ⟨-, f, l, hqueue, rfl | ⟨hq, -, hgo, hno⟩⟩
        · rw [h5] at hqueue
          cases hqueue
        · refine ⟨by rw [hqueue]; exact hgo, by simpa using hq, fun k hk => ?_⟩
          split
          next g r hg => simp [hno k g r hk hg]
          next => rfl
  · rw [if_pos (by simp [hup])]
    exact ⟨nofun, fun h => absurd h.1 hup⟩

/-- A port from which no frame may leave. -/
theorem State.sendFrom_none (s : State) (p : Nat) (h : (s.ep p).up = false ∨ ∀ q f l, ¬NextFrame s p q f l) : s.sendFrom p = s := by
  unfold State.sendFrom
  cases hq : s.serveQueue p with
  | none => rfl
  | some q =>
    obtain ⟨hup, f, l, hn⟩ := State.serveQueue_eq_some.1 hq
    rcases h with h | h
    · exact absurd (h.symm.trans hup) (by decide)
    · exact absurd hn (h q f l)

/-- The port once a frame has left it, with its octets, or unsent. -/
def EthPort.sent (e : EthPort) (q : Nat) (l : List Frame) (f : Frame) (start rate : Nat) (o : Option (List Byte)) : EthPort :=
  match o with
  | some o => { e with queues := tset e.queues q l, out := o, freeAt := start + f.wire * 8
                       capAt := if q = 4 then cdiv start 100 + cdiv (f.body.length * 8) rate else e.capAt }
  | none => { e with queues := tset e.queues q l }

/-- A port from which a frame leaves. -/
theorem State.sendFrom_some (s : State) (p q : Nat) (f : Frame) (l : List Frame) (hup : (s.ep p).up = true) (h : NextFrame s p q f l) :
    ∃ w, (w = s ∨ w = s.carried f) ∧
      s.sendFrom p = w.setEp p ((s.ep p).sent q l f (s.wireFree p) s.capRate (s.ethOctets p (s.stampFrame (s.wireFree p) f))) := by
  unfold State.sendFrom
  rw [State.serveQueue_eq_some.2 ⟨hup, f, l, h⟩]
  dsimp only
  rw [h.1]
  dsimp only
  unfold EthPort.sent
  cases s.ethOctets p (s.stampFrame (s.wireFree p) f) with
  | none => exact ⟨s, .inl rfl, rfl⟩
  | some o =>
    refine ⟨_, .inr rfl, congrArg ((s.carried f).setEp p) ?_⟩
    split <;> rfl

/-- What the sending of a frame, or none, on a port leaves of the rest. -/
structure Sends (s u : State) (p : Nat) : Prop where
  apart : RegsApart spoolAddr s u
  only : Only [.regs, .eth, .spl] s u
  others (k : Nat) : k ≠ p → u.ep k = s.ep k
  up : (u.ep p).up = (s.ep p).up
  fec : (u.ep p).fecOn = (s.ep p).fecOn
  still : u.ep p = s.ep p → u = s
  spl : u.spl = { s.spl with spools := u.spl.spools }
  now : u.now = s.now
  free : u.free = s.free
  pending : u.pending = s.pending

theorem State.sendFrom_sends (s : State) (p : Nat) : Sends s (s.sendFrom p) p := by
  by_cases h : (s.ep p).up = true ∧ ∃ q f l, NextFrame s p q f l
  · obtain ⟨hup, q, f, l, hn⟩ := h
    obtain ⟨w, hw, hu⟩ := s.sendFrom_some p q f l hup hn
    have hset (k : Nat) := w.ep_setEp p ((s.ep p).sent q l f (s.wireFree p) s.capRate (s.ethOctets p (s.stampFrame (s.wireFree p) f))) k
    rw [← hu] at hset
    have hat := hset p
    rw [if_pos rfl] at hat
    have hqueues : ((s.sendFrom p).ep p).queues = tset (s.ep p).queues q l := by
      rw [hat]
      unfold EthPort.sent
      split <;> rfl
    have hwep (k : Nat) : w.ep k = s.ep k := by
      rcases hw with rfl | rfl
      · rfl
      · simp only [State.ep, State.carried_leaves]
    have hapart : RegsApart spoolAddr s w := by
      rcases hw with rfl | rfl
      · exact .of_regs rfl
      · exact s.carried_apart f
    have hspl : w.spl = { s.spl with spools := w.spl.spools } := by
      rcases hw with rfl | rfl
      · rfl
      · unfold State.carried State.spoolMoved
        split
        · rfl
        · simp [State.setSp]
    refine ⟨⟨fun a ha => ?_, ?_⟩, ?_, fun k hk => ?_, ?_, ?_, fun hsame => ?_, ?_, ?_, ?_, ?_⟩
    · rw [hu]
      exact hapart.vals a ha
    · rw [hu]
      exact hapart.rest
    · simp [only_iff]
    · rw [hset, if_neg hk, hwep]
    · rw [hat]
      unfold EthPort.sent
      split <;> rfl
    · rw [hat]
      unfold EthPort.sent
      split <;> rfl
    · rw [hsame] at hqueues
      have := congrArg (tget [] · q) hqueues
      simp only [hn.1, tget_tset_self] at this
      exact absurd this (by simp)
    · rw [hu]
      exact hspl
    all_goals simp
  · have hno : s.sendFrom p = s := by
      refine s.sendFrom_none p ?_
      by_cases hup : (s.ep p).up = true
      · exact .inr fun q f l hn => h ⟨hup, q, f, l, hn⟩
      · exact .inl (by simpa using hup)
    rw [hno]
    exact ⟨.of_regs rfl, only_refl _ _, fun _ _ => rfl, rfl, rfl, fun _ => rfl, rfl, rfl, rfl, rfl⟩

/-! ### What a frame's way out turns on -/

theorem le_famAddr (f : Fam) (i j : Nat) : (famInfo f).base ≤ famAddr f i j := by
  unfold famAddr
  omega

theorem not_spoolAddr {a : Nat} (h : 0x800000 ≤ a) : ¬spoolAddr a := by
  rintro ⟨n, hn, h' | h' | h'⟩
  all_goals
    simp [famAddr, famInfo] at h'
    omega

/-- From `s` to `u` the registers of block ETH, and what else a port sends by, stay. -/
structure PortStays (s u : State) (p : Nat) : Prop where
  eth (x : FRef) (i : Nat) : 0x800000 ≤ (famInfo x.fam).base → u.reg x i = s.reg x i
  ep : u.ep p = s.ep p
  sea : u.sea = s.sea
  lin : u.lin = s.lin
  now : u.now = s.now
  free : u.free = s.free

namespace PortStays

variable {s u : State} {p : Nat} (h : PortStays s u p)
include h

theorem wireFree : u.wireFree p = s.wireFree p := by rw [State.wireFree, State.wireFree, h.now, h.ep]

theorem capRate : u.capRate = s.capRate := by rw [State.capRate, State.capRate, h.eth _ _ (by decide)]

theorem mayLeave (q : Nat) (f : Frame) : u.mayLeave p q f = s.mayLeave p q f := by
  have hpcp : u.queuePcp q = s.queuePcp q := by
    unfold State.queuePcp
    split <;> exact h.eth _ _ (by decide)
  simp only [State.mayLeave, State.clearOf, hpcp, h.wireFree, h.ep, h.sea, h.now, h.eth F.ethPfcRxEn 0 (by decide)]

theorem next (q : Nat) (f : Frame) (l : List Frame) : NextFrame u p q f l ↔ NextFrame s p q f l := by
  simp only [NextFrame, h.ep, h.mayLeave]

theorem stamp (start : Nat) (f : Frame) : u.stampFrame start f = s.stampFrame start f := by
  have hctime (n : Nat) : u.ctimeAt n = s.ctimeAt n := by
    simp only [State.ctimeAt, State.ctime, h.sea, h.now]
  simp only [State.stampFrame, hctime]

theorem octets (f : Frame) : u.ethOctets p f = s.ethOctets p f := by
  have hip (v6 : Bool) : u.ipOf p v6 = s.ipOf p v6 := by
    simp only [State.ipOf, State.ipv6, State.ipv4, h.eth F.ethEpIpv60 p (by decide), h.eth F.ethEpIpv61 p (by decide),
      h.eth F.ethEpIpv62 p (by decide), h.eth F.ethEpIpv63 p (by decide), h.eth F.ethEpIpv4 p (by decide)]
  simp only [State.ethOctets, hip, State.macOf, h.lin, State.ipPacket, State.ipv4Packet, State.ipv6Packet, State.open8s, State.open8,
    State.draw, h.free]

end PortStays

theorem Sends.stays {s u : State} {p k : Nat} (h : Sends s u p) (hk : k ≠ p) : PortStays s u k := by
  have honly := h.only
  exact ⟨fun x i hx => h.apart.reg x i 0 (not_spoolAddr (hx.trans (le_famAddr _ _ _))), h.others k hk, honly .sea (by simp),
    honly .lin (by simp), h.now, h.free⟩

/-! ### The carrier and the RS-FEC counters -/

theorem State.settleCarrier_stands (s : State) (h : s.stw.carrier = none ∨ ∃ p < 2, ∃ f ∈ tget [] (s.ep p).queues 2, f.settles = true) :
    s.settleCarrier = s := by
  unfold State.settleCarrier
  split
  next => rfl
  next x u hc =>
    refine if_pos ?_
    obtain ⟨p, hp, f, hf, hs⟩ := h.resolve_left (by simp [hc])
    have hany : (tget [] (s.ep p).queues 2).any (·.settles) = true := List.any_eq_true.2 ⟨f, hf, hs⟩
    interval_cases p <;> simp [hany]

theorem State.settleCarrier_settles (s : State) {x y : Word} (hc : s.stw.carrier = some (x, y))
    (h : ∀ p < 2, ∀ f ∈ tget [] (s.ep p).queues 2, f.settles = false) :
    s.settleCarrier.stw = { s.stw with carrier := none } ∧ s.settleCarrier.regs = setWord (setWord s.regs .stwXport 0 0 x) .stwUdp 0 0 y ∧
    s.settleCarrier.lin = { s.lin with writes := s.settleCarrier.lin.writes } := by
  have hno (p : Nat) (hp : p < 2) : (tget [] (s.ep p).queues 2).any (·.settles) = false := by
    rw [List.any_eq_false]
    exact fun f hf => by simp [h p hp f hf]
  unfold State.settleCarrier
  rw [hc]
  dsimp only
  rw [if_neg (by simp [hno 0 (by decide), hno 1 (by decide)])]
  refine ⟨by simp, by simp, ?_⟩
  unfold State.kept
  split <;> split <;> simp [State.linWrite]

theorem State.reg_bumpBy_self (s : State) (x : FRef) (i n : Nat) (hh : x.lo ≤ x.hi) (h : x.hi < 32) :
    (s.bumpBy x i n).reg x i = min (s.reg x i + n) (2 ^ (x.hi + 1 - x.lo) - 1) := by
  rw [State.bumpBy, State.reg_setReg_self _ _ _ _ _ hh h]
  refine Nat.mod_eq_of_lt ?_
  have : 0 < 2 ^ (x.hi + 1 - x.lo) := Nat.two_pow_pos _
  omega

/-- The count of an RS-FEC counter, which is `c` in the table of free values. -/
def State.fecCount (s : State) (x : FRef) (c p : Nat) : Nat :=
  if (s.ep p).up && (s.ep p).fecOn then min (s.reg x p + Config.freeNat s.free (c + p)) 0xFFFFFFFF else s.reg x p

theorem State.fecWorks_does (s : State) (p : Nat) :
    RegsApart (fun a => a = famAddr .ethEpCntFecCorr p 0 ∨ a = famAddr .ethEpCntFecUncorr p 0) s (s.fecWorks p) ∧
    ∀ e ∈ [(F.ethEpCntFecCorr, 965), (F.ethEpCntFecUncorr, 967)], (s.fecWorks p).reg e.1 p = s.fecCount e.1 e.2 p := by
  have hne : famAddr .ethEpCntFecCorr p 0 ≠ famAddr .ethEpCntFecUncorr p 0 := by
    simp [famAddr, famInfo]
  unfold State.fecWorks State.fecCount
  by_cases hup : ((s.ep p).up && (s.ep p).fecOn) = true
  · rw [if_pos hup]
    refine ⟨.trans (.bumpBy s F.ethEpCntFecCorr p _ (.inl rfl)) (.bumpBy _ F.ethEpCntFecUncorr p _ (.inr rfl)), fun e he => ?_⟩
    rw [if_pos hup]
    rcases List.mem_cons.1 he with rfl | he
    · rw [(RegsApart.bumpBy (P := (· = famAddr .ethEpCntFecUncorr p 0)) _ F.ethEpCntFecUncorr p _ rfl).reg _ _ _ hne]
      exact State.reg_bumpBy_self _ _ _ _ (by decide) (by decide)
    · cases List.mem_singleton.1 he
      refine (State.reg_bumpBy_self _ F.ethEpCntFecUncorr _ _ (by decide) (by decide)).trans ?_
      rw [(RegsApart.bumpBy (P := (· = famAddr .ethEpCntFecCorr p 0)) _ F.ethEpCntFecCorr p _ rfl).reg _ _ _ hne.symm]
      rfl
  · rw [if_neg hup]
    exact ⟨.of_regs rfl, fun e he => by rw [if_neg hup]⟩

/-- Where a frame leaves a port on which nothing it turns on has moved. -/
theorem PortStays.sent {r v : State} {p q : Nat} {f : Frame} {l : List Frame} (h : PortStays r v p) (hup : (r.ep p).up = true)
    (hn : NextFrame r p q f l) : (v.sendFrom p).ep p =
      (r.ep p).sent q l f (r.wireFree p) r.capRate (r.ethOctets p (r.stampFrame (r.wireFree p) f)) := by
  obtain ⟨w, -, hw⟩ := v.sendFrom_some p q f l (by rw [h.ep, hup]) ((h.next q f l).2 hn)
  rw [hw, State.ep_setEp, if_pos rfl, h.ep, h.wireFree, h.capRate, h.stamp, h.octets]

/-- Both ports send. -/
def State.bothSend (s : State) : State := (s.sendFrom 0).sendFrom 1

theorem State.bothSend_ep (s : State) (p q : Nat) (f : Frame) (l : List Frame) (hp : p < 2) (hup : (s.ep p).up = true)
    (hn : NextFrame s p q f l) : s.bothSend.ep p =
      (s.ep p).sent q l f (s.wireFree p) s.capRate (s.ethOctets p (s.stampFrame (s.wireFree p) f)) := by
  have h0 := s.sendFrom_sends 0
  have h1 := (s.sendFrom 0).sendFrom_sends 1
  interval_cases p
  · have hself : PortStays s s 0 := ⟨fun _ _ _ => rfl, rfl, rfl, rfl, rfl, rfl⟩
    exact (h1.others 0 (by decide)).trans (hself.sent hup hn)
  · exact (h0.stays (by decide)).sent hup hn

theorem State.bothSend_still (s : State) (p : Nat) (h : 2 ≤ p ∨ (s.ep p).up = false ∨ ∀ q f l, ¬NextFrame s p q f l) :
    s.bothSend.ep p = s.ep p := by
  have h0 := s.sendFrom_sends 0
  have h1 := (s.sendFrom 0).sendFrom_sends 1
  by_cases hp0 : p = 0
  · subst hp0
    refine (h1.others 0 (by decide)).trans ?_
    rw [s.sendFrom_none 0 (h.resolve_left (by decide))]
  by_cases hp1 : p = 1
  · subst hp1
    have hstays : PortStays s (s.sendFrom 0) 1 := h0.stays (by decide)
    refine (congrArg (·.ep 1) ((s.sendFrom 0).sendFrom_none 1 ?_)).trans (h0.others 1 (by decide))
    rw [hstays.ep]
    exact (h.resolve_left (by decide)).imp_right fun h q f l hn => h q f l ((hstays.next q f l).1 hn)
  · exact (h1.others p hp1).trans (h0.others p hp0)

theorem State.bothSend_does (s : State) : RegsApart spoolAddr s s.bothSend ∧ Only [.regs, .eth, .spl] s s.bothSend ∧
    (∀ p, (s.bothSend.ep p).up = (s.ep p).up ∧ (s.bothSend.ep p).fecOn = (s.ep p).fecOn) ∧
    s.bothSend.spl = { s.spl with spools := s.bothSend.spl.spools } ∧ (s.bothSend.eth = s.eth → s.bothSend.spl = s.spl) ∧
    s.bothSend.free = s.free ∧ s.bothSend.now = s.now := by
  have h0 := s.sendFrom_sends 0
  have h1 := (s.sendFrom 0).sendFrom_sends 1
  refine ⟨h0.apart.trans h1.apart, only_mono (h0.only.trans h1.only) (by simp), fun p => ⟨?_, ?_⟩, ?_, fun heth => ?_,
    h1.free.trans h0.free, h1.now.trans h0.now⟩
  · have hup (v : State) (k : Nat) : ((v.sendFrom k).ep p).up = (v.ep p).up := by
      by_cases hp : p = k
      · exact hp ▸ (v.sendFrom_sends p).up
      · rw [(v.sendFrom_sends k).others p hp]
    exact (hup _ 1).trans (hup s 0)
  · have hfec (v : State) (k : Nat) : ((v.sendFrom k).ep p).fecOn = (v.ep p).fecOn := by
      by_cases hp : p = k
      · exact hp ▸ (v.sendFrom_sends p).fec
      · rw [(v.sendFrom_sends k).others p hp]
    exact (hfec _ 1).trans (hfec s 0)
  · have h := h1.spl
    rw [h0.spl] at h
    exact h
  · have hep (p : Nat) : s.bothSend.ep p = s.ep p := congrArg (tget EthPort.init · p) heth
    have hfirst : s.sendFrom 0 = s := h0.still ((h1.others 0 (by decide)).symm.trans (hep 0))
    have hsecond : s.bothSend = s.sendFrom 0 := h1.still ((hep 1).trans (h0.others 1 (by decide)).symm)
    rw [hsecond, hfirst]

/-- The registers that hold the carriers of the mailbox (03 R43). -/
def carrierAddr (a : Nat) : Prop := a = famAddr .stwXport 0 0 ∨ a = famAddr .stwUdp 0 0

theorem State.settleCarrier_keeps (s : State) : s.settleCarrier.stw = { s.stw with carrier := s.settleCarrier.stw.carrier } ∧
    s.settleCarrier.lin = { s.lin with writes := s.settleCarrier.lin.writes } := by
  by_cases h : s.stw.carrier = none ∨ ∃ p < 2, ∃ f ∈ tget [] (s.ep p).queues 2, f.settles = true
  · rw [s.settleCarrier_stands h]
    exact ⟨rfl, rfl⟩
  · rw [not_or] at h
    obtain ⟨⟨x, y⟩, hc⟩ := Option.ne_none_iff_exists'.1 h.1
    obtain ⟨hstw, -, hlin⟩ := s.settleCarrier_settles hc fun p hp f hf => by
      by_contra hs
      exact h.2 ⟨p, hp, f, hf, by simpa using hs⟩
    exact ⟨by rw [hstw], hlin⟩

theorem State.settleCarrier_apart (s : State) : RegsApart carrierAddr s s.settleCarrier := by
  unfold State.settleCarrier
  split
  · exact .of_regs rfl
  next x u _ =>
    split
    · exact .of_regs rfl
    · refine RegsApart.trans (u := { s with regs := setWord s.regs .stwXport 0 0 x }) (.setWord _ _ _ _ rfl rfl (.inl rfl)) ?_
      exact .setWord .stwUdp 0 0 u rfl (by simp) (.inr rfl)

/-- Settles O26. -/
theorem anIdleStepSendsTheQueuedFrames : Obligations.AnIdleStepSendsTheQueuedFrames := by
  unfold Obligations.AnIdleStepSendsTheQueuedFrames
  intro s hpend
  have hstep : step s = .next s.idle := by
    unfold step
    rw [hpend]
  refine ⟨fun hoff => by rw [hstep, State.idle, if_neg (by simp [hoff])], fun hon => ?_⟩
  have htick : s.tick s.now = { s with free := s.free + 1 } := by
    rw [State.tick, Nat.max_self]
  let r : State := { s with free := s.free + 1 }
  let b := r.bothSend
  let c := b.settleCarrier
  let d := c.fecWorks 0
  let e := d.fecWorks 1
  have hidle : s.idle = e.copyGoesOn := by
    rw [State.idle, if_pos hon, htick]
    rfl
  obtain ⟨hbregs, hbonly, hbup, hbspl, hbstill, hbfree, hbnow⟩ := r.bothSend_does
  have hcregs : RegsApart carrierAddr b c := b.settleCarrier_apart
  obtain ⟨hdregs, hdcount⟩ := c.fecWorks_does 0
  obtain ⟨heregs, hecount⟩ := d.fecWorks_does 1
  let u := s.idle
  have hueth : u.eth = b.eth := by
    rw [show u = e.copyGoesOn from hidle]
    simp [e, d, c]
  have huregs : u.regs = e.regs := by
    rw [show u = e.copyGoesOn from hidle]
    simp
  have hustw : u.stw = c.stw := by
    rw [show u = e.copyGoesOn from hidle]
    simp [e, d]
  have hulin : u.lin = c.lin := by
    rw [show u = e.copyGoesOn from hidle]
    simp [e, d]
  have huspl : u.spl = b.spl := by
    rw [show u = e.copyGoesOn from hidle]
    simp [e, d, c]
  have hep (p : Nat) : u.ep p = b.ep p := congrArg (tget EthPort.init · p) hueth
  have hbstw : b.stw = s.stw := hbonly .stw (by simp)
  have hblin : b.lin = s.lin := hbonly .lin (by simp)
  obtain ⟨hckeeps, hckeepl⟩ := b.settleCarrier_keeps
  have hesea : e.sea = s.sea := (show e.sea = b.sea by simp [e, d, c]).trans (hbonly .sea (by simp))
  refine ⟨u, hstep, ?_, ?_, ?_, fun p h => ?_, fun p q f l hp hup hn => ⟨fun o ho => ?_, fun ho => ?_⟩, fun p hp x hx => ?_, ?_, fun hc => ?_,
    fun x y hc => ⟨?_, ?_⟩, ?_, ?_, fun hr => ?_, ?_, fun heth => ?_, ?_, fun a hfec hspl hx hy => ?_⟩
  · rw [← hpend]
    simp [u]
  · rw [show u.now = b.now by rw [show u = e.copyGoesOn from hidle]; simp [e, d, c]]
    exact hbnow
  · simp [u, only_iff]
  · rw [hep]
    exact r.bothSend_still p h
  · rw [htick] at ho
    rw [hep, r.bothSend_ep p q f l hp hup hn, show r.ethOctets p (r.stampFrame (r.wireFree p) f) = some o from ho]
    rfl
  · rw [htick] at ho
    rw [hep, r.bothSend_ep p q f l hp hup hn, show r.ethOctets p (r.stampFrame (r.wireFree p) f) = none from ho]
    rfl
  · have hfrom (x : FRef) (hx : x.fam = .ethEpCntFecCorr ∨ x.fam = .ethEpCntFecUncorr) : c.reg x p = s.reg x p := by
      have hbase : 0x800000 ≤ famAddr x.fam p 0 := (by rcases hx with h | h <;> rw [h] <;> decide : 0x800000 ≤ (famInfo x.fam).base).trans
        (le_famAddr _ _ _)
      rw [hcregs.reg x p 0 (by
        rintro (h | h)
        all_goals
          rw [h] at hbase
          revert hbase
          decide), hbregs.reg x p 0 (not_spoolAddr hbase)]
      rfl
    have hcount (v : State) (y : FRef) (k : Nat) (hreg : v.reg y p = s.reg y p) (hvep : v.eth = b.eth) (hvfree : v.free = s.free + 1) :
        v.fecCount y k p = if (s.ep p).up && (s.ep p).fecOn then min (s.reg y p + Config.freeNat (s.free + 1) (k + p)) 0xFFFFFFFF
          else s.reg y p := by
      have hvp : v.ep p = b.ep p := congrArg (tget EthPort.init · p) hvep
      obtain ⟨hup, hfec⟩ := hbup p
      rw [State.fecCount, hvp, hup, hfec, hreg, hvfree]
      rfl
    have hxfam : x.1.fam = .ethEpCntFecCorr ∨ x.1.fam = .ethEpCntFecUncorr := by
      rcases List.mem_cons.1 hx with rfl | hx
      · exact .inl rfl
      · cases List.mem_singleton.1 hx
        exact .inr rfl
    rw [reg_of_regs huregs]
    interval_cases p
    · rw [heregs.reg x.1 0 0 (by rcases hxfam with h | h <;> rw [h] <;> decide), hdcount x hx]
      exact hcount c _ _ (hfrom _ hxfam) (by simp [c]) ((show c.free = b.free by simp [c]).trans hbfree)
    · rw [hecount x hx]
      refine hcount d _ _ ?_ (by simp [d, c]) ((show d.free = b.free by simp [d, c]).trans hbfree)
      rw [hdregs.reg x.1 1 0 (by rcases hxfam with h | h <;> rw [h] <;> decide)]
      exact hfrom _ hxfam
  · rw [hustw, hckeeps, hbstw]
  · have hstands : c = b := b.settleCarrier_stands (.inl (by rw [hbstw, hc]))
    rw [hustw, hulin, hstands, hblin, hbstw]
    exact ⟨hc, rfl⟩
  · rintro ⟨p, hp, f, hf, hs⟩
    rw [hep] at hf
    have hstands : c = b := b.settleCarrier_stands (.inr ⟨p, hp, f, hf, hs⟩)
    rw [hustw, hulin, hstands, hblin, hbstw]
    exact ⟨hc, rfl⟩
  · intro hq
    obtain ⟨hstw, hregs, -⟩ := b.settleCarrier_settles ((congrArg (·.carrier) hbstw).trans hc) fun p hp f hf => hq p hp f (by rw [hep]; exact hf)
    have hword (f : Fam) (hf : famAddr f 0 0 < 0x800000) : regWord u.regs f 0 0 = regWord c.regs f 0 0 := by
      have haway (p : Nat) : ¬(famAddr f 0 0 = famAddr .ethEpCntFecCorr p 0 ∨ famAddr f 0 0 = famAddr .ethEpCntFecUncorr p 0) := by
        have hcorr : 0x800000 ≤ famAddr .ethEpCntFecCorr p 0 := le_trans (by decide) (le_famAddr _ _ _)
        have huncorr : 0x800000 ≤ famAddr .ethEpCntFecUncorr p 0 := le_trans (by decide) (le_famAddr _ _ _)
        omega
      rw [huregs]
      exact (heregs.word _ _ _ (haway 1)).trans (hdregs.word _ _ _ (haway 0))
    rw [hustw, hword _ (by decide), hword _ (by decide), show c.regs = _ from hregs, regWord_setWord_self,
      regWord_setWord_ne _ _ _ _ _ _ _ _ (by decide), regWord_setWord_self]
    exact ⟨congrArg (·.carrier) hstw, rfl, rfl⟩
  · rw [hulin, hckeepl, hblin]
  · rw [show u = e.copyGoesOn from hidle, State.copyGoesOn]
    split
    · simp [State.setSea, hesea]
    · rw [hesea]
  · rw [show u = e.copyGoesOn from hidle, State.copyGoesOn, if_neg (by rw [hesea]; exact hr)]
    exact hesea
  · rw [huspl]
    exact hbspl
  · rw [huspl]
    exact hbstill (hueth.symm.trans heth)
  · rw [huregs, heregs.rest, hdregs.rest, hcregs.rest, hbregs.rest]
  · rw [huregs, heregs.vals a (not_or.2 (hfec 1 (by decide))), hdregs.vals a (not_or.2 (hfec 0 (by decide))),
      hcregs.vals a (not_or.2 ⟨hx, hy⟩)]
    refine hbregs.vals a ?_
    rintro ⟨n, hn, h⟩
    obtain ⟨h1, h2, h3⟩ := hspl n hn
    exact h.elim h1 (·.elim h2 h3)

end Sys2Proof.Machine
end

section
/-!
SUPPORT. The LINK commands; statement O13.
-/

namespace Sys2Proof.Machine

-- Proofs one after another: the text is long, and is checked in bounded memory.
set_option Elab.async false

open Sys2Proof Sys2Proof.Safety

/-! ## What the steward leaves open while it serves a command -/

/-- From `s` to `u` every session stays open, and the steward's pairs are as they were. -/
structure Tends (s u : State) : Prop where
  held : SessionsHold s u
  pairs : u.fau.pairs = s.fau.pairs

namespace Tends

variable {s u v : State}

theorem of_parts (hsess : u.stw.sess = s.stw.sess) (hpairs : u.fau.pairs = s.fau.pairs) : Tends s u := ⟨.of_sess hsess, hpairs⟩

theorem trans (h : Tends s u) (k : Tends u v) : Tends s v := ⟨h.held.trans k.held, k.pairs.trans h.pairs⟩

theorem after (k : Tends u v) (h : Tends s u) : Tends s v := h.trans k

theorem foldl {β : Type} (f : State → β → State) (l : List β) (h : ∀ u, ∀ b ∈ l, Tends u (f u b)) (s : State) : Tends s (l.foldl f s) :=
  List.foldlRecOn (motive := fun u => Tends s u) l f (.of_parts rfl rfl) fun u hu b hb => hu.trans (h u b hb)

theorem serving {m : Inbound} {x : Session} (h : Tends s u) (k : Serving m x s) : Serving m x u := k.holds h.held h.pairs

end Tends

theorem State.finishRef_tends (s : State) (ref status : Nat) (o : List Byte) : Tends s (s.finishRef ref status o) :=
  ⟨s.finishRef_sessions ref status o, by simp⟩

theorem State.sendTo_tends (s : State) (k typ : Nat) (body : List Byte) : Tends s (s.sendTo k typ body) :=
  .of_parts (by simp) (by simp)

theorem State.place_pairs (s : State) (c : Ctx) : ((s.place c).getD s).fau.pairs = s.fau.pairs := by
  unfold State.place
  split
  · rfl
  · split <;> rfl

theorem State.queueLine_tends (s : State) (n m : Nat) (f : LineFrame) : Tends s (s.queueLine n m f) := by
  unfold State.queueLine State.queueLineAt
  extract_lets x q s₁ s₂
  have h₂ : Tends s s₂ := .of_parts (by simp [s₂, s₁]) (State.place_pairs s₁ (.lineTx n m))
  clear_value s₂
  split
  · exact h₂
  · exact h₂.trans (.of_parts (by simp) (by simp))

theorem State.endOffer_tends (s : State) (n m : Nat) : Tends s (s.endOffer n m) := .of_parts (by simp) (by simp)

theorem State.startOffer_tends (s : State) (n m : Nat) (p : PMap) : Tends s (s.startOffer n m p) := by
  unfold State.startOffer
  extract_lets x v p nodes s₁ s₂
  have h₂ : Tends s s₂ := .of_parts (by simp [s₂, s₁]) (by simp [s₂, s₁])
  refine (h₂.trans (.foldl (fun s k => s.sendOffer n m k p) nodes (fun u k _ => ?_) s₂)).trans (State.endOffer_tends _ _ _)
  exact Tends.trans (u := (u.newSeq k).1) (.of_parts rfl rfl) (State.queueLine_tends _ _ _ _)

theorem State.nextOffer_tends (s : State) (n m : Nat) : Tends s (s.nextOffer n m) := by
  unfold State.nextOffer
  dsimp only
  split
  · split
    · exact .of_parts rfl rfl
    split
    · exact .of_parts rfl rfl
    · exact s.startOffer_tends n m _
  · exact .of_parts rfl rfl

theorem State.offerDone_tends (s : State) (n m node version : Nat) (ok : Bool) : Tends s (s.offerDone n m node version ok) := by
  unfold State.offerDone
  extract_lets s₁ x
  have h₁ : Tends s s₁ := by
    unfold s₁
    split <;> exact .of_parts (by simp) (by simp)
  clear_value s₁
  split
  next o _ =>
    split
    · exact (State.nextOffer_tends _ n m).after ((State.endOffer_tends _ n m).after (h₁.trans (.of_parts rfl rfl)))
    · exact h₁
  next => exact h₁

theorem State.regChange_tends (s : State) (ext : Nat) (e : RegEntry) : Tends s (s.regChange ext e) := by
  unfold State.regChange
  dsimp only
  split
  · exact .of_parts rfl rfl
  · exact (State.sendTo_tends _ _ _ _).after (.of_parts rfl rfl)

theorem State.claimAt_tends (s : State) (k ext : Nat) (e : RegEntry) : Tends s (s.claimAt k ext e false) := by
  unfold State.claimAt
  split
  · split
    · exact .of_parts rfl rfl
    · exact s.regChange_tends _ _
  · exact .of_parts rfl rfl

theorem State.sendClaim_tends (s : State) (c : Claim) : Tends s (s.sendClaim c) := by
  unfold State.sendClaim
  split
  · exact .of_parts rfl rfl
  extract_lets e c' put
  clear_value c'
  split
  · have h₁ : Tends s (s.claimAt s.station c'.ext c'.entry false) := s.claimAt_tends _ _ _
    split
    · exact h₁.trans (.of_parts rfl rfl)
    · exact h₁.trans (.of_parts rfl rfl)
  · split
    · exact .of_parts rfl rfl
    split
    · exact (State.sendTo_tends _ _ _ _).after (.of_parts rfl rfl)
    · exact .of_parts rfl rfl

theorem State.claim_tends (s : State) (ext kind flags short port : Nat) (release : Bool) : Tends s (s.claim ext kind flags short port release) :=
  (State.sendClaim_tends _ _).after (.of_parts rfl rfl)

theorem State.nodeJoined_tends (s : State) (short : Nat) (x : Node) : Tends s (s.nodeJoined short x) :=
  Tends.trans ⟨(State.raise_grows _ _ _ _ _).hold, by simp⟩ (State.claim_tends _ _ _ _ _ _ _)

theorem State.joinNode_tends (s : State) (short : Nat) : Tends s (s.joinNode short) := by
  unfold State.joinNode
  split
  next x _ =>
    split
    · exact (State.nodeJoined_tends _ _ _).after (.of_parts rfl rfl)
    · exact .of_parts rfl rfl
  next => exact .of_parts rfl rfl

theorem State.jobDone_tends (s : State) (n m : Nat) (f : LineFrame) (ok : Bool) (result : Nat) : Tends s (s.jobDone n m f ok result) := by
  unfold State.jobDone
  split
  · split
    · exact s.finishRef_tends _ _ _
    · exact s.finishRef_tends _ _ _
  · exact s.offerDone_tends _ _ _ _ _
  · split
    · exact s.joinNode_tends _
    · exact .of_parts rfl rfl
  all_goals exact .of_parts rfl rfl

theorem State.countFail_tends (s : State) (f : LineFrame) : Tends s (s.countFail f) := .of_parts (by simp) (by simp)

theorem State.unplace_tends (s : State) (c : Ctx) : Tends s (s.unplace c) := .of_parts rfl rfl

theorem State.linkQuiet_tends (s : State) (n m : Nat) : Tends s (s.linkQuiet n m) := by
  unfold State.linkQuiet
  dsimp only
  split
  · exact s.unplace_tends _
  · exact .of_parts rfl rfl

theorem State.contend_tends (s : State) (n m at_ : Nat) : Tends s (s.contend n m at_) := by
  unfold State.contend
  dsimp only
  split
  · exact .of_parts rfl rfl
  · split
    · exact .of_parts rfl rfl
    · exact .of_parts rfl rfl

theorem State.dropFrames_tends (s : State) (n m short : Nat) : Tends s (s.dropFrames n m short) := by
  unfold State.dropFrames
  extract_lets x hit air gone stay s₁ y s₂
  have h₁ : Tends s s₁ := .of_parts rfl rfl
  have h₂ : Tends s₁ s₂ := by
    unfold s₂
    split
    · exact (State.linkQuiet_tends _ _ _).after ((State.contend_tends _ _ _ _).after (.of_parts rfl rfl))
    · exact s₁.linkQuiet_tends _ _
  refine (h₁.trans h₂).trans (.foldl _ gone (fun u f _ => ?_) s₂)
  refine Tends.trans ?_ (State.jobDone_tends _ _ _ _ _ _)
  split
  · exact .of_parts rfl rfl
  · exact u.countFail_tends f

theorem State.dropNode_tends (s : State) (short : Nat) : Tends s (s.dropNode short) := by
  unfold State.dropNode
  exact .foldl _ _ (fun u k _ => u.dropFrames_tends k.1 k.2 short) s

/-! ## The answers of the LINK commands -/

theorem State.nodeBytes_length (s : State) (short : Nat) (x : Node) (h : x.route.length ≤ 8) : (s.nodeBytes short x).length = 64 := by
  have hroute : (x.route.flatMap fun r => be 2 r).length = 2 * x.route.length := length_flatMap_const _ _ 2 fun r => be_length 2 r
  simp [State.nodeBytes, hroute]
  omega

theorem State.nodeBytes_length_eq (s u : State) (short : Nat) (x : Node) : (s.nodeBytes short x).length = (u.nodeBytes short x).length := by
  simp [State.nodeBytes]

theorem State.serveNodeList_answers (s : State) (f : Flight) (hlen : f.operand.length = 6) (hone : 1 ≤ beAt f.operand 4 2)
    (hcount : beAt f.operand 4 2 ≤ 127) (hport : octet f.operand 0 = 0xFF ∨ octet f.operand 0 < 24) :
    let all := s.plx.nodes.filter fun e => (decide (octet f.operand 0 = 0xFF) || decide (e.2.port = octet f.operand 0)) &&
      decide (beAt f.operand 2 2 ≤ e.1)
    let l := all.take (beAt f.operand 4 2)
    ∃ next, (all.length ≤ beAt f.operand 4 2 → next = 0xFFFF) ∧
      (∀ e, beAt f.operand 4 2 < all.length → l.getLast? = some e → next = e.1 + 1) ∧
      s.serveNodeList f = s.finish f false Status.ok (be 2 next ++ s.open8s 450 2 ++ l.flatMap fun e => s.nodeBytes e.1 e.2) := by
  intro all l
  refine ⟨if l.length < all.length then (match l.getLast? with
    | some e => e.1 + 1
    | none => 0xFFFF) else 0xFFFF, fun hle => if_neg (by simp [l]; omega), fun e hlt he => ?_, ?_⟩
  · rw [if_pos (by simp [l]; omega), he]
  · exact (if_neg (by omega)).trans (if_neg (by omega))

theorem State.serveNodeGet_answers (s : State) (f : Flight) {y : Node} (hlen : f.operand.length = 2)
    (hy : s.node? (beAt f.operand 0 2) = some y) :
    s.serveNodeGet f = s.finish f false Status.ok (s.nodeBytes (beAt f.operand 0 2) y) := by
  rw [State.serveNodeGet, if_neg (by omega), hy]

theorem State.serveNodeGet_refuses (s : State) (f : Flight) (hlen : f.operand.length = 2) (hy : s.node? (beAt f.operand 0 2) = none) :
    s.serveNodeGet f = s.finish f false Status.noRoute [] := by
  rw [State.serveNodeGet, if_neg (by omega), hy]

theorem State.serveNodeRemove_removes (s : State) (f : Flight) {y : Node} (hlen : f.operand.length = 2)
    (hy : s.node? (beAt f.operand 0 2) = some y) :
    s.serveNodeRemove f = (s.removeNode (beAt f.operand 0 2) y).finish f false Status.ok [] := by
  rw [State.serveNodeRemove, if_neg (by omega)]
  simp only [hy]

theorem State.serveNodeRemove_refuses (s : State) (f : Flight) (hlen : f.operand.length = 2) (hy : s.node? (beAt f.operand 0 2) = none) :
    s.serveNodeRemove f = s.finish f false Status.noRoute [] := by
  rw [State.serveNodeRemove, if_neg (by omega)]
  simp only [hy]

theorem State.serveMapRead_answers (s : State) (f : Flight) {p : PMap} (hlen : f.operand.length = 2) (hn : octet f.operand 0 < 24)
    (hm : octet f.operand 1 < 64) (hmap : (s.ls (octet f.operand 0) (octet f.operand 1)).map = some p) :
    s.serveMapRead f = s.finish f false Status.ok
      (be 1 p.version ++ be 1 (if (s.ls (octet f.operand 0) (octet f.operand 1)).offer.isSome then 2 else 1) ++ s.open8s 960 2 ++
        p.entries.flatMap fun e => be 2 e) := by
  rw [State.serveMapRead]
  rw [if_neg (by omega), if_neg (by omega)]
  simp only [hmap]
  rfl

theorem State.servePortStats_answers (s : State) (f : Flight) (hlen : f.operand.length = 1) (hn : octet f.operand 0 < 24) :
    s.servePortStats f = s.finish f false Status.ok (lineCounters.flatMap fun x => be 4 (s.reg x (octet f.operand 0))) := by
  rw [State.servePortStats]
  rw [if_neg (by omega), if_neg (by omega)]

/-! ## A node removed -/

/-- No frame of any link is for a SHORT or goes by it. -/
def Unnamed (short : Nat) (s : State) : Prop := ∀ n m, ∀ f ∈ (s.ls n m).queue, f.node ≠ short ∧ f.dst ≠ short

theorem unnamed_of_ports {s : State} {short : Nat}
    (h : ∀ e ∈ s.plx.ports, ∀ z ∈ e.2.slots, ∀ f ∈ z.2.queue, f.node ≠ short ∧ f.dst ≠ short) : Unnamed short s := by
  intro n m f hf
  simp only [State.ls, State.lp, tget] at hf
  cases hp : tget? s.plx.ports n with
  | none => simp [hp, LinePort.init, LineSlot.init] at hf
  | some p =>
    rw [hp, Option.getD_some] at hf
    cases hz : tget? p.slots m with
    | none => simp [hz, LineSlot.init] at hf
    | some z =>
      rw [hz, Option.getD_some] at hf
      exact h _ (tget?_mem _ _ _ hp) _ (tget?_mem _ _ _ hz) f hf

theorem Unnamed.setLs {s : State} {short : Nat} (h : Unnamed short s) (n m : Nat) (x : LineSlot) (hx : x.queue = (s.ls n m).queue) :
    Unnamed short (s.setLs n m x) := by
  intro i j f hf
  by_cases hi : i = n
  · subst hi
    rw [State.ls_setLs] at hf
    split at hf
    next hj => exact h i m f (hx ▸ hf)
    next => exact h i j f hf
  · rw [State.ls, State.setLs, State.lp_setLp, if_neg hi] at hf
    exact h i j f hf

/-- Where no frame names a SHORT, none is dropped with its entry. -/
theorem State.dropFrames_unnamed (s : State) (n m short : Nat) (h : Unnamed short s) :
    Unnamed short (s.dropFrames n m short) ∧ (s.dropFrames n m short).plx.nodes = s.plx.nodes := by
  have hno : ∀ f ∈ (s.ls n m).queue, (decide (f.node = short) || decide (f.dst = short)) = false := fun f hf => by simpa using h n m f hf
  have hplx : (s.dropFrames n m short).plx = (s.setLs n m { s.ls n m with queue := (s.ls n m).queue }).plx := by
    unfold State.dropFrames
    extract_lets x hit air gone stay s₁ y s₂
    have hgone : gone = [] := List.filter_eq_nil_iff.2 fun f hf => by simp [hit, hno f hf]
    have hstay : stay = x.queue := by
      unfold stay
      split
      next f l hl =>
        have hmem : ∀ g ∈ f :: l, hit g = false := fun g hg => hno g (hl ▸ hg)
        rw [hmem f List.mem_cons_self, List.filter_eq_self.2 fun g hg => by rw [hmem g (List.mem_cons_of_mem _ hg)]; rfl, hl]
        rfl
      next hl => exact hl.symm
    have hhead : x.queue.head?.any hit = false := by
      cases hq : x.queue with
      | nil => rfl
      | cons f l => exact hno f (show f ∈ x.queue by simp [hq])
    have hs₂ : s₂.plx = s₁.plx := by
      unfold s₂
      rw [hhead, Bool.and_false]
      simp
    rw [hgone, List.foldl_nil, hs₂]
    unfold s₁
    rw [hstay]
  refine ⟨fun i j f hf => (h.setLs n m { s.ls n m with queue := (s.ls n m).queue } rfl) i j f ?_, by rw [hplx]; rfl⟩
  rwa [State.ls, State.lp, hplx] at hf

theorem State.dropNode_unnamed (s : State) (short : Nat) (h : Unnamed short s) : (s.dropNode short).plx.nodes = s.plx.nodes := by
  unfold State.dropNode
  exact (List.foldlRecOn (motive := fun u : State => Unnamed short u ∧ u.plx.nodes = s.plx.nodes) _ _ ⟨h, rfl⟩ fun u hu k _ =>
    ⟨(u.dropFrames_unnamed _ _ _ hu.1).1, (u.dropFrames_unnamed _ _ _ hu.1).2.trans hu.2⟩).2


/-- A node's removal ends its entry alone, and its end is to be recorded. -/
theorem State.removeNode_does (s : State) (short : Nat) (y : Node) :
    let u := s.removeNode short y
    u.node? short = none ∧ (∀ k, k ≠ short → (u.node? k).isSome = (s.node? k).isSome) ∧
    (Unnamed short s → ∀ k, k ≠ short → u.node? k = s.node? k) ∧
    ({ what := .node short none, ref := none } : LinWrite) ∈ u.lin.writes ∧ Tends s u := by
  intro u
  generalize hw : s.setNode short none = w
  have hnodes : w.plx.nodes = tdel s.plx.nodes short := hw ▸ rfl
  have hfree : ∀ e ∈ w.plx.nodes, e.1 ≠ short := fun e he => (tdel_keys _ _ e (hnodes ▸ he)).1
  have hnode (k : Nat) (hk : k ≠ short) : w.node? k = s.node? k := by
    rw [State.node?, hnodes, tget?_tdel, if_neg hk]
    rfl
  have hgone := (w.dropNode_gone short hfree).1
  have hplx : u.plx = (w.dropNode short).plx := by simp [u, State.removeNode, hw]
  have hlin : u.lin = (w.dropNode short).lin := by simp [u, State.removeNode, hw]
  have hu (k : Nat) : u.node? k = (w.dropNode short).node? k := by rw [State.node?, hplx]; rfl
  refine ⟨?_, fun k hk => ?_, fun hun k hk => ?_, ?_, ?_⟩
  · rw [hu]
    cases hk : (w.dropNode short).node? short with
    | none => rfl
    | some z => exact absurd rfl (hgone.free _ (tget?_mem _ _ _ hk))
  · rw [hu, ← hnode k hk]
    cases hk' : (w.dropNode short).node? k with
    | some z =>
      obtain ⟨x, hx, -⟩ := hgone.others k z hk'
      rw [hx]
      rfl
    | none =>
      cases hx : w.node? k with
      | none => rfl
      | some x =>
        have := hgone.stay k (by rw [hx]; rfl)
        rw [hk'] at this
        cases this
  · rw [hu, ← hnode k hk, State.node?, State.dropNode_unnamed w short (hw ▸ hun)]
    rfl
  · rw [hlin]
    exact hgone.record (hw ▸ List.mem_append_right _ (List.mem_singleton.2 rfl))
  · unfold u State.removeNode
    rw [hw]
    have h₁ : Tends s w := hw ▸ .of_parts rfl rfl
    exact (h₁.trans (w.dropNode_tends short)).trans (State.claim_tends _ _ _ _ _ _ _)

/-! ## A downlink -/

/-- A frame is what a downlink of a node asks for (08 R178, R181). -/
structure LineAsked (f : Flight) (short : Nat) (y : Node) (fr : LineFrame) : Prop where
  job : fr.job = .downlink f.ref
  node : fr.node = short
  dst : fr.dst = (if bit y.flags 2 then y.route.headD 0 else short)
  typ : fr.typ = (if bit y.flags 2 then 3 else 0)
  prio : fr.prio = octet f.operand 3
  ackReq : fr.ackReq = bit (octet f.operand 9) 0
  crc32 : fr.crc32 = bit (octet f.operand 9) 1
  tries : fr.tries = 0
  sec : fr.sec = (decide (beAt f.operand 4 4 ≠ 0) && !bit y.flags 2)
  expires : fr.expires = some (f.time + 30 * Machine.sec)
  done : fr.done = false

/-- The SEQ that a node's next frame takes. -/
def State.nextLineSeq (s : State) (short : Nat) : Nat := (tget 0 s.plx.seqs short + 1) % 65536

/-- What a downlink of a node needs to be sent. -/
structure LineSendable (s : State) (f : Flight) (y : Node) (short : Nat) : Prop where
  fits : (f.operand.drop 16).length + secOverhead (beAt f.operand 4 4) (secLevel (octet f.operand 8)) ≤
    (if bit y.flags 2 then 248 - 2 * y.hops else 256)
  known : s.mayAddress (if bit y.flags 2 then y.route.headD 0 else short) = true
  unbarred : s.sendBarred false (beAt f.operand 4 4) = false

/-- The state that a downlink is sent from: the SEQs are taken, and its command waits. -/
structure Numbered (f : Flight) (s u : State) : Prop where
  only : Only [.plx, .stw] s u
  ports : u.plx.ports = s.plx.ports
  stw : u.stw = (s.setFlight { f with stage := .waiting }).stw

theorem State.newSeq_numbered (s : State) (f : Flight) (short : Nat) : Numbered f s ((s.newSeq short).1.setFlight { f with stage := .waiting }) :=
  ⟨by simp [only_iff, State.newSeq, State.setFlight], rfl, rfl⟩

theorem State.newSeqs_numbered (s : State) (f : Flight) (short dst : Nat) :
    Numbered f s (((s.newSeq short).1.newSeq dst).1.setFlight { f with stage := .waiting }) :=
  ⟨by simp [only_iff, State.newSeq, State.setFlight], rfl, rfl⟩

/-- A downlink in the clear is queued on the node's link. -/
theorem State.lineDownlink_clear (s : State) (f : Flight) (short : Nat) (y : Node) (h : LineSendable s f y short)
    (hkey : beAt f.operand 4 4 = 0) :
    ∃ u fr, Numbered f s u ∧ LineAsked f short y fr ∧
      fr.payload = (if bit y.flags 2 then relayDown false short (s.nextLineSeq short) y.route else []) ++ f.operand.drop 16 ∧
      s.lineDownlink f short y = u.queueLine y.port y.slot fr := by
  obtain ⟨hfits, hknown, hbar⟩ := h
  unfold State.lineDownlink
  extract_lets o key level flags p routed limit dst secured r q head fr v a z
  rw [if_neg (show ¬ limit < p.length + secOverhead key level from Nat.not_lt.2 hfits),
    if_neg (show ¬ (!s.mayAddress dst) = true by rw [show s.mayAddress dst = true from hknown]; decide),
    if_neg (show ¬ s.sendBarred false key = true by rw [show s.sendBarred false key = false from hbar]; decide)]
  have hsec : secured = false := decide_eq_false (not_not.2 hkey)
  rw [if_neg (show ¬ secured = true by rw [hsec]; decide)]
  refine ⟨v, fr, ?_, ⟨rfl, rfl, rfl, rfl, rfl, rfl, rfl, rfl, rfl, rfl, rfl⟩, ?_, rfl⟩
  · unfold v q
    split
    · exact s.newSeqs_numbered f short dst
    · exact s.newSeq_numbered f short
  · show (if secured = true then head else head ++ p) = _
    rw [if_neg (show ¬ secured = true by rw [hsec]; decide)]
    unfold head
    rw [hsec]
    rfl

/-- A secured one goes to the cipher block. -/
theorem State.lineDownlink_sealed (s : State) (f : Flight) (short : Nat) (y : Node) (h : LineSendable s f y short)
    (hkey : beAt f.operand 4 4 ≠ 0) :
    ∃ u fr, Numbered f s u ∧ LineAsked f short y fr ∧
      fr.payload = (if bit y.flags 2 then relayDown true short (s.nextLineSeq short) y.route else []) ∧
      s.lineDownlink f short y = ({ u with plx := { u.plx with sealing := u.plx.sealing ++
        [{ ref := f.ref, port := y.port, slot := y.slot, frame := fr }] } } : State).offerJob
          (sealJob false (beAt f.operand 4 4) (secLevel (octet f.operand 8))
            (if bit y.flags 2 then be 2 0 ++ be 2 short ++ be 2 (s.nextLineSeq short) else be 2 short ++ be 2 0 ++ be 2 (s.nextLineSeq short))
            (f.operand.drop 16) (.line f.ref)) := by
  obtain ⟨hfits, hknown, hbar⟩ := h
  unfold State.lineDownlink
  extract_lets o key level flags p routed limit dst secured r q head fr v a z
  rw [if_neg (show ¬ limit < p.length + secOverhead key level from Nat.not_lt.2 hfits),
    if_neg (show ¬ (!s.mayAddress dst) = true by rw [show s.mayAddress dst = true from hknown]; decide),
    if_neg (show ¬ s.sendBarred false key = true by rw [show s.sendBarred false key = false from hbar]; decide)]
  have hsec : secured = true := decide_eq_true hkey
  rw [if_pos hsec]
  refine ⟨v, fr, ?_, ⟨rfl, rfl, rfl, rfl, rfl, rfl, rfl, rfl, rfl, rfl, rfl⟩, ?_, rfl⟩
  · unfold v q
    split
    · exact s.newSeqs_numbered f short dst
    · exact s.newSeq_numbered f short
  · show (if secured = true then head else head ++ p) = _
    rw [if_pos hsec]
    unfold head
    rw [hsec]
    rfl

theorem State.serveLineDownlink_reaches (s : State) (f : Flight) {y : Node} (hlong : 17 ≤ f.operand.length)
    (hlen : f.operand.length = 16 + beAt f.operand 10 2) (hprio : octet f.operand 3 ≤ 3)
    (hport : octet f.operand 2 = 0xFF ∨ octet f.operand 2 < 24) (hy : s.node? (beAt f.operand 0 2) = some y) :
    s.serveLineDownlink f =
      if (y.state ≠ 1 ∧ y.state ≠ 2) ∨ (octet f.operand 2 ≠ 0xFF ∧ octet f.operand 2 ≠ y.port) ∨ (s.lp y.port).service = false ∨
        s.linkOn y.port y.slot = false then s.finish f false Status.noRoute [] else s.lineDownlink f (beAt f.operand 0 2) y := by
  rw [State.serveLineDownlink]
  rw [if_neg (by omega), if_neg (by omega)]
  simp only [hy]

theorem State.linkOn_service {s : State} {n m : Nat} (h : s.linkOn n m = true) : (s.lp n).service = true := by
  simp only [State.linkOn, Bool.and_eq_true] at h
  exact h.1.2

theorem State.queueLine_queues (s : State) (n m : Nat) (f : LineFrame) : f ∈ ((s.queueLine n m f).ls n m).queue := by
  obtain ⟨⟨draw, ready, hls⟩, -⟩ := s.queueLineAt_does n m s.now f
  rw [State.queueLine, hls]
  exact (insertFrame_mem _ _).1

theorem State.contend_sealing (s : State) (n m at_ : Nat) : (s.contend n m at_).plx.sealing = s.plx.sealing := by
  unfold State.contend
  dsimp only
  split
  · rfl
  · split
    · rfl
    · rfl

theorem State.queueLine_sealing (s : State) (n m : Nat) (f : LineFrame) : (s.queueLine n m f).plx.sealing = s.plx.sealing := by
  unfold State.queueLine State.queueLineAt
  extract_lets x q s₁ s₂
  have h₂ : s₂.plx.sealing = s.plx.sealing := by simp [s₂, s₁, State.setLs, State.setLp]
  split
  · exact h₂
  · exact (s₂.contend_sealing n m s.now).trans h₂

/-- A secured frame whose job is complete is queued with its octets and its nonce. -/
theorem State.lineSealed_queues (s : State) {ref : Nat} {nonce out : List Byte} {z : Sealing}
    (hz : s.plx.sealing.find? (fun y => decide (y.ref = ref)) = some z) (hnode : (s.node? z.frame.node).isSome = true)
    (hlink : s.linkOn z.port z.slot = true) :
    let u := s.lineSealed ref Status.ok nonce out
    { z.frame with payload := z.frame.payload ++ out.drop 6, nonce := nonce } ∈ (u.ls z.port z.slot).queue ∧
      ∀ y ∈ u.plx.sealing, y.ref ≠ ref := by
  intro u
  have hu : u = State.queueLine { s with plx := { s.plx with sealing := s.plx.sealing.filter fun y => decide (y.ref ≠ ref) } }
      z.port z.slot { z.frame with payload := z.frame.payload ++ out.drop 6, nonce := nonce } := by
    unfold u State.lineSealed
    rw [hz]
    dsimp only
    rw [if_neg (by simp), if_neg]
    rintro (h | h | h)
    · have h : s.node? z.frame.node = none := Option.isNone_iff_eq_none.1 h
      rw [h] at hnode
      cases hnode
    · exact absurd (h.symm.trans hlink) (by simp)
    · exact absurd (h.symm.trans (State.linkOn_service hlink)) (by simp)
  rw [hu]
  refine ⟨State.queueLine_queues _ _ _ _, fun y hy => ?_⟩
  rw [State.queueLine_sealing] at hy
  simpa using (List.mem_filter.1 hy).2

/-! ## A frame whose cipher job completes -/

theorem RegsApart.after {P : Nat → Prop} {s u v : State} (k : RegsApart P u v) (h : RegsApart P s u) : RegsApart P s v := h.trans k

/-- The registers in which faults of memory are counted. -/
def faultAddr (a : Nat) : Prop := a = famAddr .fauCntLoglost 0 0 ∨ a = famAddr .fauCntUnmasked 0 0

/-- Those, and the ones in which the ends of cipher jobs are counted. -/
def jobAddr (a : Nat) : Prop := faultAddr a ∨ a = famAddr .cipCntJobs 0 0 ∨ a = famAddr .cipCntAuthfail 0 0

theorem State.foundRotten_apart (s : State) (block c : Nat) : RegsApart faultAddr s (s.foundRotten block c) := by
  unfold State.foundRotten
  extract_lets mem s₁ s₂
  have h₁ : RegsApart faultAddr s s₁ := .of_regs rfl
  have h₂ : RegsApart faultAddr s₁ s₂ := by
    refine RegsApart.trans (u := s₁.logFault 0x31 0x04 (memInstance c) 1 4 255 0 0 (c % 2 ^ 32)) ?_
      (.bumpBy _ F.fauCntUnmasked 0 1 (.inr rfl))
    unfold State.logFault State.logFaultAt
    split
    · exact .bumpBy _ F.fauCntLoglost 0 1 (.inl rfl)
    · exact .of_regs rfl
  exact (h₁.trans h₂).trans (.of_regs (State.raise_regs _ _ _ _ _))

theorem State.readRing_apart (s : State) (n : Nat) : RegsApart faultAddr s (s.readRing n) := by
  refine State.readRing_rel (RegsApart faultAddr) (fun s => .of_regs rfl) (fun s t u => .trans) (fun s a => ?_)
    (fun s d n => .of_regs (by simp)) (fun s y => .of_regs rfl) s n
  exact List.foldlRecOn (motive := fun u => RegsApart faultAddr s u) _ _ (.of_regs rfl) fun u hu c _ => hu.trans (u.foundRotten_apart _ _)

theorem State.completeJob_apart (s : State) (j : Job) (core status : Nat) (hring : j.ring = none) :
    RegsApart jobAddr s (s.completeJob j core status) := by
  rw [State.completeJob_eq _ _ _ _ hring]
  refine RegsApart.trans (u := s.jobEnded j core status) ?_ (.trans (.of_regs (by simp)) ((State.readRing_apart _ _).mono fun a ha => .inl ha))
  have hjobs (u : State) : RegsApart jobAddr u (u.bump F.cipCntJobs) := .bumpBy _ _ _ _ (.inr (.inl rfl))
  have hauth (u : State) : RegsApart jobAddr u (u.bump F.cipCntAuthfail) := .bumpBy _ _ _ _ (.inr (.inr rfl))
  unfold State.jobEnded
  split
  · exact (hauth _).after ((hjobs _).after (.of_regs rfl))
  · exact (hjobs _).after (.of_regs rfl)

theorem State.linkOn_apart {s u : State} (h : RegsApart jobAddr s u) (hplx : u.plx = s.plx) {n m : Nat} (hlink : s.linkOn n m = true) :
    u.linkOn n m = true := by
  obtain ⟨⟨⟨hn, hm⟩, hser⟩, hflag⟩ : ((n < 24 ∧ m < 64) ∧ (s.lp n).service = true) ∧ s.flag F.plxLsRegionEn n m = true := by
    simpa [State.linkOn] using hlink
  have hreg : u.reg F.plxLsRegionEn n m = s.reg F.plxLsRegionEn n m := by
    refine h.reg _ _ _ ?_
    unfold jobAddr faultAddr
    simp [famAddr, famInfo, F.plxLsRegionEn]
    omega
  have hlp : u.lp n = s.lp n := by rw [State.lp, hplx]; rfl
  simp only [State.linkOn, State.flag, hreg, hlp]
  exact hlink

/-- A job that secures a frame ends well. -/
theorem State.runJob_seals (s : State) {j : Job} {k : KeyRec} {src : List Byte} (h : Seals j k src) :
    s.runJob j = (s, 0, (jobOutput j k src).1) := by
  obtain ⟨hmode, hopen, hkey, hown, hbad, -⟩ := h
  have hok : (jobOutput j k src).2 = true := by
    unfold jobOutput
    simp [hmode, hopen]
  rw [State.runJob_own _ j hkey hown hbad, hok]
  rfl

/-- The frame of a job that completes is queued. -/
theorem sealJob_completes {s : State} (t core : Nat) {j : Job} {k : KeyRec} {src : List Byte} {z : Sealing} (hon : s.pow.on = true)
    (hfind : s.cip.jobs.find? (fun j => decide (j.stage = .running core)) = some j) (hseals : Seals j k src) (huse : j.use = .line z.ref)
    (hz : s.plx.sealing.find? (fun y => decide (y.ref = z.ref)) = some z) (hnode : (s.node? z.frame.node).isSome = true)
    (hlink : s.linkOn z.port z.slot = true) :
    Does (.cipherJobComplete t core) s (fun u =>
      { z.frame with payload := z.frame.payload ++ (jobOutput j k src).1.drop 6, nonce := j.nonce } ∈ (u.ls z.port z.slot).queue ∧
      ∀ y ∈ u.plx.sealing, y.ref ≠ z.ref) := by
  refine does_complete hon hfind ((s.tick t).runJob_seals hseals) ?_
  rw [State.jobUsed, huse]
  have hplx : ((s.tick t).completeJob j core 0).plx = s.plx := by simp
  have hapart := (s.tick t).completeJob_apart j core 0 hseals.2.2.2.2.2
  generalize (s.tick t).completeJob j core 0 = v at hplx hapart
  refine v.lineSealed_queues (by rw [hplx]; exact hz) (by rw [State.node?, hplx]; exact hnode) (State.linkOn_apart (s := s) ?_ hplx hlink)
  exact hapart.after (.of_regs rfl)

theorem taken_sendBarred (s : State) (m : Inbound) (opcode t : Nat) (x : Session) (at_ took : Nat) (air : Bool) (key : Nat) :
    (taken s m opcode t x at_ took).sendBarred air key = s.sendBarred air key := by
  have hcip : (taken s m opcode t x at_ took).cip = s.cip := by simp
  exact congrArg (fun c => State.sendBarred { s with cip := c } air key) hcip

theorem taken_linkOn (s : State) (m : Inbound) (opcode t : Nat) (x : Session) (at_ took n i : Nat) :
    (taken s m opcode t x at_ took).linkOn n i = s.linkOn n i := by
  simp [State.linkOn, State.lp]

/-- The command of a downlink waits for its result. -/
theorem numbered_waits {s u : State} {m : Inbound} {need : Nat} {x : Session} (h : Served s m need x) {opcode t at_ took : Nat}
    (hu : Numbered (flightOf s m opcode t .waiting) (taken s m opcode t x at_ took) u) :
    ∃ g ∈ u.stw.flights, g.ref = s.stw.nextRef ∧ g.stage = .waiting := by
  refine ⟨flightOf s m opcode t .waiting, ?_, rfl, rfl⟩
  rw [hu.stw]
  refine List.mem_map.2 ⟨flightOf s m opcode t .waiting, List.mem_of_find?_eq_some (served_flight h opcode t at_ took), ?_⟩
  rw [if_pos rfl]
  rfl

/-- Settles O13. -/
theorem linkCommandsAreServed : Obligations.LinkCommandsAreServed := by
  unfold Obligations.LinkCommandsAreServed
  intro t at_ took m x s h hmax
  have hplx (opcode : Nat) : (taken s m opcode t x at_ took).plx = s.plx := by simp
  have hnode (opcode k : Nat) : (taken s m opcode t x at_ took).node? k = s.node? k := by rw [State.node?, hplx]; rfl
  have hls (opcode n i : Nat) : (taken s m opcode t x at_ took).ls n i = s.ls n i := by rw [State.ls, State.lp, hplx]; rfl
  refine ⟨fun port start count hlen hport hstart hcount hone hle hp => ?_, fun short y hlen hshort hy hroute => ⟨?_, ?_⟩,
    fun hlen hno => ⟨?_, ?_⟩, ?_, fun core j k src z hfind hseals huse hz hn hlink => ?_, fun hlen hn hm pm hpm hentries => ?_,
    fun hlen hn => ?_⟩
  · subst hport hstart hcount
    intro all l hfit
    obtain ⟨next, hend, hnext, hserve⟩ := State.serveNodeList_answers (taken s m 0x301 t x at_ took) (flightOf s m 0x301 t .waiting)
      hlen hone hle hp
    rw [hplx] at hend hnext hserve
    refine handled_mono (served_replies h 0x301 t hserve rfl ?_) fun v ⟨hans, honly⟩ => ⟨_, next, hans, hend, hnext, honly⟩
    have hsame : (l.flatMap fun e => (taken s m 0x301 t x at_ took).nodeBytes e.1 e.2).length =
        (l.flatMap fun e => s.nodeBytes e.1 e.2).length := by
      simp only [List.length_flatMap, fun e : Nat × Node => State.nodeBytes_length_eq (taken s m 0x301 t x at_ took) s e.1 e.2]
    rw [List.length_append, List.length_append, be_length, State.open8s_length]
    show 16 + (2 + 2 + (l.flatMap fun e => (taken s m 0x301 t x at_ took).nodeBytes e.1 e.2).length) ≤ x.maxmsg
    rw [hsame]
    omega
  · subst hshort
    refine handled_mono (served_replies h 0x302 t (State.serveNodeGet_answers _ _ hlen (by rw [hnode]; exact hy)) rfl ?_)
      fun v ⟨hans, honly⟩ => ⟨⟨_, hans⟩, honly⟩
    rw [State.nodeBytes_length _ _ _ hroute]
    omega
  · subst hshort
    refine served_does h 0x303 t (State.serveNodeRemove_removes _ (flightOf s m 0x303 t .waiting) hlen (by rw [hnode]; exact hy)) ?_
    obtain ⟨hgone, hsome, hsame, hlin, htends⟩ := (taken s m 0x303 t x at_ took).removeNode_does (beAt m.operand 0 2) y
    rw [flightOf_operand]
    generalize hu : (taken s m 0x303 t x at_ took).removeNode (beAt m.operand 0 2) y = u at hgone hsome hsame hlin htends
    have hfin (k : Nat) : (u.finish (flightOf s m 0x303 t .waiting) false Status.ok []).node? k = u.node? k := by
      simp [State.node?]
    refine ⟨(htends.serving (served_serving h 0x303 t at_ took)).answered s 0x303 t Status.ok [] (by simp; omega), ?_, fun k hk => ?_,
      fun hun k hk => ?_, ?_⟩
    · rw [hfin, hgone]
    · rw [hfin, hsome k hk, hnode]
    · rw [hfin, hsame (fun n i => by rw [hls]; exact unnamed_of_ports hun n i) k hk, hnode]
    · simpa using hlin
  · exact handled_mono (served_replies h 0x302 t (State.serveNodeGet_refuses _ _ hlen (by rw [hnode]; exact hno)) rfl (by simp; omega))
      fun v hv => hv.1
  · exact handled_mono (served_replies h 0x303 t (State.serveNodeRemove_refuses _ _ hlen (by rw [hnode]; exact hno)) rfl (by simp; omega))
      fun v hv => hv.1
  · intro short key y hlong hlen hprio hshort hkey hy hport routed dst level limit seq p waits asAsked
    subst hshort hkey
    set f := flightOf s m 0x304 t .waiting with hf
    set w := taken s m 0x304 t x at_ took with hw
    have hreach := State.serveLineDownlink_reaches w f hlong hlen hprio hport (by rw [hnode]; exact hy)
    have hlink : w.linkOn y.port y.slot = s.linkOn y.port y.slot := taken_linkOn _ _ _ _ _ _ _ _ _
    have hbarred : w.sendBarred false (beAt m.operand 4 4) = s.sendBarred false (beAt m.operand 4 4) := taken_sendBarred _ _ _ _ _ _ _ _ _
    have hmay (k : Nat) : w.mayAddress k = s.mayAddress k := by rw [State.mayAddress, State.mayAddress, hnode]
    have hseq : w.nextLineSeq (beAt m.operand 0 2) = seq := by rw [State.nextLineSeq, hplx]
    refine ⟨fun hno => ?_, fun hstate hown hon => ?_⟩
    · rw [if_pos (by rw [hlink]; exact hno.imp id (Or.imp id .inr))] at hreach
      exact handled_mono (served_replies h 0x304 t hreach rfl (by simp; omega)) fun v hv => hv.1
    · have hser := State.linkOn_service (hlink.trans hon)
      rw [hlink, hser, hon, if_neg] at hreach
      swap
      · rintro (hst | hport | hno | hno)
        · exact hstate.elim hst.1 hst.2
        · exact hown.elim hport.1 hport.2
        · cases hno
        · cases hno
      refine ⟨fun hbig => ?_, fun hfits hknown => ⟨fun hzero => ?_, fun hbar => ?_, fun hkey hbar => ?_⟩⟩
      · have hline : w.lineDownlink f (beAt m.operand 0 2) y = w.finish f false Status.badLength [] := if_pos hbig
        exact handled_mono (served_replies h 0x304 t (hreach.trans hline) rfl (by simp; omega)) fun v hv => hv.1
      · have hsend : LineSendable w f y (beAt m.operand 0 2) :=
          ⟨hfits, (hmay dst).trans hknown, hbarred.trans (if_pos hzero)⟩
        obtain ⟨u, fr, hu, hasked, hpay, heq⟩ := w.lineDownlink_clear f _ y hsend hzero
        refine served_does h 0x304 t (hreach.trans heq) ⟨fr, State.queueLine_queues _ _ _ _, ?_, ?_, ?_⟩
        · exact ⟨hasked.job, hasked.node, hasked.dst, hasked.typ, hasked.prio, hasked.ackReq, hasked.crc32, hasked.tries, hasked.sec,
            hasked.expires, hasked.done⟩
        · rw [hpay, hseq]
          rfl
        · have hwaits := numbered_waits h hu
          simpa [waits] using hwaits
      · have hline : w.lineDownlink f (beAt m.operand 0 2) y = w.finish f false Status.keyErased [] := by
          refine (if_neg (Nat.not_lt.2 hfits)).trans ((if_neg ?_).trans (if_pos (hbarred.trans hbar)))
          rw [(hmay dst).trans hknown]
          decide
        exact handled_mono (served_replies h 0x304 t (hreach.trans hline) rfl (by simp; omega)) fun v hv => hv.1
      · have hsend : LineSendable w f y (beAt m.operand 0 2) := ⟨hfits, (hmay dst).trans hknown, hbarred.trans hbar⟩
        obtain ⟨u, fr, hu, hasked, hpay, heq⟩ := w.lineDownlink_sealed f _ y hsend hkey
        refine served_does h 0x304 t (hreach.trans heq) ⟨{ ref := f.ref, port := y.port, slot := y.slot, frame := fr }, ?_, rfl, rfl, rfl,
          ?_, ?_, ?_, ?_⟩
        · simp
        · exact ⟨hasked.job, hasked.node, hasked.dst, hasked.typ, hasked.prio, hasked.ackReq, hasked.crc32, hasked.tries, hasked.sec,
            hasked.expires, hasked.done⟩
        · exact hpay.trans (by rw [hseq])
        · rw [← hseq]
          exact State.offerJob_offered _ _
        · have hwaits := numbered_waits h hu
          simpa [waits] using hwaits
  · exact sealJob_completes t core h.on hfind hseals huse hz hn hlink
  · refine handled_mono (served_replies h 0x305 t (State.serveMapRead_answers _ _ (p := pm) hlen hn hm (by rw [hls]; exact hpm)) rfl ?_)
      fun v ⟨hans, honly⟩ => ⟨⟨(taken s m 0x305 t x at_ took).open8s 960 2, by simp, ?_⟩, honly⟩
    · rw [List.length_append, length_flatMap_const _ _ 2 fun e => be_length 2 e, hentries]
      simp
      omega
    · rw [hls] at hans
      exact hans
  · refine handled_mono (served_replies h 0x306 t (State.servePortStats_answers _ _ hlen hn) rfl ?_)
      fun v ⟨hans, honly⟩ => ⟨?_, honly⟩
    · rw [length_flatMap_const _ _ 4 fun e => be_length 4 _]
      simp [lineCounters]
      omega
    · simpa using hans

end Sys2Proof.Machine
end

section
/-!
SUPPORT. The AIR commands; statement O14.
-/

namespace Sys2Proof.Machine

-- Proofs one after another: the text is long, and is checked in bounded memory.
set_option Elab.async false

open Sys2Proof Sys2Proof.Safety

/-! ## Downlinks of the air in line -/

/-- From `s` to `u` no frame leaves a transmit queue, and the sensors' entries are as they were. -/
structure FramesOnly (s u : State) : Prop where
  frames : FramesStay s u
  sensors : u.air.sensors = s.air.sensors

namespace FramesOnly

variable {s u v : State}

theorem of_parts (heth : u.eth = s.eth) (hsensors : u.air.sensors = s.air.sensors) : FramesOnly s u := ⟨.of_eth heth, hsensors⟩

theorem trans (h : FramesOnly s u) (k : FramesOnly u v) : FramesOnly s v := ⟨h.frames.trans k.frames, k.sensors.trans h.sensors⟩

theorem after (k : FramesOnly u v) (h : FramesOnly s u) : FramesOnly s v := h.trans k

end FramesOnly

theorem FramesStay.after {s u v : State} (k : FramesStay u v) (h : FramesStay s u) : FramesStay s v := h.trans k

theorem State.answer_frames (s : State) (f : Flight) (d : Bool) (status : Nat) (o : List Byte) (e : Bool) :
    FramesStay s (s.answer f d status o e) := by
  unfold State.answer
  extract_lets w v u
  split
  · exact .of_eth rfl
  next x _ =>
    exact (State.queueFrame_stay _ _ _ _ _).after (.of_eth rfl)

theorem State.finishRef_frames (s : State) (ref status : Nat) (o : List Byte) : FramesStay s (s.finishRef ref status o) := by
  unfold State.finishRef
  split
  · unfold State.finish
    split
    · exact .of_eth rfl
    · exact s.answer_frames _ _ _ _ _
  · exact .of_eth rfl

theorem State.airResult_frames (s : State) (d : AirDown) (status : Nat) (result : Option Nat) : FramesOnly s (s.airResult d status result) := by
  unfold State.airResult
  split
  · exact ⟨s.finishRef_frames _ _ _, by simp⟩
  · exact .of_parts rfl rfl

theorem State.dutyCheck_sensors (s : State) (n m us : Nat) (ack : Bool) (waiter : Option Nat) :
    (s.dutyCheck n m us ack waiter).1.air.sensors = s.air.sensors := by
  unfold State.dutyCheck
  dsimp only
  (repeat' split) <;> rfl

theorem State.setPlan_frames (s : State) (d : AirDown) (p : AirPlan) : FramesOnly s (s.setPlan d p).1 := by
  refine .of_parts (by simp) ?_
  unfold State.setPlan
  dsimp only
  split
  · exact s.dutyCheck_sensors _ _ _ _ _
  · rfl

theorem State.nextDown_frames (s : State) (ext n : Nat) : FramesOnly s (s.nextDown ext n) := by
  induction n generalizing s with
  | zero => exact .of_parts rfl rfl
  | succ n ih =>
    simp only [State.nextDown]
    split
    · exact .of_parts rfl rfl
    next d _ _ =>
      have hdrop (u : State) (status : Nat) : FramesOnly u (((u.dropDown d.id).airResult d status none).nextDown ext n) :=
        (ih _).after ((State.airResult_frames _ _ _ _).after (.of_parts rfl rfl))
      split
      · exact .of_parts rfl rfl
      split
      next p _ =>
        split
        · exact (s.setPlan_frames d p).trans (hdrop _ _)
        · exact s.setPlan_frames d p
      next => exact hdrop s _

/-- The downlinks of a sensor that stand in line. -/
def State.inLine (s : State) (ext : Nat) : List AirDown := s.air.downs.filter fun d => decide (d.ext = ext) && d.inLine && !d.done

theorem State.nextDown_none {s : State} {ext : Nat} (h : s.inLine ext = []) (n : Nat) : s.nextDown ext n = s := by
  cases n with
  | zero => rfl
  | succ n =>
    simp only [State.nextDown]
    rw [show s.air.downs.filter _ = [] from h]

theorem State.nextDown_waits {s : State} {ext : Nat} {d : AirDown} {l : List AirDown} (h : s.inLine ext = d :: l) (hd : d.stage ≠ .queued)
    (n : Nat) : s.nextDown ext n = s := by
  cases n with
  | zero => rfl
  | succ n =>
    simp only [State.nextDown]
    rw [show s.air.downs.filter _ = d :: l from h]
    exact if_pos hd

/-- A plan that needs no duty check is taken as it is. -/
theorem State.nextDown_plans {s : State} {ext : Nat} {d : AirDown} {l : List AirDown} (h : s.inLine ext = d :: l) (hd : d.stage = .queued)
    {p : AirPlan} (hp : s.planFor d = some p) (hway : p.way ≠ 4) (n : Nat) :
    s.nextDown ext (n + 1) = s.setDown { d with stage := .planned p } := by
  simp only [State.nextDown]
  rw [show s.air.downs.filter _ = d :: l from h]
  dsimp only
  rw [if_neg (by simp [hd]), hp]
  simp only [State.setPlan, if_neg hway]
  rfl

/-- One for an open window, on a channel without a duty account, takes the window. -/
theorem State.nextDown_window {s : State} {ext : Nat} {d : AirDown} {l : List AirDown} (h : s.inLine ext = d :: l) (hd : d.stage = .queued)
    {p : AirPlan} (hp : s.planFor d = some p) (hway : p.way = 4) (hduty : s.flag F.airDutyCfgEn (s.acctOf d.port d.chan) = false) (n : Nat) :
    s.nextDown ext (n + 1) = State.setDown { s with air := { s.air with windows := s.air.windows.map fun w =>
      if w.ext = d.ext then { w with used := true } else w } } { d with stage := .planned { p with checked := true, writing := false } } := by
  simp only [State.nextDown]
  rw [show s.air.downs.filter _ = d :: l from h]
  dsimp only
  rw [if_neg (by simp [hd]), hp]
  simp only [State.setPlan, if_pos hway, State.dutyCheck, hduty, Bool.not_false, if_true]
  rfl

theorem State.nextDown_drops {s : State} {ext : Nat} {d : AirDown} {l : List AirDown} (h : s.inLine ext = d :: l) (hd : d.stage = .queued)
    (hp : s.planFor d = none) (n : Nat) :
    s.nextDown ext (n + 1) = ((s.dropDown d.id).airResult d Status.noRoute none).nextDown ext n := by
  simp only [State.nextDown]
  rw [show s.air.downs.filter _ = d :: l from h]
  dsimp only
  rw [if_neg (by simp [hd]), hp]

/-! ## The plan of a downlink (10 R227) -/

theorem State.planFor_host {s : State} {d : AirDown} {y : Sensor} (hen : s.flag F.airChCfgEn d.port d.chan = true) (hline : d.inLine = true)
    (hy : s.entryOf d = some y) :
    s.planFor d =
      if y.wakeMs = 0 then some (s.planNow d 0 (s.chanPre d.port d.chan) 0)
      else match d.method with
        | 1 => s.longPlan d y
        | 2 => some (s.trainPlan d y)
        | 3 => s.phasePlan d y
        | _ => match (s.openWindow? d.ext).bind fun w => s.windowPlan d w with
          | some p => some p
          | none => some (s.leastPlan d y) := by
  unfold State.planFor
  rw [if_neg (by simp [hen])]
  cases hjob : d.job with
  | host ref => simp only [hy] <;> rfl
  | disassoc => simp only [hy] <;> rfl
  | assoc => simp [AirDown.inLine, hjob] at hline
  | digest l => simp [AirDown.inLine, hjob] at hline
  | beacon => simp [AirDown.inLine, hjob] at hline

theorem State.leastPlan_cases (s : State) (d : AirDown) (x : Sensor) :
    let a := s.leastPlan d x
    (a = s.trainPlan d x ∨ s.longPlan d x = some a ∨ s.phasePlan d x = some a) ∧ s.planNs d a ≤ s.planNs d (s.trainPlan d x) ∧
      (∀ p, s.longPlan d x = some p → s.planNs d a ≤ s.planNs d p) ∧ (∀ p, s.phasePlan d x = some p → s.planNs d a ≤ s.planNs d p) := by
  unfold State.leastPlan
  cases hl : s.longPlan d x with
  | none =>
    cases hp : s.phasePlan d x with
    | none => simp
    | some p =>
      dsimp only
      split
      next h => exact ⟨.inr (.inr rfl), h, by simp, by simp⟩
      next h => exact ⟨.inl rfl, le_rfl, by simp, by simp; omega⟩
  | some l =>
    cases hp : s.phasePlan d x with
    | none =>
      dsimp only
      split
      next h => exact ⟨.inr (.inl rfl), h, by simp, by simp⟩
      next h => exact ⟨.inl rfl, le_rfl, by simp; omega, by simp⟩
    | some p =>
      dsimp only
      split
      next h =>
        split
        next hp => exact ⟨.inr (.inr rfl), by omega, by simp; omega, by simp⟩
        next hp => exact ⟨.inr (.inl rfl), by omega, by simp, by simp; omega⟩
      next h =>
        split
        next hp => exact ⟨.inr (.inr rfl), by omega, by simp; omega, by simp⟩
        next hp => exact ⟨.inl rfl, by omega, by simp; omega, by simp; omega⟩

theorem State.longPlan_way {s : State} {d : AirDown} {x : Sensor} {p : AirPlan} (h : s.longPlan d x = some p) : p.way = 1 := by
  unfold State.longPlan at h
  dsimp only at h
  split at h
  · cases h
    rfl
  · cases h

theorem State.phasePlan_way {s : State} {d : AirDown} {x : Sensor} {p : AirPlan} (h : s.phasePlan d x = some p) : p.way = 3 := by
  unfold State.phasePlan at h
  dsimp only at h
  (repeat' split at h) <;> cases h
  rfl

theorem State.windowPlan_way {s : State} {d : AirDown} {w : AirWindow} {p : AirPlan} (h : s.windowPlan d w = some p) : p.way = 4 := by
  unfold State.windowPlan at h
  dsimp only at h
  split at h
  · cases h
    rfl
  · cases h

theorem State.leastPlan_way (s : State) (d : AirDown) (x : Sensor) : (s.leastPlan d x).way ≠ 4 := by
  rcases (s.leastPlan_cases d x).1 with h | h | h
  · rw [h]
    exact (by decide : (2 : Nat) ≠ 4)
  · rw [State.longPlan_way h]
    decide
  · rw [State.phasePlan_way h]
    decide

/-! ## A downlink of the air (10 R227) -/

/-- The downlink that a command asks for, before its octets are secured. -/
def State.downOf (s : State) (f : Flight) (short : Nat) (y : Sensor) : AirDown :=
  let ack := bit (octet f.operand 9) 0
  let key := beAt f.operand 4 4
  let head := s.downHead 1 ack (decide (key ≠ 0)) s.air.seq (le 2 short)
  { AirDown.own (.host f.ref) short y.ext y.port y.chan s.air.seq ack (if key = 0 then head ++ f.operand.drop 16 else head) with
    method := octet f.operand 3, expires := some (f.time + 30 * sec), id := s.air.nextId }

/-- The state in which a downlink has joined those of the air, and its command waits for it. -/
def State.downAdded (s : State) (f : Flight) (d : AirDown) : State := (s.airSeq.1.setFlight { f with stage := .waiting }).addDown d

/-- A downlink's octets have room in a frame of its channel. -/
def State.downFits (s : State) (f : Flight) (y : Sensor) : Prop :=
  9 + secOverhead (beAt f.operand 4 4) (secLevel (octet f.operand 8)) + (f.operand.drop 16).length + s.fcsLen y.port y.chan ≤
    s.reg F.airChLimMaxlen y.port y.chan

theorem State.airDownlink_clear (s : State) (f : Flight) (short : Nat) (y : Sensor) (hfits : s.downFits f y) (hkey : beAt f.operand 4 4 = 0) :
    s.airDownlink f short y = (s.downAdded f (s.downOf f short y)).nextDown y.ext downFuel := by
  unfold State.airDownlink
  extract_lets o key level p ack beyond q head own d id u
  rw [if_neg (show ¬ s.reg F.airChLimMaxlen y.port y.chan < 9 + beyond + p.length + s.fcsLen y.port y.chan from Nat.not_lt.2 hfits),
    if_neg (show ¬ s.sendBarred true key = true by rw [State.sendBarred, if_pos hkey]; decide), if_pos hkey]
  have hd : d = { s.downOf f short y with id := 0 } := by
    simp only [d, own, State.downOf, key] at hkey ⊢
    rw [if_pos hkey, if_pos hkey, if_pos hkey]
    rfl
  have hu : u = s.downAdded f (s.downOf f short y) := by
    simp only [u, hd]
    rfl
  rw [hu]

theorem State.airDownlink_sealed (s : State) (f : Flight) (short : Nat) (y : Sensor) (hfits : s.downFits f y) (hkey : beAt f.operand 4 4 ≠ 0)
    (hbar : s.sendBarred true (beAt f.operand 4 4) = false) :
    s.airDownlink f short y = (s.downAdded f { s.downOf f short y with stage := .sealing }).offerJob
      (sealJob true (beAt f.operand 4 4) (secLevel (octet f.operand 8))
        (s.downHead 1 (bit (octet f.operand 9) 0) (decide (beAt f.operand 4 4 ≠ 0)) s.air.seq (le 2 short)) (f.operand.drop 16)
        (.air s.air.nextId)) := by
  unfold State.airDownlink
  extract_lets o key level p ack beyond q head own d id u
  rw [if_neg (show ¬ s.reg F.airChLimMaxlen y.port y.chan < 9 + beyond + p.length + s.fcsLen y.port y.chan from Nat.not_lt.2 hfits),
    if_neg (show ¬ s.sendBarred true key = true by rw [show s.sendBarred true key = false from hbar]; decide), if_neg hkey]
  have hd : d = { s.downOf f short y with id := 0, stage := .sealing } := by
    simp only [d, own, State.downOf, key] at hkey ⊢
    rw [if_neg hkey, if_neg hkey, if_neg hkey]
    rfl
  have hu : u = s.downAdded f { s.downOf f short y with stage := .sealing } := by
    simp only [u, hd]
    rfl
  rw [hu]
  rfl

theorem State.serveAirDownlink_reaches (s : State) (f : Flight) {y : Sensor} (hlong : 17 ≤ f.operand.length)
    (hlen : f.operand.length = 16 + beAt f.operand 10 2) (hmethod : octet f.operand 3 ≤ 3)
    (hport : octet f.operand 2 = 0xFF ∨ octet f.operand 2 < 16) (hy : s.sensor? (beAt f.operand 0 2) = some y) :
    s.serveAirDownlink f = if y.state ≠ 1 ∨ (octet f.operand 2 ≠ 0xFF ∧ octet f.operand 2 ≠ y.port) then s.finish f false Status.noRoute []
      else s.airDownlink f (beAt f.operand 0 2) y := by
  rw [State.serveAirDownlink]
  rw [if_neg (by omega), if_neg (by omega)]
  simp only [hy]

/-- Two states have the clock, the registers and what the air block's plans are made on. -/
structure SameRadio (w u : State) : Prop where
  now : u.now = w.now
  regs : u.regs = w.regs
  windows : u.air.windows = w.air.windows
  sensors : u.air.sensors = w.air.sensors

namespace SameRadio

variable {w u : State} (h : SameRadio w u)

include h

theorem reg (x : FRef) (i j : Nat) : u.reg x i j = w.reg x i j := reg_of_regs h.regs _ _ _

theorem acctOf (n m : Nat) : u.acctOf n m = w.acctOf n m := by rw [State.acctOf, State.acctOf, h.regs]

theorem listenNs (n m : Nat) : u.listenNs n m = w.listenNs n m := by simp [State.listenNs, State.flag, h.acctOf, h.reg]

theorem chanPre (n m : Nat) : u.chanPre n m = w.chanPre n m := h.reg _ _ _

theorem octetsFor (n m k : Nat) : u.octetsFor n m k = w.octetsFor n m k := by
  simp only [State.octetsFor, State.airBits, State.airRate, h.reg]

theorem ppdu (n m pre len : Nat) : u.ppdu n m pre len = w.ppdu n m pre len := by
  simp only [State.ppdu, State.airNs, State.airBits, State.airRate, h.reg]

theorem downLen (d : AirDown) : u.downLen d = w.downLen d := by
  simp only [State.downLen, State.fcsLen, State.flag, h.reg]
  rfl

theorem wakeMargin : u.wakeMargin = w.wakeMargin := by simp only [State.wakeMargin, h.reg]

theorem planNow (d : AirDown) (way pre left : Nat) : u.planNow d way pre left = w.planNow d way pre left := by
  simp only [State.planNow, h.listenNs, h.now]

theorem longPlan (d : AirDown) (x : Sensor) : u.longPlan d x = w.longPlan d x := by
  simp only [State.longPlan, h.octetsFor, h.wakeMargin, h.planNow]

theorem trainPlan (d : AirDown) (x : Sensor) : u.trainPlan d x = w.trainPlan d x := by
  simp only [State.trainPlan, h.chanPre, h.ppdu, h.downLen, h.planNow, State.trainGap, State.ackPre, h.reg]

theorem uncertainty (x : Sensor) (t : Int) : u.uncertainty x t = w.uncertainty x t := by
  simp only [State.uncertainty, State.jit, h.reg]

theorem phaseAt (x : Sensor) (t : Int) (n k : Nat) : u.phaseAt x t n k = w.phaseAt x t n k := by
  induction n generalizing k with
  | zero => rfl
  | succ n ih => simp only [State.phaseAt, h.uncertainty, h.wakeMargin, ih]

theorem phasePlan (d : AirDown) (x : Sensor) : u.phasePlan d x = w.phasePlan d x := by
  simp only [State.phasePlan, h.phaseAt, h.listenNs, h.now, h.uncertainty, h.chanPre, h.octetsFor, h.wakeMargin]

theorem windowPlan (d : AirDown) (a : AirWindow) : u.windowPlan d a = w.windowPlan d a := by
  simp only [State.windowPlan, h.listenNs, h.now, h.chanPre, h.ppdu, h.downLen, State.pendDelay, h.reg]
  rfl

theorem openWindow? (ext : Nat) : u.openWindow? ext = w.openWindow? ext := by rw [State.openWindow?, State.openWindow?, h.windows]

theorem planNs (d : AirDown) (p : AirPlan) : u.planNs d p = w.planNs d p := by simp only [State.planNs, h.ppdu, h.downLen]

theorem leastPlan (d : AirDown) (x : Sensor) : u.leastPlan d x = w.leastPlan d x := by
  simp only [State.leastPlan, h.trainPlan, h.longPlan, h.phasePlan, h.planNs]

theorem entryOf (d : AirDown) : u.entryOf d = w.entryOf d := by
  simp only [State.entryOf, State.sensor?, h.sensors]

end SameRadio

theorem State.downAdded_radio (s : State) (f : Flight) (d : AirDown) : SameRadio s (s.downAdded f d) := ⟨rfl, rfl, rfl, rfl⟩

theorem taken_radio (s : State) (m : Inbound) (opcode t : Nat) (x : Session) (at_ took : Nat) :
    SameRadio ((s.tick t).tick at_) (taken s m opcode t x at_ took) := by
  refine ⟨?_, by simp, by simp, by simp⟩
  rw [taken_now]
  rfl

theorem State.downAdded_inLine {s : State} {f : Flight} {d : AirDown} (hline : d.inLine = true) (hdone : d.done = false)
    (hid : d.id = s.air.nextId) : (s.downAdded f d).inLine d.ext = s.inLine d.ext ++ [d] := by
  have hdowns : (s.downAdded f d).air.downs = s.air.downs ++ [d] := by
    show s.air.downs ++ [{ d with id := s.air.nextId }] = _
    rw [← hid]
  simp [State.inLine, hdowns, List.filter_append, hline, hdone]

theorem SameRadio.trans {s u v : State} (h : SameRadio s u) (k : SameRadio u v) : SameRadio s v :=
  ⟨k.now.trans h.now, k.regs.trans h.regs, k.windows.trans h.windows, k.sensors.trans h.sensors⟩

/-! ## A secured downlink whose job completes -/

theorem wordBits_top (v : Word) : wordBits v 31 31 = 1 ↔ 2 ^ 31 ≤ v.toNat := by
  have := v.isLt
  simp only [wordBits, bits, Nat.shiftRight_eq_div_pow]
  omega

theorem wordBits_all (v : Word) : wordBits v 31 0 = v.toNat := by
  have := v.isLt
  simp only [wordBits, bits, Nat.shiftRight_eq_div_pow]
  omega

/-- A count of cipher jobs, which stops at its largest value, leaves the top bit of every word as it is where that is 1: of a channel
whose number is beyond the device's it may be the very word. -/
theorem State.bumpJobs_flag (s : State) (n m : Nat) (h : s.flag F.airChCfgEn n m = true) :
    (s.bump F.cipCntJobs).flag F.airChCfgEn n m = true := by
  have hreg : wordBits (regWord s.regs .airChCfg n m) 31 31 = 1 := of_decide_eq_true h
  by_cases ha : famAddr .airChCfg n m = famAddr .cipCntJobs 0 0
  · have hinit : famInit .airChCfg n = 0 := rfl
    have hcount : famInit .cipCntJobs 0 = 0 := rfl
    have hword : regWord s.regs .cipCntJobs 0 0 = regWord s.regs .airChCfg n m := by rw [regWord, regWord, ha, hinit, hcount]
    have hnew : regWord (s.bump F.cipCntJobs).regs .airChCfg n m = regWord (s.bump F.cipCntJobs).regs .cipCntJobs 0 0 := by
      rw [regWord, regWord, ha, hinit, hcount]
    have hbump := s.reg_bump F.cipCntJobs 0 (by decide) (by decide)
    simp only [State.reg, Regs.get, F.cipCntJobs, wordBits_all] at hbump
    rw [hword] at hbump
    rw [wordBits_top] at hreg
    have := (regWord s.regs .airChCfg n m).isLt
    have hbig : 2 ^ 31 ≤ (regWord (s.bump F.cipCntJobs).regs .airChCfg n m).toNat := by
      rw [hnew]
      exact (le_min (by omega) (by decide)).trans_eq hbump.symm
    exact decide_eq_true ((wordBits_top _).2 hbig)
  · rw [State.flag, State.reg_bump_ne s F.cipCntJobs F.airChCfgEn 0 n m ha]
    exact h

theorem State.completeJob_chan (s : State) (j : Job) (core n m : Nat) (hring : j.ring = none) (h : s.flag F.airChCfgEn n m = true) :
    (s.completeJob j core 0).flag F.airChCfgEn n m = true := by
  rw [State.completeJob_eq _ _ _ _ hring]
  have hring := ((s.jobEnded j core 0).admitJobs).readRing_apart 256
  have hfar : ¬ faultAddr (famAddr .airChCfg n m) := by
    have := le_famAddr .airChCfg n m
    simp only [famInfo] at this
    simp [faultAddr, famAddr, famInfo]
    omega
  have hadmit : (s.jobEnded j core 0).admitJobs.reg F.airChCfgEn n m = (s.jobEnded j core 0).reg F.airChCfgEn n m := reg_of_regs (by simp) _ _ _
  rw [State.flag, hring.reg _ _ _ hfar, hadmit]
  exact State.bumpJobs_flag { s with cip := { s.cip with
    jobs := s.cip.jobs.filter (fun x => decide (x.id ≠ j.id)), lastDone := s.completion j core 0 } } n m h

/-- A secured downlink that is first in its sensor's line is planned when its job completes. -/
theorem State.airSealed_plans (s : State) (d : AirDown) (y : Sensor) (nonce out : List Byte) (hd : d ∈ s.air.downs)
    (hone : ∀ e ∈ s.air.downs, e.id = d.id → e = d) (hext : (s.air.downs.filter fun e => decide (e.ext = d.ext)) = [d])
    (hline : d.inLine = true) (hdone : d.done = false) (hy : s.entryOf d = some y) (hwake : y.wakeMs = 0)
    (hen : s.flag F.airChCfgEn d.port d.chan = true) :
    ∃ x, x.way = 0 ∧ { d with mac := out, nonce := nonce, stage := .planned x } ∈ (s.airSealed d.id Status.ok nonce out).air.downs := by
  set e : AirDown := { d with mac := out, nonce := nonce, stage := .queued } with he
  have hfind : s.down? d.id = some d := by
    cases hf : s.down? d.id with
    | none => exact absurd (List.find?_eq_none.1 hf d hd) (by simp)
    | some g => rw [hone g (List.mem_of_find?_eq_some hf) (by simpa using List.find?_some hf)]
  have hmine : (s.setDown e).inLine d.ext = [e] := by
    have hswap : ∀ g ∈ s.air.downs, (decide ((if g.id = e.id then e else g).ext = d.ext) && (if g.id = e.id then e else g).inLine &&
        !(if g.id = e.id then e else g).done) = ((g.inLine && !g.done) && decide (g.ext = d.ext)) := by
      intro g hg
      split
      next hid =>
        rw [hone g hg hid]
        simp [e, AirDown.inLine]
      next => rw [Bool.and_assoc, Bool.and_comm]
    show (s.air.downs.map fun g => if g.id = e.id then e else g).filter _ = _
    rw [List.filter_map]
    have hfilter : s.air.downs.filter (((fun d' : AirDown => decide (d'.ext = d.ext) && d'.inLine && !d'.done)) ∘
        fun g => if g.id = e.id then e else g) = [d] := by
      rw [List.filter_congr (q := fun g => (g.inLine && !g.done) && decide (g.ext = d.ext)) hswap]
      rw [← List.filter_filter, hext]
      simp [hline, hdone]
    rw [hfilter]
    exact congrArg (fun g => [g]) (if_pos rfl)
  have hplan : (s.setDown e).planFor e = some ((s.setDown e).planNow e 0 ((s.setDown e).chanPre e.port e.chan) 0) := by
    exact (State.planFor_host (s := s.setDown e) (d := e) hen hline hy).trans (if_pos hwake)
  have hsealed : s.airSealed d.id Status.ok nonce out = (s.setDown e).nextDown d.ext (4095 + 1) := by
    unfold State.airSealed
    rw [hfind]
    rfl
  rw [hsealed, State.nextDown_plans hmine rfl hplan (by simp [State.planNow])]
  refine ⟨_, rfl, List.mem_map.2 ⟨e, List.mem_map.2 ⟨d, hd, if_pos rfl⟩, if_pos rfl⟩⟩

/-! ## The AIR commands -/

theorem State.serveSensorGet_answers (s : State) (f : Flight) {y : Sensor} (hlen : f.operand.length = 16) (hkind : octet f.operand 0 = 0)
    (hy : s.sensor? (beAt f.operand 14 2) = some y) :
    s.serveSensorGet f = s.finish f false Status.ok (s.sensorBytes (beAt f.operand 14 2) y) := by
  unfold State.serveSensorGet
  extract_lets o hit
  have hhit : hit = some (beAt f.operand 14 2, y) := by
    unfold hit
    rw [if_pos hkind, show s.sensor? (beAt o 14 2) = some y from hy]
    rfl
  rw [if_neg (show ¬(o.length ≠ 16 ∨ 1 < octet o 0) by simp [o, hlen, hkind]), hhit]

theorem State.sensorBytes_length (s : State) (short : Nat) (x : Sensor) : (s.sensorBytes short x).length = 64 := by
  unfold State.sensorBytes
  extract_lets flags
  clear_value flags
  simp only [List.length_append, be_length, State.open8s_length]

theorem State.serveDutyRead_answers (s : State) (f : Flight) (hlen : f.operand.length = 1) (ha : octet f.operand 0 < 16) :
    s.serveDutyRead f = s.finish f false Status.ok (be 4 (s.dutyLimit (octet f.operand 0)) ++ be 4 (s.dutyWindow (octet f.operand 0)) ++
      be 4 (s.spent (octet f.operand 0)) ++ be 4 (s.dutyReserve (octet f.operand 0))) := by
  rw [State.serveDutyRead]
  rw [if_neg (by omega), if_neg (by omega)]

theorem State.servePendingSet_sets (s : State) (f : Flight) (hlen : f.operand.length = 3) (hv : octet f.operand 2 ≤ 1) :
    ∃ l, (∀ k, k ∈ l ↔ if k = beAt f.operand 0 2 then octet f.operand 2 = 1 else k ∈ s.air.host) ∧
      s.servePendingSet f = State.finish { s with air := { s.air with host := l } } f false Status.ok [] := by
  rw [State.servePendingSet]
  rw [if_neg (by omega)]
  refine ⟨_, fun k => ?_, rfl⟩
  by_cases hone : octet f.operand 2 = 1 <;> by_cases hk : k = beAt f.operand 0 2 <;> simp [hone, hk]

theorem State.serveDigestSet_sets (s : State) (f : Flight) {y : Sensor} (hlen : f.operand.length = 3) (hv : octet f.operand 2 ≤ 1)
    (hy : s.sensor? (beAt f.operand 0 2) = some y) :
    s.serveDigestSet f =
      (s.setSensor (beAt f.operand 0 2) (some { y with digest := decide (octet f.operand 2 = 1) })).finish f false Status.ok [] := by
  rw [State.serveDigestSet]
  rw [if_neg (by omega)]
  simp only [hy]

theorem State.serveDigestSet_refuses (s : State) (f : Flight) (hlen : f.operand.length = 3) (hv : octet f.operand 2 ≤ 1)
    (hy : s.sensor? (beAt f.operand 0 2) = none) : s.serveDigestSet f = s.finish f false Status.noRoute [] := by
  rw [State.serveDigestSet]
  rw [if_neg (by omega)]
  simp only [hy]

/-- A sensor's entry ended, its end answered, and its DISASSOC put in line. -/
theorem State.serveDisassociate_ends (s : State) (f : Flight) {y : Sensor} (hlen : f.operand.length = 2)
    (hy : s.sensor? (beAt f.operand 0 2) = some y) :
    FramesOnly ((s.freeEntry (beAt f.operand 0 2) y).finish f false Status.ok []) (s.serveDisassociate f) := by
  rw [State.serveDisassociate]
  rw [if_neg (by omega)]
  simp only [hy]
  exact (State.nextDown_frames _ _ _).after (.of_parts rfl rfl)

theorem State.freeEntry_tends (s : State) (short : Nat) (y : Sensor) : Tends s (s.freeEntry short y) :=
  (State.claim_tends _ _ _ _ _ _ _).after (.of_parts rfl rfl)

theorem State.freeEntry_sensor (s : State) (short : Nat) (y : Sensor) : (s.freeEntry short y).sensor? short = none := by
  have hair : (s.freeEntry short y).air = (s.setSensor short none).air := by simp [State.freeEntry]
  rw [State.sensor?, hair]
  exact (tget?_tdel _ _ _).trans (if_pos rfl)

theorem State.downAdded_flight {s : State} {f : Flight} (d : AirDown) (hf : s.flight? f.ref = some f) (hstage : f.stage = .waiting) :
    (s.downAdded f d).flight? f.ref = some f := by
  have hsame : ({ f with stage := .waiting } : Flight) = f := by rw [← hstage]
  show (s.setFlight { f with stage := .waiting }).flight? f.ref = some f
  rw [hsame, State.setFlight_found, hf]
  simp

theorem taken_downOf (s : State) (m : Inbound) (opcode t : Nat) (x : Session) (at_ took short : Nat) (y : Sensor) :
    (taken s m opcode t x at_ took).downOf (flightOf s m opcode t .waiting) short y =
      s.downOf (flightOf s m opcode t .waiting) short y := by
  have hair : (taken s m opcode t x at_ took).air = s.air := by simp
  simp only [State.downOf, State.downHead, taken_reg, hair]

/-- A downlink that is not to wait behind another of its sensor's takes its plan. -/
theorem downAdded_plans {u : State} {d : AirDown} {p : AirPlan} (hmine : u.inLine d.ext = [d]) (hstage : d.stage = .queued)
    (hp : u.planFor d = some p) (hway : p.way ≠ 4) :
    { d with stage := .planned p } ∈ (u.nextDown d.ext downFuel).air.downs := by
  have hmem : d ∈ u.air.downs := (List.mem_filter.1 (show d ∈ u.inLine d.ext by rw [hmine]; exact List.mem_singleton.2 rfl)).1
  rw [show downFuel = 4095 + 1 from rfl, State.nextDown_plans hmine hstage hp hway]
  exact List.mem_map.2 ⟨d, hmem, if_pos rfl⟩

/-- One that takes an open window, on a channel without a duty account, uses it up. -/
theorem downAdded_windowed {u : State} {d : AirDown} {p : AirPlan} (hmine : u.inLine d.ext = [d]) (hstage : d.stage = .queued)
    (hp : u.planFor d = some p) (hway : p.way = 4)
    (hduty : u.flag F.airDutyCfgEn (u.acctOf d.port d.chan) = false) :
    { d with stage := .planned { p with checked := true, writing := false } } ∈ (u.nextDown d.ext downFuel).air.downs ∧
      ∀ b ∈ (u.nextDown d.ext downFuel).air.windows, b.ext = d.ext → b.used = true := by
  have hmem : d ∈ u.air.downs := (List.mem_filter.1 (show d ∈ u.inLine d.ext by rw [hmine]; exact List.mem_singleton.2 rfl)).1
  rw [show downFuel = 4095 + 1 from rfl, State.nextDown_window hmine hstage hp hway hduty]
  refine ⟨List.mem_map.2 ⟨d, hmem, if_pos rfl⟩, fun b hb hext => ?_⟩
  obtain ⟨a, -, rfl⟩ := List.mem_map.1 hb
  split at hext
  next heq => rw [if_pos heq]
  next hne => exact absurd hext hne

/-- One without a plan is answered with NO_ROUTE. -/
theorem downAdded_refused {s u : State} {m : Inbound} {need : Nat} {x : Session} (h : Served s m need x) (hmax : 256 ≤ x.maxmsg)
    {opcode t at_ took : Nat} {d : AirDown} (hu : u = (taken s m opcode t x at_ took).downAdded (flightOf s m opcode t .waiting) d)
    (hmine : u.inLine d.ext = [d]) (hstage : d.stage = .queued) (hp : u.planFor d = none) (hjob : d.job = .host s.stw.nextRef) :
    Safety.Answered m opcode Status.noRoute [] (u.nextDown d.ext downFuel) := by
  have hflight : (u.dropDown d.id).flight? s.stw.nextRef = some (flightOf s m opcode t .waiting) := by
    rw [hu]
    exact State.downAdded_flight (f := flightOf s m opcode t .waiting) d (served_flight h opcode t at_ took) rfl
  have hresult : (u.dropDown d.id).airResult d Status.noRoute none =
      (u.dropDown d.id).finish (flightOf s m opcode t .waiting) false Status.noRoute [] := by
    unfold State.airResult
    rw [hjob]
    dsimp only
    rw [State.finishRef, hflight]
  have hnone : ((u.dropDown d.id).airResult d Status.noRoute none).inLine d.ext = [] := by
    rw [hresult, State.inLine, show ((u.dropDown d.id).finish _ false _ _).air = (u.dropDown d.id).air by simp]
    show (u.air.downs.filter fun e => decide (e.id ≠ d.id)).filter _ = []
    rw [List.filter_comm, show u.air.downs.filter _ = [d] from hmine]
    simp
  rw [show downFuel = 4095 + 1 from rfl, State.nextDown_drops hmine hstage hp, State.nextDown_none hnone, hresult]
  have hserving : Serving m x (u.dropDown d.id) := (served_serving h opcode t at_ took).holds (.of_sess (by rw [hu]; rfl)) (by rw [hu]; rfl)
  exact hserving.answered s opcode t Status.noRoute [] (by simp; omega)

/-- A downlink that is not to wait goes by the method of R227's table. -/
theorem downAdded_served {s w u : State} {m : Inbound} {x : Session} {t at_ took : Nat} {d : AirDown} {y : Sensor}
    (h : Served s m Right.operate x) (hmax : 256 ≤ x.maxmsg)
    (hserve : (taken s m 0x402 t x at_ took).serve (flightOf s m 0x402 t .waiting) = u.nextDown d.ext downFuel)
    (hu : u = (taken s m 0x402 t x at_ took).downAdded (flightOf s m 0x402 t .waiting) d) (hmine : u.inLine d.ext = [d])
    (hstage : d.stage = .queued) (hjob : d.job = .host s.stw.nextRef) (hline : d.inLine = true) (hradio : SameRadio w u)
    (hy : u.entryOf d = some y) (hen : w.flag F.airChCfgEn d.port d.chan = true) :
    let done (f : State → Prop) : Prop := Handled (.airDownlink t m) at_ took s f
    let planned (p : AirPlan) : Prop := done (fun v => { d with stage := .planned p } ∈ v.air.downs)
    (y.wakeMs = 0 → planned (w.planNow d 0 (w.chanPre d.port d.chan) 0)) ∧
    (y.wakeMs ≠ 0 → d.method = 1 → (∀ p, w.longPlan d y = some p → planned p) ∧
      (w.longPlan d y = none → done (Safety.Answered m 0x402 Status.noRoute []))) ∧
    (y.wakeMs ≠ 0 → d.method = 2 → planned (w.trainPlan d y)) ∧
    (y.wakeMs ≠ 0 → d.method = 3 → (∀ p, w.phasePlan d y = some p → planned p) ∧
      (w.phasePlan d y = none → done (Safety.Answered m 0x402 Status.noRoute []))) ∧
    (y.wakeMs ≠ 0 → d.method = 0 → (∀ a, w.openWindow? d.ext = some a → w.windowPlan d a = none) → planned (w.leastPlan d y)) ∧
    (∀ a p, y.wakeMs ≠ 0 → d.method = 0 → w.openWindow? d.ext = some a → w.windowPlan d a = some p →
      w.flag F.airDutyCfgEn (w.acctOf d.port d.chan) = false →
      done (fun v => { d with stage := .planned { p with checked := true, writing := false } } ∈ v.air.downs ∧
        ∀ b ∈ v.air.windows, b.ext = d.ext → b.used = true)) := by
  intro done planned
  have hplan := State.planFor_host (s := u) (d := d) (y := y) (by rw [State.flag, hradio.reg]; exact hen) hline hy
  simp only [hradio.planNow, hradio.chanPre, hradio.longPlan, hradio.trainPlan, hradio.phasePlan, hradio.leastPlan, hradio.windowPlan,
    hradio.openWindow?] at hplan
  have hplanned (p : AirPlan) (hp : u.planFor d = some p) (hway : p.way ≠ 4) : planned p :=
    served_does h 0x402 t hserve (downAdded_plans hmine hstage hp hway)
  have hdropped (hp : u.planFor d = none) : done (Safety.Answered m 0x402 Status.noRoute []) :=
    served_does h 0x402 t hserve (downAdded_refused h hmax hu hmine hstage hp hjob)
  refine ⟨fun hwake => ?_, fun hwake hone => ?_, fun hwake htwo => ?_, fun hwake hthree => ?_, fun hwake hzero hno => ?_,
    fun a p hwake hzero ha hp hduty => ?_⟩
  · rw [if_pos hwake] at hplan
    exact hplanned _ hplan (by simp [State.planNow])
  all_goals rw [if_neg hwake] at hplan
  · simp only [hone] at hplan
    exact ⟨fun p hp => hplanned p (hplan.trans hp) (by rw [State.longPlan_way hp]; decide), fun hp => hdropped (hplan.trans hp)⟩
  · simp only [htwo] at hplan
    exact hplanned _ hplan (by simp [State.trainPlan, State.planNow])
  · simp only [hthree] at hplan
    exact ⟨fun p hp => hplanned p (hplan.trans hp) (by rw [State.phasePlan_way hp]; decide), fun hp => hdropped (hplan.trans hp)⟩
  · simp only [hzero] at hplan
    rw [show (w.openWindow? d.ext).bind (fun a => w.windowPlan d a) = none from Option.bind_eq_none_iff.2 hno] at hplan
    exact hplanned _ hplan (w.leastPlan_way d y)
  · simp only [hzero] at hplan
    rw [show (w.openWindow? d.ext).bind (fun a => w.windowPlan d a) = some p from Option.bind_eq_some_iff.2 ⟨a, ha, hp⟩] at hplan
    have hduty' : u.flag F.airDutyCfgEn (u.acctOf d.port d.chan) = false := by
      rw [hradio.acctOf, State.flag, hradio.reg]
      exact hduty
    exact served_does h 0x402 t hserve (downAdded_windowed hmine hstage hplan (State.windowPlan_way hp) hduty')

/-- Settles O14. -/
theorem airCommandsAreServed : Obligations.AirCommandsAreServed := by
  unfold Obligations.AirCommandsAreServed
  intro t at_ took m x s h hmax
  have hair (opcode : Nat) : (taken s m opcode t x at_ took).air = s.air := by simp
  have hsensor (opcode k : Nat) : (taken s m opcode t x at_ took).sensor? k = s.sensor? k := by rw [State.sensor?, hair]; rfl
  refine ⟨fun short y hlen hkind hshort hy => ?_, ?_, fun d y w => w.leastPlan_cases d y,
    fun core j k src d y hfind hseals huse hd hone hext hline hdone hy hwake hen => ?_, fun short y hlen hshort hy => ?_,
    fun short v0 hlen hshort hv0 hv => ⟨?_, fun y hy => ?_, fun hy => ?_⟩, fun hlen ha => ?_⟩
  · subst hshort
    refine handled_mono (served_replies h 0x401 t (State.serveSensorGet_answers _ _ hlen hkind (by rw [hsensor]; exact hy)) rfl ?_)
      fun v ⟨hans, honly⟩ => ⟨⟨_, hans⟩, honly⟩
    rw [State.sensorBytes_length]
    omega
  · intro short key y hlong hlen hmethod hshort hkey hy hport level ack head p d w done planned
    subst hshort hkey
    set f := flightOf s m 0x402 t .waiting with hf
    set v := taken s m 0x402 t x at_ took with hv
    have hreach := State.serveAirDownlink_reaches v f hlong hlen hmethod hport (by rw [hsensor]; exact hy)
    have hreg (r : FRef) (i j : Nat) : v.reg r i j = s.reg r i j := taken_reg _ _ _ _ _ _ _ _ _ _
    have hflag (r : FRef) (i j : Nat) : v.flag r i j = s.flag r i j := taken_flag _ _ _ _ _ _ _ _ _ _
    have hbarred : v.sendBarred true (beAt m.operand 4 4) = s.sendBarred true (beAt m.operand 4 4) := taken_sendBarred _ _ _ _ _ _ _ _ _
    have hdown : v.downOf f (beAt m.operand 0 2) y = d := taken_downOf _ _ _ _ _ _ _ _ _
    have hradio : SameRadio w (v.downAdded f d) := (taken_radio s m 0x402 t x at_ took).trans (v.downAdded_radio f d)
    have hvair : v.air = s.air := hair 0x402
    have hadded (d : AirDown) (hid : d.id = s.air.nextId) : (v.downAdded f d).air.downs = s.air.downs ++ [d] := by
      show v.air.downs ++ [{ d with id := v.air.nextId }] = _
      rw [hvair, ← hid]
    have hmine : (v.downAdded f d).inLine y.ext = s.inLine y.ext ++ [d] := by
      have hin := v.downAdded_inLine (f := f) (d := d) rfl rfl (congrArg Air.nextId hvair.symm)
      rw [show v.inLine d.ext = s.inLine d.ext by rw [State.inLine, hvair]; rfl] at hin
      exact hin
    have hfits_iff : v.downFits f y ↔ 9 + secOverhead (beAt m.operand 4 4) level + p.length + s.fcsLen y.port y.chan ≤
        s.reg F.airChLimMaxlen y.port y.chan := by
      rw [State.downFits, hreg, State.fcsLen, hflag]
      exact Iff.rfl
    refine ⟨fun hno => ?_, fun hstate hown => ⟨fun hbig => ?_, fun hfits => ⟨fun hbar => ?_, fun hkey hbar => ?_,
      fun e l hkey hline hbusy => ?_,
      fun hkey hfree hen => ?_⟩⟩⟩
    · exact handled_mono (served_replies h 0x402 t (hreach.trans (if_pos hno)) rfl (by simp; omega)) fun v hv => hv.1
    all_goals
      rw [if_neg (by
        rintro (h1 | h1)
        · exact h1 hstate
        · exact hown.elim h1.1 h1.2)] at hreach
    · have hline : v.airDownlink f (beAt m.operand 0 2) y = v.finish f false Status.badLength [] :=
        if_pos (Nat.lt_of_not_le fun hle => Nat.not_le.2 hbig (hfits_iff.1 hle))
      exact handled_mono (served_replies h 0x402 t (hreach.trans hline) rfl (by simp; omega)) fun v hv => hv.1
    · have hline : v.airDownlink f (beAt m.operand 0 2) y = v.finish f false Status.keyErased [] :=
        (if_neg (Nat.not_lt.2 (hfits_iff.2 hfits))).trans (if_pos (hbarred.trans hbar))
      exact handled_mono (served_replies h 0x402 t (hreach.trans hline) rfl (by simp; omega)) fun v hv => hv.1
    · have hline := v.airDownlink_sealed f (beAt m.operand 0 2) y (hfits_iff.2 hfits) hkey (hbarred.trans hbar)
      rw [hdown] at hline
      rw [show v.air.nextId = s.air.nextId from congrArg Air.nextId hvair] at hline
      refine served_does h 0x402 t (hreach.trans hline) ⟨?_, ?_⟩
      · have hoffer (a : State) (j : JobWait) : (a.offerJob j).air = a.air := by simp
        rw [hoffer, hadded _ rfl]
        exact List.mem_append_right _ (List.mem_singleton.2 rfl)
      · have hhead : v.downHead 1 (bit (octet f.operand 9) 0) (decide (beAt f.operand 4 4 ≠ 0)) v.air.seq (le 2 (beAt m.operand 0 2)) = head := by
          simp only [State.downHead, hreg, hvair]
          rfl
        rw [hhead]
        exact State.offerJob_offered _ _
    · have hclear := v.airDownlink_clear f (beAt m.operand 0 2) y (hfits_iff.2 hfits) hkey
      rw [hdown] at hclear
      refine served_does h 0x402 t (hreach.trans hclear) ?_
      rw [State.nextDown_waits (hmine.trans (by rw [show s.inLine y.ext = e :: l from hline]; rfl)) hbusy]
      exact hadded d rfl
    · have hclear := v.airDownlink_clear f (beAt m.operand 0 2) y (hfits_iff.2 hfits) hkey
      rw [hdown] at hclear
      have hnone : s.inLine y.ext = [] := List.filter_eq_nil_iff.2 fun e he => by simp [hfree e he]
      rw [hnone] at hmine
      exact downAdded_served h hmax (hreach.trans hclear) rfl hmine rfl rfl rfl hradio (hradio.entryOf d |>.trans hy) hen
  · refine does_complete h.on hfind ((s.tick t).runJob_seals hseals) ?_
    rw [State.jobUsed, huse]
    have hvair : ((s.tick t).completeJob j core 0).air = s.air := by simp
    have hchan := (s.tick t).completeJob_chan j core d.port d.chan hseals.2.2.2.2.2 hen
    generalize (s.tick t).completeJob j core 0 = v at hvair hchan
    exact v.airSealed_plans d y j.nonce _ (by rw [hvair]; exact hd) (by rw [hvair]; exact hone) (by rw [hvair]; exact hext) hline hdone
      (by rw [State.entryOf, State.sensor?, hvair]; exact hy) hwake hchan
  · subst hshort
    refine served_does h 0x403 t rfl ?_
    have hends := (taken s m 0x403 t x at_ took).serveDisassociate_ends (flightOf s m 0x403 t .waiting) hlen (by rw [hsensor]; exact hy)
    have hserving := ((taken s m 0x403 t x at_ took).freeEntry_tends (beAt m.operand 0 2) y).serving (served_serving h 0x403 t at_ took)
    have hfree := (taken s m 0x403 t x at_ took).freeEntry_sensor (beAt m.operand 0 2) y
    refine ⟨queued_stay (hserving.answered s 0x403 t Status.ok [] (by simp; omega)) hends.frames, ?_⟩
    show tget? ((taken s m 0x403 t x at_ took).serveDisassociate (flightOf s m 0x403 t .waiting)).air.sensors _ = none
    rw [hends.sensors]
    simpa [State.sensor?] using hfree
  · subst hshort hv0
    obtain ⟨l, hl, hserve⟩ := (taken s m 0x404 t x at_ took).servePendingSet_sets (flightOf s m 0x404 t .waiting) hlen hv
    generalize hu : ({ taken s m 0x404 t x at_ took with air := { (taken s m 0x404 t x at_ took).air with host := l } } : State) = u at hserve
    have hserving : Serving m x u := (served_serving h 0x404 t at_ took).holds (.of_sess (by rw [← hu])) (by rw [← hu])
    have honly : Only [.stw, .air] s u := by simp [← hu, only_iff]
    have hhost : u.air.host = l := by rw [← hu]
    clear hu
    have hfin : (u.finish (flightOf s m 0x404 t .waiting) false Status.ok []).air.host = l := by simp [hhost]
    refine served_does h 0x404 t hserve ⟨hserving.answered s 0x404 t Status.ok [] (by simp; omega), ?_, fun k hk => ?_,
      only_mono (honly.trans (State.finish_only _ _ _ _ _ _)) (by simp)⟩
    · rw [hfin, hl]
      simp
    · rw [hfin, hl, flightOf_operand, if_neg hk, hair]
  · subst hshort hv0
    have hserve := (taken s m 0x406 t x at_ took).serveDigestSet_sets (flightOf s m 0x406 t .waiting) hlen hv (by rw [hsensor]; exact hy)
    have hset (k : Nat) : ((taken s m 0x406 t x at_ took).setSensor (beAt m.operand 0 2)
        (some { y with digest := decide (octet m.operand 2 = 1) })).sensor? k =
        if k = beAt m.operand 0 2 then some { y with digest := decide (octet m.operand 2 = 1) } else s.sensor? k := by
      rw [← hsensor 0x406 k]
      exact tget?_tset _ _ _ _
    have honly : Only [.stw, .air, .lin] s ((taken s m 0x406 t x at_ took).setSensor (beAt m.operand 0 2)
        (some { y with digest := decide (octet m.operand 2 = 1) })) := by simp [only_iff, State.setSensor]
    have hserving : Serving m x ((taken s m 0x406 t x at_ took).setSensor (beAt m.operand 0 2)
        (some { y with digest := decide (octet m.operand 2 = 1) })) := (served_serving h 0x406 t at_ took).holds (.of_sess rfl) rfl
    rw [flightOf_operand] at hserve
    generalize (taken s m 0x406 t x at_ took).setSensor (beAt m.operand 0 2)
        (some { y with digest := decide (octet m.operand 2 = 1) }) = u at hserve hset honly hserving
    have hfin (k : Nat) : (u.finish (flightOf s m 0x406 t .waiting) false Status.ok []).sensor? k = u.sensor? k := by simp [State.sensor?]
    refine served_does h 0x406 t hserve ⟨hserving.answered s 0x406 t Status.ok [] (by simp; omega), ?_, fun k hk => ?_,
      only_mono (honly.trans (State.finish_only _ _ _ _ _ _)) (by simp)⟩
    · rw [hfin, hset, if_pos rfl]
    · rw [hfin, hset, if_neg hk]
  · subst hshort hv0
    exact handled_mono (served_replies h 0x406 t (State.serveDigestSet_refuses _ _ hlen hv (by rw [hsensor]; exact hy)) rfl (by simp; omega))
      fun v hv => hv.1
  · refine handled_mono (served_replies h 0x405 t (State.serveDutyRead_answers _ _ hlen ha) rfl (by simp; omega))
      fun v ⟨hans, honly⟩ => ⟨?_, honly⟩
    simp only [State.dutyLimit, State.dutyWindow, State.spent, State.dutyReserve, State.dutyAllowed, State.acct, taken_reg, hair] at hans ⊢
    exact hans

end Sys2Proof.Machine
end

section
/-!
SUPPORT. Seam messages, results and combining groups; statement O53.
-/

namespace Sys2Proof.Machine

-- Proofs one after another: the text is long, and is checked in bounded memory.
set_option Elab.async false

open Sys2Proof Sys2Proof.Safety

/-! ## Seam messages (18 R411, R413) -/

/-- A seam message that the device takes is handled as its row says. -/
theorem does_seam {s : State} {t : Nat} {m : SeamMsg} {c : Instr} {f : State → State} {effect : State → Prop} (h : Takes s m)
    (row : Nat → SeamMsg → State → Host.Outcome State Fault Refusal) (hf : effect (f ((s.tick t).noteSeam m)))
    (hc : exec c s = row t m s := by rfl) (hrow : row t m s = seamRx t m f s := by rfl) : Does c s effect := by
  obtain ⟨hon, htakes, hrole⟩ := h
  have hseam : s.forSeam m = true := by
    rw [State.takesSeam, Bool.and_eq_true] at htakes
    exact htakes.1
  have hstray : s.seamStray m = false := by
    simp only [State.forSeam, Bool.and_eq_true] at hseam
    obtain ⟨⟨⟨⟨⟨-, htag⟩, hcarrier⟩, -⟩, -⟩, -⟩ := hseam
    simp only [State.seamStray, hcarrier, Bool.true_or, Bool.not_true, Bool.or_false]
    rw [show s.strangeTag m.src.tag = false by simpa using htag, Bool.and_false]
  refine does_whenOn (f := fun s => if s.seamStray m then s.bump F.ethEpCntRxdrop m.port
    else if s.takesSeam m && decide (s.sea.role ≠ 0) then f (s.noteSeam m) else s) hon ?_ (hc.trans hrow)
  rw [show (s.tick t).seamStray m = false from hstray, show (s.tick t).takesSeam m = true from htakes, if_neg (by decide),
    show decide ((s.tick t).sea.role ≠ 0) = true from decide_eq_true hrole]
  exact hf

/-- In `v` seam messages go out as they do in `s`. -/
structure SeamSame (s v : State) : Prop where
  ups : ∀ p, (v.ep p).up = (s.ep p).up
  raw : v.flag F.seaXportRawEn = s.flag F.seaXportRawEn
  udp : v.flag F.seaXportUdpEn = s.flag F.seaXportUdpEn
  cluster : v.reg F.seaIdCluster = s.reg F.seaIdCluster
  station : v.station = s.station
  peers : v.sea.peers = s.sea.peers

theorem SeamSame.of_parts {s v : State} (heth : v.eth = s.eth) (hregs : v.regs = s.regs) (hpeers : v.sea.peers = s.sea.peers) : SeamSame s v :=
  ⟨fun p => by rw [State.ep, heth]; rfl, by rw [State.flag, reg_of_regs hregs]; rfl, by rw [State.flag, reg_of_regs hregs]; rfl,
    reg_of_regs hregs _ _ _, reg_of_regs hregs _ _ _, hpeers⟩

namespace SeamSame

variable {s v : State} (h : SeamSame s v)

include h

theorem anyUp : v.anyUp = s.anyUp := by rw [State.anyUp, State.anyUp, h.ups, h.ups]

theorem seamPort : v.seamPort = s.seamPort := by rw [State.seamPort, State.seamPort, h.ups]

theorem text (typ dst : Nat) (body : List Byte) : SeamText s typ dst body (v.seamBytes typ dst body) := by
  refine ⟨v.sea.seq, ?_⟩
  rw [State.seamBytes, State.seamBytes, h.cluster, h.station]
  rfl

end SeamSame

theorem SeamSame.trans {s u v : State} (h : SeamSame s u) (k : SeamSame u v) : SeamSame s v :=
  ⟨fun p => (k.ups p).trans (h.ups p), k.raw.trans h.raw, k.udp.trans h.udp, k.cluster.trans h.cluster, k.station.trans h.station,
    k.peers.trans h.peers⟩

/-- A seam message to a station whose address is known goes out. -/
theorem State.sendTo_told {s v : State} (h : SeamSame s v) (k typ : Nat) (body : List Byte) : Told s (v.sendTo k typ body) k typ body := by
  intro x a hup hpeer haddr hcarrier
  unfold State.sendTo
  rw [h.anyUp, hup, if_neg (by decide)]
  dsimp only
  rw [h.peers, hpeer, Option.bind_some, h.seamPort, haddr]
  dsimp only
  rw [h.raw, h.udp]
  have hon : ¬(!s.flag F.seaXportRawEn && !(s.flag F.seaXportUdpEn && a.udp)) = true := by
    rcases hcarrier with hr | ⟨hu, ha⟩
    · simp [hr]
    · simp [hu, ha]
  rw [if_neg hon]
  have hnext : v.nextSeq.flag F.seaXportRawEn = s.flag F.seaXportRawEn := h.raw
  rw [hnext]
  have htext := h.text typ k body
  by_cases hraw : s.flag F.seaXportRawEn = true
  · rw [if_pos hraw]
    split
    · exact ⟨_, queued_stay (State.queueFrame_queued _ _ _ _ _) (State.queueFrame_stay _ _ _ _ _), rfl, rfl, htext⟩
    · exact ⟨_, State.queueFrame_queued _ _ _ _ _, rfl, rfl, htext⟩
  · rw [if_neg hraw]
    obtain ⟨hu, ha⟩ := hcarrier.resolve_left hraw
    rw [hu, ha, Bool.and_self, if_pos rfl]
    exact ⟨_, State.queueFrame_queued _ _ _ _ _, rfl, rfl, htext⟩

/-! ## Records and digests of a result (12 R271 to R277) -/

theorem State.deliverTo_holds (s : State) (k : Nat) (x : Session) (id : Nat) (full : Bool) (body : List Byte) :
    PortsHold s (s.deliverTo k x id full body) := by
  unfold State.deliverTo
  split
  · exact .of_eth rfl
  split
  · exact .of_eth rfl
  · dsimp only
    refine PortsHold.trans (.of_eth rfl) (?_ : PortsHold (s.setSess k { x with recSeq := _, recs := _ }) _)
    unfold State.sendRecord
    dsimp only
    split
    · split
      · intro p
        rw [State.ep_setEp]
        split
        next hp => exact ⟨_, by rw [hp]⟩
        next => exact ⟨_, rfl⟩
      · exact State.queueFrame_holds _ _ _ _ _
    · exact State.queueFrame_holds _ _ _ _ _

theorem State.recordsLost_holds (s : State) (k : Nat) : PortsHold s (s.recordsLost k) := by
  unfold State.recordsLost
  split
  · split
    · exact State.postEvent_holds _ _ _ _
    · exact .of_eth rfl
  · exact .of_eth rfl

theorem State.deliver_holds (s : State) (kind : Nat) (body : List Byte) : PortsHold s (s.deliver kind body) := by
  unfold State.deliver
  extract_lets full takers fits id w₁ u v
  have hu : PortsHold s u := by
    unfold u
    split
    · exact .of_eth rfl
    · split
      · exact .of_eth rfl
      · exact .of_eth rfl
  have hv : PortsHold u v := by
    refine foldl_portsHold _ (fun w e => ?_) _ _
    split
    · exact w.deliverTo_holds _ _ _ _ _
    · exact .of_eth rfl
  exact (hu.trans hv).trans (foldl_portsHold _ (fun w e => w.recordsLost_holds _) _ _)

/-- A record for which there is room joins the delivery area, if some session takes it. -/
theorem State.deliver_area (s : State) (kind : Nat) (body : List Byte) {k : Nat} {x : Session} (hx : tget? s.stw.sess k = some x)
    (hkind : bit x.kinds (kind - 1) = true) (hfits : 16 + body.length ≤ x.maxmsg) (hroom : areaUsed s.stw.area + body.length ≤ 2147483648) :
    ∃ a ∈ (s.deliver kind body).stw.area, a.id = s.stw.nextArea ∧ a.body = body := by
  refine ⟨{ id := s.stw.nextArea, body := body }, ?_, rfl, rfl⟩
  unfold State.deliver
  extract_lets full takers fits id w₁ u v
  have hfull : full = false := decide_eq_false (by omega)
  have hfit : fits = true := List.any_eq_true.2 ⟨(k, x), List.mem_filter.2 ⟨tget?_mem _ _ _ hx, hkind⟩, decide_eq_true hfits⟩
  have hu : u.stw.area = s.stw.area ++ [{ id := s.stw.nextArea, body := body }] := by
    unfold u
    rw [hfull, hfit]
    rfl
  have hkeep : ∀ w : State, w = takers.foldl (fun s e => s.recordsLost e.1) v → w.stw.area = u.stw.area := by
    rintro w rfl
    have hv : v.stw.area = u.stw.area := by
      refine List.foldlRecOn (motive := fun w : State => w.stw.area = u.stw.area) _ _ rfl fun w hw e _ => ?_
      split
      · exact (by simp : (w.deliverTo _ _ _ _ _).stw.area = w.stw.area).trans hw
      · exact hw
    refine List.foldlRecOn (motive := fun w : State => w.stw.area = u.stw.area) _ _ hv fun w hw e _ => ?_
    exact (by simp : (w.recordsLost e.1).stw.area = w.stw.area).trans hw
  rw [hkeep _ rfl, hu]
  exact List.mem_append_right _ (List.mem_singleton.2 rfl)

theorem recordBody_length (kind port chan flags short seq ext epoch ns margin hops : Nat) (payload : List Byte) :
    (recordBody kind port chan flags short seq ext epoch ns margin hops payload).length ≤ 39 + payload.length := by
  unfold recordBody padTo
  simp only [List.length_append, be_length, zeros_length]
  omega

theorem macFrame_whole {l : List Byte} {f : MacFrame} (h : macFrame l = some f) : f.head ++ f.rest = l := by
  unfold macFrame at h
  extract_lets a b sm dm dpan span o1 o2 o3 o4 at h
  split at h
  · cases h
  · cases h
    exact List.take_append_drop _ _

theorem State.airResult_holds (s : State) (d : AirDown) (status : Nat) (result : Option Nat) : PortsHold s (s.airResult d status result) := by
  unfold State.airResult
  split
  · exact s.finishRef_holds _ _ _
  · exact .of_eth rfl

theorem State.nextDown_holds (s : State) (ext n : Nat) : PortsHold s (s.nextDown ext n) := by
  induction n generalizing s with
  | zero => exact .of_eth rfl
  | succ n ih =>
    simp only [State.nextDown]
    split
    · exact .of_eth rfl
    next d _ _ =>
      have hdrop (u : State) (status : Nat) : PortsHold u (((u.dropDown d.id).airResult d status none).nextDown ext n) :=
        PortsHold.trans (u := (u.dropDown d.id).airResult d status none) ((u.dropDown d.id).airResult_holds _ _ _) (ih _)
      split
      · exact .of_eth rfl
      split
      next p _ =>
        split
        · exact PortsHold.trans (.of_eth (by simp)) (hdrop (s.setPlan d p).1 _)
        · exact .of_eth (by simp)
      next => exact hdrop s _

theorem State.endDown_holds (s : State) (d : AirDown) (status : Nat) (result : Option Nat) : PortsHold s (s.endDown d status result) := by
  unfold State.endDown
  extract_lets u
  have hu : PortsHold s u := .of_eth (by simp [u])
  refine (hu.trans ?_).trans (State.nextDown_holds _ _ _)
  split
  · exact .of_eth rfl
  · exact u.airResult_holds _ _ _

theorem State.planTry_holds (s : State) (d : AirDown) : PortsHold s (s.planTry d) := by
  unfold State.planTry
  split
  next p _ =>
    dsimp only
    have hset : PortsHold s (s.setPlan d p).1 := .of_eth (by simp)
    split
    · refine hset.trans ?_
      unfold State.dutyRefused
      split
      · exact .of_eth rfl
      · exact State.endDown_holds _ _ _ _
    · exact hset
  next => split <;> exact s.endDown_holds _ _ _

theorem State.noteSeam_only (s : State) (m : SeamMsg) (t : Nat) : Only [.sea] s ((s.tick t).noteSeam m) :=
  only_mono ((s.tick_only t).trans (by simp [only_iff, State.noteSeam] : Only [.sea] (s.tick t) ((s.tick t).noteSeam m))) (by simp)

theorem State.noteSeam_same (s : State) (m : SeamMsg) (t : Nat) : SeamSame s ((s.tick t).noteSeam m) := .of_parts rfl rfl rfl

/-! ## A result delivered (12 R273 to R276) -/

/-- A result that its home does not deliver has a status, and leaves no trace. -/
theorem State.resultHome_refused (s : State) (b : List Byte)
    (h : macFrame (b.drop 28) = none ∨ ∃ f, macFrame (b.drop 28) = some f ∧ s.macMatch f = false) : s.resultHome b = (s, 1) := by
  unfold State.resultHome State.deliverHome
  rcases h with h | ⟨f, hf, hmatch⟩
  · rw [h]
  · rw [hf]
    dsimp only
    rw [hmatch]
    rfl

theorem State.resultHome_strange (s : State) (b : List Byte) {f : MacFrame} (hf : macFrame (b.drop 28) = some f) (hmatch : s.macMatch f = true)
    (h : s.sensorByExt (beAt b 12 8) = none ∨ ∃ short y, s.sensorByExt (beAt b 12 8) = some (short, y) ∧ y.state ≠ 1) :
    s.resultHome b = (s, 2) := by
  unfold State.resultHome State.deliverHome
  rw [hf]
  dsimp only
  rw [hmatch, if_neg (by decide)]
  rcases h with h | ⟨short, y, h, hstate⟩
  · rw [h]
  · rw [h]
    exact if_pos hstate

/-- A data frame in the clear is delivered; where its sensor gets digests, it waits in them to be acknowledged. -/
theorem State.resultHome_delivers (s : State) (b : List Byte) {f : MacFrame} {short : Nat} {y : Sensor} (hf : macFrame (b.drop 28) = some f)
    (hmatch : s.macMatch f = true) (hext : s.sensorByExt (beAt b 12 8) = some (short, y)) (hy : s.sensor? short = some y)
    (hstate : y.state = 1) (htyp : f.typ = 1) (hsec : f.sec = false) :
    let u := s.deliverRec (s.airRecord 3 y.port y.chan (beAt b 0 4) (beAt b 4 8) (octet b 23) f) false f.rest
    s.resultHome b = (if y.digest && f.ackReq && !f.broadcast then u.addDigest short y f.seq (octet b 23) else u, 0) := by
  intro u
  unfold State.resultHome State.deliverHome
  rw [hf]
  dsimp only
  rw [hmatch, if_neg (by decide), hext]
  dsimp only
  rw [if_neg (by simp [hstate]), if_pos htyp]
  have hair : s.airDeliver 3 y.port y.chan (beAt b 0 4) (beAt b 4 8) (octet b 23) f = u := by
    unfold State.airDeliver State.deliverFrame
    rw [hsec, if_pos (by decide)]
  rw [hair, show u.sensor? short = some y by simpa [u, State.sensor?] using hy]
  dsimp only
  split <;> rfl

/-- The registers that a downlink of the air moves are none of the seam's. -/
theorem seamReg_apart (x : FRef) (hx : famAddr x.fam 0 0 % 0x1000 < 0x400) :
    (∀ p, famAddr x.fam 0 0 ≠ famAddr F.airCntDuty.fam p 0) ∧ ∀ p, famAddr x.fam 0 0 ≠ famAddr F.airCntBcnSkip.fam p 0 := by
  constructor <;> intro p <;> simp only [famAddr, famInfo, F.airCntDuty, F.airCntBcnSkip] at * <;> omega

/-- A digest entry joins those that wait, and with it at most a downlink of the air. -/
theorem State.addDigest_does (s : State) (short : Nat) (y : Sensor) (seq margin : Nat) :
    let u := s.addDigest short y seq margin
    ({ short := short, seq := seq, margin := margin, born := s.now, hold := s.holdNs } : DigestEntry) ∈ u.sc.digests ∧ SeamSame s u ∧
      u.stw.area = s.stw.area := by
  intro u
  have hmem (l : List DigestEntry) : ({ short := short, seq := seq, margin := margin, born := s.now, hold := s.holdNs } : DigestEntry) ∈
      l ++ [({ short := short, seq := seq, margin := margin, born := s.now, hold := s.holdNs } : DigestEntry)] :=
    List.mem_append_right _ (List.mem_singleton.2 rfl)
  unfold u State.addDigest
  extract_lets e c v dg q mac id w
  have hv : SeamSame s v := .of_parts rfl rfl rfl
  have hw : SeamSame s w := .of_parts rfl rfl rfl
  split
  · exact ⟨hmem _, hv, rfl⟩
  split
  next d _ =>
    have hplan := w.planTry_settles d
    have hreg (x : FRef) (hx : famAddr x.fam 0 0 % 0x1000 < 0x400) : (w.planTry d).reg x = w.reg x :=
      hplan.reg _ _ _ (seamReg_apart x hx).1 (seamReg_apart x hx).2
    refine ⟨?_, ⟨fun p => ?_, ?_, ?_, ?_, ?_, ?_⟩, ?_⟩
    · rw [show (w.planTry d).sc = w.sc by simp]
      exact hmem _
    · obtain ⟨l, hl⟩ := w.planTry_holds d p
      rw [hl]
      exact hw.ups p
    · rw [State.flag, hreg _ (by decide)]
      rfl
    · rw [State.flag, hreg _ (by decide)]
      rfl
    · exact hreg _ (by decide)
    · exact hreg _ (by decide)
    · rw [show (w.planTry d).sea = w.sea by simp]
      rfl
    · exact (by simp : (w.planTry d).stw.area = w.stw.area).trans rfl
  next => exact ⟨hmem _, hw, rfl⟩

/-! ## Groups (12 R266 to R270) -/

theorem find?_map_keep {α : Type} (l : List α) (p : α → Bool) (f : α → α) (hf : ∀ a, p (f a) = p a) :
    (l.map f).find? p = (l.find? p).map f := by
  rw [List.find?_map]
  congr 2
  exact funext hf

theorem State.group?_num {s : State} {num : Nat} {g : Group} (h : s.group? num = some g) : g.num = num := by
  simpa using List.find?_some h

theorem State.group?_setGroup (s : State) {num : Nat} {g h : Group} (hg : s.group? num = some g) (hnum : h.num = num) :
    (s.setGroup h).group? num = some h := by
  have hswap : ∀ k : Group, decide ((if k.num = h.num then h else k).num = num) = decide (k.num = num) := by
    intro k
    split
    next hk => rw [hk]
    next => rfl
  have hfind := find?_map_keep s.sc.groups (fun k => decide (k.num = num)) (fun k => if k.num = h.num then h else k) hswap
  rw [State.group?, State.setGroup, hfind, show s.sc.groups.find? _ = some g from hg]
  simp [State.group?_num hg, hnum]

/-- The octets of a fragment's plane that lie inside the frame are where they belong. -/
theorem tget?_putOctets (len off : Nat) (data : List Byte) (n : Nat) (t : Tab Byte) (k : Nat) :
    tget? (((data.zipIdx n).filter fun (_, i) => decide (off + i < len)).foldl (fun (t : Tab Byte) (v, i) => tset t (off + i) v) t) k =
      if off + n ≤ k ∧ k < off + n + data.length ∧ k < len then data[k - (off + n)]? else tget? t k := by
  induction data generalizing n t with
  | nil =>
    rw [if_neg (by simp only [List.length_nil]; omega)]
    rfl
  | cons b data ih =>
    rw [List.zipIdx_cons, List.filter_cons]
    have hcons : (b :: data).length = data.length + 1 := rfl
    have htail (h : off + (n + 1) ≤ k) : (b :: data)[k - (off + n)]? = data[k - (off + (n + 1))]? := by
      rw [show k - (off + n) = k - (off + (n + 1)) + 1 by omega, List.getElem?_cons_succ]
    dsimp only
    by_cases hin : off + n < len
    · rw [if_pos (decide_eq_true hin), List.foldl_cons, ih, hcons]
      by_cases hk : k = off + n
      · rw [if_neg (by omega), if_pos (by omega), hk, tget?_tset_self, Nat.sub_self]
        rfl
      · rw [tget?_tset, if_neg hk]
        by_cases hle : off + (n + 1) ≤ k
        · rw [htail hle]
          exact if_congr (by omega) rfl rfl
        · rw [if_neg (by omega), if_neg (by omega)]
    · rw [if_neg (by simpa using hin), ih, hcons, if_neg (by omega), if_neg (by omega)]

/-- One copy is no group to try. -/
theorem State.attemptDue_single (s : State) (num : Nat) (h : ∀ g, s.group? num = some g → g.copies.length < 2) : s.attemptDue num = s := by
  unfold State.attemptDue
  split
  · rfl
  next g hg =>
    dsimp only
    have hparts : g.parts.length < 2 := (List.length_filter_le _ _).trans_lt (h g hg)
    rw [if_neg (by omega)]

/-- A first fragment begins a group of its own copy. -/
theorem State.fragment_begins (s : State) (station : Nat) (b : List Byte) (hlong : 33 ≤ b.length) (hlen : beAt b 30 2 = (b.drop 32).length)
    (hmax : (b.drop 32).length ≤ 1408) (hplane : octet b 26 / 16 ≤ 3) (hholds : s.holds station (scHead b).rxid = none)
    (hgone : ∀ e ∈ s.sc.gone, e.1 ≠ station ∨ e.2.1 ≠ (scHead b).rxid) (hgroup : s.groupFor station (scHead b) = none)
    (hroom : (s.sc.groups.filter fun g => decide (g.closed = none)).length < 1024) (hnum : ∀ g ∈ s.sc.groups, g.num ≠ s.sc.nextGroup) :
    let u := s.fragment station b
    let h := scHead b
    u.sc.nextGroup = s.sc.nextGroup + 1 ∧ Only [.sc] s u ∧ (∀ g ∈ s.sc.groups, g ∈ u.sc.groups) ∧
      ∃ g c, g ∈ u.sc.groups ∧ g.num = s.sc.nextGroup ∧ g.ref = h.cns ∧ g.cepoch = h.cepoch ∧ g.freq = h.freq ∧ g.phy = h.phy ∧
        g.phr = h.phr ∧ g.won = false ∧ g.closed = none ∧ g.copies = [c] ∧ c.station = station ∧ c.rxid = h.rxid ∧ c.snr = h.snr ∧
        ∀ i, i < (b.drop 32).length → beAt b 28 2 + i < phrLen h.phr →
          tget? (tget [] c.planes (octet b 26 / 16)) (beAt b 28 2 + i) = (b.drop 32)[i]? := by
  intro u h
  set c : Copy := { station := station, rxid := h.rxid, port := h.port, snr := h.snr, cns := h.cns, planes := [] } with hc
  set g : Group := { num := s.sc.nextGroup, cepoch := h.cepoch, ref := h.cns, freq := h.freq, phy := h.phy, phr := h.phr,
                     copies := [c], won := false, shut := [], tried := [], level := 3, closed := none } with hg
  set v : State := { s with sc := { s.sc with groups := s.sc.groups ++ [g], nextGroup := s.sc.nextGroup + 1 } } with hv
  have henter : s.enterCopy station h = (v, some g.num) := by
    unfold State.enterCopy
    rw [hgroup]
    exact if_neg (by omega)
  have hfind : v.group? g.num = some g := by
    have hno : s.sc.groups.find? (fun g' => decide (g'.num = g.num)) = none := List.find?_eq_none.2 fun g' hg' => by simpa using hnum g' hg'
    rw [State.group?, hv]
    dsimp only
    rw [List.find?_append, hno]
    simp
  have hu : u = (v.putPlane g.num station h.rxid (octet b 26 / 16) (beAt b 28 2) (b.drop 32)).attemptDue g.num := by
    unfold u State.fragment
    dsimp only
    rw [if_neg (by omega), hholds]
    dsimp only
    rw [if_neg (by
      rw [Bool.not_eq_true, List.any_eq_false]
      intro e he
      simpa [-not_and, not_and_or] using hgone e he), henter]
  set l := ((b.drop 32).zipIdx.filter fun (_, i) => decide (beAt b 28 2 + i < g.len)).foldl
    (fun (t : Tab Byte) (v, i) => tset t (beAt b 28 2 + i) v) (tget [] c.planes (octet b 26 / 16)) with hl
  set c' : Copy := { c with planes := tset c.planes (octet b 26 / 16) l } with hc'
  have hput : v.putPlane g.num station h.rxid (octet b 26 / 16) (beAt b 28 2) (b.drop 32) = v.setGroup { g with copies := [c'] } := by
    unfold State.putPlane
    rw [hfind]
    simp only [g, List.map_cons, List.map_nil, c]
    rfl
  have hset : (v.setGroup { g with copies := [c'] }).group? g.num = some { g with copies := [c'] } := v.group?_setGroup hfind rfl
  rw [hput, State.attemptDue_single _ _ fun k hk => by rw [hset] at hk; cases hk; exact (by decide : 1 < 2)] at hu
  rw [hu]
  refine ⟨rfl, by simp [only_iff, State.setGroup, v], fun k hk => ?_, { g with copies := [c'] }, c', ?_, rfl, rfl, rfl, rfl, rfl, rfl, rfl, rfl,
    rfl, rfl, rfl, rfl, fun i hi hin => ?_⟩
  · exact List.mem_map.2 ⟨k, List.mem_append_left _ hk, if_neg (hnum k hk)⟩
  · exact List.mem_map.2 ⟨g, List.mem_append_right _ (List.mem_singleton.2 rfl), if_pos rfl⟩
  · rw [show tget [] c'.planes (octet b 26 / 16) = l from tget_tset_self _ _ _ _, hl, tget?_putOctets,
      if_pos (by refine ⟨by omega, by omega, hin⟩)]
    congr 1
    omega

/-- From `s` to `u` the seam's own registers are as they were. -/
def SeaCounts (s u : State) : Prop := ∀ x : FRef, 0x700000 ≤ famAddr x.fam 0 0 → famAddr x.fam 0 0 % 0x1000 < 0x400 → u.reg x = s.reg x

theorem SeaCounts.of_regs {s u : State} (h : u.regs = s.regs) : SeaCounts s u := fun _ _ _ => reg_of_regs h _ _ _

theorem SeaCounts.trans {s u v : State} (h : SeaCounts s u) (k : SeaCounts u v) : SeaCounts s v := fun x hx hm => (k x hx hm).trans (h x hx hm)

theorem State.deliverRec_counts (s : State) (r : RecvRec) (untrusted : Bool) (p : List Byte) : SeaCounts s (s.deliverRec r untrusted p) := by
  unfold State.deliverRec
  extract_lets u
  have hu : SeaCounts s u := by
    unfold u
    split
    · intro x hx _
      refine State.reg_bump_ne _ _ _ _ _ _ fun h => ?_
      rw [h] at hx
      exact absurd hx (by decide)
    · exact .of_regs rfl
  exact hu.trans (.of_regs (by simp))

theorem State.planTry_counts (s : State) (d : AirDown) : SeaCounts s (s.planTry d) := fun x _ hm =>
  (s.planTry_settles d).reg _ _ _ (seamReg_apart x hm).1 (seamReg_apart x hm).2

theorem State.addDigest_counts (s : State) (short : Nat) (y : Sensor) (seq margin : Nat) : SeaCounts s (s.addDigest short y seq margin) := by
  unfold State.addDigest
  extract_lets e c v dg q mac id w
  split
  · exact .of_regs rfl
  split
  · exact SeaCounts.trans (u := w) (.of_regs rfl) (w.planTry_counts _)
  · exact .of_regs rfl

theorem State.resultHome_counts (s : State) (b : List Byte) : SeaCounts s (s.resultHome b).1 := by
  unfold State.resultHome State.deliverHome
  split
  · exact .of_regs rfl
  next f _ =>
    split
    · exact .of_regs rfl
    split
    · exact .of_regs rfl
    next short x _ =>
      split
      · exact .of_regs rfl
      · extract_lets u
        have hu : SeaCounts s u := by
          unfold u
          split
          · unfold State.airDeliver State.deliverFrame
            split
            · exact s.deliverRec_counts _ _ _
            split
            · exact .of_regs (by simp)
            · exact s.deliverRec_counts _ _ _
          · exact .of_regs (by simp)
        clear_value u
        split
        · split
          · exact hu.trans (u.addDigest_counts _ _ _ _)
          · exact hu
        · exact hu

theorem State.resultNoHome_counts (s : State) (b : List Byte) : SeaCounts s (s.resultNoHome b) := by
  unfold State.resultNoHome State.deliverNoHome
  split
  · exact .of_regs rfl
  split
  · exact .of_regs rfl
  split
  · exact s.deliverRec_counts _ _ _
  split
  · exact .of_regs rfl
  · exact .of_regs (by simp)

theorem State.sendResult_counts (s : State) (g : Group) (mac : List Byte) : SeaCounts s (s.sendResult g mac) := by
  unfold State.sendResult
  split
  · exact s.resultNoHome_counts _
  next ext e _ =>
    extract_lets b r x
    split
    · exact s.resultNoHome_counts _
    split
    · split
      · exact (s.resultHome_counts b).trans (State.resultNoHome_counts _ _)
      · exact s.resultHome_counts b
    · exact .of_regs (by simp)

/-- A result sent leaves the groups as they are. -/
theorem State.sendResult_groups (s : State) (g : Group) (mac : List Byte) : (s.sendResult g mac).sc.groups = s.sc.groups := by
  have hdigest (u : State) (short : Nat) (y : Sensor) (seq margin : Nat) : (u.addDigest short y seq margin).sc.groups = u.sc.groups := by
    unfold State.addDigest
    extract_lets e c v dg q mac id w
    split
    · rfl
    split
    next d _ => exact (congrArg Sc.groups (by simp : (w.planTry d).sc = w.sc)).trans rfl
    · rfl
  have hhome (u : State) (b : List Byte) : (u.resultHome b).1.sc.groups = u.sc.groups := by
    unfold State.resultHome State.deliverHome
    split
    · rfl
    next f _ =>
      split
      · rfl
      split
      · rfl
      next short x _ =>
        split
        · rfl
        · extract_lets v
          have hv : v.sc = u.sc := by
            unfold v
            split <;> simp
          clear_value v
          split
          · split
            · exact (hdigest _ _ _ _ _).trans (congrArg Sc.groups hv)
            · exact congrArg Sc.groups hv
          · exact congrArg Sc.groups hv
  have hsend (u : State) (k typ : Nat) (b : List Byte) : (u.sendTo k typ b).sc = u.sc := by simp
  unfold State.sendResult
  split
  · simp
  next ext e _ =>
    extract_lets b r x
    split
    · simp
    split
    · split
      · simp [r, hhome]
      · exact hhome _ _
    · exact (congrArg Sc.groups (hsend _ _ _ _)).trans rfl

/-- What the last attempt leaves of the group and of the counts. -/
theorem State.tryGroup_out {s : State} (g : Group) (h : s.checkUnit = false) : s.tryGroup g = s := by
  unfold State.tryGroup
  rw [h]
  rfl

theorem State.checkDone_does (s : State) (v w : Nat) :
    Only [.regs, .cip] s (s.checkDone v (some w)) ∧ (s.checkDone v (some w)).reg F.chkCntJobs = min (s.reg F.chkCntJobs + 1) 0xFFFFFFFF ∧
      SeaCounts s (s.checkDone v (some w)) := by
  refine ⟨by simp [only_iff], ?_, ?_⟩
  · unfold State.checkDone
    dsimp only
    split
    · rw [State.reg_bump _ _ _ (by decide) (by decide)]
      rfl
    · rw [State.reg_bump_ne _ _ _ _ _ _ (by decide), State.reg_bump _ _ _ (by decide) (by decide)]
      rfl
  · intro x hx _
    have hne (f : Fam) (hf : famAddr f 0 0 < 0x700000) : famAddr x.fam 0 0 ≠ famAddr f 0 0 := by omega
    unfold State.checkDone
    dsimp only
    split
    · rw [State.reg_bump_ne _ _ _ _ _ _ (hne .chkCntJobs (by decide))]
      rfl
    · rw [State.reg_bump_ne _ _ _ _ _ _ (hne .chkCntMismatch (by decide)), State.reg_bump_ne _ _ _ _ _ _ (hne .chkCntJobs (by decide))]
      rfl

/-- A group as an attempt leaves it. -/
def Group.attempted (g : Group) : Group := { g with tried := g.parts.map fun c => (c.station, c.rxid), level := g.levelNow }

/-- An attempt that gives no frame is a job of the check units, and marks the copies it has tried. -/
theorem State.tryGroup_fails {s : State} {g : Group} (hunit : s.checkUnit = true) (hno : g.attempt = none) :
    s.tryGroup g = (s.checkGroup g.attempted).setGroup g.attempted := by
  unfold State.tryGroup
  rw [hunit, if_neg (by decide)]
  extract_lets g'
  rw [show g'.attempt = none from hno]
  rfl

/-- One that gives a frame wins. -/
theorem State.tryGroup_wins {s : State} {g : Group} {mac : List Byte} (hunit : s.checkUnit = true) (hmac : g.attempt = some mac) :
    s.tryGroup g = ((((s.checkGroup g.attempted).setGroup { g.attempted with won := true }).bump F.seaScCntOk).bump F.seaScCntGroup).sendResult
      g.attempted mac := by
  unfold State.tryGroup
  rw [hunit, if_neg (by decide)]
  extract_lets g'
  rw [show g'.attempt = some mac from hmac]
  rfl

/-- A count of 32 bits stops at its largest value. -/
theorem State.bump_full (s : State) (x : FRef) (hhi : x.hi = 31) (hlo : x.lo = 0) : (s.bump x).reg x = min (s.reg x + 1) 0xFFFFFFFF := by
  refine (s.reg_bump x 0 (by omega) (by omega)).trans ?_
  rw [hhi, hlo]
  rfl

/-- A count that moves where its reason holds. -/
theorem State.bumpIf (s : State) (c : Bool) (x : FRef) (hhi : x.hi = 31) (hlo : x.lo = 0) :
    let u := if c then s.bump x else s
    Only [.regs] s u ∧ u.sc = s.sc ∧ u.now = s.now ∧ u.reg x = min (s.reg x + (if c then 1 else 0)) 0xFFFFFFFF ∧
      ∀ y : FRef, famAddr y.fam 0 0 ≠ famAddr x.fam 0 0 → u.reg y = s.reg y := by
  cases c
  · have hlt : s.reg x < 2 ^ (x.hi + 1 - x.lo) := s.reg_lt x 0 0
    rw [hhi, hlo] at hlt
    refine ⟨only_refl _ _, rfl, rfl, ?_, fun _ _ => rfl⟩
    show s.reg x = min (s.reg x + 0) 0xFFFFFFFF
    omega
  · exact ⟨by simp [only_iff], rfl, rfl, s.bump_full x hhi hlo, fun y hy => State.reg_bump_ne _ _ _ _ _ _ hy⟩

/-- A group's end, after its last attempt has left `h` of it: `alone` and `failed` say whether it is counted, and as what. -/
def State.closing (s : State) (h : Group) (counted failed : Bool) : State :=
  let s := s.setGroup { h with closed := some s.now }
  let s := if counted then s.bump F.seaScCntGroup else s
  let s := if failed then s.bump F.seaScCntFail else s
  { s with sc := s.sc.forget s.now }

theorem State.closing_does {s : State} {num : Nat} {h : Group} (hh : s.group? num = some h) (counted failed : Bool) :
    let u := s.closing h counted failed
    { h with closed := some s.now } ∈ u.sc.groups ∧ Only [.regs, .sc] s u ∧ (counted = false → failed = false → Only [.sc] s u) ∧
    u.reg F.seaScCntGroup = min (s.reg F.seaScCntGroup + (if counted then 1 else 0)) 0xFFFFFFFF ∧
    u.reg F.seaScCntFail = min (s.reg F.seaScCntFail + (if failed then 1 else 0)) 0xFFFFFFFF ∧
    ∀ x : FRef, famAddr x.fam 0 0 ≠ famAddr .seaScCntGroup 0 0 → famAddr x.fam 0 0 ≠ famAddr .seaScCntFail 0 0 → u.reg x = s.reg x := by
  have hmem : ∀ now : Nat, { h with closed := some now } ∈ ((s.setGroup { h with closed := some now }).sc.forget now).groups := fun now =>
    List.mem_filter.2 ⟨List.mem_map.2 ⟨h, List.mem_of_find?_eq_some hh, if_pos rfl⟩, by simp [sec]⟩
  intro u
  unfold u State.closing
  extract_lets a b c
  have ha : Only [.sc] s a := by simp [only_iff, a, State.setGroup]
  obtain ⟨hb, hbsc, hbnow, hbreg, hbothers⟩ := a.bumpIf counted F.seaScCntGroup rfl rfl
  obtain ⟨hc, hcsc, hcnow, hcreg, hcothers⟩ := b.bumpIf failed F.seaScCntFail rfl rfl
  have hsc : c.sc = a.sc := hcsc.trans hbsc
  have hnow : c.now = s.now := hcnow.trans hbnow
  have hlast : Only [.sc] c { c with sc := c.sc.forget c.now } := by simp [only_iff]
  refine ⟨?_, only_mono (((ha.trans hb).trans hc).trans hlast) (by simp), fun hno hnf => ?_, ?_, ?_, fun x hx hx' => ?_⟩
  · show _ ∈ (c.sc.forget c.now).groups
    rw [hsc, hnow]
    exact hmem s.now
  · have hsame : c = a := by simp [c, b, hno, hnf]
    rw [hsame] at hlast ⊢
    exact only_mono (ha.trans hlast) (by simp)
  · exact (hcothers _ (by decide)).trans hbreg
  · exact hcreg.trans (by rw [hbothers _ (by decide)]; rfl)
  · exact (hcothers x hx').trans (hbothers x hx)

theorem does_groupClose {s : State} {t num : Nat} {g h : Group} {u : State} {effect : State → Prop} (hon : s.pow.on = true)
    (hg : s.group? num = some g) (hopen : g.closed = none) (hdue : g.closeAt ≤ (s.tick t).ctime)
    (hu : u = if g.won = false ∧ 2 ≤ g.parts.length then (s.tick t).tryGroup g else s.tick t) (hh : u.group? num = some h)
    (heffect : effect (u.closing h (decide (g.won = false ∧ h.won = false ∧ 2 ≤ h.copies.length))
      (decide (h.won = false ∧ 2 ≤ h.tried.length)))) : Does (.groupClose t num) s effect := by
  refine does_whenOn hon ?_
  rw [show (s.tick t).group? num = some g from hg]
  dsimp only
  rw [if_neg (by simp [hopen]; omega), ← hu, hh]
  simpa only [State.closing, decide_eq_true_eq] using heffect

/-- At the manager, with combining on, a fragment is taken. -/
theorem does_fragment {s : State} {t : Nat} {m : SeamMsg} (htakes : Takes s m) (hrole : s.sea.role = 6) (hen : s.flag F.seaScCtlEn = true)
    {effect : State → Prop} (heffect : effect (((s.tick t).noteSeam m).fragment m.station m.body)) : Does (.scMetrics t m) s effect := by
  refine does_seam htakes execScMetrics ?_
  rw [if_neg (show ¬((s.tick t).noteSeam m).sea.role ≠ 6 from not_not.2 hrole),
    if_neg (show ¬(!((s.tick t).noteSeam m).flag F.seaScCtlEn) = true by
      rw [show ((s.tick t).noteSeam m).flag F.seaScCtlEn = true from hen]
      decide)]
  exact heffect

/-- A result that is on its way is sent again, or given up, once its time has come. -/
theorem does_scResultResend {s : State} {t num : Nat} {r : ScSend} (hon : s.pow.on = true) (hr : s.resultOf num = some r)
    {effect : State → Prop} (heffect : effect (
      if (s.tick t).now < r.sent + ms then s.tick t
      else if r.resends < 4 then
        ({ s.tick t with sc := { s.sc with results := s.sc.results.map fun x => if x = r then
          { r with sent := (s.tick t).now, resends := r.resends + 1 } else x } } : State).sendTo r.home 0x11 r.body
      else ((s.tick t).dropResult r).resultNoHome r.body)) : Does (.scResultResend t num) s effect := by
  refine does_whenOn hon ?_
  rw [show (s.tick t).resultOf num = some r from hr]
  exact heffect

theorem State.resultOf_mem {s : State} {num : Nat} {r : ScSend} (h : s.resultOf num = some r) : r ∈ s.sc.results := List.mem_of_find?_eq_some h

theorem State.dropResult_gone (s : State) (r : ScSend) : r ∉ (s.dropResult r).sc.results := fun h => by
  simpa using (List.mem_filter.1 h).2

/-- A result at its home: what is answered, and with what. -/
theorem does_scResult {s : State} {t : Nat} {m : SeamMsg} (htakes : Takes s m) (hfollow : s.sea.follow = some m.station)
    (hlong : 28 ≤ m.body.length) {effect : State → Prop} {u : State} {status : Nat}
    (hres : ((s.tick t).noteSeam m).resultHome m.body = (u, status))
    (heffect : effect (u.sendTo m.station 0x12 (be 2 (beAt m.body 26 2) ++ be 1 status ++ zeros 1))) : Does (.scResult t m) s effect := by
  refine does_seam htakes execScResult ?_
  rw [if_neg (by
    show ¬(s.sea.follow ≠ some m.station ∨ _)
    simp [hfollow]
    omega)]
  dsimp only
  rw [hres]
  exact heffect

/-- One that is not delivered. -/
theorem does_scResult_refused {s : State} {t : Nat} {m : SeamMsg} (htakes : Takes s m) (hfollow : s.sea.follow = some m.station)
    (hlong : 28 ≤ m.body.length) {status : Nat} (hres : ((s.tick t).noteSeam m).resultHome m.body = ((s.tick t).noteSeam m, status)) :
    Does (.scResult t m) s (fun u => Told s u m.station 0x12 (be 2 (beAt m.body 26 2) ++ be 1 status ++ zeros 1) ∧ Only [.eth, .sea] s u) := by
  refine does_scResult htakes hfollow hlong hres ⟨State.sendTo_told (s.noteSeam_same m t) _ _ _, ?_⟩
  have hsend (v : State) (k typ : Nat) (b : List Byte) : Only [.eth, .sea] v (v.sendTo k typ b) := by simp [only_iff]
  exact only_mono ((s.noteSeam_only m t).trans (hsend _ _ _ _)) (by simp)

/-- A data frame in the clear: its record joins the delivery area, and its digest entry those that wait. -/
theorem does_scResult_delivers {s : State} {t : Nat} {m : SeamMsg} (htakes : Takes s m) (hfollow : s.sea.follow = some m.station)
    (hlong : 28 ≤ m.body.length) {f : MacFrame} {short : Nat} {y : Sensor} (hf : macFrame (m.body.drop 28) = some f)
    (hmatch : s.macMatch f = true) (hext : s.sensorByExt (beAt m.body 12 8) = some (short, y)) (hy : s.sensor? short = some y)
    (hstate : y.state = 1) (htyp : f.typ = 1) (hsec : f.sec = false) :
    Does (.scResult t m) s (fun u => Told s u m.station 0x12 (be 2 (beAt m.body 26 2) ++ be 1 0 ++ zeros 1) ∧
      (∀ k x, tget? s.stw.sess k = some x → bit x.kinds 2 = true → 55 + (m.body.drop 28).length ≤ x.maxmsg →
        areaUsed s.stw.area + 39 + (m.body.drop 28).length ≤ 2147483648 → ∃ flags a, a ∈ u.stw.area ∧ a.id = s.stw.nextArea ∧
          a.body = recordBody 3 y.port y.chan flags (s.senderShort f) f.seq ((s.senderExt f).getD 0) (beAt m.body 0 4) (beAt m.body 4 8)
            (octet m.body 23) 0 (m.body.drop 28)) ∧
      (y.digest = true → f.ackReq = true → f.broadcast = false →
        ({ short := short, seq := f.seq, margin := octet m.body 23, born := max s.now t, hold := s.holdNs } : DigestEntry) ∈
          u.sc.digests)) := by
  set v := (s.tick t).noteSeam m with hv
  have hres := v.resultHome_delivers m.body hf hmatch hext hy hstate htyp hsec
  set r := v.airRecord 3 y.port y.chan (beAt m.body 0 4) (beAt m.body 4 8) (octet m.body 23) f with hr
  generalize hw : v.deliverRec r false f.rest = w at hres
  dsimp only at hres
  have hwdeliver : w = v.deliver 3 (recordBody 3 y.port y.chan r.flags (s.senderShort f) f.seq ((s.senderExt f).getD 0)
      (beAt m.body 0 4) (beAt m.body 4 8) (octet m.body 23) 0 (m.body.drop 28)) := by
    rw [← hw, ← macFrame_whole hf]
    rfl
  have hwparts : w.now = v.now ∧ w.regs = v.regs ∧ w.sea = v.sea := by
    rw [hwdeliver]
    exact ⟨by simp, by simp, by simp⟩
  obtain ⟨hnow, hregs, hsea⟩ := hwparts
  have hups (p : Nat) : (w.ep p).up = (s.ep p).up := by
    obtain ⟨l, hl⟩ := hwdeliver ▸ v.deliver_holds 3 _ p
    rw [hl]
    rfl
  have hwsame : SeamSame s w :=
    ⟨hups, by rw [State.flag, reg_of_regs hregs]; rfl, by rw [State.flag, reg_of_regs hregs]; rfl, reg_of_regs hregs _ _ _,
      reg_of_regs hregs _ _ _, by rw [hsea]; rfl⟩
  have hrecord : ∀ k x, tget? s.stw.sess k = some x → bit x.kinds 2 = true → 55 + (m.body.drop 28).length ≤ x.maxmsg →
      areaUsed s.stw.area + 39 + (m.body.drop 28).length ≤ 2147483648 → ∃ flags a, a ∈ w.stw.area ∧ a.id = s.stw.nextArea ∧
        a.body = recordBody 3 y.port y.chan flags (s.senderShort f) f.seq ((s.senderExt f).getD 0) (beAt m.body 0 4) (beAt m.body 4 8)
          (octet m.body 23) 0 (m.body.drop 28) := by
    intro k x hx hkind hfits hroom
    have hlength := recordBody_length 3 y.port y.chan r.flags (s.senderShort f) f.seq ((s.senderExt f).getD 0) (beAt m.body 0 4)
      (beAt m.body 4 8) (octet m.body 23) 0 (m.body.drop 28)
    generalize hbodyeq : recordBody 3 y.port y.chan r.flags (s.senderShort f) f.seq ((s.senderExt f).getD 0) (beAt m.body 0 4) (beAt m.body 4 8)
      (octet m.body 23) 0 (m.body.drop 28) = body at hlength hwdeliver
    obtain ⟨a, ha, hid, hbody⟩ := v.deliver_area 3 body (k := k) (x := x) hx hkind (by omega)
      (Nat.le_trans (show areaUsed s.stw.area + body.length ≤ areaUsed s.stw.area + 39 + (m.body.drop 28).length by omega) hroom)
    exact ⟨r.flags, a, hwdeliver ▸ ha, hid, hbody.trans hbodyeq.symm⟩
  have hsent (u : State) (k typ : Nat) (b : List Byte) : (u.sendTo k typ b).stw = u.stw ∧ (u.sendTo k typ b).sc = u.sc := ⟨by simp, by simp⟩
  by_cases hdigest : (y.digest && f.ackReq && !f.broadcast) = true
  · rw [if_pos hdigest] at hres
    obtain ⟨hmem, hsame, harea⟩ := w.addDigest_does short y f.seq (octet m.body 23)
    have hall : SeamSame s (w.addDigest short y f.seq (octet m.body 23)) := hwsame.trans hsame
    refine does_scResult htakes hfollow hlong hres ⟨State.sendTo_told hall _ _ _, ?_, fun _ _ _ => ?_⟩
    · rw [(hsent _ _ _ _).1, harea]
      exact hrecord
    · rw [(hsent _ _ _ _).2]
      rw [hnow, State.holdNs, reg_of_regs hregs] at hmem
      exact hmem
  · rw [if_neg hdigest] at hres
    refine does_scResult htakes hfollow hlong hres ⟨State.sendTo_told hwsame _ _ _, ?_, fun h1 h2 h3 => absurd (by simp [h1, h2, h3]) hdigest⟩
    rw [(hsent _ _ _ _).1]
    exact hrecord

theorem State.checkGroup_does (s : State) (g : Group) :
    Only [.regs, .cip] s (s.checkGroup g) ∧ (s.checkGroup g).sc = s.sc ∧
      (s.checkGroup g).reg F.chkCntJobs = min (s.reg F.chkCntJobs + 1) 0xFFFFFFFF ∧ SeaCounts s (s.checkGroup g) := by
  obtain ⟨honly, hjobs, hcounts⟩ := s.checkDone_does (ofLe (fcsOf (phrFcs4 g.phr) ((decided g.parts g.len).take
    (g.len - (if phrFcs4 g.phr then 4 else 2))))) (ofLe ((decided g.parts g.len).drop (g.len - (if phrFcs4 g.phr then 4 else 2))))
  exact ⟨honly, by simp [State.checkGroup], hjobs, hcounts⟩

/-- A group closes, after a last attempt where none has succeeded. -/
theorem does_groupClose_ends {s : State} {t num : Nat} {g : Group} (hon : s.pow.on = true) (hg : s.group? num = some g)
    (hopen : g.closed = none) (hdue : g.closeAt ≤ (s.tick t).ctime) :
    Does (.groupClose t num) s (fun u =>
      (∃ g', g' ∈ u.sc.groups ∧ g'.num = num ∧ g'.closed = some (max s.now t)) ∧
      (g.won = true ∨ g.copies.length < 2 → g.tried.length < 2 → Only [.sc] s u) ∧
      (g.won = false → 2 ≤ g.parts.length → s.checkUnit = true → g.attempt = none →
        u.reg F.seaScCntGroup = min (s.reg F.seaScCntGroup + 1) 0xFFFFFFFF ∧
        u.reg F.seaScCntFail = min (s.reg F.seaScCntFail + 1) 0xFFFFFFFF ∧
        u.reg F.chkCntJobs = min (s.reg F.chkCntJobs + 1) 0xFFFFFFFF ∧ Only [.regs, .sc, .cip] s u) ∧
      (g.won = false → 2 ≤ g.parts.length → s.checkUnit = false →
        u.reg F.seaScCntGroup = min (s.reg F.seaScCntGroup + 1) 0xFFFFFFFF ∧
        u.reg F.seaScCntFail = min (s.reg F.seaScCntFail + (if 2 ≤ g.tried.length then 1 else 0)) 0xFFFFFFFF ∧
        Only [.regs, .sc] s u) ∧
      (g.won = false → 2 ≤ g.parts.length → s.checkUnit = true → g.attempt.isSome = true →
        u.reg F.seaScCntOk = min (s.reg F.seaScCntOk + 1) 0xFFFFFFFF ∧
        u.reg F.seaScCntGroup = min (s.reg F.seaScCntGroup + 1) 0xFFFFFFFF)) := by
  have hparts : g.parts.length ≤ g.copies.length := List.length_filter_le _ _
  have hnum := State.group?_num hg
  by_cases hrun : g.won = false ∧ 2 ≤ g.parts.length
  · obtain ⟨hwon, htwo⟩ := hrun
    have hcount (h : Group) (hcopies : h.copies = g.copies) (b : Bool) (hb : h.won = b) :
        decide (g.won = false ∧ h.won = false ∧ 2 ≤ h.copies.length) = !b := by
      cases b <;> simp [hwon, hb, hcopies]
      omega
    cases hunit : s.checkUnit with
    | false =>
      have htry : (s.tick t).tryGroup g = s.tick t := State.tryGroup_out g hunit
      refine does_groupClose hon hg hopen hdue (u := s.tick t) (by rw [if_pos ⟨hwon, htwo⟩, htry]) (h := g) hg ?_
      rw [hcount g rfl _ hwon]
      obtain ⟨hmem, honly, -, hgroup, hfail, -⟩ := State.closing_does (s := s.tick t) (num := num) (h := g) hg true
        (decide (g.won = false ∧ 2 ≤ g.tried.length))
      refine ⟨⟨_, hmem, hnum, rfl⟩, fun hor _ => ?_, fun _ _ hu => absurd hu (by simp), fun _ _ _ => ⟨hgroup, ?_, ?_⟩,
        fun _ _ hu => absurd hu (by simp)⟩
      · rcases hor with h | h
        · exact absurd (hwon.symm.trans h) (by decide)
        · omega
      · simpa [hwon] using hfail
      · exact only_mono ((s.tick_only t).trans honly) (by simp)
    | true =>
      cases hmac : g.attempt with
      | none =>
        obtain ⟨hcheck, hsc, hjobs, hcounts⟩ := (s.tick t).checkGroup_does g.attempted
        have hvnow : ((s.tick t).checkGroup g.attempted).now = max s.now t := by simp [State.checkGroup, State.tick]
        have htry : (s.tick t).tryGroup g = ((s.tick t).checkGroup g.attempted).setGroup g.attempted := State.tryGroup_fails hunit hmac
        generalize (s.tick t).checkGroup g.attempted = v at hcheck hsc hjobs hcounts hvnow htry
        have hfound : v.group? num = some g := by rw [State.group?, hsc]; exact hg
        have hgroup' : (v.setGroup g.attempted).group? num = some g.attempted := v.group?_setGroup hfound hnum
        refine does_groupClose hon hg hopen hdue (by rw [if_pos ⟨hwon, htwo⟩, htry]) hgroup' ?_
        rw [hcount g.attempted rfl _ hwon, Bool.not_false]
        have htried : decide (g.attempted.won = false ∧ 2 ≤ g.attempted.tried.length) = true := by
          simpa [Group.attempted, hwon] using htwo
        rw [htried]
        obtain ⟨hmem, honly, -, hgroup, hfail, hothers⟩ := State.closing_does hgroup' true true
        have hset : Only [.sc] v (v.setGroup g.attempted) := by simp [only_iff, State.setGroup]
        have hnow : (v.setGroup g.attempted).now = max s.now t := hvnow
        refine ⟨⟨_, hmem, hnum, congrArg some hnow⟩, fun hor _ => ?_, fun _ _ _ _ => ⟨?_, ?_, ?_, ?_⟩, fun _ _ hu => absurd hu (by simp),
          fun _ _ _ hsome => absurd hsome (by simp)⟩
        · rcases hor with h | h
          · exact absurd (hwon.symm.trans h) (by decide)
          · omega
        · rw [hgroup]
          exact congrArg (fun n => min (n + 1) 0xFFFFFFFF) (hcounts F.seaScCntGroup (by decide) (by decide))
        · rw [hfail]
          exact congrArg (fun n => min (n + 1) 0xFFFFFFFF) (hcounts F.seaScCntFail (by decide) (by decide))
        · exact (hothers F.chkCntJobs (by decide) (by decide)).trans hjobs
        · exact only_mono ((((s.tick_only t).trans hcheck).trans hset).trans honly) (by simp)
      | some mac =>
        obtain ⟨-, hsc, -, hcounts⟩ := (s.tick t).checkGroup_does g.attempted
        have hvnow : ((s.tick t).checkGroup g.attempted).now = max s.now t := by simp [State.checkGroup, State.tick]
        have htry := State.tryGroup_wins (s := s.tick t) hunit hmac
        generalize (s.tick t).checkGroup g.attempted = v at hsc hcounts hvnow htry
        set h : Group := { g.attempted with won := true } with hh
        have hfound : v.group? num = some g := by rw [State.group?, hsc]; exact hg
        have hgroup' : (v.setGroup h).group? num = some h := v.group?_setGroup hfound hnum
        set c := ((v.setGroup h).bump F.seaScCntOk).bump F.seaScCntGroup with hc
        have hsend := c.sendResult_counts g.attempted mac
        have hdfound : (c.sendResult g.attempted mac).group? num = some h := by
          rw [State.group?, State.sendResult_groups]
          exact hgroup'
        have hdnow : (c.sendResult g.attempted mac).now = max s.now t := (by simp : (c.sendResult g.attempted mac).now = c.now).trans hvnow
        generalize c.sendResult g.attempted mac = d at hsend hdfound hdnow htry
        refine does_groupClose hon hg hopen hdue (by rw [if_pos ⟨hwon, htwo⟩, htry]) hdfound ?_
        rw [hcount h rfl true rfl, Bool.not_true, show decide (h.won = false ∧ 2 ≤ h.tried.length) = false by simp [h]]
        obtain ⟨hmem, -, -, hgroup, -, hothers⟩ := State.closing_does hdfound false false
        refine ⟨⟨_, hmem, hnum, congrArg some hdnow⟩, fun hor _ => ?_, fun _ _ _ hno => absurd hno (by simp),
          fun _ _ hu => absurd hu (by simp), fun _ _ _ _ => ⟨?_, ?_⟩⟩
        · rcases hor with h | h
          · exact absurd (hwon.symm.trans h) (by decide)
          · omega
        · rw [hothers F.seaScCntOk (by decide) (by decide), hsend _ (by decide) (by decide), hc, State.reg_bump_ne _ _ _ _ _ _ (by decide),
            State.bump_full _ _ rfl rfl]
          exact congrArg (fun n => min (n + 1) 0xFFFFFFFF) (hcounts F.seaScCntOk (by decide) (by decide))
        · rw [hgroup, hsend _ (by decide) (by decide), hc, State.bump_full _ _ rfl rfl,
            State.reg_bump_ne _ _ _ _ _ _ (by decide)]
          rw [if_neg (by decide), Nat.add_zero, min_assoc, min_self]
          exact congrArg (fun n => min (n + 1) 0xFFFFFFFF) (hcounts F.seaScCntGroup (by decide) (by decide))
  · refine does_groupClose hon hg hopen hdue (u := s.tick t) (by rw [if_neg hrun]) (h := g) hg ?_
    obtain ⟨hmem, -, honly, -⟩ := State.closing_does (s := s.tick t) (num := num) (h := g) hg
      (decide (g.won = false ∧ g.won = false ∧ 2 ≤ g.copies.length)) (decide (g.won = false ∧ 2 ≤ g.tried.length))
    refine ⟨⟨_, hmem, hnum, rfl⟩, fun hor htried => ?_, fun h1 h2 => absurd ⟨h1, h2⟩ hrun, fun h1 h2 => absurd ⟨h1, h2⟩ hrun,
      fun h1 h2 => absurd ⟨h1, h2⟩ hrun⟩
    refine only_mono ((s.tick_only t).trans (honly (decide_eq_false fun h => ?_) (decide_eq_false fun h => ?_))) (by simp)
    · rcases hor with hw | hc
      · exact absurd (h.1.symm.trans hw) (by decide)
      · omega
    · omega

/-- Settles O53. -/
theorem softCombiningRuns : Obligations.SoftCombiningRuns := by
  unfold Obligations.SoftCombiningRuns
  constructor
  · intro t m s htakes now b h data whole answer
    have honly : Only [.sea] s ((s.tick t).noteSeam m) := s.noteSeam_only m t
    refine ⟨fun hrole => ?_, fun hrole hen => ?_, fun hrole hen hpart => ?_, fun hrole hen hwhole hholds hgone hgroup hroom hnum => ?_,
      fun g hrole hen hwhole hholds hclosed => ?_, fun hfollow hlong => ⟨fun hno => ?_, fun f hf => ⟨fun hmatch => ?_, fun hmatch hext => ?_,
      fun short y hmatch hext hstate => ?_, fun short y hmatch hext hy hstate htyp hsec => ?_⟩⟩, fun r hlen hr hhome => ?_, fun hno => ?_⟩
    · refine does_seam htakes execScMetrics ?_
      rw [if_pos (show ((s.tick t).noteSeam m).sea.role ≠ 6 from hrole)]
      exact honly
    · refine does_seam htakes execScMetrics ?_
      rw [if_neg (show ¬((s.tick t).noteSeam m).sea.role ≠ 6 from not_not.2 hrole),
        if_pos (show (!((s.tick t).noteSeam m).flag F.seaScCtlEn) = true from congrArg not hen)]
      have hbump (v : State) : Only [.regs] v (v.bump F.seaScCntDrop) := by simp [only_iff]
      exact ⟨State.reg_bump _ _ _ (by decide) (by decide), only_mono (honly.trans (hbump _)) (by simp)⟩
    · refine does_fragment htakes hrole hen ?_
      unfold State.fragment
      dsimp only
      rw [if_pos (by
        by_contra hcon
        exact hpart (by simp only [whole, data, b]; omega))]
      exact honly
    · obtain ⟨hbytes, hdata, hmax, hplane⟩ := hwhole
      refine does_fragment htakes hrole hen ?_
      obtain ⟨hnext, hfrag, hstay, hgroup⟩ := ((s.tick t).noteSeam m).fragment_begins m.station m.body hbytes hdata hmax hplane hholds hgone
        hgroup hroom hnum
      exact ⟨hnext, only_mono (honly.trans hfrag) (by simp), hstay, hgroup⟩
    · obtain ⟨hbytes, hdata, hmax, hplane⟩ := hwhole
      refine does_fragment htakes hrole hen ?_
      have hlate : ((s.tick t).noteSeam m).fragment m.station m.body = ((s.tick t).noteSeam m).bump F.seaScCntLate := by
        unfold State.fragment
        dsimp only
        rw [if_neg (show ¬(m.body.length < 33 ∨ beAt m.body 30 2 ≠ (m.body.drop 32).length ∨ 1408 < (m.body.drop 32).length ∨
          3 < octet m.body 26 / 16) by
            have hbytes : 33 ≤ m.body.length := hbytes
            have hdata : beAt m.body 30 2 = (m.body.drop 32).length := hdata
            have hmax : (m.body.drop 32).length ≤ 1408 := hmax
            have hplane : octet m.body 26 / 16 ≤ 3 := hplane
            omega), show ((s.tick t).noteSeam m).holds m.station (scHead m.body).rxid = some g from hholds]
        exact if_pos hclosed
      rw [hlate]
      have hbump (v : State) : Only [.regs] v (v.bump F.seaScCntLate) := by simp [only_iff]
      exact ⟨State.reg_bump _ _ _ (by decide) (by decide), only_mono (honly.trans (hbump _)) (by simp)⟩
    · exact does_scResult_refused htakes hfollow hlong (State.resultHome_refused _ _ (.inl hno))
    · exact does_scResult_refused htakes hfollow hlong (State.resultHome_refused _ _ (.inr ⟨f, hf, hmatch⟩))
    · exact does_scResult_refused htakes hfollow hlong (State.resultHome_strange _ _ hf hmatch (.inl hext))
    · exact does_scResult_refused htakes hfollow hlong (State.resultHome_strange _ _ hf hmatch (.inr ⟨short, y, hext, hstate⟩))
    · exact does_scResult_delivers htakes hfollow hlong hf hmatch hext hy hstate htyp hsec
    · refine does_seam htakes execScResultAck ?_
      rw [if_neg (not_not.2 hlen), show ((s.tick t).noteSeam m).resultOf (beAt m.body 0 2) = some r from hr]
      dsimp only
      rw [if_neg (not_not.2 hhome)]
      split
      next htwo =>
        refine ⟨?_, fun h => absurd htwo h⟩
        rw [show ((((s.tick t).noteSeam m).dropResult r).resultNoHome r.body).sc = (((s.tick t).noteSeam m).dropResult r).sc by simp]
        exact State.dropResult_gone _ r
      next =>
        have hdrop (v : State) : Only [.sc] v (v.dropResult r) := by simp [only_iff, State.dropResult]
        exact ⟨State.dropResult_gone _ r, fun _ => only_mono (honly.trans (hdrop _)) (by simp)⟩
    · refine does_seam htakes execScResultAck ?_
      rcases hno with hlen | hno
      · rw [if_pos hlen]
        exact honly
      · rw [show ((s.tick t).noteSeam m).resultOf (beAt m.body 0 2) = none from hno]
        dsimp only
        rw [ite_self]
        exact honly
  · intro t num s hon now
    refine ⟨fun g hg => ⟨fun hopen hdue => ?_, fun hno => ?_⟩, fun r hr => ⟨fun hdue hfew => ?_, fun hdue hmany => ?_,
      fun hearly => ?_⟩, fun seq => ?_⟩
    · exact does_groupClose_ends hon hg hopen hdue
    · refine does_whenOn hon ?_
      rw [show (s.tick t).group? num = some g from hg]
      dsimp only
      rw [if_pos hno]
      exact s.tick_only t
    · refine does_scResultResend hon hr ?_
      rw [if_neg (show ¬(s.tick t).now < r.sent + ms from Nat.not_lt.2 hdue), if_pos hfew]
      generalize hv : ({ s.tick t with sc := { s.sc with results := s.sc.results.map fun x => if x = r then
          { r with sent := (s.tick t).now, resends := r.resends + 1 } else x } } : State) = v
      have hsame : SeamSame s v := hv ▸ .of_parts rfl rfl rfl
      have honly : Only [.sc] s v := only_mono ((s.tick_only t).trans (by simp [← hv, only_iff] : Only [.sc] (s.tick t) v)) (by simp)
      have hsc : { r with sent := now, resends := r.resends + 1 } ∈ v.sc.results := by
        rw [← hv]
        exact List.mem_map.2 ⟨r, State.resultOf_mem hr, if_pos rfl⟩
      refine ⟨State.sendTo_told hsame _ _ _, ?_, ?_⟩
      · rw [show (v.sendTo r.home 0x11 r.body).sc = v.sc by simp]
        exact hsc
      · have hsend : Only [.eth, .sea] v (v.sendTo r.home 0x11 r.body) := by simp [only_iff]
        exact only_mono (honly.trans hsend) (by simp)
    · refine does_scResultResend hon hr ?_
      rw [if_neg (show ¬(s.tick t).now < r.sent + ms from Nat.not_lt.2 hdue), if_neg (by omega)]
      rw [show (((s.tick t).dropResult r).resultNoHome r.body).sc = ((s.tick t).dropResult r).sc by simp]
      exact State.dropResult_gone _ r
    · refine does_scResultResend hon hr ?_
      rw [if_pos (show (s.tick t).now < r.sent + ms from hearly)]
      exact s.tick_only t
    · refine does_whenOn hon ?_
      refine ⟨only_mono ((s.tick_only t).trans (by simp [only_iff] : Only [.sc] (s.tick t) _)) (by simp), rfl, fun e he hshort hseq => ?_,
        fun e he hstay => List.mem_filter.2 ⟨he, ?_⟩⟩
      · have hlate := (List.mem_filter.1 he).2
        simp only [hshort, hseq, decide_true, Bool.true_and, Bool.not_eq_true', decide_eq_false_iff_not, Nat.not_le] at hlate
        exact hlate
      · rcases hstay with hshort | hseq | hlate
        · simp [hshort]
        · simp [hseq]
        · rw [show decide (e.born + e.hold ≤ (s.tick t).now) = false from decide_eq_false (Nat.not_le.2 hlate), Bool.and_false]
          rfl

end Sys2Proof.Machine
end

section
/-!
SUPPORT. What seam work leaves as it was, roles, claims and the mirror; statement O52.
-/

namespace Sys2Proof.Machine

-- Proofs one after another: the text is long, and is checked in bounded memory.
set_option Elab.async false

open Sys2Proof Sys2Proof.Safety

/-! ## Seam work: what it leaves as it was -/

/-- From `s` to `u` seam messages and answers may have gone out: frames stay, sessions go on but for tags of commands that have been
answered, and the steward, the clock and what seam messages are made of are as they were. -/
structure SeamWork (s u : State) : Prop where
  frames : FramesStay s u
  answered : Answered s u
  same : SeamSame s u
  pairs : u.pairActive = s.pairActive
  fw : u.fwRuns = s.fwRuns
  epoch : u.lin.epoch = s.lin.epoch
  now : u.now = s.now
  flights : ∀ g ∈ u.stw.flights, ∃ f ∈ s.stw.flights, f.ref = g.ref

namespace SeamWork

variable {s u v : State}

theorem refl (s : State) : SeamWork s s := ⟨.of_eth rfl, .of_sess rfl, .of_parts rfl rfl rfl, rfl, rfl, rfl, rfl, fun g h => ⟨g, h, rfl⟩⟩

theorem trans (h : SeamWork s u) (k : SeamWork u v) : SeamWork s v where
  frames := h.frames.trans k.frames
  answered := h.answered.trans k.answered
  same := h.same.trans k.same
  pairs := k.pairs.trans h.pairs
  fw := k.fw.trans h.fw
  epoch := k.epoch.trans h.epoch
  now := k.now.trans h.now
  flights := fun g hg => by
    obtain ⟨f, hf, hfg⟩ := k.flights g hg
    obtain ⟨e, he, hef⟩ := h.flights f hf
    exact ⟨e, he, hef.trans hfg⟩

theorem after (k : SeamWork u v) (h : SeamWork s u) : SeamWork s v := h.trans k

theorem foldl {β : Type} (f : State → β → State) (l : List β) (h : ∀ u, ∀ b ∈ l, SeamWork u (f u b)) (s : State) : SeamWork s (l.foldl f s) :=
  List.foldlRecOn (motive := fun u => SeamWork s u) l f (refl s) fun u hu b hb => hu.trans (h u b hb)

/-- Only the cluster's state changes, and not the stations it has heard. -/
theorem setSea (s : State) (x : Sea) (hx : x.peers = s.sea.peers) : SeamWork s (s.setSea x) :=
  ⟨.of_eth rfl, .of_sess rfl, .of_parts rfl rfl hx, rfl, rfl, rfl, rfl, fun g h => ⟨g, h, rfl⟩⟩

/-- An event raised after seam work is raised. -/
theorem raised {at_ code block inst : Nat} {data : List Byte} (h : SeamWork s u) (hraised : Raised u v at_ code block inst data) :
    Raised s v at_ code block inst data := h.answered.raised h.fw h.epoch hraised

theorem holds (h : SeamWork s u) : SessionsHold s u := by
  intro k x hx
  obtain ⟨y, hy, hxy⟩ := h.answered k x hx
  exact ⟨y, hy, ⟨by rw [hxy], by rw [hxy]⟩, fun e he => by rw [hxy]; exact he⟩

end SeamWork

theorem told_stay {s u v : State} {k typ : Nat} {body : List Byte} (h : Told s u k typ body) (hstay : FramesStay u v) :
    Told s v k typ body := by
  intro x a hup hpeer haddr hcarrier
  obtain ⟨f, hf, hrest⟩ := h x a hup hpeer haddr hcarrier
  exact ⟨f, queued_stay hf hstay, hrest⟩

theorem cast_stay {s u v : State} {q typ : Nat} {body : List Byte} (h : Cast s u q typ body) (hstay : FramesStay u v) : Cast s v q typ body := by
  intro hup hcarrier
  obtain ⟨f, hf, hrest⟩ := h hup hcarrier
  exact ⟨f, queued_stay hf hstay, hrest⟩

theorem ups_of_stay {s u : State} (h : FramesStay s u) (p : Nat) : (u.ep p).up = (s.ep p).up := (h p).1

theorem State.sendTo_frames (s : State) (k typ : Nat) (body : List Byte) : FramesStay s (s.sendTo k typ body) := by
  have hqueue (v : State) (c : Bool) (p : Nat) (f : Frame) : FramesStay v (if c then v.queueFrame p 1 false f else v) := by
    split
    · exact v.queueFrame_stay _ _ _ _
    · exact .of_eth rfl
  unfold State.sendTo
  split
  · exact .of_eth rfl
  dsimp only
  split
  · exact .of_eth rfl
  split
  · exact .of_eth rfl
  · exact (hqueue _ _ _ _).after ((hqueue s.nextSeq _ _ _).after (.of_eth rfl))

theorem State.sendTo_work (s : State) (k typ : Nat) (body : List Byte) : SeamWork s (s.sendTo k typ body) := by
  obtain ⟨q, hq⟩ := s.sendTo_sea k typ body
  have hframes := s.sendTo_frames k typ body
  have hregs : (s.sendTo k typ body).regs = s.regs := by simp
  exact ⟨hframes, .of_sess (by simp), ⟨fun p => (hframes p).1, by rw [State.flag, reg_of_regs hregs]; rfl,
    by rw [State.flag, reg_of_regs hregs]; rfl, reg_of_regs hregs _ _ _, reg_of_regs hregs _ _ _, by rw [hq]⟩,
    by simp [State.pairActive], by simp [State.fwRuns, State.pairActive], by simp, by simp, fun g hg => ⟨g, by simpa using hg, rfl⟩⟩

theorem State.finishRef_work (s : State) (ref status : Nat) (o : List Byte) : SeamWork s (s.finishRef ref status o) := by
  have hframes := s.finishRef_frames ref status o
  have hregs : (s.finishRef ref status o).regs = s.regs := by simp
  refine ⟨hframes, s.finishRef_answered ref status o, ⟨fun p => (hframes p).1, by rw [State.flag, reg_of_regs hregs]; rfl,
    by rw [State.flag, reg_of_regs hregs]; rfl, reg_of_regs hregs _ _ _, reg_of_regs hregs _ _ _, by simp⟩,
    by simp [State.pairActive], by simp [State.fwRuns, State.pairActive], by simp, by simp, (s.finishRef_flights ref status o).1⟩

theorem State.releaseWait_work (s : State) (w : MirrorFor) : SeamWork s (s.releaseWait w) := by
  cases w with
  | put ref => exact s.finishRef_work ref Status.ok []
  | claim k ext => exact s.sendTo_work k 0x0A (be 8 ext)

theorem State.releaseMirrored_work (s : State) : SeamWork s s.releaseMirrored :=
  (SeamWork.foldl _ _ (fun u (w : MirrorWait) _ => u.releaseWait_work w.what) _).after (.setSea s _ rfl)

theorem State.dropWaits_work (s : State) : SeamWork s s.dropWaits := by
  refine SeamWork.after (.foldl _ _ (fun u w _ => ?_) _) (.setSea s _ rfl)
  split
  · exact u.finishRef_work _ _ _
  · exact .refl u

theorem State.whenMirrored_work (s : State) (n : Nat) (w : MirrorFor) : SeamWork s (s.whenMirrored n w) := by
  unfold State.whenMirrored
  split
  · exact .setSea s _ rfl
  · exact s.releaseWait_work w

theorem State.regChange_work (s : State) (ext : Nat) (e : RegEntry) : SeamWork s (s.regChange ext e) := by
  unfold State.regChange
  dsimp only
  split
  · exact .setSea s _ rfl
  · exact (State.sendTo_work _ _ _ _).after (.after (.setSea _ _ rfl) (.setSea s _ rfl))

theorem State.claimAt_work (s : State) (k ext : Nat) (e : RegEntry) (ack : Bool) : SeamWork s (s.claimAt k ext e ack) := by
  have hrelease : SeamWork s (if ack then s.releaseWait (.claim k ext) else s) := by
    split
    · exact s.releaseWait_work _
    · exact .refl s
  unfold State.claimAt
  split
  next y _ =>
    split
    · exact hrelease
    · dsimp only
      split
      · exact (s.regChange_work ext y).trans (State.whenMirrored_work _ _ _)
      · exact s.regChange_work ext y
  next => exact hrelease

theorem State.sendClaim_work (s : State) (c : Claim) : SeamWork s (s.sendClaim c) := by
  unfold State.sendClaim
  split
  · exact .refl s
  extract_lets d put
  split
  · split
    · exact .trans (s.claimAt_work _ _ _ _) (.setSea _ _ rfl)
    · exact .trans (s.claimAt_work _ _ _ _) (.setSea _ _ rfl)
  · split
    · exact .refl s
    · split
      · exact (State.sendTo_work _ _ _ _).after (.setSea s _ rfl)
      · exact .refl s

theorem State.resendClaims_work (s : State) : SeamWork s s.resendClaims := .foldl _ _ (fun u c _ => u.sendClaim_work c) s

theorem State.appoint_work (s : State) : SeamWork s s.appoint := by
  unfold State.appoint
  split
  · exact .refl s
  split
  · exact .refl s
  · exact (State.sendTo_work _ _ _ _).after (.setSea s _ rfl)

theorem State.sendLeave_work (s : State) : SeamWork s s.sendLeave := by
  unfold State.sendLeave
  (repeat' split)
  · exact s.sendTo_work _ _ _
  · exact .refl s
  · exact s.sendTo_work _ _ _
  · exact .refl s

/-! ## Seam messages to every station -/

theorem State.castOn_frames (s : State) (port q pcp : Nat) (bytes : List Byte) : FramesStay s (s.castOn port q pcp bytes) := by
  have hqueue (v : State) (c : Bool) (f : Frame) : FramesStay v (if c then v.queueFrame port q false f else v) := by
    split
    · exact v.queueFrame_stay _ _ _ _
    · exact .of_eth rfl
  unfold State.castOn
  exact (hqueue s _ _).trans (hqueue _ _ _)

theorem State.castOn_cast {s v : State} (h : SeamSame s v) (port q pcp typ : Nat) (body bytes : List Byte)
    (hbytes : SeamText s typ 0xFFFF body bytes) : Cast s (v.castOn port q pcp bytes) q typ body := by
  intro _ hcarrier
  unfold State.castOn
  dsimp only
  rw [h.raw]
  by_cases hraw : s.flag F.seaXportRawEn = true
  · rw [if_pos hraw]
    split
    · exact ⟨_, queued_stay (State.queueFrame_queued _ _ _ _ _) (State.queueFrame_stay _ _ _ _ _), rfl, hbytes⟩
    · exact ⟨_, State.queueFrame_queued _ _ _ _ _, rfl, hbytes⟩
  · rw [if_neg hraw, h.udp, if_pos (hcarrier.resolve_left hraw)]
    exact ⟨_, State.queueFrame_queued _ _ _ _ _, rfl, hbytes⟩

theorem SeamSame.nextSeq (s : State) : SeamSame s s.nextSeq := .of_parts rfl rfl rfl

theorem State.castOne_cast {s v : State} (h : SeamSame s v) (typ : Nat) (body : List Byte) : Cast s (v.castOne typ body) 1 typ body := by
  intro hup hcarrier
  unfold State.castOne
  have hon : ¬(!v.anyUp || !v.seamCarried) = true := by
    rw [h.anyUp, hup, State.seamCarried, h.raw, h.udp]
    rcases hcarrier with hc | hc <;> simp [hc]
  rw [if_neg hon]
  exact State.castOn_cast (h.trans (.nextSeq v)) _ _ _ typ body _ (h.text typ 0xFFFF body) hup hcarrier

/-! ## A change of role (11 R260) -/

/-- The event of a station's new role is raised, whatever seam messages have gone out before. -/
theorem State.toRole_raised {s v : State} (h : SeamWork s v) (role reason : Nat) :
    RoleChanged s (v.toRole role reason) v.now v.sea.role role reason := by
  obtain ⟨-, valid, waits, hsea⟩ := v.toRole_does role reason
  refine ⟨by rw [hsea], ?_⟩
  unfold State.toRole
  extract_lets old x sc u y w
  have hu : SeamWork v u := by
    unfold u
    split
    · exact (State.dropWaits_work _).after
        ⟨.of_eth rfl, .of_sess rfl, .of_parts rfl rfl rfl, rfl, rfl, rfl, rfl, fun g hg => ⟨g, hg, rfl⟩⟩
    · exact .refl v
  have hw : SeamWork v w := hu.trans (.setSea u _ rfl)
  have hraise := w.raiseAt_raised w.now 0x601 0x70 0 (be 1 old ++ be 1 role ++ be 1 reason)
    (w.open8s 110 1 ++ be 2 (orNone w.managerOf) ++ be 2 (orNone w.sea.deputy))
  rw [hw.now] at hraise
  refine (h.trans hw).raised ?_
  rw [State.raise, hw.now]
  simpa only [List.append_assoc] using hraise

/-! ## The deputy's mirror (11 R248 to R251) -/

theorem entriesOf_one (b : List Byte) (h : b.length = 32) : Machine.entriesOf b = [Machine.entryOf b] := by
  have hcut : cut b (32 * 0) 32 = b := by
    unfold cut
    rw [Nat.mul_zero, List.drop_zero, List.take_of_length_le (by omega)]
  rw [Machine.entriesOf, h, show 32 / 32 = 1 from rfl, List.range_one, List.map_singleton, hcut]

theorem mirrorBody_one (x : MirrorItem) : mirrorBody [x] = be 4 x.num ++ entryBytes x.ext x.entry (zeros 1) := by
  rw [mirrorBody, List.flatMap_cons, List.flatMap_nil, List.append_nil]

/-- Seam messages sent for the items of a list: each is told. -/
theorem foldl_told {β : Type} {s v : State} (f : State → β → State) (l : List β) (hf : ∀ u, ∀ b ∈ l, SeamWork u (f u b)) (h : SeamWork s v)
    {b : β} (hb : b ∈ l) {k typ : Nat} {body : List Byte} (htold : ∀ u, SeamSame s u → Told s (f u b) k typ body) :
    Told s (l.foldl f v) k typ body := by
  obtain ⟨l₁, l₂, rfl⟩ := List.append_of_mem hb
  rw [List.foldl_append, List.foldl_cons]
  have hfirst : SeamWork v (l₁.foldl f v) := .foldl f l₁ (fun u c hc => hf u c (List.mem_append_left _ hc)) v
  have hlast : SeamWork (f (l₁.foldl f v) b) (l₂.foldl f (f (l₁.foldl f v) b)) :=
    .foldl f l₂ (fun u c hc => hf u c (List.mem_append_right _ (List.mem_cons_of_mem _ hc))) _
  exact told_stay (htold _ (h.trans hfirst).same) hlast.frames

/-- A command that a list of releases answers is in flight no more. -/
theorem foldl_ended {s v : State} (l : List MirrorWait) (h : SeamWork s v) (hpair : s.pairActive = true) {w : MirrorWait} (hw : w ∈ l)
    {ref : Nat} (hwhat : w.what = .put ref) :
    ∀ g ∈ (l.foldl (fun u w => u.releaseWait w.what) v).stw.flights, g.ref ≠ ref := by
  obtain ⟨l₁, l₂, rfl⟩ := List.append_of_mem hw
  rw [List.foldl_append, List.foldl_cons]
  generalize hu : l₁.foldl (fun u (w : MirrorWait) => u.releaseWait w.what) v = u
  have hfirst : SeamWork s u := hu ▸ h.trans (.foldl _ l₁ (fun u w _ => u.releaseWait_work w.what) v)
  intro g hg
  obtain ⟨f, hf, hfg⟩ := (SeamWork.foldl (fun u (w : MirrorWait) => u.releaseWait w.what) l₂ (fun u w _ => u.releaseWait_work w.what)
    (u.releaseWait w.what)).flights g hg
  rw [hwhat] at hf
  rw [← hfg]
  exact (u.finishRef_flights ref Status.ok []).2 (hfirst.pairs.trans hpair) f hf

theorem State.releaseWait_sea (s : State) (w : MirrorFor) : ∃ q, (s.releaseWait w).sea = { s.sea with seq := q } := by
  cases w with
  | put ref => exact ⟨s.sea.seq, by simp [State.releaseWait]⟩
  | claim k ext => exact s.sendTo_sea k 0x0A (be 8 ext)

/-- Of the cluster's state, sending a seam message takes only its sequence forward. -/
def SeqOnly (s u : State) : Prop := ∃ q, u.sea = { s.sea with seq := q }

theorem SeqOnly.foldl {β : Type} (f : State → β → State) (l : List β) (h : ∀ u, ∀ b ∈ l, SeqOnly u (f u b)) (s : State) :
    SeqOnly s (l.foldl f s) :=
  List.foldlRecOn (motive := fun u => SeqOnly s u) l f ⟨s.sea.seq, rfl⟩ fun u hu b hb => by
    obtain ⟨q, hq⟩ := hu
    obtain ⟨q', hq'⟩ := h u b hb
    exact ⟨q', by rw [hq', hq]⟩

theorem State.releaseMirrored_sea (s : State) : ∃ q waits, s.releaseMirrored.sea = { s.sea with seq := q, mwaits := waits } := by
  obtain ⟨q, hq⟩ := SeqOnly.foldl (fun u (w : MirrorWait) => u.releaseWait w.what) _ (fun u w _ => u.releaseWait_sea w.what)
    (s.setSea { s.sea with mwaits := s.sea.mwaits.filter fun w => !(s.sea.mwaits.filter fun w =>
      !(s.sea.synced && (s.sea.mirrors.any fun x => decide (x.num = w.num)))).contains w })
  exact ⟨q, _, hq⟩

/-- What waits for a mirrored change that the deputy has is answered. -/
theorem State.releaseMirrored_does {s v : State} (h : SeamWork s v) {w : MirrorWait} (hw : w ∈ v.sea.mwaits)
    (hgone : ∀ y ∈ v.sea.mirrors, y.num ≠ w.num) :
    (∀ ref, w.what = .put ref → s.pairActive = true → ∀ g ∈ v.releaseMirrored.stw.flights, g.ref ≠ ref) ∧
    ∀ k ext, w.what = .claim k ext → Told s v.releaseMirrored k 0x0A (be 8 ext) := by
  have hready : w ∈ v.sea.mwaits.filter fun w => !(v.sea.synced && (v.sea.mirrors.any fun x => decide (x.num = w.num))) := by
    refine List.mem_filter.2 ⟨hw, ?_⟩
    have hany : (v.sea.mirrors.any fun x => decide (x.num = w.num)) = false :=
      List.any_eq_false.2 fun y hy => by simpa using hgone y hy
    rw [hany, Bool.and_false]
    rfl
  have hset : SeamWork s (v.setSea { v.sea with mwaits := v.sea.mwaits.filter fun w => !(v.sea.mwaits.filter fun w =>
      !(v.sea.synced && (v.sea.mirrors.any fun x => decide (x.num = w.num)))).contains w }) := h.trans (.setSea v _ rfl)
  refine ⟨fun ref hwhat hpair => foldl_ended _ hset hpair hready hwhat, fun k ext hwhat => ?_⟩
  refine foldl_told (fun u (w : MirrorWait) => u.releaseWait w.what) _ (fun u w _ => u.releaseWait_work w.what) hset hready fun u hu => ?_
  rw [hwhat]
  exact State.sendTo_told hu _ _ _

/-- The best member of a list is one of its members, and may be a deputy. -/
theorem bestMember_mem {l : Tab Station} {d : Nat} (h : bestMember l = some d) : ∃ e ∈ l, e.1 = d ∧ e.2.prio ≠ 0 := by
  revert h
  revert d
  unfold bestMember
  refine List.foldlRecOn (motive := fun best : Option Nat => ∀ {d}, best = some d → ∃ e ∈ l, e.1 = d ∧ e.2.prio ≠ 0) _ _ (by simp)
    fun best hbest e he d hd => ?_
  obtain ⟨hmem, hprio⟩ := List.mem_filter.1 he
  have hthis (hed : e.1 = d) : ∃ e ∈ l, e.1 = d ∧ e.2.prio ≠ 0 := ⟨e, hmem, hed, of_decide_eq_true hprio⟩
  cases best with
  | none => exact hthis (Option.some.inj hd)
  | some b =>
    have hpick : e.1 = d ∨ b = d := by
      dsimp only at hd
      generalize keyOf _ b = kb at hd
      split at hd
      · exact .inl (Option.some.inj hd)
      · exact .inr (Option.some.inj hd)
    rcases hpick with h | h
    · exact hthis h
    · exact hbest (congrArg some h)

/-- Appointing a deputy takes one of the members, and the mirror begins anew. -/
theorem State.appoint_does (s : State) {d : Nat} (hno : ∀ e ∈ s.sea.list, e.1 ≠ d) (hdep : s.sea.deputy = none) (hsync : s.sea.synced = false) :
    s.appoint.sea.list = s.sea.list ∧ s.appoint.sea.deputy ≠ some d ∧ s.appoint.sea.synced = false := by
  have hstays : s.sea.list = s.sea.list ∧ s.sea.deputy ≠ some d ∧ s.sea.synced = false := ⟨rfl, by rw [hdep]; simp, hsync⟩
  unfold State.appoint
  split
  · exact hstays
  split
  · exact hstays
  next k hk =>
    dsimp only
    obtain ⟨q, hq⟩ := State.sendTo_sea (s.setSea { s.sea with
      deputy := some k, synced := false, bulk := some (s.sea.change, s.sea.registry), mirrors := [], mirrorHeard := s.now }) k 6 []
    rw [hq]
    obtain ⟨e, he, hek, -⟩ := bestMember_mem hk
    exact ⟨rfl, fun h => hno e he (hek.trans (Option.some.inj h)), rfl⟩

/-- A member leaves the list; one that was the deputy is so no more. -/
theorem State.dropMember_does {s v : State} (h : SeamWork s v) (k reason : Nat) :
    let u := v.dropMember k reason
    u.sea.list = tdel v.sea.list k ∧ Raised s u v.now 0x603 0x70 0 (be 2 k ++ be 1 reason) ∧
      (if v.sea.deputy = some k then u.sea.deputy ≠ some k ∧ u.sea.synced = false else u.sea.deputy = v.sea.deputy) ∧
      Only [.eth, .sea, .stw] v u := by
  have hleft (w : State) (hw : SeamWork v w) : Raised s (w.stationLeft k reason) v.now 0x603 0x70 0 (be 2 k ++ be 1 reason) := by
    have hraise := w.raiseAt_raised w.now 0x603 0x70 0 (be 2 k ++ be 1 reason) (w.open8s 111 1)
    rw [hw.now] at hraise
    refine (h.trans hw).raised ?_
    rw [State.stationLeft, State.raise, hw.now]
    simpa only [List.append_assoc] using hraise
  intro u
  by_cases hd : v.sea.deputy = some k
  · unfold u State.dropMember
    rw [if_pos hd, decide_eq_true hd]
    simp only [if_true]
    generalize hx : v.setSea { ({ v.sea with list := tdel v.sea.list k } : Sea) with
      deputy := none, synced := false, bulk := none, mirrors := [] } = w
    obtain ⟨hlist, hdep, hsync⟩ : w.sea.list = tdel v.sea.list k ∧ w.sea.deputy = none ∧ w.sea.synced = false := by
      subst hx
      exact ⟨rfl, rfl, rfl⟩
    have hw : SeamWork v w := hx ▸ .setSea v _ rfl
    have honly : Only [.sea] v w := hx ▸ (by simp [only_iff])
    clear_value u
    obtain ⟨q, waits, hrel⟩ := (w.stationLeft k reason).releaseMirrored_sea
    rw [show (w.stationLeft k reason).sea = w.sea by simp] at hrel
    obtain ⟨hal, had, has⟩ := (w.stationLeft k reason).releaseMirrored.appoint_does (d := k)
      (by rw [hrel]; exact fun e he => (tdel_keys _ _ e (hlist ▸ he)).1) (by rw [hrel]; exact hdep) (by rw [hrel]; exact hsync)
    rw [hrel] at hal
    refine ⟨by rw [hal]; exact hlist, raised_holds (hleft w hw) ?_, ⟨had, has⟩, ?_⟩
    · exact ((w.stationLeft k reason).releaseMirrored_work.trans (State.appoint_work _)).holds
    · have hrest : Only [.eth, .sea, .stw] w (w.stationLeft k reason).releaseMirrored.appoint := by simp [only_iff]
      exact only_mono (honly.trans hrest) (by simp)
  · unfold u State.dropMember
    rw [if_neg hd, decide_eq_false hd]
    simp only [Bool.false_eq_true, if_false]
    generalize hx : v.setSea { v.sea with list := tdel v.sea.list k } = w
    obtain ⟨hlist, hdep⟩ : w.sea.list = tdel v.sea.list k ∧ w.sea.deputy = v.sea.deputy := by
      subst hx
      exact ⟨rfl, rfl⟩
    have hw : SeamWork v w := hx ▸ .setSea v _ rfl
    have honly : Only [.sea] v w := hx ▸ (by simp [only_iff])
    have hrest : Only [.eth, .stw] w (w.stationLeft k reason) := by simp [only_iff]
    have hsea : (w.stationLeft k reason).sea = w.sea := by simp
    exact ⟨by rw [hsea]; exact hlist, hleft w hw, by rw [hsea]; exact hdep, only_mono (honly.trans hrest) (by simp)⟩

/-! ## Home claims (11 R252) -/

/-- A claim that changes nothing is acknowledged. -/
theorem State.claimAt_stays {s v : State} (h : SeamSame s v) (k ext : Nat) (e : RegEntry)
    (hno : ∀ y, applyClaim (tget? v.sea.registry ext) k e = some y → v.regFull ext y.kind = true) :
    let u := v.claimAt k ext e true
    u.sea.registry = v.sea.registry ∧ Told s u k 0x0A (be 8 ext) ∧ Only [.eth, .sea, .stw] v u := by
  have hrelease : v.claimAt k ext e true = v.sendTo k 0x0A (be 8 ext) := by
    unfold State.claimAt
    split
    next y hy => rw [if_pos (hno y hy), if_pos rfl, State.releaseWait]
    next => rw [if_pos rfl, State.releaseWait]
  intro u
  have hu : u = v.sendTo k 0x0A (be 8 ext) := hrelease
  obtain ⟨q, hq⟩ := v.sendTo_sea k 0x0A (be 8 ext)
  rw [hu]
  exact ⟨by rw [hq], State.sendTo_told h _ _ _, by simp [only_iff]⟩

/-- The item by which a change of the registry is mirrored. -/
def State.mirrorItem (s : State) (ext : Nat) (e : RegEntry) : MirrorItem := { num := s.sea.change + 1, ext := ext, entry := e, sent := s.now }

/-- The state in which a change of the registry is to be mirrored. -/
def State.mirroring (s : State) (ext : Nat) (e : RegEntry) : State :=
  s.setSea { s.sea with
    registry := putEntry s.sea.registry ext e, change := s.sea.change + 1, mirrors := s.sea.mirrors ++ [s.mirrorItem ext e],
    mirrorHeard := if s.sea.mirrors.isEmpty then s.now else s.sea.mirrorHeard }

theorem State.regChange_some {s : State} {d : Nat} (hd : s.sea.deputy = some d) (ext : Nat) (e : RegEntry) :
    s.regChange ext e = (s.mirroring ext e).sendTo d 7 (be 4 (s.sea.change + 1) ++ entryBytes ext e (zeros 1)) := by
  rw [show be 4 (s.sea.change + 1) ++ entryBytes ext e (zeros 1) = mirrorBody [s.mirrorItem ext e] from (mirrorBody_one (s.mirrorItem ext e)).symm]
  unfold State.regChange
  dsimp only
  split
  next h => exact absurd (h.symm.trans hd) (by simp)
  next k h =>
    obtain rfl : k = d := Option.some.inj (h.symm.trans hd)
    rfl

theorem State.regChange_sea (s : State) (ext : Nat) (e : RegEntry) :
    (s.regChange ext e).sea.registry = putEntry s.sea.registry ext e ∧ (s.regChange ext e).sea.change = s.sea.change + 1 ∧
      (s.regChange ext e).sea.synced = s.sea.synced := by
  cases hd : s.sea.deputy with
  | none =>
    simp only [State.regChange, State.setSea, hd]
    exact ⟨trivial, trivial, trivial⟩
  | some d =>
    rw [State.regChange_some hd]
    obtain ⟨q, hq⟩ := (s.mirroring ext e).sendTo_sea d 7 (be 4 (s.sea.change + 1) ++ entryBytes ext e (zeros 1))
    rw [hq]
    exact ⟨rfl, rfl, rfl⟩

/-- A change of the registry is mirrored to the deputy. -/
theorem State.regChange_mirrors {s v : State} (h : SeamSame s v) (ext : Nat) (e : RegEntry) {d : Nat} (hd : v.sea.deputy = some d) :
    Told s (v.regChange ext e) d 7 (be 4 (v.sea.change + 1) ++ entryBytes ext e (zeros 1)) ∧
      v.mirrorItem ext e ∈ (v.regChange ext e).sea.mirrors := by
  rw [State.regChange_some hd]
  have hsame : SeamSame v (v.mirroring ext e) := .of_parts rfl rfl rfl
  refine ⟨State.sendTo_told (h.trans hsame) _ _ _, ?_⟩
  obtain ⟨q, hq⟩ := (v.mirroring ext e).sendTo_sea d 7 (be 4 (v.sea.change + 1) ++ entryBytes ext e (zeros 1))
  rw [hq]
  exact List.mem_append_right _ List.mem_cons_self

/-- A claim that is taken changes the registry, and is mirrored. -/
theorem State.claimAt_takes {s v : State} (h : SeamSame s v) (k ext : Nat) (e : RegEntry) {y : RegEntry}
    (happly : applyClaim (tget? v.sea.registry ext) k e = some y) (hroom : v.regFull ext y.kind = false) :
    let u := v.claimAt k ext e true
    u.sea.registry = putEntry v.sea.registry ext y ∧ u.sea.change = v.sea.change + 1 ∧
    (v.sea.synced = false → Told s u k 0x0A (be 8 ext)) ∧
    (∀ d, v.sea.deputy = some d → Told s u d 7 (be 4 (v.sea.change + 1) ++ entryBytes ext y (zeros 1)) ∧
      v.mirrorItem ext y ∈ u.sea.mirrors) ∧
    Only [.eth, .sea, .stw] v u := by
  obtain ⟨hreg, hchange, hsync⟩ := v.regChange_sea ext y
  have hmirrors := fun d hd => State.regChange_mirrors (d := d) h ext y hd
  have hwork := v.regChange_work ext y
  have honly : Only [.eth, .sea] v (v.regChange ext y) := by simp [only_iff]
  have hu : v.claimAt k ext e true = (v.regChange ext y).whenMirrored (v.regChange ext y).sea.change (.claim k ext) := by
    unfold State.claimAt
    rw [happly]
    dsimp only
    rw [if_neg (by simp [hroom]), if_pos rfl]
  rw [hu]
  generalize v.regChange ext y = w at hreg hchange hsync hmirrors hwork honly
  intro u
  have hstay : FramesStay w u := (w.whenMirrored_work w.sea.change (.claim k ext)).frames
  have hsea : ∃ q waits, u.sea = { w.sea with seq := q, mwaits := waits } := by
    unfold u State.whenMirrored
    split
    · exact ⟨w.sea.seq, _, rfl⟩
    · obtain ⟨q, hq⟩ := w.releaseWait_sea (.claim k ext)
      exact ⟨q, w.sea.mwaits, hq⟩
  obtain ⟨q, waits, hsea⟩ := hsea
  refine ⟨by rw [hsea]; exact hreg, by rw [hsea]; exact hchange, fun hs => ?_, fun d hd => ?_, ?_⟩
  · unfold u State.whenMirrored
    rw [hsync, hs, Bool.false_and, if_neg (by decide)]
    exact State.sendTo_told (h.trans hwork.same) _ _ _
  · obtain ⟨htold, hmem⟩ := hmirrors d hd
    exact ⟨told_stay htold hstay, by rw [hsea]; exact hmem⟩
  · have hlast : Only [.eth, .sea, .stw] w u := by simp [u, only_iff]
    exact only_mono (honly.trans hlast) (by simp)

theorem applyClaim_new {k : Nat} {e : RegEntry} (h : e.home ≠ 0xFFFF) : applyClaim none k e = some { e with home := k, key := 0 } := by
  rw [applyClaim, if_neg h]

theorem State.regFull_room {s : State} {ext kind : Nat} (h : s.sea.registry.length < 268435456) : s.regFull ext kind = false := by
  rw [State.regFull, decide_eq_false (Nat.not_le.2 h), Bool.and_false]

/-! ## Roles taken (11 R239, R247, R257) -/

/-- A role taken by a station that does not stop being manager. -/
theorem State.toRole_new (s : State) {role : Nat} (reason : Nat) (h : s.sea.role ≠ 6 ∨ role = 6) :
    (s.toRole role reason).sea = { s.sea with role := role, entered := s.now } ∧ Only [.eth, .sea, .stw] s (s.toRole role reason) ∧
      PostsUpTo 1 s (s.toRole role reason) := by
  unfold State.toRole
  dsimp only
  rw [if_neg (show ¬(s.sea.role = 6 ∧ role ≠ 6) from fun hc => h.elim (fun hs => hs hc.1) (fun hr => hc.2 hr))]
  refine ⟨by simp, by simp [only_iff], ?_⟩
  exact (PostsUpTo.trans (n := 0) (u := s.setSea { s.sea with role := role, entered := s.now }) (.of_sess rfl) (State.raise_posts _ _ _ _ _)).mono
    (by omega)

/-- What a manager's claims leave as it was of the station's standing. -/
structure StandingStays (s u : State) : Prop where
  role : u.sea.role = s.sea.role
  elected : u.sea.elected = s.sea.elected
  valid : u.sea.valid = s.sea.valid
  list : u.sea.list = s.sea.list
  count : u.sea.count = s.sea.count

namespace StandingStays

variable {s u v : State}

theorem refl (s : State) : StandingStays s s := ⟨rfl, rfl, rfl, rfl, rfl⟩

theorem trans (h : StandingStays s u) (k : StandingStays u v) : StandingStays s v :=
  ⟨k.role.trans h.role, k.elected.trans h.elected, k.valid.trans h.valid, k.list.trans h.list, k.count.trans h.count⟩

theorem after (k : StandingStays u v) (h : StandingStays s u) : StandingStays s v := h.trans k

theorem of_seq (h : SeqOnly s u) : StandingStays s u := by
  obtain ⟨q, hq⟩ := h
  exact ⟨by rw [hq], by rw [hq], by rw [hq], by rw [hq], by rw [hq]⟩

end StandingStays

theorem State.claimAt_standing (s : State) (k ext : Nat) (e : RegEntry) : StandingStays s (s.claimAt k ext e false) := by
  unfold State.claimAt
  split
  · split
    · exact .refl s
    · dsimp only
      rw [if_neg (by decide)]
      unfold State.regChange
      dsimp only
      split
      · exact ⟨rfl, rfl, rfl, rfl, rfl⟩
      · exact (StandingStays.of_seq (State.sendTo_sea _ _ _ _)).after ⟨rfl, rfl, rfl, rfl, rfl⟩
  · exact .refl s

theorem State.sendClaim_standing (s : State) (c : Claim) : StandingStays s (s.sendClaim c) := by
  have hset (v : State) (l : List Claim) : StandingStays v (v.setSea { v.sea with claims := l }) := ⟨rfl, rfl, rfl, rfl, rfl⟩
  unfold State.sendClaim
  split
  · exact .refl s
  extract_lets d put
  split
  · split
    · exact (hset _ _).after (s.claimAt_standing _ _ _)
    · exact (hset _ _).after (s.claimAt_standing _ _ _)
  · split
    · exact .refl s
    · split
      · exact (StandingStays.of_seq (State.sendTo_sea _ _ _ _)).after (hset s _)
      · exact .refl s

theorem State.resendClaims_standing (s : State) : StandingStays s s.resendClaims :=
  List.foldlRecOn (motive := fun u => StandingStays s u) _ _ (.refl s) fun u hu c _ => hu.trans (u.sendClaim_standing c)

theorem reported_holds {s u v : State} {n at_ code block inst : Nat} {data : List Byte} (h : Reported s u n at_ code block inst data)
    (hhold : SessionsHold u v) : Reported s v n at_ code block inst data := by
  intro hfw hasc k x hx hg hroom
  obtain ⟨y, e, rest, hy, he, hbody⟩ := h hfw hasc k x hx hg hroom
  obtain ⟨z, hz, -, hev⟩ := hhold k y hy
  exact ⟨z, e, rest, hz, hev e he, hbody⟩

/-- A station that is not manager becomes it. -/
theorem State.toManager_does {s v u : State} (h : SeamWork s v) (reason : Nat) (hu : v.toManager reason = u) :
    RoleChanged s u v.now v.sea.role 6 reason ∧ u.sea.valid = true ∧ u.sea.registry = v.sea.registry ∧ u.sea.claims = v.sea.claims ∧
      PostsUpTo 1 v u ∧ Only [.eth, .lin, .regs, .sea, .stw] v u ∧ u.lin.epoch = v.lin.epoch ∧ u.now = v.now ∧
      (∀ x : FRef, famAddr x.fam 0 0 ≠ famAddr F.seaBcnPeriodUs.fam 0 0 → u.reg x = v.reg x) := by
  unfold State.toManager at hu
  extract_lets found old sea x w at hu
  have hx : x.role = v.sea.role ∧ x.valid = true ∧ x.registry = v.sea.registry ∧ x.claims = v.sea.claims ∧ x.peers = v.sea.peers :=
    ⟨rfl, rfl, rfl, rfl, rfl⟩
  clear_value x
  obtain ⟨hxr, hxv, hxg, hxc, hxp⟩ := hx
  have hvx : SeamWork v (v.setSea x) := .setSea v x hxp
  have hchanged : RoleChanged s w v.now v.sea.role 6 reason := by
    have hr := State.toRole_raised (h.trans hvx) 6 reason
    rwa [show (v.setSea x).sea.role = v.sea.role from hxr] at hr
  obtain ⟨hsea, honly, hposts⟩ := (v.setSea x).toRole_new (role := 6) reason (.inr rfl)
  have hregs : w.regs = v.regs := by simp [w]
  have hepoch : w.lin = v.lin := by simp [w]
  have hnow : w.now = v.now := by simp [w]
  have hwsea : w.sea = { x with role := 6, entered := v.now } := hsea
  have hwonly : Only [.eth, .sea, .stw] v w := only_mono ((by simp [only_iff] : Only [.sea] v (v.setSea x)).trans honly) (by simp)
  have hwposts : PostsUpTo 1 v w := (PostsUpTo.trans (n := 0) (.of_sess rfl) hposts).mono (by omega)
  clear_value w
  have hu : u.sea = w.sea ∧ u.stw = w.stw ∧ Only [.lin, .regs] w u ∧ u.lin.epoch = w.lin.epoch ∧ u.now = w.now ∧
      ∀ x : FRef, famAddr x.fam 0 0 ≠ famAddr F.seaBcnPeriodUs.fam 0 0 → u.reg x = w.reg x := by
    rw [← hu]
    split
    · exact ⟨rfl, rfl, by simp [only_iff], rfl, rfl, fun _ _ => rfl⟩
    · refine ⟨by simp, by simp, by simp [only_iff], by simp, by simp, fun y hy => ?_⟩
      exact (reg_of_regs (s := w.setReg F.seaBcnPeriodUs 0 0 w.sea.period) (by simp) _ _ _).trans (State.reg_setReg_ne _ _ _ _ _ _ _ _ hy)
  obtain ⟨husea, hustw, huonly, huepoch, hunow, hureg⟩ := hu
  obtain ⟨hr, hraised⟩ := hchanged
  refine ⟨⟨by rw [husea]; exact hr, raised_holds hraised (.of_sess (by rw [hustw]))⟩, by rw [husea, hwsea]; exact hxv,
    by rw [husea, hwsea]; exact hxg, by rw [husea, hwsea]; exact hxc, (hwposts.trans (.of_sess (by rw [hustw]))).mono (by omega),
    only_mono (hwonly.trans huonly) (by simp), by rw [huepoch, hepoch], hunow.trans hnow, fun y hy => (hureg y hy).trans (reg_of_regs hregs _ _ _)⟩

/-- An election won: the station is manager, with what it has copied of the registry, and its own claims. -/
theorem State.electionWon_does {s c m w u : State} (hrole : s.sea.role = 7)
    (hc : s.setSea { s.sea with
      registry := if s.sea.keepReg then s.sea.withCopy 0 s.sea.copied else [], copied := [], since := [] } = c)
    (hm : c.toManager 2 = m)
    (hw : ((m.setSea { m.sea with elected := m.now + ms }).logFault 0x60 0x70 0 1 9 255 0 0 0).bump F.fauCntUnmasked = w)
    (hu : (w.raise 0x604 0x70 0
      (be 2 w.station ++ be 1 (min 255 s.sea.heard.length) ++ be 1 (b2n !s.sea.valid) ++ be 4 w.members)).resendClaims = u) :
    RoleChanged s u s.now 7 6 2 ∧ u.sea.elected = s.now + ms ∧ u.sea.valid = true ∧
      (s.sea.claims = [] → u.sea.registry = if s.sea.keepReg then s.sea.withCopy 0 s.sea.copied else []) ∧
      u.reg F.fauCntUnmasked = min (s.reg F.fauCntUnmasked + 1) 0xFFFFFFFF ∧
      (LogRoom s → Logged u 0x60 0x70 0 1 9 255) ∧
      Reported s u 1 s.now 0x604 0x70 0 (be 2 s.station ++ be 1 (min 255 s.sea.heard.length) ++ be 1 (b2n !s.sea.valid) ++ be 4 u.members) ∧
      Only [.eth, .fau, .lin, .regs, .sea, .stw] s u := by
  have hvc : SeamWork s c := hc ▸ .setSea s _ rfl
  have hconly : Only [.sea] s c := hc ▸ (by simp [only_iff])
  obtain ⟨hcg, hcr, hcc, hcnow, hcregs⟩ : (c.sea.registry = if s.sea.keepReg then s.sea.withCopy 0 s.sea.copied else []) ∧ c.sea.role = 7 ∧
      c.sea.claims = s.sea.claims ∧ c.now = s.now ∧ c.regs = s.regs := by
    subst hc
    exact ⟨rfl, hrole, rfl, rfl, rfl⟩
  obtain ⟨⟨hmrole, hmraised⟩, hmv, hmg, hmc, hposts, hmonly, hmepoch, hmnow, hmreg⟩ := State.toManager_does hvc 2 hm
  have hcfau : c.fau = s.fau := hconly .fau (by simp)
  have hmfau' : m.fau = c.fau := hmonly .fau (by simp)
  have hmfau : m.fau = s.fau := hmfau'.trans hcfau
  have hmreg' (x : FRef) (hx : famAddr x.fam 0 0 ≠ famAddr F.seaBcnPeriodUs.fam 0 0) : m.reg x = s.reg x :=
    (hmreg x hx).trans (reg_of_regs hcregs _ _ _)
  generalize he : m.setSea { m.sea with elected := m.now + ms } = e at hw
  have heonly : Only [.sea] m e := he ▸ (by simp [only_iff])
  have hesea : e.sea = { m.sea with elected := m.now + ms } := he ▸ rfl
  have hestw : e.stw = m.stw := heonly .stw (by simp)
  have heregs : e.regs = m.regs := heonly .regs (by simp)
  have hefau : e.fau = m.fau := heonly .fau (by simp)
  have heroom : LogRoom s → LogRoom e := by
    unfold LogRoom
    rw [hefau, hmfau]
    exact id
  have henow : e.now = m.now := he ▸ rfl
  have helin : e.lin = m.lin := heonly .lin (by simp)
  have hwlog : LogRoom s → Logged w 0x60 0x70 0 1 9 255 := fun hroom => by
    have hlog := e.logFault_logged 0x60 0x70 0 1 9 255 0 0 0 none (heroom hroom) (by decide) (by decide) (by decide) (by decide)
    have hfau : w.fau = (e.logFault 0x60 0x70 0 1 9 255 0 0 0 none).fau := by rw [← hw]; simp
    exact logged_stays hlog fun x hx => hfau ▸ hx
  have hwonly : Only [.fau, .regs] e w := hw ▸ (by simp [only_iff])
  have hwsea : w.sea = e.sea := hwonly .sea (by simp)
  have hwstw : w.stw = e.stw := hwonly .stw (by simp)
  have hwnow : w.now = e.now := by rw [← hw]; simp
  have hwlin : w.lin = e.lin := hwonly .lin (by simp)
  have hwreg (x : FRef) (hx : famAddr x.fam 0 0 ≠ famAddr F.fauCntUnmasked.fam 0 0) (hx' : famAddr x.fam 0 0 ≠ famAddr F.fauCntLoglost.fam 0 0) :
      w.reg x = e.reg x := by
    rw [← hw]
    exact (State.reg_bump_ne _ _ _ _ _ _ hx).trans (e.logFaultAt_reg _ _ _ _ _ _ _ _ _ _ _ x 0 0 hx')
  have hwfull : w.reg F.fauCntUnmasked = min (s.reg F.fauCntUnmasked + 1) 0xFFFFFFFF := by
    rw [← hw, State.bump_full _ _ rfl rfl]
    refine congrArg (fun n => min (n + 1) 0xFFFFFFFF) ?_
    refine (e.logFaultAt_reg _ _ _ _ _ _ _ _ _ _ _ _ 0 0 (by decide)).trans ?_
    exact (reg_of_regs heregs _ _ _).trans (hmreg' _ (by decide))
  have hstation : w.station = s.station :=
    (hwreg F.seaCfgStation (by decide) (by decide)).trans ((reg_of_regs heregs _ _ _).trans (hmreg' _ (by decide)))
  have hwpairs : w.fau.pairs = e.fau.pairs := by rw [← hw]; simp
  clear hw
  have hraise := w.raiseAt_raised w.now 0x604 0x70 0 (be 2 w.station ++ be 1 (min 255 s.sea.heard.length) ++ be 1 (b2n !s.sea.valid) ++
    be 4 w.members) []
  rw [List.append_nil] at hraise
  rw [← hu]
  generalize hr : w.raise 0x604 0x70 0 (be 2 w.station ++ be 1 (min 255 s.sea.heard.length) ++ be 1 (b2n !s.sea.valid) ++ be 4 w.members) = r
  rw [State.raise] at hr
  rw [hr] at hraise
  have honly : Only [.eth, .fau, .lin, .regs, .sea, .stw] s w :=
    only_mono (hconly.trans (hmonly.trans (heonly.trans hwonly))) (by simp)
  have hpairs : w.fau.pairs = s.fau.pairs := by rw [hwpairs, hefau, hmfau]
  have hfw : w.fwRuns = s.fwRuns := by
    rw [State.fwRuns, State.fwRuns, State.pairActive, State.pairActive, hpairs, show w.pow = s.pow from honly .pow (by simp)]
  have hepoch : w.lin.epoch = s.lin.epoch := by
    rw [hwlin, helin, hmepoch, show c.lin = s.lin from hconly .lin (by simp)]
  have hposts' : PostsUpTo 1 s w := by
    have hcs : PostsUpTo 0 s c := .of_sess (by rw [show c.stw = s.stw from hconly .stw (by simp)])
    have hmw : PostsUpTo 0 m w := .of_sess (by rw [hwstw, hestw])
    exact hcs.trans (hposts.trans hmw)
  have hreported := hposts'.reported hfw hepoch hraise
  rw [hwnow, henow, hmnow, hcnow, hstation] at hreported
  have hrsea : r.sea = e.sea := by rw [← hr, ← hwsea]; simp
  have hronly : Only [.stw, .eth] w r := hr ▸ (by simp [only_iff])
  have hwr : SessionsHold w r := hr ▸ (State.raise_grows w 0x604 0x70 0 _).hold
  have hwork := r.resendClaims_work
  have hstand := r.resendClaims_standing
  have huonly : Only [.eth, .sea, .stw] r r.resendClaims := by simp [only_iff]
  have hregs : r.resendClaims.regs = w.regs := by rw [show r.resendClaims.regs = r.regs by simp, show r.regs = w.regs from hronly .regs (by simp)]
  have hufau : r.resendClaims.fau = w.fau := by rw [show r.resendClaims.fau = r.fau by simp, show r.fau = w.fau from hronly .fau (by simp)]
  have hmembers : r.resendClaims.members = w.members := by
    rw [State.members, State.members, hstand.role, hstand.list, hstand.count, hrsea, hwsea]
  have hms : SessionsHold m r.resendClaims := by
    refine SessionsHold.trans (.of_sess ?_) (hwr.trans hwork.holds)
    rw [hwstw, hestw]
  refine ⟨⟨?_, raised_holds (hcnow ▸ hcr ▸ hmraised) hms⟩, ?_, ?_, fun hno => ?_, (reg_of_regs hregs _ _ _).trans hwfull,
    fun hroom => logged_stays (hwlog hroom) fun x hx => by rw [hufau]; exact hx, ?_, ?_⟩
  · rw [hstand.role, hrsea, hesea]
    exact hmrole
  · rw [hstand.elected, hrsea, hesea]
    exact congrArg (· + ms) (hmnow.trans hcnow)
  · rw [hstand.valid, hrsea, hesea]
    exact hmv
  · have hnone : r.sea.claims = [] := by
      rw [hrsea, hesea]
      exact (hmc.trans hcc).trans hno
    rw [State.resendClaims, hnone, List.foldl_nil, hrsea, hesea]
    exact hmg.trans hcg
  · rw [hmembers]
    exact reported_holds hreported hwork.holds
  · exact only_mono (honly.trans (hronly.trans huonly)) (by simp)

theorem Reported.untick {s u : State} {t n at_ code block inst : Nat} {data : List Byte} (h : Reported (s.tick t) u n at_ code block inst data) :
    Reported s u n at_ code block inst data := h

theorem noteSeam_told {s u : State} {m : SeamMsg} {t k typ : Nat} {body : List Byte}
    (h : Told ((s.tick t).noteSeam m) u k typ body) : Told s u k typ body := h

theorem noteSeam_roleChanged {s u : State} {m : SeamMsg} {t at_ old new reason : Nat}
    (h : RoleChanged ((s.tick t).noteSeam m) u at_ old new reason) : RoleChanged s u at_ old new reason := h

section
variable {s : State} {t : Nat} {m : SeamMsg} (htakes : Takes s m)
include htakes

theorem deputyAppoint_takes (hrole : s.sea.role = 3) (hfollow : s.sea.follow = some m.station) (hprio : s.prio ≠ 0) :
    Does (.deputyAppoint t m) s (fun u => RoleChanged s u (max s.now t) 3 4 3 ∧
      u.sea.registry = [] ∧ u.sea.copied = [] ∧ u.sea.since = [] ∧ u.sea.applied.isSome = true ∧ u.sea.deputy = some s.station ∧
      Only [.eth, .sea, .stw] s u) := by
  refine does_seam htakes execDeputyAppoint ?_
  have honly := s.noteSeam_only m t
  rw [if_pos (show ((s.tick t).noteSeam m).sea.role = 3 ∧ ((s.tick t).noteSeam m).sea.follow = some m.station ∧
    ((s.tick t).noteSeam m).prio ≠ 0 from ⟨hrole, hfollow, hprio⟩)]
  generalize hx : ((s.tick t).noteSeam m).setSea _ = x
  have hwork : SeamWork ((s.tick t).noteSeam m) x := hx ▸ .setSea _ _ rfl
  have hxrole : x.sea.role = 3 := hx ▸ hrole
  have hxnow : x.now = max s.now t := by rw [← hx]; rfl
  have hxonly : Only [.sea] ((s.tick t).noteSeam m) x := hx ▸ (by simp [only_iff])
  have hsea : x.sea.registry = [] ∧ x.sea.copied = [] ∧ x.sea.since = [] ∧ x.sea.applied.isSome = true ∧ x.sea.deputy = some s.station := by
    subst hx
    exact ⟨rfl, rfl, rfl, rfl, rfl⟩
  obtain ⟨hnew, hrest, -⟩ := x.toRole_new (role := 4) 3 (.inl (by rw [hxrole]; decide))
  refine ⟨?_, ?_⟩
  · have hr := noteSeam_roleChanged (State.toRole_raised hwork 4 3)
    rwa [hxrole, hxnow] at hr
  · obtain ⟨h1, h2, h3, h4, h5⟩ := hsea
    rw [hnew]
    exact ⟨h1, h2, h3, h4, h5, only_mono (honly.trans (hxonly.trans hrest)) (by simp)⟩

theorem mirror_applies (hrole : s.sea.role = 4 ∨ s.sea.role = 5) (hfollow : s.sea.follow = some m.station) (hlen : 36 ≤ m.body.length) :
    Does (.mirror t m) s (fun u =>
      let r := applyMirror s.sea.registry s.sea.applied (beAt m.body 0 4) (Machine.entriesOf (m.body.drop 4))
      u.sea.registry = r.1 ∧ u.sea.applied = r.2 ∧ (∀ n, r.2 = some n → Told s u m.station 8 (be 4 n)) ∧
      (m.body.length = 36 → ∀ n e y, s.sea.applied = some n → beAt m.body 0 4 = n + 1 → Machine.entryOf (m.body.drop 4) = (e, y) → y.kind ≠ 0 →
        tget? u.sea.registry e = some y) ∧ Only [.eth, .sea] s u) := by
  refine does_seam htakes execMirror ?_
  have honly := s.noteSeam_only m t
  rw [if_pos (show (((s.tick t).noteSeam m).sea.role = 4 ∨ ((s.tick t).noteSeam m).sea.role = 5) ∧
    ((s.tick t).noteSeam m).sea.follow = some m.station ∧ 36 ≤ m.body.length from ⟨hrole, hfollow, hlen⟩)]
  intro r
  have hone (hlen : m.body.length = 36) (n e : Nat) (y : RegEntry) (hn : s.sea.applied = some n) (hnext : beAt m.body 0 4 = n + 1)
      (hentry : Machine.entryOf (m.body.drop 4) = (e, y)) (hkind : y.kind ≠ 0) : tget? r.1 e = some y := by
    have hl : Machine.entriesOf (m.body.drop 4) = [(e, y)] := by rw [entriesOf_one _ (by simp; omega), hentry]
    unfold r
    rw [hl, hn, hnext]
    simp [applyMirror, putEntry, hkind]
  dsimp only
  generalize hx : State.setSea ((s.tick t).noteSeam m) _ = x
  have hsame : SeamSame s x := hx ▸ (s.noteSeam_same m t).trans (.of_parts rfl rfl rfl)
  have hxonly : Only [.sea] ((s.tick t).noteSeam m) x := hx ▸ (by simp [only_iff])
  have hxreg : x.sea.registry = r.1 := hx ▸ rfl
  have hxapp : x.sea.applied = r.2 := hx ▸ rfl
  split
  next n hn =>
    obtain ⟨q, hq⟩ := x.sendTo_sea m.station 8 (be 4 n)
    have hsend : Only [.eth, .sea] x (x.sendTo m.station 8 (be 4 n)) := by simp [only_iff]
    rw [hq]
    refine ⟨hxreg, hxapp, fun k hk => ?_, fun hlen n e y hn hnext hentry hkind => ?_, only_mono (honly.trans (hxonly.trans hsend)) (by simp)⟩
    · obtain rfl : n = k := Option.some.inj ((show r.2 = some n from hn).symm.trans hk)
      exact State.sendTo_told hsame _ _ _
    · exact hxreg ▸ hone hlen n e y hn hnext hentry hkind
  next hn =>
    refine ⟨hxreg, hxapp, fun k hk => absurd (hn.symm.trans hk) (by simp), fun hlen n e y hn hnext hentry hkind => ?_,
      only_mono (honly.trans hxonly) (by simp)⟩
    exact hxreg ▸ hone hlen n e y hn hnext hentry hkind

theorem mirrorAck_releases (hrole : s.sea.role = 6) (hdep : s.sea.deputy = some m.station) (hlen : m.body.length = 4) :
    Does (.mirrorAck t m) s (fun u =>
      u.sea.mirrors = s.sea.mirrors.filter (fun y => decide (beAt m.body 0 4 < y.num)) ∧ u.sea.mirrorHeard = max s.now t ∧
      (∀ w ∈ s.sea.mwaits, w.num ≤ beAt m.body 0 4 → (∀ ref, w.what = .put ref → s.pairActive = true → ∀ g ∈ u.stw.flights, g.ref ≠ ref) ∧
        (∀ k ext, w.what = .claim k ext → Told s u k 0x0A (be 8 ext))) ∧ u.sea.registry = s.sea.registry ∧
      Only [.eth, .sea, .stw] s u) := by
  refine does_seam htakes execMirrorAck ?_
  have honly := s.noteSeam_only m t
  rw [if_pos (show ((s.tick t).noteSeam m).sea.role = 6 ∧ ((s.tick t).noteSeam m).sea.deputy = some m.station ∧ m.body.length = 4 from
    ⟨hrole, hdep, hlen⟩)]
  dsimp only
  generalize hx : State.setSea ((s.tick t).noteSeam m) _ = x
  have hwork : SeamWork ((s.tick t).noteSeam m) x := hx ▸ .setSea _ _ rfl
  have hxonly : Only [.sea] ((s.tick t).noteSeam m) x := hx ▸ (by simp [only_iff])
  obtain ⟨hxm, hxh, hxw, hxr⟩ : x.sea.mirrors = s.sea.mirrors.filter (fun y => decide (beAt m.body 0 4 < y.num)) ∧
      x.sea.mirrorHeard = max s.now t ∧ x.sea.mwaits = s.sea.mwaits ∧ x.sea.registry = s.sea.registry := by
    subst hx
    exact ⟨rfl, rfl, rfl, rfl⟩
  have hrest : Only [.eth, .sea, .stw] x x.releaseMirrored := by simp [only_iff]
  obtain ⟨q, waits, hsea⟩ := x.releaseMirrored_sea
  refine ⟨by rw [hsea]; exact hxm, by rw [hsea]; exact hxh, fun w hw hnum => ?_, by rw [hsea]; exact hxr,
    only_mono (honly.trans (hxonly.trans hrest)) (by simp)⟩
  obtain ⟨hput, hclaim⟩ := State.releaseMirrored_does hwork (w := w) (by rw [hxw]; exact hw) fun y hy => by
    rw [hxm] at hy
    have := of_decide_eq_true (List.mem_filter.1 hy).2
    omega
  exact ⟨fun ref hwhat hpair => hput ref hwhat hpair, fun k ext hwhat => noteSeam_told (hclaim k ext hwhat)⟩

theorem homeClaim_runs (hrole : s.sea.role = 6) (hlen : m.body.length = 32) {effect : State → Prop}
    (heffect : effect (((s.tick t).noteSeam m).claimAt m.station (Machine.entryOf m.body).1 (Machine.entryOf m.body).2 true)) :
    Does (.homeClaim t m) s effect := by
  refine does_seam htakes execHomeClaim ?_
  rw [if_neg (show ¬(((s.tick t).noteSeam m).sea.role ≠ 6 ∨ m.body.length ≠ 32) by
    rw [not_or, not_not, not_not]
    exact ⟨hrole, hlen⟩)]
  exact heffect

theorem claimAck_takes (hfollow : s.sea.follow = some m.station) (hlen : m.body.length = 8) :
    Does (.claimAck t m) s (fun u => Only [.sea] s u ∧
      (∀ c ∈ s.sea.claims, c.ext = beAt m.body 0 8 → c.entry.home ≠ 0xFFFF → { c with acked := true } ∈ u.sea.claims) ∧
      (∀ c ∈ u.sea.claims, c.ext = beAt m.body 0 8 → c.entry.home ≠ 0xFFFF ∧ c.acked = true) ∧
      ∀ c ∈ s.sea.claims, c.ext ≠ beAt m.body 0 8 → c ∈ u.sea.claims) := by
  refine does_seam htakes execClaimAck ?_
  rw [if_neg (show ¬(((s.tick t).noteSeam m).sea.follow ≠ some m.station ∨ m.body.length ≠ 8) by
    rw [not_or, not_not, not_not]
    exact ⟨hfollow, hlen⟩)]
  dsimp only
  have hset (x : Sea) : Only [.sea] ((s.tick t).noteSeam m) (((s.tick t).noteSeam m).setSea x) := by simp [only_iff]
  refine ⟨only_mono ((s.noteSeam_only m t).trans (hset _)) (by simp), fun c hc hext hhome => ?_, fun c hc hext => ?_, fun c hc hext => ?_⟩
  · exact List.mem_map.2 ⟨c, List.mem_filter.2 ⟨hc, by simp [hhome]⟩, if_pos hext⟩
  · obtain ⟨d, hd, rfl⟩ := List.mem_map.1 hc
    obtain ⟨-, hkeep⟩ := List.mem_filter.1 hd
    by_cases hd : d.ext = beAt m.body 0 8
    · rw [if_pos hd]
      exact ⟨by simpa [hd] using hkeep, rfl⟩
    · rw [if_neg hd] at hext
      exact absurd hext hd
  · exact List.mem_map.2 ⟨c, List.mem_filter.2 ⟨hc, by simp [hext]⟩, if_neg hext⟩

end

/-! ## The cluster's duties by the clock -/

/-- An item that the deputy has not acknowledged for 10 us is sent again. -/
theorem mirrorResend_sends {s : State} {t d : Nat} (hon : s.pow.on = true) (hd : s.sea.deputy = some d) (hrole : s.sea.role = 6)
    (hlate : ∃ y ∈ s.sea.mirrors, y.sent + 10 * us ≤ max s.now t) : Does (.mirrorResend t) s (fun u =>
      (∀ y ∈ s.sea.mirrors, y.sent + 10 * us ≤ max s.now t → Told s u d 7 (mirrorBody [y]) ∧ { y with sent := max s.now t } ∈ u.sea.mirrors) ∧
      u.sea.mirrors.length = s.sea.mirrors.length ∧ Only [.eth, .sea] s u) := by
  refine does_whenOn hon ?_
  rw [show (s.tick t).sea.deputy = some d from hd]
  dsimp only
  rw [if_neg (show ¬((s.tick t).sea.role ≠ 6 ∨ ((s.tick t).sea.mirrors.filter fun x => decide (x.sent + 10 * us ≤ (s.tick t).now)).isEmpty = true) by
    obtain ⟨y, hy, hdue⟩ := hlate
    rw [not_or, not_not]
    refine ⟨hrole, fun h => ?_⟩
    have hmem : y ∈ (s.tick t).sea.mirrors.filter fun x => decide (x.sent + 10 * us ≤ (s.tick t).now) :=
      List.mem_filter.2 ⟨hy, decide_eq_true hdue⟩
    rw [List.isEmpty_iff.1 h] at hmem
    exact absurd hmem (by simp))]
  generalize hx : State.setSea (s.tick t) _ = x
  have hsame : SeamWork (s.tick t) x := hx ▸ .setSea _ _ rfl
  have hxonly : Only [.sea] s x := only_mono ((s.tick_only t).trans (hx ▸ (by simp [only_iff]) : Only [.sea] (s.tick t) x)) (by simp)
  have hxm : x.sea.mirrors = s.sea.mirrors.map fun y => if y.sent + 10 * us ≤ max s.now t then { y with sent := max s.now t } else y := by
    rw [← hx]
    rfl
  have hseq := SeqOnly.foldl (fun (s : State) y => s.sendTo d 7 (mirrorBody [y]))
    ((s.tick t).sea.mirrors.filter fun x => decide (x.sent + 10 * us ≤ (s.tick t).now)) (fun u y _ => u.sendTo_sea _ _ _) x
  obtain ⟨q, hq⟩ := hseq
  rw [hq]
  refine ⟨fun y hy hdue => ⟨?_, ?_⟩, by simp [hxm], ?_⟩
  · refine foldl_told (s := s.tick t) (b := y) _ _ (fun u b _ => u.sendTo_work _ _ _) hsame (List.mem_filter.2 ⟨hy, decide_eq_true hdue⟩)
      fun u hu => State.sendTo_told hu _ _ _
  · exact hxm ▸ List.mem_map.2 ⟨y, hy, if_pos hdue⟩
  · have hrest := foldl_keeps (Only [.eth, .sea] x) (fun (s : State) y => s.sendTo d 7 (mirrorBody [y])) (fun u y hu => by
      have hsend : Only [.eth, .sea] u (u.sendTo d 7 (mirrorBody [y])) := by simp [only_iff]
      exact only_mono (hu.trans hsend) (by simp))
      ((s.tick t).sea.mirrors.filter fun x => decide (x.sent + 10 * us ≤ (s.tick t).now)) x (only_refl _ _)
    exact only_mono (hxonly.trans hrest) (by simp)

/-- A claim whose time is set is sent to the manager as it stands. -/
theorem State.sendClaim_told {s : State} {c : Claim} {k : Nat} (hvalid : s.sea.valid = true) (htimed : c.timed = true)
    (hrole : s.sea.role = 3 ∨ s.sea.role = 4 ∨ s.sea.role = 5) (hfollow : s.sea.follow = some k) (hmem : c ∈ s.sea.claims) :
    Told s (s.sendClaim c) k 9
      (entryBytes c.ext { c.entry with home := if c.entry.home = 0xFFFF then 0xFFFF else s.station } (zeros 1)) ∧
    { c with sent := some s.now, acked := false } ∈ (s.sendClaim c).sea.claims ∧ Only [.eth, .sea] s (s.sendClaim c) := by
  unfold State.sendClaim
  rw [if_neg (show ¬(!s.sea.valid) = true by simp [hvalid])]
  extract_lets e d put
  have hd : d = c := if_pos htimed
  clear_value d
  subst hd
  rw [if_neg (show ¬s.sea.role = 6 by omega), hfollow]
  dsimp only
  rw [if_pos hrole]
  generalize hx : put s _ = x
  have hsame : SeamSame s x := hx ▸ .of_parts rfl rfl rfl
  have hxonly : Only [.sea] s x := hx ▸ (by simp [put, only_iff])
  have hxc : { d with sent := some s.now, acked := false } ∈ x.sea.claims := by
    rw [← hx]
    exact List.mem_map.2 ⟨d, hmem, if_pos rfl⟩
  generalize hbody : entryBytes d.ext _ (zeros 1) = body
  obtain ⟨q, hq⟩ := x.sendTo_sea k 9 body
  have hsend : Only [.eth, .sea] x (x.sendTo k 9 body) := by simp [only_iff]
  exact ⟨State.sendTo_told hsame _ _ _, by rw [hq]; exact hxc, only_mono (hxonly.trans hsend) (by simp)⟩

theorem State.castOne_sea (s : State) (typ : Nat) (body : List Byte) : ∃ q, (s.castOne typ body).sea = { s.sea with seq := q } := by
  unfold State.castOne
  split
  · exact ⟨s.sea.seq, rfl⟩
  · refine ⟨(s.sea.seq + 1) % 2 ^ 32, ?_⟩
    simp only [State.castOn]
    (repeat' split) <;> simp [State.nextSeq]

/-- ELECT goes to every station. -/
theorem electDue_casts {s : State} {t : Nat} (hon : s.pow.on = true) (hrole : s.sea.role = 7) (hprio : s.reg F.seaCfgPriority ≠ 0)
    (hdue : s.sea.electNext ≤ max s.now t) (hbefore : max s.now t < s.sea.entered + 1500 * us) : Does (.electDue t) s (fun u =>
      u.sea.electNext = s.sea.electNext + 100 * us ∧ u.sea.role = 7 ∧ u.sea.prio = s.reg F.seaCfgPriority ∧
      Cast s u 1 0x0B (be 1 (s.reg F.seaCfgPriority) ++ be 1 (b2n s.sea.valid) ++ zeros 6) ∧ Only [.eth, .sea] s u) := by
  refine does_whenOn hon ?_
  rw [if_pos (show (s.tick t).sea.role = 7 ∧ (s.tick t).reg F.seaCfgPriority ≠ 0 ∧ (s.tick t).sea.electNext ≤ (s.tick t).now ∧
    (s.tick t).now < (s.tick t).sea.entered + 1500 * us from ⟨hrole, hprio, hdue, hbefore⟩)]
  have htake : (s.tick t).takePrio = (s.tick t).setSea { s.sea with prio := s.reg F.seaCfgPriority } := by
    unfold State.takePrio
    dsimp only
    exact if_neg fun h => hprio h.1
  dsimp only
  rw [htake]
  generalize hx : State.setSea (State.setSea (s.tick t) _) _ = x
  have hsame : SeamSame s x := hx ▸ .of_parts rfl rfl rfl
  have hxonly : Only [.sea] s x := only_mono ((s.tick_only t).trans (hx ▸ (by simp [only_iff]) : Only [.sea] (s.tick t) x)) (by simp)
  have hsea : x.sea = { s.sea with prio := s.reg F.seaCfgPriority, electNext := s.sea.electNext + 100 * us } := hx ▸ rfl
  obtain ⟨q, hq⟩ := x.castOne_sea 0x0B (be 1 (s.reg F.seaCfgPriority) ++ be 1 (b2n s.sea.valid) ++ zeros 6)
  rw [hsea] at hq
  have hsend : Only [.eth, .sea] x (x.castOne 0x0B (be 1 (s.reg F.seaCfgPriority) ++ be 1 (b2n s.sea.valid) ++ zeros 6)) := by simp [only_iff]
  exact ⟨congrArg Sea.electNext hq, (congrArg Sea.role hq).trans hrole, congrArg Sea.prio hq, State.castOne_cast hsame _ _,
    only_mono (hxonly.trans hsend) (by simp)⟩

/-- A deputy whose copy is whole becomes STANDBY. -/
theorem deputySyncDone_takes {s : State} (t last : Nat) (copy : List Byte) (hon : s.pow.on = true) (hrole : s.sea.role = 4) :
    Does (.deputySyncDone t last copy) s (fun u => RoleChanged s u (max s.now t) 4 5 4 ∧
      u.sea.applied = some (if s.sea.since.isEmpty then last else max last (s.sea.applied.getD 0)) ∧ u.sea.since = [] ∧ u.sea.copied = [] ∧
      u.sea.registry = (s.sea.since.reverse.filter fun c => decide (last < c.1)).foldl (fun r c => putEntry r c.2.1 c.2.2)
        ((Machine.entriesOf copy).foldl (fun r e => putEntry r e.1 e.2) []) ∧ Only [.eth, .sea, .stw] s u) := by
  refine does_whenOn hon ?_
  rw [if_neg (show ¬(s.tick t).sea.role ≠ 4 from not_not.2 hrole)]
  dsimp only
  generalize hx : State.setSea (s.tick t) _ = x
  have hwork : SeamWork (s.tick t) x := hx ▸ .setSea _ _ rfl
  have hxonly : Only [.sea] s x := only_mono ((s.tick_only t).trans (hx ▸ (by simp [only_iff]) : Only [.sea] (s.tick t) x)) (by simp)
  have hxrole : x.sea.role = 4 := hx ▸ hrole
  have hxnow : x.now = max s.now t := by rw [← hx]; rfl
  obtain ⟨h1, h2, h3, h4⟩ : x.sea.applied = some (if s.sea.since.isEmpty then last else max last (s.sea.applied.getD 0)) ∧ x.sea.since = [] ∧
      x.sea.copied = [] ∧ x.sea.registry = (s.sea.since.reverse.filter fun c => decide (last < c.1)).foldl (fun r c => putEntry r c.2.1 c.2.2)
        ((Machine.entriesOf copy).foldl (fun r e => putEntry r e.1 e.2) []) := by
    subst hx
    exact ⟨rfl, rfl, rfl, rfl⟩
  obtain ⟨hnew, hrest, -⟩ := x.toRole_new (role := 5) 4 (.inl (by rw [hxrole]; decide))
  refine ⟨?_, ?_⟩
  · have hr := State.toRole_raised hwork 5 4
    rw [hxrole, hxnow] at hr
    exact hr
  · rw [hnew]
    exact ⟨h1, h2, h3, h4, only_mono (hxonly.trans hrest) (by simp)⟩

/-- An election closes with the best candidate as manager. -/
theorem electionClose_wins {s : State} {t : Nat} (hon : s.pow.on = true) (hrole : s.sea.role = 7) (hdue : s.sea.entered + 1500 * us ≤ max s.now t)
    (hprio : s.prio ≠ 0) (hup : s.anyUp = true) (hbest : (s.sea.heard.all fun e => decide (keyOf e.2 e.1 < keyOf s.prio s.station)) = true) :
    Does (.electionClose t) s (fun u =>
        RoleChanged s u (max s.now t) 7 6 2 ∧ u.sea.elected = max s.now t + ms ∧ u.sea.valid = true ∧
        (s.sea.claims = [] → s.sea.keepReg = false → u.sea.registry = []) ∧
        (s.sea.claims = [] → s.sea.keepReg = true → u.sea.registry = s.sea.withCopy 0 s.sea.copied) ∧
        u.reg F.fauCntUnmasked = min (s.reg F.fauCntUnmasked + 1) 0xFFFFFFFF ∧
        (LogRoom s → Logged u 0x60 0x70 0 1 9 255) ∧
        Reported s u 1 (max s.now t) 0x604 0x70 0 (be 2 s.station ++ be 1 (min 255 s.sea.heard.length) ++ be 1 (b2n !s.sea.valid) ++
          be 4 u.members) ∧
        Only [.eth, .fau, .lin, .regs, .sea, .stw] s u) := by
  refine does_whenOn hon ?_
  rw [if_neg (show ¬((s.tick t).sea.role ≠ 7 ∨ (s.tick t).now < (s.tick t).sea.entered + 1500 * us ∨ (s.tick t).prio = 0 ∨
    (s.tick t).anyUp = false) by
    rintro (h | h | h | h)
    · exact h hrole
    · exact absurd hdue (Nat.not_le.2 h)
    · exact hprio h
    · exact absurd (hup.symm.trans h) (by decide)), if_pos (show ((s.tick t).sea.heard.all fun e =>
      decide (keyOf e.2 e.1 < keyOf (s.tick t).prio (s.tick t).station)) = true from hbest)]
  dsimp only
  generalize hc : State.setSea (s.tick t) _ = c
  generalize hm : c.toManager 2 = m
  generalize hw : State.bump _ F.fauCntUnmasked = w
  generalize hu : State.resendClaims _ = u
  obtain ⟨hchanged, helected, hvalid, hreg, hcount, hlog, hreported, honly⟩ := State.electionWon_does (s := s.tick t) hrole hc hm hw hu
  refine ⟨hchanged, helected, hvalid, fun hno hkeep => ?_, fun hno hkeep => ?_, hcount, hlog, hreported,
    only_mono ((s.tick_only t).trans honly) (by simp)⟩
  · rw [hreg hno]
    exact if_neg (show ¬s.sea.keepReg = true by simp [hkeep])
  · rw [hreg hno]
    exact if_pos hkeep

/-- Settles O52: a deputy's copy and its mirror, home claims, elections and the path delay follow the handlers of the rows; what waits for a
mirrored change is answered once the deputy has it. -/
theorem registryClaimsAndElectionsRun : Obligations.RegistryClaimsAndElectionsRun := by
  unfold Obligations.RegistryClaimsAndElectionsRun
  constructor
  · intro t m s htakes now x b
    have honly := s.noteSeam_only m t
    have hsame := s.noteSeam_same m t
    have hstays (u : State) (parts : List Block) (h : Only parts ((s.tick t).noteSeam m) u) (hsub : ∀ p ∈ [Block.sea] ++ parts, p ∈ parts) :
        Only parts s u := only_mono (honly.trans h) hsub
    refine ⟨fun hrole hfollow hprio => deputyAppoint_takes htakes hrole hfollow hprio,
      fun hrole hfollow hlen => mirror_applies htakes hrole hfollow hlen,
      fun hrole hdep hlen => mirrorAck_releases htakes hrole hdep hlen,
      fun hrole hlen ext e hentry => ⟨fun hno => ?_, fun y hy hfull => ?_, fun y hy hroom => ?_, fun hnew hhome hkind hfew => ?_⟩,
      fun hfollow hlen => claimAck_takes htakes hfollow hlen, fun hrole hlen hprio => ?_, fun hrole hlen => ?_, fun hfollow hlen => ?_⟩
    · refine homeClaim_runs htakes hrole hlen ?_
      rw [hentry]
      obtain ⟨hreg, htold, hrest⟩ := State.claimAt_stays hsame m.station ext e (fun y hy => absurd (hno.symm.trans hy) (by simp))
      exact ⟨hreg, htold, hstays _ _ hrest (by simp)⟩
    · refine homeClaim_runs htakes hrole hlen ?_
      rw [hentry]
      obtain ⟨hreg, htold, hrest⟩ := State.claimAt_stays hsame m.station ext e (fun z hz => by
        rw [← Option.some.inj (hy.symm.trans hz)]
        exact hfull)
      exact ⟨hreg, htold, hstays _ _ hrest (by simp)⟩
    · refine homeClaim_runs htakes hrole hlen ?_
      rw [hentry]
      obtain ⟨hreg, hchange, hack, hmirror, hrest⟩ := State.claimAt_takes hsame m.station ext e hy hroom
      exact ⟨hreg, hchange, hack, hmirror, hstays _ _ hrest (by simp)⟩
    · refine homeClaim_runs htakes hrole hlen ?_
      rw [hentry]
      have happly : applyClaim (tget? ((s.tick t).noteSeam m).sea.registry ext) m.station e = some { e with home := m.station, key := 0 } := by
        rw [show tget? ((s.tick t).noteSeam m).sea.registry ext = none from hnew]
        exact applyClaim_new hhome
      obtain ⟨hreg, -⟩ := State.claimAt_takes hsame m.station ext e happly (State.regFull_room hfew)
      rw [hreg, putEntry, if_neg hkind, tget?_tset_self]
    · refine does_seam htakes execElectRx ?_
      rw [if_pos (show ((s.tick t).noteSeam m).sea.role = 7 ∧ m.body.length = 8 ∧ octet m.body 0 ≠ 0 from ⟨hrole, hlen, hprio⟩)]
      exact ⟨tget?_tset_self _ _ _, hrole, hstays _ _ (by simp [only_iff]) (by simp)⟩
    · refine does_seam htakes execDelayReq ?_
      rw [if_pos (show ((s.tick t).noteSeam m).sea.role = 6 ∧ m.body.length = 16 from ⟨hrole, hlen⟩)]
      obtain ⟨q, hq⟩ := ((s.tick t).noteSeam m).sendTo_sea m.station 0x0D (cut m.body 0 8 ++ be 8 ((s.tick t).noteSeam m).ctime)
      refine ⟨by rw [hq]; exact hrole, hstays _ _ (by simp [only_iff]) (by simp), State.sendTo_told hsame _ _ _⟩
    · refine does_seam htakes execDelayResp ?_
      dsimp only
      cases ha : s.sea.arrival with
      | none =>
        rw [show ((s.tick t).noteSeam m).sea.arrival = none from ha]
        exact ⟨honly, fun a c h => absurd h (by simp), fun _ => rfl⟩
      | some a =>
        cases hc : s.sea.lastCns with
        | none =>
          rw [show ((s.tick t).noteSeam m).sea.arrival = some a from ha, show ((s.tick t).noteSeam m).sea.lastCns = none from hc]
          exact ⟨honly, fun a c _ h => absurd h (by simp), fun _ => rfl⟩
        | some c =>
          rw [show ((s.tick t).noteSeam m).sea.arrival = some a from ha, show ((s.tick t).noteSeam m).sea.lastCns = some c from hc]
          dsimp only
          rw [if_pos (show ((s.tick t).noteSeam m).sea.follow = some m.station ∧ m.body.length = 16 from ⟨hfollow, hlen⟩)]
          refine ⟨hstays _ _ (by simp [only_iff]) (by simp), fun a' c' ha' hc' => ?_, fun hno => absurd hno (by simp)⟩
          obtain rfl : a = a' := Option.some.inj ha'
          obtain rfl : c = c' := Option.some.inj hc'
          rfl
  · intro t s hon now x quiet
    have hidle : Only [] s (s.tick t) := s.tick_only t
    have hstays {u : State} {parts : List Block} (h : Only parts (s.tick t) u) : Only parts s u := only_mono ((s.tick_only t).trans h) (by simp)
    refine ⟨fun last copy hrole => deputySyncDone_takes t last copy hon hrole, fun last copy hrole => ?_,
      fun d hd hrole => ⟨fun hlate => mirrorResend_sends hon hd hrole hlate, fun hsome hdue => ?_⟩, fun hno => ?_, fun hno => ?_,
      fun ext c k hfind hvalid htimed hrole hfollow => ⟨fun hdue => ?_, fun u hu hearly => ?_⟩,
      fun hrole hprio hdue hbefore => electDue_casts hon hrole hprio hdue hbefore, fun hno => ?_,
      fun hrole hdue hprio hup hbest => electionClose_wins hon hrole hdue hprio hup hbest, fun hno => ?_, fun hbetter => ?_,
      fun k hk hrole hdue => ?_, fun hno => ?_, fun hrole hvalid hlong => ?_, fun hno => ?_⟩
    · refine does_whenOn hon ?_
      rw [if_pos (show (s.tick t).sea.role ≠ 4 from hrole)]
      exact hidle
    · refine does_whenOn hon ?_
      rw [show (s.tick t).sea.deputy = some d from hd]
      dsimp only
      rw [if_pos (show (s.tick t).sea.role = 6 ∧ (s.tick t).sea.mirrors ≠ [] ∧ (s.tick t).sea.mirrorHeard + 200 * us ≤ (s.tick t).now from
        ⟨hrole, hsome, hdue⟩)]
      obtain ⟨hlist, hraised, hdep, hrest⟩ := State.dropMember_does (.refl (s.tick t)) d 1
      rw [if_pos (show (s.tick t).sea.deputy = some d from hd)] at hdep
      exact ⟨by rw [hlist, tget?_tdel_self], hdep.1, hdep.2, Raised.untick hraised, hstays hrest⟩
    · refine does_whenOn hon ?_
      dsimp only
      split
      next d hd =>
        refine (if_pos (?_ : _ ∨ _)).symm ▸ hidle
        rcases hno with h | h | h
        · exact absurd (h.symm.trans hd) (by simp)
        · exact .inl h
        · refine .inr (List.isEmpty_iff.2 (List.filter_eq_nil_iff.2 fun y hy => ?_))
          exact fun hdue => absurd (of_decide_eq_true hdue) (Nat.not_le.2 (h y hy))
      next => exact hidle
    · refine does_whenOn hon ?_
      split
      next d hd =>
        rw [if_neg (by
          rintro ⟨hrole, hsome, hdue⟩
          rcases hno with h | h | h | h
          · exact absurd (h.symm.trans hd) (by simp)
          · exact h hrole
          · exact hsome h
          · exact absurd hdue (Nat.not_le.2 h))]
        exact hidle
      next => exact hidle
    · refine does_whenOn hon ?_
      have hmem : c ∈ (s.tick t).sea.claims := List.mem_of_find?_eq_some hfind
      rw [show (s.tick t).sea.claims.find? (fun c => decide (c.ext = ext) && !c.acked) = some c from hfind]
      obtain ⟨htold, hsent, hrest⟩ := State.sendClaim_told (s := s.tick t) hvalid htimed hrole hfollow hmem
      have hsends : Only [.eth, .sea] s ((s.tick t).sendClaim c) := hstays hrest
      have hext : c.ext = ext := by
        have hpick := List.find?_some hfind
        exact of_decide_eq_true (Bool.and_eq_true_iff.1 hpick).1
      rw [hext] at htold
      dsimp only
      cases hu : c.sent with
      | none => exact ⟨htold, hsent, hsends⟩
      | some u =>
        dsimp only
        rw [if_pos (show u + ms ≤ (s.tick t).now from hdue u hu)]
        exact ⟨htold, hsent, hsends⟩
    · refine does_whenOn hon ?_
      rw [show (s.tick t).sea.claims.find? (fun c => decide (c.ext = ext) && !c.acked) = some c from hfind]
      dsimp only
      rw [hu]
      dsimp only
      rw [if_neg (show ¬u + ms ≤ (s.tick t).now from Nat.not_le.2 hearly)]
      exact hidle
    · refine does_whenOn hon ?_
      rw [if_neg (by
        rintro ⟨hrole, hprio, hdue, hbefore⟩
        rcases hno with h | h | h | h
        · exact h hrole
        · exact hprio h
        · exact absurd hdue (Nat.not_le.2 h)
        · exact absurd hbefore (Nat.not_lt.2 h))]
      exact hidle
    · refine does_whenOn hon ?_
      rw [if_pos (show (s.tick t).sea.role ≠ 7 ∨ (s.tick t).now < (s.tick t).sea.entered + 1500 * us ∨ (s.tick t).prio = 0 ∨
        (s.tick t).anyUp = false from hno)]
      exact hidle
    · refine does_whenOn hon ?_
      have hlost : ¬((s.tick t).sea.heard.all fun e => decide (keyOf e.2 e.1 < keyOf (s.tick t).prio (s.tick t).station)) = true := by
        obtain ⟨e, he, hkey⟩ := hbetter
        intro h
        exact absurd (of_decide_eq_true (List.all_eq_true.1 h e he)) (Nat.not_lt.2 hkey)
      dsimp only
      rw [if_neg hlost, ite_self]
      exact hidle
    · refine does_whenOn hon ?_
      rw [show (s.tick t).sea.follow = some k from hk]
      dsimp only
      rw [if_pos (show ((s.tick t).sea.role = 2 ∨ (s.tick t).sea.role = 3 ∨ (s.tick t).sea.role = 4 ∨ (s.tick t).sea.role = 5) ∧
        (s.tick t).sea.delayNext ≤ (s.tick t).now from ⟨hrole, hdue⟩)]
      generalize hx : State.setSea (s.tick t) _ = v
      have hsame : SeamSame s v := hx ▸ .of_parts rfl rfl rfl
      have hvonly : Only [.sea] (s.tick t) v := hx ▸ (by simp [only_iff])
      have hv : v.sea = { s.sea with delayNext := s.sea.delayNext + 100 * ms } := hx ▸ rfl
      obtain ⟨q, hq⟩ := v.sendTo_sea k 0x0C (be 8 (s.tick t).now ++ zeros 8)
      have hsend : Only [.eth, .sea] v (v.sendTo k 0x0C (be 8 (s.tick t).now ++ zeros 8)) := by simp [only_iff]
      refine ⟨by rw [hq, hv], by rw [hq, hv], State.sendTo_told hsame _ _ _, hstays (only_mono (hvonly.trans hsend) (by simp))⟩
    · refine does_whenOn hon ?_
      dsimp only
      split
      next d hd =>
        rw [if_neg (by
          rintro ⟨-, hdue⟩
          rcases hno with h | h
          · exact absurd (h.symm.trans hd) (by simp)
          · exact absurd hdue (Nat.not_le.2 h))]
        exact hidle
      next => exact hidle
    · refine does_whenOn hon ?_
      have hstale : s.sea.fresh (s.tick t).now = false := by
        rw [Sea.fresh]
        cases ha : s.sea.arrival with
        | none => rfl
        | some a =>
          rw [Option.any_some]
          exact decide_eq_false (Nat.not_lt.2 (hlong a ha))
      rw [if_pos (show (s.tick t).sea.role ≠ 6 ∧ (s.tick t).sea.valid = true ∧ (s.tick t).sea.fresh (s.tick t).now = false from
        ⟨hrole, hvalid, hstale⟩)]
      exact ⟨rfl, hstays (by simp [only_iff])⟩
    · refine does_whenOn hon ?_
      rw [if_neg (by
        rintro ⟨hrole, hvalid, hstale⟩
        rcases hno with h | h | ⟨a, ha, h⟩
        · exact hrole h
        · exact absurd (hvalid.symm.trans h) (by decide)
        · rw [Sea.fresh, show (s.tick t).sea.arrival = some a from ha, Option.any_some,
            decide_eq_true (show (s.tick t).now < a + sec from h)] at hstale
          exact absurd hstale (by decide))]
      exact hidle

end Sys2Proof.Machine
end

section
/-!
SUPPORT. Roles, members, BEACONs and arrivals of seam messages; statement O51.
-/

namespace Sys2Proof.Machine

-- Proofs one after another: the text is long, and is checked in bounded memory.
set_option Elab.async false

open Sys2Proof Sys2Proof.Safety

/-! ## A change of role, seen from before and from after -/

theorem State.toRole_changes (s : State) (role reason : Nat) : RoleChanged s (s.toRole role reason) s.now s.sea.role role reason :=
  State.toRole_raised (.refl s) role reason

/-- A role that is taken after registers and the cluster's state have changed is taken from before that. -/
theorem roleChanged_before {s v u : State} {at_ old new reason : Nat} (h : RoleChanged v u at_ old new reason)
    (honly : Only [.regs, .sea, .sc] s v) : RoleChanged s u at_ old new reason := by
  obtain ⟨hrole, hraised⟩ := h
  have hstw : v.stw = s.stw := honly .stw (by simp)
  have hpow : v.pow = s.pow := honly .pow (by simp)
  have hfau : v.fau = s.fau := honly .fau (by simp)
  have hlin : v.lin = s.lin := honly .lin (by simp)
  exact ⟨hrole, raised_congr hraised (by rw [hstw]) (by rw [State.fwRuns, State.fwRuns, State.pairActive, State.pairActive, hpow, hfau])
    (by rw [hlin]) (.of_sess rfl)⟩

theorem roleChanged_after {s u v : State} {at_ old new reason : Nat} (h : RoleChanged s u at_ old new reason) (hrole : v.sea.role = u.sea.role)
    (hhold : SessionsHold u v) : RoleChanged s v at_ old new reason :=
  ⟨hrole.trans h.1, raised_holds h.2 hhold⟩

/-- A station in LISTENING follows nothing. -/
theorem State.toListening_does (s : State) (reason : Nat) :
    RoleChanged s (s.toListening reason) s.now s.sea.role 1 reason ∧
    (∃ valid waits, (s.toListening reason).sea = { s.sea with
      role := 1, entered := s.now, valid := valid, mwaits := waits, follow := none, also := none, deputy := none, misses := 0, list := [],
      yield := none, synced := false, bulk := none, mirrors := [], refused := false }) ∧
    Only [.eth, .sc, .sea, .stw] s (s.toListening reason) ∧ (s.sea.role = 6 → (s.toListening reason).sc.groups = []) := by
  unfold State.toListening
  dsimp only
  generalize hx : s.setSea _ = x
  have hsea : x.sea = { s.sea with
    follow := none, also := none, deputy := none, misses := 0, list := [], yield := none, synced := false, bulk := none, mirrors := [],
    refused := false } := hx ▸ rfl
  have honly : Only [.sea] s x := hx ▸ (by simp [only_iff])
  have hnow : x.now = s.now := hx ▸ rfl
  have hchanged := x.toRole_changes 1 reason
  obtain ⟨-, valid, waits, hnew⟩ := x.toRole_does 1 reason
  have hrest : Only [.eth, .sc, .sea, .stw] x (x.toRole 1 reason) := by simp [only_iff]
  have hrole : x.sea.role = s.sea.role := by rw [hsea]
  refine ⟨?_, ⟨valid, waits, by rw [hnew, hsea, hnow]⟩, only_mono (honly.trans hrest) (by simp), fun h => ?_⟩
  · rw [hnow, hrole] at hchanged
    exact roleChanged_before hchanged (only_mono honly (by simp))
  · unfold State.toRole
    dsimp only
    rw [if_pos (show x.sea.role = 6 ∧ 1 ≠ 6 from ⟨hrole.trans h, by decide⟩)]
    simp

/-- A station in ELECTING follows nothing, and its first ELECT is due. -/
theorem State.toElecting_does {s : State} (hup : s.anyUp = true) (hrole : s.sea.role ≠ 6) :
    RoleChanged s s.toElecting s.now s.sea.role 7 8 ∧
    s.toElecting.sea = { s.sea with
      role := 7, entered := s.now, follow := none, also := none, deputy := none, misses := 0, heard := [], electNext := s.now,
      keepReg := decide (s.sea.role = 4) } ∧ Only [.eth, .sea, .stw] s s.toElecting := by
  unfold State.toElecting
  rw [if_neg (show ¬(!s.anyUp) = true by simp [hup])]
  dsimp only
  generalize hx : s.setSea _ = x
  have hsea : x.sea = { s.sea with
      follow := none, also := none, deputy := none, misses := 0, heard := [], electNext := s.now,
      keepReg := decide (s.sea.role = 4) } := hx ▸ rfl
  have honly : Only [.sea] s x := hx ▸ (by simp [only_iff])
  have hnow : x.now = s.now := hx ▸ rfl
  have hsame : x.sea.role = s.sea.role := by rw [hsea]
  obtain ⟨hnew, hrest, -⟩ := x.toRole_new (role := 7) 8 (.inl (by rw [hsame]; exact hrole))
  have hchanged := x.toRole_changes 7 8
  rw [hnow, hsame] at hchanged
  exact ⟨roleChanged_before hchanged (only_mono honly (by simp)), by rw [hnew, hsea, hnow], only_mono (honly.trans hrest) (by simp)⟩

theorem State.toElecting_down {s : State} (h : s.anyUp = false) : s.toElecting = s := if_pos (by simp [h])

/-- A deputy takes over as manager. -/
theorem State.takeOver_does {s : State} (hprio : s.prio ≠ 0) (hrole : s.sea.role = 5) :
    RoleChanged s s.takeOver s.now 5 6 1 ∧ s.takeOver.sea.takeover = s.now + ms ∧ s.takeOver.sea.registry = s.sea.registry ∧
    (∀ x : FRef, famAddr x.fam 0 0 ≠ famAddr F.seaBcnPeriodUs.fam 0 0 → s.takeOver.reg x = s.reg x) ∧
    Only [.eth, .lin, .regs, .sea, .stw] s s.takeOver := by
  unfold State.takeOver
  rw [if_neg hprio]
  generalize hm : s.toManager 1 = m
  obtain ⟨hchanged, -, hreg, -, -, honly, -, hnow, hregs⟩ := State.toManager_does (.refl s) 1 hm
  rw [hrole] at hchanged
  have hlast : Only [.sea] m (m.setSea { m.sea with takeover := m.now + ms }) := by simp [only_iff]
  exact ⟨roleChanged_after hchanged rfl (.of_sess rfl), congrArg (· + ms) hnow, hreg, hregs, only_mono (honly.trans hlast) (by simp)⟩

/-- Claims have been sent by a station that is not manager: nothing else of the cluster's state has changed. -/
def ClaimsSent (s u : State) : Prop :=
  (∃ q claims, u.sea = { s.sea with seq := q, claims := claims }) ∧ Only [.eth, .sea] s u

theorem ClaimsSent.refl (s : State) : ClaimsSent s s := ⟨⟨s.sea.seq, s.sea.claims, rfl⟩, only_refl _ _⟩

theorem State.sendClaim_follower (s : State) (c : Claim) (h : s.sea.role ≠ 6) : ClaimsSent s (s.sendClaim c) := by
  unfold State.sendClaim
  split
  · exact .refl s
  extract_lets e d put
  split
  · exact .refl s
  · split
    · have hput : Only [.sea] s (put s { d with sent := some s.now, acked := false }) := by simp [put, only_iff]
      have hsend (v : State) (k : Nat) (b : List Byte) : Only [.eth, .sea] v (v.sendTo k 9 b) := by simp [only_iff]
      obtain ⟨q, hq⟩ := State.sendTo_sea (put s { d with sent := some s.now, acked := false }) _ 9 _
      exact ⟨⟨q, _, hq⟩, only_mono (hput.trans (hsend _ _ _)) (by simp)⟩
    · exact .refl s

theorem State.resendClaims_follower (s : State) (h : s.sea.role ≠ 6) : ClaimsSent s s.resendClaims := by
  refine List.foldlRecOn (motive := fun u : State => ClaimsSent s u) _ _ (.refl s) fun u hu c _ => ?_
  obtain ⟨⟨q, claims, hsea⟩, honly⟩ := hu
  obtain ⟨⟨q', claims', hsea'⟩, honly'⟩ := u.sendClaim_follower c (by rw [hsea]; exact h)
  exact ⟨⟨q', claims', by rw [hsea', hsea]⟩, only_mono (honly.trans honly') (by simp)⟩

/-! ## Messages to every station -/

theorem State.castAll_sea (s : State) (typ : Nat) (body : List Byte) : SeqOnly s (s.castAll typ body) := by
  unfold State.castAll
  split
  · exact ⟨s.sea.seq, rfl⟩
  · refine ⟨(s.sea.seq + 1) % 2 ^ 32, ?_⟩
    simp only [State.castOn]
    (repeat' split) <;> simp [State.nextSeq]

theorem State.castAll_frames (s : State) (typ : Nat) (body : List Byte) : FramesStay s (s.castAll typ body) := by
  have hcast (v : State) (c : Bool) (p pcp : Nat) (b : List Byte) : FramesStay v (if c then v.castOn p 0 pcp b else v) := by
    split
    · exact v.castOn_frames _ _ _ _
    · exact .of_eth rfl
  unfold State.castAll
  split
  · exact .of_eth rfl
  · exact (hcast _ _ _ _ _).after ((hcast s.nextSeq _ _ _ _).after (.of_eth rfl))

theorem State.castAll_cast {s v : State} (h : SeamSame s v) (typ : Nat) (body : List Byte) : Cast s (v.castAll typ body) 0 typ body := by
  intro hup hcarrier
  unfold State.castAll
  have hon : ¬(!v.anyUp || !v.seamCarried) = true := by
    rw [h.anyUp, hup, State.seamCarried, h.raw, h.udp]
    rcases hcarrier with hc | hc <;> simp [hc]
  rw [if_neg hon]
  extract_lets b w pcp u
  have hsame : SeamSame s w := h.trans (.nextSeq v)
  have htext : SeamText s typ 0xFFFF body b := h.text typ 0xFFFF body
  have hcast (x : State) (hx : SeamSame s x) (p : Nat) : Cast s (x.castOn p 0 pcp b) 0 typ body := State.castOn_cast hx p 0 pcp typ body b htext
  have hu : u = if (w.ep 0).up then w.castOn 0 0 pcp b else w := rfl
  have hups (p : Nat) : (u.ep p).up = (s.ep p).up := by
    rw [hu]
    split
    · rw [ups_of_stay (w.castOn_frames _ _ _ _) p, hsame.ups]
    · exact hsame.ups p
  have hregs : u.regs = w.regs := by
    rw [hu]
    split <;> simp
  have hpeers : u.sea.peers = w.sea.peers := by
    rw [hu]
    split <;> simp
  have husame : SeamSame s u := ⟨hups, by rw [State.flag, reg_of_regs hregs]; exact hsame.raw, by rw [State.flag, reg_of_regs hregs]; exact hsame.udp,
    (reg_of_regs hregs _ _ _).trans hsame.cluster, (reg_of_regs hregs _ _ _).trans hsame.station, hpeers.trans hsame.peers⟩
  rw [hups]
  by_cases h1 : (s.ep 1).up = true
  · rw [if_pos h1]
    exact hcast u husame 1 hup hcarrier
  · have h0 : (w.ep 0).up = true := by
      rw [hsame.ups]
      simpa [State.anyUp, h1] using hup
    rw [if_neg h1, hu, if_pos h0]
    exact hcast w hsame 0 hup hcarrier

theorem State.castAll_holds (s : State) (typ : Nat) (body : List Byte) : SessionsHold s (s.castAll typ body) := .of_sess (by simp)

/-! ## Arrivals (18 R411, R413) -/

theorem seamRow {t : Nat} {m : SeamMsg} {c : Instr} {s : State} {f : State → State}
    (row : Nat → SeamMsg → State → Host.Outcome State Fault Refusal) (hrow : row t m s = seamRx t m f s)
    (hc : exec c s = row t m s := by rfl) : ∃ f, exec c s = seamRx t m f s := ⟨f, hc.trans hrow⟩

/-- Every arrival but HELLO is taken as its row says. -/
theorem seamArrival_row {t : Nat} {m : SeamMsg} {c : Instr} {s : State} (hc : c ∈ seamArrivals t m) (hne : c ≠ .helloRx t m) :
    ∃ f, exec c s = seamRx t m f s := by
  simp only [seamArrivals, List.mem_cons, List.not_mem_nil, or_false] at hc
  rcases hc with rfl | rfl | rfl | rfl | rfl | rfl | rfl | rfl | rfl | rfl | rfl | rfl | rfl | rfl | rfl | rfl
  · exact absurd rfl hne
  · exact seamRow execSeamJoinReq rfl
  · exact seamRow execJoinAck rfl
  · exact seamRow execSeamLeave rfl
  · exact seamRow execDeputyAppoint rfl
  · exact seamRow execMirror rfl
  · exact seamRow execMirrorAck rfl
  · exact seamRow execClusterBeaconRx rfl
  · exact seamRow execHomeClaim rfl
  · exact seamRow execClaimAck rfl
  · exact seamRow execElectRx rfl
  · exact seamRow execDelayReq rfl
  · exact seamRow execDelayResp rfl
  · exact seamRow execScMetrics rfl
  · exact seamRow execScResult rfl
  · exact seamRow execScResultAck rfl

/-- A stray seam message is counted, whatever it says. -/
theorem seamArrival_stray {t : Nat} {m : SeamMsg} {c : Instr} {s : State} (hon : s.pow.on = true) (hc : c ∈ seamArrivals t m)
    (hstray : s.seamStray m = true) : Does c s (fun u => u = (s.tick t).bump F.ethEpCntRxdrop m.port) := by
  have hstray' : (s.tick t).seamStray m = true := hstray
  by_cases hne : c = .helloRx t m
  · subst hne
    refine does_whenOn hon ?_
    exact if_pos hstray'
  · obtain ⟨f, hf⟩ := seamArrival_row (s := s) hc hne
    refine does_whenOn (f := fun s => if s.seamStray m then s.bump F.ethEpCntRxdrop m.port
      else if s.takesSeam m && decide (s.sea.role ≠ 0) then f (s.noteSeam m) else s) hon ?_ hf
    exact if_pos hstray'

/-- A seam message that is not for the station changes nothing. -/
theorem seamArrival_idle {t : Nat} {m : SeamMsg} {c : Instr} {s : State} (hon : s.pow.on = true) (hc : c ∈ seamArrivals t m)
    (hstray : s.seamStray m = false) (hno : s.takesSeam m = false ∨ s.sea.role = 0) (hne : c ≠ .helloRx t m) : Does c s (Only [] s) := by
  obtain ⟨f, hf⟩ := seamArrival_row (s := s) hc hne
  refine does_whenOn (f := fun s => if s.seamStray m then s.bump F.ethEpCntRxdrop m.port
    else if s.takesSeam m && decide (s.sea.role ≠ 0) then f (s.noteSeam m) else s) hon ?_ hf
  rw [show (s.tick t).seamStray m = false from hstray, if_neg (by decide), if_neg (show ¬((s.tick t).takesSeam m &&
    decide ((s.tick t).sea.role ≠ 0)) = true by
      rw [show (s.tick t).takesSeam m = s.takesSeam m from rfl, show (s.tick t).sea.role = s.sea.role from rfl]
      rcases hno with h | h <;> simp [h])]
  exact s.tick_only t

theorem helloRx_idle {t : Nat} {m : SeamMsg} {s : State} (hon : s.pow.on = true) (hstray : s.seamStray m = false)
    (hno : s.forSeam m = false ∨ s.sea.role = 0) : Does (.helloRx t m) s (Only [] s) := by
  refine does_whenOn hon ?_
  rw [show (s.tick t).seamStray m = false from hstray, if_neg (by decide),
    if_pos (show (s.tick t).forSeam m = false ∨ (s.tick t).sea.role = 0 ∨ m.body.length ≠ 16 from hno.elim .inl (.inr ∘ .inl))]
  exact s.tick_only t

/-! ## Enabling and leaving (11 R242) -/

/-- LEAVE goes to the deputy of a manager, and to the manager of any other station. -/
theorem State.sendLeave_told {s v : State} (h : SeamSame s v) {k : Nat}
    (hk : (v.sea.role = 6 ∧ v.sea.deputy = some k) ∨ (v.sea.role ≠ 6 ∧ v.sea.follow = some k)) : Told s v.sendLeave k 5 [] := by
  unfold State.sendLeave
  rcases hk with ⟨hrole, hdep⟩ | ⟨hrole, hfollow⟩
  · rw [if_pos hrole, hdep]
    exact State.sendTo_told h _ _ _
  · rw [if_neg hrole, hfollow]
    exact State.sendTo_told h _ _ _

theorem State.sendLeave_sea (s : State) : SeqOnly s s.sendLeave := by
  have hstays : SeqOnly s s := ⟨s.sea.seq, rfl⟩
  unfold State.sendLeave
  (repeat' split)
  · exact s.sendTo_sea _ _ _
  · exact hstays
  · exact s.sendTo_sea _ _ _
  · exact hstays

/-- A register apart from all that a seam message is made of. -/
theorem setReg_same (s : State) (x : FRef) (v : Nat) (hraw : famAddr F.seaXportRawEn.fam 0 0 ≠ famAddr x.fam 0 0)
    (hcluster : famAddr F.seaIdCluster.fam 0 0 ≠ famAddr x.fam 0 0) (hstation : famAddr F.seaCfgStation.fam 0 0 ≠ famAddr x.fam 0 0) :
    SeamSame s (s.setReg x 0 0 v) :=
  ⟨fun _ => rfl, congrArg (fun n => decide (n = 1)) (State.reg_setReg_ne _ _ _ _ _ _ _ _ hraw),
    congrArg (fun n => decide (n = 1)) (State.reg_setReg_ne _ _ _ _ _ _ _ _ hraw), State.reg_setReg_ne _ _ _ _ _ _ _ _ hcluster,
    State.reg_setReg_ne _ _ _ _ _ _ _ _ hstation, rfl⟩

/-- SEA_CTL.EN from 0 to 1 starts LISTENING. -/
theorem seaEnable_starts {s : State} {t : Nat} (hon : s.pow.on = true) (hoff : s.flag F.seaCtlEn = false) :
    Does (.seaEnable t) s (fun u => u.flag F.seaCtlEn = true ∧
      RoleChanged s u (max s.now t) s.sea.role 1 0 ∧ u.sea.entered = max s.now t ∧ u.sea.follow = none ∧ u.sea.deputy = none ∧ u.sea.list = [] ∧
      u.sea.waits = false ∧ u.sea.prio = s.reg F.seaCfgPriority ∧ u.sea.registry = s.sea.registry ∧ u.sea.claims = s.sea.claims ∧
      Only [.eth, .lin, .regs, .sc, .sea, .stw] s u) := by
  refine does_whenOn hon ?_
  rw [if_neg (show ¬(s.tick t).flag F.seaCtlEn = true by rw [show (s.tick t).flag F.seaCtlEn = s.flag F.seaCtlEn from rfl, hoff]; decide)]
  unfold State.seaEnable
  dsimp only
  generalize hw : State.setSea (State.setReg (s.tick t) F.seaCtlEn 0 0 1) _ = w
  have hwonly : Only [.regs, .sea] s w := only_mono ((s.tick_only t).trans (hw ▸ (by simp [only_iff]) : Only [.regs, .sea] (s.tick t) w)) (by simp)
  have hprio : (State.setReg (s.tick t) F.seaCtlEn 0 0 1).reg F.seaCfgPriority = s.reg F.seaCfgPriority :=
    State.reg_setReg_ne _ _ _ _ _ _ _ _ (by decide)
  have hwsea : w.sea = { s.sea with waits := false, prio := s.reg F.seaCfgPriority } := by
    rw [← hw, hprio]
    rfl
  have hwnow : w.now = max s.now t := hw ▸ rfl
  have hwreg : w.reg F.seaCtlEn = 1 := by
    rw [reg_of_regs (s := State.setReg (s.tick t) F.seaCtlEn 0 0 1) (by rw [← hw]; rfl), State.reg_setReg_self _ _ _ _ _ (by decide) (by decide)]
    rfl
  obtain ⟨hchanged, ⟨valid, waits, hsea⟩, honly, -⟩ := w.toListening_does 0
  have hregs : (w.toListening 0).regs = w.regs := by simp
  generalize w.toListening 0 = u at hchanged hsea honly hregs
  have hkept : Only [.lin] u (u.kept (s.tick t) Fam.seaCtl 0) := by simp [only_iff]
  have hksea : (u.kept (s.tick t) Fam.seaCtl 0).sea = u.sea := by simp
  have hkregs : (u.kept (s.tick t) Fam.seaCtl 0).regs = u.regs := by simp
  have hkstw : (u.kept (s.tick t) Fam.seaCtl 0).stw = u.stw := by simp
  rw [hwsea] at hsea
  rw [hwnow, hwsea] at hchanged
  refine ⟨?_, roleChanged_after (roleChanged_before hchanged (only_mono hwonly (by simp))) (by rw [hksea]) (.of_sess (by rw [hkstw])), ?_⟩
  · rw [State.flag, reg_of_regs hkregs, reg_of_regs hregs, hwreg]
    rfl
  · rw [hksea, hsea]
    exact ⟨hwnow, rfl, rfl, rfl, rfl, rfl, rfl, rfl, only_mono (hwonly.trans (honly.trans hkept)) (by simp)⟩

theorem State.toRole_frames (s : State) (role reason : Nat) : FramesStay s (s.toRole role reason) := by
  unfold State.toRole
  extract_lets old x sc u y w
  have hu : FramesStay s u := by
    unfold u
    split
    · exact (State.dropWaits_work _).frames.after (.of_eth rfl)
    · exact .of_eth rfl
  exact (w.raise_stay _ _ _ _).after (.after (.of_eth rfl) hu)

/-- A station that takes part leaves: LEAVE goes out, and it follows nothing. -/
theorem State.seaLeave_tells {s v : State} (h : SeamSame s v) (hrole : v.sea.role ≠ 0) :
    RoleChanged v v.seaLeave v.now v.sea.role 0 6 ∧
      ∀ k, (v.sea.role = 6 ∧ v.sea.deputy = some k) ∨ (v.sea.role ≠ 6 ∧ v.sea.follow = some k) → Told s v.seaLeave k 5 [] := by
  obtain ⟨q, hq⟩ := v.sendLeave_sea
  unfold State.seaLeave
  rw [if_neg hrole]
  dsimp only
  generalize hx : v.sendLeave.setSea _ = x
  have hwork : SeamWork v x := (hx ▸ SeamWork.setSea _ _ rfl : SeamWork v.sendLeave x).after v.sendLeave_work
  have hxrole : x.sea.role = v.sea.role := by
    rw [← hx]
    show v.sendLeave.sea.role = _
    rw [hq]
  have hchanged := State.toRole_raised hwork 0 6
  rw [hwork.now, hxrole] at hchanged
  have hsent : FramesStay v.sendLeave x := .of_eth (hx ▸ rfl)
  exact ⟨hchanged, fun k hk => told_stay (State.sendLeave_told h hk) (hsent.trans (x.toRole_frames 0 6))⟩

/-- SEA_CTL.EN cleared: LEAVE goes out, and the station is DETACHED. -/
theorem seaDisable_tells {s : State} {t : Nat} (hon : s.pow.on = true) (hset : s.flag F.seaCtlEn = true) :
    Does (.seaDisable t) s (fun u => u.flag F.seaCtlEn = false ∧ u.sea.role = 0 ∧
      (s.sea.role ≠ 0 → RoleChanged s u (max s.now t) s.sea.role 0 6 ∧ u.sea.follow = none ∧ u.sea.deputy = none ∧ u.sea.list = []) ∧
      (∀ k, s.sea.role ≠ 0 → (s.sea.role = 6 ∧ s.sea.deputy = some k) ∨ (s.sea.role ≠ 6 ∧ s.sea.follow = some k) → Told s u k 5 []) ∧
      Only [.eth, .lin, .regs, .sc, .sea, .stw] s u) := by
  refine does_whenOn hon ?_
  rw [if_pos (show (s.tick t).flag F.seaCtlEn = true from hset)]
  unfold State.seaDisable
  dsimp only
  generalize hw : State.setReg (s.tick t) F.seaCtlEn 0 0 0 = w
  have hwonly : Only [.regs] s w := only_mono ((s.tick_only t).trans (hw ▸ (by simp [only_iff]) : Only [.regs] (s.tick t) w)) (by simp)
  have hwsea : w.sea = s.sea := hw ▸ rfl
  have hwnow : w.now = max s.now t := hw ▸ rfl
  have hwreg : w.reg F.seaCtlEn = 0 := by
    rw [← hw, State.reg_setReg_self _ _ _ _ _ (by decide) (by decide)]
    rfl
  have htick : SeamSame s (s.tick t) := .of_parts rfl rfl rfl
  have hsame : SeamSame s w := htick.trans (hw ▸ setReg_same (s.tick t) F.seaCtlEn 0 (by decide) (by decide) (by decide))
  have hregs : w.seaLeave.regs = w.regs := by simp
  have honly : Only [.eth, .sc, .sea, .stw] w w.seaLeave := by simp [only_iff]
  have hdone : w.seaLeave.sea.role = 0 := by
    by_cases hr : w.sea.role = 0
    · rw [State.seaLeave, if_pos hr]
      exact hr
    · exact (w.seaLeave_does hr).1.1
  have hleft (hr : w.sea.role ≠ 0) := State.seaLeave_tells hsame hr
  have hnone (hr : w.sea.role ≠ 0) := (w.seaLeave_does hr).1
  generalize w.seaLeave = u at hregs honly hdone hleft hnone
  generalize hv : State.setSea u _ = v
  have hvonly : Only [.sea] u v := hv ▸ (by simp [only_iff])
  have hvsea : v.sea = { u.sea with waits := false } := hv ▸ rfl
  have hvregs : v.regs = u.regs := hvonly .regs (by simp)
  have hkept : Only [.lin] v (v.kept (s.tick t) Fam.seaCtl 0) := by simp [only_iff]
  have hkregs : (v.kept (s.tick t) Fam.seaCtl 0).regs = v.regs := by simp
  have hksea : (v.kept (s.tick t) Fam.seaCtl 0).sea = { u.sea with waits := false } := by rw [← hvsea]; simp
  have hkstw : (v.kept (s.tick t) Fam.seaCtl 0).stw = u.stw := by
    rw [← show v.stw = u.stw from hvonly .stw (by simp)]
    simp
  have hketh : (v.kept (s.tick t) Fam.seaCtl 0).eth = u.eth := by
    rw [← show v.eth = u.eth from hvonly .eth (by simp)]
    simp
  rw [hwsea] at hleft hnone
  refine ⟨?_, by rw [hksea]; exact hdone, fun hr => ?_, fun k hr hk => told_stay ((hleft hr).2 k hk) (.of_eth hketh),
    only_mono (hwonly.trans (honly.trans (hvonly.trans hkept))) (by simp)⟩
  · rw [State.flag, reg_of_regs hkregs, reg_of_regs hvregs, reg_of_regs hregs, hwreg]
    rfl
  · obtain ⟨-, hfollow, hdep, hlist⟩ := hnone hr
    have hchanged := (hleft hr).1
    rw [hwnow] at hchanged
    rw [hksea]
    exact ⟨roleChanged_after (roleChanged_before hchanged (only_mono hwonly (by simp))) (by rw [hksea]) (.of_sess (by rw [hkstw])),
      hfollow, hdep, hlist⟩

/-! ## HELLO and members (11 R239, R242) -/

theorem State.takePrio_keeps {s : State} (h : s.reg F.seaCfgPriority ≠ 0 ∨ s.sea.role < 4 ∨ s.sea.role = 7) :
    s.takePrio = s.setSea { s.sea with prio := s.reg F.seaCfgPriority } := by
  unfold State.takePrio
  dsimp only
  exact if_neg (by omega)

/-- A manager or deputy whose priority has become 0 leaves, and listens anew. -/
theorem State.takePrio_detaches {s : State} (hprio : s.reg F.seaCfgPriority = 0) (hrole : 4 ≤ s.sea.role ∧ s.sea.role ≤ 6) :
    RoleChanged s s.takePrio s.now s.sea.role 1 6 ∧ s.takePrio.sea.prio = 0 ∧
      (∀ k, (s.sea.role = 6 ∧ s.sea.deputy = some k) ∨ (s.sea.role ≠ 6 ∧ s.sea.follow = some k) → Told s s.takePrio k 5 []) ∧
      Only [.eth, .sc, .sea, .stw] s s.takePrio := by
  have htake : s.takePrio = ((s.setSea { s.sea with prio := 0 }).sendLeave).toListening 6 := by
    unfold State.takePrio
    dsimp only
    rw [if_pos ⟨hprio, hrole⟩, hprio]
  rw [htake]
  generalize hx : s.setSea { s.sea with prio := 0 } = x
  have hxsea : x.sea = { s.sea with prio := 0 } := hx ▸ rfl
  have hxwork : SeamWork s x := hx ▸ .setSea s _ rfl
  obtain ⟨q, hq⟩ := x.sendLeave_sea
  rw [hxsea] at hq
  have hwork : SeamWork s x.sendLeave := hxwork.trans x.sendLeave_work
  have htold (k : Nat) (hk : (s.sea.role = 6 ∧ s.sea.deputy = some k) ∨ (s.sea.role ≠ 6 ∧ s.sea.follow = some k)) :
      Told s x.sendLeave k 5 [] := State.sendLeave_told hxwork.same (by rw [hxsea]; exact hk)
  have honly : Only [.eth, .sea] s x.sendLeave := by
    have h₁ : Only [.sea] s x := hx ▸ (by simp [only_iff])
    have h₂ : Only [.eth, .sea] x x.sendLeave := by simp [only_iff]
    exact only_mono (h₁.trans h₂) (by simp)
  generalize x.sendLeave = w at hq hwork htold honly
  obtain ⟨-, ⟨valid, waits, hsea⟩, hrest, -⟩ := w.toListening_does 6
  have hset : SeamWork s (w.setSea { w.sea with
      follow := none, also := none, deputy := none, misses := 0, list := [], yield := none, synced := false, bulk := none, mirrors := [],
      refused := false }) := hwork.trans (.setSea w _ rfl)
  have hchanged := State.toRole_raised hset 1 6
  have hframes := State.toRole_frames (w.setSea { w.sea with
      follow := none, also := none, deputy := none, misses := 0, list := [], yield := none, synced := false, bulk := none, mirrors := [],
      refused := false }) 1 6
  have hnow : (w.setSea { w.sea with
      follow := none, also := none, deputy := none, misses := 0, list := [], yield := none, synced := false, bulk := none, mirrors := [],
      refused := false }).now = s.now := hset.now
  rw [hnow] at hchanged
  refine ⟨?_, by rw [hsea, hq], fun k hk => told_stay (htold k hk) (hframes.after (.of_eth rfl)), only_mono (honly.trans hrest) (by simp)⟩
  rw [show s.sea.role = w.sea.role by rw [hq]]
  exact hchanged

theorem State.helloDue_tick (s : State) (t : Nat) :
    (s.tick t).helloDue = if s.sea.hello + 2 * ms ≤ max s.now t then max s.now t else s.sea.hello + ms := by
  unfold State.helloDue
  rfl

theorem helloDue_casts {s : State} {t : Nat} (hon : s.pow.on = true) (hrole : s.sea.role ≠ 0) (hdue : s.sea.hello + ms ≤ max s.now t)
    (hkeep : s.reg F.seaCfgPriority ≠ 0 ∨ s.sea.role < 4 ∨ s.sea.role = 7) : Does (.helloDue t) s (fun u =>
        u.sea.hello = (if s.sea.hello + 2 * ms ≤ max s.now t then max s.now t else s.sea.hello + ms) ∧ u.sea.role = s.sea.role ∧
        u.sea.prio = s.reg F.seaCfgPriority ∧ Cast s u 0 2 (be 1 s.sea.role ++ be 1 (s.reg F.seaCfgPriority) ++ be 6 (s.macOf 0) ++
          be 6 (s.macOf 1) ++ be 1 (b2n s.sea.valid) ++ zeros 1) ∧ Only [.eth, .sea] s u) := by
  refine does_whenOn hon ?_
  rw [if_pos (show (s.tick t).sea.role ≠ 0 ∧ (s.tick t).sea.hello + ms ≤ (s.tick t).now from ⟨hrole, hdue⟩)]
  dsimp only
  rw [State.takePrio_keeps (s := s.tick t) hkeep, s.helloDue_tick t]
  obtain ⟨due, hnext⟩ : ∃ due, (if s.sea.hello + 2 * ms ≤ max s.now t then max s.now t else s.sea.hello + ms) = due := ⟨_, rfl⟩
  rw [hnext]
  generalize hx : State.setSea (s.tick t) _ = x
  have hxsea : x.sea = { s.sea with prio := s.reg F.seaCfgPriority } := hx ▸ rfl
  have hsame : SeamSame s x := hx ▸ .of_parts rfl rfl rfl
  have hxonly : Only [.sea] s x := only_mono ((s.tick_only t).trans (hx ▸ (by simp [only_iff]) : Only [.sea] (s.tick t) x)) (by simp)
  have hbody : x.helloBody = be 1 s.sea.role ++ be 1 (s.reg F.seaCfgPriority) ++ be 6 (s.macOf 0) ++ be 6 (s.macOf 1) ++
      be 1 (b2n s.sea.valid) ++ zeros 1 := hx ▸ rfl
  rw [hbody]
  generalize hb : be 1 s.sea.role ++ be 1 (s.reg F.seaCfgPriority) ++ be 6 (s.macOf 0) ++ be 6 (s.macOf 1) ++ be 1 (b2n s.sea.valid) ++ zeros 1 = body
  have hcast := State.castAll_cast hsame 2 body
  obtain ⟨q, hq⟩ := x.castAll_sea 2 body
  have hsend : Only [.eth, .sea] x (x.castAll 2 body) := by simp [only_iff]
  rw [hxsea] at hq
  generalize x.castAll 2 body = w at hcast hq hsend
  have hset (y : Sea) : Only [.sea] w (w.setSea y) := by simp [only_iff]
  have hrole' : w.sea.role = s.sea.role := by rw [hq]
  have hprio' : w.sea.prio = s.reg F.seaCfgPriority := by rw [hq]
  exact ⟨rfl, hrole', hprio', cast_stay hcast (.of_eth rfl), only_mono (hxonly.trans (hsend.trans (hset _))) (by simp)⟩

theorem helloDue_leaves {s : State} {t : Nat} (hon : s.pow.on = true) (hdue : s.sea.hello + ms ≤ max s.now t)
    (hprio : s.reg F.seaCfgPriority = 0) (hrole : s.sea.role = 4 ∨ s.sea.role = 5 ∨ s.sea.role = 6) : Does (.helloDue t) s (fun u =>
        RoleChanged s u (max s.now t) s.sea.role 1 6 ∧ u.sea.prio = 0 ∧
        (∀ k, (s.sea.role = 6 ∧ s.sea.deputy = some k) ∨ (s.sea.role ≠ 6 ∧ s.sea.follow = some k) → Told s u k 5 []) ∧
        Only [.eth, .sc, .sea, .stw] s u) := by
  refine does_whenOn hon ?_
  rw [if_pos (show (s.tick t).sea.role ≠ 0 ∧ (s.tick t).sea.hello + ms ≤ (s.tick t).now from ⟨show s.sea.role ≠ 0 by omega, hdue⟩)]
  obtain ⟨hchanged, hzero, htold, honly⟩ := State.takePrio_detaches (s := s.tick t) hprio (show 4 ≤ s.sea.role ∧ s.sea.role ≤ 6 by omega)
  dsimp only
  obtain ⟨due, hnext⟩ : ∃ due, (s.tick t).helloDue = due := ⟨_, rfl⟩
  rw [hnext]
  generalize (s.tick t).takePrio = w at hchanged hzero htold honly
  generalize w.helloBody = body
  obtain ⟨q, hq⟩ := w.castAll_sea 2 body
  have hhold := w.castAll_holds 2 body
  have hframes := w.castAll_frames 2 body
  have hsend : Only [.eth, .sea] w (w.castAll 2 body) := by simp [only_iff]
  generalize w.castAll 2 body = v at hq hhold hframes hsend
  have hset (y : Sea) : Only [.sea] v (v.setSea y) := by simp [only_iff]
  have hrole' : v.sea.role = w.sea.role := by rw [hq]
  have hprio' : v.sea.prio = w.sea.prio := by rw [hq]
  refine ⟨?_, hprio'.trans hzero, fun k hk => ?_, only_mono ((s.tick_only t).trans (honly.trans (hsend.trans (hset _)))) (by simp)⟩
  · exact roleChanged_after (roleChanged_before hchanged (only_mono (s.tick_only t) (by simp))) hrole'
      (hhold.trans (.of_sess rfl))
  · exact told_stay (htold k hk) (FramesStay.after (.of_eth rfl) hframes)

/-- A member that has been silent for 10 ms leaves the list. -/
theorem memberSilent_drops {s : State} {t k : Nat} {y : Station} (hon : s.pow.on = true) (hy : tget? s.sea.list k = some y) (hrole : s.sea.role = 6)
    (hdue : y.heard + 10 * ms ≤ max s.now t) : Does (.memberSilent t k) s (fun u => tget? u.sea.list k = none ∧
        (∀ j, j ≠ k → tget? u.sea.list j = tget? s.sea.list j) ∧ Raised s u (max s.now t) 0x603 0x70 0 (be 2 k ++ be 1 1) ∧
        (if s.sea.deputy = some k then u.sea.deputy ≠ some k ∧ u.sea.synced = false else u.sea.deputy = s.sea.deputy) ∧
        Only [.eth, .sea, .stw] s u) := by
  refine does_whenOn hon ?_
  rw [show tget? (s.tick t).sea.list k = some y from hy]
  dsimp only
  rw [if_pos (show (s.tick t).sea.role = 6 ∧ y.heard + 10 * ms ≤ (s.tick t).now from ⟨hrole, hdue⟩)]
  obtain ⟨hlist, hraised, hdep, hrest⟩ := State.dropMember_does (.refl (s.tick t)) k 1
  rw [hlist]
  exact ⟨tget?_tdel_self _ _, fun j hj => tget?_tdel_ne _ hj, Raised.untick hraised, hdep, only_mono ((s.tick_only t).trans hrest) (by simp)⟩

/-! ## BEACONs sent and missed (11 R243 to R245) -/

/-- A manager without a deputy appoints one of its members that may be. -/
theorem State.appoint_picks {s v : State} (h : SeamSame s v) (hrole : v.sea.role = 6) (hdep : v.sea.deputy = none) (hyield : v.sea.yield = none)
    {k : Nat} {y : Station} (hk : tget? v.sea.list k = some y) (hprio : y.prio ≠ 0) :
    v.appoint.sea.role = 6 ∧ v.appoint.sea.bulk = some (v.sea.change, v.sea.registry) ∧
      ∃ d z, v.appoint.sea.deputy = some d ∧ (d, z) ∈ v.sea.list ∧ z.prio ≠ 0 ∧ Told s v.appoint d 6 [] := by
  have hsome : ∃ d, bestMember v.sea.list = some d := by
    have hmem : (k, y) ∈ v.sea.list.filter fun e => decide (e.2.prio ≠ 0) :=
      List.mem_filter.2 ⟨tget?_mem _ _ _ hk, decide_eq_true hprio⟩
    unfold bestMember
    cases hl : v.sea.list.filter fun e => decide (e.2.prio ≠ 0) with
    | nil => rw [hl] at hmem; exact absurd hmem (by simp)
    | cons e l =>
      rw [List.foldl_cons]
      refine List.foldlRecOn (motive := fun b : Option Nat => ∃ d, b = some d) _ _ ⟨e.1, rfl⟩ fun b hb e _ => ?_
      obtain ⟨d, rfl⟩ := hb
      dsimp only
      generalize keyOf _ d = kd
      split <;> exact ⟨_, rfl⟩
  obtain ⟨d, hd⟩ := hsome
  obtain ⟨⟨d', z⟩, hmem, rfl, hz⟩ := bestMember_mem hd
  unfold State.appoint
  rw [if_neg (show ¬(v.sea.role ≠ 6 ∨ v.sea.deputy ≠ none ∨ v.sea.yield ≠ none) by simp [hrole, hdep, hyield]), hd]
  dsimp only
  generalize hx : v.setSea _ = x
  have hxsea : x.sea = { v.sea with
    deputy := some d', synced := false, bulk := some (v.sea.change, v.sea.registry), mirrors := [], mirrorHeard := v.now } := hx ▸ rfl
  have hsame : SeamSame s x := h.trans (hx ▸ .of_parts rfl rfl rfl)
  obtain ⟨q, hq⟩ := x.sendTo_sea d' 6 []
  have htold := State.sendTo_told hsame d' 6 []
  rw [hxsea] at hq
  rw [hq]
  exact ⟨hrole, rfl, d', z, rfl, hmem, hz, htold⟩

/-- A manager that makes way tells its members, and listens. -/
theorem State.yielded_listens (s : State) : s.yielded.sea.role = 1 ∧ s.yielded.sea.registry = s.sea.registry ∧
    FramesStay s s.yielded ∧ s.yielded.sea.beacon = s.sea.beacon := by
  unfold State.yielded
  dsimp only
  have htell : FramesStay s (s.sea.list.foldl (fun s e => s.stationLeft e.1 2) s) :=
    foldl_keeps (FramesStay s) _ (fun u e hu => hu.trans (u.raise_stay _ _ _ _)) _ _ (.of_eth rfl)
  have hsea : (s.sea.list.foldl (fun s e => s.stationLeft e.1 2) s).sea = s.sea :=
    foldl_keeps (fun u : State => u.sea = s.sea) _ (fun u e hu => by simpa using hu) _ _ rfl
  generalize s.sea.list.foldl (fun s e => s.stationLeft e.1 2) s = w at htell hsea
  obtain ⟨-, ⟨valid, waits, hnew⟩, -, -⟩ := w.toListening_does 5
  refine ⟨by rw [hnew], by rw [hnew, hsea], htell.trans ?_, by rw [hnew, hsea]⟩
  exact (State.toRole_frames _ _ _).after (.of_eth rfl)

theorem State.appoint_frames (s : State) : FramesStay s s.appoint := s.appoint_work.frames

theorem State.appoint_keeps (s : State) : s.appoint.sea.beacon = s.sea.beacon ∧ s.appoint.sea.registry = s.sea.registry ∧
    s.appoint.sea.list = s.sea.list ∧ s.appoint.sea.role = s.sea.role := by
  unfold State.appoint
  split
  · exact ⟨rfl, rfl, rfl, rfl⟩
  split
  · exact ⟨rfl, rfl, rfl, rfl⟩
  · dsimp only
    generalize hx : s.setSea _ = x
    have hxsea : x.sea.beacon = s.sea.beacon ∧ x.sea.registry = s.sea.registry ∧ x.sea.list = s.sea.list ∧ x.sea.role = s.sea.role :=
      hx ▸ ⟨rfl, rfl, rfl, rfl⟩
    obtain ⟨q, hq⟩ := State.sendTo_sea x _ 6 []
    rw [hq]
    exact hxsea

/-- A BEACON goes out; a manager that makes way counts down, and one without a deputy appoints one. -/
theorem clusterBeaconDue_casts {s : State} {t : Nat} (hon : s.pow.on = true) (hrole : s.sea.role = 6) (hdue : s.sea.beacon ≤ max s.now t) :
    Does (.clusterBeaconDue t) s (fun u => Cast s u 0 1 (s.tick t).beaconBody ∧
      u.sea.beacon = s.sea.beacon + s.periodUs * us ∧ u.sea.registry = s.sea.registry ∧
      (∀ k n, s.sea.yield = some (k, n) → (1 < n → u.sea.role = 6 ∧ u.sea.yield = some (k, n - 1)) ∧ (n ≤ 1 → u.sea.role = 1)) ∧
      (∀ k y, s.sea.yield = none → s.sea.deputy = none → tget? s.sea.list k = some y → y.prio ≠ 0 → u.sea.role = 6 ∧
        u.sea.bulk = some (s.sea.change, s.sea.registry) ∧ ∃ d z, u.sea.deputy = some d ∧ (d, z) ∈ s.sea.list ∧ z.prio ≠ 0 ∧ Told s u d 6 []) ∧
      Only [.eth, .sc, .sea, .stw] s u) := by
  refine does_whenOn hon ?_
  rw [if_pos (show (s.tick t).sea.role = 6 ∧ (s.tick t).sea.beacon ≤ (s.tick t).now from ⟨hrole, hdue⟩)]
  have htick : SeamSame s (s.tick t) := .of_parts rfl rfl rfl
  generalize (s.tick t).beaconBody = body
  have hcast := State.castAll_cast htick 1 body
  obtain ⟨q, hq⟩ := (s.tick t).castAll_sea 1 body
  have hconly : Only [.eth, .sea] s ((s.tick t).castAll 1 body) :=
    only_mono ((s.tick_only t).trans (by simp [only_iff] : Only [.eth, .sea] (s.tick t) _)) (by simp)
  have hcregs : ((s.tick t).castAll 1 body).regs = s.regs := hconly .regs (by simp)
  have hcsame : SeamSame s ((s.tick t).castAll 1 body) := by
    have hframes := (s.tick t).castAll_frames 1 body
    exact ⟨fun p => ups_of_stay hframes p, by rw [State.flag, reg_of_regs hcregs]; rfl, by rw [State.flag, reg_of_regs hcregs]; rfl,
      reg_of_regs hcregs _ _ _, reg_of_regs hcregs _ _ _, by rw [hq]; rfl⟩
  have hperiod : ((s.tick t).castAll 1 body).periodUs = s.periodUs := congrArg (clamp 8 1024) (reg_of_regs hcregs _ _ _)
  dsimp only
  rw [hperiod]
  obtain ⟨step, hstep⟩ : ∃ step, s.periodUs * us = step := ⟨_, rfl⟩
  rw [hstep]
  generalize (s.tick t).castAll 1 body = w at hcast hq hconly hcsame
  generalize hx : w.setSea _ = x
  have hxsea : x.sea = { w.sea with beacon := w.sea.beacon + step } := hx ▸ rfl
  have hxonly : Only [.sea] w x := hx ▸ (by simp [only_iff])
  have hxcast : Cast s x 0 1 body := cast_stay hcast (.of_eth (hxonly .eth (by simp)))
  have hxsame : SeamSame s x := hcsame.trans (hx ▸ .of_parts rfl rfl rfl)
  have hsx : Only [.eth, .sea] s x := only_mono (hconly.trans hxonly) (by simp)
  rw [hq] at hxsea
  replace hxsea : x.sea = { s.sea with seq := q, beacon := s.sea.beacon + step } := hxsea
  clear hx hcast hconly hcsame hxonly hq
  rw [hxsea]
  dsimp only
  cases hy : s.sea.yield with
  | some p =>
    obtain ⟨k, n⟩ := p
    dsimp only
    by_cases hn : n ≤ 1
    · rw [if_pos hn]
      obtain ⟨hlisten, hreg, hframes, hbeacon⟩ := x.yielded_listens
      have hrest : Only [.eth, .sc, .sea, .stw] x x.yielded := by simp [only_iff]
      refine ⟨cast_stay hxcast hframes, by rw [hbeacon, hxsea], by rw [hreg, hxsea], fun k' n' he => ?_, fun _ _ he => ?_,
        only_mono (hsx.trans hrest) (by simp)⟩
      · obtain ⟨rfl, rfl⟩ := Prod.mk.inj (Option.some.inj he)
        exact ⟨fun h => absurd hn (by omega), fun _ => hlisten⟩
      · exact absurd he (by simp)
    · rw [if_neg hn]
      have hset (y : Sea) : Only [.sea] x (x.setSea y) := by simp [only_iff]
      refine ⟨cast_stay hxcast (.of_eth rfl), rfl, rfl, fun k' n' he => ?_, fun _ _ he => ?_, only_mono (hsx.trans (hset _)) (by simp)⟩
      · obtain ⟨rfl, rfl⟩ := Prod.mk.inj (Option.some.inj he)
        exact ⟨fun _ => ⟨hrole, rfl⟩, fun h => absurd h hn⟩
      · exact absurd he (by simp)
  | none =>
    dsimp only
    obtain ⟨hbeacon, hreg, -, -⟩ := x.appoint_keeps
    have hrest : Only [.eth, .sea] x x.appoint := by simp [only_iff]
    refine ⟨cast_stay hxcast x.appoint_frames, by rw [hbeacon, hxsea], by rw [hreg, hxsea], fun _ _ he => absurd he (by simp),
      fun k y _ hdep hk hprio => ?_, only_mono (hsx.trans hrest) (by simp)⟩
    have hpicks := State.appoint_picks hxsame (by rw [hxsea]; exact hrole) (by rw [hxsea]; exact hdep) (by rw [hxsea]; exact hy)
      (by rw [hxsea]; exact hk) hprio
    rw [hxsea] at hpicks
    exact hpicks

/-- The third BEACON missed in a row ends a manager's time: its deputy takes over, and others wait for that. -/
theorem beaconMiss_counts {s : State} {t d : Nat} (hon : s.pow.on = true) (hd : s.sea.deadline = some d)
    (hrole : s.sea.role = 3 ∨ s.sea.role = 4 ∨ s.sea.role = 5) (hdue : d ≤ max s.now t) : Does (.beaconMiss t) s (fun u =>
      u.reg F.seaMiss = min (s.reg F.seaMiss + 1) 0xFFFFFFFF ∧
      (s.sea.misses ≠ 2 ∨ s.anyUp = false → u.sea = { s.sea with misses := s.sea.misses + 1 }) ∧
      (s.sea.misses = 2 → s.anyUp = true → (s.sea.role = 5 → s.prio ≠ 0 → RoleChanged s u (max s.now t) 5 6 1 ∧
          u.sea.takeover = max s.now t + ms ∧ u.sea.registry = s.sea.registry) ∧
        (s.sea.role = 5 → s.prio = 0 → RoleChanged s u (max s.now t) 5 7 8) ∧
        (s.sea.role ≠ 5 → u.sea.role = s.sea.role ∧ u.sea.misses = 3 ∧ u.sea.follow = s.sea.follow ∧
          u.sea.also = (if s.sea.role = 3 then s.sea.deputy else none) ∧
          u.sea.limit = max s.now t + 3 * s.sea.period * us + 24 * us)) ∧
      Only [.eth, .lin, .regs, .sea, .stw] s u) := by
  refine does_whenOn hon ?_
  dsimp only
  rw [if_pos (show ((s.tick t).sea.role = 3 ∨ (s.tick t).sea.role = 4 ∨ (s.tick t).sea.role = 5) ∧
    ((s.tick t).sea.deadline.any fun d => decide (d ≤ (s.tick t).now)) = true from ⟨hrole, by
      rw [show (s.tick t).sea.deadline = some d from hd, Option.any_some]
      exact decide_eq_true hdue⟩)]
  generalize hw : State.bump (State.setSea (s.tick t) _) F.seaMiss = w
  have hwsea : w.sea = { s.sea with misses := s.sea.misses + 1 } := by rw [← hw]; simp
  have hwnow : w.now = max s.now t := by rw [← hw]; simp
  have hwreg : w.reg F.seaMiss = min (s.reg F.seaMiss + 1) 0xFFFFFFFF := by
    rw [← hw, State.bump_full _ _ rfl rfl]
    rfl
  have hwonly : Only [.regs, .sea] s w := only_mono ((s.tick_only t).trans (hw ▸ (by simp [only_iff]) : Only [.regs, .sea] (s.tick t) w)) (by simp)
  have hwup : w.anyUp = s.anyUp := by
    rw [State.anyUp, State.anyUp, State.ep, State.ep, State.ep, State.ep, show w.eth = s.eth from hwonly .eth (by simp)]
  have hwprio : w.prio = s.prio := by rw [State.prio, hwsea]; rfl
  have hwrole : w.sea.role = s.sea.role := by rw [hwsea]
  clear hw
  have hup : (s.tick t).anyUp = s.anyUp := rfl
  rw [show (s.tick t).sea = s.sea from rfl, hwup]
  obtain ⟨wait, hwait⟩ : ∃ wait, 3 * s.sea.period * us + 24 * us = wait := ⟨_, rfl⟩
  rw [Nat.add_assoc (max s.now t), Nat.add_assoc w.now, hwait, hwnow]
  by_cases hfew : s.sea.misses + 1 ≠ 3 ∨ s.anyUp = false
  · rw [if_pos hfew]
    refine ⟨hwreg, fun _ => hwsea, fun hm hup => ?_, only_mono hwonly (by simp)⟩
    rcases hfew with h | h
    · exact absurd hm (by omega)
    · exact absurd (hup.symm.trans h) (by decide)
  · rw [if_neg hfew]
    simp only [not_or, not_not, Bool.not_eq_false] at hfew
    obtain ⟨hm, hup⟩ := hfew
    have hnot {P : Prop} (h : s.sea.misses ≠ 2 ∨ s.anyUp = false) : P := by
      rcases h with h | h
      · exact absurd hm (by omega)
      · exact absurd (hup.symm.trans h) (by decide)
    have hbefore {u : State} {old new reason : Nat} (h : RoleChanged w u w.now old new reason) :
        RoleChanged s u (max s.now t) old new reason := hwnow ▸ roleChanged_before h (only_mono hwonly (by simp))
    by_cases h5 : s.sea.role = 5
    · rw [if_pos h5]
      by_cases hprio : s.prio = 0
      · rw [State.takeOver, if_pos (hwprio.trans hprio)]
        obtain ⟨hchanged, -, honly⟩ := State.toElecting_does (hwup.trans hup) (by rw [hwrole, h5]; decide)
        rw [hwrole, h5] at hchanged
        refine ⟨?_, hnot, fun _ _ => ⟨fun _ h => absurd hprio h, fun _ _ => hbefore hchanged, fun h => absurd h5 h⟩,
          only_mono (hwonly.trans honly) (by simp)⟩
        exact (reg_of_regs (honly .regs (by simp)) _ _ _).trans hwreg
      · obtain ⟨hchanged, htake, hreg, hregs, honly⟩ := State.takeOver_does (s := w) (by rw [hwprio]; exact hprio) (hwrole.trans h5)
        refine ⟨(hregs _ (by decide)).trans hwreg, hnot, fun _ _ => ⟨fun _ _ => ⟨hbefore hchanged, ?_, ?_⟩, fun _ h => absurd h hprio,
          fun h => absurd h5 h⟩, only_mono (hwonly.trans honly) (by simp)⟩
        · rw [htake, hwnow]
        · rw [hreg, hwsea]
    · rw [if_neg h5]
      have hset (y : Sea) : Only [.sea] w (w.setSea y) := by simp [only_iff]
      refine ⟨hwreg, hnot, fun _ _ => ⟨fun h => absurd h h5, fun h => absurd h h5, fun _ => ⟨hwrole, ?_, ?_, rfl, rfl⟩⟩,
        only_mono (hwonly.trans (hset _)) (by simp)⟩
      · show w.sea.misses = 3
        rw [hwsea]
        exact hm
      · show w.sea.follow = _
        rw [hwsea]

theorem takeoverTimeout_elects {s : State} {t : Nat} (hon : s.pow.on = true) (hrole : s.sea.role = 3 ∨ s.sea.role = 4) (hmiss : 3 ≤ s.sea.misses)
    (hdue : s.sea.limit ≤ max s.now t) (hup : s.anyUp = true) : Does (.takeoverTimeout t) s (fun u =>
      RoleChanged s u (max s.now t) s.sea.role 7 8 ∧ u.sea.follow = none ∧ u.sea.keepReg = decide (s.sea.role = 4) ∧
      Only [.eth, .sea, .stw] s u) := by
  refine does_whenOn hon ?_
  rw [if_pos (show ((s.tick t).sea.role = 3 ∨ (s.tick t).sea.role = 4) ∧ 3 ≤ (s.tick t).sea.misses ∧ (s.tick t).sea.limit ≤ (s.tick t).now from
    ⟨hrole, hmiss, hdue⟩)]
  obtain ⟨hchanged, hsea, honly⟩ := State.toElecting_does (s := s.tick t) hup (show s.sea.role ≠ 6 by omega)
  rw [hsea]
  exact ⟨roleChanged_before hchanged (only_mono (s.tick_only t) (by simp)), rfl, rfl, only_mono ((s.tick_only t).trans honly) (by simp)⟩

/-! ## Messages of other stations (11 R239 to R245) -/

theorem helloAddr_mac (o : Option Addr) (a : Addr) : (helloAddr o a).mac = a.mac ∧ (a.udp = true → helloAddr o a = a) := by
  cases o with
  | none => exact ⟨rfl, fun _ => rfl⟩
  | some o =>
    unfold helloAddr
    dsimp only
    split
    · exact ⟨rfl, fun _ => rfl⟩
    next h => exact ⟨rfl, fun hu => absurd hu h⟩

/-- A HELLO is noted with the address it came from. -/
theorem State.noteStation_does (s : State) (m : SeamMsg) :
    (∃ y, tget? (s.noteStation m).sea.peers m.station = some y ∧ y.role = octet m.body 0 ∧ y.prio = octet m.body 1 ∧ y.mac0 = beAt m.body 2 6 ∧
      y.mac1 = beAt m.body 8 6 ∧ y.heard = s.now ∧ ∃ a, tget? y.addrs m.port = some a ∧ a.mac = m.src.mac ∧ (m.src.udp = true → a = m.src)) ∧
    (∃ peers list, (s.noteStation m).sea = { s.sea with peers := peers, list := list }) ∧ Only [.sea] s (s.noteStation m) := by
  unfold State.noteStation
  extract_lets old x l
  obtain ⟨hmac, hudp⟩ := helloAddr_mac (tget? old m.port) m.src
  refine ⟨⟨x, tget?_tset_self _ _ _, rfl, rfl, rfl, rfl, rfl, _, tget?_tset_self _ _ _, hmac, hudp⟩, ⟨_, _, rfl⟩, by simp [only_iff]⟩

theorem takes_notStray {s : State} {m : SeamMsg} (h : Takes s m) : s.forSeam m = true ∧ s.seamStray m = false := by
  obtain ⟨-, htaken, -⟩ := h
  have hseam : s.forSeam m = true := by
    rw [State.takesSeam, Bool.and_eq_true] at htaken
    exact htaken.1
  refine ⟨hseam, ?_⟩
  simp only [State.forSeam, Bool.and_eq_true] at hseam
  obtain ⟨⟨⟨⟨⟨-, htag⟩, hcarrier⟩, -⟩, -⟩, -⟩ := hseam
  simp only [State.seamStray, hcarrier, Bool.true_or, Bool.not_true, Bool.or_false]
  rw [show s.strangeTag m.src.tag = false by simpa using htag, Bool.and_false]

theorem helloRx_notes {s : State} {t : Nat} {m : SeamMsg} (htakes : Takes s m) (hlen : m.body.length = 16) : Does (.helloRx t m) s (fun u =>
      (∃ y, tget? u.sea.peers m.station = some y ∧ y.role = octet m.body 0 ∧
        y.prio = octet m.body 1 ∧ y.mac0 = beAt m.body 2 6 ∧ y.mac1 = beAt m.body 8 6 ∧ y.heard = max s.now t ∧
        ∃ a, tget? y.addrs m.port = some a ∧ a.mac = m.src.mac ∧ (m.src.udp = true → a = m.src)) ∧
      (s.sea.role = 6 → s.sea.deputy = some m.station → octet m.body 0 = 5 → u.sea.synced = true) ∧ u.sea.role = s.sea.role ∧
      Only [.sea] s u) := by
  obtain ⟨hseam, hstray⟩ := takes_notStray htakes
  obtain ⟨hon, htaken, hrole⟩ := htakes
  refine does_whenOn hon ?_
  rw [show (s.tick t).seamStray m = false from hstray, if_neg (by decide),
    if_neg (show ¬((s.tick t).forSeam m = false ∨ (s.tick t).sea.role = 0 ∨ m.body.length ≠ 16) by
      rw [show (s.tick t).forSeam m = true from hseam]
      simp only [Bool.true_eq_false, false_or, not_or, not_not]
      exact ⟨hrole, hlen⟩), if_pos (show (s.tick t).takesSeam m = true from htaken)]
  obtain ⟨hpeer, ⟨peers, list, hsea⟩, honly⟩ := ((s.tick t).noteSeam m).noteStation_does m
  have hnote := s.noteSeam_only m t
  generalize ((s.tick t).noteSeam m).noteStation m = w at hpeer hsea honly
  have hwonly : Only [.sea] s w := only_mono (hnote.trans honly) (by simp)
  have hwrole : w.sea.role = s.sea.role := by rw [hsea]; rfl
  have hwdep : w.sea.deputy = s.sea.deputy := by rw [hsea]; rfl
  dsimp only
  rw [hwrole, hwdep]
  split
  next h =>
    have hset (y : Sea) : Only [.sea] w (w.setSea y) := by simp [only_iff]
    exact ⟨hpeer, fun _ _ _ => rfl, rfl, only_mono (hwonly.trans (hset _)) (by simp)⟩
  next h => exact ⟨hpeer, fun h1 h2 h3 => absurd ⟨h1, h2, h3⟩ h, hwrole, hwonly⟩

/-- A station becomes a member: it is told so, and may be made deputy. -/
theorem State.joins_does {v x u : State} (hrole : v.sea.role = 6) (k : Nat) (y : Station)
    (hx : v.setSea { v.sea with list := tset v.sea.list k y } = x)
    (hu : ((x.sendTo k 4 (x.joinAck 0)).raise 0x602 0x70 0 (stationBody k y)).appoint = u) :
    tget? u.sea.list k = some y ∧ Told v u k 4 (be 1 0 ++ zeros 1 ++ be 2 (orNone v.sea.deputy) ++ be 4 u.members) ∧
      Raised v u v.now 0x602 0x70 0 (stationBody k y) ∧
      (v.sea.deputy = none → v.sea.yield = none → y.prio ≠ 0 → u.sea.deputy.isSome = true) ∧ u.sea.role = 6 ∧ Only [.eth, .sea, .stw] v u := by
  have hxsea : x.sea = { v.sea with list := tset v.sea.list k y } := hx ▸ rfl
  have hxwork : SeamWork v x := hx ▸ .setSea v _ rfl
  have hxonly : Only [.sea] v x := hx ▸ (by simp [only_iff])
  have hmembers : x.members = (tset v.sea.list k y).length + 1 := by
    rw [State.members, hxsea]
    exact if_pos hrole
  have hxbody : x.joinAck 0 = be 1 0 ++ zeros 1 ++ be 2 (orNone v.sea.deputy) ++ be 4 ((tset v.sea.list k y).length + 1) := by
    rw [State.joinAck, hmembers, hxsea]
  rw [hxbody] at hu
  generalize hb : be 1 0 ++ zeros 1 ++ be 2 (orNone v.sea.deputy) ++ be 4 ((tset v.sea.list k y).length + 1) = body at hu
  have htold := State.sendTo_told hxwork.same k 4 body
  have hwork := hxwork.trans (x.sendTo_work k 4 body)
  obtain ⟨q, hq⟩ := x.sendTo_sea k 4 body
  have hsend : Only [.eth, .sea] x (x.sendTo k 4 body) := by simp [only_iff]
  generalize x.sendTo k 4 body = w at htold hwork hq hsend hu
  have hraised : Raised v (w.raise 0x602 0x70 0 (stationBody k y)) v.now 0x602 0x70 0 (stationBody k y) := by
    have hraise := w.raiseAt_raised w.now 0x602 0x70 0 (stationBody k y) []
    rw [List.append_nil, hwork.now] at hraise
    refine hwork.raised ?_
    rw [State.raise, hwork.now]
    exact hraise
  have hwraise : Only [.eth, .stw] w (w.raise 0x602 0x70 0 (stationBody k y)) := by simp [only_iff]
  have hstay : FramesStay w (w.raise 0x602 0x70 0 (stationBody k y)) := w.raise_stay _ _ _ _
  have hrsea : (w.raise 0x602 0x70 0 (stationBody k y)).sea = w.sea := by simp
  have hrsame : SeamSame v (w.raise 0x602 0x70 0 (stationBody k y)) := hwork.same.trans
    ⟨fun p => ups_of_stay hstay p, by rw [State.flag, reg_of_regs (s := w) (by simp)]; rfl, by rw [State.flag, reg_of_regs (s := w) (by simp)]; rfl,
      reg_of_regs (by simp) _ _ _, reg_of_regs (by simp) _ _ _, by rw [hrsea]⟩
  generalize w.raise 0x602 0x70 0 (stationBody k y) = r at hraised hwraise hstay hrsea hrsame hu
  rw [hq, hxsea] at hrsea
  obtain ⟨-, -, hlist, hurole⟩ := r.appoint_keeps
  have hrest : Only [.eth, .sea] r r.appoint := by simp [only_iff]
  rw [hrsea, hu] at hlist hurole
  have humembers : u.members = (tset v.sea.list k y).length + 1 := by
    rw [State.members, hlist]
    exact if_pos (hurole.trans hrole)
  refine ⟨by rw [hlist, tget?_tset_self], ?_, ?_, fun hdep hyield hprio => ?_, hurole.trans hrole, ?_⟩
  · rw [humembers, hb, ← hu]
    exact told_stay htold (hstay.trans r.appoint_frames)
  · rw [← hu]
    exact raised_holds hraised r.appoint_work.holds
  · obtain ⟨-, -, d, -, hd, -⟩ := State.appoint_picks hrsame (by rw [hrsea]; exact hrole) (by rw [hrsea]; exact hdep) (by rw [hrsea]; exact hyield)
      (k := k) (y := y) (by rw [hrsea, tget?_tset_self]) hprio
    rw [hu] at hd
    rw [hd]
    rfl
  · rw [← hu]
    exact only_mono (hxonly.trans (hsend.trans (hwraise.trans hrest))) (by simp)

/-! ## BEACONs received (11 R240, R244, R253, R254) -/

/-- Cluster time is valid once a BEACON has been taken; it follows the BEACON where the path to the manager is known. -/
theorem State.steer_does (s : State) (e c : Nat) : Only [.sea] s (s.steer e c) ∧ ∃ known cepoch cbase cat,
    (s.steer e c).sea = { s.sea with cepoch := cepoch, cbase := cbase, cat := cat, known := known, valid := true } ∧
      ∀ d, s.sea.path = some d → cepoch = e ∧ cbase = c + d ∧ cat = s.now := by
  refine ⟨by simp [only_iff], ?_⟩
  unfold State.steer
  dsimp only
  split
  next d hd => exact ⟨_, _, _, _, rfl, fun d' hd' => by rw [Option.some.inj (hd.symm.trans hd')]; exact ⟨rfl, rfl, rfl⟩⟩
  next hno =>
    split
    · exact ⟨_, s.sea.cepoch, s.sea.cbase, s.sea.cat, rfl, fun d hd => absurd (hno.symm.trans hd) (by simp)⟩
    · exact ⟨_, _, _, _, rfl, fun d hd => absurd (hno.symm.trans hd) (by simp)⟩

/-- What a BEACON of the manager gives. -/
theorem State.takeBeacon_does (s : State) (b : List Byte) : Only [.sea] s (s.takeBeacon b) ∧ ∃ known cepoch cbase cat,
    (s.takeBeacon b).sea = { s.sea with
      arrival := some s.now, lastCns := some (beAt b 4 8), period := beAt b 18 2, misses := 0, also := none, count := beAt b 24 4,
      deputy := if beAt b 14 2 = 0xFFFF then none else some (beAt b 14 2), cepoch := cepoch, cbase := cbase, cat := cat, known := known,
      valid := true } ∧ ∀ d, s.sea.path = some d → cepoch = beAt b 0 4 ∧ cbase = beAt b 4 8 + d ∧ cat = s.now := by
  unfold State.takeBeacon
  dsimp only
  generalize hx : s.setSea _ = x
  have hxonly : Only [.sea] s x := hx ▸ (by simp [only_iff])
  obtain ⟨honly, known, cepoch, cbase, cat, hsea, hpath⟩ := x.steer_does (beAt b 0 4) (beAt b 4 8)
  refine ⟨only_mono (hxonly.trans honly) (by simp), known, cepoch, cbase, cat, ?_, ?_⟩
  · rw [hsea, ← hx]
    rfl
  · subst hx
    exact hpath

/-- A station in JOINING follows the manager of a BEACON, and JOIN_REQ is due. -/
theorem State.toJoining_does {s : State} (h : s.sea.role ≠ 6) (k reason : Nat) :
    RoleChanged s (s.toJoining k reason) s.now s.sea.role 2 reason ∧ (s.toJoining k reason).sea.follow = some k ∧
      (s.toJoining k reason).sea.joinNext = s.now ∧ Only [.eth, .sea, .stw] s (s.toJoining k reason) := by
  unfold State.toJoining State.followStation
  dsimp only
  generalize hx : State.setSea (s.setSea _) _ = x
  obtain ⟨hxrole, hxfollow, hxnext, hxnow⟩ : x.sea.role = s.sea.role ∧ x.sea.follow = some k ∧ x.sea.joinNext = s.now ∧ x.now = s.now := by
    subst hx
    exact ⟨rfl, rfl, rfl, rfl⟩
  have hxonly : Only [.sea] s x := hx ▸ (by simp [only_iff])
  obtain ⟨hnew, honly, -⟩ := x.toRole_new (role := 2) reason (.inl (by rw [hxrole]; exact h))
  have hchanged := x.toRole_changes 2 reason
  rw [hxrole, hxnow] at hchanged
  exact ⟨roleChanged_before hchanged (only_mono hxonly (by simp)), by rw [hnew]; exact hxfollow, by rw [hnew]; exact hxnext,
    only_mono (hxonly.trans honly) (by simp)⟩

/-- The manager that a BEACON names: its own, or the one it yields to. -/
def beaconManager (b : List Byte) : Nat := if bit (octet b 16) 3 then beAt b 20 2 else beAt b 12 2

theorem State.joinBeacon_does {s : State} (h : s.sea.role ≠ 6) (m : SeamMsg) (reason : Nat) :
    RoleChanged s (s.joinBeacon m reason) s.now s.sea.role 2 reason ∧ (s.joinBeacon m reason).sea.follow = some (beaconManager m.body) ∧
      (s.joinBeacon m reason).sea.joinNext = s.now ∧ Only [.eth, .sea, .stw] s (s.joinBeacon m reason) := by
  obtain ⟨hchanged, hfollow, hnext, honly⟩ := State.toJoining_does h (beaconManager m.body) reason
  have hjoin : s.joinBeacon m reason = if beaconManager m.body = m.station then (s.toJoining (beaconManager m.body) reason).takeBeacon m.body
      else s.toJoining (beaconManager m.body) reason := rfl
  rw [hjoin]
  generalize s.toJoining (beaconManager m.body) reason = w at hchanged hfollow hnext honly
  split
  · obtain ⟨htake, known, cepoch, cbase, cat, hsea, -⟩ := w.takeBeacon_does m.body
    rw [hsea]
    exact ⟨roleChanged_after hchanged (by rw [hsea]) (.of_sess (by rw [show (w.takeBeacon m.body).stw = w.stw from htake .stw (by simp)])),
      hfollow, hnext, only_mono (honly.trans htake) (by simp)⟩
  · exact ⟨hchanged, hfollow, hnext, honly⟩

/-- A valid BEACON of the manager that is followed. -/
theorem State.validBeacon_stays {s : State} {m : SeamMsg} (hfollow : s.sea.follow = some m.station) (hrole : s.sea.role ≠ 6)
    (hplain : bit (octet m.body 16) 3 = false) : ∃ seq claims dep known cepoch cbase cat,
    (s.validBeacon m).sea = { s.sea with
      arrival := some s.now, lastCns := some (beAt m.body 4 8), period := beAt m.body 18 2, misses := 0, also := none,
      count := beAt m.body 24 4, deputy := dep, cepoch := cepoch, cbase := cbase, cat := cat, known := known, valid := true, seq := seq,
      claims := claims } ∧
    (∀ d, s.sea.path = some d → cepoch = beAt m.body 0 4 ∧ cbase = beAt m.body 4 8 + d ∧ cat = s.now) ∧ Only [.eth, .sea] s (s.validBeacon m) := by
  obtain ⟨htake, known, cepoch, cbase, cat, hsea, hpath⟩ := s.takeBeacon_does m.body
  unfold State.validBeacon
  dsimp only
  rw [if_neg (show ¬decide (s.sea.follow ≠ some m.station) = true by simp [hfollow]), hplain, if_neg (by decide)]
  generalize s.takeBeacon m.body = w at htake hsea
  split
  · obtain ⟨⟨q, claims, hnew⟩, hsent⟩ := w.resendClaims_follower (by rw [hsea]; exact hrole)
    exact ⟨q, claims, _, known, cepoch, cbase, cat, by rw [hnew, hsea], hpath, only_mono (htake.trans hsent) (by simp)⟩
  · exact ⟨s.sea.seq, s.sea.claims, _, known, cepoch, cbase, cat, hsea, hpath, only_mono htake (by simp)⟩

/-- A BEACON by which the manager yields to another. -/
theorem State.validBeacon_yields {s : State} {m : SeamMsg} (hfollow : s.sea.follow = some m.station) (hrole : s.sea.role ≠ 6)
    (hyield : bit (octet m.body 16) 3 = true) : RoleChanged s (s.validBeacon m) s.now s.sea.role 2 5 ∧
      (s.validBeacon m).sea.follow = some (beAt m.body 20 2) ∧ Only [.eth, .sea, .stw] s (s.validBeacon m) := by
  obtain ⟨htake, known, cepoch, cbase, cat, hsea, -⟩ := s.takeBeacon_does m.body
  have hnow : (s.takeBeacon m.body).now = s.now := by simp [State.takeBeacon]
  unfold State.validBeacon
  dsimp only
  rw [if_neg (show ¬decide (s.sea.follow ≠ some m.station) = true by simp [hfollow]), hyield, if_pos rfl]
  generalize s.takeBeacon m.body = w at htake hsea hnow
  obtain ⟨hchanged, hnew, -, honly⟩ := State.toJoining_does (s := w) (by rw [hsea]; exact hrole) (beAt m.body 20 2) 5
  rw [hnow, hsea] at hchanged
  exact ⟨roleChanged_before hchanged (only_mono htake (by simp)), hnew, only_mono (htake.trans honly) (by simp)⟩

section
variable {s : State} {t : Nat} {m : SeamMsg} (htakes : Takes s m)
include htakes

/-- A station that asks to join, and is no member, becomes one. -/
theorem seamJoinReq_joins (hrole : s.sea.role = 6) (hlen : m.body.length = 16) (hnew : tget? s.sea.list m.station = none)
    (hother : m.station ≠ s.station) : Does (.seamJoinReq t m) s (fun u =>
        (∃ y, tget? u.sea.list m.station = some y ∧ y.role = octet m.body 0 ∧ y.prio = octet m.body 1 ∧ y.mac0 = beAt m.body 2 6 ∧
          y.mac1 = beAt m.body 8 6 ∧ y.heard = max s.now t) ∧
        Told s u m.station 4 (be 1 0 ++ zeros 1 ++ be 2 (orNone s.sea.deputy) ++ be 4 u.members) ∧
        Raised s u (max s.now t) 0x602 0x70 0 (be 2 m.station ++ be 1 (octet m.body 0) ++ be 1 (octet m.body 1) ++ be 6 (beAt m.body 2 6) ++
          be 6 (beAt m.body 8 6)) ∧
        (s.sea.deputy = none → s.sea.yield = none → octet m.body 1 ≠ 0 → u.sea.deputy.isSome = true) ∧ u.sea.role = 6 ∧
        Only [.eth, .sea, .stw] s u) := by
  refine does_seam htakes execSeamJoinReq ?_
  have hnote := s.noteSeam_only m t
  rw [if_neg (show ¬(((s.tick t).noteSeam m).sea.role ≠ 6 ∨ m.body.length ≠ 16) by
    rw [not_or, not_not, not_not]
    exact ⟨hrole, hlen⟩)]
  dsimp only
  rw [show tget? ((s.tick t).noteSeam m).sea.list m.station = none from hnew]
  dsimp only
  rw [if_neg (show ¬m.station = ((s.tick t).noteSeam m).station from hother)]
  generalize hy : Station.mk (octet m.body 0) _ _ _ _ _ = y
  generalize hx : State.setSea ((s.tick t).noteSeam m) _ = x
  generalize hu : State.appoint _ = u
  obtain ⟨hlist, htold, hraised, hdep, hrole', honly⟩ := State.joins_does (v := (s.tick t).noteSeam m) hrole m.station y hx hu
  subst hy
  exact ⟨⟨_, hlist, rfl, rfl, rfl, rfl, rfl⟩, noteSeam_told htold, hraised, hdep, hrole', only_mono (hnote.trans honly) (by simp)⟩

/-- A member that asks again is answered by its addresses. -/
theorem seamJoinReq_member (hrole : s.sea.role = 6) (hlen : m.body.length = 16) {y : Station} (hy : tget? s.sea.list m.station = some y) :
    Does (.seamJoinReq t m) s (fun u => u.sea.list = s.sea.list ∧ u.sea.role = 6 ∧
        Told s u m.station 4 (s.joinAck (if y.mac0 = beAt m.body 2 6 ∧ y.mac1 = beAt m.body 8 6 then 0 else 1)) ∧
        Only [.eth, .sea] s u) := by
  refine does_seam htakes execSeamJoinReq ?_
  have hnote := s.noteSeam_only m t
  have hsame := s.noteSeam_same m t
  rw [if_neg (show ¬(((s.tick t).noteSeam m).sea.role ≠ 6 ∨ m.body.length ≠ 16) by
    rw [not_or, not_not, not_not]
    exact ⟨hrole, hlen⟩)]
  dsimp only
  rw [show tget? ((s.tick t).noteSeam m).sea.list m.station = some y from hy]
  dsimp only
  have hanswer (status : Nat) : (((s.tick t).noteSeam m).sendTo m.station 4 (((s.tick t).noteSeam m).joinAck status)).sea.list = s.sea.list ∧
      (((s.tick t).noteSeam m).sendTo m.station 4 (((s.tick t).noteSeam m).joinAck status)).sea.role = 6 ∧
      Told s (((s.tick t).noteSeam m).sendTo m.station 4 (((s.tick t).noteSeam m).joinAck status)) m.station 4 (s.joinAck status) ∧
      Only [.eth, .sea] s (((s.tick t).noteSeam m).sendTo m.station 4 (((s.tick t).noteSeam m).joinAck status)) := by
    obtain ⟨q, hq⟩ := ((s.tick t).noteSeam m).sendTo_sea m.station 4 (((s.tick t).noteSeam m).joinAck status)
    have hsend : Only [.eth, .sea] ((s.tick t).noteSeam m) (((s.tick t).noteSeam m).sendTo m.station 4
      (((s.tick t).noteSeam m).joinAck status)) := by simp [only_iff]
    rw [hq]
    exact ⟨rfl, hrole, State.sendTo_told hsame _ _ _, only_mono (hnote.trans hsend) (by simp)⟩
  by_cases hmac : y.mac0 = beAt m.body 2 6 ∧ y.mac1 = beAt m.body 8 6
  · rw [if_pos hmac, if_pos hmac]
    exact hanswer 0
  · rw [if_neg hmac, if_neg hmac]
    exact hanswer 1

/-- JOIN_ACK with STATUS 0 makes the station a worker, and its claims go to the manager. -/
theorem joinAck_joins (hrole : s.sea.role = 2) (hfollow : s.sea.follow = some m.station) (hlen : m.body.length = 8)
    (hstatus : octet m.body 0 = 0) : Does (.joinAck t m) s (fun u => RoleChanged s u (max s.now t) 2 3 0 ∧ u.sea.count = beAt m.body 4 4 ∧
        u.sea.deputy = (if beAt m.body 2 2 = 0xFFFF then none else some (beAt m.body 2 2)) ∧ u.sea.misses = 0 ∧
        Only [.eth, .sea, .stw] s u) := by
  refine does_seam htakes execJoinAck ?_
  have hnote := s.noteSeam_only m t
  rw [if_neg (show ¬(((s.tick t).noteSeam m).sea.role ≠ 2 ∨ ((s.tick t).noteSeam m).sea.follow ≠ some m.station ∨ m.body.length ≠ 8) by
    simp only [not_or, not_not]
    exact ⟨hrole, hfollow, hlen⟩), if_pos hstatus]
  dsimp only
  generalize hx : State.setSea ((s.tick t).noteSeam m) _ = x
  obtain ⟨hxrole, hxcount, hxdep, hxmiss⟩ : x.sea.role = 2 ∧ x.sea.count = beAt m.body 4 4 ∧
      x.sea.deputy = (if beAt m.body 2 2 = 0xFFFF then none else some (beAt m.body 2 2)) ∧ x.sea.misses = 0 := by
    subst hx
    exact ⟨hrole, rfl, rfl, rfl⟩
  have hxnow : x.now = max s.now t := hx ▸ rfl
  have hxonly : Only [.sea] s x := only_mono (hnote.trans (hx ▸ (by simp [only_iff]) : Only [.sea] ((s.tick t).noteSeam m) x)) (by simp)
  obtain ⟨hnew, honly, -⟩ := x.toRole_new (role := 3) 0 (.inl (by rw [hxrole]; decide))
  have hchanged := x.toRole_changes 3 0
  rw [hxrole, hxnow] at hchanged
  generalize x.toRole 3 0 = w at hnew honly hchanged
  obtain ⟨⟨q, claims, hsea⟩, hsent⟩ := w.resendClaims_follower (by rw [hnew]; exact (by decide : (3 : Nat) ≠ 6))
  have hhold := w.resendClaims_work.holds
  refine ⟨roleChanged_after (roleChanged_before hchanged (only_mono hxonly (by simp))) (by rw [hsea]) hhold, ?_⟩
  rw [hsea, hnew]
  exact ⟨hxcount, hxdep, hxmiss, only_mono (hxonly.trans (honly.trans hsent)) (by simp)⟩

/-- JOIN_ACK with STATUS 1 refuses the station: it asks again in 100 ms. -/
theorem joinAck_refuses (hrole : s.sea.role = 2) (hfollow : s.sea.follow = some m.station) (hlen : m.body.length = 8)
    (hstatus : octet m.body 0 = 1) : Does (.joinAck t m) s (fun u => u.sea.role = 2 ∧ u.sea.refused = true ∧
        u.sea.joinNext = max s.now t + 100 * ms ∧ (s.sea.refused = false → RoleChanged s u (max s.now t) 2 2 7) ∧
        Only [.eth, .sea, .stw] s u) := by
  refine does_seam htakes execJoinAck ?_
  have hnote := s.noteSeam_only m t
  rw [if_neg (show ¬(((s.tick t).noteSeam m).sea.role ≠ 2 ∨ ((s.tick t).noteSeam m).sea.follow ≠ some m.station ∨ m.body.length ≠ 8) by
    simp only [not_or, not_not]
    exact ⟨hrole, hfollow, hlen⟩), if_neg (by rw [hstatus]; decide), if_pos hstatus]
  obtain ⟨wait, hwait⟩ : ∃ wait, 100 * ms = wait := ⟨_, rfl⟩
  rw [hwait]
  dsimp only
  generalize hx : State.setSea ((s.tick t).noteSeam m) _ = x
  obtain ⟨hxrole, hxref, hxnext⟩ : x.sea.role = 2 ∧ x.sea.refused = true ∧ x.sea.joinNext = max s.now t + wait := by
    subst hx
    exact ⟨hrole, rfl, rfl⟩
  have hxnow : x.now = max s.now t := hx ▸ rfl
  have hxonly : Only [.sea] s x := only_mono (hnote.trans (hx ▸ (by simp [only_iff]) : Only [.sea] ((s.tick t).noteSeam m) x)) (by simp)
  rw [show ((s.tick t).noteSeam m).sea.refused = s.sea.refused from rfl]
  cases href : s.sea.refused with
  | true => exact ⟨hxrole, hxref, hxnext, fun h => absurd h (by decide), only_mono hxonly (by simp)⟩
  | false =>
    rw [Bool.not_false, if_pos rfl]
    have hraise := x.raiseAt_raised x.now 0x601 0x70 0 (be 1 2 ++ be 1 2 ++ be 1 7)
      (x.open8s 110 1 ++ be 2 (orNone x.managerOf) ++ be 2 (orNone x.sea.deputy))
    rw [hxnow, ← List.append_assoc, ← List.append_assoc] at hraise
    generalize hdata : be 1 2 ++ be 1 2 ++ be 1 7 ++ x.open8s 110 1 ++ be 2 (orNone x.managerOf) ++ be 2 (orNone x.sea.deputy) = data at hraise
    have hrest : Only [.eth, .stw] x (x.raise 0x601 0x70 0 data) := by simp [only_iff]
    have hsea : (x.raise 0x601 0x70 0 data).sea = x.sea := by simp
    have hchanged : RoleChanged x (x.raise 0x601 0x70 0 data) (max s.now t) 2 2 7 :=
      ⟨by rw [hsea]; exact hxrole, by rw [State.raise, hxnow]; exact hraise⟩
    rw [hsea]
    exact ⟨hxrole, hxref, hxnext, fun _ => roleChanged_before hchanged (only_mono hxonly (by simp)), only_mono (hxonly.trans hrest) (by simp)⟩

/-- A member that leaves is a member no more. -/
theorem seamLeave_drops (hrole : s.sea.role = 6) {y : Station} (hy : tget? s.sea.list m.station = some y) :
    Does (.seamLeave t m) s (fun u => tget? u.sea.list m.station = none ∧
      Raised s u (max s.now t) 0x603 0x70 0 (be 2 m.station ++ be 1 0) ∧ u.sea.deputy ≠ some m.station ∧ Only [.eth, .sea, .stw] s u) := by
  refine does_seam htakes execSeamLeave ?_
  rw [if_pos (show ((s.tick t).noteSeam m).sea.role = 6 from hrole), show tget? ((s.tick t).noteSeam m).sea.list m.station = some y from hy]
  dsimp only
  obtain ⟨hlist, hraised, hdep, hrest⟩ := State.dropMember_does (.refl ((s.tick t).noteSeam m)) m.station 0
  refine ⟨by rw [hlist, tget?_tdel_self], hraised, ?_, only_mono ((s.noteSeam_only m t).trans hrest) (by simp)⟩
  split at hdep
  next => exact hdep.1
  next h =>
    rw [hdep]
    exact h

/-- A manager that leaves is followed by its deputy. -/
theorem seamLeave_takeover (hfollow : s.sea.follow = some m.station) (hrole : s.sea.role = 5) (hprio : s.prio ≠ 0) :
    Does (.seamLeave t m) s (fun u => RoleChanged s u (max s.now t) 5 6 1 ∧
        u.sea.takeover = max s.now t + ms ∧ u.sea.registry = s.sea.registry ∧ Only [.eth, .lin, .regs, .sea, .stw] s u) := by
  refine does_seam htakes execSeamLeave ?_
  rw [if_neg (show ¬((s.tick t).noteSeam m).sea.role = 6 from fun h => absurd (hrole.symm.trans h) (by decide)),
    if_pos (show ((s.tick t).noteSeam m).sea.follow = some m.station from hfollow), if_pos (show ((s.tick t).noteSeam m).sea.role = 5 from hrole)]
  obtain ⟨hchanged, htake, hreg, -, honly⟩ := State.takeOver_does (s := (s.tick t).noteSeam m) hprio hrole
  exact ⟨noteSeam_roleChanged hchanged, htake, hreg, only_mono ((s.noteSeam_only m t).trans honly) (by simp)⟩

theorem seamLeave_elects (hfollow : s.sea.follow = some m.station) (hrole : s.sea.role = 4) (hup : s.anyUp = true) :
    Does (.seamLeave t m) s (fun u => RoleChanged s u (max s.now t) 4 7 8 ∧ u.sea.keepReg = true ∧ Only [.eth, .sea, .stw] s u) := by
  refine does_seam htakes execSeamLeave ?_
  have hrole' : ((s.tick t).noteSeam m).sea.role = 4 := hrole
  rw [if_neg (by rw [hrole']; decide), if_pos (show ((s.tick t).noteSeam m).sea.follow = some m.station from hfollow),
    if_neg (by rw [hrole']; decide), if_pos hrole']
  obtain ⟨hchanged, hsea, honly⟩ := State.toElecting_does (s := (s.tick t).noteSeam m) hup (by rw [hrole']; decide)
  rw [hrole'] at hchanged
  rw [hsea]
  exact ⟨noteSeam_roleChanged hchanged, decide_eq_true hrole', only_mono ((s.noteSeam_only m t).trans honly) (by simp)⟩

end

section
variable {s : State} {t : Nat} {m : SeamMsg} (htakes : Takes s m) (hlen : m.body.length = 28) (hother : m.station ≠ s.station)
include htakes hlen hother

theorem clusterBeaconRx_joins (hrole : s.sea.role = 1) : Does (.clusterBeaconRx t m) s (fun u =>
    RoleChanged s u (max s.now t) 1 2 0 ∧ u.sea.follow = some (beaconManager m.body) ∧ u.sea.joinNext = max s.now t ∧
      Only [.eth, .sea, .stw] s u) := by
  refine does_seam htakes execClusterBeaconRx ?_
  dsimp only
  have hrole' : ((s.tick t).noteSeam m).sea.role = 1 := hrole
  rw [if_neg (show ¬(m.body.length ≠ 28 ∨ m.station = ((s.tick t).noteSeam m).station) from fun h => h.elim (· hlen) hother),
    if_neg (by rw [hrole']; decide), if_pos hrole']
  obtain ⟨hchanged, hfollow, hnext, honly⟩ := State.joinBeacon_does (s := (s.tick t).noteSeam m) (by rw [hrole']; decide) m 0
  rw [hrole'] at hchanged
  exact ⟨noteSeam_roleChanged hchanged, hfollow, hnext, only_mono ((s.noteSeam_only m t).trans honly) (by simp)⟩

theorem clusterBeaconRx_elected (hrole : s.sea.role = 7) : Does (.clusterBeaconRx t m) s (fun u =>
    RoleChanged s u (max s.now t) 7 2 (if bit (octet m.body 16) 2 then 2 else 0) ∧ u.sea.follow = some (beaconManager m.body) ∧
      Only [.eth, .sea, .stw] s u) := by
  refine does_seam htakes execClusterBeaconRx ?_
  dsimp only
  have hrole' : ((s.tick t).noteSeam m).sea.role = 7 := hrole
  rw [if_neg (show ¬(m.body.length ≠ 28 ∨ m.station = ((s.tick t).noteSeam m).station) from fun h => h.elim (· hlen) hother),
    if_neg (by rw [hrole']; decide), if_neg (by rw [hrole']; decide), if_pos hrole']
  obtain ⟨hchanged, hfollow, -, honly⟩ := State.joinBeacon_does (s := (s.tick t).noteSeam m) (by rw [hrole']; decide) m
    (if bit (octet m.body 16) 2 then 2 else 0)
  rw [hrole'] at hchanged
  exact ⟨noteSeam_roleChanged hchanged, hfollow, only_mono ((s.noteSeam_only m t).trans honly) (by simp)⟩

theorem clusterBeaconRx_deputy (hrole : s.sea.role = 6) (hdep : s.sea.deputy = some m.station) : Does (.clusterBeaconRx t m) s (fun u =>
    RoleChanged s u (max s.now t) 6 1 1 ∧ u.sea.follow = none ∧ u.sc.groups = [] ∧ Only [.eth, .sc, .sea, .stw] s u) := by
  refine does_seam htakes execClusterBeaconRx ?_
  dsimp only
  have hrole' : ((s.tick t).noteSeam m).sea.role = 6 := hrole
  rw [if_neg (show ¬(m.body.length ≠ 28 ∨ m.station = ((s.tick t).noteSeam m).station) from fun h => h.elim (· hlen) hother),
    if_pos hrole', if_pos (show ((s.tick t).noteSeam m).sea.deputy = some m.station from hdep)]
  obtain ⟨hchanged, ⟨valid, waits, hsea⟩, honly, hgroups⟩ := ((s.tick t).noteSeam m).toListening_does 1
  rw [hrole'] at hchanged
  exact ⟨noteSeam_roleChanged hchanged, by rw [hsea], hgroups hrole', only_mono ((s.noteSeam_only m t).trans honly) (by simp)⟩

theorem clusterBeaconRx_rival (hrole : s.sea.role = 6) (hdep : s.sea.deputy ≠ some m.station) : Does (.clusterBeaconRx t m) s (fun u =>
    u.sea.role = 6 ∧ Only [.sea] s u ∧
      u.sea.yield = if keyOf s.prio s.station < keyOf (octet m.body 17) m.station ∧ s.sea.yield = none then some (m.station, 4)
        else s.sea.yield) := by
  refine does_seam htakes execClusterBeaconRx ?_
  dsimp only
  have hrole' : ((s.tick t).noteSeam m).sea.role = 6 := hrole
  have hnote := s.noteSeam_only m t
  rw [if_neg (show ¬(m.body.length ≠ 28 ∨ m.station = ((s.tick t).noteSeam m).station) from fun h => h.elim (· hlen) hother),
    if_pos hrole', if_neg (show ¬((s.tick t).noteSeam m).sea.deputy = some m.station from hdep)]
  by_cases h : keyOf s.prio s.station < keyOf (octet m.body 17) m.station ∧ s.sea.yield = none
  · rw [if_pos h, if_pos (show keyOf ((s.tick t).noteSeam m).prio ((s.tick t).noteSeam m).station < keyOf (octet m.body 17) m.station ∧
      ((s.tick t).noteSeam m).sea.yield = none from h)]
    have hset (y : Sea) : Only [.sea] ((s.tick t).noteSeam m) (((s.tick t).noteSeam m).setSea y) := by simp [only_iff]
    exact ⟨hrole', only_mono (hnote.trans (hset _)) (by simp), rfl⟩
  · rw [if_neg h, if_neg (show ¬(keyOf ((s.tick t).noteSeam m).prio ((s.tick t).noteSeam m).station < keyOf (octet m.body 17) m.station ∧
      ((s.tick t).noteSeam m).sea.yield = none) from h)]
    exact ⟨hrole', hnote, rfl⟩

omit htakes hlen hother in
theorem follower_notManager (h : s.sea.role = 2 ∨ s.sea.role = 3 ∨ s.sea.role = 4 ∨ s.sea.role = 5) : s.sea.role ≠ 6 := by omega

/-- What a station that follows a manager does at a BEACON. -/
theorem clusterBeaconRx_follower (hrole : s.sea.role = 2 ∨ s.sea.role = 3 ∨ s.sea.role = 4 ∨ s.sea.role = 5) {effect : State → Prop}
    (h : effect (if (((s.tick t).noteSeam m).sea.follow = some m.station ∨
      (((s.tick t).noteSeam m).sea.also = some m.station ∧ ((s.tick t).noteSeam m).now ≤ ((s.tick t).noteSeam m).sea.limit)) ∧
        ((s.tick t).noteSeam m).sea.later (beAt m.body 4 8) = true then ((s.tick t).noteSeam m).validBeacon m else (s.tick t).noteSeam m)) :
    Does (.clusterBeaconRx t m) s effect := by
  refine does_seam htakes execClusterBeaconRx ?_
  dsimp only
  rw [if_neg (show ¬(m.body.length ≠ 28 ∨ m.station = ((s.tick t).noteSeam m).station) from fun h => h.elim (· hlen) hother),
    if_neg (show ¬((s.tick t).noteSeam m).sea.role = 6 from show ¬s.sea.role = 6 by omega),
    if_neg (show ¬((s.tick t).noteSeam m).sea.role = 1 from show ¬s.sea.role = 1 by omega),
    if_neg (show ¬((s.tick t).noteSeam m).sea.role = 7 from show ¬s.sea.role = 7 by omega)]
  exact h

end

/-- Settles O51: a station listens, joins, elects, leads and leaves as the handlers of its role have it; a seam message that is not for it
changes nothing. -/
theorem stationsJoinFollowAndLeave : Obligations.StationsJoinFollowAndLeave := by
  unfold Obligations.StationsJoinFollowAndLeave
  refine ⟨fun t m c s hon hc => ⟨fun hstray => seamArrival_stray hon hc hstray, fun hstray hno hne => seamArrival_idle hon hc hstray hno hne⟩,
    fun t m s hon hstray hno => helloRx_idle hon hstray hno, ?_, ?_⟩
  · intro t s hon now x v quiet
    have hidle : Only [] s (s.tick t) := s.tick_only t
    refine ⟨fun hoff => seaEnable_starts hon hoff, fun hset => ?_, fun hset => seaDisable_tells hon hset, fun hoff => ?_,
      fun hrole hdue => ⟨fun hkeep => helloDue_casts hon hrole hdue hkeep, fun hprio hhigh => helloDue_leaves hon hdue hprio hhigh⟩, fun hno => ?_,
      fun k y hy => ⟨fun hrole hdue => memberSilent_drops hon hy hrole hdue, fun hno => ?_⟩, fun hrole hdue hup => ?_, fun hno => ?_,
      fun k hk hrole hdue => ?_, fun hno => ?_, fun hrole hdue => clusterBeaconDue_casts hon hrole hdue, fun hno => ?_,
      fun d hd hrole hdue => beaconMiss_counts hon hd hrole hdue, fun hno => ?_,
      fun hrole hmiss hdue hup => takeoverTimeout_elects hon hrole hmiss hdue hup, fun hno => ?_⟩
    · refine does_whenOn hon ?_
      rw [if_pos (show (s.tick t).flag F.seaCtlEn = true from hset)]
      exact hidle
    · refine does_whenOn hon ?_
      rw [if_neg (show ¬(s.tick t).flag F.seaCtlEn = true from fun h => absurd (hoff.symm.trans h) (by decide))]
      exact hidle
    · refine does_whenOn hon ?_
      rw [if_neg (show ¬((s.tick t).sea.role ≠ 0 ∧ (s.tick t).sea.hello + ms ≤ (s.tick t).now) from fun h => hno.elim (fun hr => h.1 hr)
        fun hearly => absurd h.2 (Nat.not_le.2 hearly))]
      exact hidle
    · refine does_whenOn hon ?_
      rw [show tget? (s.tick t).sea.list k = some y from hy]
      dsimp only
      rw [if_neg (show ¬((s.tick t).sea.role = 6 ∧ y.heard + 10 * ms ≤ (s.tick t).now) from fun h => hno.elim (fun hr => hr h.1)
        fun hearly => absurd h.2 (Nat.not_le.2 hearly))]
      exact hidle
    · refine does_whenOn hon ?_
      rw [if_pos (show (s.tick t).sea.role = 1 ∧ (s.tick t).sea.entered + 3 * ms ≤ (s.tick t).now from ⟨hrole, hdue⟩)]
      have hrole' : (s.tick t).sea.role = 1 := hrole
      obtain ⟨hchanged, hsea, honly⟩ := State.toElecting_does (s := s.tick t) hup (by rw [hrole']; decide)
      rw [hrole'] at hchanged
      rw [hsea]
      refine ⟨roleChanged_before hchanged (only_mono hidle (by simp)), rfl, rfl, rfl, ?_, only_mono (hidle.trans honly) (by simp)⟩
      exact decide_eq_false (by rw [hrole']; decide)
    · refine does_whenOn hon ?_
      by_cases hup : s.anyUp = false
      · rw [State.toElecting_down (s := s.tick t) hup, ite_self]
        exact hidle
      · rw [if_neg (show ¬((s.tick t).sea.role = 1 ∧ (s.tick t).sea.entered + 3 * ms ≤ (s.tick t).now) by
          rintro ⟨hrole, hdue⟩
          rcases hno with h | h | h
          · exact h hrole
          · exact absurd hdue (Nat.not_le.2 h)
          · exact hup h)]
        exact hidle
    · refine does_whenOn hon ?_
      rw [show (s.tick t).sea.follow = some k from hk]
      dsimp only
      rw [if_pos (show (s.tick t).sea.role = 2 ∧ (s.tick t).sea.joinNext ≤ (s.tick t).now from ⟨hrole, hdue⟩)]
      obtain ⟨wait, hwait⟩ : ∃ wait, (if s.sea.refused = true then 100 * ms else ms) = wait := ⟨_, rfl⟩
      rw [show (if (s.tick t).sea.refused = true then 100 * ms else ms) = wait from hwait, show (if x.refused = true then 100 * ms else ms) = wait
        from hwait]
      generalize hw : State.setSea (s.tick t) _ = w
      have hwsea : w.sea = { s.sea with joinNext := max s.now t + wait } := hw ▸ rfl
      have hsame : SeamSame s w := hw ▸ .of_parts rfl rfl rfl
      have hwonly : Only [.sea] s w := only_mono (hidle.trans (hw ▸ (by simp [only_iff]) : Only [.sea] (s.tick t) w)) (by simp)
      rw [show (s.tick t).helloBody = s.helloBody from rfl]
      obtain ⟨q, hq⟩ := w.sendTo_sea k 3 s.helloBody
      have hsend : Only [.eth, .sea] w (w.sendTo k 3 s.helloBody) := by simp [only_iff]
      exact ⟨by rw [hq, hwsea], State.sendTo_told hsame _ _ _, only_mono (hwonly.trans hsend) (by simp)⟩
    · refine does_whenOn hon ?_
      split
      next k hk =>
        rw [if_neg (show ¬((s.tick t).sea.role = 2 ∧ (s.tick t).sea.joinNext ≤ (s.tick t).now) from fun h => hno.elim (fun hr => hr h.1)
          fun hearly => absurd h.2 (Nat.not_le.2 hearly))]
        exact hidle
      next => exact hidle
    · refine does_whenOn hon ?_
      rw [if_neg (show ¬((s.tick t).sea.role = 6 ∧ (s.tick t).sea.beacon ≤ (s.tick t).now) from fun h => hno.elim (fun hr => hr h.1)
        fun hearly => absurd h.2 (Nat.not_le.2 hearly))]
      exact hidle
    · refine does_whenOn hon ?_
      dsimp only
      rw [if_neg (show ¬(((s.tick t).sea.role = 3 ∨ (s.tick t).sea.role = 4 ∨ (s.tick t).sea.role = 5) ∧
        ((s.tick t).sea.deadline.any fun d => decide (d ≤ (s.tick t).now)) = true) by
          rintro ⟨hrole, hdue⟩
          rcases hno with ⟨h3, h4, h5⟩ | hearly
          · exact hrole.elim h3 (·.elim h4 h5)
          · cases hd : s.sea.deadline with
            | none => rw [show (s.tick t).sea.deadline = none from hd] at hdue; exact absurd hdue (by simp)
            | some d =>
              rw [show (s.tick t).sea.deadline = some d from hd, Option.any_some] at hdue
              exact absurd (of_decide_eq_true hdue) (Nat.not_le.2 (hearly d hd)))]
      exact hidle
    · refine does_whenOn hon ?_
      rw [if_neg (show ¬(((s.tick t).sea.role = 3 ∨ (s.tick t).sea.role = 4) ∧ 3 ≤ (s.tick t).sea.misses ∧
        (s.tick t).sea.limit ≤ (s.tick t).now) by
          rintro ⟨hrole, hmiss, hdue⟩
          rcases hno with ⟨h3, h4⟩ | h | h
          · exact hrole.elim h3 h4
          · exact absurd hmiss (Nat.not_le.2 h)
          · exact absurd hdue (Nat.not_le.2 h))]
      exact hidle
  · intro t m s htakes now x b
    have hnote := s.noteSeam_only m t
    refine ⟨fun hlen => helloRx_notes htakes hlen, fun hrole hlen => ⟨fun hnew hother => seamJoinReq_joins htakes hrole hlen hnew hother,
        fun y hy => seamJoinReq_member htakes hrole hlen hy⟩,
      fun hrole hfollow hlen => ⟨fun hstatus => joinAck_joins htakes hrole hfollow hlen hstatus,
        fun hstatus => joinAck_refuses htakes hrole hfollow hlen hstatus⟩,
      fun y hrole hy => seamLeave_drops htakes hrole hy,
      fun hfollow => ⟨fun hrole hprio => seamLeave_takeover htakes hfollow hrole hprio, fun hrole hup => seamLeave_elects htakes hfollow hrole hup⟩,
      fun hlen hother => ⟨fun hrole => clusterBeaconRx_joins htakes hlen hother hrole, fun hrole => clusterBeaconRx_elected htakes hlen hother hrole,
        fun hrole hdep => clusterBeaconRx_deputy htakes hlen hother hrole hdep,
        fun hrole hdep => clusterBeaconRx_rival htakes hlen hother hrole hdep,
        fun hrole => ⟨fun hfollow hlater hplain => ?_, fun hfollow hlater hyield => ?_, fun hno => ?_⟩⟩⟩
    · refine clusterBeaconRx_follower htakes hlen hother hrole ?_
      rw [if_pos (show (((s.tick t).noteSeam m).sea.follow = some m.station ∨ (((s.tick t).noteSeam m).sea.also = some m.station ∧
        ((s.tick t).noteSeam m).now ≤ ((s.tick t).noteSeam m).sea.limit)) ∧ ((s.tick t).noteSeam m).sea.later (beAt m.body 4 8) = true from
          ⟨.inl hfollow, hlater⟩)]
      obtain ⟨seq, claims, dep, known, cepoch, cbase, cat, hsea, hpath, honly⟩ :=
        State.validBeacon_stays (s := (s.tick t).noteSeam m) hfollow (follower_notManager hrole) hplain
      rw [hsea]
      exact ⟨rfl, rfl, rfl, rfl, rfl, rfl, rfl, rfl, rfl, hpath, only_mono (hnote.trans honly) (by simp)⟩
    · refine clusterBeaconRx_follower htakes hlen hother hrole ?_
      rw [if_pos (show (((s.tick t).noteSeam m).sea.follow = some m.station ∨ (((s.tick t).noteSeam m).sea.also = some m.station ∧
        ((s.tick t).noteSeam m).now ≤ ((s.tick t).noteSeam m).sea.limit)) ∧ ((s.tick t).noteSeam m).sea.later (beAt m.body 4 8) = true from
          ⟨.inl hfollow, hlater⟩)]
      obtain ⟨hchanged, hnew, honly⟩ := State.validBeacon_yields (s := (s.tick t).noteSeam m) hfollow (follower_notManager hrole) hyield
      exact ⟨noteSeam_roleChanged hchanged, hnew, only_mono (hnote.trans honly) (by simp)⟩
    · refine clusterBeaconRx_follower htakes hlen hother hrole ?_
      rw [if_neg (show ¬((((s.tick t).noteSeam m).sea.follow = some m.station ∨ (((s.tick t).noteSeam m).sea.also = some m.station ∧
        ((s.tick t).noteSeam m).now ≤ ((s.tick t).noteSeam m).sea.limit)) ∧ ((s.tick t).noteSeam m).sea.later (beAt m.body 4 8) = true) by
          rintro ⟨hfrom, hlater⟩
          rcases hno with ⟨hfollow, halso⟩ | h
          · rcases hfrom with hf | ⟨ha, hlimit⟩
            · exact hfollow hf
            · exact halso.elim (fun hn => hn ha) fun hover => absurd hlimit (Nat.not_le.2 hover)
          · exact absurd (hlater.symm.trans h) (by decide))]
      exact ⟨rfl, hnote⟩

end Sys2Proof.Machine
end
